-- ==== Sys2Proof/Word.lean ====
section
/-!
DEFINITION. The word types of the WNK-F512 model: bytes and words as bit vectors (what software sees as bits), and the
shape of every sparse store.
-/

namespace Sys2Proof

/-- One byte. -/
abbrev Byte := BitVec 8

/-- A 32-bit register word (R15). -/
abbrev Word32 := BitVec 32

/-- A 64-bit register or time field (R11, R15). -/
abbrev Word64 := BitVec 64

/-- A sparse store in canonical form: keys strictly rising, no entry equal to what an unlisted key reads as. -/
abbrev Sparse (α : Type) := List (Nat × α)

/-- A hand (R117, R150): output number to raw 16-bit hand entry; an unlisted output reads as entry 0 (V = 0). -/
abbrev Hand := Sparse (BitVec 16)

/-- A cell image (R82): bit c is the state of the cell with element ID c, 0 bar and 1 cross. -/
abbrev Image := BitVec 4864

/-- One bit per optical port, for inputs or for outputs. -/
abbrev PortMask := BitVec 512

/-- The two control dies (R5). -/
inductive DieId where
  | cd0
  | cd1
deriving DecidableEq, Repr

/-- The other control die. -/
def DieId.peer : DieId → DieId
  | .cd0 => .cd1
  | .cd1 => .cd0

/-- The die's number, 0 or 1 (R5). -/
def DieId.num : DieId → Nat
  | .cd0 => 0
  | .cd1 => 1

end Sys2Proof
end

