-- ==== Sys2Proof/Syntax.lean ====
section
/-!
DEFINITION. The commands of the block: one constructor for each row of spec/opcode_table.json, with the operands that
reach the module with it. An operand carries what comes from outside the unit that acts (a register value, a message, a
converted reading); everything else the meaning reads from State.
-/

namespace Sys2Proof

/-- A command ring of one function of one die (R393). -/
structure RingRef where
  die : DieId
  fn : Fin 4
  ring : Fin 8
deriving DecidableEq, Repr

/-- A place the host reaches on a control die: a function's BAR0 (R13), or the 64 MiB of PF1 BAR2 (R14, R151). -/
inductive HostAddr where
  | bar0 (fn : Fin 4) (off : BitVec 16)
  | bar2 (off : BitVec 26)
deriving DecidableEq, Repr

/-- A drive output of a bank-die channel (R257 to R260). -/
inductive DriveOut where
  | heater
  | pin
  | gate
deriving DecidableEq, Repr

/-- A drive write as it crosses a bank link (R248, R263, R265, R269). -/
structure DriveMsg where
  chan : Nat
  out : DriveOut
  /-- Heater: 17-bit value in ×1 LSB (R257). PIN: 12-bit code. Gate: 14-bit code. -/
  code : Nat
  /-- PIN reference ×2 with the write (R259). -/
  x2 : Bool
  /-- Strobe group named by the write, 0 to 15 (R264). -/
  group : Nat
  /-- Fires the group after the write. -/
  fire : Bool
  /-- Deal sequence number the writer last saw for the element (R265). -/
  dealSeq : Nat
  /-- Per-element update number (R269). -/
  update : Nat
deriving DecidableEq, Repr

/-- A preload as it crosses a bank link (R130). -/
structure PreloadMsg where
  number : Nat
  /-- Deal instant in units of 125 ps. -/
  instant : Nat
  /-- State bits of the bank die's 608 cells, by local index (R255). -/
  cells : BitVec 608
  /-- DAC codes of the changed gates: local index and code. -/
  gates : List (Nat × BitVec 14)
  /-- The deal is thermal-only (R138). -/
  thermal : Bool
  /-- Heater values of cells switched on their heaters in a thermal-only deal: local index and value (R138). -/
  heaters : List (Nat × Nat)
deriving DecidableEq, Repr

/-- A blind-context entry of a cell (R282). -/
structure BlindCell where
  cross : Bool
  /-- Heater position: 0 B, 1 C, 2 W (R141). -/
  pos : Fin 3
  onPin : Bool
  handoff : Bool
deriving DecidableEq, Repr

/-- One update of a bank die's blind context or blind tables (R282). -/
inductive BlindWrite where
  | cell (l : Nat) (c : BlindCell)
  | gateStep (l : Nat) (step : Fin 16)
  /-- Codes B, C and W and the π current of cell l at calibration temperature t. -/
  | cellTable (t : Fin 12) (l : Nat) (b c w ipi : Nat)
  /-- Gate code of gate l for one step, 0 to 14, at calibration temperature t. -/
  | gateTable (t : Fin 12) (l : Nat) (step : Fin 15) (code : BitVec 14)
  /-- The temperature offset D_b in 1/128 °C. -/
  | offset (d : Int)
deriving DecidableEq, Repr

/-- How the word an engine fetches from the control store or patch RAM checks (R243). -/
inductive EccRead where
  | clean
  | corrected
  | double
deriving DecidableEq, Repr

/-- What a fetch at an engine's micro-PC reads: the word of the ROM at that address, and how the word fetched checks (R243). -/
structure FetchedWord where
  word : BitVec 128
  ecc : EccRead
deriving DecidableEq, Repr

/-- A host read of a register: its offset, and whether it is a read of 8 bytes (R15). -/
structure RegRead where
  off : BitVec 16
  wide : Bool
deriving DecidableEq, Repr

/-- An engine that tests itself: a hold engine (R240) or a planner engine (R187). -/
inductive TestEngine where
  | hold (e : Fin 64)
  | planner (e : Fin 32)
deriving DecidableEq, Repr

/-- How a VSP message reached the module (R311, R312): the address and form a reply repeats. -/
structure VspFrom where
  die : DieId
  port : Fin 8
  mac : BitVec 48
  /-- Tags in order: TPID and TCI (PCP, DEI, VID). -/
  tags : List (BitVec 16 × BitVec 16)
  /-- The IP source address and UDP source port, when the message came over UDP; the address is 4 or 16 bytes. -/
  udp : Option (List Byte × BitVec 16)
deriving DecidableEq, Repr

/-- A VSP message as the parser delivers it to the VSP engine (R314, R346, R347). -/
structure VspRx where
  src : VspFrom
  /-- Delivered class after rules and policers (R345, R350, R383). -/
  cls : Fin 8
  /-- Rule colour: 0 green, 1 yellow, 2 red (R345). -/
  colour : Fin 4
  /-- Egress queue of the reply, when an action set one (R345). -/
  queue : Option (Fin 32)
  /-- Receive stamp, TAI ns (R99). -/
  stamp : Nat
  /-- Bytes of the frame from the start of the message to the end of the frame. -/
  bytes : List Byte
  /-- Frame length with FCS, the L of R383 and R385. -/
  frameLen : Nat
deriving DecidableEq, Repr

/-- A frame received on a control port, without its FCS (R338 to R342, R370). -/
structure RxFrame where
  bytes : List Byte
  /-- Raw PCS receive time in 2⁻¹⁶ ns (R99). -/
  pcsTime : Nat
  /-- The FCS is wrong. -/
  badFcs : Bool
  /-- FEC could not correct a codeword of the frame. -/
  uncorrectable : Bool
  /-- Received as IEEE 802.3br express traffic. -/
  express : Bool
  /-- Codewords of it that FEC corrected, fragments it came in when it was interrupted, and a failure to reassemble them (R375). -/
  corrected : Nat
  fragments : Nat
  reassemblyErr : Bool
deriving DecidableEq, Repr

/-- A ZSL telegram with the network it arrived on: network A is CD0's ports, network B CD1's (R441, R453). -/
structure ZslRx where
  net : DieId
  src : VspFrom
  bytes : List Byte
deriving DecidableEq, Repr

/-- A temperature path (R473). -/
inductive SensorPath where
  | fabricBd0
  | fabricBd4
  | bank (b : Fin 8)
  | control (d : DieId)
deriving DecidableEq, Repr

/-- The seven rails, in the order of R487. -/
inductive Rail where
  | vcore | vsram | vio | v3p3 | vana | vpin | vhtr
deriving DecidableEq, Repr

/-- What a bus-matrix request does (R508 to R510). -/
inductive MtxOp where
  | read
  | write (data : List Byte)
  | exLoad
  | exStore (data : List Byte)
deriving DecidableEq, Repr

/-- A request of a bus-matrix master (R508, R511). -/
structure MtxReq where
  master : Fin 8
  id : Nat
  addr : BitVec 40
  /-- Length in bytes. -/
  len : Nat
  op : MtxOp
deriving DecidableEq, Repr

/-- The result of a survey as the engine measures it (R303). -/
structure SurveyResult where
  /-- Heater correction folded into B and C, in LSB. -/
  heaterFold : Int
  /-- New PIN cross current at T_f. -/
  ipi : Nat
  extBar : BitVec 16
  extCross : BitVec 16
  lock : Byte
deriving DecidableEq, Repr

/-- A command on the service domain (R513, R516, R517). -/
inductive ServiceCmd where
  | identification
  | boundaryScan
  | readRegister (fn : Fin 4) (off : BitVec 16)
  | readRecordStore (off : BitVec 15)
  | readAlwaysOn (off : BitVec 16)
  | unlock1 (pw : BitVec 128)
  | challenge
  | unlock2 (resp : BitVec 256)
  | lock
  | setPw (pw : BitVec 128)
  | flashProgram (addr : Nat) (data : List Byte)
deriving DecidableEq, Repr

/-- A probe slot's conversions at one PROBE_TRIG edge: slot number and its four raw counts (R276). -/
abbrev ProbeConv := Nat × List (BitVec 14)

/-- The commands of the block. -/
inductive Instr where
  -- ring commands (R403): a descriptor on a command ring
  | nop (q : RingRef) (desc : List Byte)
  | take (q : RingRef) (desc : List Byte)
  | takeBatch (q : RingRef) (desc : List Byte)
  | handRead (q : RingRef) (desc : List Byte)
  | deckLoad (q : RingRef) (desc : List Byte)
  | deckArm (q : RingRef) (desc : List Byte)
  | deckStop (q : RingRef) (desc : List Byte)
  | deckSwap (q : RingRef) (desc : List Byte)
  | loopSet (q : RingRef) (desc : List Byte)
  | ditherRun (q : RingRef) (desc : List Byte)
  | calLoad (q : RingRef) (desc : List Byte)
  | calCommit (q : RingRef) (desc : List Byte)
  | talonSubst (q : RingRef) (desc : List Byte)
  | tableOp (q : RingRef) (desc : List Byte)
  | ruleCommit (q : RingRef) (desc : List Byte)
  | gateListLoad (q : RingRef) (desc : List Byte)
  | telemSub (q : RingRef) (desc : List Byte)
  | takeover (q : RingRef) (desc : List Byte)
  | safetyQuery (q : RingRef) (desc : List Byte)
  | healthQuery (q : RingRef) (desc : List Byte)
  | convCal (q : RingRef) (desc : List Byte)
  | frameSend (q : RingRef) (desc : List Byte)
  -- host interface events
  | doorbellPoll (die : DieId) (fn : Fin 4) (drv : Option (List Word32))
  | pollIdleTimeout (die : DieId) (fn : Fin 4)
  | descriptorValidate (die : DieId)
  | interruptCoalesceTimeout (die : DieId) (fn : Fin 4) (ring : Fin 26)
  | hifKick (die : DieId) (fn : Fin 4) (value : Word32)
  | ringEnable (die : DieId) (fn : Fin 4) (ring : Fin 26) (cfg : Word32)
  | ringDisable (die : DieId) (fn : Fin 4) (ring : Fin 26) (cfg : Word32)
  | functionLevelReset (die : DieId) (fn : Fin 4) (byRegister : Bool)
  | registerWrite (die : DieId) (fn : Fin 4) (off : BitVec 16) (wide : Bool) (value : Word64)
  | unmappedAccess (die : DieId) (at_ : HostAddr) (len : Fin 9) (write : Bool)
  | lowWordReadCapture (die : DieId) (fn : Fin 4) (off : BitVec 16) (wide : Bool)
  | rcRegisterRead (die : DieId) (fn : Fin 4) (off : RegRead)
  -- mode requests (R49)
  | goDark (die : DieId)
  | run (die : DieId)
  | blindHold (die : DieId)
  | standby (die : DieId)
  | recal (die : DieId)
  -- register rows with an action of their own
  | timIncrWrite (die : DieId) (value : Word64)
  | timAdjWrite (die : DieId) (value : Word64)
  | txtsFlush (die : DieId)
  | txtsInfoRead (die : DieId)
  | partApply (die : DieId) (set : Fin 4)
  | hldElSelect (die : DieId) (element : BitVec 13)
  | hldElApply (die : DieId) (ctrl : Word32)
  | hldElClear (die : DieId)
  | hldElManWrite (die : DieId) (value : Word64)
  | fenceRequest (die : DieId) (mask : Word64)
  | patchDataWrite (die : DieId) (data : Word32)
  | patchVerify (die : DieId)
  | patchVerifyDone (die : DieId)
  | patchActivate (die : DieId)
  | patchClear (die : DieId)
  | patchDrained (die : DieId)
  | bnkChSelect (die : DieId) (bank : Fin 8) (chan : BitVec 10)
  | bnkProbeSnap (die : DieId) (bank : Fin 8) (slot : Fin 16) (restart : Bool)
  | tmgSmpSelect (die : DieId) (port : Fin 8) (queue : Fin 32)
  | bnkManCodeWrite (die : DieId) (bank : Fin 8) (value : Word32)
  | bnkManFire (die : DieId) (bank : Fin 8)
  | htrGainModeWrite (die : DieId) (bank : Fin 8) (mode : BitVec 2)
  | prsRuleWrite (die : DieId)
  | prsRuleRead (die : DieId)
  | prsRuleInvalidate (die : DieId)
  | eptRead (die : DieId) (pipe : Fin 2)
  | eptWrite (die : DieId) (pipe : Fin 2)
  | eptDelete (die : DieId) (pipe : Fin 2)
  | eptSearch (die : DieId) (pipe : Fin 2)
  | eptFlushAged (die : DieId) (pipe : Fin 2)
  | ethApply (die : DieId) (mode : BitVec 1)
  | thmRelease (die : DieId)
  | lgdSave (die : DieId)
  | lgdForceWrite (die : DieId) (value : Word32)
  | fltForceWrite (die : DieId) (word : Fin 8) (value : Word32)
  | fltStickyClear (die : DieId) (word : Fin 8) (value : Word32)
  | fltSrcWrite (die : DieId) (src : BitVec 8) (value : Word32)
  | softwareDieReset (die : DieId) (value : Word32)
  | softResetRelease (die : DieId)
  | bootStartedWrite (die : DieId)
  | mtxRemapSet (die : DieId)
  | mtxMrstWrite (die : DieId) (value : BitVec 8)
  | unlock1 (die : DieId)
  | challenge (die : DieId)
  | unlock2 (die : DieId)
  | lock (die : DieId)
  | setPw (die : DieId)
  | calRdDataRead (die : DieId)
  | thmRsDataRead (die : DieId)
  -- time base
  | ppsOutPulse (die : DieId)
  | syncOutPulse (die : DieId) (k : Fin 4)
  | ppsInAbsent (die : DieId)
  | slavingError (ofs : Int)
  | delayMeasurement (die : DieId) (bank : Fin 8) (roundTripPs : Nat)
  | disciplineMessage (port : DieId) (bank : Fin 8)
  -- the Dealer
  | verifyConversion (die : DieId) (elem : Fin 5888) (raw : BitVec 14)
  | handoffStart (die : DieId) (cell : Fin 4864)
  | handoffEnd (die : DieId) (cell : Fin 4864)
  | deferredRelease (die : DieId) (cell : Fin 4864)
  | lateLight (input : Fin 512)
  | surveyStart (cell : Fin 4864)
  | surveyEnd (cell : Fin 4864) (result : SurveyResult)
  -- hold loops
  | ditherEdge (die : DieId) (cell : Fin 4864)
  | settleExpiry (die : DieId) (cell : Fin 4864)
  | cellUpdate (die : DieId) (cell : Fin 4864)
  | gateUpdate (die : DieId) (gate : Fin 1024)
  | refreshDue (die : DieId) (elem : Fin 5888)
  | comparatorWake (die : DieId) (elem : Fin 5888)
  | updateDeadlineMiss (die : DieId) (elem : Fin 5888)
  | fallbackRetry (die : DieId) (elem : Fin 5888)
  | loopModeApply (die : DieId) (elem : Fin 5888)
  | clusterDoze (die : DieId) (cluster : Fin 8)
  | ditherRunStimulusUpdate (bank : Fin 8)
  | ditherRunWindowEnd (elem : Fin 5888)
  -- hold engines: the operands are the word the control-store ROM delivers at the engine's micro-PC and how the word fetched checks
  | taskRelease (die : DieId) (elem : Fin 5888)
  | next (die : DieId) (eng : Fin 64) (rom : FetchedWord)
  | jump (die : DieId) (eng : Fin 64) (rom : FetchedWord)
  | call (die : DieId) (eng : Fin 64) (rom : FetchedWord)
  | ret (die : DieId) (eng : Fin 64) (rom : FetchedWord)
  | branch (die : DieId) (eng : Fin 64) (rom : FetchedWord)
  | dispatch (die : DieId) (eng : Fin 64) (rom : FetchedWord)
  | wait (die : DieId) (eng : Fin 64) (rom : FetchedWord)
  | waitResume (die : DieId) (eng : Fin 64) (elem : Fin 5888)
  | sliceOverrun (die : DieId) (eng : Fin 64)
  | selftest (die : DieId) (eng : TestEngine) (pass : Bool)
  | selftestTimeout (die : DieId) (eng : Fin 64)
  -- bank dies: `port` is the control die whose link port the message arrives on
  | driveWrite (port : DieId) (bank : Fin 8) (msg : DriveMsg)
  | preloadReceive (port : DieId) (bank : Fin 8) (msg : PreloadMsg)
  | preloadCancel (port : DieId) (bank : Fin 8) (number : Nat)
  | accumulatorRead (port : DieId) (bank : Fin 8) (chan : Fin 736) (update : Nat)
  | accumulatorReadRestart (port : DieId) (bank : Fin 8) (chan : Fin 736) (update : Nat)
  | accumulatorRestart (port : DieId) (bank : Fin 8) (chan : Fin 736) (update : Nat)
  | urgentRequest (port : DieId) (bank : Fin 8) (chan : Fin 736) (update : Nat)
  | bandSet (port : DieId) (bank : Fin 8) (chan : Fin 736) (lo hi : BitVec 24) (update : Nat)
  | adcConversion (bank : Fin 8) (adc : Fin 24) (raw : BitVec 14)
  | probeTrigEdge (bank : Fin 8) (convs : List ProbeConv)
  | tokenClaim (port : DieId) (bank : Fin 8)
  | tokenYield (port : DieId) (bank : Fin 8)
  | overlapEnd (bank : Fin 8)
  | safetyShut (port : DieId) (bank : Fin 8) (gates : BitVec 128)
  | safetyRelease (port : DieId) (bank : Fin 8) (gates : BitVec 128)
  | gainChange (port : DieId) (bank : Fin 8) (x2 : Bool)
  | blindContextWrite (port : DieId) (bank : Fin 8) (writes : List BlindWrite)
  | bankConvCalStart (port : DieId) (bank : Fin 8)
  | bankConvCalEnd (bank : Fin 8) (adcFail : BitVec 24)
  | shadowCopyTimeout (bank : Fin 8)
  | holderSilenceBlind (bank : Fin 8)
  | blindEngineTick (bank : Fin 8)
  | blindRampStep (bank : Fin 8)
  | heaterShort (bank : Fin 8) (chan : Fin 608)
  | driveFault (bank : Fin 8) (chan : Fin 736)
  | shutdownNotice (port : DieId) (bank : Fin 8)
  | shutdownCut (port : DieId) (bank : Fin 8)
  | noticeSilenceCut (bank : Fin 8)
  | bankSelfShutdown (bank : Fin 8)
  | bankLinkBadFrame (die : DieId) (bank : Fin 8)
  | bankLinkDown (die : DieId) (bank : Fin 8)
  | bankLinkRetrainFail (die : DieId) (bank : Fin 8)
  | bankLinkUp (die : DieId) (bank : Fin 8)
  -- redundancy
  | mirrorLinkBadFrame (die : DieId)
  | heartbeatSend (die : DieId)
  | heartbeatWindowMiss (die : DieId)
  | watchdogStall (die : DieId)
  | soloCheck (die : DieId)
  | claimRepeat (die : DieId)
  | claimAbandon (die : DieId)
  | tokenRefused (die : DieId) (bank : Fin 8)
  | tokenGranted (die : DieId) (bank : Fin 8)
  | fullFabricService (die : DieId)
  | yieldPoint (die : DieId)
  | resyncStart (die : DieId)
  | resyncComplete (die : DieId)
  | bootComplete (die : DieId)
  | roleWaitExpiry (die : DieId)
  -- Light Guard
  | guardChannelFiltered (unit : DieId) (zone : Fin 4) (closed : Bool)
  | zoneStartupTestDone (zone : Fin 4)
  | zoneDiscrepancy (zone : Fin 4)
  | zoneAutoReset (zone : Fin 5)
  | safetyUnitSelftest (unit : DieId) (pass : Bool) (peerOscOk : Bool)
  | permitTestPulse (unit : DieId) (permit : Fin 8) (readLow : Bool) (readHigh : Bool)
  | sDualControl (rx : ZslRx)
  | sBlackStateSend (conn : Fin 256)
  | sBlackEcho (conn : Fin 256) (rx : ZslRx)
  | sBlackTimeout (conn : Fin 256)
  -- faults
  | faultReaction (die : DieId) (src : Fin 250)
  | faultWindowExpiry (die : DieId) (src : Fin 250)
  | escalationWindowExpiry (domain : Fin 5) (inst : Nat)
  | peerAbsenceTimeout (die : DieId)
  | healthReport (die : DieId)
  -- thermal and power
  | sensorReading (path : SensorPath) (temp : Int)
  | heaterPowerEstimate (die : DieId)
  | tFFilterUpdate (die : DieId)
  | supplyBelowHold (rail : Rail)
  | supplyExcursion (rail : Rail) (high : Bool)
  -- resets and boot
  | cdrstAssert (die : DieId)
  | cdrstRelease (die : DieId)
  | bootWatchdog (die : DieId)
  | bootReplaceTimeout (die : DieId)
  -- bus matrix
  | matrixRequest (die : DieId) (req : MtxReq)
  | masterReset (die : DieId) (master : Fin 8)
  | drainTimeout (die : DieId) (master : Fin 8)
  | lateResponse (die : DieId) (target : Fin 10)
  -- service lock
  | nonceExpiry (die : DieId)
  | lockoutEnd (die : DieId)
  -- control ports
  | frameReceive (die : DieId) (port : Fin 8) (frame : RxFrame)
  | recirculationPass (die : DieId) (pipe : Fin 2)
  | learnRequestProcess (die : DieId) (pipe : Fin 2)
  | agingSweep (die : DieId) (pipe : Fin 2)
  | flapLockExpiry (die : DieId) (pipe : Fin 2) (slot : Nat)
  | frameTransmitStart (die : DieId) (port : Fin 8)
  | gateListEntry (die : DieId) (port : Fin 8)
  | gateListStart (die : DieId) (port : Fin 8)
  | queueSample (die : DieId)
  | mmVerifyResult (die : DieId) (port : Fin 8) (ok : Bool)
  | portLinkChange (die : DieId) (port : Fin 8) (up : Bool)
  -- VSP messages
  | register (rx : VspRx)
  | hello (rx : VspRx)
  | bid (rx : VspRx)
  | vspTake (rx : VspRx)
  | deckinfo (rx : VspRx)
  | portcheck (rx : VspRx)
  | vendor (rx : VspRx)
  | agentTimeout (agent : Fin 4096)
  | portcheckDeadline (port : Fin 512)
  | portcheckRetry (port : Fin 512)
  -- completions of operations begun by other rows
  | hostReadComplete (die : DieId) (read : Nat) (data : Option (List Byte))
  | eptCommandDone (die : DieId)
  | lgdSaveDone (die : DieId)
  | svcOperationDone (die : DieId) (random : BitVec 128)
  | matrixResponse (die : DieId) (master : Fin 8) (target : Fin 10)
  | portCleanRestored (die : DieId) (port : Fin 8)
  | servicePathCommand (die : DieId) (cmd : ServiceCmd)
  -- commands without an operand (last, so that every constructor with operands keeps a small tag)
  | ppsInEdge
  | preparationWindowOpen
  | preloadSend
  | preloadCutoff
  | dealFire
  | mirrorRecordReceive
  | mirrorAck
  | mirrorAckTimeout
  | planningStart
  | planningDone
  | planningDeadline
  | benchRecomputeDone
  | calibrationBoundary
  | mirrorLinkDown
  | mirrorRetrainFail
  | mirrorLinkUp
  | selfCalComplete
  | safeEstop
  | crossLinkExchange
  | crossLinkFault
  | configCrcCompare
  | sDualCopyMissing
  | sDualTimeout
  | sDualStatusSend
  | classLStopTimeout
  | powerOn
  | suppliesRestored
  | modrstAssert
  | modrstRelease
  | modrstHeldLong
  | svcInactivityTimeout
  | goDarkHoldExpiry
  | deckEndBoundary
  | safeEstopRelease
  | mirrorPeerRequest
deriving DecidableEq, Repr

end Sys2Proof
end

