-- ==== Sys2Proof/Registers.lean ====
section
/-!
DEFINITION. What a register of the manual is: where it lies (R13, R15), how many copies of it there are, and for each
field its bits, its access type (R17) and its power-on value. The tables themselves stand in Machine/RegMap.lean.
-/

namespace Sys2Proof

/-- Access types (R17). -/
inductive Access where
  | rw | ro | w1c | w1s | wo | rc | rws | rwe | rwl
deriving DecidableEq, Repr

/-- One field of a register: most and least significant bit, access type, power-on value. -/
structure RegField where
  hi : Nat
  lo : Nat
  acc : Access
  por : Nat
deriving DecidableEq, Repr

/-- One dimension of a register array: first and last index, and the distance between neighbours. -/
structure RegDim where
  first : Nat
  last : Nat
  stride : Nat
deriving DecidableEq, Repr

/-- One register, or one register array, of the manual. -/
structure RegDef where
  /-- The functions that carry it, PF0 to PF3. -/
  fns : List Nat
  /-- Its BAR0 offset, at index 0 of every dimension. -/
  off : Nat
  dims : List RegDim
  /-- 64 bits wide (R15). -/
  wide : Bool
  /-- Marked always-on in its table (R499). -/
  alwaysOn : Bool
  fields : List RegField
deriving DecidableEq, Repr

/-- A register word's place in a die: function times 0x10000 plus the word's BAR0 offset. -/
def regKey (fn off : Nat) : Nat := fn * 0x10000 + off

/-- A field of a register word, for named accessors: most and least significant bit. -/
structure Fld where
  hi : Nat
  lo : Nat
deriving DecidableEq, Repr

/-- The width of a field. -/
def Fld.width (f : Fld) : Nat := f.hi - f.lo + 1

/-- The ones of a field's bits. -/
def Fld.mask (f : Fld) : Nat := (2 ^ f.width - 1) * 2 ^ f.lo

end Sys2Proof
end

