-- ==== Sys2Proof/Machine/Bits.lean ====
section
/-!
DEFINITION. Bit fields, byte order and fixed arithmetic used throughout: fields of a word held as a number, little-endian
and big-endian byte lists (R10), signed readings, saturation and truncation.
-/

namespace Sys2Proof.Machine

/-- Bits hi to lo of a number. -/
def bitsOf (w hi lo : Nat) : Nat := w / 2 ^ lo % 2 ^ (hi - lo + 1)

/-- One bit of a number. -/
def bitOf (w i : Nat) : Bool := decide (w / 2 ^ i % 2 = 1)

/-- A Bool as a bit. -/
def b2n (b : Bool) : Nat := if b then 1 else 0

/-- The number w with bits hi to lo replaced by v. -/
def setBits (w hi lo v : Nat) : Nat :=
  w % 2 ^ lo + (v % 2 ^ (hi - lo + 1)) * 2 ^ lo + w / 2 ^ (hi + 1) * 2 ^ (hi + 1)

/-- The number w with bit i set to b. -/
def setBit (w i : Nat) (b : Bool) : Nat := setBits w i i (b2n b)

/-- The value of field f of a word held as a number. -/
def fget (f : Fld) (w : Nat) : Nat := bitsOf w f.hi f.lo

/-- The word with field f replaced. -/
def fput (f : Fld) (w v : Nat) : Nat := setBits w f.hi f.lo v

/-- The n-bit two's-complement reading of a number (R10, R90). -/
def signedOf (n w : Nat) : Int :=
  let v := w % 2 ^ n
  if v < 2 ^ (n - 1) then (v : Int) else (v : Int) - (2 : Int) ^ n

/-- The n-bit two's-complement code of an integer, wrapping. -/
def codeOf (n : Nat) (i : Int) : Nat := (i % (2 : Int) ^ n).toNat

/-- An integer held between two limits. -/
def clampInt (lo hi i : Int) : Int := if i < lo then lo else if hi < i then hi else i

/-- A number held between two limits. -/
def clampNat (lo hi n : Nat) : Nat := if n < lo then lo else if hi < n then hi else n

/-- The tick t where c holds, else what was noted before. -/
def stampIf (c : Bool) (t : Nat) (old : Option Nat) : Option Nat := if c then some t else old

/-- Adds to an n-bit saturating counter. -/
def satAdd (n a b : Nat) : Nat := min (2 ^ n - 1) (a + b)

/-- The number a byte list holds in little-endian order (R10). -/
def leNat : List Byte → Nat
  | [] => 0
  | b :: bs => b.toNat + 256 * leNat bs

/-- The n-byte little-endian list of a number (R10). -/
def leBytes : Nat → Nat → List Byte
  | 0, _ => []
  | n + 1, v => BitVec.ofNat 8 v :: leBytes n (v / 256)

/-- The number a byte list holds in network order (R10). -/
def beNat (l : List Byte) : Nat := l.foldl (fun a b => a * 256 + b.toNat) 0

/-- The n-byte network-order list of a number (R10). -/
def beBytes (n v : Nat) : List Byte := (leBytes n v).reverse

/-- Bytes at to at + n − 1 of a list; bytes past its end read 0. -/
def bytesAt (l : List Byte) (at_ n : Nat) : List Byte :=
  let t := (l.drop at_).take n
  t ++ List.replicate (n - t.length) 0

/-- The little-endian field of n bytes at an offset. -/
def leAt (l : List Byte) (at_ n : Nat) : Nat := leNat (bytesAt l at_ n)

/-- The network-order field of n bytes at an offset. -/
def beAt (l : List Byte) (at_ n : Nat) : Nat := beNat (bytesAt l at_ n)

/-- All bytes of a list are 0. -/
def allZero (l : List Byte) : Bool := l.all (fun b => b == 0)

/-- A byte list made n long: cut, or filled with zeros. -/
def padTo (n : Nat) (l : List Byte) : List Byte := bytesAt l 0 n

/-- An integer division that truncates toward zero. -/
def tdivInt (a b : Int) : Int := a.tdiv b

/-- Round to nearest, halves away from zero, of a rational. -/
def roundRat (q : Rat) : Int :=
  if 0 ≤ q then (q + 1 / 2).floor else -((-q + 1 / 2).floor)

/-- The place of the first list element that meets p, counting from 0. -/
def findIdx {α : Type} (p : α → Bool) (l : List α) : Option Nat := l.findIdx? p

/-- Replaces the first element that meets p, or appends. -/
def upsert {α : Type} (p : α → Bool) (v : α) : List α → List α
  | [] => [v]
  | x :: xs => if p x then v :: xs else x :: upsert p v xs

end Sys2Proof.Machine
end

