-- ==== Sys2Proof/Machine/RegMap.lean ====
section
/-!
DEFINITION. The register map of a control die, from the register tables of the manual (chapters 01 to 19): one row per
register or register array, grouped by block, in the order of the tables. Field rows are the table's bits, access type
and POR value; a power-on value that the table gives in words ("per device", "from R462", a function of the index) is 0
here and is given in `porOverride` below or by the view that computes the field.
-/

namespace Sys2Proof.Machine

/-- The RED block. -/
def regsRED : List RegDef := [
  -- RED_MODE
  ⟨[0], 0x9000, [], false, false,
    [⟨31, 24, .ro, 0x0⟩, ⟨23, 20, .ro, 0x0⟩, ⟨19, 14, .ro, 0x0⟩, ⟨13, 13, .ro, 0x0⟩, ⟨12, 12, .ro, 0x0⟩, ⟨11, 10, .ro, 0x0⟩, ⟨9, 9, .ro, 0x0⟩, ⟨8, 6, .ro, 0x0⟩, ⟨5, 5, .ro, 0x0⟩, ⟨4, 4, .ro, 0x0⟩, ⟨3, 0, .ro, 0x2⟩]⟩,
  -- RED_MODE_REQ
  ⟨[0], 0x9004, [], false, false,
    [⟨31, 21, .ro, 0x0⟩, ⟨20, 20, .w1c, 0x0⟩, ⟨19, 16, .ro, 0x0⟩, ⟨15, 4, .ro, 0x0⟩, ⟨3, 0, .wo, 0x0⟩]⟩,
  -- RED_STATUS
  ⟨[0], 0x9008, [], false, false,
    [⟨31, 24, .ro, 0x0⟩, ⟨23, 23, .ro, 0x0⟩, ⟨22, 22, .ro, 0x0⟩, ⟨21, 21, .w1c, 0x0⟩, ⟨20, 18, .ro, 0x0⟩, ⟨17, 16, .ro, 0x0⟩, ⟨15, 12, .ro, 0x0⟩, ⟨11, 8, .ro, 0x0⟩, ⟨7, 0, .ro, 0x0⟩]⟩,
  -- RED_HB_CNT
  ⟨[0], 0x900c, [], false, false,
    [⟨31, 0, .rc, 0x0⟩]⟩,
  -- RED_MIRROR_ERR
  ⟨[0], 0x9010, [], false, false,
    [⟨31, 16, .rc, 0x0⟩, ⟨15, 0, .rc, 0x0⟩]⟩,
  -- RED_ACK
  ⟨[0], 0x9014, [], false, false,
    [⟨31, 16, .rc, 0x0⟩, ⟨15, 0, .rc, 0x0⟩]⟩,
  -- RED_TO_CNT
  ⟨[0], 0x9018, [], false, false,
    [⟨31, 24, .ro, 0x0⟩, ⟨23, 16, .ro, 0x0⟩, ⟨15, 8, .ro, 0x0⟩, ⟨7, 0, .ro, 0x0⟩]⟩,
  -- RED_TO_TIME
  ⟨[0], 0x9020, [], true, false,
    [⟨63, 0, .ro, 0x0⟩]⟩,
  -- RED_TO_GAP
  ⟨[0], 0x9028, [], false, false,
    [⟨31, 16, .ro, 0x0⟩, ⟨15, 0, .ro, 0x0⟩]⟩,
  -- RED_CMP_CFG
  ⟨[0], 0x902c, [], false, false,
    [⟨31, 16, .ro, 0x0⟩, ⟨15, 0, .rwe, 0x10⟩]⟩,
  -- RED_CTRL
  ⟨[0], 0x9030, [], false, false,
    [⟨31, 2, .ro, 0x0⟩, ⟨1, 1, .rwl, 0x1⟩, ⟨0, 0, .rws, 0x1⟩]⟩,
  -- RED_CMP_CNT
  ⟨[0], 0x9034, [], false, false,
    [⟨31, 16, .rc, 0x0⟩, ⟨15, 0, .rc, 0x0⟩]⟩,
  -- RED_ESC_k
  ⟨[0], 0x9040, [⟨0, 4, 0x4⟩], false, false,
    [⟨31, 29, .ro, 0x0⟩, ⟨28, 13, .ro, 0x0⟩, ⟨12, 0, .ro, 0x0⟩]⟩,
  -- RED_ESC_CNT
  ⟨[0], 0x9054, [], false, false,
    [⟨31, 0, .rc, 0x0⟩]⟩,
  -- RED_ADOPT_VALID
  ⟨[0], 0x9060, [], false, false,
    [⟨31, 0, .ro, 0x0⟩]⟩,
  -- RED_ADOPT_DROP
  ⟨[0], 0x9064, [], false, false,
    [⟨31, 0, .rc, 0x0⟩]⟩,
  -- RED_ADOPT_f_r
  ⟨[0], 0x9080, [⟨0, 3, 0x20⟩, ⟨0, 7, 0x4⟩], false, false,
    [⟨31, 0, .ro, 0x0⟩]⟩]

/-- The TIM block. -/
def regsTIM : List RegDef := [
  -- TIM_NOW
  ⟨[3], 0x0, [], true, false,
    [⟨63, 0, .ro, 0x0⟩]⟩,
  -- TIM_NOW_FRAC
  ⟨[3], 0x8, [], false, false,
    [⟨31, 16, .ro, 0x0⟩, ⟨15, 0, .ro, 0x0⟩]⟩,
  -- TIM_STATUS
  ⟨[3], 0xc, [], false, false,
    [⟨31, 7, .ro, 0x0⟩, ⟨6, 6, .w1c, 0x0⟩, ⟨5, 5, .w1c, 0x0⟩, ⟨4, 4, .w1c, 0x0⟩, ⟨3, 3, .w1c, 0x0⟩, ⟨2, 2, .ro, 0x0⟩, ⟨1, 1, .ro, 0x0⟩, ⟨0, 0, .ro, 0x0⟩]⟩,
  -- TIM_INCR
  ⟨[3], 0x10, [], true, false,
    [⟨63, 48, .ro, 0x0⟩, ⟨47, 40, .rws, 0x1⟩, ⟨39, 0, .rws, 0x0⟩]⟩,
  -- TIM_ADJ
  ⟨[3], 0x18, [], true, false,
    [⟨63, 0, .wo, 0x0⟩]⟩,
  -- TIM_CTRL
  ⟨[3], 0x20, [], false, false,
    [⟨31, 3, .ro, 0x0⟩, ⟨2, 2, .rws, 0x0⟩, ⟨1, 1, .rws, 0x0⟩, ⟨0, 0, .wo, 0x0⟩]⟩,
  -- TIM_SLAVE_OFS
  ⟨[3], 0x24, [], false, false,
    [⟨31, 0, .ro, 0x0⟩]⟩,
  -- TIM_PPS_IN_TS
  ⟨[3], 0x28, [], true, false,
    [⟨63, 0, .ro, 0x0⟩]⟩,
  -- TIM_PPS_IN_INFO
  ⟨[3], 0x30, [], false, false,
    [⟨31, 16, .ro, 0x0⟩, ⟨15, 0, .ro, 0x0⟩]⟩,
  -- TIM_PPS_OUT_CFG
  ⟨[3], 0x34, [], false, false,
    [⟨31, 22, .rws, 0x64⟩, ⟨21, 16, .ro, 0x0⟩, ⟨15, 0, .rws, 0x0⟩]⟩,
  -- TIM_SYNCk_RATE
  ⟨[3], 0x40, [⟨0, 3, 0x10⟩], false, false,
    [⟨31, 12, .rws, 0x0⟩, ⟨11, 0, .rws, 0x0⟩]⟩,
  -- TIM_SYNCk_OFS
  ⟨[3], 0x44, [⟨0, 3, 0x10⟩], false, false,
    [⟨31, 0, .rws, 0x0⟩]⟩,
  -- TIM_SYNCk_CTRL
  ⟨[3], 0x48, [⟨0, 3, 0x10⟩], false, false,
    [⟨31, 16, .rws, 0x1⟩, ⟨15, 2, .ro, 0x0⟩, ⟨1, 1, .rws, 0x0⟩, ⟨0, 0, .rws, 0x0⟩]⟩,
  -- TIM_TXMODE_p
  ⟨[3], 0x80, [⟨0, 7, 0x4⟩], false, false,
    [⟨31, 0, .rws, 0x0⟩]⟩,
  -- TIM_LAT_RX_p
  ⟨[3], 0xa0, [⟨0, 7, 0x4⟩], false, false,
    [⟨31, 24, .ro, 0x0⟩, ⟨23, 0, .rws, 0x0⟩]⟩,
  -- TIM_LAT_TX_p
  ⟨[3], 0xc0, [⟨0, 7, 0x4⟩], false, false,
    [⟨31, 24, .ro, 0x0⟩, ⟨23, 0, .rws, 0x0⟩]⟩,
  -- TIM_TXTS_INFO
  ⟨[3], 0xe0, [], false, false,
    [⟨31, 31, .rc, 0x0⟩, ⟨30, 30, .rc, 0x0⟩, ⟨29, 27, .rc, 0x0⟩, ⟨26, 24, .ro, 0x0⟩, ⟨23, 20, .rc, 0x0⟩, ⟨19, 16, .ro, 0x0⟩, ⟨15, 0, .rc, 0x0⟩]⟩,
  -- TIM_TXTS_TIME
  ⟨[3], 0xe8, [], true, false,
    [⟨63, 0, .ro, 0x0⟩]⟩,
  -- TIM_TXTS_FRAC
  ⟨[3], 0xf0, [], false, false,
    [⟨31, 16, .ro, 0x0⟩, ⟨15, 0, .ro, 0x0⟩]⟩,
  -- TIM_TX_FALLBACK
  ⟨[3], 0xf4, [], false, false,
    [⟨31, 0, .rc, 0x0⟩]⟩,
  -- TIM_BLINK_DLY_b
  ⟨[3], 0x100, [⟨0, 7, 0x4⟩], false, false,
    [⟨31, 31, .ro, 0x0⟩, ⟨30, 20, .ro, 0x0⟩, ⟨19, 0, .ro, 0x0⟩]⟩]

/-- The DLR block. -/
def regsDLR : List RegDef := [
  -- DLR_STATUS
  ⟨[1], 0x0, [], false, false,
    [⟨31, 23, .ro, 0x0⟩, ⟨22, 16, .ro, 0x0⟩, ⟨15, 11, .ro, 0x0⟩, ⟨10, 8, .ro, 0x0⟩, ⟨7, 3, .ro, 0x0⟩, ⟨2, 2, .ro, 0x0⟩, ⟨1, 1, .ro, 0x0⟩, ⟨0, 0, .ro, 0x0⟩]⟩,
  -- DLR_DEAL_CNT
  ⟨[1], 0x4, [], false, false,
    [⟨31, 0, .ro, 0x0⟩]⟩,
  -- DLR_LAST_DEAL
  ⟨[1], 0x8, [], true, false,
    [⟨63, 0, .ro, 0x0⟩]⟩,
  -- DLR_LAST_FRAC
  ⟨[1], 0x10, [], false, false,
    [⟨31, 16, .ro, 0x0⟩, ⟨15, 0, .ro, 0x0⟩]⟩,
  -- DLR_NEXT_DEAL
  ⟨[1], 0x18, [], true, false,
    [⟨63, 0, .ro, 0x0⟩]⟩,
  -- DLR_NEXT_FRAC
  ⟨[1], 0x20, [], false, false,
    [⟨31, 31, .ro, 0x0⟩, ⟨30, 16, .ro, 0x0⟩, ⟨15, 0, .ro, 0x0⟩]⟩,
  -- DLR_PREEMPH
  ⟨[1], 0x24, [], false, false,
    [⟨31, 16, .ro, 0x0⟩, ⟨15, 8, .rwe, 0x20⟩, ⟨7, 0, .rwe, 0x10⟩]⟩,
  -- DLR_LATE_CNT
  ⟨[1], 0x30, [], false, false,
    [⟨31, 0, .rc, 0x0⟩]⟩,
  -- DLR_WITHDRAW_CNT
  ⟨[1], 0x34, [], false, false,
    [⟨31, 0, .rc, 0x0⟩]⟩,
  -- DLR_COALESCE_CNT
  ⟨[1], 0x38, [], false, false,
    [⟨31, 0, .rc, 0x0⟩]⟩,
  -- DLR_VFAIL_CNT
  ⟨[1], 0x3c, [], false, false,
    [⟨31, 0, .rc, 0x0⟩]⟩,
  -- DLR_EVICT_CNT
  ⟨[1], 0x40, [], false, false,
    [⟨31, 0, .rc, 0x0⟩]⟩,
  -- DLR_PIN_HELD
  ⟨[1], 0x44, [], false, false,
    [⟨31, 29, .ro, 0x0⟩, ⟨28, 16, .ro, 0x0⟩, ⟨15, 13, .ro, 0x0⟩, ⟨12, 0, .ro, 0x0⟩]⟩,
  -- DLR_TRUMP_MAX
  ⟨[1], 0x48, [], false, false,
    [⟨31, 16, .rc, 0x0⟩, ⟨15, 0, .rc, 0x0⟩]⟩,
  -- DLR_PINMASK_w
  ⟨[1], 0x80, [⟨0, 15, 0x4⟩], false, false,
    [⟨31, 0, .ro, 0x0⟩]⟩,
  -- DLR_HANDW_m
  ⟨[1], 0x400, [⟨0, 255, 0x4⟩], false, false,
    [⟨31, 16, .ro, 0x0⟩, ⟨15, 0, .ro, 0x0⟩]⟩]

/-- The DCK block. -/
def regsDCK : List RegDef := [
  -- DCK_STATUS
  ⟨[1], 0x1000, [], false, false,
    [⟨31, 30, .ro, 0x0⟩, ⟨29, 24, .ro, 0x0⟩, ⟨23, 23, .ro, 0x0⟩, ⟨22, 22, .ro, 0x0⟩, ⟨21, 16, .ro, 0x0⟩, ⟨15, 15, .ro, 0x0⟩, ⟨14, 14, .ro, 0x0⟩, ⟨13, 13, .ro, 0x0⟩, ⟨12, 12, .ro, 0x0⟩, ⟨11, 10, .ro, 0x0⟩, ⟨9, 9, .ro, 0x0⟩, ⟨8, 8, .ro, 0x0⟩, ⟨7, 0, .ro, 0x0⟩]⟩,
  -- DCK_TRICK_NOW
  ⟨[1], 0x1004, [], false, false,
    [⟨31, 31, .ro, 0x0⟩, ⟨30, 26, .ro, 0x0⟩, ⟨25, 16, .ro, 0x0⟩, ⟨15, 15, .ro, 0x0⟩, ⟨14, 0, .ro, 0x0⟩]⟩,
  -- DCK_EPOCH_NOW
  ⟨[1], 0x1008, [], false, false,
    [⟨31, 0, .ro, 0x0⟩]⟩,
  -- DCK_ORIGIN
  ⟨[1], 0x1010, [], true, false,
    [⟨63, 0, .ro, 0x0⟩]⟩,
  -- DCK_NEXT_BND
  ⟨[1], 0x1018, [], true, false,
    [⟨63, 0, .ro, 0x0⟩]⟩,
  -- DCK_NEXT_BND_FRAC
  ⟨[1], 0x1020, [], false, false,
    [⟨31, 31, .ro, 0x0⟩, ⟨30, 16, .ro, 0x0⟩, ⟨15, 0, .ro, 0x0⟩]⟩,
  -- DCK_PART_CTRL
  ⟨[1], 0x1024, [], false, false,
    [⟨31, 31, .ro, 0x0⟩, ⟨30, 10, .ro, 0x0⟩, ⟨9, 8, .ro, 0x0⟩, ⟨7, 3, .ro, 0x0⟩, ⟨2, 2, .wo, 0x0⟩, ⟨1, 0, .rws, 0x0⟩]⟩,
  -- DCK_BENCH
  ⟨[1], 0x1028, [], false, false,
    [⟨31, 31, .ro, 0x0⟩, ⟨30, 24, .ro, 0x0⟩, ⟨23, 8, .ro, 0x0⟩, ⟨7, 0, .ro, 0x0⟩]⟩,
  -- DCK_PLAN_FENCE
  ⟨[1], 0x102c, [], false, false,
    [⟨31, 0, .ro, 0x0⟩]⟩,
  -- DCK_PLAN_TIME
  ⟨[1], 0x1030, [], false, false,
    [⟨31, 16, .rc, 0x0⟩, ⟨15, 0, .ro, 0x0⟩]⟩,
  -- DCK_PLAN_OVR_CNT
  ⟨[1], 0x1034, [], false, false,
    [⟨31, 0, .rc, 0x0⟩]⟩,
  -- DCK_SKIP_CNT
  ⟨[1], 0x1038, [], false, false,
    [⟨31, 0, .rc, 0x0⟩]⟩,
  -- DCK_WITHDRAW_CNT
  ⟨[1], 0x103c, [], false, false,
    [⟨31, 0, .rc, 0x0⟩]⟩,
  -- DCK_BID_CNT
  ⟨[1], 0x1040, [], false, false,
    [⟨31, 0, .rc, 0x0⟩]⟩,
  -- DCK_BID_DROP_CNT
  ⟨[1], 0x1044, [], false, false,
    [⟨31, 0, .rc, 0x0⟩]⟩,
  -- DCK_LL_SEL
  ⟨[1], 0x1048, [], false, false,
    [⟨31, 9, .ro, 0x0⟩, ⟨8, 0, .rw, 0x0⟩]⟩,
  -- DCK_LL_CNT
  ⟨[1], 0x104c, [], false, false,
    [⟨31, 0, .rc, 0x0⟩]⟩,
  -- DCK_LL_TOTAL
  ⟨[1], 0x1050, [], false, false,
    [⟨31, 0, .rc, 0x0⟩]⟩,
  -- DCK_TLEN_SEL
  ⟨[1], 0x1054, [], false, false,
    [⟨31, 15, .ro, 0x0⟩, ⟨14, 0, .rw, 0x0⟩]⟩,
  -- DCK_TLEN_DATA
  ⟨[1], 0x1058, [], false, false,
    [⟨31, 24, .ro, 0x0⟩, ⟨23, 0, .ro, 0x0⟩]⟩,
  -- DCK_CLASSW0
  ⟨[1], 0x105c, [], false, false,
    [⟨31, 24, .rwe, 0x2⟩, ⟨23, 16, .rwe, 0x2⟩, ⟨15, 8, .rwe, 0x1⟩, ⟨7, 0, .rwe, 0x1⟩]⟩,
  -- DCK_CLASSW1
  ⟨[1], 0x1060, [], false, false,
    [⟨31, 24, .rwe, 0x10⟩, ⟨23, 16, .rwe, 0x8⟩, ⟨15, 8, .rwe, 0x4⟩, ⟨7, 0, .rwe, 0x4⟩]⟩,
  -- DCK_PLAN_CFG
  ⟨[1], 0x1064, [], false, false,
    [⟨31, 22, .ro, 0x0⟩, ⟨21, 12, .rwe, 0xa⟩, ⟨11, 10, .ro, 0x0⟩, ⟨9, 0, .rwe, 0x3ff⟩]⟩,
  -- DCK_PMASK_s_w
  ⟨[1], 0x1100, [⟨0, 3, 0x40⟩, ⟨0, 15, 0x4⟩], false, false,
    [⟨31, 0, .rws, 0x0⟩]⟩,
  -- DCK_PART_w
  ⟨[1], 0x1200, [⟨0, 15, 0x4⟩], false, false,
    [⟨31, 0, .ro, 0x0⟩]⟩,
  -- DCK_DESC_n_w
  ⟨[1], 0x1800, [⟨0, 63, 0x20⟩, ⟨0, 7, 0x4⟩], false, false,
    [⟨31, 0, .ro, 0x0⟩]⟩]

/-- The HLD block. -/
def regsHLD : List RegDef := [
  -- HLD_STATUS
  ⟨[1], 0x2000, [], false, false,
    [⟨31, 24, .ro, 0x0⟩, ⟨23, 16, .ro, 0x0⟩, ⟨15, 14, .ro, 0x0⟩, ⟨13, 13, .ro, 0x0⟩, ⟨12, 0, .ro, 0x0⟩]⟩,
  -- HLD_PERIOD
  ⟨[1], 0x2004, [], false, false,
    [⟨31, 16, .ro, 0x64⟩, ⟨15, 0, .rwe, 0x64⟩]⟩,
  -- HLD_DITHER
  ⟨[1], 0x2008, [], false, false,
    [⟨31, 16, .rwe, 0x64⟩, ⟨15, 0, .rwe, 0x64⟩]⟩,
  -- HLD_SETTLE
  ⟨[1], 0x200c, [], false, false,
    [⟨31, 16, .rwe, 0x14⟩, ⟨15, 0, .rwe, 0xa⟩]⟩,
  -- HLD_GAIN_HTR
  ⟨[1], 0x2010, [], false, false,
    [⟨31, 16, .rwe, 0x200⟩, ⟨15, 0, .rwe, 0x400⟩]⟩,
  -- HLD_GAIN_PIN
  ⟨[1], 0x2014, [], false, false,
    [⟨31, 16, .rwe, 0x400⟩, ⟨15, 0, .rwe, 0x800⟩]⟩,
  -- HLD_GAIN_GATE
  ⟨[1], 0x2018, [], false, false,
    [⟨31, 16, .rwe, 0x400⟩, ⟨15, 0, .rwe, 0x800⟩]⟩,
  -- HLD_HANDOFF
  ⟨[1], 0x201c, [], false, false,
    [⟨31, 20, .ro, 0x0⟩, ⟨19, 0, .rwe, 0xc8⟩]⟩,
  -- HLD_REFRESH
  ⟨[1], 0x2020, [], false, false,
    [⟨31, 24, .rwe, 0x8⟩, ⟨23, 16, .rwe, 0x2⟩, ⟨15, 0, .rwe, 0xa⟩]⟩,
  -- HLD_BAND
  ⟨[1], 0x2024, [], false, false,
    [⟨31, 16, .rwe, 0x10⟩, ⟨15, 0, .rwe, 0x5e⟩]⟩,
  -- HLD_PLAUS
  ⟨[1], 0x2028, [], false, false,
    [⟨31, 28, .rwe, 0x4⟩, ⟨27, 16, .ro, 0x0⟩, ⟨15, 0, .rwe, 0x12c⟩]⟩,
  -- HLD_FEEDBACK
  ⟨[1], 0x202c, [], false, false,
    [⟨31, 16, .rwe, 0x20⟩, ⟨15, 0, .rwe, 0x64⟩]⟩,
  -- HLD_REST
  ⟨[1], 0x2030, [], false, false,
    [⟨31, 16, .rwe, 0x32⟩, ⟨15, 0, .rwe, 0x32⟩]⟩,
  -- HLD_TRANS
  ⟨[1], 0x2034, [], false, false,
    [⟨31, 16, .ro, 0x0⟩, ⟨15, 0, .rwe, 0x32⟩]⟩,
  -- HLD_MISS_CNT
  ⟨[1], 0x2038, [], false, false,
    [⟨31, 0, .rc, 0x0⟩]⟩,
  -- HLD_BANK_b
  ⟨[1], 0x2040, [⟨0, 7, 0x4⟩], false, false,
    [⟨31, 31, .ro, 0x0⟩, ⟨30, 30, .ro, 0x0⟩, ⟨29, 26, .ro, 0x0⟩, ⟨25, 16, .ro, 0x0⟩, ⟨15, 10, .ro, 0x0⟩, ⟨9, 0, .ro, 0x0⟩]⟩,
  -- HLD_EL_SEL
  ⟨[1], 0x2080, [], false, false,
    [⟨31, 13, .ro, 0x0⟩, ⟨12, 0, .rw, 0x0⟩]⟩,
  -- HLD_EL_STATE
  ⟨[1], 0x2084, [], false, false,
    [⟨31, 30, .ro, 0x0⟩, ⟨29, 29, .ro, 0x0⟩, ⟨28, 28, .ro, 0x0⟩, ⟨27, 27, .ro, 0x0⟩, ⟨26, 26, .ro, 0x0⟩, ⟨25, 25, .w1c, 0x0⟩, ⟨24, 24, .w1c, 0x0⟩, ⟨23, 23, .ro, 0x0⟩, ⟨22, 22, .ro, 0x0⟩, ⟨21, 21, .ro, 0x0⟩, ⟨20, 20, .ro, 0x0⟩, ⟨19, 19, .ro, 0x0⟩, ⟨18, 18, .ro, 0x0⟩, ⟨17, 16, .ro, 0x0⟩, ⟨15, 12, .ro, 0x0⟩, ⟨11, 8, .ro, 0x0⟩, ⟨7, 0, .ro, 0x0⟩]⟩,
  -- HLD_EL_CTRL
  ⟨[1], 0x2088, [], false, false,
    [⟨31, 31, .rwe, 0x0⟩, ⟨30, 6, .ro, 0x0⟩, ⟨5, 5, .rwe, 0x0⟩, ⟨4, 4, .rwe, 0x0⟩, ⟨3, 3, .rwe, 0x0⟩, ⟨2, 2, .ro, 0x0⟩, ⟨1, 0, .rwe, 0x0⟩]⟩,
  -- HLD_EL_MAN
  ⟨[1], 0x2090, [], true, false,
    [⟨63, 46, .ro, 0x0⟩, ⟨45, 32, .rwe, 0x0⟩, ⟨31, 29, .ro, 0x0⟩, ⟨28, 28, .rwe, 0x0⟩, ⟨27, 16, .rwe, 0x0⟩, ⟨15, 0, .rwe, 0x0⟩]⟩,
  -- HLD_EL_MEAS
  ⟨[1], 0x2098, [], true, false,
    [⟨63, 42, .ro, 0x0⟩, ⟨41, 36, .ro, 0x0⟩, ⟨35, 18, .ro, 0x0⟩, ⟨17, 0, .ro, 0x0⟩]⟩,
  -- HLD_EL_ERR
  ⟨[1], 0x20a0, [], true, false,
    [⟨63, 42, .ro, 0x0⟩, ⟨41, 36, .ro, 0x0⟩, ⟨35, 18, .ro, 0x0⟩, ⟨17, 0, .ro, 0x0⟩]⟩,
  -- HLD_EL_PROP
  ⟨[1], 0x20a8, [], true, false,
    [⟨63, 42, .ro, 0x0⟩, ⟨41, 36, .ro, 0x0⟩, ⟨35, 18, .ro, 0x0⟩, ⟨17, 0, .ro, 0x0⟩]⟩,
  -- HLD_EL_INT
  ⟨[1], 0x20b0, [], true, false,
    [⟨63, 42, .ro, 0x0⟩, ⟨41, 36, .ro, 0x0⟩, ⟨35, 18, .ro, 0x0⟩, ⟨17, 0, .ro, 0x0⟩]⟩,
  -- HLD_EL_FF
  ⟨[1], 0x20b8, [], true, false,
    [⟨63, 42, .ro, 0x0⟩, ⟨41, 36, .ro, 0x0⟩, ⟨35, 18, .ro, 0x0⟩, ⟨17, 0, .ro, 0x0⟩]⟩,
  -- HLD_EL_OUT
  ⟨[1], 0x20c0, [], true, false,
    [⟨63, 42, .ro, 0x0⟩, ⟨41, 36, .ro, 0x0⟩, ⟨35, 18, .ro, 0x0⟩, ⟨17, 0, .ro, 0x0⟩]⟩,
  -- HLD_EL_MISS
  ⟨[1], 0x20c8, [], false, false,
    [⟨31, 16, .ro, 0x0⟩, ⟨15, 0, .ro, 0x0⟩]⟩,
  -- HLD_FALLBACK_w
  ⟨[1], 0x3000, [⟨0, 183, 0x4⟩], false, false,
    [⟨31, 0, .ro, 0x0⟩]⟩,
  -- HLD_IMPL_w
  ⟨[1], 0x3400, [⟨0, 183, 0x4⟩], false, false,
    [⟨31, 0, .ro, 0x0⟩]⟩,
  -- HLD_MISSMAP_w
  ⟨[1], 0x3800, [⟨0, 183, 0x4⟩], false, false,
    [⟨31, 0, .ro, 0x0⟩]⟩,
  -- HLD_NONAUTO_w
  ⟨[1], 0x3c00, [⟨0, 183, 0x4⟩], false, false,
    [⟨31, 0, .ro, 0x0⟩]⟩]

/-- The UCS block. -/
def regsUCS : List RegDef := [
  -- UCS_ID
  ⟨[0], 0x7000, [], false, false,
    [⟨31, 16, .ro, 0x0⟩, ⟨15, 8, .ro, 0x40⟩, ⟨7, 0, .ro, 0x8⟩]⟩,
  -- UCS_STATUS
  ⟨[0], 0x7004, [], false, false,
    [⟨31, 23, .ro, 0x0⟩, ⟨22, 16, .ro, 0x0⟩, ⟨15, 7, .ro, 0x0⟩, ⟨6, 0, .ro, 0x0⟩]⟩,
  -- UCS_FENCE
  ⟨[0], 0x7008, [], true, false,
    [⟨63, 0, .ro, 0x0⟩]⟩,
  -- UCS_FENCE_REQ
  ⟨[0], 0x7010, [], true, false,
    [⟨63, 0, .rwl, 0x0⟩]⟩,
  -- UCS_ENG_SEL
  ⟨[0], 0x7018, [], false, false,
    [⟨31, 6, .ro, 0x0⟩, ⟨5, 0, .rw, 0x0⟩]⟩,
  -- UCS_ENG_STAT
  ⟨[0], 0x701c, [], false, false,
    [⟨31, 30, .ro, 0x0⟩, ⟨29, 27, .ro, 0x0⟩, ⟨26, 24, .ro, 0x0⟩, ⟨23, 20, .ro, 0x0⟩, ⟨19, 16, .ro, 0x0⟩, ⟨15, 0, .ro, 0x0⟩]⟩,
  -- UCS_ENG_PC
  ⟨[0], 0x7020, [], false, false,
    [⟨31, 31, .ro, 0x0⟩, ⟨30, 14, .ro, 0x0⟩, ⟨13, 0, .ro, 0x0⟩]⟩,
  -- UCS_CLUSTER_c
  ⟨[0], 0x7040, [⟨0, 7, 0x4⟩], false, false,
    [⟨31, 31, .ro, 0x0⟩, ⟨30, 27, .ro, 0x0⟩, ⟨26, 16, .ro, 0x0⟩, ⟨15, 11, .ro, 0x0⟩, ⟨10, 0, .ro, 0x0⟩]⟩,
  -- UCS_STEAL_CNT
  ⟨[0], 0x7060, [], false, false,
    [⟨31, 16, .rc, 0x0⟩, ⟨15, 0, .rc, 0x0⟩]⟩,
  -- UCS_SPILL_CNT
  ⟨[0], 0x7064, [], false, false,
    [⟨31, 0, .rc, 0x0⟩]⟩,
  -- UCS_MFAULT_CNT
  ⟨[0], 0x7068, [], false, false,
    [⟨31, 16, .rc, 0x0⟩, ⟨15, 0, .rc, 0x0⟩]⟩,
  -- UCS_PATCH_CTRL
  ⟨[0], 0x7080, [], false, false,
    [⟨31, 3, .ro, 0x0⟩, ⟨2, 2, .rwe, 0x0⟩, ⟨1, 1, .rwe, 0x0⟩, ⟨0, 0, .rwe, 0x0⟩]⟩,
  -- UCS_PATCH_PTR
  ⟨[0], 0x7084, [], false, false,
    [⟨31, 13, .ro, 0x0⟩, ⟨12, 0, .rwe, 0x0⟩]⟩,
  -- UCS_PATCH_DATA
  ⟨[0], 0x7088, [], false, false,
    [⟨31, 0, .rwe, 0x0⟩]⟩,
  -- UCS_PATCH_STATUS
  ⟨[0], 0x708c, [], false, false,
    [⟨31, 30, .ro, 0x0⟩, ⟨29, 29, .ro, 0x1⟩, ⟨28, 24, .ro, 0x0⟩, ⟨23, 16, .ro, 0x0⟩, ⟨15, 0, .ro, 0x0⟩]⟩,
  -- UCS_MATCH_m
  ⟨[0], 0x7100, [⟨0, 31, 0x4⟩], false, false,
    [⟨31, 31, .ro, 0x0⟩, ⟨30, 22, .ro, 0x0⟩, ⟨21, 14, .ro, 0x0⟩, ⟨13, 0, .ro, 0x0⟩]⟩]

/-- The BNK block. -/
def regsBNK : List RegDef := [
  -- BNK_ID
  ⟨[1], 0x4000, [⟨0, 7, 0x800⟩], false, false,
    [⟨31, 24, .ro, 0x0⟩, ⟨23, 0, .ro, 0x0⟩]⟩,
  -- BNK_STATUS
  ⟨[1], 0x4004, [⟨0, 7, 0x800⟩], false, false,
    [⟨31, 31, .ro, 0x0⟩, ⟨30, 30, .ro, 0x0⟩, ⟨29, 29, .ro, 0x0⟩, ⟨28, 28, .ro, 0x0⟩, ⟨27, 26, .ro, 0x0⟩, ⟨25, 25, .ro, 0x0⟩, ⟨24, 24, .ro, 0x0⟩, ⟨23, 23, .ro, 0x0⟩, ⟨22, 20, .ro, 0x0⟩, ⟨19, 19, .ro, 0x0⟩, ⟨18, 18, .w1c, 0x0⟩, ⟨17, 17, .w1c, 0x0⟩, ⟨16, 0, .ro, 0x0⟩]⟩,
  -- BNK_TOKEN
  ⟨[1], 0x4008, [⟨0, 7, 0x800⟩], false, false,
    [⟨31, 16, .ro, 0x0⟩, ⟨15, 8, .ro, 0x0⟩, ⟨7, 0, .ro, 0x0⟩]⟩,
  -- BNK_HTR_GAIN
  ⟨[1], 0x400c, [⟨0, 7, 0x800⟩], false, false,
    [⟨31, 16, .rc, 0x0⟩, ⟨15, 2, .ro, 0x0⟩, ⟨1, 0, .rwe, 0x0⟩]⟩,
  -- BNK_LINK_p
  ⟨[1], 0x4010, [⟨0, 7, 0x800⟩, ⟨0, 1, 0x4⟩], false, false,
    [⟨31, 30, .ro, 0x0⟩, ⟨29, 24, .ro, 0x0⟩, ⟨23, 16, .ro, 0x0⟩, ⟨15, 0, .rc, 0x0⟩]⟩,
  -- BNK_SHADOW_CMP
  ⟨[1], 0x4018, [⟨0, 7, 0x800⟩], false, false,
    [⟨31, 16, .rc, 0x0⟩, ⟨15, 0, .rc, 0x0⟩]⟩,
  -- BNK_TEMP
  ⟨[1], 0x401c, [⟨0, 7, 0x800⟩], false, false,
    [⟨31, 16, .ro, 0x0⟩, ⟨15, 0, .ro, 0x0⟩]⟩,
  -- BNK_CAL_STATUS
  ⟨[1], 0x4020, [⟨0, 7, 0x800⟩], false, false,
    [⟨31, 24, .ro, 0x0⟩, ⟨23, 0, .ro, 0x0⟩]⟩,
  -- BNK_CAL_TIME
  ⟨[1], 0x4028, [⟨0, 7, 0x800⟩], true, false,
    [⟨63, 0, .ro, 0x0⟩]⟩,
  -- BNK_CMP_CFG
  ⟨[1], 0x4030, [⟨0, 7, 0x800⟩], false, false,
    [⟨31, 7, .ro, 0x0⟩, ⟨6, 0, .rwe, 0x8⟩]⟩,
  -- BNK_URG_OVF
  ⟨[1], 0x4034, [⟨0, 7, 0x800⟩], false, false,
    [⟨31, 0, .rc, 0x0⟩]⟩,
  -- BNK_DEAL_DISCARD
  ⟨[1], 0x4038, [⟨0, 7, 0x800⟩], false, false,
    [⟨31, 0, .rc, 0x0⟩]⟩,
  -- BNK_CH_SEL
  ⟨[1], 0x4040, [⟨0, 7, 0x800⟩], false, false,
    [⟨31, 10, .ro, 0x0⟩, ⟨9, 0, .rw, 0x0⟩]⟩,
  -- BNK_CH_SUM
  ⟨[1], 0x4044, [⟨0, 7, 0x800⟩], false, false,
    [⟨31, 0, .ro, 0x0⟩]⟩,
  -- BNK_CH_INFO
  ⟨[1], 0x4048, [⟨0, 7, 0x800⟩], false, false,
    [⟨31, 30, .ro, 0x0⟩, ⟨29, 29, .ro, 0x0⟩, ⟨28, 28, .ro, 0x0⟩, ⟨27, 27, .ro, 0x0⟩, ⟨26, 26, .ro, 0x0⟩, ⟨25, 16, .ro, 0x0⟩, ⟨15, 0, .ro, 0x0⟩]⟩,
  -- BNK_CH_MINMAX
  ⟨[1], 0x404c, [⟨0, 7, 0x800⟩], false, false,
    [⟨31, 30, .ro, 0x0⟩, ⟨29, 16, .ro, 0x0⟩, ⟨15, 14, .ro, 0x0⟩, ⟨13, 0, .ro, 0x0⟩]⟩,
  -- BNK_CH_BAND_LO
  ⟨[1], 0x4050, [⟨0, 7, 0x800⟩], false, false,
    [⟨31, 24, .ro, 0x0⟩, ⟨23, 0, .ro, 0x0⟩]⟩,
  -- BNK_CH_BAND_HI
  ⟨[1], 0x4054, [⟨0, 7, 0x800⟩], false, false,
    [⟨31, 24, .ro, 0x0⟩, ⟨23, 0, .ro, 0x0⟩]⟩,
  -- BNK_CH_CODE
  ⟨[1], 0x4058, [⟨0, 7, 0x800⟩], false, false,
    [⟨31, 29, .ro, 0x0⟩, ⟨28, 28, .ro, 0x0⟩, ⟨27, 16, .ro, 0x0⟩, ⟨15, 0, .ro, 0x0⟩]⟩,
  -- BNK_MAN
  ⟨[1], 0x4060, [⟨0, 7, 0x800⟩], false, false,
    [⟨31, 31, .rwl, 0x0⟩, ⟨30, 29, .rwl, 0x0⟩, ⟨28, 26, .ro, 0x0⟩, ⟨25, 16, .rwl, 0x0⟩, ⟨15, 0, .rwl, 0x0⟩]⟩,
  -- BNK_PROBE_CFG_k
  ⟨[1], 0x4080, [⟨0, 7, 0x800⟩, ⟨0, 15, 0x4⟩], false, false,
    [⟨31, 31, .rwe, 0x0⟩, ⟨30, 10, .ro, 0x0⟩, ⟨9, 0, .rwe, 0x0⟩]⟩,
  -- BNK_PROBE_SNAP
  ⟨[1], 0x40c0, [⟨0, 7, 0x800⟩], false, false,
    [⟨31, 5, .ro, 0x0⟩, ⟨4, 4, .wo, 0x0⟩, ⟨3, 0, .wo, 0x0⟩]⟩,
  -- BNK_PROBE_SUM
  ⟨[1], 0x40c4, [⟨0, 7, 0x800⟩], false, false,
    [⟨31, 0, .ro, 0x0⟩]⟩,
  -- BNK_PROBE_INFO
  ⟨[1], 0x40c8, [⟨0, 7, 0x800⟩], false, false,
    [⟨31, 30, .ro, 0x0⟩, ⟨29, 29, .ro, 0x0⟩, ⟨28, 28, .ro, 0x0⟩, ⟨27, 27, .ro, 0x0⟩, ⟨26, 26, .ro, 0x0⟩, ⟨25, 16, .ro, 0x0⟩, ⟨15, 0, .ro, 0x0⟩]⟩,
  -- BNK_PROBE_MINMAX
  ⟨[1], 0x40cc, [⟨0, 7, 0x800⟩], false, false,
    [⟨31, 30, .ro, 0x0⟩, ⟨29, 16, .ro, 0x0⟩, ⟨15, 14, .ro, 0x0⟩, ⟨13, 0, .ro, 0x0⟩]⟩,
  -- BNK_PROBE_TIME
  ⟨[1], 0x40d0, [⟨0, 7, 0x800⟩], true, false,
    [⟨63, 0, .ro, 0x0⟩]⟩,
  -- BNK_PROBE_MISS
  ⟨[1], 0x40d8, [⟨0, 7, 0x800⟩], false, false,
    [⟨31, 0, .rc, 0x0⟩]⟩,
  -- BNK_SHORT_w
  ⟨[1], 0x4100, [⟨0, 7, 0x800⟩, ⟨0, 18, 0x4⟩], false, false,
    [⟨31, 0, .w1c, 0x0⟩]⟩,
  -- BNK_DRVF_w
  ⟨[1], 0x4180, [⟨0, 7, 0x800⟩, ⟨0, 22, 0x4⟩], false, false,
    [⟨31, 0, .w1c, 0x0⟩]⟩]

/-- The CAL block. -/
def regsCAL : List RegDef := [
  -- CAL_STATUS
  ⟨[1], 0x8000, [], false, false,
    [⟨31, 24, .ro, 0x0⟩, ⟨23, 5, .ro, 0x0⟩, ⟨4, 4, .ro, 0x0⟩, ⟨3, 3, .ro, 0x0⟩, ⟨2, 2, .ro, 0x0⟩, ⟨1, 1, .ro, 0x0⟩, ⟨0, 0, .ro, 0x0⟩]⟩,
  -- CAL_CTRL
  ⟨[1], 0x8004, [], false, false,
    [⟨31, 3, .ro, 0x0⟩, ⟨2, 2, .rws, 0x1⟩, ⟨1, 1, .rws, 0x1⟩, ⟨0, 0, .rws, 0x1⟩]⟩,
  -- CAL_TEMP
  ⟨[1], 0x8008, [], false, false,
    [⟨31, 28, .ro, 0x0⟩, ⟨27, 24, .ro, 0x0⟩, ⟨23, 0, .ro, 0x0⟩]⟩,
  -- CAL_VALID
  ⟨[1], 0x800c, [], false, false,
    [⟨31, 30, .ro, 0x0⟩, ⟨29, 29, .ro, 0x0⟩, ⟨28, 28, .ro, 0x0⟩, ⟨27, 16, .ro, 0x0⟩, ⟨15, 14, .ro, 0x0⟩, ⟨13, 13, .ro, 0x0⟩, ⟨12, 12, .ro, 0x0⟩, ⟨11, 0, .ro, 0x0⟩]⟩,
  -- CAL_QTHR
  ⟨[1], 0x8010, [], false, false,
    [⟨31, 24, .ro, 0x0⟩, ⟨23, 16, .rwe, 0x1e⟩, ⟨15, 0, .rwe, 0xdc⟩]⟩,
  -- CAL_TRIM
  ⟨[1], 0x8014, [], false, false,
    [⟨31, 16, .rwe, 0x7d0⟩, ⟨15, 0, .rwe, 0x14⟩]⟩,
  -- CAL_SURVEY
  ⟨[1], 0x8018, [], false, false,
    [⟨31, 16, .ro, 0x0⟩, ⟨15, 0, .rwe, 0x18⟩]⟩,
  -- CAL_TALON_k
  ⟨[1], 0x8020, [⟨0, 7, 0x4⟩], false, false,
    [⟨31, 24, .ro, 0x0⟩, ⟨23, 16, .ro, 0x0⟩, ⟨15, 5, .ro, 0x0⟩, ⟨4, 0, .ro, 0x0⟩]⟩,
  -- CAL_OUTER
  ⟨[1], 0x8040, [], false, false,
    [⟨31, 7, .ro, 0x0⟩, ⟨6, 0, .ro, 0x0⟩]⟩,
  -- CAL_Q_SEL
  ⟨[1], 0x8080, [], false, false,
    [⟨31, 13, .ro, 0x0⟩, ⟨12, 0, .rw, 0x0⟩]⟩,
  -- CAL_Q_EXT
  ⟨[1], 0x8084, [], false, false,
    [⟨31, 16, .ro, 0x0⟩, ⟨15, 0, .ro, 0x0⟩]⟩,
  -- CAL_Q_INFO
  ⟨[1], 0x8088, [], false, false,
    [⟨31, 31, .ro, 0x0⟩, ⟨30, 30, .ro, 0x0⟩, ⟨29, 29, .ro, 0x0⟩, ⟨28, 28, .ro, 0x0⟩, ⟨27, 24, .ro, 0x0⟩, ⟨23, 8, .ro, 0x0⟩, ⟨7, 0, .ro, 0x0⟩]⟩,
  -- CAL_Q_TRIM
  ⟨[1], 0x808c, [], false, false,
    [⟨31, 0, .ro, 0x0⟩]⟩,
  -- CAL_XT_SEL
  ⟨[1], 0x8090, [], false, false,
    [⟨31, 9, .ro, 0x0⟩, ⟨8, 0, .rw, 0x0⟩]⟩,
  -- CAL_XT
  ⟨[1], 0x8094, [], false, false,
    [⟨31, 31, .ro, 0x0⟩, ⟨30, 16, .ro, 0x0⟩, ⟨15, 0, .ro, 0x0⟩]⟩,
  -- CAL_TRIM_CNT
  ⟨[1], 0x8098, [], false, false,
    [⟨31, 0, .rc, 0x0⟩]⟩,
  -- CAL_SURVEY_CNT
  ⟨[1], 0x809c, [], false, false,
    [⟨31, 16, .rc, 0x0⟩, ⟨15, 0, .rc, 0x0⟩]⟩,
  -- CAL_FIELD_DISC
  ⟨[1], 0x80a0, [], false, false,
    [⟨31, 0, .rc, 0x0⟩]⟩,
  -- CAL_RD_SEL
  ⟨[1], 0x80b0, [], false, false,
    [⟨31, 30, .rw, 0x0⟩, ⟨29, 28, .ro, 0x0⟩, ⟨27, 24, .rw, 0x0⟩, ⟨23, 21, .ro, 0x0⟩, ⟨20, 0, .rw, 0x0⟩]⟩,
  -- CAL_RD_DATA
  ⟨[1], 0x80b4, [], false, false,
    [⟨31, 0, .ro, 0x0⟩]⟩,
  -- CAL_BENCH_w
  ⟨[1], 0x8100, [⟨0, 151, 0x4⟩], false, false,
    [⟨31, 0, .ro, 0x0⟩]⟩,
  -- CAL_PARK_w
  ⟨[1], 0x8400, [⟨0, 151, 0x4⟩], false, false,
    [⟨31, 0, .ro, 0x0⟩]⟩,
  -- CAL_QFAIL_w
  ⟨[1], 0x8700, [⟨0, 151, 0x4⟩], false, false,
    [⟨31, 0, .ro, 0x0⟩]⟩]

/-- The PRS block. -/
def regsPRS : List RegDef := [
  -- PRS_ETYPE
  ⟨[2], 0x0, [], false, false,
    [⟨31, 16, .rws, 0x88b6⟩, ⟨15, 0, .rws, 0x88b5⟩]⟩,
  -- PRS_UDPPORT
  ⟨[2], 0x4, [], false, false,
    [⟨31, 16, .rws, 0xb7c1⟩, ⟨15, 0, .rws, 0xb7c0⟩]⟩,
  -- PRS_PIPE_p
  ⟨[2], 0x10, [⟨0, 1, 0x4⟩], false, false,
    [⟨31, 31, .ro, 0x0⟩, ⟨30, 30, .ro, 0x0⟩, ⟨29, 29, .ro, 0x1⟩, ⟨28, 24, .ro, 0x0⟩, ⟨23, 16, .ro, 0x0⟩, ⟨15, 7, .ro, 0x0⟩, ⟨6, 0, .ro, 0x0⟩]⟩,
  -- PRS_RULE_SEL
  ⟨[2], 0x100, [], false, false,
    [⟨31, 14, .ro, 0x0⟩, ⟨13, 13, .rw, 0x0⟩, ⟨12, 12, .rw, 0x0⟩, ⟨11, 0, .rw, 0x0⟩]⟩,
  -- PRS_RULE_CMD
  ⟨[2], 0x104, [], false, false,
    [⟨31, 31, .ro, 0x0⟩, ⟨30, 28, .ro, 0x0⟩, ⟨27, 5, .ro, 0x0⟩, ⟨4, 4, .ro, 0x0⟩, ⟨3, 2, .ro, 0x0⟩, ⟨1, 0, .wo, 0x0⟩]⟩,
  -- PRS_RULE_ACT
  ⟨[2], 0x108, [], true, false,
    [⟨63, 0, .rw, 0x0⟩]⟩,
  -- PRS_RULE_HITS
  ⟨[2], 0x110, [], false, false,
    [⟨31, 0, .ro, 0x0⟩]⟩,
  -- PRS_RULE_KEY_k
  ⟨[2], 0x140, [⟨0, 9, 0x4⟩], false, false,
    [⟨31, 0, .rw, 0x0⟩]⟩,
  -- PRS_RULE_MASK_k
  ⟨[2], 0x180, [⟨0, 9, 0x4⟩], false, false,
    [⟨31, 0, .rw, 0x0⟩]⟩,
  -- PRS_CNT_p_c
  ⟨[2], 0x200, [⟨0, 1, 0x40⟩, ⟨0, 8, 0x4⟩], false, false,
    [⟨31, 0, .rc, 0x0⟩]⟩,
  -- PRS_VSP_DROP_c
  ⟨[2], 0x300, [⟨0, 5, 0x4⟩], false, false,
    [⟨31, 0, .rc, 0x0⟩]⟩]

/-- The EPT block. -/
def regsEPT : List RegDef := [
  -- EPT_CMD
  ⟨[2], 0x2000, [], false, false,
    [⟨31, 31, .ro, 0x0⟩, ⟨30, 28, .ro, 0x0⟩, ⟨27, 9, .ro, 0x0⟩, ⟨8, 8, .rw, 0x0⟩, ⟨7, 3, .ro, 0x0⟩, ⟨2, 0, .wo, 0x0⟩]⟩,
  -- EPT_KEY
  ⟨[2], 0x2008, [], true, false,
    [⟨63, 60, .rw, 0x0⟩, ⟨59, 48, .rw, 0x0⟩, ⟨47, 0, .rw, 0x0⟩]⟩,
  -- EPT_SMASK
  ⟨[2], 0x2010, [], true, false,
    [⟨63, 0, .rw, 0x0⟩]⟩,
  -- EPT_DATA0
  ⟨[2], 0x2018, [], false, false,
    [⟨31, 31, .ro, 0x0⟩, ⟨30, 28, .rw, 0x0⟩, ⟨27, 16, .rw, 0x0⟩, ⟨15, 10, .ro, 0x0⟩, ⟨9, 0, .rw, 0x3ff⟩]⟩,
  -- EPT_DATA1
  ⟨[2], 0x201c, [], false, false,
    [⟨31, 0, .rw, 0x0⟩]⟩,
  -- EPT_DATA2
  ⟨[2], 0x2020, [], false, false,
    [⟨31, 8, .ro, 0x0⟩, ⟨7, 0, .rw, 0x0⟩]⟩,
  -- EPT_DATA3
  ⟨[2], 0x2024, [], false, false,
    [⟨31, 31, .rw, 0x0⟩, ⟨30, 19, .ro, 0x0⟩, ⟨18, 18, .rw, 0x0⟩, ⟨17, 16, .rw, 0x0⟩, ⟨15, 15, .ro, 0x0⟩, ⟨14, 0, .rw, 0x0⟩]⟩,
  -- EPT_AGE_LIMIT
  ⟨[2], 0x2030, [], false, false,
    [⟨31, 0, .rws, 0x493e0⟩]⟩,
  -- EPT_FLAP
  ⟨[2], 0x2034, [], false, false,
    [⟨31, 16, .rws, 0xa⟩, ⟨15, 4, .ro, 0x0⟩, ⟨3, 0, .rws, 0x4⟩]⟩,
  -- EPT_OCC_p
  ⟨[2], 0x2040, [⟨0, 1, 0x4⟩], false, false,
    [⟨31, 19, .ro, 0x0⟩, ⟨18, 0, .ro, 0x0⟩]⟩,
  -- EPT_CNT_p_c
  ⟨[2], 0x2080, [⟨0, 1, 0x20⟩, ⟨0, 6, 0x4⟩], false, false,
    [⟨31, 0, .rc, 0x0⟩]⟩]

/-- The TMG block. -/
def regsTMG : List RegDef := [
  -- TMG_CLASSQ0
  ⟨[2], 0x3000, [], false, false,
    [⟨31, 29, .ro, 0x0⟩, ⟨28, 24, .rws, 0xc⟩, ⟨23, 21, .ro, 0x0⟩, ⟨20, 16, .rws, 0x8⟩, ⟨15, 13, .ro, 0x0⟩, ⟨12, 8, .rws, 0x4⟩, ⟨7, 5, .ro, 0x0⟩, ⟨4, 0, .rws, 0x0⟩]⟩,
  -- TMG_CLASSQ1
  ⟨[2], 0x3004, [], false, false,
    [⟨31, 29, .ro, 0x0⟩, ⟨28, 24, .ro, 0x1f⟩, ⟨23, 21, .ro, 0x0⟩, ⟨20, 16, .rws, 0x18⟩, ⟨15, 13, .ro, 0x0⟩, ⟨12, 8, .rws, 0x14⟩, ⟨7, 5, .ro, 0x0⟩, ⟨4, 0, .rws, 0x10⟩]⟩,
  -- TMG_OVH_p
  ⟨[2], 0x3010, [⟨0, 7, 0x4⟩], false, false,
    [⟨31, 6, .ro, 0x0⟩, ⟨5, 0, .rwe, 0x14⟩]⟩,
  -- TMG_TPOL_p
  ⟨[2], 0x3040, [⟨0, 7, 0x4⟩], false, false,
    [⟨31, 20, .rwe, 0x64⟩, ⟨19, 5, .rwe, 0x1000⟩, ⟨4, 0, .rwe, 0x10⟩]⟩,
  -- TMG_APOL_RATE_k
  ⟨[2], 0x3080, [⟨0, 15, 0x8⟩], false, false,
    [⟨31, 0, .rwe, 0x2710⟩]⟩,
  -- TMG_APOL_BURST_k
  ⟨[2], 0x3084, [⟨0, 15, 0x8⟩], false, false,
    [⟨31, 31, .rwe, 0x0⟩, ⟨30, 16, .rwe, 0x100⟩, ⟨15, 0, .rwe, 0x80⟩]⟩,
  -- TMG_SAMPLE
  ⟨[2], 0x3100, [], false, false,
    [⟨31, 16, .ro, 0x0⟩, ⟨15, 0, .rws, 0x3d1⟩]⟩,
  -- TMG_QCFG_p_q
  ⟨[2], 0x3200, [⟨0, 7, 0x80⟩, ⟨0, 31, 0x4⟩], false, false,
    [⟨31, 31, .rwe, 0x0⟩, ⟨30, 30, .rws, 0x0⟩, ⟨29, 27, .rws, 0x0⟩, ⟨26, 0, .ro, 0x0⟩]⟩,
  -- TMG_QSLOPE_p_q
  ⟨[2], 0x3600, [⟨0, 7, 0x80⟩, ⟨0, 30, 0x4⟩], false, false,
    [⟨31, 20, .rwe, 0x40⟩, ⟨19, 19, .ro, 0x0⟩, ⟨18, 0, .rwe, 0x0⟩]⟩,
  -- TMG_QLIM_p_q
  ⟨[2], 0x3a00, [⟨0, 7, 0x80⟩, ⟨0, 31, 0x4⟩], false, false,
    [⟨31, 16, .rws, 0x40⟩, ⟨15, 0, .rws, 0x30⟩]⟩,
  -- TMG_GL_STATUS_p
  ⟨[2], 0x3e00, [⟨0, 7, 0x10⟩], false, false,
    [⟨31, 30, .ro, 0x0⟩, ⟨29, 29, .ro, 0x0⟩, ⟨28, 25, .ro, 0x0⟩, ⟨24, 16, .ro, 0x0⟩, ⟨15, 8, .ro, 0x0⟩, ⟨7, 0, .ro, 0x0⟩]⟩,
  -- TMG_GL_CYCLE_p
  ⟨[2], 0x3e04, [⟨0, 7, 0x10⟩], false, false,
    [⟨31, 0, .ro, 0x0⟩]⟩,
  -- TMG_GL_BASE_p
  ⟨[2], 0x3e08, [⟨0, 7, 0x10⟩], true, false,
    [⟨63, 0, .ro, 0x0⟩]⟩,
  -- TMG_GL_SEL
  ⟨[2], 0x3f00, [], false, false,
    [⟨31, 11, .ro, 0x0⟩, ⟨10, 8, .rw, 0x0⟩, ⟨7, 0, .rw, 0x0⟩]⟩,
  -- TMG_GL_GATES
  ⟨[2], 0x3f04, [], false, false,
    [⟨31, 0, .ro, 0x0⟩]⟩,
  -- TMG_GL_INTV
  ⟨[2], 0x3f08, [], false, false,
    [⟨31, 0, .ro, 0x0⟩]⟩,
  -- TMG_SMP_SEL
  ⟨[2], 0x3f10, [], false, false,
    [⟨31, 8, .ro, 0x0⟩, ⟨7, 5, .rw, 0x0⟩, ⟨4, 0, .rw, 0x0⟩]⟩,
  -- TMG_SMP_DEPTH_MIN
  ⟨[2], 0x3f14, [], false, false,
    [⟨31, 0, .ro, 0x0⟩]⟩,
  -- TMG_SMP_DEPTH_MAX
  ⟨[2], 0x3f18, [], false, false,
    [⟨31, 0, .ro, 0x0⟩]⟩,
  -- TMG_SMP_DEPTH_MEAN
  ⟨[2], 0x3f1c, [], false, false,
    [⟨31, 0, .ro, 0x0⟩]⟩,
  -- TMG_SMP_HOL_MIN
  ⟨[2], 0x3f20, [], false, false,
    [⟨31, 0, .ro, 0x0⟩]⟩,
  -- TMG_SMP_HOL_MAX
  ⟨[2], 0x3f24, [], false, false,
    [⟨31, 0, .ro, 0x0⟩]⟩,
  -- TMG_SMP_HOL_MEAN
  ⟨[2], 0x3f28, [], false, false,
    [⟨31, 0, .ro, 0x0⟩]⟩,
  -- TMG_QDROP_p_q
  ⟨[2], 0x4000, [⟨0, 7, 0x80⟩, ⟨0, 31, 0x4⟩], false, false,
    [⟨31, 0, .rc, 0x0⟩]⟩,
  -- TMG_QSENT_p_q
  ⟨[2], 0x4400, [⟨0, 7, 0x80⟩, ⟨0, 31, 0x4⟩], false, false,
    [⟨31, 0, .rc, 0x0⟩]⟩,
  -- TMG_PCNT_p_c
  ⟨[2], 0x4800, [⟨0, 7, 0x20⟩, ⟨0, 4, 0x4⟩], false, false,
    [⟨31, 0, .rc, 0x0⟩]⟩,
  -- TMG_APOL_CNT_c
  ⟨[2], 0x4900, [⟨0, 4, 0x4⟩], false, false,
    [⟨31, 0, .rc, 0x0⟩]⟩]

/-- The ETH block. -/
def regsETH : List RegDef := [
  -- ETH_CFG
  ⟨[2], 0x5000, [], false, false,
    [⟨31, 31, .w1c, 0x0⟩, ⟨30, 9, .ro, 0x0⟩, ⟨8, 8, .ro, 0x0⟩, ⟨7, 2, .ro, 0x0⟩, ⟨1, 1, .wo, 0x0⟩, ⟨0, 0, .rws, 0x0⟩]⟩,
  -- ETH_MAXLEN
  ⟨[2], 0x5004, [], false, false,
    [⟨31, 14, .ro, 0x0⟩, ⟨13, 0, .rws, 0x5f2⟩]⟩,
  -- ETH_PORT_p
  ⟨[2], 0x5010, [⟨0, 7, 0x4⟩], false, false,
    [⟨31, 30, .ro, 0x0⟩, ⟨29, 28, .ro, 0x0⟩, ⟨27, 27, .ro, 0x0⟩, ⟨26, 0, .ro, 0x0⟩]⟩,
  -- ETH_MM_p
  ⟨[2], 0x5030, [⟨0, 7, 0x4⟩], false, false,
    [⟨31, 31, .rws, 0x1⟩, ⟨30, 30, .rws, 0x0⟩, ⟨29, 28, .rws, 0x0⟩, ⟨27, 8, .ro, 0x0⟩, ⟨7, 0, .rws, 0xa⟩]⟩,
  -- ETH_MP
  ⟨[2], 0x5050, [], false, false,
    [⟨31, 30, .ro, 0x0⟩, ⟨29, 2, .ro, 0x0⟩, ⟨1, 1, .rws, 0x1⟩, ⟨0, 0, .rws, 0x0⟩]⟩,
  -- ETH_CNT_p_c
  ⟨[2], 0x5100, [⟨0, 7, 0x40⟩, ⟨0, 11, 0x4⟩], false, false,
    [⟨31, 0, .rc, 0x0⟩]⟩]

/-- The HIF block. -/
def regsHIF : List RegDef := [
  -- HIF_ID
  ⟨[0], 0x0, [], false, false,
    [⟨31, 24, .ro, 0x0⟩, ⟨23, 9, .ro, 0x0⟩, ⟨8, 8, .ro, 0x0⟩, ⟨7, 0, .ro, 0x0⟩]⟩,
  -- HIF_PCIE
  ⟨[0], 0x4, [], false, false,
    [⟨31, 9, .ro, 0x0⟩, ⟨8, 4, .ro, 0x0⟩, ⟨3, 0, .ro, 0x0⟩]⟩,
  -- HIF_PCIE_ERR
  ⟨[0], 0x8, [], false, false,
    [⟨31, 16, .rc, 0x0⟩, ⟨15, 0, .rc, 0x0⟩]⟩,
  -- HIF_LEVEL
  ⟨[0, 1, 2, 3], 0xf000, [], false, false,
    [⟨31, 1, .ro, 0x0⟩, ⟨0, 0, .rw, 0x0⟩]⟩,
  -- HIF_FID
  ⟨[0, 1, 2, 3], 0xf004, [], false, false,
    [⟨31, 10, .ro, 0x0⟩, ⟨9, 9, .ro, 0x0⟩, ⟨8, 8, .ro, 0x0⟩, ⟨7, 2, .ro, 0x0⟩, ⟨1, 0, .ro, 0x0⟩]⟩,
  -- HIF_CTRL
  ⟨[0, 1, 2, 3], 0xf008, [], false, false,
    [⟨31, 22, .ro, 0x0⟩, ⟨21, 16, .rw, 0x0⟩, ⟨15, 1, .ro, 0x0⟩, ⟨0, 0, .rw, 0x0⟩]⟩,
  -- HIF_RESET
  ⟨[0, 1, 2, 3], 0xf00c, [], false, false,
    [⟨31, 31, .ro, 0x1⟩, ⟨30, 30, .ro, 0x0⟩, ⟨29, 1, .ro, 0x0⟩, ⟨0, 0, .wo, 0x0⟩]⟩,
  -- HIF_RESET_CNT
  ⟨[0, 1, 2, 3], 0xf010, [], false, false,
    [⟨31, 16, .ro, 0x0⟩, ⟨15, 0, .ro, 0x0⟩]⟩,
  -- HIF_DB_BASE
  ⟨[0, 1, 2, 3], 0xf018, [], true, false,
    [⟨63, 6, .rw, 0x0⟩, ⟨5, 0, .ro, 0x0⟩]⟩,
  -- HIF_KICK
  ⟨[0, 1, 2, 3], 0xf020, [], false, false,
    [⟨31, 0, .wo, 0x0⟩]⟩,
  -- HIF_POLL
  ⟨[0, 1, 2, 3], 0xf024, [], false, false,
    [⟨31, 1, .ro, 0x0⟩, ⟨0, 0, .ro, 0x1⟩]⟩,
  -- HIF_ERR
  ⟨[0, 1, 2, 3], 0xf028, [], false, false,
    [⟨31, 31, .w1c, 0x0⟩, ⟨30, 26, .ro, 0x0⟩, ⟨25, 0, .w1c, 0x0⟩]⟩,
  -- HIF_EVMASK
  ⟨[0, 1, 2, 3], 0xf02c, [], false, false,
    [⟨31, 14, .ro, 0x0⟩, ⟨13, 13, .rw, 0x1⟩, ⟨12, 12, .rw, 0x1⟩, ⟨11, 11, .rw, 0x1⟩, ⟨10, 10, .rw, 0x1⟩, ⟨9, 9, .rw, 0x1⟩, ⟨8, 8, .rw, 0x0⟩, ⟨7, 7, .rw, 0x1⟩, ⟨6, 6, .rw, 0x1⟩, ⟨5, 5, .rw, 0x0⟩, ⟨4, 4, .rw, 0x0⟩, ⟨3, 3, .rw, 0x1⟩, ⟨2, 2, .rw, 0x1⟩, ⟨1, 1, .rw, 0x1⟩, ⟨0, 0, .ro, 0x1⟩]⟩,
  -- HIF_EV_LOST
  ⟨[0, 1, 2, 3], 0xf030, [], false, false,
    [⟨31, 0, .rc, 0x0⟩]⟩,
  -- HIF_TM_LOST
  ⟨[0, 1, 2, 3], 0xf034, [], false, false,
    [⟨31, 0, .rc, 0x0⟩]⟩,
  -- HIF_RX_DROP
  ⟨[2], 0xf038, [], false, false,
    [⟨31, 16, .rc, 0x0⟩, ⟨15, 0, .rc, 0x0⟩]⟩,
  -- HIF_RING_BASE_r
  ⟨[0, 1, 2, 3], 0xf100, [⟨0, 25, 0x20⟩], true, false,
    [⟨63, 12, .rw, 0x0⟩, ⟨11, 0, .ro, 0x0⟩]⟩,
  -- HIF_RING_CFG_r
  ⟨[0, 1, 2, 3], 0xf108, [⟨0, 25, 0x20⟩], false, false,
    [⟨31, 31, .rw, 0x0⟩, ⟨30, 30, .ro, 0x0⟩, ⟨29, 29, .ro, 0x1⟩, ⟨28, 28, .rw, 0x0⟩, ⟨27, 26, .rw, 0x0⟩, ⟨25, 22, .ro, 0x0⟩, ⟨21, 16, .rw, 0x0⟩, ⟨15, 15, .rw, 0x0⟩, ⟨14, 11, .ro, 0x0⟩, ⟨10, 8, .rw, 0x0⟩, ⟨7, 5, .ro, 0x0⟩, ⟨4, 0, .rw, 0x6⟩]⟩,
  -- HIF_RING_MOD_r
  ⟨[0, 1, 2, 3], 0xf10c, [⟨0, 25, 0x20⟩], false, false,
    [⟨31, 0, .ro, 0x0⟩]⟩,
  -- HIF_RING_IRQ_r
  ⟨[0, 1, 2, 3], 0xf110, [⟨8, 25, 0x20⟩], false, false,
    [⟨31, 16, .rw, 0xa⟩, ⟨15, 0, .rw, 0x1⟩]⟩]

/-- The LGD block. -/
def regsLGD : List RegDef := [
  -- LGD_STATUS
  ⟨[0], 0x8000, [], false, false,
    [⟨31, 31, .ro, 0x0⟩, ⟨30, 30, .ro, 0x0⟩, ⟨29, 29, .ro, 0x0⟩, ⟨28, 28, .ro, 0x0⟩, ⟨27, 27, .ro, 0x0⟩, ⟨26, 26, .ro, 0x0⟩, ⟨25, 25, .ro, 0x0⟩, ⟨24, 16, .ro, 0x0⟩, ⟨15, 8, .ro, 0x0⟩, ⟨7, 4, .ro, 0x0⟩, ⟨3, 0, .ro, 0x0⟩]⟩,
  -- LGD_GCFG
  ⟨[0], 0x8004, [], false, false,
    [⟨31, 24, .ro, 0x0⟩, ⟨23, 16, .rwl, 0x28⟩, ⟨15, 1, .ro, 0x0⟩, ⟨0, 0, .rwl, 0x0⟩]⟩,
  -- LGD_ZONE_z
  ⟨[0], 0x8010, [⟨0, 3, 0x4⟩], false, false,
    [⟨31, 30, .ro, 0x0⟩, ⟨29, 29, .ro, 0x0⟩, ⟨28, 28, .ro, 0x0⟩, ⟨27, 27, .ro, 0x0⟩, ⟨26, 26, .ro, 0x0⟩, ⟨25, 25, .ro, 0x0⟩, ⟨24, 24, .ro, 0x0⟩, ⟨23, 16, .ro, 0x0⟩, ⟨15, 0, .ro, 0x0⟩]⟩,
  -- LGD_ZCFG_z
  ⟨[0], 0x8020, [⟨0, 3, 0x4⟩], false, false,
    [⟨31, 31, .rwl, 0x0⟩, ⟨30, 3, .ro, 0x0⟩, ⟨2, 2, .rwl, 0x0⟩, ⟨1, 1, .rwl, 0x0⟩, ⟨0, 0, .rwl, 0x1⟩]⟩,
  -- LGD_PCFG_k
  ⟨[0], 0x8040, [⟨0, 7, 0x4⟩], false, false,
    [⟨31, 31, .rwl, 0x0⟩, ⟨30, 9, .ro, 0x0⟩, ⟨8, 8, .rwl, 0x0⟩, ⟨7, 4, .ro, 0x0⟩, ⟨3, 0, .rwl, 0x0⟩]⟩,
  -- LGD_PSTAT
  ⟨[0], 0x8060, [], false, false,
    [⟨31, 24, .ro, 0x0⟩, ⟨23, 16, .ro, 0x0⟩, ⟨15, 8, .ro, 0x0⟩, ⟨7, 0, .ro, 0x0⟩]⟩,
  -- LGD_SD_CFG
  ⟨[0], 0x8070, [], false, false,
    [⟨31, 31, .rwl, 0x0⟩, ⟨30, 30, .rwl, 0x1⟩, ⟨29, 26, .ro, 0x0⟩, ⟨25, 16, .rwl, 0x64⟩, ⟨15, 0, .rwl, 0x0⟩]⟩,
  -- LGD_SD_STAT
  ⟨[0], 0x8074, [], false, false,
    [⟨31, 30, .ro, 0x0⟩, ⟨29, 29, .ro, 0x0⟩, ⟨28, 16, .ro, 0x0⟩, ⟨15, 0, .ro, 0x0⟩]⟩,
  -- LGD_CONN_SEL
  ⟨[0], 0x8080, [], false, false,
    [⟨31, 8, .ro, 0x0⟩, ⟨7, 0, .rw, 0x0⟩]⟩,
  -- LGD_CONN_CFG
  ⟨[0], 0x8084, [], false, false,
    [⟨31, 31, .rwl, 0x0⟩, ⟨30, 30, .rwl, 0x0⟩, ⟨29, 29, .rwl, 0x0⟩, ⟨28, 26, .rwl, 0x0⟩, ⟨25, 23, .rwl, 0x0⟩, ⟨22, 19, .rwl, 0x0⟩, ⟨18, 9, .rwl, 0x3ff⟩, ⟨8, 0, .ro, 0x0⟩]⟩,
  -- LGD_CONN_ID
  ⟨[0], 0x8088, [], false, false,
    [⟨31, 16, .rwl, 0x0⟩, ⟨15, 10, .ro, 0x0⟩, ⟨9, 0, .rwl, 0x64⟩]⟩,
  -- LGD_CONN_ADDR
  ⟨[0], 0x8090, [], true, false,
    [⟨63, 60, .ro, 0x0⟩, ⟨59, 48, .rwl, 0x0⟩, ⟨47, 0, .rwl, 0x0⟩]⟩,
  -- LGD_CONN_STAT
  ⟨[0], 0x8098, [], false, false,
    [⟨31, 30, .ro, 0x0⟩, ⟨29, 29, .ro, 0x0⟩, ⟨28, 16, .ro, 0x0⟩, ⟨15, 0, .ro, 0x0⟩]⟩,
  -- LGD_CTRL
  ⟨[0], 0x80a0, [], false, false,
    [⟨31, 31, .ro, 0x0⟩, ⟨30, 1, .ro, 0x0⟩, ⟨0, 0, .rwl, 0x0⟩]⟩,
  -- LGD_FORCE
  ⟨[0], 0x80a4, [], false, false,
    [⟨31, 28, .ro, 0x0⟩, ⟨27, 24, .rwl, 0x0⟩, ⟨23, 20, .rwl, 0x0⟩, ⟨19, 19, .rwl, 0x0⟩, ⟨18, 18, .rwl, 0x0⟩, ⟨17, 17, .rwl, 0x0⟩, ⟨16, 16, .ro, 0x0⟩, ⟨15, 8, .rwl, 0x0⟩, ⟨7, 0, .rwl, 0x0⟩]⟩,
  -- LGD_RAW
  ⟨[0], 0x80a8, [], false, false,
    [⟨31, 31, .ro, 0x0⟩, ⟨30, 8, .ro, 0x0⟩, ⟨7, 4, .ro, 0x0⟩, ⟨3, 0, .ro, 0x0⟩]⟩,
  -- LGD_REACT
  ⟨[0], 0x80b0, [], false, false,
    [⟨31, 16, .rc, 0x0⟩, ⟨15, 0, .rc, 0x0⟩]⟩,
  -- LGD_ZMAP_z_w
  ⟨[0], 0x8100, [⟨0, 3, 0x80⟩, ⟨0, 31, 0x4⟩], false, false,
    [⟨31, 0, .rwl, 0x0⟩]⟩]

/-- The FLT block. -/
def regsFLT : List RegDef := [
  -- FLT_STICKY_w
  ⟨[0], 0x4000, [⟨0, 7, 0x4⟩], false, false,
    [⟨31, 0, .w1c, 0x0⟩]⟩,
  -- FLT_RAW_w
  ⟨[0], 0x4020, [⟨0, 7, 0x4⟩], false, false,
    [⟨31, 0, .ro, 0x0⟩]⟩,
  -- FLT_MASK_w
  ⟨[0], 0x4040, [⟨0, 7, 0x4⟩], false, false,
    [⟨31, 0, .rws, 0x0⟩]⟩,
  -- FLT_FORCE_w
  ⟨[0], 0x4060, [⟨0, 7, 0x4⟩], false, false,
    [⟨31, 0, .rwl, 0x0⟩]⟩,
  -- FLT_PROMO_w
  ⟨[0], 0x4080, [⟨0, 7, 0x4⟩], false, false,
    [⟨31, 0, .ro, 0x0⟩]⟩,
  -- FLT_PINSRC_w
  ⟨[0], 0x40a0, [⟨0, 7, 0x4⟩], false, false,
    [⟨31, 0, .ro, 0x0⟩]⟩,
  -- FLT_STATUS
  ⟨[0], 0x4100, [], false, false,
    [⟨31, 31, .ro, 0x0⟩, ⟨30, 30, .ro, 0x0⟩, ⟨29, 24, .ro, 0x0⟩, ⟨23, 16, .ro, 0x0⟩, ⟨15, 15, .ro, 0x0⟩, ⟨14, 8, .ro, 0x0⟩, ⟨7, 0, .ro, 0x0⟩]⟩,
  -- FLT_WIN_k
  ⟨[0], 0x4120, [⟨0, 7, 0x4⟩], false, false,
    [⟨31, 24, .ro, 0x0⟩, ⟨23, 0, .rws, 0x0⟩]⟩,
  -- FLT_REPL
  ⟨[0], 0x4140, [], false, false,
    [⟨31, 8, .ro, 0x0⟩, ⟨7, 7, .ro, 0x0⟩, ⟨6, 6, .ro, 0x0⟩, ⟨5, 5, .ro, 0x0⟩, ⟨4, 4, .ro, 0x0⟩, ⟨3, 3, .ro, 0x0⟩, ⟨2, 2, .ro, 0x0⟩, ⟨1, 1, .ro, 0x0⟩, ⟨0, 0, .ro, 0x0⟩]⟩,
  -- FLT_SRC_s
  ⟨[0], 0x4400, [⟨0, 249, 0x4⟩], false, false,
    [⟨31, 24, .rws, 0x0⟩, ⟨23, 23, .ro, 0x0⟩, ⟨22, 20, .rws, 0x0⟩, ⟨19, 19, .ro, 0x0⟩, ⟨18, 16, .rws, 0x0⟩, ⟨15, 15, .ro, 0x0⟩, ⟨14, 12, .rws, 0x0⟩, ⟨11, 11, .ro, 0x0⟩, ⟨10, 8, .ro, 0x0⟩, ⟨7, 0, .ro, 0x0⟩]⟩]

/-- The THM block. -/
def regsTHM : List RegDef := [
  -- THM_STATUS
  ⟨[0], 0x3000, [], false, false,
    [⟨31, 21, .ro, 0x0⟩, ⟨20, 19, .ro, 0x0⟩, ⟨18, 15, .ro, 0xf⟩, ⟨14, 14, .ro, 0x0⟩, ⟨13, 13, .ro, 0x0⟩, ⟨12, 12, .ro, 0x0⟩, ⟨11, 11, .ro, 0x0⟩, ⟨10, 10, .ro, 0x0⟩, ⟨9, 9, .ro, 0x0⟩, ⟨8, 8, .w1c, 0x0⟩, ⟨7, 2, .ro, 0x0⟩, ⟨1, 0, .ro, 0x0⟩]⟩,
  -- THM_TEMP_s
  ⟨[0], 0x3010, [⟨0, 10, 0x4⟩], false, false,
    [⟨31, 31, .ro, 0x0⟩, ⟨30, 30, .ro, 0x0⟩, ⟨29, 28, .ro, 0x0⟩, ⟨27, 16, .ro, 0x0⟩, ⟨15, 0, .ro, 0x0⟩]⟩,
  -- THM_FOFS
  ⟨[0], 0x3040, [], false, false,
    [⟨31, 16, .ro, 0x0⟩, ⟨15, 0, .ro, 0x0⟩]⟩,
  -- THM_THR_k
  ⟨[0], 0x3050, [⟨0, 2, 0x4⟩], false, false,
    [⟨31, 24, .rwe, 0x0⟩, ⟨23, 16, .rwe, 0x0⟩, ⟨15, 8, .rwe, 0x0⟩, ⟨7, 0, .rwe, 0x0⟩]⟩,
  -- THM_CTRL
  ⟨[0], 0x3060, [], false, false,
    [⟨31, 1, .ro, 0x0⟩, ⟨0, 0, .wo, 0x0⟩]⟩,
  -- THM_TCFG
  ⟨[0], 0x3064, [], false, false,
    [⟨31, 16, .rwe, 0x32⟩, ⟨15, 13, .ro, 0x0⟩, ⟨12, 0, .rwe, 0x400⟩]⟩,
  -- THM_POWER
  ⟨[0], 0x3068, [], false, false,
    [⟨31, 16, .ro, 0x0⟩, ⟨15, 10, .ro, 0x0⟩, ⟨9, 0, .ro, 0x0⟩]⟩,
  -- THM_CLASS
  ⟨[0], 0x3070, [], false, false,
    [⟨31, 4, .ro, 0x0⟩, ⟨3, 2, .ro, 0x0⟩, ⟨1, 0, .ro, 0x0⟩]⟩,
  -- THM_SHUT_CNT
  ⟨[0], 0x3074, [], false, false,
    [⟨31, 0, .rc, 0x0⟩]⟩,
  -- THM_RS_SEL
  ⟨[0], 0x3080, [], false, false,
    [⟨31, 15, .ro, 0x0⟩, ⟨14, 0, .rw, 0x0⟩]⟩,
  -- THM_RS_DATA
  ⟨[0], 0x3084, [], false, false,
    [⟨31, 0, .ro, 0x0⟩]⟩,
  -- THM_RS_STAT
  ⟨[0], 0x3088, [], false, false,
    [⟨31, 31, .ro, 0x0⟩, ⟨30, 30, .ro, 0x0⟩, ⟨29, 29, .ro, 0x0⟩, ⟨28, 10, .ro, 0x0⟩, ⟨9, 0, .ro, 0x0⟩]⟩]

/-- The RST block. -/
def regsRST : List RegDef := [
  -- RST_CAUSE
  ⟨[0], 0x1000, [], false, false,
    [⟨31, 8, .ro, 0x0⟩, ⟨7, 7, .ro, 0x0⟩, ⟨6, 6, .ro, 0x0⟩, ⟨5, 5, .ro, 0x0⟩, ⟨4, 4, .ro, 0x0⟩, ⟨3, 3, .ro, 0x0⟩, ⟨2, 2, .ro, 0x0⟩, ⟨1, 1, .ro, 0x0⟩, ⟨0, 0, .ro, 0x1⟩]⟩,
  -- RST_SWRST
  ⟨[0], 0x1004, [], false, false,
    [⟨31, 16, .wo, 0x0⟩, ⟨15, 1, .ro, 0x0⟩, ⟨0, 0, .wo, 0x0⟩]⟩,
  -- RST_WATCH
  ⟨[0], 0x1008, [], false, true,
    [⟨31, 0, .ro, 0x0⟩]⟩,
  -- RST_HELD
  ⟨[0], 0x100c, [], false, true,
    [⟨31, 16, .ro, 0x0⟩, ⟨15, 0, .ro, 0x0⟩]⟩,
  -- RST_COUNT
  ⟨[0], 0x1010, [], false, true,
    [⟨31, 24, .ro, 0x0⟩, ⟨23, 16, .ro, 0x0⟩, ⟨15, 8, .ro, 0x0⟩, ⟨7, 0, .ro, 0x0⟩]⟩,
  -- RST_BOOT
  ⟨[0], 0x1014, [], false, false,
    [⟨31, 31, .w1s, 0x0⟩, ⟨30, 30, .ro, 0x0⟩, ⟨29, 28, .ro, 0x0⟩, ⟨27, 24, .ro, 0x0⟩, ⟨23, 20, .ro, 0x0⟩, ⟨19, 0, .ro, 0x0⟩]⟩,
  -- RST_FW_VER
  ⟨[0], 0x1018, [], false, false,
    [⟨31, 0, .ro, 0x0⟩]⟩,
  -- RST_SNAP_w
  ⟨[0], 0x1040, [⟨0, 7, 0x4⟩], false, true,
    [⟨31, 0, .ro, 0x0⟩]⟩,
  -- RST_SNAP_INFO
  ⟨[0], 0x1060, [], false, true,
    [⟨31, 29, .ro, 0x0⟩, ⟨28, 0, .ro, 0x0⟩]⟩]

/-- The MTX block. -/
def regsMTX : List RegDef := [
  -- MTX_REMAP
  ⟨[0], 0x2000, [], false, false,
    [⟨31, 1, .ro, 0x0⟩, ⟨0, 0, .w1s, 0x0⟩]⟩,
  -- MTX_STATUS
  ⟨[0], 0x2004, [], false, false,
    [⟨31, 26, .ro, 0x0⟩, ⟨25, 16, .ro, 0x0⟩, ⟨15, 8, .ro, 0x0⟩, ⟨7, 0, .ro, 0x0⟩]⟩,
  -- MTX_OUTST_m
  ⟨[0], 0x2010, [⟨0, 7, 0x4⟩], false, false,
    [⟨31, 22, .ro, 0x0⟩, ⟨21, 16, .rc, 0x0⟩, ⟨15, 6, .ro, 0x0⟩, ⟨5, 0, .ro, 0x0⟩]⟩,
  -- MTX_ERR
  ⟨[0], 0x2040, [], false, false,
    [⟨31, 31, .w1c, 0x0⟩, ⟨30, 12, .ro, 0x0⟩, ⟨11, 8, .ro, 0x0⟩, ⟨7, 4, .ro, 0x0⟩, ⟨3, 3, .ro, 0x0⟩, ⟨2, 0, .ro, 0x0⟩]⟩,
  -- MTX_ERR_ADDR
  ⟨[0], 0x2048, [], true, false,
    [⟨63, 40, .ro, 0x0⟩, ⟨39, 0, .ro, 0x0⟩]⟩,
  -- MTX_CNT_c
  ⟨[0], 0x2050, [⟨0, 4, 0x4⟩], false, false,
    [⟨31, 0, .rc, 0x0⟩]⟩,
  -- MTX_MRST
  ⟨[0], 0x2080, [], false, false,
    [⟨31, 8, .ro, 0x0⟩, ⟨7, 0, .rwl, 0x0⟩]⟩]

/-- The SVC block. -/
def regsSVC : List RegDef := [
  -- SVC_STATUS
  ⟨[0], 0x6000, [], false, false,
    [⟨31, 30, .ro, 0x0⟩, ⟨29, 29, .ro, 0x0⟩, ⟨28, 28, .ro, 0x0⟩, ⟨27, 27, .ro, 0x0⟩, ⟨26, 24, .ro, 0x0⟩, ⟨23, 20, .ro, 0x0⟩, ⟨19, 4, .ro, 0x0⟩, ⟨3, 0, .ro, 0x0⟩]⟩,
  -- SVC_CTRL
  ⟨[0], 0x6004, [], false, false,
    [⟨31, 4, .ro, 0x0⟩, ⟨3, 0, .wo, 0x0⟩]⟩,
  -- SVC_NONCE_k
  ⟨[0], 0x6010, [⟨0, 3, 0x4⟩], false, false,
    [⟨31, 0, .ro, 0x0⟩]⟩,
  -- SVC_RESP_k
  ⟨[0], 0x6020, [⟨0, 7, 0x4⟩], false, false,
    [⟨31, 0, .wo, 0x0⟩]⟩,
  -- SVC_PW_k
  ⟨[0], 0x6040, [⟨0, 3, 0x4⟩], false, false,
    [⟨31, 0, .wo, 0x0⟩]⟩,
  -- SVC_TIMEOUT
  ⟨[0], 0x6050, [], false, false,
    [⟨31, 11, .ro, 0x0⟩, ⟨10, 0, .rwl, 0x1e⟩]⟩,
  -- SVC_LOCKOUT
  ⟨[0], 0x6054, [], false, true,
    [⟨31, 17, .ro, 0x0⟩, ⟨16, 0, .ro, 0x0⟩]⟩,
  -- SVC_COUNT
  ⟨[0], 0x6058, [], false, true,
    [⟨31, 16, .ro, 0x0⟩, ⟨15, 0, .ro, 0x0⟩]⟩]

/-- Every register of a die (R13, R391). -/
def allRegs : List RegDef :=
  regsRED ++ regsTIM ++
  regsDLR ++ regsDCK ++ regsHLD ++ regsUCS ++ regsBNK ++ regsCAL ++
  regsPRS ++ regsEPT ++ regsTMG ++ regsETH ++ regsHIF ++ regsLGD ++
  regsFLT ++ regsTHM ++ regsRST ++ regsMTX ++ regsSVC

end Sys2Proof.Machine
end

