-- ==== Sys2Proof/Config.lean ====
section
/-!
DEFINITION. What an implementation fixes and the manual does not state: values per device, results of functions the manual
names but does not give, and the free values. Each is an opaque constant with no body: no proof can see its value, and a
statement about it holds whatever it is. Each names its entry of the assumption log.
-/

namespace Sys2Proof.Config

/-- Free values, by a counter of State: a value the manual calls undefined or does not state (log entry 10). -/
opaque freeValue : Nat → Nat

/-- LOG10 of the microword, in Q16 (log entry 12). -/
opaque log10Q16 : Nat → Nat
/-- INTERP of the microword on the point pair of the last LD_CAL (log entry 12). -/
opaque interp : Int × Int → Nat → Nat
/-- DIV of the microword, divisor 0 included (log entry 12). -/
opaque divCorner : Nat → Nat → Nat
/-- Loop-state word at an offset, for LD_STATE, LD_CAL and LD_NBR and LD_CFG (log entry 12). -/
opaque loopMem : Nat → Nat → Nat → Nat
/-- Feedback taps of the maximal-length sequence of an order (log entry 13): the next register value. -/
opaque prbsNext : Nat → Nat → Nat

/-- What an interpolated quantity reads as before any calibration point has covered T_f: element and kind (log entry 17). -/
opaque noCal : Nat → Nat → Int

/-- ECDSA P-384 with SHA-384 over the bytes, by key index, with the signature (R251, log entry 14). -/
opaque sigValid : List Byte → Nat → List Byte → Bool
/-- The key index is revoked (R252, log entry 14). -/
opaque keyRevoked : Nat → Bool
/-- The digest of a 16-byte password (SHA-256, R515, log entry 15). -/
opaque digest : BitVec 128 → Nat
/-- HMAC-SHA-256 of a message under K_dev (R516, log entry 15). -/
opaque hmac : Nat → List Byte → Nat
/-- K_dev of a die's one-time memory (R516, log entry 15). -/
opaque kDev : DieId → Option Nat

/-- Result of the boot ROM's check of a firmware slot on the flash contents: 0 valid, 1 to 4 as RST_BOOT.RES (R505, log
entry 16). -/
opaque slotCheck : DieId → Nat → List (Nat × Byte) → Nat
/-- The calibration records the boot flash holds are valid: point sets, cell tables, element table (R294, log entry 17). -/
opaque factoryRecord : DieId → Nat → List Byte

/-- Contents of the boot ROM (R508, log entry 16). -/
opaque bootRom : DieId → Nat → Byte
/-- Control-die revision (HIF_ID.REV). -/
opaque hifRev : DieId → BitVec 8
/-- The PCIe link as negotiated (HIF_PCIE): WIDTH and SPEED. -/
opaque pcieLink : DieId → BitVec 9
/-- Residual crosstalk of an output in 0.1 dB from the quality figures of its path's cells, the powers on their inputs and their element-table
entries (R304, log entry 30). -/
opaque crosstalk : Nat → List (Nat × Nat × Nat) → List (Rat × Rat) → List (Nat × Nat × Nat) → Int
/-- Hours since the last survey of a cell never surveyed (CAL_Q_INFO.AGE_H, log entry 30). -/
opaque neverAge : BitVec 16
/-- Control-store revision (UCS_ID.ROM_REV). -/
opaque romRev : BitVec 16
/-- Bank-die revision and serial (BNK_ID). -/
opaque bankRev : Nat → BitVec 8
opaque bankSerial : Nat → BitVec 24
/-- Module serial number (R290, R516). -/
opaque serial : BitVec 64
/-- Connector option of the EEPROM identity, 16 or 32 (R4). -/
opaque connector : Nat
/-- Power class of the EEPROM: 0 L, 1 H, 2 none (R540). -/
opaque pclass : Fin 3
/-- Minimum firmware VERSION of the EEPROM identity (R505). -/
opaque minVersion : Nat
/-- Factory O_f and D_b, in 1/128 °C (R475, R282). -/
opaque factoryOf : Int
opaque factoryDb : Nat → Int
/-- Factory asymmetry correction of a bank link, ps (R112). -/
opaque asymmetry : DieId → Nat → Int
/-- Factory receive and transmit latencies of a control port, ps (R100). -/
opaque latRx : DieId → Nat → BitVec 24
opaque latTx : DieId → Nat → BitVec 24
/-- Field password digest the factory stored, if any (R515). -/
opaque factoryPw : Option Nat

/-- The CRC-32C of a Light Guard configuration, whose byte order the manual does not give (R444, log entry 27). -/
opaque lgdCrc : List Nat → Nat

/-- The module's own addresses on a control port (log entry 21): MAC, IPv4 and IPv6. -/
opaque ownMac : DieId → Nat → BitVec 48
opaque ownIp4 : DieId → Nat → BitVec 32
opaque ownIp6 : DieId → Nat → BitVec 128
/-- IP header fields of the frames the module builds, which the manual does not state (log entry 21): 0 type of service,
1 identification, 2 flags, 3 time to live, 4 whether an IPv4 UDP checksum is sent. -/
opaque ipField : Nat → Nat

end Sys2Proof.Config
end

