-- ==== Sys2Proof/Machine/RegNames.lean ====
section
/-!
DEFINITION. The manual's register and field names: for each register the key of its (low) word in a die, as a function
of its indices, and for each field its bits.
-/

namespace Sys2Proof.Machine

namespace Reg

/-- `RED_MODE`. -/
def RED_MODE : Nat := 0x09000
/-- `RED_MODE_REQ`. -/
def RED_MODE_REQ : Nat := 0x09004
/-- `TIM_NOW`. -/
def TIM_NOW : Nat := 0x30000
/-- `TIM_NOW_FRAC`. -/
def TIM_NOW_FRAC : Nat := 0x30008
/-- `TIM_STATUS`. -/
def TIM_STATUS : Nat := 0x3000C
/-- `TIM_INCR`. -/
def TIM_INCR : Nat := 0x30010
/-- `TIM_ADJ`. -/
def TIM_ADJ : Nat := 0x30018
/-- `TIM_CTRL`. -/
def TIM_CTRL : Nat := 0x30020
/-- `TIM_SLAVE_OFS`. -/
def TIM_SLAVE_OFS : Nat := 0x30024
/-- `TIM_PPS_IN_TS`. -/
def TIM_PPS_IN_TS : Nat := 0x30028
/-- `TIM_PPS_IN_INFO`. -/
def TIM_PPS_IN_INFO : Nat := 0x30030
/-- `TIM_PPS_OUT_CFG`. -/
def TIM_PPS_OUT_CFG : Nat := 0x30034
/-- `TIM_SYNCk_RATE`. -/
def TIM_SYNC_RATE (k : Nat) : Nat := 0x30040 + 0x10 * k
/-- `TIM_SYNCk_OFS`. -/
def TIM_SYNC_OFS (k : Nat) : Nat := 0x30044 + 0x10 * k
/-- `TIM_SYNCk_CTRL`. -/
def TIM_SYNC_CTRL (k : Nat) : Nat := 0x30048 + 0x10 * k
/-- `TIM_TXMODE_p`. -/
def TIM_TXMODE (p : Nat) : Nat := 0x30080 + 0x4 * p
/-- `TIM_LAT_RX_p`. -/
def TIM_LAT_RX (p : Nat) : Nat := 0x300A0 + 0x4 * p
/-- `TIM_LAT_TX_p`. -/
def TIM_LAT_TX (p : Nat) : Nat := 0x300C0 + 0x4 * p
/-- `TIM_TXTS_INFO`. -/
def TIM_TXTS_INFO : Nat := 0x300E0
/-- `TIM_TXTS_TIME`. -/
def TIM_TXTS_TIME : Nat := 0x300E8
/-- `TIM_TXTS_FRAC`. -/
def TIM_TXTS_FRAC : Nat := 0x300F0
/-- `TIM_TX_FALLBACK`. -/
def TIM_TX_FALLBACK : Nat := 0x300F4
/-- `TIM_BLINK_DLY_b`. -/
def TIM_BLINK_DLY (b : Nat) : Nat := 0x30100 + 0x4 * b
/-- `DLR_STATUS`. -/
def DLR_STATUS : Nat := 0x10000
/-- `DLR_DEAL_CNT`. -/
def DLR_DEAL_CNT : Nat := 0x10004
/-- `DLR_LAST_DEAL`. -/
def DLR_LAST_DEAL : Nat := 0x10008
/-- `DLR_LAST_FRAC`. -/
def DLR_LAST_FRAC : Nat := 0x10010
/-- `DLR_NEXT_DEAL`. -/
def DLR_NEXT_DEAL : Nat := 0x10018
/-- `DLR_NEXT_FRAC`. -/
def DLR_NEXT_FRAC : Nat := 0x10020
/-- `DLR_PREEMPH`. -/
def DLR_PREEMPH : Nat := 0x10024
/-- `DLR_LATE_CNT`. -/
def DLR_LATE_CNT : Nat := 0x10030
/-- `DLR_WITHDRAW_CNT`. -/
def DLR_WITHDRAW_CNT : Nat := 0x10034
/-- `DLR_COALESCE_CNT`. -/
def DLR_COALESCE_CNT : Nat := 0x10038
/-- `DLR_VFAIL_CNT`. -/
def DLR_VFAIL_CNT : Nat := 0x1003C
/-- `DLR_EVICT_CNT`. -/
def DLR_EVICT_CNT : Nat := 0x10040
/-- `DLR_PIN_HELD`. -/
def DLR_PIN_HELD : Nat := 0x10044
/-- `DLR_TRUMP_MAX`. -/
def DLR_TRUMP_MAX : Nat := 0x10048
/-- `DLR_PINMASK_w`. -/
def DLR_PINMASK (w : Nat) : Nat := 0x10080 + 0x4 * w
/-- `DLR_HANDW_m`. -/
def DLR_HANDW (m : Nat) : Nat := 0x10400 + 0x4 * m
/-- `DCK_STATUS`. -/
def DCK_STATUS : Nat := 0x11000
/-- `DCK_TRICK_NOW`. -/
def DCK_TRICK_NOW : Nat := 0x11004
/-- `DCK_EPOCH_NOW`. -/
def DCK_EPOCH_NOW : Nat := 0x11008
/-- `DCK_ORIGIN`. -/
def DCK_ORIGIN : Nat := 0x11010
/-- `DCK_NEXT_BND`. -/
def DCK_NEXT_BND : Nat := 0x11018
/-- `DCK_NEXT_BND_FRAC`. -/
def DCK_NEXT_BND_FRAC : Nat := 0x11020
/-- `DCK_PART_CTRL`. -/
def DCK_PART_CTRL : Nat := 0x11024
/-- `DCK_BENCH`. -/
def DCK_BENCH : Nat := 0x11028
/-- `DCK_PLAN_FENCE`. -/
def DCK_PLAN_FENCE : Nat := 0x1102C
/-- `DCK_PLAN_TIME`. -/
def DCK_PLAN_TIME : Nat := 0x11030
/-- `DCK_PLAN_OVR_CNT`. -/
def DCK_PLAN_OVR_CNT : Nat := 0x11034
/-- `DCK_SKIP_CNT`. -/
def DCK_SKIP_CNT : Nat := 0x11038
/-- `DCK_WITHDRAW_CNT`. -/
def DCK_WITHDRAW_CNT : Nat := 0x1103C
/-- `DCK_BID_CNT`. -/
def DCK_BID_CNT : Nat := 0x11040
/-- `DCK_BID_DROP_CNT`. -/
def DCK_BID_DROP_CNT : Nat := 0x11044
/-- `DCK_LL_SEL`. -/
def DCK_LL_SEL : Nat := 0x11048
/-- `DCK_LL_CNT`. -/
def DCK_LL_CNT : Nat := 0x1104C
/-- `DCK_LL_TOTAL`. -/
def DCK_LL_TOTAL : Nat := 0x11050
/-- `DCK_TLEN_SEL`. -/
def DCK_TLEN_SEL : Nat := 0x11054
/-- `DCK_TLEN_DATA`. -/
def DCK_TLEN_DATA : Nat := 0x11058
/-- `DCK_CLASSW0`. -/
def DCK_CLASSW0 : Nat := 0x1105C
/-- `DCK_CLASSW1`. -/
def DCK_CLASSW1 : Nat := 0x11060
/-- `DCK_PLAN_CFG`. -/
def DCK_PLAN_CFG : Nat := 0x11064
/-- `DCK_PMASK_s_w`. -/
def DCK_PMASK (s w : Nat) : Nat := 0x11100 + 0x40 * s + 0x4 * w
/-- `DCK_PART_w`. -/
def DCK_PART (w : Nat) : Nat := 0x11200 + 0x4 * w
/-- `DCK_DESC_n_w`. -/
def DCK_DESC (n w : Nat) : Nat := 0x11800 + 0x20 * n + 0x4 * w
/-- `HLD_STATUS`. -/
def HLD_STATUS : Nat := 0x12000
/-- `HLD_PERIOD`. -/
def HLD_PERIOD : Nat := 0x12004
/-- `HLD_DITHER`. -/
def HLD_DITHER : Nat := 0x12008
/-- `HLD_SETTLE`. -/
def HLD_SETTLE : Nat := 0x1200C
/-- `HLD_GAIN_HTR`. -/
def HLD_GAIN_HTR : Nat := 0x12010
/-- `HLD_GAIN_PIN`. -/
def HLD_GAIN_PIN : Nat := 0x12014
/-- `HLD_GAIN_GATE`. -/
def HLD_GAIN_GATE : Nat := 0x12018
/-- `HLD_HANDOFF`. -/
def HLD_HANDOFF : Nat := 0x1201C
/-- `HLD_REFRESH`. -/
def HLD_REFRESH : Nat := 0x12020
/-- `HLD_BAND`. -/
def HLD_BAND : Nat := 0x12024
/-- `HLD_PLAUS`. -/
def HLD_PLAUS : Nat := 0x12028
/-- `HLD_FEEDBACK`. -/
def HLD_FEEDBACK : Nat := 0x1202C
/-- `HLD_REST`. -/
def HLD_REST : Nat := 0x12030
/-- `HLD_TRANS`. -/
def HLD_TRANS : Nat := 0x12034
/-- `HLD_MISS_CNT`. -/
def HLD_MISS_CNT : Nat := 0x12038
/-- `HLD_BANK_b`. -/
def HLD_BANK (b : Nat) : Nat := 0x12040 + 0x4 * b
/-- `HLD_EL_SEL`. -/
def HLD_EL_SEL : Nat := 0x12080
/-- `HLD_EL_STATE`. -/
def HLD_EL_STATE : Nat := 0x12084
/-- `HLD_EL_CTRL`. -/
def HLD_EL_CTRL : Nat := 0x12088
/-- `HLD_EL_MAN`. -/
def HLD_EL_MAN : Nat := 0x12090
/-- `HLD_EL_MEAS`. -/
def HLD_EL_MEAS : Nat := 0x12098
/-- `HLD_EL_ERR`. -/
def HLD_EL_ERR : Nat := 0x120A0
/-- `HLD_EL_PROP`. -/
def HLD_EL_PROP : Nat := 0x120A8
/-- `HLD_EL_INT`. -/
def HLD_EL_INT : Nat := 0x120B0
/-- `HLD_EL_FF`. -/
def HLD_EL_FF : Nat := 0x120B8
/-- `HLD_EL_OUT`. -/
def HLD_EL_OUT : Nat := 0x120C0
/-- `HLD_EL_MISS`. -/
def HLD_EL_MISS : Nat := 0x120C8
/-- `HLD_FALLBACK_w`. -/
def HLD_FALLBACK (w : Nat) : Nat := 0x13000 + 0x4 * w
/-- `HLD_IMPL_w`. -/
def HLD_IMPL (w : Nat) : Nat := 0x13400 + 0x4 * w
/-- `HLD_MISSMAP_w`. -/
def HLD_MISSMAP (w : Nat) : Nat := 0x13800 + 0x4 * w
/-- `HLD_NONAUTO_w`. -/
def HLD_NONAUTO (w : Nat) : Nat := 0x13C00 + 0x4 * w
/-- `UCS_ID`. -/
def UCS_ID : Nat := 0x07000
/-- `UCS_STATUS`. -/
def UCS_STATUS : Nat := 0x07004
/-- `UCS_FENCE`. -/
def UCS_FENCE : Nat := 0x07008
/-- `UCS_FENCE_REQ`. -/
def UCS_FENCE_REQ : Nat := 0x07010
/-- `UCS_ENG_SEL`. -/
def UCS_ENG_SEL : Nat := 0x07018
/-- `UCS_ENG_STAT`. -/
def UCS_ENG_STAT : Nat := 0x0701C
/-- `UCS_ENG_PC`. -/
def UCS_ENG_PC : Nat := 0x07020
/-- `UCS_CLUSTER_c`. -/
def UCS_CLUSTER (c : Nat) : Nat := 0x07040 + 0x4 * c
/-- `UCS_STEAL_CNT`. -/
def UCS_STEAL_CNT : Nat := 0x07060
/-- `UCS_SPILL_CNT`. -/
def UCS_SPILL_CNT : Nat := 0x07064
/-- `UCS_MFAULT_CNT`. -/
def UCS_MFAULT_CNT : Nat := 0x07068
/-- `UCS_PATCH_CTRL`. -/
def UCS_PATCH_CTRL : Nat := 0x07080
/-- `UCS_PATCH_PTR`. -/
def UCS_PATCH_PTR : Nat := 0x07084
/-- `UCS_PATCH_DATA`. -/
def UCS_PATCH_DATA : Nat := 0x07088
/-- `UCS_PATCH_STATUS`. -/
def UCS_PATCH_STATUS : Nat := 0x0708C
/-- `UCS_MATCH_m`. -/
def UCS_MATCH (m : Nat) : Nat := 0x07100 + 0x4 * m
/-- `BNK_ID`. -/
def BNK_ID (b : Nat) : Nat := 0x14000 + 0x800 * b
/-- `BNK_STATUS`. -/
def BNK_STATUS (b : Nat) : Nat := 0x14004 + 0x800 * b
/-- `BNK_TOKEN`. -/
def BNK_TOKEN (b : Nat) : Nat := 0x14008 + 0x800 * b
/-- `BNK_HTR_GAIN`. -/
def BNK_HTR_GAIN (b : Nat) : Nat := 0x1400C + 0x800 * b
/-- `BNK_LINK_p`. -/
def BNK_LINK (p b : Nat) : Nat := 0x14010 + 0x4 * p + 0x800 * b
/-- `BNK_SHADOW_CMP`. -/
def BNK_SHADOW_CMP (b : Nat) : Nat := 0x14018 + 0x800 * b
/-- `BNK_TEMP`. -/
def BNK_TEMP (b : Nat) : Nat := 0x1401C + 0x800 * b
/-- `BNK_CAL_STATUS`. -/
def BNK_CAL_STATUS (b : Nat) : Nat := 0x14020 + 0x800 * b
/-- `BNK_CAL_TIME`. -/
def BNK_CAL_TIME (b : Nat) : Nat := 0x14028 + 0x800 * b
/-- `BNK_CMP_CFG`. -/
def BNK_CMP_CFG (b : Nat) : Nat := 0x14030 + 0x800 * b
/-- `BNK_URG_OVF`. -/
def BNK_URG_OVF (b : Nat) : Nat := 0x14034 + 0x800 * b
/-- `BNK_DEAL_DISCARD`. -/
def BNK_DEAL_DISCARD (b : Nat) : Nat := 0x14038 + 0x800 * b
/-- `BNK_CH_SEL`. -/
def BNK_CH_SEL (b : Nat) : Nat := 0x14040 + 0x800 * b
/-- `BNK_CH_SUM`. -/
def BNK_CH_SUM (b : Nat) : Nat := 0x14044 + 0x800 * b
/-- `BNK_CH_INFO`. -/
def BNK_CH_INFO (b : Nat) : Nat := 0x14048 + 0x800 * b
/-- `BNK_CH_MINMAX`. -/
def BNK_CH_MINMAX (b : Nat) : Nat := 0x1404C + 0x800 * b
/-- `BNK_CH_BAND_LO`. -/
def BNK_CH_BAND_LO (b : Nat) : Nat := 0x14050 + 0x800 * b
/-- `BNK_CH_BAND_HI`. -/
def BNK_CH_BAND_HI (b : Nat) : Nat := 0x14054 + 0x800 * b
/-- `BNK_CH_CODE`. -/
def BNK_CH_CODE (b : Nat) : Nat := 0x14058 + 0x800 * b
/-- `BNK_MAN`. -/
def BNK_MAN (b : Nat) : Nat := 0x14060 + 0x800 * b
/-- `BNK_PROBE_CFG_k`. -/
def BNK_PROBE_CFG (k b : Nat) : Nat := 0x14080 + 0x4 * k + 0x800 * b
/-- `BNK_PROBE_SNAP`. -/
def BNK_PROBE_SNAP (b : Nat) : Nat := 0x140C0 + 0x800 * b
/-- `BNK_PROBE_SUM`. -/
def BNK_PROBE_SUM (b : Nat) : Nat := 0x140C4 + 0x800 * b
/-- `BNK_PROBE_INFO`. -/
def BNK_PROBE_INFO (b : Nat) : Nat := 0x140C8 + 0x800 * b
/-- `BNK_PROBE_MINMAX`. -/
def BNK_PROBE_MINMAX (b : Nat) : Nat := 0x140CC + 0x800 * b
/-- `BNK_PROBE_TIME`. -/
def BNK_PROBE_TIME (b : Nat) : Nat := 0x140D0 + 0x800 * b
/-- `BNK_PROBE_MISS`. -/
def BNK_PROBE_MISS (b : Nat) : Nat := 0x140D8 + 0x800 * b
/-- `BNK_SHORT_w`. -/
def BNK_SHORT (w b : Nat) : Nat := 0x14100 + 0x4 * w + 0x800 * b
/-- `BNK_DRVF_w`. -/
def BNK_DRVF (w b : Nat) : Nat := 0x14180 + 0x4 * w + 0x800 * b
/-- `CAL_STATUS`. -/
def CAL_STATUS : Nat := 0x18000
/-- `CAL_CTRL`. -/
def CAL_CTRL : Nat := 0x18004
/-- `CAL_TEMP`. -/
def CAL_TEMP : Nat := 0x18008
/-- `CAL_VALID`. -/
def CAL_VALID : Nat := 0x1800C
/-- `CAL_QTHR`. -/
def CAL_QTHR : Nat := 0x18010
/-- `CAL_TRIM`. -/
def CAL_TRIM : Nat := 0x18014
/-- `CAL_SURVEY`. -/
def CAL_SURVEY : Nat := 0x18018
/-- `CAL_TALON_k`. -/
def CAL_TALON (k : Nat) : Nat := 0x18020 + 0x4 * k
/-- `CAL_OUTER`. -/
def CAL_OUTER : Nat := 0x18040
/-- `CAL_Q_SEL`. -/
def CAL_Q_SEL : Nat := 0x18080
/-- `CAL_Q_EXT`. -/
def CAL_Q_EXT : Nat := 0x18084
/-- `CAL_Q_INFO`. -/
def CAL_Q_INFO : Nat := 0x18088
/-- `CAL_Q_TRIM`. -/
def CAL_Q_TRIM : Nat := 0x1808C
/-- `CAL_XT_SEL`. -/
def CAL_XT_SEL : Nat := 0x18090
/-- `CAL_XT`. -/
def CAL_XT : Nat := 0x18094
/-- `CAL_TRIM_CNT`. -/
def CAL_TRIM_CNT : Nat := 0x18098
/-- `CAL_SURVEY_CNT`. -/
def CAL_SURVEY_CNT : Nat := 0x1809C
/-- `CAL_FIELD_DISC`. -/
def CAL_FIELD_DISC : Nat := 0x180A0
/-- `CAL_RD_SEL`. -/
def CAL_RD_SEL : Nat := 0x180B0
/-- `CAL_RD_DATA`. -/
def CAL_RD_DATA : Nat := 0x180B4
/-- `CAL_BENCH_w`. -/
def CAL_BENCH (w : Nat) : Nat := 0x18100 + 0x4 * w
/-- `CAL_PARK_w`. -/
def CAL_PARK (w : Nat) : Nat := 0x18400 + 0x4 * w
/-- `CAL_QFAIL_w`. -/
def CAL_QFAIL (w : Nat) : Nat := 0x18700 + 0x4 * w
/-- `PRS_ETYPE`. -/
def PRS_ETYPE : Nat := 0x20000
/-- `PRS_UDPPORT`. -/
def PRS_UDPPORT : Nat := 0x20004
/-- `PRS_PIPE_p`. -/
def PRS_PIPE (p : Nat) : Nat := 0x20010 + 0x4 * p
/-- `PRS_RULE_SEL`. -/
def PRS_RULE_SEL : Nat := 0x20100
/-- `PRS_RULE_CMD`. -/
def PRS_RULE_CMD : Nat := 0x20104
/-- `PRS_RULE_ACT`. -/
def PRS_RULE_ACT : Nat := 0x20108
/-- `PRS_RULE_HITS`. -/
def PRS_RULE_HITS : Nat := 0x20110
/-- `PRS_RULE_KEY_k`. -/
def PRS_RULE_KEY (k : Nat) : Nat := 0x20140 + 0x4 * k
/-- `PRS_RULE_MASK_k`. -/
def PRS_RULE_MASK (k : Nat) : Nat := 0x20180 + 0x4 * k
/-- `PRS_CNT_p_c`. -/
def PRS_CNT (p c : Nat) : Nat := 0x20200 + 0x40 * p + 0x4 * c
/-- `PRS_VSP_DROP_c`. -/
def PRS_VSP_DROP (c : Nat) : Nat := 0x20300 + 0x4 * c
/-- `EPT_CMD`. -/
def EPT_CMD : Nat := 0x22000
/-- `EPT_KEY`. -/
def EPT_KEY : Nat := 0x22008
/-- `EPT_SMASK`. -/
def EPT_SMASK : Nat := 0x22010
/-- `EPT_DATA0`. -/
def EPT_DATA0 : Nat := 0x22018
/-- `EPT_DATA1`. -/
def EPT_DATA1 : Nat := 0x2201C
/-- `EPT_DATA2`. -/
def EPT_DATA2 : Nat := 0x22020
/-- `EPT_DATA3`. -/
def EPT_DATA3 : Nat := 0x22024
/-- `EPT_AGE_LIMIT`. -/
def EPT_AGE_LIMIT : Nat := 0x22030
/-- `EPT_FLAP`. -/
def EPT_FLAP : Nat := 0x22034
/-- `EPT_OCC_p`. -/
def EPT_OCC (p : Nat) : Nat := 0x22040 + 0x4 * p
/-- `EPT_CNT_p_c`. -/
def EPT_CNT (p c : Nat) : Nat := 0x22080 + 0x20 * p + 0x4 * c
/-- `TMG_CLASSQ0`. -/
def TMG_CLASSQ0 : Nat := 0x23000
/-- `TMG_CLASSQ1`. -/
def TMG_CLASSQ1 : Nat := 0x23004
/-- `TMG_OVH_p`. -/
def TMG_OVH (p : Nat) : Nat := 0x23010 + 0x4 * p
/-- `TMG_TPOL_p`. -/
def TMG_TPOL (p : Nat) : Nat := 0x23040 + 0x4 * p
/-- `TMG_APOL_RATE_k`. -/
def TMG_APOL_RATE (k : Nat) : Nat := 0x23080 + 0x8 * k
/-- `TMG_APOL_BURST_k`. -/
def TMG_APOL_BURST (k : Nat) : Nat := 0x23084 + 0x8 * k
/-- `TMG_SAMPLE`. -/
def TMG_SAMPLE : Nat := 0x23100
/-- `TMG_QCFG_p_q`. -/
def TMG_QCFG (p q : Nat) : Nat := 0x23200 + 0x80 * p + 0x4 * q
/-- `TMG_QSLOPE_p_q`. -/
def TMG_QSLOPE (p q : Nat) : Nat := 0x23600 + 0x80 * p + 0x4 * q
/-- `TMG_QLIM_p_q`. -/
def TMG_QLIM (p q : Nat) : Nat := 0x23A00 + 0x80 * p + 0x4 * q
/-- `TMG_GL_STATUS_p`. -/
def TMG_GL_STATUS (p : Nat) : Nat := 0x23E00 + 0x10 * p
/-- `TMG_GL_CYCLE_p`. -/
def TMG_GL_CYCLE (p : Nat) : Nat := 0x23E04 + 0x10 * p
/-- `TMG_GL_BASE_p`. -/
def TMG_GL_BASE (p : Nat) : Nat := 0x23E08 + 0x10 * p
/-- `TMG_GL_SEL`. -/
def TMG_GL_SEL : Nat := 0x23F00
/-- `TMG_GL_GATES`. -/
def TMG_GL_GATES : Nat := 0x23F04
/-- `TMG_GL_INTV`. -/
def TMG_GL_INTV : Nat := 0x23F08
/-- `TMG_SMP_SEL`. -/
def TMG_SMP_SEL : Nat := 0x23F10
/-- `TMG_SMP_DEPTH_MIN`. -/
def TMG_SMP_DEPTH_MIN : Nat := 0x23F14
/-- `TMG_SMP_DEPTH_MAX`. -/
def TMG_SMP_DEPTH_MAX : Nat := 0x23F18
/-- `TMG_SMP_DEPTH_MEAN`. -/
def TMG_SMP_DEPTH_MEAN : Nat := 0x23F1C
/-- `TMG_SMP_HOL_MIN`. -/
def TMG_SMP_HOL_MIN : Nat := 0x23F20
/-- `TMG_SMP_HOL_MAX`. -/
def TMG_SMP_HOL_MAX : Nat := 0x23F24
/-- `TMG_SMP_HOL_MEAN`. -/
def TMG_SMP_HOL_MEAN : Nat := 0x23F28
/-- `TMG_QDROP_p_q`. -/
def TMG_QDROP (p q : Nat) : Nat := 0x24000 + 0x80 * p + 0x4 * q
/-- `TMG_QSENT_p_q`. -/
def TMG_QSENT (p q : Nat) : Nat := 0x24400 + 0x80 * p + 0x4 * q
/-- `TMG_PCNT_p_c`. -/
def TMG_PCNT (p c : Nat) : Nat := 0x24800 + 0x20 * p + 0x4 * c
/-- `TMG_APOL_CNT_c`. -/
def TMG_APOL_CNT (c : Nat) : Nat := 0x24900 + 0x4 * c
/-- `ETH_CFG`. -/
def ETH_CFG : Nat := 0x25000
/-- `ETH_MAXLEN`. -/
def ETH_MAXLEN : Nat := 0x25004
/-- `ETH_PORT_p`. -/
def ETH_PORT (p : Nat) : Nat := 0x25010 + 0x4 * p
/-- `ETH_MM_p`. -/
def ETH_MM (p : Nat) : Nat := 0x25030 + 0x4 * p
/-- `ETH_MP`. -/
def ETH_MP : Nat := 0x25050
/-- `ETH_CNT_p_c`. -/
def ETH_CNT (p c : Nat) : Nat := 0x25100 + 0x40 * p + 0x4 * c
/-- `HIF_ID`. -/
def HIF_ID : Nat := 0x00000
/-- `HIF_PCIE`. -/
def HIF_PCIE : Nat := 0x00004
/-- `HIF_PCIE_ERR`. -/
def HIF_PCIE_ERR : Nat := 0x00008
/-- `HIF_LEVEL`. -/
def HIF_LEVEL (fn : Nat) : Nat := 0x0F000 + 0x10000 * fn
/-- `HIF_FID`. -/
def HIF_FID (fn : Nat) : Nat := 0x0F004 + 0x10000 * fn
/-- `HIF_CTRL`. -/
def HIF_CTRL (fn : Nat) : Nat := 0x0F008 + 0x10000 * fn
/-- `HIF_RESET`. -/
def HIF_RESET (fn : Nat) : Nat := 0x0F00C + 0x10000 * fn
/-- `HIF_RESET_CNT`. -/
def HIF_RESET_CNT (fn : Nat) : Nat := 0x0F010 + 0x10000 * fn
/-- `HIF_DB_BASE`. -/
def HIF_DB_BASE (fn : Nat) : Nat := 0x0F018 + 0x10000 * fn
/-- `HIF_KICK`. -/
def HIF_KICK (fn : Nat) : Nat := 0x0F020 + 0x10000 * fn
/-- `HIF_POLL`. -/
def HIF_POLL (fn : Nat) : Nat := 0x0F024 + 0x10000 * fn
/-- `HIF_ERR`. -/
def HIF_ERR (fn : Nat) : Nat := 0x0F028 + 0x10000 * fn
/-- `HIF_EVMASK`. -/
def HIF_EVMASK (fn : Nat) : Nat := 0x0F02C + 0x10000 * fn
/-- `HIF_EV_LOST`. -/
def HIF_EV_LOST (fn : Nat) : Nat := 0x0F030 + 0x10000 * fn
/-- `HIF_TM_LOST`. -/
def HIF_TM_LOST (fn : Nat) : Nat := 0x0F034 + 0x10000 * fn
/-- `HIF_RX_DROP`. -/
def HIF_RX_DROP (fn : Nat) : Nat := 0x0F038 + 0x10000 * fn
/-- `HIF_RING_BASE_r`. -/
def HIF_RING_BASE (fn r : Nat) : Nat := 0x0F100 + 0x20 * r + 0x10000 * fn
/-- `HIF_RING_CFG_r`. -/
def HIF_RING_CFG (fn r : Nat) : Nat := 0x0F108 + 0x20 * r + 0x10000 * fn
/-- `HIF_RING_MOD_r`. -/
def HIF_RING_MOD (fn r : Nat) : Nat := 0x0F10C + 0x20 * r + 0x10000 * fn
/-- `HIF_RING_IRQ_r`. -/
def HIF_RING_IRQ (fn r : Nat) : Nat := 0x0F110 + 0x20 * r + 0x10000 * fn
/-- `RED_STATUS`. -/
def RED_STATUS : Nat := 0x09008
/-- `RED_HB_CNT`. -/
def RED_HB_CNT : Nat := 0x0900C
/-- `RED_MIRROR_ERR`. -/
def RED_MIRROR_ERR : Nat := 0x09010
/-- `RED_ACK`. -/
def RED_ACK : Nat := 0x09014
/-- `RED_TO_CNT`. -/
def RED_TO_CNT : Nat := 0x09018
/-- `RED_TO_TIME`. -/
def RED_TO_TIME : Nat := 0x09020
/-- `RED_TO_GAP`. -/
def RED_TO_GAP : Nat := 0x09028
/-- `RED_CMP_CFG`. -/
def RED_CMP_CFG : Nat := 0x0902C
/-- `RED_CTRL`. -/
def RED_CTRL : Nat := 0x09030
/-- `RED_CMP_CNT`. -/
def RED_CMP_CNT : Nat := 0x09034
/-- `RED_ESC_k`. -/
def RED_ESC (k : Nat) : Nat := 0x09040 + 0x4 * k
/-- `RED_ESC_CNT`. -/
def RED_ESC_CNT : Nat := 0x09054
/-- `RED_ADOPT_VALID`. -/
def RED_ADOPT_VALID : Nat := 0x09060
/-- `RED_ADOPT_DROP`. -/
def RED_ADOPT_DROP : Nat := 0x09064
/-- `RED_ADOPT_f_r`. -/
def RED_ADOPT (f r : Nat) : Nat := 0x09080 + 0x20 * f + 0x4 * r
/-- `LGD_STATUS`. -/
def LGD_STATUS : Nat := 0x08000
/-- `LGD_GCFG`. -/
def LGD_GCFG : Nat := 0x08004
/-- `LGD_ZONE_z`. -/
def LGD_ZONE (z : Nat) : Nat := 0x08010 + 0x4 * z
/-- `LGD_ZCFG_z`. -/
def LGD_ZCFG (z : Nat) : Nat := 0x08020 + 0x4 * z
/-- `LGD_PCFG_k`. -/
def LGD_PCFG (k : Nat) : Nat := 0x08040 + 0x4 * k
/-- `LGD_PSTAT`. -/
def LGD_PSTAT : Nat := 0x08060
/-- `LGD_SD_CFG`. -/
def LGD_SD_CFG : Nat := 0x08070
/-- `LGD_SD_STAT`. -/
def LGD_SD_STAT : Nat := 0x08074
/-- `LGD_CONN_SEL`. -/
def LGD_CONN_SEL : Nat := 0x08080
/-- `LGD_CONN_CFG`. -/
def LGD_CONN_CFG : Nat := 0x08084
/-- `LGD_CONN_ID`. -/
def LGD_CONN_ID : Nat := 0x08088
/-- `LGD_CONN_ADDR`. -/
def LGD_CONN_ADDR : Nat := 0x08090
/-- `LGD_CONN_STAT`. -/
def LGD_CONN_STAT : Nat := 0x08098
/-- `LGD_CTRL`. -/
def LGD_CTRL : Nat := 0x080A0
/-- `LGD_FORCE`. -/
def LGD_FORCE : Nat := 0x080A4
/-- `LGD_RAW`. -/
def LGD_RAW : Nat := 0x080A8
/-- `LGD_REACT`. -/
def LGD_REACT : Nat := 0x080B0
/-- `LGD_ZMAP_z_w`. -/
def LGD_ZMAP (z w : Nat) : Nat := 0x08100 + 0x80 * z + 0x4 * w
/-- `FLT_STICKY_w`. -/
def FLT_STICKY (w : Nat) : Nat := 0x04000 + 0x4 * w
/-- `FLT_RAW_w`. -/
def FLT_RAW (w : Nat) : Nat := 0x04020 + 0x4 * w
/-- `FLT_MASK_w`. -/
def FLT_MASK (w : Nat) : Nat := 0x04040 + 0x4 * w
/-- `FLT_FORCE_w`. -/
def FLT_FORCE (w : Nat) : Nat := 0x04060 + 0x4 * w
/-- `FLT_PROMO_w`. -/
def FLT_PROMO (w : Nat) : Nat := 0x04080 + 0x4 * w
/-- `FLT_PINSRC_w`. -/
def FLT_PINSRC (w : Nat) : Nat := 0x040A0 + 0x4 * w
/-- `FLT_STATUS`. -/
def FLT_STATUS : Nat := 0x04100
/-- `FLT_WIN_k`. -/
def FLT_WIN (k : Nat) : Nat := 0x04120 + 0x4 * k
/-- `FLT_REPL`. -/
def FLT_REPL : Nat := 0x04140
/-- `FLT_SRC_s`. -/
def FLT_SRC (s : Nat) : Nat := 0x04400 + 0x4 * s
/-- `THM_STATUS`. -/
def THM_STATUS : Nat := 0x03000
/-- `THM_TEMP_s`. -/
def THM_TEMP (s : Nat) : Nat := 0x03010 + 0x4 * s
/-- `THM_FOFS`. -/
def THM_FOFS : Nat := 0x03040
/-- `THM_THR_k`. -/
def THM_THR (k : Nat) : Nat := 0x03050 + 0x4 * k
/-- `THM_CTRL`. -/
def THM_CTRL : Nat := 0x03060
/-- `THM_TCFG`. -/
def THM_TCFG : Nat := 0x03064
/-- `THM_POWER`. -/
def THM_POWER : Nat := 0x03068
/-- `THM_CLASS`. -/
def THM_CLASS : Nat := 0x03070
/-- `THM_SHUT_CNT`. -/
def THM_SHUT_CNT : Nat := 0x03074
/-- `THM_RS_SEL`. -/
def THM_RS_SEL : Nat := 0x03080
/-- `THM_RS_DATA`. -/
def THM_RS_DATA : Nat := 0x03084
/-- `THM_RS_STAT`. -/
def THM_RS_STAT : Nat := 0x03088
/-- `RST_CAUSE`. -/
def RST_CAUSE : Nat := 0x01000
/-- `RST_SWRST`. -/
def RST_SWRST : Nat := 0x01004
/-- `RST_WATCH`. -/
def RST_WATCH : Nat := 0x01008
/-- `RST_HELD`. -/
def RST_HELD : Nat := 0x0100C
/-- `RST_COUNT`. -/
def RST_COUNT : Nat := 0x01010
/-- `RST_BOOT`. -/
def RST_BOOT : Nat := 0x01014
/-- `RST_FW_VER`. -/
def RST_FW_VER : Nat := 0x01018
/-- `RST_SNAP_w`. -/
def RST_SNAP (w : Nat) : Nat := 0x01040 + 0x4 * w
/-- `RST_SNAP_INFO`. -/
def RST_SNAP_INFO : Nat := 0x01060
/-- `MTX_REMAP`. -/
def MTX_REMAP : Nat := 0x02000
/-- `MTX_STATUS`. -/
def MTX_STATUS : Nat := 0x02004
/-- `MTX_OUTST_m`. -/
def MTX_OUTST (m : Nat) : Nat := 0x02010 + 0x4 * m
/-- `MTX_ERR`. -/
def MTX_ERR : Nat := 0x02040
/-- `MTX_ERR_ADDR`. -/
def MTX_ERR_ADDR : Nat := 0x02048
/-- `MTX_CNT_c`. -/
def MTX_CNT (c : Nat) : Nat := 0x02050 + 0x4 * c
/-- `MTX_MRST`. -/
def MTX_MRST : Nat := 0x02080
/-- `SVC_STATUS`. -/
def SVC_STATUS : Nat := 0x06000
/-- `SVC_CTRL`. -/
def SVC_CTRL : Nat := 0x06004
/-- `SVC_NONCE_k`. -/
def SVC_NONCE (k : Nat) : Nat := 0x06010 + 0x4 * k
/-- `SVC_RESP_k`. -/
def SVC_RESP (k : Nat) : Nat := 0x06020 + 0x4 * k
/-- `SVC_PW_k`. -/
def SVC_PW (k : Nat) : Nat := 0x06040 + 0x4 * k
/-- `SVC_TIMEOUT`. -/
def SVC_TIMEOUT : Nat := 0x06050
/-- `SVC_LOCKOUT`. -/
def SVC_LOCKOUT : Nat := 0x06054
/-- `SVC_COUNT`. -/
def SVC_COUNT : Nat := 0x06058

end Reg

namespace F

def RED_MODE_SEQ : Fld := ⟨31, 24⟩
def RED_MODE_PREV_BASE : Fld := ⟨23, 20⟩
def RED_MODE_RESYNC : Fld := ⟨13, 13⟩
def RED_MODE_TAKEOVER : Fld := ⟨12, 12⟩
def RED_MODE_ROLE : Fld := ⟨11, 10⟩
def RED_MODE_PEER_OK : Fld := ⟨9, 9⟩
def RED_MODE_DEGRADED : Fld := ⟨5, 5⟩
def RED_MODE_SAFE : Fld := ⟨4, 4⟩
def RED_MODE_BASE : Fld := ⟨3, 0⟩
def RED_MODE_REQ_REFUSED : Fld := ⟨20, 20⟩
def RED_MODE_REQ_STATUS : Fld := ⟨19, 16⟩
def RED_MODE_REQ_REQ : Fld := ⟨3, 0⟩
def TIM_NOW_NS : Fld := ⟨63, 0⟩
def TIM_NOW_FRAC_FRAC : Fld := ⟨15, 0⟩
def TIM_STATUS_ADJ_REFUSED : Fld := ⟨6, 6⟩
def TIM_STATUS_INCR_CLAMP : Fld := ⟨5, 5⟩
def TIM_STATUS_STEPPED : Fld := ⟨4, 4⟩
def TIM_STATUS_PPS_IN_SEEN : Fld := ⟨3, 3⟩
def TIM_STATUS_SLAVE_ERR : Fld := ⟨2, 2⟩
def TIM_STATUS_SLAVED : Fld := ⟨1, 1⟩
def TIM_STATUS_RUNNING : Fld := ⟨0, 0⟩
def TIM_INCR_INT : Fld := ⟨47, 40⟩
def TIM_INCR_FRAC : Fld := ⟨39, 0⟩
def TIM_ADJ_OFFSET : Fld := ⟨63, 0⟩
def TIM_CTRL_PPS_OUT_EN : Fld := ⟨2, 2⟩
def TIM_CTRL_PPS_IN_EN : Fld := ⟨1, 1⟩
def TIM_CTRL_TXTS_FLUSH : Fld := ⟨0, 0⟩
def TIM_SLAVE_OFS_OFS : Fld := ⟨31, 0⟩
def TIM_PPS_IN_TS_NS : Fld := ⟨63, 0⟩
def TIM_PPS_IN_INFO_COUNT : Fld := ⟨31, 16⟩
def TIM_PPS_IN_INFO_FRAC : Fld := ⟨15, 0⟩
def TIM_PPS_OUT_CFG_WIDTH : Fld := ⟨31, 22⟩
def TIM_PPS_OUT_CFG_OFS : Fld := ⟨15, 0⟩
def TIM_SYNC_RATE_NUM : Fld := ⟨31, 12⟩
def TIM_SYNC_RATE_DEN : Fld := ⟨11, 0⟩
def TIM_SYNC_OFS_OFS : Fld := ⟨31, 0⟩
def TIM_SYNC_CTRL_WIDTH : Fld := ⟨31, 16⟩
def TIM_SYNC_CTRL_POL : Fld := ⟨1, 1⟩
def TIM_SYNC_CTRL_EN : Fld := ⟨0, 0⟩
def TIM_TXMODE_MODE : Fld := ⟨31, 0⟩
def TIM_LAT_RX_LAT : Fld := ⟨23, 0⟩
def TIM_LAT_TX_LAT : Fld := ⟨23, 0⟩
def TIM_TXTS_INFO_VALID : Fld := ⟨31, 31⟩
def TIM_TXTS_INFO_OVF : Fld := ⟨30, 30⟩
def TIM_TXTS_INFO_PORT : Fld := ⟨29, 27⟩
def TIM_TXTS_INFO_MSGTYPE : Fld := ⟨23, 20⟩
def TIM_TXTS_INFO_SEQID : Fld := ⟨15, 0⟩
def TIM_TXTS_TIME_NS : Fld := ⟨63, 0⟩
def TIM_TXTS_FRAC_FRAC : Fld := ⟨15, 0⟩
def TIM_TX_FALLBACK_COUNT : Fld := ⟨31, 0⟩
def TIM_BLINK_DLY_VALID : Fld := ⟨31, 31⟩
def TIM_BLINK_DLY_DLY : Fld := ⟨19, 0⟩
def DLR_STATUS_PENDING : Fld := ⟨22, 16⟩
def DLR_STATUS_SHADOW : Fld := ⟨10, 8⟩
def DLR_STATUS_TRUMP_BUSY : Fld := ⟨2, 2⟩
def DLR_STATUS_PINS : Fld := ⟨1, 1⟩
def DLR_STATUS_ACTIVE : Fld := ⟨0, 0⟩
def DLR_DEAL_CNT_COUNT : Fld := ⟨31, 0⟩
def DLR_LAST_DEAL_NS : Fld := ⟨63, 0⟩
def DLR_LAST_FRAC_FRAC : Fld := ⟨15, 0⟩
def DLR_NEXT_DEAL_NS : Fld := ⟨63, 0⟩
def DLR_NEXT_FRAC_VALID : Fld := ⟨31, 31⟩
def DLR_NEXT_FRAC_FRAC : Fld := ⟨15, 0⟩
def DLR_PREEMPH_AMP : Fld := ⟨15, 8⟩
def DLR_PREEMPH_WIDTH : Fld := ⟨7, 0⟩
def DLR_LATE_CNT_COUNT : Fld := ⟨31, 0⟩
def DLR_WITHDRAW_CNT_COUNT : Fld := ⟨31, 0⟩
def DLR_COALESCE_CNT_COUNT : Fld := ⟨31, 0⟩
def DLR_VFAIL_CNT_COUNT : Fld := ⟨31, 0⟩
def DLR_EVICT_CNT_COUNT : Fld := ⟨31, 0⟩
def DLR_PIN_HELD_DEFERRED : Fld := ⟨28, 16⟩
def DLR_PIN_HELD_HELD : Fld := ⟨12, 0⟩
def DLR_TRUMP_MAX_COUNT : Fld := ⟨31, 16⟩
def DLR_TRUMP_MAX_MAX_NS : Fld := ⟨15, 0⟩
def DLR_PINMASK_PINNED : Fld := ⟨31, 0⟩
def DLR_HANDW_ENTRY_ODD : Fld := ⟨31, 16⟩
def DLR_HANDW_ENTRY_EVEN : Fld := ⟨15, 0⟩
def DCK_STATUS_CUR_STATE : Fld := ⟨31, 30⟩
def DCK_STATUS_CUR_DESC : Fld := ⟨29, 24⟩
def DCK_STATUS_NXT_VALID : Fld := ⟨23, 23⟩
def DCK_STATUS_NXT_DESC : Fld := ⟨21, 16⟩
def DCK_STATUS_AUTO : Fld := ⟨15, 15⟩
def DCK_STATUS_SKIP : Fld := ⟨14, 14⟩
def DCK_STATUS_PAUSED : Fld := ⟨13, 13⟩
def DCK_STATUS_BENCH_PEND : Fld := ⟨12, 12⟩
def DCK_STATUS_PART_SET : Fld := ⟨11, 10⟩
def DCK_STATUS_PART_PEND : Fld := ⟨9, 9⟩
def DCK_STATUS_PLANNING : Fld := ⟨8, 8⟩
def DCK_TRICK_NOW_VALID : Fld := ⟨31, 31⟩
def DCK_TRICK_NOW_TRICK : Fld := ⟨25, 16⟩
def DCK_TRICK_NOW_HAND : Fld := ⟨14, 0⟩
def DCK_EPOCH_NOW_EPOCH : Fld := ⟨31, 0⟩
def DCK_ORIGIN_NS : Fld := ⟨63, 0⟩
def DCK_NEXT_BND_NS : Fld := ⟨63, 0⟩
def DCK_NEXT_BND_FRAC_VALID : Fld := ⟨31, 31⟩
def DCK_NEXT_BND_FRAC_FRAC : Fld := ⟨15, 0⟩
def DCK_PART_CTRL_PENDING : Fld := ⟨31, 31⟩
def DCK_PART_CTRL_INFORCE : Fld := ⟨9, 8⟩
def DCK_PART_CTRL_APPLY : Fld := ⟨2, 2⟩
def DCK_PART_CTRL_SET : Fld := ⟨1, 0⟩
def DCK_BENCH_PEND : Fld := ⟨31, 31⟩
def DCK_BENCH_LEFT : Fld := ⟨23, 8⟩
def DCK_BENCH_GEN : Fld := ⟨7, 0⟩
def DCK_PLAN_FENCE_FENCED : Fld := ⟨31, 0⟩
def DCK_PLAN_TIME_MAX : Fld := ⟨31, 16⟩
def DCK_PLAN_TIME_LAST : Fld := ⟨15, 0⟩
def DCK_PLAN_OVR_CNT_COUNT : Fld := ⟨31, 0⟩
def DCK_SKIP_CNT_COUNT : Fld := ⟨31, 0⟩
def DCK_WITHDRAW_CNT_COUNT : Fld := ⟨31, 0⟩
def DCK_BID_CNT_COUNT : Fld := ⟨31, 0⟩
def DCK_BID_DROP_CNT_COUNT : Fld := ⟨31, 0⟩
def DCK_LL_SEL_INPUT : Fld := ⟨8, 0⟩
def DCK_LL_CNT_COUNT : Fld := ⟨31, 0⟩
def DCK_LL_TOTAL_COUNT : Fld := ⟨31, 0⟩
def DCK_TLEN_SEL_HAND : Fld := ⟨14, 0⟩
def DCK_TLEN_DATA_LEN : Fld := ⟨23, 0⟩
def DCK_CLASSW0_W3 : Fld := ⟨31, 24⟩
def DCK_CLASSW0_W2 : Fld := ⟨23, 16⟩
def DCK_CLASSW0_W1 : Fld := ⟨15, 8⟩
def DCK_CLASSW0_W0 : Fld := ⟨7, 0⟩
def DCK_CLASSW1_W7 : Fld := ⟨31, 24⟩
def DCK_CLASSW1_W6 : Fld := ⟨23, 16⟩
def DCK_CLASSW1_W5 : Fld := ⟨15, 8⟩
def DCK_CLASSW1_W4 : Fld := ⟨7, 0⟩
def DCK_PLAN_CFG_GRANT_LEAD : Fld := ⟨21, 12⟩
def DCK_PLAN_CFG_CREDIT_MAX : Fld := ⟨9, 0⟩
def DCK_PMASK_SLOTTED : Fld := ⟨31, 0⟩
def DCK_PART_SLOTTED : Fld := ⟨31, 0⟩
def DCK_DESC_DATA : Fld := ⟨31, 0⟩
def HLD_STATUS_AWAKE : Fld := ⟨23, 16⟩
def HLD_STATUS_DITHER_HALF : Fld := ⟨13, 13⟩
def HLD_STATUS_ACTIVE : Fld := ⟨12, 0⟩
def HLD_PERIOD_EFF_US : Fld := ⟨31, 16⟩
def HLD_PERIOD_PERIOD_US : Fld := ⟨15, 0⟩
def HLD_DITHER_FREQ : Fld := ⟨31, 16⟩
def HLD_DITHER_AMP : Fld := ⟨15, 0⟩
def HLD_SETTLE_HTR : Fld := ⟨31, 16⟩
def HLD_SETTLE_PIN : Fld := ⟨15, 0⟩
def HLD_GAIN_HTR_KI : Fld := ⟨31, 16⟩
def HLD_GAIN_HTR_KP : Fld := ⟨15, 0⟩
def HLD_GAIN_PIN_KI : Fld := ⟨31, 16⟩
def HLD_GAIN_PIN_KP : Fld := ⟨15, 0⟩
def HLD_GAIN_GATE_KI : Fld := ⟨31, 16⟩
def HLD_GAIN_GATE_KP : Fld := ⟨15, 0⟩
def HLD_HANDOFF_THRESH : Fld := ⟨19, 0⟩
def HLD_REFRESH_WAKE_BURST : Fld := ⟨31, 24⟩
def HLD_REFRESH_REFRESH_BURST : Fld := ⟨23, 16⟩
def HLD_REFRESH_REFRESH_MS : Fld := ⟨15, 0⟩
def HLD_BAND_ABS : Fld := ⟨31, 16⟩
def HLD_BAND_REL : Fld := ⟨15, 0⟩
def HLD_PLAUS_N : Fld := ⟨31, 28⟩
def HLD_PLAUS_DB : Fld := ⟨15, 0⟩
def HLD_FEEDBACK_FLOOR : Fld := ⟨31, 16⟩
def HLD_FEEDBACK_RETRY_MS : Fld := ⟨15, 0⟩
def HLD_REST_CELL : Fld := ⟨31, 16⟩
def HLD_REST_GATE : Fld := ⟨15, 0⟩
def HLD_TRANS_BAND : Fld := ⟨15, 0⟩
def HLD_MISS_CNT_COUNT : Fld := ⟨31, 0⟩
def HLD_BANK_STALE : Fld := ⟨31, 31⟩
def HLD_BANK_OVER : Fld := ⟨30, 30⟩
def HLD_BANK_IMPL : Fld := ⟨25, 16⟩
def HLD_BANK_FALLBACK : Fld := ⟨9, 0⟩
def HLD_EL_SEL_ELEMENT : Fld := ⟨12, 0⟩
def HLD_EL_STATE_MODE : Fld := ⟨31, 30⟩
def HLD_EL_STATE_FALLBACK : Fld := ⟨29, 29⟩
def HLD_EL_STATE_FB_FROZEN : Fld := ⟨28, 28⟩
def HLD_EL_STATE_FB_LOST : Fld := ⟨27, 27⟩
def HLD_EL_STATE_IMPLAUSIBLE : Fld := ⟨26, 26⟩
def HLD_EL_STATE_MISS : Fld := ⟨25, 25⟩
def HLD_EL_STATE_SAT : Fld := ⟨24, 24⟩
def HLD_EL_STATE_STALE : Fld := ⟨23, 23⟩
def HLD_EL_STATE_BALANCED : Fld := ⟨22, 22⟩
def HLD_EL_STATE_ACTIVE : Fld := ⟨21, 21⟩
def HLD_EL_STATE_ON_PIN : Fld := ⟨20, 20⟩
def HLD_EL_STATE_HANDOFF : Fld := ⟨19, 19⟩
def HLD_EL_STATE_PEAK : Fld := ⟨18, 18⟩
def HLD_EL_STATE_MISS_RUN : Fld := ⟨15, 12⟩
def HLD_EL_STATE_PLAUS_RUN : Fld := ⟨11, 8⟩
def HLD_EL_STATE_RETRIES : Fld := ⟨7, 0⟩
def HLD_EL_CTRL_APPLY : Fld := ⟨31, 31⟩
def HLD_EL_CTRL_CLEAR : Fld := ⟨5, 5⟩
def HLD_EL_CTRL_OFF_GATE : Fld := ⟨4, 4⟩
def HLD_EL_CTRL_KEEP : Fld := ⟨3, 3⟩
def HLD_EL_CTRL_MODE : Fld := ⟨1, 0⟩
def HLD_EL_MAN_GATE : Fld := ⟨45, 32⟩
def HLD_EL_MAN_PIN_X2 : Fld := ⟨28, 28⟩
def HLD_EL_MAN_PIN : Fld := ⟨27, 16⟩
def HLD_EL_MAN_HTR : Fld := ⟨15, 0⟩
def HLD_EL_MEAS_EXP : Fld := ⟨41, 36⟩
def HLD_EL_MEAS_MANT_B : Fld := ⟨35, 18⟩
def HLD_EL_MEAS_MANT_A : Fld := ⟨17, 0⟩
def HLD_EL_ERR_EXP : Fld := ⟨41, 36⟩
def HLD_EL_ERR_MANT_B : Fld := ⟨35, 18⟩
def HLD_EL_ERR_MANT_A : Fld := ⟨17, 0⟩
def HLD_EL_PROP_EXP : Fld := ⟨41, 36⟩
def HLD_EL_PROP_MANT_B : Fld := ⟨35, 18⟩
def HLD_EL_PROP_MANT_A : Fld := ⟨17, 0⟩
def HLD_EL_INT_EXP : Fld := ⟨41, 36⟩
def HLD_EL_INT_MANT_B : Fld := ⟨35, 18⟩
def HLD_EL_INT_MANT_A : Fld := ⟨17, 0⟩
def HLD_EL_FF_EXP : Fld := ⟨41, 36⟩
def HLD_EL_FF_MANT_B : Fld := ⟨35, 18⟩
def HLD_EL_FF_MANT_A : Fld := ⟨17, 0⟩
def HLD_EL_OUT_EXP : Fld := ⟨41, 36⟩
def HLD_EL_OUT_MANT_B : Fld := ⟨35, 18⟩
def HLD_EL_OUT_MANT_A : Fld := ⟨17, 0⟩
def HLD_EL_MISS_COUNT : Fld := ⟨15, 0⟩
def HLD_FALLBACK_MAP : Fld := ⟨31, 0⟩
def HLD_IMPL_MAP : Fld := ⟨31, 0⟩
def HLD_MISSMAP_MAP : Fld := ⟨31, 0⟩
def HLD_NONAUTO_MAP : Fld := ⟨31, 0⟩
def UCS_ID_ROM_REV : Fld := ⟨31, 16⟩
def UCS_ID_ENGINES : Fld := ⟨15, 8⟩
def UCS_ID_CLUSTERS : Fld := ⟨7, 0⟩
def UCS_STATUS_RUNNING : Fld := ⟨22, 16⟩
def UCS_STATUS_FENCED : Fld := ⟨6, 0⟩
def UCS_FENCE_FENCED : Fld := ⟨63, 0⟩
def UCS_FENCE_REQ_REQ : Fld := ⟨63, 0⟩
def UCS_ENG_SEL_ENGINE : Fld := ⟨5, 0⟩
def UCS_ENG_STAT_STATE : Fld := ⟨31, 30⟩
def UCS_ENG_STAT_FENCE_CAUSE : Fld := ⟨29, 27⟩
def UCS_ENG_STAT_FAULT_CAUSE : Fld := ⟨26, 24⟩
def UCS_ENG_STAT_DEFER : Fld := ⟨23, 20⟩
def UCS_ENG_STAT_FAULTS_1S : Fld := ⟨19, 16⟩
def UCS_ENG_STAT_TASKS : Fld := ⟨15, 0⟩
def UCS_ENG_PC_SPACE : Fld := ⟨31, 31⟩
def UCS_ENG_PC_FAULT_PC : Fld := ⟨13, 0⟩
def UCS_CLUSTER_DOZE : Fld := ⟨31, 31⟩
def UCS_CLUSTER_QUEUED : Fld := ⟨26, 16⟩
def UCS_CLUSTER_READY : Fld := ⟨10, 0⟩
def UCS_STEAL_CNT_CROSS : Fld := ⟨31, 16⟩
def UCS_STEAL_CNT_LOCAL : Fld := ⟨15, 0⟩
def UCS_SPILL_CNT_COUNT : Fld := ⟨31, 0⟩
def UCS_MFAULT_CNT_ECC1 : Fld := ⟨31, 16⟩
def UCS_MFAULT_CNT_FAULTS : Fld := ⟨15, 0⟩
def UCS_PATCH_CTRL_CLEAR : Fld := ⟨2, 2⟩
def UCS_PATCH_CTRL_ACTIVATE : Fld := ⟨1, 1⟩
def UCS_PATCH_CTRL_VERIFY : Fld := ⟨0, 0⟩
def UCS_PATCH_PTR_PTR : Fld := ⟨12, 0⟩
def UCS_PATCH_DATA_DATA : Fld := ⟨31, 0⟩
def UCS_PATCH_STATUS_STATE : Fld := ⟨31, 30⟩
def UCS_PATCH_STATUS_DRAINED : Fld := ⟨29, 29⟩
def UCS_PATCH_STATUS_RESULT : Fld := ⟨28, 24⟩
def UCS_PATCH_STATUS_SERIAL : Fld := ⟨15, 0⟩
def UCS_MATCH_EN : Fld := ⟨31, 31⟩
def UCS_MATCH_WORD : Fld := ⟨21, 14⟩
def UCS_MATCH_ADDR : Fld := ⟨13, 0⟩
def BNK_ID_REV : Fld := ⟨31, 24⟩
def BNK_ID_SERIAL : Fld := ⟨23, 0⟩
def BNK_STATUS_BLIND : Fld := ⟨31, 31⟩
def BNK_STATUS_CAL : Fld := ⟨30, 30⟩
def BNK_STATUS_CAL_FAIL : Fld := ⟨29, 29⟩
def BNK_STATUS_HTR_X2 : Fld := ⟨28, 28⟩
def BNK_STATUS_TOKEN : Fld := ⟨27, 26⟩
def BNK_STATUS_OVERLAP : Fld := ⟨25, 25⟩
def BNK_STATUS_LINK_A_UP : Fld := ⟨24, 24⟩
def BNK_STATUS_LINK_B_UP : Fld := ⟨23, 23⟩
def BNK_STATUS_PRELOADS : Fld := ⟨22, 20⟩
def BNK_STATUS_VIEW_STALE : Fld := ⟨19, 19⟩
def BNK_STATUS_PMISS : Fld := ⟨18, 18⟩
def BNK_STATUS_FOLLOWED : Fld := ⟨17, 17⟩
def BNK_TOKEN_GRANTS : Fld := ⟨31, 16⟩
def BNK_TOKEN_OVERLAPS : Fld := ⟨15, 8⟩
def BNK_TOKEN_REFUSED : Fld := ⟨7, 0⟩
def BNK_HTR_GAIN_DEFER : Fld := ⟨31, 16⟩
def BNK_HTR_GAIN_MODE : Fld := ⟨1, 0⟩
def BNK_LINK_STATE : Fld := ⟨31, 30⟩
def BNK_LINK_RETRAINS : Fld := ⟨29, 24⟩
def BNK_LINK_CRC_ERR : Fld := ⟨15, 0⟩
def BNK_SHADOW_CMP_MISSING : Fld := ⟨31, 16⟩
def BNK_SHADOW_CMP_MISMATCH : Fld := ⟨15, 0⟩
def BNK_TEMP_FABRIC : Fld := ⟨31, 16⟩
def BNK_TEMP_OWN : Fld := ⟨15, 0⟩
def BNK_CAL_STATUS_ADC_FAIL : Fld := ⟨23, 0⟩
def BNK_CAL_TIME_NS : Fld := ⟨63, 0⟩
def BNK_CMP_CFG_LEN : Fld := ⟨6, 0⟩
def BNK_URG_OVF_COUNT : Fld := ⟨31, 0⟩
def BNK_DEAL_DISCARD_COUNT : Fld := ⟨31, 0⟩
def BNK_CH_SEL_CHANNEL : Fld := ⟨9, 0⟩
def BNK_CH_SUM_SUM : Fld := ⟨31, 0⟩
def BNK_CH_INFO_RANGE : Fld := ⟨31, 30⟩
def BNK_CH_INFO_CLIP : Fld := ⟨29, 29⟩
def BNK_CH_INFO_FULL : Fld := ⟨28, 28⟩
def BNK_CH_INFO_ARMED : Fld := ⟨27, 27⟩
def BNK_CH_INFO_LOCKED : Fld := ⟨26, 26⟩
def BNK_CH_INFO_COUNT : Fld := ⟨15, 0⟩
def BNK_CH_MINMAX_MAX : Fld := ⟨29, 16⟩
def BNK_CH_MINMAX_MIN : Fld := ⟨13, 0⟩
def BNK_CH_BAND_LO_LEVEL : Fld := ⟨23, 0⟩
def BNK_CH_BAND_HI_LEVEL : Fld := ⟨23, 0⟩
def BNK_CH_CODE_PIN_X2 : Fld := ⟨28, 28⟩
def BNK_CH_CODE_PIN : Fld := ⟨27, 16⟩
def BNK_CH_CODE_HTR_GATE : Fld := ⟨15, 0⟩
def BNK_MAN_FIRE : Fld := ⟨31, 31⟩
def BNK_MAN_OUT : Fld := ⟨30, 29⟩
def BNK_MAN_CHANNEL : Fld := ⟨25, 16⟩
def BNK_MAN_CODE : Fld := ⟨15, 0⟩
def BNK_PROBE_CFG_EN : Fld := ⟨31, 31⟩
def BNK_PROBE_CFG_CHANNEL : Fld := ⟨9, 0⟩
def BNK_PROBE_SNAP_RESTART : Fld := ⟨4, 4⟩
def BNK_PROBE_SNAP_SLOT : Fld := ⟨3, 0⟩
def BNK_PROBE_SUM_SUM : Fld := ⟨31, 0⟩
def BNK_PROBE_INFO_RANGE : Fld := ⟨31, 30⟩
def BNK_PROBE_INFO_CLIP : Fld := ⟨29, 29⟩
def BNK_PROBE_INFO_FULL : Fld := ⟨28, 28⟩
def BNK_PROBE_INFO_ARMED : Fld := ⟨27, 27⟩
def BNK_PROBE_INFO_LOCKED : Fld := ⟨26, 26⟩
def BNK_PROBE_INFO_COUNT : Fld := ⟨15, 0⟩
def BNK_PROBE_MINMAX_MAX : Fld := ⟨29, 16⟩
def BNK_PROBE_MINMAX_MIN : Fld := ⟨13, 0⟩
def BNK_PROBE_TIME_NS : Fld := ⟨63, 0⟩
def BNK_PROBE_MISS_COUNT : Fld := ⟨31, 0⟩
def BNK_SHORT_SHORT : Fld := ⟨31, 0⟩
def BNK_DRVF_DRVF : Fld := ⟨31, 0⟩
def CAL_STATUS_SEQ : Fld := ⟨31, 24⟩
def CAL_STATUS_STAGED : Fld := ⟨4, 4⟩
def CAL_STATUS_COMMIT_PEND : Fld := ⟨3, 3⟩
def CAL_STATUS_FIELD_PEND : Fld := ⟨2, 2⟩
def CAL_STATUS_UNCOVERED : Fld := ⟨1, 1⟩
def CAL_STATUS_VALID : Fld := ⟨0, 0⟩
def CAL_CTRL_AUTO_BENCH : Fld := ⟨2, 2⟩
def CAL_CTRL_SURVEY_EN : Fld := ⟨1, 1⟩
def CAL_CTRL_TRIM_EN : Fld := ⟨0, 0⟩
def CAL_TEMP_PT_LO : Fld := ⟨31, 28⟩
def CAL_TEMP_PT_HI : Fld := ⟨27, 24⟩
def CAL_TEMP_TF : Fld := ⟨23, 0⟩
def CAL_VALID_STG_ELEM : Fld := ⟨29, 29⟩
def CAL_VALID_STG_TABLES : Fld := ⟨28, 28⟩
def CAL_VALID_STG_POINTS : Fld := ⟨27, 16⟩
def CAL_VALID_ELEM : Fld := ⟨13, 13⟩
def CAL_VALID_TABLES : Fld := ⟨12, 12⟩
def CAL_VALID_POINTS : Fld := ⟨11, 0⟩
def CAL_QTHR_LOCK : Fld := ⟨23, 16⟩
def CAL_QTHR_EXT : Fld := ⟨15, 0⟩
def CAL_TRIM_MAX : Fld := ⟨31, 16⟩
def CAL_TRIM_MIN : Fld := ⟨15, 0⟩
def CAL_SURVEY_PERIOD_H : Fld := ⟨15, 0⟩
def CAL_TALON_CELLS : Fld := ⟨23, 16⟩
def CAL_TALON_USED : Fld := ⟨4, 0⟩
def CAL_OUTER_COUNT : Fld := ⟨6, 0⟩
def CAL_Q_SEL_CELL : Fld := ⟨12, 0⟩
def CAL_Q_EXT_CROSS : Fld := ⟨31, 16⟩
def CAL_Q_EXT_BAR : Fld := ⟨15, 0⟩
def CAL_Q_INFO_SURVEYED : Fld := ⟨31, 31⟩
def CAL_Q_INFO_BENCHED : Fld := ⟨30, 30⟩
def CAL_Q_INFO_PARK : Fld := ⟨29, 29⟩
def CAL_Q_INFO_QFAIL : Fld := ⟨28, 28⟩
def CAL_Q_INFO_AGE_H : Fld := ⟨23, 8⟩
def CAL_Q_INFO_LOCK : Fld := ⟨7, 0⟩
def CAL_Q_TRIM_TRIM : Fld := ⟨31, 0⟩
def CAL_XT_SEL_OUTPUT : Fld := ⟨8, 0⟩
def CAL_XT_VALID : Fld := ⟨31, 31⟩
def CAL_XT_XT : Fld := ⟨15, 0⟩
def CAL_TRIM_CNT_COUNT : Fld := ⟨31, 0⟩
def CAL_SURVEY_CNT_ABORTED : Fld := ⟨31, 16⟩
def CAL_SURVEY_CNT_DONE : Fld := ⟨15, 0⟩
def CAL_FIELD_DISC_COUNT : Fld := ⟨31, 0⟩
def CAL_RD_SEL_TYPE : Fld := ⟨31, 30⟩
def CAL_RD_SEL_POINT : Fld := ⟨27, 24⟩
def CAL_RD_SEL_OFFSET : Fld := ⟨20, 0⟩
def CAL_RD_DATA_DATA : Fld := ⟨31, 0⟩
def CAL_BENCH_MAP : Fld := ⟨31, 0⟩
def CAL_PARK_MAP : Fld := ⟨31, 0⟩
def CAL_QFAIL_MAP : Fld := ⟨31, 0⟩
def PRS_ETYPE_ZSL : Fld := ⟨31, 16⟩
def PRS_ETYPE_VSP : Fld := ⟨15, 0⟩
def PRS_UDPPORT_ZSL : Fld := ⟨31, 16⟩
def PRS_UDPPORT_VSP : Fld := ⟨15, 0⟩
def PRS_PIPE_ACTIVE : Fld := ⟨31, 31⟩
def PRS_PIPE_DRAINED_A : Fld := ⟨30, 30⟩
def PRS_PIPE_DRAINED_B : Fld := ⟨29, 29⟩
def PRS_PIPE_EPOCH : Fld := ⟨23, 16⟩
def PRS_PIPE_RFIFO : Fld := ⟨6, 0⟩
def PRS_RULE_SEL_PIPE : Fld := ⟨13, 13⟩
def PRS_RULE_SEL_BANK : Fld := ⟨12, 12⟩
def PRS_RULE_SEL_INDEX : Fld := ⟨11, 0⟩
def PRS_RULE_CMD_BUSY : Fld := ⟨31, 31⟩
def PRS_RULE_CMD_STATUS : Fld := ⟨30, 28⟩
def PRS_RULE_CMD_VALID : Fld := ⟨4, 4⟩
def PRS_RULE_CMD_OP : Fld := ⟨1, 0⟩
def PRS_RULE_ACT_ACTION : Fld := ⟨63, 0⟩
def PRS_RULE_HITS_COUNT : Fld := ⟨31, 0⟩
def PRS_RULE_KEY_BITS : Fld := ⟨31, 0⟩
def PRS_RULE_MASK_BITS : Fld := ⟨31, 0⟩
def PRS_CNT_COUNT : Fld := ⟨31, 0⟩
def PRS_VSP_DROP_COUNT : Fld := ⟨31, 0⟩
def EPT_CMD_BUSY : Fld := ⟨31, 31⟩
def EPT_CMD_STATUS : Fld := ⟨30, 28⟩
def EPT_CMD_PIPE : Fld := ⟨8, 8⟩
def EPT_CMD_OP : Fld := ⟨2, 0⟩
def EPT_KEY_DOMAIN : Fld := ⟨63, 60⟩
def EPT_KEY_VLAN : Fld := ⟨59, 48⟩
def EPT_KEY_MAC : Fld := ⟨47, 0⟩
def EPT_SMASK_MASK : Fld := ⟨63, 0⟩
def EPT_DATA0_CPORT : Fld := ⟨30, 28⟩
def EPT_DATA0_AGENT_ID : Fld := ⟨27, 16⟩
def EPT_DATA0_OPORT : Fld := ⟨9, 0⟩
def EPT_DATA1_LAST_SEEN : Fld := ⟨31, 0⟩
def EPT_DATA2_FLAGS : Fld := ⟨7, 0⟩
def EPT_DATA3_FOUND : Fld := ⟨31, 31⟩
def EPT_DATA3_SUB : Fld := ⟨18, 18⟩
def EPT_DATA3_WAY : Fld := ⟨17, 16⟩
def EPT_DATA3_BUCKET : Fld := ⟨14, 0⟩
def EPT_AGE_LIMIT_LIMIT : Fld := ⟨31, 0⟩
def EPT_FLAP_HOLD : Fld := ⟨31, 16⟩
def EPT_FLAP_LIMIT : Fld := ⟨3, 0⟩
def EPT_OCC_ENTRIES : Fld := ⟨18, 0⟩
def EPT_CNT_COUNT : Fld := ⟨31, 0⟩
def TMG_CLASSQ0_Q3 : Fld := ⟨28, 24⟩
def TMG_CLASSQ0_Q2 : Fld := ⟨20, 16⟩
def TMG_CLASSQ0_Q1 : Fld := ⟨12, 8⟩
def TMG_CLASSQ0_Q0 : Fld := ⟨4, 0⟩
def TMG_CLASSQ1_Q7 : Fld := ⟨28, 24⟩
def TMG_CLASSQ1_Q6 : Fld := ⟨20, 16⟩
def TMG_CLASSQ1_Q5 : Fld := ⟨12, 8⟩
def TMG_CLASSQ1_Q4 : Fld := ⟨4, 0⟩
def TMG_OVH_OVH : Fld := ⟨5, 0⟩
def TMG_TPOL_RATE : Fld := ⟨31, 20⟩
def TMG_TPOL_BURST : Fld := ⟨19, 5⟩
def TMG_TPOL_INFLIGHT : Fld := ⟨4, 0⟩
def TMG_APOL_RATE_CIR : Fld := ⟨31, 0⟩
def TMG_APOL_BURST_CAWARE : Fld := ⟨31, 31⟩
def TMG_APOL_BURST_EBS : Fld := ⟨30, 16⟩
def TMG_APOL_BURST_CBS : Fld := ⟨15, 0⟩
def TMG_SAMPLE_N : Fld := ⟨15, 0⟩
def TMG_QCFG_SHAPE : Fld := ⟨31, 31⟩
def TMG_QCFG_EXPRESS : Fld := ⟨30, 30⟩
def TMG_QCFG_PRIO : Fld := ⟨29, 27⟩
def TMG_QSLOPE_LIM : Fld := ⟨31, 20⟩
def TMG_QSLOPE_SLOPE : Fld := ⟨18, 0⟩
def TMG_QLIM_MAX : Fld := ⟨31, 16⟩
def TMG_QLIM_YEL : Fld := ⟨15, 0⟩
def TMG_GL_STATUS_STATE : Fld := ⟨31, 30⟩
def TMG_GL_STATUS_PEND : Fld := ⟨29, 29⟩
def TMG_GL_STATUS_COUNT : Fld := ⟨24, 16⟩
def TMG_GL_STATUS_ENTRY : Fld := ⟨7, 0⟩
def TMG_GL_CYCLE_CYCLE : Fld := ⟨31, 0⟩
def TMG_GL_BASE_NS : Fld := ⟨63, 0⟩
def TMG_GL_SEL_PORT : Fld := ⟨10, 8⟩
def TMG_GL_SEL_ENTRY : Fld := ⟨7, 0⟩
def TMG_GL_GATES_VALUE : Fld := ⟨31, 0⟩
def TMG_GL_INTV_VALUE : Fld := ⟨31, 0⟩
def TMG_SMP_SEL_PORT : Fld := ⟨7, 5⟩
def TMG_SMP_SEL_QUEUE : Fld := ⟨4, 0⟩
def TMG_SMP_DEPTH_MIN_VALUE : Fld := ⟨31, 0⟩
def TMG_SMP_DEPTH_MAX_VALUE : Fld := ⟨31, 0⟩
def TMG_SMP_DEPTH_MEAN_VALUE : Fld := ⟨31, 0⟩
def TMG_SMP_HOL_MIN_VALUE : Fld := ⟨31, 0⟩
def TMG_SMP_HOL_MAX_VALUE : Fld := ⟨31, 0⟩
def TMG_SMP_HOL_MEAN_VALUE : Fld := ⟨31, 0⟩
def TMG_QDROP_COUNT : Fld := ⟨31, 0⟩
def TMG_QSENT_COUNT : Fld := ⟨31, 0⟩
def TMG_PCNT_COUNT : Fld := ⟨31, 0⟩
def TMG_APOL_CNT_COUNT : Fld := ⟨31, 0⟩
def ETH_CFG_REFUSED : Fld := ⟨31, 31⟩
def ETH_CFG_INFORCE : Fld := ⟨8, 8⟩
def ETH_CFG_APPLY : Fld := ⟨1, 1⟩
def ETH_CFG_MODE : Fld := ⟨0, 0⟩
def ETH_MAXLEN_LEN : Fld := ⟨13, 0⟩
def ETH_PORT_LINK : Fld := ⟨31, 30⟩
def ETH_PORT_MM : Fld := ⟨29, 28⟩
def ETH_PORT_CLEAN : Fld := ⟨27, 27⟩
def ETH_MM_PREEMPT_EN : Fld := ⟨31, 31⟩
def ETH_MM_VERIFY_DIS : Fld := ⟨30, 30⟩
def ETH_MM_ADD_FRAG : Fld := ⟨29, 28⟩
def ETH_MM_VERIFY_MS : Fld := ⟨7, 0⟩
def ETH_MP_LINK : Fld := ⟨31, 30⟩
def ETH_MP_AN_EN : Fld := ⟨1, 1⟩
def ETH_MP_MODE : Fld := ⟨0, 0⟩
def ETH_CNT_COUNT : Fld := ⟨31, 0⟩
def HIF_ID_REV : Fld := ⟨31, 24⟩
def HIF_ID_DIE : Fld := ⟨8, 8⟩
def HIF_PCIE_WIDTH : Fld := ⟨8, 4⟩
def HIF_PCIE_SPEED : Fld := ⟨3, 0⟩
def HIF_PCIE_ERR_UNCORR : Fld := ⟨31, 16⟩
def HIF_PCIE_ERR_CORR : Fld := ⟨15, 0⟩
def HIF_LEVEL_EXPERT : Fld := ⟨0, 0⟩
def HIF_FID_DECLARER : Fld := ⟨9, 9⟩
def HIF_FID_DIE : Fld := ⟨8, 8⟩
def HIF_FID_FUNC : Fld := ⟨1, 0⟩
def HIF_CTRL_ERR_VEC : Fld := ⟨21, 16⟩
def HIF_CTRL_ERR_IEN : Fld := ⟨0, 0⟩
def HIF_RESET_DONE : Fld := ⟨31, 31⟩
def HIF_RESET_BUSY : Fld := ⟨30, 30⟩
def HIF_RESET_FLR : Fld := ⟨0, 0⟩
def HIF_RESET_CNT_ORPHANED : Fld := ⟨31, 16⟩
def HIF_RESET_CNT_ABORTED : Fld := ⟨15, 0⟩
def HIF_DB_BASE_ADDR : Fld := ⟨63, 6⟩
def HIF_KICK_KICK : Fld := ⟨31, 0⟩
def HIF_POLL_IDLE : Fld := ⟨0, 0⟩
def HIF_ERR_DB_READ : Fld := ⟨31, 31⟩
def HIF_ERR_RING : Fld := ⟨25, 0⟩
def HIF_EVMASK_SAFETY : Fld := ⟨13, 13⟩
def HIF_EVMASK_NET : Fld := ⟨12, 12⟩
def HIF_EVMASK_TIME : Fld := ⟨11, 11⟩
def HIF_EVMASK_CAL : Fld := ⟨10, 10⟩
def HIF_EVMASK_DECK : Fld := ⟨9, 9⟩
def HIF_EVMASK_WAKE : Fld := ⟨8, 8⟩
def HIF_EVMASK_ELEMENT : Fld := ⟨7, 7⟩
def HIF_EVMASK_VERIFY : Fld := ⟨6, 6⟩
def HIF_EVMASK_VERIFY_ALL : Fld := ⟨5, 5⟩
def HIF_EVMASK_DEAL : Fld := ⟨4, 4⟩
def HIF_EVMASK_TAKEOVER : Fld := ⟨3, 3⟩
def HIF_EVMASK_HEALTH : Fld := ⟨2, 2⟩
def HIF_EVMASK_FAULT : Fld := ⟨1, 1⟩
def HIF_EVMASK_MODE : Fld := ⟨0, 0⟩
def HIF_EV_LOST_COUNT : Fld := ⟨31, 0⟩
def HIF_TM_LOST_COUNT : Fld := ⟨31, 0⟩
def HIF_RX_DROP_SIZE : Fld := ⟨31, 16⟩
def HIF_RX_DROP_FULL : Fld := ⟨15, 0⟩
def HIF_RING_BASE_ADDR : Fld := ⟨63, 12⟩
def HIF_RING_CFG_EN : Fld := ⟨31, 31⟩
def HIF_RING_CFG_ERR : Fld := ⟨30, 30⟩
def HIF_RING_CFG_STOPPED : Fld := ⟨29, 29⟩
def HIF_RING_CFG_PRIO : Fld := ⟨28, 28⟩
def HIF_RING_CFG_SLOT : Fld := ⟨27, 26⟩
def HIF_RING_CFG_VEC : Fld := ⟨21, 16⟩
def HIF_RING_CFG_IEN : Fld := ⟨15, 15⟩
def HIF_RING_CFG_CQ : Fld := ⟨10, 8⟩
def HIF_RING_CFG_LOG2SIZE : Fld := ⟨4, 0⟩
def HIF_RING_MOD_MOD : Fld := ⟨31, 0⟩
def HIF_RING_IRQ_TIME : Fld := ⟨31, 16⟩
def HIF_RING_IRQ_COUNT : Fld := ⟨15, 0⟩
def RED_STATUS_TOKEN : Fld := ⟨31, 24⟩
def RED_STATUS_SOLO : Fld := ⟨23, 23⟩
def RED_STATUS_CLAIMING : Fld := ⟨22, 22⟩
def RED_STATUS_ABANDONED : Fld := ⟨21, 21⟩
def RED_STATUS_MIRROR : Fld := ⟨17, 16⟩
def RED_STATUS_HB_MISS : Fld := ⟨11, 8⟩
def RED_HB_CNT_MISSED : Fld := ⟨31, 0⟩
def RED_MIRROR_ERR_DOWNS : Fld := ⟨31, 16⟩
def RED_MIRROR_ERR_REPLAYS : Fld := ⟨15, 0⟩
def RED_ACK_MAX_NS : Fld := ⟨31, 16⟩
def RED_ACK_TIMEOUTS : Fld := ⟨15, 0⟩
def RED_TO_CNT_CLAIMS : Fld := ⟨31, 24⟩
def RED_TO_CNT_RESUMED : Fld := ⟨23, 16⟩
def RED_TO_CNT_YIELDS : Fld := ⟨15, 8⟩
def RED_TO_CNT_DEPOSED : Fld := ⟨7, 0⟩
def RED_TO_TIME_NS : Fld := ⟨63, 0⟩
def RED_TO_GAP_SERVICE_US : Fld := ⟨31, 16⟩
def RED_TO_GAP_GAP_NS : Fld := ⟨15, 0⟩
def RED_CMP_CFG_LIMIT : Fld := ⟨15, 0⟩
def RED_CTRL_AUTO_CLAIM : Fld := ⟨1, 1⟩
def RED_CTRL_YIELD_LINKLOST : Fld := ⟨0, 0⟩
def RED_CMP_CNT_PLAN : Fld := ⟨31, 16⟩
def RED_CMP_CNT_IMAGE : Fld := ⟨15, 0⟩
def RED_ESC_LEVEL : Fld := ⟨31, 29⟩
def RED_ESC_WINDOW_MS : Fld := ⟨28, 13⟩
def RED_ESC_INSTANCE : Fld := ⟨12, 0⟩
def RED_ESC_CNT_COUNT : Fld := ⟨31, 0⟩
def RED_ADOPT_VALID_VALID : Fld := ⟨31, 0⟩
def RED_ADOPT_DROP_COUNT : Fld := ⟨31, 0⟩
def RED_ADOPT_COUNT : Fld := ⟨31, 0⟩
def LGD_STATUS_UNIT_A_OK : Fld := ⟨31, 31⟩
def LGD_STATUS_UNIT_B_OK : Fld := ⟨30, 30⟩
def LGD_STATUS_XLINK_OK : Fld := ⟨29, 29⟩
def LGD_STATUS_CFG_MATCH : Fld := ⟨28, 28⟩
def LGD_STATUS_ESTOP : Fld := ⟨27, 27⟩
def LGD_STATUS_SD_SAFE : Fld := ⟨26, 26⟩
def LGD_STATUS_FORCE : Fld := ⟨25, 25⟩
def LGD_STATUS_PERMITS : Fld := ⟨15, 8⟩
def LGD_STATUS_TRIPPED : Fld := ⟨7, 4⟩
def LGD_STATUS_READY : Fld := ⟨3, 0⟩
def LGD_GCFG_FILTER_US : Fld := ⟨23, 16⟩
def LGD_GCFG_E_AUTO_RESET : Fld := ⟨0, 0⟩
def LGD_ZONE_STATE : Fld := ⟨31, 30⟩
def LGD_ZONE_CH_A : Fld := ⟨29, 29⟩
def LGD_ZONE_CH_B : Fld := ⟨28, 28⟩
def LGD_ZONE_SEEN_A : Fld := ⟨27, 27⟩
def LGD_ZONE_SEEN_B : Fld := ⟨26, 26⟩
def LGD_ZONE_DISC : Fld := ⟨25, 25⟩
def LGD_ZONE_REMOTE_OPEN : Fld := ⟨24, 24⟩
def LGD_ZONE_TRIPS : Fld := ⟨15, 0⟩
def LGD_ZCFG_EN : Fld := ⟨31, 31⟩
def LGD_ZCFG_AUTO_RESET : Fld := ⟨2, 2⟩
def LGD_ZCFG_REMOTE : Fld := ⟨1, 1⟩
def LGD_ZCFG_LOCAL : Fld := ⟨0, 0⟩
def LGD_PCFG_EN : Fld := ⟨31, 31⟩
def LGD_PCFG_SDUAL : Fld := ⟨8, 8⟩
def LGD_PCFG_ZONES : Fld := ⟨3, 0⟩
def LGD_PSTAT_GRANTED : Fld := ⟨31, 24⟩
def LGD_PSTAT_READ_A : Fld := ⟨23, 16⟩
def LGD_PSTAT_READ_B : Fld := ⟨15, 8⟩
def LGD_PSTAT_LATCHED : Fld := ⟨7, 0⟩
def LGD_SD_CFG_EN : Fld := ⟨31, 31⟩
def LGD_SD_CFG_SINGLE_SAFE : Fld := ⟨30, 30⟩
def LGD_SD_CFG_WATCHDOG_MS : Fld := ⟨25, 16⟩
def LGD_SD_CFG_CONN : Fld := ⟨15, 0⟩
def LGD_SD_STAT_COPIES : Fld := ⟨31, 30⟩
def LGD_SD_STAT_SAFE : Fld := ⟨29, 29⟩
def LGD_SD_STAT_SEQ : Fld := ⟨15, 0⟩
def LGD_CONN_SEL_CONN : Fld := ⟨7, 0⟩
def LGD_CONN_CFG_EN : Fld := ⟨31, 31⟩
def LGD_CONN_CFG_NET_A : Fld := ⟨30, 30⟩
def LGD_CONN_CFG_NET_B : Fld := ⟨29, 29⟩
def LGD_CONN_CFG_CPORT_A : Fld := ⟨28, 26⟩
def LGD_CONN_CFG_CPORT_B : Fld := ⟨25, 23⟩
def LGD_CONN_CFG_ZONES : Fld := ⟨22, 19⟩
def LGD_CONN_CFG_PORT : Fld := ⟨18, 9⟩
def LGD_CONN_ID_CONN_ID : Fld := ⟨31, 16⟩
def LGD_CONN_ID_WATCHDOG_MS : Fld := ⟨9, 0⟩
def LGD_CONN_ADDR_VLAN : Fld := ⟨59, 48⟩
def LGD_CONN_ADDR_MAC : Fld := ⟨47, 0⟩
def LGD_CONN_STAT_STATE : Fld := ⟨31, 30⟩
def LGD_CONN_STAT_SHUT : Fld := ⟨29, 29⟩
def LGD_CONN_STAT_LOSSES : Fld := ⟨15, 0⟩
def LGD_CTRL_SAVE_BUSY : Fld := ⟨31, 31⟩
def LGD_CTRL_SAVE : Fld := ⟨0, 0⟩
def LGD_FORCE_OPEN_A : Fld := ⟨27, 24⟩
def LGD_FORCE_OPEN_B : Fld := ⟨23, 20⟩
def LGD_FORCE_ESTOP : Fld := ⟨19, 19⟩
def LGD_FORCE_SD_DROP_A : Fld := ⟨18, 18⟩
def LGD_FORCE_SD_DROP_B : Fld := ⟨17, 17⟩
def LGD_FORCE_RB_A : Fld := ⟨15, 8⟩
def LGD_FORCE_RB_B : Fld := ⟨7, 0⟩
def LGD_RAW_ESTOP_N : Fld := ⟨31, 31⟩
def LGD_RAW_GUARD_A : Fld := ⟨7, 4⟩
def LGD_RAW_GUARD_B : Fld := ⟨3, 0⟩
def LGD_REACT_TELEGRAM_US : Fld := ⟨31, 16⟩
def LGD_REACT_GATE_US : Fld := ⟨15, 0⟩
def LGD_ZMAP_MAP : Fld := ⟨31, 0⟩
def FLT_STICKY_STICKY : Fld := ⟨31, 0⟩
def FLT_RAW_RAW : Fld := ⟨31, 0⟩
def FLT_MASK_MASK : Fld := ⟨31, 0⟩
def FLT_FORCE_FORCE : Fld := ⟨31, 0⟩
def FLT_PROMO_PROMO : Fld := ⟨31, 0⟩
def FLT_PINSRC_PIN : Fld := ⟨31, 0⟩
def FLT_STATUS_ERR_PIN : Fld := ⟨31, 31⟩
def FLT_STATUS_REPL : Fld := ⟨30, 30⟩
def FLT_STATUS_COUNT : Fld := ⟨23, 16⟩
def FLT_STATUS_FIRST_VALID : Fld := ⟨15, 15⟩
def FLT_STATUS_FIRST : Fld := ⟨7, 0⟩
def FLT_WIN_MS : Fld := ⟨23, 0⟩
def FLT_REPL_BANK_CAL : Fld := ⟨7, 7⟩
def FLT_REPL_RS_WEAR : Fld := ⟨6, 6⟩
def FLT_REPL_MIRROR : Fld := ⟨5, 5⟩
def FLT_REPL_SENSOR : Fld := ⟨4, 4⟩
def FLT_REPL_ENGINES : Fld := ⟨3, 3⟩
def FLT_REPL_BLINK : Fld := ⟨2, 2⟩
def FLT_REPL_CDIE : Fld := ⟨1, 1⟩
def FLT_REPL_TALON : Fld := ⟨0, 0⟩
def FLT_SRC_N : Fld := ⟨31, 24⟩
def FLT_SRC_WIN : Fld := ⟨22, 20⟩
def FLT_SRC_SEVERE : Fld := ⟨18, 16⟩
def FLT_SRC_NORMAL : Fld := ⟨14, 12⟩
def FLT_SRC_PROMOTED : Fld := ⟨11, 11⟩
def FLT_SRC_DOMAIN : Fld := ⟨10, 8⟩
def FLT_SRC_COUNT : Fld := ⟨7, 0⟩
def THM_STATUS_FAILED : Fld := ⟨31, 21⟩
def THM_STATUS_FAB_SRC : Fld := ⟨20, 19⟩
def THM_STATUS_LEVEL_SENSOR : Fld := ⟨18, 15⟩
def THM_STATUS_BUDGET : Fld := ⟨14, 14⟩
def THM_STATUS_CLASS_MISM : Fld := ⟨13, 13⟩
def THM_STATUS_CLASS : Fld := ⟨12, 12⟩
def THM_STATUS_FROZEN : Fld := ⟨11, 11⟩
def THM_STATUS_SHUTDOWN : Fld := ⟨10, 10⟩
def THM_STATUS_SHUT_H : Fld := ⟨9, 9⟩
def THM_STATUS_REL_REFUSED : Fld := ⟨8, 8⟩
def THM_STATUS_LEVEL : Fld := ⟨1, 0⟩
def THM_TEMP_VALID : Fld := ⟨31, 31⟩
def THM_TEMP_FAILED : Fld := ⟨30, 30⟩
def THM_TEMP_LEVEL : Fld := ⟨29, 28⟩
def THM_TEMP_TEMP : Fld := ⟨15, 0⟩
def THM_FOFS_OFS : Fld := ⟨15, 0⟩
def THM_THR_SHUT : Fld := ⟨31, 24⟩
def THM_THR_T3 : Fld := ⟨23, 16⟩
def THM_THR_T2 : Fld := ⟨15, 8⟩
def THM_THR_T1 : Fld := ⟨7, 0⟩
def THM_CTRL_RELEASE : Fld := ⟨0, 0⟩
def THM_TCFG_ADV_US : Fld := ⟨31, 16⟩
def THM_TCFG_PINCAP : Fld := ⟨12, 0⟩
def THM_POWER_HTR : Fld := ⟨31, 16⟩
def THM_POWER_LIT : Fld := ⟨9, 0⟩
def THM_CLASS_EEPROM : Fld := ⟨3, 2⟩
def THM_CLASS_STRAP : Fld := ⟨1, 0⟩
def THM_SHUT_CNT_COUNT : Fld := ⟨31, 0⟩
def THM_RS_SEL_OFFSET : Fld := ⟨14, 0⟩
def THM_RS_DATA_DATA : Fld := ⟨31, 0⟩
def THM_RS_STAT_WEAR : Fld := ⟨31, 31⟩
def THM_RS_STAT_CORRUPT : Fld := ⟨30, 30⟩
def THM_RS_STAT_BUSY : Fld := ⟨29, 29⟩
def THM_RS_STAT_ENTRIES : Fld := ⟨9, 0⟩
def RST_CAUSE_BOOT_WD : Fld := ⟨7, 7⟩
def RST_CAUSE_HELD : Fld := ⟨6, 6⟩
def RST_CAUSE_STANDBY : Fld := ⟨5, 5⟩
def RST_CAUSE_FAULT : Fld := ⟨4, 4⟩
def RST_CAUSE_SOFT : Fld := ⟨3, 3⟩
def RST_CAUSE_CDRST : Fld := ⟨2, 2⟩
def RST_CAUSE_MODRST : Fld := ⟨1, 1⟩
def RST_CAUSE_POWER_ON : Fld := ⟨0, 0⟩
def RST_SWRST_KEY : Fld := ⟨31, 16⟩
def RST_SWRST_GO : Fld := ⟨0, 0⟩
def RST_WATCH_SECONDS : Fld := ⟨31, 0⟩
def RST_HELD_STANDBY_S : Fld := ⟨31, 16⟩
def RST_HELD_MODRST_S : Fld := ⟨15, 0⟩
def RST_COUNT_FAULT : Fld := ⟨31, 24⟩
def RST_COUNT_SOFT : Fld := ⟨23, 16⟩
def RST_COUNT_CDRST : Fld := ⟨15, 8⟩
def RST_COUNT_MODRST : Fld := ⟨7, 0⟩
def RST_BOOT_STARTED : Fld := ⟨31, 31⟩
def RST_BOOT_SLOT : Fld := ⟨30, 30⟩
def RST_BOOT_FAILED : Fld := ⟨29, 28⟩
def RST_BOOT_RES_B : Fld := ⟨27, 24⟩
def RST_BOOT_RES_A : Fld := ⟨23, 20⟩
def RST_FW_VER_VERSION : Fld := ⟨31, 0⟩
def RST_SNAP_STICKY : Fld := ⟨31, 0⟩
def RST_SNAP_INFO_KIND : Fld := ⟨31, 29⟩
def RST_SNAP_INFO_SECONDS : Fld := ⟨28, 0⟩
def MTX_REMAP_REMAP : Fld := ⟨0, 0⟩
def MTX_STATUS_STUCK : Fld := ⟨25, 16⟩
def MTX_STATUS_DRAIN : Fld := ⟨15, 8⟩
def MTX_STATUS_RESET : Fld := ⟨7, 0⟩
def MTX_OUTST_MAX : Fld := ⟨21, 16⟩
def MTX_OUTST_NOW : Fld := ⟨5, 0⟩
def MTX_ERR_VALID : Fld := ⟨31, 31⟩
def MTX_ERR_KIND : Fld := ⟨11, 8⟩
def MTX_ERR_TARGET : Fld := ⟨7, 4⟩
def MTX_ERR_WRITE : Fld := ⟨3, 3⟩
def MTX_ERR_MASTER : Fld := ⟨2, 0⟩
def MTX_ERR_ADDR_ADDR : Fld := ⟨39, 0⟩
def MTX_CNT_COUNT : Fld := ⟨31, 0⟩
def MTX_MRST_RESET : Fld := ⟨7, 0⟩
def SVC_STATUS_LEVEL : Fld := ⟨31, 30⟩
def SVC_STATUS_LOCKOUT : Fld := ⟨29, 29⟩
def SVC_STATUS_NONCE_VALID : Fld := ⟨28, 28⟩
def SVC_STATUS_BUSY : Fld := ⟨27, 27⟩
def SVC_STATUS_RESULT : Fld := ⟨23, 20⟩
def SVC_STATUS_FAILS : Fld := ⟨3, 0⟩
def SVC_CTRL_OP : Fld := ⟨3, 0⟩
def SVC_NONCE_NONCE : Fld := ⟨31, 0⟩
def SVC_RESP_RESP : Fld := ⟨31, 0⟩
def SVC_PW_PW : Fld := ⟨31, 0⟩
def SVC_TIMEOUT_MIN : Fld := ⟨10, 0⟩
def SVC_LOCKOUT_SECONDS : Fld := ⟨16, 0⟩
def SVC_COUNT_FAILED : Fld := ⟨31, 16⟩
def SVC_COUNT_OPENED : Fld := ⟨15, 0⟩

end F

end Sys2Proof.Machine
end

