-- ==== Sys2Proof/Machine/Sparse.lean ====
section
/-!
DEFINITION. Operations of the sparse stores: reading, writing and removing by key, keeping the canonical form (keys
strictly rising, no entry equal to what an unlisted key reads as), and the same for byte memories.
-/

namespace Sys2Proof.Machine

/-- What key k reads as, d being what an unlisted key reads as. -/
def spGet {α : Type} (d : α) (k : Nat) : Sparse α → α
  | [] => d
  | (k', v) :: l => if k = k' then v else spGet d k l

/-- The entry of key k, if one is listed. -/
def spFind {α : Type} (k : Nat) : Sparse α → Option α
  | [] => none
  | (k', v) :: l => if k = k' then some v else spFind k l

/-- Lists v under key k. -/
def spPut {α : Type} (k : Nat) (v : α) : Sparse α → Sparse α
  | [] => [(k, v)]
  | (k', v') :: l =>
    if k = k' then (k, v) :: l
    else if k < k' then (k, v) :: (k', v') :: l
    else (k', v') :: spPut k v l

/-- Removes what is listed under key k. -/
def spDel {α : Type} (k : Nat) : Sparse α → Sparse α
  | [] => []
  | (k', v') :: l => if k = k' then spDel k l else (k', v') :: spDel k l

/-- Writes v at key k, d being what an unlisted key reads as: an entry equal to d is not listed. -/
def spSet {α : Type} [DecidableEq α] (d : α) (k : Nat) (v : α) (l : Sparse α) : Sparse α :=
  if v = d then spDel k l else spPut k v l

/-- Applies f to every listed entry, d being what an unlisted key reads as; an entry that becomes d is no longer listed. -/
def spMap {α : Type} [DecidableEq α] (d : α) (f : Nat → α → α) (l : Sparse α) : Sparse α :=
  (l.map (fun e => (e.1, f e.1 e.2))).filter (fun e => decide (e.2 ≠ d))

/-- The keys rise strictly, all above b. -/
def spRising {α : Type} (b : Nat) : Sparse α → Bool
  | [] => true
  | (k, _) :: l => decide (b ≤ k) && spRising (k + 1) l

/-- The canonical form, d being what an unlisted key reads as. -/
def spWf {α : Type} [DecidableEq α] (d : α) (l : Sparse α) : Bool :=
  spRising 0 l && l.all (fun e => decide (e.2 ≠ d))

/-- A byte memory: its cells in canonical form; an unlisted address reads as 0. -/
abbrev Memory := Sparse Byte

/-- The canonical form of a byte memory. -/
def Memory.wf (m : Memory) : Bool := spWf (0 : Byte) m

/-- One byte of a memory. -/
def memGet (m : Memory) (a : Nat) : Byte := spGet 0 a m

/-- Writes one byte. -/
def memSet (m : Memory) (a : Nat) (v : Byte) : Memory := spSet 0 a v m

/-- The n bytes of a memory from address a. -/
def memRead (m : Memory) (a : Nat) : Nat → List Byte
  | 0 => []
  | n + 1 => memGet m a :: memRead m (a + 1) n

/-- Writes the bytes of a list from address a. -/
def memWrite (m : Memory) (a : Nat) : List Byte → Memory
  | [] => m
  | b :: bs => memWrite (memSet m a b) (a + 1) bs

end Sys2Proof.Machine
end

