-- ==== Sys2Proof/Machine/StBank.lean ====
section
/-!
DEFINITION. State of a bank die (chapter 08): outputs, shadows, stores, comparators, probe slots, links, token, preloads,
blind engine.
-/

namespace Sys2Proof.Machine

/-- A result store (R274): raw sum, count, min and max, TIA range, CLIP and FULL. -/
structure Store where
  sum : Nat
  count : Nat
  min : Nat
  max : Nat
  range : Nat
  clip : Bool
  full : Bool
deriving DecidableEq, Repr

/-- An empty store at range 0 (R284). -/
def Store.empty : Store := ⟨0, 0, 0, 0, 0, false, false⟩

/-- A pending shadow: value, PIN reference ×2, strobe group (R263). -/
structure Shadow where
  code : Nat
  x2 : Bool
  group : Nat
deriving DecidableEq, Repr

/-- What a PIN driver adds at a deal (R136, R259): a current in ×1 LSB above the steady one on a rising change, or the extraction pulse of
−1.0 V on a falling one; the instant of the deal clock at which it ends, in 125 ps units. -/
structure Pulse where
  extra : Nat
  extract : Bool
  ends : Nat
deriving DecidableEq, Repr

/-- One channel of a bank die (R255). -/
structure Chan where
  /-- Heater value in ×1 LSB (R257); 0 on a gate. -/
  heater : Nat
  /-- The value was clamped (R257). -/
  clamped : Bool
  pin : Nat
  pinX2 : Bool
  /-- The pulse of the last deal that moved the PIN current. -/
  pulse : Option Pulse
  gate : Nat
  /-- The safety shuts in force from port A and port B (R270). -/
  shutA : Bool
  shutB : Bool
  shHeater : Option Shadow
  shPin : Option Shadow
  shGate : Option Shadow
  dealSeq : Nat
  /-- Present state bit of the cell (R265). -/
  cross : Bool
  /-- The cell's π current as a ×1 PIN code, from the feed-forward writes (R265). -/
  piCode : Nat
  store : Store
  /-- What the last read of the store delivered, on both ports (R274). -/
  last : Store
  /-- Range fixed by DITHER_RUN (R272). -/
  locked : Bool
  armed : Bool
  bandLo : Nat
  bandHi : Nat
  /-- The comparator's own window: sum of normalised counts, and conversions (R275). -/
  cmpSum : Nat
  cmpCount : Nat
  /-- The window that runs is the one after a calibration, at whose end the comparator is re-armed (R279). -/
  cmpSkip : Bool
  /-- Real overload and compliance conditions present (R261). -/
  short : Bool
  driveFault : Bool
deriving DecidableEq, Repr

/-- A cell channel after a bank-die reset (R284). -/
def Chan.reset : Chan :=
  ⟨0, false, 0, false, none, 0x3FFF, false, false, none, none, none, 0, false, 0, Store.empty, Store.empty, false, false, 0, 0, 0, 0,
    false, false, false⟩

/-- State of a link (R266, R419): 0 down, 1 training, 2 up, 3 lost until a reset. -/
structure Link where
  state : Nat
  /-- Consecutive bad frames. -/
  bad : Nat
  /-- Ticks of the last failed retrains. -/
  fails : List Nat
  retrains : Nat
  crcErr : Nat
deriving DecidableEq, Repr

/-- A copy of a holder or suppressed message that waits for its partner (R269). -/
structure Copy where
  port : DieId
  kind : Nat
  elem : Nat
  update : Nat
  fields : List Nat
  /-- Tick of arrival. -/
  since : Nat
deriving DecidableEq, Repr

/-- A shadow set in use (R265). -/
structure Preload where
  port : DieId
  msg : PreloadMsg
deriving DecidableEq, Repr

/-- An urgent request in an ADC's queue (R273). -/
structure Urgent where
  chan : Nat
  update : Nat
  /-- Tick at which it was queued. -/
  at_ : Nat
deriving DecidableEq, Repr

/-- A probe slot's store and the port views' snapshots (R276). -/
structure ProbeSlot where
  slot : Nat
  store : Store
deriving DecidableEq, Repr

/-- A channel snapshot as HLD or a driver took it (BNK_CH_*): one for each control die. -/
structure ChSnap where
  chan : Nat
  store : Store
  armed : Bool
  locked : Bool
  lo : Nat
  hi : Nat
  code : Nat
deriving DecidableEq, Repr

/-- The blind engine (R282, R283). -/
structure Blind where
  /-- BLIND HOLD is in force. -/
  on : Bool
  /-- Entered by the die's own detection (R472). -/
  own : Bool
  /-- Tick of entry; the ramp runs for 1 ms from it. -/
  since : Nat
  ramping : Bool
  /-- Blind tables have been written since the last reset (R283). -/
  tables : Bool
  /-- Held output codes at entry, and feed-forward targets, by output key 4 × l + output. -/
  start : Sparse Nat
  target : Sparse Nat
  cells : Sparse BlindCell
  gateStep : Sparse Nat
  /-- B, C, W and π current, key t × 608 + l. -/
  cellTab : Sparse (List Nat)
  /-- Gate codes, key (t × 128 + gate) × 16 + step. -/
  gateTab : Sparse Nat
  offset : Int
  /-- Filtered temperature in 1/128 °C, and the tick up to which it is filtered; none before the first reading (R283). -/
  temp : Rat
  tempAt : Option Nat
  lastTick : Nat
  lastStep : Nat
deriving DecidableEq, Repr

/-- A running CONV_CAL (R279). -/
structure BankCal where
  since : Nat
  /-- 0 host command, 1 SELF-CAL, 2 block reset. -/
  by_ : Nat
deriving DecidableEq, Repr

/-- One bank die. -/
structure Bank where
  rev : Nat
  serial : Nat
  chans : Sparse Chan
  linkA : Link
  linkB : Link
  /-- Drive token (R268). -/
  holder : Option DieId
  yielded : Bool
  granted : Bool
  lastMsg : Nat
  lastGrant : Nat
  /-- Former holder and end tick of the overlap. -/
  overlap : Option (DieId × Nat)
  grants : Nat
  overlaps : Nat
  refused : Nat
  preloads : List Preload
  heaterX2 : Bool
  /-- The output stages are enabled: not in STANDBY or OFF (R37). -/
  driven : Bool
  /-- W1C bits that an event set in the present clock, by offset in the bank die's page (R19). -/
  fresh : Sparse Word32
  copies : List Copy
  mismatch : Nat
  missing : Nat
  /-- Urgent queues, by ADC. -/
  urgent : Sparse (List Urgent)
  /-- Next round-robin channel offset, by ADC. -/
  robin : Sparse Nat
  urgOvf : Nat
  discard : Nat
  cal : Option BankCal
  /-- A block reset that waits for a running calibration (R435). -/
  calWait : Bool
  calFail : Bool
  adcFail : BitVec 24
  calTime : Nat
  probes : Sparse Store
  probeTime : Nat
  probeLast : Option Nat
  probeMiss : Nat
  pmiss : Bool
  followed : Bool
  short : Sparse Bool
  drvf : Sparse Bool
  /-- Diode readings in 1/128 °C (R473). -/
  own : Int
  fabric : Int
  blind : Blind
  /-- Shutdown notice held, with its tick, and drive cut (R480). -/
  notice : Option Nat
  cut : Bool
  /-- Deal clock in 2⁻⁴⁰ ns and its increment (R111). -/
  clock : Nat
  incr : Nat
  disciplined : Bool
  snapA : ChSnap
  snapB : ChSnap
  probeSnapA : Store
  probeSnapB : Store
deriving DecidableEq, Repr

end Sys2Proof.Machine
end

