-- ==== Sys2Proof/Machine/StCal.lean ====
section
/-!
DEFINITION. Calibration images, bench sets, trims and surveys of a die (chapter 09).
-/

namespace Sys2Proof.Machine

/-- A cell's entry of a point set (R291). -/
structure CellPt where
  b : Nat
  c : Nat
  ipi : Nat
  extBar : Nat
  extCross : Nat
  lock : Nat
deriving DecidableEq, Repr

/-- A cell's entry of the cell-table set (R292). -/
structure CellTab where
  lin : List Nat
  /-- Neighbour cell ID and κ at the eight positions. -/
  nbr : List (Nat × List Int)
  fbench : Bool
  park : Bool
deriving DecidableEq, Repr

/-- An element's entry of the element table (R293). -/
structure ElemTab where
  resp : Nat
  lossA : Nat
  lossB : Nat
deriving DecidableEq, Repr

/-- A point set. -/
structure PointSet where
  serial : Nat
  cells : Sparse CellPt
  /-- Fifteen codes by gate 0 to 1,023. -/
  gates : Sparse (List Nat)
deriving DecidableEq, Repr

/-- A cell-table set. -/
structure TableSet where
  serial : Nat
  cells : Sparse CellTab
deriving DecidableEq, Repr

/-- An element table. -/
structure ElemSet where
  serial : Nat
  elems : Sparse ElemTab
deriving DecidableEq, Repr

/-- A calibration image (R285): the parts that are valid. -/
structure CalImage where
  points : Sparse PointSet
  tables : Option TableSet
  elems : Option ElemSet
deriving DecidableEq, Repr

/-- An image with no valid part. -/
def CalImage.empty : CalImage := ⟨[], none, none⟩

/-- A bench set (R83): benched cells, their park states, generation. -/
structure BenchSet where
  set : Image
  park : Image
  gen : Nat
deriving DecidableEq, Repr

/-- A bench-set change that is pending (R154, R307). -/
structure BenchPend where
  bench : BenchSet
  /-- Hands still to recompute, ascending. -/
  left : List Nat
  /-- Instant it became ready, once every image is recomputed. -/
  ready : Option Nat
  /-- The boundary's deal is being prepared, or its idle point is fixed. -/
  closed : Bool
  cmds : List Nat
deriving DecidableEq, Repr

/-- A field change of a cell's codes that awaits a boundary (R299, R303). -/
structure FieldChange where
  cell : Nat
  /-- Added to B and C at the bracketing points. -/
  dF : Int
  /-- New IPI at T_f, from a survey. -/
  ipi : Option Nat
  ready : Nat
  trim : Bool
deriving DecidableEq, Repr

/-- A running survey (R302). -/
structure Survey where
  cell : Nat
  input : Nat
  since : Nat
  /-- Actions of R302 made: of each value of the sweep its current and its conversions, then the restore. -/
  step : Nat
deriving DecidableEq, Repr

/-- Live quality figures of a cell from its last survey (R304). -/
structure Quality where
  extBar : Nat
  extCross : Nat
  lock : Nat
  at_ : Nat
deriving DecidableEq, Repr

/-- Calibration of a die. -/
structure Cal where
  active : CalImage
  staging : Option CalImage
  /-- A commit that awaits its boundary: command, instant it became ready (R296). -/
  commit : Option (Nat × Nat)
  bench : BenchSet
  pend : Option BenchPend
  /-- A further pending change after a closed one (R307). -/
  pend2 : Option BenchPend
  field : List FieldChange
  quality : Sparse Quality
  /-- Cumulative trims. -/
  trims : Sparse Int
  qfail : Image
  survey : Option Survey
  /-- Filtered fabric temperature T_f in 1/256 °C (R286), and the last covered value. -/
  tf : Rat
  covered : Rat
  lastTf : Nat
  /-- CAL_RD_DATA offset is in CAL_RD_SEL. Serial words with field changes, by record. -/
  changed : BitVec 14
deriving DecidableEq, Repr

end Sys2Proof.Machine
end

