-- ==== Sys2Proof/Machine/StDealer.lean ====
section
/-!
DEFINITION. State of the Dealer, the decks and the planner of a die (chapters 04 and 05). Instants are in units of 125 ps
(R12). On the Dummy the same fields hold its shadow (R35).
-/

namespace Sys2Proof.Machine

/-- The fields of a validated take (R121 to R123). -/
structure Take where
  /-- The command it completes (Cmd.id). -/
  cmd : Nat
  /-- Output and hand entry, in the order given. -/
  pairs : List (Nat × BitVec 16)
  /-- 0 NOW, 1 AT, 2 CADENCE. -/
  whenF : Nat
  /-- TIME and TIME_FRAC as an instant. -/
  time : Nat
  lateNow : Bool
  thermal : Bool
  pin : Bool
  unpin : Bool
  ackEarly : Bool
  /-- Cadence M, N and offset o, read at v (R125). -/
  cadM : Nat
  cadN : Nat
  cadO : Int
  /-- Validation moment (R124). -/
  v : Nat
  /-- Validation order. -/
  order : Nat
  /-- For a Trump take, the control port of its frame; the end of its frame in TAI ns (R145, R384). -/
  trump : Option (DieId × Nat)
  frameEnd : Nat
  /-- Mirror-acknowledged, or solo (R130, R425). -/
  acked : Bool
deriving DecidableEq, Repr

/-- What a deal is for. -/
inductive DealKind where
  /-- Takes of the static partition, or pinned takes. -/
  | takes
  /-- Boundary k of the current deck (R163). -/
  | boundary (k : Nat)
  /-- The blanking deal before boundary k (R169). -/
  | blank (k : Nat)
  /-- The gate deal of GO_DARK, and the input gates' deal of a class L stop: every gate to step 15 (R52, R483). -/
  | gatesDark
  /-- The output gates' deal of a class L stop (R483). -/
  | outDark
  /-- The deal of RUN from DARK (R52), and of the entry to SERVICE, whose gates stand as the hand gives them (R36). -/
  | restore
  /-- The deal of an APPLY with no deck running (R172). -/
  | partition
  /-- A port-check deal of an output's gate (R325). -/
  | portCheck (port : Nat)
deriving DecidableEq, Repr

/-- How far a deal has come. -/
inductive DealStage where
  | placed
  /-- Its preparation window has opened: hand, steps and image are composed (R129). -/
  | prepared
  /-- The preload is sent (R130). -/
  | sent
  /-- Past the 100 ns cut-off: it fires (R130). -/
  | fixed
deriving DecidableEq, Repr

/-- A pending deal. -/
structure Deal where
  num : Nat
  instant : Nat
  kind : DealKind
  takes : List Take
  thermal : Bool
  stage : DealStage
  /-- A partition set that comes in force with it (R172). -/
  part : Option Nat
  /-- What the deck gives the slotted outputs from it on (R119), and whether the next deck becomes current with it (R161,
  R162, R166). -/
  deckHand : Option Hand
  change : Bool
  hand : Hand
  image : Image
  /-- Steps of all gates after it: gate number to step, an unlisted gate is at step 15. -/
  steps : Sparse Nat
  /-- Preload number and the bank dies that have acknowledged it (R130). -/
  preload : Nat
  acks : BitVec 8
  /-- Bank dies that refused it for want of a shadow set (R131). -/
  refused : BitVec 8
deriving DecidableEq, Repr

/-- A deck descriptor as R155 lays it out, decoded. -/
structure DeckDesc where
  first : Nat
  count : Nat
  rep : Nat
  /-- START with START_FRAC, as an instant; 0: as soon as possible. -/
  start : Nat
  late : Nat
  auto : Bool
  blank : Bool
  pmaskEn : Bool
  pmaskSet : Nat
  guard_ : Nat
  epoch : Nat
  atrick : Nat
deriving DecidableEq, Repr

/-- CUR_STATE of the current deck (DCK_STATUS). -/
inductive DeckState where
  | waiting | running | finished
deriving DecidableEq, Repr

/-- An armed deck. -/
structure DeckRun where
  slot : Nat
  desc : DeckDesc
  state : DeckState
  /-- Origin O (R163). -/
  origin : Nat
  /-- The next boundary to prepare. -/
  k : Nat
  /-- The next boundary whose blanking deal is to be prepared (R169). -/
  blankK : Nat
  /-- The next boundary to pass, by its deal or without one; this next deck becomes current with a deal that is prepared. -/
  pass : Nat
  entering : Bool
  /-- The last boundary dealt, if any; the instant of the last one dealt, and of the last one prepared or dealt (R176). -/
  dealt : Option Nat
  firedAt : Nat
  dealtAt : Nat
  /-- Instant the arm was accepted (R165, R166). -/
  accepted : Nat
  /-- A pending stop: boundary at which it takes effect, DARK, and its commands (R161). -/
  stop : Option (Nat × Bool × List Nat)
  /-- A pending swap: boundary and commands (R162). -/
  swap : Option (Nat × List Nat)
  /-- It is paused until this boundary, at which it resumes (T3 of R176, R56). -/
  resume : Option Nat
deriving DecidableEq, Repr

/-- A written hand of deck memory with its trick length, image and bench generation (R150 to R153). -/
structure StoredHand where
  entries : Hand
  tlen : Nat
  image : Image
  /-- Generation of the bench set of the image; none: no usable image. -/
  gen : Option Nat
deriving DecidableEq, Repr

/-- An element whose change at a deal is still to be verified (R137). -/
structure Verify where
  elem : Nat
  deal : Nat
  /-- Earliest instant of the next reading. -/
  notBefore : Nat
  fails : Nat
  /-- The power in µW that an input gate's monitor is to read at its new step (R137). -/
  expect : Rat
  /-- Commands of the takes it belongs to (R128). -/
  cmds : List Nat
deriving DecidableEq, Repr

/-- A take dealt whose verification is not complete (R128). -/
structure DealtTake where
  take : Take
  instant : Nat
  failed : Nat
deriving DecidableEq, Repr

/-- One entry of a Bid (R329): class, output, bytes. -/
structure BidEntry where
  cls : Nat
  out : Nat
  bytes : Nat
deriving DecidableEq, Repr

/-- The last Bid of an agent in an epoch (R179). -/
structure Bid where
  epoch : Nat
  agent : Nat
  input : Nat
  /-- Line rate in bit/s. -/
  rate : Nat
  entries : List BidEntry
deriving DecidableEq, Repr

/-- A granted trick (R182, R185). -/
structure Grant where
  epoch : Nat
  trick : Nat
  agent : Nat
  input : Nat
  out : Nat
  cls : Nat
deriving DecidableEq, Repr

/-- A guard that is being watched for late light (R168 to R171). -/
structure Guard where
  /-- Boundary that closes the guard, instant; observation begins at `opens`. -/
  closes : Nat
  opens : Nat
  blanked : Bool
  /-- Inputs watched, with the output the ending trick gave each; counted ones are removed. -/
  watch : List (Nat × Nat)
  epoch : Nat
  trick : Nat
deriving DecidableEq, Repr

/-- The Dealer: the hand in force, what it is composed from, and the pending deals. -/
structure Dealer where
  /-- The hand in force (R119) and its image. -/
  hand : Hand
  image : Image
  /-- Steps of the gates as dealt; an unlisted gate is at step 15. -/
  steps : Sparse Nat
  /-- Static entries, pinned outputs and their entries, the deck hand's entries (R119). -/
  static : Hand
  pins : PortMask
  pinned : Hand
  deckHand : Hand
  /-- Outputs in the slotted partition, in force (R172). -/
  part : PortMask
  /-- A pending APPLY: its set, and the instant from which a boundary takes it up (R172). -/
  applyPend : Option (Nat × Nat)
  pending : List Deal
  nextDeal : Nat
  nextPreload : Nat
  nextOrder : Nat
  /-- The Dealer is stopped by GO_DARK (R52). -/
  stopped : Bool
  /-- The last instant dealt, and the lower limit of R96 after a backward step. -/
  last : Nat
  notBefore : Nat
  verify : List Verify
  dealtTakes : List DealtTake
deriving DecidableEq, Repr

/-- Deck memory, image memory and the armed decks. -/
structure Decks where
  /-- Written hands, by number (R150, R151). -/
  hands : Sparse StoredHand
  /-- Deck descriptors written by DECK_ARM, 32 bytes each (R155). -/
  descs : Sparse (List Byte)
  current : Option DeckRun
  next : Option DeckRun
  /-- Late-light counts by input (R171). -/
  late : Sparse Nat
  guards : List Guard
deriving DecidableEq, Repr

/-- A planning under way: its epoch, the tick it started, and the class weights and CREDIT_MAX it started with (R181). -/
structure Planning where
  epoch : Nat
  since : Nat
  weights : List Nat
  creditMax : Nat
deriving DecidableEq, Repr

/-- The planner (R178 to R185). -/
structure Planner where
  /-- Credits CR(i, j) under key i × 512 + j. -/
  credits : Sparse Nat
  bids : List Bid
  planning : Option Planning
  /-- Epochs planned, with their grants. -/
  planned : List (Nat × List Grant)
  /-- The first epoch that may still be planned. -/
  upTo : Nat
deriving DecidableEq, Repr

/-- What a routing engine works on (R188). -/
inductive RouteTask where
  /-- The routing of a deal. -/
  | deal (num : Nat)
  /-- The routing of a planned hand. -/
  | hand (epoch trick : Nat)
  /-- The matching of an epoch's tricks, as one chain. -/
  | matching (epoch : Nat)
  /-- The image of a stored hand computed anew (R154). -/
  | image (hand : Nat)
deriving DecidableEq, Repr

/-- Planner engines 0 to 30 and the Trump router (R187, R188). -/
structure Routers where
  /-- Each routing engine's deque, head first, and the task it runs. -/
  deques : Sparse (List RouteTask)
  running : Sparse RouteTask
  /-- Tasks that wait for the Trump router, and the one it runs. -/
  trumpWait : List RouteTask
  trumpRun : Option RouteTask
  /-- Engines that failed self-test. -/
  fence : BitVec 32
deriving DecidableEq, Repr

end Sys2Proof.Machine
end

