-- ==== Sys2Proof/Machine/StEngine.lean ====
section
/-!
DEFINITION. State of the hold engines of a die (chapter 07): tasks, deques, sequencers, patch banks.
-/

namespace Sys2Proof.Machine

/-- A micro-PC: address and space bit (R243). -/
structure MicroPc where
  addr : Nat
  patch : Bool
deriving DecidableEq, Repr

/-- What WAIT saves of a task (R244). -/
structure Parked where
  pc : MicroPc
  stack : List MicroPc
  regs : Vector Nat 8
  cond : Nat
  inv : Bool
  /-- Tick at which a timed wait ends; 0 when it waits for a condition. -/
  until_ : Nat
deriving DecidableEq, Repr

/-- A task for one element (R230 to R232). -/
structure Task where
  elem : Nat
  type : Nat
  prio : Nat
  /-- Tick from which it is ready. -/
  release : Nat
  /-- Patch bank it runs under, once started (R253). -/
  bank : Option Nat
  parked : Option Parked
deriving DecidableEq, Repr

/-- One hold engine. -/
structure Engine where
  /-- 0 halted, 1 running, 2 dozing, 3 fenced. -/
  state : Nat
  fenceCause : Nat
  faultCause : Nat
  faultPc : MicroPc
  defer : Nat
  /-- Ticks of the microcode faults of the last second. -/
  faults : List Nat
  tasks : Nat
  /-- Deque: tail last; the five sub-deques are the entries of each priority. -/
  deque : List Task
  running : Option Task
  /-- A cause recorded for the running task's element: type and priority (R231). -/
  merged : Option (Nat × Nat)
  sliceAt : Nat
  pc : MicroPc
  stack : List MicroPc
  /-- W0 to W7, 48 bits each. -/
  regs : Vector Nat 8
  stA : Int
  stB : Int
  stX : Int
  latch : Nat
  zero : Bool
  neg : Bool
  carry : Bool
  sat : Bool
  accSum : Nat
  accCount : Nat
  accMin : Nat
  accMax : Nat
  strobed : Bool
  /-- Table point pair of the last LD_CAL. -/
  calPair : Int × Int
  lastTest : Nat
  testing : Option Nat
  fenceReq : Bool
  /-- Element of the task last dispatched, and the patch bank it runs under until the next DISPATCH (R253). -/
  elem : Nat
  bank : Nat
deriving DecidableEq, Repr

/-- An engine after its die's reset. -/
def Engine.reset : Engine :=
  ⟨0, 0, 0, ⟨0, false⟩, 0, [], 0, [], none, none, 0, ⟨0, false⟩, [], Vector.replicate 8 0, 0, 0, 0, 0,
    false, false, false, false, 0, 0, 0, 0, false, (0, 0), 0, none, false, 0, 0⟩

/-- A patch bank: match registers (ROM address, patch word), words, serial (R250, R251). -/
structure PatchBank where
  matches_ : List (Nat × Nat)
  words : List (BitVec 128)
  serial : Nat
deriving DecidableEq, Repr

/-- The hold engines of a die and their patch store. -/
structure Engines where
  eng : Sparse Engine
  /-- Tasks whose release time has not come, and tasks that WAIT has parked (R232, R244). -/
  armed : List Task
  parked : List Task
  /-- Clusters in DOZE. -/
  doze : BitVec 8
  /-- Patch banks 0 and 1; the active one. -/
  bank0 : PatchBank
  bank1 : PatchBank
  active : Nat
  /-- Bytes staged through UCS_PATCH_DATA. -/
  staged : Memory
  /-- Length of the image staged, whether it is still being loaded, and an activation asked for that waits (R252, R254). -/
  stagedLen : Nat
  loading : Bool
  asked : Bool
  /-- Tick at which verification began. -/
  verifying : Option Nat
  /-- Words of shared loop-state memory that ST_STATE has stored, by element × 2048 + offset (R249). -/
  words : Sparse Nat
deriving DecidableEq, Repr

end Sys2Proof.Machine
end

