-- ==== Sys2Proof/Machine/StFault.lean ====
section
/-!
DEFINITION. State of the fault collector and of escalation beside their registers (chapters 14 and 16).
-/

namespace Sys2Proof.Machine

/-- The open window of a fault source (R469): tick of its end. COUNT stands in FLT_SRC_s. -/
structure FltWin where
  source : Nat
  closes : Nat
deriving DecidableEq, Repr

/-- The recovery domains of R435. -/
inductive Domain where
  | element | bank | link | die | module
deriving DecidableEq, Repr

/-- An instance of a recovery domain that has a level (R436). -/
structure Esc where
  dom : Domain
  inst : Nat
  level : Nat
  /-- Tick at which its window ends. -/
  ends : Nat
  /-- Source and stamp (2⁻¹⁶ ns) of its last fault, for the one-occurrence rule of R437. -/
  lastSrc : Nat
  lastStamp : Nat
  lastDie : DieId
deriving DecidableEq, Repr

/-- An occurrence that waits for its reaction (R468). -/
structure FltOcc where
  source : Nat
  /-- When it occurred, on the clock where it did (R114), in 2⁻¹⁶ ns. -/
  stamp : Nat
  /-- Recovery-domain instance the event concerns. -/
  inst : Nat
deriving DecidableEq, Repr

/-- The fault collector of a die. -/
structure Flt where
  /-- Real conditions of level sources present, and real events seen since the last clear (R465). -/
  raw : BitVec 256
  windows : List FltWin
  /-- Sources whose last reaction had code 2 or higher (R470). -/
  pin : BitVec 256
  promo : BitVec 256
  occ : List FltOcc
  /-- Conditions of the replacement request, as the bits of FLT_REPL (R471). -/
  repl : BitVec 8
deriving DecidableEq, Repr

end Sys2Proof.Machine
end

