-- ==== Sys2Proof/Machine/StHold.lean ====
section
/-!
DEFINITION. State of the hold loops of a die (chapter 06), element by element, and of a running DITHER_RUN.
-/

namespace Sys2Proof.Machine

/-- A stored loop stage (R201 to R203): mantissas of value A and value B and the shared exponent. -/
structure LoopVal where
  a : Int
  b : Int
  x : Int
deriving DecidableEq, Repr

/-- Which half-cycle of the dither an element is in (R192, R193). -/
inductive Half where
  | none | plus | minus
deriving DecidableEq, Repr

/-- Outputs of an element that move over 1 ms (R55, R207, R209): heater value, PIN current in ×1 LSB and gate code at the start and at the
end, and the tick of the start. -/
structure Ramp where
  htr : Nat × Nat
  pin : Nat × Nat
  gate : Nat × Nat
  since : Nat
deriving DecidableEq, Repr

/-- What the hold engines keep of one element. -/
structure Elem where
  /-- 0 AUTO, 1 MANUAL, 2 BLIND, 3 OFF (R204), and a mode change that waits for the next loop strobe (R207). -/
  mode : Nat
  modePend : Option (Nat × Bool)
  /-- Command that waits for the mode change. -/
  modeCmd : Nat
  fallback : Bool
  frozen : Bool
  lost : Bool
  implausible : Bool
  miss : Bool
  sat : Bool
  /-- Ticks at which MISS and SAT were last set (R19). -/
  missAt : Option Nat
  satAt : Option Nat
  /-- A cell classed as not balanced (R72): while no light has been measured every cell is balanced. -/
  unbalanced : Bool
  active : Bool
  /-- Effective periods left in the burst (R211); it is the burst of a deal (R230). -/
  burst : Nat
  dealt : Bool
  /-- Carries PIN current, hand-off in progress, deferred (R142). -/
  onPin : Bool
  handoff : Bool
  deferred : Bool
  /-- Phase the heater holds above B, in units of π: 0 at B, 1 at C, 2 at W, between them where a deal stopped a hand-off
  (R141, R143); the target of a hand-off; the PIN shifter's phase in units of π outside a hand-off. -/
  phi : Rat
  target : Nat
  pinPhi : Rat
  /-- State bit of the cell; step of the gate. -/
  cross : Bool
  step : Nat
  /-- Tick since which the cell holds its state on PIN (R139); start tick of a hand-off. -/
  pinSince : Nat
  handSince : Nat
  peak : Bool
  missRun : Nat
  plausRun : Nat
  retries : Nat
  missCnt : Nat
  /-- Consecutive windows with min = max, and consecutive evaluations below the floor (R220). -/
  frozenRun : Nat
  lostRun : Nat
  /-- Consecutive in-band evaluations (R219). -/
  inRun : Nat
  /-- The next window is discarded (R193, R218, R224). -/
  discard : Bool
  half : Half
  /-- Tick of the last dither edge. -/
  edgeAt : Nat
  /-- The settle delay of the half-cycle has run and its store was restarted (R193). -/
  settled : Bool
  mPlus : Option Rat
  mMinus : Option Rat
  /-- Last window mean W in normalised counts. -/
  lastW : Rat
  /-- Tick of the last update and of the fall into fallback. -/
  lastUpd : Nat
  fellAt : Nat
  /-- Manual codes: heater, PIN, ×2, gate. -/
  manHtr : Nat
  manPin : Nat
  manX2 : Bool
  manGate : Nat
  meas : LoopVal
  err : LoopVal
  prop : LoopVal
  int : LoopVal
  ff : LoopVal
  out : LoopVal
  /-- Deal sequence number last seen, and the update number of the next write (R265, R269). -/
  dealSeq : Nat
  update : Nat
  /-- Codes last computed, without dither: heater value, PIN current in ×1 LSB, gate code. -/
  uHtr : Nat
  uPin : Nat
  uGate : Nat
  /-- Codes last strobed, in the same form. -/
  dHtr : Nat
  dPin : Nat
  dGate : Nat
  /-- A move of the outputs over 1 ms that is under way. -/
  ramp : Option Ramp
  /-- Tick at which the effective period of a retry began (R222). -/
  retry : Option Nat
  /-- Tick since which a hand-off's ramp is held, by a calibration (R218) or a DITHER_RUN (R226). -/
  heldAt : Option Nat
  /-- The controlled output stood at its upper, its lower limit (R195). -/
  atMax : Bool
  atMin : Bool
  /-- |e| of the last update, and the number of the last refresh made (R212, R213). -/
  lastErr : Rat
  refIdx : Nat
deriving DecidableEq, Repr

/-- A stage nothing has been stored in, and the stage of two zeros (R202). -/
def LoopVal.unset : LoopVal := ⟨0, 0, 0⟩
def LoopVal.zero : LoopVal := ⟨0, 0, -32⟩

/-- An element after power-on (R205). -/
def Elem.reset : Elem :=
  { mode := 0, modePend := none, modeCmd := 0, fallback := false, frozen := false, lost := false, implausible := false,
    miss := false, sat := false, missAt := none, satAt := none, unbalanced := false, active := false, burst := 0, dealt := false, onPin := false, handoff := false,
    deferred := false, phi := 0, target := 0, pinPhi := 0, cross := false, step := 15, pinSince := 0, handSince := 0,
    peak := false, missRun := 0, plausRun := 0, retries := 0, missCnt := 0, frozenRun := 0, lostRun := 0, inRun := 0,
    discard := false, half := .none, edgeAt := 0, settled := false, mPlus := none, mMinus := none, lastW := 0, lastUpd := 0,
    fellAt := 0, manHtr := 0, manPin := 0, manX2 := false, manGate := 0, meas := .unset, err := .unset, prop := .unset,
    int := .unset, ff := .unset, out := .unset, dealSeq := 0, update := 0, uHtr := 0, uPin := 0, uGate := 0x3FFF,
    dHtr := 0, dPin := 0, dGate := 0x3FFF, ramp := none, retry := none, heldAt := none,
    atMax := false, atMin := false, lastErr := 0, refIdx := 0 }

/-- What LOOP_SET and HLD_EL_CTRL ask of elements (R206): a mode if one is named, KEEP, CLEAR, the manual codes, and the command
to complete (0: none). -/
structure LoopReq where
  mode : Option Nat
  keep : Bool
  clear : Bool
  htr : Nat
  pin : Nat
  x2 : Bool
  gate : Nat
  cmd : Nat
deriving DecidableEq, Repr

/-- A target of a running DITHER_RUN: the window it is in, the tick that window began, whether it is extended, and whether a calibration of
the bank die overlaps it (R227, R229). -/
structure DitherTarget where
  elem : Nat
  win : Nat
  since : Nat
  ext : Bool
  stl : Bool
deriving DecidableEq, Repr

/-- A running DITHER_RUN (R225 to R229). -/
structure DitherRun where
  cmd : Nat
  fn : Nat
  bank : Nat
  first : Nat
  count : Nat
  stim : Nat
  act : Nat
  amp : Int
  p1 : Nat
  p2 : Nat
  window : Nat
  nwin : Nat
  pre : Nat
  /-- Targets still running. -/
  left : List DitherTarget
  /-- Stimulus value and PRBS register now; microseconds since the stimulus began. -/
  value : Int
  prbs : Nat
  elapsed : Nat
  clamped : Bool
  /-- Tick of the start, of the last stimulus update; whether the stimulus has begun. -/
  since : Nat
  lastStim : Nat
  begun : Bool
  /-- Tick of the last urgent requests for the targets (R227). -/
  lastUrgent : Nat
deriving DecidableEq, Repr

end Sys2Proof.Machine
end

