-- ==== Sys2Proof/Machine/StHost.lean ====
section
/-!
DEFINITION. State of the host interface (chapter 13): rings, fetched descriptors, commands in flight, host reads, the
interrupt state of a function; and what the module puts on its outputs.
-/

namespace Sys2Proof.Machine

/-- Where a reply or a completion of a request goes. -/
inductive Origin where
  /-- A descriptor of a command ring: function, ring, TAG, DFLAGS, opcode and fetch count (R399, R420). -/
  | ring (fn ring tag dflags opcode fetch : Nat)
  /-- A VSP message: how it came, agent, sequence number, class of the reply, queue and colour of the reply (R312, R332,
  R372). -/
  | vsp (src : VspFrom) (agent seq cls : Nat) (queue : Option Nat) (yellow : Bool)
  /-- The module itself, or the legacy part of a row that completes nothing. -/
  | none
deriving DecidableEq, Repr

/-- One read of host memory that a command or an engine has outstanding (R402). -/
structure HostRead where
  id : Nat
  fn : Nat
  addr : Nat
  len : Nat
  /-- 0 to 7: a descriptor of that command ring, its fetch count in `cmd`; 8: data of the command numbered `cmd`. -/
  ring : Nat
  cmd : Nat
deriving DecidableEq, Repr

/-- What a command in flight waits for. -/
inductive Stage where
  /-- Host data still to come (R402). -/
  | reading
  /-- FENCE: earlier descriptors of its ring are not complete (R399). -/
  | fenced
  /-- The mirror acknowledgement of record `seq`, sent at tick `since` (R34). -/
  | acking (seq since : Nat)
  /-- Its deal: the placed deal's number (R128). -/
  | placed (deal : Nat)
  /-- A deck boundary (R161, R162), a take that waits behind another (R126), or the like. -/
  | waiting
  /-- CONV_CAL at the bank dies still to answer, and those that failed (R278). -/
  | convCal (left failed : BitVec 8)
  /-- A running DITHER_RUN (R226). -/
  | dither
  /-- Full fabric service on the new Declarer (R408). -/
  | takeover
deriving DecidableEq, Repr

/-- A command in flight: accepted by validation, not yet complete. -/
structure Cmd where
  id : Nat
  origin : Origin
  /-- The 64-byte descriptor, or the VSP TAKE turned into the fields of a take. -/
  desc : List Byte
  /-- Host data read so far, in address order (R402). -/
  data : List Byte
  stage : Stage
  /-- It has begun to change state (R418). -/
  begun : Bool
  /-- Its function was reset meanwhile: no completion is written (R418). -/
  orphan : Bool
  /-- Result so far: deal instant or count, and AUX. -/
  result : Nat
  aux : Nat
  /-- TAI ns at the completion of validation, the v of R125 (in 125 ps units). -/
  v : Nat
  /-- Taken over from a former Declarer (R432). -/
  adopted : Bool
deriving DecidableEq, Repr

/-- One ring of one function (R393 to R398, R410, R417). -/
structure Ring where
  modCnt : Word32
  drvCnt : Word32
  /-- Descriptors issued for reading but not yet fetched. -/
  issued : Nat
  /-- Fetched descriptors that wait for validation, oldest first: fetch count, time of fetching in TAI ns, bytes. -/
  fetched : List (Nat × Nat × List Byte)
  /-- Interrupt coalescing: entries not yet signalled, and the tick of the first. -/
  unsignalled : Nat
  firstAt : Nat
  /-- ESEQ or TSEQ of the next record. -/
  seqNo : Word32
  lostFlag : Bool
deriving DecidableEq, Repr

/-- A telemetry subscription (R407). -/
structure Sub where
  id : Nat
  ttype : Nat
  ports : Nat
  queues : Nat
deriving DecidableEq, Repr

/-- What a function of a die holds beside its registers. -/
structure Fn where
  rings : Sparse Ring
  subs : List Sub
  /-- Polling state: active, and the tick of the last command-ring DRV change (R396). -/
  active : Bool
  lastChange : Nat
  /-- MSI-X table mask bits and pending-bit array (R390, R417). -/
  msixMask : BitVec 64
  msixPending : BitVec 64
  /-- Captures of 64-bit registers (R15): the high word under the BAR0 offset of the low word, a companion register's under its own. -/
  captures : Sparse Word32
  /-- Completions that wait for room in a full completion ring (R395): ring, bytes with PHASE 0, IRQ. -/
  heldCpl : List (Nat × List Byte × Bool)
deriving DecidableEq, Repr

/-- What the module sends outside itself. -/
inductive Out where
  /-- Bytes written to host memory. -/
  | hostWrite (die : DieId) (fn addr : Nat) (bytes : List Byte)
  | msix (die : DieId) (fn vec : Nat)
  /-- A frame queued and sent on a control port, without its FCS. -/
  | frame (die : DieId) (port queue : Nat) (bytes : List Byte)
  /-- A fragment boundary of a preemptable frame: bytes sent so far (R375). -/
  | fragment (die : DieId) (port : Nat) (sent : Nat)
  /-- A message on a bank link: kind, bank die and fields. -/
  | bank (die : DieId) (bank : Nat) (kind : Nat) (fields : List Nat)
  | bankDrive (die : DieId) (bank : Nat) (msg : DriveMsg)
  | bankPreload (die : DieId) (bank : Nat) (msg : PreloadMsg)
  /-- A bank die's message to a link port. -/
  | fromBank (bank : Nat) (port : DieId) (kind : Nat) (fields : List Nat)
  /-- A safety telegram (chapter 15). -/
  | zsl (net : DieId) (bytes : List Byte)
  /-- A pulse on an output pin: 0 PPS_OUT, 1 + k SYNC_OUT[k]; start and width in ns, active low (R108). -/
  | pulse (pin : Nat) (start : Int) (width : Nat) (low : Bool)
  /-- A response of the bus matrix. -/
  | matrix (die : DieId) (master id : Nat) (err : Bool) (data : List Byte)
  /-- A trap to the management cores (R467). -/
  | trap (die : DieId) (src : Nat)
  /-- An answer on the service domain. -/
  | service (die : DieId) (bytes : List Byte)
  /-- The value a register read returns (R15): function, offset, length in bytes. -/
  | regRead (die : DieId) (fn off len value : Nat)
  /-- The bytes a read through PF1 BAR2 returns (R14, R151). -/
  | bar2Read (die : DieId) (off : Nat) (bytes : List Byte)
  /-- A heartbeat carrying RED_MODE (R422). -/
  | heartbeat (die : DieId) (mode : Word32)
deriving DecidableEq, Repr

end Sys2Proof.Machine
end

