-- ==== Sys2Proof/Machine/StNet.lean ====
section
/-!
DEFINITION. State of the control ports of a die (chapters 10 to 12): rule CAM, endpoint tables, recirculation, policers,
egress queues, gate lists, and the VSP agent registry.
-/

namespace Sys2Proof.Machine

/-- A rule-CAM entry (R344). -/
structure Rule where
  key : BitVec 320
  mask : BitVec 320
  action : BitVec 64
  valid : Bool
  hits : Nat
deriving DecidableEq, Repr

/-- An entry of the endpoint table (R354). Its slot is the key of the table: SUB × 131,072 + bucket × 4 + way. -/
structure EptEntry where
  key : BitVec 64
  data0 : Word32
  lastSeen : Word32
  flags : Byte
  /-- Moves within the TAI second `movesSec` (R359). -/
  moves : Nat
  movesSec : Nat
  /-- Tick at which a flap LOCK ends; 0 when none. -/
  lockEnd : Nat
deriving DecidableEq, Repr

/-- A learn request (R357). -/
structure Learn where
  key : BitVec 64
  cport : Nat
  /-- Receive stamp, ns. -/
  stamp : Nat
deriving DecidableEq, Repr

/-- What pass 1 resolved for a frame (R345, R346). -/
structure Resolved where
  steer : Nat
  hqueue : Nat
  recirc : Bool
  p2sel : Nat
  learn : Bool
  meta_ : Option Nat
  cls : Nat
  colour : Nat
  queue : Option Nat
  /-- The frame is on the Trump path: its pass-1 entry set CLASS 7 with LEG_EN 1 and STEER 3 (R350), and it conformed (R383). -/
  byRule : Bool
  hit : Bool
deriving DecidableEq, Repr

/-- What the parser read of a frame (R339 to R343). -/
structure Parsed where
  /-- HCLASS of the key. -/
  hclass : Nat
  /-- Tags in order: TPID and TCI. -/
  tags : List (BitVec 16 × BitVec 16)
  etype : Nat
  proto : Nat
  tos : Nat
  /-- IP source and destination, 4 or 16 bytes; empty without an IP header. -/
  src : List Byte
  dst : List Byte
  sport : Nat
  dport : Nat
  /-- Where the message after the last header parsed starts; a PTP, VSP or ZSL message starts here itself. -/
  off : Nat
deriving DecidableEq, Repr

/-- A frame between pass 1 and its consumer. -/
structure Inflight where
  frame : RxFrame
  port : Nat
  /-- Receive stamp in 2⁻¹⁶ ns, corrected (R99). -/
  stamp : Nat
  parsed : Parsed
  key : BitVec 320
  res : Resolved
  bank : Nat
  epoch : Nat
deriving DecidableEq, Repr

/-- One parser pipeline (R337). -/
structure Pipe where
  /-- Rules, key bank × 4096 + number. -/
  rules : Sparse Rule
  activeBank : Nat
  epoch : Nat
  /-- Recirculation FIFO (R348). -/
  fifo : List Inflight
  ept : Sparse EptEntry
  learns : List Learn
deriving DecidableEq, Repr

/-- A frame in an egress queue. -/
structure TxFrame where
  /-- Without FCS. -/
  bytes : List Byte
  yellow : Bool
  /-- Clock time at which it entered the queue, ns. -/
  entered : Nat
  /-- Receive stamp in 2⁻¹⁶ ns and the die's port, for TC mode (R102). -/
  rx : Option Nat
  /-- Trump frame in flight until it leaves (R384). -/
  trump : Bool
deriving DecidableEq, Repr

/-- Samples of a queue's record in progress, and the last record (R387, R388). -/
structure QSample where
  n : Nat
  dMin : Nat
  dMax : Nat
  dSum : Nat
  hMin : Nat
  hMax : Nat
  hSum : Nat
  drops : Nat
  sent : Nat
  /-- Last record: depth min, max, mean and delay min, max, mean. -/
  last : List Nat
deriving DecidableEq, Repr

/-- One egress queue. -/
structure Queue where
  frames : List TxFrame
  /-- Credit of the shaper in 1/1000 bits, and the time it was last brought up to, in ps since power-on (R377). -/
  credit : Int
  creditAt : Nat
  sample : QSample
deriving DecidableEq, Repr

/-- An egress gate list (R378 to R380): entries are GATES and INTERVAL. -/
structure GateList where
  entries : List (BitVec 32 × Nat)
  cycle : Nat
  base : Nat
  /-- Time at which it comes into force, and the command to complete. -/
  start : Nat
  cmd : Nat
  /-- After a forward step of the clock: the GATES that stay in force, and the time in ps at which the list resumes (R97). -/
  kept : Option (BitVec 32 × Nat)
deriving DecidableEq, Repr

/-- The frame on the wire of a port (R374, R375). -/
structure Sending where
  queue : Nat
  frame : TxFrame
  /-- When it started (or resumed), in ps since power-on; bytes already sent in earlier fragments. -/
  since : Nat
  sent : Nat
deriving DecidableEq, Repr

/-- One control port. -/
structure CPort where
  queues : Sparse Queue
  /-- The queue after the one served last, by PRIO (R374). -/
  lastServed : Sparse Nat
  sending : Option Sending
  /-- An interrupted preemptable frame (R375). -/
  held : Option Sending
  list : Option GateList
  pendList : Option GateList
  /-- Time at which STOP takes effect, TAI ns, and its command (R380). -/
  stopAt : Option (Nat × Nat)
  entry : Nat
  /-- Trump policer bucket in 1/20,000 bytes, tick brought up to, frames in flight (R383). -/
  bucket : Int
  bucketAt : Nat
  inflight : Nat
  /-- Tick of the last uncorrectable codeword or FCS error (R370). -/
  lastErr : Option Nat
deriving DecidableEq, Repr

/-- A two-bucket marker (R385): tokens in 1/8,000,000 bytes, tick brought up to. -/
structure Marker where
  c : Int
  e : Int
  at_ : Nat
deriving DecidableEq, Repr

/-- An agent of the registry (R322, R323). -/
structure Agent where
  id : Nat
  mac : BitVec 48
  vlan : Nat
  domain : Nat
  port : Nat
  rate : Nat
  maxClass : Nat
  slotted : Bool
  helloMs : Nat
  name : List Byte
  verified : Bool
  take : Bool
  trump : Bool
  /-- Highest sequence accepted, and which of L − 15 to L were (R318); none before the first message. -/
  seqL : Option Nat
  seqSeen : BitVec 16
  /-- The module's next number to it (R320). -/
  txSeq : Nat
  /-- Recorded replies: sequence of the message, reply type and body (R319). -/
  replies : List (Nat × Nat × List Byte)
  /-- Last tick a valid message arrived (R324). -/
  lastAt : Nat
  /-- How its last valid message came (R312). -/
  src : VspFrom
  /-- Control port of its last message on CD0 and on CD1 (R361). -/
  portA : Option Nat
  portB : Option Nat
  mTake : Marker
  mBid : Marker
deriving DecidableEq, Repr

/-- A running port check (R325 to R328). -/
structure PortCheck where
  port : Nat
  id : Nat
  /-- W0, S and W1 in ns, as placed. -/
  w0 : Nat
  s : Nat
  w1 : Nat
  /-- The input-gate monitor has reported light absent between W0 and S. -/
  dark : Bool
  /-- Agents still to answer. -/
  agents : List Nat
deriving DecidableEq, Repr

/-- The VSP engine and the registry, mirrored (R322). -/
structure Vsp where
  agents : List Agent
  checks : List PortCheck
  nextCheck : Nat
  /-- Earliest tick of the next check of a port after a failure (R328). -/
  retryAt : Sparse Nat
deriving DecidableEq, Repr

/-- A RULE_COMMIT or TABLE_OP that waits for the peer's half, or for a bank to drain (R352, R364). -/
structure RuleWait where
  cmd : Nat
  /-- Pipelines, and the bank, whose drain it waits for. -/
  pipes : Nat
  bank : Nat
  drain : Bool
  /-- The peer's half is still to come. -/
  peer : Bool
  /-- It is the peer's half of a command of the other die. -/
  remote : Bool
  /-- Status it will complete with. -/
  status : Nat
deriving DecidableEq, Repr

/-- The control-port side of a die. -/
structure Net where
  pipe0 : Pipe
  pipe1 : Pipe
  ports : Sparse CPort
  /-- Exception queue of the management cores (R347). -/
  exception : List Inflight
  /-- Frames for the time unit. -/
  ptp : List Inflight
  ruleWait : List RuleWait
  /-- A command-port operation in progress: operation and tick it started (R363). -/
  eptBusy : Option Nat
  /-- Bidders waiting at takeover: VSP messages queued (R430). -/
  vspQueue : List VspRx
  /-- TMG_SMP snapshot: six words. -/
  smpSnap : List Nat
  /-- The rule entry last read, by pipeline and slot (PRS_RULE_HITS). -/
  ruleSeen : Option (Nat × Nat)
deriving DecidableEq, Repr

end Sys2Proof.Machine
end

