-- ==== Sys2Proof/Machine/StSafe.lean ====
section
/-!
DEFINITION. State of a safety unit (chapter 15), of a die's thermal manager (chapter 17), of the service lock (chapter 19),
of the bus matrix and of the always-on domain (chapter 18).
-/

namespace Sys2Proof.Machine

/-- State of a guard zone (R447). -/
inductive ZoneState where
  | untested | ready | tripped
deriving DecidableEq, Repr

/-- A guard zone as one unit holds it. -/
structure Zone where
  state : ZoneState
  /-- Filtered channels A and B closed, as the unit knows them. -/
  chA : Bool
  chB : Bool
  seenA : Bool
  seenB : Bool
  disc : Bool
  trips : Nat
  /-- Tick since which both channels are closed together, since which they differ, and since which no trip cause is present. -/
  closedSince : Option Nat
  differSince : Option Nat
  clearSince : Option Nat
  /-- This unit has decided READY (R442). -/
  wantReady : Bool
  /-- The zone has tripped and has not become READY since (R59). -/
  unreset : Bool
deriving DecidableEq, Repr

/-- A permit output as one unit holds it (R450, R451). -/
structure Permit where
  granted : Bool
  latched : Bool
  want : Bool
deriving DecidableEq, Repr

/-- A copy of a CONTROL telegram whose twin has not arrived (R455). -/
structure SdCopy where
  net : DieId
  bytes : List Byte
  at_ : Nat
deriving DecidableEq, Repr

/-- S-DUAL as a unit holds it (R455). -/
structure SDual where
  safe : Bool
  /-- Last accepted SEQ and its bytes. -/
  seq : Option Nat
  bytes : List Byte
  waiting : List SdCopy
  lastAt : Nat
  watchdog : Nat
  copies : Nat
  remoteOpen : Nat
  resetBits : Nat
  permitReq : Nat
  estop : Bool
  /-- Where the last accepted copies came from on network A and B (R456). -/
  fromA : Option VspFrom
  fromB : Option VspFrom
  txSeq : Nat
deriving DecidableEq, Repr

/-- An S-BLACK connection (R457): configuration words and state. -/
structure Conn where
  cfg : Word32
  id : Word32
  addr : Word64
  /-- 0 off, 1 starting, 2 up, 3 lost. -/
  state : Nat
  shut : Bool
  losses : Nat
  txSeq : Nat
  rxSeq : Option Nat
  rxBytes : List Byte
  lastAt : Nat
  watchdog : Nat
  /-- The connection's input is held shut on loss. -/
  inputShut : Bool
deriving DecidableEq, Repr

/-- A safety unit (R440, R441). Its configuration stands in the LGD registers of its die, and for the connections here. -/
structure Lgd where
  zones : Vector Zone 4
  /-- Zone E is not READY; tick since which SAFE_ESTOP_N is high, none while it is low; decided READY. -/
  eTripped : Bool
  eClear : Option Nat
  eWant : Bool
  permits : Vector Permit 8
  /-- Self-test passed; the peer's oscillator is found sound; the cross-link is up. -/
  ok : Bool
  peerOk : Bool
  xlink : Bool
  lastXchg : Nat
  cfgMatch : Bool
  conns : Sparse Conn
  sd : SDual
  /-- Tick at which a save to boot flash began. -/
  saving : Option Nat
  /-- The saved configuration has been loaded since the unit's reset (R444). -/
  loaded : Bool
deriving DecidableEq, Repr

/-- A temperature path (R474). -/
structure SPath where
  last : Option Int
  bad : Nat
  failed : Bool
deriving DecidableEq, Repr

/-- A sensor (R477): level, and consecutive readings 3 °C below its threshold. -/
structure Sensor where
  level : Nat
  below : Nat
  failed : Bool
deriving DecidableEq, Repr

/-- A thermal shutdown in progress or held (R480 to R485). -/
structure Shutdown where
  /-- Carried out as class H. -/
  classH : Bool
  since : Nat
  done : Bool
  sensor : Nat
  reading : Int
deriving DecidableEq, Repr

/-- A die's thermal manager. -/
structure Thermal where
  /-- Paths: 0 fabric by BD0, 1 fabric by BD4, 2 to 9 bank dies, 10 and 11 control dies. -/
  paths : Vector SPath 12
  sensors : Vector Sensor 11
  level : Nat
  levelSensor : Nat
  frozen : Bool
  /-- O_f and D_b in 1/128 °C (R475, R282). -/
  oF : Rat
  dB : Vector Rat 8
  classH : Bool
  shutdown : Option Shutdown
  /-- Consecutive estimates over, and within, the limits (R482). -/
  above : Nat
  within : Nat
  budget : Bool
  power : Nat
  lit : Nat
deriving DecidableEq, Repr

/-- The service lock as a die holds it (chapter 19). -/
structure Service where
  level : Nat
  result : Nat
  fails : Nat
  nonce : Option (BitVec 128)
  nonceAt : Nat
  /-- Operation running in the unlock engine, and the tick it started. -/
  busy : Option (Nat × Nat)
  lastAccess : Nat
  /-- Lockout end in ticks; none: no lockout. -/
  lockout : Option Nat
  failed : Nat
  opened : Nat
  /-- SVC_RESP and SVC_PW as written. -/
  resp : List Byte
  pw : List Byte
deriving DecidableEq, Repr

/-- A transaction of the bus matrix that waits or is outstanding (R509 to R512). -/
structure Txn where
  req : MtxReq
  target : Nat
deriving DecidableEq, Repr

/-- A master of the matrix. -/
structure Master where
  waiting : List MtxReq
  outstanding : List Txn
  /-- Exclusive monitor: granule address (R510). -/
  monitor : Option Nat
  /-- In reset since that tick; draining. -/
  resetAt : Option Nat
  draining : Bool
deriving DecidableEq, Repr

/-- The bus matrix of a die. -/
structure Matrix where
  masters : Vector Master 8
  sram : Memory
  /-- Contents of the table port and of the NVM control page as written. -/
  table : Memory
  nvmCtl : Memory
  stuck : BitVec 10
deriving DecidableEq, Repr

/-- The always-on domain of a die (R501). -/
structure AlwaysOn where
  /-- Tick of power-on. -/
  since : Nat
  countFault : Nat
  countSoft : Nat
  countCd : Nat
  countMod : Nat
  heldS : Nat
  standbyS : Nat
  failedSlots : BitVec 2
  snap : BitVec 256
  snapKind : Nat
  snapAt : Nat
  /-- The last MODRST_N was held for more than 5 s and is to be logged (R494). -/
  heldLong : Bool
  /-- Tick of the remap while STARTED is not written (R505). -/
  remapAt : Option Nat
  /-- REPLACE_N driven low from 5 s after BOOT was entered (R505). -/
  replace : Bool
deriving DecidableEq, Repr

end Sys2Proof.Machine
end

