-- ==== Sys2Proof/Machine/StTime.lean ====
section
/-!
DEFINITION. State of a die's time unit beside its registers (chapter 03).
-/

namespace Sys2Proof.Machine

/-- An entry of the transmit-stamp FIFO (R104): stamp in 2⁻¹⁶ ns. -/
structure TxStamp where
  port : Nat
  msgType : Nat
  seqId : Nat
  time : Nat
deriving DecidableEq, Repr

/-- The receive stamp of a PTP event message in 2⁻¹⁶ ns, by what names the message: its type, domain, source port and sequence (R101, R102). -/
structure RxStamp where
  msg : List Byte
  time : Nat
deriving DecidableEq, Repr

/-- The PTP clock and what hangs on it. -/
structure Clock where
  running : Bool
  /-- Time in units of 2⁻⁴⁰ ns (R88, R89). -/
  now : Nat
  txts : List TxStamp
  /-- Stamps were discarded since an entry was last read (R104). -/
  txtsLost : Bool
  /-- Receive stamps of event messages delivered, newest first (log entry 111). -/
  rxStamps : List RxStamp
  /-- The alignment points emitted, as pin and ns, newest first: 0 PPS_OUT, 1 + k SYNC_OUT[k] (R96, R108). -/
  emitted : List (Nat × Int)
  /-- Tick at which this die's version of each output goes inactive again (R109). -/
  pulseEnd : Vector Nat 5
  /-- Tick of the last PPS_IN edge stamped (R110). -/
  ppsIn : Option Nat
  /-- Tick since which the slaving error exceeds 2 ns (R93). -/
  slaveSince : Option Nat
  /-- No edge for 1.5 s while stamping is enabled (source 179). -/
  ppsAbsent : Bool
  /-- Tick at which PPS_IN stamping was last enabled. -/
  ppsEnAt : Nat
deriving DecidableEq, Repr

end Sys2Proof.Machine
end

