-- ==== Sys2Proof/Machine/StDie.lean ====
section
/-!
DEFINITION. State of a control die as a whole, with its redundancy unit, its mode transitions and what it sends over the
mirror link (chapters 01 and 14).
-/

namespace Sys2Proof.Machine

/-- A mode transition in progress (R52, R55, R60, R542). -/
inductive Transition where
  | none
  /-- GO_DARK: 0 before its gate deal fired; the tick at which it fired (R52). -/
  | goDark (fired : Option Nat) (byReq : Bool)
  /-- RUN from DARK: its deal is placed; the working mode it leads to (R52, R60). -/
  | runDark (base : Nat)
  /-- Entry to BLIND HOLD (R55). -/
  | blindHold (byReq : Bool)
  /-- SELF-CAL, by RECAL or at boot: bank dies whose CONV_CAL has run (R50). -/
  | selfCal (byReq : Bool) (done : BitVec 8) (started : Bool)
  /-- A thermal shutdown's stop (R483, R484). -/
  | shutdown
deriving DecidableEq, Repr

/-- What crosses the mirror link from the Declarer (R420): a request, a register write, or the new value of a component
of mirrored state. -/
inductive Payload where
  /-- A validated request that changes the fabric, with its take when it is one. -/
  | request (cmd : Cmd) (take : Option Take)
  /-- The request of that number is complete. -/
  | completed (cmd : Nat)
  | reg (key : Nat) (value : Word32)
  /-- The Dealer, with the transition it serves. -/
  | dealer (v : Dealer) (t : Transition)
  | decks (v : Decks)
  | planner (v : Planner)
  | cal (v : Cal)
  | vsp (v : Vsp)
  /-- A loop request for a range of elements, first and count (R205). -/
  | loop (first count : Nat) (r : LoopReq)
  /-- Patch banks and the active one (R254). -/
  | patch (b0 b1 : PatchBank) (active : Nat)
  | mode (word : Word32)
  /-- A deal or verification record, for the Dummy's rings (R116): type, origin, stamp in 2⁻¹⁶ ns, payload. -/
  | event (type origin stamp : Nat) (payload : List Byte)
  /-- The lock level, FAILS and the lockout (R518). -/
  | lock (level fails : Nat) (lockout : Option Nat)
deriving DecidableEq, Repr

/-- A record on the mirror link: number, tick of sending, content. -/
structure MirrorRec where
  seq : Nat
  sentAt : Nat
  payload : Payload
deriving DecidableEq, Repr

/-- A request to the peer over the mirror link outside the record stream. -/
inductive PeerReq where
  /-- The peer's half of a RULE_COMMIT or a TABLE_OP with PEER = 1 (R352, R364): command, descriptor, data. -/
  | rule (cmd : Nat) (desc data : List Byte)
  /-- The peer has made its half. -/
  | ruleDone (cmd status : Nat)
  /-- A frame that leaves through the peer's port: port, class, queue, colour, bytes (R312, R313). -/
  | send (port cls : Nat) (queue : Option Nat) (yellow trump : Bool) (bytes : List Byte)
  /-- The planned takeover's request to yield, from the Dummy's CLAIM (R426). -/
  | claim (cmd : Nat)
  /-- AGENT cleared in every entry that holds an ID (R360). -/
  | agentGone (agent : Nat)
deriving DecidableEq, Repr

/-- A takeover this die takes part in (R427 to R430). -/
structure Takeover where
  planned : Bool
  /-- This die claims; otherwise it yields. -/
  claimant : Bool
  /-- Trigger instant in ticks. -/
  since : Nat
  /-- Yield point reached (R430). -/
  yieldAt : Option Nat
  granted : BitVec 8
  refused : BitVec 8
  lastClaim : Nat
  /-- Tick of the last drive write before the gap: the former holder's last message, or Y (R429, R430). -/
  gapFrom : Nat
  /-- First drive write made, at that tick (R429). -/
  firstWrite : Option Nat
  /-- The former Declarer is reset afterwards: reset kind, 3 software or 4 fault (R430). -/
  resetAfter : Option Nat
  /-- A TAKEOVER command to complete. -/
  cmd : Option Nat
deriving DecidableEq, Repr

/-- The redundancy unit of a die. -/
structure Red where
  /-- A heartbeat arrived in the present window; tick the window opened; tick of the last heartbeat sent. -/
  hbSeen : Bool
  window : Nat
  hbSent : Nat
  /-- RED_MODE the peer last reported (R422), and its TIM_SLAVE_OFS. -/
  peerMode : Word32
  peerOfs : Int
  peerLost : Bool
  /-- Tick at which the peer was declared lost, and since which it is absent (R424, R471). -/
  lostAt : Nat
  absentSince : Option Nat
  mirrorDownSince : Option Nat
  nextSeq : Nat
  /-- Records sent and not yet received by the peer, oldest first. -/
  sent : List MirrorRec
  /-- Acknowledgements on their way back to this die: record number, tick. -/
  acks : List (Nat × Nat)
  /-- Requests to the peer. -/
  peer : List PeerReq
  /-- Requests held from the mirror, not complete (R420, R432). -/
  held : List (Cmd × Option Take)
  takeover : Option Takeover
  /-- A link-loss trigger waits for the peer to leave RESYNC (R426). -/
  waitPeer : Bool
  /-- Differences reported in the present second (R421), and that second. -/
  cmp : Nat
  cmpSec : Nat
  /-- Totals of the health report, and at the last report (R438): replays, heartbeats missed, mismatches,
  missing, self-test failures. -/
  totals : Vector Nat 5
  last : Vector Nat 7
  lastReport : Nat
  /-- Tick at which the die completed its last boot (R62). -/
  booted : Nat
  /-- RESYNC loads mirrored state over a link that has stayed up (R63). -/
  loading : Bool
  /-- Last fetch count held, plus 1, of command ring r of function f, under key 8 f + r (R432). -/
  adopt : Sparse Nat
deriving DecidableEq, Repr

/-- Where a die is between reset and service. -/
inductive Life where
  /-- Held in reset: 0 no power, 1 MODRST_N, 2 CDRST_N, 3 software, 4 fault; STANDBY 5. -/
  | held (kind : Nat) (since : Nat)
  | booting (since : Nat)
  /-- Boot complete, waiting for its peer (R62). -/
  | waiting (since : Nat)
  /-- Boot complete, with a role, or in RESYNC. -/
  | up
deriving DecidableEq, Repr

/-- A control die. -/
structure Die where
  life : Life
  /-- Register words that differ from their power-on value, by `regKey`. -/
  regs : Sparse Word32
  /-- W1C bits that an event set in the present clock, by key (R19); an element's MISS and SAT under `elemFresh`. -/
  fresh : Sparse Word32
  /-- Low words written of 64-bit registers whose high word is still to come (R15), by key. -/
  lowWords : Sparse Word32
  fns : Vector Fn 4
  /-- Commands in flight, next numbers, host reads outstanding. -/
  cmds : List Cmd
  nextCmd : Nat
  reads : List HostRead
  nextRead : Nat
  /-- Ring served last at PRIO 1 and at PRIO 0, as function × 8 + ring (R400). -/
  lastHigh : Nat
  lastLow : Nat
  clock : Clock
  flt : Flt
  red : Red
  trans : Transition
  dealer : Dealer
  decks : Decks
  planner : Planner
  /-- Planner engines and the Trump router (R129, R187, R188). -/
  routers : Routers
  hold : Sparse Elem
  dither : List DitherRun
  /-- HLD_EL_SEL snapshot (R9): the element's values, and STALE as it was. -/
  elSnap : Elem
  elStale : Bool
  eng : Engines
  cal : Cal
  net : Net
  vsp : Vsp
  lgd : Lgd
  thm : Thermal
  svc : Service
  mtx : Matrix
  aon : AlwaysOn
  /-- Register words of a bank die as last received before its link went down, by bank die and offset (BNK_STATUS.VIEW_STALE). -/
  bankSeen : Sparse (Sparse Nat)
deriving DecidableEq, Repr

end Sys2Proof.Machine
end

