-- ==== Sys2Proof/Machine/State.lean ====
section
/-!
DEFINITION. The state of the module: two control dies, eight bank dies, what they share, the pins, what has been sent
outside, and the queue of commands that wait. `State.reset` is the module right after power-on reset.
-/

namespace Sys2Proof.Machine

/-- Faults. No command of this block stops the model: every row of the table has an effect the manual gives, so nothing
raises a fault. Safe. -/
inductive Fault where
deriving DecidableEq, Repr

/-- Refusals. -/
inductive Refusal where
  /-- A row of the opcode table whose meaning is not written; raised by `exec` only. Safe: the model stops. -/
  | notModelled (mnemonic : String)
deriving DecidableEq, Repr

/-- The module EEPROM (R4, R515, R540). -/
structure Eeprom where
  serial : BitVec 64
  connector : Nat
  pclass : Fin 3
  minVersion : Nat
  pw : Option Nat
deriving DecidableEq, Repr

/-- Pins and rails as the module sees them (chapter 20). -/
structure Pins where
  /-- Levels of GUARD_A, GUARD_B and SAFE_ESTOP_N, unfiltered. -/
  guardA : BitVec 4
  guardB : BitVec 4
  estopN : Bool
  modrstLow : Bool
  modrstSince : Nat
  cdrstLow : BitVec 2
  /-- PCLASS: 0 low, 1 high, 2 open (R535). -/
  strap : Fin 3
  /-- Rails below their hold limit, and outside their operating range, in the order of R487. -/
  below : BitVec 7
  excursion : BitVec 7
  /-- The rail whose loss is to be logged at the next boot (R526). -/
  lost : Option Nat
  /-- Levels driven on PERMIT_A and PERMIT_B. -/
  permitA : BitVec 8
  permitB : BitVec 8
deriving DecidableEq, Repr

/-- The state of the module. -/
structure State where
  /-- CLK_TIME cycles (1 ns) since power-on: the model's measure of elapsed time (log entry 2). -/
  ticks : Nat
  /-- How many free values have been drawn (log entry 10). -/
  freeCnt : Nat
  cd0 : Die
  cd1 : Die
  banks : Vector Bank 8
  mirror : Link
  esc : List Esc
  eeprom : Eeprom
  /-- The record store's 32 KiB (R490), and the two boot flashes (R503). -/
  store : Memory
  /-- Record-store wear (R492). -/
  wear : Bool
  flash0 : Memory
  flash1 : Memory
  /-- Light reported present, by input (R75). -/
  light : PortMask
  /-- Inputs whose monitor reports more than +17.5 dBm, and the sum above +39.5 dBm (R78). -/
  above : PortMask
  overSum : Bool
  pins : Pins
  /-- The die whose PPS_OUT and SYNC_OUT[0..3] the module's selector passes (R109). -/
  pulseSel : Vector DieId 5
  out : List Out
  /-- Commands that wait, first in first out. -/
  pending : List Instr
deriving DecidableEq, Repr

/-- A ring that was never enabled. -/
def Ring.reset : Ring := ⟨0, 0, 0, [], 0, 0, 0, false⟩

/-- A function after reset. -/
def Fn.reset : Fn := ⟨[], [], false, 0, 0, 0, [], []⟩

/-- A clock that does not run (R91). -/
def Clock.reset : Clock := ⟨false, 0, [], false, [], [], Vector.replicate 5 0, none, none, false, 0⟩

/-- A fault collector with nothing recorded. -/
def Flt.reset : Flt := ⟨0, [], 0, 0, [], 0⟩

/-- A redundancy unit after reset. -/
def Red.reset : Red :=
  ⟨false, 0, 0, 0, 0, false, 0, none, none, 0, [], [], [], [], none, false, 0, 0, Vector.replicate 5 0, Vector.replicate 7 0, 0, 0,
    false, []⟩

/-- The Dealer after power-on: every output unassigned, every gate at step 15 (R119). -/
def Dealer.reset : Dealer := ⟨[], 0, [], [], 0, [], [], 0, none, [], 1, 1, 0, false, 0, 0, [], []⟩

/-- Empty deck memory (R151). -/
def Decks.reset : Decks := ⟨[], [], none, none, [], []⟩

/-- A planner without credits. -/
def Planner.reset : Planner := ⟨[], [], none, [], 2⟩

/-- Planner engines with nothing to do, none fenced. -/
def Routers.reset : Routers := ⟨[], [], [], none, 0⟩

/-- A patch bank with no patch. -/
def PatchBank.reset : PatchBank := ⟨[], [], 0⟩

/-- The hold engines after reset. -/
def Engines.reset : Engines := ⟨[], [], [], 0, PatchBank.reset, PatchBank.reset, 0, [], 0, false, false, none, []⟩

/-- Calibration before any record is loaded. -/
def Cal.reset : Cal := ⟨CalImage.empty, none, none, ⟨0, 0, 0⟩, none, none, [], [], [], 0, none, 0, 0, 0, 0⟩

/-- A parser pipeline after reset. -/
def Pipe.reset : Pipe := ⟨[], 0, 0, [], [], []⟩

/-- Control ports after reset. -/
def Net.reset : Net := ⟨Pipe.reset, Pipe.reset, [], [], [], [], none, [], [0, 0, 0, 0, 0, 0], none⟩

/-- An empty registry. -/
def Vsp.reset : Vsp := ⟨[], [], 1, []⟩

/-- A zone after a reset of its unit: UNTESTED (R447). -/
def Zone.reset : Zone := ⟨.untested, false, false, false, false, false, 0, none, none, none, false, false⟩

/-- S-DUAL with no telegram accepted. -/
def SDual.reset : SDual := ⟨false, none, [], [], 0, 0, 0, 0, 0, 0, false, none, none, 0⟩

/-- A permit that is not granted. -/
def Permit.reset : Permit := ⟨false, false, false⟩

/-- An S-BLACK connection after power-on: off, no input named, WATCHDOG_MS 100. -/
def Conn.reset : Conn := ⟨0x7FE00, 100, 0, 0, false, 0, 0, none, [], 0, 0, false⟩

/-- A safety unit after power-on (R440). -/
def Lgd.reset : Lgd :=
  ⟨Vector.replicate 4 Zone.reset, false, none, false, Vector.replicate 8 Permit.reset, false, false, false, 0, false, [], SDual.reset,
    none, false⟩

/-- A thermal manager after reset: no reading held, factory offsets (R475). -/
def Thermal.reset : Thermal :=
  ⟨Vector.replicate 12 ⟨none, 0, false⟩, Vector.replicate 11 ⟨0, 0, false⟩, 0, 0xF, false, (Config.factoryOf : Rat),
    Vector.ofFn (fun b => ((Config.factoryDb b.val : Int) : Rat)), false, none, 0, 0, false, 0, 0⟩

/-- The service lock, closed. -/
def Service.reset : Service :=
  ⟨0, 0, 0, none, 0, none, 0, none, 0, 0, List.replicate 32 0, List.replicate 16 0⟩

/-- A bus-matrix master with nothing outstanding. -/
def Master.reset : Master := ⟨[], [], none, none, false⟩

/-- The bus matrix after reset. -/
def Matrix.reset : Matrix :=
  ⟨Vector.replicate 8 Master.reset, [], [], [], 0⟩

/-- The always-on domain after power-on at tick t (R501). -/
def AlwaysOn.reset (t : Nat) : AlwaysOn := ⟨t, 0, 0, 0, 0, 0, 0, 0, 0, 0, 0, false, none, false⟩

/-- A control die after a power-on reset at tick t: in BOOT, every register at its POR value. Command numbers are odd on CD0 and even on
CD1, so that a command keeps its number through a takeover. -/
def Die.reset (d : DieId) (t : Nat) : Die :=
  { life := .booting t, regs := [], fresh := [], lowWords := [], fns := Vector.replicate 4 Fn.reset, cmds := [], nextCmd := 1 + d.num, reads := [],
    nextRead := 1, lastHigh := 0, lastLow := 0, clock := Clock.reset, flt := Flt.reset, red := Red.reset,
    trans := .none, dealer := Dealer.reset, decks := Decks.reset, planner := Planner.reset, routers := Routers.reset, hold := [], dither := [],
    elSnap := Elem.reset, elStale := false, eng := Engines.reset, cal := Cal.reset, net := Net.reset, vsp := Vsp.reset,
    lgd := Lgd.reset, thm := Thermal.reset, svc := Service.reset, mtx := Matrix.reset, aon := AlwaysOn.reset t, bankSeen := [] }

/-- A link that is down. -/
def Link.down : Link := ⟨0, 0, [], 0, 0⟩

/-- The blind engine after a bank-die reset. -/
def Blind.reset : Blind := ⟨false, false, 0, false, false, [], [], [], [], [], [], 0, 0, none, 0, 0⟩

/-- An empty channel snapshot. -/
def ChSnap.reset : ChSnap := ⟨0, Store.empty, false, false, 0, 0, 0⟩

/-- Bank die b after a bank-die reset (R284): gates at the shutter code, heaters and PIN at 0, gain ×1, no token. -/
def Bank.reset (b : Nat) : Bank :=
  { rev := (Config.bankRev b).toNat, serial := (Config.bankSerial b).toNat, chans := [], linkA := Link.down,
    linkB := Link.down, holder := none, yielded := false, granted := false, lastMsg := 0, lastGrant := 0,
    overlap := none, grants := 0, overlaps := 0, refused := 0, preloads := [], heaterX2 := false, driven := true, fresh := [], copies := [],
    mismatch := 0, missing := 0, urgent := [], robin := [], urgOvf := 0, discard := 0, cal := none, calWait := false,
    calFail := false, adcFail := 0, calTime := 0, probes := [], probeTime := 0, probeLast := none, probeMiss := 0,
    pmiss := false, followed := false, short := [], drvf := [], own := 0, fabric := 0, blind := Blind.reset,
    notice := none, cut := false, clock := 0, incr := 2 ^ 40, disciplined := false, snapA := ChSnap.reset,
    snapB := ChSnap.reset, probeSnapA := Store.empty, probeSnapB := Store.empty }

/-- Pins at reset: every rail in range, reset pins high, guard inputs open, SAFE_ESTOP_N low, strap open (log entry 5). -/
def Pins.reset : Pins := ⟨0, 0, false, false, 0, 0, 2, 0, 0, none, 0, 0⟩

/-- The module right after power-on reset: both dies in BOOT, bank dies reset, no command waiting. -/
def State.reset : State :=
  { ticks := 0, freeCnt := 0, cd0 := Die.reset .cd0 0, cd1 := Die.reset .cd1 0,
    banks := Vector.ofFn (fun b => Bank.reset b.val), mirror := Link.down, esc := [],
    eeprom := ⟨Config.serial, Config.connector, Config.pclass, Config.minVersion, Config.factoryPw⟩,
    store := [], wear := false, flash0 := [], flash1 := [], light := 0, above := 0, overSum := false, pins := Pins.reset, pulseSel := Vector.replicate 5 .cd0, out := [], pending := [] }

end Sys2Proof.Machine
end

