-- ==== Sys2Proof/Machine/Ops.lean ====
section
/-!
DEFINITION. The named operations every meaning uses: reaching a die or a bank die, register words and fields, time, rings
with their entries and interrupts, event and telemetry records, fault occurrences, the mode word, the mirror stream.
-/

namespace Sys2Proof.Machine

/-! ## Dies and bank dies -/

/-- A control die. -/
def State.die (s : State) : DieId → Die
  | .cd0 => s.cd0
  | .cd1 => s.cd1

/-- Replaces a control die. -/
def State.setDie (s : State) : DieId → Die → State
  | .cd0, x => { s with cd0 := x }
  | .cd1, x => { s with cd1 := x }

/-- Applies f to a control die. -/
def State.onDie (s : State) (d : DieId) (f : Die → Die) : State := s.setDie d (f (s.die d))

/-- A bank die, by number. -/
def State.bank (s : State) (b : Nat) : Bank := s.banks[b % 8]'(Nat.mod_lt _ (by decide))

/-- Replaces a bank die. -/
def State.setBank (s : State) (b : Nat) (x : Bank) : State :=
  { s with banks := s.banks.set (b % 8) x (Nat.mod_lt _ (by decide)) }

/-- Applies f to a bank die. -/
def State.onBank (s : State) (b : Nat) (f : Bank → Bank) : State := s.setBank b (f (s.bank b))

/-- Applies f for each number of a list, in order. -/
def State.each (s : State) (l : List Nat) (f : State → Nat → State) : State := l.foldl f s

/-- Sends something outside the module. -/
def State.emit (s : State) (o : Out) : State := { s with out := s.out ++ [o] }

/-- A free value (log entry 10): nothing constrains it, and the next one is another. -/
def State.free (s : State) : Nat := Config.freeValue s.freeCnt

/-- The state after a free value has been drawn. -/
def State.drawn (s : State) : State := { s with freeCnt := s.freeCnt + 1 }

/-! ## Time (R11, R12; log entry 2) -/

/-- Ticks of 1 ns in 1 µs, 1 ms and 1 s. -/
def usT : Nat := 1000
def msT : Nat := 1000000
def secT : Nat := 1000000000

/-- A die's PTP time in TAI ns. -/
def Die.ns (x : Die) : Nat := x.clock.now / 2 ^ 40

/-- A die's PTP time in 2⁻¹⁶ ns. -/
def Die.ns16 (x : Die) : Nat := x.clock.now / 2 ^ 24

/-- A die's PTP time in units of 125 ps, truncated (R12). -/
def Die.now (x : Die) : Nat := x.clock.now / 2 ^ 37

/-- An instant in 125 ps units as 2⁻¹⁶ ns. -/
def instant16 (i : Nat) : Nat := i * 8192

/-- An instant in 125 ps units as whole ns. -/
def instantNs (i : Nat) : Nat := i / 8

/-! ## Register words -/

/-- Index along one dimension of an array that an offset falls at, and the offset left over. -/
def dimSplit (dm : RegDim) (off : Nat) : Nat × Nat :=
  let i := min (off / dm.stride) dm.last
  (i, off - i * dm.stride)

/-- Indices along all dimensions, and the offset left over; none where an index is below its first. -/
def dimsSplit : List RegDim → Nat → Option (List Nat × Nat)
  | [], off => some ([], off)
  | dm :: dms, off =>
    let (i, r) := dimSplit dm off
    if i < dm.first then none
    else (dimsSplit dms r).map (fun p => (i :: p.1, p.2))

/-- Where an offset falls in a register: its indices, and whether it is the high word. -/
def regAt (r : RegDef) (fn off : Nat) : Option (List Nat × Bool) :=
  if r.fns.contains fn && decide (r.off ≤ off) then
    match dimsSplit r.dims (off - r.off) with
    | some (idx, 0) => some (idx, false)
    | some (idx, 4) => if r.wide then some (idx, true) else none
    | _ => none
  else none

/-- The register an offset of a function holds (R13, R16): the register, its indices, high word or not. Rings 18 to 25
exist on PF2 only (R393). -/
def findReg (fn off : Nat) : Option (RegDef × List Nat × Bool) :=
  if 0xF340 ≤ off && off < 0xF440 && fn ≠ 2 then none
  else allRegs.findSome? (fun r => (regAt r fn off).map (fun p => (r, p.1, p.2)))

/-- Power-on word of a register from its fields' POR values. -/
def regPorWord (r : RegDef) : Nat := r.fields.foldl (fun a f => a + f.por * 2 ^ f.lo) 0

/-- Defaults of the fault sources (R462), as the FLT_SRC word's fields: reactions NORMAL and SEVERE, N, WIN, DOMAIN. -/
structure SrcDefault where
  normal : Nat
  severe : Nat
  n : Nat
  win : Nat
  domain : Nat
deriving DecidableEq, Repr

/-- The FLT_SRC word of a default. -/
def SrcDefault.word (d : SrcDefault) : Nat :=
  d.n * 2 ^ 24 + d.win * 2 ^ 20 + d.severe * 2 ^ 16 + d.normal * 2 ^ 12 + d.domain * 2 ^ 8

/-- The kinds of the sources 20 to 59 and 60 to 107, by k (R462, R277). -/
def elemSrcDefault : Nat → SrcDefault
  | 0 => ⟨1, 2, 4, 2, 1⟩
  | 3 => ⟨0, 1, 4, 2, 1⟩
  | 4 => ⟨1, 1, 1, 3, 0⟩
  | _ => ⟨1, 1, 4, 2, 1⟩

/-- Bank-die sources 60 + 6b + k (R462). -/
def bankSrcDefault : Nat → SrcDefault
  | 2 => ⟨4, 4, 1, 3, 2⟩
  | 4 => ⟨1, 1, 1, 3, 0⟩
  | 5 => ⟨1, 2, 1, 3, 2⟩
  | _ => ⟨2, 2, 1, 3, 0⟩

/-- A source is reserved (R462). -/
def srcReserved (i : Nat) : Bool :=
  (14 ≤ i && i ≤ 19) || (144 ≤ i && i ≤ 157) || (167 ≤ i && i ≤ 173) || (181 ≤ i && i ≤ 183) ||
  (225 ≤ i && i ≤ 229) || 250 ≤ i

/-- The default of a source (R462). Reactions: 0 none, 1 IRQ, 2 PIN, 3 TRAP, 4 BLK, 5 DIE. -/
def srcDefault (i : Nat) : SrcDefault :=
  if srcReserved i then ⟨0, 0, 0, 0, 0⟩
  else if i = 0 then ⟨2, 2, 1, 3, 0⟩
  else if i = 1 then ⟨0, 1, 16, 3, 0⟩
  else if i = 2 then ⟨1, 2, 4, 3, 0⟩
  else if i = 3 then ⟨1, 2, 5, 7, 0⟩
  else if i = 4 then ⟨1, 3, 3, 3, 4⟩
  else if i = 5 then ⟨1, 2, 1, 3, 0⟩
  else if i = 8 then ⟨1, 1, 1, 3, 0⟩
  else if i = 10 then ⟨0, 1, 8, 2, 0⟩
  else if i = 11 then ⟨1, 2, 1, 3, 0⟩
  else if i < 14 then ⟨2, 2, 1, 3, 0⟩
  else if i < 60 then elemSrcDefault ((i - 20) % 5)
  else if i < 108 then bankSrcDefault ((i - 60) % 6)
  else if i < 124 then ⟨2, 2, 1, 3, 3⟩
  else if i = 124 then ⟨1, 2, 3, 3, 3⟩
  else if i = 125 then ⟨0, 1, 64, 3, 0⟩
  else if i = 126 then ⟨1, 2, 3, 3, 0⟩
  else if i = 127 then ⟨0, 1, 3, 3, 0⟩
  else if i < 144 then ⟨1, 2, 16, 3, 0⟩
  else if i = 165 then ⟨2, 2, 16, 3, 0⟩
  else if i < 167 then ⟨1, 2, 16, 3, 0⟩
  else if i < 181 then ⟨1, 2, 4, 3, 0⟩
  else if i = 184 then ⟨2, 2, 4, 3, 0⟩
  else if i = 185 then ⟨2, 2, 4, 3, 3⟩
  else if i < 196 then ⟨1, 2, 4, 3, 0⟩
  else if i < 216 then ⟨2, 2, 1, 3, 0⟩
  else if i = 216 then ⟨1, 2, 1, 3, 0⟩
  else if i = 221 then ⟨2, 2, 1, 3, 5⟩
  else if i < 225 then ⟨2, 2, 1, 3, 0⟩
  else if i < 246 then (if i % 2 = 0 then ⟨0, 1, 64, 3, 0⟩ else ⟨3, 5, 2, 4, 4⟩)
  else ⟨2, 2, 1, 3, 0⟩

/-- A level source (R462). -/
def srcIsLevel (i : Nat) : Bool :=
  i = 0 || i = 6 || i = 9 || i = 13 || (20 ≤ i && i < 60 && (i - 20) % 5 = 2) ||
  (60 ≤ i && i < 108 && ((i - 60) % 6 < 2 || (i - 60) % 6 = 3)) || i = 175 || i = 179 || i = 185 ||
  (196 ≤ i && i ≤ 199) || (216 ≤ i && i ≤ 218) || i = 220 || i = 222 || i = 224

/-- Window lengths of the timers at power-on, ms (FLT_WIN_k). -/
def winDefault (k : Nat) : Nat := [1, 10, 100, 1000, 10000, 60000, 600000, 3600000].getD k 1

/-- Power-on thresholds of the sensors (R476): SHUT, T3, T2, T1. -/
def thrDefault (k : Nat) : Nat :=
  match k with
  | 0 => 0x8C868380
  | 1 => 0x96918C87
  | _ => 0x9B96918C

/-- Power-on words that a register table gives in words. -/
def porOverride (r : RegDef) (fn : Nat) (idx : List Nat) : Option Nat :=
  let key := regKey fn r.off
  let i := idx.headD 0
  if key = Reg.UCS_ID then some (regPorWord r + Config.romRev.toNat * 2 ^ 16)
  else if key = Reg.TMG_APOL_RATE 0 then some (if i < 8 then 10000 else 100000)
  else if key = Reg.TMG_APOL_BURST 0 then some (if i < 8 then regPorWord r else fput F.TMG_APOL_BURST_CBS (regPorWord r) 256)
  else if key = Reg.TMG_QCFG 0 0 then some ((idx.getD 1 0) / 4 * 2 ^ 27)
  else if key = Reg.TMG_QLIM 0 0 then
    some (if idx.getD 1 0 = 31 then fput F.TMG_QLIM_MAX (regPorWord r) 16 else regPorWord r)
  else if key = Reg.FLT_WIN 0 then some (winDefault i)
  else if key = Reg.FLT_SRC 0 then some (srcDefault i).word
  else if key = Reg.THM_FOFS then some (codeOf 16 Config.factoryOf)
  else if key = Reg.THM_THR 0 then some (thrDefault i)
  else none

/-- The power-on value of a register word, by its key. -/
def regPor (key : Nat) : Nat :=
  let fn := key / 0x10000
  match findReg fn (key % 0x10000) with
  | none => 0
  | some (r, idx, hi) =>
    let w := (porOverride r fn idx).getD (regPorWord r)
    if hi then w / 2 ^ 32 % 2 ^ 32 else w % 2 ^ 32

/-- A register word as stored. -/
def Die.reg (x : Die) (key : Nat) : Nat :=
  match spFind key x.regs with
  | some w => w.toNat
  | none => regPor key

/-- Writes a register word in its store; a word at its power-on value is not listed. -/
def Die.setReg (x : Die) (key v : Nat) : Die :=
  let w := v % 2 ^ 32
  { x with regs := if w = regPor key then spDel key x.regs else spPut key (BitVec.ofNat 32 w) x.regs }

/-- A 64-bit register as stored. -/
def Die.reg64 (x : Die) (key : Nat) : Nat := x.reg key + 2 ^ 32 * x.reg (key + 4)

/-- Writes a 64-bit register in its store. -/
def Die.setReg64 (x : Die) (key v : Nat) : Die := (x.setReg key (v % 2 ^ 32)).setReg (key + 4) (v / 2 ^ 32)

/-- A field of a register word as stored. -/
def Die.rf (x : Die) (key : Nat) (f : Fld) : Nat := fget f (x.reg key)

/-- A one-bit field of a register word as stored. -/
def Die.rbit (x : Die) (key : Nat) (f : Fld) : Bool := x.rf key f != 0

/-- Writes a field of a register word in its store. -/
def Die.setRf (x : Die) (key : Nat) (f : Fld) (v : Nat) : Die := x.setReg key (fput f (x.reg key) v)

/-- Records the W1C bits of a register word that an event sets in the present clock (R19). -/
def Die.freshen (x : Die) (key bits : Nat) : Die :=
  { x with fresh := spPut key (((spFind key x.fresh).getD 0) ||| BitVec.ofNat 32 bits) x.fresh }

/-- The W1C bits of a register word that an event has set in the present clock. -/
def Die.freshBits (x : Die) (key : Nat) : Nat := ((spFind key x.fresh).getD 0).toNat

/-- An event sets a one-bit W1C field. -/
def Die.setEvent (x : Die) (key : Nat) (f : Fld) : Die := (x.setRf key f 1).freshen key (2 ^ f.lo)

/-- The bits that a W1C write of v clears in a register word: a bit whose event came in the same clock stays set (R19). -/
def Die.clearing (x : Die) (key v : Nat) : Nat := Nat.land v (2 ^ 32 - 1 - x.freshBits key)

/-- Adds to a saturating counter field. -/
def Die.count (x : Die) (key : Nat) (f : Fld) (n : Nat := 1) : Die :=
  x.setRf key f (satAdd f.width (x.rf key f) n)

/-- Adds to a counter field that wraps. -/
def Die.countMod (x : Die) (key : Nat) (f : Fld) (n : Nat := 1) : Die :=
  x.setRf key f ((x.rf key f + n) % 2 ^ f.width)

/-- The same on a die of the state. -/
def State.setRf (s : State) (d : DieId) (key : Nat) (f : Fld) (v : Nat) : State := s.onDie d (·.setRf key f v)
def State.setEvent (s : State) (d : DieId) (key : Nat) (f : Fld) : State := s.onDie d (·.setEvent key f)
def State.count (s : State) (d : DieId) (key : Nat) (f : Fld) (n : Nat := 1) : State := s.onDie d (·.count key f n)

/-! ## Modes and roles (R36, R45, R62) -/

/-- Base mode codes (R36). -/
def mOff : Nat := 0
def mStandby : Nat := 1
def mBoot : Nat := 2
def mSelfCal : Nat := 3
def mDark : Nat := 4
def mStatic : Nat := 5
def mSlotted : Nat := 6
def mHybrid : Nat := 7
def mBlind : Nat := 8
def mService : Nat := 9

/-- BASE of a die. -/
def Die.base (x : Die) : Nat := x.rf Reg.RED_MODE F.RED_MODE_BASE

/-- STATIC, SLOTTED or HYBRID (R36). -/
def isWorking (b : Nat) : Bool := b = mStatic || b = mSlotted || b = mHybrid

/-- ROLE of a die: 0 none, 1 Declarer, 2 Dummy. -/
def Die.role (x : Die) : Nat := x.rf Reg.RED_MODE F.RED_MODE_ROLE

/-- This die is Declarer; Dummy; in RESYNC. -/
def Die.isDecl (x : Die) : Bool := x.role = 1
def Die.isDummy (x : Die) : Bool := x.role = 2
def Die.inResync (x : Die) : Bool := x.rbit Reg.RED_MODE F.RED_MODE_RESYNC

/-- The mirror link carries records and the peer's heartbeats arrive (R45, R422). -/
def Die.peerOk (x : Die) : Bool := x.rbit Reg.RED_MODE F.RED_MODE_PEER_OK

/-- TAKEOVER of a die's mode word: it claims, and does not serve yet (R64). -/
def Die.taking (x : Die) : Bool := x.rbit Reg.RED_MODE F.RED_MODE_TAKEOVER

/-- A claimant that holds the token at some bank die. -/
def Die.hasToken (x : Die) : Bool := match x.red.takeover with | some t => t.claimant && t.granted != 0 | none => false

/-- The die whose RED_MODE is the module's mode (R46): the one that reports Declarer, and of two the one that reports TAKEOVER = 1. -/
def State.reporting (s : State) : Option DieId :=
  if s.cd0.isDecl && s.cd1.isDecl then some (if s.cd1.taking && !s.cd0.taking then .cd1 else .cd0)
  else if s.cd0.isDecl then some .cd0
  else if s.cd1.isDecl then some .cd1
  else none

/-- The Declarer that acts on the fabric. Two dies report Declarer while a claim runs: the module's mode is the claimant's from then on (R46),
and the bank dies obey the other one until one of them grants (R268), so the claimant acts from its first grant. -/
def State.declarer (s : State) : Option DieId :=
  let a := s.cd0.isDecl
  let b := s.cd1.isDecl
  if a && b then
    if s.cd1.taking && s.cd1.hasToken then some .cd1
    else if s.cd0.taking && !s.cd0.hasToken then some .cd1
    else some .cd0
  else if a then some .cd0
  else if b then some .cd1
  else none

/-- The Declarer that gives full fabric service: one that takes over prepares, plans and validates nothing until then (R429). -/
def State.serving (s : State) : Option DieId :=
  match s.declarer with
  | some d => if (s.die d).taking then none else some d
  | none => none

/-- A die runs: not held in reset and not booting. -/
def Die.running (x : Die) : Bool :=
  match x.life with
  | .waiting _ => true
  | .up => true
  | _ => false

/-- BAR0 answers every access: the die runs, and its mode is not BOOT, which a die shows until it has a role too (R45, log entry 105). -/
def Die.barOpen (x : Die) : Bool := x.running && decide (x.base ≠ mBoot)

/-- Power has come up and no reset holds the die: `RED_MODE` can be read (R45). -/
def Die.alive (x : Die) : Bool := match x.life with | .held _ _ => false | _ => true

/-! ## Functions and rings -/

/-- A function of a die. -/
def Die.fn (x : Die) (f : Nat) : Fn := x.fns[f % 4]'(Nat.mod_lt _ (by decide))

/-- Replaces a function of a die. -/
def Die.setFn (x : Die) (f : Nat) (v : Fn) : Die := { x with fns := x.fns.set (f % 4) v (Nat.mod_lt _ (by decide)) }

/-- Applies g to a function of a die. -/
def Die.onFn (x : Die) (f : Nat) (g : Fn → Fn) : Die := x.setFn f (g (x.fn f))

/-- A ring of a function. -/
def Fn.ring (f : Fn) (r : Nat) : Ring := spGet Ring.reset r f.rings

/-- Replaces a ring. -/
def Fn.setRing (f : Fn) (r : Nat) (v : Ring) : Fn := { f with rings := spSet Ring.reset r v f.rings }

/-- A ring of a die. -/
def Die.ring (x : Die) (f r : Nat) : Ring := (x.fn f).ring r

/-- Applies g to a ring of a die. -/
def Die.onRing (x : Die) (f r : Nat) (g : Ring → Ring) : Die := x.onFn f (fun n => n.setRing r (g (n.ring r)))

/-- HIF_RING_CFG_r.EN. -/
def Die.ringEn (x : Die) (f r : Nat) : Bool := x.rbit (Reg.HIF_RING_CFG f r) F.HIF_RING_CFG_EN

/-- Entries of a ring: LOG2SIZE values outside 6 to 16, or 6 to 12 on receive queues, act as the nearer limit. -/
def Die.ringSize (x : Die) (f r : Nat) : Nat :=
  2 ^ clampNat 6 (if 18 ≤ r then 12 else 16) (x.rf (Reg.HIF_RING_CFG f r) F.HIF_RING_CFG_LOG2SIZE)

/-- Bytes of an entry (R393). -/
def Die.entrySize (x : Die) (f r : Nat) : Nat :=
  if r < 8 then 64 else if r < 16 then 16 else if r = 16 then 32 else if r = 17 then 64
  else 2048 * 2 ^ x.rf (Reg.HIF_RING_CFG f r) F.HIF_RING_CFG_SLOT

/-- Host address of the entry that count n refers to (R394). -/
def Die.entryAddr (x : Die) (f r n : Nat) : Nat :=
  x.reg64 (Reg.HIF_RING_BASE f r) / 4096 * 4096 + n % x.ringSize f r * x.entrySize f r

/-- Host address of the doorbell record of a ring (R394). -/
def Die.dbAddr (x : Die) (f r : Nat) : Nat := x.reg64 (Reg.HIF_DB_BASE f) / 64 * 64 + 64 * r

/-- The difference of two free-running counts (R394). -/
def cntDiff (a b : Word32) : Nat := (a - b).toNat

/-- A producer ring has no room (R395), or has stopped on an error (R398). -/
def Die.ringFull (x : Die) (f r : Nat) : Bool :=
  decide (x.ringSize f r ≤ cntDiff (x.ring f r).modCnt (x.ring f r).drvCnt) ||
    x.rbit (Reg.HIF_RING_CFG f r) F.HIF_RING_CFG_ERR

/-- PHASE of the next entry of a ring (R404). -/
def Die.phase (x : Die) (f r : Nat) : Nat := 1 - (x.ring f r).modCnt.toNat / x.ringSize f r % 2

/-- Raises an MSI-X vector, or holds it pending while it is masked (R417). -/
def raiseVec (s : State) (d : DieId) (f v : Nat) : State :=
  let n := (s.die d).fn f
  if n.msixMask.getLsbD v then
    s.onDie d (·.onFn f (fun n => { n with msixPending := n.msixPending ||| BitVec.ofNat 64 (2 ^ v) }))
  else s.emit (.msix d f v)

/-- Raises a ring's interrupt and starts its counting anew. -/
def raiseRing (s : State) (d : DieId) (f r : Nat) : State :=
  raiseVec (s.onDie d (·.onRing f r (fun g => { g with unsignalled := 0, firstAt := s.ticks }))) d f
    ((s.die d).rf (Reg.HIF_RING_CFG f r) F.HIF_RING_CFG_VEC)

/-- Interrupt coalescing after an entry (R417). -/
def coalesce (s : State) (d : DieId) (f r : Nat) (irq : Bool) : State :=
  let x := s.die d
  let g := x.ring f r
  let g' := { g with unsignalled := g.unsignalled + 1, firstAt := if g.unsignalled = 0 then s.ticks else g.firstAt }
  let s1 := s.onDie d (·.onRing f r (fun _ => g'))
  let need := max 1 (x.rf (Reg.HIF_RING_IRQ f r) F.HIF_RING_IRQ_COUNT)
  if x.rbit (Reg.HIF_RING_CFG f r) F.HIF_RING_CFG_IEN && (irq || decide (need ≤ g'.unsignalled)) then raiseRing s1 d f r
  else s1

/-- Writes one entry of a producer ring that has room, then its MOD count, then its interrupt (R392, R395). -/
def writeEntry (s : State) (d : DieId) (f r : Nat) (bytes : List Byte) (irq : Bool) : State :=
  let x := s.die d
  let g := x.ring f r
  let s1 := s.emit (.hostWrite d f (x.entryAddr f r g.modCnt.toNat) bytes)
  let m := g.modCnt + 1
  let s2 := s1.onDie d (fun y =>
    (y.onRing f r (fun g => { g with modCnt := m })).setReg (Reg.HIF_RING_MOD f r) m.toNat)
  coalesce (s2.emit (.hostWrite d f (x.dbAddr f r + 32) (leBytes 4 m.toNat))) d f r irq

/-- Sets PHASE, bit 0 of a byte of an entry. -/
def withPhase (bytes : List Byte) (at_ phase : Nat) : List Byte :=
  bytes.set at_ (bytes.getD at_ 0 ||| BitVec.ofNat 8 phase)

/-! ## Fault occurrences (R463 to R466) -/

/-- A bit of an array of 32-bit words that starts at a key. -/
def Die.mapBit (x : Die) (key i : Nat) : Bool := bitOf (x.reg (key + 4 * (i / 32))) (i % 32)

/-- Sets or clears a bit of an array of 32-bit words. -/
def Die.setMapBit (x : Die) (key i : Nat) (b : Bool) : Die :=
  let k := key + 4 * (i / 32)
  x.setReg k (setBit (x.reg k) (i % 32) b)

/-- An occurrence of a source (R463, R464, R466): sticky bit; RAW of an event source that really occurred; unmasked, it
waits for its reaction. `inst` names the recovery-domain instance it concerns. -/
def Die.occur (x : Die) (src inst : Nat) (real : Bool) (stamp : Nat := x.ns16) : Die :=
  let x1 := (x.setMapBit (Reg.FLT_STICKY 0) src true).freshen (Reg.FLT_STICKY 0 + 4 * (src / 32)) (2 ^ (src % 32))
  let x2 := if real && !srcIsLevel src then { x1 with flt := { x1.flt with raw := x1.flt.raw ||| BitVec.ofNat 256 (2 ^ src) } } else x1
  if x2.mapBit (Reg.FLT_MASK 0) src then x2
  else { x2 with flt := { x2.flt with occ := x2.flt.occ ++ [⟨src, stamp, inst⟩] } }

/-- The time of an occurrence of a source, in 2⁻¹⁶ ns, on the clock where it occurs: a bank die's deal clock for its own sources, else the
die's PTP clock (R114). -/
def srcStamp (s : State) (d : DieId) (src : Nat) : Nat :=
  if 60 ≤ src && src < 108 then (s.bank ((src - 60) / 6)).clock / 2 ^ 24 else (s.die d).ns16

/-- A real event of an event source on one die, while that die runs. -/
def raise (s : State) (d : DieId) (src : Nat) (inst : Nat := 0) : State :=
  if (s.die d).running then s.onDie d (·.occur src inst true (srcStamp s d src)) else s

/-- A real event both dies see. -/
def raiseBoth (s : State) (src : Nat) (inst : Nat := 0) : State := raise (raise s .cd0 src inst) .cd1 src inst

/-! ## Event and telemetry records (R410 to R413) -/

/-- Event types (R411). -/
def evMode : Nat := 1
def evFault : Nat := 2
def evHealth : Nat := 3
def evTakeover : Nat := 4
def evDeal : Nat := 0x10
def evVerify : Nat := 0x11
def evElement : Nat := 0x12
def evDeck : Nat := 0x13
def evCal : Nat := 0x14
def evTimeStep : Nat := 0x20
def evPpsIn : Nat := 0x21
def evStation : Nat := 0x30
def evAgent : Nat := 0x31
def evSafety : Nat := 0x40

/-- The functions whose event rings receive a type (R411). -/
def eventFns (type : Nat) : List Nat :=
  if type = 1 then [0, 1, 2, 3]
  else if type = 4 then [0, 1]
  else if type = 2 || type = 3 || type = 0x40 then [0]
  else if 0x20 ≤ type && type ≤ 0x21 then [3]
  else if 0x30 ≤ type && type ≤ 0x31 then [2]
  else [1]

/-- A type, with its first payload bytes, is let through by an HIF_EVMASK word (R411). -/
def eventMasked (mask type : Nat) (payload : List Byte) : Bool :=
  let on (i : Nat) := bitOf mask i
  !(if type = 1 then true
    else if type = 2 then on 1
    else if type = 3 then on 2
    else if type = 4 then on 3
    else if type = 0x10 then on 4
    else if type = 0x11 then on 6 && (on 5 || leAt payload 2 1 ≠ 0)
    else if type = 0x12 then (if leAt payload 2 1 = 0 then on 8 else on 7)
    else if type = 0x13 then on 9
    else if type = 0x14 then on 10
    else if type = 0x20 || type = 0x21 then on 11
    else if type = 0x30 || type = 0x31 then on 12
    else on 13)

/-- Commits an event record to one function's event ring, or drops it (R397, R410). -/
def eventOn (s : State) (d : DieId) (type origin stamp : Nat) (payload : List Byte) (f : Nat) : State :=
  let x := s.die d
  if !x.ringEn f 16 || eventMasked (x.reg (Reg.HIF_EVMASK f)) type payload then s
  else
    let g := x.ring f 16
    let s1 := s.onDie d (·.onRing f 16 (fun g => { g with seqNo := g.seqNo + 1 }))
    if x.ringFull f 16 then
      raise (s1.onDie d (fun y => (y.count (Reg.HIF_EV_LOST f) F.HIF_EV_LOST_COUNT).onRing f 16
        (fun g => { g with lostFlag := true }))) d 161
    else
      let rec32 := leBytes 2 type ++ leBytes 1 (2 * b2n g.lostFlag + x.phase f 16) ++ leBytes 1 origin ++
        leBytes 4 g.seqNo.toNat ++ leBytes 8 (stamp / 65536) ++ leBytes 2 (stamp % 65536) ++ padTo 14 payload
      writeEntry (s1.onDie d (·.onRing f 16 (fun g => { g with lostFlag := false }))) d f 16 rec32 false

/-- Commits an event record on a die, to the rings its type goes to: stamp in 2⁻¹⁶ ns, payload from byte 18. -/
def eventAt (s : State) (d : DieId) (type origin stamp : Nat) (payload : List Byte) : State :=
  (eventFns type).foldl (fun s f => eventOn s d type origin stamp payload f) s

/-- An event of a control-die unit, stamped with that die's PTP clock (R114). -/
def event (s : State) (d : DieId) (type : Nat) (payload : List Byte) : State :=
  eventAt s d type d.num (s.die d).ns16 payload

/-- Commits a telemetry record (R412). -/
def telem (s : State) (d : DieId) (f ttype subid len : Nat) (payload : List Byte) : State :=
  let x := s.die d
  if !x.ringEn f 17 then s
  else
    let g := x.ring f 17
    let s1 := s.onDie d (·.onRing f 17 (fun g => { g with seqNo := g.seqNo + 1 }))
    if x.ringFull f 17 then
      raise (s1.onDie d (fun y => (y.count (Reg.HIF_TM_LOST f) F.HIF_TM_LOST_COUNT).onRing f 17
        (fun g => { g with lostFlag := true }))) d 162
    else
      let rec64 := leBytes 2 ttype ++ leBytes 1 (2 * b2n g.lostFlag + x.phase f 17) ++ [0] ++ leBytes 4 g.seqNo.toNat ++
        leBytes 2 subid ++ leBytes 2 len ++ leBytes 4 0 ++ padTo 48 payload
      writeEntry (s1.onDie d (·.onRing f 17 (fun g => { g with lostFlag := false }))) d f 17 rec64 false

/-! ## The mirror stream (R420) -/

/-- The Declarer's records reach its peer: the mirror link is up and the peer there is Dummy. -/
def State.mirrored (s : State) (d : DieId) : Bool :=
  (s.die d).isDecl && (s.die d.peer).isDummy && s.mirror.state = 2 && (s.die d).peerOk

/-- Sends a record to the Dummy. -/
def mirror (s : State) (d : DieId) (p : Payload) : State :=
  if s.mirrored d then
    s.onDie d (fun x => { x with red := { x.red with nextSeq := x.red.nextSeq + 1,
                                                      sent := x.red.sent ++ [⟨x.red.nextSeq, s.ticks, p⟩] } })
  else s

/-- Sends a request to the peer over the mirror link, outside the record stream. -/
def askPeer (s : State) (d : DieId) (q : PeerReq) : State :=
  if s.mirror.state = 2 then s.onDie d (fun x => { x with red := { x.red with peer := x.red.peer ++ [q] } }) else s

/-- A record of the Declarer that the Dummy's rings receive too (R116). -/
def eventMirrored (s : State) (d : DieId) (type origin stamp : Nat) (payload : List Byte) : State :=
  mirror (eventAt s d type origin stamp payload) d (.event type origin stamp payload)

/-- A record of a control-die unit that tells of a change of mirrored state (R116). -/
def eventShared (s : State) (d : DieId) (type : Nat) (payload : List Byte) : State :=
  eventMirrored s d type d.num (s.die d).ns16 payload

/-! ## The mode word (R45 to R48, R39, R59) -/

/-- A guard zone, or zone E, has tripped on a safety unit and has not been reset: the condition of SAFE (R59). -/
def Lgd.tripped (l : Lgd) : Bool := l.zones.any (fun z => z.state == .tripped || z.unreset) || l.eTripped

/-- The mode word with its overlay bits as R39 and R59 give them. -/
def withOverlays (x : Die) (w : Nat) : Nat :=
  let b := isWorking (fget F.RED_MODE_BASE w)
  fput F.RED_MODE_DEGRADED (fput F.RED_MODE_SAFE w (b2n (b && x.lgd.tripped))) (b2n (b && x.flt.repl != 0))

/-- The word that follows an old one when bits [23:0] become those of v: PREV_BASE and SEQ advance (R45). -/
def modeNext (old v : Nat) : Nat :=
  let v1 := if fget F.RED_MODE_BASE v = fget F.RED_MODE_BASE old then v
            else fput F.RED_MODE_PREV_BASE v (fget F.RED_MODE_BASE old)
  if bitsOf v1 23 0 = bitsOf old 23 0 then old
  else fput F.RED_MODE_SEQ v1 ((fget F.RED_MODE_SEQ old + 1) % 256)

/-- Changes a die's mode word (R45, R48): overlays follow R39 on a Declarer; a change writes MODE records there and goes
to the Dummy. -/
def setMode (s : State) (d : DieId) (f : Nat → Nat) : State :=
  let x := s.die d
  let old := x.reg Reg.RED_MODE
  let v := f old
  let v := if fget F.RED_MODE_ROLE v = 1 then withOverlays x v else v
  let w := modeNext old v
  if w = old then s
  else
    let s1 := s.onDie d (·.setReg Reg.RED_MODE w)
    if fget F.RED_MODE_ROLE w = 1 then
      mirror (event s1 d evMode (leBytes 4 w)) d (.mode (BitVec.ofNat 32 w))
    else s1

/-- Sets a field of the mode word. -/
def setModeF (s : State) (d : DieId) (f : Fld) (v : Nat) : State := setMode s d (fun w => fput f w v)

/-- Enters a base mode on a die. -/
def setBase (s : State) (d : DieId) (m : Nat) : State := setModeF s d F.RED_MODE_BASE m

/-- Sets RED_MODE_REQ.STATUS, when the request in progress ends or a request is answered. -/
def setReqStatus (s : State) (d : DieId) (v : Nat) : State := s.setRf d Reg.RED_MODE_REQ F.RED_MODE_REQ_STATUS v

/-- A register write that the Declarer mirrors (R420, R541). -/
def mirrorReg (s : State) (d : DieId) (key : Nat) : State :=
  mirror s d (.reg key (BitVec.ofNat 32 ((s.die d).reg key)))

end Sys2Proof.Machine
end

