-- ==== Sys2Proof/Machine/Fabric.lean ====
section
/-!
DEFINITION. The photonic fabric (chapter 02): hand entries, wiring, the canonical routing of a hand into a cell image,
gate steps, benches and routing domains.
-/

namespace Sys2Proof.Machine

/-! ## Hand entries (R117) -/

def entV (e : BitVec 16) : Bool := e.getLsbD 15
def entD (e : BitVec 16) : Bool := e.getLsbD 14
def entStep (e : BitVec 16) : Nat := bitsOf e.toNat 13 10
def entInput (e : BitVec 16) : Nat := bitsOf e.toNat 8 0

/-- A lit entry: V = 1, D = 0 (R42). -/
def entLit (e : BitVec 16) : Bool := entV e && !entD e

/-- Bit 9 of an entry is reserved (R117, R118). -/
def entBad (e : BitVec 16) : Bool := e.getLsbD 9

/-- The entry of an output in a hand. -/
def handAt (h : Hand) (n : Nat) : BitVec 16 := spGet 0 n h

/-- A hand with one entry replaced. -/
def handSet (h : Hand) (n : Nat) (e : BitVec 16) : Hand := spSet 0 n e h

/-- The hand of a list of entries in output order. -/
def handOf (l : List (BitVec 16)) : Hand := (l.zipIdx).foldl (fun h p => handSet h p.2 p.1) []

/-- The inputs that entries with V = 1 name. -/
def namedInputs (h : Hand) : List Nat := (h.filter (fun p => entV p.2)).map (fun p => entInput p.2)

/-- No element of a list appears twice. -/
def noDup : List Nat → Bool
  | [] => true
  | x :: xs => !xs.contains x && noDup xs

/-- A hand is valid when no two entries with V = 1 name the same input (R79). -/
def handValid (h : Hand) : Bool := noDup (namedInputs h)

/-! ## Wiring (R65 to R67) -/

/-- rotr_k: rotates the low k bits right by one place. -/
def rotr (k j : Nat) : Nat :=
  let low := j % 2 ^ k
  low / 2 + low % 2 * 2 ^ (k - 1) + j / 2 ^ k * 2 ^ k

/-- rotl_k, its inverse. -/
def rotl (k j : Nat) : Nat :=
  let low := j % 2 ^ k
  low * 2 % 2 ^ k + low / 2 ^ (k - 1) + j / 2 ^ k * 2 ^ k

/-- The input line of stage s + 1 that output line j of stage s connects to (R67). -/
def wire (s j : Nat) : Nat :=
  if s < 7 then rotr (9 - s) j else if s < 10 then rotr 2 j else rotl (s - 8) j

/-- The element ID of the cell at stage s, row r (R8). -/
def cellId (s r : Nat) : Nat := s * 256 + r

/-- The other line of a cell. -/
def lineTwin (n : Nat) : Nat := if n % 2 = 0 then n + 1 else n - 1

/-- The output line of a cell's input line n in a state (R66). -/
def cellOut (cross : Bool) (n : Nat) : Nat := if cross then lineTwin n else n

/-- The cells an input line n of stage s runs through to stage 18, each with the line it enters on. -/
def pathFrom (img : Image) : Nat → Nat → Nat → List (Nat × Nat)
  | 0, _, _ => []
  | k + 1, s, n => (cellId s (n / 2), n) :: pathFrom img k (s + 1) (wire s (cellOut (img.getLsbD (cellId s (n / 2))) n))

/-- The cells the light of In i runs through. -/
def pathOf (img : Image) (i : Nat) : List (Nat × Nat) := pathFrom img 19 0 i

/-- The output In i reaches. -/
def reaches (img : Image) (i : Nat) : Nat :=
  match (pathOf img i).getLast? with
  | some (c, n) => cellOut (img.getLsbD c) n
  | none => i

/-! ## Routing (R81) -/

/-- The permutation of a hand, completed (step 1 of R81): the input of each output. -/
def completePerm (h : Hand) : List Nat :=
  let named := namedInputs h
  let free := (List.range 512).filter (fun i => !named.contains i)
  ((List.range 512).foldl
    (fun (p : List Nat × List Nat) n =>
      let e := handAt h n
      if entV e then (p.1 ++ [entInput e], p.2) else (p.1 ++ [p.2.headD 0], p.2.tail)) ([], free)).1

/-- The inverse of a permutation given as a list. -/
def permInv (p : List Nat) : List Nat := (List.range p.length).map (fun i => (p.idxOf? i).getD 0)

/-- The inputs that leave on the upper subnetwork, and their outputs, around the cycle of an input-side row, when that
row's even input does (step 2 of R81). `p` is the input of each output, `q` the output of each input. -/
def cycleFrom (p q : List Nat) (start : Nat) : Nat → Nat → List (Nat × Nat)
  | 0, _ => []
  | k + 1, x =>
    let o := q.getD x 0
    let y := lineTwin (p.getD (lineTwin o) 0)
    (x, o) :: (if y = start then [] else cycleFrom p q start k y)

/-- Cells of a subnetwork of level L, number q, at local input-side row a and at local output-side row b (R81, R84). -/
def inCell (l q a : Nat) : Nat := cellId l (q * 2 ^ (8 - l) + a)
def outCell (l q b : Nat) : Nat := cellId (18 - l) (q * 2 ^ (8 - l) + b)

/-- Whether a cycle must be set the other way round: it holds a benched cell whose park state differs. -/
def cycleFlip (b : BenchSet) (l q : Nat) (c : List (Nat × Nat)) : Bool :=
  let cells := c.map (fun e => (inCell l q (e.1 / 2), decide (e.1 % 2 = 1))) ++ c.map (fun e => (outCell l q (e.2 / 2), decide (e.2 % 2 = 1)))
  match cells.find? (fun e => b.set.getLsbD e.1) with
  | some (id, st) => b.park.getLsbD id != st
  | none => false

/-- Settings of one subnetwork's outer stages: for each cycle its (input, output) pairs that use the upper subnetwork. -/
def loopCycles (b : BenchSet) (l q : Nat) (p pi : List Nat) : List (Nat × Nat) :=
  ((List.range (p.length / 2)).foldl
    (fun (acc : List (Nat × Nat)) a =>
      if acc.any (fun e => e.1 / 2 = a) then acc
      else
        let c := cycleFrom p pi (2 * a) p.length (2 * a)
        acc ++ (if cycleFlip b l q c then c.map (fun e => (lineTwin e.1, lineTwin e.2)) else c)) [])

/-- The pairs of a flipped cycle must keep input and output together: the output of each upper input. -/
def upperOf (pi : List Nat) (c : List (Nat × Nat)) : List (Nat × Nat) := c.map (fun e => (e.1, pi.getD e.1 0))

/-- The half permutation of a subnetwork from pairs (input, output): input position of each output position. -/
def halfPerm (n : Nat) (pairs : List (Nat × Nat)) : List Nat :=
  (List.range n).map (fun o => match pairs.find? (fun e => e.2 / 2 = o) with | some e => e.1 / 2 | none => 0)

/-- The line a centre domain's local input i leaves on when its ten cells hold the value v (step 3 of R81). -/
def centreOut (v i : Nat) : Nat :=
  let st (k n : Nat) : Nat := cellOut (bitOf v (k + n / 2)) n
  let n7 := st 0 i
  let n8 := st 8 (rotr 2 n7)
  let n9 := st 6 (rotr 2 n8)
  let n10 := st 2 (rotr 2 n9)
  st 4 (rotl 2 n10)

/-- The cell of a centre domain under weight index k (R81). -/
def centreCell (d k : Nat) : Nat :=
  let s := match k / 2 with | 0 => 7 | 1 => 10 | 2 => 11 | 3 => 9 | _ => 8
  cellId s (2 * d + k % 2)

/-- The smallest value of a centre domain that realises a permutation and holds its benched cells parked. -/
def centreValue (b : BenchSet) (d : Nat) (p : List Nat) : Nat :=
  ((List.range 1024).find? (fun v =>
    (List.range 4).all (fun o => centreOut v (p.getD o 0) = o) &&
    (List.range 10).all (fun k => !b.set.getLsbD (centreCell d k) ||
      b.park.getLsbD (centreCell d k) == bitOf v k))).getD 0

/-- The cells in cross of a subnetwork with k levels below it, at level 7 − k. -/
def routeCells (b : BenchSet) : Nat → Nat → List Nat → List Nat
  | 0, q, p =>
    let v := centreValue b q p
    ((List.range 10).filter (fun k => bitOf v k)).map (centreCell q)
  | k + 1, q, p =>
    let l := 6 - k
    let pi := permInv p
    let up := upperOf pi (loopCycles b l q p pi)
    let low := up.map (fun e => (lineTwin e.1, pi.getD (lineTwin e.1) 0))
    (up.filter (fun e => e.1 % 2 = 1)).map (fun e => inCell l q (e.1 / 2)) ++
    (up.filter (fun e => e.2 % 2 = 1)).map (fun e => outCell l q (e.2 / 2)) ++
    routeCells b k (2 * q) (halfPerm (p.length / 2) up) ++
    routeCells b k (2 * q + 1) (halfPerm (p.length / 2) low)

/-- The image with the given cells in cross. -/
def imageOf (cells : List Nat) : Image := BitVec.ofNat 4864 (cells.foldl (fun a c => a ||| 2 ^ c) 0)

/-- The cell image of a hand against a bench set (R81). -/
def route (b : BenchSet) (h : Hand) : Image := imageOf (routeCells b 7 0 (completePerm h))

/-- The 608 bytes of an image (R82). -/
def imageBytes (i : Image) : List Byte := leBytes 608 i.toNat

/-! ## Gates (R80); gate g is input gate g below 512, output gate g − 512 above -/

/-- The step of an output gate. -/
def outStep (e : BitVec 16) : Nat := if entLit e then entStep e else 15

/-- Steps of all gates a hand asks for; an unlisted gate is at step 15. -/
def handSteps (h : Hand) : Sparse Nat :=
  h.foldl (fun st p =>
    if entLit p.2 then spSet 15 (512 + p.1) (entStep p.2) (spSet 15 (entInput p.2) 0 st) else st) []

/-- The step of a gate. -/
def stepOf (st : Sparse Nat) (g : Nat) : Nat := spGet 15 g st

/-- The element ID of a gate (R8). -/
def gateElem (g : Nat) : Nat := 4864 + g

/-! ## Elements and bank dies (R8) -/

/-- The bank die that serves an element. -/
def bankOf (e : Nat) : Nat :=
  if e < 4864 then e % 256 / 32 else if e < 5376 then (e - 4864) / 64 else (e - 5376) / 64

/-- Stage and row of a cell. -/
def stageOf (c : Nat) : Nat := c / 256
def rowOf (c : Nat) : Nat := c % 256

/-! ## Domains and benches (R84, R85) -/

/-- The numbers of the elements of an image's ones. -/
def onesOf (i : Image) : List Nat := (List.range 4864).filter (fun c => i.getLsbD c)

/-- The outer domain of a cell outside stages 7 to 11, as 256 × L + q. -/
def outerDomain (c : Nat) : Nat :=
  let l := if stageOf c < 7 then stageOf c else 18 - stageOf c
  256 * l + rowOf c / 2 ^ (8 - l)

/-- The cell lies in a centre domain. -/
def inCentre (c : Nat) : Bool := 7 ≤ stageOf c && stageOf c ≤ 11

/-- Three consecutive stages of a centre domain hold none of the benched cells. -/
def centreFree (set : Image) (d : Nat) : Bool :=
  let free (s : Nat) : Bool := !set.getLsbD (cellId s (2 * d)) && !set.getLsbD (cellId s (2 * d + 1))
  (free 7 && free 8 && free 9) || (free 8 && free 9 && free 10) || (free 9 && free 10 && free 11)

/-- The admission rule for a set of benched cells (R85). -/
def admits (set : Image) : Bool :=
  let l := onesOf set
  noDup ((l.filter (fun c => !inCentre c)).map outerDomain) &&
  (l.filter inCentre).all (fun c => centreFree set (rowOf c / 2))

/-! ## The fabric temperature (R31, R475), in 1/128 °C -/

def Thermal.path (t : Thermal) (p : Nat) : SPath := t.paths.getD p ⟨none, 0, false⟩
def Thermal.sensor (t : Thermal) (s : Nat) : Sensor := t.sensors.getD s ⟨0, 0, false⟩
def Thermal.setSensor (t : Thermal) (s : Nat) (v : Sensor) : Thermal := { t with sensors := t.sensors.setIfInBounds s v }

/-- The reading of a path that has not failed. -/
def Thermal.good (t : Thermal) (p : Nat) : Option Int := if (t.path p).failed then none else (t.path p).last

/-- The mean of the readings that are there. -/
def meanOf (l : List (Option Int)) : Option Rat :=
  let v := l.filterMap id
  if v.isEmpty then none else some (((v.foldl (· + ·) 0 : Int) : Rat) / ((v.length : Nat) : Rat))

/-- The fabric reading: the mean of its valid paths (R31). -/
def Thermal.fabric (t : Thermal) : Option Rat := meanOf [t.good 0, t.good 1]

/-- The mean of the valid bank-die sensors. -/
def Thermal.bankMean (t : Thermal) : Option Rat := meanOf ((List.range 8).map (fun b => t.good (2 + b)))

/-- The fabric temperature in use: with sensor 0 failed, the bank-die mean plus the last O_f (R475). -/
def Thermal.fabricTemp (t : Thermal) : Option Rat :=
  match t.fabric with
  | some f => some f
  | none => if (t.sensor 0).failed then t.bankMean.map (fun (m : Rat) => m + t.oF) else none

end Sys2Proof.Machine
end

