-- ==== Sys2Proof/Machine/Reals.lean ====
section
/-!
DEFINITION. The real functions the manual uses, as rationals whose error lies far below every unit it stores or compares (log entry 11): π,
decibels as power ratios (R71 to R78), ten times a decimal logarithm, the sine.
-/

namespace Sys2Proof.Machine

/-- π to 40 places. -/
def piQ : Rat := 31415926535897932384626433832795028841972 / 10 ^ 40

/-- A rational cut to 96 binary places. -/
def cut96 (q : Rat) : Rat := ((q * 2 ^ 96).floor : Rat) / 2 ^ 96

/-- 10 to the power −2^k / 10,000 in units of 2⁻⁹⁶, for k = 0 to 19. -/
def decibelPowers : List Nat :=
  [79209921655806303210440091079, 79191684996977626962955766019, 79155224274341015187157078427,
   79082353182091881921853233285, 78936812193405806484899459101, 78646533271993767477138941172,
   78069173882320161614809374364, 76927139507629320160434308257, 74692945097153028355039246526,
   70417334824367029591013101436, 62586344128254405253767780009, 49440127689886206787493911386,
   30851734388667328735796444039, 12013777482438894813113504216, 1821711432113174689669359850,
   41887031537483191249553166, 22145198820005763538204, 6189842288583818,
   484, 0]

/-- The power ratio of an attenuation of n/1000 dB, n not negative: a product over the bits of n. -/
def attenuation (n : Nat) : Rat :=
  (decibelPowers.zipIdx).foldl (fun a p => if bitOf n p.2 then cut96 (a * (p.1 : Rat) / 2 ^ 96) else a) 1

/-- The power ratio of an attenuation in 1/1000 dB; a gain where it is negative. -/
def dbRatio (n : Int) : Rat := if 0 ≤ n then attenuation n.toNat else 1 / attenuation (-n).toNat

/-- The power of 10 at or below a positive ratio, searched within 10 to the power ±40, and the ratio divided by it. -/
def decade (q : Rat) : Int × Rat :=
  (List.range 40).foldl (fun (a : Int × Rat) _ =>
    if 10 ≤ a.2 then (a.1 + 1, a.2 / 10) else if a.2 < 1 then (a.1 - 1, a.2 * 10) else a) (0, q)

/-- The first k binary places of the decimal logarithm of a ratio from 1 to 10, in units of 2^−k. -/
def logBits : Nat → Rat → Nat → Nat
  | 0, _, a => a
  | k + 1, m, a =>
    let m2 := cut96 (m * m)
    if 10 ≤ m2 then logBits k (m2 / 10) (2 * a + 1) else logBits k m2 (2 * a)

/-- 10 · log₁₀ of a positive ratio; of a ratio that is not, the level −400 dB, below every other. -/
def tenLog10 (q : Rat) : Rat :=
  if q ≤ 0 then -400
  else
    let d := decade q
    10 * ((d.1 : Rat) + (logBits 48 d.2 0 : Rat) / 2 ^ 48)

/-- The sine of an angle of at most π in magnitude, from its series. -/
def sinSeries (u : Rat) : Rat :=
  ((List.range 16).foldl (fun (a : Rat × Rat) k =>
    (a.1 + a.2, cut96 (-a.2 * u * u / (((2 * k + 2) * (2 * k + 3) : Nat) : Rat)))) (0, u)).1

/-- The sine of a phase given in cycles. -/
def sinCycles (c : Rat) : Rat := sinSeries (cut96 (2 * piQ * (c - ((c + 1 / 2).floor : Rat))))

end Sys2Proof.Machine
end

