-- ==== Sys2Proof/Machine/Operands.lean ====
section
/-!
DEFINITION. The operand forms of the commands: fields of a 64-byte descriptor (R399 and the tables of the chapters), take
headers and take pairs (R121, R122), deck descriptors (R155), elements and channels (R8, R255), and the codes of status and
of link messages.
-/

namespace Sys2Proof.Machine

/-! ## Completion status codes (R405) -/

def stOk : Nat := 0
def stLate : Nat := 1
def stBusy : Nat := 2
def stInvalid : Nat := 3
def stConflict : Nat := 4
def stSafety : Nat := 5
def stNotDecl : Nat := 6
def stFull : Nat := 7
def stAborted : Nat := 8
def stTimeout : Nat := 9
def stDegraded : Nat := 10

/-! ## Descriptors (R399) -/

def dOpcode (d : List Byte) : Nat := leAt d 0 1
def dFlags (d : List Byte) : Nat := leAt d 1 1
def dTag (d : List Byte) : Nat := leAt d 2 2
def dExpire (d : List Byte) : Nat := leAt d 8 8

/-- Bytes a to b of a descriptor are all 0. -/
def zeroRange (d : List Byte) (a b : Nat) : Bool := allZero (bytesAt d a (b + 1 - a))

/-- The reserved bits of the common header are 0 (R399, R401). -/
def headerOk (d : List Byte) : Bool := decide (dFlags d < 8) && zeroRange d 4 7

/-- DFLAGS bits. -/
def flIrq (f : Nat) : Bool := bitOf f 0
def flFence (f : Nat) : Bool := bitOf f 1
def flQuiet (f : Nat) : Bool := bitOf f 2

/-! ## Elements and channels (R8, R255) -/

/-- The local channel of an element on its bank die. -/
def chanOf (e : Nat) : Nat :=
  if e < 4864 then e / 256 * 32 + e % 256 % 32
  else if e < 5376 then 608 + (e - 4864) % 64 else 672 + (e - 5376) % 64

/-- The element a local channel of a bank die serves. -/
def elemOf (b l : Nat) : Nat :=
  if l < 608 then l / 32 * 256 + b * 32 + l % 32
  else if l < 672 then 4864 + b * 64 + (l - 608) else 5376 + b * 64 + (l - 672)

/-- An element is a cell; an input gate; an output gate. -/
def isCell (e : Nat) : Bool := e < 4864
def isInGate (e : Nat) : Bool := 4864 ≤ e && e < 5376
def isOutGate (e : Nat) : Bool := 5376 ≤ e && e < 5888

/-! ## Takes (R121 to R123) -/

/-- A take header with its pairs, as read. -/
structure TakeForm where
  time : Nat
  frac : Nat
  flags : Nat
  count : Nat
  cadSel : Nat
  cadRate : Nat
  cadOfs : Int
  /-- The reserved bytes of the header are 0. -/
  resOk : Bool
  pairs : List (Nat × Nat)
deriving DecidableEq, Repr

/-- A take pair: output word and hand entry, as numbers. -/
def pairAt (d : List Byte) (at_ : Nat) : Nat × Nat := (leAt d at_ 2, leAt d (at_ + 2) 2)

/-- The n pairs from an offset. -/
def pairsAt (d : List Byte) (at_ n : Nat) : List (Nat × Nat) := (List.range n).map (fun i => pairAt d (at_ + 4 * i))

/-- A take header at an offset of a little-endian list, with its pairs. -/
def takeForm (d : List Byte) (at_ : Nat) (pairs : List (Nat × Nat)) : TakeForm :=
  { time := leAt d at_ 8, frac := leAt d (at_ + 8) 2, flags := leAt d (at_ + 10) 1, count := leAt d (at_ + 11) 1,
    cadSel := leAt d (at_ + 12) 1, cadRate := leAt d (at_ + 16) 4, cadOfs := signedOf 32 (leAt d (at_ + 20) 4),
    resOk := zeroRange d (at_ + 13) (at_ + 15), pairs := pairs }

/-- The pairs of a whole hand: 512 entries in output order (FORM 1 of R122). -/
def handPairs (data : List Byte) : List (Nat × Nat) := (List.range 512).map (fun n => (n, leAt data (2 * n) 2))

/-! ## Deck descriptors (R155) -/

/-- The 32 bytes of a deck descriptor, decoded. -/
def deckDesc (b : List Byte) : DeckDesc :=
  let fl := leAt b 18 1
  { first := leAt b 0 2, count := leAt b 2 2, rep := leAt b 4 4, start := leAt b 8 8 * 8 + leAt b 16 2 / 8192,
    late := bitsOf fl 1 0, auto := bitOf fl 2, blank := bitOf fl 3, pmaskEn := bitOf fl 4, pmaskSet := bitsOf fl 6 5,
    guard_ := leAt b 20 2, epoch := (let e := leAt b 22 2; if e = 0 then 64 else e), atrick := bitsOf (leAt b 24 4) 23 0 }

/-- The reserved bits of a deck descriptor are 0. -/
def deckDescOk (b : List Byte) : Bool :=
  decide (leAt b 18 1 < 128) && zeroRange b 19 19 && decide (bitsOf (leAt b 24 4) 31 24 = 0) && zeroRange b 28 31

/-- The mask of one port. -/
def maskBit (i : Nat) : PortMask := BitVec.ofNat 512 (2 ^ i)

/-! ## Messages on a bank link: kinds to a bank die and from it (R267) -/

def mCancel : Nat := 1
def mRead : Nat := 2
def mReadRestart : Nat := 3
def mRestart : Nat := 4
def mUrgent : Nat := 5
def mBand : Nat := 6
def mGain : Nat := 7
def mBlindCtx : Nat := 8
def mDiscipline : Nat := 9
def mClaim : Nat := 10
def mYield : Nat := 11
def mShut : Nat := 12
def mRelease : Nat := 13
def mConvCal : Nat := 14
def mNotice : Nat := 15
def mCut : Nat := 16
def mFire : Nat := 17
def mStatus : Nat := 18

def rStore : Nat := 1
def rUrgentRefused : Nat := 2
def rPreAck : Nat := 3
def rPreNack : Nat := 4
def rGranted : Nat := 5
def rRefused : Nat := 6
def rTokenRefused : Nat := 7
def rWake : Nat := 8
def rStale : Nat := 9
def rFresh : Nat := 10
def rCalDone : Nat := 11
def rBlind : Nat := 12
def rProbe : Nat := 13
def rUrgent : Nat := 14
def rVerify : Nat := 15

end Sys2Proof.Machine
end

