-- ==== Sys2Proof/Machine/Flags.lean ====
section
/-!
DEFINITION. Flags and checks: CRC-32C, the status a fabric command completes with (R43, R425, R471), the conditions of the
level sources (R462) and of the replacement request (R471), and `settle`, which brings sticky and RAW bits, the replacement
request and the overlay bits into step with them after every command.
-/

namespace Sys2Proof.Machine

/-! ## CRC-32C (Castagnoli, reflected, 0x82F63B78), as R290, R356 and R490 use it -/

/-- One bit of the division. -/
def crcBit (c : Nat) : Nat := if c % 2 = 1 then Nat.xor (c / 2) 0x82F63B78 else c / 2

/-- Eight bits. -/
def crcByte (c : Nat) (b : Byte) : Nat :=
  crcBit (crcBit (crcBit (crcBit (crcBit (crcBit (crcBit (crcBit (Nat.xor c b.toNat))))))))

/-- CRC-32C of a byte list. -/
def crc32c (l : List Byte) : Nat := Nat.xor (l.foldl crcByte 0xFFFFFFFF) 0xFFFFFFFF

/-! ## Commands that change the fabric (R403) -/

/-- An opcode changes the fabric. -/
def changesFabric (op : Nat) : Bool :=
  [0x10, 0x11, 0x20, 0x21, 0x22, 0x23, 0x30, 0x31, 0x38, 0x39, 0x3A, 0x78].contains op

/-- Conditions of the replacement request, the bits of FLT_REPL. -/
def rpTalon : Nat := 0
def rpCdie : Nat := 1
def rpBlink : Nat := 2
def rpEngines : Nat := 3
def rpSensor : Nat := 4
def rpMirror : Nat := 5
def rpWear : Nat := 6
def rpBankCal : Nat := 7

/-- A centre domain is consumed (R309). -/
def domainUsed (set : Image) (d : Nat) : Bool :=
  [7, 8, 9, 10, 11].any (fun s => set.getLsbD (cellId s (2 * d)) || set.getLsbD (cellId s (2 * d + 1)))

/-- Consumed domains of a Talon region (R86, R309). -/
def regionUsed (set : Image) (k : Nat) : Nat :=
  ((List.range 16).filter (fun i => domainUsed set (16 * k + i))).length

/-- Hold engines of a die that are fenced. -/
def fencedCount (x : Die) : Nat := (x.eng.eng.filter (fun p => p.2.state = 3)).length

/-- Status of a fabric command that executed: OK, or DONE_DEGRADED under a withdrawn guarantee. `cell` is the cell a
TALON_SUBST names. -/
def doneStatus (s : State) (d : DieId) (op cell : Nat) : Nat :=
  let x := s.die d
  let rp (i : Nat) : Bool := x.flt.repl.getLsbD i
  let solo := x.rbit Reg.RED_STATUS F.RED_STATUS_SOLO
  if changesFabric op && (solo || rp rpCdie || rp rpMirror) then stDegraded
  else if op = 0x3A && (rp rpWear || (inCentre cell && decide (13 ≤ regionUsed x.cal.bench.set (rowOf cell / 32)))) then
    stDegraded
  else if (op = 0x30 || op = 0x31) && 24 < fencedCount x then stDegraded
  else if op = 0x39 && rp rpSensor then stDegraded
  else if op = 0x78 && rp rpBankCal then stDegraded
  else stOk

/-! ## Level sources (R462) -/

/-- Elements of a bank die that meet a condition, on a die. -/
def elemsOf (x : Die) (b : Nat) (p : Elem → Bool) : Nat :=
  (x.hold.filter (fun e => bankOf e.1 = b && p e.2)).length

/-- The real condition of a level source as a die sees it. -/
def levelNow (s : State) (d : DieId) (i : Nat) : Bool :=
  let x := s.die d
  if i = 0 then s.above != 0 || s.overSum
  else if i = 6 then x.rbit Reg.CAL_STATUS F.CAL_STATUS_UNCOVERED
  else if i = 9 then x.flt.repl.getLsbD rpTalon
  else if i = 13 then x.flt.repl != 0
  else if 20 ≤ i && i < 60 then decide (0 < elemsOf x ((i - 20) / 5) (·.implausible))
  else if 60 ≤ i && i < 108 then
    let b := (i - 60) / 6
    if (i - 60) % 6 = 0 then (s.bank b).chans.any (fun c => c.2.short)
    else if (i - 60) % 6 = 1 then (s.bank b).chans.any (fun c => c.2.driveFault)
    else decide (32 < elemsOf x b (·.fallback))
  else if i = 175 then x.isDummy && x.rbit Reg.TIM_STATUS F.TIM_STATUS_SLAVE_ERR
  else if i = 179 then x.clock.ppsAbsent
  -- a die that has not joined its peer yet expects no link (log entry 28)
  else if i = 185 then (decide (x.role ≠ 0) || x.inResync) && decide (s.mirror.state ≠ 2)
  else if 196 ≤ i && i ≤ 199 then (x.lgd.zones.getD (i - 196) Zone.reset).state == .tripped
  else if 216 ≤ i && i ≤ 218 then decide (i - 215 ≤ x.thm.level)
  else if i = 220 then x.thm.sensors.any (·.failed)
  else if i = 222 then x.rbit Reg.THM_STATUS F.THM_STATUS_CLASS_MISM
  else if i = 224 then x.thm.budget
  else false

/-- The level sources, ascending. -/
def levelSources : List Nat := (List.range 250).filter srcIsLevel

/-- The replacement conditions of a die: those that follow state, and the two that PEER_ABSENCE_TIMEOUT raises, which end
when a peer is Dummy and, for the mirror link, the link is up (R471). -/
def replNow (s : State) (d : DieId) : BitVec 8 :=
  let x := s.die d
  let old (i : Nat) : Bool := x.flt.repl.getLsbD i
  let paired := (s.cd0.isDecl && s.cd1.isDummy) || (s.cd1.isDecl && s.cd0.isDummy)
  let lost := (List.range 8).any (fun b => (s.bank b).linkA.state = 3 || (s.bank b).linkB.state = 3)
  let bits : List Bool :=
    [(List.range 8).any (fun k => 13 ≤ regionUsed x.cal.bench.set k),
     old rpCdie && !paired, lost, x.isDecl && decide (4 < fencedCount x), x.thm.sensors.any (·.failed),
     old rpMirror && !(s.mirror.state = 2 && paired), s.wear, (List.range 8).any (fun b => (s.bank b).calFail)]
  BitVec.ofNat 8 ((bits.zipIdx).foldl (fun a p => a + b2n p.1 * 2 ^ p.2) 0)

/-- The instance an occurrence of a source concerns when nothing else names it (R435, R439): an element of its bank die, a bank die, a
link, with 16 for the mirror link. -/
def srcInst (x : Die) (i : Nat) : Nat :=
  if 20 ≤ i && i < 60 then
    let b := (i - 20) / 5
    ((x.hold.find? (fun e => bankOf e.1 = b && e.2.implausible)).map (·.1)).getD (elemOf b 0)
  else if 60 ≤ i && i < 108 then (i - 60) / 6
  else if 108 ≤ i && i < 124 then i - 108
  else if i = 185 then 16
  else 0

/-- One level source follows its condition; becoming present is an occurrence (R463). -/
def settleLevel (s : State) (d : DieId) (i : Nat) : State :=
  let x := s.die d
  let was := x.flt.raw.getLsbD i
  let now := levelNow s d i
  if now && !was then
    s.onDie d (fun x =>
      let x1 := x.occur i (srcInst x i) true (srcStamp s d i)
      { x1 with flt := { x1.flt with raw := x1.flt.raw ||| BitVec.ofNat 256 (2 ^ i) } })
  else if was && !now then
    s.onDie d (fun x => { x with flt := { x.flt with raw := x.flt.raw &&& ~~~ BitVec.ofNat 256 (2 ^ i) } })
  else s

/-- A running die's replacement request and level sources follow their conditions, and a Declarer's overlay bits follow
R39 and R59. -/
def settleDie (s : State) (d : DieId) : State :=
  if (s.die d).running then
    let s1 := s.onDie d (fun x => { x with flt := { x.flt with repl := replNow s d } })
    setMode (levelSources.foldl (fun s i => settleLevel s d i) s1) d id
  else s

/-- Everything that follows the state by rule, after a command. -/
def settle (s : State) : State := settleDie (settleDie s .cd0) .cd1

/-- What every meaning answers: the settled next state. -/
def done (s : State) : Host.Outcome State Fault Refusal := .next (settle s)

/-- What a row answers that only a running control die carries out: a die held in reset or in BOOT does nothing (R47, R493). -/
def doneUp (d : DieId) (f : State → State) (s : State) : Host.Outcome State Fault Refusal :=
  done (if (s.die d).running then f s else s)

/-- What a row answers that is a register access of the host: BAR0 reaches no register of a die in BOOT (R45). -/
def doneBar (d : DieId) (f : State → State) (s : State) : Host.Outcome State Fault Refusal :=
  done (if (s.die d).barOpen then f s else s)

end Sys2Proof.Machine
end

