-- ==== Sys2Proof/Machine/CalMath.lean ====
section
/-!
DEFINITION. What the calibration image gives at the fabric temperature (R286 to R289), the feed-forward of the loops
(R196, R199), and the optical powers predicted along the paths (R71 to R75).
-/

namespace Sys2Proof.Machine

/-- The twelve calibration temperatures (R285), °C. -/
def pointTemp (j : Nat) : Int := [-55, -40, -20, 0, 15, 30, 45, 60, 75, 90, 105, 125].getD j 125

/-- Point set Pj of an image is valid. -/
def pointValid (img : CalImage) (j : Nat) : Bool := (spFind j img.points).isSome

/-- The bracketing points of a temperature in °C (R287), when it is covered. -/
def bracket (img : CalImage) (t : Rat) : Option (Nat × Nat) :=
  let valid := (List.range 12).filter (pointValid img)
  if t < -55 then (if valid.contains 0 then some (0, 0) else none)
  else if 125 < t then (if valid.contains 11 then some (11, 11) else none)
  else
    match (valid.filter (fun j => ((pointTemp j : Int) : Rat) ≤ t)).getLast?,
          (valid.filter (fun j => t ≤ ((pointTemp j : Int) : Rat))).head? with
    | some j, some k => some (j, k)
    | _, _ => none

/-- The weight of the upper point. -/
def bracketW (j k : Nat) (t : Rat) : Rat :=
  if pointTemp j = pointTemp k then 0
  else (t - ((pointTemp j : Int) : Rat)) / (((pointTemp k - pointTemp j : Int)) : Rat)

/-- T_f in °C. -/
def Cal.tempC (c : Cal) : Rat := c.tf / 256

/-- The temperature the values are taken at: T_f, or the last covered one while it is uncovered (R287). -/
def Cal.useTemp (c : Cal) : Rat := if (bracket c.active c.tempC).isSome then c.tempC else c.covered / 256

/-- An active image valid in the sense of R51: T_f covered, cell tables and element table valid. -/
def Cal.valid (c : Cal) : Bool :=
  (bracket c.active c.tempC).isSome && c.active.tables.isSome && c.active.elems.isSome

/-- A point-set quantity interpolated at a temperature; none while no point has covered it. -/
def interpAt (img : CalImage) (t : Rat) (q : PointSet → Int) : Option Rat :=
  match bracket img t with
  | none => none
  | some (j, k) =>
    match spFind j img.points, spFind k img.points with
    | some a, some b => let w := bracketW j k t; some ((1 - w) * ((q a : Int) : Rat) + w * ((q b : Int) : Rat))
    | _, _ => none

/-- An interpolated code, rounded; a free value while there is none. -/
def codeAt (img : CalImage) (t : Rat) (e kind : Nat) (q : PointSet → Int) : Int :=
  match interpAt img t q with
  | some v => roundRat v
  | none => Config.noCal e kind

/-- A cell's entry in a point set. -/
def cellPt (p : PointSet) (c : Nat) : CellPt := (spFind c p.cells).getD ⟨0, 0, 0, 0, 0, 0⟩

/-- A cell's codes and currents at the temperature in use: B, C and the PIN cross current (R287). -/
def Cal.cellB (c : Cal) (e : Nat) : Int := codeAt c.active c.useTemp e 0 (fun p => ((cellPt p e).b : Int))
def Cal.cellC (c : Cal) (e : Nat) : Int := codeAt c.active c.useTemp e 1 (fun p => ((cellPt p e).c : Int))
def Cal.cellIpi (c : Cal) (e : Nat) : Int := codeAt c.active c.useTemp e 2 (fun p => ((cellPt p e).ipi : Int))

/-- A gate's code for a step at the temperature in use; the shutter code at step 15 (R199, R37). -/
def Cal.gateCode (c : Cal) (g step : Nat) : Int :=
  if step = 15 then 0x3FFF
  else codeAt c.active c.useTemp (gateElem g) (3 + step) (fun p => ((((spFind g p.gates).getD []).getD step 0 : Nat) : Int))

/-- A cell's tables. -/
def Cal.tab (c : Cal) (e : Nat) : CellTab :=
  match c.active.tables with
  | some t => (spFind e t.cells).getD ⟨[], [], false, false⟩
  | none => ⟨[], [], false, false⟩

/-- An element's monitor response and losses. -/
def Cal.elem (c : Cal) (e : Nat) : ElemTab :=
  match c.active.elems with
  | some t => (spFind e t.elems).getD ⟨0, 0, 0⟩
  | none => ⟨0, 0, 0⟩

/-- L_ref at a position of its 64 points, in heater LSB (R292: units of 2 LSB), linear between points. -/
def linRef (lin : List Nat) (p : Rat) : Rat :=
  let k := p.floor.toNat
  let a : Rat := ((2 * lin.getD k 0 : Nat) : Rat)
  let b : Rat := ((2 * lin.getD (k + 1) (lin.getD k 0) : Nat) : Rat)
  a + (p - ((k : Nat) : Rat)) * (b - a)

/-- The scale s of R288. -/
def Cal.scale (c : Cal) (e : Nat) : Rat :=
  let l := linRef (c.tab e).lin (63 / 2)
  if l = 0 then 0 else ((c.cellC e - c.cellB e : Int) : Rat) / l

/-- L_c at a heater phase given in units of π, 0 to 2 (R196, R288). -/
def Cal.lin (c : Cal) (e : Nat) (phi : Rat) : Rat := c.scale e * linRef (c.tab e).lin (phi * 63 / 2)

/-- The high bar code W (R288). -/
def Cal.cellW (c : Cal) (e : Nat) : Int := roundRat (((c.cellB e : Int) : Rat) + c.lin e 2)

/-- The slope of the phase-linearisation table at a phase in units of π, in LSB per rad (R195). -/
def Cal.slope (c : Cal) (e : Nat) (phi : Rat) : Rat :=
  let p := phi * 63 / 2
  let k := min p.floor.toNat 62
  let lin := (c.tab e).lin
  c.scale e * (2 * (((lin.getD (k + 1) 0 : Nat) : Rat) - ((lin.getD k 0 : Nat) : Rat))) * 63 / (2 * piQ)

/-- κ at a phase position, linear between the eight of R289. -/
def kappaAt (k : List Int) (p : Nat) : Rat :=
  let i := p / 9
  let a : Rat := ((k.getD i 0 : Int) : Rat)
  let b : Rat := ((k.getD (i + 1) (k.getD i 0) : Int) : Rat)
  a + ((p % 9 : Nat) : Rat) / 9 * (b - a)

/-- A cell that is balanced, so held by feed-forward (R72). -/
def Elem.balanced (el : Elem) (e : Nat) : Bool := isCell e && !el.unbalanced

/-- An element of a die. -/
def Die.elem (x : Die) (e : Nat) : Elem := spGet Elem.reset e x.hold

/-- Replaces an element of a die. -/
def Die.setElem (x : Die) (e : Nat) (v : Elem) : Die := { x with hold := spSet Elem.reset e v x.hold }

/-- Applies f to an element of a die. -/
def Die.onElem (x : Die) (e : Nat) (f : Elem → Elem) : Die := x.setElem e (f (x.elem e))

/-- The phase a cell's heater is to hold above B, in units of π (R196): its position, and during a hand-off the ramp of
R140, taken as 30 µs (log entry 18), which a calibration or a DITHER_RUN holds where it stands. -/
def heaterPhi (el : Elem) (ticks : Nat) : Rat :=
  if el.handoff then
    el.phi + (((el.target : Nat) : Rat) - el.phi) * min 1 (((el.heldAt.getD ticks - el.handSince : Nat) : Rat) / 30000)
  else el.phi

/-- The phase the PIN shifter is to hold, in units of π: during a hand-off what the heater leaves to the target (R140). -/
def pinPhase (el : Elem) (ticks : Nat) : Rat :=
  if el.handoff then ((el.target : Nat) : Rat) - heaterPhi el ticks else el.pinPhi

/-- The phase position of a cell, 0 to 63 (R196). -/
def phasePos (phi : Rat) : Nat := (roundRat (phi * 63 / 2)).toNat

/-- The neighbour sum X_c (R196). -/
def neighbourSum (x : Die) (e ticks : Nat) : Rat :=
  ((x.cal.tab e).nbr.filter (fun n => isCell n.1)).foldl (fun a n => a + kappaAt n.2 (phasePos (heaterPhi (x.elem n.1) ticks))) 0

/-- F_h of a cell (R196). -/
def ffHeater (x : Die) (e ticks : Nat) : Rat :=
  let phi := heaterPhi (x.elem e) ticks
  ((x.cal.cellB e : Int) : Rat) + x.cal.lin e phi - neighbourSum x e ticks

/-- The heater code a thermal-only deal gives a changed cell (R138): the bar or cross code of its new state, neighbours corrected. -/
def thermalCode (x : Die) (e : Nat) (cross : Bool) (ticks : Nat) : Nat :=
  (roundRat (((x.cal.cellB e : Int) : Rat) + x.cal.lin e (if cross then 1 else 0) - neighbourSum x e ticks)).toNat

/-- F_p of a cell for a PIN phase in units of π (R196). -/
def ffPin (x : Die) (e : Nat) (phi : Rat) : Rat := ((x.cal.cellIpi e : Int) : Rat) * phi

/-! ## Powers, in µW (R71, R74) -/

/-- Light power of dBm given in 1/1000 dB, in µW. -/
def dbmUw (mdb : Int) : Rat := 1000 * dbRatio (-mdb)

/-- The −30 dBm level, 1 µW. -/
def darkUw : Rat := 1

/-- A monitor reading in normalised counts as power on the monitored line (R293). -/
def Cal.uwOf (c : Cal) (e : Nat) (w : Rat) : Rat :=
  let r := (c.elem e).resp
  if r = 0 then 0 else w * 65536 / ((r : Nat) : Rat)

/-- Predicted counts for a power on an element's monitored line. -/
def Cal.countsOf (c : Cal) (e : Nat) (uw : Rat) : Rat := uw * (((c.elem e).resp : Nat) : Rat) / 65536

/-- The output line of stage s whose connection is input line j of stage s + 1: the inverse of R67. -/
def unwire (s j : Nat) : Nat :=
  if s < 7 then rotl (9 - s) j else if s < 10 then rotl 2 j else rotr (s - 8) j

/-- The transmission of a cell in a state. -/
def Cal.cellGain (c : Cal) (e : Nat) (cross : Bool) : Rat :=
  dbRatio (((if cross then (c.elem e).lossB else (c.elem e).lossA) : Nat) : Int)

/-- The power that enters stage 0 on In i: the input-gate monitor's last window mean (R74). -/
def Die.inputUw (x : Die) (i : Nat) : Rat := x.cal.uwOf (4864 + i) (x.elem (4864 + i)).lastW

/-- The predicted power on input line n of stage s in an image: the input it comes from, attenuated by the cells passed. -/
def lineUw (x : Die) (img : Image) : Nat → Nat → Rat
  | 0, n => x.inputUw n
  | s + 1, n =>
    let o := unwire s n
    let c := cellId s (o / 2)
    let cr := img.getLsbD c
    lineUw x img s (cellOut cr o) * x.cal.cellGain c cr

/-- The predicted powers on a cell's two input lines (R72). -/
def cellInUw (x : Die) (img : Image) (c : Nat) : Rat × Rat :=
  (lineUw x img (stageOf c) (2 * rowOf c), lineUw x img (stageOf c) (2 * rowOf c + 1))

/-- A cell is balanced (R72). -/
def isBalanced (p : Rat × Rat) : Bool :=
  let m := max p.1 p.2
  decide (10 * (m - min p.1 p.2) < m) || (decide (p.1 < darkUw) && decide (p.2 < darkUw))

/-- A cell carries no lit path (R142): both predicted input powers below −30 dBm. -/
def cellDark (p : Rat × Rat) : Bool := decide (p.1 < darkUw) && decide (p.2 < darkUw)

/-- The predicted power on a cell's tapped output line 2r + 1 in a state (R71). -/
def tapUw (x : Die) (p : Rat × Rat) (c : Nat) (cross : Bool) : Rat :=
  (if cross then p.1 else p.2) * x.cal.cellGain c cross

/-- The predicted power arriving at output gate n (R200). -/
def outUw (x : Die) (img : Image) (n : Nat) : Rat :=
  -- output line n of stage 18 leaves the cell of row n / 2
  let c := cellId 18 (n / 2)
  let cr := img.getLsbD c
  lineUw x img 18 (cellOut cr n) * x.cal.cellGain c cr

/-- The transmission of a gate at a step (R73): its loss at step 0 and 1 dB for each step; at the shutter, 35 dB (log
entry 19). -/
def Cal.gateGain (c : Cal) (g step : Nat) : Rat :=
  dbRatio ((((c.elem (gateElem g)).lossA + (if step = 15 then 35000 else 1000 * step) : Nat)) : Int)

/-- The incident power of an input whose gate stands at a step, from a monitor reading in normalised counts (R74). -/
def incidentUw (x : Die) (i step : Nat) (w : Rat) : Rat :=
  let g := x.cal.gateGain i step
  if g = 0 then 0 else x.cal.uwOf (4864 + i) w / g

/-- Light present on an input by its incident power, the gate's step and the previous report (R75). -/
def lightPresent (shut : Bool) (uw : Rat) (before : Bool) : Bool :=
  let hi := if shut then dbmUw (-8000) else dbmUw (-30000)
  let lo := if shut then dbmUw (-14000) else dbmUw (-36000)
  if hi ≤ uw then true else if uw < lo then false else before

end Sys2Proof.Machine
end

