-- ==== Sys2Proof/Machine/Bank.lean ====
section
/-!
DEFINITION. The bank dies (chapter 08): channels, shadows and strobe groups, preloads, stores and comparators, links, token,
copies, safety shuts, the blind engine. The meanings of the rows that reach a bank die over a link stand at the end, those
that reach into the control dies as well in Machine/BankRows.lean.
-/

namespace Sys2Proof.Machine

/-! ## Channels and outputs -/

def Bank.chan (b : Bank) (l : Nat) : Chan := spGet Chan.reset l b.chans
def Bank.setChan (b : Bank) (l : Nat) (c : Chan) : Bank := { b with chans := spSet Chan.reset l c b.chans }
def Bank.onChan (b : Bank) (l : Nat) (f : Chan → Chan) : Bank := b.setChan l (f (b.chan l))

/-- Records W1C bits that an event sets in the present clock, by offset in the bank die's page (R19). -/
def Bank.freshen (b : Bank) (off bits : Nat) : Bank :=
  { b with fresh := spPut off (((spFind off b.fresh).getD 0) ||| BitVec.ofNat 32 bits) b.fresh }

/-- The bits that a W1C write of v clears: a bit whose event came in the same clock stays set (R19). -/
def Bank.clearing (b : Bank) (off v : Nat) : Nat := Nat.land v (2 ^ 32 - 1 - ((spFind off b.fresh).getD 0).toNat)

/-- A gate of the channel is forced shut (R270). -/
def Chan.forced (c : Chan) : Bool := c.shutA || c.shutB

/-- The heater DAC code as applied (R257): at ×1 the value, clamped; at ×2 (value + 1) div 2. -/
def heaterCode (x2 : Bool) (v : Nat) : Nat := if x2 then (v + 1) / 2 else min v 65535

/-- PIN current in ×1 LSB (R259). -/
def Chan.pinCur (c : Chan) : Nat := if c.pinX2 then 2 * c.pin else c.pin

/-- The current a cell's PIN driver sources at an instant of the deal clock, with the pulse of its last deal; none during an extraction
pulse (R136, R259). -/
def Chan.pinOut (c : Chan) (now : Nat) : Option Nat :=
  match c.pulse with
  | some p => if now < p.ends then (if p.extract then none else some (c.pinCur + p.extra)) else some c.pinCur
  | none => some c.pinCur

/-- The gate code at the output: a shut and a cut put the shutter code there (R270, R484). -/
def Bank.gateOut (b : Bank) (l : Nat) : Nat := if b.cut || (b.chan l).forced then 0x3FFF else (b.chan l).gate

/-- The code that drives a gate: none where the output stages are disabled, in STANDBY and OFF, and the gate carries no current (R36 to R38). -/
def Bank.gateDrive (b : Bank) (l : Nat) : Option Nat := if b.driven then some (b.gateOut l) else none

/-! ## Shadows and groups (R263, R264) -/

/-- Loads the shadow a drive write names. -/
def Chan.load (c : Chan) (m : DriveMsg) : Chan :=
  let sh : Shadow := ⟨m.code, m.x2, m.group⟩
  match m.out with
  | .heater => { c with shHeater := some sh }
  | .pin => { c with shPin := some sh }
  | .gate => { c with shGate := some sh }

/-- A heater value reaches the output (R257); an overload is over once the value falls (R261, log entry 107). -/
def Chan.heat (c : Chan) (x2 : Bool) (v : Nat) : Chan :=
  { c with heater := v, clamped := c.clamped || (!x2 && decide (65535 < v)), short := c.short && decide (c.heater ≤ v) }

/-- A PIN code with its reference, or a gate code, reaches the output; a compliance fault is over once the current falls (R261). -/
def Chan.putPin (c : Chan) (code : Nat) (x2 : Bool) : Chan :=
  let c1 := { c with pin := code, pinX2 := x2 }
  { c1 with driveFault := c.driveFault && decide (c.pinCur ≤ c1.pinCur) }
def Chan.putGate (c : Chan) (code : Nat) : Chan := { c with gate := code, driveFault := c.driveFault && decide (c.gate ≤ code) }

/-- A PIN current in ×1 LSB put on the DAC: above 4 mA the channel switches to ×2 and halves its code (R259). -/
def Chan.setCur (c : Chan) (cur : Nat) : Chan := if cur ≤ 4095 then c.putPin cur false else c.putPin (min 4095 (cur / 2)) true

/-- Transfers the pending shadows of a group to their outputs; a gate forced shut keeps its shadow. -/
def Chan.fire (c : Chan) (x2 : Bool) (g : Nat) : Chan :=
  let c1 := match c.shHeater with
    | some sh => if sh.group = g then { c.heat x2 sh.code with shHeater := none } else c
    | none => c
  let c2 := match c1.shPin with
    | some sh => if sh.group = g then { c1.putPin sh.code sh.x2 with shPin := none } else c1
    | none => c1
  match c2.shGate with
  | some sh => if sh.group = g && !c2.forced then { c2.putGate sh.code with shGate := none } else c2
  | none => c2

/-- A strobe group fires (R263); drive that is cut stays cut. -/
def Bank.fire (b : Bank) (g : Nat) : Bank :=
  if b.cut then b else { b with chans := spMap Chan.reset (fun _ c => c.fire b.heaterX2 g) b.chans }

/-- Discards a channel's pending loop shadows; how many there were. -/
def Chan.dropShadows (c : Chan) : Chan × Nat :=
  ({ c with shHeater := none, shPin := none, shGate := none },
    b2n c.shHeater.isSome + b2n c.shPin.isSome + b2n c.shGate.isSome)

/-! ## Element records (R411) -/

/-- Codes of an ELEMENT record. -/
def ecWake : Nat := 0
def ecFrozen : Nat := 1
def ecLost : Nat := 2
def ecLeft : Nat := 3
def ecImplausible : Nat := 4
def ecCleared : Nat := 5
def ecMisses : Nat := 6
def ecShort : Nat := 7
def ecDriveFault : Nat := 8
def ecBenchRefused : Nat := 9

/-- An ELEMENT record of the Declarer, with the element's last window mean: of an engine cluster at the die's time, or of a bank die at
its deal clock (R114, R410). -/
def elementEvent (s : State) (d : DieId) (e code : Nat) (byBank : Bool) : State :=
  if !(s.die d).isDecl then s
  else
    let w := (roundRat ((s.die d).elem e).lastW).toNat
    eventMirrored s d evElement (if byBank then 0x10 + bankOf e else 0x20 + bankOf e)
      (if byBank then (s.bank (bankOf e)).clock / 2 ^ 24 else (s.die d).ns16)
      (leBytes 2 e ++ leBytes 1 code ++ [0] ++ leBytes 4 w)

/-- The same on whichever die is Declarer. -/
def elementNote (s : State) (e code : Nat) : State :=
  match s.declarer with
  | some d => elementEvent s d e code true
  | none => s

/-! ## Links, holder and copies (R266 to R269) -/

/-- The link to a control die. -/
def Bank.link (b : Bank) : DieId → Link
  | .cd0 => b.linkA
  | .cd1 => b.linkB

def Bank.setLink (b : Bank) : DieId → Link → Bank
  | .cd0, l => { b with linkA := l }
  | .cd1, l => { b with linkB := l }

/-- A port's link is up. -/
def Bank.up (b : Bank) (p : DieId) : Bool := (b.link p).state = 2

/-- A port is the holder. -/
def Bank.holds (b : Bank) (p : DieId) : Bool := b.holder == some p

/-- A port's writes are applied: it holds the token, or it held it and the overlap of R268 runs. -/
def Bank.accepts (b : Bank) (p : DieId) (t : Nat) : Bool :=
  b.holds p || (match b.overlap with | some (q, e) => q == p && decide (t < e) | none => false)

/-- A message of the holder arrives: the silence of R53 ends. -/
def Bank.heard (b : Bank) (p : DieId) (t : Nat) : Bank := if b.holds p then { b with lastMsg := t } else b

/-- The blind engine stops at the holder's drive write (R283). -/
def Bank.unblind (b : Bank) : Bank :=
  if b.blind.on then { b with blind := { b.blind with on := false, own := false, ramping := false } } else b

/-- A good message of port p that is applied: the row of bad frames ends, the holder is heard, and a drive write ends BLIND HOLD. -/
def Bank.receive (b : Bank) (p : DieId) (t : Nat) (drive : Bool) : Bank :=
  let k := (b.setLink p { b.link p with bad := 0 }).heard p t
  if drive then k.unblind else k

/-- A result sent on both ports (R267). -/
def sendBoth (s : State) (b kind : Nat) (fields : List Nat) : State :=
  (s.emit (.fromBank b .cd0 kind fields)).emit (.fromBank b .cd1 kind fields)

/-- A difference or a missing copy that the Dummy reports (R421): its source, and the count against RED_CMP_CFG.LIMIT. -/
def noteDiff (s : State) (d : DieId) (src : Nat) : State :=
  let s1 := raise s d src
  let sec := (s.die d).ns / 1000000000
  s1.onDie d (fun x => { x with red := { x.red with
    cmp := if x.red.cmpSec = sec then x.red.cmp + 1 else 1, cmpSec := sec } })

/-- The die that runs in shadow, if any. -/
def State.dummy (s : State) : Option DieId :=
  if s.cd0.isDummy then some .cd0 else if s.cd1.isDummy then some .cd1 else none

/-- Adds to a health total of both dies: 0 replays, 1 heartbeats missed, 2 mismatches, 3 missing, 4 self-test failures (R409,
R411). -/
def Die.addTotal (x : Die) (i : Nat) : Die :=
  { x with red := { x.red with totals := x.red.totals.setIfInBounds i (satAdd 32 (x.red.totals.getD i 0) 1) } }

/-- A shadow difference at a bank die (R269, R421). -/
def bankDiff (s : State) (b : Nat) (missing : Bool) : State :=
  let s1 := s.onBank b (fun k =>
    if missing then { k with missing := satAdd 16 k.missing 1 } else { k with mismatch := satAdd 16 k.mismatch 1 })
  let s2 := (s1.onDie .cd0 (·.addTotal (if missing then 3 else 2))).onDie .cd1 (·.addTotal (if missing then 3 else 2))
  match s2.dummy with
  | some d => noteDiff s2 d (if missing then 192 else 191)
  | none => s2

/-- A holder message or the other port's copy of it meets its partner, or waits for it (R269). While one link is down there
is no partner to wait for. -/
def compareCopy (s : State) (p : DieId) (b kind elem update : Nat) (fields : List Nat) : State :=
  let k := s.bank b
  if !(k.up .cd0 && k.up .cd1) then s
  else
    match k.copies.find? (fun c => c.port != p && c.kind = kind && c.elem = elem && c.update = update) with
    | some c =>
      let s1 := s.onBank b (fun k => { k with copies := k.copies.filter (fun e => e != c) })
      if c.fields = fields then s1 else bankDiff s1 b false
    | none => s.onBank b (fun k => { k with copies := k.copies ++ [⟨p, kind, elem, update, fields, s.ticks⟩] })

/-- The fields of a drive write that R269 compares, and its output's number. -/
def driveFields (m : DriveMsg) : List Nat := [m.code, b2n m.x2, m.group, b2n m.fire]
def outNum : DriveOut → Nat
  | .heater => 0
  | .pin => 1
  | .gate => 2

/-- A former holder's message after the overlap is refused (R268): a die that is not Declarer sends copies only. -/
def tokenRefuse (s : State) (p : DieId) (b : Nat) : State :=
  (s.onBank b (fun k => { k with refused := satAdd 8 k.refused 1 })).emit (.fromBank b p rTokenRefused [])

/-- What a holder's message or its copy does on arrival (R267): compared in every case; from the holder, `f` acts; from a
former holder it is refused; from the Dummy it is suppressed. `drive` marks the writes of R283. -/
def holderMsg (s : State) (p : DieId) (b kind elem update : Nat) (fields : List Nat) (drive : Bool) (f : State → State) :
    State :=
  let k := s.bank b
  if !k.up p then s
  else if k.accepts p s.ticks then
    let s1 := s.onBank b (·.receive p s.ticks drive)
    f (compareCopy s1 p b kind elem update fields)
  else if (s.die p).isDecl && k.holder.isSome then tokenRefuse s p b
  else compareCopy s p b kind elem update fields

/-! ## Preloads (R265) -/

/-- The pre-emphasis of a deal (DLR_PREEMPH): sixteenths of the steady current, and the instant at which pulses end. -/
structure Preemph where
  amp : Nat
  ends : Nat
deriving DecidableEq, Repr

/-- 16 mA in ×1 PIN LSB. -/
def pulseMax : Nat := 4 * 4095

/-- A cell's PIN current moves by its π current at a deal (R265, step 2): it falls when the cell is not in hand-off and
carries at least half its π current. The driver adds the pulse of R136 as it rises, cut at 16 mA, and extracts carriers as it falls (R259). -/
def Chan.dealPin (c : Chan) (handoff : Bool) (pre : Preemph) : Chan :=
  let cur := c.pinCur
  if !handoff && 0 < c.piCode && c.piCode ≤ 2 * cur then
    { c.setCur (cur - min cur c.piCode) with pulse := some ⟨0, true, pre.ends⟩ }
  else
    let n := cur + c.piCode
    { c.setCur n with pulse := some ⟨min (n * pre.amp / 16) (pulseMax - n), false, pre.ends⟩ }

/-- A changed cell at its deal (R265, R138). -/
def Chan.dealCell (c : Chan) (handoff thermal : Bool) (heater : Option Nat) (x2 : Bool) (pre : Preemph) : Chan :=
  let c1 := { c with cross := !c.cross, dealSeq := c.dealSeq + 1 }
  match thermal, c.pinCur, heater with
  | true, 0, some v => c1.heat x2 v
  | _, _, _ => c1.dealPin handoff pre

/-- In BLIND HOLD the blind engine adopts the new state of a cell that a deal changes (R281): the heater position of a thermal deal too; the
ramp and the tracking hold the dealt codes until the next values are computed. -/
def Blind.adopt (bl : Blind) (l : Nat) (c : Chan) (heated : Bool) : Blind :=
  let ctx := spGet ⟨false, 0, false, false⟩ l bl.cells
  let ctx1 : BlindCell := { cross := c.cross, pos := if heated then (if c.cross then 1 else 0) else ctx.pos, onPin := decide (0 < c.pinCur),
                            handoff := false }
  let put (m : Sparse Nat) : Sparse Nat := spSet 0 (4 * l + 1) c.pinCur (spSet 0 (4 * l) c.heater m)
  { bl with cells := spSet ⟨false, 0, false, false⟩ l ctx1 bl.cells, start := put bl.start, target := put bl.target }

/-- Applies a preload at its instant, in one cycle (R265). A gate that is forced shut takes its code into its shadow (R270). -/
def Bank.applyPreload (b : Bank) (m : PreloadMsg) (pre : Preemph) : Bank :=
  let changed := (List.range 608).filter (fun l => m.cells.getLsbD l != (b.chan l).cross)
  let cellStep (k : Bank) (l : Nat) : Bank :=
    let (c, n) := (k.chan l).dropShadows
    let ctx := spGet ⟨false, 0, false, false⟩ l k.blind.cells
    let htr := (m.heaters.find? (fun h => h.1 = l)).map (·.2)
    let heated := m.thermal && htr.isSome && decide (c.pinCur = 0)
    let c := c.dealCell ctx.handoff m.thermal htr k.heaterX2 pre
    let k0 := k.setChan l c
    { k0 with discard := satAdd 32 k.discard n, blind := if k.blind.on then k0.blind.adopt l c heated else k0.blind }
  let gateStep (k : Bank) (g : Nat × BitVec 14) : Bank :=
    let (c, n) := (k.chan g.1).dropShadows
    let c1 := { c with dealSeq := c.dealSeq + 1 }
    let c2 := if c.forced then { c1 with shGate := some ⟨g.2.toNat, false, 0⟩ } else c1.putGate g.2.toNat
    let bl := if k.blind.on then { k.blind with start := spSet 0 (4 * g.1 + 2) g.2.toNat k.blind.start,
                                                target := spSet 0 (4 * g.1 + 2) g.2.toNat k.blind.target } else k.blind
    { k.setChan g.1 c2 with discard := satAdd 32 k.discard n, blind := bl }
  if b.cut then b else m.gates.foldl gateStep (changed.foldl cellStep (b.fire 0))

/-- The bank die's deal clock in 125 ps units. -/
def Bank.now (b : Bank) : Nat := b.clock / 2 ^ 37

/-- The deal follower fires every preload whose instant has come (R281). -/
def firePreloads (s : State) (b : Nat) : State :=
  let k := s.bank b
  let due := k.preloads.filter (fun p => decide (p.msg.instant ≤ k.now))
  if due.isEmpty then s
  else
    let silent := decide (4 * usT < s.ticks - k.lastMsg)
    let pre (p : Preload) : Preemph :=
      let x := s.die (k.holder.getD p.port)
      ⟨min 0x30 (x.rf Reg.DLR_PREEMPH F.DLR_PREEMPH_AMP), p.msg.instant + 2 * min 0x30 (x.rf Reg.DLR_PREEMPH F.DLR_PREEMPH_WIDTH)⟩
    let k1 := due.foldl (fun k p => k.applyPreload p.msg (pre p)) k
    let k2 : Bank := { k1 with preloads := k.preloads.filter (fun p => !decide (p.msg.instant ≤ k.now)), followed := k1.followed || silent }
    let s1 := s.setBank b (if silent then k2.freshen 0x4 (2 ^ F.BNK_STATUS_FOLLOWED.lo) else k2)
    if silent then raiseBoth s1 (60 + 6 * b + 5) b else s1

/-! ## Stores and conversions (R271 to R276) -/

/-- Weight of a TIA range (R271). -/
def rangeWeight (r : Nat) : Nat := if r = 0 then 1024 else if r = 1 then 32 else 1

/-- Adds one conversion to a store (R274). -/
def Store.add (st : Store) (raw : Nat) : Store :=
  let clip := st.clip || raw == 16383
  if st.count = 65535 then { st with clip := clip }
  else { st with sum := st.sum + raw, count := st.count + 1, full := decide (st.count + 1 = 65535),
                 min := if st.count = 0 then raw else Nat.min st.min raw, max := Nat.max st.max raw, clip := clip }

/-- The range of the window after a restart (R272); a window without conversions leaves it. -/
def Store.nextRange (st : Store) (locked : Bool) : Nat :=
  if locked || st.count = 0 then st.range
  else if 15872 ≤ st.max then st.range - 1
  else if st.max < 400 then Nat.min 2 (st.range + 1)
  else st.range

/-- A store restarted. -/
def Store.restart (st : Store) (locked : Bool) : Store := { Store.empty with range := st.nextRange locked }

/-- What a read delivers: sum, min and max in normalised counts, raw count, range, CLIP, FULL (R274). -/
def Store.fields (st : Store) : List Nat :=
  let w := rangeWeight st.range
  [st.sum * w, st.min * w, st.max * w, st.count, st.range, b2n st.clip, b2n st.full]

/-- The mean of a store in normalised counts; none without conversions. -/
def Store.mean (st : Store) : Option Rat :=
  if st.count = 0 then none else some (((st.sum * rangeWeight st.range : Nat) : Rat) / ((st.count : Nat) : Rat))

/-- Restarts a channel's store. -/
def Bank.restart (b : Bank) (l : Nat) : Bank := b.onChan l (fun c => { c with store := c.store.restart c.locked })

/-- First channel and number of channels of an ADC (R256). -/
def adcBase (k : Nat) : Nat := if k < 16 then 31 * k else 496 + 30 * (k - 16)
def adcLen (k : Nat) : Nat := if k < 16 then 31 else 30

/-- The ADC that converts a channel. -/
def adcOf (l : Nat) : Nat := if l < 496 then l / 31 else 16 + (l - 496) / 30

/-- The length of the comparator window (BNK_CMP_CFG.LEN, R275). -/
def cmpLen (s : State) (b : Nat) : Nat :=
  let d := s.declarer.getD .cd0
  clampNat 4 64 ((s.die d).rf (Reg.BNK_CMP_CFG b) F.BNK_CMP_CFG_LEN)

/-- One conversion of a channel, added to its store and to its comparator; a completed mean outside the band of an armed
comparator is reported to both ports and disarms it (R274, R275). -/
def convert (s : State) (b l raw : Nat) : State :=
  let k := s.bank b
  let c := k.chan l
  let w := raw * rangeWeight c.store.range
  let n := cmpLen s b
  let sum := c.cmpSum + w
  let cnt := c.cmpCount + 1
  let c1 := { c with store := c.store.add raw }
  if cnt < n then s.setBank b (k.setChan l { c1 with cmpSum := sum, cmpCount := cnt })
  else
    let out := c.armed && !c.cmpSkip && (decide (sum < c.bandLo * cnt) || decide (c.bandHi * cnt < sum)) && k.cal.isNone
    let s1 := s.setBank b (k.setChan l { c1 with cmpSum := 0, cmpCount := 0, cmpSkip := false, armed := c.armed && !out })
    if out then sendBoth s1 b rWake [elemOf b l, sum / cnt, k.clock / 2 ^ 40] else s1

/-- A port check of input i that runs between W0 and S has seen the input dark (R326). -/
def checkDark (x : Die) (i : Nat) : Die :=
  let f (c : PortCheck) : PortCheck := if c.port = i && decide (c.w0 ≤ x.ns) && decide (x.ns < c.s) then { c with dark := true } else c
  { x with vsp := { x.vsp with checks := x.vsp.checks.map f } }

/-- The step at which an input gate stands now (R74): 0 while a survey has it open, the shutter while a safety shut or a cut holds it there,
else the step dealt. -/
def inGateStep (s : State) (d : DieId) (i : Nat) : Nat :=
  let x := s.die d
  let k := s.bank (bankOf (4864 + i))
  if k.cut || (k.chan (chanOf (4864 + i))).forced then 15
  else match x.cal.survey with
    | some v => if v.input = i then 0 else stepOf x.dealer.steps i
    | none => stepOf x.dealer.steps i

/-- What an input gate's monitor reports with a conversion of w normalised counts: light present or absent (R75), over-power of the input
and of the sum over all inputs (R78). -/
def lightReport (s : State) (i : Nat) (w : Rat) : State :=
  match s.declarer with
  | none => s
  | some d =>
    let x := s.die d
    let m := maskBit i
    let step := inGateStep s d i
    let uw := incidentUw x i step w
    let before := s.light.getLsbD i
    let now := lightPresent (decide (step = 15)) uw before
    let rest := ((List.range 512).filter (fun j => j ≠ i)).foldl (fun (a : Rat) j => a + incidentUw x j (inGateStep s d j) (x.elem (4864 + j)).lastW) 0
    let s1 : State := { s with light := if now then s.light ||| m else s.light &&& ~~~ m,
                               above := if dbmUw 17500 < uw then s.above ||| m else s.above &&& ~~~ m,
                               overSum := decide (dbmUw 39500 < rest + uw) }
    if before && now then s1 else s1.onDie d (fun x => checkDark x i)

/-- A conversion of a channel, with what an input gate's monitor reports of it. -/
def converted (s : State) (b l raw : Nat) : State :=
  let s1 := convert s b l raw
  if isInGate (elemOf b l) then
    lightReport s1 (elemOf b l - 4864) (((raw * rangeWeight ((s.bank b).chan l).store.range : Nat) : Rat))
  else s1

/-- The channel an ADC has just converted, the urgent request it served if any, and the bank die with the next one chosen (R273): an urgent
request first, then the round-robin; during a calibration only requests queued before it (R279). -/
def Bank.nextConv (b : Bank) (adc : Nat) : Option (Nat × Option Urgent × Bank) :=
  let q := spGet [] adc b.urgent
  match q with
  | u :: rest =>
    if b.cal.isSome && decide ((b.cal.map (·.since)).getD 0 ≤ u.at_) then none
    else some (u.chan, some u, { b with urgent := spSet [] adc rest b.urgent })
  | [] =>
    if b.cal.isSome then none
    else
      let i := spGet 0 adc b.robin
      some (adcBase adc + i, none, { b with robin := spSet 0 adc ((i + 1) % adcLen adc) b.robin })

/-! ## The blind engine (R282, R283) -/

/-- The context of a cell that was never written: bar at B. -/
def BlindCell.reset : BlindCell := ⟨false, 0, false, false⟩

/-- Interpolates a table by calibration temperature, linearly between the neighbouring ones, held beyond the ends. -/
def blindInterp (t : Rat) (q : Nat → Nat) : Nat :=
  let js := (List.range 12).filter (fun j => ((pointTemp j : Int) : Rat) ≤ t)
  match js.getLast? with
  | none => q 0
  | some j =>
    if j = 11 then q 11
    else
      let w := bracketW j (j + 1) t
      (roundRat ((1 - w) * ((q j : Nat) : Rat) + w * ((q (j + 1) : Nat) : Rat))).toNat

/-- A cell's entry of the blind tables: B, C, W and π current by index. -/
def Blind.cellAt (bl : Blind) (l i : Nat) (t : Rat) : Nat :=
  blindInterp t (fun j => (spGet [] (j * 608 + l) bl.cellTab).getD i 0)

/-- A gate's entry. -/
def Blind.gateAt (bl : Blind) (l step : Nat) (t : Rat) : Nat :=
  if step = 15 then 0x3FFF else blindInterp t (fun j => spGet 0 ((j * 128 + (l - 608)) * 16 + step) bl.gateTab)

/-- The feed-forward values of all outputs (R283), by key 4 × l + output (0 heater, 1 PIN current in ×1 LSB, 2 gate). -/
def Blind.targets (bl : Blind) : Sparse Nat :=
  let t := bl.temp / 128
  let cells := (List.range 608).foldl (fun a l =>
    let c := spGet BlindCell.reset l bl.cells
    let a := spSet 0 (4 * l) (bl.cellAt l c.pos.val t) a
    spSet 0 (4 * l + 1) (if c.onPin || c.handoff then bl.cellAt l 3 t else 0) a) []
  (List.range 128).foldl (fun a g => spSet 0 (4 * (608 + g) + 2) (bl.gateAt (608 + g) (spGet 15 (608 + g) bl.gateStep) t) a) cells

/-- The present outputs in the same form. -/
def Bank.outputs (b : Bank) : Sparse Nat :=
  let cells := (List.range 608).foldl (fun a l =>
    spSet 0 (4 * l + 1) (b.chan l).pinCur (spSet 0 (4 * l) (b.chan l).heater a)) []
  (List.range 128).foldl (fun a g => spSet 0 (4 * (608 + g) + 2) (b.chan (608 + g)).gate a) cells

/-- Puts an output at a value. -/
def Bank.putOut (b : Bank) (key v : Nat) : Bank :=
  b.onChan (key / 4) (fun c =>
    if key % 4 = 0 then c.heat b.heaterX2 v else if key % 4 = 1 then c.setCur v else if c.forced then c else c.putGate v)

/-- The temperature the blind engine uses, unfiltered, in 1/128 °C (R283): BD0 and BD4 the fabric diode, the others their
own diode plus D_b. -/
def Bank.blindRaw (b : Bank) (n : Nat) : Rat :=
  if n = 0 || n = 4 then ((b.fabric : Int) : Rat) else ((b.own + b.blind.offset : Int) : Rat)

/-- The filtered temperature up to a tick (R283), with a time constant of 1 s; it starts at the first reading. -/
def Bank.filterTemp (b : Bank) (n t : Nat) : Bank :=
  let raw := b.blindRaw n
  let v := match b.blind.tempAt with
    | none => raw
    | some u => b.blind.temp + (raw - b.blind.temp) * min 1 (((t - u : Nat) : Rat) / ((secT : Nat) : Rat))
  { b with blind := { b.blind with temp := v, tempAt := some t } }

/-- Enters BLIND HOLD at a tick (R55, R283): a ramp of 1 ms to the feed-forward values of the present temperature, none without tables. -/
def Bank.enterBlind (b : Bank) (n : Nat) (own : Bool) (t : Nat) : Bank :=
  if b.blind.on then b
  else
    let b := b.filterTemp n t
    let bl := { b.blind with on := true, own := own, since := t, ramping := b.blind.tables, start := b.outputs,
                             target := if b.blind.tables then b.blind.targets else b.outputs, lastTick := t, lastStep := t }
    { b with blind := bl }

/-- A value on the linear ramp from a to c after e of n. -/
def rampAt (a c e n : Nat) : Nat :=
  if a ≤ c then a + (c - a) * min e n / n else a - (a - c) * min e n / n

/-- A value moved towards a target by at most n. -/
def towards (a c n : Nat) : Nat := if a ≤ c then min c (a + n) else max c (a - n)

/-- The keys of every drive output. -/
def outputKeys : List Nat :=
  (List.range 608).flatMap (fun l => [4 * l, 4 * l + 1]) ++ (List.range 128).map (fun g => 4 * (608 + g) + 2)

/-- The ramp, and after it the tracking by at most 1 LSB per 10 µs (R55, R283). -/
def Bank.rampStep (b : Bank) (t : Nat) : Bank :=
  let bl := b.blind
  if !bl.on || !bl.tables then b
  else if bl.ramping then
    let e := t - bl.since
    let b1 := outputKeys.foldl (fun b k => b.putOut k (rampAt (spGet 0 k bl.start) (spGet 0 k bl.target) e msT)) b
    { b1 with blind := { b1.blind with ramping := decide (e < msT), lastStep := t } }
  else
    let n := (t - bl.lastStep) / (10 * usT)
    if n = 0 then b
    else
      let now := b.outputs
      let b1 := outputKeys.foldl (fun b k => b.putOut k (towards (spGet 0 k now) (spGet 0 k bl.target) n)) b
      { b1 with blind := { b1.blind with lastStep := t } }

/-- A cut (R480, R484): heater and PIN drive off, gates at the shutter code. -/
def Bank.cutDrive (b : Bank) : Bank :=
  { b with cut := true,
           chans := spMap Chan.reset (fun _ c =>
             { c with heater := 0, pin := 0, pinX2 := false, pulse := none, gate := 0x3FFF, shHeater := none, shPin := none,
                      shGate := none, short := false, driveFault := false }) b.chans }

/-! ## Meanings: messages of the holder -/

/-- DRIVE_WRITE (R263, R265). -/
def driveWrite (p : DieId) (b : Nat) (m : DriveMsg) (s : State) : State :=
  holderMsg s p b (20 + outNum m.out) (elemOf b m.chan) m.update (driveFields m) true (fun s =>
    let k := s.bank b
    let c := k.chan m.chan
    if m.dealSeq < c.dealSeq then s.setBank b { k with discard := satAdd 32 k.discard 1 }
    else
      let k1 := k.setChan m.chan (c.load m)
      s.setBank b (if m.fire then k1.fire m.group else k1))

def execDriveWrite (port : DieId) (bank : Fin 8) (msg : DriveMsg) (s : State) : Host.Outcome State Fault Refusal :=
  done (driveWrite port bank.val msg s)

/-- What R269 compares of a preload: instant, cells, gate codes, heaters. -/
def preloadCompared (m : PreloadMsg) : List Nat :=
  [m.instant, m.cells.toNat, b2n m.thermal] ++ m.gates.flatMap (fun g => [g.1, g.2.toNat]) ++ m.heaters.flatMap (fun h => [h.1, h.2])

/-- PRELOAD_RECEIVE (R130, R265): stored and acknowledged, or a fifth refused; the π currents of the cells come with the
holder's feed-forward (log entry 20). -/
def preloadReceive (p : DieId) (b : Nat) (m : PreloadMsg) (s : State) : State :=
  holderMsg s p b 30 0 m.number (preloadCompared m) true (fun s =>
    let k := s.bank b
    let mark (f : Deal → Deal) (x : Die) : Die := { x with dealer := { x.dealer with pending := x.dealer.pending.map (fun dl =>
      if dl.preload = m.number then f dl else dl) } }
    let bit : BitVec 8 := BitVec.ofNat 8 (2 ^ b)
    if 4 ≤ k.preloads.length then
      (s.onDie p (mark (fun dl => { dl with refused := dl.refused ||| bit }))).emit (.fromBank b p rPreNack [m.number])
    else
      let cal := (s.die p).cal
      let changed := (List.range 608).filter (fun l => m.cells.getLsbD l != (k.chan l).cross)
      let k1 := changed.foldl (fun k l => k.onChan l (fun c =>
        { c with piCode := if ((s.die p).elem (elemOf b l)).mode = 3 then 0 else (cal.cellIpi (elemOf b l)).toNat })) k
      let s1 := s.setBank b { k1 with preloads := k.preloads ++ [⟨p, m⟩] }
      (s1.onDie p (mark (fun dl => { dl with acks := dl.acks ||| bit }))).emit (.fromBank b p rPreAck [m.number]))

def execPreloadReceive (port : DieId) (bank : Fin 8) (msg : PreloadMsg) (s : State) : Host.Outcome State Fault Refusal :=
  done (preloadReceive port bank.val msg s)

/-- PRELOAD_CANCEL (R130). -/
def preloadCancel (p : DieId) (b n : Nat) (s : State) : State :=
  holderMsg s p b mCancel 0 n [] false (fun s =>
    s.onBank b (fun k => { k with preloads := k.preloads.filter (fun q => !(q.port == p && q.msg.number = n)) }))

def execPreloadCancel (port : DieId) (bank : Fin 8) (number : Nat) (s : State) : Host.Outcome State Fault Refusal :=
  done (preloadCancel port bank.val number s)

/-- ACCUMULATOR_READ, _READ_RESTART and _RESTART (R274): the store, read, restarted or both, the result on both ports. -/
def accAccess (p : DieId) (b l update : Nat) (read restart : Bool) (s : State) : State :=
  let kind := if read then (if restart then mReadRestart else mRead) else mRestart
  holderMsg s p b kind (elemOf b l) update [] false (fun s =>
    let st := ((s.bank b).chan l).store
    let s0 := if read then s.onBank b (·.onChan l (fun c => { c with last := st })) else s
    let s1 := if restart then s0.onBank b (·.restart l) else s0
    if read then sendBoth s1 b rStore (elemOf b l :: st.fields) else s1)

def execAccumulatorRead (port : DieId) (bank : Fin 8) (chan : Fin 736) (update : Nat) (s : State) :
    Host.Outcome State Fault Refusal := done (accAccess port bank.val chan.val update true false s)

def execAccumulatorReadRestart (port : DieId) (bank : Fin 8) (chan : Fin 736) (update : Nat) (s : State) :
    Host.Outcome State Fault Refusal := done (accAccess port bank.val chan.val update true true s)

def execAccumulatorRestart (port : DieId) (bank : Fin 8) (chan : Fin 736) (update : Nat) (s : State) :
    Host.Outcome State Fault Refusal := done (accAccess port bank.val chan.val update false true s)

/-- URGENT_REQUEST (R273): queued, or refused at a queue of 32. -/
def urgentRequest (p : DieId) (b l update : Nat) (s : State) : State :=
  holderMsg s p b mUrgent (elemOf b l) update [] false (fun s =>
    let k := s.bank b
    let a := adcOf l
    let q := spGet [] a k.urgent
    if 32 ≤ q.length then
      (s.setBank b { k with urgOvf := satAdd 32 k.urgOvf 1 }).emit (.fromBank b p rUrgentRefused [elemOf b l])
    else s.setBank b { k with urgent := spSet [] a (q ++ [⟨l, update, s.ticks⟩]) k.urgent })

def execUrgentRequest (port : DieId) (bank : Fin 8) (chan : Fin 736) (update : Nat) (s : State) :
    Host.Outcome State Fault Refusal := done (urgentRequest port bank.val chan.val update s)

/-- BAND_SET (R275): the band set arms the comparator from the next full window. -/
def bandSet (p : DieId) (b l lo hi update : Nat) (s : State) : State :=
  holderMsg s p b mBand (elemOf b l) update [lo, hi] false (fun s =>
    s.onBank b (·.onChan l (fun c => { c with bandLo := lo, bandHi := hi, armed := true, cmpSum := 0, cmpCount := 0 })))

def execBandSet (port : DieId) (bank : Fin 8) (chan : Fin 736) (lo hi : BitVec 24) (update : Nat) (s : State) :
    Host.Outcome State Fault Refusal := done (bandSet port bank.val chan.val lo.toNat hi.toNat update s)

/-- GAIN_CHANGE (R258): outputs and shadows alike, in one cycle. -/
def gainChange (p : DieId) (b : Nat) (x2 : Bool) (s : State) : State :=
  holderMsg s p b mGain 0 (b2n x2) [b2n x2] true (fun s =>
    s.onBank b (fun k => { k with heaterX2 := x2, chans := spMap Chan.reset (fun _ c => c.heat x2 c.heater) k.chans }))

def execGainChange (port : DieId) (bank : Fin 8) (x2 : Bool) (s : State) : Host.Outcome State Fault Refusal :=
  done (gainChange port bank.val x2 s)

/-- One update of the blind context or tables (R282). -/
def Blind.write (bl : Blind) : BlindWrite → Blind
  | .cell l c => { bl with cells := spSet BlindCell.reset l c bl.cells }
  | .gateStep l st => { bl with gateStep := spSet 15 l st.val bl.gateStep }
  | .cellTable t l b c w ipi => { bl with tables := true, cellTab := spSet [] (t.val * 608 + l) [b, c, w, ipi] bl.cellTab }
  | .gateTable t l st code =>
    { bl with tables := true, gateTab := spSet 0 ((t.val * 128 + (l - 608)) * 16 + st.val) code.toNat bl.gateTab }
  | .offset d => { bl with offset := d }

/-- What R269 compares of such an update. -/
def blindCompared : BlindWrite → List Nat
  | .cell l c => [0, l, b2n c.cross, c.pos.val, b2n c.onPin, b2n c.handoff]
  | .gateStep l st => [1, l, st.val]
  | .cellTable t l b c w ipi => [2, t.val, l, b, c, w, ipi]
  | .gateTable t l st code => [3, t.val, l, st.val, code.toNat]
  | .offset d => [4, codeOf 32 d]

/-- BLIND_CONTEXT_WRITE (R282). -/
def blindContextWrite (p : DieId) (b : Nat) (ws : List BlindWrite) (s : State) : State :=
  holderMsg s p b mBlindCtx 0 0 (ws.flatMap blindCompared) false (fun s =>
    s.onBank b (fun k => { k with blind := ws.foldl Blind.write k.blind }))

def execBlindContextWrite (port : DieId) (bank : Fin 8) (writes : List BlindWrite) (s : State) :
    Host.Outcome State Fault Refusal := done (blindContextWrite port bank.val writes s)

/-! ## Meanings: token (R268) -/

/-- Why a claim would be granted: no holder or a yield; silence of 4 µs. -/
def Bank.claimFree (b : Bank) : Bool := b.holder.isNone || b.yielded
def Bank.claimSilent (b : Bank) (t : Nat) : Bool := decide (4 * usT ≤ t - b.lastMsg)

/-- TOKEN_CLAIM. -/
def tokenClaim (p : DieId) (b : Nat) (s : State) : State :=
  let k := s.bank b
  if !k.up p then s
  else if k.holds p && !k.yielded then s.emit (.fromBank b p rGranted [])
  else if k.claimFree || k.claimSilent s.ticks then
    let bySilence := !k.claimFree
    let k1 := { k with holder := some p, yielded := false, granted := true, lastMsg := s.ticks, lastGrant := s.ticks,
                       grants := (k.grants + 1) % 65536,
                       overlaps := if bySilence then satAdd 8 k.overlaps 1 else k.overlaps,
                       overlap := if bySilence then k.holder.map (fun q => (q, s.ticks + 2 * usT)) else k.overlap }
    (s.setBank b k1).emit (.fromBank b p rGranted [])
  else (s.onBank b (fun k => { k with refused := satAdd 8 k.refused 1 })).emit (.fromBank b p rRefused [])

def execTokenClaim (port : DieId) (bank : Fin 8) (s : State) : Host.Outcome State Fault Refusal :=
  done (tokenClaim port bank.val s)

/-- TOKEN_YIELD: from the holder's port. -/
def tokenYield (p : DieId) (b : Nat) (s : State) : State :=
  let k := s.bank b
  if k.up p && k.holds p then s.setBank b { k.heard p s.ticks with yielded := true } else s

def execTokenYield (port : DieId) (bank : Fin 8) (s : State) : Host.Outcome State Fault Refusal :=
  done (tokenYield port bank.val s)

/-! ## Meanings: safety (R270) -/

/-- The gate channels a 128-bit set names. -/
def gatesNamed (g : BitVec 128) : List Nat := ((List.range 128).filter (fun i => g.getLsbD i)).map (· + 608)

/-- A shut: each named gate goes to the shutter code, and is held there until released on every port whose link is up. Released, it stays at
that code until a fire or a write brings it another. -/
def Bank.shut (b : Bank) (g : BitVec 128) : Bank :=
  (gatesNamed g).foldl (fun b l => b.onChan l (fun c => { c.putGate 0x3FFF with shutA := true, shutB := true })) b

/-- The force of a gate ends once no port whose link is up still wants it; with no link up it stays. -/
def Bank.unforce (b : Bank) (c : Chan) : Chan :=
  if (c.shutA && b.up .cd0) || (c.shutB && b.up .cd1) || (!b.up .cd0 && !b.up .cd1) then c else { c with shutA := false, shutB := false }

/-- A port whose link has gone down no longer holds a gate shut (R270). -/
def Bank.portLost (b : Bank) : Bank := (gatesNamed (BitVec.allOnes 128)).foldl (fun b l => b.onChan l b.unforce) b

/-- A release on a port. -/
def Bank.release (b : Bank) (p : DieId) (g : BitVec 128) : Bank :=
  (gatesNamed g).foldl (fun b l => b.onChan l (fun c =>
    b.unforce (match p with | .cd0 => { c with shutA := false } | .cd1 => { c with shutB := false }))) b

/-- SAFETY_RELEASE. -/
def safetyRelease (p : DieId) (b : Nat) (g : BitVec 128) (s : State) : State :=
  if (s.bank b).up p then s.onBank b (fun k => (k.heard p s.ticks).release p g) else s

def execSafetyRelease (port : DieId) (bank : Fin 8) (gates : BitVec 128) (s : State) : Host.Outcome State Fault Refusal :=
  done (safetyRelease port bank.val gates s)

/-! ## Meanings: what a bank die does by itself -/

/-- SHADOW_COPY_TIMEOUT (R269): copies without a partner for 10 µs. -/
def shadowCopyTimeout (b : Nat) (s : State) : State :=
  let old := (s.bank b).copies.filter (fun c => decide (10 * usT < s.ticks - c.since))
  old.foldl (fun s c => bankDiff (s.onBank b (fun k => { k with copies := k.copies.filter (· != c) })) b true) s

def execShadowCopyTimeout (bank : Fin 8) (s : State) : Host.Outcome State Fault Refusal :=
  done (shadowCopyTimeout bank.val s)

/-- PROBE_TRIG_EDGE (R276): four conversions for each enabled slot, or a missed edge. -/
def probeEdge (b : Nat) (convs : List ProbeConv) (s : State) : State :=
  let k := s.bank b
  let early := match k.probeLast with | some t => decide (s.ticks - t < 2 * usT) | none => false
  if early || k.cal.isSome then
    raiseBoth (s.setBank b (({ k with probeMiss := satAdd 32 k.probeMiss 1, pmiss := true } : Bank).freshen 0x4 (2 ^ F.BNK_STATUS_PMISS.lo))) (60 + 6 * b + 4) b
  else
    let x := s.die (s.declarer.getD .cd0)
    let on (i : Nat) : Bool :=
      x.rbit (Reg.BNK_PROBE_CFG i b) F.BNK_PROBE_CFG_EN && decide (x.rf (Reg.BNK_PROBE_CFG i b) F.BNK_PROBE_CFG_CHANNEL < 736)
    let probes := convs.foldl (fun ps c =>
      -- the conversions are made in the watched channel's TIA range
      let range := (k.chan (x.rf (Reg.BNK_PROBE_CFG c.1 b) F.BNK_PROBE_CFG_CHANNEL)).store.range
      if on c.1 then spSet Store.empty c.1 (c.2.foldl (fun st r => st.add r.toNat) { spGet Store.empty c.1 ps with range := range }) ps
      else ps) k.probes
    sendBoth (s.setBank b { k with probes := probes, probeLast := some s.ticks, probeTime := k.clock / 2 ^ 40 }) b rProbe
      [k.clock / 2 ^ 40]

def execProbeTrigEdge (bank : Fin 8) (convs : List ProbeConv) (s : State) : Host.Outcome State Fault Refusal :=
  done (probeEdge bank.val convs s)

/-- BLIND_ENGINE_TICK (R283): every 10 ms new feed-forward values at the filtered temperature. -/
def blindTick (b : Nat) (s : State) : State :=
  let k := s.bank b
  let bl := k.blind
  if bl.on && decide (10 * msT ≤ s.ticks - bl.lastTick) then
    let bl1 := { (k.filterTemp b s.ticks).blind with lastTick := s.ticks }
    s.setBank b { k with blind := { bl1 with target := if bl1.tables then bl1.targets else bl1.target } }
  else s

def execBlindEngineTick (bank : Fin 8) (s : State) : Host.Outcome State Fault Refusal := done (blindTick bank.val s)

/-- HEATER_SHORT (R261): the flag of the channel and its record; the code does not change. -/
def heaterShort (b l : Nat) (s : State) : State :=
  elementNote (s.onBank b (fun k =>
    let k1 := k.onChan l (fun c => { c with short := true })
    ({ k1 with short := spSet false l true k.short } : Bank).freshen (0x100 + l / 32 * 4) (2 ^ (l % 32)))) (elemOf b l) ecShort

def execHeaterShort (bank : Fin 8) (chan : Fin 608) (s : State) : Host.Outcome State Fault Refusal :=
  done (heaterShort bank.val chan.val s)

/-- DRIVE_FAULT (R261). -/
def driveFaulted (b l : Nat) (s : State) : State :=
  elementNote (s.onBank b (fun k =>
    let k1 := k.onChan l (fun c => { c with driveFault := true })
    ({ k1 with drvf := spSet false l true k.drvf } : Bank).freshen (0x180 + l / 32 * 4) (2 ^ (l % 32)))) (elemOf b l) ecDriveFault

def execDriveFault (bank : Fin 8) (chan : Fin 736) (s : State) : Host.Outcome State Fault Refusal :=
  done (driveFaulted bank.val chan.val s)

/-- SHUTDOWN_NOTICE (R480). -/
def execShutdownNotice (port : DieId) (bank : Fin 8) (s : State) : Host.Outcome State Fault Refusal :=
  done (if (s.bank bank.val).up port then
    s.onBank bank.val (fun k => { k.heard port s.ticks with notice := some (k.notice.getD s.ticks) }) else s)

/-- SHUTDOWN_CUT (R484): accepted from either port; a drive write in the sense of R283. -/
def execShutdownCut (port : DieId) (bank : Fin 8) (s : State) : Host.Outcome State Fault Refusal :=
  done (if (s.bank bank.val).up port then s.onBank bank.val (fun k => (k.heard port s.ticks).unblind.cutDrive) else s)

/-- NOTICE_SILENCE_CUT (R480): a notice held, no cut, and 1 ms without a message from the holder's port. -/
def execNoticeSilenceCut (bank : Fin 8) (s : State) : Host.Outcome State Fault Refusal :=
  done (let k := s.bank bank.val
    if k.notice.isSome && !k.cut && decide (msT ≤ s.ticks - k.lastMsg) then s.setBank bank.val k.cutDrive else s)

end Sys2Proof.Machine
end

