-- ==== Sys2Proof/Machine/BankView.lean ====
section
/-!
DEFINITION. The registers of a bank die as a control die reads them over its link (BNK registers, chapter 08).
-/

namespace Sys2Proof.Machine

/-- A word from fields, each with the place of its least significant bit. -/
def packed (l : List (Nat × Nat)) : Nat := l.foldl (fun a p => a + p.1 * 2 ^ p.2) 0

/-- Word w of a bitmap. -/
def mapWord (p : Nat → Bool) (w : Nat) : Nat := packed ((List.range 32).map (fun i => (b2n (p (32 * w + i)), i)))

/-- A 32-bit word of a register's value. -/
def halfOf (hi : Bool) (v : Nat) : Nat := if hi then v / 2 ^ 32 % 2 ^ 32 else v % 2 ^ 32

/-- The INFO word of a store. -/
def storeInfo (st : Store) (armed locked : Bool) : Nat :=
  packed [(st.range, 30), (b2n st.clip, 29), (b2n st.full, 28), (b2n armed, 27), (b2n locked, 26), (min 65535 st.count, 0)]

/-- The MINMAX word of a store. -/
def storeMinMax (st : Store) : Nat := packed [(st.max, 16), (st.min, 0)]

/-- The value of a BNK register, by its offset from the bank die's page with all indices 0, for a control die; none for one that stands in
the control die. -/
def bankWord (k : Bank) (d : DieId) (b off i : Nat) : Option Nat :=
  let c := match d with | .cd0 => k.snapA | .cd1 => k.snapB
  let p := match d with | .cd0 => k.probeSnapA | .cd1 => k.probeSnapB
  let l := if i = 0 then k.linkA else k.linkB
  match off with
  | 0x00 => some (packed [(k.rev, 24), (k.serial, 0)])
  | 0x04 =>
    let token := match k.holder with | none => 0 | some .cd0 => 1 | some .cd1 => 2
    some (packed [(b2n k.blind.on, 31), (b2n k.cal.isSome, 30), (b2n k.calFail, 29), (b2n k.heaterX2, 28), (token, 26),
      (b2n k.overlap.isSome, 25), (b2n (k.linkA.state = 2), 24), (b2n (k.linkB.state = 2), 23), (k.preloads.length, 20),
      (b2n k.pmiss, 18), (b2n k.followed, 17)])
  | 0x08 => some (packed [(k.grants % 65536, 16), (k.overlaps, 8), (k.refused, 0)])
  | 0x10 => some (packed [(l.state, 30), (l.retrains, 24), (l.crcErr, 0)])
  | 0x18 => some (packed [(k.missing, 16), (k.mismatch, 0)])
  | 0x1C => some (packed [(if b = 0 || b = 4 then codeOf 16 k.fabric else 0, 16), (codeOf 16 k.own, 0)])
  | 0x20 => some k.adcFail.toNat
  | 0x28 => some k.calTime
  | 0x34 => some k.urgOvf
  | 0x38 => some k.discard
  | 0x44 => some c.store.sum
  | 0x48 => some (storeInfo c.store c.armed c.locked)
  | 0x4C => some (storeMinMax c.store)
  | 0x50 => some c.lo
  | 0x54 => some c.hi
  | 0x58 => some c.code
  | 0xC4 => some p.sum
  | 0xC8 => some (storeInfo p false false)
  | 0xCC => some (storeMinMax p)
  | 0xD0 => some k.probeTime
  | 0xD8 => some k.probeMiss
  | 0x100 => some (mapWord (fun l => spGet false l k.short) i)
  | 0x180 => some (mapWord (fun l => spGet false l k.drvf) i)
  | _ => none

/-- The register an offset of bank die b's page holds: its offset in the page with all indices 0, its index within the page, high word or not. -/
def bankReg (b off : Nat) : Option (Nat × Nat × Bool) :=
  (findReg 1 (0x4000 + 0x800 * b + off)).map (fun r => (r.1.off - 0x4000, r.2.1.getD 1 0, r.2.2))

/-- A word of the page of a bank die that stands in the bank die. -/
def bankPage (k : Bank) (d : DieId) (b off : Nat) : Option Nat :=
  (bankReg b off).bind (fun r => (bankWord k d b r.1 r.2.1).map (halfOf r.2.2))

/-- The words of a bank die's page as a control die has received them. -/
def bankSaved (k : Bank) (d : DieId) (b : Nat) : Sparse Nat :=
  (List.range 120).foldl (fun t i => match bankPage k d b (4 * i) with
    | some v => spSet 0 (4 * i) v t
    | none => t) []

/-- What a control die reads at an offset of a bank die's page: over its link, or the last value received, with its own end of the link as it
is (R266). -/
def bankRead (s : State) (d : DieId) (b off : Nat) : Option Nat :=
  let k := s.bank b
  let live := bankPage k d b off
  if k.up d then live
  else
    let own := off = 0x10 + 4 * d.num
    let last := spGet 0 off (spGet [] b (s.die d).bankSeen)
    live.map (fun v =>
      if own then v
      else if off = 0x04 then setBit (setBit last 19 true) (24 - d.num) false
      else last)

end Sys2Proof.Machine
end

