-- ==== Sys2Proof/Machine/Routers.lean ====
section
/-!
DEFINITION. Planner engines (R129, R187, R188): the deques of the routing engines, stealing, the Trump router, fencing. Which engine does
a task never changes its result.
-/

namespace Sys2Proof.Machine

/-- The order of tasks (R188): 1 first. -/
def RouteTask.prio : RouteTask → Nat
  | .deal _ => 1
  | .hand _ _ => 2
  | .matching _ => 3
  | .image _ => 4

/-- A task of a bench recomputation. -/
def RouteTask.isImage : RouteTask → Bool
  | .image _ => true
  | _ => false

/-- The engine that is the Trump router. -/
def Routers.trumpEngine (r : Routers) : Nat := if r.fence.getLsbD 31 then 30 else 31

/-- The engines of the stealing fabric. -/
def Routers.stealers (r : Routers) : List Nat := (List.range 31).filter (fun e => !r.fence.getLsbD e && decide (e ≠ r.trumpEngine))

/-- The deque of an engine. -/
def Routers.deque (r : Routers) (e : Nat) : List RouteTask := spGet [] e r.deques
def Routers.setDeque (r : Routers) (e : Nat) (l : List RouteTask) : Routers := { r with deques := spSet [] e l r.deques }

/-- A task joins a deque behind those of its priority. -/
def insertRoute (t : RouteTask) : List RouteTask → List RouteTask
  | [] => [t]
  | u :: l => if t.prio < u.prio then t :: u :: l else u :: insertRoute t l

/-- The engine whose deque is shortest, the lowest of several; none while every routing engine is fenced. -/
def Routers.shortest (r : Routers) : Option Nat :=
  r.stealers.foldl (fun a e => match a with
    | some b => if (r.deque e).length < (r.deque b).length then some e else some b
    | none => some e) none

/-- An idle engine takes the head of its deque, or steals the tail of the first deque after its own that holds a task. -/
def Routers.take (r : Routers) (e : Nat) : Routers :=
  if (spFind e r.running).isSome then r
  else match r.deque e with
    | t :: l => { r.setDeque e l with running := spPut e t r.running }
    | [] =>
      match ((r.stealers.filter (fun v => decide (e < v))) ++ r.stealers.filter (fun v => decide (v < e))).find? (fun v => !(r.deque v).isEmpty) with
      | some v =>
        match (r.deque v).getLast? with
        | some t => { r.setDeque v (r.deque v).dropLast with running := spPut e t r.running }
        | none => r
      | none => r

/-- Every idle engine takes a task, unless T3 stops the routing engines; so does the Trump router. -/
def Routers.settle (r : Routers) (stopped : Bool) : Routers :=
  let r1 := if stopped then r else r.stealers.foldl Routers.take r
  match r1.trumpRun, r1.trumpWait with
  | none, t :: l => { r1 with trumpRun := some t, trumpWait := l }
  | _, _ => r1

/-- A task for the routing engines. -/
def Routers.submit (r : Routers) (t : RouteTask) : Routers :=
  match r.shortest with
  | some e => r.setDeque e (insertRoute t (r.deque e))
  | none => { r with trumpWait := r.trumpWait ++ [t] }

/-- A task for the Trump router; one that carries a Trump-class take goes before the others that wait (R129). -/
def Routers.submitTrump (r : Routers) (t : RouteTask) (first : Bool) : Routers :=
  { r with trumpWait := if first then t :: r.trumpWait else r.trumpWait ++ [t] }

/-- Tasks leave, done or no longer wanted, wherever they stand. -/
def Routers.drop (r : Routers) (gone : RouteTask → Bool) : Routers :=
  { r with deques := spMap [] (fun _ l => l.filter (fun t => !gone t)) r.deques, running := r.running.filter (fun p => !gone p.2),
           trumpWait := r.trumpWait.filter (fun t => !gone t), trumpRun := r.trumpRun.filter (fun t => !gone t) }

/-- An engine that failed self-test is fenced: its tasks go to the others (R187). -/
def Routers.fenceEngine (r : Routers) (e : Nat) : Routers :=
  let own := (spFind e r.running).toList ++ r.deque e
  let r1 := { r.setDeque e [] with running := r.running.filter (fun p => p.1 ≠ e), fence := r.fence ||| BitVec.ofNat 32 (2 ^ e) }
  -- where engine 31 fails, engine 30 becomes the Trump router and leaves the stealing fabric
  let moved := if e = 31 then (spFind 30 r1.running).toList ++ r1.deque 30 else []
  let r2 := if e = 31 then { r1.setDeque 30 [] with running := r1.running.filter (fun p => p.1 ≠ 30) } else r1
  (own ++ moved).foldl Routers.submit r2

/-- The Trump router runs a pass (DLR_STATUS). -/
def Routers.trumpBusy (r : Routers) : Bool := r.trumpRun.isSome

/-- The routing engines of a die are stopped (T3). -/
def Die.routersStopped (x : Die) : Bool := decide (3 ≤ x.thm.level)

/-- Changes the planner engines of a die, whose idle engines then take tasks. -/
def Die.onRouters (x : Die) (f : Routers → Routers) : Die := { x with routers := (f x.routers).settle x.routersStopped }

/-- A task is done. -/
def Die.routed (x : Die) (t : RouteTask) : Die := x.onRouters (·.drop (fun u => decide (u = t)))

end Sys2Proof.Machine
end

