-- ==== Sys2Proof/Machine/Egress.lean ====
section
/-!
DEFINITION. Control-port egress (chapter 12): ports, queues, gate lists, placing a frame in a queue; and how a VSP message is
built and sent (R312 to R314).
-/

namespace Sys2Proof.Machine

/-! ## Ports -/

def QSample.zero : QSample := ⟨0, 0, 0, 0, 0, 0, 0, 0, 0, []⟩
def Queue.reset : Queue := ⟨[], 0, 0, QSample.zero⟩

/-- A control port after a reset: every queue empty, no list, the Trump bucket full (it is held at BURST when read). -/
def CPort.reset : CPort := ⟨[], [], none, none, none, none, none, 0, 32767 * 20000, 0, 0, none⟩

def Die.cport (x : Die) (p : Nat) : CPort := spGet CPort.reset p x.net.ports
def Die.setCport (x : Die) (p : Nat) (c : CPort) : Die :=
  { x with net := { x.net with ports := spSet CPort.reset p c x.net.ports } }
def Die.onCport (x : Die) (p : Nat) (f : CPort → CPort) : Die := x.setCport p (f (x.cport p))

def CPort.queue (c : CPort) (q : Nat) : Queue := spGet Queue.reset q c.queues
def CPort.setQueue (c : CPort) (q : Nat) (v : Queue) : CPort := { c with queues := spSet Queue.reset q v c.queues }
def CPort.onQueue (c : CPort) (q : Nat) (f : Queue → Queue) : CPort := c.setQueue q (f (c.queue q))

/-- A control port exists in the configuration in force (R6, R367). -/
def Die.portExists (x : Die) (p : Nat) : Bool :=
  if x.rbit Reg.ETH_CFG F.ETH_CFG_INFORCE then p = 0 || p = 4 else p < 8

/-- Line rate of a control port in Mbit/s (R367). -/
def Die.portRate (x : Die) : Nat := if x.rbit Reg.ETH_CFG F.ETH_CFG_INFORCE then 400000 else 100000

/-- Longest frame, FCS included (ETH_MAXLEN). -/
def Die.maxFrame (x : Die) : Nat := clampNat 64 9216 (x.rf Reg.ETH_MAXLEN F.ETH_MAXLEN_LEN)

/-- Frame length with its FCS. -/
def frameLen (bytes : List Byte) : Nat := bytes.length + 4

/-- Cost of a frame in bytes with the port's overhead (R377, R383). -/
def Die.wireBytes (x : Die) (p len : Nat) : Nat := len + x.rf (Reg.TMG_OVH p) F.TMG_OVH_OVH

/-- Sending time in ps of a number of bytes on the wire (R377). -/
def Die.wirePs (x : Die) (n : Nat) : Nat := n * 8 * 1000000 / x.portRate

/-- A die's PTP time in ps. -/
def Die.ps (x : Die) : Nat := x.clock.now * 1000 / 2 ^ 40

/-! ## Gate lists (R378 to R382), times in ps -/

/-- Entries of a list as (gates, length in ps): cut at the cycle, the last lasting to its end (R379). -/
def cutEntries : Nat → List (BitVec 32 × Nat) → List (BitVec 32 × Nat)
  | _, [] => []
  | left, [e] => [(e.1, left)]
  | left, e :: es =>
    if left ≤ e.2 * 1000 then [(e.1, left)] else (e.1, e.2 * 1000) :: cutEntries (left - e.2 * 1000) es

/-- The schedule of one cycle. -/
def GateList.sched (l : GateList) : List (BitVec 32 × Nat) := cutEntries (l.cycle * 1000) l.entries

/-- Queue q is open in a GATES word; bit 31 acts as 1. -/
def gateOpen (g : BitVec 32) (q : Nat) : Bool := q = 31 || g.getLsbD q

/-- Place in the cycle of a time. -/
def GateList.place (l : GateList) (t : Nat) : Nat :=
  (((t : Int) - ((l.base * 1000 : Nat) : Int)) % (((l.cycle * 1000 : Nat) : Int))).toNat

/-- The schedule from a place in the cycle on: the rest of the entry there, then the following entries. -/
def schedFrom : List (BitVec 32 × Nat) → Nat → List (BitVec 32 × Nat)
  | [], _ => []
  | e :: es, pos => if pos < e.2 then (e.1, e.2 - pos) :: es else schedFrom es (pos - e.2)

/-- Length of the leading open stretch of a schedule for queue q. -/
def openLead (q : Nat) : List (BitVec 32 × Nat) → Nat
  | [] => 0
  | e :: es => if gateOpen e.1 q then e.2 + openLead q es else 0

/-- Longer than any open period: the queue never closes. -/
def openForever : Nat := 2 ^ 64

/-- How long queue q stays open under a list that runs, from time t. -/
def GateList.runsOpen (l : GateList) (q t : Nat) : Nat :=
  if l.sched.all (fun e => gateOpen e.1 q) then openForever
  else openLead q (schedFrom l.sched (l.place t) ++ l.sched)

/-- How long queue q stays open under a list from time t: until the list resumes after a step, under the gates kept (R97). -/
def GateList.openFor (l : GateList) (q t : Nat) : Nat :=
  match l.kept with
  | some (g, u) => if t < u then (if gateOpen g q then (u - t) + l.runsOpen q u else 0) else l.runsOpen q t
  | none => l.runsOpen q t

/-- Time from a place in a schedule to the next beginning of an entry; 0 at one. -/
def toEntry : List (BitVec 32 × Nat) → Nat → Nat
  | [], _ => 0
  | e :: es, pos => if pos = 0 then 0 else if pos < e.2 then e.2 - pos else toEntry es (pos - e.2)

/-- The GATES of a schedule at a place in the cycle; without an entry there, all open. -/
def gatesAt (l : List (BitVec 32 × Nat)) (pos : Nat) : BitVec 32 := match schedFrom l pos with | e :: _ => e.1 | [] => BitVec.allOnes 32

/-- The GATES of a list at a time. -/
def GateList.gates (l : GateList) (t : Nat) : BitVec 32 :=
  match l.kept with
  | some (g, u) => if t < u then g else gatesAt l.sched (l.place t)
  | none => gatesAt l.sched (l.place t)

/-- A list after a forward step of the clock from one time to another: what was in force stays until its first entry boundary (R97). -/
def GateList.stepped (l : GateList) (old new : Nat) : GateList := { l with kept := some (l.gates old, new + toEntry l.sched (l.place new)) }

/-- The longest open period of queue q in a list, whole across the end of a cycle (R382). -/
def GateList.longest (l : GateList) (q : Nat) : Nat :=
  if l.sched.all (fun e => gateOpen e.1 q) then openForever
  else ((List.range l.sched.length).map (fun i => openLead q (l.sched.drop i ++ l.sched))).foldl max 0

/-- How long queue q stays open from time t on a port, under the list in force and the one due to follow (R381). -/
def CPort.openFor (c : CPort) (q t : Nat) : Nat :=
  let now := match c.list with | some l => l.openFor q t | none => openForever
  let next : Option (Nat × Nat) :=
    match c.stopAt, c.pendList with
    | some (i, _), _ => some (i * 1000, openForever)
    | none, some l => some (l.start * 1000, l.openFor q (l.start * 1000))
    | none, none => none
  match next with
  | none => now
  | some (i, after) => if t + now < i then now else (i - t) + after

/-- The gate of queue q is open at time t. -/
def CPort.isOpen (c : CPort) (q t : Nat) : Bool := decide (0 < c.openFor q t)

/-! ## Credits and the frame on the wire (R374, R377) -/

/-- Bytes a frame on the wire still costs, with the port's overhead, and when it ends. -/
def Sending.wire (g : Sending) (x : Die) (p : Nat) : Nat := x.wireBytes p (frameLen g.frame.bytes - g.sent)
def Sending.ends (g : Sending) (x : Die) (p : Nat) : Nat := g.since + x.wirePs (g.wire x p)

/-- Open time of queue q in the first `pos` of a schedule. -/
def openUpTo (q : Nat) : List (BitVec 32 × Nat) → Nat → Nat
  | [], _ => 0
  | e :: es, pos => (if gateOpen e.1 q then min e.2 pos else 0) + openUpTo q es (pos - e.2)

/-- Open time of queue q from the base of a list to a time, counted negative before the base. -/
def GateList.openSince (l : GateList) (q t : Nat) : Int :=
  let cyc := ((l.cycle * 1000 : Nat) : Int)
  (((t : Int) - ((l.base * 1000 : Nat) : Int)) / cyc) * ((openUpTo q l.sched (l.cycle * 1000) : Nat) : Int) + ((openUpTo q l.sched (l.place t) : Nat) : Int)

/-- Open time of queue q of a port between two times of the die's clock, in ps. -/
def CPort.openBetween (c : CPort) (q a b : Nat) : Nat :=
  match c.list with
  | none => b - a
  | some l =>
    let (g, u) := l.kept.getD (0, a)
    let m := max a u
    (if gateOpen g q then min b m - a else 0) + (l.openSince q (max b m) - l.openSince q m).toNat

/-- TMG_QCFG.SHAPE of a queue; queue 31 is never shaped. -/
def Die.shaped (x : Die) (p q : Nat) : Bool := q ≠ 31 && x.rbit (Reg.TMG_QCFG p q) F.TMG_QCFG_SHAPE

/-- Idle slope of a queue in Mbit/s: above the line rate it acts as that. -/
def Die.slope (x : Die) (p q : Nat) : Nat := min x.portRate (x.rf (Reg.TMG_QSLOPE p q) F.TMG_QSLOPE_SLOPE)

/-- A credit held within the limits of its queue. -/
def Die.holdCredit (x : Die) (p q : Nat) (v : Int) : Int :=
  let lim : Int := ((1024000 * max 1 (x.rf (Reg.TMG_QSLOPE p q) F.TMG_QSLOPE_LIM) : Nat) : Int)
  clampInt (-lim) lim v

/-- The queue's frame is on the wire, or interrupted. -/
def CPort.onWire (c : CPort) (q : Nat) : Bool := c.sending.any (fun g => g.queue = q) || c.held.any (fun g => g.queue = q)

/-- The credit of a queue that waits or is empty, brought up to a time t (ps since power-on). -/
def CPort.bring (c : CPort) (x : Die) (p q t : Nat) : CPort :=
  if !x.shaped p q || c.onWire q then c
  else
    let u := c.queue q
    if u.frames.isEmpty then c.setQueue q { u with credit := min 0 u.credit, creditAt := t }
    else
      let open_ := c.openBetween q (x.ps - (t - u.creditAt)) x.ps
      c.setQueue q { u with credit := x.holdCredit p q (u.credit + ((x.slope p q * open_ / 1000 : Nat) : Int)), creditAt := t }

/-- The credit of a queue whose frame was on the wire up to a time t. -/
def CPort.charge (c : CPort) (x : Die) (p t : Nat) (g : Sending) : CPort :=
  if !x.shaped p g.queue then c
  else
    let u := c.queue g.queue
    let v := x.holdCredit p g.queue (u.credit - (((x.portRate - x.slope p g.queue) * (t - g.since) / 1000 : Nat) : Int))
    c.setQueue g.queue { u with credit := if u.frames.isEmpty then min 0 v else v, creditAt := t }

/-- A frame that has ended by a time t leaves the wire. -/
def CPort.ended (c : CPort) (x : Die) (p t : Nat) : CPort :=
  match c.sending with
  | some g => if g.ends x p ≤ t then { c.charge x p (g.ends x p) g with sending := none } else c
  | none => c

/-! ## Queues (R371 to R373) -/

/-- Depth of a queue in frame bytes. -/
def Queue.depth (q : Queue) : Nat := q.frames.foldl (fun a f => a + frameLen f.bytes) 0

/-- The queue a class maps to (TMG_CLASSQ0 and 1). -/
def Die.classQueue (x : Die) (cls : Nat) : Nat :=
  if 7 ≤ cls then 31
  else
    let w := if cls < 4 then x.reg Reg.TMG_CLASSQ0 else x.reg Reg.TMG_CLASSQ1
    min 30 (bitsOf w (8 * (cls % 4) + 4) (8 * (cls % 4)))

/-- A frame dropped from a queue is counted (R373). -/
def dropTx (s : State) (d : DieId) (p q : Nat) : State :=
  raise (s.onDie d (fun x => (x.count (Reg.TMG_QDROP p q) F.TMG_QDROP_COUNT).onCport p (fun c =>
    c.onQueue q (fun u => { u with sample := { u.sample with drops := u.sample.drops + 1 } })))) d 138

/-- Places a frame in an egress queue, or drops it; whether it was placed (R369, R373). -/
def enqueue (s : State) (d : DieId) (p q : Nat) (f : TxFrame) : State × Bool :=
  let x := s.die d
  let c := x.cport p
  let n := frameLen f.bytes
  let depth := (c.queue q).depth
  let lim := if q = 31 then 16 * 1024
             else 1024 * clampNat 1 1008 (x.rf (Reg.TMG_QLIM p q) F.TMG_QLIM_MAX)
  let used := ((List.range 31).map (fun i => (c.queue i).depth)).foldl (· + ·) 0
  let full := decide (lim < depth + n) || (q ≠ 31 && decide (1008 * 1024 < used + n)) ||
    (f.yellow && decide (1024 * x.rf (Reg.TMG_QLIM p q) F.TMG_QLIM_YEL ≤ depth))
  if !x.portExists p || decide (x.maxFrame < n) then (s, false)
  else if full then (dropTx s d p q, false)
  else
    let t := s.ticks * 1000
    (s.onDie d (·.onCport p (fun c =>
      let c1 := c.ended x p t
      let c2 := if (c1.queue q).frames.isEmpty then c1.bring x p q t else c1
      c2.onQueue q (fun u => { u with frames := u.frames ++ [{ f with entered := x.ns }] }))), true)

/-- Chooses the queue of a frame by R372 and places it. `queue` is what the request's action set; `zsl` marks a telegram of
the Light Guard. -/
def egress (s : State) (d : DieId) (p cls : Nat) (queue : Option Nat) (zsl : Bool) (f : TxFrame) : State × Bool :=
  let x := s.die d
  if cls = 7 then enqueue s d p 31 f
  else if zsl then enqueue s d p 30 f
  else match queue with
    | some 31 => enqueue (s.count d (Reg.TMG_PCNT p 4) F.TMG_PCNT_COUNT) d p 30 f
    | some q => enqueue s d p q f
    | none => enqueue s d p (x.classQueue cls) f

/-! ## Building frames (R311, R312) -/

/-- Ones' complement sum of 16-bit words of a byte list in network order. -/
def onesSum : List Byte → Nat
  | [] => 0
  | [a] => a.toNat * 256
  | a :: b :: l => a.toNat * 256 + b.toNat + onesSum l

/-- Internet checksum of a sum. -/
def inetSum (n : Nat) : Nat :=
  let f := n % 65536 + n / 65536
  let g := f % 65536 + f / 65536
  65535 - (g % 65536 + g / 65536)

/-- The UDP header and payload, with its checksum over the pseudo-header sum given. -/
def udpBytes (pseudo sport dport : Nat) (sum : Bool) (data : List Byte) : List Byte :=
  let len := 8 + data.length
  let c := inetSum (pseudo + 17 + len + sport + dport + len + onesSum data)
  beBytes 2 sport ++ beBytes 2 dport ++ beBytes 2 len ++ beBytes 2 (if sum then (if c = 0 then 65535 else c) else 0) ++ data

/-- The IP packet that carries a datagram to an address of 4 or 16 bytes. -/
def ipPacket (d : DieId) (p : Nat) (dst : List Byte) (sport dport : Nat) (data : List Byte) : List Byte :=
  if dst.length = 4 then
    let src := beBytes 4 (Config.ownIp4 d p).toNat
    let udp := udpBytes (onesSum src + onesSum dst) sport dport (Config.ipField 4 != 0) data
    let h (c : Nat) : List Byte := [0x45] ++ beBytes 1 (Config.ipField 0) ++ beBytes 2 (20 + udp.length) ++
      beBytes 2 (Config.ipField 1) ++ beBytes 2 (Config.ipField 2) ++ beBytes 1 (Config.ipField 3) ++ [17] ++ beBytes 2 c ++
      src ++ dst
    h (inetSum (onesSum (h 0))) ++ udp
  else
    let src := beBytes 16 (Config.ownIp6 d p).toNat
    let udp := udpBytes (onesSum src + onesSum dst) sport dport true data
    beBytes 4 (6 * 2 ^ 28 + Config.ipField 0 % 256 * 2 ^ 20) ++ beBytes 2 udp.length ++ [17] ++
      beBytes 1 (Config.ipField 3) ++ src ++ dst ++ udp

/-- The frame that carries a message to where an earlier one came from: same form, source address and tags (R312). `ety` and
`port` are the EtherType and UDP port of the protocol; a short frame is padded to 60 bytes. -/
def frameTo (src : VspFrom) (ety port : Nat) (msg : List Byte) : List Byte :=
  let head := beBytes 6 src.mac.toNat ++ beBytes 6 (Config.ownMac src.die src.port.val).toNat ++
    src.tags.flatMap (fun t => beBytes 2 t.1.toNat ++ beBytes 2 t.2.toNat)
  let f := match src.udp with
    | none => head ++ beBytes 2 ety ++ msg
    | some (ip, up) => head ++ beBytes 2 (if ip.length = 4 then 0x0800 else 0x86DD) ++
        ipPacket src.die src.port.val ip port up.toNat msg
  padTo (max 60 f.length) f

/-! ## Per-agent markers (R385) -/

/-- A marker with both buckets full, by profile k. -/
def markerFull (x : Die) (k ticks : Nat) : Marker :=
  let w := x.reg (Reg.TMG_APOL_BURST k)
  ⟨(fget F.TMG_APOL_BURST_CBS w * 64 * 8000000 : Nat), (fget F.TMG_APOL_BURST_EBS w * 64 * 8000000 : Nat), ticks⟩

/-- An agent's markers full, as at registration and on a new Declarer after a takeover. -/
def Agent.full (a : Agent) (x : Die) (ticks : Nat) : Agent :=
  { a with mTake := markerFull x (a.maxClass % 8) ticks, mBid := markerFull x (8 + a.maxClass % 8) ticks }

/-! ## VSP messages from the module (R314, R320) -/

def vtRegister : Nat := 1
def vtHello : Nat := 2
def vtBid : Nat := 3
def vtGrant : Nat := 4
def vtTake : Nat := 5
def vtAck : Nat := 6
def vtNack : Nat := 7
def vtDeckinfo : Nat := 8
def vtPortcheck : Nat := 9
def vtVendor : Nat := 0x0F

def nackUnregistered : Nat := 0x20
def nackNotPermitted : Nat := 0x21
def nackCheckFailed : Nat := 0x22
def nackClass : Nat := 0x23
def nackUnsupported : Nat := 0x24

/-- A VSP message with its header and CHECK (R314). -/
def vspBytes (dom type cls flags agent seq time : Nat) (body : List Byte) : List Byte :=
  let h := beBytes 1 (16 + dom % 16) ++ beBytes 1 type ++ beBytes 1 cls ++ beBytes 1 flags ++
    beBytes 2 (24 + body.length) ++ beBytes 2 agent ++ beBytes 4 seq ++ beBytes 8 time
  h ++ beBytes 4 (crc32c (h ++ [0, 0, 0, 0] ++ body)) ++ body

/-- A Trump frame whose reply was dropped is no longer in flight (R384). -/
def sendTrump (r : State × Bool) (d : DieId) (p : Nat) (trump : Bool) : State :=
  if trump && !r.2 then r.1.onDie d (·.onCport p (fun c => { c with inflight := c.inflight - 1 })) else r.1

/-- The frame of a VSP message leaves through the port that the address names: at once on the Declarer, over the mirror
link on the Dummy (R312, R313). -/
def sendVsp (s : State) (d : DieId) (src : VspFrom) (cls : Nat) (queue : Option Nat) (yellow trump : Bool)
    (msg : List Byte) : State :=
  let x := s.die src.die
  let f := frameTo src (x.rf Reg.PRS_ETYPE F.PRS_ETYPE_VSP) (x.rf Reg.PRS_UDPPORT F.PRS_UDPPORT_VSP) msg
  if src.die = d then sendTrump (egress s d src.port.val cls queue false ⟨f, yellow, 0, none, trump⟩) d src.port.val trump
  else askPeer s d (.send src.port.val cls queue yellow trump f)

/-- An agent of a die's registry, by ID. -/
def Die.agent (x : Die) (id : Nat) : Option Agent := x.vsp.agents.find? (fun a => a.id = id)

/-- Replaces an agent's entry. -/
def Die.setAgent (x : Die) (a : Agent) : Die :=
  { x with vsp := { x.vsp with agents := x.vsp.agents.map (fun b => if b.id = a.id then a else b) } }

/-- The registry as mirrored after a change (R322). -/
def mirrorVsp (s : State) (d : DieId) : State := mirror s d (.vsp (s.die d).vsp)

/-- How a message to an agent goes out besides its content: class, queue and colour of a reply (R334, R372). -/
structure Egr where
  cls : Nat
  queue : Option Nat
  yellow : Bool
  trump : Bool
deriving DecidableEq, Repr

/-- Sends a message to an agent with its next number (R320), from the Declarer. -/
def sendAgent (s : State) (d : DieId) (id : Nat) (type flags : Nat) (g : Egr) (body : List Byte) : State :=
  let x := s.die d
  match x.agent id with
  | none => s
  | some a =>
    let msg := vspBytes a.domain type g.cls flags a.id a.txSeq x.ns body
    sendVsp (s.onDie d (·.setAgent { a with txSeq := (a.txSeq + 1) % 2 ^ 32 })) d a.src g.cls g.queue g.yellow g.trump msg

/-- One Trump frame of a control port is no longer in flight (R384). -/
def trumpDone (s : State) (src : VspFrom) (cls : Nat) : State :=
  if cls = 7 then s.onDie src.die (·.onCport src.port.val (fun c => { c with inflight := c.inflight - 1 })) else s

/-- ACK and NACK bodies (R332, R333). -/
def ackBody (reftype status refseq instant vfail info : Nat) : List Byte :=
  beBytes 1 reftype ++ beBytes 1 status ++ [0, 0] ++ beBytes 4 refseq ++ beBytes 8 (instantNs instant) ++
    beBytes 2 (instant % 8 * 8192) ++ beBytes 2 (min 65535 vfail) ++ beBytes 4 info
def nackBody (reftype reason refseq : Nat) : List Byte :=
  beBytes 1 reftype ++ beBytes 1 reason ++ [0, 0] ++ beBytes 4 refseq

/-- Records a reply for R319, keeping the last 16 sequences. -/
def Agent.record (a : Agent) (seq type : Nat) (body : List Byte) : Agent :=
  { a with replies := (a.replies.filter (fun r => r.1 ≠ seq)).drop (a.replies.length - 15) ++ [(seq, type, body)] }

/-- Answers an agent's message with ACK or NACK (R332 to R334). The reply to a TAKE or a REGISTER is recorded; a NACK takes
a Trump frame out of flight. -/
def answer (s : State) (d : DieId) (id reftype refseq type : Nat) (g : Egr) (src : VspFrom) (body : List Byte) : State :=
  let s1 := if reftype = vtTake || reftype = vtRegister then
      s.onDie d (fun x => match x.agent id with | some a => x.setAgent (a.record refseq type body) | none => x)
    else s
  let s2 := if type = vtNack then trumpDone s1 src g.cls else s1
  mirrorVsp (sendAgent s2 d id type 0 { g with trump := g.trump && type != vtNack } body) d

end Sys2Proof.Machine
end

