-- ==== Sys2Proof/Machine/Rings.lean ====
section
/-!
DEFINITION. The host interface (chapter 13): completions, commands in flight and their host reads, polling and fetching,
ring errors, ring enable and disable, function-level reset; and the meanings of the rows that are these.
-/

namespace Sys2Proof.Machine

/-! ## Registers put back to their power-on values (R499) -/

/-- The ones of a register word's fields of some access types. -/
def accMask (r : RegDef) (hi : Bool) (p : Access → Bool) : Nat :=
  let m := (r.fields.filter (fun f => p f.acc)).foldl (fun a f => a + (2 ^ (f.hi - f.lo + 1) - 1) * 2 ^ f.lo) 0
  if hi then m / 2 ^ 32 else m % 2 ^ 32

/-- A register word with its fields of some access types at their power-on values. -/
def porWord (key w : Nat) (p : Access → Bool) : Nat :=
  match findReg (key / 0x10000) (key % 0x10000) with
  | none => w
  | some (r, _, hi) =>
    let m := accMask r hi p
    Nat.lor (Nat.land w (2 ^ 32 - 1 - m)) (Nat.land (regPor key) m)

/-- Puts the fields of some access types back to their power-on values in every register a predicate on keys selects. -/
def Die.porRegs (x : Die) (sel : Nat → Bool) (p : Access → Bool) : Die :=
  x.regs.foldl (fun y e => if sel e.1 then y.setReg e.1 (porWord e.1 e.2.toNat p) else y) x

/-! ## Completions (R404, R405) -/

/-- The 16 bytes of a completion, PHASE 0. -/
def cplBytes (ring tag opcode status result frac aux : Nat) : List Byte :=
  leBytes 2 tag ++ leBytes 1 status ++ leBytes 1 (frac % 8 * 2) ++ leBytes 2 aux ++ leBytes 1 ring ++ leBytes 1 opcode ++
    leBytes 8 result

/-- Writes a completion to its ring when that has room and none waits before it; holds it while the ring is full (R395);
discards it when the ring is disabled. -/
def writeCpl (s : State) (d : DieId) (f cq : Nat) (bytes : List Byte) (irq : Bool) : State :=
  let x := s.die d
  if !x.ringEn f cq then s
  else if x.ringFull f cq || (x.fn f).heldCpl.any (fun h => h.1 = cq) then
    s.onDie d (·.onFn f (fun n => { n with heldCpl := n.heldCpl ++ [(cq, bytes, irq)] }))
  else writeEntry s d f cq (withPhase bytes 3 (x.phase f cq)) irq

/-- Answers where a request came from: a completion on the ring named by HIF_RING_CFG.CQ (QUIET writes none for OK), an ACK or
a NACK to the agent, or nothing. RESULT and FRAC only with OK and DONE_DEGRADED (R404). `result` of a deal instant is in
whole ns with `frac` in 125 ps. -/
def complete (s : State) (d : DieId) (o : Origin) (status result frac aux : Nat) : State :=
  match o with
  | .none => s
  | .ring fn ring tag dflags opcode _ =>
    if flQuiet dflags && status = stOk then s
    else
      let good := status = stOk || status = stDegraded
      let cq := 8 + (s.die d).rf (Reg.HIF_RING_CFG fn ring) F.HIF_RING_CFG_CQ
      writeCpl s d fn cq (cplBytes ring tag opcode status (if good then result else 0) (if good then frac else 0)
        (if good then aux else 0)) (flIrq dflags)
  | .vsp src agent seq cls queue yellow =>
    let g : Egr := ⟨cls, queue, yellow, false⟩
    if status = stOk || status = stDegraded then
      answer s d agent vtTake seq vtAck g src (ackBody vtTake status seq (result * 8 + frac) aux 0)
    else answer s d agent vtTake seq vtNack g src (nackBody vtTake status seq)

/-! ## Commands in flight -/

def Die.cmd (x : Die) (id : Nat) : Option Cmd := x.cmds.find? (fun c => c.id = id)
def Die.setCmd (x : Die) (c : Cmd) : Die := { x with cmds := x.cmds.map (fun e => if e.id = c.id then c else e) }
def Die.onCmd (x : Die) (id : Nat) (f : Cmd → Cmd) : Die :=
  { x with cmds := x.cmds.map (fun e => if e.id = id then f e else e) }

/-- A new command in flight, as number `nextCmd`. -/
def Die.addCmd (x : Die) (o : Origin) (desc : List Byte) (stage : Stage) (begun : Bool) : Die :=
  { x with cmds := x.cmds ++ [⟨x.nextCmd, o, desc, [], stage, begun, false, 0, 0, x.now, false⟩], nextCmd := x.nextCmd + 2 }

/-- A completion of an adopted command has no ring to go to (R432). -/
def adoptLost (x : Die) : Origin → Bool
  | .ring fn r .. => !x.ringEn fn r || !x.ringEn fn (8 + x.rf (Reg.HIF_RING_CFG fn r) F.HIF_RING_CFG_CQ)
  | _ => false

/-- A command ends: it leaves the list and completes, unless its function was reset meanwhile (R418); the Dummy forgets a
mirrored one (R420). -/
def finish (s : State) (d : DieId) (id status result frac aux : Nat) : State :=
  match (s.die d).cmd id with
  | none => s
  | some c =>
    let s1 := s.onDie d (fun x => { x with cmds := x.cmds.filter (fun e => e.id ≠ id) })
    let s2 := if c.orphan then s1
      else if c.adopted && adoptLost (s1.die d) c.origin then
        raise (s1.count d Reg.RED_ADOPT_DROP F.RED_ADOPT_DROP_COUNT) d 195
      else complete s1 d c.origin status result frac aux
    if changesFabric (dOpcode c.desc) then mirror s2 d (.completed id) else s2

/-- The function and ring a command came by. -/
def originFn : Origin → Option Nat
  | .ring fn .. => some fn
  | _ => none
def originRing : Origin → Option Nat
  | .ring _ r .. => some r
  | _ => none

/-- Starts a host read for a command (R402). -/
def Die.readFor (x : Die) (fn addr len cmd : Nat) : Die :=
  { x with reads := x.reads ++ [⟨x.nextRead, fn, addr, len, 8, cmd⟩], nextRead := x.nextRead + 1 }

/-! ## Ring errors, polling and fetching (R396 to R398) -/

/-- A ring error: the ring stops, its bits set, and the vector of HIF_CTRL is raised (R398, R417). -/
def ringError (s : State) (d : DieId) (f r : Nat) : State :=
  let s1 := s.onDie d (fun x =>
    let x1 := ((x.setRf (Reg.HIF_RING_CFG f r) F.HIF_RING_CFG_ERR 1).setReg (Reg.HIF_ERR f)
      (setBit (x.reg (Reg.HIF_ERR f)) r true)).freshen (Reg.HIF_ERR f) (2 ^ r)
    ({ x1 with reads := x1.reads.filter (fun h => !(h.fn = f && h.ring = r)) }).onRing f r (fun g => { g with issued := 0 }))
  let s2 := raise s1 d 159
  let x := s2.die d
  if x.rbit (Reg.HIF_CTRL f) F.HIF_CTRL_ERR_IEN then raiseVec s2 d f (x.rf (Reg.HIF_CTRL f) F.HIF_CTRL_ERR_VEC) else s2

/-- Starts the reads of descriptors a command ring's DRV newly covers (R393, R394). -/
def fetchNew (x : Die) (f r : Nat) : Die :=
  let g := x.ring f r
  let have_ := g.issued
  let n := cntDiff g.drvCnt g.modCnt - have_
  let x1 := (List.range n).foldl (fun x i =>
    let c := g.modCnt.toNat + have_ + i
    { x with reads := x.reads ++ [⟨x.nextRead, f, x.entryAddr f r c, 64, r, c % 2 ^ 32⟩], nextRead := x.nextRead + 1 }) x
  x1.onRing f r (fun g => { g with issued := have_ + n })

/-- One DRV value read from a doorbell record (R395, R398). -/
def pollRing (s : State) (d : DieId) (f r : Nat) (drv : Word32) : State :=
  let x := s.die d
  let g := x.ring f r
  if !x.ringEn f r || x.rbit (Reg.HIF_RING_CFG f r) F.HIF_RING_CFG_ERR then s
  else if r < 8 then
    if x.ringSize f r < cntDiff drv g.modCnt then ringError s d f r
    else
      s.onDie d (fun x =>
        let x1 := fetchNew (x.onRing f r (fun g => { g with drvCnt := drv })) f r
        if drv = g.drvCnt then x1
        else (x1.onFn f (fun n => { n with active := true, lastChange := s.ticks })).setRf (Reg.HIF_POLL f) F.HIF_POLL_IDLE 0)
  else if x.ringSize f r < cntDiff g.modCnt drv then ringError s d f r
  else s.onDie d (·.onRing f r (fun g => { g with drvCnt := drv }))

/-- Completions that waited for room are written as far as there is room now. -/
def drainHeld (s : State) (d : DieId) (f : Nat) : State :=
  let held := ((s.die d).fn f).heldCpl
  held.foldl (fun s h => writeCpl s d f h.1 h.2.1 h.2.2) (s.onDie d (·.onFn f (fun n => { n with heldCpl := [] })))

/-- DOORBELL_POLL (R396): the DRV fields as read, or a read that failed. -/
def doorbellPoll (d : DieId) (f : Nat) (drv : Option (List Word32)) (s : State) : State :=
  match drv with
  | none =>
    let s1 := raise (s.setEvent d (Reg.HIF_ERR f) F.HIF_ERR_DB_READ) d 160
    (List.range 26).foldl (fun s r => if (s.die d).ringEn f r then ringError s d f r else s) s1
  | some l => drainHeld ((l.zipIdx).foldl (fun s e => pollRing s d f e.2 e.1) s) d f

def execDoorbellPoll (die : DieId) (fn : Fin 4) (drv : Option (List Word32)) (s : State) : Host.Outcome State Fault Refusal :=
  doneUp die (doorbellPoll die fn.val drv) s

/-- POLL_IDLE_TIMEOUT (R396): 64 µs without a change of a command-ring DRV. -/
def pollIdle (d : DieId) (f : Nat) (s : State) : State :=
  let n := (s.die d).fn f
  if n.active && decide (64 * usT ≤ s.ticks - n.lastChange) then
    s.onDie d (fun x => (x.onFn f (fun n => { n with active := false })).setRf (Reg.HIF_POLL f) F.HIF_POLL_IDLE 1)
  else s

def execPollIdleTimeout (die : DieId) (fn : Fin 4) (s : State) : Host.Outcome State Fault Refusal :=
  done (pollIdle die fn.val s)

/-- HIF_KICK (R396). -/
def hifKick (d : DieId) (f : Nat) (s : State) : State :=
  s.onDie d (fun x => (x.onFn f (fun n => { n with active := true, lastChange := s.ticks })).setRf (Reg.HIF_POLL f)
    F.HIF_POLL_IDLE 0)

def execHifKick (die : DieId) (fn : Fin 4) (_value : Word32) (s : State) : Host.Outcome State Fault Refusal :=
  doneBar die (hifKick die fn.val) s

/-- INTERRUPT_COALESCE_TIMEOUT (R417). -/
def coalesceTimeout (d : DieId) (f r : Nat) (s : State) : State :=
  let x := s.die d
  let g := x.ring f r
  let t := 100 * max 1 (x.rf (Reg.HIF_RING_IRQ f r) F.HIF_RING_IRQ_TIME)
  if x.ringEn f r && x.rbit (Reg.HIF_RING_CFG f r) F.HIF_RING_CFG_IEN && 0 < g.unsignalled && decide (t ≤ s.ticks - g.firstAt) then
    raiseRing s d f r
  else s

def execInterruptCoalesceTimeout (die : DieId) (fn : Fin 4) (ring : Fin 26) (s : State) : Host.Outcome State Fault Refusal :=
  done (coalesceTimeout die fn.val ring.val s)

/-- The data of a descriptor read: the descriptor waits for validation and counts as fetched (R395, R400). -/
def descriptorFetched (s : State) (d : DieId) (h : HostRead) (bytes : List Byte) : State :=
  let x := s.die d
  let m := (x.ring h.fn h.ring).modCnt + 1
  let s1 := s.onDie d (fun x => (x.onRing h.fn h.ring (fun g =>
    { g with modCnt := m, issued := g.issued - 1, fetched := g.fetched ++ [(h.cmd, x.ns, padTo 64 bytes)] })).setReg
      (Reg.HIF_RING_MOD h.fn h.ring) m.toNat)
  s1.emit (.hostWrite d h.fn ((s1.die d).dbAddr h.fn h.ring + 32) (leBytes 4 m.toNat))

/-! ## Ring enable and disable (R397) -/

/-- The fetch count of a command ring up to and including a fabric-changing descriptor, as R432 reports it. -/
def Red.counted (r : Red) : Origin → Red
  | .ring f g _ _ _ n => { r with adopt := spSet 0 (8 * f + g) ((n + 1) % 2 ^ 32) r.adopt }
  | _ => r

/-- A ring that is being enabled starts anew, and with it the Declarer's own count of its descriptors. -/
def ringStart (x : Die) (f r : Nat) : Die :=
  let y := ((x.onRing f r (fun g => { Ring.reset with fetched := g.fetched })).setReg (Reg.HIF_RING_MOD f r) 0).setRf
    (Reg.HIF_RING_CFG f r) F.HIF_RING_CFG_ERR 0
  if x.isDecl && decide (r < 8) then { y with red := { y.red with adopt := spSet 0 (8 * f + r) 0 y.red.adopt } } else y

/-- A command ring in use names completion ring r. -/
def cqNamed (x : Die) (f r : Nat) : Bool :=
  (List.range 8).any (fun c => x.ringEn f c && decide (8 + x.rf (Reg.HIF_RING_CFG f c) F.HIF_RING_CFG_CQ = r))

/-- A write to HIF_RING_CFG_r. -/
def writeRingCfg (x : Die) (f r v : Nat) : Die :=
  let key := Reg.HIF_RING_CFG f r
  let was := x.ringEn f r
  let now := fget F.HIF_RING_CFG_EN v != 0
  let w0 := x.reg key
  let w1 := fput F.HIF_RING_CFG_PRIO (fput F.HIF_RING_CFG_VEC (fput F.HIF_RING_CFG_IEN w0 (fget F.HIF_RING_CFG_IEN v))
    (fget F.HIF_RING_CFG_VEC v)) (fget F.HIF_RING_CFG_PRIO v)
  let w2 := if was then w1
    else fput F.HIF_RING_CFG_SLOT (fput F.HIF_RING_CFG_CQ (fput F.HIF_RING_CFG_LOG2SIZE w1 (fget F.HIF_RING_CFG_LOG2SIZE v))
      (fget F.HIF_RING_CFG_CQ v)) (fget F.HIF_RING_CFG_SLOT v)
  if now && !was then ringStart (x.setReg key (fput F.HIF_RING_CFG_EN w2 1)) f r
  else if was && !now then
    if 8 ≤ r && r < 16 && cqNamed x f r then x.setReg key w2
    else
      let x1 := (x.setReg key (fput F.HIF_RING_CFG_EN w2 0)).onFn f (fun n =>
        { n with heldCpl := n.heldCpl.filter (fun h => h.1 ≠ r) })
      if r < 8 then
        ({ x1 with reads := x1.reads.filter (fun h => !(h.fn = f && h.ring = r)) }).onRing f r (fun g => { g with issued := 0 })
      else x1
  else x.setReg key w2

/-- RING_ENABLE and RING_DISABLE: the write as it reaches HIF_RING_CFG_r; rings 18 to 25 exist on PF2 only. -/
def execRingEnable (die : DieId) (fn : Fin 4) (ring : Fin 26) (cfg : Word32) (s : State) : Host.Outcome State Fault Refusal :=
  doneBar die (fun s => if 18 ≤ ring.val && fn.val ≠ 2 then raise s die 158
    else s.onDie die (fun x => writeRingCfg x fn.val ring.val (fput F.HIF_RING_CFG_EN cfg.toNat 1))) s

def execRingDisable (die : DieId) (fn : Fin 4) (ring : Fin 26) (cfg : Word32) (s : State) : Host.Outcome State Fault Refusal :=
  doneBar die (fun s => if 18 ≤ ring.val && fn.val ≠ 2 then raise s die 158
    else s.onDie die (fun x => writeRingCfg x fn.val ring.val (fput F.HIF_RING_CFG_EN cfg.toNat 0))) s

/-! ## Function-level reset (R418) -/

/-- The origin of a descriptor on a ring. -/
def descOrigin (fn ring fetch : Nat) (desc : List Byte) : Origin :=
  .ring fn ring (dTag desc) (dFlags desc) (dOpcode desc) fetch

/-- FUNCTION_LEVEL_RESET: `byReg` is the trigger by HIF_RESET.FLR; otherwise PCIe's. -/
def functionReset (d : DieId) (f : Nat) (byReg : Bool) (s : State) : State :=
  let x := s.die d
  if !x.running then s
  else
    let waiting := (List.range 8).flatMap (fun r => (x.ring f r).fetched.map (fun e => descOrigin f r e.1 e.2.2))
    let mine := x.cmds.filter (fun c => originFn c.origin = some f)
    let aborted := mine.filter (fun c => !c.begun)
    let begun := mine.filter (fun c => c.begun)
    let s1 := if byReg then
        (waiting ++ aborted.map (·.origin)).foldl (fun s o => complete s d o stAborted 0 0 0) s
      else s
    let s2 := s1.onDie d (fun x =>
      let keep := x.cmds.filter (fun (c : Cmd) => !(originFn c.origin = some f && !c.begun))
      let x1 : Die :=
        { x with cmds := keep.map (fun (c : Cmd) => if originFn c.origin = some f then { c with orphan := true } else c),
                 reads := x.reads.filter (fun (h : HostRead) => h.fn ≠ f),
                 dither := x.dither.map (fun (r : DitherRun) => if r.fn = f then { r with fn := 4 } else r) }
      let x2 := x1.setFn f { Fn.reset with lastChange := s.ticks }
      let page (k : Nat) : Bool := decide (k / 0x10000 = f) && decide (0xF000 ≤ k % 0x10000) && decide (k ≠ Reg.HIF_RESET_CNT f)
      let x3 := x2.porRegs page (fun _ => true)
      let x4 := x3.porRegs (fun k => decide (k / 0x10000 = f) && !page k) (fun a => a == Access.rw)
      (x4.setRf (Reg.HIF_RESET_CNT f) F.HIF_RESET_CNT_ORPHANED begun.length).setRf (Reg.HIF_RESET_CNT f)
        F.HIF_RESET_CNT_ABORTED (waiting.length + aborted.length))
    raise s2 d 166

def execFunctionLevelReset (die : DieId) (fn : Fin 4) (byRegister : Bool) (s : State) : Host.Outcome State Fault Refusal :=
  doneBar die (functionReset die fn.val byRegister) s

/-! ## Control-port frames to the host (R414, R415) -/

/-- A frame written to a receive queue of PF2, or dropped. `head` is the header from byte 3. -/
def hostFrame (s : State) (d : DieId) (q : Nat) (head bytes : List Byte) : State :=
  let x := s.die d
  let r := 18 + q
  let lost (s : State) : State := s.onDie d (·.onRing 2 r (fun g => { g with lostFlag := true }))
  if !x.ringEn 2 r || x.ringFull 2 r then
    raise (lost (s.count d (Reg.HIF_RX_DROP 2) F.HIF_RX_DROP_FULL)) d 163
  else if x.entrySize 2 r < 64 + bytes.length then
    raise (lost (s.count d (Reg.HIF_RX_DROP 2) F.HIF_RX_DROP_SIZE)) d 163
  else
    let h := leBytes 2 bytes.length ++ leBytes 1 (2 * b2n (x.ring 2 r).lostFlag + x.phase 2 r) ++ head
    writeEntry (s.onDie d (·.onRing 2 r (fun g => { g with lostFlag := false }))) d 2 r (padTo 64 h ++ bytes) false

/-! ## Rule commands that wait (R351, R352) -/

/-- No frame in flight carries a bank that is not active. -/
def Pipe.drained (u : Pipe) (bank : Nat) : Bool := u.activeBank ≠ bank && !u.fifo.any (fun i => i.bank = bank)

/-- A rule command has nothing left to wait for. -/
def RuleWait.ended (w : RuleWait) (x : Die) : Bool :=
  !w.peer && (!w.drain || ((!bitOf w.pipes 0 || x.net.pipe0.drained w.bank) && (!bitOf w.pipes 1 || x.net.pipe1.drained w.bank)))

/-- Rule commands of a die with nothing left to wait for complete; the peer's half is reported to the other die. -/
def ruleWaits (s : State) (d : DieId) : State :=
  let x := s.die d
  let ended := x.net.ruleWait.filter (fun w => w.ended x)
  ended.foldl (fun s w => if w.remote then askPeer s d (.ruleDone w.cmd w.status) else finish s d w.cmd w.status (((s.die d).cmd w.cmd).elim 0 (·.result)) 0 0)
    (s.onDie d (fun x => { x with net := { x.net with ruleWait := x.net.ruleWait.filter (fun w => !w.ended x) } }))

/-- The peer cannot be reached: rule commands no longer wait for it (R352). -/
def ruleAlone (s : State) (d : DieId) : State :=
  let alone (w : RuleWait) : RuleWait :=
    if w.peer then { w with peer := false, status := if w.status = stOk then stDegraded else w.status } else w
  ruleWaits (s.onDie d (fun x =>
    let l := (x.net.ruleWait.filter (fun w => !w.remote)).map alone
    { x with net := { x.net with ruleWait := l } })) d

end Sys2Proof.Machine
end

