-- ==== Sys2Proof/Machine/Sched.lean ====
section
/-!
DEFINITION. Instants: cadences (R107), a deck's schedule (R163 to R167), the placing of a deal (R125, R126), and the composing
of the hand a deal brings in force (R119, R173).
-/

namespace Sys2Proof.Machine

/-! ## Lengths in units of 125 ps -/

def i100ns : Nat := 800
def i1300ns : Nat := 10400
def i2600ns : Nat := 20800

/-- A time in TAI ns as an instant. -/
def nsInstant (n : Nat) : Nat := 8 * n

/-- The present time of a die as an instant, rounded up (R125). -/
def Die.nowUp (x : Die) : Nat := (x.clock.now + 2 ^ 37 - 1) / 2 ^ 37

/-! ## Cadences (R107) -/

/-- A cadence M/N with offset o in ns is active. -/
def cadActive (m n : Nat) : Bool := m != 0 && n != 0 && decide (m ≤ 1000000 * n)

/-- The index of the first alignment point not earlier than instant t. -/
def cadIndex (m n : Nat) (o : Int) (t : Nat) : Nat :=
  let num : Int := (t : Int) * (m : Int) - 8 * o * (m : Int)
  let den : Int := ((8000000000 * n : Nat) : Int)
  if num ≤ 0 then 0 else ((num + den - 1) / den).toNat

/-- Alignment point k as an instant, truncated; a point before the epoch is no instant and reads 0. -/
def cadPoint (m n : Nat) (o : Int) (k : Nat) : Nat :=
  (((k : Int) * ((8000000000 * n : Nat) : Int) + 8 * o * (m : Int)) / (m : Int)).toNat

/-- The first alignment point not earlier than t. -/
def cadNext (m n : Nat) (o : Int) (t : Nat) : Nat := cadPoint m n o (cadIndex m n o t)

/-! ## Deck schedules -/

/-- A hand that was never written (R151). -/
def StoredHand.unwritten : StoredHand := ⟨[], 0, 0, none⟩

def Decks.hand (k : Decks) (h : Nat) : StoredHand := spGet StoredHand.unwritten h k.hands

/-- The deck-memory hand of trick k (R150, R163, R178). -/
def DeckDesc.handNo (d : DeckDesc) (k : Nat) : Nat :=
  if d.auto then 28672 + 1024 * (k / d.epoch % 4) + k % d.epoch else d.first + k % max 1 d.count

/-- Length of trick k as a difference of instants. -/
def Decks.trick (dk : Decks) (d : DeckDesc) (k : Nat) : Nat :=
  64 * (if d.auto then d.atrick else (dk.hand (d.handNo k)).tlen)

/-- Tricks of one pass, and its length. -/
def DeckDesc.passTricks (d : DeckDesc) : Nat := if d.auto then 1 else max 1 d.count
def Decks.passLen (dk : Decks) (d : DeckDesc) : Nat :=
  (List.range d.passTricks).foldl (fun a i => a + dk.trick d i) 0

/-- Boundary k of a schedule with origin O (R163). -/
def Decks.bnd (dk : Decks) (d : DeckDesc) (o k : Nat) : Nat :=
  o + k / d.passTricks * dk.passLen d + (List.range (k % d.passTricks)).foldl (fun a i => a + dk.trick d i) 0

/-- The first boundary from k, at instant i, on that is not before t. -/
def bndSeek (dk : Decks) (d : DeckDesc) (t : Nat) : Nat → Nat → Nat → Nat
  | 0, k, _ => k
  | n + 1, k, i => if t ≤ i then k else bndSeek dk d t n (k + 1) (i + dk.trick d k)

/-- The first boundary, not below k0, that is not before t. -/
def Decks.bndFrom (dk : Decks) (d : DeckDesc) (o k0 t : Nat) : Nat :=
  let p := (t - o) / max 1 (dk.passLen d)
  let k := max k0 (p * d.passTricks)
  bndSeek dk d t (d.passTricks + 1) k (dk.bnd d o k)

/-- The end boundary (R163); none when endless. -/
def DeckDesc.endK (d : DeckDesc) : Option Nat :=
  if d.rep = 0 then none else some (d.rep * (if d.auto then d.epoch else d.count))

/-- Boundary k is an epoch boundary. -/
def DeckDesc.isEpoch (d : DeckDesc) (k : Nat) : Bool := k % d.epoch = 0 || d.endK = some k

/-- The first epoch boundary from k on. -/
def DeckDesc.epochFrom (d : DeckDesc) (k : Nat) : Nat :=
  let e := (k + d.epoch - 1) / d.epoch * d.epoch
  match d.endK with
  | some n => if k ≤ n then min e n else e
  | none => e

/-- The schedule has ended before boundary k. -/
def DeckDesc.ended (d : DeckDesc) (k : Nat) : Bool := match d.endK with | some e => decide (e ≤ k) | none => false

/-- Boundary k of an armed deck. -/
def Decks.runBnd (dk : Decks) (r : DeckRun) (k : Nat) : Nat := dk.bnd r.desc r.origin k

/-- The deck whose boundaries come next: the current one while it waits or runs, or the next deck once the deal that makes it
current is prepared. -/
def Decks.live (dk : Decks) : Option DeckRun :=
  match dk.next, dk.current with
  | some n, some r => if n.entering then some n else if r.state = .finished then none else some r
  | _, some r => if r.state = .finished then none else some r
  | _, none => none

/-- Replaces that deck. -/
def Decks.setLive (dk : Decks) (r : DeckRun) : Decks :=
  match dk.next with
  | some n => if n.entering then { dk with next := some r } else { dk with current := some r }
  | none => { dk with current := some r }

/-- The current deck runs (R144). -/
def Decks.running (dk : Decks) : Option DeckRun :=
  match dk.current with
  | some r => if r.state = .running then some r else none
  | none => none

/-- The next deck takes over at boundary k (R162, R166). -/
def Decks.changesAt (dk : Decks) (r : DeckRun) (k : Nat) : Bool :=
  match dk.next with
  | none => false
  | some n =>
    let i := dk.runBnd r k
    !n.entering && !r.entering && (
    r.desc.endK = some k || (match r.swap with | some (k0, _) => decide (k0 = k) | none => false) ||
      (r.desc.isEpoch k && decide (n.desc.start ≤ i) && decide (n.accepted + i2600ns ≤ i)))

/-- What happens at boundary k. -/
inductive BAct where
  /-- The deck's hand, the first hand of the next deck, or every slotted output unassigned, is dealt. -/
  | deal | change | dark
  /-- Nothing is dealt: a stop without DARK, the end, the change to the next deck while paused, a pause, a skip. -/
  | stay | fin | changeQuiet | pause | skip
deriving DecidableEq, Repr

/-- A boundary action that deals. -/
def BAct.deals : BAct → Bool
  | .deal | .change | .dark => true
  | _ => false

/-- What happens at boundary k of the current deck (R161, R162, R166, R167, R176) at a throttle level. -/
def bndAct (dk : Decks) (r : DeckRun) (level k : Nat) : BAct :=
  let quiet := decide (3 ≤ level) || (match r.resume with | some n => decide (k < n) | none => false)
  match r.stop with
  | some (k0, drk, _) => if k = k0 then (if drk && !decide (3 ≤ level) then .dark else .stay) else rest quiet
  | none => rest quiet
where
  rest (quiet : Bool) : BAct :=
    if dk.changesAt r k then (if quiet then .changeQuiet else .change)
    else if r.desc.ended k then .fin
    else if quiet then .pause
    else if level = 2 && r.dealtAt != 0 && decide (dk.runBnd r k < r.dealtAt + 32000) then .skip
    else .deal

/-- Boundary k may be a deal: neither past the stop nor past the end (R164); the end boundary deals the next deck's hand, or what a stop
with DARK deals (R161). -/
def Decks.mayDeal (dk : Decks) (r : DeckRun) (k : Nat) : Bool :=
  let dark : Bool := match r.stop with | some (k0, drk, _) => drk && decide (k = k0) | none => false
  (match r.stop with | some (k0, _, _) => decide (k < k0) || dark | none => true) &&
  (match r.desc.endK with | some e => decide (k < e) || (k = e && (dk.next.isSome || dark)) | none => true)

/-! ## Placing (R125, R126, R164) -/

/-- A pending deal that an instant meets: its instant, whether it is thermal-only, and what it is. -/
inductive Meet where
  | deal (num : Nat)
  | bound (kind : DealKind)
deriving DecidableEq, Repr

/-- The pending deals, boundaries and blanking deals within 100 ns of t: instant, thermal-only, what. -/
def meets (x : Die) (t : Nat) : List (Nat × Bool × Meet) :=
  let near (i : Nat) : Bool := decide (i < t + i100ns) && decide (t < i + i100ns)
  let deals := (x.dealer.pending.filter (fun d => near d.instant)).map (fun d => (d.instant, d.thermal, Meet.deal d.num))
  match x.decks.live with
  | none => deals
  | some r =>
    let dk := x.decks
    let taken (kd : DealKind) : Bool := x.dealer.pending.any (fun d => decide (d.kind = kd) && (!r.entering || decide (d.stage = .placed)))
    let k := dk.bndFrom r.desc r.origin r.k (t + 1 - i100ns)
    let bs := [k, k + 1].filter (fun k => near (dk.runBnd r k) && dk.mayDeal r k && !taken (.boundary k))
    let g := 8 * r.desc.guard_
    let j := dk.bndFrom r.desc r.origin (max 1 r.blankK) (t + g + 1 - i100ns)
    let ks := [j, j + 1].filter (fun k => r.desc.blank && near (dk.runBnd r k - g) && dk.mayDeal r k && !taken (.blank k))
    deals ++ bs.map (fun k => (dk.runBnd r k, false, Meet.bound (.boundary k))) ++
      ks.map (fun k => (dk.runBnd r k - g, false, Meet.bound (.blank k)))

/-- The earliest of them. -/
def earliestMeet (l : List (Nat × Bool × Meet)) : Option (Nat × Bool × Meet) :=
  l.foldl (fun a m => match a with | none => some m | some b => if m.1 < b.1 then some m else a) none

/-- Where a take is dealt: the instant, the deal or boundary it joins, and whether it was joined or moved. -/
structure Place where
  instant : Nat
  join : Option Meet
  moved : Bool
deriving DecidableEq, Repr

/-- R126 for asked instant t, validated at v. -/
def placeAt (x : Die) (v : Nat) (thermal : Bool) : Nat → Nat → Bool → Place
  | 0, t, moved => ⟨t, none, moved⟩
  | n + 1, t, moved =>
    match earliestMeet (meets x t) with
    | none => ⟨t, none, moved⟩
    | some (d, th, m) =>
      if v + i1300ns < d && th = thermal then ⟨d, some m, true⟩ else placeAt x v thermal n (d + i100ns) true

/-- The limit of R96 after a backward step, while it applies. -/
def Die.limit96 (x : Die) : Nat := if x.now + i100ns < x.dealer.notBefore then x.dealer.notBefore else 0

/-- The asked instant of a take (R125, R96), none when it is late (R127). -/
def askedInstant (x : Die) (t : Take) : Option Nat :=
  let up := x.nowUp + i1300ns
  if t.whenF = 0 then some (max up x.limit96)
  else if t.whenF = 1 then (if t.time < up || t.time < x.limit96 then none else some t.time)
  else some (cadNext t.cadM t.cadN t.cadO (max (max t.time up) x.limit96))

/-- The trick boundary a pinned take is dealt at while a deck runs (R144). -/
def pinBoundary (x : Die) (r : DeckRun) (t : Take) : Option Nat :=
  let k := x.decks.bndFrom r.desc r.origin r.k (max (x.nowUp + i1300ns) (if t.whenF = 1 then t.time else 0))
  if x.decks.mayDeal r k then some k else none

/-! ## Composing (R119, R173) -/

/-- What the hand in force is composed from. -/
structure Comp where
  part : PortMask
  static : Hand
  pins : PortMask
  pinned : Hand
  deckHand : Hand
deriving DecidableEq, Repr

/-- A take's pairs applied (R124, R144); an entry for an output of the other partition changes nothing. -/
def Comp.take (c : Comp) (t : Take) : Comp :=
  t.pairs.foldl (fun c p =>
    let slotted := c.part.getLsbD p.1
    if t.pin then (if slotted then { c with pins := c.pins ||| maskBit p.1, pinned := handSet c.pinned p.1 p.2 } else c)
    else if t.unpin then
      (if slotted then { c with pins := c.pins &&& ~~~ maskBit p.1, pinned := handSet c.pinned p.1 0 } else c)
    else if slotted then c else { c with static := handSet c.static p.1 p.2 }) c

/-- The mask of a partition set (R172). -/
def Die.pmask (x : Die) (set : Nat) : PortMask :=
  BitVec.ofNat 512 ((List.range 16).foldl (fun a w => a + x.reg (Reg.DCK_PMASK set w) * 2 ^ (32 * w)) 0)

/-- A new partition mask (R173). -/
def Comp.partition (c : Comp) (m : PortMask) : Comp :=
  let moved := (List.range 512).filter (fun n => c.part.getLsbD n != m.getLsbD n)
  let c1 := moved.foldl (fun c n => { c with static := handSet c.static n 0, pinned := handSet c.pinned n 0 }) c
  { c1 with part := m, pins := c.pins &&& m }

/-- What a deal changes of it: partition first, then the deck's hand, then its takes in validation order. -/
def Comp.deal (x : Die) (c : Comp) (d : Deal) : Comp :=
  let c1 := match d.part with | some st => c.partition (x.pmask st) | none => c
  let c2 := match d.deckHand with | some h => { c1 with deckHand := h } | none => c1
  d.takes.foldl Comp.take c2

/-- The composed hand, and how many slotted entries it evicts (R119). -/
def Comp.hand (c : Comp) : Hand × Nat :=
  let own (n : Nat) : BitVec 16 :=
    if c.part.getLsbD n then (if c.pins.getLsbD n then handAt c.pinned n else 0) else handAt c.static n
  let fixed := (List.range 512).foldl (fun h n => handSet h n (own n)) []
  let named := namedInputs fixed
  let slots := (List.range 512).filter (fun n => c.part.getLsbD n && !c.pins.getLsbD n)
  slots.foldl (fun (a : Hand × Nat) n =>
    let e := handAt c.deckHand n
    if entV e && named.contains (entInput e) then (a.1, a.2 + 1) else (handSet a.1 n e, a.2)) (fixed, 0)

/-- What is in force now. -/
def Dealer.comp (d : Dealer) : Comp := ⟨d.part, d.static, d.pins, d.pinned, d.deckHand⟩

/-- The composition before a deal: what is in force with every earlier pending deal applied. -/
def compBefore (x : Die) (inst : Nat) : Comp :=
  (x.dealer.pending.filter (fun e => decide (e.instant < inst))).foldl (Comp.deal x) x.dealer.comp

/-- Keeps pending deals in order of their instants. -/
def insertDeal (d : Deal) : List Deal → List Deal
  | [] => [d]
  | e :: l => if d.instant < e.instant then d :: e :: l else e :: insertDeal d l

/-! ## Checks of a take (R42, R123) -/

/-- A guard zone that is not READY maps an input or an output (R42, R448). -/
def Die.zoneBlocks (x : Die) (out : Bool) (n : Nat) : Bool :=
  (List.range 4).any (fun z =>
    x.rbit (Reg.LGD_ZCFG z) F.LGD_ZCFG_EN && (x.lgd.zones.getD z Zone.reset).state != ZoneState.ready &&
    x.mapBit (Reg.LGD_ZMAP z 0) ((if out then 512 else 0) + n))

/-- R42 refuses a take's lit pairs. -/
def takeBlocked (x : Die) (pairs : List (Nat × Nat)) : Bool :=
  (pairs.filter (fun p => entLit (BitVec.ofNat 16 p.2))).any (fun p =>
    x.lgd.eTripped || x.zoneBlocks true (p.1 % 512) || x.zoneBlocks false (p.2 % 512))

/-- The static and pinned entries of a composition name no input twice (R79). -/
def Comp.clean (c : Comp) : Bool :=
  noDup (namedInputs ((List.range 512).foldl (fun h n =>
    handSet h n (if c.part.getLsbD n then (if c.pins.getLsbD n then handAt c.pinned n else 0) else handAt c.static n)) []))

/-- No deal of a list, made after a composition, names an input twice in the static and pinned entries. -/
def cleanAfter (x : Die) : Comp → List Deal → Bool
  | _, [] => true
  | c, d :: l => (c.deal x d).clean && cleanAfter x (c.deal x d) l

/-- With a take dealt at an instant, neither its deal nor a later pending one names an input twice (R79, R123). -/
def takeClean (x : Die) (t : Take) (inst : Nat) : Bool :=
  let c := ((x.dealer.pending.filter (fun e => decide (e.instant ≤ inst))).foldl (Comp.deal x) x.dealer.comp).take t
  c.clean && cleanAfter x c (x.dealer.pending.filter (fun e => decide (inst < e.instant)))

end Sys2Proof.Machine
end

