-- ==== Sys2Proof/Machine/CalIn.lean ====
section
/-!
DEFINITION. Calibration changes (chapter 09): records and images, the change of a bench set by a request, and what comes in force at
a calibration boundary (R290 to R300, R305 to R308).
-/

namespace Sys2Proof.Machine

/-! ## Records (R290 to R293) -/

/-- The first k entries of n bytes each of a body. -/
def entries (n : Nat) : Nat → List Byte → List (List Byte)
  | 0, _ => []
  | k + 1, l => l.take n :: entries n k (l.drop n)

/-- LENGTH of a record of a type. -/
def recLen (t : Nat) : Nat := if t = 1 then 110624 else if t = 2 then 1245216 else 47136

/-- The header of a record is right for a module serial number (R290, R293). -/
def headerOkCal (serial : Nat) (l : List Byte) : Bool :=
  let t := leAt l 6 1
  decide (leAt l 0 4 = 0x4C414357) && decide (leAt l 4 2 = 1) && decide (1 ≤ t) && decide (t ≤ 3) &&
    (if t = 1 then decide (leAt l 7 1 < 12) else decide (leAt l 7 1 = 0)) && decide (l.length = recLen t) &&
    decide (leAt l 8 4 = recLen t) && decide (leAt l 12 4 ≠ 0) && decide (leAt l 16 8 = serial) &&
    decide (leAt l 24 4 = crc32c (l.drop 32)) && zeroRange l 28 31

/-- A point set's cell entry; none when a field breaks R291. -/
def cellPtOf (e : List Byte) : Option CellPt :=
  let b := leAt e 0 4
  let c := leAt e 4 4
  let i := leAt e 8 2
  if b < 2 ^ 17 && c < 2 ^ 17 && decide (b < c) && decide (1 ≤ i) && decide (i ≤ 8190) && zeroRange e 15 15 then
    some ⟨b, c, i, leAt e 10 2, leAt e 12 2, leAt e 14 1⟩
  else none

/-- Numbers that do not fall. -/
def nonDecreasing : List Nat → Bool
  | a :: b :: l => decide (a ≤ b) && nonDecreasing (b :: l)
  | _ => true

/-- Numbers that rise strictly. -/
def rising : List Nat → Bool
  | a :: b :: l => decide (a < b) && rising (b :: l)
  | _ => true

/-- A point set's gate entry. -/
def gatePtOf (e : List Byte) : Option (List Nat) :=
  let codes := (List.range 15).map (fun s => leAt e (2 * s) 2)
  if codes.all (fun c => decide (c < 2 ^ 14)) && nonDecreasing codes && zeroRange e 30 31 then some codes else none

/-- The cell-table entry of a cell; none when a field breaks R292. An absent neighbour keeps the ID 0xFFFF. -/
def cellTabOf (cell : Nat) (e : List Byte) : Option CellTab :=
  let lin := (List.range 64).map (fun k => leAt e (2 * k) 2)
  let nbr := (List.range 6).map (fun m =>
    (leAt e (128 + 18 * m) 2, (List.range 8).map (fun p => signedOf 16 (leAt e (130 + 18 * m + 2 * p) 2))))
  let ids := (nbr.map (·.1)).filter (fun i => decide (i ≠ 0xFFFF))
  let fl := leAt e 236 2
  if lin.headD 1 = 0 && rising lin && ids.all (fun i => decide (i < 4864) && decide (i ≠ cell)) && noDup ids && fl < 4 &&
      zeroRange e 238 255 then some ⟨lin, nbr, bitOf fl 0, bitOf fl 1⟩
  else none

/-- The element-table entry of an element; none when a field breaks R293. -/
def elemTabOf (elem : Nat) (e : List Byte) : Option ElemTab :=
  if isCell elem || leAt e 6 2 = 0 then some ⟨leAt e 0 4, leAt e 4 2, leAt e 6 2⟩ else none

/-- A list of entries, each read with its number, as a store; none when one breaks its rule. -/
def readEntries {α : Type} (f : Nat → List Byte → Option α) (l : List (List Byte)) : Option (Sparse α) :=
  (l.zipIdx).foldr (fun p acc => match f p.2 p.1, acc with | some v, some t => some ((p.2, v) :: t) | _, _ => none) (some [])

/-- An image with a record written into it; none when the record is invalid (R293). -/
def loadRecord (serial : Nat) (l : List Byte) (img : CalImage) : Option CalImage :=
  if !headerOkCal serial l then none
  else
    let t := leAt l 6 1
    let sn := leAt l 12 4
    let body := l.drop 32
    if t = 1 then
      match readEntries (fun _ => cellPtOf) (entries 16 4864 body), readEntries (fun _ => gatePtOf) (entries 32 1024 (body.drop 77824)) with
      | some cs, some gs => some { img with points := spPut (leAt l 7 1) ⟨sn, cs, gs⟩ img.points }
      | _, _ => none
    else if t = 2 then (readEntries cellTabOf (entries 256 4864 body)).map (fun cs => { img with tables := some ⟨sn, cs⟩ })
    else (readEntries elemTabOf (entries 8 5888 body)).map (fun es => { img with elems := some ⟨sn, es⟩ })

/-- The body of a record of an image, when it is valid (R310). -/
def recordBody (img : CalImage) (t p : Nat) : Option (Nat × List Byte) :=
  if t = 1 then (spFind p img.points).map (fun s => (s.serial,
    s.cells.flatMap (fun e => leBytes 4 e.2.b ++ leBytes 4 e.2.c ++ leBytes 2 e.2.ipi ++ leBytes 2 e.2.extBar ++ leBytes 2 e.2.extCross ++
      leBytes 1 e.2.lock ++ [0]) ++
    s.gates.flatMap (fun e => e.2.flatMap (leBytes 2) ++ [0, 0])))
  else if t = 2 then img.tables.map (fun s => (s.serial,
    s.cells.flatMap (fun e => e.2.lin.flatMap (leBytes 2) ++
      e.2.nbr.flatMap (fun n => leBytes 2 n.1 ++ n.2.flatMap (fun k => leBytes 2 (codeOf 16 k))) ++
      leBytes 2 (b2n e.2.fbench + 2 * b2n e.2.park) ++ List.replicate 18 0)))
  else if t = 3 then img.elems.map (fun s => (s.serial,
    s.elems.flatMap (fun e => leBytes 4 e.2.resp ++ leBytes 2 e.2.lossA ++ leBytes 2 e.2.lossB)))
  else none

/-- A record of the active image read back, with a fresh CRC; bit 31 of SERIAL marks field changes (R290, R310). -/
def recordBytes (c : Cal) (serial t p : Nat) : Option (List Byte) :=
  (recordBody c.active t p).map (fun r =>
    let mark := if t = 1 && c.changed.getLsbD p then Nat.lor r.1 0x80000000 else r.1
    leBytes 4 0x4C414357 ++ leBytes 2 1 ++ leBytes 1 t ++ leBytes 1 (if t = 1 then p else 0) ++ leBytes 4 (recLen t) ++ leBytes 4 mark ++
      leBytes 8 serial ++ leBytes 4 (crc32c r.2) ++ leBytes 4 0 ++ r.2)

/-- A calibration with an image in force at one of the twelve temperatures. -/
def Cal.atPoint (c : Cal) (img : CalImage) (j : Nat) : Cal :=
  let t : Rat := ((256 * pointTemp j : Int) : Rat)
  { c with active := img, tf := t, covered := t }

/-- The cells an image's factory flags bench, and their park states. -/
def CalImage.fbench (img : CalImage) : Image × Image :=
  match img.tables with
  | some t => (imageOf ((t.cells.filter (fun e => e.2.fbench)).map (·.1)), imageOf ((t.cells.filter (fun e => e.2.fbench && e.2.park)).map (·.1)))
  | none => (0, 0)

/-- An image is valid (R293): W is in range for every cell at every valid point, and the factory benches meet R85. -/
def imageValid (c : Cal) (img : CalImage) : Bool :=
  ((List.range 12).filter (pointValid img)).all (fun j =>
    img.tables.isNone || (List.range 4864).all (fun e => decide ((c.atPoint img j).cellW e ≤ 131071))) && admits img.fbench.1

/-! ## Bench requests (R305 to R307) -/

/-- The quality figures of a cell (R304): extinction in bar and in cross, lock margin; live ones, or the lower of the bracketing
points. -/
def Cal.figures (c : Cal) (e : Nat) : Nat × Nat × Nat :=
  match spFind e c.quality with
  | some q => (q.extBar, q.extCross, q.lock)
  | none =>
    match bracket c.active (c.useTemp) with
    | some (j, k) =>
      match spFind j c.active.points, spFind k c.active.points with
      | some a, some b =>
        let p := cellPt a e
        let q := cellPt b e
        (min p.extBar q.extBar, min p.extCross q.extCross, min p.lock q.lock)
      | _, _ => (0, 0, 0)
    | none => (0, 0, 0)

/-- The park state of higher extinction, bar when they are equal (R305, R306). -/
def Cal.parkBest (c : Cal) (e : Nat) : Bool := let q := c.figures e; decide (q.1 < q.2.1)

/-- A bench set with one cell benched in a park state, or restored; none where R306 or R85 forbids it. -/
def BenchSet.request (b : BenchSet) (cell : Nat) (bench park : Bool) : Option BenchSet :=
  let bit : Image := BitVec.ofNat 4864 (2 ^ cell)
  if b.set.getLsbD cell = bench then none
  else
    let set := if bench then b.set ||| bit else b.set &&& ~~~bit
    let pk := if bench && park then b.park ||| bit else b.park &&& ~~~bit
    if admits set then some ⟨set, pk, b.gen + 1⟩ else none

/-- The bench set a new request is judged against: the last one pending, or the one in force (R307). -/
def Cal.judged (c : Cal) : BenchSet :=
  match c.pend2, c.pend with
  | some p, _ => p.bench
  | none, some p => p.bench
  | none, none => c.bench

/-- The written hands of the manual region (R154). -/
def manualHands (hands : Sparse StoredHand) : List Nat := (hands.filter (fun h => decide (h.1 < 28672))).map (·.1)

/-- A new bench set joins the pending change, or starts one (R154, R307); with no hand to recompute it is ready at once. -/
def joinBench (x : Die) (b : BenchSet) (cmd : Option Nat) : Die :=
  let left := manualHands x.decks.hands
  let fresh (old : List Nat) : BenchPend := ⟨b, left, if left.isEmpty then some x.nowUp else none, false, old ++ cmd.toList⟩
  let c := match x.cal.pend, x.cal.pend2 with
    | none, _ => { x.cal with pend := some (fresh []) }
    | some p, none => if p.closed then { x.cal with pend2 := some (fresh []) } else { x.cal with pend := some (fresh p.cmds) }
    | some _, some q => { x.cal with pend2 := some (fresh q.cmds) }
  ({ x with cal := c } : Die).onRouters (fun r => left.foldl (fun r h => r.submit (.image h)) (r.drop RouteTask.isImage))

/-- The factory benches of the active image that the bench set in force lacks become bench requests, in ascending order (R296); the
cells refused. -/
def factoryBench (x : Die) : Die × List Nat :=
  match x.cal.active.tables with
  | none => (x, [])
  | some t =>
    (t.cells.filter (fun e => e.2.fbench && !x.cal.bench.set.getLsbD e.1 && !x.cal.judged.set.getLsbD e.1)).foldl (fun r e =>
      match r.1.cal.judged.request e.1 true e.2.park with
      | some b => (joinBench r.1 b none, r.2)
      | none => (r.1, r.2 ++ [e.1])) (x, [])

/-! ## Coming in force (R296 to R300) -/

/-- The points a field change falls on: those that bracket T_f, or the end point (R299). -/
def Cal.fieldPoints (c : Cal) : List Nat :=
  match bracket c.active c.useTemp with
  | some (j, k) => if j = k then [j] else [j, k]
  | none => []

/-- A cell's entry moved by a field change. -/
def CellPt.moved (p : CellPt) (dF dI : Int) : CellPt :=
  { p with b := ((p.b : Int) + dF).toNat, c := ((p.c : Int) + dF).toNat, ipi := ((p.ipi : Int) + dI).toNat }

/-- A field change is folded into its points (R299, R303). -/
def Cal.fold (c : Cal) (f : FieldChange) : Cal :=
  let dI := match f.ipi with | some i => (i : Int) - c.cellIpi f.cell | none => 0
  let pts := c.fieldPoints
  let points := pts.foldl (fun ps j => match spFind j ps with
    | some p => spPut j { p with cells := spPut f.cell ((cellPt p f.cell).moved f.dF dI) p.cells } ps
    | none => ps) c.active.points
  { c with active := { c.active with points := points },
           changed := pts.foldl (fun m j => m ||| BitVec.ofNat 14 (2 ^ j)) c.changed,
           trims := if f.trim then spSet 0 f.cell (spGet 0 f.cell c.trims + f.dF) c.trims else c.trims }

/-- A commit: the staging image replaces the active one, field results still to come are discarded; a record that changed has no field
work in it (R290, R296). -/
def Cal.commitImage (c : Cal) : Cal :=
  match c.staging with
  | none => { c with commit := none }
  | some img =>
    let same (j : Nat) : Bool := spFind j img.points == spFind j c.active.points
    { c with active := img, staging := none, commit := none, field := [],
             changed := (List.range 12).foldl (fun m j => if same j then m else m &&& ~~~(BitVec.ofNat 14 (2 ^ j))) c.changed,
             trims := if (List.range 12).all same then c.trims else [] }

/-- Changes ready by an instant come in force: a bench set first, then values (R297). -/
def Cal.inForceBy (c : Cal) (lim : Nat) : Cal :=
  let due (r : Nat) : Bool := decide (r ≤ lim)
  let c1 := match c.pend with
    | some p => (match p.ready with
      | some r => if due r then { c with bench := p.bench, pend := c.pend2, pend2 := none } else c
      | none => c)
    | none => c
  let c2 := match c1.commit with | some (_, r) => if due r then c1.commitImage else c1 | none => c1
  let fs := c2.field.filter (fun f => due f.ready)
  { fs.foldl Cal.fold c2 with field := c2.field.filter (fun f => !due f.ready) }

/-- The last epoch boundary of a running deck up to an instant. -/
def lastEpoch (x : Die) (r : DeckRun) (inst : Nat) : Option Nat :=
  let after := x.decks.bndFrom r.desc r.origin (r.pass - 1) (inst + 1)
  if after ≤ r.pass - 1 then none
  else
    let k := after - 1
    some (x.decks.runBnd r (if r.desc.isEpoch k then k else k - k % r.desc.epoch))

/-- The calibration as a deal at an instant finds it: in a working mode a deal with no deck running is a boundary, and with one the last
epoch boundary up to it is (R297, R298). -/
def Die.calAt (x : Die) (inst : Nat) : Cal :=
  if !isWorking x.base then x.cal
  else match x.decks.running with
    | some r => (match lastEpoch x r inst with | some b => x.cal.inForceBy (b - i2600ns) | none => x.cal)
    | none => x.cal.inForceBy (inst - i2600ns)

/-- The calibration now: at the last boundary passed, or at an idle point (R297). -/
def Die.calNow (x : Die) : Cal :=
  let idle := if x.dealer.pending.isEmpty then x.now else 0
  if isWorking x.base then
    match x.decks.running with
    | some r => (match lastEpoch x r x.now with | some b => x.cal.inForceBy (b - i2600ns) | none => x.cal)
    | none => x.cal.inForceBy (max x.dealer.last idle - i2600ns)
  else if x.base = mDark || x.base = mService then x.cal.inForceBy (idle - i2600ns)
  else x.cal

/-- The blind tables the holder keeps in a bank die (R282): D_b in 1/128 °C, then for each calibration temperature B, C, W and π current of
each cell, and the codes for steps 0 to 14 of each gate. -/
def blindTables (x : Die) (b : Nat) : List Nat :=
  codeOf 16 (roundRat (x.thm.dB.getD b 0)) :: (List.range 12).flatMap (fun j =>
    let c := x.cal.atPoint x.cal.active j
    (List.range 608).flatMap (fun l =>
      let e := elemOf b l
      [(c.cellB e).toNat, (c.cellC e).toNat, (c.cellW e).toNat, (c.cellIpi e).toNat]) ++
    (List.range 128).flatMap (fun i => (List.range 15).map (fun st => (c.gateCode (elemOf b (608 + i) - 4864) st).toNat)))

/-- The holder writes a bank die's blind tables (R282, R298). -/
def sendTables (s : State) (d : DieId) (b : Nat) : State :=
  if (s.bank b).up d then s.emit (.bank d b mBlindCtx (blindTables (s.die d) b)) else s

/-- A pending bench change is closed when the window of the deal at its boundary opens (R307). -/
def Cal.close (c after : Cal) : Cal :=
  if after.bench = c.bench then c else { c with pend := c.pend.map (fun (p : BenchPend) => { p with closed := true }) }

end Sys2Proof.Machine
end

