-- ==== Sys2Proof/Machine/Tasks.lean ====
section
/-!
DEFINITION. Tasks of the hold engines (R230 to R237): placing, merging, spilling, and the missed update of R216.
-/

namespace Sys2Proof.Machine

/-! ## Task types (R230); the priority of a type is its code plus 1 -/

def tTransition : Nat := 0
def tHandoff : Nat := 1
def tHold : Nat := 2
def tDither : Nat := 3
def tCal : Nat := 4
def tSelftest : Nat := 5

def Engines.engine (g : Engines) (e : Nat) : Engine := spGet Engine.reset e g.eng
def Engines.setEngine (g : Engines) (e : Nat) (v : Engine) : Engines := { g with eng := spSet Engine.reset e v g.eng }
def Engines.onEngine (g : Engines) (e : Nat) (f : Engine → Engine) : Engines := g.setEngine e (f (g.engine e))

/-- Applies f to the engines of a die. -/
def Die.onEng (x : Die) (f : Engines → Engines) : Die := { x with eng := f x.eng }

/-- The engines of a cluster, ascending. -/
def clusterEngines (c : Nat) : List Nat := (List.range 8).map (fun i => 8 * c + i)

/-- A cluster is in DOZE. -/
def Engines.dozing (g : Engines) (c : Nat) : Bool := g.doze.getLsbD c

/-- A cluster wakes (R237). -/
def Engines.wake (g : Engines) (c : Nat) : Engines :=
  if g.dozing c then
    { (clusterEngines c).foldl (fun g e => g.onEngine e (fun n => if n.state = 2 then { n with state := 0 } else n)) g with
      doze := g.doze &&& ~~~ BitVec.ofNat 8 (2 ^ c) }
  else g

/-- Entries of an engine's deque. -/
def Engines.entries (g : Engines) (e : Nat) : Nat := (g.engine e).deque.length

/-- An engine can hold one task more. -/
def Engines.hasRoom (g : Engines) (e : Nat) : Bool := decide ((g.engine e).state ≠ 3) && decide (g.entries e < 128)

/-- Of a list of engines, the one with the fewest entries among those that have room; the first on a tie. -/
def Engines.fewest (g : Engines) (l : List Nat) : Option Nat :=
  (l.filter g.hasRoom).foldl (fun a e => match a with
    | none => some e
    | some b => if g.entries e < g.entries b then some e else some b) none

/-- The clusters after c, in the order of R233. -/
def clustersFrom (c : Nat) : List Nat := (List.range 7).map (fun i => (c + 1 + i) % 8)

/-- Where a task of a home cluster goes (R233, R236): an engine, and whether it spills. -/
def Engines.target (g : Engines) (home : Nat) : Option (Nat × Bool) :=
  match g.fewest (clusterEngines home) with
  | some e => some (e, false)
  | none =>
    let others := (List.range 8).filter (fun c => c ≠ home)
    match g.fewest ((others.filter (fun c => !g.dozing c)).flatMap clusterEngines) with
    | some e => some (e, true)
    | none => (g.fewest ((others.filter g.dozing).flatMap clusterEngines)).map (fun e => (e, true))

/-- Puts a task in a deque; the deque's cluster wakes. -/
def Engines.push (g : Engines) (e : Nat) (t : Task) : Engines :=
  (g.wake (e / 8)).onEngine e (fun n => { n with deque := n.deque ++ [t] })

/-- Two causes merged: the higher priority with the type that goes with it (R231). -/
def Task.merge (t : Task) (type : Nat) : Task := if type + 1 < t.prio then { t with type := type, prio := type + 1 } else t

/-- A task with the cause recorded while it ran. -/
def Task.withCause (t : Task) : Option (Nat × Nat) → Task
  | some (type, _) => t.merge type
  | none => t

/-- A task is work for an element: an engine's own SELFTEST is not. -/
def Task.isFor (t : Task) (e : Nat) : Bool := t.elem = e && decide (t.type ≠ tSelftest)

/-! ## Missed updates (R216, R217) -/

/-- An update of an element is missed. -/
def missUpdate (s : State) (d : DieId) (e : Nat) : State :=
  let el := (s.die d).elem e
  let s1 := (s.onDie d (·.onElem e (fun el =>
    { el with miss := true, missAt := some s.ticks, missRun := el.missRun + 1, missCnt := satAdd 16 el.missCnt 1 }))).count d Reg.HLD_MISS_CNT
      F.HLD_MISS_CNT_COUNT
  if el.missRun + 1 = 4 then elementEvent (raise s1 d (20 + 5 * bankOf e + 1) e) d e ecMisses false else s1

/-! ## Queueing -/

/-- Places a ready task in a deque of a cluster, or spills it; without room its update is missed (R233, R236). -/
def placeIn (s : State) (d : DieId) (c : Nat) (t : Task) : State :=
  let g := (s.die d).eng.wake c
  match g.target c with
  | some (e, spill) =>
    let s1 := s.onDie d (fun x => { x with eng := g.push e t })
    if spill then s1.count d Reg.UCS_SPILL_CNT F.UCS_SPILL_CNT_COUNT else s1
  | none => raise (missUpdate (s.onDie d (fun x => { x with eng := g })) d t.elem) d 5

/-- A ready task goes to its home cluster (R232, R235). -/
def placeTask (s : State) (d : DieId) (t : Task) : State := placeIn s d (bankOf t.elem) t

/-- The engine on which the task of an element runs. -/
def Engines.runningOn (g : Engines) (e : Nat) : Option Nat :=
  (List.range 64).find? (fun i => match (g.engine i).running with | some t => t.isFor e | none => false)

/-- The engine whose deque holds an element's task. -/
def Engines.queuedOn (g : Engines) (e : Nat) : Option Nat :=
  (List.range 64).find? (fun i => (g.engine i).deque.any (·.isFor e))

/-- Removes the armed task of an element. -/
def Engines.disarm (g : Engines) (e : Nat) : Engines := { g with armed := g.armed.filter (fun t => t.elem ≠ e) }

/-- A cause for a task arrives for an element (R231): merged with its queued, parked or running task, or a new one. -/
def queueTask (s : State) (d : DieId) (e type : Nat) : State :=
  let g := (s.die d).eng
  match g.runningOn e, g.queuedOn e with
  | some i, _ =>
    s.onDie d (·.onEng (·.onEngine i (fun n => { n with merged := some (match n.merged with
      | some (ty, p) => if type + 1 < p then (type, type + 1) else (ty, p)
      | none => (type, type + 1)) })))
  | none, some i =>
    s.onDie d (·.onEng (·.onEngine i (fun n => { n with deque := n.deque.map (fun t =>
      if t.isFor e then t.merge type else t) })))
  | none, none =>
    if g.parked.any (fun t => t.elem = e) then
      s.onDie d (·.onEng (fun g => { g with parked := g.parked.map (fun t => if t.elem = e then t.merge type else t) }))
    else
      let t : Task := match g.armed.find? (fun t => t.elem = e) with
        | some t => { t.merge type with release := s.ticks }
        | none => ⟨e, type, type + 1, s.ticks, none, none⟩
      placeTask (s.onDie d (·.onEng (·.disarm e))) d t

/-- A periodic update arms its next task, when the element has none (R232). -/
def armTask (s : State) (d : DieId) (e type release : Nat) : State :=
  let g := (s.die d).eng
  if (g.runningOn e).isSome || (g.queuedOn e).isSome || g.parked.any (fun t => t.elem = e) then s
  else s.onDie d (·.onEng (fun g => { g.disarm e with armed := (g.disarm e).armed ++ [⟨e, type, type + 1, release, none, none⟩] }))

end Sys2Proof.Machine
end

