-- ==== Sys2Proof/Machine/Access.lean ====
section
/-!
DEFINITION. How a register write reaches its word: access types (R17), Expert level (R22, R23), the service lock (R513), and
the registers that only the Declarer takes writes to, which it mirrors (R541).
-/

namespace Sys2Proof.Machine

/-- HIF_LEVEL.EXPERT of a function. -/
def Die.expert (x : Die) (fn : Nat) : Bool := x.rbit (Reg.HIF_LEVEL fn) F.HIF_LEVEL_EXPERT

/-- The service lock is open (R513). -/
def Die.lockOpen (x : Die) : Bool := x.svc.level = 2

/-- A field of an access type takes the value written (R17). -/
def Die.takes (x : Die) (fn : Nat) (a : Access) : Bool :=
  match a with
  | .rw | .rws => true
  | .rwe => x.expert fn
  | .rwl => x.lockOpen
  | _ => false

/-- A field's access type is guarded: RWS, RWE or RWL. -/
def guardedAcc (a : Access) : Bool := a == Access.rws || a == Access.rwe || a == Access.rwl

/-- The register at a key has a field of some access types. -/
def regHas (key : Nat) (p : Access → Bool) : Bool :=
  match findReg (key / 0x10000) (key % 0x10000) with
  | some (r, _, _) => r.fields.any (fun f => p f.acc)
  | none => false

/-- TIM registers that R541 names: increment, adjust, PPS_OUT and the SYNC_OUT cadences. -/
def timMirrored (key : Nat) : Bool :=
  (0x30010 ≤ key && key < 0x30020) || key = Reg.TIM_PPS_OUT_CFG || (0x30040 ≤ key && key < 0x30080)

/-- The UCS patch registers. -/
def patchReg (key : Nat) : Bool := 0x07080 ≤ key && key < 0x07090

/-- A register to which a die that is not Declarer ignores writes as a whole (R541). -/
def declOnly (key : Nat) : Bool :=
  (0x10000 ≤ key && key < 0x1F000 && (regHas key guardedAcc || key = Reg.DCK_PART_CTRL)) ||
  (0x07000 ≤ key && key < 0x08000 && regHas key (fun a => a == Access.rwe || a == Access.rwl)) || timMirrored key

/-- A register whose writes the Declarer mirrors (R420, R541). -/
def isMirrored (key : Nat) : Bool := declOnly key && (decide (0x10000 ≤ key) || patchReg key)

/-- A die takes writes to a register. -/
def Die.writable (x : Die) (key : Nat) : Bool := !declOnly key || x.isDecl

/-- The bits of v that belong to fields a write can set: reserved ones read as zero (R20). -/
def fieldBits (key v : Nat) : Nat :=
  match findReg (key / 0x10000) (key % 0x10000) with
  | some (r, _, hi) => Nat.land v (accMask r hi (fun a => a != Access.ro))
  | none => 0

/-- The word that a write of v leaves in a register word (R17). -/
def Die.written (x : Die) (key v : Nat) : Nat :=
  let old := x.reg key
  match findReg (key / 0x10000) (key % 0x10000) with
  | none => old
  | some (r, _, hi) =>
    let set := accMask r hi (x.takes (key / 0x10000))
    let w := Nat.lor (Nat.land old (2 ^ 32 - 1 - set)) (Nat.land v set)
    let w1 := Nat.land w (2 ^ 32 - 1 - Nat.land (x.clearing key v) (accMask r hi (· == Access.w1c)))
    Nat.lor w1 (Nat.land v (accMask r hi (· == Access.w1s)))

/-- A write of one register word as its fields take it, mirrored where R541 says so. -/
def putWord (s : State) (d : DieId) (key v : Nat) : State :=
  let x := s.die d
  if !x.writable key then s
  else
    let s1 := s.onDie d (·.setReg key (x.written key (v % 2 ^ 32)))
    if isMirrored key then mirrorReg s1 d key else s1

/-- A write of a 64-bit register, both words together. -/
def putWord64 (s : State) (d : DieId) (key v : Nat) : State := putWord (putWord s d key (v % 2 ^ 32)) d (key + 4) (v / 2 ^ 32)

end Sys2Proof.Machine
end

