-- ==== Sys2Proof/Machine/Hold.lean ====
section
/-!
DEFINITION. The hold loops (chapter 06) and the hand-off (R139 to R143): the number format, the loop laws, resting and waking,
fallback, plausibility, mode changes. Arithmetic is on rationals; what the engines store is rounded by R202 (log entry 11).
-/

namespace Sys2Proof.Machine

/-! ## Number format (R201 to R203) -/

/-- A power of two. -/
def pow2 (k : Int) : Rat := if 0 ≤ k then ((2 ^ k.toNat : Nat) : Rat) else 1 / ((2 ^ (-k).toNat : Nat) : Rat)

/-- The mantissa of a value at an exponent, and whether it fits in 18 bits. -/
def mantAt (v : Rat) (x : Int) : Int := roundRat (v * pow2 (17 - x))
def mantFits (m : Int) : Bool := decide (-131072 ≤ m) && decide (m ≤ 131071)

/-- A stage of two values, and whether a mantissa saturated (R202). -/
def loopVal (a b : Rat) : LoopVal × Bool :=
  if a = 0 ∧ b = 0 then (.zero, false)
  else
    match ((List.range 64).map (fun (i : Nat) => (i : Int) - 32)).find? (fun x => mantFits (mantAt a x) && mantFits (mantAt b x)) with
    | some x => (⟨mantAt a x, mantAt b x, x⟩, false)
    | none => (⟨clampInt (-131072) 131071 (mantAt a 31), clampInt (-131072) 131071 (mantAt b 31), 31⟩, true)

/-- The values a stored stage stands for. -/
def LoopVal.valA (v : LoopVal) : Rat := ((v.a : Int) : Rat) * pow2 (v.x - 17)
def LoopVal.valB (v : LoopVal) : Rat := ((v.b : Int) : Rat) * pow2 (v.x - 17)

/-- The 64 bits a stored stage reads back as (R203). -/
def LoopVal.word (v : LoopVal) : Nat := codeOf 18 v.a + codeOf 18 v.b * 2 ^ 18 + codeOf 6 v.x * 2 ^ 36

/-! ## Settings -/

/-- f_d in 100 Hz units, the loop period in µs, whole dither cycles in it, the effective period in ns (R197). -/
def Die.fd (x : Die) : Nat := clampNat 10 400 (x.rf Reg.HLD_DITHER F.HLD_DITHER_FREQ)
def Die.loopUs (x : Die) : Nat := clampNat 20 1000 (x.rf Reg.HLD_PERIOD F.HLD_PERIOD_PERIOD_US)
def Die.cycles (x : Die) : Nat := (x.loopUs * x.fd + 9999) / 10000
def Die.effNs (x : Die) : Nat := x.cycles * 10000000 / x.fd
def Die.halfNs (x : Die) : Nat := 5000000 / x.fd

/-- The dither amplitude in use, rad (R192, R198). -/
def Die.amp (x : Die) : Rat :=
  ((clampNat 20 1000 (x.rf Reg.HLD_DITHER F.HLD_DITHER_AMP) : Nat) : Rat) / (if 1 ≤ x.thm.level then 20000 else 10000)

/-- The settle delay of an actuator in ns, cut to the half-period minus 12.4 µs (R193). -/
def Die.settleNs (x : Die) (pin : Bool) : Nat :=
  min (x.halfNs - 12400) (if pin then 100 * x.rf Reg.HLD_SETTLE F.HLD_SETTLE_PIN else 1000 * x.rf Reg.HLD_SETTLE F.HLD_SETTLE_HTR)

/-- A gain of 4.12 bits. -/
def Die.gain (x : Die) (key : Nat) (f : Fld) : Rat := ((x.rf key f : Nat) : Rat) / 4096

def Die.wakeBurst (x : Die) : Nat := max 1 (x.rf Reg.HLD_REFRESH F.HLD_REFRESH_WAKE_BURST)
def Die.refreshBurst (x : Die) : Nat := max 1 (x.rf Reg.HLD_REFRESH F.HLD_REFRESH_REFRESH_BURST)
def Die.refreshNs (x : Die) : Nat := msT * clampNat 1 1000 (x.rf Reg.HLD_REFRESH F.HLD_REFRESH_REFRESH_MS)
def Die.retryNs (x : Die) : Nat := msT * clampNat 10 10000 (x.rf Reg.HLD_FEEDBACK F.HLD_FEEDBACK_RETRY_MS)
def Die.plausN (x : Die) : Nat := max 1 (x.rf Reg.HLD_PLAUS F.HLD_PLAUS_N)
def Die.plausDb (x : Die) : Rat := ((max 50 (x.rf Reg.HLD_PLAUS F.HLD_PLAUS_DB) : Nat) : Rat) / 100

/-- The hand-off threshold in use, ns (R139, R478); none while hand-offs are disabled. -/
def Die.handoffNs (x : Die) : Option Nat :=
  let t := x.rf Reg.HLD_HANDOFF F.HLD_HANDOFF_THRESH
  let t1 := if t < 20 then 20 else t
  if t = 0 then none
  else some (usT * (if 1 ≤ x.thm.level then min t1 (x.rf Reg.THM_TCFG F.THM_TCFG_ADV_US) else t1))

/-- Loops run: the working modes and SERVICE (R36), but not in a class L stop (R483). -/
def Die.loopsOn (x : Die) : Bool := (isWorking x.base || x.base = mService) && decide (x.trans ≠ .shutdown)

/-- A bank die's holder took the token and has made no first write yet: updates in that gap are stale (R428). -/
def tokenGap (s : State) (b : Nat) : Bool :=
  match (s.bank b).holder with
  | some h => match (s.die h).red.takeover with
    | some t => t.claimant && t.firstWrite.isNone
    | none => false
  | none => false

/-- Readings of an element's bank die are stale: a calibration runs (R218), or the token has just moved (R428). -/
def stale (s : State) (e : Nat) : Bool := (s.bank (bankOf e)).cal.isSome || tokenGap s (bankOf e)

/-- An element's change at a deal still has to be verified (R137, R224). -/
def Die.verifying (x : Die) (e : Nat) : Bool := x.dealer.verify.any (fun v => v.elem = e)

/-- An element is held by a running DITHER_RUN (R226). -/
def Die.inRun (x : Die) (e : Nat) : Bool := x.dither.any (fun r => r.left.any (fun t => t.elem = e))

/-- The controlled actuator is the PIN shifter (R190). -/
def Elem.onPinLoop (el : Elem) : Bool := el.onPin || el.handoff || el.deferred

/-- The element is closed: in AUTO, active, and nothing of R224 keeps it from acting. -/
def Elem.closed (el : Elem) (e : Nat) : Bool :=
  el.mode = 0 && el.active && !el.fallback && !el.implausible && !el.balanced e

/-- A cell is to carry dither (R192): while it is closed, and for the effective period of a retry (R222). -/
def Elem.dithered (el : Elem) (e : Nat) : Bool :=
  el.closed e || (el.mode = 0 && el.fallback && el.retry.isSome && !el.implausible && !el.balanced e)

/-! ## Drive outputs -/

/-- An element whose output was strobed: the code, and the next update number. -/
def Elem.drove (el : Elem) (out : DriveOut) (cur : Nat) : Elem :=
  let n := el.update + 1
  match out with
  | .heater => { el with update := n, dHtr := cur }
  | .pin => { el with update := n, dPin := cur }
  | .gate => { el with update := n, dGate := cur }

/-- Writes one drive output of an element over the die's link, when it is up (R189, R248, R264, R269). -/
def driveOut (s : State) (d : DieId) (e : Nat) (out : DriveOut) (code : Nat) (x2 : Bool) (group : Nat) : State :=
  let el := (s.die d).elem e
  let s1 := s.onDie d (·.onElem e (·.drove out (if x2 && decide (out = .pin) then 2 * code else code)))
  if (s.bank (bankOf e)).up d then
    s1.emit (.bankDrive d (bankOf e) ⟨chanOf e, out, code, x2, group, true, el.dealSeq, el.update⟩)
  else s1

/-- What loops and manual codes give an output is stored and not applied (R209): BLIND HOLD holds every output, and GO_DARK the gates. -/
def Die.holdsOut (x : Die) (out : DriveOut) : Bool :=
  decide (x.base = mBlind) ||
    (decide (out = .gate) && (decide (x.base = mDark) || (match x.trans with | .goDark (some _) _ => true | _ => false)))

/-- A write of a loop or of a manual code. -/
def loopOut (s : State) (d : DieId) (e : Nat) (out : DriveOut) (code : Nat) (x2 : Bool) (group : Nat) : State :=
  if (s.die d).holdsOut out then s else driveOut s d e out code x2 group

/-- The loop strobe group of an element (R264). -/
def loopGroup (e : Nat) : Nat := 1 + bankOf e

/-- A PIN current in ×1 LSB as code and reference: ×2 above 4 mA, and throughout a hand-off (R140, R259). -/
def pinCode (cur : Nat) (handoff : Bool) : Nat × Bool :=
  if handoff || 4095 < cur then (min 4095 ((cur + 1) / 2), true) else (cur, false)

/-- Both outputs of a cell, in a strobe group. -/
def driveCell (s : State) (d : DieId) (c h p group : Nat) : State :=
  let s1 := s.onDie d (·.onElem c (fun el => { el with uHtr := h, uPin := p }))
  let q := pinCode p ((s.die d).elem c).handoff
  loopOut (loopOut s1 d c .heater h false group) d c .pin q.1 q.2 group

/-- The output of a gate, in a strobe group. -/
def driveGate (s : State) (d : DieId) (e g group : Nat) : State :=
  loopOut (s.onDie d (·.onElem e (fun el => { el with uGate := g }))) d e .gate g false group

/-- The top of the heater range at the gain in force (R257), and of the PIN range at ×2 (R259). -/
def heaterMax (s : State) (e : Nat) : Nat := if (s.bank (bankOf e)).heaterX2 then 131071 else 65535
def pinMax : Nat := 8190

/-- A code rounded and clamped: the code, and whether it stands at the upper or the lower limit (R195). -/
def clampCode (q : Rat) (hi : Nat) : Nat × Bool × Bool :=
  let i := roundRat q
  if i < 0 then (0, false, true) else if (hi : Int) < i then (hi, true, false) else (i.toNat, false, false)

/-- A PIN current rounded to the nearest code of the reference it needs (R195, R259), in ×1 LSB, and its clamps. -/
def clampPin (q : Rat) (handoff : Bool) : Nat × Bool × Bool :=
  if handoff || decide (4095 < roundRat q) then let c := clampCode (q / 2) 4095; (2 * c.1, c.2) else clampCode q 4095

/-! ## The cell loop law (R194 to R196) -/

/-- A cell's slopes: S_h in LSB per rad at the heater's phase, S_p. -/
def slopeH (x : Die) (c ticks : Nat) : Rat := x.cal.slope c (heaterPhi (x.elem c) ticks)
def slopeP (x : Die) (c : Nat) : Rat := ((x.cal.cellIpi c : Int) : Rat) / piQ

/-- Δ of R194: the predicted tap reading in the cell's state minus that in its other state, in counts. -/
def tapDeltaOf (x : Die) (c : Nat) (p : Rat × Rat) : Rat :=
  let cr := (x.elem c).cross
  x.cal.countsOf c (tapUw x p c cr - tapUw x p c (!cr))
def tapDelta (x : Die) (c : Nat) : Rat := tapDeltaOf x c (cellInUw x x.dealer.image c)

/-- A cell's feed-forward terms. -/
def cellFf (x : Die) (c ticks : Nat) : Rat × Rat := (ffHeater x c ticks, ffPin x c (pinPhase (x.elem c) ticks))

/-- A cell's outputs from its feed-forward, its integrators and the proportional terms given, unrounded. -/
def cellU (x : Die) (c ticks : Nat) (ph pp : Rat) : Rat × Rat :=
  let el := x.elem c
  let f := cellFf x c ticks
  (f.1 - slopeH x c ticks * (ph + el.int.valA), f.2 - slopeP x c * (pp + el.int.valB))

/-- Stores the feed-forward, proportional and output stages of a cell, and its codes (R195, steps 3 and 4). -/
def storeCell (s : State) (d : DieId) (c : Nat) (ph pp : Rat) : State :=
  let x := s.die d
  let u := cellU x c s.ticks ph pp
  let h := clampCode u.1 (heaterMax s c)
  let p := clampPin u.2 (x.elem c).handoff
  let f := cellFf x c s.ticks
  let (fv, sf) := loopVal f.1 f.2
  let (pv, sp) := loopVal ph pp
  let (ov, so) := loopVal ((h.1 : Nat) : Rat) ((p.1 : Nat) : Rat)
  let pin := (x.elem c).onPinLoop
  let sat := sf || sp || so || h.2.1 || h.2.2 || p.2.1 || p.2.2
  s.onDie d (·.onElem c (fun el =>
    { el with ff := fv, prop := pv, out := ov, atMax := if pin then p.2.1 else h.2.1, atMin := if pin then p.2.2 else h.2.2,
              sat := el.sat || sat, satAt := stampIf sat s.ticks el.satAt, uHtr := h.1, uPin := p.1 }))

/-- What the dither adds now to the heater and to the PIN current (R192). -/
def ditherOffset (x : Die) (c ticks : Nat) : Rat × Rat :=
  let el := x.elem c
  let a : Rat := match el.half with | .none => 0 | .plus => x.amp | .minus => -x.amp
  if el.onPinLoop then (0, slopeP x c * a) else (slopeH x c ticks * a, 0)

/-- Strobes a cell's heater, and its PIN current: the stored code with the dither of the half-cycle. -/
def strobeHeater (s : State) (d : DieId) (c group : Nat) : State :=
  let x := s.die d
  loopOut s d c .heater (clampCode ((((x.elem c).uHtr : Nat) : Rat) + (ditherOffset x c s.ticks).1) (heaterMax s c)).1 false group
def strobePin (s : State) (d : DieId) (c group : Nat) : State :=
  let x := s.die d
  let el := x.elem c
  let q := pinCode (clampPin (((el.uPin : Nat) : Rat) + (ditherOffset x c s.ticks).2) el.handoff).1 el.handoff
  loopOut s d c .pin q.1 q.2 group

/-- An update of a cell: its stages stored and both outputs strobed (log entry 108). -/
def applyCell (s : State) (d : DieId) (c : Nat) (ph pp : Rat) (group : Nat) : State :=
  strobePin (strobeHeater (storeCell s d c ph pp) d c group) d c group

/-- A cell's feed-forward evaluated anew with the proportional terms it has: the heater follows, at its next edge while it is the dithered
actuator (R192, R196). -/
def reapply (s : State) (d : DieId) (c : Nat) : State :=
  let el := (s.die d).elem c
  let s1 := storeCell s d c el.prop.valA el.prop.valB
  if el.half ≠ .none && !el.onPinLoop then s1 else strobeHeater s1 d c (loopGroup c)

/-- The integrator after an error: clamped to its limit, and not moved further towards a clamp of the output (R195). A larger
integrator lowers a cell's output; `up` says that it raises it (a gate). -/
def integrate (el : Elem) (i ki e lim : Rat) (up : Bool) : Rat × Bool :=
  let step := ki * e
  let towards := if up then (el.atMax && decide (0 < step)) || (el.atMin && decide (step < 0))
                 else (el.atMin && decide (0 < step)) || (el.atMax && decide (step < 0))
  let v := if towards then i else i + step
  if lim < v then (lim, true) else if v < -lim then (-lim, true) else (v, false)

/-! ## Readings -/

/-- A discard mark is used up by the reading after it (R218, R224). -/
def unmark (s : State) (d : DieId) (e : Nat) : State := s.onDie d (·.onElem e (fun el => { el with discard := false }))

/-- Reads an element's store and restarts it, as a read-restart that the bank die accepts or compares (R193, R267, R269, R274): the store for
the die whose messages it accepts, what it delivered last for the other (log entry 22); a discard mark is used up. -/
def readStore (s : State) (d : DieId) (e : Nat) : State × Store :=
  let b := bankOf e
  let l := chanOf e
  let k := s.bank b
  let n := ((s.die d).elem e).update
  let st := if k.accepts d s.ticks && k.up d then (k.chan l).store else (k.chan l).last
  let s1 := holderMsg s d b mReadRestart e n [] false (fun s =>
    sendBoth (s.onBank b (fun k => (k.onChan l (fun c => { c with last := st })).restart l)) b rStore (e :: st.fields))
  (s1.onDie d (·.onElem e (fun el => { el with update := n + 1, discard := false })), st)

/-- What a window says of frozen feedback (R220): a balanced cell is not counted (R72). -/
def Elem.seeWindow (el : Elem) (e : Nat) (st : Store) : Elem :=
  { el with frozenRun := if !el.balanced e && decide (4 ≤ st.count) && decide (st.min = st.max) then el.frozenRun + 1 else 0 }

/-- Reads a window: its mean, none when it holds fewer than two conversions or spans a deal or a calibration. -/
def readWindow (s : State) (d : DieId) (e : Nat) : State × Option Rat :=
  let (s1, st) := readStore s d e
  if ((s.die d).elem e).discard then (s1, none)
  else
    let s2 := s1.onDie d (·.onElem e (·.seeWindow e st))
    if st.count < 2 then (s2, none)
    else match st.mean with
      | some w => (s2.onDie d (·.onElem e (fun el => { el with lastW := w })), some w)
      | none => (s2, none)

/-! ## Plausibility and feedback (R219, R220) -/

/-- The predicted power on an element's monitored line, µW (R71, R200). -/
def predictUw (x : Die) (e : Nat) : Rat :=
  if isCell e then tapUw x (cellInUw x x.dealer.image e) e (x.elem e).cross
  else if isOutGate e then outUw x x.dealer.image (e - 5376) * x.cal.gateGain (e - 4864) (stepOf x.dealer.steps (e - 4864))
  else 0

/-- A power p is further than a band in dB from the power q that is predicted: from the level of −30 dBm upwards while q lies below it. -/
def offBand (band q p : Rat) : Bool :=
  if darkUw ≤ q then
    let r := tenLog10 (p / q)
    decide (band < r) || decide (r < -band)
  else decide (band < tenLog10 (p / darkUw))

/-- A reading is out of band (R219). -/
def outOfBand (x : Die) (e : Nat) (w : Rat) : Bool := offBand x.plausDb (predictUw x e) (x.cal.uwOf e w)

/-- A mean below the floor where light is predicted (R220): neither of a balanced cell nor of an input gate. -/
def belowFloor (x : Die) (e : Nat) (w : Rat) : Bool :=
  !(x.elem e).balanced e && !isInGate e && decide (w < ((x.rf Reg.HLD_FEEDBACK F.HLD_FEEDBACK_FLOOR : Nat) : Rat)) &&
    decide (darkUw ≤ predictUw x e)

/-- The slope of a gate's attenuation curve at a step, LSB per dB (R200). -/
def gateSlope (c : Cal) (g step : Nat) : Rat :=
  let hi := min 14 (step + 1)
  let lo := step - 1
  if hi = lo then 0 else (((c.gateCode g hi - c.gateCode g lo) : Int) : Rat) / ((hi - lo : Nat) : Rat)

/-- Stores a gate's stages for its feed-forward and a trim in LSB, and drives its output. -/
def putGate (s : State) (d : DieId) (e : Nat) (p trim : Rat) (group : Nat) : State :=
  let x := s.die d
  let el := x.elem e
  let f : Rat := ((x.cal.gateCode (e - 4864) el.step : Int) : Rat)
  let u := clampCode (f + trim) 0x3FFF
  let (fv, s1) := loopVal f 0
  let (pv, s2) := loopVal p 0
  let (ov, s3) := loopVal ((u.1 : Nat) : Rat) 0
  let sat := s1 || s2 || s3 || u.2.1 || u.2.2
  driveGate (s.onDie d (·.onElem e (fun el =>
    { el with ff := fv, prop := pv, out := ov, atMax := u.2.1, atMin := u.2.2, sat := el.sat || sat,
              satAt := stampIf sat s.ticks el.satAt }))) d e u.1 group

/-- A gate's closed output (R200, step 3). -/
def applyGate (s : State) (d : DieId) (e : Nat) (p : Rat) : State :=
  let el := (s.die d).elem e
  putGate s d e p (gateSlope (s.die d).cal (e - 4864) el.step * (p + el.int.valA)) (loopGroup e)

/-- A gate held by feed-forward alone, whatever its integrator holds (R199). -/
def holdGate (s : State) (d : DieId) (e : Nat) : State := putGate s d e 0 0 (loopGroup e)

/-- A cell held by feed-forward: F − S × I with P = 0. -/
def holdCell (s : State) (d : DieId) (c : Nat) : State := applyCell s d c 0 0 (loopGroup c)

/-- The output of an element in fallback (R221): F − S × I of a cell, F + S × I of an output gate at steps 1 to 14, with P = 0. -/
def holdElem (s : State) (d : DieId) (e : Nat) : State :=
  let st := ((s.die d).elem e).step
  if isCell e then holdCell s d e
  else if isOutGate e && 1 ≤ st && st ≤ 14 then applyGate s d e 0
  else holdGate s d e

/-- Falls into fallback (R220, R221): no dither, P = 0, the integrators as they are. -/
def fallBack (s : State) (d : DieId) (e : Nat) (frozen : Bool) : State :=
  let s1 := s.onDie d (·.onElem e (fun el =>
    { el with fallback := true, frozen := frozen, lost := !frozen, fellAt := s.ticks, half := .none, settled := false, mPlus := none,
              mMinus := none, active := false, burst := 0, retry := none }))
  holdElem (elementEvent (raise s1 d (20 + 5 * bankOf e + 3) e) d e (if frozen then ecFrozen else ecLost) false) d e

/-- An evaluation of an element's mean reading (R219, R220). -/
def evaluate (s : State) (d : DieId) (e : Nat) (w : Rat) : State :=
  let x := s.die d
  let el := x.elem e
  if el.fallback || stale s e || x.verifying e then s
  else
    let lostRun := if belowFloor x e w then el.lostRun + 1 else 0
    if 3 ≤ el.frozenRun && !el.balanced e then fallBack s d e true
    else if 2 ≤ lostRun then fallBack (s.onDie d (·.onElem e (fun el => { el with lostRun := lostRun }))) d e false
    else if isInGate e then s
    else
      let oob := outOfBand x e w
      let outRun := if oob then el.plausRun + 1 else 0
      let inRun := if oob then 0 else el.inRun + 1
      let impl := if el.implausible then decide (inRun < x.plausN) else decide (x.plausN ≤ outRun)
      let s1 := s.onDie d (·.onElem e (fun el =>
        { el with lostRun := lostRun, plausRun := outRun, inRun := inRun, implausible := impl,
                  half := if impl then .none else el.half, active := el.active || impl,
                  lastUpd := if impl && !el.active then s.ticks else el.lastUpd }))
      if impl = el.implausible then s1 else elementEvent s1 d e (if impl then ecImplausible else ecCleared) false

/-- The classification of a cell by the predicted powers on its input lines (R72). -/
def classifyBy (x : Die) (e : Nat) (p : Rat × Rat) : Die :=
  let b := isBalanced p
  x.onElem e (fun el => { el with unbalanced := !b, half := if b then .none else el.half, peak := decide (0 < tapDeltaOf x e p) })

/-- The classification of one cell. -/
def classify (x : Die) (e : Nat) : Die := if isCell e then classifyBy x e (cellInUw x x.dealer.image e) else x

/-- The predicted powers on the input lines of stage s + 1 from those of stage s. -/
def nextLines (x : Die) (s : Nat) (a : Array Rat) : Array Rat :=
  ((List.range 512).map (fun n =>
    let o := unwire s n
    let c := cellId s (o / 2)
    let cr := x.dealer.image.getLsbD c
    a.getD (cellOut cr o) 0 * x.cal.cellGain c cr)).toArray

/-- The classification of every cell, stage by stage. -/
def classifyAll (x : Die) : Die :=
  ((List.range 19).foldl
    (fun (p : Die × Array Rat) s =>
      ((List.range 256).foldl (fun x r => classifyBy x (cellId s r) (p.2.getD (2 * r) 0, p.2.getD (2 * r + 1) 0)) p.1,
        nextLines p.1 s p.2))
    (x, ((List.range 512).map x.inputUw).toArray)).1

/-! ## Resting and waking (R210 to R214) -/

/-- An element becomes active for a burst; a cause during a burst leaves the longer one (R211). An element in fallback does not (R224). -/
def activate (s : State) (d : DieId) (e burst type : Nat) : State :=
  let el := (s.die d).elem e
  if el.fallback then s
  else
    let s1 := if el.active then s.onDie d (·.onElem e (fun el => { el with burst := max el.burst burst }))
      else
        let s0 := (readStore s d e).1
        s0.onDie d (·.onElem e (fun el =>
          { el with active := true, burst := burst, dealt := false, lastUpd := s.ticks, half := .none, settled := false, mPlus := none,
                    mMinus := none }))
    queueTask s1 d e type

/-- The comparator band around a mean (R212). -/
def restBand (x : Die) (w : Rat) : Nat × Nat :=
  let h := max (w * ((x.rf Reg.HLD_BAND F.HLD_BAND_REL : Nat) : Rat) / 4096) ((x.rf Reg.HLD_BAND F.HLD_BAND_ABS : Nat) : Rat)
  ((roundRat (w - h)).toNat, (roundRat (w + h)).toNat)

/-- An element goes to rest: its comparator band is set. -/
def rest (s : State) (d : DieId) (e : Nat) : State :=
  let x := s.die d
  let el := x.elem e
  let (lo, hi) := restBand x el.lastW
  let s1 := s.onDie d (·.onElem e (fun el => { el with active := false, half := .none, update := el.update + 1 }))
  if (s.bank (bankOf e)).up d then s1.emit (.bank d (bankOf e) mBand [chanOf e, lo, hi, el.update]) else s1

/-- The rest threshold of an element: rad for a cell, dB for a gate. -/
def restLimit (x : Die) (e : Nat) : Rat :=
  if isCell e then ((x.rf Reg.HLD_REST F.HLD_REST_CELL : Nat) : Rat) / 10000 else ((x.rf Reg.HLD_REST F.HLD_REST_GATE : Nat) : Rat) / 1000

/-- The type of the task of an element's next update (R230): TRANSITION in the burst after a deal, HANDOFF until a hand-off ends. -/
def Elem.taskType (el : Elem) : Nat := if el.dealt then tTransition else if el.handoff then tHandoff else tHold

/-- The end of an effective period of an active element: its burst runs down, it rests or its next update is armed (R212). -/
def periodEnd (s : State) (d : DieId) (e : Nat) : State :=
  let x := s.die d
  let el := x.elem e
  let b := el.burst - 1
  let s1 := s.onDie d (·.onElem e (fun el => { el with burst := b, lastUpd := s.ticks, mPlus := none, mMinus := none }))
  if b = 0 && !el.implausible && !el.handoff && !x.verifying e && decide (el.lastErr ≤ restLimit x e) then rest s1 d e
  else armTask s1 d e el.taskType (s.ticks + (if isCell e then x.effNs else usT * x.loopUs))

/-! ## Updates (R195, R199, R200) -/

/-- An update that is made without a closed loop: no miss run goes on (R217), and no error keeps the element from resting (log entry 109). -/
def madeOpen (s : State) (d : DieId) (e : Nat) : State :=
  periodEnd (s.onDie d (·.onElem e (fun el => { el with missRun := 0, lastErr := 0 }))) d e

/-- An element leaves fallback (R222). -/
def leaveFallback (s : State) (d : DieId) (e : Nat) : State :=
  let s1 := s.onDie d (·.onElem e (fun el =>
    { el with fallback := false, frozen := false, lost := false, lostRun := 0, frozenRun := 0, retry := none, half := .none,
              active := false, prop := .zero }))
  activate (elementEvent s1 d e ecLeft false) d e (s.die d).wakeBurst tHold

/-- The judgement at the end of a retry's effective period, whose last mean is w (R222): frozen and lost feedback go on counting from the
fall, so one good reading ends them (log entry 110). -/
def retryEnds (s : State) (d : DieId) (e : Nat) (w : Option Rat) : State :=
  let x := s.die d
  let el := x.elem e
  let lostRun := match w with | some w => if belowFloor x e w then el.lostRun + 1 else 0 | none => el.lostRun
  let bad := !el.balanced e && (decide (3 ≤ el.frozenRun) || decide (2 ≤ lostRun))
  let s1 := s.onDie d (·.onElem e (fun el => { el with lostRun := lostRun }))
  if bad then
    holdElem (s1.onDie d (·.onElem e (fun el =>
      { el with retries := satAdd 8 el.retries 1, retry := none, half := .none, settled := false, mPlus := none, mMinus := none,
                lastUpd := s.ticks }))) d e
  else leaveFallback s1 d e

/-- An update of an element in fallback: its feed-forward tracks (R221), and a retry ends with its judgement. -/
def fallbackUpdate (s : State) (d : DieId) (e : Nat) : State :=
  let el := (s.die d).elem e
  if el.retry.isSome then
    if el.dithered e && isCell e then retryEnds s d e (if el.mPlus.isSome || el.mMinus.isSome then some el.lastW else none)
    else let r := readWindow s d e; retryEnds r.1 d e r.2
  else holdElem (s.onDie d (·.onElem e (fun el => { el with lastUpd := s.ticks }))) d e

/-- An update of an element in BLIND (R204): the feed-forward, its integrators being 0, once its move to it has ended. -/
def blindUpdate (s : State) (d : DieId) (e : Nat) : State :=
  if ((s.die d).elem e).ramp.isSome then s
  else
    let s1 := s.onDie d (·.onElem e (fun el => { el with lastUpd := s.ticks }))
    if isCell e then holdCell s1 d e else holdGate s1 d e

/-- No update of an element is due: no loops, a condition of R224 above every other, or its period still runs. -/
def updateWaits (s : State) (d : DieId) (e per : Nat) : Bool :=
  let x := s.die d
  !x.loopsOn || stale s e || x.verifying e || x.inRun e || decide (s.ticks - (x.elem e).lastUpd < per)

/-- The closed update of a cell from its two means (R194, R195). -/
def closeCell (s : State) (d : DieId) (c : Nat) (mp mm : Rat) : State :=
  let x := s.die d
  let el := x.elem c
  let den := x.amp * tapDelta x c
  let (err, s0) : Rat × State := if den = 0 then (((s.free : Nat) : Rat), s.drawn) else ((mm - mp) / den, s)
  let pin := el.onPinLoop
  let lim := piQ / 2
  let kp := if pin then x.gain Reg.HLD_GAIN_PIN F.HLD_GAIN_PIN_KP else x.gain Reg.HLD_GAIN_HTR F.HLD_GAIN_HTR_KP
  let ki := if pin then x.gain Reg.HLD_GAIN_PIN F.HLD_GAIN_PIN_KI else x.gain Reg.HLD_GAIN_HTR F.HLD_GAIN_HTR_KI
  let (i, si) := integrate el (if pin then el.int.valB else el.int.valA) ki err lim false
  let (iv, s2) := if pin then loopVal el.int.valA i else loopVal i el.int.valB
  let (mv, s3) := loopVal mp mm
  let (ev, s4) := loopVal err 0
  let s1 := s0.onDie d (·.onElem c (fun el =>
    { el with meas := mv, err := ev, int := iv, lastErr := if err < 0 then -err else err, missRun := 0,
              sat := el.sat || si || s2 || s3 || s4, satAt := stampIf (si || s2 || s3 || s4) s.ticks el.satAt }))
  if pin then applyCell s1 d c 0 (kp * err) (loopGroup c) else applyCell s1 d c (kp * err) 0 (loopGroup c)

/-- CELL_UPDATE: the update at the end of an effective period, under the precedence of R224. -/
def cellUpdate (d : DieId) (c : Nat) (s : State) : State :=
  let x := s.die d
  let el := x.elem c
  if updateWaits s d c x.effNs then s
  else if el.mode = 2 then blindUpdate s d c
  else if el.mode ≠ 0 then s
  else if el.fallback then fallbackUpdate s d c
  else if !el.active then s
  else
    let (s1, w) := if el.closed c then (s, if el.mPlus.isSome || el.mMinus.isSome then some el.lastW else none)
                   else readWindow s d c
    let s2 := match w with | some w => evaluate s1 d c w | none => s1
    let el2 := (s2.die d).elem c
    if el2.fallback then s2
    else if el2.implausible then periodEnd s2 d c
    -- the loop resumes after an implausible reading with P = 0 (R219); a balanced cell is held (R72)
    else if el.implausible || el2.balanced c then madeOpen (holdCell s2 d c) d c
    else match el2.mPlus, el2.mMinus with
      | some mp, some mm => periodEnd (closeCell s2 d c mp mm) d c
      | _, _ => periodEnd (missUpdate s2 d c) d c

def execCellUpdate (die : DieId) (cell : Fin 4864) (s : State) : Host.Outcome State Fault Refusal :=
  done (cellUpdate die cell.val s)

/-- The input connected to an output, when its entry is lit. -/
def Die.litInput (x : Die) (n : Nat) : Option Nat :=
  let e := handAt x.dealer.hand n
  if entLit e then some (entInput e) else none

/-- An output gate is closed on its monitor (R200). -/
def gateCloses (s : State) (d : DieId) (e : Nat) : Bool :=
  let x := s.die d
  let st := (x.elem e).step
  isOutGate e && 1 ≤ st && st ≤ 14 &&
    (match x.litInput (e - 5376) with | some i => s.light.getLsbD i | none => false)

/-- The closed update of an output gate. -/
def closeGate (s : State) (d : DieId) (e : Nat) (w : Rat) : State :=
  let x := s.die d
  let el := x.elem e
  let pPred := outUw x x.dealer.image (e - 5376) * x.cal.gateGain (e - 4864) 0
  let am := tenLog10 (pPred / x.cal.uwOf e w)
  let err := am - ((el.step : Nat) : Rat)
  let (i, si) := integrate el el.int.valA (x.gain Reg.HLD_GAIN_GATE F.HLD_GAIN_GATE_KI) err 6 true
  let (iv, s2) := loopVal i 0
  let (mv, s3) := loopVal w 0
  let (ev, s4) := loopVal err 0
  applyGate (s.onDie d (·.onElem e (fun el =>
    { el with meas := mv, err := ev, int := iv, lastErr := if err < 0 then -err else err, missRun := 0,
              sat := el.sat || si || s2 || s3 || s4, satAt := stampIf (si || s2 || s3 || s4) s.ticks el.satAt }))) d e (x.gain Reg.HLD_GAIN_GATE F.HLD_GAIN_GATE_KP * err)

/-- GATE_UPDATE: each loop period (R199, R200), under the precedence of R224. -/
def gateUpdate (d : DieId) (g : Nat) (s : State) : State :=
  let e := gateElem g
  let x := s.die d
  let el := x.elem e
  if updateWaits s d e (usT * x.loopUs) then s
  else if el.mode = 2 then blindUpdate s d e
  else if el.mode ≠ 0 then s
  else if el.fallback then fallbackUpdate s d e
  else if !el.active then s
  else
    let (s1, w) := readWindow s d e
    let s2 := match w with | some w => evaluate s1 d e w | none => s1
    let el2 := (s2.die d).elem e
    if el2.fallback then s2
    else if el2.implausible then periodEnd s2 d e
    else if !gateCloses s2 d e then madeOpen (holdGate s2 d e) d e
    else if el.implausible then madeOpen (applyGate s2 d e 0) d e
    else match w with
      | some w => periodEnd (closeGate s2 d e w) d e
      | none => periodEnd (missUpdate s2 d e) d e

def execGateUpdate (die : DieId) (gate : Fin 1024) (s : State) : Host.Outcome State Fault Refusal :=
  done (gateUpdate die gate.val s)

/-! ## Dither (R192, R193) -/

/-- A cell carries dither, or takes up its first half-cycle. -/
def dithers (s : State) (d : DieId) (c : Nat) : Bool :=
  let x := s.die d
  x.loopsOn && (x.elem c).dithered c && !stale s c && !x.verifying c && !x.inRun c

/-- DITHER_EDGE: the half-cycle ends with a reading, and the other begins. -/
def ditherEdge (d : DieId) (c : Nat) (s : State) : State :=
  let x := s.die d
  let el := x.elem c
  if !dithers s d c || (el.half ≠ .none && s.ticks - el.edgeAt < x.halfNs) then s
  else
    let (s1, w) := if el.half ≠ .none && el.settled then readWindow s d c else ((readStore s d c).1, none)
    let next : Half := if el.half = .plus then .minus else .plus
    let s2 := s1.onDie d (·.onElem c (fun el =>
      { el with half := next, settled := false, edgeAt := s.ticks,
                mPlus := if el.half = .plus then w else el.mPlus, mMinus := if el.half = .minus then w else el.mMinus }))
    if el.onPinLoop then strobePin s2 d c (loopGroup c) else strobeHeater s2 d c (loopGroup c)

def execDitherEdge (die : DieId) (cell : Fin 4864) (s : State) : Host.Outcome State Fault Refusal :=
  done (ditherEdge die cell.val s)

/-- SETTLE_EXPIRY: the reading after the settle delay is discarded. -/
def settleExpiry (d : DieId) (c : Nat) (s : State) : State :=
  let x := s.die d
  let el := x.elem c
  if !dithers s d c || el.half = .none || el.settled || s.ticks - el.edgeAt < x.settleNs el.onPinLoop then s
  else ((readStore s d c).1).onDie d (·.onElem c (fun el => { el with settled := true }))

def execSettleExpiry (die : DieId) (cell : Fin 4864) (s : State) : Host.Outcome State Fault Refusal :=
  done (settleExpiry die cell.val s)

/-! ## Refresh, wake, missed updates, fallback retry -/

/-- The number of an element's last refresh point at a time (R213). -/
def refreshNo (x : Die) (e : Nat) : Nat :=
  let p := x.refreshNs
  let off := e * p / 5888
  if x.ns < off then 0 else (x.ns - off) / p + 1

/-- REFRESH_DUE (R213, R219): the cell is reclassified; a resting element is judged, and becomes active unless it is balanced. A refresh that
falls due while the element is active, in fallback or the target of a run is counted as made. -/
def refreshDue (d : DieId) (e : Nat) (s : State) : State :=
  let x := s.die d
  let el := x.elem e
  let n := refreshNo x e
  if !x.loopsOn || el.mode ≠ 0 || stale s e || n = 0 || n = el.refIdx then s
  else
    let s1 := s.onDie d (fun x => (classify x e).onElem e (fun el => { el with refIdx := n }))
    if el.active || el.fallback || x.inRun e then s1
    else
      let (s2, w) := readWindow s1 d e
      let s3 := match w with | some w => evaluate s2 d e w | none => s2
      if ((s3.die d).elem e).balanced e then s3 else activate s3 d e x.refreshBurst tHold

/-- COMPARATOR_WAKE (R211, R214); it waits while the element is stale (R218). -/
def comparatorWake (d : DieId) (e : Nat) (s : State) : State :=
  let x := s.die d
  let el := x.elem e
  if !x.loopsOn || el.mode ≠ 0 || el.active || el.fallback || stale s e || x.inRun e then s
  else elementEvent (activate s d e x.wakeBurst tHold) d e ecWake true

def execComparatorWake (die : DieId) (elem : Fin 5888) (s : State) : Host.Outcome State Fault Refusal :=
  done (comparatorWake die elem.val s)

/-- UPDATE_DEADLINE_MISS (R216): an update of an active element that was not strobed before the next dither-cycle end, or the
end of a gate's next period. -/
def deadlineMiss (d : DieId) (e : Nat) (s : State) : State :=
  let x := s.die d
  let el := x.elem e
  let per := if isCell e then x.effNs else usT * x.loopUs
  let lim := if isCell e then per + 2 * x.halfNs else 2 * per
  if !x.loopsOn || !el.closed e || stale s e || x.verifying e || x.inRun e || s.ticks - el.lastUpd < lim then s
  else missUpdate (((readStore s d e).1).onDie d (·.onElem e (fun el =>
    { el with lastUpd := el.lastUpd + per, mPlus := none, mMinus := none, half := .none, settled := false }))) d e

def execUpdateDeadlineMiss (die : DieId) (elem : Fin 5888) (s : State) : Host.Outcome State Fault Refusal :=
  done (deadlineMiss die elem.val s)

/-- A retry begins: one effective period with dither from a store restarted (R222). -/
def retryBegins (s : State) (d : DieId) (e : Nat) : State :=
  queueTask (((readStore s d e).1).onDie d (·.onElem e (fun el =>
    { el with retry := some s.ticks, lastUpd := s.ticks, half := .none, settled := false, mPlus := none, mMinus := none }))) d e tHold

/-- FALLBACK_RETRY: every RETRY_MS from the fall. -/
def fallbackRetry (d : DieId) (e : Nat) (s : State) : State :=
  let x := s.die d
  let el := x.elem e
  if !x.loopsOn || !el.fallback || el.retry.isSome || stale s e || x.verifying e || s.ticks - el.fellAt < x.retryNs then s
  else retryBegins (s.onDie d (·.onElem e (fun el => { el with fellAt := el.fellAt + x.retryNs }))) d e

def execFallbackRetry (die : DieId) (elem : Fin 5888) (s : State) : Host.Outcome State Fault Refusal :=
  done (fallbackRetry die elem.val s)

/-- CLUSTER_DOZE (R210): no active element of the cluster's partition and no queued task. -/
def clusterDoze (d : DieId) (c : Nat) (s : State) : State :=
  let x := s.die d
  let busy := x.hold.any (fun p => bankOf p.1 = c && p.2.active) ||
    (clusterEngines c).any (fun e => !(x.eng.engine e).deque.isEmpty || (x.eng.engine e).running.isSome)
  if busy || x.eng.dozing c then s
  else s.onDie d (·.onEng (fun g =>
    { (clusterEngines c).foldl (fun g e => g.onEngine e (fun n => if n.state = 0 then { n with state := 2 } else n)) g with
      doze := g.doze ||| BitVec.ofNat 8 (2 ^ c) }))

def execClusterDoze (die : DieId) (cluster : Fin 8) (s : State) : Host.Outcome State Fault Refusal :=
  doneUp die (clusterDoze die cluster.val) s

/-! ## Neighbours (R196) -/

/-- Cells whose table names c. -/
def nbrsOf (x : Die) (c : Nat) : List Nat :=
  match x.cal.active.tables with
  | some t => (t.cells.filter (fun p => p.2.nbr.any (fun n => n.1 = c))).map (·.1)
  | none => []

/-- The feed-forward of a cell's neighbours is evaluated anew after its phase position changed, in AUTO and, its move ended, in BLIND; an
implausible cell holds its outputs. -/
def refreshNeighbours (s : State) (d : DieId) (c : Nat) : State :=
  (nbrsOf (s.die d) c).foldl (fun s n =>
    let el := (s.die d).elem n
    let follows := (el.mode = 0 && !el.implausible) || (el.mode = 2 && el.ramp.isNone)
    if follows && !stale s n && !(s.die d).inRun n && (s.die d).loopsOn then reapply s d n else s) s

/-! ## Hand-off (R139 to R143) -/

/-- The next heater position above its present phase that holds the cell's state (R141); none: out of range. -/
def handoffTarget (el : Elem) : Option Nat :=
  if el.cross then (if el.phi < 1 then some 1 else none)
  else if el.phi < 0 then some 0 else if el.phi < 2 then some 2 else none

/-- The image of a pending deal: composed and routed where its window has not opened. -/
def Die.pendingImage (x : Die) (dl : Deal) : Image :=
  if dl.stage = .placed then route x.cal.bench (((compBefore x dl.instant).deal x dl).hand).1 else dl.image

/-- A pending deal changes the cell. -/
def Die.willChange (x : Die) (c : Nat) : Bool :=
  x.dealer.pending.any (fun dl => (x.pendingImage dl).getLsbD c != (x.elem c).cross)

/-- Cells that carry PIN current (DLR_PIN_HELD.HELD), and those deferred; in OFF a cell carries none. -/
def Die.held (x : Die) : Nat := (x.hold.filter (fun p => p.2.onPin && decide (p.2.mode ≠ 3))).length
def Die.deferredCnt (x : Die) : Nat := (x.hold.filter (fun p => p.2.deferred && decide (p.2.mode ≠ 3))).length

/-- T2 lets hand-offs start at once for the cells that have held longest, up to 64 at a time, while HELD is above PINCAP (R478). -/
def Die.earlyHandoff (x : Die) (c : Nat) : Bool :=
  let el := x.elem c
  2 ≤ x.thm.level && decide (x.rf Reg.THM_TCFG F.THM_TCFG_PINCAP < x.held) &&
    decide ((x.hold.filter (fun p => p.2.onPin && !p.2.handoff && !p.2.deferred && decide (p.2.pinSince < el.pinSince))).length < 64)

/-- The holder's blind context of a cell, at a deal and at the start and the end of a hand-off (R282). -/
def blindCell (s : State) (d : DieId) (c : Nat) : State :=
  let el := (s.die d).elem c
  if (s.bank (bankOf c)).up d then
    s.emit (.bank d (bankOf c) mBlindCtx [chanOf c, b2n el.cross, (roundRat el.phi).toNat, b2n el.onPin, b2n el.handoff])
  else s

/-- A hand-off to a target begins: the PIN DAC goes to ×2 and its code halves (R140). -/
def beginHandoff (s : State) (d : DieId) (c t : Nat) : State :=
  let el := (s.die d).elem c
  let s1 := s.onDie d (·.onElem c (fun el => { el with handoff := true, target := t, handSince := s.ticks, heldAt := none }))
  activate (blindCell (strobePin s1 d c (loopGroup c)) d c) d c (max 1 el.burst) tHandoff

/-- A hand-off stops where it is (R143): the heater's phase and the PIN shifter's stay, and the threshold runs anew. -/
def Elem.stopHand (el : Elem) (ticks : Nat) : Elem :=
  if el.handoff then
    { el with phi := heaterPhi el ticks, pinPhi := pinPhase el ticks, handoff := false, heldAt := none, pinSince := ticks }
  else el
def stopHandoff (s : State) (d : DieId) (c : Nat) : State :=
  if ((s.die d).elem c).handoff then blindCell (s.onDie d (·.onElem c (·.stopHand s.ticks))) d c else s

/-- A hand-off's ramp is held, or goes on from where it was held. -/
def Elem.holdHand (el : Elem) (ticks : Nat) : Elem := if el.handoff && el.heldAt.isNone then { el with heldAt := some ticks } else el
def Elem.thawHand (el : Elem) (ticks : Nat) : Elem :=
  match el.heldAt with
  | some t => { el with heldAt := none, handSince := el.handSince + (ticks - t) }
  | none => el

/-- The ramp of a hand-off at each microsecond of it (R140; log entry 18): heater and PIN current follow their phases, and a change of the
phase position corrects the neighbours. -/
def handStep (s : State) (d : DieId) (c : Nat) : State :=
  let el := (s.die d).elem c
  let t := s.ticks - el.handSince
  if el.handoff && el.heldAt.isNone && 0 < t && decide (t < 30 * usT) && t % usT = 0 then
    let s1 := applyCell s d c el.prop.valA el.prop.valB (loopGroup c)
    if phasePos (heaterPhi el s.ticks) = phasePos (heaterPhi el (s.ticks - usT)) then s1 else refreshNeighbours s1 d c
  else s

/-- HANDOFF_START: a cell on PIN for the threshold; without a target in range it is deferred. -/
def handoffStart (d : DieId) (c : Nat) (s : State) : State :=
  let x := s.die d
  let el := x.elem c
  let due := match x.handoffNs with
    | some t => decide (t ≤ s.ticks - el.pinSince) || x.earlyHandoff c
    | none => false
  if !x.loopsOn || el.mode = 1 || el.mode = 3 || !el.onPin || el.handoff || el.deferred || !due || x.willChange c || x.inRun c then s
  else match handoffTarget el with
    | none => s.onDie d (·.onElem c (fun el => { el with deferred := true }))
    | some t => beginHandoff s d c t

def execHandoffStart (die : DieId) (cell : Fin 4864) (s : State) : Host.Outcome State Fault Refusal :=
  done (handoffStart die cell.val s)

/-- HANDOFF_END: the ramp of log entry 18 has ended; the PIN integrator folds into the heater's (R140, R191). -/
def handoffEnd (d : DieId) (c : Nat) (s : State) : State :=
  let x := s.die d
  let el := x.elem c
  if !el.handoff || el.heldAt.isSome || s.ticks - el.handSince < 30 * usT then s
  else
    let (iv, sat) := loopVal (el.int.valA + el.int.valB) 0
    let s1 := s.onDie d (·.onElem c (fun el =>
      { el with handoff := false, onPin := false, phi := ((el.target : Nat) : Rat), pinPhi := 0, int := iv, half := .none, settled := false,
                sat := el.sat || sat, satAt := stampIf (sat) s.ticks el.satAt, burst := max el.burst x.wakeBurst }))
    refreshNeighbours (blindCell (holdCell s1 d c) d c) d c

def execHandoffEnd (die : DieId) (cell : Fin 4864) (s : State) : Host.Outcome State Fault Refusal :=
  done (handoffEnd die cell.val s)

/-- DEFERRED_RELEASE (R142): a deferred cell, or a cell at W, that carries no lit path. -/
def deferredRelease (d : DieId) (c : Nat) (s : State) : State :=
  let x := s.die d
  let el := x.elem c
  if !x.loopsOn || el.mode = 1 || el.mode = 3 || el.handoff || !(el.deferred || el.phi = 2) || stale s c || x.inRun c ||
      !cellDark (cellInUw x x.dealer.image c) then s
  else
    let s1 := s.onDie d (·.onElem c (fun el =>
      { el with deferred := false, onPin := false, pinPhi := 0, phi := if el.cross then 1 else 0 }))
    refreshNeighbours (blindCell (holdCell s1 d c) d c) d c

def execDeferredRelease (die : DieId) (cell : Fin 4864) (s : State) : Host.Outcome State Fault Refusal :=
  done (deferredRelease die cell.val s)

/-! ## Moves over 1 ms (R55, R207, R209) -/

/-- The outputs of an element begin to move to others. -/
def startRamp (s : State) (d : DieId) (e htr pin gate : Nat) : State :=
  s.onDie d (·.onElem e (fun el => { el with ramp := some ⟨(el.dHtr, htr), (el.dPin, pin), (el.dGate, gate), s.ticks⟩ }))

/-- A value on its way at a tick, in steps of 1 LSB spread evenly. -/
def Ramp.at (r : Ramp) (q : Nat × Nat) (ticks : Nat) : Nat := rampAt q.1 q.2 (ticks - r.since) msT

/-- One output of an element on its way: written when its code changes. -/
def rampOut (s : State) (d : DieId) (e : Nat) (out : DriveOut) (was v : Nat) : State :=
  let q := if out = .pin then pinCode v ((s.die d).elem e).handoff else (v, false)
  if (if q.2 then 2 * q.1 else q.1) = was then s else loopOut s d e out q.1 q.2 10

/-- The end of a move: in BLIND the integrators end at 0. -/
def rampEnds (s : State) (d : DieId) (e : Nat) (r : Ramp) : State :=
  s.onDie d (·.onElem e (fun el =>
    { el with ramp := none, uHtr := r.htr.2, uPin := r.pin.2, uGate := r.gate.2, int := if el.mode = 2 then .zero else el.int,
              prop := if el.mode = 2 then .zero else el.prop }))

/-- A move under way, at a tick; a calibration of the bank die holds it (R218). -/
def rampMove (s : State) (d : DieId) (e : Nat) : State :=
  let el := (s.die d).elem e
  match el.ramp with
  | none => s
  | some r =>
    if stale s e then s
    else
      let s1 := if isCell e then
          rampOut (rampOut s d e .heater el.dHtr (r.at r.htr s.ticks)) d e .pin el.dPin (r.at r.pin s.ticks)
        else rampOut s d e .gate el.dGate (r.at r.gate s.ticks)
      if msT ≤ s.ticks - r.since then rampEnds s1 d e r else s1

/-- What a die's loops do at a tick by themselves: hand-off ramps and moves over 1 ms. -/
def loopsTick (s : State) (d : DieId) : State :=
  ((s.die d).hold.filter (fun p => p.2.handoff || p.2.ramp.isSome)).foldl (fun s p => rampMove (handStep s d p.1) d p.1) s

end Sys2Proof.Machine
end

