-- ==== Sys2Proof/Machine/Survey.lean ====
section
/-!
DEFINITION. A running survey: the actions of its sweep, and its early end, whatever ends it (R302).
-/

namespace Sys2Proof.Machine

/-- The strobe group of surveys (R264, R302). -/
def surveyGroup : Nat := 10

/-- The codes a survey moved are put back: the PIN current to 0, the input gate to step 15 (R302). -/
def surveyRestore (s : State) (d : DieId) (v : Survey) : State :=
  let s1 := driveOut s d v.cell .pin 0 false surveyGroup
  driveOut s1 d (4864 + v.input) .gate ((s.die d).cal.gateCode v.input 15).toNat false surveyGroup

/-- The actions of a survey's sweep: 32 values, each with its current and its conversions. -/
def sweepSteps : Nat := 64

/-- The offset from a survey's start of one of its actions: the first value at 20 µs, values 1.875 µs apart, conversions 1 µs after the
current, the restore at 80 µs (R302, log entry 98). -/
def surveyAt (k : Nat) : Nat := if k < sweepSteps then 20 * usT + k / 2 * 1875 + k % 2 * usT else 80 * usT

/-- One action: a PIN current of 32 from 0 to twice the cell's π current, four urgent conversions into one window, or the restore. -/
def surveyStep (s : State) (d : DieId) (v : Survey) : State :=
  let c := v.cell
  let s1 := s.onDie d (fun x => { x with cal := { x.cal with survey := some { v with step := v.step + 1 } } })
  let ask (s : State) (kind : Nat) : State := s.emit (.bank d (bankOf c) kind [chanOf c, ((s.die d).elem c).update])
  if sweepSteps ≤ v.step then surveyRestore s1 d v
  else if v.step % 2 = 0 then
    let q := pinCode (min pinMax (2 * ((s.die d).cal.cellIpi c).toNat * (v.step / 2) / 31)) false
    driveOut s1 d c .pin q.1 q.2 surveyGroup
  else (List.range 4).foldl (fun s _ => ask s mUrgent) (ask s1 mRestart)

/-- A running survey makes the action whose time has come. -/
def surveyTick (s : State) (d : DieId) : State :=
  match (s.die d).cal.survey with
  | some v => if v.step ≤ sweepSteps && decide (surveyAt v.step ≤ s.ticks - v.since) then surveyStep s d v else s
  | none => s

/-- A survey is abandoned and counted (R302). -/
def surveyAbort (s : State) (d : DieId) : State :=
  match (s.die d).cal.survey with
  | none => s
  | some v =>
    surveyRestore (s.onDie d (fun x => { x.count Reg.CAL_SURVEY_CNT F.CAL_SURVEY_CNT_ABORTED with cal := { x.cal with survey := none } })) d v

/-- The input a line of a stage comes from in an image. -/
def lineInput (img : Image) : Nat → Nat → Nat
  | 0, n => n
  | s + 1, n =>
    let o := unwire s n
    lineInput img s (cellOut (img.getLsbD (cellId s (o / 2))) o)

/-- The inputs of the two routes through a cell in an image. -/
def routesThrough (img : Image) (c : Nat) : List Nat := [lineInput img (stageOf c) (2 * rowOf c), lineInput img (stageOf c) (2 * rowOf c + 1)]

/-- A deal that changes from one image and one set of steps to others touches a survey: its cell, either route or an output gate. -/
def touchesSurvey (img img' : Image) (st st' : Sparse Nat) (c : Nat) : Bool :=
  (routesThrough img c).any (fun i =>
    (pathOf img i).any (fun p => img.getLsbD p.1 ≠ img'.getLsbD p.1) ||
      stepOf st (512 + reaches img i) ≠ stepOf st' (512 + reaches img i))

/-- A deal just prepared ends a survey it touches. -/
def surveyYields (s : State) (d : DieId) (dl : Deal) : State :=
  let x := s.die d
  match x.cal.survey with
  | some v => if touchesSurvey x.dealer.image dl.image x.dealer.steps dl.steps v.cell then surveyAbort s d else s
  | none => s

end Sys2Proof.Machine
end

