-- ==== Sys2Proof/Machine/Loops.lean ====
section
/-!
DEFINITION. Loop modes (R204 to R209), the HLD_EL registers, and DITHER_RUN (R225 to R229).
-/

namespace Sys2Proof.Machine

/-! ## Loop requests (R206) -/

/-- Takes a request for one element: CLEAR acts at once, a mode waits for the loop strobe with its manual codes. -/
def loopElem (s : State) (d : DieId) (r : LoopReq) (e : Nat) : State :=
  let s1 := if r.clear then
      let s0 := s.onDie d (·.onElem e (fun el => { el with miss := false, sat := false }))
      let el := (s0.die d).elem e
      if el.fallback && el.retry.isNone then retryBegins s0 d e else s0
    else s
  match r.mode with
  | none => s1
  | some m => s1.onDie d (·.onElem e (fun el =>
      let el1 := { el with modePend := some (m, r.keep), modeCmd := r.cmd }
      if m = 1 && !r.keep then
        if isCell e then { el1 with manHtr := r.htr, manPin := r.pin, manX2 := r.x2 } else { el1 with manGate := r.gate }
      else el1))

/-- Takes a request for a range of elements on a die. -/
def loopRange (s : State) (d : DieId) (first count : Nat) (r : LoopReq) : State :=
  (List.range count).foldl (fun s i => loopElem s d r (first + i)) s

/-- A request on the Declarer, mirrored (R205). -/
def loopReq (s : State) (d : DieId) (first count : Nat) (r : LoopReq) : State :=
  mirror (loopRange s d first count r) d (.loop first count r)

/-- Some element of a die still waits for its change under a command. -/
def Die.loopWaits (x : Die) (id : Nat) : Bool := x.hold.any (fun p => p.2.modePend.isSome && p.2.modeCmd = id)

/-- A request of a command is still on its way to the Dummy. -/
def Die.loopSent (x : Die) (id : Nat) : Bool :=
  x.red.sent.any (fun r => match r.payload with | .loop _ _ q => decide (q.cmd = id) | _ => false)

/-- A LOOP_SET completes when every named element runs in its new mode on both dies. -/
def loopSetDone (s : State) (id : Nat) : State :=
  match s.declarer with
  | none => s
  | some d =>
    match (s.die d).cmd id with
    | some c =>
      if dOpcode c.desc = 0x30 && c.stage == Stage.waiting && !s.cd0.loopWaits id && !s.cd1.loopWaits id && !(s.die d).loopSent id then
        finish s d id (doneStatus s d 0x30 0) 0 0 0 else s
    | none => s

/-! ## Mode changes (R207) -/

/-- The manual PIN code of an element as a current in ×1 LSB. -/
def Elem.manCur (el : Elem) : Nat := if el.manX2 then 2 * el.manPin else el.manPin

/-- The manual codes of an element become its outputs, the PIN code with the reference chosen (R206). -/
def driveManual (s : State) (d : DieId) (e : Nat) : State :=
  let el := (s.die d).elem e
  if isCell e then
    let s1 := s.onDie d (·.onElem e (fun el => { el with uHtr := el.manHtr, uPin := el.manCur }))
    loopOut (loopOut s1 d e .heater el.manHtr false (loopGroup e)) d e .pin el.manPin el.manX2 (loopGroup e)
  else driveGate s d e el.manGate (loopGroup e)

/-- The present outputs, with the dither they carry, become the manual codes (KEEP). -/
def keepOutputs (x : Die) (e : Nat) : Die :=
  x.onElem e (fun el =>
    let q := pinCode el.dPin false
    { el with manHtr := min 65535 el.dHtr, manPin := q.1, manX2 := q.2, manGate := el.dGate, uHtr := el.dHtr, uPin := el.dPin, uGate := el.dGate })

/-- The integrator preset that makes u equal the present output (R56, R207, R428), clamped. -/
def presetInt (s : State) (d : DieId) (e : Nat) : State :=
  let x := s.die d
  let el := x.elem e
  let cl (v lim : Rat) : Rat × Bool := if lim < v then (lim, true) else if v < -lim then (-lim, true) else (v, false)
  let per (n m : Rat) : Rat := if m = 0 then 0 else n / m
  if isCell e then
    let f := cellFf x e s.ticks
    let (ih, c1) := cl (per (f.1 - ((el.uHtr : Nat) : Rat)) (slopeH x e s.ticks)) (piQ / 2)
    let (ip, c2) := cl (per (f.2 - ((el.uPin : Nat) : Rat)) (slopeP x e)) (piQ / 2)
    let (iv, c3) := loopVal ih ip
    s.onDie d (·.onElem e (fun el => { el with int := iv, prop := .zero, sat := el.sat || c1 || c2 || c3, satAt := stampIf (c1 || c2 || c3) s.ticks el.satAt }))
  else if isInGate e then s.onDie d (·.onElem e (fun el => { el with int := .zero, prop := .zero }))
  else
    let g := e - 4864
    let f : Rat := ((x.cal.gateCode g el.step : Int) : Rat)
    let (ig, c1) := cl (per (((el.uGate : Nat) : Rat) - f) (gateSlope x.cal g el.step)) 6
    let (iv, c3) := loopVal ig 0
    s.onDie d (·.onElem e (fun el => { el with int := iv, prop := .zero, sat := el.sat || c1 || c3, satAt := stampIf (c1 || c3) s.ticks el.satAt }))

/-- Feed-forward alone with the integrators at 0, in group 10 (R207, R264, R485). -/
def driveFf (s : State) (d : DieId) (e : Nat) : State :=
  let s1 := s.onDie d (·.onElem e (fun el => { el with int := .zero }))
  if isCell e then applyCell s1 d e 0 0 10 else putGate s1 d e 0 0 10

/-- All codes 0. -/
def driveOff (s : State) (d : DieId) (e : Nat) : State :=
  if isCell e then driveCell s d e 0 0 (loopGroup e) else driveGate s d e 0 (loopGroup e)

/-- The outputs move to the feed-forward over 1 ms (R207). -/
def rampToFf (s : State) (d : DieId) (e : Nat) : State :=
  let x := s.die d
  let el := x.elem e
  let f := cellFf x e s.ticks
  startRamp s d e (clampCode f.1 (heaterMax s e)).1 (clampPin f.2 el.handoff).1
    (if isCell e then 0 else (clampCode ((x.cal.gateCode (e - 4864) el.step : Int) : Rat) 0x3FFF).1)

/-- Codes last strobed are the present outputs. -/
def Elem.present (el : Elem) : Elem := { el with uHtr := el.dHtr, uPin := el.dPin, uGate := el.dGate }

/-- What every change of an element's mode leaves. -/
def Elem.inMode (el : Elem) (m : Nat) : Elem :=
  { el with mode := m, modePend := none, half := .none, settled := false, mPlus := none, mMinus := none, fallback := false, frozen := false,
            lost := false, retry := none, ramp := none, implausible := false, active := if m = 0 then el.active else false }

/-- An element enters a mode (R207); a MANUAL or OFF cell is in no hand-off (R208). Between modes that the table does not pair it changes as
from AUTO (log entry 94). -/
def enterMode (s : State) (d : DieId) (e m : Nat) (keep : Bool) : State :=
  let x := s.die d
  let old := (x.elem e).mode
  if m = old && m ≠ 1 then s.onDie d (·.onElem e (fun el => { el with modePend := none }))
  else
    let s0 := if m = 1 || m = 3 then stopHandoff s d e else s
    let s1 := s0.onDie d (·.onElem e (·.inMode m))
    if m = 1 then
      if keep then s1.onDie d (fun x => keepOutputs x e) else driveManual s1 d e
    else if m = 2 then rampToFf s1 d e
    else if m = 3 then driveOff s1 d e
    else
      let s2 := if old = 1 || old = 3 then presetInt (s1.onDie d (·.onElem e (·.present))) d e
        else s1.onDie d (·.onElem e (fun el => { el with int := .zero, prop := .zero }))
      activate s2 d e x.wakeBurst tHold

/-- LOOP_MODE_APPLY: the change that waits is made at the loop strobe; not while the element is stale or the target of a run. -/
def loopModeApply (d : DieId) (e : Nat) (s : State) : State :=
  let el := (s.die d).elem e
  match el.modePend with
  | none => s
  | some (m, keep) => if stale s e || (s.die d).inRun e then s else loopSetDone (enterMode s d e m keep) el.modeCmd

def execLoopModeApply (die : DieId) (elem : Fin 5888) (s : State) : Host.Outcome State Fault Refusal :=
  done (loopModeApply die elem.val s)

/-! ## The loops in transitions of the base mode (R52, R55, R56, R209) -/

/-- Loops go idle: no half-cycle, no retry, nothing active. -/
def Elem.idle (el : Elem) : Elem :=
  { el with active := false, half := .none, settled := false, mPlus := none, mMinus := none, retry := none }
def Die.loopsIdle (x : Die) : Die := { x with hold := spMap Elem.reset (fun _ el => el.idle) x.hold }

/-- In DARK a hand-off stops where it is. -/
def Die.loopsDark (x : Die) (ticks : Nat) : Die := { x with hold := spMap Elem.reset (fun _ el => el.idle.stopHand ticks) x.hold }

/-- In BLIND HOLD a cell in hand-off takes the position it left, with full π current (R283), and a move of an output ends. -/
def Elem.parkHand (el : Elem) (ticks : Nat) : Elem :=
  if el.handoff then
    { el with handoff := false, heldAt := none, pinPhi := ((el.target : Nat) : Rat) - el.phi, pinSince := ticks, ramp := none }
  else { el with ramp := none }
def Die.loopsBlind (x : Die) (ticks : Nat) : Die := { x with hold := spMap Elem.reset (fun _ el => el.idle.parkHand ticks) x.hold }

/-- The outputs a bank die drives, as the loops of a die take them over (R56, R57, R428). -/
def adoptOutputs (s : State) (d : DieId) (e : Nat) : State :=
  let c := (s.bank (bankOf e)).chan (chanOf e)
  s.onDie d (·.onElem e (fun el => { el with uHtr := c.heater, uPin := c.pinCur, uGate := c.gate, dHtr := c.heater, dPin := c.pinCur, dGate := c.gate }))

/-- An element strobes what it drives: the first drive write after BLIND HOLD (R283). -/
def strobeElem (s : State) (d : DieId) (e : Nat) : State :=
  if isCell e then strobePin (strobeHeater s d e (loopGroup e)) d e (loopGroup e)
  else loopOut s d e .gate ((s.die d).elem e).uGate false (loopGroup e)

/-- The loops of a die at RUN from BLIND HOLD: an AUTO element is preset from the outputs (R56), the others move to their codes over 1 ms
(R209). -/
def loopsResume (s : State) (d : DieId) : State :=
  (List.range 5888).foldl (fun s e =>
    let s1 := adoptOutputs s d e
    let el := (s1.die d).elem e
    if el.mode = 0 then activate (strobeElem (presetInt s1 d e) d e) d e (s.die d).wakeBurst tHold
    else if el.mode = 1 then startRamp s1 d e el.manHtr el.manCur el.manGate
    else if el.mode = 2 then rampToFf s1 d e
    else startRamp s1 d e 0 0 0) s

/-! ## HLD_EL registers -/

/-- The HLD_EL_MAN word pair of an element's manual codes. -/
def manWord (el : Elem) : Nat := el.manHtr + el.manPin * 2 ^ 16 + b2n el.manX2 * 2 ^ 28 + el.manGate * 2 ^ 32

/-- A write of HLD_EL_SEL: all HLD_EL values of the element are taken together; a number above 5,887 is ignored. -/
def elSelect (d : DieId) (e : Nat) (s : State) : State :=
  if 5888 ≤ e then s
  else s.onDie d (fun x =>
    let y := (x.setRf Reg.HLD_EL_SEL F.HLD_EL_SEL_ELEMENT e).setReg64 Reg.HLD_EL_MAN (manWord (x.elem e))
    { y with elSnap := x.elem e, elStale := stale s e })

def execHldElSelect (die : DieId) (element : BitVec 13) (s : State) : Host.Outcome State Fault Refusal :=
  doneBar die (elSelect die element.toNat) s

/-- The request a write of HLD_EL_CTRL makes of the selected element, as LOOP_SET would; none where LOOP_SET is INVALID. -/
def ctrlReq (x : Die) (v : Nat) : Option LoopReq :=
  let e := x.rf Reg.HLD_EL_SEL F.HLD_EL_SEL_ELEMENT
  let el := x.elem e
  let apply := fget F.HLD_EL_CTRL_APPLY v != 0
  let m := fget F.HLD_EL_CTRL_MODE v
  let keep := fget F.HLD_EL_CTRL_KEEP v != 0
  let clear := fget F.HLD_EL_CTRL_CLEAR v != 0
  if apply && ((keep && m != 1) || (m = 3 && !isCell e && fget F.HLD_EL_CTRL_OFF_GATE v = 0)) then
    (if clear then some ⟨none, false, true, 0, 0, false, 0, 0⟩ else none)
  else if apply || clear then
    some ⟨if apply then some m else none, keep, clear, el.manHtr, el.manPin, el.manX2, el.manGate, 0⟩
  else none

/-- A write of HLD_EL_CTRL: MODE, KEEP and OFF_GATE are kept, APPLY and CLEAR act and read 0. -/
def elCtrl (d : DieId) (v : Nat) (s : State) : State :=
  let x := s.die d
  if !x.isDecl || !x.expert 1 then s
  else
    let s1 := putWord s d Reg.HLD_EL_CTRL (fput F.HLD_EL_CTRL_APPLY (fput F.HLD_EL_CTRL_CLEAR v 0) 0)
    match ctrlReq x v with
    | some r => loopReq s1 d (x.rf Reg.HLD_EL_SEL F.HLD_EL_SEL_ELEMENT) 1 r
    | none => s1

def execHldElApply (die : DieId) (ctrl : Word32) (s : State) : Host.Outcome State Fault Refusal :=
  doneBar die (fun s => elCtrl die (fput F.HLD_EL_CTRL_APPLY ctrl.toNat 1) s) s

def execHldElClear (die : DieId) (s : State) : Host.Outcome State Fault Refusal :=
  doneBar die (fun s => elCtrl die (fput F.HLD_EL_CTRL_CLEAR ((s.die die).reg Reg.HLD_EL_CTRL) 1) s) s

/-- A write of HLD_EL_MAN: at the next loop strobe of a MANUAL element, else at the next change to MANUAL. -/
def elMan (d : DieId) (v : Nat) (s : State) : State :=
  let x := s.die d
  if !x.isDecl || !x.expert 1 then s
  else
    let s1 := putWord64 s d Reg.HLD_EL_MAN v
    let w := (s1.die d).reg64 Reg.HLD_EL_MAN
    let e := x.rf Reg.HLD_EL_SEL F.HLD_EL_SEL_ELEMENT
    let s2 := s1.onDie d (·.onElem e (fun el =>
      { el with manHtr := bitsOf w 15 0, manPin := bitsOf w 27 16, manX2 := bitOf w 28, manGate := bitsOf w 45 32 }))
    if (x.elem e).mode = 1 then
      loopReq s2 d e 1 ⟨some 1, false, false, bitsOf w 15 0, bitsOf w 27 16, bitOf w 28, bitsOf w 45 32, 0⟩
    else s2

def execHldElManWrite (die : DieId) (value : Word64) (s : State) : Host.Outcome State Fault Refusal :=
  doneBar die (elMan die value.toNat) s

/-! ## DITHER_RUN (R225 to R229) -/

/-- A DITHER_RUN descriptor breaks R225 or R228, mode and light aside. -/
def ditherBad (d : List Byte) : Bool :=
  let first := leAt d 16 2
  let count := leAt d 18 1
  let stim := leAt d 19 1
  let act := leAt d 20 1
  let amp := signedOf 16 (leAt d 22 2)
  let p1 := leAt d 24 2
  let p2 := leAt d 26 2
  let win := leAt d 28 2
  let nwin := leAt d 30 2
  let pre := leAt d 32 2
  let kindOk := (List.range count).all (fun i =>
    let e := first + i
    e < 5888 && bankOf e = bankOf first && (if act = 2 then !isCell e else isCell e))
  let lim : Int := if act = 0 then 4096 else if act = 1 then 512 else 2048
  let pOk := if stim = 0 then p1 = 0 && p2 = 0
    else if stim = 1 then 1 ≤ p1 && p1 ≤ 5000 && 1 ≤ p2 && p2 ≤ 5000
    else (p1 = 7 || p1 = 9 || p1 = 11 || p1 = 15) && 1 ≤ p2 && p2 ≤ 1000
  !(1 ≤ count && count ≤ 16 && stim < 3 && act < 3 && kindOk && leAt d 21 1 < 2 && decide (-lim ≤ amp) && decide (amp ≤ lim) &&
    pOk && 16 ≤ win && win ≤ 10000 && 1 ≤ nwin && nwin ≤ 4096 && pre ≤ 256 && zeroRange d 34 63 &&
    decide ((pre + nwin) * win ≤ 1000000))

/-- A target carries a lit path: −30 dBm or more on either input line of the cell, or at the gate (R228). -/
def litTarget (x : Die) (e : Nat) : Bool :=
  if isCell e then let p := cellInUw x x.dealer.image e; decide (darkUw ≤ p.1) || decide (darkUw ≤ p.2)
  else if isInGate e then decide (darkUw ≤ x.inputUw (e - 4864))
  else decide (darkUw ≤ outUw x x.dealer.image (e - 5376))

/-- The all-ones state of a PRBS register. -/
def prbsOnes (order : Nat) : Nat := 2 ^ order - 1

/-- The chip of a PRBS register: +AMP for a 1. -/
def prbsValue (amp : Int) (r : Nat) : Int := if r % 2 = 1 then amp else -amp

/-- A CHIRP after t µs of a sweep of T µs (R226): a sine of amplitude AMP whose frequency goes linearly from P1 to P2, both in units of 10 Hz,
from phase 0, rounded (log entry 13). -/
def chirp (amp : Int) (p1 p2 T t : Nat) : Int :=
  let sweep : Rat := if T = 0 then 0 else (((p2 : Int) - (p1 : Int) : Int) : Rat) * (((t * t : Nat)) : Rat) / (2 * ((T : Nat) : Rat))
  roundRat ((amp : Rat) * sinCycles (((((p1 * t : Nat)) : Rat) + sweep) / 100000))

/-- The stimulus at its start. -/
def stimStart (r : DitherRun) : Int :=
  if r.stim = 0 then r.amp else if r.stim = 1 then chirp r.amp r.p1 r.p2 (r.nwin * r.window) 0 else prbsValue r.amp r.prbs

/-- The output of a target with the stimulus added, clamped; whether it was clamped. -/
def stimOut (s : State) (d : DieId) (act : Nat) (v : Int) (e : Nat) : State × Bool :=
  let el := (s.die d).elem e
  if act = 0 then
    let q := clampCode ((((el.uHtr : Nat) : Int) + v : Int) : Rat) (heaterMax s e)
    (driveOut s d e .heater q.1 false 9, q.2.1 || q.2.2)
  else if act = 1 then
    let c := pinCode el.uPin el.handoff
    let q := clampCode ((((c.1 : Nat) : Int) + v : Int) : Rat) 4095
    (driveOut s d e .pin q.1 c.2 9, q.2.1 || q.2.2)
  else
    let q := clampCode ((((el.uGate : Nat) : Int) + v : Int) : Rat) 0x3FFF
    (driveOut s d e .gate q.1 false 9, q.2.1 || q.2.2)

/-- Replaces the run of a bank die. -/
def setRun (s : State) (d : DieId) (r : DitherRun) : State :=
  s.onDie d (fun x => { x with dither := x.dither.map (fun q => if q.cmd = r.cmd then r else q) })

/-- The stimulus value is put on every running target. -/
def stimAll (s : State) (d : DieId) (r : DitherRun) : State :=
  let (s1, cl) := r.left.foldl (fun (a : State × Bool) t =>
    let (s, c) := stimOut a.1 d r.act r.value t.elem
    (s, a.2 || c)) (s, r.clamped)
  setRun s1 d { r with clamped := cl }

/-- Begins the stimulus of a run. -/
def stimBegin (s : State) (d : DieId) (r : DitherRun) : State :=
  let r1 := { r with begun := true, lastStim := s.ticks, elapsed := 0 }
  stimAll s d { r1 with value := stimStart r1 }

/-- Urgent conversions of every target of a run (R227). -/
def urgentTargets (s : State) (d : DieId) (r : DitherRun) : State :=
  r.left.foldl (fun s t => if (s.bank r.bank).up d then
    (s.onDie d (·.onElem t.elem (fun el => { el with update := el.update + 1 }))).emit (.bank d r.bank mUrgent [chanOf t.elem, ((s.die d).elem t.elem).update])
    else s) s

/-- The urgent conversions of a die's runs, once every 3.4 µs. -/
def urgentTick (s : State) (d : DieId) : State :=
  (s.die d).dither.foldl (fun s r =>
    if s.ticks < r.lastUrgent + 3400 then s else urgentTargets (setRun s d { r with lastUrgent := s.ticks }) d r) s

/-- Starts a DITHER_RUN for a command: targets held at what they are driven with, ranges fixed, stores restarted, dither tasks queued (R226,
R227, R272). -/
def ditherStart (s : State) (d : DieId) (cmd fn : Nat) (desc : List Byte) : State :=
  let first := leAt desc 16 2
  let count := leAt desc 18 1
  let es := (List.range count).map (first + ·)
  let order := leAt desc 24 2
  let r : DitherRun :=
    { cmd := cmd, fn := fn, bank := bankOf first, first := first, count := count, stim := leAt desc 19 1, act := leAt desc 20 1,
      amp := signedOf 16 (leAt desc 22 2), p1 := order, p2 := leAt desc 26 2, window := leAt desc 28 2, nwin := leAt desc 30 2,
      pre := leAt desc 32 2, left := es.map (fun e => ⟨e, 0, s.ticks, false, stale s e⟩), value := 0, prbs := prbsOnes order, elapsed := 0,
      clamped := false, since := s.ticks, lastStim := s.ticks, begun := false, lastUrgent := s.ticks }
  let s1 := es.foldl (fun s e =>
    let s0 := (readStore s d e).1
    let s2 := s0.onBank (bankOf e) (·.onChan (chanOf e) (fun c => { c with locked := true }))
    activate (s2.onDie d (·.onElem e (fun el => { (el.present).holdHand s.ticks with half := .none, settled := false, ramp := none }))) d e 1 tDither) s
  let s2 := urgentTargets (s1.onDie d (fun x => { x with dither := x.dither ++ [r] })) d r
  if r.pre = 0 then stimBegin s2 d r else s2

/-- The capture record of a target's window (R227). -/
def captureRec (x : Die) (r : DitherRun) (e w : Nat) (st : Store) (ext stl abort last : Bool) : List Byte :=
  let flags := b2n (decide (w < r.pre)) + 2 * b2n stl + 4 * b2n abort + 8 * b2n ext + 16 * b2n last + 32 * b2n r.clamped
  leBytes 8 x.ns ++ leBytes 2 e ++ leBytes 2 w ++ leBytes 1 flags ++ leBytes 1 0 ++ leBytes 2 st.count ++
    leBytes 4 st.sum ++ leBytes 2 (st.min % 16384) ++ leBytes 2 (st.max % 16384) ++
    leBytes 4 (codeOf 32 r.value) ++ leBytes 4 0

/-- A target's loop after a run: in AUTO it resumes with P = 0, in MANUAL it rests as it was. -/
def Elem.leftRun (el : Elem) (ticks : Nat) : Elem :=
  { (el.thawHand ticks) with prop := .zero, discard := true, lastUpd := ticks, active := if el.mode = 0 then el.active else false }

/-- A target leaves a run: its held output returns at one strobe, its loop resumes with P = 0; the command completes after the
last target. -/
def ditherLeave (s : State) (d : DieId) (cmd e : Nat) : State :=
  match (s.die d).dither.find? (fun r => r.cmd = cmd) with
  | none => s
  | some r =>
    let left := r.left.filter (fun t => t.elem ≠ e)
    let s1 := (stimOut s d r.act 0 e).1
    let s2 := (s1.onBank (bankOf e) (·.onChan (chanOf e) (fun c => { c with locked := false }))).onDie d (·.onElem e (·.leftRun s.ticks))
    if left.isEmpty then
      finish (s2.onDie d (fun x => { x with dither := x.dither.filter (fun q => q.cmd ≠ cmd) })) d cmd
        (doneStatus s2 d 0x31 0) 0 0 0
    else setRun s2 d { r with left := left }

/-- The run of a die that holds an element, and what it keeps of that target. -/
def Die.runOf (x : Die) (e : Nat) : Option (DitherRun × DitherTarget) :=
  match x.dither.find? (fun r => r.left.any (fun t => t.elem = e)) with
  | none => none
  | some r => (r.left.find? (fun t => t.elem = e)).map (fun t => (r, t))

/-- A run's record of a target on the telemetry ring of the function that asked for it, while it has one. -/
def ditherRecord (s : State) (d : DieId) (r : DitherRun) (t : DitherTarget) (st : Store) (abort last : Bool) : State :=
  if r.fn < 4 then telem s d r.fn 1 0 32 (captureRec (s.die d) r t.elem t.win st (t.ext && !abort) (t.stl || stale s t.elem) abort last) else s

/-- A run stops for a target before its end: the last record carries ABORTED and LAST (R229). -/
def ditherAbort (s : State) (d : DieId) (e : Nat) : State :=
  match (s.die d).runOf e with
  | none => s
  | some (r, t) =>
    let (s1, st) := readStore s d e
    ditherLeave (ditherRecord s1 d r t st true true) d r.cmd e

/-- A calibration of a bank die begins or ends: windows of its runs that overlap it are stale (R229). -/
def Die.staleRuns (x : Die) (b : Nat) : Die :=
  { x with dither := x.dither.map (fun (r : DitherRun) =>
      if r.bank = b then { r with left := r.left.map (fun (t : DitherTarget) => { t with stl := true }) } else r) }

/-- Every run of a die, or of a bank die, stops (R229). -/
def ditherStop (s : State) (d : DieId) (sel : DitherRun → Bool) : State :=
  let es := ((s.die d).dither.filter sel).flatMap (fun r => r.left.map (·.elem))
  es.foldl (fun s e => ditherAbort s d e) s

/-- DITHER_RUN_STIMULUS_UPDATE: every 1 µs for a CHIRP, every chip for a PRBS; a STEP stays. -/
def stimUpdate (b : Nat) (s : State) : State :=
  match s.declarer with
  | none => s
  | some d =>
    match (s.die d).dither.find? (fun r => r.bank = b) with
    | none => s
    | some r =>
      let per := if r.stim = 2 then r.p2 else 1
      let dt := (s.ticks - r.lastStim) / usT
      if !r.begun || r.stim = 0 || dt < per then s
      else
        let el := r.elapsed + per
        let pr := if r.stim = 2 then Config.prbsNext r.p1 r.prbs else r.prbs
        stimAll s d { r with elapsed := el, prbs := pr, lastStim := r.lastStim + per * usT,
                             value := if r.stim = 1 then chirp r.amp r.p1 r.p2 (r.nwin * r.window) el
                                      else prbsValue r.amp pr }

def execDitherRunStimulusUpdate (bank : Fin 8) (s : State) : Host.Outcome State Fault Refusal :=
  done (stimUpdate bank.val s)

/-- DITHER_RUN_WINDOW_END: the store is read and restarted and a capture record written; a window of fewer than four conversions
goes on. -/
def windowEnd (e : Nat) (s : State) : State :=
  match s.declarer with
  | none => s
  | some d =>
    match (s.die d).runOf e with
    | none => s
    | some (r, t) =>
      if s.ticks - t.since < r.window * usT then s
      else if ((s.bank (bankOf e)).chan (chanOf e)).store.count < 4 && !stale s e then
        setRun s d { r with left := r.left.map (fun (q : DitherTarget) => if q.elem = e then { q with ext := true } else q) }
      else
        let (s1, st) := readStore s d e
        let last := decide (r.pre + r.nwin ≤ t.win + 1)
        let s2 := ditherRecord s1 d r t st false last
        if last then ditherLeave s2 d r.cmd e
        else
          let r1 := { r with left := r.left.map (fun q => if q.elem = e then ⟨e, t.win + 1, s.ticks, false, stale s e⟩ else q) }
          let s3 := setRun s2 d r1
          if !r.begun && r.pre ≤ t.win + 1 then stimBegin s3 d r1 else s3

def execDitherRunWindowEnd (elem : Fin 5888) (s : State) : Host.Outcome State Fault Refusal := done (windowEnd elem.val s)

end Sys2Proof.Machine
end

