-- ==== Sys2Proof/Machine/DeckOps.lean ====
section
/-!
DEFINITION. Deck state as it is reported (R335, R411), the boundaries of a deck as they pass (R161 to R167, R175, R176), and
partitions (R172).
-/

namespace Sys2Proof.Machine

/-! ## The Dummy's shadow registers -/

/-- A change of registers that the Dummy's shadow makes too (R35, R116). -/
def shadowed (s : State) (d : DieId) (f : Die → Die) : State :=
  let s1 := s.onDie d f
  if s.mirrored d then s1.onDie d.peer f else s1

def mirrorDealer (s : State) (d : DieId) : State := mirror s d (.dealer (s.die d).dealer (s.die d).trans)
def mirrorDecks (s : State) (d : DieId) : State := mirror s d (.decks (s.die d).decks)
def mirrorPlanner (s : State) (d : DieId) : State := mirror s d (.planner (s.die d).planner)

/-! ## Deck status -/

/-- CUR_STATE: 0 none, 1 waiting, 2 running, 3 finished. -/
def Decks.curState (dk : Decks) : Nat :=
  match dk.current with
  | none => 0
  | some r => match r.state with | .waiting => 1 | .running => 2 | .finished => 3

/-- The level that acts on decks (R176): in BLIND HOLD no boundary is dealt (R55). -/
def Die.deckLevel (x : Die) : Nat := if x.base = mBlind then 4 else x.thm.level

/-- T2 skipping is in effect, T3 pauses the deck (R176). -/
def Die.deckSkip (x : Die) : Bool := x.thm.level = 2 && x.decks.curState = 2
def Die.deckPaused (x : Die) : Bool :=
  (match x.decks.running with | some r => decide (3 ≤ x.thm.level) || r.resume.isSome | none => false)

/-- The epoch a deck is in, by the last boundary dealt or passed. -/
def DeckRun.epoch (r : DeckRun) : Nat := (r.pass - 1) / r.desc.epoch

/-- Body of a DECKINFO (R335). -/
def deckInfoBody (x : Die) (ev epoch at_ : Nat) : List Byte :=
  let cur := x.decks.current
  let auto := match cur with | some r => r.desc.auto | none => false
  let st := x.decks.curState + 4 * b2n auto + 8 * b2n x.deckSkip + 16 * b2n x.deckPaused
  let (g, tl, el, o) : Nat × Nat × Nat × Nat := match cur with
    | some r => (r.desc.guard_, if r.desc.auto then r.desc.atrick else 0, r.desc.epoch, instantNs r.origin)
    | none => (0, 0, 0, 0)
  beBytes 1 ev ++ beBytes 1 st ++ [0, 0] ++ beBytes 4 epoch ++ beBytes 8 (instantNs at_) ++ beBytes 2 (at_ % 8 * 8192) ++
    beBytes 2 g ++ beBytes 4 tl ++ beBytes 2 el ++ [0, 0] ++ beBytes 8 o ++ [0, 0, 0, 0]

/-- Sends a DECKINFO to one agent. -/
def deckInfoTo (s : State) (d : DieId) (ev epoch at_ : Nat) (a : Agent) : State :=
  sendAgent s d a.id vtDeckinfo 0 ⟨a.maxClass, none, false, false⟩ (deckInfoBody (s.die d) ev epoch at_)

/-- A deck event: the DECK record and a DECKINFO to every agent with SLOTTED = 1 (R335, R411). -/
def deckEvent (s : State) (d : DieId) (ev slot epoch at_ : Nat) : State :=
  let s1 := eventShared s d evDeck (leBytes 1 ev ++ leBytes 1 slot ++ leBytes 4 epoch)
  (((s1.die d).vsp.agents).filter (·.slotted)).foldl (fun s a => deckInfoTo s d ev epoch at_ a) s1

def diStart : Nat := 1
def diStop : Nat := 2
def diSwap : Nat := 3
def diSkipOn : Nat := 4
def diSkipOff : Nat := 5
def diPause : Nat := 6
def diResume : Nat := 7
def diEpochVoid : Nat := 8
def diTrickVoid : Nat := 9
def diRejected : Nat := 10

/-! ## Deals placed by the module itself -/

/-- A new deal, in the order of instants. -/
def Die.addDeal (x : Die) (inst : Nat) (kind : DealKind) (takes : List Take) (thermal : Bool) (part : Option Nat) : Die :=
  let dl : Deal := ⟨x.dealer.nextDeal, inst, kind, takes, thermal, .placed, part, none, false, [], 0, [], 0, 0, 0⟩
  { x with dealer := { x.dealer with pending := insertDeal dl x.dealer.pending, nextDeal := x.dealer.nextDeal + 1 } }

/-- A deal of the module is placed against the pending deals by R126, never joining a deal of takes; its instant. -/
def placeOwn (x : Die) (t : Nat) : Nat :=
  let rec go : Nat → Nat → Nat
    | 0, t => t
    | n + 1, t => match earliestMeet (meets x t) with
      | none => t
      | some (m, _, _) => go n (m + i100ns)
  go 130 t

/-- The first instant at which a deal placed now may lie, as a NOW take's (R125). -/
def Die.nowInstant (x : Die) : Nat := max (x.nowUp + i1300ns) x.limit96

/-- A pending deal brings the set of the pending APPLY in force. -/
def Die.applyTaken (x : Die) : Bool :=
  match x.dealer.applyPend with
  | some (set, lim) => x.dealer.pending.any (fun e => decide (e.part = some set) && decide (lim ≤ e.instant))
  | none => false

/-- Places the deal of an APPLY with no deck running (R172). -/
def placePartition (x : Die) (set t : Nat) : Die := x.addDeal (placeOwn x (max t x.nowInstant)) .partition [] false (some set)

/-! ## Boundaries that pass -/

/-- Boundary deals that will not be dealt as such keep their takes (log entry 24). -/
def dropBoundaries (x : Die) : Die :=
  { x with dealer := { x.dealer with pending := x.dealer.pending.filterMap (fun (dl : Deal) =>
      match dl.kind, dl.stage with
      | .boundary _, .placed => if dl.takes.isEmpty then none else some { dl with kind := DealKind.takes }
      | .blank _, .placed => if dl.takes.isEmpty then none else some { dl with kind := DealKind.takes }
      | _, _ => some dl) } }

/-- A take deal that waits, with the boundary of a deck that lies within 100 ns of it. -/
def boundNear (x : Die) (r : DeckRun) (dl : Deal) : Option Nat :=
  let k := x.decks.bndFrom r.desc r.origin r.k (dl.instant + 1 - i100ns)
  if decide (dl.kind = .takes) && decide (dl.stage = .placed) && decide (x.decks.runBnd r k < dl.instant + i100ns) && x.decks.mayDeal r k &&
      !(x.dealer.pending.any (fun e => decide (e.kind = .boundary k))) then some k
  else none

/-- As an arm, stop, swap or resumption fixes the boundaries of the live deck, each that lies within 100 ns of a pending take deal is dealt
at that deal's instant and together with it (R164). Such a deal is not thermal-only (R126). -/
def boundAll (x : Die) : Die :=
  match x.decks.live with
  | none => x
  | some r => { x with dealer := { x.dealer with pending := x.dealer.pending.map (fun (dl : Deal) =>
      match boundNear x r dl with
      | some k =>
        if (x.dealer.pending.find? (fun e => decide (boundNear x r e = some k))).map (·.num) = some dl.num then
          { dl with kind := .boundary k, thermal := false }
        else dl
      | none => dl) } }

/-- A paused deck resumes at its first epoch boundary at least 2.6 µs on, as under JOIN (R56, R165, R176). -/
def deckResume (x : Die) (r : DeckRun) : Die :=
  boundAll { x with decks := { x.decks with current := some { r with
    resume := some (r.desc.epochFrom (x.decks.bndFrom r.desc r.origin r.k (x.nowUp + i2600ns))) } } }

/-- A pending APPLY that no boundary took up gets a deal of its own. -/
def applyAlone (x : Die) : Die :=
  match x.dealer.applyPend with
  | some (set, _) => if x.decks.live.isNone && !x.applyTaken && !(x.dealer.pending.any (fun dl => decide (dl.kind = .partition))) then
      placePartition x set x.nowInstant else x
  | none => x

/-- Pending swap or stop commands complete with a boundary's instant (R404). -/
def deckCmdDone (s : State) (d : DieId) (cmds : List Nat) (op inst : Nat) : State :=
  cmds.foldl (fun s c => finish s d c (doneStatus s d op 0) (instantNs inst) (inst % 8) 0) s

/-- The next deck is disarmed; a swap that waits for it completes with BUSY (log entry 25). -/
def disarmNext (s : State) (d : DieId) : State :=
  let dk := (s.die d).decks
  let cur : Option DeckRun := dk.current.map (fun (r : DeckRun) => { r with swap := none })
  let s1 := s.onDie d (fun x => { x with decks := { x.decks with next := none, current := cur } })
  match dk.current with
  | some r => match r.swap with | some (_, cs) => cs.foldl (fun s c => finish s d c stBusy 0 0 0) s1 | none => s1
  | none => s1

/-- Credits and plans clear when an automatic deck starts (R181). -/
def startAuto (x : Die) (r : DeckRun) : Die :=
  if r.desc.auto then { x with planner := Planner.reset } else x

/-- The next deck becomes the current one at boundary k of the old, at an instant (R162, R166). -/
def deckChange (s : State) (d : DieId) (inst : Nat) (dealt : Bool) : State :=
  match (s.die d).decks.current, (s.die d).decks.next with
  | some r, some n =>
    let run : DeckRun := { n with state := .running, origin := inst, entering := false, pass := 1, k := max 1 n.k,
                                  blankK := max 1 n.blankK, dealt := if dealt then some 0 else none }
    let s1 := s.onDie d (fun x => startAuto { x with decks := { x.decks with current := some run, next := none } } run)
    -- a stop that was still to come for the deck that leaves is complete with it (log entry 25)
    let s2 := match r.stop with | some (_, _, cs) => deckCmdDone s1 d cs 0x22 inst | none => s1
    match r.swap with
    | some (_, cs) => deckCmdDone (deckEvent s2 d diSwap run.slot 0 inst) d cs 0x23 inst
    | none => deckEvent s2 d diStart run.slot 0 inst
  | _, _ => s

/-- The decks are disarmed: the slotted outputs are dealt unassigned from the next deal on (R174). -/
def noDeck (x : Die) : Die :=
  dropBoundaries { x with decks := { x.decks with current := none }, dealer := { x.dealer with deckHand := [] } }

/-- The current deck stops at boundary k (R161): it is disarmed with the next deck, and its command completes. -/
def deckStopped (s : State) (d : DieId) (k inst : Nat) : State :=
  match (s.die d).decks.current with
  | none => s
  | some r =>
    let s1 := disarmNext s d
    let s2 := s1.onDie d (fun x => applyAlone (noDeck x))
    let s3 := deckEvent s2 d diStop r.slot (k / r.desc.epoch) inst
    match r.stop with
    | some (_, _, cs) => deckCmdDone s3 d cs 0x22 inst
    | none => s3

/-! ## Partitions (R172) -/

/-- The working mode a partition mask selects (R50). -/
def maskMode (m : PortMask) : Nat := if m = 0 then mStatic else if m = BitVec.allOnes 512 then mSlotted else mHybrid

/-- A partition set comes in force. -/
def partInForce (s : State) (d : DieId) (set : Nat) : State :=
  shadowed s d (·.setRf Reg.DCK_PART_CTRL F.DCK_PART_CTRL_INFORCE set)

end Sys2Proof.Machine
end

