-- ==== Sys2Proof/Machine/Takes.lean ====
section
/-!
DEFINITION. Takes: their checks (R42, R118, R123), their placing (R125 to R127, R133, R144), and what happens to a take that is
late.
-/

namespace Sys2Proof.Machine

/-! ## Checks -/

/-- The base mode accepts requests of the TAKE row of R41. -/
def Die.acceptsTakes (x : Die) : Bool := (isWorking x.base || x.base = mService) && !x.dealer.stopped

/-- The cadence a take selects: M, N and offset (R121). -/
def takeCadence (x : Die) (f : TakeForm) : Nat × Nat × Int :=
  let k := f.cadSel % 8
  if k < 4 then
    let w := x.reg (Reg.TIM_SYNC_RATE k)
    (bitsOf w 31 12, bitsOf w 11 0, signedOf 32 (x.reg (Reg.TIM_SYNC_OFS k)))
  else (bitsOf f.cadRate 31 12, bitsOf f.cadRate 11 0, f.cadOfs)

/-- Fields of a take as R118, R121 and R123 allow them, the resulting hand aside. -/
def takeFieldsOk (x : Die) (f : TakeForm) : Bool :=
  let w := f.flags % 4
  let pin := bitOf f.flags 4
  let unpin := bitOf f.flags 5
  let c := takeCadence x f
  f.resOk && decide (f.flags < 128) && decide (f.cadSel ≤ 4) && decide (w ≠ 3) &&
    (w ≠ 0 || (f.time = 0 && f.frac = 0)) && decide (f.frac % 8192 = 0) &&
    f.pairs.all (fun p => decide (p.1 < 512) && !bitOf p.2 9) && noDup (f.pairs.map (·.1)) &&
    !(pin && unpin) && !((pin || unpin) && (bitOf f.flags 3 || w = 2)) && (w ≠ 2 || cadActive c.1 c.2.1)

/-- The take of a form, for a command, at its validation moment. -/
def takeOf (x : Die) (f : TakeForm) (cmd : Nat) (trump : Option (DieId × Nat)) (frameEnd : Nat) : Take :=
  let c := takeCadence x f
  { cmd := cmd, pairs := f.pairs.map (fun p => (p.1, BitVec.ofNat 16 p.2)), whenF := f.flags % 4,
    time := nsInstant f.time + f.frac / 8192, lateNow := bitOf f.flags 2, thermal := bitOf f.flags 3, pin := bitOf f.flags 4,
    unpin := bitOf f.flags 5, ackEarly := bitOf f.flags 6, cadM := c.1, cadN := c.2.1, cadO := c.2.2, v := x.now,
    order := x.dealer.nextOrder, trump := trump, frameEnd := frameEnd, acked := false }

/-- The deck boundary a pinning take waits for while a deck runs, and its instant (R144). -/
def pinPlace (x : Die) (t : Take) : Option (Nat × Nat) :=
  if t.pin || t.unpin then
    match x.decks.running with
    | some _ => match x.decks.live with
      | some r => (pinBoundary x r t).map (fun k => (k, x.decks.runBnd r k))
      | none => none
    | none => none
  else none

/-- The instant a take would be dealt at; a late one as the NOW take it may become (R125 to R127). -/
def takeInstant (x : Die) (t : Take) : Nat :=
  match pinPlace x t with
  | some (_, inst) => inst
  | none =>
    match askedInstant x t with
    | some a => (placeAt x x.now t.thermal 200 a false).instant
    | none => (placeAt x x.now t.thermal 200 ((askedInstant x { t with whenF := 0, v := x.now }).getD x.now) false).instant

/-- The status of a take that validation refuses: mode rules first, then R123; none when it is accepted. -/
def takeRefusal (x : Die) (f : TakeForm) (countOk : Bool) : Option Nat :=
  if !x.acceptsTakes then some stBusy
  else if takeBlocked x (if bitOf f.flags 5 then [] else f.pairs) then some stSafety
  else if !countOk || !takeFieldsOk x f then some stInvalid
  else
    let t := takeOf x f 0 none 0
    if !takeClean x t (takeInstant x t) then some stInvalid
    else
      let slotted (p : Nat × Nat) : Bool := x.dealer.part.getLsbD (p.1 % 512)
      if t.pin || t.unpin then (if f.pairs.all slotted then none else some stConflict)
      else if f.pairs.any slotted then some stConflict else none

/-! ## Placing -/

/-- A take joins a pending deal. -/
def joinDeal (x : Die) (num : Nat) (t : Take) : Die :=
  { x with dealer := { x.dealer with pending := x.dealer.pending.map (fun (dl : Deal) =>
    if dl.num = num then { dl with takes := dl.takes ++ [t] } else dl) } }

/-- The deal of a boundary or a blanking deal that still waits for its window, made when there is none; its number. A deal in
preparation is no such deal: it may be the one that ends the deck before. -/
def boundaryDeal (x : Die) (kind : DealKind) (inst : Nat) : Die × Nat :=
  match x.dealer.pending.find? (fun dl => decide (dl.kind = kind) && decide (dl.stage = .placed)) with
  | some dl => (x, dl.num)
  | none => (x.addDeal inst kind [] false none, x.dealer.nextDeal)

/-- Pending deals that R133 counts: all but a deck's. -/
def Die.pendingCnt (x : Die) : Nat :=
  (x.dealer.pending.filter (fun dl => match dl.kind with | .boundary _ => false | .blank _ => false | _ => true)).length

/-- How a take was placed: at a deal's number, late, or refused for want of a 65th deal. -/
inductive Placed where
  | at_ (num inst : Nat)
  | late
  | busy
deriving DecidableEq, Repr

/-- Puts a take in a deal and advances the validation order. -/
def putTake (x : Die) (num : Nat) (t : Take) : Die :=
  let y := joinDeal x num t
  { y with dealer := { y.dealer with nextOrder := y.dealer.nextOrder + 1 } }

/-- Places a take (R125, R126, R133, R144); the coalesce count is the Declarer's and its shadow's. -/
def placeTake (s : State) (d : DieId) (t : Take) : State × Placed :=
  let x := s.die d
  match pinPlace x t with
  | some (k, inst) =>
    let (y, num) := boundaryDeal x (.boundary k) inst
    (s.setDie d (putTake y num t), .at_ num inst)
  | none =>
    match askedInstant x t with
    | none => (s, .late)
    | some a =>
      let p := placeAt x x.now t.thermal 200 a false
      let s1 := if p.moved then shadowed s d (·.count Reg.DLR_COALESCE_CNT F.DLR_COALESCE_CNT_COUNT) else s
      let x1 := s1.die d
      match p.join with
      | some (.deal n) => (s1.setDie d (putTake x1 n t), .at_ n p.instant)
      | some (.bound kd) =>
        let (y, num) := boundaryDeal x1 kd p.instant
        (s1.setDie d (putTake y num t), .at_ num p.instant)
      | none =>
        if 64 ≤ x1.pendingCnt then (s, .busy)
        else
          let num := x1.dealer.nextDeal
          (s1.setDie d (putTake (x1.addDeal p.instant .takes [] t.thermal none) num t), .at_ num p.instant)

/-! ## Late takes (R127) -/

/-- A Trump take leaves the frames in flight of its port (R384). -/
def trumpLeave (s : State) (t : Take) : State :=
  match t.trump with
  | some (dd, p) => s.onDie dd (·.onCport p (fun c => { c with inflight := c.inflight - 1 }))
  | none => s

/-- A take ends with a status; a Trump take that was answered before leaves flight here. -/
def takeEnds (s : State) (d : DieId) (t : Take) (status : Nat) : State :=
  match (s.die d).cmd t.cmd with
  | some _ => finish s d t.cmd status 0 0 0
  | none => trumpLeave s t

/-- A command's stage follows the placing of its take. -/
def takePlaced (s : State) (d : DieId) (t : Take) (num inst : Nat) : State :=
  s.onDie d (·.onCmd t.cmd (fun c =>
    { c with result := inst, stage := match c.stage with | .acking q u => .acking q u | _ => .placed num }))

/-- Counts a late take. -/
def countLate (s : State) (d : DieId) : State := shadowed s d (·.count Reg.DLR_LATE_CNT F.DLR_LATE_CNT_COUNT)

/-- A take found late: it completes with LATE, or is placed again, an AT take as a NOW take with a new v. -/
def lateTake (s : State) (d : DieId) (t : Take) (mayReplace : Bool) : State :=
  let s1 := countLate s d
  if !mayReplace || !t.lateNow then takeEnds s1 d t stLate
  else
    let t1 := { t with whenF := if t.whenF = 1 then 0 else t.whenF, v := (s.die d).now, order := (s.die d).dealer.nextOrder }
    if !takeClean (s.die d) t1 (takeInstant (s.die d) t1) then takeEnds s1 d t1 stInvalid
    else
    match placeTake s1 d t1 with
    | (s2, .at_ num inst) => takePlaced s2 d t1 num inst
    | (s2, .late) => takeEnds s2 d t1 stLate
    | (s2, .busy) => takeEnds s2 d t1 stBusy

/-! ## Acceptance (R34, R128, R425) -/

/-- The Declarer is solo: its requests need no acknowledgement. -/
def Die.solo (x : Die) : Bool := x.rbit Reg.RED_STATUS F.RED_STATUS_SOLO

/-- Mirrors a validated request: the command waits for its acknowledgement. Without a path to the Dummy nothing is sent, and no
acknowledgement will come. -/
def mirrorRequest (s : State) (d : DieId) (cmd : Nat) (t : Option Take) : State :=
  match (s.die d).cmd cmd with
  | none => s
  | some c =>
    let q := if s.mirrored d then (s.die d).red.nextSeq else 0
    mirror (s.onDie d (fun x => { x.onCmd cmd (fun c => { c with stage := .acking q s.ticks }) with red := x.red.counted c.origin })) d
      (.request c t)

/-- A take's request is acknowledged, or needs no acknowledgement: it may be preloaded; with ACK_EARLY it completes (R128). -/
def takeAcked (s : State) (d : DieId) (cmd : Nat) : State :=
  let find (x : Die) : Option (Deal × Take) := x.dealer.pending.findSome? (fun dl =>
    (dl.takes.find? (fun t => t.cmd = cmd)).map (fun t => (dl, t)))
  match find (s.die d) with
  | none => s
  | some (dl, t) =>
    let s1 := s.onDie d (fun x =>
      let y : Die := { x with dealer := { x.dealer with pending := x.dealer.pending.map (fun (e : Deal) =>
        { e with takes := e.takes.map (fun (t : Take) => if t.cmd = cmd then { t with acked := true } else t) }) } }
      y.onCmd cmd (fun c => { c with stage := .placed dl.num }))
    if t.ackEarly then finish s1 d cmd (doneStatus s d 0x10 0) (instantNs dl.instant) (dl.instant % 8) 0
    else s1

/-- A take that validation accepted: placed, then mirrored; what came of it. -/
def acceptTake (s : State) (d : DieId) (o : Origin) (desc : List Byte) (f : TakeForm) (trump : Option (DieId × Nat))
    (frameEnd : Nat) : State :=
  let id := (s.die d).nextCmd
  let s0 := s.onDie d (·.addCmd o desc .waiting true)
  let t := takeOf (s.die d) f id trump frameEnd
  let s2 := match placeTake s0 d t with
    | (s1, .busy) => takeEnds s1 d t stBusy
    | (s1, .late) => lateTake s1 d t true
    | (s1, .at_ num inst) => takePlaced s1 d t num inst
  if ((s2.die d).cmd id).isNone then s2
  else if (s2.die d).solo then takeAcked s2 d id
  else mirrorDealer (mirrorRequest s2 d id (some t)) d

/-- Validation of a take: refused with its status, or accepted. -/
def validateTake (s : State) (d : DieId) (o : Origin) (desc : List Byte) (f : TakeForm) (countOk : Bool)
    (trump : Option (DieId × Nat)) (frameEnd : Nat) : State :=
  match takeRefusal (s.die d) f countOk with
  | some st => complete s d o st 0 0 0
  | none => acceptTake s d o desc f trump frameEnd

/-- The take form of a ring TAKE, and whether its COUNT is in range (R122). -/
def ringTake (d : List Byte) : TakeForm × Bool :=
  let n := leAt d 27 1
  (takeForm d 16 (pairsAt d 40 n), decide (1 ≤ n) && decide (n ≤ 6))

end Sys2Proof.Machine
end

