-- ==== Sys2Proof/Machine/Dealer.lean ====
section
/-!
DEFINITION. The Dealer (R129 to R138): preparing, preloading, the cut-off, withdrawals, the deal and its verification.
-/

namespace Sys2Proof.Machine

/-! ## Preparing (R129, R164, R169) -/

/-- The latest deal before an instant that is prepared. -/
def dealBefore (x : Die) (inst : Nat) : Option Deal :=
  (x.dealer.pending.filter (fun dl => decide (dl.instant < inst) && decide (dl.stage ≠ .placed))).getLast?

/-- Steps of the gates before an instant, and the hand and the image: those of that deal, else those in force. -/
def stepsBefore (x : Die) (inst : Nat) : Sparse Nat := match dealBefore x inst with | some dl => dl.steps | none => x.dealer.steps
def handBefore (x : Die) (inst : Nat) : Hand × Image :=
  match dealBefore x inst with | some dl => (dl.hand, dl.image) | none => (x.dealer.hand, x.dealer.image)

/-- Input gates that a running port check holds shut at an instant (R326). -/
def checkShut (x : Die) (inst : Nat) : List Nat :=
  (x.vsp.checks.filter (fun c => decide (nsInstant c.s ≤ inst) && decide (inst < nsInstant (c.s + 20000)))).map (·.port)

/-- Steps with every gate whose required step changed brought to it (R80); `all` brings every gate to it but the inputs a port
check holds shut. -/
def stepsAfter (x : Die) (inst : Nat) (old new : Hand) (before : Sparse Nat) (all : Bool) : Sparse Nat :=
  let a := handSteps old
  let b := handSteps new
  if all then (checkShut x inst).foldl (fun st p => spSet 15 p 15 st) b
  else (List.range 1024).foldl (fun st g => if stepOf a g = stepOf b g then st else spSet 15 g (stepOf b g) st) before

/-- Inputs watched in the guard that boundary k closes, with the output the ending trick gave each (R168): lit entries of slotted
outputs that are not pinned, which the hand after it does not give the same output. -/
def watched (x : Die) (before after : Hand) : List (Nat × Nat) :=
  (before.filter (fun p => entLit p.2 && x.dealer.part.getLsbD p.1 && !x.dealer.pins.getLsbD p.1 &&
    !(entV (handAt after p.1) && entInput (handAt after p.1) = entInput p.2))).map (fun p => (entInput p.2, p.1))

/-- The hand an automatic or manual deck deals at boundary k: an automatic epoch that was not planned deals nothing (R178, R184). -/
def trickHand (x : Die) (r : DeckRun) (k : Nat) : Hand :=
  if r.desc.auto && !(x.planner.planned.any (fun p => p.1 = k / r.desc.epoch)) then []
  else (x.decks.hand (r.desc.handNo k)).entries

/-- The deck hand after boundary k. -/
def deckHandAfter (x : Die) (r : DeckRun) (k : Nat) : Hand :=
  match bndAct x.decks r x.deckLevel k with
  | .deal => trickHand x r k
  | .change => match x.decks.next with | some n => trickHand x n 0 | none => []
  | .dark => []
  | _ => x.dealer.deckHand

/-- A deal that takes every gate to step 15 and leaves the cells as they are (R52, R483). -/
def DealKind.dark : DealKind → Bool
  | .gatesDark => true
  | .outDark => true
  | _ => false

/-- A deal composed: hand, steps, image (R119, R129); a stored image is the same as the routed one (R81, R153; log entry 26). -/
def composeDeal (x : Die) (dl : Deal) : Deal :=
  let before := compBefore x dl.instant
  let old := before.hand.1
  let after := before.deal x dl
  let hand := match dl.kind with
    | .restore => ({ after with deckHand := [] } : Comp).hand.1
    | _ => if dl.kind.dark then (handBefore x dl.instant).1 else after.hand.1
  let st := stepsBefore x dl.instant
  let steps := match dl.kind with
    | .boundary _ => stepsAfter x dl.instant old hand st true
    | .restore => stepsAfter x dl.instant old hand st true
    | .gatesDark => []
    | .outDark => (List.range 512).foldl (fun st n => spSet 15 (512 + n) 15 st) st
    | .blank k =>
      match x.decks.live with
      | some r => (watched x old (({ before with deckHand := deckHandAfter x r k } : Comp).hand.1)).foldl
          (fun st p => spSet 15 p.1 15 st) (stepsAfter x dl.instant old hand st false)
      | none => stepsAfter x dl.instant old hand st false
    | .portCheck p =>
      let shut := x.vsp.checks.any (fun c => c.port = p && decide (dl.instant < nsInstant c.s + i100ns + 1))
      spSet 15 p (if shut then 15 else stepOf (handSteps hand) p) (stepsAfter x dl.instant old hand st false)
    | _ => stepsAfter x dl.instant old hand st false
  { dl with hand := hand, steps := steps, stage := .prepared, preload := x.dealer.nextPreload, acks := 0, refused := 0,
            image := if dl.kind.dark then (handBefore x dl.instant).2 else route (x.calAt dl.instant).bench hand }

/-- A stored image of a hand, of the generation of a bench set (R129, R153). -/
def imageStored (x : Die) (b : BenchSet) (h : Hand) : Bool := x.decks.hands.any (fun e => e.2.gen = some b.gen && e.2.entries = h)

/-- The engine that routes a deal (R129): none for a stored image, the Trump router for a Trump-class take and under T3. -/
def routeDeal (x : Die) (dl : Deal) : Die :=
  let trump := dl.takes.any (fun t => t.trump.isSome)
  if dl.kind.dark || imageStored x (x.calAt dl.instant).bench dl.hand then x
  else x.onRouters (fun r => if trump || x.routersStopped then r.submitTrump (.deal dl.num) trump else r.submit (.deal dl.num))

/-- A deal becomes prepared; a bench change that its boundary brings is closed (R307). -/
def prepareDeal (x : Die) (num : Nat) : Die :=
  match x.dealer.pending.find? (fun dl => dl.num = num) with
  | none => x
  | some dl =>
    let dl1 := composeDeal x dl
    routeDeal { x with cal := x.cal.close (x.calAt dl.instant),
                       dealer := { x.dealer with pending := x.dealer.pending.map (fun (e : Deal) => if e.num = num then dl1 else e),
                                                 nextPreload := x.dealer.nextPreload + 1 } } dl1

/-- The preload of a deal that is sent is cancelled at the bank dies. -/
def cancelSent (s : State) (d : DieId) (dl : Deal) : State :=
  if dl.stage = .sent then (List.range 8).foldl (fun s b =>
    if (s.bank b).up d then s.emit (.bank d b mCancel [dl.preload]) else s) s else s

/-- A deal in preparation is composed again: a preload that is sent is cancelled, and another follows. -/
def composeAgain (s : State) (d : DieId) (num : Nat) : State :=
  match (s.die d).dealer.pending.find? (fun dl => dl.num = num) with
  | some dl => (cancelSent s d dl).onDie d (fun x => prepareDeal (x.routed (.deal num)) num)
  | none => s

/-- Deals in preparation after an instant are composed again where what they were composed on has changed (R175). -/
def recompose (s : State) (d : DieId) (inst : Nat) : State :=
  ((s.die d).dealer.pending.filter (fun dl => decide (inst < dl.instant) && (decide (dl.stage = .prepared) || decide (dl.stage = .sent)))).foldl
    (fun s dl =>
      let c := composeDeal (s.die d) dl
      if decide (c.hand = dl.hand) && decide (c.image = dl.image) && decide (c.steps = dl.steps) then s else composeAgain s d dl.num) s

/-- A pending APPLY ends with the deal that brings its set in force (R172). -/
def Die.applyDealt (x : Die) (dl : Deal) : Die :=
  match x.dealer.applyPend with
  | some (set, lim) =>
    if dl.part = some set && decide (lim ≤ dl.instant) then { x with dealer := { x.dealer with applyPend := none } } else x
  | none => x

/-- A boundary's deal gets what the boundary brings: the deck's hand, a partition set, the change of decks. -/
def dressBoundary (x : Die) (r : DeckRun) (k num inst : Nat) : Die :=
  let act := bndAct x.decks r x.deckLevel k
  let starting := if act = .change then (match x.decks.next with | some n => some n.desc | none => none)
    else if r.dealtAt = 0 && act = .deal then some r.desc else none
  let pm : Option Nat := match starting with | some ds => if ds.pmaskEn then some ds.pmaskSet else none | none => none
  let ap : Option Nat := match x.dealer.applyPend with
    | some (set, lim) => if decide (lim ≤ inst) && pm.isNone && !x.applyTaken then some set else none
    | none => none
  let hand := deckHandAfter x r k
  { x with dealer := { x.dealer with
      pending := x.dealer.pending.map (fun (e : Deal) => if e.num = num then
        { e with deckHand := some hand, change := decide (act = .change), part := if pm.isSome then pm else ap } else e) } }

/-- The deck moves on as boundary k is prepared; at a change the next deck's boundaries come next. -/
def deckPrepared (x : Die) (r : DeckRun) (k inst : Nat) (change : Bool) : Die :=
  if change then
    { x with decks := { x.decks with
        current := x.decks.current.map (fun (c : DeckRun) => { c with k := k + 1, blankK := max c.blankK (k + 1) }),
        next := x.decks.next.map (fun (n : DeckRun) =>
          { n with entering := true, origin := inst, k := 1, blankK := 1, dealtAt := inst }) } }
  else
    { x with decks := x.decks.setLive { r with k := k + 1, dealtAt := inst, resume := none } }

/-- The first boundary from the next one on that is dealt and whose window is open; boundaries before it that deal nothing are
left to pass. -/
def dueBoundary (x : Die) (r : DeckRun) (lim : Nat) : Option (Nat × Nat) :=
  ((List.range 8).map (fun i => r.k + i)).findSome? (fun k =>
    let inst := match x.dealer.pending.find? (fun dl => decide (dl.kind = .boundary k) && decide (dl.stage = .placed)) with
      | some dl => dl.instant
      | none => x.decks.runBnd r k
    if decide (inst ≤ lim) && (bndAct x.decks r x.deckLevel k).deals && x.decks.mayDeal r k then some (k, inst) else none)

/-- The next blanking deal whose window is open (R169). -/
def dueBlank (x : Die) (r : DeckRun) (lim : Nat) : Option (Nat × Nat) :=
  let k := max 1 r.blankK
  let inst := x.decks.runBnd r k - 8 * r.desc.guard_
  if r.desc.blank && decide (inst ≤ lim) && x.decks.mayDeal r k && (bndAct x.decks r x.deckLevel k).deals then some (k, inst)
  else none

/-- Takes that joined a boundary or a blanking deal which is not to be dealt, when its window opens: they are dealt without it (log
entry 24). -/
def looseTakes (x : Die) (lim : Nat) : Die :=
  let deals (k : Nat) : Bool := match x.decks.live with
    | some r => (bndAct x.decks r x.deckLevel k).deals && x.decks.mayDeal r k
    | none => false
  { x with dealer := { x.dealer with pending := x.dealer.pending.filterMap (fun (dl : Deal) =>
      let loose (k : Nat) : Option Deal :=
        if decide (dl.stage ≠ .placed) || decide (lim < dl.instant) || deals k then some dl
        else if dl.takes.isEmpty then none else some { dl with kind := .takes }
      match dl.kind with
      | .boundary k => loose k
      | .blank k => loose k
      | _ => some dl) } }

/-- PREPARATION_WINDOW_OPEN: the earliest pending deal, boundary or blanking deal whose window is open is prepared. -/
def prepWindow (s : State) : State :=
  match s.serving with
  | none => s
  | some d =>
    let lim := (s.die d).now + i1300ns
    let s := s.onDie d (looseTakes · lim)
    let x := s.die d
    let due := (x.dealer.pending.filter (fun dl => decide (dl.stage = .placed) && decide (dl.instant ≤ lim) &&
      (match dl.kind with | .boundary _ => false | .blank _ => false | _ => true))).head?
    let bnd := match x.decks.live with | some r => (dueBoundary x r lim).map (fun p => (r, p)) | none => none
    let blk := match x.decks.live with | some r => (dueBlank x r lim).map (fun p => (r, p)) | none => none
    let before (a : Nat) (o : Option Nat) : Bool := match o with | some b => decide (a ≤ b) | none => true
    let bi := bnd.map (fun p => p.2.2)
    let ki := blk.map (fun p => p.2.2)
    let go : Option State :=
      match due, bnd, blk with
      | some dl, _, _ => if before dl.instant bi && before dl.instant ki then some (s.setDie d (prepareDeal x dl.num)) else none
      | none, _, _ => none
    match go with
    | some s1 => mirrorDealer s1 d
    | none =>
      match blk, bnd with
      | some (r, k, inst), b =>
        if before inst (b.map (fun p => p.2.2)) then
          let (y, num) := boundaryDeal x (.blank k) inst
          let y1 := prepareDeal { y with decks := y.decks.setLive { r with blankK := k + 1 } } num
          mirrorDealer (mirrorDecks (s.setDie d y1) d) d
        else match b with
          | some (r, k, inst) => bound s d x r k inst
          | none => s
      | none, some (r, k, inst) => bound s d x r k inst
      | none, none => s
where
  bound (s : State) (d : DieId) (x : Die) (r : DeckRun) (k inst : Nat) : State :=
    let (y, num) := boundaryDeal x (.boundary k) inst
    let y1 := dressBoundary y r k num inst
    let ch := y1.dealer.pending.any (fun dl => dl.num = num && dl.change)
    let y2 := deckPrepared (prepareDeal y1 num) r k inst ch
    mirrorDealer (mirrorDecks (s.setDie d y2) d) d

/-- A survey that a deal in preparation touches ends (R302). -/
def prepYields (s : State) : State :=
  match s.declarer with
  | none => s
  | some d => ((s.die d).dealer.pending.filter (fun dl => decide (dl.stage = .prepared))).foldl (fun s dl => surveyYields s d dl) s

def execPreparationWindowOpen (s : State) : Host.Outcome State Fault Refusal := done (prepYields (prepWindow s))

/-! ## Preloading (R130, R131) -/

/-- The preload of a deal for a bank die, with the calibration in force at its instant (R298). -/
def preloadFor (x : Die) (dl : Deal) (b ticks : Nat) : PreloadMsg :=
  let cells := (List.range 608).foldl (fun a l => a + b2n (dl.image.getLsbD (elemOf b l)) * 2 ^ l) 0
  let before := stepsBefore x dl.instant
  let y : Die := { x with cal := x.calAt dl.instant }
  let gates := (List.range 128).filterMap (fun i =>
    let g := elemOf b (608 + i) - 4864
    let st := stepOf dl.steps g
    -- a gate in OFF stays undriven (R208)
    if st = stepOf before g || (x.elem (gateElem g)).mode = 3 then none else some (608 + i, BitVec.ofNat 14 (y.cal.gateCode g st).toNat))
  let heaters := if dl.thermal then (List.range 608).filterMap (fun l =>
      let c := elemOf b l
      let el := x.elem c
      let cr := dl.image.getLsbD c
      if cr = el.cross || el.pinPhi ≠ 0 || el.mode = 3 then none else some (l, thermalCode y c cr ticks))
    else []
  ⟨dl.preload, dl.instant, BitVec.ofNat 608 cells, gates, dl.thermal, heaters⟩

/-- Preloads outstanding at the bank dies. -/
def Die.shadowsUsed (x : Die) : Nat :=
  (x.dealer.pending.filter (fun dl => decide (dl.stage = .sent) || decide (dl.stage = .fixed))).length

/-- A deal whose preload is to be sent, once its takes are mirror-acked and a shadow set is free (R130, R131): a prepared one, or one that
bank dies refused. -/
def maySend (s : State) (x : Die) (dl : Deal) : Bool :=
  dl.takes.all (·.acked) &&
    (if dl.refused = 0 then decide (x.shadowsUsed < 4)
     else (List.range 8).all (fun b => !dl.refused.getLsbD b || decide ((s.bank b).preloads.length < 4)))

/-- PRELOAD_SEND: the earliest prepared deal, its routing done, to every bank die, or a refused one to those that refused it; the Dummy
sends copies. -/
def preloadSend (s : State) : State :=
  match s.serving with
  | none => s
  | some d =>
    let x := s.die d
    match (x.dealer.pending.filter (fun dl => decide (dl.stage = .prepared) || (decide (dl.stage = .sent) && decide (dl.refused ≠ 0)))).head? with
    | none => s
    | some dl =>
      if !maySend s x dl then s
      else
        let s1 := s.onDie d (fun x => ({ x with dealer := { x.dealer with
          pending := x.dealer.pending.map (fun (e : Deal) => if e.num = dl.num then { e with stage := .sent, refused := 0 } else e) } } : Die).routed
            (.deal dl.num))
        let dest (b : Nat) : Bool := decide (dl.refused = 0) || dl.refused.getLsbD b
        let send (s : State) (p : DieId) : State := (List.range 8).foldl (fun s b =>
          if dest b && (s.bank b).up p then s.emit (.bankPreload p b (preloadFor x dl b s.ticks)) else s) s
        let s2 := send s1 d
        mirrorDealer (if (s.die d.peer).isDummy then send s2 d.peer else s2) d

def execPreloadSend (s : State) : Host.Outcome State Fault Refusal := done (preloadSend s)

/-! ## The cut-off and withdrawals (R130, R132, R175) -/

/-- Removes a deal from the pending ones, and its routing. -/
def Die.dropDeal (x : Die) (num : Nat) : Die :=
  ({ x with dealer := { x.dealer with pending := x.dealer.pending.filter (fun dl => dl.num ≠ num) } } : Die).routed (.deal num)

/-- A gate deal or a deal of RUN that was withdrawn is placed again as a NOW take would be (R52). -/
def placeAgain (x : Die) (kind : DealKind) (part : Option Nat) : Die :=
  x.addDeal (placeOwn x x.nowInstant) kind [] false part

/-- A boundary that was to be dealt passes without its deal: the change or the stop it brings takes place, and the schedule goes on. -/
def boundaryPast (s : State) (d : DieId) (k inst : Nat) (change : Bool) : State :=
  match (s.die d).decks.current with
  | none => s
  | some r =>
    let stopHere := match r.stop with | some (k0, _, _) => decide (k0 = k) | none => false
    if change then deckChange s d inst false
    else if stopHere then deckStopped s d k inst
    else
      -- the last boundary actually dealt, or still to be dealt (R176)
      let last := (s.die d).dealer.pending.foldl (fun a dl => match dl.kind with
        | .boundary _ => if dl.stage = .placed then a else max a dl.instant
        | _ => a) r.firedAt
      s.onDie d (fun x => { x with decks := { x.decks with current := (x.decks.current).map (fun (r : DeckRun) =>
        { r with pass := max r.pass (k + 1), dealtAt := last, state := if r.state = .finished then .finished else .running }) } })

/-- A deck deal that is withdrawn counts as such (R175). -/
def countVoid (s : State) (d : DieId) : State := shadowed s d (·.count Reg.DCK_WITHDRAW_CNT F.DCK_WITHDRAW_CNT_COUNT)

/-- A boundary that was to be dealt is withdrawn: its trick is void, the schedule goes on (R175). -/
def boundaryVoid (s : State) (d : DieId) (k inst : Nat) (change : Bool) : State :=
  let s1 := countVoid s d
  match (s1.die d).decks.current with
  | none => s1
  | some r => boundaryPast (deckEvent s1 d diTrickVoid r.slot (k / r.desc.epoch) inst) d k inst change

/-- A port check has shut the input gate of port p, and the hand does not want it shut. -/
def checkHolds (x : Die) (p : Nat) : Bool :=
  decide (stepOf x.dealer.steps p = 15) && decide (stepOf (handSteps x.dealer.hand) p ≠ 15)

/-- The check of port p is abandoned (R326): its deals go, but for one that is fixed and for the one that opens a gate already shut. -/
def checkGone (s : State) (d : DieId) (p : Nat) : State :=
  let x := s.die d
  let mine := x.dealer.pending.filter (fun dl => decide (dl.kind = .portCheck p))
  let keep := checkHolds x p || mine.any (fun dl => decide (dl.stage = .fixed))
  let s1 := s.onDie d (fun x => { x with vsp := { x.vsp with checks := x.vsp.checks.filter (fun c => c.port ≠ p) } })
  if keep then s1
  else mine.foldl (fun s dl => cancelSent (s.onDie d (·.dropDeal dl.num)) d dl) s1

/-- Every check a condition on its port names is abandoned. -/
def checksGone (s : State) (d : DieId) (p : Nat → Bool) : State :=
  (((s.die d).vsp.checks.map (·.port)).filter p).foldl (fun s q => checkGone s d q) s

/-- Withdraws one deal: cancelled at the bank dies, counted, its takes late; `replace` lets takes with LATE = 1 and the module's
own deals be placed again. -/
def withdrawOne (s : State) (d : DieId) (dl : Deal) (replace : Bool) : State :=
  let s2 := cancelSent (s.onDie d (·.dropDeal dl.num)) d dl
  let s3 := raise (shadowed s2 d (·.count Reg.DLR_WITHDRAW_CNT F.DLR_WITHDRAW_CNT_COUNT)) d 10
  let s4 := match dl.kind with
    | .boundary k => boundaryVoid s3 d k dl.instant dl.change
    | .blank _ => countVoid s3 d
    | .gatesDark => s3.onDie d (fun x => match x.trans with
      | .goDark _ _ => placeAgain x .gatesDark none
      | .shutdown => placeAgain x .gatesDark none
      | _ => x)
    | .outDark => s3.onDie d (fun x => match x.trans with | .shutdown => placeAgain x .outDark none | _ => x)
    | .restore => if replace then s3.onDie d (fun x => placeAgain x .restore none) else s3
    | .partition => if replace then s3.onDie d (fun x => placeAgain x .partition dl.part) else s3
    | .portCheck p =>
      let s4 := checkGone s3 d p
      if replace && checkHolds (s4.die d) p then s4.onDie d (fun x => placeAgain x (.portCheck p) none) else s4
    | _ => s3
  dl.takes.foldl (fun s t => lateTake s d t replace) s4

/-- Withdraws a deal, and each later composed deal that holds a take of it (R132); later deals composed on its deck hand or gates alone are
composed again. -/
def withdraw (s : State) (d : DieId) (dl : Deal) (replace : Bool) : State :=
  let later := if dl.takes.isEmpty then []
    else (s.die d).dealer.pending.filter (fun e => decide (dl.instant < e.instant) &&
      (decide (e.stage = .prepared) || decide (e.stage = .sent)))
  recompose ((dl :: later).foldl (fun s e => withdrawOne s d e replace) s) d dl.instant

/-- PRELOAD_CUTOFF: 100 ns before its instant a deal is fixed, or withdrawn. -/
def preloadCutoff (s : State) : State :=
  match s.declarer with
  | none => s
  | some d =>
    let x := s.die d
    match x.dealer.pending.find? (fun dl => decide (dl.stage ≠ .fixed)) with
    | none => s
    | some dl =>
      if x.now + i100ns < dl.instant then s
      else if dl.stage = .sent && dl.acks = BitVec.allOnes 8 && dl.takes.all (·.acked) then
        mirrorDealer (s.onDie d (fun x => { x with dealer := { x.dealer with
          pending := x.dealer.pending.map (fun (e : Deal) => if e.num = dl.num then { e with stage := .fixed } else e) } })) d
      else mirrorDecks (mirrorDealer (withdraw s d dl (decide (x.base ≠ mBlind))) d) d

def execPreloadCutoff (s : State) : Host.Outcome State Fault Refusal := done (preloadCutoff s)

/-! ## Elements at a deal (R135, R138, R142, R143, R191, R208) -/

/-- A changed cell that a deal switches on its PIN shifter, with its π current (R135, R143): a hand-off stops where it is, the PIN current
rises by the π current, or falls by it as the bank die's does (R265), and I_p starts at 0 (R191). -/
def dealPin (el : Elem) (ipi ticks : Nat) : Elem :=
  let (phi, pin) : Rat × Rat :=
    if el.handoff then (heaterPhi el ticks, pinPhase el ticks + 1)
    else if 1 ≤ 2 * el.pinPhi then (el.phi, if el.pinPhi ≤ 1 then 0 else el.pinPhi - 1)
    else (el.phi, el.pinPhi + 1)
  let move (cur : Nat) : Nat := if el.mode = 3 then 0 else if el.pinPhi < pin || el.handoff then cur + ipi else cur - min ipi cur
  { el with phi := phi, pinPhi := pin, handoff := false, heldAt := none, onPin := decide (0 < pin), uPin := move el.uPin,
            dPin := move el.dPin, int := (loopVal el.int.valA 0).1 }

/-- A changed cell, with the heater code a thermal-only deal gives it (R138). -/
def dealCell (el : Elem) (thermal : Bool) (heater ipi ticks : Nat) : Elem :=
  let base : Elem := { el with cross := !el.cross, dealSeq := el.dealSeq + 1, deferred := false, half := .none, settled := false,
                               mPlus := none, mMinus := none, discard := true, active := (el.mode = 0 && !el.fallback) || el.active,
                               burst := 0, dealt := true, lastUpd := ticks, pinSince := ticks, retry := none, ramp := none }
  if thermal && el.pinPhi = 0 && !el.handoff then
    let h := if el.mode = 3 then 0 else heater
    { base with phi := if el.cross then 0 else 1, uHtr := h, dHtr := h }
  else dealPin base ipi ticks

/-- A MANUAL cell takes the deal's feed-forward codes, the PIN π current among them, as its manual codes (R208). -/
def manualAfter (x : Die) (c ticks : Nat) : Die :=
  let el := x.elem c
  if el.mode = 1 then
    let f := cellFf x c ticks
    let q := pinCode (clampPin f.2 false).1 false
    x.onElem c (fun el => { el with manHtr := (clampCode f.1 65535).1, manPin := q.1, manX2 := q.2 })
  else x

/-- A gate whose step changes. -/
def dealGate (x : Die) (cal : Cal) (g st ticks : Nat) : Die :=
  let code := (cal.gateCode g st).toNat
  x.onElem (gateElem g) (fun el =>
    { el with step := st, int := .zero, prop := .zero, dealSeq := el.dealSeq + 1, discard := true,
              active := (el.mode = 0 && !el.fallback) || el.active, burst := 0, dealt := true, lastUpd := ticks, retry := none, ramp := none,
              uGate := if el.mode = 3 then 0 else code, dGate := if el.mode = 3 then 0 else code,
              manGate := if el.mode = 1 then code else el.manGate })

/-- The cells and gates a deal changes. -/
def changedCells (x : Die) (dl : Deal) : List Nat := onesOf (x.dealer.image ^^^ dl.image)
def changedGates (x : Die) (dl : Deal) : List Nat :=
  (List.range 1024).filter (fun g => stepOf x.dealer.steps g ≠ stepOf dl.steps g)

/-- A die's loops at a deal: the changed elements, the hand and image in force, and every cell classed anew (R72). -/
def loopsAtDeal (x : Die) (dl : Deal) (cells gates : List Nat) (ticks : Nat) : Die :=
  let cal := x.calAt dl.instant
  let y : Die := { x with cal := cal }
  let codes := cells.map (fun c => (c, if dl.thermal then thermalCode y c (dl.image.getLsbD c) ticks else 0))
  let x1 := codes.foldl (fun x p => manualAfter (x.onElem p.1 (fun el => dealCell el dl.thermal p.2 (cal.cellIpi p.1).toNat ticks)) p.1 ticks) x
  let x2 := gates.foldl (fun x g => dealGate x cal g (stepOf dl.steps g) ticks) x1
  classifyAll { x2 with dealer := { x2.dealer with hand := dl.hand, image := dl.image, steps := dl.steps } }

/-! ## Verification (R128, R137) -/

/-- The elements that belong to a take in a deal (R128): cells on the routes of the outputs it names, their output gates, the input
gates of the inputs its entries name. -/
def takeElems (dl : Deal) (t : Take) : List Nat :=
  t.pairs.flatMap (fun p =>
    let e := handAt dl.hand p.1
    let route := if entV e then (pathOf dl.image (entInput e)).map (·.1) else []
    route ++ [5376 + p.1] ++ (if entV p.2 then [4864 + entInput p.2] else []))

/-- A dealt take whose elements are all verified completes (R128). -/
def verifyDone (s : State) (d : DieId) : State :=
  let x := s.die d
  let ready := x.dealer.dealtTakes.filter (fun t => !x.dealer.verify.any (fun v => v.cmds.contains t.take.cmd))
  ready.foldl (fun s t =>
    finish (s.onDie d (fun x => { x with dealer := { x.dealer with
      dealtTakes := x.dealer.dealtTakes.filter (fun (u : DealtTake) => u.take.cmd ≠ t.take.cmd) } })) d t.take.cmd
      (doneStatus s d 0x10 0) (instantNs t.instant) (t.instant % 8) (min 65535 t.failed)) s

/-- The verification of an element ends: record, burst, count against the takes it belongs to. -/
def verifyEnds (s : State) (d : DieId) (v : Verify) (fail : Bool) (readings : Nat) : State :=
  let s1 := eventMirrored s d evVerify (0x10 + bankOf v.elem) ((s.bank (bankOf v.elem)).clock / 2 ^ 24)
    (leBytes 2 v.elem ++ leBytes 1 (b2n fail) ++ leBytes 1 readings)
  let s2 := s1.onDie d (fun x =>
    { x with dealer := { x.dealer with
        verify := x.dealer.verify.filter (fun w => w.elem ≠ v.elem),
        dealtTakes := x.dealer.dealtTakes.map (fun (t : DealtTake) =>
          if fail && v.cmds.contains t.take.cmd then { t with failed := t.failed + 1 } else t) } })
  let s3 := if fail then raise (shadowed s2 d (·.count Reg.DLR_VFAIL_CNT F.DLR_VFAIL_CNT_COUNT)) d (20 + 5 * bankOf v.elem) v.elem
    else s2
  let s4 := s3.onDie d (fun x => x.onElem v.elem (fun el => { el with burst := max el.burst x.wakeBurst }))
  verifyDone s4 d

/-- A changed element passes its verification without a reading: a balanced cell (R137) that OFF does not leave undriven (R208). -/
def Elem.passesUnread (el : Elem) (e : Nat) : Bool := el.balanced e && decide (el.mode ≠ 3)

/-- The transition band of R137, dB. -/
def Die.transDb (x : Die) : Rat := ((x.rf Reg.HLD_TRANS F.HLD_TRANS_BAND : Nat) : Rat) / 100

/-- A conversion lies in the transition band of the power an element's monitor is to read (R137): for an input gate the incident power before
the deal at the new step; an element in OFF fails (R208). -/
def verifyPass (s : State) (d : DieId) (v : Verify) (raw : Nat) : Bool :=
  let x := s.die d
  let w : Rat := ((raw * rangeWeight ((s.bank (bankOf v.elem)).chan (chanOf v.elem)).store.range : Nat) : Rat)
  decide ((x.elem v.elem).mode ≠ 3) &&
    !offBand x.transDb (if isInGate v.elem then v.expect else predictUw x v.elem) (x.cal.uwOf v.elem w)

/-- The bank die makes a verification conversion: it goes into the store, and both ports hear whether it passed (R267, R274). -/
def verifyReads (s : State) (e raw : Nat) (pass : Bool) : State := sendBoth (converted s (bankOf e) (chanOf e) raw) (bankOf e) rVerify [e, b2n pass]

/-- VERIFY_CONVERSION: one urgent conversion of a changed element; a balanced cell passes without it; three failures in a row set the
transition-failure source. No conversion is made during a calibration or over a link that is down. The Declarer's verification counts; the
Dummy's leaves its burst. -/
def verifyConversion (d : DieId) (e raw : Nat) (s : State) : State :=
  let x := s.die d
  match x.dealer.verify.find? (fun v => v.elem = e) with
  | none => s
  | some v =>
    if x.now < v.notBefore then s
    else if !x.isDecl then
      s.onDie d (fun x => (x.onElem e (fun el => { el with burst := max el.burst x.wakeBurst })))
    else if (x.elem e).passesUnread e then mirrorDealer (verifyEnds s d v false 0) d
    else if (s.bank (bankOf e)).cal.isSome || !(s.bank (bankOf e)).up d then s
    else
      let pass := verifyPass s d v raw
      let s1 := verifyReads s e raw pass
      if pass then mirrorDealer (verifyEnds s1 d v false (v.fails + 1)) d
      else if 2 ≤ v.fails then mirrorDealer (verifyEnds s1 d v true 3) d
      else s1.onDie d (fun x => { x with dealer := { x.dealer with verify := x.dealer.verify.map (fun (w : Verify) =>
        if w.elem = e then { w with fails := w.fails + 1, notBefore := x.now + 8000 } else w) } })

def execVerifyConversion (die : DieId) (elem : Fin 5888) (raw : BitVec 14) (s : State) : Host.Outcome State Fault Refusal :=
  done (verifyConversion die elem.val raw.toNat s)

/-! ## The deal (R135) -/

/-- The deck side of a boundary that is dealt. -/
def deckFired (s : State) (d : DieId) (k : Nat) (dl : Deal) : State :=
  match (s.die d).decks.current with
  | none => s
  | some r =>
    if dl.change then deckChange s d dl.instant true
    else
      let stopHere := match r.stop with | some (k0, _, _) => decide (k0 = k) | none => false
      if stopHere then recompose (deckStopped s d k dl.instant) d dl.instant
      else
        let r1 : DeckRun := { r with dealt := some k, firedAt := dl.instant, pass := max r.pass (k + 1), state := .running }
        let s1 := s.onDie d (fun x => { x with decks := { x.decks with current := some r1 } })
        if r.state = .waiting then
          deckEvent (s1.onDie d (fun x => startAuto x r1)) d diStart r.slot (k / r.desc.epoch) dl.instant
        else s1

/-- The takes of a deal at its instant: Trump records, frames in flight, those still to be verified. -/
def takesFired (s : State) (d : DieId) (dl : Deal) : State :=
  dl.takes.foldl (fun s t =>
    let s1 := trumpLeave s t
    let s2 := if t.trump.isSome && t.whenF = 0 then
        let lat := instantNs dl.instant - t.frameEnd
        let x := s1.die d
        let s3 := shadowed s1 d (fun x => (x.count Reg.DLR_TRUMP_MAX F.DLR_TRUMP_MAX_COUNT).setRf Reg.DLR_TRUMP_MAX
          F.DLR_TRUMP_MAX_MAX_NS (max (x.rf Reg.DLR_TRUMP_MAX F.DLR_TRUMP_MAX_MAX_NS) (min 65535 lat)))
        if 1860 < lat && x.running then raise s3 d 11 else s3
      else s1
    if t.ackEarly then s2
    else s2.onDie d (fun x => { x with dealer := { x.dealer with dealtTakes := x.dealer.dealtTakes ++ [⟨t, dl.instant, 0⟩] } })) s

/-- Nothing of the stop of a thermal shutdown is left to do, on either die (R483, R484). -/
def stopDone (s : State) (classH : Bool) : State :=
  let mark (x : Die) : Die :=
    { x with thm := { x.thm with shutdown := x.thm.shutdown.map (fun (h : Shutdown) =>
        { h with done := true, classH := h.classH || classH }) } }
  (s.onDie .cd0 mark).onDie .cd1 mark

/-- The module's own deals as they fire: the gates are dark, RUN is done (R52, R172). -/
def kindFired (s : State) (d : DieId) (dl : Deal) : State :=
  match dl.kind with
  | .gatesDark => (if (s.die d).trans = .shutdown then stopDone s false else s).onDie d (fun x => match x.trans with
      | .goDark _ r => { x with trans := .goDark (some s.ticks) r }
      | _ => x)
  | .restore =>
    match (s.die d).trans with
    | .runDark base =>
      let s1 := s.onDie d (fun x => { x with trans := .none, dealer := { x.dealer with stopped := false } })
      setReqStatus (setBase s1 d base) d 1
    | _ => s
  | _ => s

/-- Flags of a DEAL record (R411). -/
def dealFlags (dl : Deal) : Nat :=
  b2n (!dl.takes.isEmpty) + 2 * b2n (match dl.kind with | .boundary _ => true | _ => false) +
    4 * b2n (match dl.kind with | .blank _ => true | _ => false) + 8 * b2n (match dl.kind with | .portCheck _ => true | _ => false)

/-- The deck hand a DEAL record names. -/
def dealHandNo (x : Die) (dl : Deal) : Nat :=
  match dl.kind, x.decks.current with
  | .boundary k, some r => if dl.change then (match x.decks.next with | some n => n.desc.handNo 0 | none => 0xFFFF) else r.desc.handNo k
  | _, _ => 0xFFFF

/-- The holder's blind context of a gate after a deal (R282). -/
def blindGate (s : State) (d : DieId) (g : Nat) : State :=
  let e := gateElem g
  if (s.bank (bankOf e)).up d then s.emit (.bank d (bankOf e) mBlindCtx [chanOf e, ((s.die d).elem e).step]) else s

/-- The strobes that follow a deal on a die: a MANUAL cell takes its new manual codes, and a heater moved by a thermal-only deal corrects its
neighbours (R196, R208). -/
def dealtLoops (s : State) (d : DieId) (dl : Deal) (cells : List Nat) : State :=
  cells.foldl (fun s c =>
    let s1 := if ((s.die d).elem c).mode = 1 then driveManual s d c else s
    if dl.thermal then refreshNeighbours s1 d c else s1) s

/-- What an input gate's monitor is to read after a deal (R137). -/
def dealExpect (x : Die) (dl : Deal) (e : Nat) : Rat :=
  if isInGate e then
    incidentUw x (e - 4864) (stepOf x.dealer.steps (e - 4864)) (x.elem e).lastW * x.cal.gateGain (e - 4864) (stepOf dl.steps (e - 4864))
  else 0

/-- A deal fires on the Declarer. -/
def fireDeal (s : State) (d : DieId) (dl : Deal) : State :=
  let x := s.die d
  let cells := changedCells x dl
  let gates := changedGates x dl
  let comp := x.dealer.comp.deal x dl
  let comp := match dl.kind with | .restore => { comp with deckHand := [] } | _ => comp
  let evict := comp.hand.2
  let hn := dealHandNo x dl
  -- the loops of both dies
  let loops (s : State) (d : DieId) : State := dealtLoops (s.onDie d (fun y => loopsAtDeal y dl cells gates s.ticks)) d dl cells
  let s1 := if (s.die d.peer).isDummy then loops (loops s d) d.peer else loops s d
  let s2 := gates.foldl (fun s g => blindGate s d g) (cells.foldl (fun s c => blindCell s d c) s1)
  -- what the hand is composed from, and the elements to verify
  let late := dl.instant + (if dl.thermal then 240000 else 400)
  let elems := cells ++ gates.map gateElem
  let vs : List Verify := elems.map (fun e =>
    ⟨e, dl.num, late, 0, dealExpect x dl e, (dl.takes.filter (fun t => !t.ackEarly && (takeElems dl t).contains e)).map (·.cmd)⟩)
  let s3 := s2.onDie d (fun x => { x with dealer := { x.dealer with
    static := comp.static, pins := comp.pins, pinned := comp.pinned, deckHand := comp.deckHand, part := comp.part,
    pending := x.dealer.pending.filter (fun e => e.num ≠ dl.num), last := dl.instant,
    notBefore := if x.dealer.notBefore ≤ dl.instant + i100ns then 0 else x.dealer.notBefore,
    verify := x.dealer.verify.filter (fun v => !elems.contains v.elem) ++ vs } })
  let s4 := shadowed s3 d (fun x =>
    ((((x.countMod Reg.DLR_DEAL_CNT F.DLR_DEAL_CNT_COUNT).setReg64 Reg.DLR_LAST_DEAL (instantNs dl.instant)).setRf
      Reg.DLR_LAST_FRAC F.DLR_LAST_FRAC_FRAC (dl.instant % 8 * 8192)).count Reg.DLR_EVICT_CNT F.DLR_EVICT_CNT_COUNT evict))
  let s5 := eventMirrored s4 d evDeal d.num (instant16 dl.instant)
    (leBytes 4 ((s4.die d).reg Reg.DLR_DEAL_CNT) ++ leBytes 1 (dealFlags dl) ++ [0] ++ leBytes 2 hn)
  let s6 := match dl.part with
    | some st => let s := partInForce (s5.onDie d (·.applyDealt dl)) d st
                 -- a transition under way takes no change of mode from it (R60)
                 if isWorking (s.die d).base && decide ((s.die d).trans = .none) then setBase s d (maskMode (s.die d).dealer.part) else s
    | none => s5
  -- a running DITHER_RUN stops for a target that the deal changes (R229)
  let s7 := elems.foldl (fun s e => ditherAbort s d e) s6
  let s8 := kindFired (takesFired s7 d dl) d dl
  let s9 := match dl.kind with | .boundary k => deckFired s8 d k dl | _ => s8
  -- port checks: the light at S, and a deal that changes a checked port (R326)
  let s9 := match dl.kind with
    | .portCheck p =>
      let shuts (c : PortCheck) : Bool := decide (dl.instant < nsInstant c.s + i100ns + 1)
      let f (c : PortCheck) : PortCheck := if c.port = p && shuts c && !s9.light.getLsbD p then { c with dark := true } else c
      s9.onDie d (fun y => { y with vsp := { y.vsp with
        checks := (y.vsp.checks.map f).filter (fun c => c.port ≠ p || shuts c || !c.agents.isEmpty) } })
    | _ => checksGone s9 d (fun p => gates.contains p || gates.contains (512 + p) ||
        decide (handAt x.dealer.hand p ≠ handAt (s9.die d).dealer.hand p))
  -- the engines of both dies work the elements it changes (R230); a balanced cell passes without a reading (R137), after a thermal deal
  -- once its verification begins
  let s10 := vs.foldl (fun s v =>
    let s1 := queueTask s d v.elem tTransition
    let s2 := if (s1.die d.peer).isDummy then queueTask s1 d.peer v.elem tTransition else s1
    if !dl.thermal && ((s2.die d).elem v.elem).passesUnread v.elem then verifyEnds s2 d v false 0 else s2) s9
  verifyDone s10 d

/-- What DEAL_FIRE does of itself: every bank die fires the preloads whose instant has come; the Declarer's earliest fixed deal takes effect. -/
def dealFire (s : State) : State :=
  let s0 := (List.range 8).foldl firePreloads s
  match s0.declarer with
  | none => s0
  | some d =>
    let x := s0.die d
    match x.dealer.pending.find? (fun dl => decide (dl.stage = .fixed)) with
    | none => s0
    | some dl =>
      if x.now < dl.instant then s0
      else mirrorDecks (mirrorDealer (fireDeal s0 d dl) d) d

end Sys2Proof.Machine
end

