-- ==== Sys2Proof/Machine/Decks.lean ====
section
/-!
DEFINITION. The deck commands (R156 to R166) as their checks and their commits, boundaries that deal nothing (R161, R167, R176), partitions
(R172), and late light (R168 to R171).
-/

namespace Sys2Proof.Machine

/-! ## Ranges in use (R158) -/

/-- Two ranges of hands, first and count, overlap. -/
def rangesMeet (f n g m : Nat) : Bool := decide (f < g + m) && decide (g < f + n)

/-- A manual deck's range meets a range. -/
def DeckDesc.meets (ds : DeckDesc) (f n : Nat) : Bool := !ds.auto && rangesMeet ds.first ds.count f n

/-- The current deck waits or runs. -/
def Decks.curLive (dk : Decks) : Option DeckRun :=
  match dk.current with
  | some r => if r.state = .finished then none else some r
  | none => none

/-- The commands in flight with an opcode, other than command `me`. -/
def Die.inFlight (x : Die) (op me : Nat) : List Cmd := x.cmds.filter (fun c => decide (dOpcode c.desc = op) && decide (c.id ≠ me))

/-- First hand and count of a DECK_LOAD. -/
def loadFirst (d : List Byte) : Nat := leAt d 16 2
def loadCount (d : List Byte) : Nat := leAt d 18 2

/-- The descriptor of a DECK_ARM. -/
def armDesc (d : List Byte) : DeckDesc := deckDesc (bytesAt d 24 32)

/-! ## DECK_LOAD (R157, R158) -/

/-- The status a DECK_LOAD is refused with before its data is read. -/
def deckLoadRefusal (x : Die) (d : List Byte) (me : Nat) : Option Nat :=
  let f := loadFirst d
  let n := loadCount d
  if f > 28671 || n = 0 || 4096 < n || 28672 < f + n || !zeroRange d 20 23 || !zeroRange d 40 63 || leAt d 24 8 % 64 ≠ 0 ||
      leAt d 32 8 % 4 ≠ 0 then some stInvalid
  else
    let held (o : Option DeckRun) : Bool := match o with | some r => r.desc.meets f n | none => false
    if held x.decks.current || held x.decks.next ||
        (x.inFlight 0x20 me).any (fun c => rangesMeet (loadFirst c.desc) (loadCount c.desc) f n) ||
        (x.inFlight 0x21 me).any (fun c => (armDesc c.desc).meets f n) then some stBusy
    else none

/-- The hands a DECK_LOAD read, and the trick lengths when it names some. -/
def loadedHand (data : List Byte) (i : Nat) : List (BitVec 16) :=
  (List.range 512).map (fun n => BitVec.ofNat 16 (leAt data (1024 * i + 2 * n) 2))
def loadedTlen (data : List Byte) (n i : Nat) : Nat := leAt data (1024 * n + 4 * i) 4

/-- A trick length in range (R152). -/
def tlenOk (w : Nat) : Bool := decide (125 ≤ w) && decide (w < 2 ^ 24)

/-- Every hand and trick length read is valid. -/
def deckDataOk (d data : List Byte) : Bool :=
  let n := loadCount d
  (List.range n).all (fun i =>
    let l := loadedHand data i
    l.all (fun e => !entBad e) && handValid (handOf l) && (leAt d 32 8 = 0 || tlenOk (loadedTlen data n i)))

/-- The bench set that is current for storing images: a pending one once its recomputation runs (R154). -/
def Cal.storeBench (c : Cal) : BenchSet := c.judged

/-- DECK_LOAD commits: hands, trick lengths and images. -/
def deckLoadCommit (s : State) (d : DieId) (c : Cmd) : State :=
  let f := loadFirst c.desc
  let n := loadCount c.desc
  let bench := (s.die d).cal.storeBench
  let s1 := s.onDie d (fun x =>
    let hands := (List.range n).foldl (fun hs i =>
      let h := handOf (loadedHand c.data i)
      let tl := if leAt c.desc 32 8 = 0 then (spGet StoredHand.unwritten (f + i) hs).tlen else loadedTlen c.data n i
      spSet StoredHand.unwritten (f + i) ⟨h, tl, route bench h, some bench.gen⟩ hs) x.decks.hands
    let done_ (p : BenchPend) : BenchPend := { p with left := p.left.filter (fun h => !(f ≤ h && h < f + n)) }
    let c := if x.cal.pend2.isSome then { x.cal with pend2 := x.cal.pend2.map done_ } else { x.cal with pend := x.cal.pend.map done_ }
    { x with decks := { x.decks with hands := hands }, cal := c })
  finish (mirrorDecks s1 d) d c.id (doneStatus s1 d 0x20 0) 0 0 0

/-! ## DECK_ARM (R156, R159, R160, R165) -/

/-- GRANT_LEAD in ns. -/
def Die.grantLead (x : Die) : Nat := 1000 * clampNat 3 1000 (x.rf Reg.DCK_PLAN_CFG F.DCK_PLAN_CFG_GRANT_LEAD)

/-- A deck descriptor that R156 allows. -/
def armDescOk (x : Die) (b : List Byte) : Bool :=
  let ds := deckDesc b
  deckDescOk b && decide (ds.late ≠ 3) && decide (leAt b 22 2 ≤ 1024) && (!ds.blank || decide (100 ≤ ds.guard_)) &&
  (if ds.auto then
    ds.first = 0 && ds.count = 0 && tlenOk ds.atrick && decide (ds.guard_ + 100 ≤ 8 * ds.atrick) &&
    decide (10000 + 300 * ds.epoch + x.grantLead ≤ 8 * ds.epoch * ds.atrick) &&
    !((match x.decks.current with | some r => r.desc.auto | none => false) ||
      (match x.decks.next with | some r => r.desc.auto | none => false))
  else
    ds.first ≤ 28671 && decide (1 ≤ ds.count) && decide (ds.first + ds.count ≤ 28672) && ds.atrick = 0 &&
    (List.range ds.count).all (fun i => decide (ds.guard_ + 100 ≤ 8 * (x.decks.hand (ds.first + i)).tlen)))

/-- A deck with AS_NEXT = 1 becomes the next one: a current deck waits or runs. -/
def armsNext (x : Die) (d : List Byte) : Bool := bitOf (leAt d 17 1) 0 && x.decks.curLive.isSome

/-- Origin and entry boundary of a deck armed as current at acceptance instant a, and whether it is late; none when it completes
with LATE (R165). After a backward step no instant before the limit of R96 is dealt. -/
def armPlan (x : Die) (ds : DeckDesc) (a : Nat) : Option (Nat × Nat × Bool) :=
  let lead := max (a + i2600ns) x.limit96
  if ds.start = 0 then some (lead, 0, false)
  else if lead ≤ ds.start then some (ds.start, 0, false)
  else if ds.late = 0 then none
  else if ds.late = 1 then
    let k := x.decks.bndFrom ds ds.start 0 lead
    if ds.ended k then none else some (ds.start, k, true)
  else some (lead, 0, true)

/-- The status a DECK_ARM is refused with. -/
def deckArmRefusal (x : Die) (d : List Byte) (me : Nat) : Option Nat :=
  let b := bytesAt d 24 32
  let slot := leAt d 16 1
  let holds (o : Option DeckRun) : Bool := match o with | some r => r.slot = slot | none => false
  if 64 ≤ slot || 2 ≤ leAt d 17 1 || !zeroRange d 18 23 || !zeroRange d 56 63 || !armDescOk x b then some stInvalid
  else
    let live := x.decks.curLive.isSome || (x.inFlight 0x21 me).any (fun c => !bitOf (leAt c.desc 17 1) 0)
    let asNext := bitOf (leAt d 17 1) 0
    if holds x.decks.current || holds x.decks.next || (x.inFlight 0x21 me).any (fun c => leAt c.desc 16 1 = slot) ||
        (live && !asNext) || (asNext && (x.decks.next.isSome || (x.inFlight 0x21 me).any (fun c => bitOf (leAt c.desc 17 1) 0))) ||
        (x.inFlight 0x20 me).any (fun c => (armDesc b).meets (loadFirst c.desc) (loadCount c.desc)) then some stBusy
    else none

/-- An armed deck before its first boundary. No blanking deal is dealt before the boundary it enters at, which closes no trick of it. -/
def newRun (slot : Nat) (ds : DeckDesc) (o k accepted : Nat) : DeckRun :=
  { slot := slot, desc := ds, state := .waiting, origin := o, k := k, blankK := k + 1, pass := k, entering := false, dealt := none,
    firedAt := 0, dealtAt := 0, accepted := accepted, stop := none, swap := none, resume := none }

/-- Where the next deck takes over as things stand (R166): the boundary of the current deck. -/
def Decks.switchK (dk : Decks) (r n : DeckRun) : Nat :=
  let k := r.desc.epochFrom (dk.bndFrom r.desc r.origin r.k (max n.desc.start (n.accepted + i2600ns)))
  match r.desc.endK with | some e => min k e | none => k

/-- DECK_ARM commits: the descriptor is written, the deck armed. -/
def deckArmCommit (s : State) (d : DieId) (c : Cmd) : State :=
  let x := s.die d
  let slot := leAt c.desc 16 1
  let b := bytesAt c.desc 24 32
  let ds := deckDesc b
  let write (y : Die) : Die := { y with decks := { y.decks with descs := spSet (List.replicate 32 0) slot b y.decks.descs } }
  match armsNext x c.desc, x.decks.curLive with
  | true, some r =>
    let n := newRun slot ds 0 0 c.v
    let o := x.decks.runBnd r (x.decks.switchK r n)
    let s1 := s.onDie d (fun x =>
      let y := write x
      boundAll { y with decks := { y.decks with next := some n } })
    finish (mirrorDealer (mirrorDecks s1 d) d) d c.id (doneStatus s1 d 0x21 0) (instantNs o) 0 0
  | _, _ =>
    match armPlan x ds c.v with
    | none => finish (countLate s d) d c.id stLate 0 0 0
    | some (o, k, late) =>
      let s0 := if late then countLate s d else s
      let s1 := s0.onDie d (fun x =>
        let y := write x
        boundAll { y with decks := { y.decks with current := some (newRun slot ds o k c.v) } })
      finish (mirrorDealer (mirrorDecks s1 d) d) d c.id (doneStatus s1 d 0x21 0) (instantNs o) 0 0

/-! ## DECK_STOP and DECK_SWAP (R161, R162) -/

/-- The status a DECK_STOP is refused with. -/
def deckStopRefusal (x : Die) (d : List Byte) : Option Nat :=
  let t := leAt d 16 1
  if 2 ≤ t || 4 ≤ leAt d 17 1 || !zeroRange d 18 63 || (t = 0 && x.decks.curLive.isNone) || (t = 1 && x.decks.next.isNone) then
    some stInvalid
  else none

/-- DECK_STOP commits. In BLIND HOLD, where no boundary is dealt, a stop of the current deck takes effect at once. The result of a
stop of the next deck, which takes effect at no boundary, is a free value. -/
def deckStopCommit (s : State) (d : DieId) (c : Cmd) : State :=
  let x := s.die d
  if leAt c.desc 16 1 = 1 then
    let s1 := disarmNext s d
    finish (mirrorDecks s1.drawn d) d c.id (doneStatus s1 d 0x22 0) (s1.free % 2 ^ 64) 0 0
  else match x.decks.live with
    | none => finish s d c.id stInvalid 0 0 0
    | some r =>
      let k0 := x.decks.bndFrom r.desc r.origin r.k (c.v + i2600ns)
      let k1 := if bitOf (leAt c.desc 17 1) 0 then r.desc.epochFrom k0 else k0
      let k2 := match r.desc.endK with | some e => min k1 e | none => k1
      let (k, cs) := match r.stop with | some (j, _, cs) => (min j k2, cs ++ [c.id]) | none => (k2, [c.id])
      let inst := x.decks.runBnd r k
      let s1 := s.onDie d (fun x =>
        let y := { x with decks := x.decks.setLive { r with stop := some (k, bitOf (leAt c.desc 17 1) 1, cs) } }
        (boundAll y).onCmd c.id (fun c => { c with stage := .waiting }))
      let s2 := if r.entering then s1 else disarmNext s1 d
      mirrorDealer (mirrorDecks (if x.base = mBlind then deckStopped s2 d k inst else s2) d) d

/-- The status a DECK_SWAP is refused with. -/
def deckSwapRefusal (x : Die) (d : List Byte) : Option Nat :=
  if 2 ≤ leAt d 16 1 || !zeroRange d 17 63 || x.decks.next.isNone then some stInvalid
  else match x.decks.running, x.decks.next with
    | some _, some n => if n.entering then some stBusy else none
    | _, _ => some stBusy

/-- DECK_SWAP commits. -/
def deckSwapCommit (s : State) (d : DieId) (c : Cmd) : State :=
  let x := s.die d
  match x.decks.current with
  | none => finish s d c.id stBusy 0 0 0
  | some r =>
    let k0 := x.decks.bndFrom r.desc r.origin r.k (c.v + i2600ns)
    let k1 := if bitOf (leAt c.desc 16 1) 0 then k0 else r.desc.epochFrom k0
    let k2 := match r.desc.endK with | some e => min k1 e | none => k1
    let (k, cs) := match r.swap with | some (j, cs) => (min j k2, cs ++ [c.id]) | none => (k2, [c.id])
    let s1 := s.onDie d (fun x =>
      let y := { x with decks := { x.decks with current := some { r with swap := some (k, cs) } } }
      (boundAll y).onCmd c.id (fun c => { c with stage := .waiting }))
    mirrorDealer (mirrorDecks s1 d) d

/-! ## Boundaries that deal nothing -/

/-- DECK_END_BOUNDARY: the next boundary to pass is reached and deals nothing (R161, R167, R176). -/
def deckEndBoundary (s : State) : State :=
  match s.declarer with
  | none => s
  | some d =>
    let x := s.die d
    match x.decks.current with
    | none => s
    | some r =>
      let k := r.pass
      let inst := x.decks.runBnd r k
      let act := bndAct x.decks r x.deckLevel k
      if r.state = .finished || x.now < inst || act.deals ||
          x.dealer.pending.any (fun dl => decide (dl.kind = .boundary k)) then s
      else
        let r1 := { r with pass := k + 1, k := max r.k (k + 1), blankK := max r.blankK (k + 1) }
        let s1 := s.onDie d (fun x => { x with decks := { x.decks with current := some r1 } })
        let s2 := match act with
          | .stay => deckStopped s1 d k inst
          | .fin => if r.stop.isSome then deckStopped s1 d k inst else s1.onDie d (fun x => applyAlone (dropBoundaries { x with decks := { x.decks with
              current := some { r1 with state := .finished } } }))
          | .changeQuiet => deckChange s1 d inst false
          | .skip => shadowed s1 d (·.count Reg.DCK_SKIP_CNT F.DCK_SKIP_CNT_COUNT)
          | _ => s1.onDie d (fun x => { x with decks := { x.decks with current := some { r1 with state := .running } } })
        mirrorDealer (mirrorDecks (if act = .stay || act = .fin then recompose s2 d inst else s2) d) d

def execDeckEndBoundary (s : State) : Host.Outcome State Fault Refusal := done (deckEndBoundary s)

/-! ## Partitions (R172) -/

/-- A partition set comes in force without a deal. -/
def partAtOnce (s : State) (d : DieId) (set : Nat) : State :=
  partInForce (s.onDie d (fun x =>
    let c := x.dealer.comp.partition (x.pmask set)
    { x with dealer := { x.dealer with part := c.part, static := c.static, pins := c.pins, pinned := c.pinned, applyPend := none } })) d set

/-- A pending deal brings the set of the pending APPLY in force, and not a starting deck's own. -/
def bringsApply (x : Die) (dl : Deal) : Bool :=
  decide (dl.kind = .partition) || (match x.dealer.applyPend with
    | some (set, lim) => decide (dl.part = some set) && decide (lim ≤ dl.instant) && !dl.change &&
        (match x.decks.current with | some r => r.dealt.isSome | none => false)
    | none => false)

/-- A second APPLY replaces a pending one: a deal of the first that can still be cancelled brings no set, and is none without takes. -/
def partReplace (s : State) (d : DieId) : State :=
  ((s.die d).dealer.pending.filter (fun dl => decide (dl.stage ≠ .fixed) && bringsApply (s.die d) dl)).foldl (fun s dl =>
    if dl.kind = .partition && dl.takes.isEmpty then cancelSent (s.onDie d (·.dropDeal dl.num)) d dl
    else
      let s1 := s.onDie d (fun x => { x with dealer := { x.dealer with pending := x.dealer.pending.map (fun (e : Deal) =>
        if e.num = dl.num then { e with part := none, kind := if e.kind = .partition then .takes else e.kind } else e) } })
      if dl.stage = .placed then s1 else composeAgain s1 d dl.num) s

/-- PART_APPLY: DCK_PART_CTRL.APPLY with its set (R172, R541). While a transition runs the set comes in force at once, without a deal and
without a change of mode (R60). -/
def partApply (d : DieId) (set : Nat) (s : State) : State :=
  let x := s.die d
  if !x.isDecl then s
  else
    let s1 := mirrorReg (s.setRf d Reg.DCK_PART_CTRL F.DCK_PART_CTRL_SET set) d Reg.DCK_PART_CTRL
    let works := isWorking x.base || x.base = mService
    if x.base = mDark || (works && decide (x.trans ≠ .none)) then mirrorDealer (partAtOnce (partReplace s1 d) d set) d
    else if works then
      let t := x.nowUp + i2600ns
      let s2 := (partReplace s1 d).onDie d (fun x =>
        let y : Die := { x with dealer := { x.dealer with applyPend := some (set, t) } }
        if y.decks.running.isSome then y else placePartition y set t)
      mirrorDealer s2 d
    else s1

def execPartApply (die : DieId) (set : Fin 4) (s : State) : Host.Outcome State Fault Refusal :=
  doneBar die (partApply die set.val) s

/-! ## Late light (R168 to R171) -/

/-- The agent granted a trick to an output, or 0xFFFF (R413). -/
def Die.grantee (x : Die) (r : DeckRun) (epoch trick out : Nat) : Nat :=
  if r.desc.auto then
    match (x.planner.planned.filter (fun p => p.1 = epoch)).findSome? (fun p => p.2.find? (fun g => g.trick = trick && g.out = out)) with
    | some g => g.agent
    | none => 0xFFFF
  else 0xFFFF

/-- LATE_LIGHT: an input's light in the observation window of the guard that is open, counted once a guard. -/
def lateLight (i : Nat) (s : State) : State :=
  match s.declarer with
  | none => s
  | some d =>
    let x := s.die d
    match x.decks.running with
    | none => s
    | some r =>
      let k := x.decks.bndFrom r.desc r.origin r.pass (x.now + 1)
      let inst := match x.dealer.pending.find? (fun dl => decide (dl.kind = .boundary k)) with
        | some dl => dl.instant
        | none => x.decks.runBnd r k
      let opens := inst - 8 * r.desc.guard_ + (if r.desc.blank then 400 else 160)
      let after := (({ x.dealer.comp with deckHand := deckHandAfter x r k } : Comp).hand).1
      let old := match x.decks.guards.find? (fun g => g.closes = inst) with | some g => g.watch | none => []
      match (watched x x.dealer.hand after).find? (fun w => w.1 = i) with
      | none => s
      | some w =>
        if x.now < opens || old.any (fun v => v.1 = i) then s
        else
          let epoch := (k - 1) / r.desc.epoch
          let trick := (k - 1) % r.desc.epoch
          let g : Guard := ⟨inst, opens, r.desc.blank, old ++ [w], epoch, trick⟩
          let s1 := ({ s with light := s.light ||| maskBit i } : State).onDie d (fun x => { x with decks := { x.decks with
            guards := x.decks.guards.filter (fun (h : Guard) => decide (x.now < h.closes) && decide (h.closes ≠ inst)) ++ [g],
            late := spSet 0 i (satAdd 32 (spGet 0 i x.decks.late) 1) x.decks.late } })
          let s2 := raise (shadowed s1 d (·.count Reg.DCK_LL_TOTAL F.DCK_LL_TOTAL_COUNT)) d 1
          let body := leBytes 8 (instantNs inst) ++ leBytes 2 i ++ leBytes 2 w.2 ++ leBytes 2 (x.grantee r epoch trick w.2) ++
            leBytes 1 (b2n r.desc.blank) ++ [0] ++ leBytes 4 epoch ++ leBytes 2 trick ++ [0, 0]
          let s3 := (List.range 4).foldl (fun s f => (((s.die d).fn f).subs.filter (fun u => u.ttype = 3)).foldl
            (fun s u => telem s d f 3 u.id 24 body) s) s2
          mirrorDecks s3 d

def execLateLight (input : Fin 512) (s : State) : Host.Outcome State Fault Refusal := done (lateLight input.val s)

end Sys2Proof.Machine
end

