-- ==== Sys2Proof/Machine/Planner.lean ====
section
/-!
DEFINITION. The planner of the automatic deck (R178 to R186).
-/

namespace Sys2Proof.Machine

/-! ## Demand (R180) -/

/-- What an agent still needs: agent, input, output, class, tricks. -/
structure Need where
  agent : Nat
  input : Nat
  out : Nat
  cls : Nat
  n : Nat
deriving DecidableEq, Repr

/-- Tricks for a demand in bytes at a rate, of tricks with `ns` usable ns, capped at E. A trick without capacity caps at E. -/
def tricksFor (bytes rate ns e : Nat) : Nat :=
  if bytes = 0 then 0
  else if ns * rate = 0 then e
  else min e ((bytes * 8000000000 + ns * rate - 1) / (ns * rate))

/-- The needs a Bid states. -/
def bidNeeds (ds : DeckDesc) (b : Bid) : List Need :=
  let ns := 8 * ds.atrick - ds.guard_ - 100
  b.entries.map (fun e => ⟨b.agent, b.input, e.out, e.cls, tricksFor (min e.bytes (2 ^ 32 - 1)) b.rate ns ds.epoch⟩)

/-- A pair (i, j) as a key, and with a class. -/
def pairKey (i j : Nat) : Nat := i * 512 + j
def needKey (c i j : Nat) : Nat := c * 262144 + pairKey i j

/-- r_c(i, j): the needs of a class and pair, capped at E. -/
def needTab (e : Nat) (l : List Need) : Sparse Nat :=
  l.foldl (fun t n => let k := needKey n.cls n.input n.out; spSet 0 k (min e (spGet 0 k t + n.n)) t) []

/-- CLASSW_c. -/
def Die.classW (x : Die) (c : Nat) : Nat :=
  bitsOf (if c < 4 then x.reg Reg.DCK_CLASSW0 else x.reg Reg.DCK_CLASSW1) (8 * (c % 4) + 7) (8 * (c % 4))

/-- A planning of an epoch that starts now, with the settings it uses throughout (R181). -/
def Die.planOf (x : Die) (e now : Nat) : Planning :=
  ⟨e, now, (List.range 8).map x.classW, x.rf Reg.DCK_PLAN_CFG F.DCK_PLAN_CFG_CREDIT_MAX⟩

/-- The weight of a pair. -/
def pairWeight (w : Nat → Nat) (cr r : Sparse Nat) (p : Nat) : Nat :=
  spGet 0 p cr + (List.range 8).foldl (fun a c => a + w c * spGet 0 (c * 262144 + p) r) 0

/-- The pairs with some need left, ascending. -/
def pairsLeft (r : Sparse Nat) : List Nat := (r.foldl (fun (t : Sparse Unit) e => spPut (e.1 % 262144) () t) []).map (·.1)

/-! ## Matching (R181, R182) -/

/-- Order of candidates: weight, then rotation key of the input, then the output. -/
structure Cand where
  w : Nat
  rotKey : Nat
  i : Nat
  j : Nat
deriving DecidableEq, Repr

def Cand.before (a b : Cand) : Bool :=
  decide (b.w < a.w) || (a.w = b.w && (decide (a.rotKey < b.rotKey) || (a.rotKey = b.rotKey && decide (a.j < b.j))))

def insertCand (c : Cand) : List Cand → List Cand
  | [] => [c]
  | d :: l => if c.before d then c :: d :: l else d :: insertCand c l

/-- What one trick's matching carries on. -/
structure Match where
  hand : Hand
  r : Sparse Nat
  needs : List Need
  grants : List Grant
deriving DecidableEq, Repr

/-- The agent that gets a trick of a pair in a class: the largest need left, the lowest ID on a tie (R182). -/
def winner (l : List Need) (i j c : Nat) : Option Need :=
  (l.filter (fun n => n.input = i && n.out = j && n.cls = c && decide (0 < n.n))).foldl (fun a n => match a with
    | none => some n
    | some m => if m.n < n.n || (m.n = n.n && n.agent < m.agent) then some n else some m) none

/-- An output entry the planner writes: V = 1, D = 0, GSTEP = 0. -/
def litEntry (i : Nat) : BitVec 16 := BitVec.ofNat 16 (32768 + i)

/-- One candidate in its turn. -/
def matchCand (e t : Nat) (m : Match) (c : Cand) : Match :=
  if entV (handAt m.hand c.j) || (namedInputs m.hand).contains c.i then m
  else
    match (List.range 8).reverse.find? (fun k => decide (0 < spGet 0 (needKey k c.i c.j) m.r)) with
    | none => m
    | some k =>
      let key := needKey k c.i c.j
      let r := spSet 0 key (spGet 0 key m.r - 1) m.r
      let hand := handSet m.hand c.j (litEntry c.i)
      match winner m.needs c.i c.j k with
      | none => { m with hand := hand, r := r }
      | some w =>
        { hand := hand, r := r, needs := m.needs.map (fun n => if n = w then { n with n := n.n - 1 } else n),
          grants := m.grants ++ [⟨e, t, w.agent, c.i, c.j, k⟩] }

/-- The matching of trick t of epoch e. -/
def matchTrick (w : Nat → Nat) (cr : Sparse Nat) (len e t : Nat) (m : Match) : Match :=
  let rot := (e * len + t) % 512
  let cands := (pairsLeft m.r).foldl (fun l p =>
    insertCand ⟨pairWeight w cr m.r p, (p / 512 + 512 - rot) % 512, p / 512, p % 512⟩ l) []
  cands.foldl (matchCand e t) { m with hand := [] }

/-- The hands of an epoch in trick order, the grants, and the needs left. -/
def planTricks (w : Nat → Nat) (cr : Sparse Nat) (len e : Nat) : Nat → Match → List Hand → List Hand × Match
  | 0, m, hs => (hs, m)
  | n + 1, m, hs =>
    let m1 := matchTrick w cr len e (len - (n + 1)) m
    planTricks w cr len e n m1 (hs ++ [m1.hand])

/-- The credits after a planning. -/
def creditsAfter (maxC : Nat) (cr r : Sparse Nat) : Sparse Nat :=
  (pairsLeft r).foldl (fun t p =>
    spSet 0 p (min maxC (spGet 0 p cr + (List.range 8).foldl (fun a c => a + spGet 0 (c * 262144 + p) r) 0)) t) []

/-! ## Meanings (R183 to R185) -/

/-- The epoch that begins at the last boundary passed of the running automatic deck. -/
def autoEpoch (x : Die) : Option (DeckRun × Nat) :=
  match x.decks.running with
  | some r => if r.desc.auto then some (r, (r.pass - 1) / r.desc.epoch) else none
  | none => none

/-- What the planning of an epoch yields: the hands in trick order, the grants and the needs left. Outputs that are static by now get no
light and no grant (R183). -/
def planEpoch (x : Die) (r : DeckRun) (p : Planning) : List Hand × Match :=
  let len := r.desc.epoch
  let needs := ((x.planner.bids.filter (fun b => b.epoch + 2 = p.epoch)).flatMap (bidNeeds r.desc)).filter (fun n => x.dealer.part.getLsbD n.out)
  planTricks (fun c => p.weights.getD c 0) x.planner.credits len p.epoch len ⟨[], needTab len needs, needs, []⟩ []

/-- The bench set the hands of an epoch are routed against: the one in force at its first deal (R87, R183). -/
def planBench (x : Die) (r : DeckRun) (e : Nat) : BenchSet := (x.calAt (x.decks.runBnd r (e * r.desc.epoch))).bench

/-- The tasks of an epoch's planning leave the planner engines (R188). -/
def planRouted (x : Die) (e : Nat) : Die :=
  x.onRouters (·.drop (fun t => match t with | .hand f _ => decide (f = e) | .matching f => decide (f = e) | _ => false))

/-- A planning is abandoned: no grants, every slotted output unassigned. -/
def planAbandon (s : State) (d : DieId) (r : DeckRun) (e : Nat) : State :=
  let s1 := s.onDie d (fun x => planRouted { x with planner := { x.planner with planning := none, upTo := e + 1 } } e)
  let s2 := raise (shadowed s1 d (·.count Reg.DCK_PLAN_OVR_CNT F.DCK_PLAN_OVR_CNT_COUNT)) d 2
  mirrorPlanner (deckEvent s2 d diEpochVoid r.slot e ((s.die d).decks.runBnd r (e * r.desc.epoch))) d

/-- PLANNING_START: the boundary that ends epoch n has passed; epoch n + 2 is planned, or under T3 at once overrun. -/
def planningStart (s : State) : State :=
  match s.serving with
  | none => s
  | some d =>
    let x := s.die d
    match autoEpoch x with
    | none => s
    | some (r, e0) =>
      if e0 = 0 || e0 + 1 < x.planner.upTo || x.planner.planning.isSome || r.desc.ended ((e0 + 1) * r.desc.epoch) then s
      else if 3 ≤ x.thm.level then planAbandon s d r (e0 + 1)
      else mirrorPlanner (s.onDie d (fun x => ({ x with planner := { x.planner with
        planning := some (x.planOf (e0 + 1) s.ticks) } } : Die).onRouters (·.submit (.matching (e0 + 1))))) d

def execPlanningStart (s : State) : Host.Outcome State Fault Refusal := done (planningStart s)

/-- Splits a list into parts of 85. -/
def parts85 : Nat → List (Nat × Nat × Nat × Nat) → List (List (Nat × Nat × Nat × Nat))
  | 0, _ => []
  | n + 1, l => if l.length ≤ 85 then [l] else l.take 85 :: parts85 n (l.drop 85)

/-- The GRANT parts of one agent (R330). -/
def sendGrants (s : State) (d : DieId) (r : DeckRun) (e : Nat) (gs : List Grant) (a : Agent) : State :=
  let mine := (gs.filter (fun g => g.agent = a.id)).map (fun g =>
    ((s.die d).decks.runBnd r (e * r.desc.epoch + g.trick), g.out, g.trick, g.cls))
  if mine.isEmpty then s
  else
    let ps := parts85 16 mine
    (ps.zipIdx).foldl (fun s p =>
      let body := beBytes 4 e ++ beBytes 2 p.2 ++ beBytes 2 mine.length ++ beBytes 4 r.desc.atrick ++ beBytes 2 r.desc.guard_ ++
        beBytes 2 p.1.length ++ p.1.flatMap (fun g => beBytes 8 (instantNs g.1) ++ beBytes 2 (g.1 % 8 * 8192) ++ beBytes 2 g.2.1 ++
          beBytes 2 g.2.2.1 ++ beBytes 1 g.2.2.2 ++ [0])
      sendAgent s d a.id vtGrant (b2n (p.2 + 1 < ps.length)) ⟨a.maxClass, none, false, false⟩ body) s

/-- The hands of an epoch are written with their images, the credits and grants follow; the routing of the hands comes after the matching
(R183, R188). -/
def planWrite (x : Die) (r : DeckRun) (p : Planning) : Die :=
  let (hands, m) := planEpoch x r p
  let bench := planBench x r p.epoch
  let hs := (hands.zipIdx).foldl (fun hs h => spSet StoredHand.unwritten (28672 + 1024 * (p.epoch % 4) + h.2)
    ⟨h.1, r.desc.atrick, route bench h.1, some bench.gen⟩ hs) x.decks.hands
  planRouted ({ x with decks := { x.decks with hands := hs },
                       planner := { credits := creditsAfter p.creditMax x.planner.credits m.r,
                                    bids := x.planner.bids.filter (fun b => decide (p.epoch < b.epoch + 2)), planning := none,
                                    planned := (x.planner.planned.filter (fun q => decide (p.epoch < q.1 + 4))) ++ [(p.epoch, m.grants)],
                                    upTo := p.epoch + 1 } } : Die) p.epoch

/-- PLANNING_DONE: hands, credits, grants, the planning time; under T3 the epoch is overrun. -/
def planningDone (s : State) : State :=
  match s.declarer with
  | none => s
  | some d =>
    let x := s.die d
    match x.planner.planning, autoEpoch x with
    | some p, some (r, _) =>
      if x.decks.runBnd r (p.epoch * r.desc.epoch) < x.now + 8 * x.grantLead then s
      else if 3 ≤ x.thm.level then planAbandon s d r p.epoch
      else
        let grants := (planEpoch x r p).2.grants
        let bids := (x.planner.bids.filter (fun b => b.epoch + 2 = p.epoch)).length
        let us := min 65535 ((s.ticks - p.since) / 100)
        let s1 := s.onDie d (planWrite · r p)
        let s2 := shadowed s1 d (fun x => ((x.setRf Reg.DCK_PLAN_TIME F.DCK_PLAN_TIME_LAST us).setRf Reg.DCK_PLAN_TIME
          F.DCK_PLAN_TIME_MAX (max us (x.rf Reg.DCK_PLAN_TIME F.DCK_PLAN_TIME_MAX))).count Reg.DCK_BID_CNT F.DCK_BID_CNT_COUNT bids)
        let s3 := (s2.die d).vsp.agents.foldl (fun s a => sendGrants s d r p.epoch grants a) s2
        mirrorVsp (mirrorPlanner (mirrorDecks s3 d) d) d
    | _, _ => s

def execPlanningDone (s : State) : Host.Outcome State Fault Refusal := done (planningDone s)

/-- A planning under way is overrun once T3 begins (R184). -/
def planOverrun (s : State) (d : DieId) : State :=
  match (s.die d).planner.planning, autoEpoch (s.die d) with
  | some p, some (r, _) => if 3 ≤ (s.die d).thm.level then planAbandon s d r p.epoch else s
  | _, _ => s

/-- PLANNING_DEADLINE: GRANT_LEAD before its epoch begins an unfinished planning is abandoned. -/
def planningDeadline (s : State) : State :=
  match s.declarer with
  | none => s
  | some d =>
    let x := s.die d
    match x.planner.planning, autoEpoch x with
    | some p, some (r, _) =>
      if x.decks.runBnd r (p.epoch * r.desc.epoch) < x.now + 8 * x.grantLead then planAbandon s d r p.epoch else s
    | _, _ => s

def execPlanningDeadline (s : State) : Host.Outcome State Fault Refusal := done (planningDeadline s)

end Sys2Proof.Machine
end

