-- ==== Sys2Proof/Machine/Engines.lean ====
section
/-!
DEFINITION. The hold engines (chapter 07): dispatch and stealing, the microword, faults and fencing, self-test, patches.
-/

namespace Sys2Proof.Machine

/-- The engines of a die run: from its boot on. -/
def Die.enginesRun (x : Die) : Bool := match x.life with | .held _ _ => false | _ => true

/-! ## Taking work (R233, R237) -/

/-- The place of the oldest task of the highest priority in a deque, of those that may be taken. -/
def bestHead (l : List Task) : Option Task :=
  l.foldl (fun a t => match a with | none => some t | some b => if t.prio < b.prio then some t else a) none

/-- The youngest task of the highest priority in a deque that a thief may take. -/
def bestTail (l : List Task) : Option Task :=
  (l.filter (fun t => decide (t.type ≠ tSelftest))).foldl (fun a t => match a with
    | none => some t
    | some b => if t.prio ≤ b.prio then some t else a) none

/-- Of some engines, the one a thief takes from: the highest priority, then the most entries, then the lowest number. -/
def victim (g : Engines) (l : List Nat) : Option (Nat × Task) :=
  l.foldl (fun a e => match bestTail (g.engine e).deque, a with
    | none, a => a
    | some t, none => some (e, t)
    | some t, some (f, u) => if t.prio < u.prio || (t.prio = u.prio && g.entries f < g.entries e) then some (e, t) else some (f, u)) none

/-- Which task an engine takes: the engine that holds it, the task, and 0 own, 1 stolen in the cluster, 2 across. -/
def Engines.choose (g : Engines) (e : Nat) : Option (Nat × Task × Nat) :=
  match bestHead (g.engine e).deque with
  | some t => some (e, t, 0)
  | none =>
    let c := e / 8
    match victim g ((clusterEngines c).filter (fun f => f ≠ e)) with
    | some (f, t) => some (f, t, 1)
    | none =>
      let best := (clustersFrom c).foldl (fun (a : Option (Nat × Task)) k => match victim g (clusterEngines k), a with
        | none, a => a
        | some v, none => some v
        | some v, some w => if v.2.prio < w.2.prio then some v else some w) none
      best.map (fun p => (p.1, p.2, 2))

/-- Removes one task from a deque. -/
def Engines.take (g : Engines) (e : Nat) (t : Task) : Engines := g.onEngine e (fun n => { n with deque := n.deque.erase t })

/-- What an engine is when it has dispatched a task: at its dispatch word, or where WAIT saved it. -/
def Engine.start (n : Engine) (t : Task) (active ticks : Nat) : Engine :=
  let t1 : Task := { t with bank := some (t.bank.getD active), parked := none }
  let base : Engine := { n with state := 1, running := some t1, merged := none, sliceAt := ticks, tasks := (n.tasks + 1) % 65536,
                                strobed := false, elem := t.elem, bank := t.bank.getD active,
                                testing := if t.type = tSelftest then some ticks else none }
  match t.parked with
  | some p => { base with pc := p.pc, stack := p.stack, regs := p.regs }
  | none => { base with pc := ⟨t.type, false⟩, stack := [] }

/-! ## Faults and fences (R241, R247) -/

/-- An engine is fenced: its task, with the cause recorded for it, and its deque move to the other engines of its cluster, or spill. -/
def fenceEngine (s : State) (d : DieId) (e cause : Nat) : State :=
  let n := (s.die d).eng.engine e
  if n.state = 3 then s
  else
    let moved := ((match n.running with | some t => [{ t.withCause n.merged with parked := none }] | none => []) ++ n.deque).filter
      (fun (t : Task) => decide (t.type ≠ tSelftest))
    let s1 := s.onDie d (·.onEng (·.onEngine e (fun n =>
      { n with state := 3, fenceCause := cause, running := none, merged := none, deque := [], testing := none, fenceReq := false })))
    moved.foldl (fun s t => placeIn s d (e / 8) t) (raise s1 d 3)

/-- DISPATCH: the engine takes a task under R233, or halts until one is ready; one asked to be fenced is fenced now. -/
def dispatchOnce (s : State) (d : DieId) (e : Nat) : State × Bool :=
  let g := (s.die d).eng
  let n := g.engine e
  if n.fenceReq then (fenceEngine s d e 3, false)
  else match g.choose e with
    | none => (s.onDie d (·.onEng (·.onEngine e (fun n => { n with state := 0, running := none, stack := [] }))), false)
    | some (f, t, how) =>
      let s1 := s.onDie d (·.onEng (fun g => (g.take f t).onEngine e (fun n => n.start t g.active s.ticks)))
      let s2 := if how = 1 then s1.count d Reg.UCS_STEAL_CNT F.UCS_STEAL_CNT_LOCAL
        else if how = 2 then s1.count d Reg.UCS_STEAL_CNT F.UCS_STEAL_CNT_CROSS else s1
      (s2, decide (6 ≤ t.type))

/-- A microcode fault: recorded and counted, the task requeued (a SELFTEST on its own engine), the engine reinitialised; three within 1 s fence it. Whether it goes
on to dispatch. -/
def faultOnce (s : State) (d : DieId) (e cause : Nat) : State × Bool :=
  let n := (s.die d).eng.engine e
  let faults := n.faults.filter (fun t => decide (s.ticks < t + secT)) ++ [s.ticks]
  let fresh : Engine := { Engine.reset with faultCause := cause, faultPc := n.pc, defer := n.defer, faults := faults,
                                            tasks := n.tasks, lastTest := n.lastTest, fenceReq := n.fenceReq,
                                            deque := match n.running with
                                              | some t => if t.type = tSelftest then n.deque ++ [{ t with parked := none }] else n.deque
                                              | none => n.deque }
  let s1 := s.onDie d (fun x => (x.onEng (·.setEngine e fresh)).count Reg.UCS_MFAULT_CNT F.UCS_MFAULT_CNT_FAULTS)
  let s2 := match n.running with
    | some t => if t.type = tSelftest then s1 else placeTask s1 d { t.withCause n.merged with parked := none }
    | none => s1
  let s3 := raise s2 d 4 d.num
  if 3 ≤ faults.length then (fenceEngine s3 d e 2, false) else (s3, true)

/-- DISPATCH with the fault a reserved task type gives (R230, R247); three faults fence the engine, so it ends. -/
def dispatchN : Nat → State → DieId → Nat → State
  | 0, s, _, _ => s
  | k + 1, s, d, e =>
    match dispatchOnce s d e with
    | (s1, false) => s1
    | (s1, true) =>
      match faultOnce s1 d e 1 with
      | (s2, false) => s2
      | (s2, true) => dispatchN k s2 d e

def dispatchEng (s : State) (d : DieId) (e : Nat) : State := dispatchN 4 s d e

/-- A microcode fault and the DISPATCH after it. -/
def microFault (s : State) (d : DieId) (e cause : Nat) : State :=
  match faultOnce s d e cause with
  | (s1, true) => dispatchEng s1 d e
  | (s1, false) => s1

/-! ## The microword (R248, R249) -/

/-- The fields of a microword. -/
structure Micro where
  next : Nat
  seq : Nat
  cond : Nat
  cyc : Nat
  cinv : Bool
  alu : Nat
  srcA : Nat
  srcB : Nat
  dst : Nat
  sat : Bool
  exp : Nat
  stage : Nat
  acc : Nat
  dac : Nat
  dacX2 : Bool
  strobe : Nat
  fire : Bool
  tq : Nat
  tqType : Nat
  mem : Nat
  memAddr : Nat
  imm : Nat
  naPatch : Bool
  res : Nat
deriving DecidableEq, Repr

def microOf (w : BitVec 128) : Micro :=
  let n := w.toNat
  { next := bitsOf n 127 114, seq := bitsOf n 113 111, cond := bitsOf n 110 106, cyc := bitsOf n 105 104, cinv := bitOf n 103,
    alu := bitsOf n 102 98, srcA := bitsOf n 97 94, srcB := bitsOf n 93 90, dst := bitsOf n 89 86, sat := bitOf n 85,
    exp := bitsOf n 84 82, stage := bitsOf n 81 79, acc := bitsOf n 78 76, dac := bitsOf n 75 74, dacX2 := bitOf n 73,
    strobe := bitsOf n 72 69, fire := bitOf n 68, tq := bitsOf n 67 65, tqType := bitsOf n 64 62, mem := bitsOf n 61 59,
    memAddr := bitsOf n 58 48, imm := bitsOf n 47 16, naPatch := bitOf n 15, res := bitsOf n 14 0 }

/-- A field holds a reserved code (R248, R249). -/
def Micro.reserved (m : Micro) : Bool :=
  m.seq = 7 || decide (18 ≤ m.cond) || decide (21 ≤ m.alu) || (8 ≤ m.dst && m.dst ≤ 11) || decide (5 ≤ m.exp) ||
  decide (6 ≤ m.stage) || decide (6 ≤ m.acc) || (m.fire && (m.strobe = 0 || m.strobe = 15)) || decide (5 ≤ m.tq) ||
  decide (6 ≤ m.mem) || decide (m.res ≠ 0) || (m.naPatch && decide (256 ≤ m.next))

/-- Minimum cycles of an ALU and of an exponent operation. -/
def aluCycles (a : Nat) : Nat := if a = 4 || a = 5 then 2 else if a = 6 || a = 17 then 4 else if a = 18 then 3 else 1
def expCycles (e : Nat) : Nat := if e = 1 then 2 else 1

/-- The cycle length is shorter than its operations need (R246). -/
def Micro.short (m : Micro) : Bool := decide (m.cyc + 1 < max (aluCycles m.alu) (expCycles m.exp))

/-- The fault a microword gives at decode, if any: 1 reserved code, 3 cycle length. -/
def Micro.fault (m : Micro) : Option Nat := if m.reserved then some 1 else if m.short then some 3 else none

/-! ## The datapath -/

def w48 (i : Int) : Nat := codeOf 48 i
def s48 (n : Nat) : Int := signedOf 48 n

/-- An operand (R249); `b` is the B side. -/
def Engine.src (n : Engine) (x : Die) (m : Micro) (b : Bool) (k : Nat) : Nat :=
  if k < 8 then n.regs.getD k 0
  else if k = 8 then n.accSum % 2 ^ 48
  else if k = 9 then n.accCount
  else if k = 10 then (if b then n.accMax else n.accMin)
  else if k = 11 then w48 (signedOf 32 m.imm)
  else if k = 12 then w48 n.stA
  else if k = 13 then w48 n.stB
  else if k = 14 then (match x.thm.fabricTemp with
    | some t => w48 (roundRat (2 * t))
    | none => Config.loopMem 14 0 0 % 2 ^ 48)
  else x.ns % 2 ^ 32

/-- What DST holds before the word. -/
def Engine.dstOld (n : Engine) (k : Nat) : Nat :=
  if k < 8 then n.regs.getD k 0 else if k = 12 then w48 n.stA else if k = 13 then w48 n.stB else if k = 14 then n.latch else 0

/-- Upper limit of a DAC range. -/
def dacTop (d : Nat) : Int := if d = 1 then 131071 else if d = 2 then 4095 else if d = 3 then 16383 else 2 ^ 47 - 1

/-- A number of Q16 to the nearest integer, ties away from zero. -/
def roundQ16 (a : Int) : Int := roundRat ((a : Rat) / 65536)

/-- The exact result of an ALU operation on its operands, before it is narrowed to 48 bits (R249; log entry 12). -/
def aluExact (n : Engine) (m : Micro) (a b : Nat) : Int :=
  let x := s48 a
  let y := s48 b
  match m.alu with
  | 1 => x
  | 2 => x + y
  | 3 => x - y
  | 4 => x * y
  | 5 => s48 (n.dstOld m.dst) + x * y
  | 6 => if y = 0 then s48 (Config.divCorner a b) else x.tdiv y
  | 7 => s48 (Nat.land a b)
  | 8 => s48 (Nat.lor a b)
  | 9 => s48 (Nat.xor a b)
  | 10 => x * 2 ^ (b % 64)
  | 11 => x.fdiv (2 ^ (b % 64))
  | 12 => x.natAbs
  | 13 => -x
  | 14 => max x y
  | 15 => min x y
  | 16 => x - y
  | 17 => s48 (Config.log10Q16 a)
  | 18 => s48 (Config.interp n.calPair b)
  | 19 => roundQ16 x
  | 20 => clampInt 0 (dacTop m.dac) x
  | _ => s48 (n.dstOld m.dst)

/-- Carry out of an addition, borrow of a subtraction, on the unsigned operands. -/
def aluCarry (m : Micro) (a b : Nat) : Bool :=
  if m.alu = 2 then decide (2 ^ 48 ≤ a + b) else if m.alu = 3 || m.alu = 16 then decide (a < b) else false

/-- The result narrowed, and whether it was saturated. -/
def narrow48 (sat : Bool) (v : Int) : Nat × Bool :=
  if sat && decide (v < -(2 ^ 47)) then (2 ^ 47, true)
  else if sat && decide (2 ^ 47 - 1 < v) then (2 ^ 47 - 1, true)
  else (w48 v, false)

/-- Writes DST. -/
def Engine.put (n : Engine) (k v : Nat) : Engine :=
  if k < 8 then { n with regs := n.regs.setIfInBounds k v }
  else if k = 12 then { n with stA := s48 v }
  else if k = 13 then { n with stB := s48 v }
  else if k = 14 then { n with latch := v }
  else n

/-- The word a load of MEM_OP delivers (R249, log entries 12 and 112): the element's stored words, a neighbour's phase position, the HLD
register at a word offset; what the manual does not lay out is a free value. -/
def memLoad (x : Die) (el ticks : Nat) (m : Micro) : Nat :=
  if m.mem = 1 then (spFind (el * 2048 + m.memAddr) x.eng.words).getD (Config.loopMem 1 el m.memAddr % 2 ^ 48)
  else if m.mem = 4 then
    match (x.cal.tab el).nbr[m.memAddr]? with
    | some nb => phasePos (heaterPhi (x.elem nb.1) ticks)
    | none => Config.loopMem 4 el m.memAddr % 2 ^ 48
  else if m.mem = 5 then x.reg (Reg.HLD_STATUS + 4 * m.memAddr)
  else Config.loopMem m.mem el m.memAddr % 2 ^ 48

/-- The ALU, flags and MEM_OP of a word. With ALU NOP a load's word goes to DST (log entry 12). -/
def Engine.compute (n : Engine) (x : Die) (el ticks : Nat) (m : Micro) : Engine :=
  let a := n.src x m false m.srcA
  let b := n.src x m true m.srcB
  let n1 : Engine :=
    if m.alu = 0 then n
    else
      let (v, sat) := narrow48 m.sat (aluExact n m a b)
      let f : Engine := { n with zero := decide (v = 0), neg := decide (2 ^ 47 ≤ v), carry := aluCarry m a b, sat := n.sat || sat }
      if m.alu = 16 then f else f.put m.dst v
  let n2 := if m.mem = 3 then
      { n1 with calPair := (s48 (Config.loopMem 3 el (2 * m.memAddr)), s48 (Config.loopMem 3 el (2 * m.memAddr + 1))) }
    else n1
  if m.alu = 0 && (m.mem = 1 || m.mem = 3 || m.mem = 4 || m.mem = 5) then n2.put m.dst (memLoad x el ticks m) else n2

/-- A stage of an element, by number in the order of R201. -/
def Elem.stageAt (el : Elem) (k : Nat) : LoopVal :=
  match k with | 0 => el.meas | 1 => el.err | 2 => el.prop | 3 => el.int | 4 => el.ff | _ => el.out

def Elem.setStage (el : Elem) (k : Nat) (v : LoopVal) : Elem :=
  match k with
  | 0 => { el with meas := v } | 1 => { el with err := v } | 2 => { el with prop := v } | 3 => { el with int := v }
  | 4 => { el with ff := v } | _ => { el with out := v }

/-- EXP_OP on the stage values: NORM takes values of exponent 0 to the shared exponent of R202; ALIGN shifts DST to it. -/
def Engine.expOp (n : Engine) (el : Elem) (m : Micro) : Engine :=
  match m.exp with
  | 1 =>
    let (v, sat) := loopVal ((n.stA : Int) : Rat) ((n.stB : Int) : Rat)
    { n with stA := v.a, stB := v.b, stX := v.x, sat := n.sat || sat }
  | 2 =>
    let x := s48 (n.dstOld m.dst)
    n.put m.dst (w48 (if 0 ≤ n.stX then x.fdiv (2 ^ n.stX.toNat) else x * 2 ^ (-n.stX).toNat))
  | 3 => let v := el.stageAt m.stage; { n with stA := v.a, stB := v.b, stX := v.x }
  | _ => n

/-- ACC_OP on the element's channel (R249, R273 to R275). -/
def accOp (s : State) (d : DieId) (e el : Nat) (m : Micro) : State :=
  let b := bankOf el
  let l := chanOf el
  let u := ((s.die d).elem el).update
  let result (s : State) : State :=
    let f := ((s.bank b).chan l).last.fields
    s.onDie d (·.onEng (·.onEngine e (fun n =>
      { n with accSum := f.getD 0 0, accMin := f.getD 1 0, accMax := f.getD 2 0, accCount := f.getD 3 0 })))
  let regs := ((s.die d).eng.engine e).regs
  match m.acc with
  | 1 => result (accAccess d b l u true false s)
  | 2 => result (accAccess d b l u true true s)
  | 3 => accAccess d b l u false true s
  | 4 => urgentRequest d b l u s
  | 5 => bandSet d b l (regs.getD 0 0 % 2 ^ 24) (regs.getD 1 0 % 2 ^ 24) u s
  | _ => s

/-- A word that fires its strobe group without a DAC write: the group's pending shadows of the element's bank die are transferred (R263). -/
def fireOnly (s : State) (d : DieId) (el group : Nat) : State :=
  let s1 := s.onDie d (·.onElem el (fun v => { v with update := v.update + 1 }))
  holderMsg s1 d (bankOf el) mFire el ((s.die d).elem el).update [group] true (fun s => s.onBank (bankOf el) (·.fire group))

/-- The DAC write of a word, from the latch, and the firing of its group after it (R248). -/
def dacOp (s : State) (d : DieId) (e el : Nat) (m : Micro) : State :=
  let n := (s.die d).eng.engine e
  let s1 := if m.fire then s.onDie d (·.onEng (·.onEngine e (fun n => { n with strobed := true }))) else s
  if m.dac = 0 then (if m.fire then fireOnly s1 d el m.strobe else s1)
  else
    let out : DriveOut := if m.dac = 1 then .heater else if m.dac = 2 then .pin else .gate
    let code := n.latch % (if m.dac = 1 then 2 ^ 17 else if m.dac = 2 then 2 ^ 12 else 2 ^ 14)
    let v := (s1.die d).elem el
    let s2 := s1.onDie d (·.onElem el (fun v => { v with update := v.update + 1 }))
    if (s2.bank (bankOf el)).up d then
      s2.emit (.bankDrive d (bankOf el) ⟨chanOf el, out, code, m.dacX2, m.strobe, m.fire, v.dealSeq, v.update⟩)
    else s2

/-- The condition of a word (R249), before CINV. -/
def condNow (s : State) (d : DieId) (e el c : Nat) : Bool :=
  let x := s.die d
  let n := x.eng.engine e
  let v := x.elem el
  let b := bankOf el
  match c with
  | 0 => true
  | 1 => n.zero
  | 2 => n.neg
  | 3 => n.carry
  | 4 => n.sat
  | 5 => decide (2 ≤ ((s.bank b).chan (chanOf el)).store.count)
  | 6 => stale s el
  | 7 => n.strobed
  | 8 => (List.range 64).any (fun i => !(x.eng.engine i).deque.isEmpty)
  | 9 => v.balanced el
  | 10 => v.onPin
  | 11 => v.handoff
  | 12 => v.implausible
  | 13 => v.fallback
  | 14 => v.mode = 0
  | 15 => decide (v.lastUpd + (if isCell el then x.effNs + 2 * x.halfNs else 2 * usT * x.loopUs) < s.ticks + 2 * usT)
  | 16 => (s.bank b).holds d
  | _ => decide (1 ≤ x.thm.level)

/-- The running slice ends and its task leaves the engine: where a cause was recorded the task is requeued under the merged cause, in the
bank it runs under (R231, R253); else a follow-up is armed. -/
def sliceEnds (s : State) (d : DieId) (e : Nat) (follow : Option Task) : State :=
  let n := (s.die d).eng.engine e
  match n.running with
  | none => s
  | some t =>
    let s1 := s.onDie d (·.onEng (·.onEngine e (fun n => { n with running := none, merged := none })))
    match n.merged, follow with
    | some _, _ => placeTask s1 d { t.withCause n.merged with release := s.ticks, parked := none }
    | none, some f =>
      if f.release ≤ s.ticks then placeTask s1 d f else s1.onDie d (·.onEng (fun g => { g with armed := g.armed ++ [f] }))
    | none, none => s1

/-! ## Sequencing (R244, R245) -/

/-- The address after a micro-PC; none past the end of its space. -/
def MicroPc.succ (p : MicroPc) : Option MicroPc :=
  if p.patch then (if p.addr < 255 then some ⟨p.addr + 1, true⟩ else none)
  else if p.addr < 16383 then some ⟨p.addr + 1, false⟩ else none

/-- The next-address field. -/
def Micro.target (m : Micro) : MicroPc := ⟨if m.naPatch then m.next % 256 else m.next, m.naPatch⟩

def setPc (s : State) (d : DieId) (e : Nat) (p : MicroPc) : State :=
  s.onDie d (·.onEng (·.onEngine e (fun n => { n with pc := p })))

/-- Goes to an address, or faults past the end. -/
def goTo (s : State) (d : DieId) (e : Nat) : Option MicroPc → State
  | some p => setPc s d e p
  | none => microFault s d e 6

/-- WAIT: the task is parked, or requeued where a cause was recorded for it (R231), and the engine dispatches. -/
def waitOp (s : State) (d : DieId) (e : Nat) (m : Micro) : State :=
  let n := (s.die d).eng.engine e
  match n.running, n.merged with
  | none, _ => dispatchEng s d e
  | some _, some _ => dispatchEng (sliceEnds s d e none) d e
  | some t, none =>
    let until_ := if m.cond = 0 && m.imm ≠ 0 then s.ticks + m.imm else 0
    let p : Parked := ⟨m.target, n.stack, n.regs, m.cond, m.cinv, until_⟩
    let s1 := s.onDie d (·.onEng (fun g => { (g.onEngine e (fun n => { n with running := none })) with
      parked := g.parked ++ [{ t with parked := some p }] }))
    dispatchEng s1 d e

/-- The sequencing operation of a word. -/
def seqOp (s : State) (d : DieId) (e el : Nat) (m : Micro) : State :=
  let n := (s.die d).eng.engine e
  match m.seq with
  | 0 => goTo s d e n.pc.succ
  | 1 => setPc s d e m.target
  | 2 =>
    if 4 ≤ n.stack.length then microFault s d e 2
    else
      let ret : MicroPc := n.pc.succ.getD ⟨0, n.pc.patch⟩
      s.onDie d (·.onEng (·.onEngine e (fun n => { n with stack := ret :: n.stack, pc := m.target })))
  | 3 =>
    match n.stack with
    | [] => microFault s d e 2
    | p :: st => s.onDie d (·.onEng (·.onEngine e (fun n => { n with stack := st, pc := p })))
  | 4 => if condNow s d e el m.cond != m.cinv then setPc s d e m.target else goTo s d e n.pc.succ
  | 5 => dispatchEng (sliceEnds s d e none) d e
  | _ => waitOp s d e m

/-- YIELD: the task returns to the head of its sub-deque; a stolen one, one with a cause recorded, and one whose deque is full go home
(R231, R235). -/
def yieldOp (s : State) (d : DieId) (e : Nat) (t : Task) : State :=
  let n := (s.die d).eng.engine e
  if n.merged.isSome then sliceEnds s d e none
  else if t.type = tSelftest || (bankOf t.elem = e / 8 && (s.die d).eng.hasRoom e) then
    s.onDie d (·.onEng (·.onEngine e (fun n => { n with running := none, deque := t :: n.deque })))
  else placeTask (s.onDie d (·.onEng (·.onEngine e (fun n => { n with running := none })))) d t

/-- TQ_OP; whether the word goes on to its sequencing operation. -/
def tqOp (s : State) (d : DieId) (e : Nat) (m : Micro) : State × Bool :=
  let n := (s.die d).eng.engine e
  match m.tq, n.running with
  | 1, some _ => (sliceEnds s d e none, true)
  | 2, some t => (sliceEnds s d e (some ⟨t.elem, m.tqType, m.tqType + 1, s.ticks + m.imm, none, none⟩), true)
  | 3, _ => (queueTask s d (n.regs.getD 0 0 % 8192) m.tqType, true)
  | 4, some t => (dispatchEng (yieldOp s d e t) d e, false)
  | _, _ => (s, true)

/-! ## One microword -/

/-- The word an engine fetches: patch space, a redirect of the bank it runs under, or the ROM word given (R250). -/
def fetchWord (g : Engines) (n : Engine) (rom : BitVec 128) : BitVec 128 × Bool × Nat :=
  let bank := if n.bank = 0 then g.bank0 else g.bank1
  if n.pc.patch then (bank.words.getD n.pc.addr 0, true, n.pc.addr)
  else match bank.matches_.find? (fun q => q.1 = n.pc.addr) with
    | some q => (bank.words.getD q.2 0, true, q.2)
    | none => (rom, false, n.pc.addr)

/-- A microword that decodes takes effect, for the element of the task last dispatched. -/
def microRun (s : State) (d : DieId) (e : Nat) (m : Micro) : State :=
  let el := ((s.die d).eng.engine e).elem
  let s1 := s.onDie d (fun x =>
    let n := x.eng.engine e
    let c := (n.compute x el s.ticks m).expOp (x.elem el) m
    let x1 := x.onEng (·.setEngine e c)
    let x2 := if m.exp = 4 then x1.onElem el (·.setStage m.stage ⟨c.stA, c.stB, c.stX⟩) else x1
    if m.mem = 2 then x2.onEng (fun g => { g with words := spPut (el * 2048 + m.memAddr) (n.src x m false m.srcA) g.words }) else x2)
  match tqOp (dacOp (accOp s1 d e el m) d e el m) d e m with
  | (s2, true) => seqOp s2 d e el m
  | (s2, false) => s2

/-- One microword with sequencing operation `seq` on an engine that runs; a halted engine's DISPATCH looks for work again. A word
with another operation is not this row's. A single-bit error of the word fetched is corrected and counted, a double-bit error is a
microcode fault (R243; sources 244 and 245, R462). -/
def microStep (d : DieId) (e seq : Nat) (rom : BitVec 128) (ecc : EccRead) (s : State) : State :=
  let x := s.die d
  let n := x.eng.engine e
  if !x.enginesRun then s
  else if n.state = 0 then (if seq = 5 && !x.eng.dozing (e / 8) then dispatchEng s d e else s)
  else if n.state ≠ 1 then s
  else
    let (w, patch, addr) := fetchWord x.eng n rom
    let m := microOf w
    -- a redirected fetch goes on in patch space
    let s0 := setPc s d e ⟨addr, patch⟩
    if ecc = .double then microFault (raise s0 d 245) d e 4
    else if m.seq ≠ seq && m.seq ≠ 7 then s
    else
      let s1 := if ecc = .corrected then raise (s0.onDie d (·.count Reg.UCS_MFAULT_CNT F.UCS_MFAULT_CNT_ECC1)) d 244 else s0
      match m.fault with
      | some c => microFault s1 d e c
      | none => if m.tq = 3 && decide (5887 < n.regs.getD 0 0 % 8192) then microFault s1 d e 7 else microRun s1 d e m

def execNext (die : DieId) (eng : Fin 64) (rom : FetchedWord) (s : State) : Host.Outcome State Fault Refusal :=
  done (microStep die eng.val 0 rom.word rom.ecc s)
def execJump (die : DieId) (eng : Fin 64) (rom : FetchedWord) (s : State) : Host.Outcome State Fault Refusal :=
  done (microStep die eng.val 1 rom.word rom.ecc s)
def execCall (die : DieId) (eng : Fin 64) (rom : FetchedWord) (s : State) : Host.Outcome State Fault Refusal :=
  done (microStep die eng.val 2 rom.word rom.ecc s)
def execRet (die : DieId) (eng : Fin 64) (rom : FetchedWord) (s : State) : Host.Outcome State Fault Refusal :=
  done (microStep die eng.val 3 rom.word rom.ecc s)
def execBranch (die : DieId) (eng : Fin 64) (rom : FetchedWord) (s : State) : Host.Outcome State Fault Refusal :=
  done (microStep die eng.val 4 rom.word rom.ecc s)
def execDispatch (die : DieId) (eng : Fin 64) (rom : FetchedWord) (s : State) : Host.Outcome State Fault Refusal :=
  done (microStep die eng.val 5 rom.word rom.ecc s)
def execWait (die : DieId) (eng : Fin 64) (rom : FetchedWord) (s : State) : Host.Outcome State Fault Refusal :=
  done (microStep die eng.val 6 rom.word rom.ecc s)

/-! ## Release, resumption, overruns (R232, R238, R244) -/

/-- TASK_RELEASE: an armed task whose release time has come enters a deque of its home cluster. -/
def taskRelease (d : DieId) (e : Nat) (s : State) : State :=
  match (s.die d).eng.armed.find? (fun t => t.elem = e && decide (t.release ≤ s.ticks)) with
  | none => s
  | some t => placeTask (s.onDie d (·.onEng (·.disarm e))) d t

def execTaskRelease (die : DieId) (elem : Fin 5888) (s : State) : Host.Outcome State Fault Refusal :=
  done (taskRelease die elem.val s)

/-- A parked task's wait is over. -/
def waitOver (s : State) (d : DieId) (e : Nat) (t : Task) : Bool :=
  match t.parked with
  | none => false
  | some p => if p.until_ ≠ 0 then decide (p.until_ ≤ s.ticks) else condNow s d e t.elem p.cond != p.inv

/-- WAIT_RESUME: a parked task whose wait is over resumes on an engine that is free. -/
def waitResume (d : DieId) (e el : Nat) (s : State) : State :=
  let x := s.die d
  let n := x.eng.engine e
  if !x.enginesRun || n.state ≠ 0 || x.eng.dozing (e / 8) then s
  else match x.eng.parked.find? (fun t => t.elem = el) with
    | none => s
    | some t =>
      if waitOver s d e t then
        s.onDie d (·.onEng (fun g => { (g.onEngine e (fun n => n.start t g.active s.ticks)) with parked := g.parked.filter (fun u => u.elem ≠ el) }))
      else s

def execWaitResume (die : DieId) (eng : Fin 64) (elem : Fin 5888) (s : State) : Host.Outcome State Fault Refusal :=
  done (waitResume die eng.val elem.val s)

/-- SLICE_OVERRUN: a slice longer than 4 µs, a self-test aside. -/
def sliceOverrun (d : DieId) (e : Nat) (s : State) : State :=
  let n := (s.die d).eng.engine e
  match n.running with
  | some t => if n.state = 1 && t.type ≠ tSelftest && decide (4 * usT < s.ticks - n.sliceAt) then microFault s d e 5 else s
  | none => s

def execSliceOverrun (die : DieId) (eng : Fin 64) (s : State) : Host.Outcome State Fault Refusal :=
  done (sliceOverrun die eng.val s)

/-! ## Self-test (R240) -/

/-- A test of an engine is due. -/
def testDue (x : Die) (n : Engine) (ticks : Nat) : Bool :=
  (match x.life with | .booting _ => true | _ => false) || decide (n.lastTest + secT ≤ ticks)

/-- A failed self-test fences the engine and is counted. -/
def testFailed (s : State) (d : DieId) (e : Nat) : State := fenceEngine (s.onDie d (·.addTotal 4)) d e 1

/-- SELFTEST: run by an idle engine when it is due, deferred by a busy one; the queued one of R240 ends its slice. -/
def selftest (d : DieId) (e : Nat) (pass : Bool) (s : State) : State :=
  let x := s.die d
  let n := x.eng.engine e
  if !x.enginesRun || n.state = 3 then s
  else if n.testing.isSome then
    let s1 := s.onDie d (·.onEng (·.onEngine e (fun n => { n with testing := none, running := none, lastTest := s.ticks, defer := 0 })))
    if pass then dispatchEng s1 d e else testFailed s1 d e
  else if !testDue x n s.ticks then s
  else if n.state = 1 || !n.deque.isEmpty then
    if n.deque.any (fun t => decide (t.type = tSelftest)) then s
    else
      let k := n.defer + 1
      s.onDie d (·.onEng (fun g =>
        let g1 := g.onEngine e (fun n => { n with defer := min 15 k, lastTest := s.ticks })
        if decide (10 ≤ k) && decide (g.entries e < 128) then g1.onEngine e (fun n => { n with deque := n.deque ++ [⟨0, tSelftest, tCal + 1, s.ticks, none, none⟩] }) else g1))
  else
    let s1 := s.onDie d (·.onEng (·.onEngine e (fun n => { n with lastTest := s.ticks, defer := 0 })))
    if pass then s1 else testFailed s1 d e

/-- The self-test of a planner engine: one that fails is fenced (R187). -/
def plannerTest (d : DieId) (e : Nat) (pass : Bool) (s : State) : State :=
  let x := s.die d
  if !x.enginesRun || pass || x.routers.fence.getLsbD e then s
  else (s.onDie d (·.onRouters (·.fenceEngine e))).onDie d (fun x => (x.addTotal 4).setReg Reg.DCK_PLAN_FENCE x.routers.fence.toNat)

def execSelftest (die : DieId) (eng : TestEngine) (pass : Bool) (s : State) : Host.Outcome State Fault Refusal :=
  match eng with
  | .hold e => done (selftest die e.val pass s)
  | .planner e => done (plannerTest die e.val pass s)

/-- SELFTEST_TIMEOUT: the 25 µs timer of a self-test that runs expires. -/
def selftestTimeout (d : DieId) (e : Nat) (s : State) : State :=
  let x := s.die d
  let n := x.eng.engine e
  if !x.enginesRun || n.state = 3 then s
  else match n.testing with
    | some t => if 25 * usT ≤ s.ticks - t then testFailed s d e else s
    | none => if n.state ≠ 1 && n.deque.isEmpty && testDue x n s.ticks then testFailed s d e else s

def execSelftestTimeout (die : DieId) (eng : Fin 64) (s : State) : Host.Outcome State Fault Refusal :=
  done (selftestTimeout die eng.val s)

/-- FENCE_REQUEST: a write to UCS_FENCE_REQ; an engine between slices is fenced at once, a running one at its slice end. -/
def fenceRequest (d : DieId) (mask : Nat) (s : State) : State :=
  let s1 := putWord64 s d Reg.UCS_FENCE_REQ mask
  let req := (s1.die d).reg64 Reg.UCS_FENCE_REQ
  if !((s.die d).writable Reg.UCS_FENCE_REQ) then s
  else (List.range 64).foldl (fun s e =>
    if bitOf req e then
      if ((s.die d).eng.engine e).state = 1 then s.onDie d (·.onEng (·.onEngine e (fun n => { n with fenceReq := true })))
      else fenceEngine s d e 3
    else s) s1

def execFenceRequest (die : DieId) (mask : Word64) (s : State) : Host.Outcome State Fault Refusal :=
  doneBar die (fenceRequest die mask.toNat) s

/-! ## Patches (R250 to R254) -/

/-- STATE and RESULT of UCS_PATCH_STATUS. -/
def patchStatus (s : State) (d : DieId) (st res : Nat) : State :=
  (s.setRf d Reg.UCS_PATCH_STATUS F.UCS_PATCH_STATUS_STATE st).setRf d Reg.UCS_PATCH_STATUS F.UCS_PATCH_STATUS_RESULT res

/-- A patch register takes a write: Expert level on the Declarer (R22, R254). -/
def patchOpen (x : Die) : Bool := x.expert 0 && x.isDecl

def mirrorPatch (s : State) (d : DieId) : State :=
  let g := (s.die d).eng
  mirror (mirrorReg s d Reg.UCS_PATCH_STATUS) d (.patch g.bank0 g.bank1 g.active)

/-- PATCH_DATA_WRITE: 4 bytes into the image buffer at PTR; the first after a verification begins another image (log entry 113). -/
def patchData (d : DieId) (w : Nat) (s : State) : State :=
  let x := s.die d
  let p := x.rf Reg.UCS_PATCH_PTR F.UCS_PATCH_PTR_PTR / 4 * 4
  if !patchOpen x || 4356 ≤ p then s
  else
    let s1 := s.onDie d (fun x => (x.onEng (fun g =>
      { g with staged := memWrite g.staged p (leBytes 4 w), stagedLen := if g.loading then max g.stagedLen (p + 4) else p + 4, loading := true })).setRf
      Reg.UCS_PATCH_PTR F.UCS_PATCH_PTR_PTR (p + 4))
    let s2 := if x.rf Reg.UCS_PATCH_STATUS F.UCS_PATCH_STATUS_STATE = 2 then s1
      else s1.setRf d Reg.UCS_PATCH_STATUS F.UCS_PATCH_STATUS_STATE 1
    mirrorReg (mirrorReg s2 d Reg.UCS_PATCH_PTR) d Reg.UCS_PATCH_STATUS

def execPatchDataWrite (die : DieId) (data : Word32) (s : State) : Host.Outcome State Fault Refusal :=
  doneBar die (patchData die data.toNat) s

/-- No task runs under the old bank. -/
def Die.drained (x : Die) : Bool := x.rbit Reg.UCS_PATCH_STATUS F.UCS_PATCH_STATUS_DRAINED

/-- PATCH_VERIFY: verification starts, or a new image is refused while the old bank is not drained (R253). -/
def patchVerify (d : DieId) (s : State) : State :=
  let x := s.die d
  if !patchOpen x || x.eng.verifying.isSome then s
  else if !x.drained then mirrorReg (s.setRf d Reg.UCS_PATCH_STATUS F.UCS_PATCH_STATUS_RESULT 7) d Reg.UCS_PATCH_STATUS
  else mirrorReg (patchStatus (s.onDie d (·.onEng (fun g => { g with verifying := some s.ticks, loading := false }))) d 2 0) d Reg.UCS_PATCH_STATUS

def execPatchVerify (die : DieId) (s : State) : Host.Outcome State Fault Refusal := doneBar die (patchVerify die) s

/-- The parts of a patch image (R251): words, matches. -/
def patchWords (l : List Byte) (m n : Nat) : List (BitVec 128) :=
  (List.range n).map (fun i => BitVec.ofNat 128 (leAt l (32 + 4 * m + 16 * i) 16))
def patchMatches (l : List Byte) (m : Nat) : List (Nat × Nat) :=
  (List.range m).map (fun i => let w := leAt l (32 + 4 * i) 4; (bitsOf w 13 0, bitsOf w 21 14))

/-- The bytes staged, as far as an image can reach. -/
def Engines.image (g : Engines) : List Byte := memRead g.staged 0 4356

/-- The length of a patch image by its header (R251). -/
def patchLength (l : List Byte) : Nat := 132 + 4 * leAt l 8 2 + 16 * leAt l 6 2

/-- The result of verification of an image of `len` bytes (R252): 0 OK, 1 format, 2 ROM_REV, 3 signature, 4 key revoked, 5 duplicate match, 6 illegal word. -/
def patchResult (l : List Byte) (len : Nat) : Nat :=
  let n := leAt l 6 2
  let m := leAt l 8 2
  let k := leAt l (32 + 4 * m + 16 * n) 4
  if len ≠ patchLength l || leAt l 0 4 ≠ 0x50504E57 || leAt l 4 2 ≠ 1 || n = 0 || 256 < n || 32 < m || leAt l 12 4 = 0 || !zeroRange l 16 31 ||
      (List.range m).any (fun i => bitsOf (leAt l (32 + 4 * i) 4) 31 22 ≠ 0 || n ≤ bitsOf (leAt l (32 + 4 * i) 4) 21 14) || 3 < k then 1
  else if leAt l 10 2 ≠ Config.romRev.toNat then 2
  else if !Config.sigValid (l.take (32 + 4 * m + 16 * n)) k (bytesAt l (36 + 4 * m + 16 * n) 96) then 3
  else if Config.keyRevoked k then 4
  else if !noDup ((patchMatches l m).map (·.1)) then 5
  else if (patchWords l m n).any (fun w => (microOf w).fault.isSome) then 6
  else 0

/-- Replaces the staging bank. -/
def Engines.setStaging (g : Engines) (b : PatchBank) : Engines := if g.active = 0 then { g with bank1 := b } else { g with bank0 := b }

/-- PATCH_VERIFY_DONE. -/
def patchVerifyDone (d : DieId) (s : State) : State :=
  let x := s.die d
  if x.eng.verifying.isNone then s
  else
    let l := x.eng.image
    let r := patchResult l x.eng.stagedLen
    let s1 := s.onDie d (·.onEng (fun g => { g with verifying := none }))
    if r ≠ 0 then mirrorPatch (patchStatus s1 d 1 r) d
    else
      let b : PatchBank := ⟨patchMatches l (leAt l 8 2), patchWords l (leAt l 8 2) (leAt l 6 2), leAt l 12 4⟩
      mirrorPatch (patchStatus (s1.onDie d (·.onEng (·.setStaging b))) d 3 0) d

def execPatchVerifyDone (die : DieId) (s : State) : Host.Outcome State Fault Refusal := done (patchVerifyDone die s)

/-- No deal is within its last 100 ns, and the Dummy has acknowledged the verified image (R254, log entry 114). -/
def Die.dealFree (x : Die) : Bool :=
  !x.dealer.pending.any (fun dl => decide (dl.stage = .fixed)) &&
    !x.red.sent.any (fun m => match m.payload with | .patch _ _ _ => true | _ => false)

/-- The activation of the verified staging bank, on the Dummy too; the old bank drains. -/
def activateNow (s : State) (d : DieId) : State :=
  let turn (x : Die) : Die :=
    ((((x.onEng (fun g => { g with active := 1 - g.active, asked := false })).setRf Reg.UCS_PATCH_STATUS F.UCS_PATCH_STATUS_DRAINED 0).setRf
      Reg.UCS_PATCH_STATUS F.UCS_PATCH_STATUS_STATE 0).setRf Reg.UCS_PATCH_STATUS F.UCS_PATCH_STATUS_RESULT 0)
  shadowed s d turn

/-- PATCH_ACTIVATE: a verified staging bank becomes the active one, at a deal-free instant. -/
def patchActivate (d : DieId) (s : State) : State :=
  let x := s.die d
  if !patchOpen x || x.rf Reg.UCS_PATCH_STATUS F.UCS_PATCH_STATUS_STATE ≠ 3 then s
  else if x.dealFree then activateNow s d
  else s.onDie d (·.onEng (fun g => { g with asked := true }))

/-- An activation that waits is made at the first deal-free instant. -/
def patchTick (s : State) (d : DieId) : State :=
  let x := s.die d
  if x.eng.asked && x.isDecl && x.dealFree && decide (x.rf Reg.UCS_PATCH_STATUS F.UCS_PATCH_STATUS_STATE = 3) then activateNow s d else s

def execPatchActivate (die : DieId) (s : State) : Host.Outcome State Fault Refusal := doneBar die (patchActivate die) s

/-- PATCH_CLEAR: an empty staging bank, marked verified. -/
def patchClear (d : DieId) (s : State) : State :=
  let x := s.die d
  if !patchOpen x then s
  else if !x.drained then mirrorReg (s.setRf d Reg.UCS_PATCH_STATUS F.UCS_PATCH_STATUS_RESULT 7) d Reg.UCS_PATCH_STATUS
  else
    let s1 := s.onDie d (·.onEng (fun g => { g.setStaging PatchBank.reset with verifying := none, loading := false }))
    mirrorPatch (patchStatus s1 d 3 0) d

def execPatchClear (die : DieId) (s : State) : Host.Outcome State Fault Refusal := doneBar die (patchClear die) s

/-- A task runs under a bank, or an engine whose slice has not ended. -/
def Engines.underBank (g : Engines) (b : Nat) : Bool :=
  let under (t : Task) : Bool := decide (t.bank = some b)
  (List.range 64).any (fun e => ((g.engine e).state = 1 && decide ((g.engine e).bank = b)) || (g.engine e).deque.any under) ||
    g.parked.any under || g.armed.any under

/-- PATCH_DRAINED: no task remains under the old bank. -/
def patchDrained (d : DieId) (s : State) : State :=
  let g := (s.die d).eng
  if (s.die d).drained || g.underBank (1 - g.active) then s
  else mirrorReg (s.setRf d Reg.UCS_PATCH_STATUS F.UCS_PATCH_STATUS_DRAINED 1) d Reg.UCS_PATCH_STATUS

def execPatchDrained (die : DieId) (s : State) : Host.Outcome State Fault Refusal := done (patchDrained die s)

end Sys2Proof.Machine
end

