-- ==== Sys2Proof/Machine/Matrix.lean ====
section
/-!
DEFINITION. The bus matrix of a control die (R508 to R512): address map, the memories behind its targets, requests, resets of
masters. Register space and the mirror bridge are reached in Machine/RegFile.lean.
-/

namespace Sys2Proof.Machine

/-! ## Address map (R508) -/

def tBootRom : Nat := 0
def tSram : Nat := 1
def tDeck : Nat := 2
def tImage : Nat := 3
def tTable : Nat := 4
def tRegs : Nat := 5
def tNvm : Nat := 6
def tStore : Nat := 7
def tBridge : Nat := 8
def tPatch : Nat := 9

/-- The target of an address and the offset in it. -/
def mtxTarget (remap : Bool) (a : Nat) : Option (Nat × Nat) :=
  if a < 0x40000 && !remap then some (tBootRom, a)
  else if a < 0x400000 && remap then some (tSram, a)
  else if 0x1000000 ≤ a && a < 0x1040000 then some (tBootRom, a - 0x1000000)
  else if 0x2000000 ≤ a && a < 0x2400000 then some (tSram, a - 0x2000000)
  else if 0x40000000 ≤ a && a < 0x42000000 then some (tDeck, a - 0x40000000)
  else if 0x60000000 ≤ a && a < 0x62000000 then some (tImage, a - 0x60000000)
  else if 0x80000000 ≤ a && a < 0x80010000 then some (tTable, a - 0x80000000)
  else if 0x90000000 ≤ a && a < 0x90040000 then some (tRegs, a - 0x90000000)
  else if 0xA0000000 ≤ a && a < 0xA0801000 then some (tNvm, a - 0xA0000000)
  else if 0xB0000000 ≤ a && a < 0xB0008000 then some (tStore, a - 0xB0000000)
  else if 0xC0000000 ≤ a && a < 0xC0002000 then some (tPatch, a - 0xC0000000)
  else if 0x100000000 ≤ a && a < 0x200000000 then some (tBridge, a - 0x100000000)
  else none

/-- The masters a target admits. -/
def mtxAdmits (t m : Nat) : Bool :=
  match t with
  | 0 => m < 4 || m = 7
  | 1 => m ≠ 5
  | 2 => true
  | 3 => true
  | 4 => m ≠ 5
  | 5 => true
  | 6 => m < 4 || m = 7
  | 7 => m < 4 || m = 7
  | 8 => m ≠ 6
  | _ => m < 4 || m = 5 || m = 7

/-- A request writes. -/
def reqWrites (r : MtxReq) : Bool := match r.op with | .write _ | .exStore _ => true | _ => false

/-- The target a request reaches, when the master is admitted there: the boot ROM is read only, the debug master does what the
service lock opens (R508, R513). -/
def mtxDecode (x : Die) (r : MtxReq) : Option (Nat × Nat) :=
  match mtxTarget (x.rbit Reg.MTX_REMAP F.MTX_REMAP_REMAP) r.addr.toNat with
  | none => none
  | some (t, off) =>
    let debug := r.master.val = 7
    if !mtxAdmits t r.master.val || (t = tBootRom && reqWrites r) || (debug && x.svc.level = 0) ||
        (debug && x.svc.level = 1 && reqWrites r) then none
    else some (t, off)

/-! ## Memories behind the targets -/

/-- A byte of deck memory: entries of 2 bytes, 1,024 bytes a hand (R151). -/
def deckByte (x : Die) (o : Nat) : Byte :=
  BitVec.ofNat 8 ((handAt (x.decks.hand (o / 1024)).entries (o % 1024 / 2)).toNat / 256 ^ (o % 2))

/-- A byte of image memory; a hole reads zero. -/
def imageByte (x : Die) (o : Nat) : Byte :=
  if o % 1024 < 608 then BitVec.ofNat 8 ((x.decks.hand (o / 1024)).image.toNat / 256 ^ (o % 1024)) else 0

/-- A byte of the patch RAM banks: 256 words of 16 bytes each. -/
def patchByte (x : Die) (o : Nat) : Byte :=
  let b := if o < 4096 then x.eng.bank0 else x.eng.bank1
  BitVec.ofNat 8 ((b.words.getD (o % 4096 / 16) 0).toNat / 256 ^ (o % 16))

/-- The boot flash of a die. -/
def State.flash (s : State) : DieId → Memory
  | .cd0 => s.flash0
  | .cd1 => s.flash1

def State.setFlash (s : State) (d : DieId) (m : Memory) : State :=
  match d with | .cd0 => { s with flash0 := m } | .cd1 => { s with flash1 := m }

/-- One byte of a target. -/
def mtxByte (s : State) (d : DieId) (t o : Nat) : Byte :=
  let x := s.die d
  match t with
  | 0 => Config.bootRom d o
  | 1 => memGet x.mtx.sram o
  | 2 => deckByte x o
  | 3 => imageByte x o
  | 4 => memGet x.mtx.table o
  | 6 => if o < 0x800000 then memGet (s.flash d) o else memGet x.mtx.nvmCtl (o - 0x800000)
  | 7 => memGet s.store o
  | 9 => patchByte x o
  | _ => 0

/-- Replaces byte i of a number. -/
def putByte (n i : Nat) (b : Byte) : Nat := setBits n (8 * i + 7) (8 * i) b.toNat

/-- Writes one byte of a target; the boot flash takes writes of the debug master only (R503). -/
def mtxPutByte (s : State) (d : DieId) (master t o : Nat) (b : Byte) : State :=
  let hand (h : Nat) (f : StoredHand → StoredHand) : State :=
    s.onDie d (fun x => { x with decks := { x.decks with
      hands := spSet StoredHand.unwritten h (f (x.decks.hand h)) x.decks.hands } })
  match t with
  | 1 => s.onDie d (fun x => { x with mtx := { x.mtx with sram := memSet x.mtx.sram o b } })
  | 2 =>
    let n := o % 1024 / 2
    hand (o / 1024) (fun (h : StoredHand) =>
      { h with entries := handSet h.entries n (BitVec.ofNat 16 (putByte (handAt h.entries n).toNat (o % 2) b)) })
  | 3 => if o % 1024 < 608 then hand (o / 1024) (fun h => { h with image := BitVec.ofNat 4864 (putByte h.image.toNat (o % 1024) b) })
         else s
  | 4 => s.onDie d (fun x => { x with mtx := { x.mtx with table := memSet x.mtx.table o b } })
  | 6 =>
    if o < 0x800000 then (if master = 7 then s.setFlash d (memSet (s.flash d) o b) else s)
    else s.onDie d (fun x => { x with mtx := { x.mtx with nvmCtl := memSet x.mtx.nvmCtl (o - 0x800000) b } })
  | 7 => { s with store := memSet s.store o b }
  | 9 =>
    let f (p : PatchBank) : PatchBank :=
      let i := o % 4096 / 16
      let ws := p.words ++ List.replicate (i + 1 - p.words.length) 0
      { p with words := ws.set i (BitVec.ofNat 128 (putByte (ws.getD i 0).toNat (o % 16) b)) }
    s.onDie d (·.onEng (fun g => if o < 4096 then { g with bank0 := f g.bank0 } else { g with bank1 := f g.bank1 }))
  | _ => s

/-- Reads and writes of a memory target. -/
def mtxRead (s : State) (d : DieId) (t o n : Nat) : List Byte := (List.range n).map (fun i => mtxByte s d t (o + i))
def mtxWrite (s : State) (d : DieId) (master t o : Nat) (data : List Byte) : State :=
  (data.zipIdx).foldl (fun s p => mtxPutByte s d master t (o + p.2) p.1) s

/-! ## Masters -/

def Die.master (x : Die) (m : Nat) : Master := x.mtx.masters.getD m Master.reset
def Die.onMaster (x : Die) (m : Nat) (f : Master → Master) : Die :=
  { x with mtx := { x.mtx with masters := x.mtx.masters.setIfInBounds m (f (x.master m)) } }

/-- An error answered: recorded unless one is held, counted for decode and stuck targets. -/
def mtxError (s : State) (d : DieId) (r : MtxReq) (kind target : Nat) : State :=
  let s1 := s.onDie d (fun x =>
    let x1 := if x.rbit Reg.MTX_ERR F.MTX_ERR_VALID then x
      else ((((((x.setEvent Reg.MTX_ERR F.MTX_ERR_VALID).setRf Reg.MTX_ERR F.MTX_ERR_KIND kind).setRf Reg.MTX_ERR F.MTX_ERR_TARGET
        target).setRf Reg.MTX_ERR F.MTX_ERR_WRITE (b2n (reqWrites r))).setRf Reg.MTX_ERR F.MTX_ERR_MASTER r.master.val).setReg64
          Reg.MTX_ERR_ADDR r.addr.toNat)
    if kind = 1 then x1.count (Reg.MTX_CNT 0) F.MTX_CNT_COUNT else if kind = 2 then x1.count (Reg.MTX_CNT 1) F.MTX_CNT_COUNT else x1)
  s1.emit (.matrix d r.master.val r.id true (if reqWrites r then [] else List.replicate r.len 0))

/-- A request must wait at its port (R509, R511): 32 outstanding, or its ID in use at another target. -/
def mtxHeld (m : Master) (r : MtxReq) (t : Nat) : Bool × Bool :=
  (decide (32 ≤ m.outstanding.length), m.outstanding.any (fun o => o.req.id = r.id && decide (o.target ≠ t)) ||
    m.waiting.any (fun w => w.id = r.id))

/-- A request is issued to its target. -/
def mtxIssue (x : Die) (r : MtxReq) (t : Nat) : Die :=
  let x1 := x.onMaster r.master.val (fun m => { m with outstanding := m.outstanding ++ [⟨r, t⟩] })
  let n := (x1.master r.master.val).outstanding.length
  x1.setRf (Reg.MTX_OUTST r.master.val) F.MTX_OUTST_MAX (max n (x1.rf (Reg.MTX_OUTST r.master.val) F.MTX_OUTST_MAX))

/-- The mirror bridge answers: the link is up and the peer runs. -/
def bridgeUp (s : State) (d : DieId) : Bool := s.mirror.state = 2 && (match (s.die d.peer).life with | .held _ _ => false | _ => true)

/-- A request arrives at its master's port: a port in reset takes none. -/
def mtxRequest (d : DieId) (r : MtxReq) (s : State) : State :=
  let x := s.die d
  let m := x.master r.master.val
  if (match x.life with | .held _ _ => true | _ => false) || m.resetAt.isSome then s
  else match mtxDecode x r with
    | none => mtxError s d r 1 ((mtxTarget (x.rbit Reg.MTX_REMAP F.MTX_REMAP_REMAP) r.addr.toNat).map (·.1) |>.getD 15)
    | some (t, _) =>
      if t = tBridge && !bridgeUp s d then mtxError s d r 3 t
      else
        let (full, held) := mtxHeld m r t
        let s1 := if held then s.count d (Reg.MTX_CNT 3) F.MTX_CNT_COUNT else s
        if full || held then s1.onDie d (·.onMaster r.master.val (fun m => { m with waiting := m.waiting ++ [r] }))
        else s1.onDie d (fun x => mtxIssue x r t)

/-- An access of the debug master counts for the inactivity timeout (R519). -/
def debugSeen (s : State) (d : DieId) (m : Nat) : State :=
  if m = 7 then s.onDie d (fun x => { x with svc := { x.svc with lastAccess := s.ticks } }) else s

def execMatrixRequest (die : DieId) (req : MtxReq) (s : State) : Host.Outcome State Fault Refusal :=
  done (mtxRequest die req (debugSeen s die req.master.val))

/-- Requests that waited are issued as far as they may be, in order. -/
def mtxWake (s : State) (d : DieId) (m : Nat) : State :=
  let ws := ((s.die d).master m).waiting
  ws.foldl (fun s r => mtxRequest d r s) (s.onDie d (·.onMaster m (fun k => { k with waiting := [] })))

/-- A place of a target as the monitors know it, whichever address reached it. -/
def mtxPlace (t off : Nat) : Nat := t * 2 ^ 32 + off

/-- Every other master's monitor of a granule written is cleared; the writer's own too by an exclusive store (R510). -/
def mtxWritten (x : Die) (m addr len : Nat) : Die :=
  { x with mtx := { x.mtx with masters := (x.mtx.masters.zipIdx).map (fun (p : Master × Nat) =>
    match p.1.monitor with
    | some g => if p.2 ≠ m && decide (addr / 64 ≤ g) && decide (g ≤ (addr + max 1 len - 1) / 64) then { p.1 with monitor := none } else p.1
    | none => p.1) } }

/-! ## Resets of masters (R512) -/

/-- A master is reset: its port closes, waiting requests are never issued; of each write under way a leading part, in 32-byte beats,
has reached its target (log entry 10), and the responses are awaited. -/
def masterReset (d : DieId) (m : Nat) (s : State) : State :=
  let k := (s.die d).master m
  let s1 := k.outstanding.foldl (fun s o =>
    match o.req.op, mtxTarget ((s.die d).rbit Reg.MTX_REMAP F.MTX_REMAP_REMAP) o.req.addr.toNat with
    | .write data, some (t, off) =>
      if t = tRegs || t = tBridge then s.drawn
      else
        let n := 32 * (s.free % (data.length / 32 + 2))
        let s2 := mtxWrite s.drawn d m t off (data.take n)
        s2.onDie d (fun x => mtxWritten x m (mtxPlace t off) n)
    | _, _ => s) s
  s1.onDie d (·.onMaster m (fun k =>
    { k with waiting := [], monitor := none, resetAt := if k.outstanding.isEmpty then none else some s.ticks,
             draining := !k.outstanding.isEmpty }))

def execMasterReset (die : DieId) (master : Fin 8) (s : State) : Host.Outcome State Fault Refusal :=
  done (masterReset die master.val s)

/-- DRAIN_TIMEOUT: after 2 µs the matrix answers what is outstanding with errors and marks the targets stuck. -/
def drainTimeout (d : DieId) (m : Nat) (s : State) : State :=
  let k := (s.die d).master m
  match k.resetAt with
  | none => s
  | some t =>
    if !k.draining || s.ticks - t < 2 * usT then s
    else
      let s1 := k.outstanding.foldl (fun s o =>
        (mtxError s d o.req 2 o.target).onDie d (fun x => { x with mtx := { x.mtx with stuck := x.mtx.stuck ||| BitVec.ofNat 10 (2 ^ o.target) } })) s
      s1.onDie d (·.onMaster m (fun k => { k with outstanding := [], resetAt := none, draining := false }))

def execDrainTimeout (die : DieId) (master : Fin 8) (s : State) : Host.Outcome State Fault Refusal :=
  done (drainTimeout die master.val s)

/-- LATE_RESPONSE: a stuck target answers after all; the response is discarded. -/
def lateResponse (d : DieId) (t : Nat) (s : State) : State :=
  let x := s.die d
  if x.mtx.stuck.getLsbD t then
    (s.onDie d (fun x => { x with mtx := { x.mtx with stuck := x.mtx.stuck &&& ~~~ BitVec.ofNat 10 (2 ^ t) } })).count d (Reg.MTX_CNT 2)
      F.MTX_CNT_COUNT
  else s

def execLateResponse (die : DieId) (target : Fin 10) (s : State) : Host.Outcome State Fault Refusal :=
  done (lateResponse die target.val s)

/-- MTX_MRST_WRITE: resets the masters named, masters 0 and 7 excepted; Level 2 of the service lock. -/
def mrstWrite (d : DieId) (v : Nat) (s : State) : State :=
  if (s.die d).lockOpen then (List.range 8).foldl (fun s m => if bitOf v m && m ≠ 0 && m ≠ 7 then masterReset d m s else s) s else s

def execMtxMrstWrite (die : DieId) (value : BitVec 8) (s : State) : Host.Outcome State Fault Refusal :=
  doneBar die (mrstWrite die value.toNat) s

end Sys2Proof.Machine
end

