-- ==== Sys2Proof/Machine/Record.lean ====
section
/-!
DEFINITION. The record store (R490 to R492): header, log entries, bench copies.
-/

namespace Sys2Proof.Machine

/-! ## Layout (R490) -/

def rsBench (k : Nat) : Nat := 0x40 + 0x500 * k
def rsLog : Nat := 0xA40

/-- A little-endian number in the record store. -/
def State.rs (s : State) (a n : Nat) : Nat := leNat (memRead s.store a n)

/-- Log entry types (R491). -/
def lgThermal : Nat := 1
def lgReset : Nat := 2
def lgStandby : Nat := 3
def lgWake : Nat := 4
def lgSupply : Nat := 5
def lgClass : Nat := 6

/-- The header after one write more: MAGIC, VERSION, next SEQ and slot, write count, CRC; a count past 10¹² is wear (R492). -/
def rsHeader (s : State) (seq slot : Nat) : State :=
  let n := s.rs 16 8 + 1
  let h := leBytes 4 0x53524E57 ++ leBytes 2 1 ++ [0, 0] ++ leBytes 4 seq ++ leBytes 4 slot ++ leBytes 8 n
  { s with store := memWrite s.store 0 (h ++ leBytes 4 (crc32c h)), wear := s.wear || decide (1000000000000 < n) }

/-- Seconds since power-on of a die's always-on domain (R501). -/
def Die.watch (x : Die) (ticks : Nat) : Nat := (ticks - x.aon.since) / secT

/-- The 32 bytes of a log entry (R491). -/
def logBytes (type die seq stamp watch : Nat) (payload : List Byte) : List Byte :=
  let b := leBytes 2 type ++ leBytes 1 die ++ [0] ++ leBytes 4 seq ++ leBytes 8 stamp ++ leBytes 4 watch ++ padTo 8 payload
  b ++ leBytes 4 (crc32c b)

/-- A die writes a log entry in the ring of 942 (R490, R491). -/
def logEntry (s : State) (d : DieId) (type : Nat) (payload : List Byte) : State :=
  let x := s.die d
  let seq := s.rs 8 4
  let slot := s.rs 12 4 % 942
  let s1 := { s with store := memWrite s.store (rsLog + 32 * slot) (logBytes type d.num seq x.ns (x.watch s.ticks) payload) }
  rsHeader s1 ((seq + 1) % 2 ^ 32) ((slot + 1) % 942)

/-! ## Bench copies (R490) -/

/-- The 1,216 bytes of the maps of a bench set. -/
def benchMaps (b : BenchSet) : List Byte := leBytes 608 b.set.toNat ++ leBytes 608 b.park.toNat

/-- The 1,232 bytes of a bench copy. -/
def benchCopy (b : BenchSet) (stamp : Nat) : List Byte :=
  let m := benchMaps b
  leBytes 4 b.gen ++ leBytes 4 (crc32c m) ++ leBytes 8 stamp ++ m

/-- Copy k is valid: not all zero, and its CRC is right. -/
def State.copyOk (s : State) (k : Nat) : Bool :=
  let l := memRead s.store (rsBench k) 1232
  !allZero l && decide (leAt l 4 4 = crc32c (bytesAt l 16 1216))

/-- The valid copy with the higher GEN. -/
def State.benchValid (s : State) : Option Nat :=
  match s.copyOk 0, s.copyOk 1 with
  | true, true => some (if s.rs (rsBench 0) 4 < s.rs (rsBench 1) 4 then 1 else 0)
  | true, false => some 0
  | false, true => some 1
  | false, false => none

/-- No bench set is held: both copies all zero. -/
def State.benchNone (s : State) : Bool := allZero (memRead s.store (rsBench 0) 1232 ++ memRead s.store (rsBench 1) 1232)

/-- The bench set of the record store: of the valid copy, or the empty one (R308). -/
def State.storedBench (s : State) : BenchSet :=
  match s.benchValid with
  | some k => ⟨BitVec.ofNat 4864 (s.rs (rsBench k + 16) 608), BitVec.ofNat 4864 (s.rs (rsBench k + 624) 608), s.rs (rsBench k) 4⟩
  | none => ⟨0, 0, 0⟩

/-- The Declarer writes a bench set into the copy that is not in use. -/
def writeBench (s : State) (d : DieId) (b : BenchSet) : State :=
  let k := match s.benchValid with | some 0 => 1 | _ => 0
  rsHeader { s with store := memWrite s.store (rsBench k) (benchCopy b (s.die d).ns) } (s.rs 8 4) (s.rs 12 4)

end Sys2Proof.Machine
end

