-- ==== Sys2Proof/Machine/Modes.lean ====
section
/-!
DEFINITION. Mode transitions (R50 to R60, R542): GO_DARK, RUN, BLIND HOLD, RECAL and the closing of the service lock, whose
effects other rows share; and the meanings of the mode requests.
-/

namespace Sys2Proof.Machine

/-! ## Leaving work: decks, pins, deals (R52, R58) -/

/-- The armed decks are disarmed: a pending stop is complete, a pending swap cannot be (log entry 25). The boundary a stop completes
with is none, so its result is a free value. -/
def disarmDecks (s : State) (d : DieId) : State :=
  let s1 := disarmNext s d
  let s2 := match (s1.die d).decks.current with
    | some r => match r.stop with
      | some (_, _, cs) => cs.foldl (fun s c => finish s.drawn d c (doneStatus s d 0x22 0) (s.free % 2 ^ 64) 0 0) s1
      | none => s1
    | none => s1
  s2.onDie d noDeck

/-- Every pending deal that can still be cancelled is withdrawn, or of them only those no bank die holds; their takes are late and are
not placed again. -/
def withdrawAll (s : State) (d : DieId) (held : Bool) : State :=
  ((s.die d).dealer.pending.filter (fun dl => decide (dl.stage ≠ .fixed) && (held || decide (dl.stage ≠ .sent)))).foldl
    (fun s dl => withdrawOne s d dl false) s

/-- Pinned entries are removed (R144). -/
def removePins (x : Die) : Die := { x with dealer := { x.dealer with pins := 0, pinned := [] } }

/-- The Dealer stops: decks disarmed, pins removed, deals withdrawn, DITHER_RUNs and a survey ended (R52 step 1, R229, R302). -/
def stopDealer (s : State) (d : DieId) : State :=
  let s1 := (checksGone s d (fun _ => true)).onDie d (fun x => { x with dealer := { x.dealer with stopped := true } })
  let s2 := ditherStop ((disarmDecks s1 d).onDie d removePins) d (fun _ => true)
  withdrawAll (surveyAbort s2 d) d true

/-- An APPLY that no deal took up comes in force as DARK is entered (R172). -/
def applyInDark (s : State) (d : DieId) : State :=
  match (s.die d).dealer.applyPend with
  | some (set, _) => partAtOnce s d set
  | none => s

/-- DARK is entered: slotted outputs are unassigned, loops idle, the mode word follows. -/
def enterDark (s : State) (d : DieId) : State :=
  let s1 := applyInDark s d
  let s2 := s1.onDie d (fun x =>
    let y := x.loopsDark s.ticks
    let c : Comp := { y.dealer.comp with deckHand := [] }
    { y with trans := .none, dealer := { y.dealer with stopped := false, deckHand := [], hand := c.hand.1 } })
  mirrorDecks (mirrorDealer (setBase s2 d mDark) d) d

/-! ## GO_DARK (R52) -/

/-- 2 µs in 125 ps units. -/
def i2us : Nat := 16000

/-- GO_DARK begins: the Dealer stops and a gate deal is placed at least 2 µs on. -/
def goDarkStart (s : State) (d : DieId) (byReq : Bool) : State :=
  let s1 := stopDealer s d
  let s2 := s1.onDie d (fun x =>
    let y := x.addDeal (placeOwn x (max (x.nowUp + i2us) x.limit96)) .gatesDark [] false none
    { y with trans := .goDark none byReq })
  mirrorDecks (mirrorDealer s2 d) d

/-- GO_DARK_HOLD_EXPIRY: 1 ms after the gate deal, DARK is reported. -/
def goDarkExpiry (s : State) : State :=
  match s.declarer with
  | none => s
  | some d =>
    match (s.die d).trans with
    | .goDark (some t) byReq =>
      if s.ticks - t < msT then s
      else
        let s1 := enterDark s d
        if byReq then setReqStatus s1 d 1 else s1
    | _ => s

def execGoDarkHoldExpiry (s : State) : Host.Outcome State Fault Refusal := done (goDarkExpiry s)

/-! ## The service lock closes (R519, R520) -/

/-- The lock record for the Dummy (R518): seconds of the lockout left become its end. -/
def mirrorLock (s : State) (d : DieId) : State :=
  let v := (s.die d).svc
  mirror s d (.lock v.level v.fails v.lockout)

/-- Force bits of the fault collector and of the Light Guard clear (R466, R520). -/
def clearForces (x : Die) : Die :=
  ((List.range 8).foldl (fun x w => x.setReg (Reg.FLT_FORCE w) 0) x).setReg Reg.LGD_FORCE 0

/-- SVC_CTRL.OP codes. -/
def opUnlock1 : Nat := 1
def opChallenge : Nat := 2
def opUnlock2 : Nat := 3
def opLock : Nat := 4
def opSetPw : Nat := 5

/-- What an operation clears once it has run: SVC_RESP after UNLOCK2, SVC_PW after UNLOCK1 and SET_PW. -/
def Service.cleared (v : Service) (op : Nat) : Service :=
  if op = opUnlock2 then { v with resp := List.replicate 32 0 }
  else if op = opUnlock1 || op = opSetPw then { v with pw := List.replicate 16 0 }
  else v

/-- The lock returns to Level 0 on both dies; an unlock that runs ends with LOCKED. Leaving SERVICE is for the transition under way, or
for GO_DARK's sequence when `leave` and none is. -/
def lockClose (s : State) (leave : Bool) : State :=
  let was := s.cd0.svc.level = 2 || s.cd1.svc.level = 2
  let close (x : Die) : Die :=
    let v : Service := match x.svc.busy with
      | some (op, _) => if op = opUnlock1 || op = opUnlock2 then
          { x.svc.cleared op with result := 8, busy := none, nonce := if op = opUnlock2 then none else x.svc.nonce } else x.svc
      | none => x.svc
    let y : Die := { x with svc := { v with level := 0 } }
    if was then clearForces y else y
  let s1 := (s.onDie .cd0 close).onDie .cd1 close
  if was then
    let s2 := masterReset .cd1 7 (masterReset .cd0 7 s1)
    match s2.declarer with
    | some d => if leave && (s2.die d).base = mService && decide ((s2.die d).trans = .none) then goDarkStart s2 d false else s2
    | none => s2
  else s1

/-! ## BLIND HOLD (R53 to R57) -/

/-- The bank dies that may enter BLIND HOLD do: one that holds a notice or a cut does not (R53). -/
def banksBlind (s : State) : State :=
  (List.range 8).foldl (fun s b =>
    let k := s.bank b
    if k.blind.on || k.notice.isSome || k.cut then s else s.setBank b (k.enterBlind b false s.ticks)) s

/-- In BLIND HOLD no boundary is dealt: a pending stop takes effect at once, a pending swap cannot (log entry 25). -/
def decksBlind (s : State) (d : DieId) : State :=
  match (s.die d).decks.current with
  | none => s
  | some r =>
    let s1 := match r.swap with
      | some (_, cs) => cs.foldl (fun s c => finish s d c stBusy 0 0 0) (s.onDie d (fun x =>
          { x with decks := { x.decks with current := some { r with swap := none } } }))
      | none => s
    match r.stop with
    | some (k, _, _) => deckStopped s1 d k ((s1.die d).decks.runBnd r k)
    | none => s1

/-- The Declarer's module enters BLIND HOLD; a Level 2 lock closes. By request every deal that can be cancelled is withdrawn; on control
loss a preload that a bank die holds stays (R55). -/
def enterBlind (s : State) (d : DieId) (byReq : Bool) : State :=
  let s0 := withdrawAll ((checksGone s d (fun _ => true)).onDie d (fun x => { x with trans := .none })) d byReq
  let s1 := surveyAbort (decksBlind (ditherStop s0 d (fun _ => true)) d) d
  let s2 := banksBlind (s1.onDie d (fun x =>
    { x.loopsBlind s.ticks with trans := .blindHold byReq, dealer := { x.dealer with stopped := false } }))
  let s3 := if (s2.die d).svc.level = 2 then lockClose s2 false else s2
  mirrorDecks (mirrorDealer (raiseBoth (setBase s3 d mBlind) 12) d) d

/-- The entry to BLIND HOLD is complete when no bank die's ramp runs. -/
def blindDone (s : State) : State :=
  match s.declarer with
  | none => s
  | some d =>
    match (s.die d).trans with
    | .blindHold byReq =>
      if (List.range 8).any (fun b => (s.bank b).blind.on && (s.bank b).blind.ramping) then s
      else
        let s1 := s.onDie d (fun x => { x with trans := .none })
        mirrorDealer (if byReq then setReqStatus s1 d 1 else s1) d
    | _ => s

/-- A request in progress is aborted by a trigger of higher rank (R60). -/
def abortRequest (s : State) (d : DieId) : State :=
  if (s.die d).rf Reg.RED_MODE_REQ F.RED_MODE_REQ_STATUS = 2 then setReqStatus s d 5 else s

/-- Control loss (R53, R60): from every mode that leads to BLIND HOLD, unless a thermal shutdown or an entry to BLIND HOLD is under way. -/
def controlLoss (s : State) : State :=
  match s.declarer with
  | none => banksBlind s
  | some d =>
    let x := s.die d
    let from_ := isWorking x.base || x.base = mDark || x.base = mService || x.base = mSelfCal
    match x.trans with
    | .shutdown => s
    | .blindHold _ => s
    | _ => if from_ then enterBlind (abortRequest s d) d false else s

/-- RUN from BLIND HOLD: the loops take the outputs over with the holder's first drive writes, decks resume, and those that may not are
rejected (R56). -/
def runBlind (s : State) (d : DieId) : State :=
  let s2 := loopsResume (setBase s d (maskMode (s.die d).dealer.part)) d
  let x := s2.die d
  let s3 := match x.decks.current with
    | none => s2
    | some r =>
      let begun := r.state = .running || (r.state = .waiting && decide (x.decks.runBnd r r.k ≤ x.now))
      if begun && r.desc.late = 0 then
        let s3 := disarmNext s2 d
        let s4 := s3.onDie d (fun x => dropBoundaries { x with decks := { x.decks with current := none } })
        deckEvent (countLate s4 d) d diRejected r.slot r.epoch x.now
      else if begun then
        s2.onDie d (fun x => deckResume x r)
      else s2
  mirrorDecks (mirrorDealer (setReqStatus s3 d 1) d) d

/-! ## Requests (R49, R51, R60) -/

/-- RUN's start conditions hold (R51). -/
def runAllowed (s : State) (d : DieId) : Bool :=
  !(List.range 8).any (fun b => (s.bank b).calFail) && s.cd0.thm.shutdown.isNone && s.cd1.thm.shutdown.isNone && (s.die d).cal.valid

/-- CONV_CAL starts on every bank die with an up link: the messages of SELF-CAL (R50, R278). -/
def selfCalSend (s : State) (d : DieId) : State :=
  (List.range 8).foldl (fun s b => if (s.bank b).up d then s.emit (.bank d b mConvCal []) else s) s

/-- SELF-CAL begins; its calibrations wait for one that runs (R278). -/
def selfCalStart (s : State) (d : DieId) (byReq : Bool) : State :=
  let wait := (List.range 8).any (fun b => (s.bank b).cal.isSome)
  let s1 := mirrorDealer (setBase (s.onDie d (fun x => { x with trans := .selfCal byReq 0 (!wait) })) d mSelfCal) d
  if wait then s1 else selfCalSend s1 d

/-- STANDBY is entered: dies and bank dies in reset, the snapshot frozen, permits off; the entry is logged (R486, R491, R502). -/
def standbyEnter (s : State) (d : DieId) : State :=
  let s1 := logEntry s d lgStandby []
  let hold (x : Die) : Die :=
    let sticky := (List.range 8).foldl (fun a w => a + x.reg (Reg.FLT_STICKY w) * 2 ^ (32 * w)) 0
    let y : Die := { x with life := .held 5 s.ticks, clock := Clock.reset, aon := { x.aon with snap := BitVec.ofNat 256 sticky, snapKind := 4, snapAt := x.watch s.ticks } }
    y.setReg Reg.RED_MODE mStandby
  let s2 := (s1.onDie .cd0 hold).onDie .cd1 hold
  { s2 with banks := Vector.ofFn (fun b => { Bank.reset b.val with driven := false }), mirror := Link.down,
            pins := { s2.pins with permitA := 0, permitB := 0 } }

/-- A request code, when the mode permits it; the state after it. -/
def modeGo (s : State) (d : DieId) (req : Nat) : State :=
  let b := (s.die d).base
  let go (s : State) : State := setReqStatus s d 2
  if req = 1 && (isWorking b || b = mBlind) then goDarkStart (go s) d true
  else if req = 2 && (b = mDark || b = mBlind) then
    if !runAllowed s d then setReqStatus s d 6
    else if b = mBlind then runBlind (go s) d
    else mirrorDealer ((go s).onDie d (fun x => { x.addDeal (placeOwn x x.nowInstant) .restore [] false none with trans := .runDark (maskMode x.dealer.part) })) d
  else if req = 3 && (isWorking b || b = mDark) then enterBlind (go s) d true
  else if req = 4 && b = mDark then standbyEnter s d
  else if req = 5 && b = mDark then selfCalStart (go s) d true
  else setReqStatus s d 4

/-- A write of RED_MODE_REQ.REQ (R49): code 0 is no request. -/
def modeReq (d : DieId) (req : Nat) (s : State) : State :=
  let x := s.die d
  if !x.running || req = 0 then s
  else if x.rf Reg.RED_MODE_REQ F.RED_MODE_REQ_STATUS = 2 then s.setEvent d Reg.RED_MODE_REQ F.RED_MODE_REQ_REFUSED
  else if !x.isDecl then setReqStatus s d 3
  else if x.trans ≠ .none then setReqStatus s d 5
  else modeGo s d req

def execGoDark (die : DieId) (s : State) : Host.Outcome State Fault Refusal := doneBar die (modeReq die 1) s
def execRun (die : DieId) (s : State) : Host.Outcome State Fault Refusal := doneBar die (modeReq die 2) s
def execBlindHold (die : DieId) (s : State) : Host.Outcome State Fault Refusal := doneBar die (modeReq die 3) s
def execStandby (die : DieId) (s : State) : Host.Outcome State Fault Refusal := doneBar die (modeReq die 4) s
def execRecal (die : DieId) (s : State) : Host.Outcome State Fault Refusal := doneBar die (modeReq die 5) s

end Sys2Proof.Machine
end

