-- ==== Sys2Proof/Machine/Service.lean ====
section
/-!
DEFINITION. The service lock (chapter 19): the operations of the unlock engine, attempt limiting, relocking.
-/

namespace Sys2Proof.Machine

def Die.onSvc (x : Die) (f : Service → Service) : Die := { x with svc := f x.svc }

/-- SVC_STATUS.RESULT codes. -/
def svOk : Nat := 0
def svFailed : Nat := 1
def svLockedOut : Nat := 2
def svNoNonce : Nat := 3
def svWrongMode : Nat := 4
def svNotDecl : Nat := 5
def svBusy : Nat := 6
def svNoSecret : Nat := 7
def svLocked : Nat := 8
def svNotOpen : Nat := 9

/-- A nonce is valid for 60 s (R516). -/
def Service.nonceOk (v : Service) (ticks : Nat) : Bool := v.nonce.isSome && decide (ticks - v.nonceAt < 60 * secT)

/-- Why an operation is refused as it arrives (R514 to R518); none when the engine takes it. -/
def svcRefusal (s : State) (d : DieId) (op : Nat) : Option Nat :=
  let x := s.die d
  let v := x.svc
  if v.busy.isSome then some svBusy
  else if !x.isDecl then some svNotDecl
  else if op ≠ opSetPw && v.lockout.isSome then some svLockedOut
  else if op = opUnlock1 && x.base < mDark then some svWrongMode
  else if op = opUnlock2 && x.base ≠ mDark then some svWrongMode
  else if op = opUnlock1 && s.eeprom.pw.isNone then some svNoSecret
  else if (op = opChallenge || op = opUnlock2) && (Config.kDev d).isNone then some svNoSecret
  else if op = opUnlock2 && !v.nonceOk s.ticks then some svNoNonce
  else if op = opSetPw && v.level ≠ 2 then some svNotOpen
  else none

/-- An operation other than LOCK arrives at the unlock engine. -/
def svcStart (op : Nat) (d : DieId) (s : State) : State :=
  if !(s.die d).running then s
  else
    let s1 := s.onDie d (·.onSvc (fun v => { v with lastAccess := s.ticks }))
    match svcRefusal s1 d op with
    | some r => s1.onDie d (·.onSvc (fun v => let w := if r = svBusy then v else v.cleared op; { w with result := r }))
    | none => s1.onDie d (·.onSvc (fun v => { v with busy := some (op, s.ticks) }))

def execUnlock1 (die : DieId) (s : State) : Host.Outcome State Fault Refusal := doneBar die (svcStart opUnlock1 die) s
def execChallenge (die : DieId) (s : State) : Host.Outcome State Fault Refusal := doneBar die (svcStart opChallenge die) s
def execUnlock2 (die : DieId) (s : State) : Host.Outcome State Fault Refusal := doneBar die (svcStart opUnlock2 die) s
def execSetPw (die : DieId) (s : State) : Host.Outcome State Fault Refusal := doneBar die (svcStart opSetPw die) s

/-- LOCK, on either die (R519): it wins over an unlock that runs; another running operation goes on. -/
def svcLock (d : DieId) (s : State) : State :=
  let x := s.die d
  if !x.running then s
  else
    let s1 := s.onDie d (·.onSvc (fun v => { v with lastAccess := s.ticks }))
    match x.svc.busy with
    | some (op, _) =>
      if op = opUnlock1 || op = opUnlock2 then
        let s2 := lockClose s1 true
        match s2.declarer with | some e => mirrorLock s2 e | none => s2
      else s1.onDie d (·.onSvc (fun v => { v with result := svBusy }))
    | none =>
      let s2 := lockClose (s1.onDie d (·.onSvc (fun v => { v with result := svOk }))) true
      match s2.declarer with | some e => mirrorLock s2 e | none => s2

def execLock (die : DieId) (s : State) : Host.Outcome State Fault Refusal := doneBar die (svcLock die) s

/-! ## Completion of an operation (R515, R516, R518) -/

/-- The message M of R516. -/
def challengeMsg (s : State) (d : DieId) (nonce : BitVec 128) : List Byte :=
  leBytes 16 nonce.toNat ++ leBytes 8 s.eeprom.serial.toNat ++ leBytes 1 d.num ++ [2]

/-- The password as a number, byte 0 lowest. -/
def Service.pwNat (v : Service) : BitVec 128 := BitVec.ofNat 128 (leNat v.pw)

/-- An evaluated unlock passes. -/
def svcMatch (s : State) (d : DieId) (op : Nat) : Bool :=
  let v := (s.die d).svc
  if op = opUnlock1 then s.eeprom.pw == some (Config.digest v.pwNat)
  else match Config.kDev d, v.nonce with
    | some k, some n => Config.hmac k (challengeMsg s d n) == leNat v.resp
    | _, _ => false

/-- The outcome of an evaluated unlock: the level, FAILS, the lockout of 24 h at the eighth failure. -/
def Service.judged (v : Service) (op ticks : Nat) (pass : Bool) : Service :=
  if pass then { v with level := max v.level (if op = opUnlock2 then 2 else 1), result := svOk, fails := 0, opened := satAdd 16 v.opened 1 }
  else { v with result := svFailed, fails := v.fails + 1, failed := satAdd 16 v.failed 1,
                lockout := if 8 ≤ v.fails + 1 then some (ticks + 86400 * secT) else v.lockout }

/-- SERVICE is entered: the gates return to what the hand in force gives at a deal placed as RUN's is (R36, R52). -/
def serviceEnter (s : State) (d : DieId) : State :=
  mirrorDealer ((setBase s d mService).onDie d (fun x => x.addDeal (placeOwn x x.nowInstant) .restore [] false none)) d

/-- SVC_OPERATION_DONE: the running operation ends; `random` is what the random source draws for a CHALLENGE. A successful UNLOCK2
takes DARK to SERVICE unless another transition runs (R60). -/
def svcDone (d : DieId) (random : BitVec 128) (s : State) : State :=
  let x := s.die d
  match x.svc.busy with
  | none => s
  | some (op, _) =>
    let free (v : Service) : Service := { (v.cleared op) with busy := none }
    if op = opChallenge then
      s.onDie d (·.onSvc (fun v => { (free v) with result := svOk, nonce := some random, nonceAt := s.ticks }))
    else if op = opSetPw then
      let p := Config.digest x.svc.pwNat
      let s1 := s.onDie d (·.onSvc (fun v => { (free v) with result := if v.level = 2 then svOk else svNotOpen }))
      if x.svc.level = 2 then { s1 with eeprom := { s1.eeprom with pw := some p } } else s1
    else if op = opUnlock2 && x.base ≠ mDark then s.onDie d (·.onSvc (fun v => { (free v) with result := svWrongMode }))
    else
      let pass := svcMatch s d op
      let s1 := s.onDie d (·.onSvc (fun v =>
        let w := (free v).judged op s.ticks pass
        { w with nonce := if op = opUnlock2 then none else w.nonce, lastAccess := s.ticks }))
      let s2 := if pass && op = opUnlock2 && decide (x.trans = .none) then serviceEnter s1 d else s1
      mirrorLock s2 d

def execSvcOperationDone (die : DieId) (random : BitVec 128) (s : State) : Host.Outcome State Fault Refusal :=
  done (svcDone die random s)

/-! ## Time (R516, R518, R519) -/

/-- The inactivity timeout in ticks: SVC_TIMEOUT held to 1 to 1,440 minutes. -/
def Die.svcTimeout (x : Die) : Nat := 60 * secT * clampNat 1 1440 (x.rf Reg.SVC_TIMEOUT F.SVC_TIMEOUT_MIN)

/-- SVC_INACTIVITY_TIMEOUT: the lock closes. -/
def svcInactive (s : State) : State :=
  match s.declarer with
  | none => s
  | some d =>
    let x := s.die d
    let last := max s.cd0.svc.lastAccess s.cd1.svc.lastAccess
    if x.svc.level = 0 || s.ticks - last < x.svcTimeout then s else mirrorLock (lockClose s true) d

def execSvcInactivityTimeout (s : State) : Host.Outcome State Fault Refusal := done (svcInactive s)

/-- NONCE_EXPIRY: 60 s after it was drawn. -/
def nonceExpiry (d : DieId) (s : State) : State :=
  let v := (s.die d).svc
  if v.nonce.isSome && !v.nonceOk s.ticks then s.onDie d (·.onSvc (fun v => { v with nonce := none })) else s

def execNonceExpiry (die : DieId) (s : State) : Host.Outcome State Fault Refusal := done (nonceExpiry die s)

/-- LOCKOUT_END: FAILS returns to 0. -/
def lockoutEnd (d : DieId) (s : State) : State :=
  match (s.die d).svc.lockout with
  | none => s
  | some t =>
    if s.ticks < t then s
    else
      let s1 := s.onDie d (·.onSvc (fun v => { v with lockout := none, fails := 0 }))
      mirrorLock s1 d

def execLockoutEnd (die : DieId) (s : State) : Host.Outcome State Fault Refusal := done (lockoutEnd die s)

end Sys2Proof.Machine
end

