-- ==== Sys2Proof/Machine/BankRows.lean ====
section
/-!
DEFINITION. The rows of the bank dies that reach into the control dies as well: conversions, safety shuts, CONV_CAL, BLIND HOLD by own
detection, bank links, the BNK registers with an action (chapter 08).
-/

namespace Sys2Proof.Machine

/-! ## Conversions and the token's overlap -/

/-- ADC_CONVERSION (R273, R274): the channel that the schedule gives converts. -/
def adcConversion (b adc raw : Nat) (s : State) : State :=
  match (s.bank b).nextConv adc with
  | some (l, u, k) =>
    let e := elemOf b l
    -- an urgent conversion is reported on both ports; its value goes into the store alone
    let s0 := match u with | some u => sendBoth (s.setBank b k) b rUrgent [e, u.update] | none => s.setBank b k
    converted s0 b l raw
  | none => s

def execAdcConversion (bank : Fin 8) (adc : Fin 24) (raw : BitVec 14) (s : State) : Host.Outcome State Fault Refusal :=
  done (adcConversion bank.val adc.val raw.toNat s)

/-- A new Declarer reconciles with a bank die: the applied codes become its loop outputs, and the integrator of every AUTO element is
preset to them (R428). -/
def reconcile (s : State) (d : DieId) (b : Nat) : State :=
  (List.range 736).foldl (fun s l =>
    let e := elemOf b l
    let s1 := adoptOutputs s d e
    if ((s1.die d).elem e).mode = 0 then presetInt s1 d e else s1) s

/-- OVERLAP_END (R268): 2 µs after a grant on silence the former holder is refused; a reconciliation is repeated then (R428). -/
def overlapEnd (b : Nat) (s : State) : State :=
  let k := s.bank b
  match k.overlap with
  | some (_, e) =>
    if s.ticks < e then s
    else
      let s1 := s.onBank b (fun k => { k with overlap := none })
      match k.holder with
      | some h => if (s.die h).taking && (s.die h).hasToken then reconcile s1 h b else s1
      | none => s1
  | none => s

def execOverlapEnd (bank : Fin 8) (s : State) : Host.Outcome State Fault Refusal := done (overlapEnd bank.val s)

/-! ## Safety (R270, R229) -/

/-- A shut that reaches a bank die: the gates are forced, and a DITHER_RUN with such a target stops for all its targets. -/
def shutGates (s : State) (b : Nat) (g : BitVec 128) : State :=
  let es := (gatesNamed g).map (elemOf b)
  let hit (r : DitherRun) : Bool := r.left.any (fun t => es.contains t.elem)
  let s1 := s.onBank b (·.shut g)
  ditherStop (ditherStop s1 .cd0 hit) .cd1 hit

/-- SAFETY_SHUT: on either port, whatever the token. -/
def safetyShut (p : DieId) (b : Nat) (g : BitVec 128) (s : State) : State := if (s.bank b).up p then shutGates (s.onBank b (·.heard p s.ticks)) b g else s

def execSafetyShut (port : DieId) (bank : Fin 8) (gates : BitVec 128) (s : State) : Host.Outcome State Fault Refusal :=
  done (safetyShut port bank.val gates s)

/-! ## CONV_CAL (R278, R279, R435) -/

/-- The converter, store and comparator logic of a bank die is reset. -/
def Bank.logicReset (k : Bank) : Bank :=
  { k with urgent := [], robin := [], probes := [],
           chans := spMap Chan.reset (fun _ c =>
             { c with store := Store.empty, last := Store.empty, locked := false, armed := false, cmpSum := 0, cmpCount := 0 }) k.chans }

/-- An element after a calibration of its bank die (R218): the window that spans it is discarded, no period inside it counts as missed, and
what was under way goes on from where it was held. -/
def Elem.afterCal (el : Elem) (since ticks : Nat) (held : Bool) : Elem :=
  let el1 := if held then el else el.thawHand ticks
  { el1 with discard := true, half := .none, settled := false, mPlus := none, mMinus := none, lastUpd := ticks,
             retry := el.retry.map (fun _ => ticks), ramp := el.ramp.map (fun r => { r with since := r.since + (ticks - since) }) }

/-- The elements of a bank die after its calibration, another following or not, and at its start: dither stops, hand-offs are held. -/
def Die.discardBank (x : Die) (b since ticks : Nat) (again : Bool) : Die :=
  (List.range 736).foldl (fun x l => x.onElem (elemOf b l) (·.afterCal since ticks (again || x.inRun (elemOf b l)))) (x.staleRuns b)
def Die.holdBank (x : Die) (b ticks : Nat) : Die :=
  (List.range 736).foldl (fun x l => x.onElem (elemOf b l) (fun el =>
    { (el.holdHand ticks) with half := .none, settled := false, mPlus := none, mMinus := none })) (x.staleRuns b)

/-- A block reset of a bank die: at once with a CONV_CAL of its own, or after the calibration that runs. -/
def bankBlockReset (s : State) (b : Nat) : State :=
  if (s.bank b).cal.isSome then s.onBank b (fun k => { k with calWait := true })
  else ((s.onBank b (fun k => { k.logicReset with cal := some ⟨s.ticks, 2⟩ })).onDie .cd0 (·.holdBank b s.ticks)).onDie .cd1 (·.holdBank b s.ticks)

/-- A calibration that a die's message starts belongs to SELF-CAL when that runs. -/
def calKind (x : Die) : Nat := match x.trans with | .selfCal _ _ true => 1 | _ => 0

/-- BANK_CONV_CAL_START: the holder's request. -/
def convCalStart (p : DieId) (b : Nat) (s : State) : State :=
  let k := s.bank b
  if k.up p && k.holds p && k.cal.isNone then
    let s1 := sendBoth (s.setBank b { k with cal := some ⟨s.ticks, calKind (s.die p)⟩, lastMsg := s.ticks }) b rStale []
    (s1.onDie .cd0 (·.holdBank b s.ticks)).onDie .cd1 (·.holdBank b s.ticks)
  else s

def execBankConvCalStart (port : DieId) (bank : Fin 8) (s : State) : Host.Outcome State Fault Refusal :=
  done (convCalStart port bank.val s)

/-- The bank die at the end of its calibration: every store restarts, the round-robin with its first channel, the comparators judge again
after one window; the result is kept, a block reset that waited runs. -/
def Bank.calEnd (k : Bank) (fail : BitVec 24) (ticks : Nat) : Bank :=
  let pass := fail = 0
  let k1 := { k with cal := none, calFail := !pass, adcFail := fail, calTime := if pass then k.clock / 2 ^ 40 else k.calTime,
                     robin := [],
                     chans := spMap Chan.reset (fun _ c =>
                       { c with store := c.store.restart c.locked, cmpSum := 0, cmpCount := 0, cmpSkip := true }) k.chans }
  if k.calWait then { k1.logicReset with cal := some ⟨ticks, 2⟩, calWait := false } else k1

/-- A CONV_CAL command hears of one bank die: the next is asked, or it completes with the failed dies in AUX. -/
def convCalCmd (s : State) (d : DieId) (c : Cmd) (b : Nat) (pass : Bool) : State :=
  match c.stage with
  | .convCal left failed =>
    if !left.getLsbD b then s
    else
      let left := left &&& ~~~ BitVec.ofNat 8 (2 ^ b)
      let failed := if pass then failed else failed ||| BitVec.ofNat 8 (2 ^ b)
      if left = 0 then finish s d c.id (if failed = 0 then doneStatus s d 0x78 0 else stDegraded) 0 0 failed.toNat
      else
        let s1 := s.onDie d (·.onCmd c.id (fun c => { c with stage := .convCal left failed }))
        if bitOf (leAt c.desc 17 1) 0 then s1
        else match (List.range 8).find? (fun i => left.getLsbD i) with
          | some i => s1.emit (.bank d i mConvCal [])
          | none => s1
  | _ => s

/-- SELF-CAL hears of a bank die; one that waited starts when no calibration runs. -/
def selfCalHears (s : State) (d : DieId) (b kind : Nat) : State :=
  match (s.die d).trans with
  | .selfCal byReq dn started =>
    if started then
      if kind = 1 then s.onDie d (fun x => { x with trans := .selfCal byReq (dn ||| BitVec.ofNat 8 (2 ^ b)) true }) else s
    else if (List.range 8).any (fun i => (s.bank i).cal.isSome) then s
    else selfCalSend (s.onDie d (fun x => { x with trans := .selfCal byReq 0 true })) d
  | _ => s

/-- BANK_CONV_CAL_END: a failure is an occurrence of the converter source; the one of a block reset's own calibration is marked so
that it neither resets the block again nor escalates (R278). -/
def convCalEnd (b : Nat) (fail : BitVec 24) (s : State) : State :=
  match (s.bank b).cal with
  | none => s
  | some c =>
    let s1 := sendBoth (sendBoth (s.onBank b (·.calEnd fail s.ticks)) b rCalDone [fail.toNat]) b rFresh []
    -- a block reset that waited calibrates again at once
    let again := (s1.bank b).cal.isSome
    let s2 := (s1.onDie .cd0 (·.discardBank b c.since s.ticks again)).onDie .cd1 (·.discardBank b c.since s.ticks again)
    let s3 := if fail = 0 then s2 else raiseBoth s2 (60 + 6 * b + 2) (if c.by_ = 2 then b + 256 else b)
    let cmds (s : State) (d : DieId) : State :=
      if c.by_ = 0 then (s.die d).cmds.foldl (fun s e => convCalCmd s d e b (fail = 0)) s else s
    let s4 := cmds (cmds s3 .cd0) .cd1
    selfCalHears (selfCalHears s4 .cd0 b c.by_) .cd1 b c.by_

def execBankConvCalEnd (bank : Fin 8) (adcFail : BitVec 24) (s : State) : Host.Outcome State Fault Refusal :=
  done (convCalEnd bank.val adcFail s)

/-! ## BLIND HOLD and shutdown by own detection (R53, R280, R480) -/

/-- HOLDER_SILENCE_BLIND: 1 ms since the holder's last message and since the last grant. -/
def holderSilence (b : Nat) (s : State) : State :=
  let k := s.bank b
  if k.granted && k.notice.isNone && !k.cut && !k.blind.on && decide (msT ≤ s.ticks - k.lastMsg) && decide (msT ≤ s.ticks - k.lastGrant) then
    controlLoss (sendBoth (s.onBank b (·.enterBlind b true s.ticks)) b rBlind [])
  else s

def execHolderSilenceBlind (bank : Fin 8) (s : State) : Host.Outcome State Fault Refusal := done (holderSilence bank.val s)

/-- BLIND_RAMP_STEP: the outputs move along the ramp, or track after it; the entry to BLIND HOLD ends with the last ramp. -/
def execBlindRampStep (bank : Fin 8) (s : State) : Host.Outcome State Fault Refusal :=
  done (blindDone (s.onBank bank.val (·.rampStep s.ticks)))

/-- BANK_SELF_SHUTDOWN: without a holder's voice a bank die at its shutdown threshold (R476) cuts its own drive. -/
def selfShutdown (b : Nat) (s : State) : State :=
  let k := s.bank b
  let hot := decide (150 * 128 ≤ k.own) || ((b = 0 || b = 4) && decide (140 * 128 ≤ k.fabric))
  let alone := k.holder.isNone || decide (msT ≤ s.ticks - k.lastMsg)
  if hot && alone && !k.cut then s.setBank b k.cutDrive else s

def execBankSelfShutdown (bank : Fin 8) (s : State) : Host.Outcome State Fault Refusal := done (selfShutdown bank.val s)

/-! ## Bank links (R266) -/

/-- The number of a bank-link port among the sixteen. -/
def linkNum (d : DieId) (b : Nat) : Nat := 8 * d.num + b

/-- A link loses lock: it retrains at once. -/
def linkDown (s : State) (d : DieId) (b : Nat) : State :=
  let l := (s.bank b).link d
  let s0 := if l.state = 2 then s.onDie d (fun x => { x with bankSeen := spSet [] b (bankSaved (s.bank b) d b) x.bankSeen }) else s
  let s1 := s0.onBank b (fun k => (k.setLink d { l with state := 1, bad := 0, retrains := satAdd 6 l.retrains 1 }).portLost)
  raise s1 d 124 (linkNum d b)

/-- BANK_LINK_BAD_FRAME: replayed and counted; the sixteenth in a row takes the link down. -/
def linkBadFrame (d : DieId) (b : Nat) (s : State) : State :=
  let l := (s.bank b).link d
  if l.state ≠ 2 then s
  else
    let s1 := raise (s.onBank b (·.setLink d { l with bad := l.bad + 1, crcErr := satAdd 16 l.crcErr 1 })) d 125 (linkNum d b)
    if 16 ≤ l.bad + 1 then linkDown s1 d b else s1

def execBankLinkBadFrame (die : DieId) (bank : Fin 8) (s : State) : Host.Outcome State Fault Refusal :=
  done (linkBadFrame die bank.val s)

/-- BANK_LINK_DOWN: 2 µs without lock. -/
def execBankLinkDown (die : DieId) (bank : Fin 8) (s : State) : Host.Outcome State Fault Refusal :=
  done (if ((s.bank bank.val).link die).state = 2 then linkDown s die bank.val else s)


/-! ## BNK registers with an action -/

/-- The BNK_CH_CODE word of a channel: heater code as applied, PIN code and reference, or the gate code. -/
def Bank.codeWord (k : Bank) (l : Nat) : Nat :=
  let c := k.chan l
  if 608 ≤ l then k.gateOut l
  else heaterCode k.heaterX2 c.heater + c.pin * 2 ^ 16 + b2n c.pinX2 * 2 ^ 28

/-- The snapshot of a channel. -/
def Bank.snapOf (k : Bank) (l : Nat) : ChSnap :=
  let c := k.chan l
  ⟨l, c.store, c.armed, c.locked, c.bandLo, c.bandHi, k.codeWord l⟩

/-- BNK_CH_SELECT: channels above 735 are ignored; without a link the snapshot keeps what it held. -/
def chSelect (d : DieId) (b l : Nat) (s : State) : State :=
  if 736 ≤ l then s
  else
    let s1 := s.setRf d (Reg.BNK_CH_SEL b) F.BNK_CH_SEL_CHANNEL l
    if (s.bank b).up d then
      s1.onBank b (fun k => match d with | .cd0 => { k with snapA := k.snapOf l } | .cd1 => { k with snapB := k.snapOf l })
    else s1

def execBnkChSelect (die : DieId) (bank : Fin 8) (chan : BitVec 10) (s : State) : Host.Outcome State Fault Refusal :=
  doneBar die (chSelect die bank.val chan.toNat) s

/-- BNK_PROBE_SNAP: the slot's store in the port's snapshot, restarted with it when asked. -/
def probeSnap (d : DieId) (b slot : Nat) (restart : Bool) (s : State) : State :=
  if !(s.bank b).up d then s
  else s.onBank b (fun k =>
    let st := spGet Store.empty slot k.probes
    let k1 := match d with | .cd0 => { k with probeSnapA := st } | .cd1 => { k with probeSnapB := st }
    if restart then { k1 with probes := spSet Store.empty slot (st.restart false) k1.probes } else k1)

def execBnkProbeSnap (die : DieId) (bank : Fin 8) (slot : Fin 16) (restart : Bool) (s : State) :
    Host.Outcome State Fault Refusal := doneBar die (probeSnap die bank.val slot.val restart) s

/-- The drive write a BNK_MAN word makes, with tag 15; none for a channel its output does not have. -/
def manMsg (x : Die) (b v : Nat) : Option DriveMsg :=
  let out := fget F.BNK_MAN_OUT v
  let l := fget F.BNK_MAN_CHANNEL v
  let code := fget F.BNK_MAN_CODE v
  let e := elemOf b l
  let msg (o : DriveOut) (c : Nat) : DriveMsg := ⟨l, o, c, decide (out = 2), 15, false, (x.elem e).dealSeq, (x.elem e).update⟩
  if out = 0 then (if l < 608 then some (msg .heater code) else none)
  else if out = 3 then (if 608 ≤ l && l < 736 then some (msg .gate (code % 16384)) else none)
  else if l < 608 then some (msg .pin (code % 4096)) else none

/-- The manual strobe: group 15 fires at the bank die, for its holder. -/
def manFire (d : DieId) (b : Nat) (s : State) : State :=
  let x := s.die d
  if x.isDecl && x.lockOpen then holderMsg s d b mFire 0 15 [15] true (fun s => s.onBank b (·.fire 15)) else s

/-- BNK_MAN_CODE_WRITE: a service write loads the shadow with tag 15; FIRE in the same word fires it. -/
def manWrite (d : DieId) (b v : Nat) (s : State) : State :=
  let x := s.die d
  if !(x.isDecl && x.lockOpen) then s
  else
    let s1 := putWord s d (Reg.BNK_MAN b) (fput F.BNK_MAN_FIRE v 0)
    let s2 := match manMsg x b v with
      | some m => driveWrite d b m (s1.onDie d (·.onElem (elemOf b m.chan) (fun el => { el with update := el.update + 1 })))
      | none => s1
    if fget F.BNK_MAN_FIRE v = 1 then manFire d b s2 else s2

def execBnkManCodeWrite (die : DieId) (bank : Fin 8) (value : Word32) (s : State) : Host.Outcome State Fault Refusal :=
  doneBar die (manWrite die bank.val value.toNat) s

def execBnkManFire (die : DieId) (bank : Fin 8) (s : State) : Host.Outcome State Fault Refusal := doneBar die (manFire die bank.val) s

/-! ## Heater gain (R258) -/

/-- A cell of a bank die has a W code above a limit; a heater value. -/
def anyW (x : Die) (b : Nat) (lim : Int) : Bool := (List.range 608).any (fun l => decide (lim < x.cal.cellW (elemOf b l)))
def anyHeater (k : Bank) (lim : Nat) : Bool := k.chans.any (fun p => decide (p.1 < 608) && decide (lim < p.2.heater))

/-- A gain-change message is sent. -/
def sendGain (s : State) (d : DieId) (b : Nat) (x2 : Bool) : State :=
  if (s.bank b).up d then sendTables (s.emit (.bank d b mGain [b2n x2])) d b else s

/-- The choice of a bank die's heater gain at the present temperature; `rose` says that the temperature has just risen above 0 °C,
where a blocked change to ×1 counts as deferred. -/
def chooseGain (s : State) (d : DieId) (b : Nat) (rose : Bool) : State :=
  let x := s.die d
  let k := s.bank b
  let mode := x.rf (Reg.BNK_HTR_GAIN b) F.BNK_HTR_GAIN_MODE
  let t := x.cal.tempC
  if mode = 2 then (if k.heaterX2 then s else sendGain s d b true)
  else if mode = 1 then (if k.heaterX2 then sendGain s d b false else s)
  else if !k.heaterX2 then (if decide (t < -10) || anyW x b 65535 then sendGain s d b true else s)
  else if decide (0 < t) then
    if anyHeater k 60000 || anyW x b 60000 then
      (if rose then s.count d (Reg.BNK_HTR_GAIN b) F.BNK_HTR_GAIN_DEFER else s)
    else sendGain s d b false
  else s

/-- HTR_GAIN_MODE_WRITE: Expert level, on the Declarer; a reserved mode is ignored, a fixed ×1 refused above ×1's range. -/
def gainModeWrite (d : DieId) (b m : Nat) (s : State) : State :=
  let x := s.die d
  if !x.isDecl || !x.expert 1 || m = 3 || (m = 1 && anyHeater (s.bank b) 65535) then s
  else
    let s1 := putWord s d (Reg.BNK_HTR_GAIN b) (fput F.BNK_HTR_GAIN_MODE (x.reg (Reg.BNK_HTR_GAIN b)) m)
    chooseGain s1 d b false

def execHtrGainModeWrite (die : DieId) (bank : Fin 8) (mode : BitVec 2) (s : State) : Host.Outcome State Fault Refusal :=
  doneBar die (gainModeWrite die bank.val mode.toNat) s

end Sys2Proof.Machine
end

