-- ==== Sys2Proof/Machine/Thermal.lean ====
section
/-!
DEFINITION. Thermal management (chapter 17): sensor paths, throttle levels, thermal shutdown and its release, the heater-power estimate; and
DEAL_FIRE, whose gate deals carry a class L stop on.
-/

namespace Sys2Proof.Machine

/-! ## Sensors (R473 to R475); temperatures in 1/128 °C -/

/-- The number of a path, and the sensor it reads. -/
def pathNum : SensorPath → Nat
  | .fabricBd0 => 0
  | .fabricBd4 => 1
  | .bank b => 2 + b.val
  | .control d => 10 + d.num
def pathSensor (p : Nat) : Nat := p - 1

/-- What a sensor reads for throttling: a failed bank-die sensor is replaced by the fabric temperature minus D_b (R475). -/
def Thermal.value (t : Thermal) (s : Nat) : Option Rat :=
  if s = 0 then t.fabric
  else if s ≤ 8 then
    if (t.sensor s).failed then t.fabricTemp.map (fun (f : Rat) => f - t.dB.getD (s - 1) 0)
    else (t.good (s + 1)).map (fun (r : Int) => ((r : Int) : Rat))
  else (t.good (s + 1)).map (fun (r : Int) => ((r : Int) : Rat))

/-- A sensor counts for the module level. -/
def Thermal.counts (t : Thermal) (s : Nat) : Bool := !(t.sensor s).failed || (decide (1 ≤ s) && decide (s ≤ 8))

/-- A path takes a reading (R474): outside −70 to +170 °C, or more than 10 °C from the last accepted one, it is discarded; the third in a
row fails the path. -/
def SPath.read (p : SPath) (r : Int) : SPath :=
  if p.failed then p
  else
    let far := match p.last with | some l => decide (1280 < r - l) || decide (r - l < -1280) | none => false
    if decide (r < -8960) || decide (21760 < r) || far then { p with bad := p.bad + 1, failed := decide (3 ≤ p.bad + 1) }
    else { p with last := some r, bad := 0 }

/-- Sensors fail with their paths; when the one that sets the level fails at T1 or above, the level freezes (R474, R479). -/
def Thermal.failSensor (t : Thermal) (s : Nat) : Thermal :=
  let bad := if s = 0 then (t.path 0).failed && (t.path 1).failed else (t.path (s + 1)).failed
  let v := t.sensor s
  if bad && !v.failed then
    { t.setSensor s { v with failed := true } with frozen := t.frozen || (decide (1 ≤ t.level) && t.levelSensor = s) }
  else t

/-- The filters of O_f and D_b take a reading: 10 s at one reading per 1 ms (R475, R282). -/
def Thermal.offsets (t : Thermal) (p : Nat) : Thermal :=
  if p < 2 then
    match t.fabric, t.bankMean with
    | some f, some m => { t with oF := t.oF + (f - m - t.oF) / 10000 }
    | _, _ => t
  else if p < 10 then
    match t.fabricTemp, t.good p with
    | some f, some r => { t with dB := t.dB.setIfInBounds (p - 2) (t.dB.getD (p - 2) 0 + (f - ((r : Int) : Rat) - t.dB.getD (p - 2) 0) / 10000) }
    | _, _ => t
  else t

/-! ## Levels (R476, R477, R479) -/

/-- Threshold i of a sensor, 0 to 2 for T1 to T3 and 3 for shutdown: as written, never above its power-on value. -/
def thresh (x : Die) (s i : Nat) : Rat :=
  let k := if s = 0 then 0 else if s ≤ 8 then 1 else 2
  let at_ (w : Nat) : Nat := bitsOf w (8 * i + 7) (8 * i)
  (((128 * min (at_ (x.reg (Reg.THM_THR k))) (at_ (thrDefault k)) : Nat)) : Rat)

/-- The level of a sensor after a reading: it rises at once and falls by one after 100 readings 3 °C below. -/
def Sensor.step (v : Sensor) (x : Die) (s : Nat) (r : Rat) : Sensor :=
  let lv := ((List.range 3).filter (fun i => decide (thresh x s i ≤ r))).length
  if v.level < lv then { v with level := lv, below := 0 }
  else if v.level = 0 then v
  else if r ≤ thresh x s (v.level - 1) - 384 then
    if 100 ≤ v.below + 1 then { v with level := v.level - 1, below := 0 } else { v with below := v.below + 1 }
  else { v with below := 0 }

/-- The sensors that count, with their level and value. -/
def Thermal.ranked (t : Thermal) : List (Nat × Nat × Rat) :=
  ((List.range 11).filter t.counts).filterMap (fun s => (t.value s).map (fun (r : Rat) => (s, (t.sensor s).level, r)))

/-- The module level and the sensor that sets it: of those at the highest level, the one with the least margin below its next threshold. -/
def moduleLevel (x : Die) : Nat × Nat :=
  let l := x.thm.ranked
  let m := l.foldl (fun a e => max a e.2.1) 0
  if m = 0 then (0, 0xF)
  else
    let best := (l.filter (fun e => e.2.1 = m)).foldl (fun (a : Option (Nat × Rat)) e =>
      let g := thresh x e.1 m - e.2.2
      match a with
      | none => some (e.1, g)
      | some (s, h) => if g < h then some (e.1, g) else some (s, h)) none
    (m, (best.map (·.1)).getD 0xF)

/-- The level follows the sensors; a frozen one never falls. -/
def Die.levelled (x : Die) : Die :=
  let (m, s) := moduleLevel x
  if x.thm.frozen && decide (m ≤ x.thm.level) then x else { x with thm := { x.thm with level := m, levelSensor := s } }

/-- What a change of level means for the decks of the Declarer (R176): announced, and after T3 resumed at the next epoch boundary. -/
def deckLevels (s : State) (d : DieId) (was : Die) : State :=
  let x := s.die d
  if !x.isDecl || x.thm.level = was.thm.level then s
  else
    let s1 := if 3 ≤ was.thm.level && x.thm.level < 3 && x.base ≠ mBlind then
        s.onDie d (fun x => match x.decks.running with | some r => deckResume x r | none => x)
      else s
    let s1 := planOverrun s1 d
    match x.decks.running with
    | none => s1
    | some r =>
      let say (s : State) (on : Bool) (ev k : Nat) : State := if on then deckEvent s d ev r.slot (k / r.desc.epoch) (x.decks.runBnd r k) else s
      let s2 := say s1 (was.deckSkip && !x.deckSkip) diSkipOff r.k
      let s3 := say s2 (!was.deckSkip && x.deckSkip) diSkipOn r.k
      let s4 := say s3 (decide (was.thm.level < 3) && decide (3 ≤ x.thm.level)) diPause r.k
      mirrorDecks (say s4 (decide (3 ≤ was.thm.level) && decide (x.thm.level < 3)) diResume (r.desc.epochFrom r.k)) d

/-! ## Thermal shutdown (R480, R483, R484, R58) -/

/-- A message on all bank links of a die. -/
def sendBanks (s : State) (d : DieId) (kind : Nat) : State :=
  (List.range 8).foldl (fun s b => if (s.bank b).up d then s.emit (.bank d b kind []) else s) s

/-- The shutdown record (R491). -/
def logShutdown (s : State) (d : DieId) (h : Shutdown) : State :=
  let x := s.die d
  logEntry s d lgThermal (leBytes 1 (b2n h.classH) ++ leBytes 1 h.sensor ++ leBytes 2 (codeOf 16 h.reading) ++
    leBytes 1 x.thm.level ++ leBytes 1 x.base)

/-- A shutdown's stop is complete: drive is cut, DARK is entered. -/
def shutdownEnds (s : State) (d : DieId) (classH : Bool) : State := enterDark (stopDone (sendBanks s d mCut) classH) d

/-- The base modes from which a shutdown takes the module to DARK (R58). -/
def stopsFrom (base : Nat) : Bool := isWorking base || base = mService || base = mBlind

/-- Class L: hold by feed-forward with frozen integrators, hand-offs, then output and input gates (R483). -/
def orderlyStop (s : State) (d : DieId) : State :=
  let s1 := stopDealer s d
  let cells := (((s1.die d).hold).filter (fun e => e.2.mode = 0 && isCell e.1)).map (·.1)
  let s2 := cells.foldl (fun s c => if stale s c || (s.die d).inRun c then s else holdCell s d c) (s1.onDie d (·.loopsIdle))
  let onPin := (((s2.die d).hold).filter (fun e => e.2.onPin && !e.2.handoff && e.2.mode = 0)).map (·.1)
  let s3 := onPin.foldl (fun s c => match handoffTarget ((s.die d).elem c) with
    | some t => beginHandoff s d c t
    | none => s.onDie d (·.onElem c (fun el => { el with deferred := true }))) s2
  let s4 := s3.onDie d (fun x =>
    let t := placeOwn x x.nowInstant
    let y := x.addDeal t .outDark [] false none
    { y.addDeal (placeOwn y (t + i100ns)) .gatesDark [] false none with trans := .shutdown })
  mirrorDecks (mirrorDealer s4 d) d

/-- The module takes the way to DARK that its mode and class give (R58). In DARK it stays there; in BOOT, with no Declarer or with one in BOOT, and
in SELF-CAL the drive is cut, nothing is left to stop, and the mode goes on along its normal path. `by_` is the die that decided. -/
def shutdownMode (s : State) (by_ : DieId) (h : Shutdown) : State :=
  match s.declarer with
  | none => stopDone (logShutdown s by_ h) h.classH
  | some d =>
    let x := s.die d
    let s0 := logShutdown s d h
    if !stopsFrom x.base then
      let s1 := if x.base = mDark then abortRequest (withdrawAll (s0.onDie d (fun x => { x with trans := .none })) d true) d else s0
      stopDone (sendBanks s1 d mCut) h.classH
    else
      let s1 := abortRequest s0 d
      let s2 := s1.onDie d (fun x => { x with trans := .shutdown })
      let s3 := if x.svc.level = 2 then mirrorLock (lockClose s2 false) d else s2
      if h.classH then shutdownEnds (stopDealer s3 d) d true else orderlyStop s3 d

/-- A die decides a thermal shutdown: source 219, the notice, in class H or in BOOT and SELF-CAL the cut; the module stops once. -/
def decideShutdown (s : State) (d : DieId) (sensor : Nat) (reading : Int) : State :=
  let x := s.die d
  let h : Shutdown := ⟨x.thm.classH || x.thm.budget, s.ticks, false, sensor, reading⟩
  let first := (s.die d.peer).thm.shutdown.isNone
  let s1 := raise (s.onDie d (fun x =>
    ({ x with thm := { x.thm with shutdown := some h } } : Die).count Reg.THM_SHUT_CNT F.THM_SHUT_CNT_COUNT)) d 219
  let s2 := sendBanks s1 d mNotice
  let early := x.base < mDark
  let s3 := if h.classH || early then sendBanks s2 d mCut else s2
  if first then shutdownMode s3 d h else s3

/-- One die takes a reading of a path. -/
def takeReading (s : State) (d : DieId) (p : Nat) (r : Int) : State :=
  let x := s.die d
  let sn := pathSensor p
  let pt := (x.thm.path p).read r
  let accepted := decide (pt.last = some r) && pt.bad = 0 && !pt.failed
  let t1 := ({ x.thm with paths := x.thm.paths.setIfInBounds p pt }.failSensor sn).offsets p
  let y : Die := { x with thm := t1 }
  let z : Die := match t1.value sn with
    | some v => { y with thm := t1.setSensor sn ((t1.sensor sn).step y sn v) }
    | none => y
  -- the diode of a bank die has failed (R277)
  let s0 := if 2 ≤ p && p < 10 && pt.failed && !(x.thm.path p).failed then raise (s.setDie d z.levelled) d (60 + 6 * (p - 2) + 5) (p - 2)
    else s.setDie d z.levelled
  let s1 := deckLevels s0 d x
  match (s1.die d).thm.value sn with
  | some v =>
    if accepted && !(t1.sensor sn).failed && decide (thresh y sn 3 ≤ v) && (s1.die d).thm.shutdown.isNone then
      decideShutdown s1 d sn (roundRat v)
    else s1
  | none => s1

/-- A path's reading reaches a die: a bank die's over its link, a control die's own or over the mirror link. -/
def pathReaches (s : State) (d : DieId) : SensorPath → Bool
  | .fabricBd0 => (s.bank 0).up d
  | .fabricBd4 => (s.bank 4).up d
  | .bank b => (s.bank b.val).up d
  | .control e => e = d || s.mirror.state = 2

/-- A bank die takes a reading of a diode: its temperature filter runs up to it (R283). -/
def bankReads (s : State) (b : Nat) (f : Bank → Bank) : State :=
  s.onBank b (fun k => if k.blind.tempAt.isSome then f (k.filterTemp b s.ticks) else (f k).filterTemp b s.ticks)

/-- SENSOR_READING (R473): kept by the bank die that converts it, taken by both thermal managers. -/
def sensorReading (p : SensorPath) (r : Int) (s : State) : State :=
  let s1 := match p with
    | .fabricBd0 => bankReads s 0 (fun k => { k with fabric := r })
    | .fabricBd4 => bankReads s 4 (fun k => { k with fabric := r })
    | .bank b => bankReads s b.val (fun k => { k with own := r })
    | .control _ => s
  let go (s : State) (d : DieId) : State :=
    if (s.die d).enginesRun && pathReaches s d p then takeReading s d (pathNum p) r else s
  go (go s1 .cd0) .cd1

def execSensorReading (path : SensorPath) (temp : Int) (s : State) : Host.Outcome State Fault Refusal :=
  done (sensorReading path temp s)

/-- A control die whose shutdown's stop is not complete after 5 ms, if any: the Declarer before another. -/
def stopOverdue (s : State) : Option DieId :=
  let late (d : DieId) : Bool := match (s.die d).thm.shutdown with
    | some h => !h.done && decide (5 * msT ≤ s.ticks - h.since)
    | none => false
  match s.declarer with
  | some d => if late d || late d.peer then some d else none
  | none => [DieId.cd0, DieId.cd1].find? late

/-- CLASS_L_STOP_TIMEOUT: a stop not complete after 5 ms goes on as class H (R483). -/
def classLTimeout (s : State) : State :=
  match stopOverdue s with
  | none => s
  | some d =>
      if s.declarer ≠ some d then stopDone (sendBanks s d mCut) true
      else if !stopsFrom (s.die d).base then stopDone (sendBanks s d mCut) true
      else shutdownEnds (withdrawAll (s.onDie d (fun x => { x with trans := .none })) d true) d true

def execClassLStopTimeout (s : State) : Host.Outcome State Fault Refusal := done (classLTimeout s)

/-- After a deal: the input gates of a class L stop are dark, and the stop is complete (R483); deferred cells release. -/
def shutdownStep (s : State) : State :=
  match s.declarer with
  | none => s
  | some d =>
    let x := s.die d
    match x.trans with
    | .shutdown =>
      if [x, s.die d.peer].any (fun y => y.thm.shutdown.any (·.done)) then
        let s1 := s.onDie d (fun x => { x with hold := spMap Elem.reset (fun _ el =>
          if el.deferred then { el with deferred := false, onPin := false, pinPhi := 0, phi := if el.cross then 1 else 0 } else el) x.hold })
        shutdownEnds s1 d false
      else s
    | _ => s

/-! ## Release (R485) -/

/-- Every valid sensor is at least 3 °C below its T1 threshold. -/
def coolEnough (x : Die) : Bool :=
  ((List.range 11).filter (fun s => !(x.thm.sensor s).failed)).all (fun s => match x.thm.value s with
    | some v => decide (v ≤ thresh x s 0 - 384)
    | none => true)

/-- THM_RELEASE: refused while a sensor is too warm or the stop still runs; accepted, drive is enabled again at every bank die a holder
reaches, and the loops of both dies go to their feed-forward values, over 1 ms as R55 describes. -/
def thmRelease (d : DieId) (s : State) : State :=
  let x := s.die d
  let stopping := match s.declarer with | some e => decide ((s.die e).trans = .shutdown) | none => false
  if !x.running || (s.cd0.thm.shutdown.isNone && s.cd1.thm.shutdown.isNone) then s
  else if !coolEnough x || stopping then s.setEvent d Reg.THM_STATUS F.THM_STATUS_REL_REFUSED
  else
    let clear (y : Die) : Die :=
      let z : Die := match y.thm.shutdown with | some h => y.setRf Reg.THM_STATUS F.THM_STATUS_SHUT_H (b2n h.classH) | none => y
      { z with thm := { z.thm with shutdown := none } }
    let s1 := (s.onDie .cd0 clear).onDie .cd1 clear
    let reach (k : Bank) : Bool := match k.holder with | some p => k.up p | none => false
    let s2 := (List.range 8).foldl (fun s b =>
      s.onBank b (fun k => if reach k then { k with notice := none, cut := false } else k)) s1
    let warm (s : State) (e : DieId) : State :=
      if !(s.die e).isDecl && !(s.die e).isDummy then s
      else ((List.range 5888).filter (fun c => decide (((s.die e).elem c).mode = 0))).foldl (fun s c =>
        rampToFf (s.onDie e (·.onElem c (fun el => { el with int := .zero, prop := .zero }))) e c) s
    warm (warm s2 .cd0) .cd1

def execThmRelease (die : DieId) (s : State) : Host.Outcome State Fault Refusal := doneBar die (thmRelease die) s

/-! ## Heater power (R482) -/

/-- The power of all heaters as applied, in W, at 380 Ω (R257). -/
def heaterWatts (s : State) : Rat :=
  let sq := (List.range 8).foldl (fun a b =>
    let k := s.bank b
    k.chans.foldl (fun a c =>
      let v := heaterCode k.heaterX2 c.2.heater * (if k.heaterX2 then 2 else 1)
      if c.1 < 608 then a + v * v else a) a) 0
  ((sq : Nat) : Rat) * 25 / 4 / (65536 * 65536 * 380)

/-- The lit outputs of the hand in force. -/
def litCount (h : Hand) : Nat := (h.filter (fun p => entLit p.2 && decide (entStep p.2 < 15))).length

/-- HEATER_POWER_ESTIMATE: every 1 ms; in class L the budget condition comes and goes with 100 estimates in a row. -/
def powerEstimate (d : DieId) (s : State) : State :=
  let x := s.die d
  if !x.enginesRun then s
  else
    let w := heaterWatts s
    let lit := litCount x.dealer.hand
    let above := !x.thm.classH && (decide (12 < w) || decide (256 < lit))
    let t := x.thm
    let o := if above then t.above + 1 else 0
    let i := if above then 0 else t.within + 1
    s.setDie d { x with thm := { t with power := min 65535 (w * 100).floor.toNat, lit := lit, above := o, within := i,
                                        budget := if t.budget then decide (i < 100) else decide (100 ≤ o) } }

def execHeaterPowerEstimate (die : DieId) (s : State) : Host.Outcome State Fault Refusal := doneUp die (powerEstimate die) s

end Sys2Proof.Machine
end

