-- ==== Sys2Proof/Machine/Guard.lean ====
section
/-!
DEFINITION. The Light Guard (chapter 15): guard zones, the 1oo2 and 2oo2 rules of the two safety units, permits, S-DUAL and S-BLACK
telegrams, configuration.
-/

namespace Sys2Proof.Machine

/-! ## Units (R440, R441) -/

/-- A safety unit runs: only a loss of power, MODRST_N and STANDBY hold it. -/
def unitOn (s : State) (u : DieId) : Bool := match (s.die u).life with | .held k _ => 2 ≤ k && k ≤ 4 | _ => true

def Die.onLgd (x : Die) (f : Lgd → Lgd) : Die := { x with lgd := f x.lgd }
def Lgd.zone (l : Lgd) (z : Nat) : Zone := l.zones.getD z Zone.reset
def Lgd.setZone (l : Lgd) (z : Nat) (v : Zone) : Lgd := { l with zones := l.zones.setIfInBounds z v }
def Lgd.onZone (l : Lgd) (z : Nat) (f : Zone → Zone) : Lgd := l.setZone z (f (l.zone z))
def Lgd.permit (l : Lgd) (k : Nat) : Permit := l.permits.getD k Permit.reset
def Lgd.onPermit (l : Lgd) (k : Nat) (f : Permit → Permit) : Lgd := { l with permits := l.permits.setIfInBounds k (f (l.permit k)) }
def Lgd.conn (l : Lgd) (c : Nat) : Conn := spGet Conn.reset c l.conns
def Lgd.setConn (l : Lgd) (c : Nat) (v : Conn) : Lgd := { l with conns := spSet Conn.reset c v l.conns }
def Lgd.onSd (l : Lgd) (f : SDual → SDual) : Lgd := { l with sd := f l.sd }

/-- Applies a change to every unit that runs: what both units know over the cross-link; a unit without it only to itself. -/
def onUnits (s : State) (f : State → DieId → State) : State :=
  let go (s : State) (u : DieId) : State := if unitOn s u then f s u else s
  go (go s .cd0) .cd1

/-- The units that share what one of them receives: both while the cross-link is up. -/
def sharers (s : State) (u : DieId) : List DieId := if (s.die u).lgd.xlink && unitOn s u.peer then [u, u.peer] else [u]

/-- A SAFETY event of a unit (R458): kind, index, and the units that decided. -/
def safetyEvent (s : State) (u : DieId) (kind idx who : Nat) : State :=
  if (s.die u).running then event s u evSafety (leBytes 1 kind ++ leBytes 1 idx ++ leBytes 1 who) else s
def unitBit (u : DieId) : Nat := 2 ^ u.num

/-! ## Inputs with their forces (R445, R449, R461) -/

def Die.zoneEn (x : Die) (z : Nat) : Bool := x.rbit (Reg.LGD_ZCFG z) F.LGD_ZCFG_EN
def Die.closedA (x : Die) (z : Nat) : Bool := (x.lgd.zone z).chA && !bitOf (x.rf Reg.LGD_FORCE F.LGD_FORCE_OPEN_A) z
def Die.closedB (x : Die) (z : Nat) : Bool := (x.lgd.zone z).chB && !bitOf (x.rf Reg.LGD_FORCE F.LGD_FORCE_OPEN_B) z
def Die.sdEn (x : Die) : Bool := x.rbit Reg.LGD_SD_CFG F.LGD_SD_CFG_EN

/-- SAFE_ESTOP_N acts as asserted for a unit: the pin, the ESTOP bit of S-DUAL, or a force. -/
def Die.estop (x : Die) : Bool := x.lgd.eClear.isNone || (x.sdEn && x.lgd.sd.estop) || x.rbit Reg.LGD_FORCE F.LGD_FORCE_ESTOP

/-- A zone is open by S-DUAL. -/
def Die.remoteOpen (x : Die) (z : Nat) : Bool :=
  x.sdEn && x.rbit (Reg.LGD_ZCFG z) F.LGD_ZCFG_REMOTE && (bitOf x.lgd.sd.remoteOpen z || x.lgd.sd.safe)

/-- A zone is open (R445). -/
def Die.zoneOpen (x : Die) (z : Nat) : Bool :=
  (x.rbit (Reg.LGD_ZCFG z) F.LGD_ZCFG_LOCAL && !(x.closedA z && x.closedB z)) || x.remoteOpen z || x.estop

/-! ## Gate sets (R446, R448) -/

/-- The gates of a bank die that a zone maps: input gates 0 to 63, output gates 64 to 127. -/
def zoneGates (x : Die) (z b : Nat) : BitVec 128 :=
  let w (i : Nat) : Nat := x.reg (Reg.LGD_ZMAP z i)
  BitVec.ofNat 128 (w (2 * b) + w (2 * b + 1) * 2 ^ 32 + w (16 + 2 * b) * 2 ^ 64 + w (17 + 2 * b) * 2 ^ 96)

/-- The gates that must stay shut: of every enabled zone that is not READY, of zone E, and of inputs whose connection is lost. -/
def blockedGates (x : Die) (b : Nat) : BitVec 128 :=
  if x.lgd.eTripped then BitVec.allOnes 128
  else
    let zs := (List.range 4).foldl (fun (a : BitVec 128) z =>
      if x.zoneEn z && (x.lgd.zone z).state != ZoneState.ready then a ||| zoneGates x z b else a) 0
    x.lgd.conns.foldl (fun (a : BitVec 128) c =>
      let p := fget F.LGD_CONN_CFG_PORT c.2.cfg.toNat
      if c.2.inputShut && decide (p / 64 = b) then a ||| BitVec.ofNat 128 (2 ^ (p % 64)) else a) zs

/-- A unit sends a shut or a release on its bank links for the gate sets given. -/
def sendGates (s : State) (u : DieId) (kind : Nat) (g : Nat → BitVec 128) : State :=
  (List.range 8).foldl (fun s b =>
    if (s.bank b).up u && g b != 0 then s.emit (.bank u b kind [(g b).toNat]) else s) s

/-- The gates of a bank die that are forced shut. -/
def Bank.forcedGates (k : Bank) : BitVec 128 :=
  (List.range 128).foldl (fun (a : BitVec 128) i => if (k.chan (608 + i)).forced then a ||| BitVec.ofNat 128 (2 ^ i) else a) 0

/-- A unit shuts again, over a bank link that has come up, the gates that it holds shut (R446, R447). -/
def shutAgain (s : State) (u : DieId) (b : Nat) : State :=
  if unitOn s u then sendGates s u mShut (fun k => if k = b then blockedGates (s.die u) b else 0) else s

/-- BANK_LINK_UP: an attempt regains lock (R266). -/
def linkUp (d : DieId) (b : Nat) (s : State) : State :=
  let l := (s.bank b).link d
  let held := match (s.die d).life with | .held _ _ => true | _ => false
  if l.state = 3 || l.state = 2 || held then s else shutAgain (s.onBank b (·.setLink d { l with state := 2, bad := 0 })) d b

def execBankLinkUp (die : DieId) (bank : Fin 8) (s : State) : Host.Outcome State Fault Refusal := done (linkUp die bank.val s)

/-- A unit is sound: its self-test passes and its peer does not judge it faulty. -/
def sound (s : State) (u : DieId) : Bool := unitOn s u && (s.die u).lgd.ok && (s.die u.peer).lgd.peerOk

/-- Both units are sound: what gives light back needs both (R442, R443). -/
def bothSound (s : State) : Bool := sound s .cd0 && sound s .cd1

/-- A unit sends releases while it is sound (R443). -/
def sendRelease (s : State) (u : DieId) (g : Nat → BitVec 128) : State := if sound s u then sendGates s u mRelease g else s

/-- The longest reactions measured; in the model a reaction follows the filter at once (R452). -/
def noteReact (s : State) (u : DieId) (tele : Bool) : State :=
  s.onDie u (fun x =>
    let f := clampNat 10 150 (x.rf Reg.LGD_GCFG F.LGD_GCFG_FILTER_US)
    let fld := if tele then F.LGD_REACT_TELEGRAM_US else F.LGD_REACT_GATE_US
    x.setRf Reg.LGD_REACT fld (max f (x.rf Reg.LGD_REACT fld)))

/-- A unit's releases of gates that nothing holds shut any more, and the holder's rewrite of them in group 10 (R448). -/
def releaseGates (s : State) (g : Nat → BitVec 128) : State :=
  let free (u : DieId) (b : Nat) : BitVec 128 := g b &&& ~~~ blockedGates (s.die u) b
  let s1 := onUnits s (fun s u => sendRelease s u (free u))
  match s1.declarer with
  | none => s1
  | some d =>
    if isWorking (s1.die d).base || (s1.die d).base = mService then
      (List.range 8).foldl (fun s b => ((List.range 128).filter (fun i => (free d b).getLsbD i)).foldl (fun s i =>
        let e := elemOf b (608 + i)
        driveOut s d e .gate ((s.die d).elem e).uGate false 10) s) s1
    else s1

/-! ## ZSL telegrams (R453, R454) -/

/-- A telegram's bytes. -/
def zslBytes (cls type conn seq wd : Nat) (payload : List Byte) : List Byte :=
  let b := beBytes 1 (16 + cls) ++ beBytes 1 type ++ beBytes 2 conn ++ beBytes 2 seq ++ beBytes 2 wd ++ padTo 16 payload
  b ++ beBytes 4 (crc32c b)

/-- Length, VERSION, CLASS, TYPE, SCRC and CONN_ID of a telegram are right. -/
def zslOk (b : List Byte) (cls type conn : Nat) : Bool :=
  b.length = 28 && decide (beAt b 0 1 = 16 + cls) && decide (beAt b 1 1 = type) && decide (beAt b 2 2 = conn) &&
    decide (beAt b 24 4 = crc32c (b.take 24))

/-- SEQ lies 1 to 8 ahead of the last accepted one; the first may be any. -/
def zslAhead (last : Option Nat) (seq : Nat) : Bool :=
  match last with
  | none => true
  | some l => let n := (seq + 65536 - l) % 65536; 1 ≤ n && n ≤ 8

/-- A connection's watchdog: the smaller of the telegram's and the configured one. -/
def zslLimit (sent cfg : Nat) : Nat := msT * min (clampNat 1 1000 sent) (clampNat 1 1000 cfg)

/-- The telegram leaves a control port of the unit's die, in queue 30 (R452). -/
def zslSend (s : State) (u : DieId) (port : Nat) (frame telegram : List Byte) : State :=
  if (s.die u).running then (egress (s.emit (.zsl u telegram)) u port 0 none true ⟨frame, false, 0, none, false⟩).1 else s

/-! ## S-BLACK STATE (R457) -/

/-- SHUT of a connection: a named zone, or zone E, is not READY. -/
def Die.connShut (x : Die) (c : Conn) : Bool :=
  x.lgd.eTripped || (List.range 4).any (fun z => bitOf (fget F.LGD_CONN_CFG_ZONES c.cfg.toNat) z && (x.lgd.zone z).state != ZoneState.ready)

def connEn (c : Conn) : Bool := fget F.LGD_CONN_CFG_EN c.cfg.toNat != 0
def connWd (c : Conn) : Nat := clampNat 1 1000 (fget F.LGD_CONN_ID_WATCHDOG_MS c.id.toNat)

/-- The frame of a STATE telegram: to the connection's MAC and VLAN under the EtherType. -/
def connFrame (x : Die) (u : DieId) (port : Nat) (c : Conn) (t : List Byte) : List Byte :=
  let vid := fget F.LGD_CONN_ADDR_VLAN c.addr.toNat
  let f := beBytes 6 (fget F.LGD_CONN_ADDR_MAC c.addr.toNat) ++ beBytes 6 (Config.ownMac u port).toNat ++
    (if vid = 0 then [] else beBytes 2 0x8100 ++ beBytes 2 vid) ++ beBytes 2 (x.rf Reg.PRS_ETYPE F.PRS_ETYPE_ZSL) ++ t
  padTo (max 60 f.length) f

/-- One STATE of a connection, on each network it names, with one SEQ. -/
def sendState (s : State) (c : Nat) : State :=
  let seq := max (s.cd0.lgd.conn c).txSeq (s.cd1.lgd.conn c).txSeq
  onUnits s (fun s u =>
    let x := s.die u
    let k := x.lgd.conn c
    if !connEn k then s
    else
      let shut := x.connShut k
      let net := if u = .cd0 then F.LGD_CONN_CFG_NET_A else F.LGD_CONN_CFG_NET_B
      let port := fget (if u = .cd0 then F.LGD_CONN_CFG_CPORT_A else F.LGD_CONN_CFG_CPORT_B) k.cfg.toNat
      let t := zslBytes 2 0x11 (fget F.LGD_CONN_ID_CONN_ID k.id.toNat) seq (connWd k) (leBytes 1 (b2n shut + 2 * b2n x.lgd.eTripped))
      let s1 := s.onDie u (·.onLgd (fun l => l.setConn c { k with
        shut := shut, txSeq := (seq + 1) % 65536, state := if k.state = 0 then 1 else k.state,
        lastAt := if k.state = 0 then s.ticks else k.lastAt }))
      if fget net k.cfg.toNat = 1 then zslSend s1 u port (connFrame x u port k t) t else s1)

/-- The connections that name a zone, or all for zone E (z = 4). -/
def connsOf (s : State) (u : DieId) (z : Nat) : List Nat :=
  (((s.die u).lgd.conns).filter (fun c => connEn c.2 && (z = 4 || bitOf (fget F.LGD_CONN_CFG_ZONES c.2.cfg.toNat) z))).map (·.1)

/-! ## Permits (R450) -/

/-- The base mode the Light Guard goes by: the Declarer's, or BLIND HOLD when bank dies hold alone. -/
def moduleBase (s : State) : Nat :=
  match s.declarer with
  | some d => (s.die d).base
  | none => if (List.range 8).any (fun b => (s.bank b).blind.on) then mBlind else mBoot

/-- Heater and PIN drive are disabled by a thermal shutdown whose stop is complete (R483, R484). -/
def Die.driveCut (x : Die) : Bool := x.thm.shutdown.any (·.done)

/-- A unit finds every condition of a permit true. -/
def permitOk (s : State) (u : DieId) (k : Nat) : Bool :=
  let x := s.die u
  let w := x.reg (Reg.LGD_PCFG k)
  let zs := fget F.LGD_PCFG_ZONES w
  fget F.LGD_PCFG_EN w = 1 && !x.lgd.eTripped &&
    (List.range 4).all (fun z => !bitOf zs z || (x.lgd.zone z).state == ZoneState.ready) &&
    (fget F.LGD_PCFG_SDUAL w = 0 || !x.sdEn || (bitOf x.lgd.sd.permitReq k && !x.lgd.sd.safe)) &&
    !(x.lgd.permit k).latched && bothSound s && x.lgd.xlink && x.lgd.cfgMatch &&
    decide (mDark ≤ moduleBase s) && !s.cd0.driveCut && !s.cd1.driveCut

/-- The levels of the permit pins follow the grants. -/
def permitPins (s : State) : State :=
  let on (u : DieId) : BitVec 8 := BitVec.ofNat 8 ((List.range 8).foldl (fun a k =>
    a + b2n (unitOn s u && ((s.die u).lgd.permit k).granted) * 2 ^ k) 0)
  { s with pins := { s.pins with permitA := on .cd0, permitB := on .cd1 } }

/-- A unit removes the permits whose conditions fail. -/
def dropPermits (s : State) (u : DieId) : State :=
  (List.range 8).foldl (fun s k =>
    let p := (s.die u).lgd.permit k
    let ok := permitOk s u k
    let s1 := s.onDie u (·.onLgd (·.onPermit k (fun p => { p with want := ok, granted := p.granted && ok })))
    if p.granted && !ok then safetyEvent s1 u 4 k (unitBit u) else s1) s

/-! ## Trips (R446, R447, R449) -/

/-- The zones, permits and connections of a unit after a shut of a zone (z = 4: zone E). -/
def afterShut (s : State) (u : DieId) (z : Nat) : State :=
  let g (b : Nat) : BitVec 128 := if z = 4 then BitVec.allOnes 128 else zoneGates (s.die u) z b
  let s1 := noteReact (sendGates s u mShut g) u false
  let cs := connsOf s1 u z
  let s2 := cs.foldl sendState s1
  dropPermits (if cs.isEmpty then s2 else noteReact s2 u true) u

/-- A survey whose input the tripped zone maps ends (R302); zone E maps every gate. -/
def tripSurvey (s : State) (u : DieId) (z : Nat) : State :=
  match s.declarer with
  | some d =>
    match (s.die d).cal.survey with
    | some v => if z = 4 || (s.die u).mapBit (Reg.LGD_ZMAP z 0) v.input then surveyAbort s d else s
    | none => s
  | none => s

/-- A trip abandons the port checks of the ports it holds (R326); 4 stands for zone E, which holds every port. -/
def tripChecks (s : State) (u : DieId) (z : Nat) : State :=
  match s.declarer with
  | some d => checksGone s d (fun p => z = 4 || (s.die u).mapBit (Reg.LGD_ZMAP z 0) p || (s.die u).mapBit (Reg.LGD_ZMAP z 0) (512 + p))
  | none => s

/-- A zone trips on one unit. -/
def tripZone (s : State) (u : DieId) (z who : Nat) : State :=
  let s1 := (tripSurvey (tripChecks s u z) u z).onDie u (·.onLgd (·.onZone z (fun v =>
    { v with state := .tripped, trips := (v.trips + 1) % 65536, clearSince := none, wantReady := false, unreset := true })))
  afterShut (safetyEvent s1 u 0 z who) u z

/-- Zone E trips on one unit. -/
def tripE (s : State) (u : DieId) (who : Nat) : State :=
  if (s.die u).lgd.eTripped then s
  else
    let s1 := (tripSurvey (tripChecks s u 4) u 4).onDie u (·.onLgd (fun l => { l with eTripped := true, eWant := false }))
    afterShut (safetyEvent s1 u 0 4 who) u 4

/-- A zone returns to UNTESTED on one unit: after a discrepancy or a change of its configuration. A channel that is open at the entry has
been seen open since; a trip stays to be reset, but in a zone that is no longer enabled. -/
def untestZone (s : State) (u : DieId) (z : Nat) (disc : Bool) (who : Nat) : State :=
  let s1 := s.onDie u (fun x => x.onLgd (·.onZone z (fun v =>
    { v with state := .untested, disc := disc, seenA := !x.closedA z, seenB := !x.closedB z, wantReady := false,
             unreset := v.unreset && x.zoneEn z })))
  let s2 := safetyEvent s1 u 2 z who
  if (s2.die u).zoneEn z then afterShut s2 u z else dropPermits s2 u

/-- How long a zone's channels have been as they are, and what has been seen open; a READY that was decided stands only while its condition does. -/
def zoneTimes (x : Die) (z ticks : Nat) : Die :=
  let a := x.closedA z
  let b := x.closedB z
  let open_ := x.zoneOpen z
  x.onLgd (·.onZone z (fun v =>
    { v with seenA := v.seenA || !a, seenB := v.seenB || !b,
             closedSince := if a && b then some (v.closedSince.getD ticks) else none,
             differSince := if a != b then some (v.differSince.getD ticks) else none,
             clearSince := if open_ then none else some (v.clearSince.getD ticks),
             wantReady := v.wantReady && !open_ && (v.state != ZoneState.untested || (a && b)) }))

/-- A read-back mismatch of a channel of a permit, A by CD0 and B by CD1 (R451): a unit latches it, which removes the permit. -/
def latchReadBack (s : State) (v u : DieId) (k : Nat) : State :=
  let was := ((s.die v).lgd.permit k).granted
  let s1 := raise (s.onDie v (·.onLgd (·.onPermit k (fun p => { p with granted := false, want := false, latched := true })))) v (205 + u.num)
  if was then safetyEvent s1 v 4 k (unitBit v) else s1

/-- The channels whose read-back a force makes wrong do not read as commanded (R451, R461). -/
def forcedReadBack (s : State) (v : DieId) : State :=
  (List.range 16).foldl (fun s i =>
    let u : DieId := if i < 8 then .cd0 else .cd1
    let f := if i < 8 then F.LGD_FORCE_RB_A else F.LGD_FORCE_RB_B
    if bitOf ((s.die v).rf Reg.LGD_FORCE f) (i % 8) && !((s.die v).lgd.permit (i % 8)).latched then latchReadBack s v u (i % 8) else s) s

/-- SAFE_ESTOP_N, or what acts as it, becomes asserted or not on a unit that found it `was` before: the record and the source, or the
start of the 100 ms (R449). -/
def estopChange (s : State) (u : DieId) (was : Bool) : State :=
  let now := (s.die u).estop
  if now && !was then raise (safetyEvent s u 5 4 (unitBit u)) u 204
  else if was && !now then s.onDie u (·.onLgd (fun l => { l with eClear := l.eClear.map (fun _ => s.ticks) }))
  else s

/-- A unit judges its zones after a change of its inputs (1oo2). -/
def scanUnit (s : State) (u : DieId) : State :=
  if !unitOn s u then s
  else
    let s0 := if (s.die u).estop then s.onDie u (·.onLgd (fun l => { l with eWant := false, eClear := l.eClear.map (fun _ => s.ticks) })) else s
    let s0 := if (s.die u).sdEn && (s.die u).lgd.sd.estop || (s.die u).rbit Reg.LGD_FORCE F.LGD_FORCE_ESTOP then
      tripE s0 u (unitBit u) else s0
    let s1 := (List.range 4).foldl (fun s z =>
      let s1 := s.onDie u (fun x => zoneTimes x z s.ticks)
      let x := s1.die u
      if x.zoneEn z && (x.lgd.zone z).state == ZoneState.ready && x.zoneOpen z then tripZone s1 u z (unitBit u) else s1) s0
    permitPins (dropPermits (forcedReadBack s1 u) u)

def scanUnits (s : State) : State := scanUnit (scanUnit s .cd0) .cd1

/-! ## Rows of the zones -/

/-- GUARD_CHANNEL_FILTERED: the unit's own channel of a zone, A on CD0 and B on CD1. -/
def guardChannel (u : DieId) (z : Nat) (closed : Bool) (s : State) : State :=
  if !unitOn s u then s
  else
    let bit (v : BitVec 4) : BitVec 4 := if closed then v ||| BitVec.ofNat 4 (2 ^ z) else v &&& ~~~ BitVec.ofNat 4 (2 ^ z)
    let s1 : State := match u with
      | .cd0 => { s with pins := { s.pins with guardA := bit s.pins.guardA } }
      | .cd1 => { s with pins := { s.pins with guardB := bit s.pins.guardB } }
    scanUnit (s1.onDie u (·.onLgd (·.onZone z (fun v => match u with
      | .cd0 => { v with chA := closed }
      | .cd1 => { v with chB := closed })))) u

def execGuardChannelFiltered (unit : DieId) (zone : Fin 4) (closed : Bool) (s : State) : Host.Outcome State Fault Refusal :=
  done (guardChannel unit zone.val closed s)

/-- SAFE_ESTOP: low for FILTER_US. -/
def safeEstop (s : State) : State :=
  let s1 : State := { s with pins := { s.pins with estopN := false } }
  scanUnits (onUnits s1 (fun s u =>
    tripE (estopChange (s.onDie u (·.onLgd (fun l => { l with eClear := none }))) u false) u (unitBit u)))

def execSafeEstop (s : State) : Host.Outcome State Fault Refusal := done (safeEstop s)

/-- SAFE_ESTOP_RELEASE: high for FILTER_US. -/
def safeEstopRelease (s : State) : State :=
  let s1 : State := { s with pins := { s.pins with estopN := true } }
  scanUnits (onUnits s1 (fun s u => s.onDie u (·.onLgd (fun l => { l with eClear := some (l.eClear.getD s.ticks) }))))

def execSafeEstopRelease (s : State) : Host.Outcome State Fault Refusal := done (safeEstopRelease s)

/-- 100 ms have passed since a tick. -/
def held100 (s : State) (t : Option Nat) : Bool := match t with | some t => decide (100 * msT ≤ s.ticks - t) | none => false

/-- ZONE_STARTUP_TEST_DONE: a unit decides that an UNTESTED zone is READY. -/
def startupTest (z : Nat) (s : State) : State :=
  onUnits s (fun s u => s.onDie u (fun x =>
    let v := x.lgd.zone z
    if x.zoneEn z && v.state == ZoneState.untested && v.seenA && v.seenB && held100 s v.closedSince then
      x.onLgd (·.onZone z (fun v => { v with wantReady := true }))
    else x))

def execZoneStartupTestDone (zone : Fin 4) (s : State) : Host.Outcome State Fault Refusal := done (startupTest zone.val s)

/-- ZONE_DISCREPANCY: the channels differ for more than 50 ms. -/
def discrepancy (z : Nat) (s : State) : State :=
  permitPins (onUnits s (fun s u =>
    let x := s.die u
    match (x.lgd.zone z).differSince with
    | some t =>
      if x.zoneEn z && decide (50 * msT < s.ticks - t) then untestZone (raise s u (200 + z)) u z true (unitBit u) else s
    | none => s))

def execZoneDiscrepancy (zone : Fin 4) (s : State) : Host.Outcome State Fault Refusal := done (discrepancy zone.val s)

/-- A unit decides a reset of zones, named by bits, with zone E as bit 4 (R447, R449). -/
def zoneResets (s : State) (u : DieId) (bits : Nat) : State :=
  let s1 := (List.range 4).foldl (fun s z =>
    let v := (s.die u).lgd.zone z
    if bitOf bits z && v.state == ZoneState.tripped && held100 s v.clearSince then
      s.onDie u (·.onLgd (·.onZone z (fun v => { v with wantReady := true }))) else s) s
  let l := (s1.die u).lgd
  if bitOf bits 4 && l.eTripped && held100 s1 l.eClear && !(s1.die u).estop then s1.onDie u (·.onLgd (fun l => { l with eWant := true })) else s1

/-- ZONE_AUTO_RESET. -/
def autoReset (z : Nat) (s : State) : State :=
  onUnits s (fun s u =>
    let x := s.die u
    let on := if z = 4 then x.rbit Reg.LGD_GCFG F.LGD_GCFG_E_AUTO_RESET else x.rbit (Reg.LGD_ZCFG z) F.LGD_ZCFG_AUTO_RESET
    if on then zoneResets s u (2 ^ z) else s)

def execZoneAutoReset (zone : Fin 5) (s : State) : Host.Outcome State Fault Refusal := done (autoReset zone.val s)

/-! ## The exchange of the units (R441 to R443) -/

/-- The units take over each other's filtered inputs. -/
def swapInputs (s : State) : State :=
  let a := s.cd0.lgd
  let b := s.cd1.lgd
  let za (z : Nat) (l : Lgd) : Lgd := l.onZone z (fun v => { v with chB := (b.zone z).chB })
  let zb (z : Nat) (l : Lgd) : Lgd := l.onZone z (fun v => { v with chA := (a.zone z).chA })
  let s1 := s.onDie .cd0 (·.onLgd (fun l => (List.range 4).foldl (fun l z => za z l) { l with xlink := true, lastXchg := s.ticks }))
  s1.onDie .cd1 (·.onLgd (fun l => (List.range 4).foldl (fun l z => zb z l) { l with xlink := true, lastXchg := s.ticks }))

/-- What one unit decided alone that takes light away, the other does too. -/
def followPeer (s : State) (u : DieId) : State :=
  let s1 := (List.range 4).foldl (fun s z =>
    let mine := (s.die u).lgd.zone z
    let his := (s.die u.peer).lgd.zone z
    if !(s.die u).zoneEn z || !(s.die u.peer).zoneEn z || mine.state == his.state then s
    else if his.state == ZoneState.untested then untestZone s u z his.disc (unitBit u.peer)
    else if his.state == ZoneState.tripped && mine.state == ZoneState.ready then tripZone s u z (unitBit u.peer)
    else s) s
  if (s1.die u.peer).lgd.eTripped then tripE s1 u (unitBit u.peer) else s1

/-- What both units have decided that gives light back: zones, zone E, permits. -/
def restoreAgreed (s : State) : State :=
  let ready (s : State) (z : Nat) : State :=
    if bothSound s && (s.cd0.lgd.zone z).wantReady && (s.cd1.lgd.zone z).wantReady then
      let g := zoneGates s.cd0 z
      let set (l : Lgd) : Lgd := l.onZone z (fun v => { v with state := .ready, wantReady := false, unreset := false })
      let s1 := (s.onDie .cd0 (·.onLgd set)).onDie .cd1 (·.onLgd set)
      let s2 := safetyEvent (safetyEvent s1 .cd0 1 z 3) .cd1 1 z 3
      (connsOf s2 .cd0 z).foldl sendState (releaseGates s2 g)
    else s
  let s1 := (List.range 4).foldl ready s
  let s2 := if bothSound s1 && s1.cd0.lgd.eWant && s1.cd1.lgd.eWant then
      let set (l : Lgd) : Lgd := { l with eTripped := false, eWant := false }
      let s2 := (s1.onDie .cd0 (·.onLgd set)).onDie .cd1 (·.onLgd set)
      let s3 := safetyEvent (safetyEvent s2 .cd0 1 4 3) .cd1 1 4 3
      (connsOf s3 .cd0 4).foldl sendState (releaseGates s3 (fun _ => BitVec.allOnes 128))
    else s1
  let s3 := dropPermits (dropPermits s2 .cd0) .cd1
  (List.range 8).foldl (fun s k =>
    let a := s.cd0.lgd.permit k
    let b := s.cd1.lgd.permit k
    let grant := a.want && b.want
    let set (l : Lgd) : Lgd := l.onPermit k (fun p => { p with granted := grant })
    let s1 := (s.onDie .cd0 (·.onLgd set)).onDie .cd1 (·.onLgd set)
    let tell (s : State) (u : DieId) (was : Bool) : State :=
      if grant && !was then safetyEvent s u 3 k 3 else if was && !grant then safetyEvent s u 4 k 3 else s
    tell (tell s1 .cd0 a.granted) .cd1 b.granted) s3

/-- CROSS_LINK_EXCHANGE. -/
def crossExchange (s : State) : State :=
  if !(unitOn s .cd0 && unitOn s .cd1) then s
  else
    let s1 := scanUnits (swapInputs s)
    permitPins (restoreAgreed (followPeer (followPeer s1 .cd0) .cd1))

def execCrossLinkExchange (s : State) : Host.Outcome State Fault Refusal := done (crossExchange s)

/-- CROSS_LINK_FAULT: no exchange for 100 µs. -/
def crossFault (s : State) : State :=
  let due (u : DieId) : Bool := (s.die u).lgd.xlink && decide (100 * usT ≤ s.ticks - (s.die u).lgd.lastXchg)
  if due .cd0 || due .cd1 then
    scanUnits (onUnits s (fun s u => raise (s.onDie u (·.onLgd (fun l => { l with xlink := false }))) u 213))
  else s

def execCrossLinkFault (s : State) : Host.Outcome State Fault Refusal := done (crossFault s)

/-- SAFETY_UNIT_SELFTEST: the result of a unit's self-test and of its comparison of the oscillators; a failed unit's permits fall and its
peer reports it. -/
def unitSelftest (u : DieId) (pass oscOk : Bool) (s : State) : State :=
  if !unitOn s u then s
  else
    let s1 := s.onDie u (·.onLgd (fun l => { l with ok := pass, peerOk := oscOk }))
    let s2 := if oscOk then s1 else raise s1 u 214
    let s3 := if pass then s2 else raise (raise s2 u 213) u.peer 213
    -- a unit that is sound again releases the gates that nothing holds shut any more
    scanUnits (if !bothSound s && bothSound s3 then releaseGates s3 (fun b => (s3.bank b).forcedGates) else s3)

def execSafetyUnitSelftest (unit : DieId) (pass : Bool) (peerOscOk : Bool) (s : State) : Host.Outcome State Fault Refusal :=
  done (unitSelftest unit pass peerOscOk s)

/-! ## Configuration (R444, R461) -/

/-- The keys of the configuration registers of a unit. -/
def lgdKeys : List Nat :=
  [Reg.LGD_GCFG] ++ (List.range 4).map Reg.LGD_ZCFG ++ (List.range 8).map Reg.LGD_PCFG ++ [Reg.LGD_SD_CFG] ++
    (List.range 4).flatMap (fun z => (List.range 32).map (Reg.LGD_ZMAP z))

/-- A unit's configuration as a list of numbers: its registers and its connections. -/
def lgdConfig (x : Die) : List Nat :=
  lgdKeys.map x.reg ++ (x.lgd.conns.flatMap (fun c => [c.1, c.2.cfg.toNat, c.2.id.toNat, c.2.addr.toNat]))

/-- CONFIG_CRC_COMPARE: the configurations agree or not; becoming different is an occurrence. -/
def crcCompare (s : State) : State :=
  if !(unitOn s .cd0 && unitOn s .cd1) then s
  else
    let same := decide (lgdConfig s.cd0 = lgdConfig s.cd1)
    scanUnits (onUnits s (fun s u =>
      let was := (s.die u).lgd.cfgMatch
      let s1 := s.onDie u (·.onLgd (fun l => { l with cfgMatch := same }))
      if was && !same then raise s1 u 212 else s1))

def execConfigCrcCompare (s : State) : Host.Outcome State Fault Refusal := done (crcCompare s)

/-- LGD writes are accepted: the lock is open and the base mode is DARK or SERVICE. -/
def lgdOpen (s : State) (u : DieId) : Bool := (s.die u).lockOpen && (moduleBase s = mDark || moduleBase s = mService)

/-- A configuration register takes a word: what changes returns its zone to UNTESTED and removes its permit. -/
def lgdWrite (s : State) (u : DieId) (key v : Nat) : State :=
  if !lgdOpen s u then s
  else
    let x := s.die u
    let s1 := s.onDie u (fun x => x.setReg key (x.written key (v % 2 ^ 32)))
    if (s1.die u).reg key = x.reg key then s1
    else
      let zone := (List.range 4).find? (fun z => key = Reg.LGD_ZCFG z || (Reg.LGD_ZMAP z 0 ≤ key && key < Reg.LGD_ZMAP z 0 + 0x80))
      let permit := (List.range 8).find? (fun k => key = Reg.LGD_PCFG k)
      let s2 := match zone with
        | some z =>
          let old := zoneGates x z
          let s2 := untestZone s1 u z false (unitBit u)
          -- gates that the zone maps no longer, or a zone no longer in use, are released by this unit
          sendRelease s2 u (fun b => old b &&& ~~~ blockedGates (s2.die u) b)
        | none => s1
      let s3 := match permit with
        | some k =>
          let rise := fget F.LGD_PCFG_EN (x.reg key) = 0 && fget F.LGD_PCFG_EN ((s2.die u).reg key) = 1
          s2.onDie u (·.onLgd (·.onPermit k (fun p => { p with granted := false, want := false, latched := p.latched && !rise })))
        | none => s2
      -- S-DUAL taken into use starts its connection
      let s4 := if key = Reg.LGD_SD_CFG && !x.sdEn && (s3.die u).sdEn then
          s3.onDie u (·.onLgd (·.onSd (fun d => { SDual.reset with lastAt := s.ticks, txSeq := d.txSeq })))
        else s3
      scanUnit s4 u

/-- A word of the connection window takes effect on the connection selected. -/
def connWrite (s : State) (u : DieId) (f : Conn → Conn) : State :=
  if !lgdOpen s u then s
  else
    let c := (s.die u).rf Reg.LGD_CONN_SEL F.LGD_CONN_SEL_CONN
    s.onDie u (·.onLgd (fun l =>
      let k := f (l.conn c)
      l.setConn c (if connEn k then (if connEn (l.conn c) then k else { k with state := 0, rxSeq := none, lastAt := s.ticks })
        else { k with state := 0, shut := false, inputShut := false })))

/-- The Light Guard region of the boot flash (R503), laid out by log entry 27: registers at their offset less 0x8000, connections from
0x1000, and a mark in the last byte. -/
def lgdFlash : Nat := 0x6A0000

/-- The flash with a unit's configuration saved. -/
def lgdSaved (x : Die) (m : Memory) : Memory :=
  let m1 := lgdKeys.foldl (fun m k => memWrite m (lgdFlash + k - Reg.LGD_STATUS) (leBytes 4 (x.reg k))) m
  let m2 := (List.range 256).foldl (fun m c =>
    let k := x.lgd.conn c
    memWrite m (lgdFlash + 0x1000 + 16 * c) (leBytes 4 k.cfg.toNat ++ leBytes 4 k.id.toNat ++ leBytes 8 k.addr.toNat)) m1
  memSet m2 (lgdFlash + 0xFFFF) 1

/-- LGD_SAVE: the configuration as it stands is saved, which takes until LGD_SAVE_DONE (R444). -/
def lgdSave (u : DieId) (s : State) : State :=
  if lgdOpen s u then (s.setFlash u (lgdSaved (s.die u) (s.flash u))).onDie u (·.onLgd (fun l => { l with saving := some s.ticks })) else s

def execLgdSave (die : DieId) (s : State) : Host.Outcome State Fault Refusal := doneBar die (lgdSave die) s

/-- LGD_SAVE_DONE: SAVE_BUSY clears. -/
def lgdSaveDone (u : DieId) (s : State) : State := s.onDie u (·.onLgd (fun l => { l with saving := none }))

def execLgdSaveDone (die : DieId) (s : State) : Host.Outcome State Fault Refusal := done (lgdSaveDone die s)

/-- The configuration last saved to a die's boot flash is loaded (R444). -/
def lgdLoad (s : State) (u : DieId) : State :=
  let m := s.flash u
  if memGet m (lgdFlash + 0xFFFF) ≠ 1 then s
  else
    let rd (a n : Nat) : Nat := leNat (memRead m (lgdFlash + a) n)
    s.onDie u (fun x =>
      let y := lgdKeys.foldl (fun x k => x.setReg k (rd (k - Reg.LGD_STATUS) 4)) x
      y.onLgd (fun l => (List.range 256).foldl (fun (l : Lgd) c =>
        l.setConn c { Conn.reset with cfg := BitVec.ofNat 32 (rd (0x1000 + 16 * c) 4), id := BitVec.ofNat 32 (rd (0x1004 + 16 * c) 4),
                                      addr := BitVec.ofNat 64 (rd (0x1008 + 16 * c) 8), lastAt := s.ticks }) (l.onSd (fun d => { d with lastAt := s.ticks }))))

/-- UNTESTED zones shut their gates as a configuration comes in force. -/
def shutUntested (s : State) (u : DieId) : State :=
  (List.range 4).foldl (fun s z =>
    if (s.die u).zoneEn z && ((s.die u).lgd.zone z).state == ZoneState.untested then sendGates s u mShut (zoneGates (s.die u) z) else s) s

/-- LGD_FORCE_WRITE: in SERVICE only; acts as real inputs would (R461). -/
def lgdForce (u : DieId) (v : Nat) (s : State) : State :=
  let x := s.die u
  if !(x.lockOpen && moduleBase s = mService) then s
  else
    let s1 := s.onDie u (fun x => x.setReg Reg.LGD_FORCE (x.written Reg.LGD_FORCE v))
    let s2 := if x.reg Reg.LGD_FORCE = 0 && (s1.die u).reg Reg.LGD_FORCE ≠ 0 then raise s1 u 215 else s1
    scanUnit (estopChange s2 u x.estop) u

def execLgdForceWrite (die : DieId) (value : Word32) (s : State) : Host.Outcome State Fault Refusal :=
  doneBar die (lgdForce die value.toNat) s

/-! ## Permit test pulses (R451) -/

/-- PERMIT_TEST_PULSE: a unit's channel of a granted permit; both units read it back, and a mismatch removes and latches. -/
def testPulse (u : DieId) (k : Nat) (low high : Bool) (s : State) : State :=
  let forced (x : Die) : Bool := bitOf (x.rf Reg.LGD_FORCE (if u = .cd0 then F.LGD_FORCE_RB_A else F.LGD_FORCE_RB_B)) k
  if !unitOn s u || !((s.die u).lgd.permit k).granted then s
  else if low && high && !forced s.cd0 && !forced s.cd1 then s
  else
    permitPins (onUnits s (fun s v => latchReadBack s v u k))

def execPermitTestPulse (unit : DieId) (permit : Fin 8) (readLow : Bool) (readHigh : Bool) (s : State) :
    Host.Outcome State Fault Refusal := done (testPulse unit permit.val readLow readHigh s)

/-! ## S-DUAL (R455, R456) -/

def Die.sdWd (x : Die) : Nat := clampNat 1 1000 (x.rf Reg.LGD_SD_CFG F.LGD_SD_CFG_WATCHDOG_MS)

/-- No telegram has been accepted within the watchdog (R454): the connection has timed out, and starts anew with the next telegram. -/
def Die.sdLapsed (x : Die) (ticks : Nat) : Bool :=
  let sd := x.lgd.sd
  decide ((if sd.seq.isNone then msT * x.sdWd else zslLimit sd.watchdog x.sdWd) < ticks - sd.lastAt)

/-- A unit enters the safe state: RESET and PERMIT_REQ count as 0. -/
def sdSafe (s : State) (u : DieId) : State :=
  if (s.die u).lgd.sd.safe then s
  else safetyEvent (s.onDie u (·.onLgd (·.onSd (fun d => { d with safe := true, resetBits := 0, permitReq := 0 })))) u 6 0 (unitBit u)

/-- A unit accepts a CONTROL telegram: both copies, or one alone. -/
def sdAccept (s : State) (u : DieId) (b : List Byte) (copies : Nat) : State :=
  let sd := (s.die u).lgd.sd
  let leave := sd.safe && copies = 3
  let req := if sd.safe && !leave then 0 else beAt b 10 1
  let rst := if sd.safe && !leave then 0 else bitsOf (beAt b 9 1) 4 0
  let edges := (List.range 5).foldl (fun a i => a + b2n (bitOf rst i && !bitOf sd.resetBits i) * 2 ^ i) 0
  let s1 := s.onDie u (·.onLgd (fun l =>
    let l1 := l.onSd (fun d => { d with safe := d.safe && !leave, seq := some (beAt b 4 2), bytes := b, lastAt := s.ticks,
                                        watchdog := beAt b 6 2, copies := copies, remoteOpen := bitsOf (beAt b 8 1) 3 0,
                                        resetBits := rst, permitReq := req, estop := bitOf (beAt b 11 1) 0 })
    (List.range 8).foldl (fun l k => if bitOf req k && !bitOf sd.permitReq k then l.onPermit k (fun p => { p with latched := false }) else l) l1))
  let s2 := if leave then safetyEvent s1 u 7 0 (unitBit u) else s1
  zoneResets (scanUnit (estopChange s2 u (s.die u).estop) u) u edges

/-- S_DUAL_CONTROL: a copy from one network, judged against its twin. -/
def sdControl (rx : ZslRx) (s : State) : State :=
  let u := rx.net
  let x := s.die u
  let drop := x.rbit Reg.LGD_FORCE (if u = .cd0 then F.LGD_FORCE_SD_DROP_A else F.LGD_FORCE_SD_DROP_B)
  if !unitOn s u || !x.sdEn || drop then s
  else
    let seq := beAt rx.bytes 4 2
    let sd := x.lgd.sd
    if !zslOk rx.bytes 1 1 (x.rf Reg.LGD_SD_CFG F.LGD_SD_CFG_CONN) then raise s u 210
    else if sd.seq = some seq && sd.bytes = rx.bytes then s
    else if !zslAhead (if x.sdLapsed s.ticks then none else sd.seq) seq then raise s u 210
    else if sd.waiting.any (fun w => w.net == u && decide (w.bytes = rx.bytes)) then s
    else
      let us := sharers s u
      let all (s : State) (f : State → DieId → State) : State := us.foldl f s
      let s0 := all s (fun s v => s.onDie v (·.onLgd (·.onSd (fun d =>
        match u with | .cd0 => { d with fromA := some rx.src } | .cd1 => { d with fromB := some rx.src }))))
      let clear (s : State) : State := all s (fun s v => s.onDie v (·.onLgd (·.onSd (fun d =>
        { d with waiting := d.waiting.filter (fun w => decide (beAt w.bytes 4 2 ≠ seq)) }))))
      match sd.waiting.find? (fun w => w.net != u && decide (beAt w.bytes 4 2 = seq)) with
      | some w =>
        if w.bytes = rx.bytes then scanUnits (all (clear s0) (fun s v => sdAccept s v rx.bytes 3))
        else scanUnits (all (clear s0) (fun s v => sdSafe (raise s v 207) v))
      | none => all s0 (fun s v => s.onDie v (·.onLgd (·.onSd (fun d => { d with waiting := d.waiting ++ [⟨u, rx.bytes, s.ticks⟩] }))))

def execSDualControl (rx : ZslRx) (s : State) : Host.Outcome State Fault Refusal := done (sdControl rx s)

/-- S_DUAL_COPY_MISSING: a copy without its twin for more than 10 ms. -/
def sdMissing (s : State) : State :=
  scanUnits (onUnits s (fun s u =>
    let old := (s.die u).lgd.sd.waiting.filter (fun w => decide (10 * msT < s.ticks - w.at_))
    old.foldl (fun s w =>
      let s1 := raise (s.onDie u (·.onLgd (·.onSd (fun d => { d with waiting := d.waiting.filter (fun v => decide (v ≠ w)) })))) u 208
      if (s1.die u).rbit Reg.LGD_SD_CFG F.LGD_SD_CFG_SINGLE_SAFE then sdSafe s1 u
      else sdAccept s1 u w.bytes (if w.net = .cd0 then 1 else 2)) s))

def execSDualCopyMissing (s : State) : Host.Outcome State Fault Refusal := done (sdMissing s)

/-- S_DUAL_TIMEOUT: nothing accepted within the watchdog. -/
def sdTimeout (s : State) : State :=
  scanUnits (onUnits s (fun s u =>
    let x := s.die u
    if x.sdEn && !x.lgd.sd.safe && x.sdLapsed s.ticks then sdSafe (raise s u 209) u else s))

def execSDualTimeout (s : State) : Host.Outcome State Fault Refusal := done (sdTimeout s)

/-- The payload of a STATUS, bytes 8 to 23. -/
def sdStatus (s : State) (u : DieId) : List Byte :=
  let x := s.die u
  let l := x.lgd
  let zs (v : ZoneState) : Nat := (List.range 4).foldl (fun a z => a + b2n ((l.zone z).state == v) * 2 ^ z) 0
  let ps (p : Permit → Bool) : Nat := (List.range 8).foldl (fun a k => a + b2n (p (l.permit k)) * 2 ^ k) 0
  beBytes 1 (zs .tripped + 16 * b2n l.eTripped) ++ beBytes 1 (zs .ready + 16 * zs .untested) ++ beBytes 1 (ps (·.granted)) ++
    beBytes 1 (b2n l.sd.safe + 2 * b2n (sound s .cd0) + 4 * b2n (sound s .cd1) + 8 * b2n l.cfgMatch + 16 * b2n x.estop) ++
    [0, 0, 0] ++ beBytes 1 (ps (·.latched)) ++ beBytes 8 x.ns

/-- S_DUAL_STATUS_SEND: both units, with the same SEQ and bytes, each to where its last copy came from. -/
def sdStatusSend (s : State) : State :=
  let seq := max s.cd0.lgd.sd.txSeq s.cd1.lgd.sd.txSeq
  let body := sdStatus s (s.declarer.getD .cd0)
  onUnits s (fun s u =>
    let x := s.die u
    if !x.sdEn then s
    else
      let t := zslBytes 1 2 (x.rf Reg.LGD_SD_CFG F.LGD_SD_CFG_CONN) seq x.sdWd body
      let s1 := s.onDie u (·.onLgd (·.onSd (fun d => { d with txSeq := (seq + 1) % 65536 })))
      match (if u = .cd0 then x.lgd.sd.fromA else x.lgd.sd.fromB) with
      | some src => zslSend s1 u src.port.val
          (frameTo src (x.rf Reg.PRS_ETYPE F.PRS_ETYPE_ZSL) (x.rf Reg.PRS_UDPPORT F.PRS_UDPPORT_ZSL) t) t
      | none => s1)

def execSDualStatusSend (s : State) : Host.Outcome State Fault Refusal := done (sdStatusSend s)

/-! ## S-BLACK rows (R457) -/

/-- S_BLACK_STATE_SEND. -/
def execSBlackStateSend (conn : Fin 256) (s : State) : Host.Outcome State Fault Refusal := done (sendState s conn.val)

/-- The gate set that holds a connection's input. -/
def connGate (c : Conn) (b : Nat) : BitVec 128 :=
  let p := fget F.LGD_CONN_CFG_PORT c.cfg.toNat
  if p < 512 && decide (p / 64 = b) then BitVec.ofNat 128 (2 ^ (p % 64)) else 0

/-- S_BLACK_ECHO: an accepted echo keeps the connection up, and releases its input. -/
def blackEcho (c : Nat) (rx : ZslRx) (s : State) : State :=
  let u := rx.net
  let k := (s.die u).lgd.conn c
  if !unitOn s u || !connEn k then s
  else
    let seq := beAt rx.bytes 4 2
    if !zslOk rx.bytes 2 0x14 (fget F.LGD_CONN_ID_CONN_ID k.id.toNat) then raise s u 210
    else if k.rxSeq = some seq && k.rxBytes = rx.bytes then s
    else if !zslAhead k.rxSeq seq then raise s u 210
    else
      let s1 := (sharers s u).foldl (fun s v =>
        let k := (s.die v).lgd.conn c
        let s1 := s.onDie v (·.onLgd (fun l => l.setConn c { k with
          state := 2, rxSeq := some seq, rxBytes := rx.bytes, lastAt := s.ticks, watchdog := beAt rx.bytes 6 2, inputShut := false }))
        if k.state = 2 then s1 else safetyEvent s1 v 9 c (unitBit v)) s
      if k.inputShut then releaseGates s1 (connGate k) else s1

def execSBlackEcho (conn : Fin 256) (rx : ZslRx) (s : State) : Host.Outcome State Fault Refusal := done (blackEcho conn.val rx s)

/-- S_BLACK_TIMEOUT: the connection is lost and its input shut. -/
def blackTimeout (c : Nat) (s : State) : State :=
  onUnits s (fun s u =>
    let k := (s.die u).lgd.conn c
    let lim := if k.rxSeq.isNone then msT * connWd k else zslLimit k.watchdog (connWd k)
    if connEn k && (k.state = 1 || k.state = 2) && decide (lim < s.ticks - k.lastAt) then
      let s1 := s.onDie u (·.onLgd (fun l => l.setConn c { k with
        state := 3, losses := satAdd 16 k.losses 1, rxSeq := none, inputShut := decide (fget F.LGD_CONN_CFG_PORT k.cfg.toNat < 512) }))
      safetyEvent (raise (sendGates s1 u mShut (connGate k)) u 211) u 8 c (unitBit u)
    else s)

def execSBlackTimeout (conn : Fin 256) (s : State) : Host.Outcome State Fault Refusal := done (blackTimeout conn.val s)

end Sys2Proof.Machine
end

