-- ==== Sys2Proof/Machine/Cal.lean ====
section
/-!
DEFINITION. Calibration in service (chapter 09): T_f, trims, surveys, quality, benching, loading and committing, calibration boundaries.
-/

namespace Sys2Proof.Machine

/-- The calibration as the Dummy is to hold it. -/
def mirrorCal (s : State) (d : DieId) : State := mirror s d (.cal (s.die d).cal)

/-! ## Quality and bench requests (R305 to R307) -/

/-- A bench request that R85 refuses. -/
def benchRefused (s : State) (d : DieId) (cell : Nat) : State := raise (elementEvent s d cell ecBenchRefused false) d 8

/-- A cell whose quality fails is marked and, with AUTO_BENCH, requested to be benched. -/
def judgeCell (s : State) (d : DieId) (cell : Nat) : State :=
  let x := s.die d
  let q := x.cal.figures cell
  let fails := decide (min q.1 q.2.1 < x.rf Reg.CAL_QTHR F.CAL_QTHR_EXT) || decide (q.2.2 < x.rf Reg.CAL_QTHR F.CAL_QTHR_LOCK)
  if !fails then s
  else
    let s1 := if x.cal.qfail.getLsbD cell then s
      else raise (s.onDie d (fun x => { x with cal := { x.cal with qfail := x.cal.qfail ||| BitVec.ofNat 4864 (2 ^ cell) } })) d
        (20 + 5 * bankOf cell + 4) cell
    if !x.rbit Reg.CAL_CTRL F.CAL_CTRL_AUTO_BENCH || x.cal.judged.set.getLsbD cell then s1
    else match x.cal.judged.request cell true (x.cal.parkBest cell) with
      | some b => s1.onDie d (fun x => joinBench x b none)
      | none => benchRefused s1 d cell

/-- Every cell is judged: the figures, the thresholds or what a failure does have changed. -/
def judgeAll (s : State) (d : DieId) : State :=
  if (s.die d).isDecl && (s.die d).running && (s.die d).cal.valid then
    mirrorCal ((List.range 4864).foldl (fun s c => judgeCell s d c) s) d
  else s

/-- The cell, operation and park state of a TALON_SUBST. -/
def talonCell (d : List Byte) : Nat := leAt d 16 2

/-- A TALON_SUBST is refused (R306). -/
def talonRefusal (x : Die) (d : List Byte) : Option Nat :=
  let cell := talonCell d
  let op := leAt d 18 1
  let park := leAt d 19 1
  if !zeroRange d 20 63 || 4864 ≤ cell || 2 ≤ op || (park ≠ 0 && park ≠ 1 && park ≠ 0xFF) then some stInvalid
  else
    let pk := if park = 0xFF then x.cal.parkBest cell else decide (park = 1)
    if (x.cal.judged.request cell (op = 0) pk).isNone then some stInvalid else none

/-- A TALON_SUBST joins the pending bench set; it completes when that is in force. -/
def talonCommit (s : State) (d : DieId) (c : Cmd) : State :=
  let x := s.die d
  let cell := talonCell c.desc
  let park := leAt c.desc 19 1
  let pk := if park = 0xFF then x.cal.parkBest cell else decide (park = 1)
  match x.cal.judged.request cell (leAt c.desc 18 1 = 0) pk with
  | some b => mirrorCal (s.onDie d (fun x => (joinBench x b (some c.id)).onCmd c.id (fun c => { c with stage := .waiting }))) d
  | none => finish s d c.id stInvalid 0 0 0

/-- BENCH_RECOMPUTE_DONE (R154): the stored images of the manual region are those of the pending bench set, which is ready. Under T3 the
recomputation waits. -/
def recomputed (x : Die) : Die :=
  let images (b : BenchSet) : Sparse StoredHand := spMap StoredHand.unwritten (fun h v =>
    if h < 28672 then { v with image := route b v.entries, gen := some b.gen } else v) x.decks.hands
  let ready (p : BenchPend) : BenchPend := { p with left := [], ready := some x.nowUp }
  match x.cal.pend, x.cal.pend2 with
  | some p, q =>
    if p.ready.isNone then
      { x with cal := { x.cal with pend := some (ready p) }, decks := { x.decks with hands := images p.bench } }
    else match q with
      | some q => if q.ready.isNone then
          { x with cal := { x.cal with pend2 := some (ready q) }, decks := { x.decks with hands := images q.bench } } else x
      | none => x
  | none, _ => x

def benchRecomputeDone (s : State) : State :=
  match s.declarer with
  | none => s
  | some d =>
    if (s.die d).routersStopped then s
    else mirrorCal (mirrorDecks (s.onDie d (fun x => (recomputed x).onRouters (·.drop RouteTask.isImage))) d) d

def execBenchRecomputeDone (s : State) : Host.Outcome State Fault Refusal := done (benchRecomputeDone s)

/-! ## CAL_LOAD and CAL_COMMIT (R295, R296) -/

/-- A CAL_LOAD is refused before its record is read. -/
def calLoadRefusal (x : Die) (d : List Byte) : Option Nat :=
  if !zeroRange d 28 63 || leAt d 16 8 % 64 ≠ 0 || !([110624, 1245216, 47136].contains (leAt d 24 4)) then some stInvalid
  else if x.cal.commit.isSome then some stBusy
  else none

/-- The record a CAL_LOAD has read, written into the staging image; none when it is invalid. -/
def stagedWith (s : State) (d : DieId) (data : List Byte) : Option CalImage :=
  let c := (s.die d).cal
  loadRecord s.eeprom.serial.toNat data (c.staging.getD c.active)

/-- A CAL_LOAD commits. -/
def calLoadCommit (s : State) (d : DieId) (c : Cmd) : State :=
  if (s.die d).cal.commit.isSome then finish s d c.id stBusy 0 0 0
  else match stagedWith s d c.data with
    | some img =>
      let s1 := mirrorCal (s.onDie d (fun x => { x with cal := { x.cal with staging := some img } })) d
      finish s1 d c.id (doneStatus s d 0x38 0) 0 0 0
    | none => finish s d c.id stInvalid 0 0 0

/-- A CAL_COMMIT is refused. -/
def calCommitRefusal (x : Die) (d : List Byte) : Option Nat :=
  if !zeroRange d 17 63 || 2 ≤ leAt d 16 1 then some stInvalid
  else if x.cal.commit.isSome then some stBusy
  else if leAt d 16 1 = 1 then none
  else match x.cal.staging with
    | some img => if imageValid x.cal img then none else some stInvalid
    | none => some stInvalid

/-- A CAL_COMMIT discards the staging image at once, or waits for its boundary. -/
def calCommitCommit (s : State) (d : DieId) (c : Cmd) : State :=
  match calCommitRefusal (s.die d) c.desc with
  | some st => finish s d c.id st 0 0 0
  | none =>
    if leAt c.desc 16 1 = 1 then
      let s1 := mirrorCal (s.onDie d (fun x => { x with cal := { x.cal with staging := none } })) d
      finish s1 d c.id (doneStatus s d 0x39 0) 0 0 0
    else mirrorCal (s.onDie d (fun x =>
      { x with cal := { x.cal with commit := some (c.id, x.nowUp) } }.onCmd c.id (fun c => { c with stage := .waiting }))) d

/-! ## Calibration boundaries (R297 to R299) -/

/-- T_f is covered or not (R287): the flag, and the temperature held while it is not. -/
def Die.covered (x : Die) : Die :=
  if (bracket x.cal.active x.cal.tempC).isSome then
    { x.setRf Reg.CAL_STATUS F.CAL_STATUS_UNCOVERED 0 with cal := { x.cal with covered := x.cal.tf } }
  else x.setRf Reg.CAL_STATUS F.CAL_STATUS_UNCOVERED 1

/-- A trim comes in force in its cell's integrator (R299). -/
def trimIntegrator (x : Die) (f : FieldChange) (ticks : Nat) : Die :=
  let sl := slopeH x f.cell ticks
  if f.trim && decide (sl ≠ 0) then
    x.onElem f.cell (fun el => { el with int := (loopVal (el.int.valA + ((f.dF : Int) : Rat) / sl) el.int.valB).1 })
  else x

/-- The elements that new values wake (R211, R298). -/
def wakeFor (s : State) (d : DieId) (es : List Nat) : State :=
  if !(s.die d).loopsOn then s
  else es.foldl (fun s e => if ((s.die d).elem e).mode = 0 then activate s d e (s.die d).wakeBurst tHold else s) s

/-- What changed at a boundary from one calibration to the next: the bench set, a commit, the field changes. -/
structure CalDiff where
  bench : Bool
  commit : Option Nat
  fields : List FieldChange
  discarded : Nat
  cmds : List Nat
deriving DecidableEq, Repr

def calDiff (c c' : Cal) : CalDiff :=
  let com := match c.commit, c'.commit with | some (id, _), none => some id | _, _ => none
  let b := decide (c'.bench ≠ c.bench)
  ⟨b, com, if com.isSome then [] else c.field.filter (fun f => !c'.field.contains f), if com.isSome then c.field.length else 0,
    if b then (match c.pend with | some p => p.cmds | none => []) else []⟩

/-- The elements whose feed-forward values a boundary changes (R211). -/
def calWakes (df : CalDiff) : List Nat := if df.commit.isSome then List.range 5888 else df.fields.map (·.cell)

/-- The state and effects of a boundary whose changes are given. -/
def calApply (s : State) (d : DieId) (c' : Cal) (df : CalDiff) : State :=
  let s1 := s.onDie d (fun x => df.fields.foldl (fun x f => trimIntegrator x f s.ticks) (Die.covered { x with cal := c' }))
  let s2 := shadowed s1 d (fun x =>
    ((x.countMod Reg.CAL_STATUS F.CAL_STATUS_SEQ).count Reg.CAL_TRIM_CNT F.CAL_TRIM_CNT_COUNT
      (df.fields.filter (·.trim)).length).count Reg.CAL_FIELD_DISC F.CAL_FIELD_DISC_COUNT df.discarded)
  let values := df.commit.isSome || !df.fields.isEmpty
  let s3 := eventShared s2 d evCal (leBytes 1 ((s2.die d).rf Reg.CAL_STATUS F.CAL_STATUS_SEQ) ++
    leBytes 1 (b2n df.bench + 2 * b2n values + 4 * b2n df.commit.isSome) ++ leBytes 1 c'.bench.gen)
  let s4 := if df.bench then writeBench s3 d c'.bench else s3
  let s5 := df.cmds.foldl (fun s id =>
    match (s.die d).cmd id with
    | some c => finish s d id (doneStatus s d 0x3A (talonCell c.desc)) 0 0 0
    | none => s) s4
  let s6 := match df.commit with
    | some id =>
      let (x, refused) := factoryBench (s5.die d)
      let s6 := refused.foldl (fun s c => benchRefused s d c) (s5.setDie d x)
      let s7 := (List.range 4864).foldl (fun s c => judgeCell s d c) s6
      finish s7 d id (doneStatus s7 d 0x39 0) 0 0 0
    | none => s5
  let s7 := wakeFor s6 d (calWakes df)
  let s8 := (List.range 8).foldl (fun s b => chooseGain (if values then sendTables s d b else s) d b false) s7
  mirrorCal s8 d

/-- An image holds every benched cell of a set in its park state (R83). -/
def BenchSet.holds (b : BenchSet) (img : Image) : Bool := decide ((img ^^^ b.park) &&& b.set = 0)

/-- A bench set that came in force at an idle point, or a boundary that dealt nothing, where the image in force does not hold its park
states: the hand in force is routed anew at a deal of the module's own (log entry 106). -/
def parkDeal (s : State) (d : DieId) : State :=
  let x := s.die d
  if (isWorking x.base || x.base = mService) && decide (x.trans = .none) && x.dealer.pending.isEmpty && !x.cal.bench.holds x.dealer.image then
    mirrorDealer (s.onDie d (fun x => x.addDeal (placeOwn x x.nowInstant) .takes [] false none)) d
  else s

/-- CALIBRATION_BOUNDARY: every change ready by the last boundary passed, or by an idle point, comes in force. -/
def calBoundary (s : State) : State :=
  match s.declarer with
  | none => s
  | some d =>
    let x := s.die d
    let c' := x.calNow
    if x.rbit Reg.RED_MODE F.RED_MODE_TAKEOVER then s
    else parkDeal (if c' = x.cal then s else calApply s d c' (calDiff x.cal c')) d

def execCalibrationBoundary (s : State) : Host.Outcome State Fault Refusal := done (calBoundary s)

/-! ## Trims (R299, R300) -/

/-- The trim of a cell at its refresh, on the Declarer. -/
def trimCell (s : State) (d : DieId) (c : Nat) : State :=
  let x := s.die d
  let el := x.elem c
  let i := el.int.valA
  let least : Rat := ((x.rf Reg.CAL_TRIM F.CAL_TRIM_MIN : Nat) : Rat) / 10000
  if !x.isDecl || !x.rbit Reg.CAL_CTRL F.CAL_CTRL_TRIM_EN || !isCell c || el.active || el.onPinLoop || el.fallback || el.implausible ||
      decide ((if i < 0 then -i else i) < least) || x.cal.field.any (fun f => f.cell = c && f.trim) then s
  else
    let dF := roundRat (-(slopeH x c s.ticks * i))
    let total := spGet 0 c x.cal.trims + dF
    if decide (((x.rf Reg.CAL_TRIM F.CAL_TRIM_MAX : Nat) : Int) < (if total < 0 then -total else total)) then
      mirrorCal (s.onDie d (fun x => { x with cal := { x.cal with qfail := x.cal.qfail ||| BitVec.ofNat 4864 (2 ^ c) } })) d
    else
      let s1 := s.onDie d (fun x => { x with cal := { x.cal with field := x.cal.field ++ [⟨c, dF, none, x.nowUp, true⟩] } })
      mirrorCal (queueTask s1 d c tCal) d

/-- REFRESH_DUE: a resting cell is trimmed, then the refresh is made (R213, R299). -/
def refreshRow (d : DieId) (e : Nat) (s : State) : State :=
  let x := s.die d
  let el := x.elem e
  let due := x.loopsOn && decide (el.mode = 0) && !stale s e && decide (refreshNo x e ≠ el.refIdx)
  refreshDue d e (if due then trimCell s d e else s)

def execRefreshDue (die : DieId) (elem : Fin 5888) (s : State) : Host.Outcome State Fault Refusal :=
  done (refreshRow die elem.val s)

/-! ## Surveys (R301 to R303) -/

/-- The predicted power at a cell of light from an input whose gate is at step 0, from its incident power. -/
def surveyUw (x : Die) (i c : Nat) : Rat :=
  let w := (x.elem (4864 + i)).lastW
  ((pathOf x.dealer.image i).takeWhile (fun p => p.1 ≠ c)).foldl (fun a p => a * x.cal.cellGain p.1 (x.dealer.image.getLsbD p.1))
    (incidentUw x i (stepOf x.dealer.steps i) w * x.cal.gateGain i 0)

/-- The input a survey of a cell measures with: of its two routes the first that may serve. -/
def surveyInput (s : State) (d : DieId) (c : Nat) : Option Nat :=
  let x := s.die d
  let tripped (i : Nat) : Bool := x.lgd.eTripped ||
    (List.range 4).any (fun z => (x.lgd.zone z).state == .tripped && x.mapBit (Reg.LGD_ZMAP z 0) i)
  (routesThrough x.dealer.image c).find? (fun i =>
    !(namedInputs x.dealer.hand).contains i && s.light.getLsbD i && decide (stepOf x.dealer.steps i = 15) && !tripped i &&
      decide (dbmUw (-25000) ≤ surveyUw x i c))

/-- A cell is eligible for a survey (R301). -/
def surveyable (s : State) (d : DieId) (c : Nat) : Bool :=
  let x := s.die d
  let el := x.elem c
  let shut := (routesThrough x.dealer.image c).all (fun i => decide (stepOf x.dealer.steps (512 + reaches x.dealer.image i) = 15))
  let near := x.dealer.pending.any (fun dl =>
    let dl1 := if dl.stage = .placed then composeDeal x dl else dl
    decide (dl.instant ≤ x.now + 800000) && touchesSurvey x.dealer.image dl1.image x.dealer.steps dl1.steps c)
  let rested := match spFind c x.cal.quality with
    | some q => decide (3600 * secT * max 1 (x.rf Reg.CAL_SURVEY F.CAL_SURVEY_PERIOD_H) ≤ s.ticks - q.at_)
    | none => true
  x.isDecl && x.loopsOn && x.rbit Reg.CAL_CTRL F.CAL_CTRL_SURVEY_EN && shut && !el.onPinLoop && !x.cal.bench.set.getLsbD c &&
    (surveyInput s d c).isSome && !near && rested

/-- The tick of a cell's last survey; a cell never surveyed comes first. -/
def surveyed (x : Die) (c : Nat) : Option Nat := (spFind c x.cal.quality).map (·.at_)

/-- One cell's last survey is older than another's. -/
def olderSurvey (a b : Option Nat) : Bool :=
  match a, b with
  | none, some _ => true
  | some m, some n => decide (m < n)
  | _, none => false

/-- SURVEY_START: the oldest eligible cell; its input's gate opens, and the sweep follows (`surveyTick`). -/
def surveyStart (c : Nat) (s : State) : State :=
  match s.declarer with
  | none => s
  | some d =>
    let x := s.die d
    let age := surveyed x c
    if x.cal.survey.isSome || !surveyable s d c ||
        (List.range 4864).any (fun e => olderSurvey (surveyed x e) age && surveyable s d e) then s
    else match surveyInput s d c with
      | none => s
      | some i =>
        let s1 := queueTask (s.onDie d (fun x => { x with cal := { x.cal with survey := some ⟨c, i, s.ticks, 0⟩ } })) d c tCal
        driveOut s1 d (4864 + i) .gate (x.cal.gateCode i 0).toNat false surveyGroup

def execSurveyStart (cell : Fin 4864) (s : State) : Host.Outcome State Fault Refusal := done (surveyStart cell.val s)

/-- SURVEY_END: codes restored; live figures at once, folded codes at a boundary. -/
def surveyEnd (c : Nat) (r : SurveyResult) (s : State) : State :=
  match s.declarer with
  | none => s
  | some d =>
    match (s.die d).cal.survey with
    | some v =>
      if v.cell ≠ c then s
      else
        let s1 := if sweepSteps < v.step then s else surveyRestore s d v
        let s2 := s1.onDie d (fun x =>
          { x.count Reg.CAL_SURVEY_CNT F.CAL_SURVEY_CNT_DONE with cal := { x.cal with
              survey := none, field := x.cal.field ++ [⟨c, r.heaterFold, some r.ipi, x.nowUp, false⟩],
              quality := spPut c ⟨r.extBar.toNat, r.extCross.toNat, r.lock.toNat, s.ticks⟩ x.cal.quality } })
        mirrorCal (judgeCell s2 d c) d
    | none => s

def execSurveyEnd (cell : Fin 4864) (result : SurveyResult) (s : State) : Host.Outcome State Fault Refusal :=
  done (surveyEnd cell.val result s)

/-! ## T_f (R286, R287) -/

/-- The filter's next value from a temperature in 1/128 °C: 1/250 of the distance, or the temperature itself at first. -/
def Cal.filter (c : Cal) (t : Rat) (ticks : Nat) : Cal :=
  { c with tf := if c.lastTf = 0 then 2 * t else c.tf + (2 * t - c.tf) / 250, lastTf := ticks }

/-- T_F_FILTER_UPDATE: at 1 kHz; the holder's bank dies may change their heater gain with it (R258). -/
def tfUpdate (d : DieId) (s : State) : State :=
  let x := s.die d
  if !x.running || (x.cal.lastTf ≠ 0 && decide (s.ticks - x.cal.lastTf < msT)) then s
  else match x.thm.fabricTemp with
    | none => s
    | some t =>
      let s1 := s.onDie d (fun x => Die.covered { x with cal := x.cal.filter t (max 1 s.ticks) })
      let rose := decide (x.cal.tempC ≤ 0) && decide (0 < (s1.die d).cal.tempC)
      -- a cell never surveyed has the figures of the points that bracket T_f (R304)
      let s2 := if bracket x.cal.active x.cal.useTemp = bracket (s1.die d).cal.active (s1.die d).cal.useTemp then s1 else judgeAll s1 d
      if x.isDecl then (List.range 8).foldl (fun s b => chooseGain s d b rose) s2 else s2

def execTFFilterUpdate (die : DieId) (s : State) : Host.Outcome State Fault Refusal := done (tfUpdate die s)

end Sys2Proof.Machine
end

