-- ==== Sys2Proof/Machine/Commit.lean ====
section
/-!
DEFINITION. Commands that change the fabric, from acceptance to execution (R34, R420, R425): what refuses them, what they do once the
Dummy holds them, and the acknowledgements.
-/

namespace Sys2Proof.Machine

/-! ## LOOP_SET, DITHER_RUN, CONV_CAL (R206, R225 to R228, R278) -/

/-- A LOOP_SET is refused. Its Expert-only fields have been judged once, when it reached the descriptor engine (R25, R26: `firstChecks`). -/
def loopSetRefusal (d : List Byte) : Option Nat :=
  let first := leAt d 16 2
  let count := leAt d 18 2
  let mode := leAt d 20 1
  let fl := leAt d 21 1
  let keep := bitOf fl 1
  let offGate := bitOf fl 2
  let codes := !zeroRange d 24 29
  let bad := !zeroRange d 22 23 || !zeroRange d 30 63 || count = 0 || 5888 < first + count || (4 ≤ mode && mode ≠ 0xFF) || 8 ≤ fl ||
    bitsOf (leAt d 26 2) 14 12 ≠ 0 || bitsOf (leAt d 28 2) 15 14 ≠ 0 || (keep && (mode ≠ 1 || codes)) ||
    (mode = 3 && 4864 < first + count && !offGate)
  if bad then some stInvalid else none

/-- What a LOOP_SET asks of its elements. -/
def loopSetReq (d : List Byte) (cmd : Nat) : LoopReq :=
  let mode := leAt d 20 1
  let fl := leAt d 21 1
  let pin := leAt d 26 2
  ⟨if mode = 0xFF then none else some mode, bitOf fl 1, bitOf fl 0, leAt d 24 2, bitsOf pin 11 0, bitOf pin 15, bitsOf (leAt d 28 2) 13 0, cmd⟩

/-- A LOOP_SET executes; with no mode to change it is complete. -/
def loopSetCommit (s : State) (d : DieId) (c : Cmd) : State :=
  let s1 := loopReq s d (leAt c.desc 16 2) (leAt c.desc 18 2) (loopSetReq c.desc c.id)
  loopSetDone (s1.onDie d (·.onCmd c.id (fun c => { c with stage := .waiting }))) c.id

/-- A DITHER_RUN is refused: R225, R228, or another run on its bank die. -/
def ditherRefusal (x : Die) (d : List Byte) : Option Nat :=
  let es := (List.range (leAt d 18 1)).map (leAt d 16 2 + ·)
  if ditherBad d || es.any (fun e => 2 ≤ (x.elem e).mode) ||
      (!bitOf (leAt d 21 1) 0 && es.any (litTarget x)) then some stInvalid
  else if x.dither.any (fun r => r.bank = bankOf (leAt d 16 2)) then some stBusy
  else none

/-- A CONV_CAL is refused. -/
def convCalRefusal (s : State) (desc : List Byte) : Option Nat :=
  let m := leAt desc 16 1
  let fl := leAt desc 17 1
  if m = 0 || 2 ≤ fl || !zeroRange desc 18 63 then some stInvalid
  else if (List.range 8).any (fun b => bitOf m b && (s.bank b).cal.isSome) then some stBusy
  else none

/-- A CONV_CAL executes: the first named bank die is asked, or all at once with PARALLEL. -/
def convCalCommit (s : State) (d : DieId) (c : Cmd) : State :=
  let named := (List.range 8).filter (bitOf (leAt c.desc 16 1))
  let ask := if bitOf (leAt c.desc 17 1) 0 then named else named.take 1
  ask.foldl (fun s b => if (s.bank b).up d then s.emit (.bank d b mConvCal []) else s)
    (s.onDie d (·.onCmd c.id (fun c => { c with stage := .convCal (BitVec.ofNat 8 (leAt c.desc 16 1)) 0 })))

/-! ## Refusal and execution by opcode -/

/-- Why a command other than a take cannot be executed now. -/
def fabricRefusal (s : State) (d : DieId) (desc : List Byte) (me : Nat) : Option Nat :=
  let x := s.die d
  let op := dOpcode desc
  if op = 0x20 then deckLoadRefusal x desc me
  else if op = 0x21 then deckArmRefusal x desc me
  else if op = 0x22 then deckStopRefusal x desc
  else if op = 0x23 then deckSwapRefusal x desc
  else if op = 0x30 then loopSetRefusal desc
  else if op = 0x31 then ditherRefusal x desc
  else if op = 0x38 then calLoadRefusal x desc
  else if op = 0x39 then calCommitRefusal x desc
  else if op = 0x3A then talonRefusal x desc
  else convCalRefusal s desc

/-- Executes a command that the Dummy holds, or that needs no acknowledgement. -/
def commitCmd (s : State) (d : DieId) (id : Nat) : State :=
  match (s.die d).cmd id with
  | none => s
  | some c =>
    let op := dOpcode c.desc
    if op = 0x10 || op = 0x11 then takeAcked s d id
    else match fabricRefusal s d c.desc id with
      | some st => finish s d id st 0 0 0
      | none =>
        if op = 0x20 then deckLoadCommit s d c
        else if op = 0x21 then deckArmCommit s d c
        else if op = 0x22 then deckStopCommit s d c
        else if op = 0x23 then deckSwapCommit s d c
        else if op = 0x30 then loopSetCommit s d c
        else if op = 0x31 then
          ditherStart (s.onDie d (·.onCmd id (fun c => { c with stage := .dither }))) d id ((originFn c.origin).getD 4) c.desc
        else if op = 0x38 then calLoadCommit s d c
        else if op = 0x39 then calCommitCommit s d c
        else if op = 0x3A then talonCommit s d c
        else convCalCommit s d c

/-- A command whose validation is complete: executed at once while the die is solo, or mirrored first (R34, R425). -/
def acceptCmd (s : State) (d : DieId) (id : Nat) : State :=
  let s1 := s.onDie d (fun x => x.onCmd id (fun c => { c with begun := true, v := x.now }))
  if (s1.die d).solo then commitCmd s1 d id else mirrorRequest s1 d id none

/-! ## Acknowledgements (R34, R420) -/

/-- The tick at which a command began to wait for its acknowledgement. -/
def ackSince (c : Cmd) : Option (Nat × Nat) := match c.stage with | .acking q t => some (q, t) | _ => none

/-- A request is acknowledged at the present tick, or treated so. -/
def ackCmd (s : State) (d : DieId) (id : Nat) : State :=
  match (s.die d).cmd id with
  | none => s
  | some c =>
    match ackSince c with
    | none => s
    | some (_, t) =>
      let ns := min 65535 (s.ticks - t)
      let x := s.die d
      let s1 := if x.rf Reg.RED_ACK F.RED_ACK_MAX_NS < ns then s.setRf d Reg.RED_ACK F.RED_ACK_MAX_NS ns else s
      commitCmd s1 d id

/-- MIRROR_ACK: the oldest acknowledgement on its way reaches the Declarer. -/
def mirrorAck (s : State) : State :=
  match s.declarer with
  | none => s
  | some d =>
    match (s.die d).red.acks with
    | [] => s
    | (q, _) :: rest =>
      if s.mirror.state ≠ 2 then s
      else
        let s1 := s.onDie d (fun x => { x with red := { x.red with acks := rest } })
        match (s1.die d).cmds.find? (fun c => match ackSince c with | some (n, _) => n = q | none => false) with
        | some c => ackCmd s1 d c.id
        | none => s1

def execMirrorAck (s : State) : Host.Outcome State Fault Refusal := done (mirrorAck s)

/-- A take that is not executed leaves the deal it was placed in, which is composed again; a deal of takes left without one is
gone. -/
def unplaceTake (x : Die) (cmd : Nat) : Die :=
  { x with dealer := { x.dealer with pending := x.dealer.pending.filterMap (fun (dl : Deal) =>
    if dl.takes.any (fun t => t.cmd = cmd) then
      let ts := dl.takes.filter (fun t => t.cmd ≠ cmd)
      if ts.isEmpty && decide (dl.kind = .takes) then none
      else some { dl with takes := ts, stage := if dl.stage = .prepared then .placed else dl.stage }
    else some dl) } }

/-- A request that the Dummy has not acknowledged in time is not executed. -/
def ackTimeout (s : State) (d : DieId) (id : Nat) : State :=
  let s1 := raise (s.onDie d (fun x => (unplaceTake x id).count Reg.RED_ACK F.RED_ACK_TIMEOUTS)) d 187
  mirrorDealer (finish s1 d id stTimeout 0 0 0) d

/-- MIRROR_ACK_TIMEOUT: the oldest request that has waited 20 µs. -/
def mirrorAckTimeout (s : State) : State :=
  match s.declarer with
  | none => s
  | some d =>
    match (s.die d).cmds.find? (fun c => match ackSince c with | some (_, t) => decide (20 * usT ≤ s.ticks - t) | none => false) with
    | some c => ackTimeout s d c.id
    | none => s

def execMirrorAckTimeout (s : State) : Host.Outcome State Fault Refusal := done (mirrorAckTimeout s)

/-- Confirmation of solo operation: what waited is acknowledged, or out of time (R425). -/
def confirmAcks (s : State) (d : DieId) : State :=
  (s.die d).cmds.foldl (fun s c =>
    match ackSince c with
    | some (_, t) => if s.ticks - t < 20 * usT then ackCmd s d c.id else ackTimeout s d c.id
    | none => s) s

end Sys2Proof.Machine
end

