-- ==== Sys2Proof/Machine/DieReset.lean ====
section
/-!
DEFINITION. The reset of one control die (R495, R497 to R502): what it clears, what survives, and what its peer and the bank dies meet.
-/

namespace Sys2Proof.Machine

/-- Registers after a die reset (R499): POR everywhere, but the Light Guard keeps all but its RW fields. -/
def Die.resetRegs (x : Die) : Die :=
  ({ x with regs := x.regs.filter (fun e => decide (0x8000 ≤ e.1) && decide (e.1 < 0x9000)) }).porRegs (fun _ => true)
    (fun a => a == Access.rw)

/-- FLT_STICKY of a die as one set. -/
def Die.sticky (x : Die) : BitVec 256 :=
  BitVec.ofNat 256 ((List.range 8).foldl (fun a w => a + x.reg (Reg.FLT_STICKY w) * 2 ^ (32 * w)) 0)

/-- The fault snapshot freezes (R502): 1 MODRST_N, 2 CDRST_N, 3 software or fault, 4 STANDBY. -/
def Die.freeze (x : Die) (kind ticks : Nat) : Die :=
  { x with aon := { x.aon with snap := x.sticky, snapKind := kind, snapAt := x.watch ticks } }

/-- The always-on count of a die reset, by where the die is held: 2 CDRST_N, 3 software, 4 fault. -/
def AlwaysOn.countReset (a : AlwaysOn) (kind : Nat) : AlwaysOn :=
  if kind = 2 then { a with countCd := satAdd 8 a.countCd 1 }
  else if kind = 3 then { a with countSoft := satAdd 8 a.countSoft 1 }
  else { a with countFault := satAdd 8 a.countFault 1 }

/-- RST_CAUSE of a die reset. -/
def resetCause (kind : Nat) : Nat := if kind = 2 then 4 else if kind = 3 then 8 else 16

/-- The die as it stands in reset (R499, R500): its safety unit, its always-on domain, the service lock's attempts and the failed sensors
are kept, everything else is as after power-on. -/
def Die.inReset (x : Die) (d : DieId) (kind ticks : Nat) : Die :=
  let y := (if kind = 2 then x.freeze 2 ticks else x.freeze 3 ticks)
  let z : Die :=
    { Die.reset d ticks with
      life := .held kind ticks, regs := y.resetRegs.regs, nextCmd := x.nextCmd, lgd := x.lgd,
      svc := { Service.reset with fails := x.svc.fails, lockout := x.svc.lockout, failed := x.svc.failed, opened := x.svc.opened },
      thm := { Thermal.reset with
        paths := x.thm.paths.map (fun (p : SPath) => ⟨none, 0, p.failed⟩), sensors := x.thm.sensors.map (fun (v : Sensor) => ⟨0, 0, v.failed⟩) },
      aon := y.aon.countReset kind }
  z.setReg Reg.RST_CAUSE (resetCause kind)

/-- The bank links of a die drop; a reset of the die ends a permanent loss (R266, R495). -/
def dropBankLinks (s : State) (d : DieId) : State :=
  (List.range 8).foldl (fun s b => s.onBank b (fun k => (k.setLink d { k.link d with state := 0, bad := 0, fails := [] }).portLost)) s

/-- The mirror link has gone down as a die that is not in reset itself sees it. -/
def mirrorSeenDown (s : State) (d : DieId) : State :=
  if (s.die d).running then
    ruleAlone (s.onDie d (fun x =>
      { x.count Reg.RED_MIRROR_ERR F.RED_MIRROR_ERR_DOWNS with red := { x.red with mirrorDownSince := some s.ticks } })) d
  else s

/-- The peer's TAKEOVER command that a yield serves ends when the yielding die is reset. -/
def claimEnds (s : State) (d : DieId) : State :=
  match (s.die d).red.takeover with
  | some t =>
    (match t.cmd with
    | some id => if !t.claimant && t.yieldAt.isNone then finish s d.peer id stBusy 0 0 0 else s
    | none => s)
  | none => s

/-- A reset of a control die begins: 2 CDRST_N, 3 software, 4 fault. One that runs or boots already absorbs all but CDRST_N (R498). -/
def dieReset (s : State) (d : DieId) (kind : Nat) : State :=
  let x := s.die d
  if !x.running && kind ≠ 2 then s
  else
    let up := s.mirror.state = 2
    let s0 := claimEnds (if x.isDecl then lockClose s false else s) d
    let s1 := dropBankLinks (s0.onDie d (fun x => x.inReset d kind s.ticks)) d
    let s2 : State := { s1 with mirror := Link.down }
    if up then mirrorSeenDown s2 d.peer else s2

end Sys2Proof.Machine
end

