-- ==== Sys2Proof/Machine/Takeover.lean ====
section
/-!
DEFINITION. Takeovers (R424 to R434, R543): claims, grants and refusals, the planned yield, adoption, solo operation.
-/

namespace Sys2Proof.Machine

/-! ## What a takeover writes -/

/-- Applies a change to the redundancy unit of a die. -/
def Die.onRed (x : Die) (f : Red → Red) : Die := { x with red := f x.red }
def Die.onTakeover (x : Die) (f : Takeover → Takeover) : Die := x.onRed (fun r => { r with takeover := r.takeover.map f })

/-- A TAKEOVER record (R411): 0 claim, 1 service resumed, 2 yielded, 3 refused; the die now Declarer; the gap. -/
def takeoverEvent (s : State) (d : DieId) (code : Nat) (decl : DieId) (gap : Nat) : State :=
  event s d evTakeover (leBytes 1 code ++ leBytes 1 decl.num ++ leBytes 4 gap)

/-- The slaving error belongs to a Dummy: a die that becomes Declarer has offset 0 and no error (R93). -/
def Die.unslaved (x : Die) : Die :=
  { (x.setReg Reg.TIM_SLAVE_OFS 0).setRf Reg.TIM_STATUS F.TIM_STATUS_SLAVE_ERR 0 with clock := { x.clock with slaveSince := none } }

/-- ROLE and TAKEOVER of a die. -/
def setRole (s : State) (d : DieId) (role taking : Nat) : State :=
  setMode (if role = 1 then s.onDie d (·.unslaved) else s) d
    (fun w => fput F.RED_MODE_TAKEOVER (fput F.RED_MODE_ROLE w role) taking)

/-- A command ends on whichever die holds it. -/
def finishAny (s : State) (id status result : Nat) : State :=
  finish (finish s .cd0 id status result 0 0) .cd1 id status result 0 0

/-- A die is a Dummy that can take over (R426). -/
def readyDummy (s : State) (d : DieId) : Bool := (s.die d).isDummy && !(s.die d).inResync && (s.die d.peer).peerOk

/-- A Declarer that has been triggered to yield and has not reached Y (R430). -/
def Die.yielding (x : Die) : Bool :=
  match x.red.takeover with | some t => !t.claimant && t.yieldAt.isNone && x.isDecl | none => false

/-! ## Requests that are not executed here any more (R430, R432) -/

/-- Descriptors of a die's rings that wait for validation and change the fabric complete with NOT_DECLARER. -/
def rejectFetched (s : State) (d : DieId) : State :=
  (List.range 4).foldl (fun s f => (List.range 8).foldl (fun s r =>
    let l := ((s.die d).ring f r).fetched
    let fab (e : Nat × Nat × List Byte) : Bool := changesFabric (dOpcode e.2.2)
    let s1 := s.onDie d (·.onRing f r (fun g => { g with fetched := g.fetched.filter (fun e => !fab e) }))
    (l.filter fab).foldl (fun s e => complete s d (descOrigin f r e.1 e.2.2) stNotDecl 0 0 0) s1) s) s

/-- The fabric commands of a die that have not begun complete with NOT_DECLARER. -/
def rejectReading (s : State) (d : DieId) : State :=
  ((s.die d).cmds.filter (fun c => !c.begun && changesFabric (dOpcode c.desc))).foldl (fun s c =>
    finish s d c.id stNotDecl 0 0 0) s

/-- The fabric commands that a former Declarer has begun: those its peer holds end without a completion here, those it does not hold
with NOT_DECLARER; requests by VSP are lost. -/
def leaveCommands (s : State) (d : DieId) : State :=
  let kept := (s.die d.peer).red.held.map (fun h => h.1.id)
  ((s.die d).cmds.filter (fun c => c.begun && changesFabric (dOpcode c.desc))).foldl (fun s c =>
    let drop (s : State) : State := s.onDie d (fun x => { x with cmds := x.cmds.filter (fun (e : Cmd) => e.id ≠ c.id) })
    match c.origin with
    | .ring .. => if kept.contains c.id then drop s else finish s d c.id stNotDecl 0 0 0
    | _ => drop s) s

/-! ## The claim (R427) -/

/-- A die claims the token of all bank dies: mode word, counters, source 188, the record, the claims; the service lock closes, and from
SERVICE the module goes dark (R519). -/
def startClaim (s : State) (d : DieId) (t : Takeover) (trigger : Nat) : State :=
  let s1 := setRole (s.onDie d (·.onRed (fun r => { r with takeover := some t, sent := [], acks := [] }))) d 1 1
  let s2 := s1.onDie d (fun x => (x.setReg64 Reg.RED_TO_TIME trigger).count Reg.RED_TO_CNT F.RED_TO_CNT_CLAIMS)
  let s3 := lockClose (sendBanks (takeoverEvent (raise s2 d 188) d 0 d 0) d mClaim) false
  if (s3.die d).base = mService && decide ((s3.die d).trans = .none) then goDarkStart s3 d false else s3

/-- The last drive write before the gap, as the bank dies have heard their holder. -/
def lastWrite (s : State) : Nat := (List.range 8).foldl (fun a b => max a (s.bank b).lastMsg) 0

/-- The unplanned claim of a Dummy that has lost its peer (R423). -/
def claimLost (s : State) (d : DieId) : State :=
  startClaim s d ⟨false, true, s.ticks, none, 0, 0, s.ticks, lastWrite s, none, none, none⟩ (s.die d).ns

/-- CLAIM_REPEAT: every 1 µs to each bank die that has not granted, of a takeover or of the claim at role assignment. -/
def claimRepeat (d : DieId) (s : State) : State :=
  let x := s.die d
  let send (s : State) : State := (List.range 8).foldl (fun s b =>
    if (s.bank b).up d && !(s.bank b).holds d then s.emit (.bank d b mClaim []) else s) s
  match x.red.takeover with
  | some t =>
    if t.claimant && decide (usT ≤ s.ticks - t.lastClaim) then send (s.onDie d (·.onTakeover (fun t => { t with lastClaim := s.ticks }))) else s
  | none => if x.isDecl && x.running then send s else s

def execClaimRepeat (die : DieId) (s : State) : Host.Outcome State Fault Refusal := done (claimRepeat die s)

/-- CLAIM_ABANDON: every bank die has refused for 10 µs. -/
def claimAbandon (d : DieId) (s : State) : State :=
  match (s.die d).red.takeover with
  | none => s
  | some t =>
    if !t.claimant || t.refused ≠ BitVec.allOnes 8 || s.ticks - t.since < 10 * usT then s
    else
      let s1 := setRole (s.onDie d (fun x => (x.onRed (fun r => { r with takeover := none })).setRf Reg.RED_STATUS
        F.RED_STATUS_ABANDONED 1)) d 0 0
      let s2 := takeoverEvent (raise s1 d 190) d 3 d.peer 0
      match t.cmd with | some id => finishAny s2 id stBusy 0 | none => s2

def execClaimAbandon (die : DieId) (s : State) : Host.Outcome State Fault Refusal := done (claimAbandon die s)

/-! ## Refusals: the claim fails, or the holder is deposed (R64, R424, R427) -/

/-- A Declarer becomes Dummy because a bank die names its peer: it yields where it still holds the token, and its requests end. A refusal
counts and is recorded. -/
def depose (s : State) (d : DieId) (refused : Bool) : State :=
  let s1 := (List.range 8).foldl (fun s b => if (s.bank b).up d && (s.bank b).holds d then s.emit (.bank d b mYield []) else s) s
  let s2 := leaveCommands (rejectReading (rejectFetched s1 d) d) d
  let t : Takeover := ⟨false, false, s.ticks, some s.ticks, 0, 0, 0, 0, none, none, none⟩
  let s3 := raise (setRole (s2.onDie d (fun x => (x.onRed (fun r => { r with takeover := some t, waitPeer := false, sent := [], acks := [] })).setRf Reg.RED_STATUS
    F.RED_STATUS_SOLO 0)) d 2 0) d 189
  if refused then takeoverEvent (s3.count d Reg.RED_TO_CNT F.RED_TO_CNT_DEPOSED) d 3 d.peer 0 else s3

/-- TOKEN_REFUSED: a refusal that names a live holder, at a claimant, or a refused write, at the former Declarer, which is Dummy from the first
one on (R64): after Y its requests have ended already, and before Y a reset that was to follow is made at once. -/
def tokenRefused (d : DieId) (b : Nat) (s : State) : State :=
  let x := s.die d
  let k := s.bank b
  if !x.running || !k.up d || k.holder ≠ some d.peer then s
  else match x.red.takeover with
    | some t =>
      if t.claimant then s.onDie d (·.onTakeover (fun t => { t with refused := t.refused ||| BitVec.ofNat 8 (2 ^ b) }))
      else if !x.isDecl then s
      else if t.yieldAt.isSome then setRole s d 2 0
      else match t.resetAfter with
        | some r => dieReset (depose s d true) d r
        | none => depose s d true
    | none => if x.isDecl then depose s d true else s

def execTokenRefused (die : DieId) (bank : Fin 8) (s : State) : Host.Outcome State Fault Refusal :=
  done (tokenRefused die bank.val s)

/-- SOLO_CHECK: 10 µs after its peer was declared lost a Declarer asks the bank dies its links reach. -/
def soloCheck (d : DieId) (s : State) : State :=
  let x := s.die d
  if !x.isDecl || x.taking || !x.red.peerLost || x.solo || s.ticks - x.red.lostAt < 10 * usT then s
  else
    let asked := (List.range 8).filter (fun b => (s.bank b).up d)
    if asked.any (fun b => (s.bank b).holds d.peer) then depose s d false
    else if asked.all (fun b => (s.bank b).holds d) then
      confirmAcks (s.setRf d Reg.RED_STATUS F.RED_STATUS_SOLO 1) d
    else s

def execSoloCheck (die : DieId) (s : State) : Host.Outcome State Fault Refusal := done (soloCheck die s)

/-! ## Grants (R425, R428) -/

/-- The former Declarer's reset after the first drive write (R430). -/
def formerReset (s : State) (d : DieId) (t : Takeover) : State :=
  match t.resetAfter with | some k => dieReset s d.peer k | none => s

/-- TOKEN_GRANTED: reconciliation with the bank die; solo from the first grant where the peer cannot acknowledge; with the eighth the
first drive write is made. A Declarer by role assignment writes the blind tables of a bank die that grants. -/
def tokenGranted (d : DieId) (b : Nat) (s : State) : State :=
  let k := s.bank b
  match (s.die d).red.takeover with
  | none => if (s.die d).isDecl && k.up d && k.holds d then sendTables s d b else s
  | some t =>
    if !t.claimant || !k.up d || !k.holds d || t.granted.getLsbD b then s
    else
      let g := t.granted ||| BitVec.ofNat 8 (2 ^ b)
      let all := g = BitVec.allOnes 8
      let s1 := s.onDie d (·.onTakeover (fun t => { t with
        granted := g, refused := t.refused &&& ~~~ BitVec.ofNat 8 (2 ^ b), firstWrite := if all then some s.ticks else none }))
      let s2 := if !t.planned || t.resetAfter.isSome then s1.setRf d Reg.RED_STATUS F.RED_STATUS_SOLO 1 else s1
      let s3 := reconcile s2 d b
      if all then formerReset s3 d t else s3

def execTokenGranted (die : DieId) (bank : Fin 8) (s : State) : Host.Outcome State Fault Refusal :=
  done (tokenGranted die bank.val s)

/-! ## Full fabric service (R429, R431, R432) -/

/-- Deals as the new Declarer finds them: takes it holds are acknowledged, and a preload that is not complete is prepared again. -/
def reprepare (x : Die) : Die :=
  let again (dl : Deal) : Bool := dl.stage = .prepared || (dl.stage = .sent && dl.acks ≠ BitVec.allOnes 8)
  let n := (x.dealer.pending.filter again).length
  let ps := (x.dealer.pending.foldl (fun (a : List Deal × Nat) dl =>
    let dl1 : Deal := { dl with takes := dl.takes.map (fun (t : Take) => { t with acked := true }) }
    if again dl then (a.1 ++ [{ dl1 with stage := .prepared, preload := a.2, acks := 0 }], a.2 + 1) else (a.1 ++ [dl1], a.2))
    ([], x.dealer.nextPreload)).1
  { x with dealer := { x.dealer with pending := ps, nextPreload := x.dealer.nextPreload + n } }

/-- A command waits for something that the mirrored state still names. -/
def stillWaits (x : Die) (id : Nat) : Bool :=
  let inRun (o : Option DeckRun) : Bool := match o with
    | some r => (match r.stop with | some (_, _, cs) => cs.contains id | none => false) ||
        (match r.swap with | some (_, cs) => cs.contains id | none => false)
    | none => false
  let inPend (o : Option BenchPend) : Bool := match o with | some p => p.cmds.contains id | none => false
  inRun x.decks.current || inRun x.decks.next || inPend x.cal.pend || inPend x.cal.pend2 || x.loopWaits id ||
    (match x.cal.commit with | some (i, _) => i = id | none => false)

/-- One request held from the mirror is taken over: a take goes on from its deal or its verification, or is placed; another command waits
on, or executes. -/
def adopt (s : State) (d : DieId) (h : Cmd × Option Take) : State :=
  let c : Cmd := { h.1 with adopted := true, begun := true, orphan := false, stage := .waiting }
  let s1 := s.onDie d (fun x => { x with cmds := x.cmds ++ [c] })
  let x := s1.die d
  match h.2 with
  | some t =>
    match x.dealer.pending.find? (fun dl => dl.takes.any (fun u => u.cmd = c.id)) with
    | some dl => s1.onDie d (·.onCmd c.id (fun c => { c with stage := .placed dl.num, result := dl.instant }))
    | none =>
      if x.dealer.dealtTakes.any (fun u => u.take.cmd = c.id) then s1.onDie d (·.onCmd c.id (fun c => { c with stage := .placed 0 }))
      else match placeTake s1 d { t with acked := true } with
        | (s2, .at_ num inst) => takePlaced s2 d t num inst
        | (s2, .late) => lateTake s2 d { t with acked := true } true
        | (s2, .busy) => takeEnds s2 d t stBusy
  | none => if stillWaits x c.id then s1 else commitCmd s1 d c.id

/-- RED_ADOPT_f_r and RED_ADOPT_VALID: the counts of what the new Declarer holds. -/
def adoptCounts (x : Die) : Die :=
  ((List.range 32).foldl (fun x i => x.setReg (Reg.RED_ADOPT (i / 8) (i % 8)) (spGet 0 i x.red.adopt)) x).setReg Reg.RED_ADOPT_VALID
    0xFFFFFFFF

/-- The whole mirrored state goes to a peer that is Dummy. -/
def mirrorAll (s : State) (d : DieId) : State :=
  mirrorVsp (mirrorCal (mirrorPlanner (mirrorDecks (mirrorDealer s d) d) d) d) d

/-- FULL_FABRIC_SERVICE. -/
def fullService (d : DieId) (s : State) : State :=
  match (s.die d).red.takeover with
  | none => s
  | some t =>
    match t.firstWrite with
    | none => s
    | some fw =>
      if !t.claimant then s
      else
        let gap := fw - t.gapFrom
        let word (x : Die) : Die := if x.running then
            (x.setRf Reg.RED_TO_GAP F.RED_TO_GAP_SERVICE_US (min 65535 ((s.ticks - t.since) / usT))).setRf Reg.RED_TO_GAP
              F.RED_TO_GAP_GAP_NS (min 65535 gap)
          else x
        let held := (s.die d).red.held
        let s1 := (s.onDie d word).onDie d.peer (fun x => (word x).onRed (fun r => { r with takeover := none, adopt := [] }))
        let s2 := s1.onDie d (fun x => (reprepare ((adoptCounts x).onRed (fun r =>
          { r with takeover := none, held := [], adopt := [] }))).count Reg.RED_TO_CNT F.RED_TO_CNT_RESUMED)
        let s3 := takeoverEvent (setRole s2 d 1 0) d 1 d gap
        let s4 := mirrorAll ((held.foldl (fun s h => adopt s d h) s3).onDie d (fun x =>
          { x with vsp := { x.vsp with agents := x.vsp.agents.map (fun a => a.full x s.ticks) } })) d
        match t.cmd with | some id => finishAny s4 id stOk (s4.die d).ns | none => s4

def execFullFabricService (die : DieId) (s : State) : Host.Outcome State Fault Refusal := done (fullService die s)

/-! ## Planned takeovers (R426, R430, R543) -/

/-- The Declarer stops validating: requests that it has not validated end here. -/
def startYield (s : State) (d : DieId) (cmd reset : Option Nat) : State :=
  let t : Takeover := ⟨true, false, s.ticks, none, 0, 0, 0, 0, none, reset, cmd⟩
  rejectReading (rejectFetched (s.onDie d (·.onRed (fun r => { r with takeover := some t }))) d) d

/-- A planned trigger on the Declarer: a TAKEOVER command, a reset of the given kind, or neither for the loss of a link. A second one is
merged, refused or absorbed. -/
def plannedTrigger (s : State) (d : DieId) (cmd reset : Option Nat) : State :=
  let x := s.die d
  let refuse (s : State) : State :=
    let s1 := match cmd with | some id => finishAny s id stBusy 0 | none => s
    match reset with | some k => dieReset s1 d k | none => s1
  match x.red.takeover with
  | some t =>
    if t.claimant then refuse s
    else match reset with
      | some k => s.onDie d (·.onTakeover (fun t => { t with resetAfter := some k }))
      | none => refuse s
  | none =>
    if x.red.waitPeer then refuse (s.onDie d (·.onRed (fun r => { r with waitPeer := reset.isNone && r.waitPeer })))
    else if readyDummy s d.peer && x.isDecl then startYield s d cmd reset
    else if cmd.isNone && reset.isNone && (s.die d.peer).inResync then s.onDie d (·.onRed (fun r => { r with waitPeer := true }))
    else refuse s

/-- A die reset that yields first where R426 allows it: of the Declarer with a ready Dummy. -/
def yieldingReset (s : State) (d : DieId) (kind : Nat) : State :=
  if (s.die d).isDecl && (s.die d).running then plannedTrigger s d none (some kind) else dieReset s d kind

/-- YIELD_POINT: every validated request is acknowledged, and the Dummy holds what was mirrored; the Declarer yields and its peer claims. Without a ready Dummy the yield ends. -/
def yieldPoint (d : DieId) (s : State) : State :=
  let x := s.die d
  match x.red.takeover with
  | none => s
  | some t =>
    if !x.yielding || x.cmds.any (fun c => (ackSince c).isSome) || (readyDummy s d.peer && !x.red.sent.isEmpty) then s
    else if !readyDummy s d.peer then
      let s1 := s.onDie d (·.onRed (fun r => { r with takeover := none }))
      let s2 := match t.cmd with | some id => finishAny s1 id stBusy 0 | none => s1
      match t.resetAfter with | some k => dieReset s2 d k | none => s2
    else
      let trigger := x.ns - (s.ticks - t.since)
      let s1 := s.onDie d (fun x => ((x.onTakeover (fun t => { t with yieldAt := some s.ticks })).setReg64 Reg.RED_TO_TIME trigger).count
        Reg.RED_TO_CNT F.RED_TO_CNT_YIELDS)
      let s2 := takeoverEvent (sendBanks s1 d mYield) d 2 d.peer 0
      let s3 := leaveCommands s2 d
      let s4 := if t.resetAfter.isNone then setRole s3 d 2 0 else s3
      startClaim s4 d.peer ⟨true, true, t.since, some s.ticks, 0, 0, s.ticks, s.ticks, none, t.resetAfter, t.cmd⟩ trigger

def execYieldPoint (die : DieId) (s : State) : Host.Outcome State Fault Refusal := done (yieldPoint die s)

/-- The Declarer's link to a bank die is lost for good while the Dummy's is up (R426). -/
def linkLost (s : State) (b : Nat) : State :=
  match s.declarer with
  | none => s
  | some d =>
    if ((s.bank b).link d).state = 3 && (s.bank b).up d.peer && (s.die d).rbit Reg.RED_CTRL F.RED_CTRL_YIELD_LINKLOST &&
        !(s.die d).taking then plannedTrigger s d none none
    else s

/-- BANK_LINK_RETRAIN_FAIL: the next attempt starts at once; three failures within 1 s lose the link. -/
def linkRetrainFail (d : DieId) (b : Nat) (s : State) : State :=
  let l := (s.bank b).link d
  if l.state ≠ 1 then s
  else
    let fails := l.fails.filter (fun t => decide (s.ticks < t + secT)) ++ [s.ticks]
    if 3 ≤ fails.length then
      linkLost (raiseBoth (s.onBank b (·.setLink d { l with state := 3, fails := fails })) (108 + linkNum d b) (linkNum d b)) b
    else s.onBank b (·.setLink d { l with fails := fails, retrains := satAdd 6 l.retrains 1 })

def execBankLinkRetrainFail (die : DieId) (bank : Fin 8) (s : State) : Host.Outcome State Fault Refusal :=
  done (linkRetrainFail die bank.val s)

end Sys2Proof.Machine
end

