-- ==== Sys2Proof/Machine/Mirror.lean ====
section
/-!
DEFINITION. The mirror link (R419, R420), heartbeats and the loss of the peer (R422, R423), mirrored records at the Dummy, RESYNC (R63,
R421).
-/

namespace Sys2Proof.Machine

/-! ## The link (R419) -/

/-- Both dies see the mirror link go down; what RESYNC has loaded is discarded (R63). -/
def mirrorDown (s : State) : State :=
  let drop (s : State) (d : DieId) : State := (mirrorSeenDown s d).onDie d (·.onRed (fun r => { r with loading := false }))
  drop (drop { s with mirror := { s.mirror with state := 1, bad := 0 } } .cd0) .cd1

/-- MIRROR_LINK_BAD_FRAME: a frame that die d receives is bad and its peer replays it; the sixteenth in a row takes the link down. -/
def mirrorBadFrame (d : DieId) (s : State) : State :=
  if s.mirror.state ≠ 2 then s
  else
    let p := d.peer
    let n := s.mirror.bad + 1
    let s1 := raise ({ s with mirror := { s.mirror with bad := n } }.onDie p (fun x =>
      (x.count Reg.RED_MIRROR_ERR F.RED_MIRROR_ERR_REPLAYS).addTotal 0)) p 186
    if 16 ≤ n then mirrorDown s1 else s1

def execMirrorLinkBadFrame (die : DieId) (s : State) : Host.Outcome State Fault Refusal := done (mirrorBadFrame die s)

/-- MIRROR_LINK_DOWN: 2 µs without lock. -/
def execMirrorLinkDown (s : State) : Host.Outcome State Fault Refusal := done (if s.mirror.state = 2 then mirrorDown s else s)

/-- MIRROR_RETRAIN_FAIL: the next attempt starts at once; three failures within 1 s leave the link down until a reset. -/
def mirrorRetrainFail (s : State) : State :=
  if s.mirror.state ≠ 1 then s
  else
    let fails := s.mirror.fails.filter (fun t => decide (s.ticks < t + secT)) ++ [s.ticks]
    { s with mirror := { s.mirror with fails := fails, state := if 3 ≤ fails.length then 3 else 1 } }

def execMirrorRetrainFail (s : State) : Host.Outcome State Fault Refusal := done (mirrorRetrainFail s)

/-- The mirror link is up. -/
def mirrorUp (s : State) : State :=
  let clear (x : Die) : Die := x.onRed (fun r => { r with mirrorDownSince := none })
  ({ s with mirror := { s.mirror with state := 2, bad := 0 } }.onDie .cd0 clear).onDie .cd1 clear

/-- MIRROR_LINK_UP: an attempt regains lock. -/
def execMirrorLinkUp (s : State) : Host.Outcome State Fault Refusal := done (if s.mirror.state = 1 then mirrorUp s else s)

/-- The clock of a die follows its peer's phase (R92). -/
def slaveClock (s : State) (d : DieId) : State :=
  let p := s.die d.peer
  if p.clock.running then s.onDie d (fun x => { x with clock := { x.clock with running := true, now := p.clock.now } }) else s

/-- The clock of a slave follows its Declarer's phase and increment (R92). -/
def followClock (s : State) (d : DieId) : State :=
  (slaveClock s d).onDie d (fun x => x.setReg64 Reg.TIM_INCR ((s.die d.peer).reg64 Reg.TIM_INCR))

/-! ## Heartbeats (R422, R423) -/

/-- HEARTBEAT_SEND: every 1 µs, carrying RED_MODE; the peer's windows and its view of the peer follow. -/
def heartbeatSend (d : DieId) (s : State) : State :=
  let x := s.die d
  if !x.running || (x.red.hbSent ≠ 0 && decide (s.ticks - x.red.hbSent < usT)) || s.mirror.state ≠ 2 then s
  else
    let w := x.reg Reg.RED_MODE
    let s1 := (s.onDie d (·.onRed (fun r => { r with hbSent := s.ticks }))).emit (.heartbeat d (BitVec.ofNat 32 w))
    let p := d.peer
    if !(s.die p).running then s1
    else
      let s2 := s1.onDie p (fun y => (y.onRed (fun r =>
        { r with hbSeen := true, window := r.window + (s.ticks - r.window) / usT * usT, peerMode := BitVec.ofNat 32 w,
                 peerOfs := signedOf 32 (x.reg Reg.TIM_SLAVE_OFS), peerLost := false,
                 absentSince := if x.role = 0 then r.absentSince else none })).setRf Reg.RED_STATUS F.RED_STATUS_HB_MISS 0)
      let s3 := setModeF { s2 with mirror := { s2.mirror with bad := 0 } } p F.RED_MODE_PEER_OK 1
      if x.isDecl && ((s3.die p).isDummy || (s3.die p).inResync) then followClock s3 p else s3

def execHeartbeatSend (die : DieId) (s : State) : Host.Outcome State Fault Refusal := done (heartbeatSend die s)

/-- The peer is declared lost: source 184; a Dummy that may claims at once. -/
def peerLoss (s : State) (d : DieId) : State :=
  let s1 := raise (setModeF s d F.RED_MODE_PEER_OK 0) d 184
  let s2 := s1.onDie d (·.onRed (fun r => { r with peerLost := true, lostAt := s.ticks, absentSince := some (r.absentSince.getD s.ticks) }))
  let x := s2.die d
  if x.isDummy && !x.inResync && x.red.takeover.isNone && x.rbit Reg.RED_CTRL F.RED_CTRL_AUTO_CLAIM then claimLost s2 d else s2

/-- HEARTBEAT_WINDOW_MISS: one window without a heartbeat is counted; the fourth in a row, of a peer that was there, declares it lost. -/
def heartbeatMiss (d : DieId) (s : State) : State :=
  let x := s.die d
  let w := if x.red.hbSeen then x.red.window + usT else x.red.window
  if !x.running || s.ticks < w + usT then s
  else
    let n := min 15 (x.rf Reg.RED_STATUS F.RED_STATUS_HB_MISS + 1)
    let s1 := s.onDie d (fun x => (((x.onRed (fun r => { r with hbSeen := false, window := w + usT })).setRf Reg.RED_STATUS
      F.RED_STATUS_HB_MISS n).count Reg.RED_HB_CNT F.RED_HB_CNT_MISSED).addTotal 1)
    if 4 ≤ n && x.peerOk then peerLoss s1 d else s1

def execHeartbeatWindowMiss (die : DieId) (s : State) : Host.Outcome State Fault Refusal := done (heartbeatMiss die s)

/-- WATCHDOG_STALL: a fault-reaction die reset at once, without a yield. -/
def execWatchdogStall (die : DieId) (s : State) : Host.Outcome State Fault Refusal :=
  done (if (s.die die).running then dieReset s die 4 else s)

/-! ## Records at the Dummy (R420) -/

/-- A calibration snapshot keeps what the die measures itself; a survey is the Declarer's alone. -/
def Cal.mirrored (own c : Cal) : Cal := { c with tf := own.tf, covered := own.covered, lastTf := own.lastTf, survey := none }

/-- A request is held; its descriptor counts for its ring (R432). -/
def holdRequest (x : Die) (c : Cmd) (t : Option Take) : Die :=
  x.onRed (fun r =>
    let q : Red := { r with held := r.held.filter (fun h => decide (h.1.id ≠ c.id)) ++ [(c, t)] }
    q.counted c.origin)

/-- The Dummy's loops follow a change of the base mode as the Declarer's do (R35). -/
def followLoops (s : State) (d : DieId) (was : Nat) : State :=
  let b := (s.die d).base
  if b = was then s
  else if b = mBlind then s.onDie d (·.loopsBlind s.ticks)
  else if b = mDark then s.onDie d (·.loopsDark s.ticks)
  else if was = mBlind && isWorking b then loopsResume s d
  else s

/-- BASE and the overlay bits of the Declarer's word; the Dummy's own role and link bits stay. -/
def followMode (s : State) (d : DieId) (w : Nat) : State :=
  let was := (s.die d).base
  followLoops (setMode s d (fun v => fput F.RED_MODE_DEGRADED (fput F.RED_MODE_SAFE (fput F.RED_MODE_BASE v (fget F.RED_MODE_BASE w))
    (fget F.RED_MODE_SAFE w)) (fget F.RED_MODE_DEGRADED w))) d was

/-- The Dummy's own result differs from the Declarer's: counted in a field of RED_CMP_CNT, with the shadow-mismatch source (R421). -/
def shadowDiff (s : State) (d : DieId) (f : Fld) (n : Nat) : State :=
  (List.range n).foldl (fun s _ =>
    noteDiff (((s.onDie d (·.count Reg.RED_CMP_CNT f)).onDie .cd0 (·.addTotal 2)).onDie .cd1 (·.addTotal 2)) d 191) s

/-- The deals of a Dealer record whose composition or image the Dummy, composing and routing them itself (R35, steps 4 and 5), finds
different. -/
def dealsDiffer (x : Die) (v : Dealer) : Nat :=
  let y : Die := { x with dealer := v }
  let known (dl : Deal) : Bool := x.dealer.pending.any (fun e => decide (e.num = dl.num) && decide (e.preload = dl.preload) && decide (e.stage ≠ .placed))
  (v.pending.filter (fun dl => decide (dl.stage = .prepared) && !known dl && (let own := composeDeal y dl
    decide (own.hand ≠ dl.hand) || decide (own.image ≠ dl.image)))).length

/-- The hands and the grants of a planner record differ from those the Dummy has planned itself from its Bids and credits (R186). -/
def planDiffers (x : Die) (v : Planner) : Nat :=
  match x.planner.planning, autoEpoch x with
  | some p, some (r, _) =>
    match v.planned.find? (fun q => q.1 = p.epoch) with
    | some q =>
      let (hands, m) := planEpoch x r p
      let hand (t : Nat) : Hand := (x.decks.hand (28672 + 1024 * (p.epoch % 4) + t)).entries
      (hands.zipIdx.filter (fun h => decide (hand h.2 ≠ h.1))).length + b2n (decide (m.grants ≠ q.2))
    | none => 0
  | _, _ => 0

/-- A record takes effect in the Dummy's copy of mirrored state. -/
def applyRecord (s : State) (d : DieId) : Payload → State
  | .request c t => s.onDie d (fun x => holdRequest x c t)
  | .completed id => s.onDie d (·.onRed (fun r => { r with held := r.held.filter (fun h => decide (h.1.id ≠ id)) }))
  | .reg key v => s.onDie d (fun x =>
      -- TIM_CTRL is mirrored in part (R541)
      if key = Reg.TIM_CTRL then x.setRf key F.TIM_CTRL_PPS_OUT_EN (fget F.TIM_CTRL_PPS_OUT_EN v.toNat) else x.setReg key v.toNat)
  | .dealer v t => shadowDiff (s.onDie d (fun x => { x with dealer := v, trans := t })) d F.RED_CMP_CNT_IMAGE (dealsDiffer (s.die d) v)
  | .decks v => s.onDie d (fun x => { x with decks := v })
  | .planner v => shadowDiff (s.onDie d (fun x => { x with planner := v })) d F.RED_CMP_CNT_PLAN (planDiffers (s.die d) v)
  | .cal v =>
    let df := calDiff (s.die d).cal ((s.die d).cal.mirrored v)
    wakeFor (s.onDie d (fun x => df.fields.foldl (fun x f => trimIntegrator x f s.ticks) { x with cal := x.cal.mirrored v })) d (calWakes df)
  | .vsp v => s.onDie d (fun x => { x with vsp := v })
  | .loop first count r => loopRange s d first count r
  | .patch b0 b1 a => s.onDie d (fun x => { x with eng := { x.eng with bank0 := b0, bank1 := b1, active := a } })
  | .mode w => followMode s d w.toNat
  | .event type origin stamp p => eventAt s d type origin stamp p
  | .lock level fails lockout => s.onDie d (fun x => { x with svc := { x.svc with level := level, fails := fails, lockout := lockout } })

/-- MIRROR_RECORD_RECEIVE: the oldest record on its way reaches the Dummy, which holds it and acknowledges it. -/
def recordReceive (s : State) : State :=
  match s.declarer with
  | none => s
  | some d =>
    match (s.die d).red.sent with
    | [] => s
    | r :: rest =>
      if s.mirror.state ≠ 2 then s
      else
        let p := d.peer
        let s1 := s.onDie d (·.onRed (fun q => { q with sent := rest }))
        if !(s.die p).isDummy || !(s.die p).running then s1
        else (applyRecord s1 p r.payload).onDie d (·.onRed (fun q => { q with acks := q.acks ++ [(r.seq, s.ticks)] }))

def execMirrorRecordReceive (s : State) : Host.Outcome State Fault Refusal := done (recordReceive s)

/-! ## RESYNC (R63, R421) -/

/-- The Declarer with whom a die may resynchronise. -/
def resyncFrom (s : State) (d : DieId) : Bool := s.mirror.state = 2 && (s.die d.peer).isDecl && !(s.die d.peer).taking

/-- A Dummy that reports more differences in a second than RED_CMP_CFG.LIMIT (R421). -/
def overLimit (x : Die) : Bool :=
  let l := x.rf Reg.RED_CMP_CFG F.RED_CMP_CFG_LIMIT
  x.isDummy && decide (l ≠ 0) && decide (l < x.red.cmp)

/-- RESYNC_START: a die without a role joins, or starts again after the link was down; a Dummy over its limit leaves its role. -/
def resyncStart (d : DieId) (s : State) : State :=
  let x := s.die d
  let apart := overLimit x
  let joins := x.life == Life.up && x.role = 0 && !x.red.loading
  if !x.running || !resyncFrom s d || !(apart || joins) then s
  else
    let s1 := if apart then raise s d 193 else s
    let s2 := setMode s1 d (fun w => fput F.RED_MODE_RESYNC (fput F.RED_MODE_ROLE w 0) 1)
    let s3 := s2.onDie d (·.onRed (fun r => { r with loading := true, held := [], adopt := [], takeover := none, cmp := 0 }))
    slaveClock (s3.onDie d.peer (·.onRed (fun r =>
      { r with sent := [], acks := [], absentSince := some (r.absentSince.getD s.ticks) }))) d

def execResyncStart (die : DieId) (s : State) : Host.Outcome State Fault Refusal := done (resyncStart die s)

/-- Shadow registers of the Dealer and of calibration that report mirrored state. -/
def shadowKeys : List Nat :=
  [Reg.DLR_DEAL_CNT, Reg.DLR_LAST_DEAL, Reg.DLR_LAST_DEAL + 4, Reg.DLR_LAST_FRAC, Reg.CAL_STATUS]

/-- Registers as the Declarer holds them where they are mirrored, its own elsewhere; of TIM_CTRL, PPS_OUT_EN alone (R541). -/
def copyRegs (x p : Die) : Die :=
  let mine := x.regs.foldl (fun (y : Die) e => if isMirrored e.1 then y.setReg e.1 (p.reg e.1) else y) x
  let his := p.regs.foldl (fun (y : Die) e => if isMirrored e.1 || shadowKeys.contains e.1 then y.setReg e.1 e.2.toNat else y) mine
  his.setRf Reg.TIM_CTRL F.TIM_CTRL_PPS_OUT_EN (p.rf Reg.TIM_CTRL F.TIM_CTRL_PPS_OUT_EN)

/-- The later end of two lockouts: a die goes on from the larger of its own values and the mirrored ones (R518). -/
def laterOf : Option Nat → Option Nat → Option Nat
  | some a, some b => some (max a b)
  | some a, none => some a
  | none, o => o

/-- A die as RESYNC leaves it: everything mirrored is its Declarer's. -/
def Die.loaded (x p : Die) : Die :=
  let held := (p.cmds.filter (fun c => c.begun && changesFabric (dOpcode c.desc))).map (fun (c : Cmd) =>
    (c, p.dealer.pending.findSome? (fun dl => dl.takes.find? (fun t => t.cmd = c.id))))
  let y := copyRegs x p
  let z : Die :=
    { y with trans := p.trans, dealer := p.dealer, decks := p.decks, planner := p.planner, hold := p.hold, cal := x.cal.mirrored p.cal,
             vsp := p.vsp,
             eng := { y.eng with bank0 := p.eng.bank0, bank1 := p.eng.bank1, active := p.eng.active },
             svc := { y.svc with level := p.svc.level, fails := max y.svc.fails p.svc.fails, lockout := laterOf y.svc.lockout p.svc.lockout },
             thm := { y.thm with shutdown := p.thm.shutdown } }
  held.foldl (fun z h => holdRequest z h.1 h.2) (z.onRed (fun r => { r with held := [], adopt := p.red.adopt, loading := false }))

/-- RESYNC_COMPLETE: the die holds all state and becomes Dummy; its Declarer is no longer solo, and a link-loss trigger that waited goes on. -/
def resyncComplete (d : DieId) (s : State) : State :=
  let x := s.die d
  if !x.inResync || !x.red.loading || !resyncFrom s d then s
  else
    let p := d.peer
    let s1 := slaveClock (s.onDie d (fun x => x.loaded (s.die p))) d
    let s2 := followMode s1 d ((s.die p).reg Reg.RED_MODE)
    let s3 := setMode s2 d (fun w => fput F.RED_MODE_ROLE (fput F.RED_MODE_RESYNC w 0) 2)
    let s4 := (s3.onDie d (·.onRed (fun r => { r with absentSince := none }))).onDie p (fun y =>
      (y.setRf Reg.RED_STATUS F.RED_STATUS_SOLO 0).onRed (fun r => { r with absentSince := none }))
    if (s4.die p).red.waitPeer then
      plannedTrigger (s4.onDie p (·.onRed (fun r => { r with waitPeer := false }))) p none none
    else s4

def execResyncComplete (die : DieId) (s : State) : Host.Outcome State Fault Refusal := done (resyncComplete die s)

end Sys2Proof.Machine
end

