-- ==== Sys2Proof/Machine/Faults.lean ====
section
/-!
DEFINITION. Faults (chapter 16): reactions and windows, escalation (R435 to R437), the FLT registers with an action, the replacement
request's timeout, the health report (R438).
-/

namespace Sys2Proof.Machine

def Die.onFlt (x : Die) (f : Flt → Flt) : Die := { x with flt := f x.flt }
def srcBit (i : Nat) : BitVec 256 := BitVec.ofNat 256 (2 ^ i)

/-! ## Recovery domains (R435) -/

/-- The domain a source feeds, by DOMAIN of FLT_SRC_s. -/
def domainOf (src : Nat) : Option Domain :=
  match (srcDefault src).domain with
  | 1 => some .element
  | 2 => some .bank
  | 3 => some .link
  | 4 => some .die
  | 5 => some .module
  | _ => none

def Domain.num : Domain → Nat
  | .element => 0
  | .bank => 1
  | .link => 2
  | .die => 3
  | .module => 4

/-- The recovery window of a domain, in ticks. -/
def Domain.window : Domain → Nat
  | .element => 100 * msT
  | .bank => 10 * msT
  | .link => msT
  | .die => 100 * msT
  | .module => secT

/-- The instance of a domain that an occurrence concerns, on the die that reacts. -/
def instanceOf (dom : Domain) (d : DieId) (src inst : Nat) : Nat :=
  match dom with
  | .element => inst
  | .bank => (src - 60) / 6
  | .link => if 108 ≤ src && src < 124 then src - 108 else if src = 185 then 16 else inst
  | .die => d.num
  | .module => 0

/-! ## Block resets (R435, R467, R468) -/

/-- An element's loop state is reset: its mode stays, and it is active for WAKE_BURST. -/
def elementReset (x : Die) (e : Nat) : Die :=
  x.onElem e (fun el => { el with int := .zero, miss := false, sat := false, fallback := false, implausible := false,
                                  missRun := 0, plausRun := 0, retries := 0, active := true, burst := x.wakeBurst })

/-- The page of registers of the block of a control die that a source of that domain stands for (log entry 29). -/
def blockPage (src : Nat) : Nat × Nat :=
  match src with
  | 4 => (0x7000, 0x8000)
  | 231 => (0x11000, 0x12000)
  | 233 => (0x11000, 0x12000)
  | 235 => (0x2000, 0x3000)
  | 237 => (0x12000, 0x14000)
  | 239 => (0x18000, 0x19000)
  | 241 => (0x20000, 0x21000)
  | 243 => (0x22000, 0x23000)
  | _ => (0x7000, 0x8000)

/-- A block reset as a collector carries it out: what lies outside its own die is the Declarer's to reset. -/
def blockReset (s : State) (d : DieId) (dom : Domain) (inst src : Nat) : State :=
  let x := s.die d
  match dom with
  | .element =>
    let s1 := s.onDie d (fun x => elementReset x inst)
    if x.isDecl then s1.onDie d.peer (fun y => if y.isDummy then elementReset y inst else y) else s1
  | .bank => if x.isDecl then bankBlockReset s inst else s
  | .link =>
    if inst = 16 then (if s.mirror.state = 2 then mirrorDown s else s)
    else
      let p : DieId := if inst < 8 then .cd0 else .cd1
      let l := (s.bank inst).link p
      if (p = d || x.isDecl) && l.state = 2 then
        s.onBank inst (·.setLink p { l with state := 1, bad := 0, retrains := satAdd 6 l.retrains 1 })
      else s
  | .die =>
    let pg := blockPage src
    s.onDie d (·.porRegs (fun k => decide (pg.1 ≤ k) && decide (k < pg.2)) (fun a => a == .rw || a == .w1c || a == .rc))
  | .module => s

/-! ## Escalation (R436, R437) -/

/-- The state of an instance whose window is open. -/
def State.escOf (s : State) (dom : Domain) (inst : Nat) : Option Esc :=
  s.esc.find? (fun e => decide (e.dom = dom) && decide (e.inst = inst) && decide (s.ticks < e.ends))

def State.putEsc (s : State) (e : Esc) : State :=
  { s with esc := s.esc.filter (fun g => !(decide (g.dom = e.dom) && decide (g.inst = e.inst))) ++ [e] }

/-- A ready Dummy stands by a Declarer that serves. -/
def dummyReady (s : State) : Bool := match s.serving with | some e => readyDummy s e.peer | none => false

/-- The action of a level is possible. -/
def levelPossible (s : State) (dom : Domain) (level : Nat) : Bool :=
  if level = 2 then decide (dom = .die) || dummyReady s else if level = 3 then dummyReady s else true

/-- The level after a further fault: one above, past those whose action is not possible; the module's first step leads to 4. -/
def nextLevel (s : State) (dom : Domain) (cur : Nat) : Nat :=
  if dom = .module then 4
  else (([1, 2, 3].filter (fun l => decide (cur < l))).find? (levelPossible s dom)).getD 4

/-- RED_ESC_k of the running dies shows the instance; a step is counted and is source 194. -/
def noteEsc (s : State) (d : DieId) (dom : Domain) (inst level : Nat) (step : Bool) : State :=
  let k := Reg.RED_ESC dom.num
  let put (x : Die) : Die := if x.running then (x.setRf k F.RED_ESC_LEVEL level).setRf k F.RED_ESC_INSTANCE inst else x
  let s1 := (s.onDie .cd0 put).onDie .cd1 put
  if step then raise (s1.count d Reg.RED_ESC_CNT F.RED_ESC_CNT_COUNT) d 194 else s1

/-- The action of a level. -/
def levelAction (s : State) (d : DieId) (dom : Domain) (inst src level : Nat) : State :=
  if level = 1 then blockReset s d dom inst src
  else if level = 2 then
    if dom = .die then yieldingReset s d 4
    else match s.dummy with | some e => dieReset s e 4 | none => s
  else if level = 3 then (match s.serving with | some e => plannedTrigger s e none (some 4) | none => s)
  else if level = 4 then controlLoss s
  else s

/-- The action of a reaction itself, with no domain or as the first fault of its instance: 4 block reset, 5 reset of this die. -/
def ownAction (s : State) (d : DieId) (dom : Option Domain) (inst src code : Nat) : State :=
  if code = 5 then yieldingReset s d 4
  else if code = 4 then (match dom with | some m => blockReset s d m inst src | none => s)
  else s

/-- A reaction is passed to escalation: the first fault sets the level, a further one in the window is applied one level up, the other
die's report of the same event within 10 µs adds only its own part of a block reset. -/
def escalate (s : State) (d : DieId) (src inst code stamp : Nat) : State :=
  match domainOf src with
  | none => ownAction s d none inst src code
  | some dom =>
    let i := instanceOf dom d src inst
    let first := if code = 5 then 2 else if code = 4 then 1 else 0
    let entry (level : Nat) : Esc := ⟨dom, i, level, s.ticks + dom.window, src, stamp, d⟩
    match s.escOf dom i with
    | none => ownAction (noteEsc (s.putEsc (entry first)) d dom i first false) d (some dom) i src code
    | some e =>
      if e.lastSrc = src && e.lastDie ≠ d && e.lastStamp ≤ stamp + 10000 * 65536 && stamp ≤ e.lastStamp + 10000 * 65536 then
        if e.level = 1 then blockReset s d dom i src else s
      else
        let l := nextLevel s dom e.level
        levelAction (noteEsc (s.putEsc (entry l)) d dom i l true) d dom i src l

/-! ## Reactions (R467 to R470) -/

/-- Ticks of a window timer. -/
def winTicks (x : Die) (k : Nat) : Nat := msT * max 1 (x.rf (Reg.FLT_WIN k) F.FLT_WIN_MS)

/-- One counted occurrence: COUNT, the window, promotion; and whether it takes the severe reaction. -/
def countOcc (x : Die) (src ticks : Nat) : Die × Bool :=
  let k := Reg.FLT_SRC src
  let open_ := x.flt.windows.any (fun w => w.source = src)
  let n := if open_ then satAdd 8 (x.rf k F.FLT_SRC_COUNT) 1 else 1
  let y := x.setRf k F.FLT_SRC_COUNT n
  let z := if open_ then y
    else y.onFlt (fun f => { f with windows := f.windows ++ [⟨src, ticks + winTicks x (x.rf k F.FLT_SRC_WIN)⟩] })
  let severe := decide (max 1 (x.rf k F.FLT_SRC_N) ≤ n) || x.flt.promo.getLsbD src
  (if severe then z.onFlt (fun f => { f with promo := f.promo ||| srcBit src }) else z, severe)

/-- The failure of the calibration that a block reset runs: no block reset, no escalation (R278). -/
def ownCalibration (o : FltOcc) : Bool := 60 ≤ o.source && o.source < 108 && (o.source - 60) % 6 = 2 && 256 ≤ o.inst

/-- An occurrence whose instance is in recovery waits for the end of that action (R437). -/
def recovering (s : State) (o : FltOcc) : Bool :=
  match domainOf o.source with
  | some .bank => let k := s.bank ((o.source - 60) / 6)
                  k.calWait || (match k.cal with | some c => c.by_ = 2 | none => false)
  | _ => false

/-- A collector reacts to one occurrence. -/
def react (s : State) (d : DieId) (o : FltOcc) : State :=
  let (y, severe) := countOcc (s.die d) o.source s.ticks
  let k := Reg.FLT_SRC o.source
  let code := y.rf k (if severe then F.FLT_SRC_SEVERE else F.FLT_SRC_NORMAL)
  let own := ownCalibration o
  let taken := if own then min 3 code else code
  let z := y.onFlt (fun f => { f with pin := if 2 ≤ code then f.pin ||| srcBit o.source else f.pin &&& ~~~ srcBit o.source })
  let forced := z.mapBit (Reg.FLT_FORCE 0) o.source
  let s1 := s.setDie d z
  let s2 := if 1 ≤ code then
      eventAt s1 d evFault d.num o.stamp (leBytes 2 o.source ++ leBytes 1 (b2n severe + 2 * b2n forced) ++ leBytes 1 taken ++
        leBytes 2 (z.rf k F.FLT_SRC_COUNT))
    else s1
  let s3 := if 3 ≤ code then s2.emit (.trap d o.source) else s2
  if own then s3 else escalate s3 d o.source o.inst code o.stamp

/-- FAULT_REACTION: the oldest occurrence of a source that waits. -/
def faultReaction (d : DieId) (src : Nat) (s : State) : State :=
  let x := s.die d
  match x.flt.occ.find? (fun o => o.source = src) with
  | none => s
  | some o =>
    if !x.running || recovering s o then s
    else react (s.onDie d (·.onFlt (fun f => { f with occ := f.occ.erase o }))) d o

def execFaultReaction (die : DieId) (src : Fin 250) (s : State) : Host.Outcome State Fault Refusal :=
  done (faultReaction die src.val s)

/-- Promotion ends once the window has closed and the sticky bit is clear. -/
def endPromo (x : Die) (src : Nat) : Die :=
  if x.flt.windows.any (fun w => w.source = src) || x.mapBit (Reg.FLT_STICKY 0) src then x
  else x.onFlt (fun f => { f with promo := f.promo &&& ~~~ srcBit src })

/-- FAULT_WINDOW_EXPIRY: the window of a source is over. -/
def faultWindowExpiry (d : DieId) (src : Nat) (s : State) : State :=
  let x := s.die d
  if !x.running || !x.flt.windows.any (fun w => w.source = src && decide (w.closes ≤ s.ticks)) then s
  else s.onDie d (fun x =>
    endPromo ((x.setRf (Reg.FLT_SRC src) F.FLT_SRC_COUNT 0).onFlt (fun f =>
      { f with windows := f.windows.filter (fun w => decide (w.source ≠ src)) })) src)

def execFaultWindowExpiry (die : DieId) (src : Fin 250) (s : State) : Host.Outcome State Fault Refusal :=
  done (faultWindowExpiry die src.val s)

/-- ESCALATION_WINDOW_EXPIRY: an instance whose window is over returns to level 0. -/
def escExpiry (k inst : Nat) (s : State) : State :=
  let past (e : Esc) : Bool := decide (e.dom.num = k) && decide (e.inst = inst) && decide (e.ends ≤ s.ticks)
  if s.esc.any past then
    let clear (x : Die) : Die :=
      let r := Reg.RED_ESC k
      if x.running && x.rf r F.RED_ESC_INSTANCE = inst then x.setRf r F.RED_ESC_LEVEL 0 else x
    ({ s with esc := s.esc.filter (fun e => !past e) }.onDie .cd0 clear).onDie .cd1 clear
  else s

def execEscalationWindowExpiry (domain : Fin 5) (inst : Nat) (s : State) : Host.Outcome State Fault Refusal :=
  done (escExpiry domain.val inst s)

/-! ## FLT registers (R463 to R466) -/

/-- A write of FLT_STICKY_w: named bits clear, but for a level source that is present or forced; the RAW bit of an event source and
promotion go with it. -/
def stickyClear (d : DieId) (w v : Nat) (s : State) : State :=
  let x := s.die d
  if !x.running then s
  else s.onDie d (fun x => ((List.range 32).filter (bitOf (x.clearing (Reg.FLT_STICKY 0 + 4 * w) v))).foldl (fun x i =>
    let src := 32 * w + i
    let present := srcIsLevel src && (x.flt.raw.getLsbD src || x.mapBit (Reg.FLT_FORCE 0) src)
    if present || !x.mapBit (Reg.FLT_STICKY 0) src then x
    else
      let y := x.setMapBit (Reg.FLT_STICKY 0) src false
      endPromo (if srcIsLevel src then y else y.onFlt (fun f => { f with raw := f.raw &&& ~~~ srcBit src })) src) x)

def execFltStickyClear (die : DieId) (word : Fin 8) (value : Word32) (s : State) : Host.Outcome State Fault Refusal :=
  doneBar die (stickyClear die word.val value.toNat) s

/-- A source's force bit may be written: the lock is open, and for the safety sources the base mode is SERVICE (R461, R466). -/
def forceOpen (s : State) (d : DieId) (src : Nat) : Bool :=
  (s.die d).lockOpen && !srcReserved src && (!(196 ≤ src && src ≤ 215) || moduleBase s = mService)

/-- A write of FLT_FORCE_w: a bit that rises is an occurrence. -/
def forceWrite (d : DieId) (w v : Nat) (s : State) : State :=
  if !(s.die d).running then s
  else (List.range 32).foldl (fun s i =>
    let src := 32 * w + i
    let was := (s.die d).mapBit (Reg.FLT_FORCE 0) src
    if !forceOpen s d src || was = bitOf v i then s
    else
      let s1 := s.onDie d (·.setMapBit (Reg.FLT_FORCE 0) src (bitOf v i))
      if was then s1 else s1.onDie d (fun x => x.occur src (srcInst x src) false)) s

def execFltForceWrite (die : DieId) (word : Fin 8) (value : Word32) (s : State) : Host.Outcome State Fault Refusal :=
  doneBar die (forceWrite die word.val value.toNat) s

/-- A write of FLT_SRC_s: reserved sources, and words with a reserved reaction, are ignored (R462, R467). -/
def srcWrite (d : DieId) (src v : Nat) (s : State) : State :=
  if !(s.die d).running || srcReserved src || 6 ≤ fget F.FLT_SRC_NORMAL v || 6 ≤ fget F.FLT_SRC_SEVERE v then s
  else putWord s d (Reg.FLT_SRC src) v

def execFltSrcWrite (die : DieId) (src : BitVec 8) (value : Word32) (s : State) : Host.Outcome State Fault Refusal :=
  doneBar die (srcWrite die src.toNat value.toNat) s

/-! ## Replacement and health (R438, R471) -/

/-- PEER_ABSENCE_TIMEOUT: the peer has been away, or the mirror link down, for more than 100 ms. -/
def peerAbsence (d : DieId) (s : State) : State :=
  let x := s.die d
  let past (t : Option Nat) : Bool := match t with | some t => decide (100 * msT < s.ticks - t) | none => false
  if !x.running then s
  else s.onDie d (·.onFlt (fun f =>
    { f with repl := (if past x.red.absentSince then f.repl ||| BitVec.ofNat 8 (2 ^ rpCdie) else f.repl) |||
                     (if past x.red.mirrorDownSince then BitVec.ofNat 8 (2 ^ rpMirror) else 0) }))

def execPeerAbsenceTimeout (die : DieId) (s : State) : Host.Outcome State Fault Refusal := done (peerAbsence die s)

/-- The Dummy's clock offset as a die reports it: its own on the Dummy, the peer's last on the Declarer. -/
def Die.dummyOfs (x : Die) : Int := if x.isDecl then x.red.peerOfs else signedOf 32 (x.reg Reg.TIM_SLAVE_OFS)

/-- The totals a health report counts from: the five of the redundancy unit, hold engines and planner engines fenced. -/
def Die.healthTotals (x : Die) : Vector Nat 7 :=
  (x.red.totals.push (fencedCount x)).push ((List.range 32).filter (bitOf (x.reg Reg.DCK_PLAN_FENCE))).length

/-- A signed number in two bytes, saturating. -/
def sat16 (i : Int) : Nat := codeOf 16 (max (-32768) (min 32767 i))

/-- HEALTH_REPORT: every 1 s of the die's clock. -/
def healthReport (d : DieId) (s : State) : State :=
  let x := s.die d
  if !x.running || s.ticks - x.red.lastReport < secT then s
  else
    let cur := x.healthTotals
    let n (i lim : Nat) : Nat := min lim (cur.getD i 0 - x.red.last.getD i 0)
    let p := leBytes 2 (n 0 65535) ++ leBytes 2 (min 65535 (n 2 (2 ^ 32) + n 3 (2 ^ 32))) ++ leBytes 2 0 ++ leBytes 2 0 ++ leBytes 1 (n 5 255) ++
      leBytes 1 (n 6 255) ++ leBytes 2 (sat16 (x.dummyOfs / 10)) ++ leBytes 1 (n 4 255)
    event (s.onDie d (·.onRed (fun r => { r with last := cur, lastReport := s.ticks }))) d evHealth p

def execHealthReport (die : DieId) (s : State) : Host.Outcome State Fault Refusal := done (healthReport die s)

end Sys2Proof.Machine
end

