-- ==== Sys2Proof/Machine/Boot.lean ====
section
/-!
DEFINITION. Module resets, supplies and STANDBY's end (R493 to R498, R526), boot (R503 to R507) and role assignment (R57, R62).
-/

namespace Sys2Proof.Machine

/-! ## Resets of the module -/

def Die.onAon (x : Die) (f : AlwaysOn → AlwaysOn) : Die := { x with aon := f x.aon }

/-- A die as after power-on, but for what MODRST_N keeps: the always-on domain and the service lock's attempts (R499). -/
def Die.modReset (x : Die) (d : DieId) (ticks : Nat) (life : Life) : Die :=
  { Die.reset d ticks with
    life := life, aon := x.aon,
    svc := { Service.reset with fails := x.svc.fails, lockout := x.svc.lockout, failed := x.svc.failed, opened := x.svc.opened } }

/-- Bank dies reset, the mirror link down, permits off, no escalation. -/
def bankReset (s : State) : State :=
  { s with banks := Vector.ofFn (fun b => Bank.reset b.val), mirror := Link.down, esc := [],
           pins := { s.pins with permitA := 0, permitB := 0 } }

/-- Both dies, but one in STANDBY, and all bank dies are held in reset: 0 without supply, 1 by MODRST_N (R494, R526). Without supply the output
stages are disabled, and those that STANDBY has disabled stay so until the module boots (R37, R486). -/
def moduleHold (s : State) (kind : Nat) : State :=
  let hold (s : State) (d : DieId) : State := s.onDie d (fun x =>
    let y := x.modReset d s.ticks (.held kind s.ticks)
    match x.life with
    | .held 5 t => if kind = 1 then { x with life := .held 5 t } else y.setReg Reg.RED_MODE 0
    | _ => if kind = 0 then y.setReg Reg.RED_MODE 0 else y)
  (List.range 8).foldl (fun t b => t.onBank b (fun k => { k with driven := decide (kind ≠ 0) && (s.bank b).driven }))
    (bankReset (hold (hold s .cd0) .cd1))

/-- A die is held by the module: without supply, by MODRST_N or in STANDBY. -/
def Die.modHeld (x : Die) : Bool := match x.life with | .held k _ => k = 0 || k = 1 || k = 5 | _ => false

/-- A die is in STANDBY. -/
def Die.inStandby (x : Die) : Bool := match x.life with | .held k _ => k = 5 | _ => false

/-- A die leaves a reset of the module for BOOT, or for CDRST_N where that pin is low: PREV_BASE and RST_CAUSE tell what ended (R47). -/
def bootDie (s : State) (d : DieId) : State :=
  let wake := (s.die d).inStandby
  s.onDie d (fun x =>
    let life := if s.pins.cdrstLow.getLsbD d.num then Life.held 2 s.ticks else Life.booting s.ticks
    let y := (x.modReset d s.ticks life).setReg Reg.RST_CAUSE (2 + 32 * b2n wake + 64 * b2n x.aon.heldLong)
    if wake then y.setRf Reg.RED_MODE F.RED_MODE_PREV_BASE mStandby else y)

/-- MODRST_N released, or the rails back: the module boots (R50, R526). -/
def moduleBoot (s : State) : State := bankReset (bootDie (bootDie s .cd0) .cd1)

/-- POWER_ON: the whole module resets, the always-on domain included; flashes, EEPROM, record store and what reaches the pins stay (R493,
R499, R500). -/
def powerOn (s : State) : State :=
  let life := if s.pins.modrstLow then Life.held 1 s.ticks else Life.booting s.ticks
  let die (d : DieId) : Die :=
    { Die.reset d s.ticks with
      life := if s.pins.cdrstLow.getLsbD d.num && !s.pins.modrstLow then Life.held 2 s.ticks else life }
  bankReset { s with cd0 := die .cd0, cd1 := die .cd1, pins := { s.pins with below := 0, excursion := 0, lost := none, modrstSince := s.ticks } }

def execPowerOn (s : State) : Host.Outcome State Fault Refusal := done (powerOn s)

/-! ## Supplies (R487, R526) -/

/-- A rail's number, in the order of R487. -/
def railNum : Rail → Nat
  | .vcore => 0
  | .vsram => 1
  | .vio => 2
  | .v3p3 => 3
  | .vana => 4
  | .vpin => 5
  | .vhtr => 6

def railBit (r : Rail) : BitVec 7 := BitVec.ofNat 7 (2 ^ railNum r)

/-- SUPPLY_BELOW_HOLD: the module is OFF. -/
def supplyBelow (r : Rail) (s : State) : State :=
  moduleHold { s with pins := { s.pins with below := s.pins.below ||| railBit r, lost := some (s.pins.lost.getD (railNum r)) } } 0

def execSupplyBelowHold (rail : Rail) (s : State) : Host.Outcome State Fault Refusal := done (supplyBelow rail s)

/-- SUPPLY_EXCURSION: source 221 on every die that runs, and a log entry by one of them. -/
def supplyExcursion (r : Rail) (high : Bool) (s : State) : State :=
  let s1 := raiseBoth { s with pins := { s.pins with excursion := s.pins.excursion ||| railBit r } } 221
  let log (d : DieId) : State := logEntry s1 d lgSupply (leBytes 1 (railNum r) ++ leBytes 1 (b2n high))
  match s1.declarer with
  | some d => log d
  | none => if s1.cd0.running then log .cd0 else if s1.cd1.running then log .cd1 else s1

def execSupplyExcursion (rail : Rail) (high : Bool) (s : State) : Host.Outcome State Fault Refusal :=
  done (supplyExcursion rail high s)

/-- SUPPLIES_RESTORED: from OFF to BOOT, by a power-on reset when V3P3 had failed. -/
def suppliesRestored (s : State) : State :=
  let s1 : State := { s with pins := { s.pins with below := 0, excursion := 0 } }
  if s.pins.below.getLsbD 3 then powerOn s
  else if s.pins.below = 0 then s1
  else if s.pins.modrstLow then moduleHold s1 1
  else moduleBoot s1

def execSuppliesRestored (s : State) : Host.Outcome State Fault Refusal := done (suppliesRestored s)

/-! ## MODRST_N (R494, R501, R502) -/

/-- MODRST_ASSERT: the snapshot freezes, but not again at the end of STANDBY, whose length is recorded. -/
def modrstAssert (s : State) : State :=
  if s.pins.modrstLow then s
  else
    let note (s : State) (d : DieId) : State := s.onDie d (fun x =>
      let y := match x.life with
        | .held 5 t => x.onAon (fun a => { a with standbyS := (s.ticks - t) / secT })
        | .held 0 _ => x
        | _ => x.freeze 1 s.ticks
      y.onAon (fun a => { a with countMod := satAdd 8 a.countMod 1, heldLong := false, remapAt := none, replace := false }))
    let s1 := note (note s .cd0) .cd1
    moduleHold { s1 with pins := { s1.pins with modrstLow := true, modrstSince := s.ticks } } (if s.pins.below = 0 then 1 else 0)

def execModrstAssert (s : State) : Host.Outcome State Fault Refusal := done (modrstAssert s)

/-- MODRST_HELD_LONG: the always-on domain notes a pin low for more than 5 s. -/
def modrstHeldLong (s : State) : State :=
  let note (x : Die) : Die := x.onAon (fun a => { a with heldLong := true })
  if s.pins.modrstLow && decide (5 * secT < s.ticks - s.pins.modrstSince) then (s.onDie .cd0 note).onDie .cd1 note else s

def execModrstHeldLong (s : State) : Host.Outcome State Fault Refusal := done (modrstHeldLong s)

/-- MODRST_RELEASE: BOOT, unless a rail is still missing. -/
def modrstRelease (s : State) : State :=
  if !s.pins.modrstLow then s
  else
    let held := (s.ticks - s.pins.modrstSince) / secT
    let note (x : Die) : Die := x.onAon (fun a => { a with heldS := held })
    let s1 := ({ s with pins := { s.pins with modrstLow := false } }.onDie .cd0 note).onDie .cd1 note
    if s1.pins.below = 0 then moduleBoot s1 else s1

def execModrstRelease (s : State) : Host.Outcome State Fault Refusal := done (modrstRelease s)

/-! ## Resets of one die (R495, R497, R498) -/

/-- CDRST_ASSERT: never absorbed; under a reset of the module only the pin is low. -/
def cdrstAssert (d : DieId) (s : State) : State :=
  let s1 : State := { s with pins := { s.pins with cdrstLow := s.pins.cdrstLow ||| BitVec.ofNat 2 (2 ^ d.num) } }
  if (s.die d).modHeld || s.pins.cdrstLow.getLsbD d.num then s1 else dieReset s1 d 2

def execCdrstAssert (die : DieId) (s : State) : Host.Outcome State Fault Refusal := done (cdrstAssert die s)

/-- A die enters BOOT. -/
def Die.boots (x : Die) (ticks : Nat) : Die :=
  { x with life := .booting ticks, aon := { x.aon with remapAt := none, replace := false } }

/-- CDRST_RELEASE. -/
def cdrstRelease (d : DieId) (s : State) : State :=
  let s1 : State := { s with pins := { s.pins with cdrstLow := s.pins.cdrstLow &&& ~~~ BitVec.ofNat 2 (2 ^ d.num) } }
  match (s.die d).life with
  | .held 2 _ => s1.onDie d (·.boots s.ticks)
  | _ => s1

def execCdrstRelease (die : DieId) (s : State) : Host.Outcome State Fault Refusal := done (cdrstRelease die s)

/-- SOFTWARE_DIE_RESET: a write to RST_SWRST with its key, at Expert level. -/
def softwareReset (d : DieId) (v : Nat) (s : State) : State :=
  let x := s.die d
  if fget F.RST_SWRST_KEY v = 0xA5C3 && fget F.RST_SWRST_GO v = 1 && x.expert 0 && x.running then yieldingReset s d 3 else s

def execSoftwareDieReset (die : DieId) (value : Word32) (s : State) : Host.Outcome State Fault Refusal :=
  done (softwareReset die value.toNat s)

/-- SOFT_RESET_RELEASE: a software or fault die reset lasts 10 µs. -/
def softResetRelease (d : DieId) (s : State) : State :=
  match (s.die d).life with
  | .held k t => if (k = 3 || k = 4) && decide (10 * usT ≤ s.ticks - t) then s.onDie d (·.boots s.ticks) else s
  | _ => s

def execSoftResetRelease (die : DieId) (s : State) : Host.Outcome State Fault Refusal := done (softResetRelease die s)

/-! ## The boot ROM (R503 to R506) -/

/-- A die is booting since a tick. -/
def Die.booting (x : Die) : Option Nat := match x.life with | .booting t => some t | _ => none

/-- VERSION of a firmware slot (R503, R504). -/
def State.slotVersion (s : State) (d : DieId) (slot : Nat) : Nat :=
  leNat (memRead (s.flash d) (if slot = 0 then 0x10004 else 0x210004) 4)

/-- The slot the boot ROM starts: valid, not failed since power-on, of the higher VERSION, A where both are equal. -/
def bootSlot (s : State) (d : DieId) : Option Nat :=
  let ok (i : Nat) : Bool := Config.slotCheck d i (s.flash d) = 0 && !(s.die d).aon.failedSlots.getLsbD i
  match ok 0, ok 1 with
  | true, true => some (if s.slotVersion d 0 < s.slotVersion d 1 then 1 else 0)
  | true, false => some 0
  | false, true => some 1
  | false, false => none

/-- Transactions at the boot ROM or at working SRAM are outstanding (R506). -/
def Die.romBusy (x : Die) : Bool := x.mtx.masters.any (fun (m : Master) => m.outstanding.any (fun t => t.target < 2))

/-- MTX_REMAP_SET: the boot ROM reports both slots and, where one can start, swaps working SRAM to address 0 once the two targets are
quiet. -/
def remapSet (d : DieId) (s : State) : State :=
  let x := s.die d
  if x.booting.isNone || x.rbit Reg.MTX_REMAP F.MTX_REMAP_REMAP || x.romBusy then s
  else
    let res (i : Nat) : Nat := min 4 (Config.slotCheck d i (s.flash d))
    let s1 := s.onDie d (fun x => (x.setRf Reg.RST_BOOT F.RST_BOOT_RES_A (res 0)).setRf Reg.RST_BOOT F.RST_BOOT_RES_B (res 1))
    let s2 := if res 0 = 4 || res 1 = 4 then s1.onDie d (·.occur 248 0 true) else s1
    match bootSlot s d with
    | none => s2
    | some i => s2.onDie d (fun x =>
        (((x.setRf Reg.RST_BOOT F.RST_BOOT_SLOT i).setReg Reg.RST_FW_VER (s.slotVersion d i)).setRf Reg.MTX_REMAP F.MTX_REMAP_REMAP 1).onAon
          (fun a => { a with remapAt := some s.ticks }))

def execMtxRemapSet (die : DieId) (s : State) : Host.Outcome State Fault Refusal := done (remapSet die s)

/-- BOOT_STARTED_WRITE. -/
def bootStarted (d : DieId) (s : State) : State :=
  let x := s.die d
  if x.booting.isSome && x.rbit Reg.MTX_REMAP F.MTX_REMAP_REMAP then
    s.onDie d (fun x => (x.setRf Reg.RST_BOOT F.RST_BOOT_STARTED 1).onAon (fun a => { a with remapAt := none }))
  else s

def execBootStartedWrite (die : DieId) (s : State) : Host.Outcome State Fault Refusal := done (bootStarted die s)

/-- BOOT_WATCHDOG: 2 s from the remap without STARTED; the slot has failed and the die boots again. -/
def bootWatchdog (d : DieId) (s : State) : State :=
  let x := s.die d
  match x.booting, x.aon.remapAt with
  | some t, some r =>
    if s.ticks - r < 2 * secT then s
    else
      let slot := x.rf Reg.RST_BOOT F.RST_BOOT_SLOT
      s.onDie d (fun x =>
        let y := (x.inReset d 3 s.ticks).setReg Reg.RST_CAUSE 0x80
        { y with life := .booting t,
                 aon := { x.aon with remapAt := none, failedSlots := x.aon.failedSlots ||| BitVec.ofNat 2 (2 ^ slot) } })
  | _, _ => s

def execBootWatchdog (die : DieId) (s : State) : Host.Outcome State Fault Refusal := done (bootWatchdog die s)

/-- BOOT_REPLACE_TIMEOUT: 5 s in BOOT. -/
def bootReplace (d : DieId) (s : State) : State :=
  match (s.die d).booting with
  | some t => if 5 * secT ≤ s.ticks - t then s.onDie d (·.onAon (fun a => { a with replace := true })) else s
  | none => s

def execBootReplaceTimeout (die : DieId) (s : State) : Host.Outcome State Fault Refusal := done (bootReplace die s)

/-- A die drives REPLACE_N low: for its request, or in BOOT after 5 s (R472, R505); a bank die does in BLIND HOLD by its own detection. -/
def Die.replaceLow (x : Die) : Bool := (x.running && x.flt.repl != 0) || (x.booting.isSome && x.aon.replace)
def State.replaceLow (s : State) : Bool := s.cd0.replaceLow || s.cd1.replaceLow || s.banks.toList.any (fun b => b.blind.on && b.blind.own)

/-! ## What the boot firmware loads (R507) -/

/-- The power class: of the strap, of the EEPROM where it is open, H where they disagree or neither names one; and whether they do
(R481). -/
def classOf (strap eeprom : Nat) : Bool × Bool :=
  if strap = 2 then (if eeprom = 2 then (true, true) else (eeprom = 1, false))
  else if eeprom = 2 || eeprom = strap then (strap = 1, false)
  else (true, true)

/-- Latencies and class. -/
def bootRegs (s : State) (d : DieId) : State :=
  let strap := s.pins.strap.val
  let ee := s.eeprom.pclass.val
  let c := classOf strap ee
  s.onDie d (fun x =>
    let y := (List.range 8).foldl (fun x p =>
      (x.setReg (Reg.TIM_LAT_RX p) (Config.latRx d p).toNat).setReg (Reg.TIM_LAT_TX p) (Config.latTx d p).toNat) x
    let z := (y.setReg Reg.THM_CLASS (4 * ee + strap)).setRf Reg.THM_STATUS F.THM_STATUS_CLASS_MISM (b2n c.2)
    { z with thm := { z.thm with classH := c.1 }, clock := { z.clock with running := true } })

/-- The patch image of the boot flash, activated where it verifies (R254). -/
def bootPatch (s : State) (d : DieId) : State :=
  let l := memRead (s.flash d) 0x690000 4356
  if patchResult l (patchLength l) ≠ 0 then s
  else
    let n := leAt l 6 2
    let m := leAt l 8 2
    let b : PatchBank := ⟨patchMatches l m, patchWords l m n, leAt l 12 4⟩
    s.onDie d (fun x => { x with eng := { x.eng with bank1 := b, active := 1 } })

/-- The Light Guard configuration of the boot flash, after a reset of the unit only (R444). -/
def bootGuard (s : State) (d : DieId) : State :=
  if (s.die d).lgd.loaded then s
  else shutUntested ((lgdLoad s d).onDie d (·.onLgd (fun l => { l with loaded := true }))) d

/-- Bank links and the mirror link are trained (log entry 28). -/
def bootLinks (s : State) (d : DieId) : State :=
  let s1 := (List.range 8).foldl (fun s b =>
    let l := (s.bank b).link d
    if l.state = 3 then s else shutAgain (s.onBank b (·.setLink d { l with state := 2, bad := 0 })) d b) s
  if (s1.die d.peer).running && s1.mirror.state ≠ 3 then mirrorUp s1 else s1

/-- After a wake the snapshot is ORed into FLT_STICKY (R502). -/
def bootSticky (x : Die) : Die :=
  if x.rbit Reg.RST_CAUSE F.RST_CAUSE_STANDBY && x.aon.snapKind = 4 then
    (List.range 8).foldl (fun x w => x.setReg (Reg.FLT_STICKY w) (Nat.lor (x.reg (Reg.FLT_STICKY w)) (bitsOf x.aon.snap.toNat (32 * w + 31) (32 * w)))) x
  else x

/-- The log entries of a boot, by the first die to complete it (R491, R494, R526). -/
def bootLog (s : State) (d : DieId) : State :=
  let x := s.die d
  let s1 := if x.aon.heldLong then logEntry s d lgReset (leBytes 4 x.aon.heldS) else s
  let s2 := if x.rbit Reg.RST_CAUSE F.RST_CAUSE_STANDBY then logEntry s1 d lgWake (leBytes 4 x.aon.standbyS) else s1
  let s3 := match s2.pins.lost with
    | some r => { logEntry s2 d lgSupply (leBytes 1 r ++ [0]) with pins := { s2.pins with lost := none } }
    | none => s2
  if x.rbit Reg.THM_STATUS F.THM_STATUS_CLASS_MISM then logEntry s3 d lgClass [] else s3

/-- The factory records a die's flash names go into its image, and the bench set comes from the record store (R294, R308). -/
def bootCal (s : State) (d : DieId) : State :=
  let serial := s.eeprom.serial.toNat
  let r := (List.range 14).foldl (fun (a : CalImage × Bool) i =>
    match loadRecord serial (Config.factoryRecord d i) a.1 with
    | some img => (img, a.2)
    | none => (a.1, true)) (CalImage.empty, false)
  let bench : BenchSet := if s.benchValid.isSome then s.storedBench
    else let f := r.1.fbench; if admits f.1 then ⟨f.1, f.2, 0⟩ else ⟨0, 0, 0⟩
  let s1 := s.onDie d (fun x => Die.covered { x with cal := { x.cal with active := r.1, bench := bench } })
  let s2 := if r.2 then raise s1 d 7 else s1
  if s.benchValid.isNone && !s.benchNone then raise s2 d 246 else s2

/-! ## Roles (R57, R62) -/

/-- A die takes a role, and its peer one beside it; both hold the calibration. -/
def takeRoles (s : State) (d : DieId) (peerRole : Option Nat) : State :=
  let role (s : State) (d : DieId) (r : Nat) : State :=
    bootCal (setModeF (s.onDie d (fun x => { x with life := .up })) d F.RED_MODE_ROLE r) d
  let s1 := role s d 1
  sendBanks (match peerRole with | some r => role s1 d.peer r | none => s1) d mClaim

/-- The image, the steps and the hand that the bank dies hold (R57); an output whose gate stands at step 15 counts as unassigned. -/
def heldImage (s : State) : Image :=
  imageOf ((List.range 8).flatMap (fun b => ((s.bank b).chans.filter (fun c => decide (c.1 < 608) && c.2.cross)).map (fun c => elemOf b c.1)))
def heldSteps (s : State) : Sparse Nat :=
  (List.range 8).foldl (fun m b => (s.bank b).blind.gateStep.foldl (fun m g => spSet 15 (elemOf b g.1 - 4864) g.2 m) m) []
def heldHand (img : Image) (steps : Sparse Nat) : Hand :=
  (List.range 512).foldl (fun h i =>
    let o := reaches img i
    let st := stepOf steps (512 + o)
    if st < 15 then handSet h o (BitVec.ofNat 16 (0x8000 + 1024 * st + i)) else h) []

/-- The new Declarer of a restart in BLIND HOLD: it reads back what is held (R57). -/
def blindDeclarer (s : State) (d : DieId) : State :=
  let s1 := setBase (takeRoles s d none) d mBlind
  let img := heldImage s1
  let st := heldSteps s1
  let h := heldHand img st
  raise (s1.onDie d (fun x => { x with dealer := { x.dealer with hand := h, static := h, image := img, steps := st } })) d 12

/-- A bank die that a die reaches reports BLIND HOLD. -/
def reachesBlind (s : State) (d : DieId) : Bool := (List.range 8).any (fun b => (s.bank b).up d && (s.bank b).blind.on)

/-- Roles at the end of a die's boot. -/
def assignRoles (s : State) (d : DieId) : State :=
  let p := s.die d.peer
  let up := s.onDie d (fun x => { x with life := .up })
  let near := d == DieId.cd0 && p.base = mBlind && decide (s.ticks - p.red.booted ≤ usT)
  if p.running && p.isDecl then
    if near && reachesBlind s d then
      -- both completed within 1 µs: CD0 becomes Declarer
      blindDeclarer (sendBanks (setModeF s d.peer F.RED_MODE_ROLE 0) d.peer mYield) d
    else up
  else if reachesBlind s d then blindDeclarer (s.onDie d.peer (fun x => if x.running then { x with life := .up } else x)) d
  else match p.life with
    | .waiting _ => selfCalStart (setBase (takeRoles s .cd0 (some 2)) .cd1 mSelfCal) .cd0 false
    | _ => s

/-- BOOT_COMPLETE: the firmware has loaded what a boot loads; the die takes part in role assignment. -/
def bootComplete (d : DieId) (s : State) : State :=
  let x := s.die d
  if x.booting.isNone || !x.rbit Reg.RST_BOOT F.RST_BOOT_STARTED then s
  else
    let first := !(s.die d.peer).running
    let s1 := bootPatch (bootRegs (bootGuard s d) d) d
    let s2 := s1.onDie d (fun x =>
      let y := bootSticky x
      { y with life := .waiting s.ticks, red := { y.red with window := s.ticks, lastReport := s.ticks, booted := s.ticks, absentSince := none } })
    let s3 := bootLinks s2 d
    let s4 := if first then bootLog s3 d else s3
    let s5 := if x.aon.heldLong then raise s4 d 223 else s4
    assignRoles (s5.onDie d (·.onAon (fun a => { a with heldLong := false, replace := false }))) d

def execBootComplete (die : DieId) (s : State) : Host.Outcome State Fault Refusal := done (bootComplete die s)

/-- ROLE_WAIT_EXPIRY: alone, solo, with the replacement request raised at once (R62, R471). -/
def roleWait (d : DieId) (s : State) : State :=
  match (s.die d).life with
  | .waiting t =>
    if s.ticks - t < 100 * msT then s
    else
      let rp := 2 ^ rpCdie + (if s.mirror.state = 2 then 0 else 2 ^ rpMirror)
      let s1 := takeRoles s d none
      let s2 := s1.onDie d (fun x =>
        ((x.setRf Reg.RED_STATUS F.RED_STATUS_SOLO 1).onFlt (fun f => { f with repl := f.repl ||| BitVec.ofNat 8 rp })).onRed (fun r =>
          { r with absentSince := some t, mirrorDownSince := if s.mirror.state = 2 then none else some t }))
      selfCalStart s2 d false
  | _ => s

def execRoleWaitExpiry (die : DieId) (s : State) : Host.Outcome State Fault Refusal := done (roleWait die s)

/-- SELF_CAL_COMPLETE: every bank die has calibrated, or cannot be reached; DARK (R50). Cells are judged by their
quality where the calibration is valid (R305). -/
def selfCalComplete (s : State) : State :=
  match s.declarer with
  | none => s
  | some d =>
    match (s.die d).trans with
    | .selfCal byReq dn true =>
      if (List.range 8).any (fun b => !dn.getLsbD b && (s.bank b).up d) then s
      else
        let s1 := enterDark s d
        let s2 := if (s1.die d).cal.valid then (List.range 4864).foldl (fun s c => judgeCell s d c) s1 else s1
        mirrorCal (if byReq then setReqStatus s2 d 1 else s2) d
    | _ => s

def execSelfCalComplete (s : State) : Host.Outcome State Fault Refusal := done (selfCalComplete s)

end Sys2Proof.Machine
end

