-- ==== Sys2Proof/Machine/Time.lean ====
section
/-!
DEFINITION. The time unit (chapter 03): the increment and steps of the PTP clock, transmit stamps, PPS and SYNC pins, the slaving error,
bank-link delays and the discipline of the bank dies' deal clocks.
-/

namespace Sys2Proof.Machine

def Die.onClock (x : Die) (f : Clock → Clock) : Die := { x with clock := f x.clock }

/-! ## The increment (R89) -/

/-- The limits of TIM_INCR in 2⁻⁴⁰ ns: 0.999 and 1.001 ns, to the nearest value within. -/
def incrMin : Nat := (999 * 2 ^ 40 + 999) / 1000
def incrMax : Nat := 1001 * 2 ^ 40 / 1000

/-- TIM_INCR_WRITE, on the Declarer only: clamped, and mirrored. -/
def timIncr (d : DieId) (v : Nat) (s : State) : State :=
  let x := s.die d
  if !x.running || !x.writable Reg.TIM_INCR then s
  else
    let w := v % 2 ^ 48
    let c := clampNat incrMin incrMax w
    let s1 := putWord64 s d Reg.TIM_INCR c
    if c = w then s1 else raise (s1.setEvent d Reg.TIM_STATUS F.TIM_STATUS_INCR_CLAMP) d 177

def execTimIncrWrite (die : DieId) (value : Word64) (s : State) : Host.Outcome State Fault Refusal :=
  doneBar die (timIncr die value.toNat) s

/-! ## Steps (R90, R95 to R98) -/

/-- The boundary at which the live deck resumes after a forward step, as under JOIN at least 2 µs on; a boundary at which the deck ends,
stops or changes is not passed over. -/
def resyncBnd (x : Die) (r : DeckRun) : Nat :=
  let k := x.decks.bndFrom r.desc r.origin r.k (x.now + i2us)
  let lim (a : Nat) (o : Option Nat) : Nat := match o with | some b => min a b | none => a
  let k1 := lim (lim (lim k r.desc.endK) (r.stop.map (fun (p : Nat × Bool × List Nat) => p.1))) (r.swap.map (fun (p : Nat × List Nat) => p.1))
  max r.k (lim k1 (match x.decks.next with | some n => if n.entering then none else some (x.decks.switchK r n) | none => none))

/-- The live deck resynchronises (R97): a running one at the first boundary at least 2 µs on, a waiting one when its boundary has passed. -/
def deckResync (x : Die) : Die :=
  match x.decks.live with
  | none => x
  | some r =>
    if decide (r.state = .waiting) && !r.entering && decide (x.now < x.decks.runBnd r r.k) then x
    else
      let k := resyncBnd x r
      boundAll { x with decks := x.decks.setLive { r with k := k, blankK := max r.blankK (k + 1), pass := max r.pass k } }

/-- A deal that a forward step carried into the past, or a deck's that lies before it resynchronises, is missed: takes are late, the
module's own deals are placed again, a deck's deal is gone with its trick; what a boundary changes or stops takes place (R97). -/
def missDeal (s : State) (d : DieId) (dl : Deal) : State :=
  match dl.kind with
  | .boundary k =>
    let s1 := cancelSent (s.onDie d (·.dropDeal dl.num)) d dl
    dl.takes.foldl (fun s t => lateTake s d t true) (if dl.stage = .placed then s1 else boundaryPast s1 d k dl.instant dl.change)
  | .blank _ => dl.takes.foldl (fun s t => lateTake s d t true) (cancelSent (s.onDie d (·.dropDeal dl.num)) d dl)
  | _ => withdrawOne s d dl true

/-- A deal that a forward step misses. -/
def missed (x : Die) (dl : Deal) : Bool :=
  let deck := match dl.kind with | .boundary _ => x.decks.running.isSome | .blank _ => x.decks.running.isSome | _ => false
  decide (dl.stage ≠ .fixed) && decide (dl.instant < (if deck then x.now + i2us else x.now))

/-- The Dealer's side of a forward step; a deal past its cut-off fires. -/
def stepForward (s : State) (d : DieId) : State :=
  let s1 := ((s.die d).dealer.pending.filter (missed (s.die d))).foldl (fun s dl => missDeal s d dl) s
  mirrorDealer (mirrorDecks (s1.onDie d deckResync) d) d

/-- The Dealer's side of a backward step: nothing is dealt again before the last instant dealt plus 100 ns (R96). -/
def stepBack (s : State) (d : DieId) : State :=
  mirrorDealer (s.onDie d (fun x =>
    { x with dealer := { x.dealer with notBefore := if x.now < x.dealer.last then max x.dealer.notBefore (x.dealer.last + i100ns) else x.dealer.notBefore } })) d

/-- The dies whose clocks follow a die's: its peer while that is Dummy or in RESYNC, over the mirror link (R92). -/
def slaves (s : State) (d : DieId) : Bool :=
  let p := s.die d.peer
  s.mirror.state = 2 && p.clock.running && (p.isDummy || p.inResync)

/-- A die's clock steps: forward, its gate lists resume at their first entry boundaries (R97), with the credits brought up before. -/
def stepClock (x : Die) (now ticks : Nat) : Die :=
  let y := x.onClock (fun c => { c with now := now })
  if now ≤ x.clock.now then y
  else (List.range 8).foldl (fun z p => z.onCport p (fun c => match c.list with
    | some l =>
      let c1 := (List.range 31).foldl (fun c q => c.bring x p q (ticks * 1000)) c
      { c1 with list := some (l.stepped x.ps y.ps) }
    | none => c)) y

/-- TIM_ADJ_WRITE, on the Declarer only: a step, or its refusal where it would leave the clock's range. -/
def timAdj (d : DieId) (v : Nat) (s : State) : State :=
  let x := s.die d
  if !x.running || !x.writable Reg.TIM_ADJ then s
  else
    let off := signedOf 64 v
    let new : Int := (x.clock.now : Int) + off * (2 : Int) ^ 40
    if new < 0 || (2 : Int) ^ 104 ≤ new then s.setEvent d Reg.TIM_STATUS F.TIM_STATUS_ADJ_REFUSED
    else
      let set (x : Die) : Die := stepClock x new.toNat s.ticks
      let s1 := s.onDie d set
      let s2 := if slaves s d then s1.onDie d.peer set else s1
      let s3 := eventShared (raise (s2.setEvent d Reg.TIM_STATUS F.TIM_STATUS_STEPPED) d 174) d evTimeStep (leBytes 8 (codeOf 64 off))
      if 0 < off then stepForward s3 d else if off < 0 then stepBack s3 d else s3

def execTimAdjWrite (die : DieId) (value : Word64) (s : State) : Host.Outcome State Fault Refusal :=
  doneBar die (timAdj die value.toNat) s

/-! ## Transmit stamps (R104) -/

/-- TXTS_FLUSH. -/
def execTxtsFlush (die : DieId) (s : State) : Host.Outcome State Fault Refusal :=
  doneBar die (fun s => s.onDie die (·.onClock (fun c => { c with txts := [] }))) s

/-- A fraction in 2⁻¹⁶ ns as stamps show it: bits [11:0] read 0 (R105). -/
def fracBits (t : Nat) : Nat := t % 65536 / 4096 * 4096

/-- The head stamp is returned and removed, its time shown; the INFO word. -/
def txtsPop (s : State) (d : DieId) : State × Nat :=
  match (s.die d).clock.txts with
  | [] => (s, 0)
  | e :: rest =>
    let w := fput F.TIM_TXTS_INFO_VALID (fput F.TIM_TXTS_INFO_OVF (fput F.TIM_TXTS_INFO_PORT (fput F.TIM_TXTS_INFO_MSGTYPE
      (fput F.TIM_TXTS_INFO_SEQID 0 e.seqId) e.msgType) e.port) (b2n (s.die d).clock.txtsLost)) 1
    (s.onDie d (fun x => ((x.onClock (fun c => { c with txts := rest, txtsLost := false })).setReg64 Reg.TIM_TXTS_TIME (e.time / 65536)).setReg
      Reg.TIM_TXTS_FRAC (fracBits e.time)), w)

/-! ## Output pins (R107 to R109) -/

/-- The last point at or before a time in ns of the pulses on a pin: 0 PPS_OUT, 1 + k SYNC_OUT[k]; none while it is inactive. -/
def lastPoint (x : Die) (pin : Nat) : Option Int :=
  let ns : Int := (x.ns : Int)
  if pin = 0 then
    if !x.rbit Reg.TIM_CTRL F.TIM_CTRL_PPS_OUT_EN then none
    else
      let o := signedOf 16 (x.rf Reg.TIM_PPS_OUT_CFG F.TIM_PPS_OUT_CFG_OFS)
      some ((ns - o) / 1000000000 * 1000000000 + o)
  else
    let k := pin - 1
    let m := x.rf (Reg.TIM_SYNC_RATE k) F.TIM_SYNC_RATE_NUM
    let n := x.rf (Reg.TIM_SYNC_RATE k) F.TIM_SYNC_RATE_DEN
    let o := signedOf 32 (x.rf (Reg.TIM_SYNC_OFS k) F.TIM_SYNC_OFS_OFS)
    if !x.rbit (Reg.TIM_SYNC_CTRL k) F.TIM_SYNC_CTRL_EN || !cadActive m n then none
    else
      let at_ (i : Int) : Int := i * (n * 1000000000 : Nat) / (m : Int) + o
      let i : Int := (ns - o) * (m : Int) / ((n * 1000000000 : Nat) : Int)
      let p := if at_ (i + 1) ≤ ns then at_ (i + 1) else at_ i
      if i < 0 then none else some p

/-- The width of a pulse in ns, at most half the period, and whether it is active low. -/
def pulseForm (x : Die) (pin : Nat) : Nat × Bool :=
  if pin = 0 then (min 500 (clampNat 1 999 (x.rf Reg.TIM_PPS_OUT_CFG F.TIM_PPS_OUT_CFG_WIDTH)) * msT, false)
  else
    let k := pin - 1
    let m := x.rf (Reg.TIM_SYNC_RATE k) F.TIM_SYNC_RATE_NUM
    let n := x.rf (Reg.TIM_SYNC_RATE k) F.TIM_SYNC_RATE_DEN
    (min (8 * max 1 (x.rf (Reg.TIM_SYNC_CTRL k) F.TIM_SYNC_CTRL_WIDTH)) (n * 1000000000 / (2 * m)),
      x.rbit (Reg.TIM_SYNC_CTRL k) F.TIM_SYNC_CTRL_POL)

/-- The selector of an output changes over to the die that holds the drive token while both dies' versions are inactive (R109). -/
def pulseSelect (s : State) (pin : Fin 5) : State :=
  let idle (d : DieId) : Bool := decide ((s.die d).clock.pulseEnd[pin] ≤ s.ticks)
  match s.declarer with
  | some d => if idle .cd0 && idle .cd1 then { s with pulseSel := s.pulseSel.set pin d } else s
  | none => s

/-- A pulse on a pin: each die makes its version at a point that is now, once for a point (R96); the output shows the selected die's. -/
def pulse (d : DieId) (pin : Fin 5) (s : State) : State :=
  let x := s.die d
  match lastPoint x pin with
  | none => s
  | some p =>
    if !x.clock.running || decide ((x.ns : Int) - p > 1) || x.clock.emitted.contains (pin.val, p) then s
    else
      let f := pulseForm x pin
      let s1 := (pulseSelect s pin).onDie d (·.onClock (fun c =>
        { c with emitted := (pin.val, p) :: c.emitted, pulseEnd := c.pulseEnd.set pin (s.ticks + f.1) }))
      if s1.pulseSel[pin] = d then s1.emit (.pulse pin p f.1 f.2) else s1

def execPpsOutPulse (die : DieId) (s : State) : Host.Outcome State Fault Refusal := done (pulse die 0 s)

def execSyncOutPulse (die : DieId) (k : Fin 4) (s : State) : Host.Outcome State Fault Refusal := done (pulse die k.succ s)

/-! ## PPS_IN (R110) -/

/-- Stamping of PPS_IN edges is enabled. -/
def Die.ppsInEn (x : Die) : Bool := x.running && x.clock.running && x.rbit Reg.TIM_CTRL F.TIM_CTRL_PPS_IN_EN

/-- A die stamps an edge, unless it follows the last one stamped within 100 ms. -/
def ppsStamp (s : State) (d : DieId) : State :=
  let x := s.die d
  let near := match x.clock.ppsIn with | some t => decide (s.ticks - t < 100 * msT) | none => false
  if !x.ppsInEn || near then s
  else
    let n := (x.rf Reg.TIM_PPS_IN_INFO F.TIM_PPS_IN_INFO_COUNT + 1) % 65536
    let t := x.ns16 / 4096 * 4096
    let s1 := s.onDie d (fun x =>
      ((((x.onClock (fun c => { c with ppsIn := some s.ticks, ppsAbsent := false })).setReg64 Reg.TIM_PPS_IN_TS (t / 65536)).setRf
        Reg.TIM_PPS_IN_INFO F.TIM_PPS_IN_INFO_COUNT n).setRf Reg.TIM_PPS_IN_INFO F.TIM_PPS_IN_INFO_FRAC (t % 65536)).setEvent
        Reg.TIM_STATUS F.TIM_STATUS_PPS_IN_SEEN)
    eventAt s1 d evPpsIn d.num t (leBytes 2 n)

/-- PPS_IN_EDGE: both dies stamp it. -/
def execPpsInEdge (s : State) : Host.Outcome State Fault Refusal := done (ppsStamp (ppsStamp s .cd0) .cd1)

/-- PPS_IN_ABSENT: 1.5 s without an edge while stamping is enabled; source 179 follows. -/
def ppsAbsent (d : DieId) (s : State) : State :=
  let x := s.die d
  if x.ppsInEn && decide (1500 * msT ≤ s.ticks - max (x.clock.ppsIn.getD 0) x.clock.ppsEnAt) then
    s.onDie d (·.onClock (fun c => { c with ppsAbsent := true }))
  else s

def execPpsInAbsent (die : DieId) (s : State) : Host.Outcome State Fault Refusal := done (ppsAbsent die s)

/-! ## The slaving error (R93) -/

/-- SLAVING_ERROR: an offset in ps as the Dummy measures it; beyond 2 ns for more than 10 µs source 175 is present. -/
def slavingError (ofs : Int) (s : State) : State :=
  let f (d : DieId) : State :=
    s.onDie d (fun x =>
      let y := x.setReg Reg.TIM_SLAVE_OFS (codeOf 32 ofs)
      if ofs.natAbs ≤ 2000 then (y.onClock (fun c => { c with slaveSince := none })).setRf Reg.TIM_STATUS F.TIM_STATUS_SLAVE_ERR 0
      else
        let t := x.clock.slaveSince.getD s.ticks
        let z := y.onClock (fun c => { c with slaveSince := some t })
        if 10 * usT < s.ticks - t then z.setRf Reg.TIM_STATUS F.TIM_STATUS_SLAVE_ERR 1 else z)
  if s.cd0.isDummy && s.cd0.running then f .cd0 else if s.cd1.isDummy && s.cd1.running then f .cd1 else s

def execSlavingError (ofs : Int) (s : State) : Host.Outcome State Fault Refusal := done (slavingError ofs s)

/-! ## Bank links (R111, R112) -/

/-- DELAY_MEASUREMENT: half the round trip and the factory asymmetry; a change of more than 250 ps sets source 176. -/
def delayMeasure (d : DieId) (b rt : Nat) (s : State) : State :=
  let x := s.die d
  if !x.running || !(s.bank b).up d || x.base < mSelfCal then s
  else
    let v := min (2 ^ 20 - 1) (max 0 ((rt / 2 : Nat) + Config.asymmetry d b)).toNat
    let key := Reg.TIM_BLINK_DLY b
    let old := x.rf key F.TIM_BLINK_DLY_DLY
    let s1 := (s.setRf d key F.TIM_BLINK_DLY_DLY v).setRf d key F.TIM_BLINK_DLY_VALID 1
    if x.rbit key F.TIM_BLINK_DLY_VALID && decide (250 < (v - old) + (old - v)) then raise s1 d 176 (linkNum d b) else s1

def execDelayMeasurement (die : DieId) (bank : Fin 8) (roundTripPs : Nat) (s : State) : Host.Outcome State Fault Refusal :=
  done (delayMeasure die bank.val roundTripPs s)

/-- DISCIPLINE_MESSAGE: a bank die's deal clock takes its holder's phase and increment. -/
def discipline (p : DieId) (b : Nat) (s : State) : State :=
  let x := s.die p
  if !x.clock.running then s
  else
    let k := s.bank b
    if !k.up p || !x.isDecl then s
    else if k.accepts p s.ticks then
      s.onBank b (fun k => { (k.setLink p { k.link p with bad := 0 }).heard p s.ticks with
        clock := x.clock.now, incr := x.reg64 Reg.TIM_INCR, disciplined := true })
    else if k.holder.isSome then tokenRefuse s p b
    else s

def execDisciplineMessage (port : DieId) (bank : Fin 8) (s : State) : Host.Outcome State Fault Refusal :=
  done (discipline port bank.val s)

end Sys2Proof.Machine
end

