-- ==== Sys2Proof/Machine/Ept.lean ====
section
/-!
DEFINITION. The endpoint tables (chapter 11): buckets, insertion with moves, learning and station moves, aging, the command port; and the
meanings of their rows.
-/

namespace Sys2Proof.Machine

/-! ## Pipelines -/

/-- A parser pipeline of a die. -/
def Die.pipe (x : Die) (p : Nat) : Pipe := if p = 0 then x.net.pipe0 else x.net.pipe1

/-- Applies f to a pipeline. -/
def Die.onPipe (x : Die) (p : Nat) (f : Pipe → Pipe) : Die :=
  if p = 0 then { x with net := { x.net with pipe0 := f x.net.pipe0 } }
  else { x with net := { x.net with pipe1 := f x.net.pipe1 } }

/-- Replaces the endpoint table of a pipeline. -/
def Die.setEpt (x : Die) (p : Nat) (t : Sparse EptEntry) : Die := x.onPipe p (fun u => { u with ept := t })

/-- The die's time in TAI ms, modulo 2³² (R354). -/
def msOf (ns : Nat) : Nat := ns / 1000000 % 2 ^ 32
def Die.ms (x : Die) : Nat := msOf x.ns

/-! ## Keys, buckets and slots (R354, R355) -/

/-- The key of an entry: DOMAIN, VLAN and MAC. -/
def eptKey (dom vlan mac : Nat) : BitVec 64 := BitVec.ofNat 64 (dom % 16 * 2 ^ 60 + vlan % 4096 * 2 ^ 48 + mac % 2 ^ 48)

/-- The candidate bucket of a key in a sub-table: a part of the CRC-32C of its eight bytes. -/
def eptBucket (sub : Nat) (k : BitVec 64) : Nat :=
  let c := crc32c (beBytes 8 k.toNat)
  if sub = 0 then c % 32768 else c / 65536 % 32768

/-- The slot of a way. -/
def eptSlot (sub bucket way : Nat) : Nat := sub * 131072 + bucket * 4 + way
def slotSub (slot : Nat) : Nat := slot / 131072

/-- The four ways of a key's bucket in a sub-table. -/
def eptWays (sub : Nat) (k : BitVec 64) : List Nat := (List.range 4).map (eptSlot sub (eptBucket sub k))

/-- The eight slots a lookup compares, SUB 0 first. -/
def eptSlots (k : BitVec 64) : List Nat := eptWays 0 k ++ eptWays 1 k

/-- The entry of a key, with its slot. -/
def eptFind (t : Sparse EptEntry) (k : BitVec 64) : Option (Nat × EptEntry) :=
  (eptSlots k).findSome? (fun s => match spFind s t with
    | some e => if e.key = k then some (s, e) else none
    | none => none)

/-- A slot holds no entry. -/
def slotFree (t : Sparse EptEntry) (s : Nat) : Bool := (spFind s t).isNone

/-- The breadth-first search of R356: paths with their last slot first, the entries examined counted by the first argument. A path ends at
a free way after at most four moves. -/
def eptSearch (t : Sparse EptEntry) : Nat → List (List Nat) → Option (List Nat)
  | 0, _ => none
  | _, [] => none
  | n + 1, p :: rest =>
    match (p.head?).bind (fun s => (spFind s t).map (fun e => eptWays (1 - slotSub s) e.key)) with
    | none => eptSearch t n rest
    | some ways =>
      match ways.find? (slotFree t) with
      | some f => some (f :: p)
      | none => if p.length < 4 then eptSearch t n (rest ++ ways.map (fun w => w :: p)) else eptSearch t n rest

/-- The moves of a path, from its free end backwards: each entry is written at its new place before it leaves its old one. -/
def eptShift (t : Sparse EptEntry) : List Nat → Sparse EptEntry
  | dst :: src :: l =>
    match spFind src t with
    | some e => eptShift (spDel src (spPut dst e t)) (src :: l)
    | none => t
  | _ => t

/-- Inserts an entry whose key is absent; none when R356 finds no place. -/
def eptInsert (t : Sparse EptEntry) (e : EptEntry) : Option (Sparse EptEntry) :=
  match (eptSlots e.key).find? (slotFree t) with
  | some s => some (spPut s e t)
  | none => (eptSearch t 1024 ((eptSlots e.key).map (fun s => [s]))).map (fun p => spPut (p.getLastD 0) e (eptShift t p))

/-! ## Fields of an entry -/

/-- A new entry: CPORT, LAST_SEEN, AGENT = 0, OPORT none (R358). -/
def eptNew (k : BitVec 64) (cport ms : Nat) : EptEntry :=
  ⟨k, BitVec.ofNat 32 (fput F.EPT_DATA0_CPORT (fput F.EPT_DATA0_OPORT 0 0x3FF) cport), BitVec.ofNat 32 ms, 0, 0, 0, 0⟩

def EptEntry.cport (e : EptEntry) : Nat := fget F.EPT_DATA0_CPORT e.data0.toNat
def EptEntry.setCport (e : EptEntry) (p : Nat) : EptEntry :=
  { e with data0 := BitVec.ofNat 32 (fput F.EPT_DATA0_CPORT e.data0.toNat p) }
def EptEntry.isStatic (e : EptEntry) : Bool := e.flags.getLsbD 0
def EptEntry.isAgent (e : EptEntry) : Bool := e.flags.getLsbD 1
def EptEntry.locked (e : EptEntry) : Bool := e.flags.getLsbD 2
def EptEntry.setFlag (e : EptEntry) (i : Nat) (b : Bool) : EptEntry :=
  { e with flags := BitVec.ofNat 8 (setBit e.flags.toNat i b) }

/-- Age of an entry in ms: the signed difference, a negative one counting as 0 (R362). -/
def EptEntry.age (e : EptEntry) (ms : Nat) : Nat := (signedOf 32 (ms + 2 ^ 32 - e.lastSeen.toNat)).toNat

/-! ## Learning (R357 to R359) -/

/-- The earliest request by stamp, then by control port. -/
def firstLearn : List Learn → Option Learn
  | [] => none
  | a :: l =>
    match firstLearn l with
    | none => some a
    | some b => if b.stamp < a.stamp || (b.stamp = a.stamp && decide (b.cport < a.cport)) then some b else some a

/-- The STATION record of a move (R411); a registry move is mirrored state, so the Dummy's ring receives it too (R116). -/
def stationEvent (s : State) (d : DieId) (key old new pipe agent : Nat) (registry : Bool) : State :=
  (if registry then eventShared else event) s d evStation
    (leBytes 8 key ++ leBytes 1 (old % 8 + new % 8 * 8 + pipe % 2 * 64 + b2n registry * 128) ++ leBytes 2 agent)

/-- A move of an entry is counted in its TAI second; above the limit LOCK sets (R359). -/
def noteMove (x : Die) (s : State) (sec : Nat) (e : EptEntry) : EptEntry × Bool :=
  let n := if e.movesSec = sec then e.moves + 1 else 1
  let lim := x.rf Reg.EPT_FLAP F.EPT_FLAP_LIMIT
  let e1 := { e with moves := n, movesSec := sec }
  if lim ≠ 0 && decide (lim < n) then
    ({ e1.setFlag 2 true with lockEnd := s.ticks + secT * max 1 (x.rf Reg.EPT_FLAP F.EPT_FLAP_HOLD) }, true)
  else (e1, false)

/-- One learn request acts on the table (R358). -/
def learnOne (s : State) (d : DieId) (p : Nat) (q : Learn) : State :=
  let x := s.die d
  let t := (x.pipe p).ept
  let ms := msOf q.stamp
  match eptFind t q.key with
  | none =>
    match eptInsert t (eptNew q.key q.cport ms) with
    | some t1 => (s.onDie d (·.setEpt p t1)).count d (Reg.EPT_CNT p 0) F.EPT_CNT_COUNT
    | none => raise (s.count d (Reg.EPT_CNT p 2) F.EPT_CNT_COUNT) d 129
  | some (slot, e) =>
    let seen := { e with lastSeen := BitVec.ofNat 32 ms }
    if e.cport = q.cport then s.onDie d (·.setEpt p (spPut slot seen t))
    else if e.isStatic || e.locked then
      (s.onDie d (·.setEpt p (spPut slot seen t))).count d (Reg.EPT_CNT p 4) F.EPT_CNT_COUNT
    else
      let m := noteMove x s (q.stamp / 1000000000) ((seen.setCport q.cport).setFlag 3 true)
      let s1 := (s.onDie d (·.setEpt p (spPut slot m.1 t))).count d (Reg.EPT_CNT p 3) F.EPT_CNT_COUNT
      let s2 := stationEvent (raise s1 d 130) d q.key.toNat e.cport q.cport p
        (if e.isAgent then fget F.EPT_DATA0_AGENT_ID e.data0.toNat else 0xFFFF) false
      if m.2 then raise (s2.count d (Reg.EPT_CNT p 5) F.EPT_CNT_COUNT) d 131 else s2

/-- LEARN_REQUEST_PROCESS: the first request by stamp, once the die's time has reached its stamp plus 1 µs (R358). -/
def learnProcess (d : DieId) (p : Nat) (s : State) : State :=
  let x := s.die d
  match firstLearn (x.pipe p).learns with
  | some q =>
    if x.running && decide (q.stamp + 1000 ≤ x.ns) then
      learnOne (s.onDie d (·.onPipe p (fun u => { u with learns := u.learns.erase q }))) d p q
    else s
  | none => s

def execLearnRequestProcess (die : DieId) (pipe : Fin 2) (s : State) : Host.Outcome State Fault Refusal :=
  done (learnProcess die pipe.val s)

/-- The table without entries older than a limit in ms, 0 removing none; and how many left (R362, R363). -/
def eptFlush (x : Die) (p limit : Nat) : Sparse EptEntry × Nat :=
  let t := (x.pipe p).ept
  if limit = 0 then (t, 0)
  else
    let t1 := t.filter (fun (e : Nat × EptEntry) => e.2.isStatic || decide (e.2.age x.ms ≤ limit))
    (t1, t.length - t1.length)

/-- AGING_SWEEP: every slot of the table is visited (R362). -/
def agingSweep (d : DieId) (p : Nat) (s : State) : State :=
  let x := s.die d
  if !x.running then s
  else
    let r := eptFlush x p (x.reg Reg.EPT_AGE_LIMIT)
    s.onDie d (fun y => (y.setEpt p r.1).count (Reg.EPT_CNT p 6) F.EPT_CNT_COUNT r.2)

def execAgingSweep (die : DieId) (pipe : Fin 2) (s : State) : Host.Outcome State Fault Refusal := done (agingSweep die pipe.val s)

/-- FLAP_LOCK_EXPIRY: LOCK from station flapping ends (R359). -/
def flapExpiry (d : DieId) (p slot : Nat) (s : State) : State :=
  let t := ((s.die d).pipe p).ept
  match spFind slot t with
  | some e =>
    if e.lockEnd ≠ 0 && decide (e.lockEnd ≤ s.ticks) then
      s.onDie d (·.setEpt p (spPut slot { e.setFlag 2 false with lockEnd := 0 } t))
    else s
  | none => s

def execFlapLockExpiry (die : DieId) (pipe : Fin 2) (slot : Nat) (s : State) : Host.Outcome State Fault Refusal :=
  done (flapExpiry die pipe.val slot s)

/-! ## The VSP engine's writes (R360) -/

/-- AGENT is cleared in every entry of a die that holds an agent's ID. -/
def agentCleared (x : Die) (id : Nat) : Die :=
  let f (t : Sparse EptEntry) : Sparse EptEntry := t.map (fun (e : Nat × EptEntry) =>
    if e.2.isAgent && fget F.EPT_DATA0_AGENT_ID e.2.data0.toNat = id then (e.1, e.2.setFlag 1 false) else e)
  (x.onPipe 0 (fun u => { u with ept := f u.ept })).onPipe 1 (fun u => { u with ept := f u.ept })

/-- The agent's ID and port go into the entry of a message's source key, if the table has one. -/
def agentSeen (x : Die) (p key id oport : Nat) : Die :=
  let t := (x.pipe p).ept
  match eptFind t (BitVec.ofNat 64 key) with
  | some (slot, e) =>
    let w := fput F.EPT_DATA0_AGENT_ID (fput F.EPT_DATA0_OPORT e.data0.toNat oport) id
    x.setEpt p (spPut slot { e.setFlag 1 true with data0 := BitVec.ofNat 32 w } t)
  | none => x

/-! ## Operations on a table (R363) -/

/-- Fields an operation works on: KEY, SMASK and DATA0 to DATA3. -/
structure EptFields where
  key : Nat
  smask : Nat
  d0 : Nat
  d1 : Nat
  d2 : Nat
  d3 : Nat
deriving DecidableEq, Repr

def eptOk : Nat := 0
def eptNotFound : Nat := 1
def eptFull : Nat := 2
def eptInvalid : Nat := 3

/-- DATA3 for a slot. -/
def slotData3 (slot : Nat) : Nat := 2 ^ 31 + slotSub slot * 2 ^ 18 + slot % 4 * 2 ^ 16 + slot % 131072 / 4

/-- The slot DATA3 names. -/
def data3Slot (w : Nat) : Nat := eptSlot (bitsOf w 18 18) (bitsOf w 14 0) (bitsOf w 17 16)

/-- The fields of an entry found at a slot. -/
def foundFields (f : EptFields) (slot : Nat) (e : EptEntry) : EptFields :=
  { f with key := e.key.toNat, d0 := e.data0.toNat, d1 := e.lastSeen.toNat, d2 := e.flags.toNat, d3 := slotData3 slot }

/-- A WRITE names an OPORT that does not exist, or sets a reserved bit. -/
def eptWriteBad (f : EptFields) : Bool :=
  let o := bitsOf f.d0 9 0
  (512 ≤ o && decide (o < 1023)) || bitsOf f.d0 15 10 ≠ 0 || bitsOf f.d0 31 31 ≠ 0 || bitsOf f.d2 31 4 ≠ 0

/-- One operation of the command port on a table of a die: the state after it, its fields and its status. -/
def eptOp (s : State) (d : DieId) (p op : Nat) (f : EptFields) : State × EptFields × Nat :=
  let x := s.die d
  let t := (x.pipe p).ept
  let k := BitVec.ofNat 64 f.key
  if op = 1 then
    match eptFind t k with
    | some (slot, e) => (s, foundFields f slot e, eptOk)
    | none => (s, f, eptNotFound)
  else if op = 2 then
    if eptWriteBad f then (s, f, eptInvalid)
    else
      let e : EptEntry := ⟨k, BitVec.ofNat 32 f.d0, BitVec.ofNat 32 f.d1, BitVec.ofNat 8 f.d2, 0, 0, 0⟩
      match eptFind t k with
      | some (slot, _) => (s.onDie d (·.setEpt p (spPut slot e t)), f, eptOk)
      | none =>
        match eptInsert t e with
        | some t1 => (s.onDie d (·.setEpt p t1), f, eptOk)
        | none => (raise s d 129, f, eptFull)
  else if op = 3 then
    match eptFind t k with
    | some (slot, _) => (s.onDie d (·.setEpt p (spDel slot t)), f, eptOk)
    | none => (s, f, eptNotFound)
  else if op = 4 then
    let from_ := if bitOf f.d3 31 then data3Slot f.d3 + 1 else 0
    let m := BitVec.ofNat 64 f.smask
    match t.find? (fun (e : Nat × EptEntry) => decide (from_ ≤ e.1) && ((e.2.key ^^^ k) &&& m) == 0) with
    | some (slot, e) => (s, foundFields f slot e, eptOk)
    | none => (s, f, eptNotFound)
  else if op = 5 then
    let r := eptFlush x p (if f.d1 = 0 then x.reg Reg.EPT_AGE_LIMIT else f.d1)
    (s.onDie d (·.setEpt p r.1), { f with d1 := r.2 }, eptOk)
  else (s, f, eptInvalid)

/-! ## The command port's register operations (R363) -/

/-- The fields as the EPT registers hold them. -/
def Die.eptFields (x : Die) : EptFields :=
  ⟨x.reg64 Reg.EPT_KEY, x.reg64 Reg.EPT_SMASK, x.reg Reg.EPT_DATA0, x.reg Reg.EPT_DATA1, x.reg Reg.EPT_DATA2, x.reg Reg.EPT_DATA3⟩

/-- A write of an operation code to EPT_CMD.OP starts the operation, unless one is in progress. -/
def eptStart (d : DieId) (op p : Nat) (s : State) : State :=
  let x := s.die d
  if !x.running || x.net.eptBusy.isSome then s
  else s.onDie d (fun x =>
    let x1 := (x.setRf Reg.EPT_CMD F.EPT_CMD_PIPE p).setRf Reg.EPT_CMD F.EPT_CMD_BUSY 1
    { x1 with net := { x1.net with eptBusy := some op } })

def execEptRead (die : DieId) (pipe : Fin 2) (s : State) : Host.Outcome State Fault Refusal := doneBar die (eptStart die 1 pipe.val) s
def execEptWrite (die : DieId) (pipe : Fin 2) (s : State) : Host.Outcome State Fault Refusal := doneBar die (eptStart die 2 pipe.val) s
def execEptDelete (die : DieId) (pipe : Fin 2) (s : State) : Host.Outcome State Fault Refusal := doneBar die (eptStart die 3 pipe.val) s
def execEptSearch (die : DieId) (pipe : Fin 2) (s : State) : Host.Outcome State Fault Refusal := doneBar die (eptStart die 4 pipe.val) s
def execEptFlushAged (die : DieId) (pipe : Fin 2) (s : State) : Host.Outcome State Fault Refusal := doneBar die (eptStart die 5 pipe.val) s

/-- EPT_COMMAND_DONE: the operation in progress acts, its results and STATUS are written, BUSY clears. -/
def eptDone (d : DieId) (s : State) : State :=
  let x := s.die d
  match x.net.eptBusy with
  | none => s
  | some op =>
    let r := eptOp s d (x.rf Reg.EPT_CMD F.EPT_CMD_PIPE) op x.eptFields
    let f := r.2.1
    r.1.onDie d (fun y =>
      let y1 := { y with net := { y.net with eptBusy := none } }
      let y2 := ((y1.setRf Reg.EPT_CMD F.EPT_CMD_BUSY 0).setRf Reg.EPT_CMD F.EPT_CMD_STATUS r.2.2).setReg64 Reg.EPT_KEY f.key
      (((y2.setReg Reg.EPT_DATA0 f.d0).setReg Reg.EPT_DATA1 f.d1).setReg Reg.EPT_DATA2 f.d2).setReg Reg.EPT_DATA3 f.d3)

def execEptCommandDone (die : DieId) (s : State) : Host.Outcome State Fault Refusal := done (eptDone die s)

end Sys2Proof.Machine
end

