-- ==== Sys2Proof/Machine/Parser.lean ====
section
/-!
DEFINITION. The parser, the rule CAM and the delivery of received frames (chapter 11): headers, key, actions and defaults, pass 2, bank
swaps; and the meanings of their rows.
-/

namespace Sys2Proof.Machine

/-! ## Headers (R339 to R342) -/

/-- Bits of HCLASS (R343). -/
def hcIpv4 : Nat := 0
def hcIpv6 : Nat := 1
def hcIpOpt : Nat := 2
def hcIpv6Ext : Nat := 3
def hcUdp : Nat := 4
def hcPtp : Nat := 5
def hcVsp : Nat := 6
def hcZsl : Nat := 7
def hcArp : Nat := 8
def hcNd : Nat := 9
def hcFrag : Nat := 10
def hcDepth : Nat := 11
def hcLen : Nat := 12
def hcExpress : Nat := 13
def hcMcast : Nat := 14

def Parsed.empty : Parsed := ⟨0, [], 0, 0, 0, [], [], 0, 0, 14⟩
def Parsed.has (p : Parsed) (i : Nat) : Bool := bitOf p.hclass i
def Parsed.mark (p : Parsed) (i : Nat) : Parsed := { p with hclass := setBit p.hclass i true }

/-- The bytes of a frame the parser reads. -/
def parserReach : Nat := 192

/-- A length field claims the frame up to `claimed`: more than it holds, or short of it by more than the padding to 60 bytes (R341). -/
def Parsed.claim (p : Parsed) (frame claimed : Nat) : Parsed :=
  if frame < claimed || decide (60 - claimed < frame - claimed) then p.mark hcLen else p

/-- A last header of n bytes, from where the parser stands: recognised when it ends within reach. -/
def Parsed.last (p : Parsed) (i n : Nat) : Parsed := if parserReach < p.off + n then p.mark hcDepth else p.mark i

/-- The registers that say how VSP and ZSL are recognised: EtherTypes and UDP ports (R339). -/
structure Recog where
  vspEt : Nat
  zslEt : Nat
  vspUdp : Nat
  zslUdp : Nat
deriving DecidableEq, Repr

def Die.recog (x : Die) : Recog :=
  ⟨x.rf Reg.PRS_ETYPE F.PRS_ETYPE_VSP, x.rf Reg.PRS_ETYPE F.PRS_ETYPE_ZSL, x.rf Reg.PRS_UDPPORT F.PRS_UDPPORT_VSP,
    x.rf Reg.PRS_UDPPORT F.PRS_UDPPORT_ZSL⟩

/-- Bytes of the PTP, VSP and ZSL headers. -/
def ptpHeader : Nat := 34
def vspHeader : Nat := 24
def zslLength : Nat := 28

/-- A UDP header and what its destination port names. -/
def parseUdp (g : Recog) (b : List Byte) (p : Parsed) : Parsed :=
  if parserReach < p.off + 8 then p.mark hcDepth
  else
    let dport := beAt b (p.off + 2) 2
    let p1 := ({ p with sport := beAt b p.off 2, dport := dport, off := p.off + 8 }.mark hcUdp).claim b.length
      (p.off + beAt b (p.off + 4) 2)
    if dport = 319 || dport = 320 then p1.last hcPtp ptpHeader
    else if dport ≠ 0 && dport = g.vspUdp then p1.last hcVsp vspHeader
    else if dport ≠ 0 && dport = g.zslUdp then p1.last hcZsl zslLength
    else p1

/-- What follows the IP header and its extensions. -/
def parseUpper (g : Recog) (b : List Byte) (nh : Nat) (p : Parsed) : Parsed :=
  let p1 := { p with proto := nh }
  if nh = 17 then parseUdp g b p1
  else
    let type := beAt b p.off 1
    if nh = 58 && p.has hcIpv6 && 133 ≤ type && type ≤ 137 then
      if parserReach < p.off + 4 then p1.mark hcDepth else { p1 with off := p1.off + 4 }.mark hcNd
    else p1

/-- An IPv6 extension header of R339. -/
def isExt (nh : Nat) : Bool := nh = 0 || nh = 43 || nh = 44 || nh = 60

/-- IPv6 extension headers, at most two (R339, R340, R342). -/
def parseExt (g : Recog) (b : List Byte) : Nat → Nat → Parsed → Parsed
  | 0, nh, p => if isExt nh then { p with proto := nh }.mark hcDepth else parseUpper g b nh p
  | n + 1, nh, p =>
    if !isExt nh then parseUpper g b nh p
    else
      let len := if nh = 44 then 8 else 8 * (beAt b (p.off + 1) 1 + 1)
      let next := beAt b p.off 1
      if parserReach < p.off + len then { p with proto := nh }.mark hcDepth
      else
        let w := beAt b (p.off + 2) 2
        let p1 := { p with off := p.off + len, proto := next }.mark hcIpv6Ext
        if nh ≠ 44 then parseExt g b n next p1
        else if w / 8 ≠ 0 then p1.mark hcFrag
        else parseExt g b n next (if w % 2 = 1 then p1.mark hcFrag else p1)

def parseIpv4 (g : Recog) (b : List Byte) (p : Parsed) : Parsed :=
  let o := p.off
  let hlen := 4 * max 5 (beAt b o 1 % 16)
  if parserReach < o + hlen then p.mark hcDepth
  else
    let w := beAt b (o + 6) 2
    let p1 := ({ p with tos := beAt b (o + 1) 1, proto := beAt b (o + 9) 1, src := bytesAt b (o + 12) 4, dst := bytesAt b (o + 16) 4,
                        off := o + hlen }.mark hcIpv4).claim b.length (o + beAt b (o + 2) 2)
    let p2 := if 20 < hlen then p1.mark hcIpOpt else p1
    let p3 := if w % 0x4000 ≠ 0 then p2.mark hcFrag else p2
    if w % 0x2000 ≠ 0 then p3 else parseUpper g b p3.proto p3

def parseIpv6 (g : Recog) (b : List Byte) (p : Parsed) : Parsed :=
  let o := p.off
  if parserReach < o + 40 then p.mark hcDepth
  else
    let p1 := ({ p with tos := beAt b o 2 / 16 % 256, src := bytesAt b (o + 8) 16, dst := bytesAt b (o + 24) 16, off := o + 40 }.mark
      hcIpv6).claim b.length (o + 40 + beAt b (o + 4) 2)
    parseExt g b 2 (beAt b (o + 6) 1) p1

/-- A TPID of R339. -/
def isTpid (e : Nat) : Bool := e = 0x8100 || e = 0x88A8

/-- What follows the Ethernet header and its tags; a third tag exceeds the depth. -/
def parseEther (g : Recog) (b : List Byte) : Nat → Parsed → Parsed
  | n, p =>
    let e := beAt b (p.off - 2) 2
    if isTpid e then
      match n with
      | 0 => { p with etype := e }.mark hcDepth
      | n + 1 => parseEther g b n { p with tags := p.tags ++ [(BitVec.ofNat 16 e, BitVec.ofNat 16 (beAt b p.off 2))], off := p.off + 4 }
    else
      let p1 := { p with etype := e }
      if e = 0x0800 then parseIpv4 g b p1
      else if e = 0x86DD then parseIpv6 g b p1
      else if e = 0x88F7 then p1.last hcPtp ptpHeader
      else if e = g.vspEt then p1.last hcVsp vspHeader
      else if e = g.zslEt then p1.last hcZsl zslLength
      else if e = 0x0806 then { p1 with off := p1.off + 28 }.mark hcArp
      else p1

/-- What the parser reads of a frame. -/
def parseFrame (g : Recog) (f : RxFrame) : Parsed :=
  let p := parseEther g f.bytes 2 Parsed.empty
  let p1 := if f.express then p.mark hcExpress else p
  if bitOf (beAt f.bytes 0 1) 0 then p1.mark hcMcast else p1

/-! ## The rule key (R343) -/

/-- A tag of the key. -/
def keyTag : Option (BitVec 16 × BitVec 16) → Nat
  | some t => 0x8000 + t.2.toNat / 8192 * 4096 + t.2.toNat % 4096
  | none => 0

/-- The last four bytes of an address. -/
def addrLow (a : List Byte) : Nat := beNat (a.drop (a.length - 4))

/-- L5 of the key. -/
def keyL5 (b : List Byte) (p : Parsed) : Nat :=
  if p.has hcPtp then beAt b p.off 2 * 65536 + beAt b (p.off + 4) 2 else beAt b p.off 4

/-- The pass-1 key of a frame received on a port. -/
def ruleKey (f : RxFrame) (p : Parsed) (port : Nat) : BitVec 320 :=
  BitVec.ofNat 320 (beAt f.bytes 0 6 * 2 ^ 272 + beAt f.bytes 6 6 * 2 ^ 224 + keyTag (p.tags[0]?) * 2 ^ 208 + keyTag (p.tags[1]?) * 2 ^ 192 +
    p.etype * 2 ^ 176 + p.hclass * 2 ^ 160 + p.proto * 2 ^ 152 + p.tos * 2 ^ 144 + addrLow p.src * 2 ^ 112 + addrLow p.dst * 2 ^ 80 +
    p.sport * 2 ^ 64 + p.dport * 2 ^ 48 + keyL5 f.bytes p * 2 ^ 16 + port % 8 * 2 ^ 12)

/-! ## Rules and actions (R344 to R346) -/

/-- The slot of a rule: bank and number. -/
def ruleSlot (bank n : Nat) : Nat := bank * 4096 + n

/-- The valid entry with the lowest number in a bank whose masked key equals the frame's. -/
def Pipe.lookup (u : Pipe) (bank : Nat) (k : BitVec 320) : Option (Nat × Rule) :=
  u.rules.find? (fun (e : Nat × Rule) => e.1 / 4096 = bank && e.2.valid && ((e.2.key ^^^ k) &&& e.2.mask) == 0)

/-- A lookup counts a match of its entry. -/
def Pipe.hit (u : Pipe) (slot : Nat) : Pipe :=
  { u with rules := u.rules.map (fun (e : Nat × Rule) => if e.1 = slot then (e.1, { e.2 with hits := satAdd 32 e.2.hits 1 }) else e) }

/-- Fields of an action (R345). -/
def actSteer (a : BitVec 64) : Nat := bitsOf a.toNat 63 61
def actHqueue (a : BitVec 64) : Nat := bitsOf a.toNat 60 58
def actRecirc (a : BitVec 64) : Bool := a.getLsbD 57
def actP2sel (a : BitVec 64) : Nat := bitsOf a.toNat 56 55
def actLearn (a : BitVec 64) : Bool := a.getLsbD 54
def actMeta (a : BitVec 64) : Option Nat := if a.getLsbD 53 then some (bitsOf a.toNat 52 41) else none
def actLeg (a : BitVec 64) : Bool := a.getLsbD 10
def actClass (a : BitVec 64) : Nat := bitsOf a.toNat 9 7
def actColour (a : BitVec 64) : Nat := bitsOf a.toNat 6 5
def actQueue (a : BitVec 64) : Nat := bitsOf a.toNat 4 0

/-- An action with a reserved value. -/
def actReserved (a : BitVec 64) : Bool := actSteer a = 7 || actColour a = 3 || bitsOf a.toNat 40 11 ≠ 0

/-- The consumers of STEER (R345). -/
def steerKeep : Nat := 0
def steerDrop : Nat := 1
def steerHost : Nat := 2
def steerVsp : Nat := 3
def steerTime : Nat := 4
def steerGuard : Nat := 5
def steerMgmt : Nat := 6

/-- The default row of a frame: steer, class and LEARN (R346). -/
def defaultRow (b : List Byte) (p : Parsed) : Nat × Nat × Bool :=
  if p.has hcDepth || p.has hcLen || p.has hcFrag then (steerMgmt, 0, false)
  else if p.has hcPtp then (steerTime, 6, false)
  else if p.has hcZsl then (steerGuard, 6, true)
  else if p.has hcVsp then (steerVsp, min 6 (beAt b (p.off + 2) 1 % 8), true)
  else if p.has hcArp || p.has hcNd then (steerMgmt, 0, false)
  else (steerDrop, 0, false)

/-- The resolved action of pass 1: what the entry does not say comes from the default row. -/
def resolve1 (b : List Byte) (p : Parsed) : Option (BitVec 64) → Resolved
  | none =>
    let r := defaultRow b p
    ⟨r.1, 0, false, 0, r.2.2, none, r.2.1, 0, none, false, false⟩
  | some a =>
    let r := defaultRow b p
    let steer := if actSteer a = steerKeep then r.1 else actSteer a
    ⟨steer, actHqueue a, actRecirc a, actP2sel a, actLearn a, actMeta a, if actLeg a then actClass a else r.2.1,
      if actLeg a then actColour a else 0, if actLeg a then some (actQueue a) else none,
      actLeg a && actClass a = 7 && actSteer a = steerVsp, true⟩

/-- The action with the pass-2 result applied (R349). -/
def resolve2 (r : Resolved) (a : BitVec 64) : Resolved :=
  let r1 := if actSteer a = steerKeep then r else { r with steer := actSteer a, hqueue := actHqueue a }
  let r2 := if actLeg a then { r1 with cls := actClass a, colour := actColour a, queue := some (actQueue a) } else r1
  match actMeta a with
  | some m => { r2 with meta_ := some m }
  | none => r2

/-! ## Source keys and learning (R354, R357) -/

/-- The source key of a frame: DOMAIN of a VSP frame, else META[3:0] where the action set META. -/
def sourceKey (f : RxFrame) (p : Parsed) (r : Resolved) : BitVec 64 :=
  let dom := if p.has hcVsp then beAt f.bytes p.off 1 % 16 else r.meta_.getD 0 % 16
  eptKey dom (match p.tags.getLast? with | some t => t.2.toNat % 4096 | none => 0) (beAt f.bytes 6 6)

/-- A frame makes a learn request where R357 asks for one; a full queue drops it. -/
def learnRequest (s : State) (d : DieId) (p : Nat) (i : Inflight) : State :=
  let x := s.die d
  let u := x.pipe p
  let k := sourceKey i.frame i.parsed i.res
  let stale := match eptFind u.ept k with
    | none => true
    | some (_, e) => e.cport ≠ i.port || decide (e.lastSeen.toNat ≠ x.ms)
  if !i.res.learn || bitOf (beAt i.frame.bytes 6 1) 0 || !stale then s
  else if 64 ≤ u.learns.length then raise (s.count d (Reg.EPT_CNT p 1) F.EPT_CNT_COUNT) d 133
  else s.onDie d (·.onPipe p (fun u => { u with learns := u.learns ++ [⟨k, i.port, i.stamp / 65536⟩] }))

/-! ## Trump policing (R383, R384) -/

/-- The Trump policer's bucket brought up to the present, in 1/20,000 bytes. -/
def trumpBucket (x : Die) (p ticks : Nat) : Int :=
  let c := x.cport p
  let w := x.reg (Reg.TMG_TPOL p)
  let burst := 20000 * max 256 (fget F.TMG_TPOL_BURST w)
  min burst (c.bucket + (ticks - c.bucketAt) * x.portRate * clampNat 1 100 (fget F.TMG_TPOL_RATE w) / 4000)

/-- A frame on the Trump path is policed: it takes its cost and is in flight, or becomes class 6. -/
def trumpPolice (s : State) (d : DieId) (i : Inflight) : State × Inflight :=
  let x := s.die d
  let c := x.cport i.port
  let have_ := trumpBucket x i.port s.ticks
  let cost : Int := 20000 * x.wireBytes i.port (frameLen i.frame.bytes)
  let lim := clampNat 1 16 (x.rf (Reg.TMG_TPOL i.port) F.TMG_TPOL_INFLIGHT)
  let low : Inflight := { i with res := { i.res with cls := 6, byRule := false } }
  let s1 := s.onDie d (·.setCport i.port { c with bucket := have_, bucketAt := s.ticks })
  if have_ < cost then (raise (s1.count d (Reg.TMG_PCNT i.port 2) F.TMG_PCNT_COUNT) d 135, low)
  else if lim ≤ c.inflight then (raise (s1.count d (Reg.TMG_PCNT i.port 3) F.TMG_PCNT_COUNT) d 135, low)
  else (s1.onDie d (·.onCport i.port (fun c => { c with bucket := c.bucket - cost, inflight := c.inflight + 1 })), i)

/-- A Trump frame that is not delivered as one is no longer in flight. -/
def trumpRelease (s : State) (d : DieId) (i : Inflight) : State :=
  if i.res.byRule then s.onDie d (·.onCport i.port (fun c => { c with inflight := c.inflight - 1 })) else s

/-! ## Delivery (R347) -/

/-- How a frame came, for a reply. -/
def frameFrom (d : DieId) (i : Inflight) : VspFrom :=
  ⟨d, ⟨i.port % 8, Nat.mod_lt _ (by decide)⟩, BitVec.ofNat 48 (beAt i.frame.bytes 6 6), i.parsed.tags,
    if i.parsed.has hcUdp then some (i.parsed.src, BitVec.ofNat 16 i.parsed.sport) else none⟩

/-- The bytes of the message: a datagram ends where its UDP length says, any other where the frame ends. -/
def messageOf (i : Inflight) : List Byte :=
  let b := i.frame.bytes
  if i.parsed.has hcUdp then (b.drop i.parsed.off).take (beAt b (i.parsed.off - 4) 2 - 8) else b.drop i.parsed.off

/-- A VSP message for the VSP engine. -/
def vspOf (d : DieId) (i : Inflight) : VspRx :=
  { src := frameFrom d i, cls := ⟨i.res.cls % 8, Nat.mod_lt _ (by decide)⟩, colour := ⟨i.res.colour % 4, Nat.mod_lt _ (by decide)⟩,
    queue := i.res.queue.map (fun (q : Nat) => (⟨q % 32, Nat.mod_lt _ (by decide)⟩ : Fin 32)), stamp := i.stamp / 65536,
    bytes := i.frame.bytes.drop i.parsed.off, frameLen := frameLen i.frame.bytes }

/-- The enabled S-BLACK connection of a unit that holds a CONN_ID. -/
def connOf (x : Die) (id : Nat) : Option Nat :=
  (List.range 256).find? (fun c => let k := x.lgd.conn c
    connEn k && decide (fget F.LGD_CONN_ID_CONN_ID k.id.toNat = id))

/-- A telegram reaches the Light Guard of its die: S-BLACK by its connection, anything else as S-DUAL (R453). -/
def guardTelegram (s : State) (d : DieId) (i : Inflight) : State :=
  let m := messageOf i
  let t := if i.parsed.has hcUdp then m else m.take zslLength
  let rx : ZslRx := ⟨d, frameFrom d i, t⟩
  if beAt t 0 1 % 16 = 2 then
    match connOf (s.die d) (beAt t 2 2) with
    | some c => blackEcho c rx s
    | none => raise s d 210
  else sdControl rx s

/-- The header of a frame for the host, from byte 3 (R414). -/
def hostHeader (x : Die) (p : Nat) (i : Inflight) : List Byte :=
  leBytes 1 (i.port + 8 * p) ++ leBytes 8 (i.stamp / 65536) ++ leBytes 2 (i.stamp % 65536) ++ leBytes 2 i.parsed.hclass ++
    leBytes 2 (i.res.meta_.getD 0) ++ leBytes 1 (i.res.cls + 8 * i.res.colour) ++
    leBytes 1 (i.res.queue.getD (x.classQueue i.res.cls)) ++ leBytes 1 i.bank ++ leBytes 1 i.epoch

/-- A frame goes to the consumer its action names. -/
def deliver (s : State) (d : DieId) (p : Nat) (i : Inflight) : State :=
  let x := s.die d
  let steer := i.res.steer
  if steer = steerVsp then
    let s1 := if i.res.cls = 7 && !i.res.byRule then s.onDie d (·.onCport i.port (fun c => { c with inflight := c.inflight + 1 })) else s
    s1.onDie d (fun x => { x with net := { x.net with vspQueue := x.net.vspQueue ++ [vspOf d i] } })
  else
    let s1 := trumpRelease s d i
    if steer = steerHost then hostFrame s1 d i.res.hqueue (hostHeader x p i) i.frame.bytes
    else if steer = steerTime then s1.onDie d (fun x => { x with net := { x.net with ptp := x.net.ptp ++ [i] } })
    else if steer = steerGuard then guardTelegram s1 d i
    else if steer = steerMgmt then
      if 256 ≤ x.net.exception.length then raise (s1.count d (Reg.PRS_CNT p 5) F.PRS_CNT_COUNT) d 132
      else s1.onDie d (fun x => { x with net := { x.net with exception := x.net.exception ++ [i] } })
    else s1

/-! ## Pass 1 (R338 to R347) -/

/-- The pipeline of a control port (R337). -/
def pipeOf (port : Nat) : Nat := port / 4

/-- What names a PTP message: messageType, domainNumber, sourcePortIdentity and sequenceId; none of a message that is no event (R101). -/
def ptpName (bytes : List Byte) (off : Nat) : Option (List Byte) :=
  if beAt bytes off 1 % 16 < 4 then
    some ([BitVec.ofNat 8 (beAt bytes off 1 % 16)] ++ (bytes.drop (off + 4)).take 1 ++ (bytes.drop (off + 20)).take 12)
  else none

/-- The receive stamp of an event message goes with it to its consumer (R101): the last 64 are kept (log entry 111). -/
def keepStamp (x : Die) (i : Inflight) : Die :=
  if !i.parsed.has hcPtp then x
  else match ptpName i.frame.bytes i.parsed.off with
    | some n => x.onClock (fun c => { c with rxStamps := (⟨n, i.stamp⟩ :: c.rxStamps).take 64 })
    | none => x

/-- Pass 1 of a frame, and its delivery unless it recirculates. -/
def passOne (s : State) (d : DieId) (port : Nat) (f : RxFrame) : State :=
  let x := s.die d
  let p := pipeOf port
  let u := x.pipe p
  let g := parseFrame x.recog f
  let key := ruleKey f g port
  let found := u.lookup u.activeBank key
  let cnt (s : State) (on : Bool) (c : Nat) : State := if on then s.count d (Reg.PRS_CNT p c) F.PRS_CNT_COUNT else s
  let s1 := cnt (cnt (cnt (cnt s true 0) (g.has hcDepth) 3) (g.has hcLen) 4) found.isNone 8
  let s2 := match found with
    | some e => s1.onDie d (·.onPipe p (fun u => u.hit e.1))
    | none => s1
  let i : Inflight :=
    ⟨f, port, (f.pcsTime - x.rf (Reg.TIM_LAT_RX port) F.TIM_LAT_RX_LAT * 65536 / 1000) / 4096 * 4096, g, key,
      resolve1 f.bytes g (found.map (fun (e : Nat × Rule) => e.2.action)), u.activeBank, u.epoch⟩
  let s2 := s2.onDie d (fun x => keepStamp x i)
  let r := if i.res.byRule then trumpPolice s2 d i else (s2, i)
  let s3 := learnRequest r.1 d p r.2
  if !r.2.res.recirc then deliver s3 d p r.2
  else if 64 ≤ u.fifo.length then
    raise ((trumpRelease s3 d r.2).count d (Reg.PRS_CNT p 2) F.PRS_CNT_COUNT) d 128
  else s3.onDie d (·.onPipe p (fun u => { u with fifo := u.fifo ++ [r.2] }))

/-- FRAME_RECEIVE: a frame as the PCS delivers it; a bad one is dropped and counted (R369, R370). -/
def frameReceive (d : DieId) (port : Nat) (f : RxFrame) (s : State) : State :=
  let x := s.die d
  let s0 := s.onDie d (fun x =>
    (x.count (Reg.ETH_CNT port 5) F.ETH_CNT_COUNT f.corrected).count (Reg.ETH_CNT port 8) F.ETH_CNT_COUNT f.fragments)
  let cnt (c : Nat) : State := s0.count d (Reg.ETH_CNT port c) F.ETH_CNT_COUNT
  let unclean (s : State) : State :=
    s.onDie d (fun x => (x.setRf (Reg.ETH_PORT port) F.ETH_PORT_CLEAN 0).onCport port (fun c => { c with lastErr := some s.ticks }))
  if !x.running || !x.portExists port then s
  else if f.uncorrectable then unclean (cnt 6)
  else if f.reassemblyErr then cnt 9
  else if f.badFcs then unclean (cnt 2)
  else if x.maxFrame < frameLen f.bytes then cnt 3
  else if frameLen f.bytes < 64 then cnt 4
  else passOne (cnt 0) d port f

def execFrameReceive (die : DieId) (port : Fin 8) (frame : RxFrame) (s : State) : Host.Outcome State Fault Refusal :=
  done (frameReceive die port.val frame s)

/-! ## Pass 2 (R348 to R351) -/

/-- Bits [127:32] of an IPv6 address, or zero. -/
def addrHigh (a : List Byte) : Nat := if a.length = 16 then beNat (a.take 12) else 0

/-- The endpoint result of P2SEL 1. -/
def endpointResult (x : Die) (p : Nat) (k : BitVec 64) : Nat :=
  match eptFind (x.pipe p).ept k with
  | none => 0
  | some (_, e) =>
    2 ^ 95 + e.cport * 2 ^ 92 + fget F.EPT_DATA0_AGENT_ID e.data0.toNat * 2 ^ 80 + fget F.EPT_DATA0_OPORT e.data0.toNat * 2 ^ 70 +
      e.flags.toNat * 2 ^ 62

/-- The pass-2 key of a frame. -/
def passTwoKey (x : Die) (p : Nat) (i : Inflight) : BitVec 320 :=
  let low := i.key.toNat % 2 ^ 15 / 2 ^ 12 * 2 ^ 12 + 0x8000 + i.res.meta_.getD 0
  let mid := i.key.toNat % 2 ^ 224 / 2 ^ 16 * 2 ^ 16
  let top := match i.res.p2sel with
    | 0 => i.key.toNat / 2 ^ 224
    | 1 => endpointResult x p (sourceKey i.frame i.parsed i.res)
    | 2 => addrHigh i.parsed.src
    | _ => addrHigh i.parsed.dst
  BitVec.ofNat 320 (top * 2 ^ 224 + mid + low)

/-- RECIRCULATION_PASS: the frame at the head of the FIFO runs pass 2 in its own bank. -/
def recirculate (d : DieId) (p : Nat) (s : State) : State :=
  let x := s.die d
  match (x.pipe p).fifo with
  | [] => s
  | i :: rest =>
    let s1 := (s.onDie d (·.onPipe p (fun u => { u with fifo := rest }))).count d (Reg.PRS_CNT p 1) F.PRS_CNT_COUNT
    match (x.pipe p).lookup i.bank (passTwoKey x p i) with
    | none => deliver s1 d p i
    | some (slot, rule) =>
      let s2 := s1.onDie d (·.onPipe p (fun u => u.hit slot))
      let s3 := if actRecirc rule.action then s2.count d (Reg.PRS_CNT p 6) F.PRS_CNT_COUNT else s2
      let r := resolve2 i.res rule.action
      if r.cls = 7 && i.res.cls ≠ 7 then
        deliver (raise (s3.count d (Reg.PRS_CNT p 7) F.PRS_CNT_COUNT) d 134) d p { i with res := { r with cls := 6 } }
      else if i.res.byRule && r.cls ≠ 7 then
        deliver (trumpRelease s3 d i) d p { i with res := { r with byRule := false } }
      else deliver s3 d p { i with res := r }

def execRecirculationPass (die : DieId) (pipe : Fin 2) (s : State) : Host.Outcome State Fault Refusal :=
  done (ruleWaits (recirculate die pipe.val s) die)

/-! ## Rule entries (R353) -/

/-- A bank that may be written: the active one, or an inactive one that is drained. -/
def Pipe.bankWritable (u : Pipe) (bank : Nat) : Bool := u.activeBank = bank || u.drained bank

/-- An entry that was never written. -/
def Rule.reset : Rule := ⟨0, 0, 0, false, 0⟩

def Pipe.rule (u : Pipe) (bank n : Nat) : Rule := spGet Rule.reset (ruleSlot bank n) u.rules
def Pipe.setRule (u : Pipe) (bank n : Nat) (r : Rule) : Pipe := { u with rules := spSet Rule.reset (ruleSlot bank n) r u.rules }

/-- A 320-bit staging register. -/
def Die.staged (x : Die) (reg : Nat → Nat) : BitVec 320 :=
  BitVec.ofNat 320 ((List.range 10).foldl (fun a k => a + x.reg (reg k) * 2 ^ (32 * k)) 0)
def Die.setStaged (x : Die) (reg : Nat → Nat) (v : BitVec 320) : Die :=
  (List.range 10).foldl (fun x k => x.setReg (reg k) (v.toNat / 2 ^ (32 * k) % 2 ^ 32)) x

/-- The entry PRS_RULE_SEL names: pipeline, bank and number. -/
def Die.ruleSel (x : Die) : Nat × Nat × Nat :=
  (x.rf Reg.PRS_RULE_SEL F.PRS_RULE_SEL_PIPE, x.rf Reg.PRS_RULE_SEL F.PRS_RULE_SEL_BANK, x.rf Reg.PRS_RULE_SEL F.PRS_RULE_SEL_INDEX)

def ruleOk : Nat := 0
def ruleNotDrained : Nat := 1
def ruleInvalid : Nat := 2

def Die.ruleStatus (x : Die) (v : Nat) : Die := x.setRf Reg.PRS_RULE_CMD F.PRS_RULE_CMD_STATUS v

/-- PRS_RULE_WRITE: the staged key, mask and action, valid last; the entry's match count starts anew. -/
def ruleWrite (x : Die) : Die :=
  let (p, b, n) := x.ruleSel
  let a := BitVec.ofNat 64 (x.reg64 Reg.PRS_RULE_ACT)
  if !(x.pipe p).bankWritable b then x.ruleStatus ruleNotDrained
  else if actReserved a then x.ruleStatus ruleInvalid
  else (x.onPipe p (fun u => u.setRule b n ⟨x.staged (Reg.PRS_RULE_KEY ·), x.staged (Reg.PRS_RULE_MASK ·), a, true, 0⟩)).ruleStatus ruleOk

def execPrsRuleWrite (die : DieId) (s : State) : Host.Outcome State Fault Refusal :=
  doneBar die (·.onDie die ruleWrite) s

/-- PRS_RULE_READ: an entry into the staging registers. -/
def ruleRead (x : Die) : Die :=
  let (p, b, n) := x.ruleSel
  let r := (x.pipe p).rule b n
  let x1 := ((x.setStaged (Reg.PRS_RULE_KEY ·) r.key).setStaged (Reg.PRS_RULE_MASK ·) r.mask).setReg64 Reg.PRS_RULE_ACT r.action.toNat
  let x2 := (x1.setRf Reg.PRS_RULE_CMD F.PRS_RULE_CMD_VALID (b2n r.valid)).ruleStatus ruleOk
  { x2 with net := { x2.net with ruleSeen := some (p, ruleSlot b n) } }

def execPrsRuleRead (die : DieId) (s : State) : Host.Outcome State Fault Refusal :=
  doneBar die (·.onDie die ruleRead) s

/-- PRS_RULE_INVALIDATE. -/
def ruleInvalidate (x : Die) : Die :=
  let (p, b, n) := x.ruleSel
  if !(x.pipe p).bankWritable b then x.ruleStatus ruleNotDrained
  else (x.onPipe p (fun u => u.setRule b n { u.rule b n with valid := false })).ruleStatus ruleOk

def execPrsRuleInvalidate (die : DieId) (s : State) : Host.Outcome State Fault Refusal :=
  doneBar die (·.onDie die ruleInvalidate) s

/-! ## Bank swaps (R351, R352) -/

/-- The pipelines of a mask make a bank active; each that changes advances its epoch. -/
def swapBanks (x : Die) (mask bank : Nat) : Die :=
  [0, 1].foldl (fun x p =>
    if bitOf mask p then x.onPipe p (fun u => if u.activeBank = bank then u else { u with activeBank := bank, epoch := (u.epoch + 1) % 256 })
    else x) x

end Sys2Proof.Machine
end

