-- ==== Sys2Proof/Machine/Vsp.lean ====
section
/-!
DEFINITION. The VSP engine (chapter 10): validation, sequence numbers, registration, port checks, Bids and takes of agents; and the
meanings of the rows that are VSP messages and their timers.
-/

namespace Sys2Proof.Machine

/-! ## Where a message is processed (R313, R430) -/

/-- The VSP engine that processes a message: the Declarer's, which one that arrives at the Dummy reaches over the mirror link. A die that
claims or yields processes none. -/
def vspEngine (s : State) (rx : VspRx) : Option DieId :=
  match s.declarer with
  | none => none
  | some d =>
    if (s.die d).running && (s.die d).red.takeover.isNone && (rx.src.die = d || decide (s.mirror.state = 2)) then some d else none

/-- The message leaves its die's queue. -/
def vspTaken (s : State) (rx : VspRx) : State :=
  s.onDie rx.src.die (fun x => { x with net := { x.net with vspQueue := x.net.vspQueue.erase rx } })

/-- The message waits in its die's queue. -/
def vspWaits (s : State) (rx : VspRx) : State :=
  s.onDie rx.src.die (fun x =>
    if x.net.vspQueue.contains rx then x else { x with net := { x.net with vspQueue := x.net.vspQueue ++ [rx] } })

/-! ## Fields (R314) -/

def mType (m : List Byte) : Nat := beAt m 1 1
def mClass (m : List Byte) : Nat := beAt m 2 1
def mFlags (m : List Byte) : Nat := beAt m 3 1
def mLength (m : List Byte) : Nat := beAt m 4 2
def mAgent (m : List Byte) : Nat := beAt m 6 2
def mSeq (m : List Byte) : Nat := beAt m 8 4
def mDomain (m : List Byte) : Nat := beAt m 0 1 % 16

/-- VID of the innermost tag, or 0. -/
def vspVlan (src : VspFrom) : Nat := match src.tags.getLast? with | some t => t.2.toNat % 4096 | none => 0

/-- The key of an agent, laid out as EPT_KEY. -/
def Agent.key (a : Agent) : Nat := (eptKey a.domain a.vlan a.mac.toNat).toNat

/-- The agent that a message's key names (R322). -/
def keyAgent (x : Die) (rx : VspRx) : Option Agent :=
  x.vsp.agents.find? (fun a => a.mac = rx.src.mac && decide (a.vlan = vspVlan rx.src) && decide (a.domain = mDomain rx.bytes))

/-- The agent registered under AGENT with the frame's MAC, VLAN and DOMAIN (step 3 of R317). -/
def msgAgent (x : Die) (rx : VspRx) : Option Agent := (keyAgent x rx).filter (fun a => a.id = mAgent rx.bytes)

/-! ## Steps 1 and 2 (R317) -/

/-- The cause a message is dropped for at step 1 or 2, as PRS_VSP_DROP counts it. -/
def vspUnsound (m : List Byte) : Option Nat :=
  let n := mLength m
  if n < 24 || m.length < n then some 0
  else if 1400 < n then some 1
  else if beAt m 0 1 / 16 ≠ 1 then some 2
  else if beAt m 20 4 ≠ crc32c (bytesAt m 0 20 ++ [0, 0, 0, 0] ++ (m.take n).drop 24) then some 3
  else none

/-- A message is dropped without an answer: counted on both dies; a Trump frame leaves flight. -/
def vspDropped (s : State) (d : DieId) (rx : VspRx) (cause : Nat) : State :=
  trumpDone (raise (shadowed s d (·.count (Reg.PRS_VSP_DROP cause) F.PRS_VSP_DROP_COUNT)) d 137) rx.src rx.cls.val

/-! ## Answers -/

/-- How a reply to a message goes out (R334, R372). -/
def replyEgr (rx : VspRx) (yellow : Bool) : Egr := ⟨rx.cls.val, rx.queue.map (·.val), yellow, rx.cls.val = 7⟩

/-- A NACK to a frame's source, AGENT copied, the number unstated (step 3 of R317; log entry 10). -/
def nackStranger (s : State) (d : DieId) (rx : VspRx) (reason : Nat) : State :=
  let m := rx.bytes
  let msg := vspBytes (mDomain m) vtNack rx.cls.val 0 (mAgent m) (s.free % 2 ^ 32) (s.die d).ns (nackBody (mType m) reason (mSeq m))
  trumpDone (sendVsp s.drawn d rx.src rx.cls.val (rx.queue.map (·.val)) false false msg) rx.src rx.cls.val

/-- A NACK to an agent. -/
def nackAgent (s : State) (d : DieId) (id : Nat) (rx : VspRx) (g : Egr) (reason : Nat) : State :=
  answer s d id (mType rx.bytes) (mSeq rx.bytes) vtNack g rx.src (nackBody (mType rx.bytes) reason (mSeq rx.bytes))

/-! ## Policing (R385, R386) -/

/-- The result of a marker: green, yellow or red, and the marker after it (IETF RFC 2697). -/
def mark (x : Die) (k ticks cost colour : Nat) (m : Marker) : Nat × Marker :=
  let full := markerFull x k ticks
  let add := (ticks - m.at_) * x.rf (Reg.TMG_APOL_RATE k) F.TMG_APOL_RATE_CIR
  let c := min full.c (m.c + add)
  let e := min full.e (m.e + (m.c + add - c))
  let b : Int := ((cost * 8000000 : Nat) : Int)
  let pre := if x.rbit (Reg.TMG_APOL_BURST k) F.TMG_APOL_BURST_CAWARE then colour else 0
  if pre = 0 && decide (b ≤ c) then (0, ⟨c - b, e, ticks⟩)
  else if pre ≤ 1 && decide (b ≤ e) then (1, ⟨c, e - b, ticks⟩)
  else (2, ⟨c, e, ticks⟩)

/-- A TAKE or BID of an agent is policed: the colour, the state with its markers. -/
def police (s : State) (d : DieId) (a : Agent) (rx : VspRx) : Nat × State :=
  let x := s.die d
  let cost := rx.frameLen + (s.die rx.src.die).rf (Reg.TMG_OVH rx.src.port.val) F.TMG_OVH_OVH
  let take := mType rx.bytes = vtTake
  let r := if take then mark x (a.maxClass % 8) s.ticks cost rx.colour.val a.mTake
           else mark x (8 + a.maxClass % 8) s.ticks cost rx.colour.val a.mBid
  let s1 := s.onDie d (·.setAgent (if take then { a with mTake := r.2 } else { a with mBid := r.2 }))
  let c := if take then 0 else 2
  if r.1 = 2 then
    (2, trumpDone (raise (s1.count d (Reg.TMG_APOL_CNT (c + 1)) F.TMG_APOL_CNT_COUNT) d 136) rx.src rx.cls.val)
  else if r.1 = 1 then (1, s1.count d (Reg.TMG_APOL_CNT c) F.TMG_APOL_CNT_COUNT)
  else (0, s1)

/-! ## Sequence numbers (R318, R319) -/

/-- How a sequence is judged. -/
inductive Judged where
  /-- New: L and the accepted record after it. -/
  | new (l : Nat) (seen : BitVec 16)
  | duplicate
  | stale
deriving DecidableEq, Repr

/-- The judgement of sequence q for an agent; bit i of the record stands for L − i. -/
def judgeSeq (a : Agent) (q : Nat) : Judged :=
  match a.seqL with
  | none => if a.replies.any (fun r => r.1 = q) then .duplicate else .new q 1
  | some l =>
    let up := (q + 2 ^ 32 - l) % 2 ^ 32
    let down := (l + 2 ^ 32 - q) % 2 ^ 32
    if 1 ≤ up && up < 2 ^ 31 then .new q (if 16 ≤ up then 1 else (a.seqSeen <<< up) ||| 1)
    else if down ≤ 15 then
      if a.seqSeen.getLsbD down then .duplicate else .new l (a.seqSeen ||| BitVec.ofNat 16 (2 ^ down))
    else .stale

/-- A duplicate: the recorded reply of a TAKE or a REGISTER is sent again on a retry, anything else is dropped. -/
def vspDuplicate (s : State) (d : DieId) (a : Agent) (rx : VspRx) (yellow : Bool) : State :=
  let m := rx.bytes
  let g := replyEgr rx yellow
  let again := if (mType m = vtTake || mType m = vtRegister) && bitOf (mFlags m) 1 then a.replies.find? (fun r => r.1 = mSeq m) else none
  match again with
  | some r =>
    let s1 := sendAgent s d a.id r.2.1 2 { g with trump := g.trump && r.2.1 != vtNack } r.2.2
    mirrorVsp (if r.2.1 = vtNack then trumpDone s1 rx.src rx.cls.val else s1) d
  | none => vspDropped s d rx 5

/-! ## Acceptance (R312, R324, R360, R361) -/

/-- The control port recorded for a die. -/
def Agent.portOn (a : Agent) : DieId → Option Nat
  | .cd0 => a.portA
  | .cd1 => a.portB
def Agent.setPortOn (a : Agent) (d : DieId) (p : Nat) : Agent :=
  match d with
  | .cd0 => { a with portA := some p }
  | .cd1 => { a with portB := some p }

/-- A message of an agent passes steps 1 to 4 as new: how it came, its time and port; a move on one die clears VERIFIED. -/
def vspAccepted (s : State) (d : DieId) (a : Agent) (rx : VspRx) : State :=
  let p := rx.src.port.val
  let a1 := ({ a with lastAt := s.ticks, src := rx.src } : Agent).setPortOn rx.src.die p
  let s1 := s.onDie rx.src.die (fun x => agentSeen x (pipeOf p) a.key a.id a.port)
  match a.portOn rx.src.die with
  | some old =>
    if old = p then s1.onDie d (·.setAgent a1)
    else stationEvent (raise (s1.onDie d (·.setAgent { a1 with verified := false })) d 130) d a.key old p (pipeOf p) a.id true
  | none => s1.onDie d (·.setAgent a1)

/-! ## Steps 5 and 6 -/

/-- LENGTH that R315 gives a type an agent may send. -/
def vspLengthOk (m : List Byte) : Bool :=
  let n := mLength m
  if mType m = vtRegister then n = 52
  else if mType m = vtHello then n = 24
  else if mType m = vtBid then n = 32 + 8 * beAt m 24 2
  else if mType m = vtTake then n = 48 + 4 * beAt m 35 1
  else if mType m = vtDeckinfo then n = 24
  else if mType m = vtPortcheck then n = 48
  else true

/-- The reason of step 5 or 6 a message is refused for, with the highest class and the TRUMP permit of its sender. -/
def vspRefusal (m : List Byte) (maxClass : Nat) (trump : Bool) : Option Nat :=
  if !(List.contains [vtRegister, vtHello, vtBid, vtTake, vtDeckinfo, vtPortcheck, vtVendor] (mType m)) then some nackUnsupported
  else if !vspLengthOk m || 8 ≤ mClass m || 4 ≤ mFlags m then some stInvalid
  else if maxClass < mClass m || (mClass m = 7 && !trump) then some nackClass
  else none

/-! ## Registration (R321 to R324) -/

/-- The fields of a REGISTER. -/
structure RegForm where
  reqId : Nat
  port : Nat
  rate : Nat
  maxClass : Nat
  leave : Bool
  slotted : Bool
  helloMs : Nat
  name : List Byte
deriving DecidableEq, Repr

def noPort : Nat := 0x3FF

def regForm (m : List Byte) : RegForm :=
  ⟨beAt m 24 2, beAt m 26 2, beAt m 28 4, beAt m 32 1, bitOf (beAt m 33 1) 0, bitOf (beAt m 33 1) 1, beAt m 34 2, bytesAt m 36 16⟩

/-- A REGISTER keeps to R321. -/
def regOk (m : List Byte) : Bool :=
  let f := regForm m
  (f.reqId < 4096 || f.reqId = 0xFFFF) && (f.port < 512 || f.port = noPort) &&
    (if f.port = noPort then f.rate = 0 else 1 ≤ f.rate && f.rate ≤ 800000) && f.maxClass < 8 && decide (beAt m 33 1 < 4) &&
    10 ≤ f.helloMs && f.helloMs ≤ 10000

/-- INFO and the flag byte of an agent. -/
def Agent.flagBits (a : Agent) : Nat := b2n a.verified + 2 * b2n a.take + 4 * b2n a.trump

/-- The AGENT record (R411). -/
def agentEvent (s : State) (d : DieId) (id code port : Nat) : State :=
  eventShared s d evAgent (leBytes 2 id ++ leBytes 1 code ++ leBytes 2 port)

/-- An agent leaves the registry: its ID is free, its AGENT marks go on both dies (R360), checks no longer wait for it. -/
def agentGone (s : State) (d : DieId) (a : Agent) (code : Nat) : State :=
  let s1 := s.onDie d (fun x =>
    let y := agentCleared x a.id
    let f (c : PortCheck) : PortCheck := { c with agents := c.agents.filter (fun i => i ≠ a.id) }
    { y with vsp := { y.vsp with agents := y.vsp.agents.filter (fun b => b.id ≠ a.id), checks := y.vsp.checks.map f } })
  mirrorVsp (agentEvent (askPeer s1 d (.agentGone a.id)) d a.id code a.port) d

/-- The ID a new agent receives. -/
def newId (x : Die) (req : Nat) : Option Nat :=
  let free (i : Nat) : Bool := (x.agent i).isNone
  if req < 4096 && free req then some req else (List.range 4096).find? free

/-- The entry of a new agent, with all its flags clear. -/
def newAgent (s : State) (d : DieId) (id : Nat) (rx : VspRx) : Agent :=
  let f := regForm rx.bytes
  let a : Agent :=
    { id := id, mac := rx.src.mac, vlan := vspVlan rx.src, domain := mDomain rx.bytes, port := f.port, rate := f.rate, maxClass := f.maxClass,
      slotted := f.slotted, helloMs := f.helloMs, name := f.name, verified := false, take := false, trump := false, seqL := none,
      seqSeen := 0, txSeq := 0, replies := [], lastAt := s.ticks, src := rx.src, portA := none, portB := none, mTake := ⟨0, 0, 0⟩,
      mBid := ⟨0, 0, 0⟩ }
  a.full (s.die d) s.ticks

/-- ACK of a REGISTER, with the assigned ID in AGENT. -/
def registerAck (s : State) (d : DieId) (id : Nat) (rx : VspRx) : State :=
  let info := match (s.die d).agent id with | some a => a.flagBits | none => 0
  answer s d id vtRegister (mSeq rx.bytes) vtAck (replyEgr rx false) rx.src (ackBody vtRegister stOk (mSeq rx.bytes) 0 0 info)

/-- ACK of a LEAVE whose sender is not registered. -/
def leaveStranger (s : State) (d : DieId) (rx : VspRx) : State :=
  let m := rx.bytes
  let msg := vspBytes (mDomain m) vtAck rx.cls.val 0 (mAgent m) (s.free % 2 ^ 32) (s.die d).ns (ackBody vtRegister stOk (mSeq m) 0 0 0)
  trumpDone (sendVsp s.drawn d rx.src rx.cls.val (rx.queue.map (·.val)) false false msg) rx.src rx.cls.val

/-- A REGISTER of a key that is not registered. -/
def registerNew (s : State) (d : DieId) (rx : VspRx) : State :=
  let m := rx.bytes
  let f := regForm m
  match vspRefusal m f.maxClass false with
  | some r => nackStranger s d rx r
  | none =>
    if !regOk m then nackStranger s d rx stInvalid
    else if f.leave then leaveStranger s d rx
    else match newId (s.die d) f.reqId with
      | none => nackStranger s d rx stFull
      | some id =>
        let a := newAgent s d id rx
        let s1 := s.onDie d (fun x => { x with vsp := { x.vsp with agents := x.vsp.agents ++ [a] } })
        registerAck (agentEvent (vspAccepted s1 d a rx) d id 0 a.port) d id rx

/-- An agent that no longer has its port is no longer checked on it (R322). -/
def checksLeave (x : Die) (id : Nat) : Die :=
  { x with vsp := { x.vsp with checks := x.vsp.checks.map (fun (c : PortCheck) => { c with agents := c.agents.filter (fun i => i ≠ id) }) } }

/-- A REGISTER of a registered key, with its changes. -/
def registerAgain (s : State) (d : DieId) (id : Nat) (rx : VspRx) : State :=
  let f := regForm rx.bytes
  match (s.die d).agent id with
  | none => s
  | some a =>
    if !regOk rx.bytes then nackAgent s d id rx (replyEgr rx false) stInvalid
    else if f.leave then
      let s1 := registerAck s d id rx
      match (s1.die d).agent id with | some b => agentGone s1 d b 1 | none => s1
    else
      let same := a.port = f.port && a.rate = f.rate
      registerAck (s.onDie d (fun x => (if a.port = f.port then x else checksLeave x id).setAgent { a with
        port := f.port, rate := f.rate, maxClass := f.maxClass, slotted := f.slotted, helloMs := f.helloMs, name := f.name,
        verified := a.verified && same })) d id rx

/-! ## A message through steps 1 to 6 -/

/-- The sequence judgement of an agent's message, and steps 5 and 6; `f` acts on what passes: state, agent, message, reply form. -/
def vspJudge (s : State) (d : DieId) (a : Agent) (rx : VspRx) (yellow : Bool)
    (f : State → DieId → Nat → VspRx → Egr → State) : State :=
  match judgeSeq a (mSeq rx.bytes) with
  | .duplicate => vspDuplicate s d a rx yellow
  | .stale => vspDropped s d rx 4
  | .new l seen =>
    let s1 := vspAccepted s d { a with seqL := some l, seqSeen := seen } rx
    let g := replyEgr rx yellow
    match vspRefusal rx.bytes a.maxClass a.trump with
    | some r => nackAgent s1 d a.id rx g r
    | none => f s1 d a.id rx g

/-- A message from its queue through the steps of R317, on the Declarer. -/
def vspMessage (rx : VspRx) (f : State → DieId → Nat → VspRx → Egr → State) (s : State) : State :=
  match if (s.die rx.src.die).running then vspEngine s rx else none with
  | none => if (s.die rx.src.die).running then vspWaits s rx else s
  | some d =>
    let s0 := vspTaken s rx
    match vspUnsound rx.bytes with
    | some c => vspDropped s0 d rx c
    | none =>
      if mType rx.bytes = vtRegister then
        match keyAgent (s0.die d) rx with
        | none => registerNew s0 d rx
        | some a => vspJudge s0 d a rx false f
      else
        match msgAgent (s0.die d) rx with
        | none => nackStranger s0 d rx nackUnregistered
        | some a =>
          if mType rx.bytes = vtTake || mType rx.bytes = vtBid then
            let (c, s1) := police s0 d a rx
            if c = 2 then s1
            else
              match (s1.die d).agent a.id with
              | none => s1
              | some b =>
                if c = 1 && mType rx.bytes = vtTake && rx.cls.val = 7 then
                  vspJudge (trumpDone (s1.count d (Reg.TMG_APOL_CNT 4) F.TMG_APOL_CNT_COUNT) rx.src 7) d b { rx with cls := 6 } true f
                else vspJudge s1 d b rx (decide (c = 1)) f
          else vspJudge s0 d a rx false f

/-- REGISTER (R321, R322). -/
def execRegister (rx : VspRx) (s : State) : Host.Outcome State Fault Refusal :=
  done (if mType rx.bytes = vtRegister then vspMessage rx (fun s d id rx _ => registerAgain s d id rx) s else s)

/-! ## Port checks (R325 to R328) -/

/-- The hand in force lights Out p from In p through a static or pinned entry. -/
def loopsBack (x : Die) (p : Nat) : Bool :=
  let e := handAt x.dealer.hand p
  entLit e && entInput e = p && (!x.dealer.part.getLsbD p || x.dealer.pins.getLsbD p)

/-- A pending deal before an instant changes Out p or In p: each is composed after those before it. -/
def portChanges (p lim : Nat) (x : Die) : List Deal → Comp → Bool
  | [], _ => false
  | dl :: l, c =>
    if lim ≤ dl.instant then false
    else
      let c1 := c.deal x dl
      let dark := match dl.kind with | .gatesDark => true | .outDark => true | _ => false
      dark || decide (handAt c.hand.1 p ≠ handAt c1.hand.1 p) || portChanges p lim x l c1

/-- A guard zone that holds In p or Out p, or zone E, is tripped. -/
def portTripped (x : Die) (p : Nat) : Bool :=
  x.lgd.eTripped || (List.range 4).any (fun z => (x.lgd.zone z).state == .tripped &&
    (x.mapBit (Reg.LGD_ZMAP z 0) p || x.mapBit (Reg.LGD_ZMAP z 0) (512 + p)))

/-- The unverified agents of a port. -/
def unverified (x : Die) (p : Nat) : List Nat := (x.vsp.agents.filter (fun a => a.port = p && !a.verified)).map (·.id)

/-- The instants of a check decided now: W0 and W1 in ns, S and the restoring deal as placed. -/
def checkTimes (x : Die) : Nat × Nat × Nat × Die :=
  let w0 := x.ns + 1000000
  let s := placeOwn x (nsInstant (w0 + 100000))
  let y := x.addDeal s (.portCheck 0) [] false none
  (w0, s, placeOwn y (s + nsInstant 20000), y)

/-- A port check is started (R325): conditions judged now. -/
def checkStarts (s : State) (d : DieId) (p : Nat) : Bool :=
  let x := s.die d
  let w1 := nsInstant (x.ns + 1220000)
  !(unverified x p).isEmpty && !x.vsp.checks.any (fun c => c.port = p) && decide (spGet 0 p x.vsp.retryAt ≤ s.ticks) && isWorking x.base &&
    !x.dealer.stopped && loopsBack x p && !portChanges p w1 x x.dealer.pending x.dealer.comp && !portTripped x p &&
    !x.dealer.pending.any (fun dl => decide (dl.kind = .portCheck p))

/-- Body of a PORTCHECK request (R327). -/
def checkBody (c : PortCheck) : List Byte :=
  beBytes 4 c.id ++ beBytes 2 c.port ++ [0, 0] ++ beBytes 8 c.w0 ++ beBytes 8 c.s ++ beBytes 4 20000 ++ beBytes 8 c.w1

/-- A message of the module's own to an agent: its highest class, green. -/
def ownEgr (a : Agent) : Egr := ⟨a.maxClass, none, false, false⟩

/-- Starts a port check where R325 allows one: its deals are placed and its requests sent (R326). -/
def startCheck (s : State) (d : DieId) (p : Nat) : State :=
  if !checkStarts s d p then s
  else
    let x := s.die d
    let t := checkTimes x
    let sh := instantNs t.2.1
    let c : PortCheck := ⟨p, x.vsp.nextCheck, t.1, sh, sh + 120000, false, unverified x p⟩
    let s1 := s.onDie d (fun x =>
      let y := (x.addDeal t.2.1 (.portCheck p) [] false none).addDeal t.2.2.1 (.portCheck p) [] false none
      { y with vsp := { y.vsp with checks := y.vsp.checks ++ [c], nextCheck := y.vsp.nextCheck % (2 ^ 32 - 1) + 1 } })
    let s2 := c.agents.foldl (fun s id => match (s.die d).agent id with
      | some a => sendAgent s d id vtPortcheck 0 (ownEgr a) (checkBody c)
      | none => s) s1
    mirrorVsp (mirrorDealer s2 d) d

/-- Checks are judged for every port with an unverified agent, as at each deal. -/
def startChecks (s : State) : State :=
  match s.serving with
  | none => s
  | some d =>
    if (s.die d).red.takeover.isSome then s
    else
      let ports := ((s.die d).vsp.agents.filter (fun a => !a.verified && decide (a.port < 512))).map (·.port)
      ports.eraseDups.foldl (fun s p => startCheck s d p) s

/-- DEAL_FIRE (R135, R281), with what follows the last gate deal of a class L stop and the port checks judged at each deal. -/
def execDealFire (s : State) : Host.Outcome State Fault Refusal := done (startChecks (shutdownStep (dealFire s)))

/-- A check no longer waits for an agent; it is over when it waits for none and its deals have fired. -/
def checkHeard (x : Die) (p id : Nat) : Die :=
  let f (c : PortCheck) : PortCheck := if c.port = p then { c with agents := c.agents.filter (fun i => i ≠ id) } else c
  let live (c : PortCheck) : Bool := !c.agents.isEmpty || x.dealer.pending.any (fun dl => decide (dl.kind = .portCheck c.port))
  { x with vsp := { x.vsp with checks := (x.vsp.checks.map f).filter live } }

/-- An agent fails a check: VERIFIED clears, and the check is not repeated within 1 s (R328). -/
def checkFailed (s : State) (d : DieId) (p id : Nat) : State :=
  match (s.die d).agent id with
  | none => s
  | some a =>
    let s1 := s.onDie d (fun x =>
      let y := (checkHeard x p id).setAgent { a with verified := false }
      { y with vsp := { y.vsp with retryAt := spPut p (s.ticks + secT) y.vsp.retryAt } })
    agentEvent (raise s1 d 143) d id 4 a.port

/-- A response passes (R328). -/
def checkPasses (x : Die) (c : PortCheck) (m : List Byte) : Bool :=
  let within (t a : Nat) : Bool := decide (a ≤ t + 5000) && decide (t ≤ a + 5000)
  x.ns ≤ c.w1 + 10000000 && decide (c.s ≤ x.ns) && beAt m 28 1 = 0 && within (beAt m 32 8) c.s && within (beAt m 40 8) (c.s + 20000) && !c.dark

/-- PORTCHECK: an agent's response to a running check; any other is ignored (R326, R328). -/
def portcheckResponse (s : State) (d : DieId) (id : Nat) (rx : VspRx) (g : Egr) : State :=
  let m := rx.bytes
  match (s.die d).vsp.checks.find? (fun c => c.id = beAt m 24 4 && c.agents.contains id), (s.die d).agent id with
  | some c, some a =>
    if checkPasses (s.die d) c m then
      let b := { a with verified := true }
      let s1 := agentEvent (s.onDie d (fun x => (checkHeard x c.port id).setAgent b)) d id 3 a.port
      answer s1 d id vtPortcheck (mSeq m) vtAck g rx.src (ackBody vtPortcheck stOk (mSeq m) 0 0 b.flagBits)
    else nackAgent (checkFailed s d c.port id) d id rx g nackCheckFailed
  | _, _ => mirrorVsp (trumpDone s rx.src rx.cls.val) d

def execPortcheck (rx : VspRx) (s : State) : Host.Outcome State Fault Refusal :=
  done (if mType rx.bytes = vtPortcheck then vspMessage rx portcheckResponse s else s)

/-- PORTCHECK_DEADLINE: agents that have not answered by W1 + 10 ms fail; the NACK answers no message, so its REFSEQ is unstated. -/
def checkDeadline (p : Nat) (s : State) : State :=
  match s.serving with
  | none => s
  | some d =>
    match (s.die d).vsp.checks.find? (fun c => c.port = p) with
    | none => s
    | some c =>
      if (s.die d).ns < c.w1 + 10000000 then s
      else
        let s2 := c.agents.foldl (fun s id =>
          let s1 := checkFailed s d p id
          match (s1.die d).agent id with
          | some a => sendAgent s1.drawn d id vtNack 0 (ownEgr a) (nackBody vtPortcheck nackCheckFailed (s1.free % 2 ^ 32))
          | none => s1) s
        mirrorVsp (s2.onDie d (fun x => { x with vsp := { x.vsp with checks := x.vsp.checks.filter (fun e => e.id ≠ c.id) } })) d

def execPortcheckDeadline (port : Fin 512) (s : State) : Host.Outcome State Fault Refusal := done (checkDeadline port.val s)

/-- PORTCHECK_RETRY: the check is repeated, no sooner than 1 s after a failure. -/
def checkRetry (p : Nat) (s : State) : State :=
  match s.serving with
  | some d => if (s.die d).vsp.retryAt.any (fun e => e.1 = p && decide (e.2 ≤ s.ticks)) then startCheck s d p else s
  | none => s

def execPortcheckRetry (port : Fin 512) (s : State) : Host.Outcome State Fault Refusal := done (checkRetry port.val s)

/-! ## HELLO, DECKINFO, VENDOR, silence -/

/-- HELLO: answered with the mode word and the agent's flags; a check of its port is judged (R324, R325). -/
def helloReply (s : State) (d : DieId) (id : Nat) (_rx : VspRx) (g : Egr) : State :=
  match (s.die d).agent id with
  | none => s
  | some a =>
    let s1 := mirrorVsp (sendAgent s d id vtHello 0 g (beBytes 4 ((s.die d).reg Reg.RED_MODE) ++ beBytes 1 a.flagBits ++ [0, 0, 0])) d
    if a.port < 512 && !a.verified then startCheck s1 d a.port else s1

def execHello (rx : VspRx) (s : State) : Host.Outcome State Fault Refusal :=
  done (if mType rx.bytes = vtHello then vspMessage rx helloReply s else s)

/-- The epoch of the current deck. -/
def Die.epochNow (x : Die) : Nat := match x.decks.current with | some r => r.epoch | none => 0

/-- DECKINFO: a query is answered with EVENT 0 (R335). -/
def deckinfoReply (s : State) (d : DieId) (id : Nat) (_rx : VspRx) (g : Egr) : State :=
  mirrorVsp (sendAgent s d id vtDeckinfo 0 g (deckInfoBody (s.die d) 0 (s.die d).epochNow 0)) d

def execDeckinfo (rx : VspRx) (s : State) : Host.Outcome State Fault Refusal :=
  done (if mType rx.bytes = vtDeckinfo then vspMessage rx deckinfoReply s else s)

/-- VENDOR, and any type an agent may not send: NACK UNSUPPORTED (R317, R336). -/
def vendorReply (s : State) (d : DieId) (id : Nat) (rx : VspRx) (g : Egr) : State := nackAgent s d id rx g nackUnsupported

def execVendor (rx : VspRx) (s : State) : Host.Outcome State Fault Refusal :=
  done (if [vtRegister, vtHello, vtBid, vtTake, vtDeckinfo, vtPortcheck].contains (mType rx.bytes) then s
    else vspMessage rx vendorReply s)

/-- AGENT_TIMEOUT: no valid message for 3 × HELLO_MS (R324). -/
def agentTimeout (id : Nat) (s : State) : State :=
  match s.serving with
  | none => s
  | some d =>
    match (s.die d).agent id with
    | some a => if 3 * a.helloMs * msT ≤ s.ticks - a.lastAt then agentGone (raise s d 142) d a 2 else s
    | none => s

def execAgentTimeout (agent : Fin 4096) (s : State) : Host.Outcome State Fault Refusal := done (agentTimeout agent.val s)

/-! ## Bids (R179, R329) -/

/-- The entries of a BID. -/
def bidEntries (m : List Byte) : List BidEntry :=
  (List.range (beAt m 24 2)).map (fun k => ⟨beAt m (34 + 8 * k) 1, beAt m (32 + 8 * k) 2, beAt m (36 + 8 * k) 4⟩)

/-- A BID keeps to R329. -/
def bidOk (m : List Byte) (maxClass : Nat) : Bool :=
  let n := beAt m 24 2
  let l := bidEntries m
  1 ≤ n && n ≤ 128 && allZero (bytesAt m 26 6) && (List.range n).all (fun k => beAt m (35 + 8 * k) 1 = 0) &&
    l.all (fun e => e.out < 512 && e.cls ≤ maxClass && e.cls < 8) && noDup (l.map (fun e => e.out * 8 + e.cls))

/-- The epoch of the running automatic deck that a receive stamp falls in. -/
def bidEpoch (x : Die) (stamp : Nat) : Option Nat :=
  match x.decks.running with
  | some r =>
    if r.desc.auto && decide (r.origin ≤ nsInstant stamp) then
      some ((x.decks.bndFrom r.desc r.origin 0 (nsInstant stamp + 1) - 1) / r.desc.epoch)
    else none
  | none => none

/-- An output that the automatic deck may give: slotted and not pinned. -/
def Die.dealt (x : Die) (out : Nat) : Bool := x.dealer.part.getLsbD out && !x.dealer.pins.getLsbD out

/-- The part of a valid Bid that is used, and how many parts are dropped (R179). -/
def bidUsed (x : Die) (a : Agent) (l : List BidEntry) : List BidEntry × Nat :=
  if !a.verified then ([], 1)
  else if (namedInputs x.dealer.static).contains a.port || (namedInputs x.dealer.pinned).contains a.port then ([], l.length)
  else
    let keep := l.filter (fun e => x.dealt e.out)
    (keep, l.length - keep.length)

/-- BID: never acknowledged; used or dropped under R179. -/
def bidReceived (s : State) (d : DieId) (id : Nat) (rx : VspRx) (g : Egr) : State :=
  match (s.die d).agent id with
  | none => s
  | some a =>
    if !a.slotted || a.port = noPort then nackAgent s d id rx g nackNotPermitted
    else if !bidOk rx.bytes a.maxClass then nackAgent s d id rx g stInvalid
    else
      let s1 := mirrorVsp (trumpDone s rx.src rx.cls.val) d
      match bidEpoch (s.die d) rx.stamp with
      | none => s1
      | some n =>
        let u := bidUsed (s.die d) a (bidEntries rx.bytes)
        let b : Bid := ⟨n, id, a.port, a.rate * 1000000, u.1⟩
        let s2 := shadowed s1 d (·.count Reg.DCK_BID_DROP_CNT F.DCK_BID_DROP_CNT_COUNT u.2)
        mirrorPlanner (s2.onDie d (fun x => { x with planner := { x.planner with
          bids := upsert (fun (e : Bid) => e.epoch = n && e.agent = id) b x.planner.bids } })) d

def execBid (rx : VspRx) (s : State) : Host.Outcome State Fault Refusal :=
  done (if mType rx.bytes = vtBid then vspMessage rx bidReceived s else s)

/-! ## Takes of agents (R331) -/

/-- The take form of a VSP TAKE: the fields of R121 in network order. -/
def vspTakeForm (m : List Byte) : TakeForm :=
  { time := beAt m 24 8, frac := beAt m 32 2, flags := beAt m 34 1, count := beAt m 35 1, cadSel := beAt m 36 1, cadRate := beAt m 40 4,
    cadOfs := signedOf 32 (beAt m 44 4), resOk := allZero (bytesAt m 37 3),
    pairs := (List.range (beAt m 35 1)).map (fun k => (beAt m (48 + 4 * k) 2, beAt m (50 + 4 * k) 2)) }

/-- The end of a frame on its port, TAI ns. -/
def frameEndNs (x : Die) (rx : VspRx) : Nat := rx.stamp + rx.frameLen * 8000 / x.portRate

/-- VSP_TAKE: validated as a ring TAKE is. -/
def vspTake (s : State) (d : DieId) (id : Nat) (rx : VspRx) (g : Egr) : State :=
  match (s.die d).agent id with
  | none => s
  | some a =>
    if !a.take then nackAgent s d id rx g nackNotPermitted
    else
      let f := vspTakeForm rx.bytes
      let trump := if rx.cls.val = 7 then some (rx.src.die, rx.src.port.val) else none
      mirrorVsp (validateTake s d (.vsp rx.src id (mSeq rx.bytes) rx.cls.val (rx.queue.map (·.val)) g.yellow) (0x10 :: List.replicate 63 0) f
        (decide (1 ≤ f.count) && decide (f.count ≤ 128)) trump (frameEndNs (s.die rx.src.die) rx)) d

def execVspTake (rx : VspRx) (s : State) : Host.Outcome State Fault Refusal :=
  done (if mType rx.bytes = vtTake then vspMessage rx vspTake s else s)

end Sys2Proof.Machine
end

