-- ==== Sys2Proof/Machine/Traffic.lean ====
section
/-!
DEFINITION. Control-port traffic (chapter 12): transmission selection, preemption, gate lists, transmit stamps, queue samples, the state
of ports, and the port configuration; with the meanings of their rows.
-/

namespace Sys2Proof.Machine

/-! ## Ports -/

/-- ETH_PORT.MM: 0 off, 1 verifying, 2 ACTIVE, 3 verification failed. -/
def Die.mm (x : Die) (p : Nat) : Nat := x.rf (Reg.ETH_PORT p) F.ETH_PORT_MM
def Die.linkUp (x : Die) (p : Nat) : Bool := x.rf (Reg.ETH_PORT p) F.ETH_PORT_LINK = 2

/-- The preemption state of a port whose link is up, from ETH_MM (R375). -/
def mmStart (x : Die) (p : Nat) : Nat :=
  if !x.rbit (Reg.ETH_MM p) F.ETH_MM_PREEMPT_EN then 0 else if x.rbit (Reg.ETH_MM p) F.ETH_MM_VERIFY_DIS then 2 else 1

/-- No uncorrectable codeword and no FCS error in the last 1 ms (R370). -/
def CPort.quiet (c : CPort) (ticks : Nat) : Bool := match c.lastErr with | none => true | some t => decide (t + msT ≤ ticks)

/-- PORT_LINK_CHANGE: a link comes up, or goes down with what was on its wire. -/
def portLinkChange (d : DieId) (p : Nat) (up : Bool) (s : State) : State :=
  let x := s.die d
  if !x.running || !x.portExists p then s
  else if up then
    if x.linkUp p then s
    else s.onDie d (fun x => ((x.setRf (Reg.ETH_PORT p) F.ETH_PORT_LINK 2).setRf (Reg.ETH_PORT p) F.ETH_PORT_MM (mmStart x p)).setRf
      (Reg.ETH_PORT p) F.ETH_PORT_CLEAN (b2n ((x.cport p).quiet s.ticks)))
  else if !x.linkUp p then s
  else
    (s.onDie d (fun x => (((x.setRf (Reg.ETH_PORT p) F.ETH_PORT_LINK 0).setRf (Reg.ETH_PORT p) F.ETH_PORT_MM 0).setRf (Reg.ETH_PORT p)
      F.ETH_PORT_CLEAN 0).onCport p (fun c => { c with sending := none, held := none }))).count d (Reg.ETH_CNT p 11) F.ETH_CNT_COUNT

def execPortLinkChange (die : DieId) (port : Fin 8) (up : Bool) (s : State) : Host.Outcome State Fault Refusal :=
  done (portLinkChange die port.val up s)

/-- PORT_CLEAN_RESTORED: 1 ms without an error, with LINK up (R370). -/
def portClean (d : DieId) (p : Nat) (s : State) : State :=
  let x := s.die d
  if x.running && x.portExists p && x.linkUp p && (x.cport p).quiet s.ticks then s.setRf d (Reg.ETH_PORT p) F.ETH_PORT_CLEAN 1 else s

def execPortCleanRestored (die : DieId) (port : Fin 8) (s : State) : Host.Outcome State Fault Refusal := done (portClean die port.val s)

/-- MM_VERIFY_RESULT: MAC Merge verification ends (R375). -/
def mmVerify (d : DieId) (p : Nat) (ok : Bool) (s : State) : State :=
  let x := s.die d
  if !x.running || !x.portExists p || x.mm p ≠ 1 then s
  else if ok then s.setRf d (Reg.ETH_PORT p) F.ETH_PORT_MM 2
  else raise ((s.setRf d (Reg.ETH_PORT p) F.ETH_PORT_MM 3).count d (Reg.ETH_CNT p 10) F.ETH_CNT_COUNT) d 141

def execMmVerifyResult (die : DieId) (port : Fin 8) (ok : Bool) (s : State) : Host.Outcome State Fault Refusal :=
  done (mmVerify die port.val ok s)

/-! ## Transmit stamps (R99, R101 to R104) -/

/-- The transmit stamp of a frame that starts `late` ps from now, in 2⁻¹⁶ ns: when its start-of-frame delimiter passes, moved to the pads. -/
def txStamp (x : Die) (p late : Nat) : Nat :=
  (x.ns16 + (late + x.wirePs 8) * 65536 / 1000 + x.rf (Reg.TIM_LAT_TX p) F.TIM_LAT_TX_LAT * 65536 / 1000) / 4096 * 4096

/-- A stamp enters the FIFO, or is discarded (R104). -/
def txCapture (s : State) (d : DieId) (p type seq t : Nat) : State :=
  if 64 ≤ (s.die d).clock.txts.length then raise (s.onDie d (·.onClock (fun c => { c with txtsLost := true }))) d 178
  else s.onDie d (·.onClock (fun c => { c with txts := c.txts ++ [⟨p, type, seq, t⟩] }))

/-- A byte range of a frame replaced. -/
def putBytes (b : List Byte) (at_ : Nat) (v : List Byte) : List Byte := b.take at_ ++ v ++ b.drop (at_ + v.length)

/-- What a frame on a port is to the transmit path: parsed, with the offset of its UDP header and IP version. -/
structure PtpFrame where
  off : Nat
  udp : Bool
  v6 : Bool
deriving DecidableEq, Repr

def ptpFrame (x : Die) (b : List Byte) : Option PtpFrame :=
  let p := parseFrame x.recog ⟨b, 0, false, false, false, 0, 0, false⟩
  if p.has hcPtp then some ⟨p.off, p.has hcUdp, p.has hcIpv6⟩ else none

/-- The receive stamp of a frame that is sent, when its message was received on a control port of the same die (R102). -/
def rxStampOf (x : Die) (b : List Byte) : Option Nat :=
  match ptpFrame x b with
  | none => none
  | some k =>
    match ptpName b k.off with
    | none => none
    | some n => (x.clock.rxStamps.find? (fun e => decide (e.msg = n))).map (·.time)

/-- The negative of a sum, modulo 65,535. -/
def onesNeg (n : Nat) : Nat := 65535 * (n / 65535 + 1) - n

/-- An altered UDP frame is kept valid (R103): over IPv4 the checksum follows the change, a zero one stays; over IPv6 the trailer after
the message takes the difference. None: an IPv6 frame without a trailer. -/
def udpKept (f : PtpFrame) (old new : List Byte) : Option (List Byte) :=
  if !f.udp then some new
  else
    let at_ := f.off
    let c := beAt old (at_ - 2) 2
    let part (l : List Byte) : Nat := onesSum (l.drop at_)
    if !f.v6 then
      if c = 0 then some new
      else
        let v := inetSum ((65535 - c) + part new + onesNeg (part old))
        some (putBytes new (at_ - 2) (beBytes 2 (if v = 0 then 65535 else v)))
    else
      let n := beAt old (at_ + 2) 2
      if beAt old (at_ - 4) 2 < 8 + n + 2 then none
      else
        let w := at_ + n
        let zero := putBytes new w [0, 0]
        let v := inetSum (part zero + onesNeg (part old))
        some (putBytes new w (if (w - at_) % 2 = 0 then beBytes 2 v else beBytes 2 (v % 256 * 256 + v / 256)))

/-- A frame as it leaves a port `late` ps from now, by the mode of its PTP messageType (R101): the state and the bytes sent. -/
def txPtp (s : State) (d : DieId) (p late : Nat) (f : TxFrame) : State × List Byte :=
  let x := s.die d
  match ptpFrame x f.bytes with
  | none => (s, f.bytes)
  | some k =>
    let b := f.bytes
    let type := beAt b k.off 1 % 16
    let seq := beAt b (k.off + 30) 2
    let t := txStamp x p late
    let fallback (s : State) : State := s.count d Reg.TIM_TX_FALLBACK F.TIM_TX_FALLBACK_COUNT
    match x.reg (Reg.TIM_TXMODE p) / 4 ^ type % 4 with
    | 0 => (s, b)
    | 1 => (txCapture s d p type seq t, b)
    | 2 =>
      if type ≠ 0 then (txCapture s d p type seq t, b)
      else
        let ns := t / 65536
        match udpKept k b (putBytes b (k.off + 34) (beBytes 6 (ns / 1000000000) ++ beBytes 4 (ns % 1000000000))) with
        | some b1 => (s, b1)
        | none => (fallback (txCapture s d p type seq t), b)
    | _ =>
      match f.rx with
      | none => (fallback s, b)
      | some r =>
        match udpKept k b (putBytes b (k.off + 8) (beBytes 8 ((beAt b (k.off + 8) 8 + 2 ^ 64 + t - r) % 2 ^ 64))) with
        | some b1 => (s, b1)
        | none => (fallback s, b)

/-! ## Selection (R374, R375, R381, R382) -/

/-- A queue whose frames are express: 31, and those with EXPRESS = 1. -/
def Die.express (x : Die) (p q : Nat) : Bool := q = 31 || x.rbit (Reg.TMG_QCFG p q) F.TMG_QCFG_EXPRESS

/-- Sending time in ps of a whole frame with its overhead. -/
def Die.framePs (x : Die) (p : Nat) (f : TxFrame) : Nat := x.wirePs (x.wireBytes p (frameLen f.bytes))

/-- Head frames of a queue too long for any open period of the list in force (R382). -/
def oversizeHeads (x : Die) (p longest : Nat) : List TxFrame → Nat
  | [] => 0
  | f :: l => if longest ≠ 0 && decide (longest < x.framePs p f) then 1 + oversizeHeads x p longest l else 0

/-- Oversize head frames of a queue are dropped and counted. -/
def dropOversize (s : State) (d : DieId) (p q : Nat) : State :=
  let x := s.die d
  let c := x.cport p
  match c.list with
  | none => s
  | some l =>
    let n := oversizeHeads x p (l.longest q) (c.queue q).frames
    if n = 0 then s
    else
      let s1 := s.onDie d (fun x => (((x.count (Reg.TMG_PCNT p 0) F.TMG_PCNT_COUNT n).count (Reg.TMG_QDROP p q) F.TMG_QDROP_COUNT n).onCport p
        (fun c => c.onQueue q (fun u => { u with frames := u.frames.drop n, sample := { u.sample with drops := u.sample.drops + n } }))))
      raise s1 d 139

/-- A queue may start its head frame (R374, R381). -/
def eligible (x : Die) (p q : Nat) (c : CPort) : Bool :=
  let u := c.queue q
  match u.frames with
  | [] => false
  | f :: _ => q = 31 || (decide (x.framePs p f ≤ c.openFor q x.ps) && (!x.shaped p q || decide (0 ≤ u.credit)))

/-- PRIO of a queue. -/
def Die.prio (x : Die) (p q : Nat) : Nat := x.rf (Reg.TMG_QCFG p q) F.TMG_QCFG_PRIO

/-- The queue the port sends from: 31 first, else the highest PRIO among the eligible, round-robin within it. -/
def chooseQueue (x : Die) (p : Nat) (c : CPort) (expressOnly : Bool) : Option Nat :=
  let ok (q : Nat) : Bool := eligible x p q c && (!expressOnly || x.express p q)
  if ok 31 then some 31
  else
    let l := (List.range 31).filter ok
    let top := l.foldl (fun a q => max a (x.prio p q)) 0
    let m := l.filter (fun q => x.prio p q = top)
    match m.find? (fun q => decide (spGet 0 top c.lastServed ≤ q)) with
    | some q => some q
    | none => m.head?

/-! ## Starting and interrupting frames -/

/-- A queue starts its head frame at a time in ps: it is stamped, counted and sent. -/
def startFrame (s : State) (d : DieId) (p q t : Nat) : State :=
  let x := s.die d
  match ((x.cport p).queue q).frames with
  | [] => s
  | f :: rest =>
    let r := txPtp s d p (t - s.ticks * 1000) f
    let s1 := r.1.onDie d (fun x =>
      (((x.count (Reg.ETH_CNT p 1) F.ETH_CNT_COUNT).count (Reg.TMG_QSENT p q) F.TMG_QSENT_COUNT).onCport p (fun c =>
        let c1 := c.onQueue q (fun u => { u with frames := rest, sample := { u.sample with sent := u.sample.sent + 1 } })
        { c1 with
          sending := some ⟨q, f, t, 0⟩, inflight := if f.trump then c1.inflight - 1 else c1.inflight,
          lastServed := if q = 31 then c1.lastServed else spSet 0 (x.prio p q) (q + 1) c1.lastServed })))
    s1.emit (.frame d p q r.2)

/-- Where a preemptable frame on the wire may be cut: bytes of it sent by then, and the time of the cut with its mCRC; none where
what was sent or what remains would be too short (R375). -/
def cutPoint (x : Die) (p t : Nat) (g : Sending) : Option (Nat × Nat) :=
  let byte := x.wirePs 1
  let start := g.since + 8 * byte
  let n := max (60 + 64 * x.rf (Reg.ETH_MM p) F.ETH_MM_ADD_FRAG) ((t - start + 8 * byte - 1) / (8 * byte) * 8)
  if g.sent + n + 64 ≤ frameLen g.frame.bytes then some (g.sent + n, start + (n + 4) * byte) else none

/-- FRAME_TRANSMIT_START: the port starts the frame its queues give; an express one interrupts a preemptable frame, or goes before one
that was interrupted; without one the interrupted frame continues. -/
def transmitStart (d : DieId) (p : Nat) (s : State) : State :=
  let x0 := s.die d
  if !x0.running || !x0.portExists p || !x0.linkUp p then s
  else
    let t := s.ticks * 1000
    let s1 := s.onDie d (·.onCport p (fun c => (List.range 31).foldl (fun c q => c.bring x0 p q t) (c.ended x0 p t)))
    let s2 := (List.range 31).foldl (fun s q => dropOversize s d p q) s1
    let x := s2.die d
    let c := x.cport p
    match c.sending with
    | some g =>
      if x.mm p ≠ 2 || x.express p g.queue || c.held.isSome then s2
      else
        match chooseQueue x p c true, cutPoint x p t g with
        | some q, some (n, e) =>
          let s3 := (s2.onDie d (fun x => (x.count (Reg.ETH_CNT p 7) F.ETH_CNT_COUNT).onCport p (fun c =>
            { c.charge x p e g with sending := none, held := some { g with since := e, sent := n } }))).emit (.fragment d p n)
          startFrame s3 d p q (e + x.wirePs 12)
        | _, _ => s2
    | none =>
      match chooseQueue x p c c.held.isSome, c.held with
      | some q, _ => startFrame s2 d p q t
      | none, some g =>
        let left := frameLen g.frame.bytes - g.sent
        let s3 := s2.onDie d (·.onCport p (fun c => { c with sending := some { g with since := t }, held := none }))
        if x.wirePs (left + 8) ≤ c.openFor g.queue x.ps then s3
        else raise (s3.count d (Reg.TMG_PCNT p 1) F.TMG_PCNT_COUNT) d 140
      | none, none => s2

def execFrameTransmitStart (die : DieId) (port : Fin 8) (s : State) : Host.Outcome State Fault Refusal :=
  done (transmitStart die port.val s)

/-! ## Gate lists (R379, R380) -/

/-- The number of the schedule's entry at a place in the cycle. -/
def entryAt : List (BitVec 32 × Nat) → Nat → Nat
  | [], _ => 0
  | [_], _ => 0
  | e :: es, pos => if pos < e.2 then 0 else 1 + entryAt es (pos - e.2)

/-- GATE_LIST_ENTRY: the entry in force follows the schedule, once the list has resumed after a step (R97). -/
def gateEntry (d : DieId) (p : Nat) (s : State) : State :=
  let x := s.die d
  match (x.cport p).list with
  | some l => if x.running && !(match l.kept with | some (_, u) => decide (x.ps < u) | none => false) then s.onDie d (·.onCport p (fun c => { c with entry := entryAt l.sched (l.place x.ps) })) else s
  | none => s

def execGateListEntry (die : DieId) (port : Fin 8) (s : State) : Host.Outcome State Fault Refusal := done (gateEntry die port.val s)

/-- The credits of a port's waiting queues are brought up before its list changes. -/
def bringAll (x : Die) (p ticks : Nat) : Die :=
  x.onCport p (fun c => (List.range 31).foldl (fun c q => c.bring x p q (ticks * 1000)) c)

/-- GATE_LIST_START: the list that awaits its start comes in force, or STOP takes effect; its command completes. -/
def gateStart (d : DieId) (p : Nat) (s : State) : State :=
  let x := s.die d
  let c := x.cport p
  if !x.running then s
  else
    match c.stopAt, c.pendList with
    | some (t, cmd), _ =>
      if x.ns < t then s
      else
        finish (s.onDie d (fun x => (bringAll x p s.ticks).onCport p (fun c => { c with list := none, stopAt := none, entry := 0 }))) d cmd
          stOk 0 0 0
    | none, some l =>
      if x.ns < l.start then s
      else
        finish (s.onDie d (fun x => (bringAll x p s.ticks).onCport p (fun c =>
          { c with list := some l, pendList := none, entry := entryAt l.sched (l.place x.ps) }))) d l.cmd stOk 0 0 0
    | none, none => s

def execGateListStart (die : DieId) (port : Fin 8) (s : State) : Host.Outcome State Fault Refusal := done (gateStart die port.val s)

/-! ## Queue samples (R387, R388) -/

/-- A sample added to a queue's record in progress: depth and head-of-line delay. -/
def QSample.add (q : QSample) (dep hol : Nat) : QSample :=
  if q.n = 0 then { q with n := 1, dMin := dep, dMax := dep, dSum := dep, hMin := hol, hMax := hol, hSum := hol }
  else { q with n := q.n + 1, dMin := min q.dMin dep, dMax := max q.dMax dep, dSum := q.dSum + dep, hMin := min q.hMin hol,
                hMax := max q.hMax hol, hSum := q.hSum + hol }

/-- The record of a full run: depth and delay, each min, max and mean. -/
def QSample.means (q : QSample) : List Nat := [q.dMin, q.dMax, q.dSum / q.n, q.hMin, q.hMax, q.hSum / q.n]

/-- One queue is sampled; a full run gives its record to the subscribers. -/
def sampleQueue (d : DieId) (n p q : Nat) (s : State) : State :=
  let x := s.die d
  let u := (x.cport p).queue q
  let hol := match u.frames with | [] => 0 | f :: _ => x.ns - f.entered
  let m := u.sample.add u.depth (min hol (2 ^ 32 - 1))
  let put (s : State) (v : QSample) : State := s.onDie d (·.onCport p (fun c => c.onQueue q (fun u => { u with sample := v })))
  if m.n < n then put s m
  else
    let body := leBytes 8 x.ns ++ leBytes 1 p ++ leBytes 1 q ++ leBytes 2 m.n ++ m.means.flatMap (leBytes 4) ++ leBytes 4 m.drops ++
      leBytes 4 m.sent
    let wants (u : Sub) : Bool := u.ttype = 2 && bitOf u.ports p && bitOf u.queues q
    (List.range 4).foldl (fun s f => (((s.die d).fn f).subs.filter wants).foldl (fun s u => telem s d f 2 u.id 48 body) s)
      (put s { QSample.zero with last := m.means })

/-- QUEUE_SAMPLE: every queue of every existing port. -/
def queueSample (d : DieId) (s : State) : State :=
  let x := s.die d
  if !x.running then s
  else
    let n := max 1 (x.rf Reg.TMG_SAMPLE F.TMG_SAMPLE_N)
    ((List.range 8).filter x.portExists).foldl (fun s p => (List.range 32).foldl (fun s q => sampleQueue d n p q s) s) s

def execQueueSample (die : DieId) (s : State) : Host.Outcome State Fault Refusal := done (queueSample die s)

/-- TMG_SMP_SELECT: the last record of the selected queue. -/
def smpSelect (d : DieId) (p q : Nat) (s : State) : State :=
  if !(s.die d).running then s
  else s.onDie d (fun x =>
    let l := ((x.cport p).queue q).sample.last
    let y := (x.setRf Reg.TMG_SMP_SEL F.TMG_SMP_SEL_PORT p).setRf Reg.TMG_SMP_SEL F.TMG_SMP_SEL_QUEUE q
    { y with net := { y.net with smpSnap := if l.isEmpty then [0, 0, 0, 0, 0, 0] else l } })

def execTmgSmpSelect (die : DieId) (port : Fin 8) (queue : Fin 32) (s : State) : Host.Outcome State Fault Refusal :=
  doneBar die (smpSelect die port.val queue.val) s

/-! ## The port configuration (R367, R368) -/

/-- The register arrays whose first index is a control port. -/
def portArrays : List Nat :=
  [Reg.TMG_OVH 0, Reg.TMG_TPOL 0, Reg.TMG_QCFG 0 0, Reg.TMG_QSLOPE 0 0, Reg.TMG_QLIM 0 0, Reg.TMG_GL_STATUS 0, Reg.TMG_GL_CYCLE 0,
   Reg.TMG_GL_BASE 0, Reg.TMG_QDROP 0 0, Reg.TMG_QSENT 0 0, Reg.TMG_PCNT 0 0, Reg.ETH_PORT 0, Reg.ETH_MM 0, Reg.ETH_CNT 0 0,
   Reg.TIM_TXMODE 0, Reg.TIM_LAT_RX 0, Reg.TIM_LAT_TX 0]

/-- The control port a register word belongs to. -/
def keyPort (key : Nat) : Option Nat :=
  match findReg (key / 0x10000) (key % 0x10000) with
  | some (r, i :: _, _) => if portArrays.contains (regKey (key / 0x10000) r.off) then some i else none
  | _ => none

/-- A port goes down: its queues are flushed as drops, its list and its bucket reset; a command whose list awaited its start ends. -/
def flushPort (s : State) (d : DieId) (p : Nat) : State :=
  let c := (s.die d).cport p
  let s1 := (List.range 32).foldl (fun s q =>
    let n := (c.queue q).frames.length
    if n = 0 then s else s.onDie d (fun x => (x.count (Reg.TMG_QDROP p q) F.TMG_QDROP_COUNT n).onCport p (fun c =>
      c.onQueue q (fun u => { u with frames := [], sample := { u.sample with drops := u.sample.drops + n } })))) s
  let trump := ((List.range 32).map (fun q => ((c.queue q).frames.filter (·.trump)).length)).foldl (· + ·) 0
  let s2 := if (s.die d).linkUp p then s1.count d (Reg.ETH_CNT p 11) F.ETH_CNT_COUNT else s1
  let s3 := s2.onDie d (·.onCport p (fun c =>
    { c with sending := none, held := none, list := none, pendList := none, stopAt := none, entry := 0,
             bucket := CPort.reset.bucket, bucketAt := 0, inflight := c.inflight - trump }))
  match c.pendList, c.stopAt with
  | some l, _ => finish s3 d l.cmd stAborted 0 0 0
  | none, some e => finish s3 d e.2 stAborted 0 0 0
  | none, none => s3

/-- ETH_APPLY: MODE as written takes effect in DARK and SERVICE, else the write is refused. -/
def ethApply (d : DieId) (mode : Nat) (s : State) : State :=
  let x := s.die d
  if !x.running then s
  else
    let s0 := s.setRf d Reg.ETH_CFG F.ETH_CFG_MODE mode
    if x.base ≠ mDark && x.base ≠ mService then s0.setEvent d Reg.ETH_CFG F.ETH_CFG_REFUSED
    else
      let old := x.portExists
      let s1 := ((List.range 8).filter old).foldl (fun s p => flushPort s d p) s0
      s1.onDie d (fun y =>
        let y1 := y.setRf Reg.ETH_CFG F.ETH_CFG_INFORCE mode
        let born (p : Nat) : Bool := y1.portExists p && !old p
        let y2 := y1.porRegs (fun k => match keyPort k with | some p => born p | none => false) (fun _ => true)
        ((List.range 8).filter y2.portExists).foldl (fun y p => y.setReg (Reg.ETH_PORT p) (fput F.ETH_PORT_LINK 0 1)) y2)

def execEthApply (die : DieId) (mode : BitVec 1) (s : State) : Host.Outcome State Fault Refusal := doneBar die (ethApply die mode.toNat) s

end Sys2Proof.Machine
end

