-- ==== Sys2Proof/Machine/View.lean ====
section
/-!
DEFINITION. What a register reads as: its stored word, or the value that the unit behind it gives (the register tables of all chapters).
-/

namespace Sys2Proof.Machine

/-- A register's value with some fields replaced. -/
def overlay (w : Nat) (l : List (Fld × Nat)) : Nat := l.foldl (fun a p => fput p.1 a p.2) w

/-! ## PF0 -/

/-- RST and MTX registers. -/
def viewRst (s : State) (d : DieId) (off i : Nat) : Option Nat :=
  let x := s.die d
  let a := x.aon
  match off with
  | 0x0000 => some (packed [((Config.hifRev d).toNat, 24), (d.num, 8)])
  | 0x0004 => some (Config.pcieLink d).toNat
  | 0x1008 => some (x.watch s.ticks)
  | 0x100C => some (packed [(min 65535 a.standbyS, 16), (min 65535 a.heldS, 0)])
  | 0x1010 => some (packed [(min 255 a.countFault, 24), (min 255 a.countSoft, 16), (min 255 a.countCd, 8), (min 255 a.countMod, 0)])
  | 0x1014 => some (overlay (x.reg Reg.RST_BOOT) [(F.RST_BOOT_FAILED, a.failedSlots.toNat)])
  | 0x1040 => some (bitsOf a.snap.toNat (32 * i + 31) (32 * i))
  | 0x1060 => some (packed [(a.snapKind, 29), (a.snapAt % 2 ^ 29, 0)])
  | 0x2004 =>
    let ms (p : Master → Bool) : Nat := packed ((List.range 8).map (fun m => (b2n (p (x.master m)), m)))
    some (packed [(x.mtx.stuck.toNat, 16), (ms (·.draining), 8), (ms (fun m => m.resetAt.isSome), 0)])
  | 0x2010 => some (overlay (x.reg (Reg.MTX_OUTST i)) [(F.MTX_OUTST_NOW, min 32 (x.master i).outstanding.length)])
  | _ => none

/-- THM registers. -/
def viewThm (s : State) (d : DieId) (off i : Nat) : Option Nat :=
  let x := s.die d
  let t := x.thm
  match off with
  | 0x3000 =>
    let src := match t.good 0, t.good 1 with | some _, some _ => 0 | some _, none => 1 | none, some _ => 2 | none, none => 3
    some (overlay (x.reg Reg.THM_STATUS) [
      (F.THM_STATUS_FAILED, packed ((List.range 11).map (fun k => (b2n (t.sensor k).failed, k)))), (F.THM_STATUS_FAB_SRC, src),
      (F.THM_STATUS_LEVEL_SENSOR, t.levelSensor), (F.THM_STATUS_BUDGET, b2n t.budget), (F.THM_STATUS_CLASS, b2n t.classH),
      (F.THM_STATUS_FROZEN, b2n t.frozen), (F.THM_STATUS_SHUTDOWN, b2n t.shutdown.isSome),
      (F.THM_STATUS_SHUT_H, match t.shutdown with | some h => b2n h.classH | none => x.rf Reg.THM_STATUS F.THM_STATUS_SHUT_H),
      (F.THM_STATUS_LEVEL, t.level)])
  | 0x3010 =>
    -- the fabric temperature in use; of another sensor, the last accepted reading
    let held := if i = 0 then (t.path 0).last.isSome || (t.path 1).last.isSome else (t.path (i + 1)).last.isSome
    let temp : Int := if i = 0 then (match t.fabricTemp with | some r => roundRat r | none => 0) else (t.path (i + 1)).last.getD 0
    some (packed [(b2n held, 31), (b2n (t.sensor i).failed, 30), ((t.sensor i).level, 28), (codeOf 16 temp, 0)])
  | 0x3040 => some (codeOf 16 (roundRat t.oF))
  | 0x3068 => some (packed [(t.power, 16), (t.lit, 0)])
  | 0x3084 => some (s.rs (x.rf Reg.THM_RS_SEL F.THM_RS_SEL_OFFSET / 4 * 4) 4)
  | 0x3088 =>
    let used := (List.range 942).filter (fun k => let l := memRead s.store (rsLog + 32 * k) 32
      !allZero l && decide (leAt l 28 4 = crc32c (l.take 28)))
    some (packed [(b2n s.wear, 31), (b2n (s.benchValid.isNone && !s.benchNone), 30), (used.length, 0)])
  | _ => none

/-- A source holds ERR_N (R470). -/
def Die.holdsErr (x : Die) (i : Nat) : Bool := x.mapBit (Reg.FLT_STICKY 0) i && !x.mapBit (Reg.FLT_MASK 0) i && x.flt.pin.getLsbD i

/-- The unmasked sources whose sticky bit is 1, ascending. -/
def Die.unmasked (x : Die) : List Nat :=
  (List.range 250).filter (fun i => x.mapBit (Reg.FLT_STICKY 0) i && !x.mapBit (Reg.FLT_MASK 0) i)

/-- A control die drives ERR_N low. -/
def Die.errLow (x : Die) : Bool := x.running && (List.range 250).any x.holdsErr

/-- FLT registers. -/
def viewFlt (s : State) (d : DieId) (off i : Nat) : Option Nat :=
  let x := s.die d
  match off with
  | 0x4020 => some (bitsOf x.flt.raw.toNat (32 * i + 31) (32 * i))
  | 0x4080 => some (bitsOf x.flt.promo.toNat (32 * i + 31) (32 * i))
  | 0x40A0 => some (mapWord x.holdsErr i)
  | 0x4100 =>
    let l := x.unmasked
    some (packed [(b2n x.errLow, 31), (b2n (x.running && x.flt.repl != 0), 30), (min 255 l.length, 16), (b2n (!l.isEmpty), 15), (l.headD 0, 0)])
  | 0x4140 => some x.flt.repl.toNat
  | 0x4400 => some (overlay (x.reg (Reg.FLT_SRC i)) [(F.FLT_SRC_PROMOTED, b2n (x.flt.promo.getLsbD i)), (F.FLT_SRC_DOMAIN, (srcDefault i).domain)])
  | _ => none

/-- SVC registers. -/
def viewSvc (s : State) (d : DieId) (off i : Nat) : Option Nat :=
  let v := (s.die d).svc
  match off with
  | 0x6000 => some (packed [(v.level, 30), (b2n v.lockout.isSome, 29), (b2n v.nonce.isSome, 28), (b2n v.busy.isSome, 27), (v.result, 20), (v.fails, 0)])
  | 0x6010 => some (match v.nonce with | some n => bitsOf n.toNat (32 * i + 31) (32 * i) | none => 0)
  | 0x6054 => some (match v.lockout with | some t => (t - s.ticks) / secT | none => 0)
  | 0x6058 => some (packed [(min 65535 v.failed, 16), (min 65535 v.opened, 0)])
  | _ => none

/-- UCS registers. -/
def viewUcs (s : State) (d : DieId) (off i : Nat) : Option Nat :=
  let x := s.die d
  let g := x.eng
  let sel := x.rf Reg.UCS_ENG_SEL F.UCS_ENG_SEL_ENGINE
  let n := g.engine sel
  match off with
  | 0x7004 => some (packed [((g.eng.filter (fun e => e.2.state = 1)).length, 16), (fencedCount x, 0)])
  | 0x7008 => some (packed ((List.range 64).map (fun e => (b2n ((g.engine e).state = 3), e))))
  | 0x701C => some (packed [(n.state, 30), (n.fenceCause, 27), (n.faultCause, 24), (min 15 n.defer, 20), (min 15 (n.faults.filter (fun t => decide (s.ticks < t + secT))).length, 16), (n.tasks % 65536, 0)])
  | 0x7020 => some (packed [(b2n n.faultPc.patch, 31), (n.faultPc.addr, 0)])
  | 0x7040 =>
    let ts := (clusterEngines i).flatMap (fun e => (g.engine e).deque)
    some (packed [(b2n (g.dozing i), 31), (min 1024 ts.length, 16), (min 1024 (ts.filter (fun (t : Task) => decide (t.release ≤ s.ticks))).length, 0)])
  | 0x7088 => some (leNat (memRead g.staged (x.rf Reg.UCS_PATCH_PTR F.UCS_PATCH_PTR_PTR / 4 * 4) 4))
  | 0x708C =>
    some (overlay (x.reg Reg.UCS_PATCH_STATUS) [(F.UCS_PATCH_STATUS_SERIAL, (if g.active = 0 then g.bank0 else g.bank1).serial % 65536)])
  | 0x7100 =>
    let b := if g.active = 0 then g.bank0 else g.bank1
    some (match b.matches_[i]? with | some m => packed [(1, 31), (m.2, 14), (m.1, 0)] | none => 0)
  | _ => none

/-- LGD registers, as the die's unit sees them; LGD_STATUS has its own name because SAFETY_QUERY reads it too. -/
def lgdStatus (s : State) (u : DieId) : Nat :=
  let x := s.die u
  let l := x.lgd
  let zs (v : ZoneState) : Nat := packed ((List.range 4).map (fun z => (b2n (x.zoneEn z && (l.zone z).state == v), z)))
  packed [(b2n (sound s .cd0), 31), (b2n (sound s .cd1), 30), (b2n l.xlink, 29), (b2n l.cfgMatch, 28), (b2n l.eTripped, 27), (b2n l.sd.safe, 26),
    (b2n (x.reg Reg.LGD_FORCE ≠ 0), 25), (packed ((List.range 8).map (fun k => (b2n (l.permit k).granted, k))), 8), (zs .tripped, 4), (zs .ready, 0)]

/-- LGD_PSTAT: granted, the two read-backs with their forces, latched. -/
def lgdPstat (s : State) (u : DieId) : Nat :=
  let x := s.die u
  let ps (p : Permit → Bool) : Nat := packed ((List.range 8).map (fun k => (b2n (p (x.lgd.permit k)), k)))
  packed [(ps (·.granted), 24), (Nat.xor s.pins.permitA.toNat (x.rf Reg.LGD_FORCE F.LGD_FORCE_RB_A), 16),
    (Nat.xor s.pins.permitB.toNat (x.rf Reg.LGD_FORCE F.LGD_FORCE_RB_B), 8), (ps (·.latched), 0)]

/-- LGD_ZONE_z. -/
def lgdZone (s : State) (u : DieId) (z : Nat) : Nat :=
  let x := s.die u
  let v := x.lgd.zone z
  packed [(match v.state with | .untested => 0 | .ready => 1 | .tripped => 2, 30), (b2n (x.closedA z), 29), (b2n (x.closedB z), 28), (b2n v.seenA, 27),
    (b2n v.seenB, 26), (b2n v.disc, 25), (b2n (x.remoteOpen z), 24), (v.trips % 65536, 0)]

/-- LGD_SD_STAT. -/
def lgdSdStat (s : State) (u : DieId) : Nat :=
  let v := (s.die u).lgd.sd
  packed [(v.copies, 30), (b2n v.safe, 29), (v.seq.getD 0, 0)]

def viewLgd (s : State) (u : DieId) (off i : Nat) : Option Nat :=
  let x := s.die u
  let c := x.lgd.conn (x.rf Reg.LGD_CONN_SEL F.LGD_CONN_SEL_CONN)
  match off with
  | 0x8000 => some (lgdStatus s u)
  | 0x8010 => some (lgdZone s u i)
  | 0x8060 => some (lgdPstat s u)
  | 0x8074 => some (lgdSdStat s u)
  | 0x8084 => some c.cfg.toNat
  | 0x8088 => some c.id.toNat
  | 0x8090 => some c.addr.toNat
  | 0x8098 => some (packed [(c.state, 30), (b2n c.shut, 29), (min 65535 c.losses, 0)])
  | 0x80A0 => some (packed [(b2n x.lgd.saving.isSome, 31)])
  | 0x80A8 => some (packed [(b2n s.pins.estopN, 31), (s.pins.guardA.toNat, 4), (s.pins.guardB.toNat, 0)])
  | _ => none

/-- RED registers. -/
def viewRed (s : State) (d : DieId) (off i : Nat) : Option Nat :=
  let x := s.die d
  match off with
  | 0x9008 =>
    let claiming := match x.red.takeover with | some t => t.claimant && t.granted != BitVec.allOnes 8 | none => false
    some (overlay (x.reg Reg.RED_STATUS) [
      (F.RED_STATUS_TOKEN, packed ((List.range 8).map (fun b => (b2n ((s.bank b).holds d), b)))),
      (F.RED_STATUS_CLAIMING, b2n claiming), (F.RED_STATUS_MIRROR, s.mirror.state)])
  | 0x9040 =>
    let w := x.reg (Reg.RED_ESC i)
    let left := (s.esc.filter (fun e => decide (e.dom.num = i) && decide (e.inst = fget F.RED_ESC_INSTANCE w))).foldl (fun a e => max a (e.ends - s.ticks)) 0
    some (overlay w [(F.RED_ESC_WINDOW_MS, min 65535 (left / msT))])
  | _ => none

/-! ## PF1 -/

/-- DLR registers; the earliest pending deal. -/
def Die.nextDealAt (x : Die) : Option Nat := x.dealer.pending.foldl (fun a dl => match a with | some t => some (min t dl.instant) | none => some dl.instant) none

def viewDlr (s : State) (d : DieId) (off i : Nat) : Option Nat :=
  let x := s.die d
  match off with
  | 0x0000 => some (packed [(min 64 x.pendingCnt, 16), (min 4 x.shadowsUsed, 8), (b2n x.routers.trumpBusy, 2), (b2n (x.dealer.pins != 0), 1),
      (b2n (x.isDecl && x.acceptsTakes), 0)])
  | 0x0018 => some (match x.nextDealAt with | some t => instantNs t | none => 0)
  | 0x0020 => some (match x.nextDealAt with | some t => packed [(1, 31), (t % 8 * 8192, 0)] | none => 0)
  | 0x0044 =>
    let n (p : Elem → Bool) : Nat := (x.hold.filter (fun e => isCell e.1 && p e.2)).length
    some (packed [(n (·.deferred), 16), (n (fun el => el.onPin || el.handoff), 0)])
  | 0x0080 => some (bitsOf x.dealer.pins.toNat (32 * i + 31) (32 * i))
  | 0x0400 => some (packed [((handAt x.dealer.hand (2 * i + 1)).toNat, 16), ((handAt x.dealer.hand (2 * i)).toNat, 0)])
  | _ => none

/-- DCK registers; the next boundary of the live deck. -/
def Die.nextBnd (x : Die) : Option Nat :=
  match x.decks.live with
  | some r => if r.desc.ended r.pass && r.desc.endK ≠ some r.pass then none else some (x.decks.runBnd r r.pass)
  | none => none

def viewDck (s : State) (d : DieId) (off i j : Nat) : Option Nat :=
  let x := s.die d
  let dk := x.decks
  match off with
  | 0x1000 =>
    let cur := match dk.current with | some r => (r.slot, r.desc.auto) | none => (0, false)
    let nxt := match dk.next with | some r => (1, r.slot) | none => (0, 0)
    some (packed [(dk.curState, 30), (cur.1, 24), (nxt.1, 23), (nxt.2, 16), (b2n cur.2, 15), (b2n x.deckSkip, 14), (b2n x.deckPaused, 13),
      (b2n x.cal.pend.isSome, 12), (x.rf Reg.DCK_PART_CTRL F.DCK_PART_CTRL_INFORCE, 10),
      (b2n x.dealer.applyPend.isSome, 9), (b2n x.planner.planning.isSome, 8)])
  | 0x1004 =>
    some (match dk.current with
      | some r =>
        (match r.dealt with
        | some k => if r.state = .finished && x.dealer.deckHand.isEmpty then 0 else packed [(1, 31), (k % r.desc.epoch, 16), (r.desc.handNo k, 0)]
        | none => 0)
      | none => 0)
  | 0x1008 => some (match dk.current with | some r => r.epoch % 2 ^ 32 | none => 0)
  | 0x1010 => some (match dk.current with | some r => instantNs r.origin | none => 0)
  | 0x1018 => some (match x.nextBnd with | some t => instantNs t | none => 0)
  | 0x1020 => some (match x.nextBnd with | some t => packed [(1, 31), (t % 8 * 8192, 0)] | none => 0)
  | 0x1024 => some (overlay (x.reg Reg.DCK_PART_CTRL) [(F.DCK_PART_CTRL_PENDING, b2n x.dealer.applyPend.isSome)])
  | 0x1028 => some (match x.cal.pend with
      | some p => packed [(1, 31), (p.left.length, 8), (x.cal.bench.gen % 256, 0)]
      | none => x.cal.bench.gen % 256)
  | 0x102C => some x.routers.fence.toNat
  | 0x104C => some (spGet 0 (x.rf Reg.DCK_LL_SEL F.DCK_LL_SEL_INPUT) dk.late)
  | 0x1058 => some (dk.hand (x.rf Reg.DCK_TLEN_SEL F.DCK_TLEN_SEL_HAND)).tlen
  | 0x1200 => some (bitsOf x.dealer.part.toNat (32 * i + 31) (32 * i))
  | 0x1800 => some (leAt (spGet [] i dk.descs) (4 * j) 4)
  | _ => none

/-- The HLD_EL_STATE word of an element. -/
def elemWord (e : Nat) (el : Elem) (st : Bool) : Nat :=
  packed [(el.mode, 30), (b2n el.fallback, 29), (b2n el.frozen, 28), (b2n el.lost, 27), (b2n el.implausible, 26), (b2n el.miss, 25), (b2n el.sat, 24),
    (b2n st, 23), (b2n (el.balanced e), 22), (b2n el.active, 21), (b2n el.onPin, 20), (b2n el.handoff, 19), (b2n el.peak, 18), (min 15 el.missRun, 12),
    (min 15 el.plausRun, 8), (min 255 el.retries, 0)]

/-- HLD registers. -/
def viewHld (s : State) (d : DieId) (off i : Nat) : Option Nat :=
  let x := s.die d
  let el := x.elSnap
  match off with
  | 0x2000 => some (packed [((~~~ x.eng.doze).toNat, 16), (b2n (1 ≤ x.thm.level), 13), ((x.hold.filter (fun e => e.2.active)).length, 0)])
  | 0x2004 => some (overlay (x.reg Reg.HLD_PERIOD) [(F.HLD_PERIOD_EFF_US, x.effNs / 1000)])
  | 0x2040 =>
    let fb := elemsOf x i (·.fallback)
    some (packed [(b2n (s.bank i).cal.isSome, 31), (b2n (32 < fb), 30), (elemsOf x i (·.implausible), 16), (fb, 0)])
  | 0x2084 => some (elemWord (x.rf Reg.HLD_EL_SEL F.HLD_EL_SEL_ELEMENT) el x.elStale)
  | 0x2098 => some el.meas.word
  | 0x20A0 => some el.err.word
  | 0x20A8 => some el.prop.word
  | 0x20B0 => some el.int.word
  | 0x20B8 => some el.ff.word
  | 0x20C0 => some el.out.word
  | 0x20C8 => some (min 65535 el.missCnt)
  | 0x3000 => some (mapWord (fun e => (x.elem e).fallback) i)
  | 0x3400 => some (mapWord (fun e => (x.elem e).implausible) i)
  | 0x3800 => some (mapWord (fun e => (x.elem e).miss) i)
  | 0x3C00 => some (mapWord (fun e => decide ((x.elem e).mode ≠ 0)) i)
  | _ => none

/-- Outer domains that hold a benched cell (R309). -/
def outerUsed (set : Image) : Nat :=
  (((onesOf set).filter (fun c => !inCentre c)).foldl (fun (t : Sparse Unit) c => spPut (outerDomain c) () t) []).length

/-- The residual crosstalk of the path that serves an output (R304); its formula is not given (log entry 30). -/
def crosstalk (x : Die) (n i : Nat) : Int :=
  let path := pathOf x.dealer.image i
  let cells := path.map (fun p => cellId p.1 (p.2 / 2))
  Config.crosstalk n (cells.map x.cal.figures) (cells.map (cellInUw x x.dealer.image))
    (cells.map (fun c => let e := x.cal.elem c; (e.resp, e.lossA, e.lossB)))

/-- Four bytes of a calibration record read back at OFFSET (R310). -/
def calRead (s : State) (x : Die) : Nat :=
  let w := x.reg Reg.CAL_RD_SEL
  let off := fget F.CAL_RD_SEL_OFFSET w / 4 * 4
  match recordBytes x.cal s.eeprom.serial.toNat (fget F.CAL_RD_SEL_TYPE w) (fget F.CAL_RD_SEL_POINT w) with
  | some l => leAt l off 4
  | none => 0

/-- CAL registers. -/
def viewCal (s : State) (d : DieId) (off i : Nat) : Option Nat :=
  let x := s.die d
  let c := x.cal
  let sel := x.rf Reg.CAL_Q_SEL F.CAL_Q_SEL_CELL
  let valid (img : CalImage) : Nat := packed ((List.range 12).map (fun j => (b2n (pointValid img j), j)))
  match off with
  | 0x8000 => some (overlay (x.reg Reg.CAL_STATUS) [(F.CAL_STATUS_STAGED, b2n c.staging.isSome), (F.CAL_STATUS_COMMIT_PEND, b2n c.commit.isSome),
      (F.CAL_STATUS_FIELD_PEND, b2n (!c.field.isEmpty)), (F.CAL_STATUS_VALID, b2n c.valid)])
  | 0x8008 =>
    let p := (bracket c.active c.useTemp).getD (0, 0)
    some (packed [(p.1, 28), (p.2, 24), (codeOf 24 (roundRat c.tf), 0)])
  | 0x800C =>
    let st := c.staging.getD CalImage.empty
    some (packed [(b2n st.elems.isSome, 29), (b2n st.tables.isSome, 28), (valid st, 16), (b2n c.active.elems.isSome, 13), (b2n c.active.tables.isSome, 12),
      (valid c.active, 0)])
  | 0x8020 => some (packed [(((onesOf c.bench.set).filter (fun e => inCentre e && decide (rowOf e / 32 = i))).length, 16), (regionUsed c.bench.set i, 0)])
  | 0x8040 => some (outerUsed c.bench.set)
  | 0x8084 => let q := c.figures sel; some (packed [(q.2.1, 16), (q.1, 0)])
  | 0x8088 =>
    let q := spFind sel c.quality
    let age := match q with | some v => min 65535 ((s.ticks - v.at_) / (3600 * secT)) | none => Config.neverAge.toNat
    some (packed [(b2n q.isSome, 31), (b2n (c.bench.set.getLsbD sel), 30), (b2n (c.bench.park.getLsbD sel), 29), (b2n (c.qfail.getLsbD sel), 28), (age, 8),
      ((c.figures sel).2.2, 0)])
  | 0x808C => some (codeOf 32 (spGet 0 sel c.trims))
  | 0x8094 =>
    let n := x.rf Reg.CAL_XT_SEL F.CAL_XT_SEL_OUTPUT
    let e := handAt x.dealer.hand n
    some (if entLit e then packed [(1, 31), (codeOf 16 (crosstalk x n (entInput e)), 0)] else 0)
  | 0x80B4 => some (calRead s x)
  | 0x8100 => some (bitsOf c.bench.set.toNat (32 * i + 31) (32 * i))
  | 0x8400 => some (bitsOf c.bench.park.toNat (32 * i + 31) (32 * i))
  | 0x8700 => some (bitsOf c.qfail.toNat (32 * i + 31) (32 * i))
  | _ => none

/-! ## PF2, PF3 and the registers of every function -/

/-- PRS, EPT, TMG and ETH registers. -/
def viewNet (s : State) (d : DieId) (off i j : Nat) : Option Nat :=
  let x := s.die d
  let u := x.pipe i
  let list (p : Nat) : GateList := ((x.cport p).list).getD ⟨[], 0, 0, 0, 0, none⟩
  let selList := list (x.rf Reg.TMG_GL_SEL F.TMG_GL_SEL_PORT)
  let selEntry := selList.entries[x.rf Reg.TMG_GL_SEL F.TMG_GL_SEL_ENTRY]?
  match off with
  | 0x0010 => some (packed [(u.activeBank, 31), (b2n (u.drained 0), 30), (b2n (u.drained 1), 29), (u.epoch % 256, 16), (u.fifo.length, 0)])
  | 0x0110 => some (match x.net.ruleSeen with | some (p, slot) => (spGet Rule.reset slot (x.pipe p).rules).hits | none => 0)
  | 0x2040 => some u.ept.length
  | 0x3200 =>
    let w := x.reg (Reg.TMG_QCFG i j)
    some (if j = 31 then overlay w [(F.TMG_QCFG_SHAPE, 0), (F.TMG_QCFG_EXPRESS, 1)] else w)
  | 0x3E00 =>
    let c := x.cport i
    some (packed [(if c.list.isSome then 2 else 0, 30), (b2n c.pendList.isSome, 29), ((list i).entries.length, 16), (if c.list.isSome then c.entry else 0, 0)])
  | 0x3E04 => some (list i).cycle
  | 0x3E08 => some (list i).base
  | 0x3F04 => some (match selEntry with | some e => (e.1 ||| 0x80000000#32).toNat | none => 0)
  | 0x3F08 => some (match selEntry with | some e => e.2 | none => 0)
  | 0x3F14 => some (x.net.smpSnap.getD 0 0)
  | 0x3F18 => some (x.net.smpSnap.getD 1 0)
  | 0x3F1C => some (x.net.smpSnap.getD 2 0)
  | 0x3F20 => some (x.net.smpSnap.getD 3 0)
  | 0x3F24 => some (x.net.smpSnap.getD 4 0)
  | 0x3F28 => some (x.net.smpSnap.getD 5 0)
  | _ => none

/-- TIM registers. -/
def viewTim (s : State) (d : DieId) (off : Nat) : Option Nat :=
  let x := s.die d
  match off with
  | 0x0000 => some (x.ns % 2 ^ 64)
  | 0x0008 => some (x.ns16 % 65536)
  | 0x0024 => some (if x.isDecl then 0 else x.reg Reg.TIM_SLAVE_OFS)
  | 0x000C => some (overlay (x.reg Reg.TIM_STATUS) [(F.TIM_STATUS_SLAVED, b2n x.isDummy), (F.TIM_STATUS_RUNNING, b2n x.clock.running)])
  | _ => none

/-- A command ring has no descriptor left that it fetched (R397). -/
def Die.ringIdle (x : Die) (f r : Nat) : Bool :=
  (x.ring f r).fetched.isEmpty && !x.cmds.any (fun c => originFn c.origin = some f && originRing c.origin = some r && !c.orphan && !c.adopted)

/-- HIF registers of a function. -/
def viewHif (s : State) (d : DieId) (f off i : Nat) : Option Nat :=
  let x := s.die d
  match off with
  | 0xF004 => some (packed [(b2n x.isDecl, 9), (d.num, 8), (f, 0)])
  | 0xF108 => some (if i < 8 then overlay (x.reg (Reg.HIF_RING_CFG f i)) [(F.HIF_RING_CFG_STOPPED, b2n (x.ringIdle f i))] else x.reg (Reg.HIF_RING_CFG f i))
  | _ => none

/-! ## The whole map -/

/-- The value of a register by its function, offset with all indices 0, and indices; none for a stored one. -/
def viewReg (s : State) (d : DieId) (f off : Nat) (idx : List Nat) : Option Nat :=
  let i := idx.headD 0
  let j := idx.getD 1 0
  if 0xF000 ≤ off then viewHif s d f off i
  else match f with
    | 0 =>
      if off < 0x3000 then viewRst s d off i
      else if off < 0x4000 then viewThm s d off i
      else if off < 0x6000 then viewFlt s d off i
      else if off < 0x7000 then viewSvc s d off i
      else if off < 0x8000 then viewUcs s d off i
      else if off < 0x9000 then viewLgd s d off i
      else viewRed s d off i
    | 1 =>
      if off < 0x1000 then viewDlr s d off i
      else if off < 0x2000 then viewDck s d off i j
      else if off < 0x4000 then viewHld s d off i
      else viewCal s d off i
    | 2 => viewNet s d off i j
    | _ => viewTim s d off

/-- The present value of a register word, whatever captures there are; 0 where there is no register (R16), for a control port that does not
exist (R6), and for queue 31's shaper settings. -/
def viewWord (s : State) (d : DieId) (key : Nat) : Nat :=
  let f := key / 0x10000
  let off := key % 0x10000
  match findReg f off with
  | none => 0
  | some (r, idx, hi) =>
    match keyPort key with
    | some p => if (s.die d).portExists p then (match viewReg s d f r.off idx with | some v => halfOf hi v | none => (s.die d).reg key) else 0
    | none =>
      if f = 1 && decide (0x4000 ≤ r.off) && decide (r.off < 0x8000) then
        let b := idx.headD 0
        (bankRead s d b (off - 0x4000 - 0x800 * b)).getD ((s.die d).reg key)
      else match viewReg s d f r.off idx with
        | some v => halfOf hi v
        | none => (s.die d).reg key

end Sys2Proof.Machine
end

