-- ==== Sys2Proof/Machine/Commands.lean ====
section
/-!
DEFINITION. Descriptors from validation to completion (chapter 13): the order of checks (R401), FENCE, the commands that do not change the
fabric, the host reads of commands, and the meanings of the descriptor rows.
-/

namespace Sys2Proof.Machine

/-! ## Checks (R401, R403, R41) -/

/-- An opcode is known and allowed on a function (R403). -/
def opAllowed (op f : Nat) : Bool :=
  if op = 0x01 || op = 0x58 then true
  else if [0x10, 0x11, 0x18, 0x20, 0x21, 0x22, 0x23, 0x30, 0x31, 0x38, 0x39, 0x3A, 0x78].contains op then f = 1
  else if [0x40, 0x48, 0x50, 0x80].contains op then f = 2
  else if [0x60, 0x68, 0x70].contains op then f = 0
  else false

/-- A non-zero Expert-only field (R25): LOOP_SET (R206), DITHER_RUN (R225), CONV_CAL (R278). -/
def expertFields (d : List Byte) : Bool :=
  let op := dOpcode d
  if op = 0x30 then
    let mode := leAt d 20 1
    (1 ≤ mode && mode ≤ 3) || bitOf (leAt d 21 1) 1 || bitOf (leAt d 21 1) 2 || !zeroRange d 24 29
  else if op = 0x31 then !zeroRange d 16 63
  else if op = 0x78 then bitOf (leAt d 17 1) 0
  else false

/-- The mode rules of R41 accept an opcode. -/
def modeAllows (x : Die) (op : Nat) : Bool :=
  let b := x.base
  if [0x10, 0x11, 0x21, 0x23].contains op then x.acceptsTakes
  else if [0x30, 0x31, 0x39, 0x3A, 0x78].contains op then b = mDark || isWorking b || b = mService
  else 4 ≤ b && b ≤ 9

/-- Steps 1 to 3 of R401 for a descriptor of function f fetched at a time in TAI ns. -/
def firstChecks (x : Die) (f fetchedNs : Nat) (d : List Byte) : Option Nat :=
  if dExpire d ≠ 0 && decide (dExpire d < fetchedNs) then some stTimeout
  else if !opAllowed (dOpcode d) f || !headerOk d then some stInvalid
  else if expertFields d && !x.expert f then some stInvalid
  else none

/-- Steps 4 and 5 of R401, but for the safety rule of a take. A Declarer that yields validates no more (R430). -/
def modeChecks (x : Die) (d : List Byte) : Option Nat :=
  let op := dOpcode d
  if changesFabric op && (!x.isDecl || x.yielding) then some stNotDecl
  else if !modeAllows x op then some stBusy
  else none

/-! ## Starting a command -/

/-- A command that changes the fabric and reads nothing: refused by its own rules, or accepted. -/
def startFabric (s : State) (d : DieId) (o : Origin) (desc : List Byte) : State :=
  let id := (s.die d).nextCmd
  match fabricRefusal s d desc id with
  | some st => complete s d o st 0 0 0
  | none => acceptCmd (s.onDie d (·.addCmd o desc .waiting true)) d id

/-- A command that reads host memory first (R402). -/
def startRead (s : State) (d : DieId) (o : Origin) (desc : List Byte) (addr len : Nat) : State :=
  s.onDie d (fun x => (x.addCmd o desc .reading false).readFor ((originFn o).getD 0) addr len x.nextCmd)

/-- TAKE_BATCH: FORM, NPAIR and ADDR name what to read (R122, R402). -/
def batchReads (desc : List Byte) : Option Nat :=
  let n := leAt desc 48 2
  let form := leAt desc 50 1
  if leAt desc 40 8 % 64 ≠ 0 then none
  else if form = 1 then some 1024
  else if form = 0 && 1 ≤ n && n ≤ 512 then some (4 * n)
  else none

/-- A TAKE_BATCH whose list has been read: its form, and whether its COUNT and reserved bytes are 0. -/
def batchTake (desc data : List Byte) : TakeForm × Bool :=
  let n := leAt desc 48 2
  let pairs := if leAt desc 50 1 = 1 then handPairs data else pairsAt data 0 n
  (takeForm desc 16 pairs, leAt desc 27 1 = 0 && zeroRange desc 51 63)

/-- HAND_READ (R406). -/
def startHandRead (s : State) (d : DieId) (o : Origin) (desc : List Byte) : State :=
  let x := s.die d
  let src := leAt desc 16 1
  let fl := leAt desc 17 1
  let h := leAt desc 18 2
  let addr := leAt desc 24 8
  if 2 ≤ src || 2 ≤ fl || 32768 ≤ h || (src = 0 && h ≠ 0) || !zeroRange desc 20 23 || !zeroRange desc 32 63 || addr % 64 ≠ 0 then
    complete s d o stInvalid 0 0 0
  else
    let stored := spFind h x.decks.hands
    let hand : Hand := if src = 0 then x.dealer.hand else match stored with | some v => v.entries | none => []
    let image : Image := if src = 0 then x.dealer.image else match stored with | some v => v.image | none => 0
    let result := if src = 0 then x.reg Reg.DLR_DEAL_CNT
      else match stored with | some v => (v.gen.getD 0) % 256 | none => 256
    let bytes := (List.range 512).flatMap (fun n => leBytes 2 (handAt hand n).toNat)
    let fn := (originFn o).getD 0
    let s1 := s.emit (.hostWrite d fn addr bytes)
    let s2 := if fl = 1 then s1.emit (.hostWrite d fn (addr + 1024) (imageBytes image)) else s1
    complete s2 d o stOk result 0 0

/-- TELEM_SUB (R407); a new subscription takes the lowest number the function does not use. -/
def startTelemSub (s : State) (d : DieId) (o : Origin) (desc : List Byte) : State :=
  let f := (originFn o).getD 0
  let subs := ((s.die d).fn f).subs
  let op := leAt desc 16 1
  let ttype := leAt desc 17 1
  let id := leAt desc 18 2
  if 2 ≤ op || !zeroRange desc 21 23 || !zeroRange desc 28 63 then complete s d o stInvalid 0 0 0
  else if op = 1 then
    if subs.any (fun u => u.id = id) then
      complete (s.onDie d (·.onFn f (fun n => { n with subs := n.subs.filter (fun u => u.id ≠ id) }))) d o stOk id 0 0
    else complete s d o stInvalid 0 0 0
  else if !(ttype = 2 || ttype = 3) || id ≠ 0 || (ttype = 3 && (!zeroRange desc 20 20 || !zeroRange desc 24 27)) then
    complete s d o stInvalid 0 0 0
  else if 16 ≤ subs.length then complete s d o stFull 0 0 0
  else
    let new := (((List.range 16).map (· + 1)).find? (fun i => !subs.any (fun u => u.id = i))).getD 0
    let u : Sub := ⟨new, ttype, leAt desc 20 1, leAt desc 24 4⟩
    complete (s.onDie d (·.onFn f (fun n => { n with subs := n.subs ++ [u] }))) d o stOk new 0 0

/-- A query's ADDR and reserved bytes are as R409 and R402 ask. -/
def queryOk (desc : List Byte) : Bool := zeroRange desc 16 23 && zeroRange desc 32 63 && leAt desc 24 8 % 64 = 0

/-- The safety status record of a die's unit (R459). -/
def safetyRecord (s : State) (d : DieId) : List Byte :=
  let x := s.die d
  let conns (st : Nat) : Nat := (x.lgd.conns.filter (fun c => c.2.state = st)).length
  padTo 64 (leBytes 8 x.ns ++ leBytes 4 (lgdStatus s d) ++ leBytes 4 (lgdPstat s d) ++
    (List.range 4).flatMap (fun z => leBytes 4 (lgdZone s d z)) ++ leBytes 4 (lgdSdStat s d) ++ leBytes 2 (conns 2) ++ leBytes 2 (conns 3) ++
    leBytes 4 (Config.lgdCrc (lgdConfig x)) ++ leBytes 4 (Config.lgdCrc (lgdConfig (s.die d.peer))) ++ leBytes 4 (x.reg Reg.LGD_REACT))

/-- The health record of a die (R409). -/
def healthRecord (s : State) (d : DieId) : List Byte :=
  let x := s.die d
  let t (i : Nat) : List Byte := leBytes 4 (min (2 ^ 32 - 1) (x.red.totals.getD i 0))
  padTo 64 (leBytes 8 x.ns ++ t 0 ++ t 1 ++ t 2 ++ t 3 ++ leBytes 8 0 ++ leBytes 8 ((viewUcs s d 0x7008 0).getD 0) ++
    leBytes 4 (x.reg Reg.DCK_PLAN_FENCE) ++ leBytes 4 (codeOf 32 x.dummyOfs) ++ leBytes 4 (x.reg Reg.RED_MODE))

/-- SAFETY_QUERY and HEALTH_QUERY. -/
def startQuery (s : State) (d : DieId) (o : Origin) (desc : List Byte) : State :=
  if !queryOk desc then complete s d o stInvalid 0 0 0
  else
    let rec64 := if dOpcode desc = 0x68 then safetyRecord s d else healthRecord s d
    complete (s.emit (.hostWrite d ((originFn o).getD 0) (leAt desc 24 8) rec64)) d o stOk 0 0 0

/-- FRAME_SEND's fields (R416). -/
def frameSendOk (x : Die) (desc : List Byte) : Bool :=
  let n := leAt desc 18 2
  let q := leAt desc 21 1
  leAt desc 16 1 ≤ 7 && x.portExists (leAt desc 16 1) && zeroRange desc 17 17 && 60 ≤ n && decide (n + 4 ≤ x.maxFrame) &&
    leAt desc 20 1 ≤ 6 && (q ≤ 30 || q = 0xFF) && zeroRange desc 22 23 && leAt desc 24 8 % 64 = 0 && zeroRange desc 32 63

/-! ## TAKEOVER (R408) -/

/-- A takeover is under way or waits, on either die (R543). -/
def takeoverBusy (s : State) : Bool :=
  let on (x : Die) : Bool := x.red.takeover.isSome || x.red.waitPeer || x.cmds.any (fun c => decide (c.stage = .takeover))
  on s.cd0 || on s.cd1

/-- TAKEOVER: YIELD on the Declarer, CLAIM on the Dummy, which asks the Declarer to yield. -/
def startTakeover (s : State) (d : DieId) (o : Origin) (desc : List Byte) : State :=
  let x := s.die d
  let top := leAt desc 16 1
  let peerReady := if x.isDecl then readyDummy s d.peer else (s.die d.peer).isDecl
  if 2 ≤ top || !zeroRange desc 17 63 || (top = 0 && x.isDummy) || (top = 1 && x.isDecl) then complete s d o stInvalid 0 0 0
  else if x.role = 0 || x.inResync || !x.peerOk || !peerReady || takeoverBusy s then complete s d o stBusy 0 0 0
  else
    let id := x.nextCmd
    let s1 := s.onDie d (·.addCmd o desc .takeover true)
    if top = 0 then plannedTrigger s1 d (some id) none else askPeer s1 d (.claim id)

/-! ## RULE_COMMIT and TABLE_OP (R352, R363 to R366) -/

/-- SCOPE: the pipelines, PEER, BANK. -/
def scopePipes (desc : List Byte) : List Nat := [0, 1].filter (bitOf (leAt desc (if dOpcode desc = 0x48 then 16 else 18) 1))
def scopePeer (desc : List Byte) : Bool := bitOf (leAt desc (if dOpcode desc = 0x48 then 16 else 18) 1) 2
def scopeBank (desc : List Byte) : Nat := b2n (bitOf (leAt desc 18 1) 3)

/-- RULE_COMMIT's fields. -/
def ruleCommitOk (desc : List Byte) : Bool :=
  let sc := leAt desc 16 1
  sc % 4 ≠ 0 && decide (sc < 8) && leAt desc 17 1 ≤ 1 && leAt desc 18 1 ≤ 1 && zeroRange desc 19 63

/-- FIRST and COUNT of a rule operation. -/
def ruleFirst (desc : List Byte) : Nat := bitsOf (leAt desc 20 4) 11 0
def ruleCount (desc : List Byte) : Nat := bitsOf (leAt desc 20 4) 28 16

/-- The fields of an endpoint-table operation, DATA1 holding the limit of FLUSH_AGED. -/
def tableFields (desc : List Byte) : EptFields :=
  ⟨leAt desc 32 8, leAt desc 40 8, leAt desc 48 4, if leAt desc 17 1 = 5 then leAt desc 20 4 else leAt desc 52 4, leAt desc 56 4, leAt desc 60 4⟩

/-- TABLE_OP's fields, by target (R364). -/
def tableOpOk (desc : List Byte) : Bool :=
  let tgt := leAt desc 16 1
  let op := leAt desc 17 1
  let sc := leAt desc 18 1
  let arg := leAt desc 20 4
  let addr := leAt desc 24 8
  decide (sc < 16) && zeroRange desc 19 19 && addr % 64 = 0 &&
  (if tgt = 0 then
    sc % 4 ≠ 0 && 1 ≤ op && op ≤ 5 && (!(op = 1 || op = 4) || sc % 4 ≠ 3) && (!(op = 1 || op = 4 || op = 5) || addr ≠ 0)
  else if tgt = 1 then
    1 ≤ op && op ≤ 3 && !bitOf sc 2 && bitsOf arg 15 12 = 0 && bitsOf arg 19 19 = 0 && bitsOf arg 31 23 = 0 && zeroRange desc 32 63 &&
      (op ≠ 1 || addr ≠ 0)
  else if tgt = 2 then
    sc % 4 ≠ 0 && (op = 2 || op = 3) && bitsOf arg 15 12 = 0 && bitsOf arg 31 29 = 0 && 1 ≤ ruleCount desc && ruleCount desc ≤ 4096 &&
      decide (ruleFirst desc + ruleCount desc ≤ 4096) && zeroRange desc 32 63 && (op ≠ 2 || addr ≠ 0)
  else false)

/-- Record i of the rules a WRITE read: the rule, and whether its reserved bits are 0 (R366). -/
def ruleRecord (data : List Byte) (i : Nat) : Rule × Bool :=
  let b := bytesAt data (96 * i) 96
  let a := BitVec.ofNat 64 (leAt b 80 8)
  (⟨BitVec.ofNat 320 (leAt b 0 40), BitVec.ofNat 320 (leAt b 40 40), a, bitOf (leAt b 88 1) 0, 0⟩,
    leAt b 88 1 ≤ 1 && zeroRange b 89 95 && !actReserved a)

/-- Every record read is valid. -/
def ruleDataOk (desc data : List Byte) : Bool := (List.range (ruleCount desc)).all (fun i => (ruleRecord data i).2)

/-- The rules of a range written or invalidated in a pipeline's bank, ascending. -/
def ruleRange (desc data : List Byte) (u : Pipe) : Pipe :=
  let b := scopeBank desc
  (List.range (ruleCount desc)).foldl (fun u i =>
    let n := ruleFirst desc + i
    u.setRule b n (if leAt desc 17 1 = 2 then (ruleRecord data i).1 else { u.rule b n with valid := false })) u

/-- The half of an endpoint-table operation on a die: the state, the last fields, the entries deleted and the status. -/
def eptHalf (s : State) (d : DieId) (desc : List Byte) : State × EptFields × Nat × Nat :=
  let op := leAt desc 17 1
  let f0 := tableFields desc
  let r := (scopePipes desc).foldl (fun (a : State × EptFields × Nat × Nat) p =>
    let v := eptOp a.1 d p op f0
    (v.1, v.2.1, a.2.2.1 + v.2.1.d1, if a.2.2.2 = eptOk then v.2.2 else a.2.2.2)) (s, f0, 0, eptOk)
  let st := if r.2.2.2 = eptOk then stOk else if r.2.2.2 = eptFull then stFull else stInvalid
  -- INVALID: nothing was done (R405)
  (if st = stInvalid then s else r.1, r.2.1, r.2.2.1, st)

/-- The half of a RULE_COMMIT, or of a TABLE_OP on tables, on a die: the state, the status and the pipelines whose bank changed. -/
def ruleHalf (s : State) (d : DieId) (desc data : List Byte) : State × Nat × Nat :=
  let x := s.die d
  if dOpcode desc = 0x48 then
    let bank := leAt desc 17 1
    let changed := ((scopePipes desc).filter (fun p => (x.pipe p).activeBank ≠ bank)).foldl (fun a p => a + 2 ^ p) 0
    (s.onDie d (fun x => swapBanks x (leAt desc 16 1 % 4) bank), stOk, changed)
  else if leAt desc 16 1 = 0 then
    let r := eptHalf s d desc
    (r.1, r.2.2.2, 0)
  else if !(scopePipes desc).all (fun p => (x.pipe p).bankWritable (scopeBank desc)) then (s, stBusy, 0)
  else (s.onDie d (fun x => (scopePipes desc).foldl (fun x p => x.onPipe p (ruleRange desc data)) x), stOk, 0)

/-- What a half waits for after it was made (R352). -/
def halfWait (id : Nat) (desc : List Byte) (changed : Nat) (peer remote : Bool) (status : Nat) : RuleWait :=
  ⟨id, changed, 1 - leAt desc 17 1 % 2, dOpcode desc = 0x48 && leAt desc 18 1 = 1 && changed ≠ 0, peer, remote, status⟩

/-- A rule command's local half is made; then it asks the peer where SCOPE says so, and completes or waits. -/
def ruleCommand (s : State) (d : DieId) (id : Nat) : State :=
  match (s.die d).cmd id with
  | none => s
  | some c =>
    let h := ruleHalf s d c.desc c.data
    if h.2.1 ≠ stOk then finish h.1 d id h.2.1 0 0 0
    else
      let ask := scopePeer c.desc
      let reach := decide (s.mirror.state = 2) && (s.die d.peer).running
      let w := halfWait id c.desc h.2.2 (ask && reach) false (if ask && !reach then stDegraded else stOk)
      let s1 := h.1.onDie d (fun x => { x.onCmd id (fun c => { c with stage := .waiting, begun := true }) with
        net := { x.net with ruleWait := x.net.ruleWait ++ [w] } })
      ruleWaits (if ask && reach then askPeer s1 d (.rule id c.desc c.data) else s1) d

/-- The endpoint-table result record (R364). -/
def eptRecord (f : EptFields) : List Byte :=
  padTo 32 (leBytes 8 f.key ++ leBytes 4 f.d0 ++ leBytes 4 f.d1 ++ leBytes 4 f.d2 ++ leBytes 4 f.d3)

/-- READ, SEARCH and FLUSH_AGED answer with a record; FLUSH_AGED asks the peer too where SCOPE says so. -/
def tableRead (s : State) (d : DieId) (o : Origin) (desc : List Byte) : State :=
  let r := eptHalf s d desc
  let flush := leAt desc 17 1 = 5
  if r.2.2.2 ≠ stOk then complete r.1 d o r.2.2.2 0 0 0
  else
    let f : EptFields := if flush then { r.2.1 with d1 := r.2.2.1 } else r.2.1
    let s1 := r.1.emit (.hostWrite d ((originFn o).getD 0) (leAt desc 24 8) (eptRecord f))
    let reach := decide (s.mirror.state = 2) && (s.die d.peer).running
    let id := (s1.die d).nextCmd
    if scopePeer desc && reach then
      let w := halfWait id desc 0 true false stOk
      let s2 := s1.onDie d (fun x => (x.addCmd o desc .waiting true).onCmd id (fun c => { c with result := if flush then r.2.2.1 else 0 }))
      askPeer (s2.onDie d (fun x => { x with net := { x.net with ruleWait := x.net.ruleWait ++ [w] } })) d (.rule id desc [])
    else complete s1 d o (if scopePeer desc then stDegraded else stOk) (if flush then r.2.2.1 else 0) 0 0

/-- The registry record of an agent (R365). -/
def agentRecord (a : Agent) : List Byte :=
  let port (p : Option Nat) : List Byte := leBytes 1 (match p with | some v => 128 + v % 8 | none => 0)
  padTo 64 (leBytes 8 a.key ++ leBytes 2 a.port ++ leBytes 1 a.maxClass ++ leBytes 1 (a.flagBits + 8 * b2n a.slotted) ++ leBytes 4 a.rate ++
    leBytes 2 a.helloMs ++ port a.portA ++ port a.portB ++ leBytes 4 0 ++ padTo 16 a.name)

/-- An operation on the agent registry (R364, R365). -/
def registryOp (s : State) (d : DieId) (o : Origin) (desc : List Byte) : State :=
  let op := leAt desc 17 1
  let arg := leAt desc 20 4
  match (s.die d).agent (bitsOf arg 11 0) with
  | none => complete s d o stInvalid 0 0 0
  | some a =>
    if op = 1 then complete (s.emit (.hostWrite d ((originFn o).getD 0) (leAt desc 24 8) (agentRecord a))) d o stOk 0 0 0
    else if op = 2 then
      let pick (i : Nat) (old : Bool) : Bool := if bitOf arg (20 + i) then bitOf arg (16 + i) else old
      let a1 : Agent := { a with verified := pick 0 a.verified, take := pick 1 a.take, trump := pick 2 a.trump }
      complete (mirrorVsp (s.onDie d (·.setAgent a1)) d) d o stOk 0 0 0
    else complete (agentGone s d a 1) d o stOk 0 0 0

/-- TABLE_OP. -/
def startTableOp (s : State) (d : DieId) (o : Origin) (desc : List Byte) : State :=
  let x := s.die d
  let tgt := leAt desc 16 1
  let op := leAt desc 17 1
  let id := x.nextCmd
  if tgt = 1 && !x.isDecl then complete s d o stNotDecl 0 0 0
  else if !tableOpOk desc then complete s d o stInvalid 0 0 0
  else if tgt = 1 then registryOp s d o desc
  else if tgt = 0 && (op = 1 || op = 4 || op = 5) then tableRead s d o desc
  else if tgt = 2 && !(scopePipes desc).all (fun p => (x.pipe p).bankWritable (scopeBank desc)) then complete s d o stBusy 0 0 0
  else if tgt = 2 && op = 2 then startRead s d o desc (leAt desc 24 8) (96 * ruleCount desc)
  else ruleCommand (s.onDie d (·.addCmd o desc .waiting true)) d id

/-! ## GATE_LIST_LOAD (R378 to R380) -/

/-- The lead time of a gate list, ns. -/
def gateLead : Nat := 2600

/-- GATE_LIST_LOAD's fields. With STOP it names no list. -/
def gateFieldsOk (x : Die) (desc : List Byte) : Bool :=
  let fl := leAt desc 17 1
  let n := leAt desc 18 2
  let cyc := leAt desc 20 4
  leAt desc 16 1 ≤ 7 && x.portExists (leAt desc 16 1) && decide (fl < 8) && decide (fl % 4 ≠ 3) && zeroRange desc 40 63 &&
    leAt desc 32 8 % 64 = 0 &&
    (if bitOf fl 2 then n = 0 else 1 ≤ n && n ≤ 256 && 1000 ≤ cyc && cyc ≤ 1000000000)

/-- The first entry boundary of a list at or after a time in ns. -/
def GateList.boundary (l : GateList) (t : Nat) : Nat := t + toEntry l.sched (l.place (t * 1000)) / 1000

/-- The first whole ns at or after a die's present time. -/
def Die.nsUp (x : Die) : Nat := (x.clock.now + 2 ^ 40 - 1) / 2 ^ 40

/-- Another list of the port awaits its start, or a STOP its boundary. -/
def CPort.gateBusy (c : CPort) : Bool := c.pendList.isSome || c.stopAt.isSome

/-- The list that GATE_LIST_LOAD's entries make, when they are in range. -/
def loadedList (desc data : List Byte) (cmd : Nat) : Option GateList :=
  let es := (List.range (leAt desc 18 2)).map (fun i => (BitVec.ofNat 32 (leAt data (8 * i) 4), leAt data (8 * i + 4) 4))
  if es.all (fun e => 64 ≤ e.2 && e.2 ≤ 1000000000) then
    let base := leAt desc 24 8
    some ⟨es, leAt desc 20 4, base, base, cmd, none⟩
  else none

/-- Where a loaded list starts under its LATE policy; none when it is late under REJECT. -/
def listStarts (x : Die) (late : Nat) (l : GateList) : Option GateList :=
  if x.nsUp + gateLead ≤ l.base then some l
  else if late = 0 then none
  else if late = 1 then some { l with start := l.boundary (x.nsUp + gateLead) }
  else some { l with base := x.ns + gateLead, start := x.ns + gateLead }

/-- GATE_LIST_LOAD before its entries are read; STOP reads none. -/
def startGateList (s : State) (d : DieId) (o : Origin) (desc : List Byte) : State :=
  let x := s.die d
  let p := leAt desc 16 1
  let c := x.cport p
  let id := x.nextCmd
  if !gateFieldsOk x desc then complete s d o stInvalid 0 0 0
  else if c.gateBusy then complete s d o stBusy 0 0 0
  else if bitOf (leAt desc 17 1) 2 then
    let t := x.nsUp + gateLead
    let at_ := match c.list with | some l => l.boundary t | none => t
    s.onDie d (fun x => (x.addCmd o desc .waiting true).onCport p (fun c => { c with stopAt := some (at_, id) }))
  else startRead s d o desc (leAt desc 32 8) (8 * leAt desc 18 2)

/-- GATE_LIST_LOAD with its entries read. -/
def gateListRead (s : State) (d : DieId) (c : Cmd) : State :=
  let x := s.die d
  let p := leAt c.desc 16 1
  match loadedList c.desc c.data c.id with
  | none => finish s d c.id stInvalid 0 0 0
  | some l =>
    if (x.cport p).gateBusy then finish s d c.id stBusy 0 0 0
    else match listStarts x (leAt c.desc 17 1 % 4) l with
      | none => finish s d c.id stLate 0 0 0
      | some l1 => s.onDie d (fun x => (x.onCmd c.id (fun c => { c with stage := .waiting, begun := true })).onCport p (fun u =>
          { u with pendList := some l1 }))

/-! ## Validation (R400, R401) -/

/-- Step 6 of R401: a descriptor that the common checks let through. -/
def startCommand (s : State) (d : DieId) (o : Origin) (desc : List Byte) : State :=
  let x := s.die d
  let op := dOpcode desc
  let id := x.nextCmd
  let no (st : Nat) : State := complete s d o st 0 0 0
  if op = 0x01 then no (if zeroRange desc 16 63 then stOk else stInvalid)
  else if op = 0x10 then
    let t := ringTake desc
    validateTake s d o desc t.1 (t.2 && zeroRange desc (40 + 4 * leAt desc 27 1) 63) none 0
  else if op = 0x11 then
    match batchReads desc with
    | none => no stInvalid
    | some n => startRead s d o desc (leAt desc 40 8) n
  else if op = 0x18 then startHandRead s d o desc
  else if op = 0x20 then
    match deckLoadRefusal x desc id with
    | some st => no st
    | none => startRead s d o desc (leAt desc 24 8) (1024 * loadCount desc)
  else if op = 0x38 then
    match calLoadRefusal x desc with
    | some st => no st
    | none => startRead s d o desc (leAt desc 16 8) (leAt desc 24 4)
  else if op = 0x40 then startTableOp s d o desc
  else if op = 0x48 then
    if ruleCommitOk desc then ruleCommand (s.onDie d (·.addCmd o desc .waiting true)) d id else no stInvalid
  else if op = 0x50 then startGateList s d o desc
  else if op = 0x58 then startTelemSub s d o desc
  else if op = 0x60 then startTakeover s d o desc
  else if op = 0x68 || op = 0x70 then startQuery s d o desc
  else if op = 0x80 then
    if frameSendOk x desc then startRead s d o desc (leAt desc 24 8) (leAt desc 18 2) else no stInvalid
  else startFabric s d o desc

/-- Steps 4 to 6 of R401. -/
def checkedStart (s : State) (d : DieId) (o : Origin) (desc : List Byte) : State :=
  match modeChecks (s.die d) desc with
  | some st => complete s d o st 0 0 0
  | none => startCommand s d o desc

/-- A command in flight came by a ring; the ones of a function reset or taken over do not count. -/
def Cmd.ofRing (c : Cmd) (f r : Nat) : Bool := originFn c.origin = some f && originRing c.origin = some r && !c.orphan && !c.adopted

/-- Validates one descriptor. With FENCE it starts once its ring has no earlier command in flight (R399). -/
def validate (s : State) (d : DieId) (f r fetch fetchedNs : Nat) (desc : List Byte) : State :=
  let x := s.die d
  let o := descOrigin f r fetch desc
  match firstChecks x f fetchedNs desc with
  | some st => complete s d o st 0 0 0
  | none =>
    match modeChecks x desc with
    | some st => complete s d o st 0 0 0
    | none =>
      if flFence (dFlags desc) && x.cmds.any (·.ofRing f r) then s.onDie d (·.addCmd o desc .fenced false)
      else startCommand s d o desc

/-- The first fenced command whose ring has no earlier command in flight. -/
def Die.fenceFree (x : Die) : Option Cmd :=
  x.cmds.find? (fun c => decide (c.stage = .fenced) && !(changesFabric (dOpcode c.desc) && x.taking) &&
    !(x.cmds.takeWhile (fun (e : Cmd) => e.id ≠ c.id)).any (fun e => originFn e.origin = originFn c.origin &&
      originRing e.origin = originRing c.origin && !e.orphan && !e.adopted))

/-- A fenced command starts; those fenced behind it stay behind it. -/
def startFenced (s : State) (d : DieId) (c : Cmd) : State :=
  let s1 := checkedStart (s.onDie d (fun x => { x with cmds := x.cmds.filter (fun (e : Cmd) => e.id ≠ c.id) })) d c.origin c.desc
  let behind (e : Cmd) : Bool := decide (e.stage = .fenced) && decide (originRing e.origin = originRing c.origin) &&
    decide (originFn e.origin = originFn c.origin)
  s1.onDie d (fun x => { x with cmds := x.cmds.filter (fun e => !behind e) ++ x.cmds.filter behind })

/-- A ring waits: a command of it that changes the fabric has data to read, or its head is one while the die takes over (R26, R429). -/
def Die.ringStalls (x : Die) (f r : Nat) (head : List Byte) : Bool :=
  x.cmds.any (fun c => c.ofRing f r && decide (c.stage = .reading) && changesFabric (dOpcode c.desc)) ||
    (x.taking && changesFabric (dOpcode head))

/-- The next descriptor to validate among the rings of a priority: function, ring, fetch count, fetch time and bytes; round-robin after
the ring served last. -/
def Die.nextHead (x : Die) (prio last : Nat) : Option (Nat × Nat × Nat × Nat × List Byte) :=
  ((List.range 32).map (fun i => (last + 1 + i) % 32)).findSome? (fun k =>
    let f := k / 8
    let r := k % 8
    match (x.ring f r).fetched with
    | e :: _ => if x.rf (Reg.HIF_RING_CFG f r) F.HIF_RING_CFG_PRIO = prio && !x.ringStalls f r e.2.2 then some (f, r, e) else none
    | [] => none)

/-- DESCRIPTOR_VALIDATE: a fenced command that may start, or one descriptor of the ring whose turn it is. -/
def descriptorValidate (d : DieId) (s : State) : State :=
  let x := s.die d
  if !x.running || decide (x.base < 3) then s
  else match x.fenceFree with
    | some c => startFenced s d c
    | none =>
      let pick := match x.nextHead 1 x.lastHigh with
        | some h => some (h, true)
        | none => (x.nextHead 0 x.lastLow).map (fun h => (h, false))
      match pick with
      | none => s
      | some ((f, r, fetch, at_, desc), high) =>
        let s1 := s.onDie d (fun x => ({ x with lastHigh := if high then 8 * f + r else x.lastHigh,
                                                lastLow := if high then x.lastLow else 8 * f + r }).onRing f r (fun g =>
          { g with fetched := g.fetched.drop 1 }))
        validate s1 d f r fetch at_ desc

def execDescriptorValidate (die : DieId) (s : State) : Host.Outcome State Fault Refusal := done (descriptorValidate die s)

/-! ## The rows of the ring commands: a descriptor with the row's opcode, fetched now and validated in its turn -/

/-- A descriptor reaches its ring's engine; with nothing before it, it is validated at once. -/
def ringCommand (op : Nat) (q : RingRef) (desc : List Byte) (s : State) : State :=
  let x := s.die q.die
  let f := q.fn.val
  let r := q.ring.val
  let g := x.ring f r
  let bytes := (padTo 64 desc).set 0 (BitVec.ofNat 8 op)
  if !x.running || decide (x.base < 3) then s
  else if !g.fetched.isEmpty || x.ringStalls f r bytes then
    s.onDie q.die (·.onRing f r (fun g => { g with fetched := g.fetched ++ [(g.modCnt.toNat, x.ns, bytes)] }))
  else validate s q.die f r g.modCnt.toNat x.ns bytes

def execNop (q : RingRef) (desc : List Byte) (s : State) : Host.Outcome State Fault Refusal := done (ringCommand 0x01 q desc s)
def execTake (q : RingRef) (desc : List Byte) (s : State) : Host.Outcome State Fault Refusal := done (ringCommand 0x10 q desc s)
def execTakeBatch (q : RingRef) (desc : List Byte) (s : State) : Host.Outcome State Fault Refusal := done (ringCommand 0x11 q desc s)
def execHandRead (q : RingRef) (desc : List Byte) (s : State) : Host.Outcome State Fault Refusal := done (ringCommand 0x18 q desc s)
def execDeckLoad (q : RingRef) (desc : List Byte) (s : State) : Host.Outcome State Fault Refusal := done (ringCommand 0x20 q desc s)
def execDeckArm (q : RingRef) (desc : List Byte) (s : State) : Host.Outcome State Fault Refusal := done (ringCommand 0x21 q desc s)
def execDeckStop (q : RingRef) (desc : List Byte) (s : State) : Host.Outcome State Fault Refusal := done (ringCommand 0x22 q desc s)
def execDeckSwap (q : RingRef) (desc : List Byte) (s : State) : Host.Outcome State Fault Refusal := done (ringCommand 0x23 q desc s)
def execLoopSet (q : RingRef) (desc : List Byte) (s : State) : Host.Outcome State Fault Refusal := done (ringCommand 0x30 q desc s)
def execDitherRun (q : RingRef) (desc : List Byte) (s : State) : Host.Outcome State Fault Refusal := done (ringCommand 0x31 q desc s)
def execCalLoad (q : RingRef) (desc : List Byte) (s : State) : Host.Outcome State Fault Refusal := done (ringCommand 0x38 q desc s)
def execCalCommit (q : RingRef) (desc : List Byte) (s : State) : Host.Outcome State Fault Refusal := done (ringCommand 0x39 q desc s)
def execTalonSubst (q : RingRef) (desc : List Byte) (s : State) : Host.Outcome State Fault Refusal := done (ringCommand 0x3A q desc s)
def execTableOp (q : RingRef) (desc : List Byte) (s : State) : Host.Outcome State Fault Refusal := done (ringCommand 0x40 q desc s)
def execRuleCommit (q : RingRef) (desc : List Byte) (s : State) : Host.Outcome State Fault Refusal := done (ringCommand 0x48 q desc s)
def execGateListLoad (q : RingRef) (desc : List Byte) (s : State) : Host.Outcome State Fault Refusal := done (ringCommand 0x50 q desc s)
def execTelemSub (q : RingRef) (desc : List Byte) (s : State) : Host.Outcome State Fault Refusal := done (ringCommand 0x58 q desc s)
def execTakeover (q : RingRef) (desc : List Byte) (s : State) : Host.Outcome State Fault Refusal := done (ringCommand 0x60 q desc s)
def execSafetyQuery (q : RingRef) (desc : List Byte) (s : State) : Host.Outcome State Fault Refusal := done (ringCommand 0x68 q desc s)
def execHealthQuery (q : RingRef) (desc : List Byte) (s : State) : Host.Outcome State Fault Refusal := done (ringCommand 0x70 q desc s)
def execConvCal (q : RingRef) (desc : List Byte) (s : State) : Host.Outcome State Fault Refusal := done (ringCommand 0x78 q desc s)
def execFrameSend (q : RingRef) (desc : List Byte) (s : State) : Host.Outcome State Fault Refusal := done (ringCommand 0x80 q desc s)

/-! ## Host reads (R402) -/

/-- A command that has all its data goes on. -/
def dataComplete (s : State) (d : DieId) (c : Cmd) : State :=
  let op := dOpcode c.desc
  if op = 0x11 then
    let t := batchTake c.desc c.data
    validateTake (s.onDie d (fun x => { x with cmds := x.cmds.filter (fun (e : Cmd) => e.id ≠ c.id) })) d c.origin c.desc t.1 t.2 none 0
  else if op = 0x20 then if deckDataOk c.desc c.data then acceptCmd s d c.id else finish s d c.id stInvalid 0 0 0
  else if op = 0x38 then
    match stagedWith s d c.data with
    | some _ => acceptCmd s d c.id
    | none => finish s d c.id stInvalid 0 0 0
  else if op = 0x40 then if ruleDataOk c.desc c.data then ruleCommand s d c.id else finish s d c.id stInvalid 0 0 0
  else if op = 0x50 then gateListRead s d c
  else
    let q := leAt c.desc 21 1
    let f : TxFrame := ⟨c.data, false, 0, rxStampOf (s.die d) c.data, false⟩
    let r := egress s d (leAt c.desc 16 1) (leAt c.desc 20 1) (if q = 0xFF then none else some q) false f
    finish r.1 d c.id (if r.2 then stOk else stBusy) 0 0 0

/-- Data that a command asked for: appended; DECK_LOAD reads its trick lengths after its hands. -/
def commandData (s : State) (d : DieId) (h : HostRead) (bytes : List Byte) : State :=
  match (s.die d).cmd h.cmd with
  | none => s
  | some c =>
    let c1 : Cmd := { c with data := c.data ++ padTo h.len bytes }
    let s1 := s.onDie d (·.setCmd c1)
    let taddr := leAt c.desc 32 8
    if dOpcode c.desc = 0x20 && taddr ≠ 0 && c.data.isEmpty then s1.onDie d (·.readFor h.fn taddr (4 * loadCount c.desc) c.id)
    else dataComplete s1 d c1

/-- HOST_READ_COMPLETE: data, or a read that failed. Descriptors of a ring arrive in ring order. -/
def hostReadComplete (d : DieId) (id : Nat) (data : Option (List Byte)) (s : State) : State :=
  let x := s.die d
  match x.reads.find? (fun h => h.id = id) with
  | none => s
  | some h =>
    let first := h.ring = 8 || (match x.reads.find? (fun e => e.fn = h.fn && e.ring = h.ring) with | some e => e.id = id | none => false)
    if !x.running || !first then s
    else
      let s1 := s.onDie d (fun x => { x with reads := x.reads.filter (fun e => e.id ≠ id) })
      match h.ring, data with
      | 8, some bytes => commandData s1 d h bytes
      | 8, none => finish s1 d h.cmd stInvalid 0 0 0
      | _, some bytes => descriptorFetched s1 d h bytes
      | r, none => ringError s1 d h.fn r

def execHostReadComplete (die : DieId) (read : Nat) (data : Option (List Byte)) (s : State) : Host.Outcome State Fault Refusal :=
  done (hostReadComplete die read data s)

end Sys2Proof.Machine
end

