-- ==== Sys2Proof/Machine/RegFile.lean ====
section
/-!
DEFINITION. Register accesses (R13 to R22, R541): what each register does when it is written, captures, read-to-clear counters; the bus
matrix's responses, which reach the registers too; the service path; requests from the peer over the mirror link.
-/

namespace Sys2Proof.Machine

/-! ## Writes of one word, by block -/

/-- SVC_CTRL.OP (R514 to R519). -/
def svcCtrl (d : DieId) (op : Nat) (s : State) : State :=
  let s1 := s.onDie d (·.onSvc (fun v => { v with lastAccess := s.ticks }))
  if op = opLock then svcLock d s1
  else if op = opUnlock1 || op = opChallenge || op = opUnlock2 || op = opSetPw then svcStart op d s1
  else s1

/-- UCS_PATCH_CTRL: the actions asked for, in ascending bit order. -/
def patchCtrl (d : DieId) (v : Nat) (s : State) : State :=
  let s1 := if bitOf v 0 then patchVerify d s else s
  let s2 := if bitOf v 1 then patchActivate d s1 else s1
  if bitOf v 2 then patchClear d s2 else s2

/-- The bits of word w that belong to listed fault sources: the others read 0 and ignore writes (R462). -/
def listedBits (w v : Nat) : Nat :=
  ((List.range 32).filter (fun i => bitOf v i && !srcReserved (32 * w + i))).foldl (fun a i => a + 2 ^ i) 0

/-- A write to a register of PF0: key, offset with index 0, index. -/
def writeMgmt (s : State) (d : DieId) (key off i v : Nat) : State :=
  match off with
  | 0x1004 => softwareReset d v s
  | 0x1014 => if bitOf v 31 then bootStarted d s else s
  | 0x2000 => if bitOf v 0 then remapSet d s else s
  | 0x2080 => mrstWrite d (v % 256) s
  | 0x3060 => if bitOf v 0 then thmRelease d s else s
  | 0x4000 => stickyClear d i v s
  | 0x4040 => putWord s d key (listedBits i v)
  | 0x4060 => forceWrite d i v s
  | 0x4400 => srcWrite d i v s
  | 0x6004 => svcCtrl d (v % 16) s
  | 0x6020 => s.onDie d (·.onSvc (fun u => { u with resp := u.resp.take (4 * i) ++ leBytes 4 v ++ u.resp.drop (4 * i + 4) }))
  | 0x6040 => s.onDie d (·.onSvc (fun u => { u with pw := u.pw.take (4 * i) ++ leBytes 4 v ++ u.pw.drop (4 * i + 4) }))
  | 0x7080 => patchCtrl d v s
  | 0x7088 => patchData d v s
  | 0x8004 => lgdWrite s d key v
  | 0x8020 => lgdWrite s d key v
  | 0x8040 => lgdWrite s d key v
  | 0x8070 => lgdWrite s d key v
  | 0x8100 => lgdWrite s d key v
  | 0x8084 => connWrite s d (fun c => { c with cfg := BitVec.ofNat 32 (fieldBits key v) })
  | 0x8088 => connWrite s d (fun c => { c with id := BitVec.ofNat 32 (fieldBits key v) })
  | 0x80A0 => if bitOf v 0 then lgdSave d s else s
  | 0x80A4 => lgdForce d v s
  | 0x9004 =>
    modeReq d (v % 16) (if fget F.RED_MODE_REQ_REFUSED ((s.die d).clearing key v) = 1 then s.setRf d Reg.RED_MODE_REQ F.RED_MODE_REQ_REFUSED 0 else s)
  | _ => putWord s d key v

/-- HLD_EL_STATE: MISS and SAT of the selected element clear, in its snapshot too. -/
def elStateClear (s : State) (d : DieId) (v : Nat) : State :=
  let f (el : Elem) : Elem :=
    { el with miss := el.miss && (fget F.HLD_EL_STATE_MISS v = 0 || el.missAt == some s.ticks),
              sat := el.sat && (fget F.HLD_EL_STATE_SAT v = 0 || el.satAt == some s.ticks) }
  s.onDie d (fun x =>
    let y := x.onElem (x.rf Reg.HLD_EL_SEL F.HLD_EL_SEL_ELEMENT) f
    { y with elSnap := f y.elSnap })

/-- Bits of word w of a bank die's bitmap clear. -/
def mapClear (t : Sparse Bool) (w v : Nat) (still : Nat → Bool) : Sparse Bool :=
  ((List.range 32).filter (bitOf v)).foldl (fun t i => spSet false (32 * w + i) (still (32 * w + i)) t) t

/-- A bank die's W1C bits take a write over the die's link (R266). -/
def bankClear (s : State) (d : DieId) (b : Nat) (f : Bank → Bank) : State := if (s.bank b).up d then s.onBank b f else s

/-- A write to a register of PF1: key, offset with all indices 0, indices. -/
def writeFabric (s : State) (d : DieId) (key off i j v : Nat) : State :=
  match off with
  | 0x1024 => if bitOf v 2 then partApply d (v % 4) s else putWord s d key v
  | 0x2080 => elSelect d (v % 8192) s
  | 0x2084 => elStateClear s d v
  | 0x2088 => elCtrl d v s
  | 0x4004 => bankClear s d i (fun k => let c := k.clearing 0x4 v
      { k with pmiss := k.pmiss && fget F.BNK_STATUS_PMISS c = 0, followed := k.followed && fget F.BNK_STATUS_FOLLOWED c = 0 })
  | 0x400C => gainModeWrite d i (v % 4) s
  | 0x4040 => chSelect d i (v % 1024) s
  | 0x4060 => manWrite d i v s
  | 0x40C0 => probeSnap d i (v % 16) (bitOf v 4) s
  | 0x4100 => bankClear s d i (fun k => { k with short := mapClear k.short j (k.clearing (0x100 + 4 * j) v) (fun l => (k.chan l).short) })
  | 0x4180 => bankClear s d i (fun k => { k with drvf := mapClear k.drvf j (k.clearing (0x180 + 4 * j) v) (fun l => (k.chan l).driveFault) })
  | 0x8004 => judgeAll (putWord s d key v) d
  | 0x8010 => judgeAll (putWord s d key v) d
  | 0x8080 => if v % 8192 < 4864 then putWord s d key v else s
  | _ => putWord s d key v

/-- EPT_CMD: PIPE, and an operation that OP names (R363). -/
def eptCmd (s : State) (d : DieId) (v : Nat) : State :=
  if (s.die d).net.eptBusy.isSome then s
  else if v % 8 = 0 then s.setRf d Reg.EPT_CMD F.EPT_CMD_PIPE (fget F.EPT_CMD_PIPE v)
  else eptStart d (v % 8) (fget F.EPT_CMD_PIPE v) s

/-- TMG_QCFG: queue 31's fields are fixed; enabling a shaper starts its credit at 0 (R377). -/
def qcfgWrite (s : State) (d : DieId) (key p q v : Nat) : State :=
  if q = 31 then s
  else
    let s1 := putWord s d key v
    if !(s.die d).shaped p q && (s1.die d).shaped p q then
      s1.onDie d (·.onCport p (fun c => c.onQueue q (fun u => { u with credit := 0, creditAt := s.ticks * 1000 })))
    else s1

/-- ETH_MM: the verification state of a port whose link is up follows (R375). -/
def mmWrite (s : State) (d : DieId) (key p v : Nat) : State :=
  (putWord s d key v).onDie d (fun x => if x.linkUp p then x.setRf (Reg.ETH_PORT p) F.ETH_PORT_MM (mmStart x p) else x)

/-- A write to a register of PF2. -/
def writeNet (s : State) (d : DieId) (key off i j v : Nat) : State :=
  let ept : State := if (s.die d).net.eptBusy.isSome then s else putWord s d key v
  match off with
  | 0x0104 =>
    if v % 4 = 1 then s.onDie d ruleWrite else if v % 4 = 2 then s.onDie d ruleRead
    else if v % 4 = 3 then s.onDie d ruleInvalidate else s
  | 0x2000 => eptCmd s d v
  | 0x2018 => ept
  | 0x201C => ept
  | 0x2020 => ept
  | 0x2024 => ept
  | 0x3200 => qcfgWrite s d key i j v
  | 0x3A00 => putWord s d key (if j = 31 then fput F.TMG_QLIM_MAX v 16 else v)
  | 0x3F10 => smpSelect d (fget F.TMG_SMP_SEL_PORT v) (fget F.TMG_SMP_SEL_QUEUE v) s
  | 0x5000 =>
    let s1 := putWord s d key v
    if bitOf v 1 then ethApply d (v % 2) s1 else s1
  | 0x5030 => mmWrite s d key i v
  | _ => putWord s d key v

/-- TIM_CTRL: PPS_OUT_EN is the Declarer's, and mirrored (R109, R541); the other fields act on their die. -/
def timCtrl (s : State) (d : DieId) (v : Nat) : State :=
  let x := s.die d
  let was := x.rbit Reg.TIM_CTRL F.TIM_CTRL_PPS_IN_EN
  let on := fget F.TIM_CTRL_PPS_IN_EN v = 1
  let out := if x.isDecl then fget F.TIM_CTRL_PPS_OUT_EN v else x.rf Reg.TIM_CTRL F.TIM_CTRL_PPS_OUT_EN
  let s1 := s.onDie d (fun x =>
    ((x.setRf Reg.TIM_CTRL F.TIM_CTRL_PPS_IN_EN (b2n on)).setRf Reg.TIM_CTRL F.TIM_CTRL_PPS_OUT_EN out).onClock (fun c =>
      { c with txts := if fget F.TIM_CTRL_TXTS_FLUSH v = 1 then [] else c.txts,
               ppsEnAt := if on && !was then s.ticks else c.ppsEnAt,
               ppsAbsent := c.ppsAbsent && on }))
  if x.isDecl then mirrorReg s1 d Reg.TIM_CTRL else s1

/-- A write to a register of a function's HIF page. -/
def writeHif (s : State) (d : DieId) (f key off i v : Nat) : State :=
  match off with
  | 0xF00C => if bitOf v 0 then functionReset d f true s else s
  | 0xF020 => hifKick d f s
  | 0xF108 => s.onDie d (fun x => writeRingCfg x f i v)
  | _ => putWord s d key v

/-- A control port that a register belongs to does not exist (R6). -/
def portAbsent (x : Die) (key : Nat) : Bool := match keyPort key with | some p => !x.portExists p | none => false

/-- A write of a register that is one word wide, or of the whole of one word that belongs to none. -/
def writeReg (s : State) (d : DieId) (f key off : Nat) (idx : List Nat) (v : Nat) : State :=
  let i := idx.headD 0
  let j := idx.getD 1 0
  if portAbsent (s.die d) key then s
  else if 0xF000 ≤ off then writeHif s d f key off i v
  else match f with
    | 0 => writeMgmt s d key off i v
    | 1 => writeFabric s d key off i j v
    | 2 => writeNet s d key off i j v
    | _ => if off = 0x20 then timCtrl s d v else putWord s d key v

/-- A write of both words of a 64-bit register. -/
def writeWide (s : State) (d : DieId) (f key off i v : Nat) : State :=
  if 0xF000 ≤ off then
    -- a ring's base does not change while the ring is enabled (R397)
    if off = 0xF100 && (s.die d).ringEn f i then s else putWord64 s d key v
  else if f = 0 && off = 0x7010 then fenceRequest d v s
  else if f = 0 && off = 0x8090 then connWrite s d (fun c => { c with addr := BitVec.ofNat 64 (fieldBits key v % 2 ^ 32 + 2 ^ 32 * fieldBits (key + 4) (v / 2 ^ 32)) })
  else if f = 1 && off = 0x2090 then elMan d v s
  else if f = 2 && (off = 0x2008 || off = 0x2010) then (if (s.die d).net.eptBusy.isSome then s else putWord64 s d key v)
  else if f = 3 && off = 0x10 then timIncr d v s
  else if f = 3 && off = 0x18 then timAdj d v s
  else putWord64 s d key v

/-! ## Accesses (R15, R16) -/

/-- The firmware of a die that boots reaches these two registers (R505). -/
def bootReg (f off : Nat) : Bool := f = 0 && (off = 0x1014 || off = 0x2000)

/-- An access reaches registers: through BAR0 none of a die in BOOT (R45); from inside the die, in BOOT, those that its boot ROM and firmware
use (R505). -/
def regReach (x : Die) (f off : Nat) (host : Bool) : Bool := if host then x.barOpen else x.running || bootReg f off

/-- A 4-byte write: a 64-bit register takes its value when its high word is written. `host` marks an access through BAR0, which alone sets
the unmapped-access source. -/
def write4 (s : State) (d : DieId) (f off v : Nat) (host : Bool) : State :=
  let key := regKey f off
  if !regReach (s.die d) f off host then s
  else match findReg f off with
    | none => if host then raise s d 158 else s
    | some (r, idx, hi) =>
      if !r.wide then writeReg s d f key r.off idx v
      else if !hi then s.onDie d (fun x => { x with lowWords := spPut key (BitVec.ofNat 32 v) x.lowWords })
      else
        let low := match spFind (key - 4) (s.die d).lowWords with | some w => w.toNat | none => (s.die d).reg (key - 4)
        writeWide (s.onDie d (fun x => { x with lowWords := spDel (key - 4) x.lowWords })) d f (key - 4) r.off (idx.headD 0) (low + 2 ^ 32 * v)

/-- The low word of a 64-bit register lies at an offset. -/
def wideAt (f off : Nat) : Option (RegDef × List Nat) :=
  match findReg f off with
  | some (r, idx, false) => if r.wide then some (r, idx) else none
  | _ => none

/-- An 8-byte write: atomic at the low word of a 64-bit register, else two 4-byte writes. -/
def write8 (s : State) (d : DieId) (f off v : Nat) (host : Bool) : State :=
  match wideAt f off with
  | some (r, idx) => if regReach (s.die d) f off host then writeWide s d f (regKey f off) r.off (idx.headD 0) v else s
  | none =>
    let s1 := write4 s d f off (v % 2 ^ 32) host
    if off + 4 < 0x10000 then write4 s1 d f (off + 4) (v / 2 ^ 32) host else s1

/-- REGISTER_WRITE: a BAR0 access, which enters the matrix as master 4 (R508). -/
def registerWrite (d : DieId) (f off : Nat) (wide : Bool) (v : Nat) (s : State) : State :=
  let s1 := s.onDie d (fun x => mtxWritten x 4 (mtxPlace tRegs (regKey f off)) (if wide then 8 else 4))
  if wide then write8 s1 d f off v true else write4 s1 d f off (v % 2 ^ 32) true

def execRegisterWrite (die : DieId) (fn : Fin 4) (off : BitVec 16) (wide : Bool) (value : Word64) (s : State) :
    Host.Outcome State Fault Refusal := done (registerWrite die fn.val off.toNat wide value.toNat s)

/-! ## Reads through BAR0 (R15, R17, R21) -/

/-- The register that a read of a low word captures beside the high word. -/
def companion (key : Nat) : Option Nat :=
  if key = Reg.TIM_NOW then some Reg.TIM_NOW_FRAC
  else if key = Reg.DLR_LAST_DEAL then some Reg.DLR_LAST_FRAC
  else if key = Reg.DLR_NEXT_DEAL then some Reg.DLR_NEXT_FRAC
  else if key = Reg.DCK_NEXT_BND then some Reg.DCK_NEXT_BND_FRAC
  else none

/-- What a read of a low word captures for its function: the high word, and the companion, as they are now. -/
def capture (s : State) (d : DieId) (f key : Nat) : State :=
  let put (k w : Nat) (n : Fn) : Fn := { n with captures := spPut (k % 0x10000) (BitVec.ofNat 32 w) n.captures }
  s.onDie d (·.onFn f (fun n =>
    let n1 := put key (viewWord s d (key + 4)) n
    match companion key with
    | some c => put c (viewWord s d c) n1
    | none => n1))

/-- A word with its read-to-clear fields at 0. -/
def rcCleared (key w : Nat) : Nat :=
  match findReg (key / 0x10000) (key % 0x10000) with
  | some (r, _, hi) => Nat.land w (2 ^ 32 - 1 - accMask r hi (· == Access.rc))
  | none => w

/-- The read-to-clear counters that do not stand in the register store: of a bank die, for both dies, and of the late-light counts. -/
def rcElsewhere (s : State) (d : DieId) (off : Nat) (idx : List Nat) : State :=
  let b := idx.headD 0
  match off with
  | 0x4010 => bankClear s d b (fun k =>
      if idx.getD 1 0 = 0 then { k with linkA := { k.linkA with crcErr := 0 } } else { k with linkB := { k.linkB with crcErr := 0 } })
  | 0x4018 => bankClear s d b (fun k => { k with missing := 0, mismatch := 0 })
  | 0x4034 => bankClear s d b (fun k => { k with urgOvf := 0 })
  | 0x4038 => bankClear s d b (fun k => { k with discard := 0 })
  | 0x40D8 => bankClear s d b (fun k => { k with probeMiss := 0 })
  | 0x104C => s.onDie d (fun x =>
      { x with decks := { x.decks with late := spSet 0 (x.rf Reg.DCK_LL_SEL F.DCK_LL_SEL_INPUT) 0 x.decks.late } })
  | _ => s

/-- What a read of a register word changes besides captures: read-to-clear fields, the head of the transmit stamps (R104), and the offset of
CAL_RD_DATA and THM_RS_DATA, which goes on by 4 (R310). -/
def readEffect (s : State) (d : DieId) (f key : Nat) (r : RegDef) (idx : List Nat) : State :=
  if key = Reg.TIM_TXTS_INFO then (txtsPop s d).1
  else if key = Reg.CAL_RD_DATA then
    s.setRf d Reg.CAL_RD_SEL F.CAL_RD_SEL_OFFSET (((s.die d).rf Reg.CAL_RD_SEL F.CAL_RD_SEL_OFFSET / 4 * 4 + 4) % 2 ^ 21)
  else if key = Reg.THM_RS_DATA then
    s.setRf d Reg.THM_RS_SEL F.THM_RS_SEL_OFFSET (((s.die d).rf Reg.THM_RS_SEL F.THM_RS_SEL_OFFSET / 4 * 4 + 4) % 2 ^ 15)
  else if regHas key (· == Access.rc) && !portAbsent (s.die d) key then
    let s1 := s.onDie d (fun x => x.setReg key (rcCleared key (x.reg key)))
    if f = 1 then rcElsewhere s1 d r.off idx else s1
  else s

/-- The present value of a register word for a read: the head of the transmit stamps for TIM_TXTS_INFO. -/
def readWord (s : State) (d : DieId) (key : Nat) : Nat := if key = Reg.TIM_TXTS_INFO then (txtsPop s d).2 else viewWord s d key

/-- The offset of what a function has captured that a read at an offset returns: the low word's for a high word, its own for a companion. -/
def captureOf (off : Nat) (hi : Bool) : Nat := if hi then off - 4 else off

/-- A 4-byte read through BAR0: the state after it, and the value. In BOOT only RED_MODE answers (R45). -/
def hostRead4 (s : State) (d : DieId) (f off : Nat) : State × Nat :=
  let x := s.die d
  let key := regKey f off
  if !x.barOpen then (s, if x.alive && decide (key = Reg.RED_MODE) then viewWord s d key else 0)
  else match findReg f off with
    | none => (raise s d 158, 0)
    | some (r, idx, hi) =>
      if hi || [Reg.TIM_NOW_FRAC, Reg.DLR_LAST_FRAC, Reg.DLR_NEXT_FRAC, Reg.DCK_NEXT_BND_FRAC].contains key then
        (s, match spFind (captureOf off hi) (x.fn f).captures with | some w => w.toNat | none => viewWord s d key)
      else
        let s1 := readEffect s d f key r idx
        (if r.wide then capture s1 d f key else s1, readWord s d key)

/-- An 8-byte read through BAR0: atomic at the low word of a 64-bit register, with its captures, else two 4-byte reads. -/
def hostRead8 (s : State) (d : DieId) (f off : Nat) : State × Nat :=
  let lo := hostRead4 s d f off
  if (s.die d).barOpen && (wideAt f off).isSome then (lo.1, lo.2 + 2 ^ 32 * viewWord s d (regKey f off + 4))
  else if off + 4 < 0x10000 then
    let hi := hostRead4 lo.1 d f (off + 4)
    (hi.1, lo.2 + 2 ^ 32 * hi.2)
  else lo

/-- A read through BAR0, of 8 bytes when `wide`, with the value it returns. -/
def hostRead (d : DieId) (f off : Nat) (wide : Bool) (s : State) : State :=
  let r := if wide then hostRead8 s d f off else hostRead4 s d f off
  r.1.emit (.regRead d f off (if wide then 8 else 4) r.2)

/-- LOW_WORD_READ_CAPTURE: a read of the low word captures; the row's read of the high word returns what its function captured. -/
def execLowWordReadCapture (die : DieId) (fn : Fin 4) (off : BitVec 16) (wide : Bool) (s : State) : Host.Outcome State Fault Refusal :=
  done (hostRead die fn.val off.toNat wide s)

/-- RC_REGISTER_READ: the value, then the fields cleared; of 8 bytes, both words where neither is part of a 64-bit register. -/
def execRcRegisterRead (die : DieId) (fn : Fin 4) (off : RegRead) (s : State) : Host.Outcome State Fault Refusal :=
  done (hostRead die fn.val off.off.toNat off.wide s)

/-- TXTS_INFO_READ, CAL_RD_DATA_READ and THM_RS_DATA_READ are such reads of their registers. -/
def execTxtsInfoRead (die : DieId) (s : State) : Host.Outcome State Fault Refusal :=
  done (hostRead die 3 (Reg.TIM_TXTS_INFO % 0x10000) false s)

def execCalRdDataRead (die : DieId) (s : State) : Host.Outcome State Fault Refusal :=
  done (hostRead die 1 (Reg.CAL_RD_DATA % 0x10000) false s)

def execThmRsDataRead (die : DieId) (s : State) : Host.Outcome State Fault Refusal :=
  done (hostRead die 0 (Reg.THM_RS_DATA % 0x10000) false s)

/-! ## PF1 BAR2 (R14, R151) -/

/-- A byte of PF1 BAR2: hands from 0, images from 0x0200_0000; offsets that hold neither read 0. -/
def bar2Byte (x : Die) (o : Nat) : Byte :=
  if o < 0x2000000 then deckByte x o else if o < 0x4000000 then imageByte x (o - 0x2000000) else 0

/-- UNMAPPED_ACCESS: through BAR0 an access that meets an offset without a register, which sets the source (R16), beside a half of 8 bytes that
may be read from one; through PF1 BAR2 a write is
discarded, and a read returns the bytes there (R14), none of a die in BOOT. -/
def unmappedAccess (d : DieId) (a : HostAddr) (len : Nat) (write : Bool) (s : State) : State :=
  match a with
  | .bar0 f off =>
    let none4 (o : Nat) : Bool := (findReg f.val o).isNone
    if write && none4 off.toNat && (len ≠ 8 || none4 (off.toNat + 4)) then
      if len = 8 then write8 s d f.val off.toNat 0 true else write4 s d f.val off.toNat 0 true
    else if !write && (none4 off.toNat || (len = 8 && none4 (off.toNat + 4))) then hostRead d f.val off.toNat (decide (len = 8)) s
    else s
  | .bar2 off =>
    if write then s
    else s.emit (.bar2Read d off.toNat ((List.range len).map (fun i => if (s.die d).barOpen then bar2Byte (s.die d) (off.toNat + i) else 0)))

def execUnmappedAccess (die : DieId) (at_ : HostAddr) (len : Fin 9) (write : Bool) (s : State) : Host.Outcome State Fault Refusal :=
  done (unmappedAccess die at_ len.val write s)

/-! ## Responses of the bus matrix (R508 to R512) -/

/-- A burst of whole words written to register space from an offset on; 8 bytes at a 64-bit register's low word are one write. A part of a
word is not written. -/
def regBurst (s : State) (d : DieId) : Nat → Nat → List Byte → State
  | 0, _, _ => s
  | n + 1, o, l =>
    let f := o / 0x10000
    let off := o % 0x10000
    if l.length < 4 then s
    else if 8 ≤ l.length && (wideAt f off).isSome then regBurst (write8 s d f off (leAt l 0 8) false) d n (o + 8) (l.drop 8)
    else regBurst (write4 s d f off (leAt l 0 4) false) d n (o + 4) (l.drop 4)

/-- Bytes read from register space: reads through the matrix clear and capture nothing (R21). -/
def regBytes (s : State) (d : DieId) (o n : Nat) : List Byte :=
  (List.range n).map (fun i =>
    let a := o + i
    BitVec.ofNat 8 (viewWord s d (a / 0x10000 * 0x10000 + a % 0x10000 / 4 * 4) / 256 ^ (a % 4)))

/-- A local target's memory or registers read. -/
def targetRead (s : State) (d : DieId) (t o n : Nat) : List Byte := if t = tRegs then regBytes s d o n else mtxRead s d t o n

/-- A local target's memory or registers written; other masters' monitors of the place clear. -/
def targetWrite (s : State) (d : DieId) (m t o : Nat) (data : List Byte) : State :=
  let s1 := if t = tRegs then regBurst s d data.length o data else mtxWrite s d m t o data
  s1.onDie d (fun x => mtxWritten x m (mtxPlace t o) data.length)

/-- A target that a monitor works on. -/
def monitored (t : Nat) : Bool := t = tSram || t = tDeck || t = tRegs

/-- A request carried out at a local target: the state, and the data of the response. A store that is exclusive answers 1 where it
succeeded, 0 where it failed. -/
def targetServe (s : State) (d : DieId) (m t o : Nat) (r : MtxReq) : State × List Byte :=
  let g := mtxPlace t o / 64
  match r.op with
  | .read => (s, targetRead s d t o r.len)
  | .exLoad =>
    let s1 := if monitored t then s.onDie d (·.onMaster m (fun k => { k with monitor := some g })) else s
    (s1, targetRead s d t o r.len)
  | .write data => (targetWrite s d m t o data, [])
  | .exStore data =>
    if monitored t && ((s.die d).master m).monitor = some g then
      ((targetWrite s d m t o data).onDie d (·.onMaster m (fun k => { k with monitor := none })), [1])
    else (s.count d (Reg.MTX_CNT 4) F.MTX_CNT_COUNT, [0])

/-- A request that crosses the mirror link: master 6 of the peer asks for it there. An exclusive store always fails across it. -/
def bridgeServe (s : State) (d : DieId) (o : Nat) (r : MtxReq) : Option (State × List Byte) :=
  let e := d.peer
  if !bridgeUp s d then none
  else
    let r6 : MtxReq := { r with master := 6, addr := BitVec.ofNat 40 o, op := match r.op with | .exLoad => .read | op => op }
    match r.op with
    | .exStore _ => some (s.count d (Reg.MTX_CNT 4) F.MTX_CNT_COUNT, [0])
    | _ => (mtxDecode (s.die e) r6).map (fun p => targetServe s e 6 p.1 p.2 r6)

/-- A master's port has drained: it leaves reset. -/
def drained (k : Master) : Master := if k.outstanding.isEmpty then { k with resetAt := none, draining := false } else k

/-- MATRIX_RESPONSE: the oldest transaction of a master at a target ends. While the port drains its response is discarded. -/
def matrixResponse (d : DieId) (m t : Nat) (s : State) : State :=
  let x := s.die d
  let k := x.master m
  match k.outstanding.find? (fun o => o.target = t) with
  | none => s
  | some o =>
    let s1 := debugSeen (s.onDie d (fun x =>
      let y := x.onMaster m (fun k => { k with outstanding := k.outstanding.erase o })
      { y with mtx := { y.mtx with stuck := y.mtx.stuck &&& ~~~ BitVec.ofNat 10 (2 ^ t) } })) d m
    if k.draining then s1.onDie d (·.onMaster m drained)
    else
      let off := ((mtxTarget (x.rbit Reg.MTX_REMAP F.MTX_REMAP_REMAP) o.req.addr.toNat).map (·.2)).getD 0
      let s2 :=
        if t = tBridge then
          match bridgeServe s1 d off o.req with
          | some (u, data) => u.emit (.matrix d m o.req.id false data)
          | none => mtxError s1 d o.req 3 t
        else
          let r := targetServe s1 d m t off o.req
          r.1.emit (.matrix d m o.req.id false r.2)
      mtxWake s2 d m

def execMatrixResponse (die : DieId) (master : Fin 8) (target : Fin 10) (s : State) : Host.Outcome State Fault Refusal :=
  done (matrixResponse die master.val target.val s)

/-! ## The service path (R513, R516, R517) -/

/-- An operation of the unlock engine by the service path, with its secret where it has one; a running operation keeps its own. -/
def svcPath (d : DieId) (op : Nat) (put : Service → Service) (s : State) : State :=
  svcStart op d (if (s.die d).svc.busy.isSome then s else s.onDie d (·.onSvc put))

/-- SERVICE_PATH_COMMAND: identification is always answered, reads need Level 1, flash programming Level 2. What identification and boundary
scan return the manual does not give. -/
def servicePath (d : DieId) (c : ServiceCmd) (s : State) : State :=
  let x := s.die d
  let off := match x.life with | .held _ _ => true | _ => false
  let s1 := s.onDie d (·.onSvc (fun v => { v with lastAccess := s.ticks }))
  let answer (need : Nat) (b : List Byte) : State := if need ≤ x.svc.level then s1.emit (.service d b) else s1
  if off then s
  else match c with
    | .identification => s1.drawn.emit (.service d (leBytes 4 s1.free))
    | .boundaryScan => if 1 ≤ x.svc.level then s1.drawn.emit (.service d (leBytes 4 s1.free)) else s1
    | .readRegister f o => answer 1 (leBytes 4 (viewWord s d (regKey f.val o.toNat)))
    | .readRecordStore o => answer 1 (memRead s.store (o.toNat / 4 * 4) 4)
    | .readAlwaysOn o => answer 1 (leBytes 4 (viewWord s d (regKey 0 o.toNat)))
    | .unlock1 pw => svcPath d opUnlock1 (fun v => { v with pw := leBytes 16 pw.toNat }) s1
    | .challenge => svcPath d opChallenge id s1
    | .unlock2 resp => svcPath d opUnlock2 (fun v => { v with resp := leBytes 32 resp.toNat }) s1
    | .lock => svcLock d s1
    | .setPw pw => svcPath d opSetPw (fun v => { v with pw := leBytes 16 pw.toNat }) s1
    | .flashProgram a data =>
      if x.svc.level = 2 && decide (a + data.length ≤ 0x800000) then s1.setFlash d (memWrite (s1.flash d) a data) else s1

def execServicePathCommand (die : DieId) (cmd : ServiceCmd) (s : State) : Host.Outcome State Fault Refusal :=
  done (servicePath die cmd s)

/-! ## Requests from the peer (R352, R364, R313, R360, R426) -/

/-- The peer's half of a rule command is made here; a half that cannot be made leaves the command degraded. -/
def peerRule (s : State) (e : DieId) (id : Nat) (desc data : List Byte) : State :=
  if !(s.die e).running then askPeer s e (.ruleDone id stDegraded)
  else
    let h := ruleHalf s e desc data
    if h.2.1 ≠ stOk then askPeer h.1 e (.ruleDone id stDegraded)
    else
      let w := halfWait id desc h.2.2 false true stOk
      ruleWaits (h.1.onDie e (fun x => { x with net := { x.net with ruleWait := x.net.ruleWait ++ [w] } })) e

/-- The answer of the peer reaches the command it belongs to. -/
def peerRuleDone (s : State) (e : DieId) (id status : Nat) : State :=
  let f (w : RuleWait) : RuleWait :=
    if w.cmd = id && !w.remote then { w with peer := false, status := if w.status = stOk then status else w.status } else w
  ruleWaits (s.onDie e (fun x => { x with net := { x.net with ruleWait := x.net.ruleWait.map f } })) e

/-- A request from the peer takes effect on a die. -/
def peerRequest (s : State) (e : DieId) : PeerReq → State
  | .rule id desc data => peerRule s e id desc data
  | .ruleDone id status => peerRuleDone s e id status
  | .send port cls queue yellow trump bytes => sendTrump (egress s e port cls queue false ⟨bytes, yellow, 0, none, trump⟩) e port trump
  | .claim id => if (s.die e).isDecl then plannedTrigger s e (some id) none else finishAny s id stBusy 0
  | .agentGone id => s.onDie e (fun x => agentCleared x id)

/-- MIRROR_PEER_REQUEST: the oldest request of CD0, else of CD1, crosses the mirror link. -/
def mirrorPeerRequest (s : State) : State :=
  let take (d : DieId) : Option (State × PeerReq) :=
    match (s.die d).red.peer with
    | q :: rest => some (s.onDie d (fun x => { x with red := { x.red with peer := rest } }), q)
    | [] => none
  if s.mirror.state ≠ 2 then s
  else match take .cd0 with
    | some (s1, q) => peerRequest s1 .cd1 q
    | none => match take .cd1 with
      | some (s1, q) => peerRequest s1 .cd0 q
      | none => s

def execMirrorPeerRequest (s : State) : Host.Outcome State Fault Refusal := done (mirrorPeerRequest s)

end Sys2Proof.Machine
end

