-- ==== Sys2Proof/Machine/Dispatch.lean ====
section
/-!
DEFINITION. One arm for each command: a direct call of its meaning.
-/

namespace Sys2Proof.Machine

def exec (i : Instr) (s : State) : Host.Outcome State Fault Refusal :=
  match i with
  | .nop q desc => Sys2Proof.Machine.execNop q desc s
  | .take q desc => Sys2Proof.Machine.execTake q desc s
  | .takeBatch q desc => Sys2Proof.Machine.execTakeBatch q desc s
  | .handRead q desc => Sys2Proof.Machine.execHandRead q desc s
  | .deckLoad q desc => Sys2Proof.Machine.execDeckLoad q desc s
  | .deckArm q desc => Sys2Proof.Machine.execDeckArm q desc s
  | .deckStop q desc => Sys2Proof.Machine.execDeckStop q desc s
  | .deckSwap q desc => Sys2Proof.Machine.execDeckSwap q desc s
  | .loopSet q desc => Sys2Proof.Machine.execLoopSet q desc s
  | .ditherRun q desc => Sys2Proof.Machine.execDitherRun q desc s
  | .calLoad q desc => Sys2Proof.Machine.execCalLoad q desc s
  | .calCommit q desc => Sys2Proof.Machine.execCalCommit q desc s
  | .talonSubst q desc => Sys2Proof.Machine.execTalonSubst q desc s
  | .tableOp q desc => Sys2Proof.Machine.execTableOp q desc s
  | .ruleCommit q desc => Sys2Proof.Machine.execRuleCommit q desc s
  | .gateListLoad q desc => Sys2Proof.Machine.execGateListLoad q desc s
  | .telemSub q desc => Sys2Proof.Machine.execTelemSub q desc s
  | .takeover q desc => Sys2Proof.Machine.execTakeover q desc s
  | .safetyQuery q desc => Sys2Proof.Machine.execSafetyQuery q desc s
  | .healthQuery q desc => Sys2Proof.Machine.execHealthQuery q desc s
  | .convCal q desc => Sys2Proof.Machine.execConvCal q desc s
  | .frameSend q desc => Sys2Proof.Machine.execFrameSend q desc s
  | .doorbellPoll die fn drv => Sys2Proof.Machine.execDoorbellPoll die fn drv s
  | .pollIdleTimeout die fn => Sys2Proof.Machine.execPollIdleTimeout die fn s
  | .descriptorValidate die => Sys2Proof.Machine.execDescriptorValidate die s
  | .interruptCoalesceTimeout die fn ring => Sys2Proof.Machine.execInterruptCoalesceTimeout die fn ring s
  | .hifKick die fn value => Sys2Proof.Machine.execHifKick die fn value s
  | .ringEnable die fn ring cfg => Sys2Proof.Machine.execRingEnable die fn ring cfg s
  | .ringDisable die fn ring cfg => Sys2Proof.Machine.execRingDisable die fn ring cfg s
  | .functionLevelReset die fn byRegister => Sys2Proof.Machine.execFunctionLevelReset die fn byRegister s
  | .registerWrite die fn off wide value => Sys2Proof.Machine.execRegisterWrite die fn off wide value s
  | .unmappedAccess die at_ len write => Sys2Proof.Machine.execUnmappedAccess die at_ len write s
  | .lowWordReadCapture die fn off wide => Sys2Proof.Machine.execLowWordReadCapture die fn off wide s
  | .rcRegisterRead die fn off => Sys2Proof.Machine.execRcRegisterRead die fn off s
  | .goDark die => Sys2Proof.Machine.execGoDark die s
  | .run die => Sys2Proof.Machine.execRun die s
  | .blindHold die => Sys2Proof.Machine.execBlindHold die s
  | .standby die => Sys2Proof.Machine.execStandby die s
  | .recal die => Sys2Proof.Machine.execRecal die s
  | .timIncrWrite die value => Sys2Proof.Machine.execTimIncrWrite die value s
  | .timAdjWrite die value => Sys2Proof.Machine.execTimAdjWrite die value s
  | .txtsFlush die => Sys2Proof.Machine.execTxtsFlush die s
  | .txtsInfoRead die => Sys2Proof.Machine.execTxtsInfoRead die s
  | .partApply die set => Sys2Proof.Machine.execPartApply die set s
  | .hldElSelect die element => Sys2Proof.Machine.execHldElSelect die element s
  | .hldElApply die ctrl => Sys2Proof.Machine.execHldElApply die ctrl s
  | .hldElClear die => Sys2Proof.Machine.execHldElClear die s
  | .hldElManWrite die value => Sys2Proof.Machine.execHldElManWrite die value s
  | .fenceRequest die mask => Sys2Proof.Machine.execFenceRequest die mask s
  | .patchDataWrite die data => Sys2Proof.Machine.execPatchDataWrite die data s
  | .patchVerify die => Sys2Proof.Machine.execPatchVerify die s
  | .patchVerifyDone die => Sys2Proof.Machine.execPatchVerifyDone die s
  | .patchActivate die => Sys2Proof.Machine.execPatchActivate die s
  | .patchClear die => Sys2Proof.Machine.execPatchClear die s
  | .patchDrained die => Sys2Proof.Machine.execPatchDrained die s
  | .bnkChSelect die bank chan => Sys2Proof.Machine.execBnkChSelect die bank chan s
  | .bnkProbeSnap die bank slot restart => Sys2Proof.Machine.execBnkProbeSnap die bank slot restart s
  | .tmgSmpSelect die port queue => Sys2Proof.Machine.execTmgSmpSelect die port queue s
  | .bnkManCodeWrite die bank value => Sys2Proof.Machine.execBnkManCodeWrite die bank value s
  | .bnkManFire die bank => Sys2Proof.Machine.execBnkManFire die bank s
  | .htrGainModeWrite die bank mode => Sys2Proof.Machine.execHtrGainModeWrite die bank mode s
  | .prsRuleWrite die => Sys2Proof.Machine.execPrsRuleWrite die s
  | .prsRuleRead die => Sys2Proof.Machine.execPrsRuleRead die s
  | .prsRuleInvalidate die => Sys2Proof.Machine.execPrsRuleInvalidate die s
  | .eptRead die pipe => Sys2Proof.Machine.execEptRead die pipe s
  | .eptWrite die pipe => Sys2Proof.Machine.execEptWrite die pipe s
  | .eptDelete die pipe => Sys2Proof.Machine.execEptDelete die pipe s
  | .eptSearch die pipe => Sys2Proof.Machine.execEptSearch die pipe s
  | .eptFlushAged die pipe => Sys2Proof.Machine.execEptFlushAged die pipe s
  | .ethApply die mode => Sys2Proof.Machine.execEthApply die mode s
  | .thmRelease die => Sys2Proof.Machine.execThmRelease die s
  | .lgdSave die => Sys2Proof.Machine.execLgdSave die s
  | .lgdForceWrite die value => Sys2Proof.Machine.execLgdForceWrite die value s
  | .fltForceWrite die word value => Sys2Proof.Machine.execFltForceWrite die word value s
  | .fltStickyClear die word value => Sys2Proof.Machine.execFltStickyClear die word value s
  | .fltSrcWrite die src value => Sys2Proof.Machine.execFltSrcWrite die src value s
  | .softwareDieReset die value => Sys2Proof.Machine.execSoftwareDieReset die value s
  | .softResetRelease die => Sys2Proof.Machine.execSoftResetRelease die s
  | .bootStartedWrite die => Sys2Proof.Machine.execBootStartedWrite die s
  | .mtxRemapSet die => Sys2Proof.Machine.execMtxRemapSet die s
  | .mtxMrstWrite die value => Sys2Proof.Machine.execMtxMrstWrite die value s
  | .unlock1 die => Sys2Proof.Machine.execUnlock1 die s
  | .challenge die => Sys2Proof.Machine.execChallenge die s
  | .unlock2 die => Sys2Proof.Machine.execUnlock2 die s
  | .lock die => Sys2Proof.Machine.execLock die s
  | .setPw die => Sys2Proof.Machine.execSetPw die s
  | .calRdDataRead die => Sys2Proof.Machine.execCalRdDataRead die s
  | .thmRsDataRead die => Sys2Proof.Machine.execThmRsDataRead die s
  | .ppsOutPulse die => Sys2Proof.Machine.execPpsOutPulse die s
  | .syncOutPulse die k => Sys2Proof.Machine.execSyncOutPulse die k s
  | .ppsInAbsent die => Sys2Proof.Machine.execPpsInAbsent die s
  | .slavingError ofs => Sys2Proof.Machine.execSlavingError ofs s
  | .delayMeasurement die bank roundTripPs => Sys2Proof.Machine.execDelayMeasurement die bank roundTripPs s
  | .disciplineMessage port bank => Sys2Proof.Machine.execDisciplineMessage port bank s
  | .verifyConversion die elem raw => Sys2Proof.Machine.execVerifyConversion die elem raw s
  | .handoffStart die cell => Sys2Proof.Machine.execHandoffStart die cell s
  | .handoffEnd die cell => Sys2Proof.Machine.execHandoffEnd die cell s
  | .deferredRelease die cell => Sys2Proof.Machine.execDeferredRelease die cell s
  | .lateLight input => Sys2Proof.Machine.execLateLight input s
  | .surveyStart cell => Sys2Proof.Machine.execSurveyStart cell s
  | .surveyEnd cell result => Sys2Proof.Machine.execSurveyEnd cell result s
  | .ditherEdge die cell => Sys2Proof.Machine.execDitherEdge die cell s
  | .settleExpiry die cell => Sys2Proof.Machine.execSettleExpiry die cell s
  | .cellUpdate die cell => Sys2Proof.Machine.execCellUpdate die cell s
  | .gateUpdate die gate => Sys2Proof.Machine.execGateUpdate die gate s
  | .refreshDue die elem => Sys2Proof.Machine.execRefreshDue die elem s
  | .comparatorWake die elem => Sys2Proof.Machine.execComparatorWake die elem s
  | .updateDeadlineMiss die elem => Sys2Proof.Machine.execUpdateDeadlineMiss die elem s
  | .fallbackRetry die elem => Sys2Proof.Machine.execFallbackRetry die elem s
  | .loopModeApply die elem => Sys2Proof.Machine.execLoopModeApply die elem s
  | .clusterDoze die cluster => Sys2Proof.Machine.execClusterDoze die cluster s
  | .ditherRunStimulusUpdate bank => Sys2Proof.Machine.execDitherRunStimulusUpdate bank s
  | .ditherRunWindowEnd elem => Sys2Proof.Machine.execDitherRunWindowEnd elem s
  | .taskRelease die elem => Sys2Proof.Machine.execTaskRelease die elem s
  | .next die eng rom => Sys2Proof.Machine.execNext die eng rom s
  | .jump die eng rom => Sys2Proof.Machine.execJump die eng rom s
  | .call die eng rom => Sys2Proof.Machine.execCall die eng rom s
  | .ret die eng rom => Sys2Proof.Machine.execRet die eng rom s
  | .branch die eng rom => Sys2Proof.Machine.execBranch die eng rom s
  | .dispatch die eng rom => Sys2Proof.Machine.execDispatch die eng rom s
  | .wait die eng rom => Sys2Proof.Machine.execWait die eng rom s
  | .waitResume die eng elem => Sys2Proof.Machine.execWaitResume die eng elem s
  | .sliceOverrun die eng => Sys2Proof.Machine.execSliceOverrun die eng s
  | .selftest die eng pass => Sys2Proof.Machine.execSelftest die eng pass s
  | .selftestTimeout die eng => Sys2Proof.Machine.execSelftestTimeout die eng s
  | .driveWrite port bank msg => Sys2Proof.Machine.execDriveWrite port bank msg s
  | .preloadReceive port bank msg => Sys2Proof.Machine.execPreloadReceive port bank msg s
  | .preloadCancel port bank number => Sys2Proof.Machine.execPreloadCancel port bank number s
  | .accumulatorRead port bank chan update => Sys2Proof.Machine.execAccumulatorRead port bank chan update s
  | .accumulatorReadRestart port bank chan update => Sys2Proof.Machine.execAccumulatorReadRestart port bank chan update s
  | .accumulatorRestart port bank chan update => Sys2Proof.Machine.execAccumulatorRestart port bank chan update s
  | .urgentRequest port bank chan update => Sys2Proof.Machine.execUrgentRequest port bank chan update s
  | .bandSet port bank chan lo hi update => Sys2Proof.Machine.execBandSet port bank chan lo hi update s
  | .adcConversion bank adc raw => Sys2Proof.Machine.execAdcConversion bank adc raw s
  | .probeTrigEdge bank convs => Sys2Proof.Machine.execProbeTrigEdge bank convs s
  | .tokenClaim port bank => Sys2Proof.Machine.execTokenClaim port bank s
  | .tokenYield port bank => Sys2Proof.Machine.execTokenYield port bank s
  | .overlapEnd bank => Sys2Proof.Machine.execOverlapEnd bank s
  | .safetyShut port bank gates => Sys2Proof.Machine.execSafetyShut port bank gates s
  | .safetyRelease port bank gates => Sys2Proof.Machine.execSafetyRelease port bank gates s
  | .gainChange port bank x2 => Sys2Proof.Machine.execGainChange port bank x2 s
  | .blindContextWrite port bank writes => Sys2Proof.Machine.execBlindContextWrite port bank writes s
  | .bankConvCalStart port bank => Sys2Proof.Machine.execBankConvCalStart port bank s
  | .bankConvCalEnd bank adcFail => Sys2Proof.Machine.execBankConvCalEnd bank adcFail s
  | .shadowCopyTimeout bank => Sys2Proof.Machine.execShadowCopyTimeout bank s
  | .holderSilenceBlind bank => Sys2Proof.Machine.execHolderSilenceBlind bank s
  | .blindEngineTick bank => Sys2Proof.Machine.execBlindEngineTick bank s
  | .blindRampStep bank => Sys2Proof.Machine.execBlindRampStep bank s
  | .heaterShort bank chan => Sys2Proof.Machine.execHeaterShort bank chan s
  | .driveFault bank chan => Sys2Proof.Machine.execDriveFault bank chan s
  | .shutdownNotice port bank => Sys2Proof.Machine.execShutdownNotice port bank s
  | .shutdownCut port bank => Sys2Proof.Machine.execShutdownCut port bank s
  | .noticeSilenceCut bank => Sys2Proof.Machine.execNoticeSilenceCut bank s
  | .bankSelfShutdown bank => Sys2Proof.Machine.execBankSelfShutdown bank s
  | .bankLinkBadFrame die bank => Sys2Proof.Machine.execBankLinkBadFrame die bank s
  | .bankLinkDown die bank => Sys2Proof.Machine.execBankLinkDown die bank s
  | .bankLinkRetrainFail die bank => Sys2Proof.Machine.execBankLinkRetrainFail die bank s
  | .bankLinkUp die bank => Sys2Proof.Machine.execBankLinkUp die bank s
  | .mirrorLinkBadFrame die => Sys2Proof.Machine.execMirrorLinkBadFrame die s
  | .heartbeatSend die => Sys2Proof.Machine.execHeartbeatSend die s
  | .heartbeatWindowMiss die => Sys2Proof.Machine.execHeartbeatWindowMiss die s
  | .watchdogStall die => Sys2Proof.Machine.execWatchdogStall die s
  | .soloCheck die => Sys2Proof.Machine.execSoloCheck die s
  | .claimRepeat die => Sys2Proof.Machine.execClaimRepeat die s
  | .claimAbandon die => Sys2Proof.Machine.execClaimAbandon die s
  | .tokenRefused die bank => Sys2Proof.Machine.execTokenRefused die bank s
  | .tokenGranted die bank => Sys2Proof.Machine.execTokenGranted die bank s
  | .fullFabricService die => Sys2Proof.Machine.execFullFabricService die s
  | .yieldPoint die => Sys2Proof.Machine.execYieldPoint die s
  | .resyncStart die => Sys2Proof.Machine.execResyncStart die s
  | .resyncComplete die => Sys2Proof.Machine.execResyncComplete die s
  | .bootComplete die => Sys2Proof.Machine.execBootComplete die s
  | .roleWaitExpiry die => Sys2Proof.Machine.execRoleWaitExpiry die s
  | .guardChannelFiltered unit zone closed => Sys2Proof.Machine.execGuardChannelFiltered unit zone closed s
  | .zoneStartupTestDone zone => Sys2Proof.Machine.execZoneStartupTestDone zone s
  | .zoneDiscrepancy zone => Sys2Proof.Machine.execZoneDiscrepancy zone s
  | .zoneAutoReset zone => Sys2Proof.Machine.execZoneAutoReset zone s
  | .safetyUnitSelftest unit pass peerOscOk => Sys2Proof.Machine.execSafetyUnitSelftest unit pass peerOscOk s
  | .permitTestPulse unit permit readLow readHigh => Sys2Proof.Machine.execPermitTestPulse unit permit readLow readHigh s
  | .sDualControl rx => Sys2Proof.Machine.execSDualControl rx s
  | .sBlackStateSend conn => Sys2Proof.Machine.execSBlackStateSend conn s
  | .sBlackEcho conn rx => Sys2Proof.Machine.execSBlackEcho conn rx s
  | .sBlackTimeout conn => Sys2Proof.Machine.execSBlackTimeout conn s
  | .faultReaction die src => Sys2Proof.Machine.execFaultReaction die src s
  | .faultWindowExpiry die src => Sys2Proof.Machine.execFaultWindowExpiry die src s
  | .escalationWindowExpiry domain inst => Sys2Proof.Machine.execEscalationWindowExpiry domain inst s
  | .peerAbsenceTimeout die => Sys2Proof.Machine.execPeerAbsenceTimeout die s
  | .healthReport die => Sys2Proof.Machine.execHealthReport die s
  | .sensorReading path temp => Sys2Proof.Machine.execSensorReading path temp s
  | .heaterPowerEstimate die => Sys2Proof.Machine.execHeaterPowerEstimate die s
  | .tFFilterUpdate die => Sys2Proof.Machine.execTFFilterUpdate die s
  | .supplyBelowHold rail => Sys2Proof.Machine.execSupplyBelowHold rail s
  | .supplyExcursion rail high => Sys2Proof.Machine.execSupplyExcursion rail high s
  | .cdrstAssert die => Sys2Proof.Machine.execCdrstAssert die s
  | .cdrstRelease die => Sys2Proof.Machine.execCdrstRelease die s
  | .bootWatchdog die => Sys2Proof.Machine.execBootWatchdog die s
  | .bootReplaceTimeout die => Sys2Proof.Machine.execBootReplaceTimeout die s
  | .matrixRequest die req => Sys2Proof.Machine.execMatrixRequest die req s
  | .masterReset die master => Sys2Proof.Machine.execMasterReset die master s
  | .drainTimeout die master => Sys2Proof.Machine.execDrainTimeout die master s
  | .lateResponse die target => Sys2Proof.Machine.execLateResponse die target s
  | .nonceExpiry die => Sys2Proof.Machine.execNonceExpiry die s
  | .lockoutEnd die => Sys2Proof.Machine.execLockoutEnd die s
  | .frameReceive die port frame => Sys2Proof.Machine.execFrameReceive die port frame s
  | .recirculationPass die pipe => Sys2Proof.Machine.execRecirculationPass die pipe s
  | .learnRequestProcess die pipe => Sys2Proof.Machine.execLearnRequestProcess die pipe s
  | .agingSweep die pipe => Sys2Proof.Machine.execAgingSweep die pipe s
  | .flapLockExpiry die pipe slot => Sys2Proof.Machine.execFlapLockExpiry die pipe slot s
  | .frameTransmitStart die port => Sys2Proof.Machine.execFrameTransmitStart die port s
  | .gateListEntry die port => Sys2Proof.Machine.execGateListEntry die port s
  | .gateListStart die port => Sys2Proof.Machine.execGateListStart die port s
  | .queueSample die => Sys2Proof.Machine.execQueueSample die s
  | .mmVerifyResult die port ok => Sys2Proof.Machine.execMmVerifyResult die port ok s
  | .portLinkChange die port up => Sys2Proof.Machine.execPortLinkChange die port up s
  | .register rx => Sys2Proof.Machine.execRegister rx s
  | .hello rx => Sys2Proof.Machine.execHello rx s
  | .bid rx => Sys2Proof.Machine.execBid rx s
  | .vspTake rx => Sys2Proof.Machine.execVspTake rx s
  | .deckinfo rx => Sys2Proof.Machine.execDeckinfo rx s
  | .portcheck rx => Sys2Proof.Machine.execPortcheck rx s
  | .vendor rx => Sys2Proof.Machine.execVendor rx s
  | .agentTimeout agent => Sys2Proof.Machine.execAgentTimeout agent s
  | .portcheckDeadline port => Sys2Proof.Machine.execPortcheckDeadline port s
  | .portcheckRetry port => Sys2Proof.Machine.execPortcheckRetry port s
  | .hostReadComplete die read data => Sys2Proof.Machine.execHostReadComplete die read data s
  | .eptCommandDone die => Sys2Proof.Machine.execEptCommandDone die s
  | .lgdSaveDone die => Sys2Proof.Machine.execLgdSaveDone die s
  | .svcOperationDone die random => Sys2Proof.Machine.execSvcOperationDone die random s
  | .matrixResponse die master target => Sys2Proof.Machine.execMatrixResponse die master target s
  | .portCleanRestored die port => Sys2Proof.Machine.execPortCleanRestored die port s
  | .servicePathCommand die cmd => Sys2Proof.Machine.execServicePathCommand die cmd s
  | .ppsInEdge => Sys2Proof.Machine.execPpsInEdge s
  | .preparationWindowOpen => Sys2Proof.Machine.execPreparationWindowOpen s
  | .preloadSend => Sys2Proof.Machine.execPreloadSend s
  | .preloadCutoff => Sys2Proof.Machine.execPreloadCutoff s
  | .dealFire => Sys2Proof.Machine.execDealFire s
  | .mirrorRecordReceive => Sys2Proof.Machine.execMirrorRecordReceive s
  | .mirrorAck => Sys2Proof.Machine.execMirrorAck s
  | .mirrorAckTimeout => Sys2Proof.Machine.execMirrorAckTimeout s
  | .planningStart => Sys2Proof.Machine.execPlanningStart s
  | .planningDone => Sys2Proof.Machine.execPlanningDone s
  | .planningDeadline => Sys2Proof.Machine.execPlanningDeadline s
  | .benchRecomputeDone => Sys2Proof.Machine.execBenchRecomputeDone s
  | .calibrationBoundary => Sys2Proof.Machine.execCalibrationBoundary s
  | .mirrorLinkDown => Sys2Proof.Machine.execMirrorLinkDown s
  | .mirrorRetrainFail => Sys2Proof.Machine.execMirrorRetrainFail s
  | .mirrorLinkUp => Sys2Proof.Machine.execMirrorLinkUp s
  | .selfCalComplete => Sys2Proof.Machine.execSelfCalComplete s
  | .safeEstop => Sys2Proof.Machine.execSafeEstop s
  | .crossLinkExchange => Sys2Proof.Machine.execCrossLinkExchange s
  | .crossLinkFault => Sys2Proof.Machine.execCrossLinkFault s
  | .configCrcCompare => Sys2Proof.Machine.execConfigCrcCompare s
  | .sDualCopyMissing => Sys2Proof.Machine.execSDualCopyMissing s
  | .sDualTimeout => Sys2Proof.Machine.execSDualTimeout s
  | .sDualStatusSend => Sys2Proof.Machine.execSDualStatusSend s
  | .classLStopTimeout => Sys2Proof.Machine.execClassLStopTimeout s
  | .powerOn => Sys2Proof.Machine.execPowerOn s
  | .suppliesRestored => Sys2Proof.Machine.execSuppliesRestored s
  | .modrstAssert => Sys2Proof.Machine.execModrstAssert s
  | .modrstRelease => Sys2Proof.Machine.execModrstRelease s
  | .modrstHeldLong => Sys2Proof.Machine.execModrstHeldLong s
  | .svcInactivityTimeout => Sys2Proof.Machine.execSvcInactivityTimeout s
  | .goDarkHoldExpiry => Sys2Proof.Machine.execGoDarkHoldExpiry s
  | .deckEndBoundary => Sys2Proof.Machine.execDeckEndBoundary s
  | .safeEstopRelease => Sys2Proof.Machine.execSafeEstopRelease s
  | .mirrorPeerRequest => Sys2Proof.Machine.execMirrorPeerRequest s

end Sys2Proof.Machine
end

