-- ==== Sys2Proof/Machine/Tick.lean ====
section
/-!
DEFINITION. One cycle of CLK_TIME with no command waiting (log entry 2), and the placing of a command at the front of the
queue.
-/

namespace Sys2Proof.Machine

/-- A PTP clock takes one cycle (R88, R89): it advances by TIM_INCR. No W1C bit has been set in the cycle that begins (R19). -/
def Die.tickClock (x : Die) : Die :=
  let y : Die := { x with fresh := [] }
  if x.clock.running then { y with clock := { x.clock with now := x.clock.now + x.reg64 Reg.TIM_INCR } } else y

/-- A bank die's deal clock takes one cycle (R111). -/
def Bank.tickClock (b : Bank) : Bank := { b with clock := b.clock + b.incr, fresh := [] }

/-- What the loops, the DITHER_RUNs, a survey and the patch stores of both dies do at a tick by themselves. -/
def loopsOfDies (s : State) : State :=
  surveyTick (surveyTick (patchTick (patchTick (urgentTick (urgentTick (loopsTick (loopsTick s .cd0) .cd1) .cd0) .cd1) .cd0) .cd1) .cd0) .cd1

/-- One cycle of 1 ns without a command: time passes on every clock, the loops move, and what follows state by rule settles. -/
def tick (s : State) : State :=
  settle (loopsOfDies { s with ticks := s.ticks + 1, cd0 := s.cd0.tickClock, cd1 := s.cd1.tickClock,
                               banks := s.banks.map Bank.tickClock })

/-- The state with a command put at the front of its queue. -/
def State.push (s : State) (c : Instr) : State := { s with pending := c :: s.pending }

end Sys2Proof.Machine
end

