-- ==== Sys2Proof/Safety.lean ====
section
/-!
DEFINITION. The terms the statements use: what a command answers, that one state is another but for what recording writes, and the
rules that hold of a state after every command.
-/

namespace Sys2Proof.Machine

/-- A command answers a next state of which P holds. -/
def Answers (c : Instr) (s : State) (P : State → Prop) : Prop := ∃ t, exec c s = .next t ∧ P t

/-! ## What recording writes -/

/-- Register words that recording faults, events and telemetry writes: sticky bits, counts of lost records and of entries written to the
event and telemetry rings, and the mode word with its overlay bits. -/
def recordKey (k : Nat) : Bool :=
  k == Reg.RED_MODE || (decide (Reg.FLT_STICKY 0 ≤ k) && decide (k < Reg.FLT_STICKY 8)) ||
    [0, 1, 2, 3].any (fun f => k == Reg.HIF_EV_LOST f || k == Reg.HIF_TM_LOST f || k == Reg.HIF_RING_MOD f 16 || k == Reg.HIF_RING_MOD f 17)

/-- A function without its event and telemetry rings and pending interrupts. -/
def Fn.quiet (n : Fn) : Fn := { n with rings := spDel 16 (spDel 17 n.rings), msixPending := 0 }

/-- A die without its register words, the W1C bits set in the running cycle, its event and telemetry rings, the occurrences and RAW bits of
its collector and the records it sends to its peer. -/
def Die.quiet (x : Die) : Die :=
  { x with regs := [], fresh := [], fns := x.fns.map Fn.quiet, flt := { x.flt with raw := 0, repl := 0, occ := [] },
           red := { x.red with nextSeq := 0, sent := [] } }

/-- The module without those of its dies, and without what has been sent outside. -/
def State.quiet (s : State) : State := { s with out := [], cd0 := s.cd0.quiet, cd1 := s.cd1.quiet }

/-- Fields of the mode word that no overlay touches. -/
def modeFields : List Fld :=
  [F.RED_MODE_PREV_BASE, F.RED_MODE_RESYNC, F.RED_MODE_TAKEOVER, F.RED_MODE_ROLE, F.RED_MODE_PEER_OK, F.RED_MODE_BASE]

/-- State t is state s but for what recording faults and events writes, the overlay bits and SEQ of the mode word, and what was sent
outside after it. -/
structure OnlyRecords (s t : State) : Prop where
  quiet : t.quiet = s.quiet
  regs : ∀ d k, recordKey k = false → (t.die d).reg k = (s.die d).reg k
  mode : ∀ d, ∀ f ∈ modeFields, (t.die d).rf Reg.RED_MODE f = (s.die d).rf Reg.RED_MODE f
  out : s.out <+: t.out

/-- A command does what makes s' of s, and nothing else but records. -/
def Makes (c : Instr) (s s' : State) : Prop := Answers c s (OnlyRecords s')

/-- A command answers a state of which P holds and which differs from s only in what e takes away, and in records. -/
def Within (e : State → State) (c : Instr) (s : State) (P : State → Prop) : Prop :=
  Answers c s (fun t => P t ∧ OnlyRecords (e s) (e t))

/-! ## Messages at a bank die -/

/-- A bank die without the copies that wait for their partner and its counts of differences (R269). -/
def Bank.uncompared (k : Bank) : Bank := { k with copies := [], mismatch := 0, missing := 0 }

/-- A control die without its counts of shadow differences (R421). -/
def Die.uncompared (x : Die) : Die := { x with red := { x.red with totals := Vector.replicate 5 0, cmp := 0, cmpSec := 0 } }

/-- A state without what comparing the two copies of a message to bank die b writes. -/
def State.uncompared (s : State) (b : Nat) : State :=
  ((s.onBank b Bank.uncompared).onDie .cd0 Die.uncompared).onDie .cd1 Die.uncompared

/-- A message to bank die b does what makes s' of s, apart from the comparison of its copies. -/
def MakesAt (b : Nat) (c : Instr) (s s' : State) : Prop := Answers c s (fun t => OnlyRecords (s'.uncompared b) (t.uncompared b))

/-! ## Descriptors on command rings -/

/-- The rows of the ring commands, by opcode (R403). -/
def ringRows : List (Nat × (RingRef → List Byte → Instr)) :=
  [(0x01, .nop), (0x10, .take), (0x11, .takeBatch), (0x18, .handRead), (0x20, .deckLoad), (0x21, .deckArm), (0x22, .deckStop),
   (0x23, .deckSwap), (0x30, .loopSet), (0x31, .ditherRun), (0x38, .calLoad), (0x39, .calCommit), (0x3A, .talonSubst), (0x40, .tableOp),
   (0x48, .ruleCommit), (0x50, .gateListLoad), (0x58, .telemSub), (0x60, .takeover), (0x68, .safetyQuery), (0x70, .healthQuery),
   (0x78, .convCal), (0x80, .frameSend)]

/-- The 64 bytes of a row's descriptor: byte 0 holds the row's opcode. -/
def rowBytes (op : Nat) (desc : List Byte) : List Byte := (padTo 64 desc).set 0 (BitVec.ofNat 8 op)

/-- The origin of a descriptor that reaches ring q now. -/
def rowOrigin (op : Nat) (q : RingRef) (desc : List Byte) (s : State) : Origin :=
  descOrigin q.fn q.ring ((s.die q.die).ring q.fn q.ring).modCnt.toNat (rowBytes op desc)

/-- A descriptor that reaches ring q is validated at once: its die is in SELF-CAL or a later mode, nothing waits before it, and the ring does
not wait for host data or for a takeover (R47, R399, R402, R429). -/
structure Heads (op : Nat) (q : RingRef) (desc : List Byte) (s : State) : Prop where
  running : (s.die q.die).running = true
  mode : 3 ≤ (s.die q.die).base
  first : ((s.die q.die).ring q.fn q.ring).fetched = []
  free : (s.die q.die).ringStalls q.fn q.ring (rowBytes op desc) = false

/-- It passes the checks that every opcode shares, and asks for no FENCE (R401, R399). -/
structure Passes (op : Nat) (q : RingRef) (desc : List Byte) (s : State) : Prop extends Heads op q desc s where
  form : firstChecks (s.die q.die) q.fn (s.die q.die).ns (rowBytes op desc) = none
  allowed : modeChecks (s.die q.die) (rowBytes op desc) = none
  noFence : flFence (dFlags (rowBytes op desc)) = false

/-- A command joins those in flight. -/
def State.withCmd (s : State) (d : DieId) (o : Origin) (desc : List Byte) (stage : Stage) (begun : Bool) : State :=
  s.onDie d (fun x => { x with
    cmds := x.cmds ++ [{ id := x.nextCmd, origin := o, desc := desc, data := [], stage := stage, begun := begun, orphan := false,
                         result := 0, aux := 0, v := x.now, adopted := false }],
    nextCmd := x.nextCmd + 2 })

/-- A command joins those in flight and reads n bytes of host memory (R402). -/
def State.withRead (s : State) (d : DieId) (o : Origin) (desc : List Byte) (fn addr n : Nat) : State :=
  (s.withCmd d o desc .reading false).onDie d (fun x => { x with
    reads := x.reads ++ [⟨x.nextRead, fn, addr, n, 8, (s.die d).nextCmd⟩], nextRead := x.nextRead + 1 })

/-! ## Tables and predicates of the statements -/

/-- The mode requests by their code in RED_MODE_REQ.REQ (R49), and the modes that permit each (R51 ...). -/
def modeRows : List (Nat × (DieId → Instr) × List Nat) :=
  [(1, .goDark, [mStatic, mSlotted, mHybrid, mBlind]), (2, .run, [mDark, mBlind]), (3, .blindHold, [mStatic, mSlotted, mHybrid, mDark]),
   (4, .standby, [mDark]), (5, .recal, [mDark])]

/-- Operations of the unlock engine (R513 to R519), by code. -/
def lockRows : List (Nat × (DieId → Instr)) := [(1, .unlock1), (2, .challenge), (3, .unlock2), (5, .setPw)]

/-- The commands of the endpoint table (R345 to R349), by code, and what they end with. -/
def eptRows : List (Nat × (DieId → Fin 2 → Instr)) := [(1, .eptRead), (2, .eptWrite), (3, .eptDelete), (4, .eptSearch), (5, .eptFlushAged)]

/-- The VSP messages that an agent may send, by type (R315). -/
def vspRows : List (Nat × (VspRx → Instr)) :=
  [(1, .register), (2, .hello), (3, .bid), (5, .vspTake), (8, .deckinfo), (9, .portcheck), (0x0F, .vendor)]

/-- What each of them does once steps 1 to 6 of R317 are passed by an agent's message. -/
def vspBody : Nat → State → DieId → Nat → VspRx → Egr → State
  | 1 => fun s d id rx _ => registerAgain s d id rx
  | 2 => helloReply
  | 3 => bidReceived
  | 5 => vspTake
  | 8 => deckinfoReply
  | 9 => portcheckResponse
  | _ => vendorReply

/-- Engine e runs a task of element el and fetches word m at p: no fault, no bank die message, no task-queue operation, no store (R248, R249). -/
structure RunsWord (d : DieId) (e : Nat) (rom : BitVec 128) (s : State) (m : Micro) (p : MicroPc) (el : Nat) : Prop where
  runs : (s.die d).enginesRun = true
  state : ((s.die d).eng.engine e).state = 1
  fetched : m = microOf (fetchWord (s.die d).eng ((s.die d).eng.engine e) rom).1 ∧
    (fetchWord (s.die d).eng ((s.die d).eng.engine e) rom).2 = (p.patch, p.addr)
  sound : m.fault = none
  task : ((s.die d).eng.engine e).elem = el
  quiet : m.exp = 0 ∧ m.mem ≠ 2 ∧ m.acc = 0 ∧ m.dac = 0 ∧ m.fire = false ∧ m.tq = 0

/-- The state in which an engine has fetched a word at p: a corrected bit is counted (R243). -/
def wordBegun (d : DieId) (e : Nat) (s : State) (p : MicroPc) (ecc : EccRead) : State :=
  if ecc = .corrected then (setPc s d e p).onDie d (·.count Reg.UCS_MFAULT_CNT F.UCS_MFAULT_CNT_ECC1) else setPc s d e p

/-- The engine after the operations of a word it fetched at p, before it sequences. -/
def wordDone (d : DieId) (e : Nat) (s : State) (m : Micro) (p : MicroPc) (el : Nat) (ecc : EccRead) : Engine :=
  let x := (wordBegun d e s p ecc).die d
  (x.eng.engine e).compute x el s.ticks m

/-- The state after the operations of a word that an engine fetched at p, before it sequences. -/
def wordState (d : DieId) (e : Nat) (s : State) (m : Micro) (p : MicroPc) (el : Nat) (ecc : EccRead) : State :=
  (wordBegun d e s p ecc).onDie d (fun x => x.onEng (·.setEngine e ((x.eng.engine e).compute x el s.ticks m)))

/-- A die follows the rules that hold of a running die after every command: its replacement request and the RAW bits of its level sources are as
the state gives them (R463, R471), and a Declarer's overlay bits show the trips and the replacement request in the working modes only (R39). -/
structure Settled (s : State) (d : DieId) : Prop where
  repl : (s.die d).flt.repl = replNow s d
  levels : ∀ i ∈ levelSources, (s.die d).flt.raw.getLsbD i = levelNow s d i
  safe : (s.die d).isDecl = true → (s.die d).rbit Reg.RED_MODE F.RED_MODE_SAFE = (isWorking (s.die d).base && (s.die d).lgd.tripped)
  degraded : (s.die d).isDecl = true → (s.die d).rbit Reg.RED_MODE F.RED_MODE_DEGRADED = (isWorking (s.die d).base && (s.die d).flt.repl != 0)

/-- A bank die as its reset leaves it (R284). -/
structure Bank.Cleared (k : Bank) : Prop where
  codes : ∀ l, (k.chan l).gate = 0x3FFF ∧ (k.chan l).heater = 0 ∧ (k.chan l).pin = 0
  shadows : ∀ l, (k.chan l).shHeater = none ∧ (k.chan l).shPin = none ∧ (k.chan l).shGate = none
  stores : ∀ l, (k.chan l).store = Store.empty ∧ (k.chan l).store.range = 0
  bands : ∀ l, (k.chan l).armed = false
  gain : k.heaterX2 = false
  preloads : k.preloads = []
  probes : k.probes = []
  blind : k.blind = Blind.reset
  token : k.holder = none ∧ k.yielded = false ∧ k.granted = false

/-- Two states of a bank die agree on all that R284 says its reset sets or clears; the ports that hold a gate shut may differ (R270). -/
structure Bank.Kept (k l : Bank) : Prop where
  chans : ∀ n, { k.chan n with shutA := false, shutB := false } = { l.chan n with shutA := false, shutB := false }
  gain : k.heaterX2 = l.heaterX2
  preloads : k.preloads = l.preloads
  probes : k.probes = l.probes
  blind : k.blind = l.blind
  token : k.holder = l.holder ∧ k.yielded = l.yielded ∧ k.granted = l.granted

end Sys2Proof.Machine
end

