-- ==== Sys2Proof/Certificates/Slice0/Obligations.lean ====
section
/-!
DEFINITION. The obligations: what the provers are to prove of the model. Each statement's docstring says which rules of spec/ it
formalises or rests on. In them, `Makes c s t` says that command c in state s answers t but for what recording writes, and `Answers c s P`
that it answers a next state of which P holds.
-/

open Sys2Proof Sys2Proof.Machine

/-- From the port a bank die listens to, DRIVE_WRITE ends BLIND HOLD; a write made before its channel's last deal is discarded and counted
(R265), any other loads the shadow of its output with code, reference and group, and fires the group when it asks so (R263). PRELOAD_RECEIVE
stores and acknowledges a set while fewer than four are in use; a fifth is refused and changes nothing (R265, R130). Apart from the
comparison of the two copies of a message and from records, nothing else changes. -/
def Obligations.DriveAndPreloadAtBankDie : Prop :=
  (∀ (p : DieId) (b : Fin 8) (m : DriveMsg) (s : State), (s.bank b).up p = true → (s.bank b).accepts p s.ticks = true →
    (m.dealSeq < ((s.bank b).chan m.chan).dealSeq →
      MakesAt b (.driveWrite p b m) s (s.onBank b (fun k =>
        let k := k.receive p s.ticks true
        { k with discard := min (2 ^ 32 - 1) (k.discard + 1) }))) ∧
    (((s.bank b).chan m.chan).dealSeq ≤ m.dealSeq →
      MakesAt b (.driveWrite p b m) s (s.onBank b (fun k =>
        let k := (k.receive p s.ticks true).onChan m.chan (·.load m)
        if m.fire then k.fire m.group else k)))) ∧
  (∀ (p : DieId) (b : Fin 8) (m : PreloadMsg) (s : State), (s.bank b).up p = true → (s.bank b).accepts p s.ticks = true →
    (4 ≤ (s.bank b).preloads.length →
      MakesAt b (.preloadReceive p b m) s (((s.onBank b (·.receive p s.ticks true)).onDie p (fun x =>
        { x with dealer := { x.dealer with pending := x.dealer.pending.map (fun dl =>
            if dl.preload = m.number then { dl with refused := dl.refused ||| BitVec.ofNat 8 (2 ^ b.val) } else dl) } })).emit
          (.fromBank b p rPreNack [m.number]))) ∧
    ((s.bank b).preloads.length < 4 →
      Answers (.preloadReceive p b m) s (fun t =>
        (t.bank b).preloads = (s.bank b).preloads ++ [⟨p, m⟩] ∧ Out.fromBank b p rPreAck [m.number] ∈ t.out ∧
        (t.die p).dealer.pending = (s.die p).dealer.pending.map (fun dl =>
          if dl.preload = m.number then { dl with acks := dl.acks ||| BitVec.ofNat 8 (2 ^ b.val) } else dl) ∧
        ∀ l, ((t.bank b).chan l).shHeater = ((s.bank b).chan l).shHeater ∧ ((t.bank b).chan l).cross = ((s.bank b).chan l).cross)))

/-- ACCUMULATOR_READ takes the store as the last one delivered and sends its fields on both ports; READ_RESTART also empties it, RESTART
only empties it (R274), with the range of R272. URGENT_REQUEST joins its converter's queue of at most 32, or is refused and counted (R273);
BAND_SET arms the comparator with an empty window (R275); PRELOAD_CANCEL removes the preloads of that number and port (R130); GAIN_CHANGE
turns every heater value at once (R258); BLIND_CONTEXT_WRITE makes its updates in order (R282). -/
def Obligations.HolderAndStoreRequests : Prop :=
  (∀ (p : DieId) (b : Fin 8) (l : Fin 736) (u : Nat) (s : State), (s.bank b).up p = true → (s.bank b).accepts p s.ticks = true →
    let st := ((s.bank b).chan l).store
    let keep := fun c : Chan => { c with last := st }
    let empty := fun c : Chan => { c with store := { Store.empty with range := st.nextRange c.locked } }
    let send := fun t : State => (t.emit (.fromBank b .cd0 rStore (elemOf b l :: st.fields))).emit (.fromBank b .cd1 rStore (elemOf b l :: st.fields))
    MakesAt b (.accumulatorRead p b l u) s (send (s.onBank b (fun k => (k.receive p s.ticks false).onChan l keep))) ∧
    MakesAt b (.accumulatorReadRestart p b l u) s (send (s.onBank b (fun k => (k.receive p s.ticks false).onChan l (fun c => empty (keep c))))) ∧
    MakesAt b (.accumulatorRestart p b l u) s (s.onBank b (fun k => (k.receive p s.ticks false).onChan l empty))) ∧
  (∀ (p : DieId) (b : Fin 8) (l : Fin 736) (u n : Nat) (lo hi : BitVec 24) (x2 : Bool) (ws : List BlindWrite) (s : State),
    (s.bank b).up p = true → (s.bank b).accepts p s.ticks = true →
    let at' := fun (drive : Bool) (f : Bank → Bank) => s.onBank b (fun k => f (k.receive p s.ticks drive))
    let q := spGet [] (adcOf l) (s.bank b).urgent
    (q.length < 32 → MakesAt b (.urgentRequest p b l u) s
      (at' false (fun k => { k with urgent := spSet [] (adcOf l) (q ++ [⟨l, u, s.ticks⟩]) k.urgent }))) ∧
    (32 ≤ q.length → MakesAt b (.urgentRequest p b l u) s
      ((at' false (fun k => { k with urgOvf := min (2 ^ 32 - 1) (k.urgOvf + 1) })).emit (.fromBank b p rUrgentRefused [elemOf b l]))) ∧
    MakesAt b (.bandSet p b l lo hi u) s (at' false (fun k => k.onChan l (fun c =>
      { c with bandLo := lo.toNat, bandHi := hi.toNat, armed := true, cmpSum := 0, cmpCount := 0 }))) ∧
    MakesAt b (.preloadCancel p b n) s (at' false (fun k =>
      { k with preloads := k.preloads.filter (fun q => !(q.port == p && q.msg.number = n)) })) ∧
    MakesAt b (.gainChange p b x2) s (at' true (fun k =>
      { k with heaterX2 := x2, chans := spMap Chan.reset (fun _ c => c.heat x2 c.heater) k.chans })) ∧
    MakesAt b (.blindContextWrite p b ws) s (at' false (fun k => { k with blind := ws.foldl Blind.write k.blind })))

/-- TOKEN_CLAIM is granted when no port holds the token, when the holder has yielded, or when the holder's port has been silent for 4 us;
only the last counts in OVERLAPS and opens the 2 us overlap; any other claim is refused and counted, and the holder's own claim is granted
again. TOKEN_YIELD of the holder is kept; that of the other port does nothing (R268). -/
def Obligations.TokenClaimAndYield : Prop :=
  ∀ (p : DieId) (b : Fin 8) (s : State), (s.bank b).up p = true →
    ((s.bank b).holder = none ∨ (s.bank b).yielded = true →
      Makes (.tokenClaim p b) s ((s.onBank b (fun k =>
        { k with holder := some p, yielded := false, granted := true, lastMsg := s.ticks, lastGrant := s.ticks,
                 grants := (k.grants + 1) % 2 ^ 16 })).emit (.fromBank b p rGranted []))) ∧
    (∀ q, (s.bank b).holder = some q → q ≠ p → (s.bank b).yielded = false → 4000 ≤ s.ticks - (s.bank b).lastMsg →
      Makes (.tokenClaim p b) s ((s.onBank b (fun k =>
        { k with holder := some p, yielded := false, granted := true, lastMsg := s.ticks, lastGrant := s.ticks,
                 grants := (k.grants + 1) % 2 ^ 16, overlaps := min 255 (k.overlaps + 1),
                 overlap := some (q, s.ticks + 2000) })).emit (.fromBank b p rGranted []))) ∧
    (∀ q, (s.bank b).holder = some q → q ≠ p → (s.bank b).yielded = false → s.ticks - (s.bank b).lastMsg < 4000 →
      Makes (.tokenClaim p b) s ((s.onBank b (fun k => { k with refused := min 255 (k.refused + 1) })).emit (.fromBank b p rRefused []))) ∧
    ((s.bank b).holder = some p → (s.bank b).yielded = false → Makes (.tokenClaim p b) s (s.emit (.fromBank b p rGranted []))) ∧
    ((s.bank b).holder = some p → Makes (.tokenYield p b) s (s.onBank b (fun k => { k with yielded := true, lastMsg := s.ticks }))) ∧
    ((s.bank b).holder ≠ some p → Makes (.tokenYield p b) s s)

/-- Whatever the drive token, SAFETY_SHUT and SAFETY_RELEASE act on a port whose link is up (R270), SHUTDOWN_NOTICE is remembered once
(R480), SHUTDOWN_CUT cuts all drive (R484), a noticed die that hears nothing for 1 ms cuts it itself, and BANK_SELF_SHUTDOWN cuts it from
150 degrees on without a holder (R476, R480), not below both limits. BLIND_ENGINE_TICK filters the temperature and recomputes the targets
every 10 ms (R283), BLIND_RAMP_STEP ramps towards them (R55), and a granted holder silent for 1 ms since its last message and grant leads to
BLIND HOLD (R53, R280). Otherwise each of them does nothing. -/
def Obligations.BankDieKeepsLightSafe : Prop :=
  (∀ (p : DieId) (b : Fin 8) (g : BitVec 128) (s : State),
    ((s.bank b).up p = true →
      Makes (.safetyShut p b g) s (shutGates (s.onBank b (·.heard p s.ticks)) b g) ∧
      Makes (.safetyRelease p b g) s (s.onBank b (fun k => (k.heard p s.ticks).release p g)) ∧
      ((s.bank b).notice = none → Makes (.shutdownNotice p b) s (s.onBank b (fun k => { k.heard p s.ticks with notice := some s.ticks }))) ∧
      ((s.bank b).notice.isSome = true → Makes (.shutdownNotice p b) s (s.onBank b (·.heard p s.ticks))) ∧
      Makes (.shutdownCut p b) s (s.onBank b (fun k => (k.heard p s.ticks).unblind.cutDrive))) ∧
    ((s.bank b).up p = false →
      Makes (.safetyShut p b g) s s ∧ Makes (.safetyRelease p b g) s s ∧ Makes (.shutdownNotice p b) s s ∧ Makes (.shutdownCut p b) s s) ∧
    ((s.bank b).notice.isSome = true → (s.bank b).cut = false → 1000000 ≤ s.ticks - (s.bank b).lastMsg →
      Makes (.noticeSilenceCut b) s (s.onBank b Bank.cutDrive)) ∧
    ((s.bank b).holder = none → (s.bank b).cut = false → 150 * 128 ≤ (s.bank b).own →
      Makes (.bankSelfShutdown b) s (s.onBank b Bank.cutDrive)) ∧
    ((s.bank b).own < 150 * 128 → (s.bank b).fabric < 140 * 128 → Makes (.bankSelfShutdown b) s s)) ∧
  (∀ (b : Fin 8) (s : State),
    ((s.bank b).blind.on = true → 10000000 ≤ s.ticks - (s.bank b).blind.lastTick →
      Makes (.blindEngineTick b) s (s.onBank b (fun k =>
        let raw := k.blindRaw b
        let temp := match k.blind.tempAt with
          | none => raw
          | some u => k.blind.temp + (raw - k.blind.temp) * min 1 (((s.ticks - u : Nat) : Rat) / 1000000000)
        let bl := { k.blind with temp := temp, tempAt := some s.ticks, lastTick := s.ticks }
        { k with blind := if bl.tables then { bl with target := bl.targets } else bl }))) ∧
    ((s.bank b).blind.on = false ∨ s.ticks - (s.bank b).blind.lastTick < 10000000 → Makes (.blindEngineTick b) s s) ∧
    Makes (.blindRampStep b) s (blindDone (s.onBank b (·.rampStep s.ticks))) ∧
    ((s.bank b).granted = true → (s.bank b).notice = none → (s.bank b).cut = false → (s.bank b).blind.on = false →
      1000000 ≤ s.ticks - (s.bank b).lastMsg → 1000000 ≤ s.ticks - (s.bank b).lastGrant →
      Makes (.holderSilenceBlind b) s (controlLoss (((s.onBank b (·.enterBlind b true s.ticks)).emit (.fromBank b .cd0 rBlind [])).emit
        (.fromBank b .cd1 rBlind [])))) ∧
    (s.ticks - (s.bank b).lastMsg < 1000000 ∨ s.ticks - (s.bank b).lastGrant < 1000000 → Makes (.holderSilenceBlind b) s s))

/-- ADC_CONVERSION converts the channel whose turn it is, and reports light where it is an input gate (R256, R273, R75); PROBE_TRIG_EDGE
during a calibration or within 2 us of the last burst is missed and counted (R276). BANK_CONV_CAL_START from the holder starts a calibration
when none runs, BANK_CONV_CAL_END without one does nothing (R278, R279). HEATER_SHORT and DRIVE_FAULT mark their channel (R261). -/
def Obligations.BankDieConverters : Prop :=
  (∀ (b : Fin 8) (a : Fin 24) (raw : BitVec 14) (convs : List ProbeConv) (s : State),
    let w : Nat → Rat := fun l => ((raw.toNat * rangeWeight ((s.bank b).chan l).store.range : Nat) : Rat)
    let sent : State → Nat → Nat → State := fun t l u => (t.emit (.fromBank b .cd0 rUrgent [elemOf b l, u])).emit (.fromBank b .cd1 rUrgent [elemOf b l, u])
    let missed := s.onBank b (fun k => ({ k with probeMiss := min (2 ^ 32 - 1) (k.probeMiss + 1), pmiss := true } : Bank).freshen 4 (2 ^ F.BNK_STATUS_PMISS.lo))
    (∀ l k, (s.bank b).nextConv a = some (l, none, k) → isInGate (elemOf b l) = false →
      Makes (.adcConversion b a raw) s (convert (s.setBank b k) b l raw.toNat)) ∧
    (∀ l k, (s.bank b).nextConv a = some (l, none, k) → isInGate (elemOf b l) = true →
      Makes (.adcConversion b a raw) s (lightReport (convert (s.setBank b k) b l raw.toNat) (elemOf b l - 4864) (w l))) ∧
    (∀ l u k, (s.bank b).nextConv a = some (l, some u, k) → isInGate (elemOf b l) = false →
      Makes (.adcConversion b a raw) s (convert (sent (s.setBank b k) l u.update) b l raw.toNat)) ∧
    ((s.bank b).nextConv a = none → Makes (.adcConversion b a raw) s s) ∧
    ((s.bank b).cal.isSome = true → Makes (.probeTrigEdge b convs) s missed) ∧
    (∀ at', (s.bank b).cal = none → (s.bank b).probeLast = some at' → s.ticks - at' < 2000 → Makes (.probeTrigEdge b convs) s missed) ∧
    ((s.bank b).cal = none → (∀ at', (s.bank b).probeLast = some at' → 2000 ≤ s.ticks - at') →
      Answers (.probeTrigEdge b convs) s (fun t => (t.bank b).probeTime = (s.bank b).clock / 2 ^ 40 ∧ (t.bank b).probeLast = some s.ticks ∧
        (t.bank b).probeMiss = (s.bank b).probeMiss ∧ (t.bank b).chans = (s.bank b).chans ∧
        Out.fromBank b .cd0 rProbe [(s.bank b).clock / 2 ^ 40] ∈ t.out ∧ Out.fromBank b .cd1 rProbe [(s.bank b).clock / 2 ^ 40] ∈ t.out))) ∧
  (∀ (p : DieId) (b : Fin 8) (f : BitVec 24) (s : State),
    ((s.bank b).up p = true → (s.bank b).holder = some p → (s.bank b).cal = none →
      Makes (.bankConvCalStart p b) s ((((((s.onBank b (fun k => { k with cal := some ⟨s.ticks, calKind (s.die p)⟩, lastMsg := s.ticks })).emit
        (.fromBank b .cd0 rStale [])).emit (.fromBank b .cd1 rStale [])).onDie .cd0 (·.holdBank b s.ticks)).onDie .cd1 (·.holdBank b s.ticks)))) ∧
    ((s.bank b).holder ≠ some p ∨ (s.bank b).cal.isSome = true ∨ (s.bank b).up p = false → Makes (.bankConvCalStart p b) s s) ∧
    (∀ c, (s.bank b).cal = some c → c.by_ ≤ 2 →
      Answers (.bankConvCalEnd b f) s (fun t => (t.bank b).calFail = decide (f ≠ 0) ∧ (t.bank b).adcFail = f ∧
        (f = 0 → (t.bank b).calTime = (s.bank b).clock / 2 ^ 40) ∧ (f ≠ 0 → (t.bank b).calTime = (s.bank b).calTime) ∧
        (t.bank b).robin = [] ∧ Out.fromBank b .cd0 rCalDone [f.toNat] ∈ t.out ∧ Out.fromBank b .cd1 rCalDone [f.toNat] ∈ t.out ∧
        Out.fromBank b .cd0 rFresh [] ∈ t.out ∧ Out.fromBank b .cd1 rFresh [] ∈ t.out)) ∧
    ((s.bank b).cal = none → Makes (.bankConvCalEnd b f) s s)) ∧
  (∀ (b : Fin 8) (h : Fin 608) (l : Fin 736) (s : State),
    Makes (.heaterShort b h) s (s.onBank b (fun k => ({ k.onChan h (fun c => { c with short := true }) with
      short := spSet false h true k.short } : Bank).freshen (0x100 + h / 32 * 4) (2 ^ (h.val % 32)))) ∧
    Makes (.driveFault b l) s (s.onBank b (fun k => ({ k.onChan l (fun c => { c with driveFault := true }) with
      drvf := spSet false l true k.drvf } : Bank).freshen (0x180 + l / 32 * 4) (2 ^ (l.val % 32)))))

/-- BNK_CH_SELECT snapshots an existing channel of a bank die whose link is up (R274); BNK_PROBE_SNAP snapshots a probe slot and, asked so,
restarts it (R276); HTR_GAIN_MODE_WRITE acts on the Declarer at Expert level and ignores the reserved mode (R258); BNK_MAN_CODE_WRITE and
BNK_MAN_FIRE act only on a Declarer whose service lock is open (R264). -/
def Obligations.BankRegisters : Prop :=
  ∀ (d : DieId) (b : Fin 8) (ch : BitVec 10) (slot : Fin 16) (m : BitVec 2) (v : Word32) (s : State), (s.die d).barOpen = true →
    (736 ≤ ch.toNat → Makes (.bnkChSelect d b ch) s s) ∧
    (ch.toNat < 736 → (s.bank b).up d = true → d = .cd0 → Makes (.bnkChSelect d b ch) s
      ((s.setRf d (Reg.BNK_CH_SEL b) F.BNK_CH_SEL_CHANNEL ch.toNat).onBank b (fun k => { k with snapA := k.snapOf ch.toNat }))) ∧
    (ch.toNat < 736 → (s.bank b).up d = true → d = .cd1 → Makes (.bnkChSelect d b ch) s
      ((s.setRf d (Reg.BNK_CH_SEL b) F.BNK_CH_SEL_CHANNEL ch.toNat).onBank b (fun k => { k with snapB := k.snapOf ch.toNat }))) ∧
    ((s.bank b).up d = true → d = .cd0 → Makes (.bnkProbeSnap d b slot false) s
      (s.onBank b (fun k => { k with probeSnapA := spGet Store.empty slot k.probes }))) ∧
    ((s.bank b).up d = true → d = .cd1 → Makes (.bnkProbeSnap d b slot true) s
      (s.onBank b (fun k => { k with probeSnapB := spGet Store.empty slot k.probes,
                                     probes := spSet Store.empty slot ((spGet Store.empty slot k.probes).restart false) k.probes }))) ∧
    ((s.die d).isDecl = true → (s.die d).expert 1 = true → m = 2 → (s.bank b).heaterX2 = false →
      Makes (.htrGainModeWrite d b m) s (sendGain (putWord s d (Reg.BNK_HTR_GAIN b) (fput F.BNK_HTR_GAIN_MODE ((s.die d).reg (Reg.BNK_HTR_GAIN b)) 2)) d b true)) ∧
    (m = 3 ∨ (s.die d).isDecl = false → Makes (.htrGainModeWrite d b m) s s) ∧
    ((s.die d).isDecl = true → (s.die d).lockOpen = true → (s.bank b).up d = true → (s.bank b).accepts d s.ticks = true →
      MakesAt b (.bnkManFire d b) s (s.onBank b (fun k => (k.receive d s.ticks true).fire 15))) ∧
    ((s.die d).lockOpen = false → Makes (.bnkManFire d b) s s ∧ Makes (.bnkManCodeWrite d b v) s s) ∧
    ((s.die d).isDecl = true → (s.die d).lockOpen = true → fget F.BNK_MAN_FIRE v.toNat = 0 → ∀ w, manMsg (s.die d) b v.toNat = some w →
      Makes (.bnkManCodeWrite d b v) s (driveWrite d b w ((putWord s d (Reg.BNK_MAN b) v.toNat).onDie d
        (·.onElem (elemOf b w.chan) (fun el => { el with update := el.update + 1 })))))

/-- A bad frame is counted and sixteen in a row take a link down; a link that is down retrains, comes up, or after three failed retrains
within 1 s stays down until a reset (R266, R419). Each row acts only in the link state it belongs to. -/
def Obligations.LinksFailAndRetrain : Prop :=
  (∀ (d : DieId) (b : Fin 8) (s : State),
    let l := (s.bank b).link d
    let saved := s.onDie d (fun x => { x with bankSeen := spSet [] b (bankSaved (s.bank b) d b) x.bankSeen })
    (l.state = 2 → l.bad < 15 → Makes (.bankLinkBadFrame d b) s
      (s.onBank b (·.setLink d { l with bad := l.bad + 1, crcErr := min 65535 (l.crcErr + 1) }))) ∧
    (l.state = 2 → Makes (.bankLinkDown d b) s
      (saved.onBank b (fun k => (k.setLink d { l with state := 1, bad := 0, retrains := min 63 (l.retrains + 1) }).portLost))) ∧
    (l.state = 1 → (s.die d).running = true → Makes (.bankLinkUp d b) s
      (shutAgain (s.onBank b (·.setLink d { l with state := 2, bad := 0 })) d b)) ∧
    (l.state = 3 → Makes (.bankLinkUp d b) s s) ∧
    (l.state = 1 → (l.fails.filter (fun t => decide (s.ticks < t + 1000000000))).length < 2 → Makes (.bankLinkRetrainFail d b) s
      (s.onBank b (·.setLink d { l with fails := l.fails.filter (fun t => decide (s.ticks < t + 1000000000)) ++ [s.ticks],
                                        retrains := min 63 (l.retrains + 1) }))) ∧
    (l.state = 1 → 2 ≤ (l.fails.filter (fun t => decide (s.ticks < t + 1000000000))).length →
      Makes (.bankLinkRetrainFail d b) s (linkLost (raiseBoth (s.onBank b (·.setLink d { l with state := 3, fails := l.fails.filter (fun t => decide (s.ticks < t + 1000000000)) ++ [s.ticks] })) (108 + linkNum d b) (linkNum d b)) b))) ∧
  (∀ (s : State), let m := s.mirror
    (∀ d, (m.state ≠ 2 → Makes (.mirrorLinkBadFrame d) s s) ∧
      (m.state = 2 → let s1 := { s with mirror := { m with bad := m.bad + 1 } }.onDie d.peer (fun x =>
          (x.count Reg.RED_MIRROR_ERR F.RED_MIRROR_ERR_REPLAYS).addTotal 0)
        (m.bad < 15 → Makes (.mirrorLinkBadFrame d) s s1) ∧
        (15 ≤ m.bad → Answers (.mirrorLinkBadFrame d) s (fun t => t.mirror.state = 1 ∧ t.mirror.bad = 0)))) ∧
    (m.state = 2 → Makes .mirrorLinkDown s (mirrorDown s) ∧ Answers .mirrorLinkDown s (fun t => t.mirror = { m with state := 1, bad := 0 })) ∧
    (m.state ≠ 2 → Makes .mirrorLinkDown s s) ∧
    (m.state = 1 → let past := m.fails.filter (fun t => decide (s.ticks < t + secT))
      Makes .mirrorRetrainFail s { s with mirror := { m with fails := past ++ [s.ticks], state := if 2 ≤ past.length then 3 else 1 } } ∧
      Makes .mirrorLinkUp s (mirrorUp s) ∧ Answers .mirrorLinkUp s (fun t => t.mirror = { m with state := 2, bad := 0 } ∧
        ∀ d, (t.die d).red.mirrorDownSince = none)) ∧
    (m.state ≠ 1 → Makes .mirrorRetrainFail s s ∧ Makes .mirrorLinkUp s s))

/-- For every row of the ring commands whose descriptor heads its ring on a running die: an expired one completes with TIMEOUT; one with an
opcode the function may not use, reserved flags or reserved header bytes completes with INVALID; one with Expert-only fields at Basic level
completes with INVALID (R25); one that changes the fabric on a die that is not Declarer with NOT_DECLARER, and one the mode does not allow
with BUSY (R41, R400, R401). A completion is all it does. -/
def Obligations.RingCommandChecks : Prop :=
  ∀ r ∈ ringRows, ∀ (q : RingRef) (desc : List Byte) (s : State), Heads r.1 q desc s →
    let x := s.die q.die
    let b := rowBytes r.1 desc
    let answer := fun st : Nat => complete s q.die (rowOrigin r.1 q desc s) st 0 0 0
    (dExpire b ≠ 0 → dExpire b < x.ns → Makes (r.2 q desc) s (answer stTimeout)) ∧
    (dExpire b = 0 ∨ x.ns ≤ dExpire b →
      (opAllowed r.1 q.fn = false ∨ 8 ≤ dFlags b ∨ zeroRange b 4 7 = false → Makes (r.2 q desc) s (answer stInvalid)) ∧
      (opAllowed r.1 q.fn = true → dFlags b < 8 → zeroRange b 4 7 = true →
        (expertFields b = true → x.expert q.fn = false → Makes (r.2 q desc) s (answer stInvalid)) ∧
        (expertFields b = false →
          (changesFabric r.1 = true → x.isDecl = false → Makes (r.2 q desc) s (answer stNotDecl)) ∧
          (changesFabric r.1 = false → modeAllows x r.1 = false → Makes (r.2 q desc) s (answer stBusy)))))

/-- Once the checks are passed: NOP completes with OK, or INVALID for non-zero reserved bytes (R403); HAND_READ writes the hand in force to
host memory and gives the deal count (R406); TELEM_SUB adds the subscription under the lowest free number, or cancels one (R407);
SAFETY_QUERY and HEALTH_QUERY write their records (R459, R409). -/
def Obligations.RingCommandsAtOnce : Prop :=
  ∀ (q : RingRef) (desc : List Byte) (s : State),
    let d := q.die
    let x := s.die d
    (Passes 0x01 q desc s → zeroRange (rowBytes 0x01 desc) 16 63 = true →
      Makes (.nop q desc) s (complete s d (rowOrigin 0x01 q desc s) stOk 0 0 0)) ∧
    (Passes 0x01 q desc s → zeroRange (rowBytes 0x01 desc) 16 63 = false →
      Makes (.nop q desc) s (complete s d (rowOrigin 0x01 q desc s) stInvalid 0 0 0)) ∧
    (Passes 0x18 q desc s → let b := rowBytes 0x18 desc
      zeroRange b 16 23 = true → leAt b 24 8 % 64 = 0 → zeroRange b 32 63 = true →
      Makes (.handRead q desc) s (complete
        (s.emit (.hostWrite d q.fn (leAt b 24 8) ((List.range 512).flatMap (fun n => leBytes 2 (handAt x.dealer.hand n).toNat))))
        d (rowOrigin 0x18 q desc s) stOk (x.reg Reg.DLR_DEAL_CNT) 0 0)) ∧
    (Passes 0x58 q desc s → let b := rowBytes 0x58 desc
      let u := (x.fn q.fn).subs
      leAt b 16 1 = 0 → leAt b 17 1 = 2 → leAt b 18 2 = 0 → zeroRange b 21 23 = true → zeroRange b 28 63 = true → u.length < 16 →
      let new := (((List.range 16).map (· + 1)).find? (fun i => !u.any (fun v => v.id = i))).getD 0
      Makes (.telemSub q desc) s (complete (s.onDie d (·.onFn q.fn (fun n => { n with subs := n.subs ++ [⟨new, 2, leAt b 20 1, leAt b 24 4⟩] })))
        d (rowOrigin 0x58 q desc s) stOk new 0 0)) ∧
    (Passes 0x58 q desc s → let b := rowBytes 0x58 desc
      leAt b 16 1 = 1 → zeroRange b 21 23 = true → zeroRange b 28 63 = true → (x.fn q.fn).subs.any (fun u => u.id = leAt b 18 2) = true →
      Makes (.telemSub q desc) s (complete (s.onDie d (·.onFn q.fn (fun n => { n with subs := n.subs.filter (fun u => u.id ≠ leAt b 18 2) })))
        d (rowOrigin 0x58 q desc s) stOk (leAt b 18 2) 0 0)) ∧
    (Passes 0x68 q desc s → let b := rowBytes 0x68 desc
      zeroRange b 16 23 = true → zeroRange b 32 63 = true → leAt b 24 8 % 64 = 0 →
      Makes (.safetyQuery q desc) s (complete (s.emit (.hostWrite d q.fn (leAt b 24 8) (safetyRecord s d))) d (rowOrigin 0x68 q desc s) stOk 0 0 0)) ∧
    (Passes 0x70 q desc s → let b := rowBytes 0x70 desc
      zeroRange b 16 23 = true → zeroRange b 32 63 = true → leAt b 24 8 % 64 = 0 →
      Makes (.healthQuery q desc) s (complete (s.emit (.hostWrite d q.fn (leAt b 24 8) (healthRecord s d))) d (rowOrigin 0x70 q desc s) stOk 0 0 0))

/-- Once the checks are passed: TAKE_BATCH, DECK_LOAD, CAL_LOAD, FRAME_SEND, GATE_LIST_LOAD and a TABLE_OP that writes rules are in flight
and issue the host read of the address and length their descriptor gives (R402, R122, R157, R310, R416, R378, R366). DECK_ARM, DECK_STOP,
DECK_SWAP, LOOP_SET, DITHER_RUN, CAL_COMMIT, TALON_SUBST and CONV_CAL complete with the status their own rules refuse them with; else they
execute at once on a solo Declarer and are mirrored first otherwise (R34, R425). -/
def Obligations.RingCommandsThatReadOrMirror : Prop :=
  (∀ (q : RingRef) (desc : List Byte) (s : State),
    let d := q.die
    let x := s.die d
    (Passes 0x11 q desc s → let b := rowBytes 0x11 desc
      leAt b 40 8 % 64 = 0 → leAt b 50 1 = 0 → 1 ≤ leAt b 48 2 → leAt b 48 2 ≤ 512 →
      Makes (.takeBatch q desc) s (s.withRead d (rowOrigin 0x11 q desc s) b q.fn (leAt b 40 8) (4 * leAt b 48 2))) ∧
    (Passes 0x11 q desc s → let b := rowBytes 0x11 desc
      leAt b 40 8 % 64 = 0 → leAt b 50 1 = 1 →
      Makes (.takeBatch q desc) s (s.withRead d (rowOrigin 0x11 q desc s) b q.fn (leAt b 40 8) 1024)) ∧
    (Passes 0x20 q desc s → let b := rowBytes 0x20 desc
      deckLoadRefusal x b x.nextCmd = none →
      Makes (.deckLoad q desc) s (s.withRead d (rowOrigin 0x20 q desc s) b q.fn (leAt b 24 8) (1024 * leAt b 18 2))) ∧
    (Passes 0x38 q desc s → let b := rowBytes 0x38 desc
      zeroRange b 28 63 = true → leAt b 16 8 % 64 = 0 → leAt b 24 4 ∈ [110624, 1245216, 47136] → x.cal.commit = none →
      Makes (.calLoad q desc) s (s.withRead d (rowOrigin 0x38 q desc s) b q.fn (leAt b 16 8) (leAt b 24 4))) ∧
    (Passes 0x80 q desc s → let b := rowBytes 0x80 desc
      frameSendOk x b = true →
      Makes (.frameSend q desc) s (s.withRead d (rowOrigin 0x80 q desc s) b q.fn (leAt b 24 8) (leAt b 18 2))) ∧
    (Passes 0x50 q desc s → let b := rowBytes 0x50 desc
      gateFieldsOk x b = true → (x.cport (leAt b 16 1)).gateBusy = false → bitOf (leAt b 17 1) 2 = false →
      Makes (.gateListLoad q desc) s (s.withRead d (rowOrigin 0x50 q desc s) b q.fn (leAt b 32 8) (8 * leAt b 18 2))) ∧
    (Passes 0x40 q desc s → let b := rowBytes 0x40 desc
      tableOpOk b = true → leAt b 16 1 = 2 → leAt b 17 1 = 2 →
      (scopePipes b).all (fun p => (x.pipe p).bankWritable (scopeBank b)) = true →
      Makes (.tableOp q desc) s (s.withRead d (rowOrigin 0x40 q desc s) b q.fn (leAt b 24 8) (96 * ruleCount b)))) ∧
  (∀ r ∈ ringRows, r.1 ∈ [0x21, 0x22, 0x23, 0x30, 0x31, 0x39, 0x3A, 0x78] → ∀ (q : RingRef) (desc : List Byte) (s : State), Passes r.1 q desc s →
    let d := q.die
    let b := rowBytes r.1 desc
    let o := rowOrigin r.1 q desc s
    let id := (s.die d).nextCmd
    let s1 := (s.withCmd d o b .waiting true).onDie d (fun x => x.onCmd id (fun c => { c with begun := true, v := x.now }))
    (∀ st, fabricRefusal s d b id = some st → Makes (r.2 q desc) s (complete s d o st 0 0 0)) ∧
    (fabricRefusal s d b id = none → (s.die d).solo = true → Makes (r.2 q desc) s (commitCmd s1 d id)) ∧
    (fabricRefusal s d b id = none → (s.die d).solo = false → Makes (r.2 q desc) s (mirrorRequest s1 d id none)))

/-- Once the checks are passed: a TAKE completes with the status its form is refused with, else it is accepted (R121, R123); RULE_COMMIT
with bad fields completes with INVALID, else it proceeds (R352); TAKEOVER with a reserved action or bytes completes with INVALID, on a
Declarer whose peer cannot take over with BUSY, asks the Declarer on a Dummy, and starts a planned takeover on a Declarer with a ready Dummy
(R408). -/
def Obligations.RingTakeRuleTakeover : Prop :=
  ∀ (q : RingRef) (desc : List Byte) (s : State),
    let d := q.die
    let x := s.die d
    (Passes 0x10 q desc s → let b := rowBytes 0x10 desc
      let n := leAt b 27 1
      let f := takeForm b 16 (pairsAt b 40 n)
      let ok := decide (1 ≤ n) && decide (n ≤ 6) && zeroRange b (40 + 4 * n) 63
      (∀ st, takeRefusal x f ok = some st → Makes (.take q desc) s (complete s d (rowOrigin 0x10 q desc s) st 0 0 0)) ∧
      (takeRefusal x f ok = none → Makes (.take q desc) s (acceptTake s d (rowOrigin 0x10 q desc s) b f none 0))) ∧
    (Passes 0x48 q desc s → let b := rowBytes 0x48 desc
      let o := rowOrigin 0x48 q desc s
      (ruleCommitOk b = false → Makes (.ruleCommit q desc) s (complete s d o stInvalid 0 0 0)) ∧
      (ruleCommitOk b = true →
        Makes (.ruleCommit q desc) s (ruleCommand (s.withCmd d o b .waiting true) d x.nextCmd))) ∧
    (Passes 0x60 q desc s → let b := rowBytes 0x60 desc
      let o := rowOrigin 0x60 q desc s
      (2 ≤ leAt b 16 1 ∨ zeroRange b 17 63 = false → Makes (.takeover q desc) s (complete s d o stInvalid 0 0 0)) ∧
      (leAt b 16 1 < 2 → zeroRange b 17 63 = true → x.role = 1 → leAt b 16 1 = 0 → x.inResync = true ∨ x.peerOk = false ∨ takeoverBusy s = true →
        Makes (.takeover q desc) s (complete s d o stBusy 0 0 0)) ∧
      (leAt b 16 1 = 1 → zeroRange b 17 63 = true → x.role = 2 → x.inResync = false → x.peerOk = true → (s.die d.peer).isDecl = true →
        takeoverBusy s = false → Makes (.takeover q desc) s (askPeer (s.withCmd d o b .takeover true) d (.claim x.nextCmd))) ∧
      (leAt b 16 1 = 0 → zeroRange b 17 63 = true → x.role = 1 → x.inResync = false → x.peerOk = true → readyDummy s d.peer = true →
        takeoverBusy s = false → Makes (.takeover q desc) s (plannedTrigger (s.withCmd d o b .takeover true) d (some x.nextCmd) none)))

/-- HIF_KICK wakes a function's polling and 64 us without a change idle it (R396); a doorbell read polls its rings and a failed one is a
ring error on every enabled ring; a ring that has waited its coalescing time is signalled (R417); a host read delivers a descriptor or a
ring error (R402); DESCRIPTOR_VALIDATE validates the next head in the order of its class from SELF-CAL on (R399 to R401); RING_ENABLE and
RING_DISABLE write EN of an existing ring (R397). -/
def Obligations.HostPollingAndFetch : Prop :=
  (∀ (d : DieId) (f : Fin 4) (v : Word32) (s : State),
    ((s.die d).barOpen = true →
      Makes (.hifKick d f v) s (s.onDie d (fun x => (x.onFn f (fun n => { n with active := true, lastChange := s.ticks })).setRf (Reg.HIF_POLL f) F.HIF_POLL_IDLE 0))) ∧
    (((s.die d).fn f).active = true → 64000 ≤ s.ticks - ((s.die d).fn f).lastChange →
      Makes (.pollIdleTimeout d f) s (s.onDie d (fun x => (x.onFn f (fun n => { n with active := false })).setRf (Reg.HIF_POLL f) F.HIF_POLL_IDLE 1))) ∧
    (((s.die d).fn f).active = false ∨ s.ticks - ((s.die d).fn f).lastChange < 64000 → Makes (.pollIdleTimeout d f) s s) ∧
    (∀ r : Fin 26, (s.die d).ringEn f r = true → (s.die d).rbit (Reg.HIF_RING_CFG f r) F.HIF_RING_CFG_IEN = true →
      0 < ((s.die d).ring f r).unsignalled → 100 * max 1 ((s.die d).rf (Reg.HIF_RING_IRQ f r) F.HIF_RING_IRQ_TIME) ≤ s.ticks - ((s.die d).ring f r).firstAt →
      Makes (.interruptCoalesceTimeout d f r) s (raiseRing s d f r)) ∧
    (∀ r : Fin 26, ((s.die d).ring f r).unsignalled = 0 → Makes (.interruptCoalesceTimeout d f r) s s) ∧
    (∀ l, (s.die d).running = true → Makes (.doorbellPoll d f (some l)) s (drainHeld (l.zipIdx.foldl (fun s e => pollRing s d f e.2 e.1) s) d f)) ∧
    ((s.die d).running = true → Makes (.doorbellPoll d f none) s
      ((List.range 26).foldl (fun s r => if (s.die d).ringEn f r then ringError s d f r else s) (raise (s.setEvent d (Reg.HIF_ERR f) F.HIF_ERR_DB_READ) d 160)))) ∧
  (∀ (d : DieId) (f : Fin 4) (r : Fin 8) (rr : Fin 26) (cfg : Word32) (h : HostRead) (bytes : List Byte) (s : State), (s.die d).running = true →
    (h.ring < 8 → (s.die d).reads.find? (fun e => e.id = h.id) = some h →
      (s.die d).reads.find? (fun e => e.fn = h.fn && e.ring = h.ring) = some h →
      Makes (.hostReadComplete d h.id (some bytes)) s
        (descriptorFetched (s.onDie d (fun x => { x with reads := x.reads.filter (fun e => e.id ≠ h.id) })) d h bytes) ∧
      Makes (.hostReadComplete d h.id none) s
        (ringError (s.onDie d (fun x => { x with reads := x.reads.filter (fun e => e.id ≠ h.id) })) d h.fn h.ring)) ∧
    (∀ fetch at' desc rest, 3 ≤ (s.die d).base → (s.die d).fenceFree = none → (s.die d).nextHead 1 (s.die d).lastHigh = none →
      (s.die d).nextHead 0 (s.die d).lastLow = some (f.val, r.val, fetch, at', desc) → ((s.die d).ring f r).fetched = (fetch, at', desc) :: rest →
      Makes (.descriptorValidate d) s (validate (s.onDie d (fun x => { x with lastLow := 8 * f + r }.onRing f r (fun g => { g with fetched := rest })))
        d f r fetch at' desc)) ∧
    ((s.die d).base < 3 → Makes (.descriptorValidate d) s s) ∧
    (rr.val < 18 ∨ f = 2 → (s.die d).barOpen = true →
      Makes (.ringEnable d f rr cfg) s (s.onDie d (fun x => writeRingCfg x f rr (fput F.HIF_RING_CFG_EN cfg.toNat 1))) ∧
      Makes (.ringDisable d f rr cfg) s (s.onDie d (fun x => writeRingCfg x f rr (fput F.HIF_RING_CFG_EN cfg.toNat 0)))) ∧
    (18 ≤ rr.val → f ≠ 2 → (s.die d).barOpen = true → Makes (.ringEnable d f rr cfg) s s ∧ Makes (.ringDisable d f rr cfg) s s))

/-- For every register word of the map and every field of it: a write sets an RW or RWS field; sets an RWE field only at Expert level and an
RWL field only while the lock is open; leaves RO, RC and WO fields; clears the written ones of a W1C field and sets those of a W1S field
(the write column of R17). -/
def Obligations.RegisterFieldsByAccess : Prop :=
  ∀ (x : Die) (fn off : Nat) (r : RegDef) (idx : List Nat) (v : Nat), findReg fn off = some (r, idx, false) → r.wide = false →
    fn < 4 → off < 65536 → v < 2 ^ 32 → ∀ f ∈ r.fields,
    let old := bitsOf (x.reg (regKey fn off)) f.hi f.lo
    let val := bitsOf v f.hi f.lo
    let new := bitsOf (x.written (regKey fn off) v) f.hi f.lo
    (f.acc = .rw ∨ f.acc = .rws → new = val) ∧
    (f.acc = .rwe → new = if x.expert fn then val else old) ∧
    (f.acc = .rwl → new = if x.lockOpen then val else old) ∧
    (f.acc = .ro ∨ f.acc = .rc ∨ f.acc = .wo → new = old) ∧
    (f.acc = .w1c → ∀ i, i ≤ f.hi - f.lo →
      Nat.testBit new i = (Nat.testBit old i && !(Nat.testBit val i && !Nat.testBit (x.freshBits (regKey fn off)) (f.lo + i)))) ∧
    (f.acc = .w1s → ∀ i, Nat.testBit new i = (Nat.testBit old i || Nat.testBit val i))

/-- On a die that answers: a write of a mapped 32-bit register makes its write; the low word of a 64-bit register waits for the high word,
which writes both (R15); an unmapped write changes nothing and an unmapped read returns 0; a BAR2 write is discarded and a BAR2 read returns
the bytes of the deck and image memories (R14, R16). A read of a low word captures the high word, and of a companion pair both, and a read
of the high word returns the capture (R15); a read of an RC register returns it and clears it (R17, R21); reads of CAL_RD_DATA and
THM_RS_DATA advance their offset (R310, R490). -/
def Obligations.RegisterAccesses : Prop :=
  (∀ (d : DieId) (f : Fin 4) (off : BitVec 16) (v : Word64) (o2 : BitVec 26) (n : Fin 9) (s : State), (s.die d).barOpen = true →
    let key := regKey f off.toNat
    let m4 := s.onDie d (fun x => mtxWritten x 4 (mtxPlace tRegs key) 4)
    let m8 := s.onDie d (fun x => mtxWritten x 4 (mtxPlace tRegs key) 8)
    (∀ r idx, findReg f off.toNat = some (r, idx, false) →
      (r.wide = false → Makes (.registerWrite d f off false v) s (writeReg m4 d f key r.off idx (v.toNat % 2 ^ 32))) ∧
      (r.wide = true →
        Makes (.registerWrite d f off false v) s
          (m4.onDie d (fun x => { x with lowWords := spPut key (BitVec.ofNat 32 v.toNat) x.lowWords })) ∧
        Makes (.registerWrite d f off true v) s (writeWide m8 d f key r.off (idx.headD 0) v.toNat))) ∧
    (∀ r idx, findReg f off.toNat = some (r, idx, true) → r.wide = true →
      let low := match spFind (key - 4) (s.die d).lowWords with | some w => w.toNat | none => (s.die d).reg (key - 4)
      Makes (.registerWrite d f off false v) s (writeWide (m4.onDie d (fun x => { x with lowWords := spDel (key - 4) x.lowWords })) d f (key - 4)
        r.off (idx.headD 0) (low + 2 ^ 32 * (v.toNat % 2 ^ 32)))) ∧
    (findReg f off.toNat = none →
      Makes (.registerWrite d f off false v) s m4 ∧
      Makes (.unmappedAccess d (.bar0 f off) 4 true) s s ∧
      Makes (.unmappedAccess d (.bar0 f off) 4 false) s (s.emit (.regRead d f off.toNat 4 0))) ∧
    Makes (.unmappedAccess d (.bar2 o2) n true) s s ∧
    Makes (.unmappedAccess d (.bar2 o2) n false) s (s.emit (.bar2Read d o2.toNat ((List.range n).map (fun i => bar2Byte (s.die d) (o2.toNat + i)))))) ∧
  (∀ (d : DieId) (f : Fin 4) (off : BitVec 16) (s : State),
    let key := regKey f off.toNat
    let lo := viewWord s d key
    let hi := viewWord s d (key + 4)
    let put := fun (k w : Nat) (n : Fn) => { n with captures := spPut (k % 65536) (BitVec.ofNat 32 w) n.captures }
    ((s.die d).barOpen = true →
      (∀ r idx, findReg f off.toNat = some (r, idx, false) → r.wide = true → regHas key (· == Access.rc) = false →
        (companion key = none →
          let s1 := s.onDie d (·.onFn f (put key hi))
          Makes (.lowWordReadCapture d f off false) s (s1.emit (.regRead d f off.toNat 4 lo)) ∧
          ((wideAt f off.toNat).isSome = true →
            Makes (.lowWordReadCapture d f off true) s (s1.emit (.regRead d f off.toNat 8 (lo + 2 ^ 32 * hi))))) ∧
        (∀ c, companion key = some c → Makes (.lowWordReadCapture d f off false) s
          ((s.onDie d (·.onFn f (fun n => put c (viewWord s d c) (put key hi n)))).emit (.regRead d f off.toNat 4 lo)))) ∧
      (∀ r idx w, findReg f off.toNat = some (r, idx, true) → spFind (off.toNat - 4) ((s.die d).fn f).captures = some w →
        Makes (.lowWordReadCapture d f off false) s (s.emit (.regRead d f off.toNat 4 w.toNat))) ∧
      (∀ r idx, findReg f off.toNat = some (r, idx, false) → r.wide = false → f ≠ 1 → regHas key (· == Access.rc) = true →
        key ≠ Reg.TIM_TXTS_INFO → key ≠ Reg.THM_RS_DATA → portAbsent (s.die d) key = false →
        companion key = none → [Reg.TIM_NOW_FRAC, Reg.DLR_LAST_FRAC, Reg.DLR_NEXT_FRAC, Reg.DCK_NEXT_BND_FRAC].contains key = false →
        Makes (.rcRegisterRead d f ⟨off, false⟩) s ((s.onDie d (fun x => x.setReg key (rcCleared key (x.reg key)))).emit (.regRead d f off.toNat 4 lo))) ∧
      Makes (.calRdDataRead d) s ((s.setRf d Reg.CAL_RD_SEL F.CAL_RD_SEL_OFFSET
        (((s.die d).rf Reg.CAL_RD_SEL F.CAL_RD_SEL_OFFSET / 4 * 4 + 4) % 2 ^ 21)).emit
          (.regRead d 1 (Reg.CAL_RD_DATA % 65536) 4 (viewWord s d Reg.CAL_RD_DATA))) ∧
      Makes (.thmRsDataRead d) s ((s.setRf d Reg.THM_RS_SEL F.THM_RS_SEL_OFFSET
        (((s.die d).rf Reg.THM_RS_SEL F.THM_RS_SEL_OFFSET / 4 * 4 + 4) % 32768)).emit
          (.regRead d 0 (Reg.THM_RS_DATA % 65536) 4 (viewWord s d Reg.THM_RS_DATA)))) ∧
    ((s.die d).barOpen = false → key ≠ Reg.RED_MODE →
      Makes (.rcRegisterRead d f ⟨off, false⟩) s (s.emit (.regRead d f off.toNat 4 0)) ∧
      Makes (.registerWrite d f off false 0) s (s.onDie d (fun x => mtxWritten x 4 (mtxPlace tRegs key) 4))) ∧
    ((s.die d).barOpen = false → (s.die d).alive = true → key = Reg.RED_MODE →
      Makes (.rcRegisterRead d f ⟨off, false⟩) s (s.emit (.regRead d f off.toNat 4 lo))))

/-- GO_DARK, RUN, BLIND_HOLD, STANDBY and RECAL: on a die that does not run nothing happens; while one is in progress REFUSED sets and
STATUS stays; else STATUS is 3 on a die that is not Declarer, 5 during a transition, 4 from a mode the request is not permitted from, and 6
when RUN's conditions fail (R49, R60). A request that starts sets STATUS 2 and begins its transition (R50 to R57, R486, R542). -/
def Obligations.ModeRequests : Prop :=
  (∀ r ∈ modeRows, ∀ (d : DieId) (s : State),
    let x := s.die d
    let status := x.rf Reg.RED_MODE_REQ F.RED_MODE_REQ_STATUS
    (x.barOpen = false → Makes (r.2.1 d) s s) ∧
    (x.barOpen = true → status = 2 → Makes (r.2.1 d) s (s.setEvent d Reg.RED_MODE_REQ F.RED_MODE_REQ_REFUSED)) ∧
    (x.barOpen = true → status ≠ 2 →
      (x.isDecl = false → Makes (r.2.1 d) s (s.setRf d Reg.RED_MODE_REQ F.RED_MODE_REQ_STATUS 3)) ∧
      (x.isDecl = true → x.trans ≠ .none → Makes (r.2.1 d) s (s.setRf d Reg.RED_MODE_REQ F.RED_MODE_REQ_STATUS 5)) ∧
      (x.isDecl = true → x.trans = .none → x.base ∉ r.2.2 → Makes (r.2.1 d) s (s.setRf d Reg.RED_MODE_REQ F.RED_MODE_REQ_STATUS 4)) ∧
      (x.isDecl = true → x.trans = .none → r.1 = 2 → x.base ∈ r.2.2 → runAllowed s d = false →
        Makes (r.2.1 d) s (s.setRf d Reg.RED_MODE_REQ F.RED_MODE_REQ_STATUS 6)))) ∧
  (∀ (d : DieId) (s : State), let x := s.die d
    x.barOpen = true → x.rf Reg.RED_MODE_REQ F.RED_MODE_REQ_STATUS ≠ 2 → x.isDecl = true → x.trans = .none →
    let s1 := s.setRf d Reg.RED_MODE_REQ F.RED_MODE_REQ_STATUS 2
    (x.base ∈ [mStatic, mSlotted, mHybrid, mBlind] → Makes (.goDark d) s (goDarkStart s1 d true)) ∧
    (x.base = mDark → runAllowed s d = true → Makes (.run d) s (mirrorDealer (s1.onDie d (fun x =>
      { x.addDeal (placeOwn x x.nowInstant) .restore [] false none with trans := .runDark (maskMode x.dealer.part) })) d)) ∧
    (x.base = mBlind → runAllowed s d = true → Makes (.run d) s (runBlind s1 d)) ∧
    (x.base ∈ [mStatic, mSlotted, mHybrid, mDark] → Makes (.blindHold d) s (enterBlind s1 d true)) ∧
    (x.base = mDark → (∀ b < 8, (s.bank b).cal = none) → Makes (.recal d) s (selfCalSend (mirrorDealer (setBase
      (s1.onDie d (fun x => { x with trans := .selfCal true 0 true })) d mSelfCal) d) d)) ∧
    (x.base = mDark → Answers (.standby d) s (fun t =>
      t.banks = Vector.ofFn (fun b => { Bank.reset b.val with driven := false }) ∧ t.mirror = Link.down ∧ t.pins.permitA = 0 ∧ t.pins.permitB = 0 ∧
      ∀ e, (t.die e).life = .held 5 s.ticks ∧ (t.die e).base = mStandby)))

/-- On the Declarer TIM_INCR is written, clamped to 0.999 to 1.001 ns per cycle with INCR_CLAMP (R89), and TIM_ADJ steps the clocks, or is
refused where the result is out of range (R90, R95 to R97). Edges on PPS_IN are stamped by both dies (R110); the Dummy's offset is reported,
and an error longer than 10 us beyond 2 ns sets SLAVE_ERR (R93); a delay measurement sets the bank link's delay (R112), and the Declarer's
discipline message sets the deal clock of a bank die whose token it holds (R111). The rounding of the clamp limits and the unit of the
slaving offset are the model's choices (log entry 31). -/
def Obligations.ClockStepsAndDiscipline : Prop :=
  (∀ (d : DieId) (v : Word64) (s : State), (s.die d).barOpen = true →
    let lo := (999 * 2 ^ 40 + 999) / 1000
    let hi := 1001 * 2 ^ 40 / 1000
    let w := v.toNat % 2 ^ 48
    let off := v.toInt
    let new : Int := (s.die d).clock.now + off * 2 ^ 40
    let set := fun x : Die => stepClock x new.toNat s.ticks
    let s1 := s.onDie d set
    let s2 := if slaves s d then s1.onDie d.peer set else s1
    let s3 := eventShared (raise (s2.setEvent d Reg.TIM_STATUS F.TIM_STATUS_STEPPED) d 174) d evTimeStep (leBytes 8 v.toNat)
    ((stepClock (s.die d) new.toNat s.ticks).clock = { (s.die d).clock with now := new.toNat }) ∧
    ((s.die d).isDecl = false → Makes (.timIncrWrite d v) s s ∧ Makes (.timAdjWrite d v) s s) ∧
    ((s.die d).isDecl = true →
      (lo ≤ w → w ≤ hi → Makes (.timIncrWrite d v) s (putWord64 s d Reg.TIM_INCR w)) ∧
      (w < lo → Makes (.timIncrWrite d v) s ((putWord64 s d Reg.TIM_INCR lo).setEvent d Reg.TIM_STATUS F.TIM_STATUS_INCR_CLAMP)) ∧
      (hi < w → Makes (.timIncrWrite d v) s ((putWord64 s d Reg.TIM_INCR hi).setEvent d Reg.TIM_STATUS F.TIM_STATUS_INCR_CLAMP)) ∧
      (new < 0 ∨ 2 ^ 104 ≤ new → Makes (.timAdjWrite d v) s (s.setEvent d Reg.TIM_STATUS F.TIM_STATUS_ADJ_REFUSED)) ∧
      (0 ≤ new → new < 2 ^ 104 → 0 < off → Makes (.timAdjWrite d v) s (stepForward s3 d)) ∧
      (0 ≤ new → new < 2 ^ 104 → off < 0 → Makes (.timAdjWrite d v) s (stepBack s3 d)) ∧
      (new < 2 ^ 104 → off = 0 → Makes (.timAdjWrite d v) s s3))) ∧
  (∀ (d : DieId) (b : Fin 8) (ofs : Int) (rt : Nat) (s : State),
    let stamp := fun (e : DieId) (s : State) => s.onDie e (fun x =>
      let t := x.ns16 / 4096 * 4096
      (((({ x with clock := { x.clock with ppsIn := some s.ticks, ppsAbsent := false } }).setReg64 Reg.TIM_PPS_IN_TS (t / 65536)).setRf
        Reg.TIM_PPS_IN_INFO F.TIM_PPS_IN_INFO_COUNT ((x.rf Reg.TIM_PPS_IN_INFO F.TIM_PPS_IN_INFO_COUNT + 1) % 65536)).setRf
        Reg.TIM_PPS_IN_INFO F.TIM_PPS_IN_INFO_FRAC (t % 65536)).setEvent Reg.TIM_STATUS F.TIM_STATUS_PPS_IN_SEEN)
    (s.cd0.ppsInEn = true → s.cd1.ppsInEn = true → s.cd0.clock.ppsIn = none → s.cd1.clock.ppsIn = none →
      Makes .ppsInEdge s (stamp .cd1 (stamp .cd0 s))) ∧
    (s.cd0.ppsInEn = false → s.cd1.ppsInEn = false → Makes .ppsInEdge s s) ∧
    (s.cd0.isDummy = false → s.cd1.isDummy = false → Makes (.slavingError ofs) s s) ∧
    (s.cd0.isDummy = true → s.cd0.running = true → ofs.natAbs ≤ 2000 → Makes (.slavingError ofs) s (s.onDie .cd0 (fun x =>
      ({ x.setReg Reg.TIM_SLAVE_OFS (codeOf 32 ofs) with clock := { x.clock with slaveSince := none } }).setRf Reg.TIM_STATUS F.TIM_STATUS_SLAVE_ERR 0))) ∧
    (∀ t, s.cd0.isDummy = true → s.cd0.running = true → 2000 < ofs.natAbs → s.cd0.clock.slaveSince = some t → 10000 < s.ticks - t →
      Makes (.slavingError ofs) s (s.onDie .cd0 (fun x => (x.setReg Reg.TIM_SLAVE_OFS (codeOf 32 ofs)).setRf Reg.TIM_STATUS F.TIM_STATUS_SLAVE_ERR 1))) ∧
    ((s.die d).running = true → (s.bank b).up d = true → mSelfCal ≤ (s.die d).base →
      Makes (.delayMeasurement d b rt) s ((s.setRf d (Reg.TIM_BLINK_DLY b) F.TIM_BLINK_DLY_DLY
        (min (2 ^ 20 - 1) (max 0 ((rt / 2 : Nat) + Config.asymmetry d b)).toNat)).setRf d (Reg.TIM_BLINK_DLY b) F.TIM_BLINK_DLY_VALID 1)) ∧
    ((s.die d).clock.running = true → (s.die d).isDecl = true → (s.bank b).up d = true → (s.bank b).holder = some d →
      Makes (.disciplineMessage d b) s (s.onBank b (fun k => { k.setLink d { k.link d with bad := 0 } with
        lastMsg := s.ticks, clock := (s.die d).clock.now, incr := (s.die d).reg64 Reg.TIM_INCR, disciplined := true }))) ∧
    ((s.die d).clock.running = false ∨ (s.bank b).up d = false ∨ (s.die d).isDecl = false → Makes (.disciplineMessage d b) s s))

/-- PPS_OUT and SYNC_OUT pulse at their points, once, by the die the selector names, which follows the Declarer while no pulse is active
(R108, R109); PPS_IN is absent after 1.5 s without an edge while it is enabled (R462); TXTS_FLUSH empties the stamp FIFO and a read of
TIM_TXTS_INFO takes its head (R104). -/
def Obligations.PulsesAndStamps : Prop :=
  ∀ (d : DieId) (row : Instr) (pin : Fin 5) (s : State),
    (row, pin) ∈ [(.ppsOutPulse d, 0), (.syncOutPulse d 0, 1), (.syncOutPulse d 1, 2), (.syncOutPulse d 2, 3), (.syncOutPulse d 3, 4)] →
    let x := s.die d
    let free := decide (s.cd0.clock.pulseEnd[pin] ≤ s.ticks) && decide (s.cd1.clock.pulseEnd[pin] ≤ s.ticks)
    let sel := match s.declarer with | some e => if free then e else s.pulseSel[pin] | none => s.pulseSel[pin]
    (∀ p : Int, x.clock.running = true → lastPoint x pin = some p → (x.ns : Int) ≤ p + 1 → (pin.val, p) ∉ x.clock.emitted →
      let f := pulseForm x pin
      let s1 := ({ s with pulseSel := s.pulseSel.set pin sel } : State).onDie d (fun x => { x with clock := { x.clock with
        emitted := (pin.val, p) :: x.clock.emitted, pulseEnd := x.clock.pulseEnd.set pin (s.ticks + f.1) } })
      (sel = d → Makes row s (s1.emit (.pulse pin p f.1 f.2))) ∧ (sel ≠ d → Makes row s s1)) ∧
    (∀ p : Int, lastPoint x pin = some p → (pin.val, p) ∈ x.clock.emitted ∨ p + 1 < x.ns → Makes row s s) ∧
    (lastPoint x pin = none → Makes row s s) ∧
    (x.ppsInEn = true → 1500000000 ≤ s.ticks - max (x.clock.ppsIn.getD 0) x.clock.ppsEnAt →
      Makes (.ppsInAbsent d) s (s.onDie d (fun x => { x with clock := { x.clock with ppsAbsent := true } }))) ∧
    (x.ppsInEn = false → Makes (.ppsInAbsent d) s s) ∧
    (x.barOpen = true → Makes (.txtsFlush d) s (s.onDie d (fun x => { x with clock := { x.clock with txts := [] } }))) ∧
    (x.barOpen = true → x.clock.txts = [] → Makes (.txtsInfoRead d) s (s.emit (.regRead d 3 (Reg.TIM_TXTS_INFO % 65536) 4 0))) ∧
    (∀ e rest, x.barOpen = true → x.clock.txts = e :: rest → Makes (.txtsInfoRead d) s
      ((s.onDie d (fun x => ((({ x with clock := { x.clock with txts := rest, txtsLost := false } }).setReg64 Reg.TIM_TXTS_TIME (e.time / 65536)).setReg
        Reg.TIM_TXTS_FRAC (e.time % 65536 / 4096 * 4096)))).emit (.regRead d 3 (Reg.TIM_TXTS_INFO % 65536) 4 (txtsPop s d).2)))

/-- PREPARATION_WINDOW_OPEN composes the first placed deal once its instant is at most 1.3 us away (R129); PRELOAD_SEND sends a prepared
deal when its takes are acknowledged and a set of shadow registers is free (R130); PRELOAD_CUTOFF fixes a sent and acknowledged deal 100 ns
before its instant, and withdraws any other (R131, R132). -/
def Obligations.DealsPrepareAndSend : Prop :=
  ∀ (s : State) (d : DieId), let x := s.die d
    let y := looseTakes x (x.now + i1300ns)
    let mark := fun (n : Nat) (f : Deal → Deal) (x : Die) =>
      ({ x with dealer := { x.dealer with pending := x.dealer.pending.map (fun e => if e.num = n then f e else e) } } : Die)
    let first := fun (p : Deal → Bool) => (x.dealer.pending.filter p).head?
    let toSend := fun (e : Deal) => decide (e.stage = .prepared) || (decide (e.stage = .sent) && decide (e.refused ≠ 0))
    (s.serving = some d → s.declarer = some d → x.decks.live = none → x.cal.survey = none →
      (∀ dl, (y.dealer.pending.filter (fun e => decide (e.stage = .placed) && decide (e.instant ≤ x.now + i1300ns) &&
          (match e.kind with | .boundary _ => false | .blank _ => false | _ => true))).head? = some dl →
        Makes .preparationWindowOpen s (mirrorDealer (s.setDie d (prepareDeal y dl.num)) d)) ∧
      ((∀ e ∈ x.dealer.pending, e.stage = .placed → x.now + i1300ns < e.instant) → Makes .preparationWindowOpen s s)) ∧
    (s.serving = some d →
      (∀ dl, first toSend = some dl → dl.refused = 0 →
        ((∀ t ∈ dl.takes, t.acked = true) → x.shadowsUsed < 4 → (s.die d.peer).isDummy = false →
          Makes .preloadSend s (mirrorDealer ((List.range 8).foldl (fun s b => if (s.bank b).up d then
              s.emit (.bankPreload d b (preloadFor x dl b s.ticks)) else s)
            (s.onDie d (fun x => (mark dl.num (fun e => { e with stage := .sent, refused := 0 }) x).routed (.deal dl.num)))) d)) ∧
        (4 ≤ x.shadowsUsed → Makes .preloadSend s s) ∧
        ((∃ t ∈ dl.takes, t.acked = false) → Makes .preloadSend s s)) ∧
      (∀ dl, first toSend = some dl → dl.refused ≠ 0 → (∀ t ∈ dl.takes, t.acked = true) → (s.die d.peer).isDummy = false →
        ((∀ b < 8, dl.refused.getLsbD b = true → (s.bank b).preloads.length < 4) →
          Makes .preloadSend s (mirrorDealer ((List.range 8).foldl (fun s b => if dl.refused.getLsbD b && (s.bank b).up d then
              s.emit (.bankPreload d b (preloadFor x dl b s.ticks)) else s)
            (s.onDie d (fun x => (mark dl.num (fun e => { e with stage := .sent, refused := 0 }) x).routed (.deal dl.num)))) d)) ∧
        ((∃ b < 8, dl.refused.getLsbD b = true ∧ 4 ≤ (s.bank b).preloads.length) → Makes .preloadSend s s)) ∧
      ((∀ e ∈ x.dealer.pending, toSend e = false) → Makes .preloadSend s s)) ∧
    (s.declarer = some d → ∀ dl, x.dealer.pending.find? (fun e => decide (e.stage ≠ .fixed)) = some dl →
      (x.now + i100ns < dl.instant → Makes .preloadCutoff s s) ∧
      (dl.instant ≤ x.now + i100ns → dl.stage = .sent → dl.acks = BitVec.allOnes 8 → (∀ t ∈ dl.takes, t.acked = true) →
        Makes .preloadCutoff s (mirrorDealer (s.onDie d (mark dl.num (fun e => { e with stage := .fixed }))) d)) ∧
      (dl.instant ≤ x.now + i100ns → dl.stage ≠ .sent ∨ dl.acks ≠ BitVec.allOnes 8 →
        Makes .preloadCutoff s (mirrorDecks (mirrorDealer (withdraw s d dl (decide (x.base ≠ mBlind))) d) d)))

/-- With the mirror link up, the Dummy takes in the Declarer's next record and acknowledges it (R420), a die makes what its peer asks of it
(R352), and an acknowledgement lets the command that waits for it go on; a command unacknowledged for 20 us ends with TIMEOUT and is not
executed (R34). With the link down nothing passes. -/
def Obligations.MirrorCarriesRecords : Prop :=
  (∀ (s : State),
    (s.mirror.state ≠ 2 → Makes .mirrorRecordReceive s s ∧ Makes .mirrorPeerRequest s s) ∧
    (∀ d, s.declarer = some d → (s.die d).red.sent = [] → Makes .mirrorRecordReceive s s) ∧
    (∀ d r rest, s.declarer = some d → (s.die d).red.sent = r :: rest → s.mirror.state = 2 →
      let s1 := s.onDie d (fun x => x.onRed (fun q => { q with sent := rest }))
      ((s.die d.peer).isDummy = false ∨ (s.die d.peer).running = false → Makes .mirrorRecordReceive s s1) ∧
      ((s.die d.peer).isDummy = true → (s.die d.peer).running = true → Makes .mirrorRecordReceive s
        ((applyRecord s1 d.peer r.payload).onDie d (fun x => x.onRed (fun q => { q with acks := q.acks ++ [(r.seq, s.ticks)] }))))) ∧
    (s.mirror.state = 2 →
      (∀ q rest, s.cd0.red.peer = q :: rest →
        Makes .mirrorPeerRequest s (peerRequest (s.onDie .cd0 (fun x => { x with red := { x.red with peer := rest } })) .cd1 q)) ∧
      (∀ q rest, s.cd0.red.peer = [] → s.cd1.red.peer = q :: rest →
        Makes .mirrorPeerRequest s (peerRequest (s.onDie .cd1 (fun x => { x with red := { x.red with peer := rest } })) .cd0 q)) ∧
      (s.cd0.red.peer = [] → s.cd1.red.peer = [] → Makes .mirrorPeerRequest s s))) ∧
  (∀ (s : State) (d : DieId), s.declarer = some d → let x := s.die d
    (x.red.acks = [] → Makes .mirrorAck s s) ∧
    (∀ q m rest, x.red.acks = (q, m) :: rest →
      (s.mirror.state ≠ 2 → Makes .mirrorAck s s) ∧
      (s.mirror.state = 2 → (∀ c ∈ x.cmds, ∀ t, c.stage ≠ .acking q t) →
        Makes .mirrorAck s (s.onDie d (fun x => { x with red := { x.red with acks := rest } }))) ∧
      (s.mirror.state = 2 → ∀ c, x.cmds.find? (fun c => match ackSince c with | some (n, _) => n = q | none => false) = some c →
        Makes .mirrorAck s (ackCmd (s.onDie d (fun x => { x with red := { x.red with acks := rest } })) d c.id))) ∧
    (∀ c, x.cmds.find? (fun c => match ackSince c with | some (_, t) => decide (20 * usT ≤ s.ticks - t) | none => false) = some c →
      Answers .mirrorAckTimeout s (fun t => t = settle (mirrorDealer (finish (raise (s.onDie d (fun x =>
        (unplaceTake x c.id).count Reg.RED_ACK F.RED_ACK_TIMEOUTS)) d 187) d c.id stTimeout 0 0 0) d))) ∧
    ((∀ c ∈ x.cmds, ∀ q t, c.stage = .acking q t → s.ticks - t < 20 * usT) → Makes .mirrorAckTimeout s s))

/-- DEAL_FIRE fires the bank dies' preloads that are due, and the Declarer's first fixed deal when its instant has come: its hand, image and
gate steps are those of the deal, and the loops change nothing else of the die (R135). VERIFY_CONVERSION passes a balanced cell unread,
passes a reading within its band of the expected power, repeats one outside it after 1 us and fails after three; an element in OFF fails
(R137, R208). -/
def Obligations.DealsTakeEffect : Prop :=
  ((∀ (s : State), let s0 := (List.range 8).foldl firePreloads s
    ∀ d, s0.declarer = some d → let x := s0.die d
      (∀ dl, x.dealer.pending.find? (fun e => decide (e.stage = .fixed)) = some dl → dl.instant ≤ x.now →
        Makes .dealFire s (startChecks (shutdownStep (mirrorDecks (mirrorDealer (fireDeal s0 d dl) d) d)))) ∧
      ((∀ e ∈ x.dealer.pending, e.stage = .fixed → x.now < e.instant) → x.taking = true → x.trans ≠ .shutdown →
        Makes .dealFire s s0)) ∧
  (∀ (x : Die) (dl : Deal) (ticks : Nat), let y := loopsAtDeal x dl (changedCells x dl) (changedGates x dl) ticks
    y.dealer.hand = dl.hand ∧ y.dealer.image = dl.image ∧ y.dealer.steps = dl.steps ∧ y.dealer.pending = x.dealer.pending ∧
    y.regs = x.regs ∧ y.cal = x.cal ∧ y.decks = x.decks ∧ y.cmds = x.cmds ∧ y.fns = x.fns)) ∧
  (∀ (d : DieId) (e : Fin 5888) (raw : BitVec 14) (s : State), let x := s.die d
    let b := bankOf e
    let w : Rat := ((raw.toNat * rangeWeight ((s.bank b).chan (chanOf e)).store.range : Nat) : Rat)
    (x.dealer.verify.find? (fun v => v.elem = e.val) = none → Makes (.verifyConversion d e raw) s s) ∧
    (∀ v, x.dealer.verify.find? (fun v => v.elem = e.val) = some v →
      let p := x.cal.uwOf v.elem w
      let inBand := !offBand x.transDb (if isInGate v.elem then v.expect else predictUw x v.elem) p
      let read := fun ok : Bool => sendBoth (converted s b (chanOf e) raw.toNat) b rVerify [e.val, b2n ok]
      (x.now < v.notBefore → Makes (.verifyConversion d e raw) s s) ∧
      (v.notBefore ≤ x.now → x.isDecl = false → Makes (.verifyConversion d e raw) s
        (s.onDie d (fun x => x.onElem e (fun el => { el with burst := max el.burst x.wakeBurst })))) ∧
      (v.notBefore ≤ x.now → x.isDecl = true →
        ((x.elem e).passesUnread e = true → Makes (.verifyConversion d e raw) s (mirrorDealer (verifyEnds s d v false 0) d)) ∧
        ((x.elem e).passesUnread e = false →
          ((s.bank b).cal.isSome = true ∨ (s.bank b).up d = false → Makes (.verifyConversion d e raw) s s) ∧
          ((s.bank b).cal = none → (s.bank b).up d = true →
            (inBand = true → (x.elem v.elem).mode ≠ 3 →
              Makes (.verifyConversion d e raw) s (mirrorDealer (verifyEnds (read true) d v false (v.fails + 1)) d)) ∧
            (inBand = false ∨ (x.elem v.elem).mode = 3 → 2 ≤ v.fails →
              Makes (.verifyConversion d e raw) s (mirrorDealer (verifyEnds (read false) d v true 3) d)) ∧
            (inBand = false ∨ (x.elem v.elem).mode = 3 → v.fails < 2 →
              Makes (.verifyConversion d e raw) s ((read false).onDie d (fun x => { x with dealer := { x.dealer with
                verify := x.dealer.verify.map (fun w => if w.elem = e.val then { w with fails := w.fails + 1, notBefore := x.now + 8000 } else w) } }))))))))

/-- PART_APPLY in DARK takes effect at once; in a working mode or SERVICE it becomes a deal, or waits for the boundary of a running deck
(R172). GO_DARK_HOLD_EXPIRY enters DARK after 1 ms (R52). DECK_END_BOUNDARY finishes, continues or skips at the deck's boundary (R167);
before it nothing happens. -/
def Obligations.PartitionDarkAndDeckEnd : Prop :=
  (∀ (d : DieId) (p : Fin 4) (s : State), let x := s.die d
    let works := isWorking x.base || decide (x.base = mService)
    (x.barOpen = false → Makes (.partApply d p) s s) ∧
    (x.barOpen = true → x.isDecl = false → Makes (.partApply d p) s s) ∧
    (x.barOpen = true → x.isDecl = true → let s1 := mirrorReg (s.setRf d Reg.DCK_PART_CTRL F.DCK_PART_CTRL_SET p) d Reg.DCK_PART_CTRL
      (x.base = mDark ∨ (works = true ∧ x.trans ≠ .none) → let s2 := (partReplace s1 d).onDie d (fun x =>
          let c := x.dealer.comp.partition (x.pmask p)
          { x with dealer := { x.dealer with part := c.part, static := c.static, pins := c.pins, pinned := c.pinned, applyPend := none } })
        Makes (.partApply d p) s (mirrorDealer (partInForce s2 d p) d)) ∧
      (works = true → x.base ≠ mDark → x.trans = .none → let t := x.nowUp + i2600ns
        let pend := fun x : Die => ({ x with dealer := { x.dealer with applyPend := some (p.val, t) } } : Die)
        (((partReplace s1 d).die d).decks.running.isSome = true →
          Makes (.partApply d p) s (mirrorDealer ((partReplace s1 d).onDie d pend) d)) ∧
        (((partReplace s1 d).die d).decks.running = none →
          Makes (.partApply d p) s (mirrorDealer ((partReplace s1 d).onDie d (fun x => placePartition (pend x) p t)) d))) ∧
      (works = false → x.base ≠ mDark → Makes (.partApply d p) s s1))) ∧
  (∀ (s : State) (d : DieId), s.declarer = some d →
    (∀ t req, (s.die d).trans = .goDark (some t) req →
      (s.ticks - t < msT → Makes .goDarkHoldExpiry s s) ∧
      (msT ≤ s.ticks - t → Makes .goDarkHoldExpiry s (if req then setReqStatus (enterDark s d) d 1 else enterDark s d)))) ∧
  (∀ (s : State) (d : DieId) (r : DeckRun), s.declarer = some d → (s.die d).decks.current = some r → let x := s.die d
    let inst := x.decks.runBnd r r.pass
    let r1 := { r with pass := r.pass + 1, k := max r.k (r.pass + 1), blankK := max r.blankK (r.pass + 1) }
    let s1 := s.onDie d (fun x => { x with decks := { x.decks with current := some r1 } })
    r.state ≠ .finished →
      (x.now < inst → Makes .deckEndBoundary s s) ∧
      (inst ≤ x.now → (∀ dl ∈ x.dealer.pending, dl.kind ≠ .boundary r.pass) →
        (bndAct x.decks r x.deckLevel r.pass = .fin → r.stop = none →
          Makes .deckEndBoundary s (mirrorDealer (mirrorDecks (recompose (s1.onDie d (fun x => applyAlone (dropBoundaries { x with decks := { x.decks with
            current := some { r1 with state := .finished } } }))) d inst) d) d)) ∧
        (bndAct x.decks r x.deckLevel r.pass = .stay →
          Makes .deckEndBoundary s (mirrorDealer (mirrorDecks (recompose (deckStopped s1 d r.pass inst) d inst) d) d)) ∧
        (bndAct x.decks r x.deckLevel r.pass = .changeQuiet →
          Makes .deckEndBoundary s (mirrorDealer (mirrorDecks (deckChange s1 d inst false) d) d)) ∧
        (bndAct x.decks r x.deckLevel r.pass = .pause →
          Makes .deckEndBoundary s (mirrorDealer (mirrorDecks (s1.onDie d (fun x => { x with decks := { x.decks with
            current := some { r1 with state := .running } } })) d) d)) ∧
        (bndAct x.decks r x.deckLevel r.pass = .skip →
          Makes .deckEndBoundary s (mirrorDealer (mirrorDecks (shadowed s1 d (·.count Reg.DCK_SKIP_CNT F.DCK_SKIP_CNT_COUNT)) d) d))))

/-- Planning of the next epoch starts, is shed at THROTTLE-C and above, ends with the epoch after it recorded and the used bids dropped, and
is abandoned when it misses its deadline (R183 to R185). Light on a watched input inside the guard window of a boundary is counted for the
input and in total, once per boundary (R170, R171). -/
def Obligations.EpochsPlannedAndLateLight : Prop :=
  (∀ (s : State) (d : DieId), s.declarer = some d → let x := s.die d
    (x.decks.running = none → Makes .planningStart s s ∧ Makes .planningDone s s ∧ Makes .planningDeadline s s) ∧
    (∀ r e, autoEpoch x = some (r, e) → s.serving = some d →
      (e ≠ 0 → x.planner.upTo ≤ e + 1 → x.planner.planning = none → r.desc.ended ((e + 1) * r.desc.epoch) = false →
        (x.thm.level < 3 → Makes .planningStart s
          (let p : Planning := ⟨e + 1, s.ticks, (List.range 8).map x.classW, x.rf Reg.DCK_PLAN_CFG F.DCK_PLAN_CFG_CREDIT_MAX⟩
           mirrorPlanner (s.onDie d (fun x => ({ x with planner := { x.planner with planning := some p } } : Die).onRouters
              (·.submit (.matching (e + 1))))) d)) ∧
        (3 ≤ x.thm.level → Makes .planningStart s (planAbandon s d r (e + 1)))) ∧
      (x.planner.planning.isSome = true → Makes .planningStart s s)) ∧
    (∀ r e0 p, autoEpoch x = some (r, e0) → x.planner.planning = some p →
      (x.decks.runBnd r (p.epoch * r.desc.epoch) < x.now + 8 * x.grantLead →
        Makes .planningDone s s ∧ Makes .planningDeadline s (planAbandon s d r p.epoch)) ∧
      (x.now + 8 * x.grantLead ≤ x.decks.runBnd r (p.epoch * r.desc.epoch) →
        Makes .planningDeadline s s ∧
        (3 ≤ x.thm.level → Makes .planningDone s (planAbandon s d r p.epoch)) ∧
        (x.thm.level < 3 → Answers .planningDone s (fun t => let y := t.die d
          y.planner.planning = none ∧ y.planner.upTo = p.epoch + 1 ∧
          y.planner.bids = x.planner.bids.filter (fun b => decide (p.epoch < b.epoch + 2)) ∧
          y.planner.planned = x.planner.planned.filter (fun q => decide (p.epoch < q.1 + 4)) ++ [(p.epoch, (planEpoch x r p).2.grants)] ∧
          y.rf Reg.DCK_PLAN_TIME F.DCK_PLAN_TIME_LAST = min 65535 ((s.ticks - p.since) / 100)))))) ∧
  (∀ (i : Fin 512) (s : State) (d : DieId), s.declarer = some d → let x := s.die d
    (x.decks.running = none → Makes (.lateLight i) s s) ∧
    (∀ r w, x.decks.running = some r → x.dealer.pending = [] → let k := x.decks.bndFrom r.desc r.origin r.pass (x.now + 1)
      (watched x x.dealer.hand (({ x.dealer.comp with deckHand := deckHandAfter x r k } : Comp).hand).1).find? (fun w => w.1 = i.val) = some w →
      let inst := x.decks.runBnd r k
      (x.now < inst - 8 * r.desc.guard_ + (if r.desc.blank then 400 else 160) → Makes (.lateLight i) s s) ∧
      (inst - 8 * r.desc.guard_ + (if r.desc.blank then 400 else 160) ≤ x.now →
        (∀ g ∈ x.decks.guards, g.closes ≠ inst) → Answers (.lateLight i) s (fun t => let y := t.die d
          spGet 0 i.val y.decks.late = satAdd 32 (spGet 0 i.val x.decks.late) 1 ∧
          y.reg Reg.DCK_LL_TOTAL = min (2 ^ 32 - 1) (x.reg Reg.DCK_LL_TOTAL + 1) ∧
          t.light = s.light ||| maskBit i ∧ y.dealer = x.dealer ∧ y.decks.current = x.decks.current)) ∧
      (∀ g ∈ x.decks.guards, g.closes = inst → (∀ h ∈ x.decks.guards, h.closes = inst → h = g) → g.watch.any (fun v => v.1 = i.val) = true →
        Makes (.lateLight i) s s)))

/-- A cell on PIN starts its hand-off when its time has come, or is deferred when no heater phase lies before it (R139, R140); a hand-off
ends after 30 us with the heater alone (the ramp is log entry 18); a deferred cell is released when it is dark (R142). -/
def Obligations.CellsHandOff : Prop :=
  ∀ (d : DieId) (c : Fin 4864) (s : State), let x := s.die d; let el := x.elem c
    (el.onPin = false ∨ el.handoff = true ∨ x.loopsOn = false → Makes (.handoffStart d c) s s) ∧
    (∀ t, x.handoffNs = some t → t ≤ s.ticks - el.pinSince → x.loopsOn = true → el.mode ≠ 1 → el.mode ≠ 3 → el.onPin = true →
      el.handoff = false → el.deferred = false → x.willChange c = false → x.inRun c = false →
      (handoffTarget el = none → Makes (.handoffStart d c) s (s.onDie d (fun x => x.onElem c (fun el => { el with deferred := true })))) ∧
      (∀ n, handoffTarget el = some n → Makes (.handoffStart d c) s (beginHandoff s d c n) ∧
        Answers (.handoffStart d c) s (fun t => let e := (t.die d).elem c
          e.handoff = true ∧ e.target = n ∧ e.handSince = s.ticks ∧ e.heldAt = none ∧ e.onPin = true ∧ e.phi = el.phi))) ∧
    (el.handoff = false ∨ el.heldAt.isSome = true ∨ s.ticks - el.handSince < 30 * usT → Makes (.handoffEnd d c) s s) ∧
    (el.handoff = true → el.heldAt = none → 30 * usT ≤ s.ticks - el.handSince → Answers (.handoffEnd d c) s (fun t => let e := (t.die d).elem c
      e.handoff = false ∧ e.onPin = false ∧ e.pinPhi = 0 ∧ e.phi = ((el.target : Nat) : Rat) ∧ e.burst = max el.burst x.wakeBurst ∧
      (t.die d).dealer = x.dealer ∧ (t.die d.peer).hold = (s.die d.peer).hold)) ∧
    (el.handoff = true ∨ (el.deferred = false ∧ el.phi ≠ 2) ∨ cellDark (cellInUw x x.dealer.image c) = false →
      Makes (.deferredRelease d c) s s) ∧
    (x.loopsOn = true → el.mode ≠ 1 → el.mode ≠ 3 → el.handoff = false → el.deferred = true ∨ el.phi = 2 → stale s c = false → x.inRun c = false →
      cellDark (cellInUw x x.dealer.image c) = true → Answers (.deferredRelease d c) s (fun t => let e := (t.die d).elem c
        e.deferred = false ∧ e.onPin = false ∧ e.pinPhi = 0 ∧ e.phi = (if el.cross then 1 else 0) ∧
        (t.die d).dealer = x.dealer ∧ (t.die d.peer).hold = (s.die d.peer).hold))

/-- A cell the loops leave alone does nothing at DITHER_EDGE, SETTLE_EXPIRY and CELL_UPDATE, and a gate nothing at GATE_UPDATE; one that
dithers drives the edge of its half cycle, settles, and updates by the law from its settled means, as its instants come (R193 to R200). -/
def Obligations.LoopsUpdate : Prop :=
  ∀ (d : DieId) (s : State), let x := s.die d
    (∀ c : Fin 4864, let el := x.elem c
      let mean := if el.mPlus.isSome || el.mMinus.isSome then some el.lastW else none
      let seen := s.onDie d (fun x => x.onElem c (fun el => { el with lastUpd := s.ticks }))
      (dithers s d c = false → Makes (.ditherEdge d c) s s ∧ Makes (.settleExpiry d c) s s) ∧
      (dithers s d c = true →
        (el.half ≠ .none → s.ticks - el.edgeAt < x.halfNs → Makes (.ditherEdge d c) s s) ∧
        (el.half = .none → el.onPinLoop = false → let s1 := ((readStore s d c).1).onDie d (fun x => x.onElem c (fun el =>
            { el with half := .plus, settled := false, edgeAt := s.ticks }))
          Makes (.ditherEdge d c) s (driveOut s1 d c .heater
            (clampCode (((el.uHtr : Nat) : Rat) + slopeH x c s.ticks * x.amp) (heaterMax s c)).1 false (loopGroup c))) ∧
        (el.half = .plus → el.settled = true → x.halfNs ≤ s.ticks - el.edgeAt → el.onPinLoop = false → ∀ s1 w, readWindow s d c = (s1, w) →
          Makes (.ditherEdge d c) s (strobeHeater (s1.onDie d (fun x => x.onElem c (fun el =>
            { el with half := .minus, settled := false, edgeAt := s.ticks, mPlus := w }))) d c (loopGroup c))) ∧
        (el.half = .minus → el.settled = true → x.halfNs ≤ s.ticks - el.edgeAt → el.onPinLoop = true → ∀ s1 w, readWindow s d c = (s1, w) →
          Makes (.ditherEdge d c) s (strobePin (s1.onDie d (fun x => x.onElem c (fun el =>
            { el with half := .plus, settled := false, edgeAt := s.ticks, mMinus := w }))) d c (loopGroup c))) ∧
        (el.half = .none ∨ el.settled = true → Makes (.settleExpiry d c) s s) ∧
        (el.half ≠ .none → el.settled = false → x.settleNs el.onPinLoop ≤ s.ticks - el.edgeAt →
          Makes (.settleExpiry d c) s (((readStore s d c).1).onDie d (fun x => x.onElem c (fun el => { el with settled := true }))))) ∧
      (x.loopsOn = false ∨ (el.mode ≠ 0 ∧ el.mode ≠ 2) ∨ (el.mode = 0 ∧ el.fallback = false ∧ el.active = false) ∨ s.ticks - el.lastUpd < x.effNs →
        Makes (.cellUpdate d c) s s) ∧
      (x.loopsOn = true → stale s c = false → x.verifying c = false → x.inRun c = false → x.effNs ≤ s.ticks - el.lastUpd →
        (el.mode = 2 → el.ramp = none → Makes (.cellUpdate d c) s (holdCell seen d c)) ∧
        (el.mode = 0 → el.fallback = true → el.retry = none → Makes (.cellUpdate d c) s (holdCell seen d c)) ∧
        (el.mode = 0 → el.fallback = true → el.retry.isSome = true → el.implausible = false → el.balanced c = false →
          Makes (.cellUpdate d c) s (retryEnds s d c mean)) ∧
        (∀ mp mm, el.closed c = true → el.mPlus = some mp → el.mMinus = some mm → let s2 := evaluate s d c el.lastW
          ((s2.die d).elem c).fallback = false → ((s2.die d).elem c).implausible = false → ((s2.die d).elem c).balanced c = false →
            ((s2.die d).elem c).mPlus = some mp → ((s2.die d).elem c).mMinus = some mm →
              Makes (.cellUpdate d c) s (periodEnd (closeCell s2 d c mp mm) d c)) ∧
        (el.closed c = true → el.mPlus = none → el.mMinus = none → Makes (.cellUpdate d c) s (periodEnd (missUpdate s d c) d c)) ∧
        (el.mode = 0 → el.active = true → el.fallback = false → el.balanced c = true → ∀ s1 w, readWindow s d c = (s1, w) →
          let s2 := match w with | some w => evaluate s1 d c w | none => s1
          ((s2.die d).elem c).fallback = false → ((s2.die d).elem c).implausible = false → ((s2.die d).elem c).balanced c = true →
            Makes (.cellUpdate d c) s (madeOpen (holdCell s2 d c) d c)))) ∧
    (∀ g : Fin 1024, let e := gateElem g; let el := x.elem e
      let per := usT * x.loopUs
      (x.loopsOn = false ∨ (el.mode ≠ 0 ∧ el.mode ≠ 2) ∨ (el.mode = 0 ∧ el.fallback = false ∧ el.active = false) ∨ s.ticks - el.lastUpd < per →
        Makes (.gateUpdate d g) s s) ∧
      (x.loopsOn = true → stale s e = false → x.verifying e = false → x.inRun e = false → per ≤ s.ticks - el.lastUpd →
        (el.mode = 2 → el.ramp = none → Makes (.gateUpdate d g) s
          (holdGate (s.onDie d (fun x => x.onElem e (fun el => { el with lastUpd := s.ticks }))) d e)) ∧
        (el.mode = 0 → el.fallback = true → el.retry = none → Makes (.gateUpdate d g) s
          (holdElem (s.onDie d (fun x => x.onElem e (fun el => { el with lastUpd := s.ticks }))) d e)) ∧
        (el.mode = 0 → el.active = true → el.fallback = false → ∀ s1 w, readWindow s d e = (s1, w) →
          let s2 := match w with | some w => evaluate s1 d e w | none => s1
          ((s2.die d).elem e).fallback = false → ((s2.die d).elem e).implausible = false →
            (gateCloses s2 d e = false → Makes (.gateUpdate d g) s (madeOpen (holdGate s2 d e) d e)) ∧
            (∀ m, w = some m → el.implausible = false → gateCloses s2 d e = true →
              Makes (.gateUpdate d g) s (periodEnd (closeGate s2 d e m) d e)) ∧
            (w = none → el.implausible = false → gateCloses s2 d e = true → Makes (.gateUpdate d g) s (periodEnd (missUpdate s2 d e) d e)))))

/-- An element's refresh falls due (R213), its comparator wakes it (R214), a missed deadline is counted and the fourth in a row raises the
loop-deadline source (R216, R217), and an element in fallback is retried (R222). -/
def Obligations.ElementsWakeMissAndRetry : Prop :=
  ∀ (d : DieId) (e : Fin 5888) (s : State), let x := s.die d; let el := x.elem e
    (x.loopsOn = false → Makes (.refreshDue d e) s s ∧ Makes (.comparatorWake d e) s s ∧ Makes (.updateDeadlineMiss d e) s s ∧
      Makes (.fallbackRetry d e) s s) ∧
    (x.loopsOn = true → stale s e = false → x.inRun e = false →
      (el.mode = 0 → refreshNo x e ≠ 0 → refreshNo x e ≠ el.refIdx → el.active = true →
        Makes (.refreshDue d e) s (s.onDie d (fun x => (classify x e).onElem e (fun el => { el with refIdx := refreshNo x e })))) ∧
      (el.mode = 0 → refreshNo x e ≠ 0 → refreshNo x e ≠ el.refIdx → el.active = false → el.fallback = false → (isCell e = false ∨ x.isDecl = false) →
        ∀ s2 w, readWindow (s.onDie d (fun x => (classify x e).onElem e (fun el => { el with refIdx := refreshNo x e }))) d e = (s2, w) →
          let s3 := match w with | some w => evaluate s2 d e w | none => s2
          Makes (.refreshDue d e) s (if ((s3.die d).elem e).balanced e then s3 else activate s3 d e x.refreshBurst tHold)) ∧
      (refreshNo x e = el.refIdx → Makes (.refreshDue d e) s s) ∧
      (el.mode = 0 → el.active = false → el.fallback = false →
        Makes (.comparatorWake d e) s (elementEvent (activate s d e x.wakeBurst tHold) d e ecWake true)) ∧
      (el.active = true → Makes (.comparatorWake d e) s s) ∧
      (el.closed e = true → x.verifying e = false → let per := if isCell e then x.effNs else usT * x.loopUs
        let lim := if isCell e then per + 2 * x.halfNs else 2 * per
        (s.ticks - el.lastUpd < lim → Makes (.updateDeadlineMiss d e) s s) ∧
        (lim ≤ s.ticks - el.lastUpd → Makes (.updateDeadlineMiss d e) s
          (missUpdate ((readStore s d e).1.onDie d (fun x => x.onElem e (fun el =>
            { el with lastUpd := el.lastUpd + per, mPlus := none, mMinus := none, half := .none, settled := false }))) d e))) ∧
      (el.fallback = false ∨ el.retry.isSome = true ∨ s.ticks - el.fellAt < x.retryNs → Makes (.fallbackRetry d e) s s) ∧
      (el.fallback = true → el.retry = none → x.verifying e = false → x.retryNs ≤ s.ticks - el.fellAt →
        Makes (.fallbackRetry d e) s (retryBegins (s.onDie d (fun x => x.onElem e (fun el => { el with fellAt := el.fellAt + x.retryNs }))) d e)))

/-- HLD_EL_SELECT snapshots the selected element; HLD_EL_APPLY, HLD_EL_CLEAR and HLD_EL_MAN_WRITE act only on a Declarer at Expert level
(R206, R207); a pending mode is entered once the element is not stale; a cluster dozes when its engines have nothing to run and none of its
elements is active (R210). -/
def Obligations.ElementsByRegisters : Prop :=
  ∀ (d : DieId) (s : State), let x := s.die d
    (x.barOpen = false → (∀ n, Makes (.hldElSelect d n) s s) ∧ (∀ v, Makes (.hldElApply d v) s s) ∧ Makes (.hldElClear d) s s ∧
      (∀ v, Makes (.hldElManWrite d v) s s)) ∧
    (x.running = false → ∀ c, Makes (.clusterDoze d c) s s) ∧
    (x.barOpen = true →
      (∀ n : BitVec 13, 5888 ≤ n.toNat → Makes (.hldElSelect d n) s s) ∧
      (∀ n : BitVec 13, n.toNat < 5888 → Makes (.hldElSelect d n) s (s.onDie d (fun x =>
        { (x.setRf Reg.HLD_EL_SEL F.HLD_EL_SEL_ELEMENT n.toNat).setReg64 Reg.HLD_EL_MAN (manWord (x.elem n.toNat)) with
          elSnap := x.elem n.toNat, elStale := stale s n.toNat }))) ∧
      (x.isDecl = false ∨ x.expert 1 = false → (∀ v, Makes (.hldElApply d v) s s) ∧ Makes (.hldElClear d) s s ∧
        ∀ v, Makes (.hldElManWrite d v) s s) ∧
      (x.isDecl = true → x.expert 1 = true → let e := x.rf Reg.HLD_EL_SEL F.HLD_EL_SEL_ELEMENT
        (∀ v : Word32, let s1 := putWord s d Reg.HLD_EL_CTRL (fput F.HLD_EL_CTRL_APPLY (fput F.HLD_EL_CTRL_CLEAR v.toNat 0) 0)
          ∀ r, ctrlReq x (fput F.HLD_EL_CTRL_APPLY v.toNat 1) = some r → Makes (.hldElApply d v) s (loopReq s1 d e 1 r)) ∧
        (let c := x.reg Reg.HLD_EL_CTRL
          let s1 := putWord s d Reg.HLD_EL_CTRL (fput F.HLD_EL_CTRL_APPLY (fput F.HLD_EL_CTRL_CLEAR c 0) 0)
          ∀ r, ctrlReq x (fput F.HLD_EL_CTRL_CLEAR c 1) = some r → Makes (.hldElClear d) s (loopReq s1 d e 1 r)) ∧
        (∀ v : Word64, let s1 := putWord64 s d Reg.HLD_EL_MAN v.toNat
          let w := (s1.die d).reg64 Reg.HLD_EL_MAN
          let s2 := s1.onDie d (fun x => x.onElem e (fun el =>
            { el with manHtr := bitsOf w 15 0, manPin := bitsOf w 27 16, manX2 := bitOf w 28, manGate := bitsOf w 45 32 }))
          ((x.elem e).mode ≠ 1 → Makes (.hldElManWrite d v) s s2) ∧
          ((x.elem e).mode = 1 → Makes (.hldElManWrite d v) s
            (loopReq s2 d e 1 ⟨some 1, false, false, bitsOf w 15 0, bitsOf w 27 16, bitOf w 28, bitsOf w 45 32, 0⟩))))) ∧
    (x.running = true →
      (∀ c : Fin 8, (∀ e ∈ clusterEngines c, (x.eng.engine e).deque = [] ∧ (x.eng.engine e).running = none) →
        (∀ p ∈ x.hold, bankOf p.1 = c.val → p.2.active = false) → x.eng.dozing c = false →
        Makes (.clusterDoze d c) s (s.onDie d (fun x => x.onEng (fun g => { (clusterEngines c).foldl (fun g e => g.onEngine e (fun n =>
          if n.state = 0 then { n with state := 2 } else n)) g with doze := g.doze ||| BitVec.ofNat 8 (2 ^ c.val) })))) ∧
      (∀ c : Fin 8, (∃ p ∈ x.hold, bankOf p.1 = c.val ∧ p.2.active = true) → Makes (.clusterDoze d c) s s)) ∧
    (∀ e : Fin 5888, let el := x.elem e
      (el.modePend = none → Makes (.loopModeApply d e) s s) ∧
      (∀ m k, el.modePend = some (m, k) → (stale s e = true ∨ x.inRun e = true → Makes (.loopModeApply d e) s s) ∧
        (stale s e = false → x.inRun e = false → Makes (.loopModeApply d e) s (loopSetDone (enterMode s d e m k) el.modeCmd) ∧
          (el.mode ≠ m → Answers (.loopModeApply d e) s (fun t => ((t.die d).elem e).mode = m ∧ ((t.die d).elem e).modePend = none)))))

/-- A run's stimulus steps once per period of its waveform (R226), and the end of a target's window is extended when too few conversions
came, recorded, and followed by the next window or by the target's leaving (R227). The bits of the PRBS waveform are free values (log entry
13). -/
def Obligations.DitherRunsAdvance : Prop :=
  (∀ (b : Fin 8) (s : State) (d : DieId), s.declarer = some d → let x := s.die d
    (x.dither.find? (fun r => r.bank = b.val) = none → Makes (.ditherRunStimulusUpdate b) s s) ∧
    (∀ r, x.dither.find? (fun r => r.bank = b.val) = some r →
      (r.begun = false ∨ r.stim = 0 → Makes (.ditherRunStimulusUpdate b) s s) ∧
      (r.begun = true → r.stim = 1 → (s.ticks - r.lastStim) / usT < 1 → Makes (.ditherRunStimulusUpdate b) s s) ∧
      (r.begun = true → r.stim = 1 → 1 ≤ (s.ticks - r.lastStim) / usT → Makes (.ditherRunStimulusUpdate b) s
        (stimAll s d { r with elapsed := r.elapsed + 1, lastStim := r.lastStim + usT,
                              value := chirp r.amp r.p1 r.p2 (r.nwin * r.window) (r.elapsed + 1) })) ∧
      (r.begun = true → r.stim = 2 → r.p2 ≤ (s.ticks - r.lastStim) / usT → let pr := Config.prbsNext r.p1 r.prbs
        Makes (.ditherRunStimulusUpdate b) s (stimAll s d { r with elapsed := r.elapsed + r.p2, lastStim := r.lastStim + r.p2 * usT, prbs := pr, value := prbsValue r.amp pr })))) ∧
  (∀ (e : Fin 5888) (s : State) (d : DieId), s.declarer = some d → let x := s.die d
    ((∀ r ∈ x.dither, ∀ t ∈ r.left, t.elem ≠ e.val) → Makes (.ditherRunWindowEnd e) s s) ∧
    (∀ r t, x.dither.find? (fun r => r.left.any (fun t => t.elem = e.val)) = some r → r.left.find? (fun t => t.elem = e.val) = some t →
      let few := ((s.bank (bankOf e)).chan (chanOf e)).store.count < 4
      let upd := fun q : DitherTarget => ({ r with left := r.left.map (fun t => if t.elem = e.val then q else t) } : DitherRun)
      (s.ticks - t.since < r.window * usT → Makes (.ditherRunWindowEnd e) s s) ∧
      (r.window * usT ≤ s.ticks - t.since → few → stale s e = false →
        Makes (.ditherRunWindowEnd e) s (setRun s d { r with left := r.left.map (fun t => if t.elem = e.val then { t with ext := true } else t) })) ∧
      (r.window * usT ≤ s.ticks - t.since → ¬ few ∨ stale s e = true → ∀ s1 st, readStore s d e = (s1, st) →
        (t.win + 1 < r.pre + r.nwin → r.begun = true ∨ t.win + 1 < r.pre →
          Makes (.ditherRunWindowEnd e) s (setRun (ditherRecord s1 d r t st false false) d (upd ⟨e, t.win + 1, s.ticks, false, stale s e⟩))) ∧
        (t.win + 1 < r.pre + r.nwin → r.begun = false → r.pre ≤ t.win + 1 →
          Makes (.ditherRunWindowEnd e) s (stimBegin (setRun (ditherRecord s1 d r t st false false) d (upd ⟨e, t.win + 1, s.ticks, false, stale s e⟩)) d
            (upd ⟨e, t.win + 1, s.ticks, false, stale s e⟩))) ∧
        (r.pre + r.nwin ≤ t.win + 1 →
          Makes (.ditherRunWindowEnd e) s (ditherLeave (ditherRecord s1 d r t st false true) d r.cmd e)))))

/-- For every fetched word without fault, message or store, read with or without a corrected bit: NEXT goes to the following address and
past the end of the space is a microcode fault, JUMP to the target, CALL pushes the following address, RET pops it, BRANCH goes to the
target when its condition holds; no other engine, no parked or armed task, no element and no deal of the die changes (R244). A word read
with two wrong bits is a microcode fault of cause 4 (R243). -/
def Obligations.MicrowordsSequence : Prop :=
  ∀ (d : DieId) (e : Fin 64) (rom : BitVec 128) (s : State),
    (∀ (m : Micro) (p : MicroPc) (el : Nat) (ecc : EccRead), ecc ≠ .double → RunsWord d e rom s m p el →
      let n := wordDone d e s m p el ecc
      let goes (c : Instr) (n' : Engine) := Answers c s (fun t => (t.die d).eng.engine e = n' ∧
        (∀ f : Fin 64, f ≠ e → (t.die d).eng.engine f = (s.die d).eng.engine f) ∧ (t.die d).hold = (s.die d).hold ∧ (t.die d).dealer = (s.die d).dealer ∧
        (t.die d).eng.parked = (s.die d).eng.parked ∧ (t.die d).eng.armed = (s.die d).eng.armed ∧
        (t.die d).reg Reg.UCS_MFAULT_CNT = ((wordBegun d e s p ecc).die d).reg Reg.UCS_MFAULT_CNT)
      (∀ q, m.seq = 0 → p.succ = some q → goes (.next d e ⟨rom, ecc⟩) { n with pc := q }) ∧
      (m.seq = 0 → p.succ = none → (∀ tk ∈ n.running, tk.type < 6) → n.merged = none → (∀ f : Fin 64, ((s.die d).eng.engine f).deque = []) →
        Answers (.next d e ⟨rom, ecc⟩) s (fun t => ((t.die d).eng.engine e).faultCause = 6)) ∧
      (m.seq = 1 → goes (.jump d e ⟨rom, ecc⟩) { n with pc := m.target }) ∧
      (m.seq = 2 → n.stack.length < 4 → goes (.call d e ⟨rom, ecc⟩) { n with stack := (p.succ.getD ⟨0, p.patch⟩) :: n.stack, pc := m.target }) ∧
      (∀ q l, m.seq = 3 → n.stack = q :: l → goes (.ret d e ⟨rom, ecc⟩) { n with stack := l, pc := q }) ∧
      (m.seq = 4 → m.cond = 0 → m.cinv = false → goes (.branch d e ⟨rom, ecc⟩) { n with pc := m.target }) ∧
      (∀ q, m.seq = 4 → m.cond = 1 → n.zero = m.cinv → p.succ = some q → goes (.branch d e ⟨rom, ecc⟩) { n with pc := q }) ∧
      (m.seq = 4 → m.cond = 1 → n.zero = !m.cinv → goes (.branch d e ⟨rom, ecc⟩) { n with pc := m.target })) ∧
    ((s.die d).enginesRun = true → ((s.die d).eng.engine e).state = 1 →
      let f := fetchWord (s.die d).eng ((s.die d).eng.engine e) rom
      ∀ c ∈ [Instr.next d e ⟨rom, .double⟩, .jump d e ⟨rom, .double⟩, .call d e ⟨rom, .double⟩, .ret d e ⟨rom, .double⟩, .branch d e ⟨rom, .double⟩,
          .dispatch d e ⟨rom, .double⟩, .wait d e ⟨rom, .double⟩],
        Makes c s (microFault (setPc s d e ⟨f.2.2, f.2.1⟩) d e 4))

/-- DISPATCH and WAIT end a slice, and WAIT parks the task with where and with what it resumes (R244); a released task is placed (R232), a
parked one whose wait is over resumes on an idle engine, a slice longer than 4 us of a task that is no self-test is a microcode fault, and
FENCE_REQUEST fences idle engines (R238, R241). Engines of a die that does not run do nothing. -/
def Obligations.TasksRun : Prop :=
  (∀ (d : DieId) (e : Fin 64) (rom : BitVec 128) (s : State),
    (∀ m p el ecc, ecc ≠ .double → RunsWord d e rom s m p el → let n := wordDone d e s m p el ecc
      (m.seq = 5 → n.merged = none → n.fenceReq = false → (∀ f : Fin 64, ((s.die d).eng.engine f).deque = []) → Answers (.dispatch d e ⟨rom, ecc⟩) s (fun t =>
        ((t.die d).eng.engine e).running = none ∧ ((t.die d).eng.engine e).state = 0 ∧ (t.die d).eng.parked = (s.die d).eng.parked)) ∧
      (∀ tk, m.seq = 5 → n.merged = none → n.fenceReq = false → bestHead n.deque = some tk → tk.type < 6 →
        Answers (.dispatch d e ⟨rom, ecc⟩) s (fun t => (t.die d).eng.engine e =
          { n with running := none, merged := none, deque := n.deque.erase tk }.start tk (s.die d).eng.active s.ticks)) ∧
      (∀ tk, m.seq = 6 → n.running = some tk → n.merged = none → n.fenceReq = false → (∀ f : Fin 64, ((s.die d).eng.engine f).deque = []) →
        Answers (.wait d e ⟨rom, ecc⟩) s (fun t => ((t.die d).eng.engine e).running = none ∧ ((t.die d).eng.engine e).state = 0 ∧
          (t.die d).eng.parked = (s.die d).eng.parked ++ [{ tk with parked := some ⟨m.target, n.stack, n.regs, m.cond, m.cinv,
            if m.cond = 0 && m.imm ≠ 0 then s.ticks + m.imm else 0⟩ }]))) ∧
    (∀ ecc, ((s.die d).enginesRun = false ∨ ((s.die d).eng.engine e).state ≠ 1 →
        ∀ c ∈ [Instr.next d e ⟨rom, ecc⟩, .jump d e ⟨rom, ecc⟩, .call d e ⟨rom, ecc⟩, .ret d e ⟨rom, ecc⟩, .branch d e ⟨rom, ecc⟩, .wait d e ⟨rom, ecc⟩], Makes c s s) ∧
      ((s.die d).enginesRun = false ∨ 2 ≤ ((s.die d).eng.engine e).state ∨ (((s.die d).eng.engine e).state = 0 ∧ (s.die d).eng.dozing (e / 8) = true) →
        Makes (.dispatch d e ⟨rom, ecc⟩) s s) ∧
      ((s.die d).enginesRun = true → ((s.die d).eng.engine e).state = 0 → (s.die d).eng.dozing (e / 8) = false →
        Makes (.dispatch d e ⟨rom, ecc⟩) s (dispatchEng s d e)))) ∧
  (∀ (d : DieId) (s : State), let x := s.die d
    (∀ el : Fin 5888,
      ((∀ t ∈ x.eng.armed, t.elem = el.val → s.ticks < t.release) → Makes (.taskRelease d el) s s) ∧
      (∀ t, x.eng.armed.find? (fun t => t.elem = el.val && decide (t.release ≤ s.ticks)) = some t →
        Makes (.taskRelease d el) s (placeTask (s.onDie d (fun x => x.onEng (fun g => g.disarm el))) d t)) ∧
      ∀ e : Fin 64,
        (x.enginesRun = false ∨ (x.eng.engine e).state ≠ 0 ∨ (∀ t ∈ x.eng.parked, t.elem ≠ el.val) → Makes (.waitResume d e el) s s) ∧
        (∀ t, x.enginesRun = true → (x.eng.engine e).state = 0 → x.eng.dozing (e / 8) = false → x.eng.parked.find? (fun t => t.elem = el.val) = some t →
          (waitOver s d e t = false → Makes (.waitResume d e el) s s) ∧
          (waitOver s d e t = true → Makes (.waitResume d e el) s (s.onDie d (fun x => x.onEng (fun g =>
            { (g.onEngine e (fun n => n.start t g.active s.ticks)) with parked := g.parked.filter (fun u => u.elem ≠ el.val) })))))) ∧
    (∀ e : Fin 64, let n := x.eng.engine e
      (n.running = none ∨ n.state ≠ 1 ∨ s.ticks - n.sliceAt ≤ 4 * usT → Makes (.sliceOverrun d e) s s) ∧
      (∀ t, n.running = some t → n.state = 1 → t.type ≠ tSelftest → 4 * usT < s.ticks - n.sliceAt →
        Makes (.sliceOverrun d e) s (microFault s d e 5))) ∧
    (x.barOpen = false ∨ x.writable Reg.UCS_FENCE_REQ = false → ∀ m, Makes (.fenceRequest d m) s s) ∧
    (x.barOpen = true → x.writable Reg.UCS_FENCE_REQ = true → ∀ m : Word64,
      (∀ e : Fin 64, bitOf (((putWord64 s d Reg.UCS_FENCE_REQ m.toNat).die d).reg64 Reg.UCS_FENCE_REQ) e = true → (x.eng.engine e).state = 0 →
        Answers (.fenceRequest d m) s (fun t => ((t.die d).eng.engine e).state = 3 ∧ ((t.die d).eng.engine e).fenceCause = 3))))

/-- An engine whose test is due and that is not running is tested: it goes on when the test passes and is fenced when it fails or does not
end within 25 us; a busy engine defers its test, and from the tenth time queues it as a task where its deque has room; a queued test that
runs ends so too (R238, R240). A planner engine goes on when its test passes; when it fails it is fenced, which DCK_PLAN_FENCE shows, no
other is, and the hold engines stay as they are (R187). -/
def Obligations.EnginesTestThemselves : Prop :=
  ∀ (d : DieId) (e : Fin 64) (s : State), let x := s.die d; let n := x.eng.engine e
    (x.enginesRun = false ∨ n.state = 3 → (∀ p, Makes (.selftest d (.hold e) p) s s) ∧ Makes (.selftestTimeout d e) s s) ∧
    (x.enginesRun = true → n.state ≠ 3 → n.testing = none →
      (testDue x n s.ticks = false → (∀ p, Makes (.selftest d (.hold e) p) s s) ∧ Makes (.selftestTimeout d e) s s) ∧
      (testDue x n s.ticks = true → n.state ≠ 1 → n.deque = [] →
        let s1 := s.onDie d (fun x => x.onEng (fun g => g.onEngine e (fun n => { n with lastTest := s.ticks, defer := 0 })))
        Makes (.selftest d (.hold e) true) s s1 ∧
        Makes (.selftest d (.hold e) false) s (fenceEngine (s1.onDie d (fun x => x.addTotal 4)) d e 1) ∧
        Makes (.selftestTimeout d e) s (fenceEngine (s.onDie d (fun x => x.addTotal 4)) d e 1)) ∧
      (testDue x n s.ticks = true → n.state = 1 → n.defer < 9 → (∀ t ∈ n.deque, t.type ≠ tSelftest) → ∀ p, Makes (.selftest d (.hold e) p) s
        (s.onDie d (fun x => x.onEng (fun g => g.onEngine e (fun n => { n with defer := n.defer + 1, lastTest := s.ticks }))))) ∧
      (testDue x n s.ticks = true → n.state = 1 → 9 ≤ n.defer → n.defer < 15 → (∀ t ∈ n.deque, t.type ≠ tSelftest) → n.deque.length < 128 →
        ∀ p, Makes (.selftest d (.hold e) p) s (s.onDie d (fun x => x.onEng (fun g =>
          (g.onEngine e (fun n => { n with defer := n.defer + 1, lastTest := s.ticks })).onEngine e (fun n =>
            { n with deque := n.deque ++ [⟨0, tSelftest, tCal + 1, s.ticks, none, none⟩] })))))) ∧
    (∀ t, x.enginesRun = true → n.state ≠ 3 → n.testing = some t →
      (s.ticks - t < 25 * usT → Makes (.selftestTimeout d e) s s) ∧
      (25 * usT ≤ s.ticks - t → Makes (.selftestTimeout d e) s (fenceEngine (s.onDie d (fun x => x.addTotal 4)) d e 1)) ∧
      let s1 := s.onDie d (fun x => x.onEng (fun g => g.onEngine e (fun n => { n with testing := none, running := none, lastTest := s.ticks, defer := 0 })))
      Makes (.selftest d (.hold e) true) s (dispatchEng s1 d e) ∧
      Makes (.selftest d (.hold e) false) s (fenceEngine (s1.onDie d (fun x => x.addTotal 4)) d e 1)) ∧
    (∀ k : Fin 32, Makes (.selftest d (.planner k) true) s s ∧
      (x.enginesRun = false ∨ x.routers.fence.getLsbD k = true → Makes (.selftest d (.planner k) false) s s) ∧
      (x.enginesRun = true → x.routers.fence.getLsbD k = false → Answers (.selftest d (.planner k) false) s (fun t => let y := t.die d
        y.routers.fence.getLsbD k = true ∧ (∀ j : Fin 32, j ≠ k → y.routers.fence.getLsbD j = x.routers.fence.getLsbD j) ∧
        y.reg Reg.DCK_PLAN_FENCE = y.routers.fence.toNat ∧ y.eng = x.eng)))

/-- On a running Declarer with the patch lock open: UCS_PATCH_DATA stages words up to the size of an image, VERIFY and CLEAR are refused
while the staging bank is not drained, a verified image fills the staging bank, and one that is not says why; ACTIVATE, when an image is
verified, waits for an instant without a deal and then swaps the banks of the die and of its mirror at once; DRAINED sets once no task runs
under the other bank (R251 to R254). -/
def Obligations.PatchBanks : Prop :=
  ∀ (d : DieId) (s : State), let x := s.die d; let act := 1 - x.eng.active
    (x.barOpen = false ∨ patchOpen x = false → (∀ w, Makes (.patchDataWrite d w) s s) ∧ Makes (.patchVerify d) s s ∧
      Makes (.patchActivate d) s s ∧ Makes (.patchClear d) s s) ∧
    (x.barOpen = true → patchOpen x = true →
      let p := x.rf Reg.UCS_PATCH_PTR F.UCS_PATCH_PTR_PTR / 4 * 4
      (4356 ≤ p → ∀ w, Makes (.patchDataWrite d w) s s) ∧
      (p < 4356 → ∀ w : Word32, Answers (.patchDataWrite d w) s (fun t => let y := t.die d
        y.eng = { x.eng with staged := memWrite x.eng.staged p (leBytes 4 w.toNat), loading := true, stagedLen :=
          if x.eng.loading then max x.eng.stagedLen (p + 4) else p + 4 } ∧
        y.rf Reg.UCS_PATCH_PTR F.UCS_PATCH_PTR_PTR = p + 4 ∧
        y.rf Reg.UCS_PATCH_STATUS F.UCS_PATCH_STATUS_STATE = (if x.rf Reg.UCS_PATCH_STATUS F.UCS_PATCH_STATUS_STATE = 2 then 2 else 1))) ∧
      (x.drained = false → x.eng.verifying = none →
        let busy := mirrorReg (s.setRf d Reg.UCS_PATCH_STATUS F.UCS_PATCH_STATUS_RESULT 7) d Reg.UCS_PATCH_STATUS
        Makes (.patchVerify d) s busy ∧ Makes (.patchClear d) s busy) ∧
      (x.drained = true → x.eng.verifying = none → Makes (.patchVerify d) s (mirrorReg (patchStatus (s.onDie d (fun x => x.onEng (fun g =>
          { g with verifying := some s.ticks, loading := false }))) d 2 0) d Reg.UCS_PATCH_STATUS)) ∧
      (x.eng.verifying.isSome = true → Makes (.patchVerify d) s s) ∧
      (x.drained = true → Makes (.patchClear d) s (mirrorPatch (patchStatus (s.onDie d (fun x => x.onEng (fun g =>
          { g.setStaging PatchBank.reset with verifying := none, loading := false }))) d 3 0) d)) ∧
      (x.rf Reg.UCS_PATCH_STATUS F.UCS_PATCH_STATUS_STATE ≠ 3 → Makes (.patchActivate d) s s) ∧
      (x.rf Reg.UCS_PATCH_STATUS F.UCS_PATCH_STATUS_STATE = 3 →
        (x.dealFree = false → Makes (.patchActivate d) s (s.onDie d (fun x => x.onEng (fun g => { g with asked := true })))) ∧
        (x.dealFree = true → Answers (.patchActivate d) s (fun t => ∀ c, c = d ∨ s.mirrored d = true → let y := t.die c
          y.eng = { (s.die c).eng with active := 1 - (s.die c).eng.active, asked := false } ∧ y.drained = false ∧
          y.rf Reg.UCS_PATCH_STATUS F.UCS_PATCH_STATUS_STATE = 0 ∧ y.rf Reg.UCS_PATCH_STATUS F.UCS_PATCH_STATUS_RESULT = 0)))) ∧
    (x.eng.verifying = none → Makes (.patchVerifyDone d) s s) ∧
    (x.eng.verifying.isSome = true → let l := x.eng.image; let r := patchResult l x.eng.stagedLen
      let s1 := s.onDie d (fun x => x.onEng (fun g => { g with verifying := none }))
      (r ≠ 0 → Makes (.patchVerifyDone d) s (mirrorPatch (patchStatus s1 d 1 r) d)) ∧
      (r = 0 → Makes (.patchVerifyDone d) s (mirrorPatch (patchStatus (s1.onDie d (fun x => x.onEng (fun g => g.setStaging
          ⟨patchMatches l (leAt l 8 2), patchWords l (leAt l 8 2) (leAt l 6 2), leAt l 12 4⟩))) d 3 0) d))) ∧
    (x.drained = true ∨ x.eng.underBank act = true → Makes (.patchDrained d) s s) ∧
    (x.drained = false → x.eng.underBank act = false →
      Makes (.patchDrained d) s (mirrorReg (s.setRf d Reg.UCS_PATCH_STATUS F.UCS_PATCH_STATUS_DRAINED 1) d Reg.UCS_PATCH_STATUS))

/-- A running die sends a heartbeat with its RED_MODE every 1 us while the mirror link is up; each window without one is counted, and the
fourth in a row declares the peer lost; a watchdog finding resets the die (R422). The peer and the mirror link absent for more than 100 ms
raise the replacement request (R471). The totals are reported every 1 s (R438). -/
def Obligations.Heartbeats : Prop :=
  ∀ (d : DieId) (s : State), let x := s.die d
    (x.running = false → Makes (.heartbeatSend d) s s ∧ Makes (.heartbeatWindowMiss d) s s ∧ Makes (.watchdogStall d) s s ∧
      Makes (.peerAbsenceTimeout d) s s ∧ Makes (.healthReport d) s s) ∧
    (x.running = true →
      (s.mirror.state ≠ 2 → Makes (.heartbeatSend d) s s) ∧
      (x.red.hbSent ≠ 0 → s.ticks - x.red.hbSent < usT → Makes (.heartbeatSend d) s s) ∧
      (s.mirror.state = 2 → x.red.hbSent = 0 ∨ usT ≤ s.ticks - x.red.hbSent → (s.die d.peer).running = false →
        Makes (.heartbeatSend d) s ((s.onDie d (fun x => x.onRed (fun r => { r with hbSent := s.ticks }))).emit
          (.heartbeat d (BitVec.ofNat 32 (x.reg Reg.RED_MODE))))) ∧
      (s.mirror.state = 2 → x.red.hbSent = 0 ∨ usT ≤ s.ticks - x.red.hbSent → (s.die d.peer).running = true → Answers (.heartbeatSend d) s (fun t =>
        let y := t.die d.peer
        y.red.hbSeen = true ∧ y.red.peerMode = BitVec.ofNat 32 (x.reg Reg.RED_MODE) ∧ y.red.peerLost = false ∧
        y.rf Reg.RED_STATUS F.RED_STATUS_HB_MISS = 0 ∧ y.rf Reg.RED_MODE F.RED_MODE_PEER_OK = 1 ∧ t.mirror.bad = 0)) ∧
      (let w := if x.red.hbSeen then x.red.window + usT else x.red.window
      (s.ticks < w + usT → Makes (.heartbeatWindowMiss d) s s) ∧
      (w + usT ≤ s.ticks → let n := min 15 (x.rf Reg.RED_STATUS F.RED_STATUS_HB_MISS + 1)
        let s1 := s.onDie d (fun x => (((x.onRed (fun r => { r with hbSeen := false, window := w + usT })).setRf Reg.RED_STATUS
          F.RED_STATUS_HB_MISS n).count Reg.RED_HB_CNT F.RED_HB_CNT_MISSED).addTotal 1)
        (n < 4 ∨ x.peerOk = false → Makes (.heartbeatWindowMiss d) s s1) ∧
        (4 ≤ n → x.peerOk = true → Makes (.heartbeatWindowMiss d) s (peerLoss s1 d)))) ∧
      Makes (.watchdogStall d) s (dieReset s d 4) ∧
      Answers (.watchdogStall d) s (fun t => (t.die d).life = .held 4 s.ticks ∧ (t.die d).running = false ∧ t.mirror = Link.down) ∧
      ((s.cd0.isDummy = false ∧ s.cd1.isDummy = false) → Answers (.peerAbsenceTimeout d) s (fun t => let y := t.die d
        (∀ a, x.red.absentSince = some a → 100 * msT < s.ticks - a → y.flt.repl.getLsbD rpCdie = true) ∧
        ((∀ a, x.red.absentSince = some a → s.ticks - a ≤ 100 * msT) → y.flt.repl.getLsbD rpCdie = x.flt.repl.getLsbD rpCdie) ∧
        (∀ a, x.red.mirrorDownSince = some a → 100 * msT < s.ticks - a → y.flt.repl.getLsbD rpMirror = true) ∧
        ((∀ a, x.red.mirrorDownSince = some a → s.ticks - a ≤ 100 * msT) → y.flt.repl.getLsbD rpMirror = x.flt.repl.getLsbD rpMirror))) ∧
      (s.ticks - x.red.lastReport < secT → Makes (.healthReport d) s s) ∧
      (secT ≤ s.ticks - x.red.lastReport → Makes (.healthReport d) s
        (s.onDie d (fun x => x.onRed (fun r => { r with last := x.healthTotals, lastReport := s.ticks })))))

/-- A Declarer that lost its peer asks the bank dies it reaches after 10 us and is solo or deposed (R424); a refusal deposes a Declarer at
once, and a former one that was to reset does so (R64); a claimant repeats its claims every 1 us (R427), abandons them after 10 us of
refusals by all eight (R427), is granted or refused (R428, R64); the overlap after a grant on silence ends after 2 us (R268), and a copy
without its partner for 10 us counts as missing (R269). -/
def Obligations.ClaimsAndTokens : Prop :=
  (∀ (d : DieId) (s : State), let x := s.die d
    let asked := (List.range 8).filter (fun b => (s.bank b).up d)
    (x.isDecl = false ∨ x.taking = true ∨ x.red.peerLost = false ∨ x.solo = true ∨ s.ticks - x.red.lostAt < 10 * usT → Makes (.soloCheck d) s s) ∧
    (x.isDecl = true → x.taking = false → x.red.peerLost = true → x.solo = false → 10 * usT ≤ s.ticks - x.red.lostAt →
      ((∃ b ∈ asked, (s.bank b).holds d.peer = true) → Makes (.soloCheck d) s (depose s d false)) ∧
      ((∀ b ∈ asked, (s.bank b).holds d = true ∧ (s.bank b).holds d.peer = false) →
        Makes (.soloCheck d) s (confirmAcks (s.setRf d Reg.RED_STATUS F.RED_STATUS_SOLO 1) d))) ∧
    (∀ b : Fin 8, x.running = false ∨ (s.bank b).up d = false ∨ (s.bank b).holder ≠ some d.peer → Makes (.tokenRefused d b) s s) ∧
    (x.red.takeover = none →
      (x.isDecl = false → Makes (.claimRepeat d) s s) ∧
      (x.isDecl = true → x.running = true → (∀ b < 8, (s.bank b).up d = true → (s.bank b).holds d = true) → Makes (.claimRepeat d) s s) ∧
      (x.isDecl = true → x.running = true → Makes (.claimRepeat d) s ((List.range 8).foldl (fun s b =>
        if (s.bank b).up d && !(s.bank b).holds d then s.emit (.bank d b mClaim []) else s) s)) ∧
      Makes (.claimAbandon d) s s ∧
      (∀ b : Fin 8, x.isDecl = true → x.running = true → (s.bank b).up d = true → (s.bank b).holder = some d.peer →
        Makes (.tokenRefused d b) s (depose s d true)) ∧
      (∀ b : Fin 8, x.isDecl = true → (s.bank b).up d = true → (s.bank b).holds d = true →
        Makes (.tokenGranted d b) s (s.emit (.bank d b mBlindCtx (blindTables x b)))) ∧
      (∀ b : Fin 8, x.isDecl = false → Makes (.tokenRefused d b) s s ∧ Makes (.tokenGranted d b) s s)) ∧
    (∀ t, x.red.takeover = some t →
      (t.claimant = true → usT ≤ s.ticks - t.lastClaim →
        Makes (.claimRepeat d) s ((List.range 8).foldl (fun s b => if (s.bank b).up d && !(s.bank b).holds d then s.emit (.bank d b mClaim []) else s)
          (s.onDie d (fun x => x.onTakeover (fun t => { t with lastClaim := s.ticks }))))) ∧
      (t.claimant = false ∨ s.ticks - t.lastClaim < usT → Makes (.claimRepeat d) s s) ∧
      (t.claimant = false ∨ t.refused ≠ BitVec.allOnes 8 ∨ s.ticks - t.since < 10 * usT → Makes (.claimAbandon d) s s) ∧
      (t.claimant = true → t.refused = BitVec.allOnes 8 → 10 * usT ≤ s.ticks - t.since → t.cmd = none →
        Answers (.claimAbandon d) s (fun u => let y := u.die d
          y.red.takeover = none ∧ y.rf Reg.RED_STATUS F.RED_STATUS_ABANDONED = 1 ∧ y.rf Reg.RED_MODE F.RED_MODE_ROLE = 0)) ∧
      (∀ b : Fin 8, t.claimant = true → x.running = true → (s.bank b).up d = true → (s.bank b).holder = some d.peer →
        Makes (.tokenRefused d b) s (s.onDie d (fun x => x.onTakeover (fun t => { t with refused := t.refused ||| BitVec.ofNat 8 (2 ^ b.val) })))) ∧
      (∀ b : Fin 8, t.claimant = false → x.running = true → (s.bank b).up d = true → (s.bank b).holder = some d.peer →
        (x.isDecl = false → Makes (.tokenRefused d b) s s) ∧
        (x.isDecl = true → t.yieldAt.isSome = true → Makes (.tokenRefused d b) s (setRole s d 2 0)) ∧
        (x.isDecl = true → t.yieldAt = none → t.resetAfter = none → Makes (.tokenRefused d b) s (depose s d true)) ∧
        (∀ r, x.isDecl = true → t.yieldAt = none → t.resetAfter = some r → Makes (.tokenRefused d b) s (dieReset (depose s d true) d r))) ∧
      (∀ b : Fin 8, t.claimant = true → (s.bank b).up d = true → (s.bank b).holds d = true → t.granted.getLsbD b = false →
        t.planned = true → t.resetAfter = none → t.granted ||| BitVec.ofNat 8 (2 ^ b.val) = BitVec.allOnes 8 →
        Makes (.tokenGranted d b) s (reconcile (s.onDie d (fun x => x.onTakeover (fun t => { t with
          granted := BitVec.allOnes 8, refused := t.refused &&& ~~~ BitVec.ofNat 8 (2 ^ b.val), firstWrite := some s.ticks }))) d b)) ∧
      (∀ b : Fin 8, t.claimant = true → (s.bank b).up d = true → (s.bank b).holds d = true → t.granted.getLsbD b = false →
        t.planned = true → t.resetAfter = none → t.granted ||| BitVec.ofNat 8 (2 ^ b.val) ≠ BitVec.allOnes 8 →
        Makes (.tokenGranted d b) s (reconcile (s.onDie d (fun x => x.onTakeover (fun t => { t with
          granted := t.granted ||| BitVec.ofNat 8 (2 ^ b.val), refused := t.refused &&& ~~~ BitVec.ofNat 8 (2 ^ b.val), firstWrite := none }))) d b)) ∧
      (∀ b : Fin 8, t.claimant = false ∨ (s.bank b).up d = false ∨ (s.bank b).holds d = false ∨ t.granted.getLsbD b = true →
        Makes (.tokenGranted d b) s s))) ∧
  (∀ (b : Fin 8) (s : State), let k := s.bank b
    (k.overlap = none → Makes (.overlapEnd b) s s) ∧
    (∀ p e, k.overlap = some (p, e) →
      (s.ticks < e → Makes (.overlapEnd b) s s) ∧
      (e ≤ s.ticks → (∀ h, k.holder = some h → (s.die h).taking = false) → Makes (.overlapEnd b) s (s.onBank b (fun k => { k with overlap := none }))) ∧
      (∀ h, e ≤ s.ticks → k.holder = some h → (s.die h).taking = true → (s.die h).hasToken = true →
        Makes (.overlapEnd b) s (reconcile (s.onBank b (fun k => { k with overlap := none })) h b))) ∧
    ((∀ c ∈ k.copies, s.ticks - c.since ≤ 10 * usT) → Makes (.shadowCopyTimeout b) s s) ∧
    (∀ c, k.copies.filter (fun c => decide (10 * usT < s.ticks - c.since)) = [c] →
      Makes (.shadowCopyTimeout b) s (bankDiff (s.onBank b (fun k => { k with copies := k.copies.filter (fun e => e != c) })) b true) ∧
      Answers (.shadowCopyTimeout b) s (fun t => (t.bank b).missing = min (2 ^ 16 - 1) (k.missing + 1) ∧
        (t.bank b).copies = k.copies.filter (fun c => decide (s.ticks - c.since ≤ 10 * usT)))))

/-- A planned takeover yields once no command and no record waits for the mirror: the former Declarer becomes Dummy and the claimant claims
(R429); full service clears TAKEOVER and records gap and service time (R430, R431); a die without a role or a Dummy over its mismatch limit
loads the Declarer's state and becomes Dummy (R63, R421). That its BASE stays BOOT while it loads is the model's choice (log entry 105). -/
def Obligations.TakeoversAndResync : Prop :=
  (∀ (d : DieId) (s : State), let x := s.die d
    (x.red.takeover = none → Makes (.yieldPoint d) s s ∧ Makes (.fullFabricService d) s s) ∧
    (∀ t, x.red.takeover = some t →
      (x.yielding = false ∨ (∃ c ∈ x.cmds, ∃ q u, c.stage = .acking q u) ∨ (readyDummy s d.peer = true ∧ x.red.sent ≠ []) → Makes (.yieldPoint d) s s) ∧
      (t.claimant = false ∨ t.firstWrite = none → Makes (.fullFabricService d) s s) ∧
      (x.yielding = true → (∀ c ∈ x.cmds, ∀ q u, c.stage ≠ .acking q u) → readyDummy s d.peer = false → t.cmd = none → t.resetAfter = none →
        Makes (.yieldPoint d) s (s.onDie d (fun x => x.onRed (fun r => { r with takeover := none })))) ∧
      (x.yielding = true → (∀ c ∈ x.cmds, ∀ q u, c.stage ≠ .acking q u) → readyDummy s d.peer = true → x.red.sent = [] → t.resetAfter = none →
        Answers (.yieldPoint d) s (fun u => (u.die d).rf Reg.RED_MODE F.RED_MODE_ROLE = 2 ∧
          (∃ c, (u.die d.peer).red.takeover = some c ∧ c.claimant = true ∧ c.planned = true ∧ c.since = t.since ∧ c.cmd = t.cmd))) ∧
      (∀ fw, t.claimant = true → t.firstWrite = some fw → t.cmd = none → x.running = true → x.red.held = [] → Answers (.fullFabricService d) s (fun u => let y := u.die d
        y.red.takeover = none ∧ y.red.held = [] ∧ (u.die d.peer).red.takeover = none ∧
        y.rf Reg.RED_MODE F.RED_MODE_ROLE = 1 ∧ y.rf Reg.RED_MODE F.RED_MODE_TAKEOVER = 0 ∧
        y.rf Reg.RED_TO_GAP F.RED_TO_GAP_SERVICE_US = min 65535 ((s.ticks - t.since) / usT) ∧
        y.rf Reg.RED_TO_GAP F.RED_TO_GAP_GAP_NS = min 65535 (fw - t.gapFrom))))) ∧
  (∀ (d : DieId) (s : State), let x := s.die d
    (x.running = false ∨ resyncFrom s d = false → Makes (.resyncStart d) s s) ∧
    (overLimit x = false → x.role ≠ 0 ∨ x.red.loading = true → Makes (.resyncStart d) s s) ∧
    (x.running = true → resyncFrom s d = true → overLimit x = true ∨ (x.life = .up ∧ x.role = 0 ∧ x.red.loading = false) →
      Answers (.resyncStart d) s (fun t => let y := t.die d
        y.rf Reg.RED_MODE F.RED_MODE_RESYNC = 1 ∧ y.rf Reg.RED_MODE F.RED_MODE_ROLE = 0 ∧ y.red.loading = true ∧ y.red.held = [] ∧ y.red.takeover = none ∧
        (t.die d.peer).red.sent = [] ∧ (t.die d.peer).red.acks = [])) ∧
    (x.inResync = false ∨ x.red.loading = false ∨ resyncFrom s d = false → Makes (.resyncComplete d) s s) ∧
    (x.inResync = true → x.red.loading = true → resyncFrom s d = true → x.running = true → (s.die d.peer).red.waitPeer = false →
      Answers (.resyncComplete d) s (fun t => let y := t.die d; let z := s.die d.peer
        y.rf Reg.RED_MODE F.RED_MODE_RESYNC = 0 ∧ y.rf Reg.RED_MODE F.RED_MODE_ROLE = 2 ∧ y.dealer = z.dealer ∧ y.decks = z.decks ∧ y.cal = x.cal.mirrored z.cal ∧
        (t.die d.peer).rf Reg.RED_STATUS F.RED_STATUS_SOLO = 0)))

/-- A write of 1 clears the sticky and RAW bits of an event source, but a bit whose event comes in the same clock cycle (R464, R19); a force
bit is written only where it may be, and its rise is an occurrence (R463, R466); a reaction word of a reserved source or with a reserved
code is ignored, any other is stored (R467). -/
def Obligations.FaultRegisters : Prop :=
  ∀ (d : DieId) (s : State), let x := s.die d
    (x.barOpen = false → (∀ w v, Makes (.fltStickyClear d w v) s s) ∧ (∀ w v, Makes (.fltForceWrite d w v) s s) ∧
      ∀ n v, Makes (.fltSrcWrite d n v) s s) ∧
    (x.barOpen = true →
      (∀ (w : Fin 8) (v : Word32), let c := x.clearing (Reg.FLT_STICKY 0 + 4 * w) v.toNat; Answers (.fltStickyClear d w v) s (fun t => ∀ i : Fin 32, let src := 32 * w.val + i.val
        srcIsLevel src = false → src ≠ 161 →
          (t.die d).mapBit (Reg.FLT_STICKY 0) src = (x.mapBit (Reg.FLT_STICKY 0) src && !bitOf c i) ∧
          (bitOf c i = true → x.mapBit (Reg.FLT_STICKY 0) src = true → (t.die d).flt.raw.getLsbD src = false))) ∧
      (∀ (w : Fin 8) (v : Word32), Answers (.fltForceWrite d w v) s (fun t => ∀ i : Fin 32, let src := 32 * w.val + i.val
        (forceOpen s d src = false → (t.die d).mapBit (Reg.FLT_FORCE 0) src = x.mapBit (Reg.FLT_FORCE 0) src) ∧
        (forceOpen s d src = true → (t.die d).mapBit (Reg.FLT_FORCE 0) src = bitOf v.toNat i ∧
          (x.mapBit (Reg.FLT_FORCE 0) src = false → bitOf v.toNat i = true → (t.die d).mapBit (Reg.FLT_STICKY 0) src = true)))) ∧
      (∀ (n : BitVec 8) (v : Word32), srcReserved n.toNat = true ∨ 6 ≤ fget F.FLT_SRC_NORMAL v.toNat ∨ 6 ≤ fget F.FLT_SRC_SEVERE v.toNat →
        Makes (.fltSrcWrite d n v) s s) ∧
      (∀ (n : BitVec 8) (v : Word32), srcReserved n.toNat = false → fget F.FLT_SRC_NORMAL v.toNat < 6 → fget F.FLT_SRC_SEVERE v.toNat < 6 →
        Makes (.fltSrcWrite d n v) s (putWord s d (Reg.FLT_SRC n.toNat) v.toNat)))

/-- FAULT_REACTION takes the earliest recorded occurrence and reacts by its source's word (R467, R468); a window of a source expires and
ends its count (R469), and an escalation entry of an instance ends with its window (R436). -/
def Obligations.FaultsReact : Prop :=
  (∀ (d : DieId) (n : Fin 250) (s : State), let x := s.die d; let k := Reg.FLT_SRC n
    ((∀ o ∈ x.flt.occ, o.source ≠ n.val) → Makes (.faultReaction d n) s s) ∧
    (∀ o, x.flt.occ.find? (fun o => o.source = n.val) = some o →
      (x.running = false ∨ recovering s o = true → Makes (.faultReaction d n) s s) ∧
      (x.running = true → recovering s o = false →
        Makes (.faultReaction d n) s (react (s.onDie d (fun x => x.onFlt (fun f => { f with occ := f.occ.erase o }))) d o) ∧
        (x.rf k F.FLT_SRC_NORMAL ≤ 3 → x.rf k F.FLT_SRC_SEVERE ≤ 3 → s.esc = [] →
          let opened := x.flt.windows.any (fun w => w.source = n.val)
          let count := if opened then min 255 (x.rf k F.FLT_SRC_COUNT + 1) else 1
          let severe := decide (max 1 (x.rf k F.FLT_SRC_N) ≤ count) || x.flt.promo.getLsbD n
          Answers (.faultReaction d n) s (fun t => let y := t.die d
            y.rf k F.FLT_SRC_COUNT = count ∧ y.flt.promo.getLsbD n = severe ∧
            y.flt.pin.getLsbD n = decide (2 ≤ x.rf k (if severe then F.FLT_SRC_SEVERE else F.FLT_SRC_NORMAL)) ∧
            (opened = false → ∃ w ∈ y.flt.windows, w.source = n.val ∧ w.closes = s.ticks + winTicks x (x.rf k F.FLT_SRC_WIN)))))) ∧
    (x.running = false ∨ (∀ w ∈ x.flt.windows, w.source = n.val → s.ticks < w.closes) → Makes (.faultWindowExpiry d n) s s) ∧
    (∀ w ∈ x.flt.windows, x.running = true → w.source = n.val → w.closes ≤ s.ticks →
      Answers (.faultWindowExpiry d n) s (fun t => let y := t.die d
        y.rf k F.FLT_SRC_COUNT = 0 ∧ (∀ v ∈ y.flt.windows, v.source ≠ n.val) ∧
        y.flt.promo.getLsbD n = (x.flt.promo.getLsbD n && x.mapBit (Reg.FLT_STICKY 0) n)))) ∧
  (∀ (k : Fin 5) (i : Nat) (s : State),
    ((∀ e ∈ s.esc, e.dom.num = k.val → e.inst = i → s.ticks < e.ends) → Makes (.escalationWindowExpiry k i) s s) ∧
    ((∃ e ∈ s.esc, e.dom.num = k.val ∧ e.inst = i ∧ e.ends ≤ s.ticks) → Answers (.escalationWindowExpiry k i) s (fun t =>
      t.esc = s.esc.filter (fun e => !(decide (e.dom.num = k.val) && decide (e.inst = i) && decide (e.ends ≤ s.ticks))) ∧
      ∀ d, (s.die d).running = true → (s.die d).rf (Reg.RED_ESC k) F.RED_ESC_INSTANCE = i →
        (t.die d).rf (Reg.RED_ESC k) F.RED_ESC_LEVEL = 0)))

/-- SELF_CAL_COMPLETE enters DARK once every reachable bank die is done (R50); BENCH_RECOMPUTE_DONE and CALIBRATION_BOUNDARY put what is
pending in force, the boundary with a deal that parks newly benched cells (R154, R298; the deal is log entry 106); surveys start for the
cell surveyed longest ago and end with a pending trim (R302, R303); the fabric temperature is filtered at most every 1 ms (R286). -/
def Obligations.CalibrationProceeds : Prop :=
  (∀ (s : State) (d : DieId), s.declarer = some d → let x := s.die d
    (∀ req dn, x.trans = .selfCal req dn true →
      ((∃ b < 8, dn.getLsbD b = false ∧ (s.bank b).up d = true) → Makes .selfCalComplete s s) ∧
      ((∀ b < 8, (s.bank b).up d = true → dn.getLsbD b = true) → Answers .selfCalComplete s (fun t =>
        (t.die d).trans = .none ∧ (t.die d).base = mDark ∧
          (req = true → (t.die d).rf Reg.RED_MODE_REQ F.RED_MODE_REQ_STATUS = 1)))) ∧
    (x.trans = .none → Makes .selfCalComplete s s) ∧
    (x.routersStopped = true → Makes .benchRecomputeDone s s) ∧
    (x.routersStopped = false → Makes .benchRecomputeDone s
      (mirrorCal (mirrorDecks (s.onDie d (fun x => (recomputed x).onRouters (·.drop RouteTask.isImage))) d) d)) ∧
    (x.rbit Reg.RED_MODE F.RED_MODE_TAKEOVER = true → Makes .calibrationBoundary s s) ∧
    (x.rbit Reg.RED_MODE F.RED_MODE_TAKEOVER = false → x.calNow = x.cal → Makes .calibrationBoundary s (parkDeal s d)) ∧
    (x.rbit Reg.RED_MODE F.RED_MODE_TAKEOVER = false → x.calNow ≠ x.cal →
      Makes .calibrationBoundary s (parkDeal (calApply s d x.calNow (calDiff x.cal x.calNow)) d)) ∧
    (∀ c : Fin 4864,
      (x.cal.survey.isSome = true ∨ surveyable s d c = false → Makes (.surveyStart c) s s) ∧
      (∀ i, x.cal.survey = none → surveyable s d c = true →
        (∀ e < 4864, olderSurvey (surveyed x e) (surveyed x c) = true → surveyable s d e = false) → surveyInput s d c = some i →
        Makes (.surveyStart c) s (driveOut (queueTask (s.onDie d (fun x => { x with cal := { x.cal with
          survey := some ⟨c, i, s.ticks, 0⟩ } })) d c tCal) d (4864 + i) .gate (x.cal.gateCode i 0).toNat false surveyGroup)) ∧
      ∀ r : SurveyResult,
        (x.cal.survey = none → Makes (.surveyEnd c r) s s) ∧
        (∀ v, x.cal.survey = some v → v.cell ≠ c.val → Makes (.surveyEnd c r) s s) ∧
        (∀ v, x.cal.survey = some v → v.cell = c.val → let s2 := (if sweepSteps < v.step then s else surveyRestore s d v).onDie d (fun x =>
            { x.count Reg.CAL_SURVEY_CNT F.CAL_SURVEY_CNT_DONE with cal := { x.cal with survey := none, field := x.cal.field ++ [⟨c, r.heaterFold, some r.ipi, x.nowUp, false⟩], quality := spPut c ⟨r.extBar.toNat, r.extCross.toNat, r.lock.toNat, s.ticks⟩ x.cal.quality } })
          Makes (.surveyEnd c r) s (mirrorCal (judgeCell s2 d c) d)))) ∧
  (∀ (d : DieId) (s : State), let x := s.die d
    (x.running = false ∨ (x.cal.lastTf ≠ 0 ∧ s.ticks - x.cal.lastTf < msT) ∨ x.thm.fabricTemp = none → Makes (.tFFilterUpdate d) s s) ∧
    (∀ u, x.running = true → x.isDecl = false → msT ≤ s.ticks - x.cal.lastTf → x.thm.fabricTemp = some u →
      let s1 := s.onDie d (fun x => Die.covered { x with cal := x.cal.filter u (max 1 s.ticks) })
      Makes (.tFFilterUpdate d) s (if bracket x.cal.active x.cal.useTemp = bracket (s1.die d).cal.active (s1.die d).cal.useTemp then s1 else judgeAll s1 d)) ∧
    (∀ u, x.running = true → x.isDecl = true → msT ≤ s.ticks - x.cal.lastTf → x.thm.fabricTemp = some u →
      Answers (.tFFilterUpdate d) s (fun t => (t.die d).cal.tf = (x.cal.filter u (max 1 s.ticks)).tf ∧ (t.die d).cal.lastTf = max 1 s.ticks)))

/-- A unit takes its own channel of a zone and trips a READY local zone it finds open; SAFE_ESTOP_N low trips zone E on every unit that runs
and takes every permit away, and high again leaves it tripped (R445, R446, R449). After 100 ms closed a tested zone is wanted READY, a
difference of the channels longer than 50 ms makes it UNTESTED, and with AUTO_RESET 100 ms clear ask for READY (R447). -/
def Obligations.GuardInputsAndZones : Prop :=
  ((∀ (u : DieId) (z : Fin 4) (closed : Bool) (s : State),
    (unitOn s u = false → Makes (.guardChannelFiltered u z closed) s s) ∧
    (unitOn s u = true → Answers (.guardChannelFiltered u z closed) s (fun t =>
      let old := (s.die u).lgd.zone z; let new := (t.die u).lgd.zone z
      (u = .cd0 → new.chA = closed ∧ new.chB = old.chB) ∧ (u = .cd1 → new.chB = closed ∧ new.chA = old.chA) ∧
      (closed = false → (s.die u).zoneEn z = true → (s.die u).rbit (Reg.LGD_ZCFG z) F.LGD_ZCFG_LOCAL = true → old.state = .ready →
        new.state = .tripped ∧ new.unreset = true ∧ new.trips = (old.trips + 1) % 65536) ∧
      (old.state ≠ .ready → new.state = old.state) ∧
      (t.die u.peer).lgd.zone z = (s.die u.peer).lgd.zone z))) ∧
  (∀ s : State,
    Answers .safeEstop s (fun t => t.pins.estopN = false ∧
      ∀ u, unitOn s u = true → (t.die u).lgd.eTripped = true ∧ (t.die u).lgd.eClear = none ∧ ∀ k : Fin 8, ((t.die u).lgd.permit k).granted = false) ∧
    Answers .safeEstopRelease s (fun t => t.pins.estopN = true ∧
      ∀ u, unitOn s u = true → (t.die u).lgd.eClear = some (if ((s.die u).sdEn && (s.die u).lgd.sd.estop) || (s.die u).rbit Reg.LGD_FORCE F.LGD_FORCE_ESTOP
          then s.ticks else (s.die u).lgd.eClear.getD s.ticks) ∧
        ((s.die u).lgd.eTripped = true → (t.die u).lgd.eTripped = true)))) ∧
  (∀ (z : Fin 4) (s : State),
    Answers (.zoneStartupTestDone z) s (fun t => ∀ u, let v := (s.die u).lgd.zone z; let w := (t.die u).lgd.zone z
      w = { v with wantReady := v.wantReady || (unitOn s u && (s.die u).zoneEn z && v.state == ZoneState.untested && v.seenA && v.seenB &&
        held100 s v.closedSince) }) ∧
    Answers (.zoneDiscrepancy z) s (fun t => ∀ u, let v := (s.die u).lgd.zone z; let w := (t.die u).lgd.zone z
      (∀ a, unitOn s u = true → (s.die u).zoneEn z = true → v.differSince = some a → 50 * msT < s.ticks - a →
        w.state = .untested ∧ w.disc = true ∧ w.wantReady = false) ∧
      (unitOn s u = false ∨ (s.die u).zoneEn z = false ∨ v.differSince = none → w = v)) ∧
    Answers (.zoneAutoReset ⟨z.val, by omega⟩) s (fun t => ∀ u, let v := (s.die u).lgd.zone z; let w := (t.die u).lgd.zone z
      w = { v with wantReady := v.wantReady || (unitOn s u && (s.die u).rbit (Reg.LGD_ZCFG z) F.LGD_ZCFG_AUTO_RESET &&
        v.state == ZoneState.tripped && held100 s v.clearSince) }) ∧
    Answers (.zoneAutoReset 4) s (fun t => ∀ u, unitOn s u = true →
      (t.die u).lgd.eWant = ((s.die u).lgd.eWant || ((s.die u).rbit Reg.LGD_GCFG F.LGD_GCFG_E_AUTO_RESET && (s.die u).lgd.eTripped &&
        held100 s (s.die u).lgd.eClear && !(s.die u).estop))))

/-- With both units running, an exchange gives each the other's channel, makes a zone READY only when both want it and, both being sound,
then does so, and leaves the permits of both equal (R441); unequal configurations, a cross-link silent for 100 us and a failed self-test or
peer leave no permit granted (R442 to R444). With a unit missing there is no exchange. -/
def Obligations.UnitsAgree : Prop :=
  ∀ s : State,
    (unitOn s .cd0 = false ∨ unitOn s .cd1 = false → Makes .crossLinkExchange s s ∧ Makes .configCrcCompare s s) ∧
    (unitOn s .cd0 = true → unitOn s .cd1 = true →
      Answers .crossLinkExchange s (fun t =>
        (∀ u, (t.die u).lgd.xlink = true ∧ (t.die u).lgd.lastXchg = s.ticks) ∧
        (∀ z : Fin 4, ∀ u, ((t.die u).lgd.zone z).chA = (s.cd0.lgd.zone z).chA ∧ ((t.die u).lgd.zone z).chB = (s.cd1.lgd.zone z).chB) ∧
        (∀ z : Fin 4, bothSound s = true → (s.cd0.lgd.zone z).wantReady = true → (s.cd1.lgd.zone z).wantReady = true → (s.cd0.lgd.zone z).state = .tripped →
          (s.cd1.lgd.zone z).state = .tripped → (∀ u, ((swapInputs s).die u).zoneOpen z = false) → ∀ u, ((t.die u).lgd.zone z).state = .ready ∧ ((t.die u).lgd.zone z).unreset = false) ∧
        (∀ z : Fin 4, (s.cd0.lgd.zone z).wantReady = false → (s.cd0.lgd.zone z).state ≠ .ready → ∀ u,
          ((t.die u).lgd.zone z).state = .ready → ((s.die u).lgd.zone z).state = .ready) ∧
        (∀ k : Fin 8, ((t.die .cd0).lgd.permit k).granted = ((t.die .cd1).lgd.permit k).granted)) ∧
      Answers .configCrcCompare s (fun t => ∀ u, (t.die u).lgd.cfgMatch = decide (lgdConfig s.cd0 = lgdConfig s.cd1) ∧
        (lgdConfig s.cd0 ≠ lgdConfig s.cd1 → ∀ k : Fin 8, ((t.die u).lgd.permit k).granted = false))) ∧
    ((∀ u, (s.die u).lgd.xlink = true → s.ticks - (s.die u).lgd.lastXchg < 100 * usT) → Makes .crossLinkFault s s) ∧
    (∀ v, (s.die v).lgd.xlink = true → 100 * usT ≤ s.ticks - (s.die v).lgd.lastXchg → Answers .crossLinkFault s (fun t =>
      ∀ u, unitOn s u = true → (t.die u).lgd.xlink = false ∧ ∀ k : Fin 8, ((t.die u).lgd.permit k).granted = false)) ∧
    (∀ u pass osc,
      (unitOn s u = false → Makes (.safetyUnitSelftest u pass osc) s s) ∧
      (unitOn s u = true → Answers (.safetyUnitSelftest u pass osc) s (fun t =>
        (t.die u).lgd.ok = pass ∧ (t.die u).lgd.peerOk = osc ∧
        (pass = false ∨ osc = false → ∀ v, unitOn s v = true → ∀ k : Fin 8, ((t.die v).lgd.permit k).granted = false))))

/-- LGD_SAVE stores the configuration in the die's flash while LGD writes are open (R444); LGD_FORCE acts only in SERVICE with the lock
open, and a forced-open channel trips a READY local zone (R461); a granted permit whose test pulse reads back wrong is latched off on both
units (R451). -/
def Obligations.GuardSavesForcesAndPulses : Prop :=
  ∀ (d : DieId) (s : State), let x := s.die d
    (x.barOpen = true → lgdOpen s d = true → Makes (.lgdSave d) s
      ((s.setFlash d (lgdSaved x (s.flash d))).onDie d (fun x => x.onLgd (fun l => { l with saving := some s.ticks })))) ∧
    (x.barOpen = false ∨ lgdOpen s d = false → Makes (.lgdSave d) s s) ∧
    Makes (.lgdSaveDone d) s (s.onDie d (fun x => x.onLgd (fun l => { l with saving := none }))) ∧
    (∀ v : Word32, x.barOpen = false ∨ x.lockOpen = false ∨ moduleBase s ≠ mService → Makes (.lgdForceWrite d v) s s) ∧
    (∀ v : Word32, x.barOpen = true → x.lockOpen = true → moduleBase s = mService → Answers (.lgdForceWrite d v) s (fun t =>
      (t.die d).reg Reg.LGD_FORCE = x.written Reg.LGD_FORCE v.toNat ∧
      (∀ z : Fin 4, x.zoneEn z = true → x.rbit (Reg.LGD_ZCFG z) F.LGD_ZCFG_LOCAL = true → (x.lgd.zone z).state = .ready →
        bitOf ((t.die d).rf Reg.LGD_FORCE F.LGD_FORCE_OPEN_A) z = true → ((t.die d).lgd.zone z).state = .tripped))) ∧
    (∀ (k : Fin 8) (lo hi : Bool), let f (x : Die) := bitOf (x.rf Reg.LGD_FORCE (if d = .cd0 then F.LGD_FORCE_RB_A else F.LGD_FORCE_RB_B)) k
      (unitOn s d = false ∨ (x.lgd.permit k).granted = false → Makes (.permitTestPulse d k lo hi) s s) ∧
      (f s.cd0 = false → f s.cd1 = false → Makes (.permitTestPulse d k true true) s s) ∧
      (unitOn s d = true → (x.lgd.permit k).granted = true → lo = false ∨ hi = false ∨ f s.cd0 = true ∨ f s.cd1 = true →
        Answers (.permitTestPulse d k lo hi) s (fun t => ∀ u, unitOn s u = true →
          (t.die u).lgd.permit k = ⟨false, true, false⟩)))

/-- For each unit that shares what the connection says: a sound S-DUAL CONTROL telegram waits for its second copy, equal copies are accepted
and unequal ones make the safe state, a missing copy counts by SINGLE_SAFE, and the watchdog makes the safe state (R453 to R456). An S-BLACK
connection sends whether it is shut, is up while echoes come, and shuts its input when they stop (R457). -/
def Obligations.SafetyTelegrams : Prop :=
  ((∀ (rx : ZslRx) (s : State), let u := rx.net; let x := s.die u; let sd := x.lgd.sd; let seq := beAt rx.bytes 4 2
    let prev := if x.sdLapsed s.ticks then none else sd.seq; let dup := sd.seq = some seq ∧ sd.bytes = rx.bytes
    let drop := x.rbit Reg.LGD_FORCE (if u = .cd0 then F.LGD_FORCE_SD_DROP_A else F.LGD_FORCE_SD_DROP_B)
    (unitOn s u = false ∨ x.sdEn = false ∨ drop = true → Makes (.sDualControl rx) s s) ∧
    (unitOn s u = true → x.sdEn = true → drop = false →
      (zslOk rx.bytes 1 1 (x.rf Reg.LGD_SD_CFG F.LGD_SD_CFG_CONN) = false → Makes (.sDualControl rx) s s) ∧
      (zslOk rx.bytes 1 1 (x.rf Reg.LGD_SD_CFG F.LGD_SD_CFG_CONN) = true →
        (dup ∨ zslAhead prev seq = false ∨ (∃ w ∈ sd.waiting, w.net = u ∧ w.bytes = rx.bytes) → Makes (.sDualControl rx) s s) ∧
        (¬ dup → zslAhead prev seq = true → (∀ w ∈ sd.waiting, w.net = u → w.bytes ≠ rx.bytes) →
          ((∀ w ∈ sd.waiting, w.net ≠ u → beAt w.bytes 4 2 ≠ seq) → Answers (.sDualControl rx) s (fun t => ∀ v ∈ sharers s u,
            let e := (t.die v).lgd.sd; let o := (s.die v).lgd.sd
            e.waiting = o.waiting ++ [⟨u, rx.bytes, s.ticks⟩] ∧ e.seq = o.seq ∧ e.safe = o.safe ∧ e.permitReq = o.permitReq)) ∧
          (∀ w, sd.waiting.find? (fun w => w.net != u && decide (beAt w.bytes 4 2 = seq)) = some w →
            (w.bytes = rx.bytes → Answers (.sDualControl rx) s (fun t => ∀ v ∈ sharers s u, let e := (t.die v).lgd.sd; let o := (s.die v).lgd.sd
              e.seq = some seq ∧ e.bytes = rx.bytes ∧ e.safe = false ∧ e.copies = 3 ∧ e.lastAt = s.ticks ∧
              e.remoteOpen = bitsOf (beAt rx.bytes 8 1) 3 0 ∧ e.permitReq = beAt rx.bytes 10 1 ∧
              e.waiting = o.waiting.filter (fun w => decide (beAt w.bytes 4 2 ≠ seq)))) ∧
            (w.bytes ≠ rx.bytes → Answers (.sDualControl rx) s (fun t => ∀ v ∈ sharers s u, let e := (t.die v).lgd.sd; let o := (s.die v).lgd.sd
              e.safe = true ∧ e.seq = o.seq ∧ (o.safe = false → e.permitReq = 0 ∧ e.resetBits = 0)))))))) ∧
  (∀ s : State,
    ((∀ u, ∀ w ∈ (s.die u).lgd.sd.waiting, s.ticks - w.at_ ≤ 10 * msT) → Answers .sDualCopyMissing s (fun t => ∀ u, (t.die u).lgd.sd = (s.die u).lgd.sd)) ∧
    (∀ u w, unitOn s u = true → (s.die u).lgd.sd.waiting = [w] → 10 * msT < s.ticks - w.at_ → Answers .sDualCopyMissing s (fun t =>
      let e := (t.die u).lgd.sd
      e.waiting = [] ∧ ((s.die u).rbit Reg.LGD_SD_CFG F.LGD_SD_CFG_SINGLE_SAFE = true → e.safe = true ∧ e.seq = (s.die u).lgd.sd.seq) ∧
        ((s.die u).rbit Reg.LGD_SD_CFG F.LGD_SD_CFG_SINGLE_SAFE = false → e.seq = some (beAt w.bytes 4 2) ∧ e.lastAt = s.ticks ∧
          e.copies = (if w.net = .cd0 then 1 else 2) ∧ e.safe = (s.die u).lgd.sd.safe))) ∧
    (∀ u, let x := s.die u; let sd := x.lgd.sd
      let lim := if sd.seq.isNone then msT * x.sdWd else zslLimit sd.watchdog x.sdWd
      Answers .sDualTimeout s (fun t => (t.die u).lgd.sd.safe = (sd.safe || (unitOn s u && x.sdEn && decide (lim < s.ticks - sd.lastAt))) ∧
        (t.die u).lgd.sd.seq = sd.seq)) ∧
    Answers .sDualStatusSend s (fun t => let n := max s.cd0.lgd.sd.txSeq s.cd1.lgd.sd.txSeq
      ∀ u, unitOn s u = true → (s.die u).sdEn = true → (t.die u).lgd.sd.txSeq = (n + 1) % 65536))) ∧
  (∀ (c : Fin 256) (s : State),
    Answers (.sBlackStateSend c) s (fun t => ∀ u, unitOn s u = true → let k := (s.die u).lgd.conn c; let l := (t.die u).lgd.conn c
      (connEn k = false → l = k) ∧
      (connEn k = true → l.shut = (s.die u).connShut k ∧ l.txSeq = (max (s.cd0.lgd.conn c).txSeq (s.cd1.lgd.conn c).txSeq + 1) % 65536 ∧
        l.state = (if k.state = 0 then 1 else k.state))) ∧
    (∀ rx : ZslRx, let u := rx.net; let k := (s.die u).lgd.conn c; let seq := beAt rx.bytes 4 2
      let ok := zslOk rx.bytes 2 0x14 (fget F.LGD_CONN_ID_CONN_ID k.id.toNat)
      (unitOn s u = false ∨ connEn k = false → Makes (.sBlackEcho c rx) s s) ∧
      (unitOn s u = true → connEn k = true →
        (ok = false → Makes (.sBlackEcho c rx) s s) ∧
        (ok = true → k.rxSeq = some seq → k.rxBytes = rx.bytes → Makes (.sBlackEcho c rx) s s) ∧
        (ok = true → zslAhead k.rxSeq seq = false → Makes (.sBlackEcho c rx) s s) ∧
        (ok = true → k.rxSeq ≠ some seq → zslAhead k.rxSeq seq = true → Answers (.sBlackEcho c rx) s (fun t =>
          let l := (t.die u).lgd.conn c
          l.state = 2 ∧ l.rxSeq = some seq ∧ l.lastAt = s.ticks ∧ l.inputShut = false ∧ l.cfg = k.cfg ∧ l.losses = k.losses)))) ∧
    (∀ u, unitOn s u = true → let k := (s.die u).lgd.conn c; let lim := if k.rxSeq.isNone then msT * connWd k else zslLimit k.watchdog (connWd k)
      (connEn k = false ∨ (k.state ≠ 1 ∧ k.state ≠ 2) ∨ s.ticks - k.lastAt ≤ lim → Answers (.sBlackTimeout c) s (fun t => (t.die u).lgd.conn c = k)) ∧
      (connEn k = true → k.state = 1 ∨ k.state = 2 → lim < s.ticks - k.lastAt → Answers (.sBlackTimeout c) s (fun t =>
        let l := (t.die u).lgd.conn c
        l.state = 3 ∧ l.losses = min (2 ^ 16 - 1) (k.losses + 1) ∧ l.rxSeq = none ∧
        l.inputShut = decide (fget F.LGD_CONN_CFG_PORT k.cfg.toNat < 512)))))

/-- A reading reaches the thermal managers that its path reaches (R473); a class L stop that takes 5 ms is cut: the Declarer enters DARK
from the modes it stops from, and the shutdown is done as class H (R483); THM release needs every sensor cool and ends the shutdown of both
dies (R485); the heater power is estimated from the applied codes and the budget flag follows 100 readings above or within it (R482). -/
def Obligations.ThermalManager : Prop :=
  (∀ (p : SensorPath) (r : Int) (s : State),
    Answers (.sensorReading p r) s (fun t =>
      (∀ d, (s.die d).enginesRun = true → pathReaches s d p = true → (t.die d).thm.path (pathNum p) = ((s.die d).thm.path (pathNum p)).read r) ∧
      (∀ d, (s.die d).enginesRun = false ∨ pathReaches s d p = false → (t.die d).thm.path (pathNum p) = (s.die d).thm.path (pathNum p)) ∧
      (∀ b : Fin 8, p = .bank b → (t.bank b).own = r))) ∧
  (∀ s : State, (stopOverdue s = none → Makes .classLStopTimeout s s) ∧
    (∀ d, stopOverdue s = some d →
      (s.declarer ≠ some d ∨ stopsFrom (s.die d).base = false → Makes .classLStopTimeout s (stopDone (sendBanks s d mCut) true)) ∧
      (s.declarer = some d → stopsFrom (s.die d).base = true → Answers .classLStopTimeout s (fun t => (t.die d).base = mDark ∧ (t.die d).trans = .none ∧
        ∀ e h, (s.die e).thm.shutdown = some h → ∃ g, (t.die e).thm.shutdown = some g ∧ g.done = true ∧ g.classH = true)))) ∧
  (∀ (d : DieId) (s : State), let x := s.die d
    (x.barOpen = false ∨ (s.cd0.thm.shutdown = none ∧ s.cd1.thm.shutdown = none) → Makes (.thmRelease d) s s) ∧
    (x.barOpen = true → s.cd0.thm.shutdown.isSome = true ∨ s.cd1.thm.shutdown.isSome = true →
      (coolEnough x = false ∨ (∃ e, s.declarer = some e ∧ (s.die e).trans = .shutdown) →
        Makes (.thmRelease d) s (s.setEvent d Reg.THM_STATUS F.THM_STATUS_REL_REFUSED)) ∧
      (coolEnough x = true → (∀ e, s.declarer = some e → (s.die e).trans ≠ .shutdown) → Answers (.thmRelease d) s (fun t =>
        t.cd0.thm.shutdown = none ∧ t.cd1.thm.shutdown = none ∧
        ∀ b : Fin 8, ∀ h, (s.bank b).holder = some h → (s.bank b).up h = true → (t.bank b).cut = false ∧ (t.bank b).notice = none))) ∧
    (x.running = false → Makes (.heaterPowerEstimate d) s s) ∧
    (x.running = true → let w := heaterWatts s; let lit := litCount x.dealer.hand
      let above := !x.thm.classH && (decide (12 < w) || decide (256 < lit))
      let n := if above then x.thm.above + 1 else 0
      let m := if above then 0 else x.thm.within + 1
      Makes (.heaterPowerEstimate d) s (s.setDie d { x with thm := { x.thm with power := min 65535 (w * 100).floor.toNat, lit := lit, above := n, within := m, budget := if x.thm.budget then decide (m < 100) else decide (100 ≤ n) } })))

/-- Each reset of R493 reaches what its scope names: power-on and MODRST_N both dies and all bank dies, CDRST_N and the software reset one
die, a function-level reset one function; a supply below its hold limit holds the module; releases boot it again; a Declarer's software
reset yields first (R487, R493 to R498, R526, R418). -/
def Obligations.ResetsActByScope : Prop :=
  (∀ s : State,
    (s.pins.modrstLow = false → s.pins.cdrstLow = 0 → Answers .powerOn s (fun t =>
      t.cd0 = { Die.reset .cd0 s.ticks with life := .booting s.ticks } ∧ t.cd1 = { Die.reset .cd1 s.ticks with life := .booting s.ticks } ∧
      t.banks = Vector.ofFn (fun b => Bank.reset b.val) ∧ t.mirror = Link.down ∧ t.pins.below = 0 ∧ t.pins.excursion = 0 ∧
      t.pins.permitA = 0 ∧ t.pins.permitB = 0)) ∧
    (∀ r, Answers (.supplyBelowHold r) s (fun t =>
      t.pins.below = s.pins.below ||| railBit r ∧ t.pins.lost = some (s.pins.lost.getD (railNum r)) ∧
      (∀ d, (t.die d).life = .held 0 s.ticks) ∧ (∀ b : Fin 8, t.bank b = { Bank.reset b with driven := false }) ∧ t.pins.permitA = 0 ∧ t.pins.permitB = 0)) ∧
    (∀ r hi, Answers (.supplyExcursion r hi) s (fun t =>
      t.pins.excursion = s.pins.excursion ||| railBit r ∧ t.banks = s.banks ∧ t.cd0.life = s.cd0.life ∧ t.cd1.life = s.cd1.life ∧
      ∀ d, (s.die d).running = true → (t.die d).mapBit (Reg.FLT_STICKY 0) 221 = true)) ∧
    (s.pins.below = 0 → Makes .suppliesRestored s { s with pins := { s.pins with below := 0, excursion := 0 } }) ∧
    (s.pins.below.getLsbD 3 = true → Makes .suppliesRestored s (powerOn s)) ∧
    (s.pins.below ≠ 0 → s.pins.below.getLsbD 3 = false → s.pins.modrstLow = false → s.pins.cdrstLow = 0 → Answers .suppliesRestored s (fun t =>
      t.pins.below = 0 ∧ (∀ b : Fin 8, t.bank b = Bank.reset b) ∧ ∀ d, (t.die d).life = .booting s.ticks)) ∧
    (s.pins.below ≠ 0 → s.pins.below.getLsbD 3 = false → s.pins.modrstLow = true → Answers .suppliesRestored s (fun t =>
      t.pins.below = 0 ∧ ∀ d, ∃ k a, (t.die d).life = .held k a)) ∧
    (s.pins.modrstLow = true → Makes .modrstAssert s s) ∧
    (s.pins.modrstLow = false → s.pins.below = 0 → s.cd0.modHeld = false → s.cd1.modHeld = false → Answers .modrstAssert s (fun t =>
      t.pins.modrstLow = true ∧ t.pins.modrstSince = s.ticks ∧ (∀ b : Fin 8, t.bank b = { Bank.reset b with driven := (s.bank b).driven }) ∧
      ∀ d, (t.die d).life = .held 1 s.ticks ∧ (t.die d).aon.countMod = min (2 ^ 8 - 1) ((s.die d).aon.countMod + 1))) ∧
    (s.pins.modrstLow = false ∨ s.ticks - s.pins.modrstSince ≤ 5 * secT → Makes .modrstHeldLong s s) ∧
    (s.pins.modrstLow = true → 5 * secT < s.ticks - s.pins.modrstSince → Makes .modrstHeldLong s
      ((s.onDie .cd0 (fun x => x.onAon (fun a => { a with heldLong := true }))).onDie .cd1 (fun x => x.onAon (fun a => { a with heldLong := true })))) ∧
    (s.pins.modrstLow = false → Makes .modrstRelease s s) ∧
    (s.pins.modrstLow = true → s.pins.below = 0 → s.pins.cdrstLow = 0 → Answers .modrstRelease s (fun t =>
      t.pins.modrstLow = false ∧ ∀ d, (t.die d).life = .booting s.ticks ∧ (t.die d).aon.heldS = (s.ticks - s.pins.modrstSince) / secT))) ∧
  (∀ (d : DieId) (s : State), let x := s.die d; let bit := BitVec.ofNat 2 (2 ^ d.num)
    (let s1 := { s with pins := { s.pins with cdrstLow := s.pins.cdrstLow ||| bit } };
      (x.modHeld = true ∨ s.pins.cdrstLow.getLsbD d.num = true → Makes (.cdrstAssert d) s s1) ∧
      (x.modHeld = false → s.pins.cdrstLow.getLsbD d.num = false → Makes (.cdrstAssert d) s (dieReset s1 d 2) ∧
        Answers (.cdrstAssert d) s (fun t => (t.die d).life = .held 2 s.ticks ∧ (t.die d).reg Reg.RST_CAUSE = 4 ∧ t.mirror = Link.down))) ∧
    (let s1 := { s with pins := { s.pins with cdrstLow := s.pins.cdrstLow &&& ~~~ bit } };
      (∀ a, x.life = .held 2 a → Makes (.cdrstRelease d) s (s1.onDie d (fun x => x.boots s.ticks))) ∧
      ((∀ a, x.life ≠ .held 2 a) → Makes (.cdrstRelease d) s s1)) ∧
    (∀ v : Word32, let go := decide (fget F.RST_SWRST_KEY v.toNat = 0xA5C3) && decide (fget F.RST_SWRST_GO v.toNat = 1) && x.expert 0 && x.running
      (go = false → Makes (.softwareDieReset d v) s s) ∧
      (go = true → x.isDecl = false → Makes (.softwareDieReset d v) s (dieReset s d 3) ∧
        Answers (.softwareDieReset d v) s (fun t => (t.die d).life = .held 3 s.ticks ∧ (t.die d).reg Reg.RST_CAUSE = 8)) ∧
      (go = true → x.isDecl = true → Makes (.softwareDieReset d v) s (plannedTrigger s d none (some 3)))) ∧
    (∀ k a, x.life = .held k a →
      (k = 3 ∨ k = 4 → 10 * usT ≤ s.ticks - a → Makes (.softResetRelease d) s (s.onDie d (fun x => x.boots s.ticks))) ∧
      ((k ≠ 3 ∧ k ≠ 4) ∨ s.ticks - a < 10 * usT → Makes (.softResetRelease d) s s)) ∧
    (∀ f byReg, x.barOpen = false → Makes (.functionLevelReset d f byReg) s s) ∧
    (∀ f : Fin 4, x.barOpen = true → (∀ c ∈ x.cmds, originFn c.origin ≠ some f.val) → (∀ r, (x.ring f r).fetched = []) → ∀ byReg,
      Answers (.functionLevelReset d f byReg) s (fun t => let y := t.die d
        (y.fn f) = { Fn.reset with lastChange := s.ticks } ∧ y.cmds = x.cmds ∧ (∀ h ∈ y.reads, h.fn ≠ f.val) ∧
        y.rf (Reg.HIF_RESET_CNT f) F.HIF_RESET_CNT_ORPHANED = 0 ∧ y.rf (Reg.HIF_RESET_CNT f) F.HIF_RESET_CNT_ABORTED = 0 ∧
        (∀ g : Fin 4, g ≠ f → (y.fn g).subs = (x.fn g).subs) ∧ y.dealer = x.dealer)))

/-- The boot ROM chooses a slot and sets MTX_REMAP (R505, R506); firmware reports that it started, or after 2 s the slot fails and the boot
repeats; boot complete waits up to 100 ms for the peer, and a die alone becomes Declarer (R62). Each row acts only in its phase. -/
def Obligations.BootProceeds : Prop :=
  ∀ (d : DieId) (s : State), let x := s.die d
    (x.booting = none → Makes (.mtxRemapSet d) s s ∧ Makes (.bootStartedWrite d) s s ∧ Makes (.bootWatchdog d) s s ∧
      Makes (.bootReplaceTimeout d) s s ∧ Makes (.bootComplete d) s s) ∧
    (∀ a, x.life = .booting a →
      (x.rbit Reg.MTX_REMAP F.MTX_REMAP_REMAP = true → Makes (.mtxRemapSet d) s s ∧
        Makes (.bootStartedWrite d) s (s.onDie d (fun x => (x.setRf Reg.RST_BOOT F.RST_BOOT_STARTED 1).onAon (fun a => { a with remapAt := none })))) ∧
      (x.rbit Reg.MTX_REMAP F.MTX_REMAP_REMAP = false → Makes (.bootStartedWrite d) s s) ∧
      (∀ i, x.rbit Reg.MTX_REMAP F.MTX_REMAP_REMAP = false → x.romBusy = false → bootSlot s d = some i → Answers (.mtxRemapSet d) s (fun t =>
        let y := t.die d
        y.rf Reg.RST_BOOT F.RST_BOOT_SLOT = i ∧ y.reg Reg.RST_FW_VER = s.slotVersion d i % 2 ^ 32 ∧ y.rf Reg.MTX_REMAP F.MTX_REMAP_REMAP = 1 ∧
        y.aon.remapAt = some s.ticks)) ∧
      (x.aon.remapAt = none → Makes (.bootWatchdog d) s s) ∧
      (∀ r, x.aon.remapAt = some r →
        (s.ticks - r < 2 * secT → Makes (.bootWatchdog d) s s) ∧
        (2 * secT ≤ s.ticks - r → Answers (.bootWatchdog d) s (fun t => let y := t.die d
          y.life = .booting a ∧ y.reg Reg.RST_CAUSE = 0x80 ∧ y.aon.remapAt = none ∧
          y.aon.failedSlots = x.aon.failedSlots ||| BitVec.ofNat 2 (2 ^ x.rf Reg.RST_BOOT F.RST_BOOT_SLOT)))) ∧
      (s.ticks - a < 5 * secT → Makes (.bootReplaceTimeout d) s s) ∧
      (5 * secT ≤ s.ticks - a → Makes (.bootReplaceTimeout d) s (s.onDie d (fun x => x.onAon (fun a => { a with replace := true })))) ∧
      (x.rbit Reg.RST_BOOT F.RST_BOOT_STARTED = false → Makes (.bootComplete d) s s) ∧
      (x.rbit Reg.RST_BOOT F.RST_BOOT_STARTED = true → (s.die d.peer).booting.isSome = true → (∀ b : Fin 8, (s.bank b).blind.on = false) →
        Answers (.bootComplete d) s (fun t => (t.die d).life = .waiting s.ticks ∧ (t.die d).aon.heldLong = false ∧ (t.die d).red.lastReport = s.ticks))) ∧
    (∀ a, x.life = .waiting a →
      (s.ticks - a < 100 * msT → Makes (.roleWaitExpiry d) s s) ∧
      (100 * msT ≤ s.ticks - a → (s.die d.peer).isDecl = false → Answers (.roleWaitExpiry d) s (fun t => let y := t.die d
        y.life = .up ∧ y.rf Reg.RED_MODE F.RED_MODE_ROLE = 1 ∧ y.base = mSelfCal ∧ y.rf Reg.RED_STATUS F.RED_STATUS_SOLO = 1 ∧
        y.red.absentSince = some a))) ∧
    ((∀ a, x.life ≠ .waiting a) → Makes (.roleWaitExpiry d) s s)

/-- A request of a master in reset is lost; one without a target, to a bridge that is down or denied is answered with an error; an admitted
one is issued, to the bridge too, or waits behind its ID; a response ends the oldest transaction at its target and returns a read's data
(R509). A master in reset drains for at most 2 us, after which its targets are STUCK and a late response is counted (R512). -/
def Obligations.MatrixTransactions : Prop :=
  (∀ (d : DieId) (s : State), let x := s.die d
    (∀ r : MtxReq, let s0 := debugSeen s d r.master; let m := x.master r.master
      ((∃ k a, x.life = .held k a) ∨ m.resetAt.isSome = true → Makes (.matrixRequest d r) s s0) ∧
      ((∀ k a, x.life ≠ .held k a) → m.resetAt = none →
        (mtxDecode x r = none → Makes (.matrixRequest d r) s
          (mtxError s0 d r 1 (((mtxTarget (x.rbit Reg.MTX_REMAP F.MTX_REMAP_REMAP) r.addr.toNat).map (·.1)).getD 15))) ∧
        (∀ t o, mtxDecode x r = some (t, o) → t = tBridge → bridgeUp s d = false → Makes (.matrixRequest d r) s (mtxError s0 d r 3 t)) ∧
        (∀ t o, mtxDecode x r = some (t, o) → t = tBridge → bridgeUp s d = true → m.outstanding.length < 32 →
          (∀ p ∈ m.outstanding, p.req.id = r.id → p.target = t) → (∀ w ∈ m.waiting, w.id ≠ r.id) →
          Makes (.matrixRequest d r) s (s0.onDie d (fun x => mtxIssue x r t))) ∧
        (∀ t o, mtxDecode x r = some (t, o) → t ≠ tBridge → m.outstanding.length < 32 →
          (∀ p ∈ m.outstanding, p.req.id = r.id → p.target = t) → (∀ w ∈ m.waiting, w.id ≠ r.id) →
          Makes (.matrixRequest d r) s (s0.onDie d (fun x => mtxIssue x r t)) ∧
          Answers (.matrixRequest d r) s (fun u => ((u.die d).master r.master).outstanding = m.outstanding ++ [⟨r, t⟩])) ∧
        (∀ t o w, mtxDecode x r = some (t, o) → t ≠ tBridge → m.outstanding.length < 32 → w ∈ m.waiting → w.id = r.id →
          Makes (.matrixRequest d r) s ((s0.count d (Reg.MTX_CNT 3) F.MTX_CNT_COUNT).onDie d (fun x =>
            x.onMaster r.master (fun m => { m with waiting := m.waiting ++ [r] })))))) ∧
    (∀ (m : Fin 8) (t : Fin 10), let k := x.master m
      ((∀ o ∈ k.outstanding, o.target ≠ t.val) → Makes (.matrixResponse d m t) s s) ∧
      (∀ o, k.outstanding.find? (fun o => o.target = t.val) = some o →
        let s1 := debugSeen (s.onDie d (fun x =>
          let y := x.onMaster m (fun k => { k with outstanding := k.outstanding.erase o })
          { y with mtx := { y.mtx with stuck := y.mtx.stuck &&& ~~~ BitVec.ofNat 10 (2 ^ t.val) } })) d m
        (k.draining = true → Makes (.matrixResponse d m t) s (s1.onDie d (fun x => x.onMaster m drained))) ∧
        (k.draining = false → t.val ≠ tBridge → o.req.op = .read → k.waiting = [] →
          let off := ((mtxTarget (x.rbit Reg.MTX_REMAP F.MTX_REMAP_REMAP) o.req.addr.toNat).map (·.2)).getD 0
          Answers (.matrixResponse d m t) s (fun u =>
            Out.matrix d m o.req.id false (targetRead s1 d t off o.req.len) ∈ u.out ∧ ((u.die d).master m).outstanding = k.outstanding.erase o))))) ∧
  (∀ (d : DieId) (s : State), let x := s.die d
    (∀ m : Fin 8, let k := x.master m
      (k.outstanding = [] → Makes (.masterReset d m) s (s.onDie d (fun x => x.onMaster m (fun k =>
        { k with waiting := [], monitor := none, resetAt := none, draining := false })))) ∧
      (k.outstanding ≠ [] → (∀ o ∈ k.outstanding, o.req.op = .read) → Makes (.masterReset d m) s (s.onDie d (fun x => x.onMaster m (fun k =>
        { k with waiting := [], monitor := none, resetAt := some s.ticks, draining := true })))) ∧
      (k.outstanding ≠ [] → Answers (.masterReset d m) s (fun t => let n := (t.die d).master m
        n.waiting = [] ∧ n.monitor = none ∧ n.resetAt = some s.ticks ∧ n.draining = true ∧ n.outstanding = k.outstanding)) ∧
      (k.resetAt = none ∨ k.draining = false → Makes (.drainTimeout d m) s s) ∧
      (∀ a, k.resetAt = some a → s.ticks - a < 2 * usT → Makes (.drainTimeout d m) s s) ∧
      (∀ a, k.resetAt = some a → k.draining = true → 2 * usT ≤ s.ticks - a → Answers (.drainTimeout d m) s (fun t =>
        let n := (t.die d).master m
        n.outstanding = [] ∧ n.resetAt = none ∧ n.draining = false ∧ n.waiting = k.waiting ∧
        ∀ o ∈ k.outstanding, o.target < 10 → (t.die d).mtx.stuck.getLsbD o.target = true))) ∧
    (∀ t : Fin 10,
      (x.mtx.stuck.getLsbD t = false → Makes (.lateResponse d t) s s) ∧
      (x.mtx.stuck.getLsbD t = true → Makes (.lateResponse d t) s ((s.onDie d (fun x => { x with mtx := { x.mtx with
        stuck := x.mtx.stuck &&& ~~~ BitVec.ofNat 10 (2 ^ t.val) } })).count d (Reg.MTX_CNT 2) F.MTX_CNT_COUNT))) ∧
    (∀ v, x.barOpen = false ∨ x.lockOpen = false → Makes (.mtxMrstWrite d v) s s) ∧
    (∀ v : BitVec 8, x.barOpen = true → x.lockOpen = true → Answers (.mtxMrstWrite d v) s (fun t => ∀ m : Fin 8, let k := x.master m; let n := (t.die d).master m
      (v.getLsbD m = true → m ≠ 0 → m ≠ 7 → k.outstanding = [] → n.waiting = [] ∧ n.monitor = none ∧ n.draining = false) ∧
      (v.getLsbD m = true → m ≠ 0 → m ≠ 7 → k.outstanding ≠ [] → n.waiting = [] ∧ n.draining = true ∧ n.resetAt = some s.ticks) ∧
      (m = 0 ∨ m = 7 → n.outstanding = k.outstanding ∧ n.waiting = k.waiting))))

/-- UNLOCK1, CHALLENGE, UNLOCK2 and SET_PW are refused while an operation runs, on a Dummy and during a lockout, and run otherwise; LOCK
closes the lock, though not while CHALLENGE or SET_PW runs; results set level, failures and lockout, wipe the secrets and use up the nonce;
nonces expire after 60 s, lockouts after 24 h, and inactivity closes the lock (R513 to R519). The service path makes the same operations
with its own operands on a running die, and by its level reads registers, records and always-on words and programs the flash. -/
def Obligations.UnlockEngine : Prop :=
  ((∀ o ∈ lockRows, ∀ (d : DieId) (s : State), let x := s.die d
    let s1 := s.onDie d (fun x => x.onSvc (fun v => { v with lastAccess := s.ticks }))
    (x.barOpen = false → Makes (o.2 d) s s) ∧
    (x.barOpen = true →
      (x.svc.busy.isSome = true → Makes (o.2 d) s (s1.onDie d (fun x => x.onSvc (fun v => { v with result := 6 })))) ∧
      (x.svc.busy = none → x.isDecl = false → Makes (o.2 d) s (s1.onDie d (fun x => x.onSvc (fun v => { (v.cleared o.1) with result := 5 })))) ∧
      (x.svc.busy = none → x.isDecl = true → x.svc.lockout.isSome = true → o.1 ≠ 5 →
        Makes (o.2 d) s (s1.onDie d (fun x => x.onSvc (fun v => { (v.cleared o.1) with result := 2 })))) ∧
      (x.svc.busy = none → x.isDecl = true → (x.svc.lockout = none ∨ o.1 = 5) → (o.1 = 1 → mDark ≤ x.base ∧ s.eeprom.pw.isSome = true) →
        (o.1 = 3 → x.base = mDark ∧ ((Config.kDev d).isSome = true → x.svc.nonceOk s.ticks = true)) → (o.1 = 5 → x.svc.level = 2) →
        Makes (o.2 d) s (s1.onDie d (fun x => x.onSvc (fun v =>
          if (o.1 = 2 || o.1 = 3) && (Config.kDev d).isNone then { (v.cleared o.1) with result := 7 } else { v with busy := some (o.1, s.ticks) })))))) ∧
  (∀ (d : DieId) (s : State), let x := s.die d
    (x.barOpen = false → Makes (.lock d) s s) ∧
    (x.barOpen = true → x.svc.busy = none ∨ (∃ a, x.svc.busy = some (1, a)) ∨ (∃ a, x.svc.busy = some (3, a)) → Answers (.lock d) s (fun t =>
      (t.die d).svc.level = 0 ∧ (t.die d.peer).svc.level = 0 ∧ (t.die d).svc.lastAccess = s.ticks)) ∧
    (∀ a, x.barOpen = true → x.svc.busy = some (2, a) ∨ x.svc.busy = some (5, a) →
      Makes (.lock d) s (s.onDie d (fun x => x.onSvc (fun v => { v with lastAccess := s.ticks, result := 6 })))))) ∧
  ((∀ (d : DieId) (r : BitVec 128) (s : State), let x := s.die d
    (x.svc.busy = none → Makes (.svcOperationDone d r) s s) ∧
    (∀ a, x.svc.busy = some (2, a) → Makes (.svcOperationDone d r) s (s.onDie d (fun x => x.onSvc (fun v =>
      { v with busy := none, result := 0, nonce := some r, nonceAt := s.ticks })))) ∧
    (∀ a, x.svc.busy = some (5, a) → x.svc.level = 2 → Answers (.svcOperationDone d r) s (fun t =>
      t.eeprom.pw = some (Config.digest x.svc.pwNat) ∧ (t.die d).svc.result = 0 ∧ (t.die d).svc.busy = none ∧
      (t.die d).svc.pw = List.replicate 16 0)) ∧
    (∀ a, x.svc.busy = some (1, a) → let pass := s.eeprom.pw == some (Config.digest x.svc.pwNat)
      Answers (.svcOperationDone d r) s (fun t => let v := (t.die d).svc
        (pass = true → v.level = max x.svc.level 1 ∧ v.result = 0 ∧ v.fails = 0) ∧
        (pass = false → v.level = x.svc.level ∧ v.result = 1 ∧ v.fails = x.svc.fails + 1 ∧
          (8 ≤ x.svc.fails + 1 → v.lockout = some (s.ticks + 86400 * secT))) ∧
        v.busy = none ∧ v.pw = List.replicate 16 0 ∧ (t.die d).base = x.base)) ∧
    (∀ a, x.svc.busy = some (3, a) → x.base = mDark → x.trans = .none → Answers (.svcOperationDone d r) s (fun t => let v := (t.die d).svc
      v.nonce = none ∧ v.busy = none ∧ v.resp = List.replicate 32 0 ∧
      (svcMatch s d 3 = true → v.level = max x.svc.level 2 ∧ v.result = 0 ∧ (t.die d).base = mService) ∧
      (svcMatch s d 3 = false → v.level = x.svc.level ∧ v.result = 1 ∧ v.fails = x.svc.fails + 1 ∧ (t.die d).base = mDark))) ∧
    (x.svc.nonce = none ∨ s.ticks - x.svc.nonceAt < 60 * secT → Makes (.nonceExpiry d) s s) ∧
    (x.svc.nonce.isSome = true → 60 * secT ≤ s.ticks - x.svc.nonceAt →
      Makes (.nonceExpiry d) s (s.onDie d (fun x => x.onSvc (fun v => { v with nonce := none })))) ∧
    (x.svc.lockout = none → Makes (.lockoutEnd d) s s) ∧
    (∀ u, x.svc.lockout = some u → (s.ticks < u → Makes (.lockoutEnd d) s s) ∧
      (u ≤ s.ticks → Answers (.lockoutEnd d) s (fun t => (t.die d).svc.lockout = none ∧ (t.die d).svc.fails = 0))) ∧
    (∀ c k a, x.life = .held k a → Makes (.servicePathCommand d c) s s) ∧
    ((∀ k a, x.life ≠ .held k a) → let s1 := s.onDie d (fun x => x.onSvc (fun v => { v with lastAccess := s.ticks }))
      (∀ o, 1 ≤ x.svc.level → Makes (.servicePathCommand d (.readRecordStore o)) s (s1.emit (.service d (memRead s.store (o.toNat / 4 * 4) 4)))) ∧
      (∀ f o, 1 ≤ x.svc.level → Makes (.servicePathCommand d (.readRegister f o)) s (s1.emit (.service d (leBytes 4 (viewWord s d (regKey f o.toNat)))))) ∧
      (∀ o, 1 ≤ x.svc.level → Makes (.servicePathCommand d (.readAlwaysOn o)) s (s1.emit (.service d (leBytes 4 (viewWord s d (regKey 0 o.toNat)))))) ∧
      (x.svc.level = 0 → ∀ f o a b, ∀ c ∈ [ServiceCmd.readRecordStore o, .readRegister f a, .readAlwaysOn b, .boundaryScan],
        Makes (.servicePathCommand d c) s s1) ∧
      (∀ c, c = .identification ∨ (c = .boundaryScan ∧ 1 ≤ x.svc.level) → Answers (.servicePathCommand d c) s (fun t =>
        ∃ w : Nat, Out.service d (leBytes 4 w) ∈ t.out ∧ ∀ e, (t.die e).svc.level = (s.die e).svc.level)) ∧
      (x.running = false → ∀ p q, ∀ c ∈ [ServiceCmd.challenge, .lock], Makes (.servicePathCommand d c) s s1 ∧
        (x.svc.busy.isSome = true → Makes (.servicePathCommand d (.unlock1 p)) s s1 ∧ Makes (.servicePathCommand d (.unlock2 q)) s s1 ∧
          Makes (.servicePathCommand d (.setPw p)) s s1)) ∧
      (x.running = true → x.svc.busy = none → x.isDecl = true → x.svc.lockout = none →
        (∀ pw, mDark ≤ x.base → s.eeprom.pw.isSome = true → Makes (.servicePathCommand d (.unlock1 pw)) s (s1.onDie d (fun x => x.onSvc (fun v =>
          { v with pw := leBytes 16 pw.toNat, busy := some (1, s.ticks) })))) ∧
        ((Config.kDev d).isSome = true → Makes (.servicePathCommand d .challenge) s (s1.onDie d (fun x => x.onSvc (fun v =>
          { v with busy := some (2, s.ticks) })))) ∧
        (∀ r, (Config.kDev d).isSome = true → x.base = mDark → x.svc.nonceOk s.ticks = true →
          Makes (.servicePathCommand d (.unlock2 r)) s (s1.onDie d (fun x => x.onSvc (fun v =>
            { v with resp := leBytes 32 r.toNat, busy := some (3, s.ticks) })))) ∧
        (∀ pw, x.svc.level = 2 → Makes (.servicePathCommand d (.setPw pw)) s (s1.onDie d (fun x => x.onSvc (fun v =>
          { v with pw := leBytes 16 pw.toNat, busy := some (5, s.ticks) }))))) ∧
      (x.running = true → x.svc.busy = none → Answers (.servicePathCommand d .lock) s (fun t =>
        (t.die d).svc.level = 0 ∧ (t.die d.peer).svc.level = 0)) ∧
      (∀ n l, x.svc.level = 2 → n + l.length ≤ 0x800000 →
        Makes (.servicePathCommand d (.flashProgram n l)) s (s1.setFlash d (memWrite (s.flash d) n l))) ∧
      (∀ n l, x.svc.level < 2 ∨ 0x800000 < n + l.length → x.svc.level ≤ 2 → Makes (.servicePathCommand d (.flashProgram n l)) s s1))) ∧
  (∀ (s : State) (d : DieId), s.declarer = some d → let last := max s.cd0.svc.lastAccess s.cd1.svc.lastAccess
    ((s.die d).svc.level = 0 ∨ s.ticks - last < (s.die d).svcTimeout → Makes .svcInactivityTimeout s s) ∧
    ((s.die d).svc.level ≠ 0 → (s.die d).svcTimeout ≤ s.ticks - last → Answers .svcInactivityTimeout s (fun t =>
      (t.die d).svc.level = 0 ∧ (t.die d.peer).svc.level = 0))))

/-- A frame that is uncorrectable, cannot be reassembled, has a bad FCS, is too long or too short is dropped and counted, its corrected
words and its fragments are counted, and the first and third make the port unclean; others pass the parser (R338, R369, R370); a
recirculated frame takes its second pass (R348); rule writes and invalidations need a writable bank and a defined action, reads return the
rule (R353). -/
def Obligations.FramesAndRules : Prop :=
  (∀ (d : DieId) (s : State), let x := s.die d
    (∀ (p : Fin 8) (f : RxFrame),
      let s0 := s.onDie d (fun x => (x.count (Reg.ETH_CNT p 5) F.ETH_CNT_COUNT f.corrected).count (Reg.ETH_CNT p 8) F.ETH_CNT_COUNT f.fragments)
      let cnt (c : Nat) : State := s0.count d (Reg.ETH_CNT p c) F.ETH_CNT_COUNT
      let unclean (s : State) : State := s.onDie d (fun x => (x.setRf (Reg.ETH_PORT p) F.ETH_PORT_CLEAN 0).onCport p (fun c => { c with lastErr := some s.ticks }))
      (x.running = false ∨ x.portExists p = false → Makes (.frameReceive d p f) s s) ∧
      (x.running = true → x.portExists p = true →
        (f.uncorrectable = true → Makes (.frameReceive d p f) s (unclean (cnt 6))) ∧
        (f.uncorrectable = false → f.reassemblyErr = true → Makes (.frameReceive d p f) s (cnt 9)) ∧
        (f.uncorrectable = false → f.reassemblyErr = false → f.badFcs = true → Makes (.frameReceive d p f) s (unclean (cnt 2))) ∧
        (f.uncorrectable = false → f.reassemblyErr = false → f.badFcs = false →
          (x.maxFrame < frameLen f.bytes → Makes (.frameReceive d p f) s (cnt 3)) ∧
          (frameLen f.bytes < 64 → frameLen f.bytes ≤ x.maxFrame → Makes (.frameReceive d p f) s (cnt 4)) ∧
          (64 ≤ frameLen f.bytes → frameLen f.bytes ≤ x.maxFrame → Makes (.frameReceive d p f) s (passOne (cnt 0) d p f))))) ∧
    (∀ q : Fin 2, x.net.ruleWait = [] →
      ((x.pipe q).fifo = [] → Makes (.recirculationPass d q) s s) ∧
      (∀ i rest, (x.pipe q).fifo = i :: rest →
        let s1 := (s.onDie d (fun x => x.onPipe q (fun u => { u with fifo := rest }))).count d (Reg.PRS_CNT q 1) F.PRS_CNT_COUNT
        (x.pipe q).lookup i.bank (passTwoKey x q i) = none → i.res.steer = steerVsp → i.res.cls ≠ 7 →
          Makes (.recirculationPass d q) s (s1.onDie d (fun x => { x with net := { x.net with vspQueue := x.net.vspQueue ++ [vspOf d i] } }))))) ∧
  (∀ (d : DieId) (s : State), let x := s.die d
    (x.barOpen = false → Makes (.prsRuleWrite d) s s ∧ Makes (.prsRuleRead d) s s ∧ Makes (.prsRuleInvalidate d) s s) ∧
    (∀ p b n, x.barOpen = true → x.ruleSel = (p, b, n) → let u := x.pipe p; let a := BitVec.ofNat 64 (x.reg64 Reg.PRS_RULE_ACT)
      (u.bankWritable b = false → Makes (.prsRuleWrite d) s (s.onDie d (fun x => x.ruleStatus ruleNotDrained)) ∧
        Makes (.prsRuleInvalidate d) s (s.onDie d (fun x => x.ruleStatus ruleNotDrained))) ∧
      (u.bankWritable b = true →
        (actReserved a = true → Makes (.prsRuleWrite d) s (s.onDie d (fun x => x.ruleStatus ruleInvalid))) ∧
        (actReserved a = false → Makes (.prsRuleWrite d) s (s.onDie d (fun x => (x.onPipe p (fun u =>
            u.setRule b n ⟨x.staged (Reg.PRS_RULE_KEY ·), x.staged (Reg.PRS_RULE_MASK ·), a, true, 0⟩)).ruleStatus ruleOk))) ∧
        Makes (.prsRuleInvalidate d) s (s.onDie d (fun x => (x.onPipe p (fun u => u.setRule b n { u.rule b n with valid := false })).ruleStatus ruleOk))) ∧
      Answers (.prsRuleRead d) s (fun t => let y := t.die d; let r := u.rule b n
        y.staged (Reg.PRS_RULE_KEY ·) = r.key ∧ y.staged (Reg.PRS_RULE_MASK ·) = r.mask ∧ y.reg64 Reg.PRS_RULE_ACT = r.action.toNat ∧
        y.rf Reg.PRS_RULE_CMD F.PRS_RULE_CMD_VALID = (if r.valid then 1 else 0) ∧ y.rf Reg.PRS_RULE_CMD F.PRS_RULE_CMD_STATUS = ruleOk ∧
        y.pipe p = u)))

/-- A command on a running die whose engine is free makes it busy, and ends with the entry, NOT_FOUND, INVALID or the change it asked for
(R363); a learn request inserts, refreshes or leaves the entry it names (R358), the sweep removes aged entries (R362), and a flap lock ends
at its time (R359). -/
def Obligations.EndpointTable : Prop :=
  ((∀ o ∈ eptRows, ∀ (d : DieId) (p : Fin 2) (s : State), let x := s.die d
    (x.barOpen = false ∨ x.net.eptBusy.isSome = true → Makes (o.2 d p) s s) ∧
    (x.barOpen = true → x.net.eptBusy = none → Makes (o.2 d p) s (s.onDie d (fun x =>
      let y := (x.setRf Reg.EPT_CMD F.EPT_CMD_PIPE p).setRf Reg.EPT_CMD F.EPT_CMD_BUSY 1
      { y with net := { y.net with eptBusy := some o.1 } })))) ∧
  (∀ (d : DieId) (s : State), let x := s.die d; let p := x.rf Reg.EPT_CMD F.EPT_CMD_PIPE; let t := (x.pipe p).ept
    let k := BitVec.ofNat 64 (x.reg64 Reg.EPT_KEY)
    (x.net.eptBusy = none → Makes (.eptCommandDone d) s s) ∧
    (∀ slot e, x.net.eptBusy = some 1 → eptFind t k = some (slot, e) → Answers (.eptCommandDone d) s (fun u => let y := u.die d
      y.net.eptBusy = none ∧ y.rf Reg.EPT_CMD F.EPT_CMD_BUSY = 0 ∧ y.rf Reg.EPT_CMD F.EPT_CMD_STATUS = eptOk ∧ y.reg Reg.EPT_DATA0 = e.data0.toNat ∧
      y.reg Reg.EPT_DATA1 = e.lastSeen.toNat ∧ (y.pipe p).ept = t)) ∧
    (x.net.eptBusy = some 1 ∨ x.net.eptBusy = some 3 → eptFind t k = none → Answers (.eptCommandDone d) s (fun u => let y := u.die d
      y.net.eptBusy = none ∧ y.rf Reg.EPT_CMD F.EPT_CMD_STATUS = eptNotFound ∧ (y.pipe p).ept = t)) ∧
    (x.net.eptBusy = some 2 → eptWriteBad x.eptFields = true → Answers (.eptCommandDone d) s (fun u => let y := u.die d
      y.net.eptBusy = none ∧ y.rf Reg.EPT_CMD F.EPT_CMD_STATUS = eptInvalid ∧ (y.pipe p).ept = t)) ∧
    (∀ slot e, x.net.eptBusy = some 2 → eptWriteBad x.eptFields = false → eptFind t k = some (slot, e) → p < 2 → Answers (.eptCommandDone d) s (fun u =>
      let y := u.die d
      y.net.eptBusy = none ∧ y.rf Reg.EPT_CMD F.EPT_CMD_STATUS = eptOk ∧
      spFind slot (y.pipe p).ept = some ⟨k, BitVec.ofNat 32 (x.reg Reg.EPT_DATA0), BitVec.ofNat 32 (x.reg Reg.EPT_DATA1), BitVec.ofNat 8 (x.reg Reg.EPT_DATA2), 0, 0, 0⟩)) ∧
    (∀ slot e, x.net.eptBusy = some 3 → eptFind t k = some (slot, e) → p < 2 → Answers (.eptCommandDone d) s (fun u => let y := u.die d
      y.net.eptBusy = none ∧ y.rf Reg.EPT_CMD F.EPT_CMD_STATUS = eptOk ∧ (y.pipe p).ept = spDel slot t)))) ∧
  (∀ (d : DieId) (q : Fin 2) (s : State), let x := s.die d; let t := (x.pipe q).ept
    (x.running = false → Makes (.learnRequestProcess d q) s s ∧ Makes (.agingSweep d q) s s) ∧
    ((x.pipe q).learns = [] → Makes (.learnRequestProcess d q) s s) ∧
    (∀ r, x.running = true → firstLearn (x.pipe q).learns = some r → r.stamp + 1000 ≤ x.ns →
      let s1 := s.onDie d (fun x => x.onPipe q (fun u => { u with learns := u.learns.erase r }))
      Makes (.learnRequestProcess d q) s (learnOne s1 d q r) ∧
      (∀ t1, eptFind t r.key = none → eptInsert t (eptNew r.key r.cport (msOf r.stamp)) = some t1 → Makes (.learnRequestProcess d q) s
        ((s1.onDie d (fun x => x.setEpt q t1)).count d (Reg.EPT_CNT q 0) F.EPT_CNT_COUNT)) ∧
      (∀ slot e, eptFind t r.key = some (slot, e) → e.cport = r.cport → Makes (.learnRequestProcess d q) s
        (s1.onDie d (fun x => x.setEpt q (spPut slot { e with lastSeen := BitVec.ofNat 32 (msOf r.stamp) } t)))) ∧
      (∀ slot e, eptFind t r.key = some (slot, e) → e.cport ≠ r.cport → e.isStatic = true ∨ e.locked = true → Makes (.learnRequestProcess d q) s
        ((s1.onDie d (fun x => x.setEpt q (spPut slot { e with lastSeen := BitVec.ofNat 32 (msOf r.stamp) } t))).count d (Reg.EPT_CNT q 4) F.EPT_CNT_COUNT))) ∧
    (∀ r, firstLearn (x.pipe q).learns = some r → x.ns < r.stamp + 1000 → Makes (.learnRequestProcess d q) s s) ∧
    (x.running = true → let r := eptFlush x q (x.reg Reg.EPT_AGE_LIMIT)
      Makes (.agingSweep d q) s (s.onDie d (fun y => (y.setEpt q r.1).count (Reg.EPT_CNT q 6) F.EPT_CNT_COUNT r.2))) ∧
    (∀ slot, spFind slot t = none → Makes (.flapLockExpiry d q slot) s s) ∧
    (∀ slot e, spFind slot t = some e →
      (e.lockEnd = 0 ∨ s.ticks < e.lockEnd → Makes (.flapLockExpiry d q slot) s s) ∧
      (e.lockEnd ≠ 0 → e.lockEnd ≤ s.ticks → Makes (.flapLockExpiry d q slot) s
        (s.onDie d (fun x => x.setEpt q (spPut slot { e.setFlag 2 false with lockEnd := 0 } t))))))

/-- A link change sets LINK, CLEAN and the preemption state of an existing port, and a link that goes down loses the frame on its wire and
counts (R370, R375); CLEAN comes back after 1 ms without error; verification ends ACTIVE or failed; ETH_APPLY takes effect in DARK and
SERVICE, flushing every port, and is refused elsewhere (R368). -/
def Obligations.ControlPortsChange : Prop :=
  ∀ (d : DieId) (s : State), let x := s.die d
    (∀ (p : Fin 8), x.running = false ∨ x.portExists p = false → (∀ up, Makes (.portLinkChange d p up) s s) ∧ Makes (.portCleanRestored d p) s s ∧
      ∀ ok, Makes (.mmVerifyResult d p ok) s s) ∧
    (∀ (p : Fin 8), x.running = true → x.portExists p = true →
      (x.linkUp p = true → Makes (.portLinkChange d p true) s s) ∧
      (x.linkUp p = false → Makes (.portLinkChange d p false) s s ∧ Makes (.portCleanRestored d p) s s) ∧
      (x.linkUp p = false → Answers (.portLinkChange d p true) s (fun t => let y := t.die d
        y.rf (Reg.ETH_PORT p) F.ETH_PORT_LINK = 2 ∧ y.rf (Reg.ETH_PORT p) F.ETH_PORT_CLEAN = b2n ((x.cport p).quiet s.ticks) ∧
        y.mm p = (if x.rbit (Reg.ETH_MM p) F.ETH_MM_PREEMPT_EN then (if x.rbit (Reg.ETH_MM p) F.ETH_MM_VERIFY_DIS then 2 else 1) else 0))) ∧
      (x.linkUp p = true → Answers (.portLinkChange d p false) s (fun t => let y := t.die d
        y.rf (Reg.ETH_PORT p) F.ETH_PORT_LINK = 0 ∧ y.rf (Reg.ETH_PORT p) F.ETH_PORT_CLEAN = 0 ∧ y.mm p = 0 ∧
        (y.cport p).sending = none ∧ (y.cport p).held = none ∧ (y.cport p).queues = (x.cport p).queues ∧
        y.reg (Reg.ETH_CNT p 11) = min (2 ^ 32 - 1) (x.reg (Reg.ETH_CNT p 11) + 1))) ∧
      (x.linkUp p = true → (x.cport p).quiet s.ticks = true → Makes (.portCleanRestored d p) s (s.setRf d (Reg.ETH_PORT p) F.ETH_PORT_CLEAN 1)) ∧
      (x.linkUp p = true → (x.cport p).quiet s.ticks = false → Makes (.portCleanRestored d p) s s) ∧
      (x.mm p ≠ 1 → ∀ ok, Makes (.mmVerifyResult d p ok) s s) ∧
      (x.mm p = 1 → Makes (.mmVerifyResult d p true) s (s.setRf d (Reg.ETH_PORT p) F.ETH_PORT_MM 2) ∧
        Makes (.mmVerifyResult d p false) s ((s.setRf d (Reg.ETH_PORT p) F.ETH_PORT_MM 3).count d (Reg.ETH_CNT p 10) F.ETH_CNT_COUNT))) ∧
    (∀ m : BitVec 1,
      (x.barOpen = false → Makes (.ethApply d m) s s) ∧
      (x.barOpen = true → x.base ≠ mDark → x.base ≠ mService → Makes (.ethApply d m) s
        ((s.setRf d Reg.ETH_CFG F.ETH_CFG_MODE m.toNat).setRf d Reg.ETH_CFG F.ETH_CFG_REFUSED 1)) ∧
      (x.barOpen = true → x.base = mDark ∨ x.base = mService → (∀ p, (x.cport p).pendList = none ∧ (x.cport p).stopAt = none) → Answers (.ethApply d m) s (fun t => let y := t.die d
        y.rf Reg.ETH_CFG F.ETH_CFG_INFORCE = m.toNat ∧ (∀ p : Fin 8, y.portExists p = true → y.reg (Reg.ETH_PORT p) = fput F.ETH_PORT_LINK 0 1) ∧
        ∀ p : Fin 8, x.portExists p = true → (y.cport p).sending = none ∧ (y.cport p).list = none ∧ ∀ q : Fin 32, ((y.cport p).queue q).frames = [])))

/-- A free port with its link up starts the Trump queue's frame first, and without any frame to send resumes an interrupted one (R374,
R375); the gate list's entry follows its schedule (R379); a loaded or stopped list comes in force at its start and completes its command
(R380); queues are sampled into records, and a selected queue's last record is shown (R387). -/
def Obligations.QueuesSendAndGatesMove : Prop :=
  ∀ (d : DieId) (s : State), let x := s.die d
    (∀ p : Fin 8,
      (x.running = false ∨ x.portExists p = false ∨ x.linkUp p = false → Makes (.frameTransmitStart d p) s s) ∧
      (x.running = true → x.portExists p = true → x.linkUp p = true → (x.cport p).sending = none → (x.cport p).list = none →
        let t := s.ticks * 1000
        let s1 := s.onDie d (·.onCport p (fun c => (List.range 31).foldl (fun c q => c.bring x p q t) c))
        (∀ f rest, ((x.cport p).queue 31).frames = f :: rest → Makes (.frameTransmitStart d p) s (startFrame s1 d p 31 t)) ∧
        ((∀ q : Fin 32, ((x.cport p).queue q).frames = []) → (x.cport p).held = none → Makes (.frameTransmitStart d p) s s1) ∧
        (∀ g, (∀ q : Fin 32, ((x.cport p).queue q).frames = []) → (x.cport p).held = some g → (x.cport p).pendList = none → (x.cport p).stopAt = none →
          Answers (.frameTransmitStart d p) s (fun u => ((u.die d).cport p).sending = some { g with since := t } ∧ ((u.die d).cport p).held = none))) ∧
      ((x.cport p).list = none ∨ x.running = false → Makes (.gateListEntry d p) s s) ∧
      (∀ l, (x.cport p).list = some l → x.running = true → Makes (.gateListEntry d p) s
        (s.onDie d (·.onCport p (fun c => { c with entry := entryAt l.sched (l.place x.ps) })))) ∧
      (x.running = false ∨ ((x.cport p).stopAt = none ∧ (x.cport p).pendList = none) → Makes (.gateListStart d p) s s) ∧
      (∀ t cmd, x.running = true → (x.cport p).stopAt = some (t, cmd) →
        (x.ns < t → Makes (.gateListStart d p) s s) ∧
        (t ≤ x.ns → Makes (.gateListStart d p) s (finish (s.onDie d (fun x => (bringAll x p s.ticks).onCport p (fun c =>
          { c with list := none, stopAt := none, entry := 0 }))) d cmd stOk 0 0 0))) ∧
      (∀ l, x.running = true → (x.cport p).stopAt = none → (x.cport p).pendList = some l →
        (x.ns < l.start → Makes (.gateListStart d p) s s) ∧
        (l.start ≤ x.ns → Makes (.gateListStart d p) s (finish (s.onDie d (fun x => (bringAll x p s.ticks).onCport p (fun c =>
          { c with list := some l, pendList := none, entry := entryAt l.sched (l.place x.ps) }))) d l.cmd stOk 0 0 0))) ∧
      ∀ q : Fin 32,
        (x.barOpen = false → Makes (.tmgSmpSelect d p q) s s) ∧
        (x.barOpen = true → ((x.cport p).queue q).sample.last.length = 6 → Answers (.tmgSmpSelect d p q) s (fun t => let y := t.die d
          y.net.smpSnap = ((x.cport p).queue q).sample.last ∧ y.rf Reg.TMG_SMP_SEL F.TMG_SMP_SEL_PORT = p ∧
          y.rf Reg.TMG_SMP_SEL F.TMG_SMP_SEL_QUEUE = q)) ∧
        (x.barOpen = true → ((x.cport p).queue q).sample.last = [] → Answers (.tmgSmpSelect d p q) s (fun t => (t.die d).net.smpSnap = [0, 0, 0, 0, 0, 0]))) ∧
    (x.running = false → Makes (.queueSample d) s s) ∧
    (x.running = true → Answers (.queueSample d) s (fun t => ∀ p : Fin 8, x.portExists p = true → ∀ q : Fin 32,
      let u := (x.cport p).queue q; let v := ((t.die d).cport p).queue q
      let hol := match u.frames with | [] => 0 | f :: _ => x.ns - f.entered
      let m := u.sample.add u.depth (min hol (2 ^ 32 - 1))
      let n := max 1 (x.rf Reg.TMG_SAMPLE F.TMG_SAMPLE_N)
      v.frames = u.frames ∧ v.credit = u.credit ∧ (m.n < n → v.sample = m) ∧ (n ≤ m.n → v.sample = { QSample.zero with last := m.means })))

/-- For every VSP row: a message at a die that does not run is lost, one the engine cannot take waits; an unsound one is dropped and
counted; one of an unknown agent is refused UNREGISTERED; a stale or repeated one is dropped; one with a wrong length, class or flag is
refused; what passes acts as its row says (R317 to R319); a TAKE or BID that its policer colours red is dropped (R385). -/
def Obligations.VspMessagesAreJudged : Prop :=
  ∀ r ∈ vspRows, ∀ (rx : VspRx) (s : State), mType rx.bytes = r.1 →
    ((s.die rx.src.die).running = false → Makes (r.2 rx) s s) ∧
    ((s.die rx.src.die).running = true → vspEngine s rx = none → Makes (r.2 rx) s (vspWaits s rx)) ∧
    (∀ d, (s.die rx.src.die).running = true → vspEngine s rx = some d →
      let s0 := vspTaken s rx
      (∀ c, vspUnsound rx.bytes = some c → Makes (r.2 rx) s (vspDropped s0 d rx c)) ∧
      (vspUnsound rx.bytes = none → r.1 ≠ 1 → msgAgent (s.die d) rx = none → Makes (r.2 rx) s (nackStranger s0 d rx 0x20)) ∧
      (∀ a, vspUnsound rx.bytes = none → r.1 ≠ 3 → r.1 ≠ 5 → (if r.1 = 1 then keyAgent (s.die d) rx else msgAgent (s.die d) rx) = some a →
        (judgeSeq a (mSeq rx.bytes) = .stale → Makes (r.2 rx) s (vspDropped s0 d rx 4)) ∧
        (judgeSeq a (mSeq rx.bytes) = .duplicate → bitOf (mFlags rx.bytes) 1 = false → Makes (r.2 rx) s (vspDropped s0 d rx 5)) ∧
        (∀ l seen, judgeSeq a (mSeq rx.bytes) = .new l seen → let s1 := vspAccepted s0 d { a with seqL := some l, seqSeen := seen } rx
          (∀ n, vspRefusal rx.bytes a.maxClass a.trump = some n → Makes (r.2 rx) s (nackAgent s1 d a.id rx (replyEgr rx false) n)) ∧
          (vspRefusal rx.bytes a.maxClass a.trump = none → Makes (r.2 rx) s (vspBody r.1 s1 d a.id rx (replyEgr rx false))))) ∧
      (∀ a c s1, vspUnsound rx.bytes = none → r.1 = 3 ∨ r.1 = 5 → msgAgent (s.die d) rx = some a → police s0 d a rx = (c, s1) →
        (c = 2 → Makes (r.2 rx) s s1) ∧
        (∀ b l seen, c = 0 → (s1.die d).agent a.id = some b → judgeSeq b (mSeq rx.bytes) = .new l seen → vspRefusal rx.bytes b.maxClass b.trump = none →
          Makes (r.2 rx) s (vspBody r.1 (vspAccepted s1 d { b with seqL := some l, seqSeen := seen } rx) d b.id rx (replyEgr rx false)))))

/-- A sound REGISTER of an unknown key enters it in the registry with its flags clear (R321, R322); BID and TAKE without permission are
refused NOT_PERMITTED, and a sound BID is kept as the epoch's demand (R329, R331); an agent silent for 3 x HELLO_MS leaves (R324); a port
check that misses its deadline leaves its agents unverified, and is repeated no sooner than 1 s after (R328). -/
def Obligations.AgentsJoinActAndLeave : Prop :=
  (∀ (rx : VspRx) (s : State) (d : DieId), mType rx.bytes = 1 → (s.die rx.src.die).running = true → vspEngine s rx = some d →
    vspUnsound rx.bytes = none → keyAgent (s.die d) rx = none → let f := regForm rx.bytes
    (∀ n, vspRefusal rx.bytes f.maxClass false = some n → Makes (.register rx) s (nackStranger (vspTaken s rx) d rx n)) ∧
    (vspRefusal rx.bytes f.maxClass false = none → regOk rx.bytes = false → Makes (.register rx) s (nackStranger (vspTaken s rx) d rx stInvalid)) ∧
    (∀ id, vspRefusal rx.bytes f.maxClass false = none → regOk rx.bytes = true → f.leave = false → newId (s.die d) f.reqId = some id →
      Answers (.register rx) s (fun t => ∃ a, (t.die d).agent id = some a ∧ a.mac = rx.src.mac ∧ a.vlan = vspVlan rx.src ∧ a.domain = mDomain rx.bytes ∧
        a.port = f.port ∧ a.rate = f.rate ∧ a.maxClass = f.maxClass ∧ a.name = f.name ∧ a.verified = false ∧ a.take = false ∧ a.trump = false ∧
        a.lastAt = s.ticks))) ∧
  (∀ (s : State) (d : DieId) (id : Nat) (rx : VspRx) (g : Egr) (a : Agent), (s.die d).agent id = some a →
    (a.slotted = false ∨ a.port = 0x3FF → bidReceived s d id rx g = nackAgent s d id rx g 0x21) ∧
    (a.take = false → vspTake s d id rx g = nackAgent s d id rx g 0x21) ∧
    (∀ n, a.slotted = true → a.port ≠ 0x3FF → bidOk rx.bytes a.maxClass = true → bidEpoch (s.die d) rx.stamp = some n →
      ((bidReceived s d id rx g).die d).planner.bids = upsert (fun (e : Bid) => e.epoch = n && e.agent = id)
        ⟨n, id, a.port, a.rate * 1000000, (bidUsed (s.die d) a (bidEntries rx.bytes)).1⟩ (s.die d).planner.bids)) ∧
  (∀ (n : Fin 4096) (s : State) (d : DieId), s.serving = some d →
    ((s.die d).agent n = none → Makes (.agentTimeout n) s s) ∧
    (∀ a, (s.die d).agent n = some a →
      (s.ticks - a.lastAt < 3 * a.helloMs * msT → Makes (.agentTimeout n) s s) ∧
      (3 * a.helloMs * msT ≤ s.ticks - a.lastAt → Answers (.agentTimeout n) s (fun t => (t.die d).vsp.agents = (s.die d).vsp.agents.filter (fun b => b.id ≠ a.id))))) ∧
  (∀ (p : Fin 512) (s : State) (d : DieId), s.serving = some d →
    ((s.die d).vsp.checks.find? (fun c => c.port = p.val) = none → Makes (.portcheckDeadline p) s s) ∧
    (∀ c, (s.die d).vsp.checks.find? (fun c => c.port = p.val) = some c →
      ((s.die d).ns < c.w1 + 10000000 → Makes (.portcheckDeadline p) s s) ∧
      (c.w1 + 10000000 ≤ (s.die d).ns → Answers (.portcheckDeadline p) s (fun t => let y := t.die d
        (∀ e ∈ y.vsp.checks, e.id ≠ c.id) ∧ (∀ i ∈ c.agents, ∀ a, y.agent i = some a → a.verified = false) ∧
        ((∃ i ∈ c.agents, ((s.die d).agent i).isSome = true) → spGet 0 p.val y.vsp.retryAt = s.ticks + 1000000000)))) ∧
    ((∀ e ∈ (s.die d).vsp.retryAt, e.1 = p.val → s.ticks < e.2) → Makes (.portcheckRetry p) s s) ∧
    (∀ u, (p.val, u) ∈ (s.die d).vsp.retryAt → u ≤ s.ticks → Makes (.portcheckRetry p) s (startCheck s d p)))

/-- With a command at the front of its queue, a step is that command's effect on the state with the queue's rest. On an empty queue a step
is one cycle of 1 ns: elapsed time grows by one and every running PTP clock by TIM_INCR; that the block idles so is the model's choice (log
entry 2). -/
def Obligations.StepRunsTheFrontCommand : Prop :=
  (∀ (c : Instr) (rest : List Instr) (s : State), s.pending = c :: rest → step s = exec c { s with pending := rest }) ∧
  (∀ (c : Instr) (s : State), step (s.push c) = exec c s) ∧
  (∀ s : State, s.pending = [] → ∃ t, step s = .next t ∧ t.ticks = s.ticks + 1 ∧ ∀ d, (s.die d).clock.running = true →
    (t.die d).clock.now = (s.die d).clock.now + (s.die d).reg64 Reg.TIM_INCR)

/-- For every command and every state exec answers a next state: no row of the table ends in a fault or a refusal, for the manual gives each
an effect; a row whose condition does not hold changes nothing, which is the model's choice (log entry 3). Beside that, for the commands of
each family one case in which the row has its own effect, under conditions on the state and the operands alone, with what it then does:
register accesses and the ring commands TAKE, RULE_COMMIT and TAKEOVER; mode requests, clock and pulses; deals, mirror and planning; hand-
offs, loops, elements, DITHER_RUN and calibration; engines and patches; bank dies and links; heartbeats, claims, resync and faults; the
Light Guard and the thermal manager; resets, boot and the matrix; the unlock engine; frames, tables, ports and queues; VSP messages. -/
def Obligations.EveryCommandCompletes : Prop :=
  (∀ (c : Instr) (s : State), ∃ t, exec c s = .next t) ∧
  (∀ (d : DieId) (f : Fin 4) (off : BitVec 16) (q : RingRef) (desc : List Byte) (s : State), let x := s.die d
    let key := regKey f off.toNat
    (∀ n i s1, q.die = d → Passes 0x10 q desc s → x.solo = false →
      let b := rowBytes 0x10 desc
      let g := takeForm b 16 (pairsAt b 40 (leAt b 27 1))
      takeRefusal x g (decide (1 ≤ leAt b 27 1) && decide (leAt b 27 1 ≤ 6) && zeroRange b (40 + 4 * leAt b 27 1) 63) = none →
      placeTake (s.withCmd d (rowOrigin 0x10 q desc s) b .waiting true) d (takeOf x g x.nextCmd none 0) = (s1, .at_ n i) →
      Answers (.take q desc) s (fun t => ∃ dl ∈ (t.die d).dealer.pending, dl.num = n ∧ ∃ k ∈ dl.takes, k.cmd = x.nextCmd ∧
        k.pairs = g.pairs.map (fun p => (p.1, BitVec.ofNat 16 p.2)))) ∧
    (q.die = d → Passes 0x48 q desc s → let b := rowBytes 0x48 desc
      ruleCommitOk b = true → Answers (.ruleCommit q desc) s (fun t => ∀ p : Fin 2, bitOf (leAt b 16 1) p = true →
        ((t.die d).pipe p).activeBank = leAt b 17 1)) ∧
    (q.die = d → Passes 0x60 q desc s → let b := rowBytes 0x60 desc
      leAt b 16 1 = 0 → zeroRange b 17 63 = true → x.role = 1 → x.inResync = false → x.peerOk = true → readyDummy s d.peer = true →
      takeoverBusy s = false → Answers (.takeover q desc) s (fun t => ∃ y, (t.die d).red.takeover = some y ∧ y.claimant = false ∧
        y.planned = true ∧ y.since = s.ticks ∧ y.cmd = some x.nextCmd)) ∧
    (x.barOpen = true →
      (∀ o2 : BitVec 26, ∀ n : Fin 9, Makes (.unmappedAccess d (.bar2 o2) n false) s
        (s.emit (.bar2Read d o2.toNat ((List.range n).map (fun i => bar2Byte x (o2.toNat + i)))))) ∧
      (findReg f off.toNat = none → Makes (.unmappedAccess d (.bar0 f off) 4 true) s s ∧
        Makes (.unmappedAccess d (.bar0 f off) 4 false) s (s.emit (.regRead d f off.toNat 4 0))) ∧
      (∀ r idx, findReg f off.toNat = some (r, idx, false) → r.wide = true → regHas key (· == Access.rc) = false → companion key = none →
        Makes (.lowWordReadCapture d f off false) s ((s.onDie d (·.onFn f (fun n =>
          { n with captures := spPut ((key + 4) % 65536) (BitVec.ofNat 32 (viewWord s d (key + 4))) n.captures }))).emit
            (.regRead d f off.toNat 4 (viewWord s d key)))) ∧
      (∀ r idx, findReg f off.toNat = some (r, idx, false) → r.wide = false → regHas key (· == Access.rc) = true →
        key ≠ Reg.TIM_TXTS_INFO → key ≠ Reg.THM_RS_DATA → key ≠ Reg.CAL_RD_DATA → portAbsent x key = false → companion key = none →
        [Reg.TIM_NOW_FRAC, Reg.DLR_LAST_FRAC, Reg.DLR_NEXT_FRAC, Reg.DCK_NEXT_BND_FRAC].contains key = false →
        Answers (.rcRegisterRead d f ⟨off, false⟩) s (fun t => Out.regRead d f off.toNat 4 (viewWord s d key) ∈ t.out)) ∧
      Answers (.calRdDataRead d) s (fun t => Out.regRead d 1 (Reg.CAL_RD_DATA % 65536) 4 (viewWord s d Reg.CAL_RD_DATA) ∈ t.out ∧
        (t.die d).rf Reg.CAL_RD_SEL F.CAL_RD_SEL_OFFSET = (x.rf Reg.CAL_RD_SEL F.CAL_RD_SEL_OFFSET / 4 * 4 + 4) % 2 ^ 21) ∧
      Answers (.thmRsDataRead d) s (fun t => Out.regRead d 0 (Reg.THM_RS_DATA % 65536) 4 (viewWord s d Reg.THM_RS_DATA) ∈ t.out ∧
        (t.die d).rf Reg.THM_RS_SEL F.THM_RS_SEL_OFFSET = (x.rf Reg.THM_RS_SEL F.THM_RS_SEL_OFFSET / 4 * 4 + 4) % 32768))) ∧
  (∀ (d : DieId) (s : State), let x := s.die d
    (x.barOpen = true → x.rf Reg.RED_MODE_REQ F.RED_MODE_REQ_STATUS ≠ 2 → x.isDecl = true → x.trans = .none →
      (x.base ∈ [mStatic, mSlotted, mHybrid, mBlind] → Answers (.goDark d) s (fun t => ∃ b, (t.die d).trans = .goDark none b)) ∧
      (x.base = mDark → runAllowed s d = true → Answers (.run d) s (fun t => ∃ m, (t.die d).trans = .runDark m)) ∧
      (x.base = mStatic → Answers (.blindHold d) s (fun t => (t.die d).base = mBlind)) ∧
      (x.base = mDark → Answers (.standby d) s (fun t => ∀ e, (t.die e).life = .held 5 s.ticks ∧ (t.die e).base = mStandby)) ∧
      (x.base = mDark → (∀ b < 8, (s.bank b).cal = none) → Answers (.recal d) s (fun t => (t.die d).base = mSelfCal))) ∧
    (x.barOpen = true → x.isDecl = true → ∀ v : Word64,
      (v.toNat % 2 ^ 48 = 2 ^ 40 → Makes (.timIncrWrite d v) s (putWord64 s d Reg.TIM_INCR (2 ^ 40))) ∧
      (∀ p : Fin 4, x.base = mDark → Answers (.partApply d p) s (fun t => (t.die d).dealer.part = (x.dealer.comp.partition (x.pmask p)).part)) ∧
      (v.toInt = 0 → Answers (.timAdjWrite d v) s (fun t => (t.die d).clock.now = (stepClock x x.clock.now s.ticks).clock.now))) ∧
    (x.barOpen = true → Answers (.txtsFlush d) s (fun t => (t.die d).clock.txts = [])) ∧
    (∀ row, ∀ pin : Fin 5, (row, pin) ∈ [(Instr.ppsOutPulse d, 0), (.syncOutPulse d 0, 1), (.syncOutPulse d 1, 2), (.syncOutPulse d 2, 3), (.syncOutPulse d 3, 4)] →
      ∀ p : Int, x.clock.running = true → lastPoint x pin = some p → (x.ns : Int) ≤ p + 1 → (pin.val, p) ∉ x.clock.emitted →
        Answers row s (fun t => (pin.val, p) ∈ (t.die d).clock.emitted)) ∧
    (s.cd0.ppsInEn = true → s.cd1.ppsInEn = true → s.cd0.clock.ppsIn = none → s.cd1.clock.ppsIn = none →
      Answers .ppsInEdge s (fun t => (t.die d).clock.ppsIn = some s.ticks)) ∧
    (x.ppsInEn = true → 1500000000 ≤ s.ticks - max (x.clock.ppsIn.getD 0) x.clock.ppsEnAt →
      Answers (.ppsInAbsent d) s (fun t => (t.die d).clock.ppsAbsent = true)) ∧
    (∀ o : Int, s.cd0.isDummy = true → s.cd0.running = true → o.natAbs ≤ 2000 → Answers (.slavingError o) s (fun t =>
      t.cd0.reg Reg.TIM_SLAVE_OFS = codeOf 32 o)) ∧
    (∀ b : Fin 8,
      (∀ rt, x.running = true → (s.bank b).up d = true → mSelfCal ≤ x.base → Answers (.delayMeasurement d b rt) s (fun t =>
        (t.die d).rf (Reg.TIM_BLINK_DLY b) F.TIM_BLINK_DLY_VALID = 1)) ∧
      (x.clock.running = true → x.isDecl = true → (s.bank b).up d = true → (s.bank b).holder = some d →
        Answers (.disciplineMessage d b) s (fun t => (t.bank b).clock = x.clock.now ∧ (t.bank b).disciplined = true)))) ∧
  (∀ (d : DieId) (s : State), let x := s.die d
    (∀ dl, s.serving = some d → s.declarer = some d → x.decks.live = none → x.cal.survey = none →
      ((looseTakes x (x.now + i1300ns)).dealer.pending.filter (fun e => decide (e.stage = .placed) && decide (e.instant ≤ x.now + i1300ns) &&
        (match e.kind with | .boundary _ => false | .blank _ => false | _ => true))).head? = some dl →
      Makes .preparationWindowOpen s (mirrorDealer (s.setDie d (prepareDeal (looseTakes x (x.now + i1300ns)) dl.num)) d)) ∧
    (∀ dl, s.serving = some d → x.dealer.pending.head? = some dl → dl.stage = .prepared → dl.refused = 0 → (∀ t ∈ dl.takes, t.acked = true) →
      x.shadowsUsed < 4 → (s.die d.peer).isDummy = false → Answers .preloadSend s (fun t =>
        ∃ e ∈ (t.die d).dealer.pending, e.num = dl.num ∧ e.stage = .sent)) ∧
    (∀ dl, s.declarer = some d → x.dealer.pending.head? = some dl → dl.stage = .sent → dl.instant ≤ x.now + i100ns → dl.acks = BitVec.allOnes 8 →
      (∀ t ∈ dl.takes, t.acked = true) → Answers .preloadCutoff s (fun t => ∃ e ∈ (t.die d).dealer.pending, e.num = dl.num ∧ e.stage = .fixed)) ∧
    (let s0 := (List.range 8).foldl firePreloads s;
      ∀ dl, s0.declarer = some d → (s0.die d).dealer.pending.find? (fun e => decide (e.stage = .fixed)) = some dl → dl.instant ≤ (s0.die d).now →
        Makes .dealFire s (startChecks (shutdownStep (mirrorDecks (mirrorDealer (fireDeal s0 d dl) d) d)))) ∧
    (∀ e : Fin 5888, ∀ raw v, x.dealer.verify.find? (fun v => v.elem = e.val) = some v → v.notBefore ≤ x.now → x.isDecl = true →
      (x.elem e).passesUnread e = true → Makes (.verifyConversion d e raw) s (mirrorDealer (verifyEnds s d v false 0) d)) ∧
    (∀ t, s.declarer = some d → x.trans = .goDark (some t) false → msT ≤ s.ticks - t → Makes .goDarkHoldExpiry s (enterDark s d)) ∧
    (∀ r, s.declarer = some d → x.decks.current = some r → r.state ≠ .finished → x.decks.runBnd r r.pass ≤ x.now → x.decks.next = none →
      (∀ dl ∈ x.dealer.pending, dl.kind ≠ .boundary r.pass) → bndAct x.decks r x.deckLevel r.pass = .fin → r.stop = none →
      Answers .deckEndBoundary s (fun t => ∃ e, (t.die d).decks.current = some e ∧ e.state = .finished)) ∧
    (s.mirror.state = 2 → s.declarer = some d →
      (∀ r rest, x.red.sent = r :: rest → (s.die d.peer).isDummy = false → Makes .mirrorRecordReceive s
        (s.onDie d (fun x => x.onRed (fun q => { q with sent := rest })))) ∧
      (∀ q m rest, x.red.acks = (q, m) :: rest → (∀ c ∈ x.cmds, ∀ q t, c.stage ≠ .acking q t) →
        Makes .mirrorAck s (s.onDie d (fun x => { x with red := { x.red with acks := rest } })))) ∧
    (∀ c, s.declarer = some d → x.cmds.find? (fun c => match ackSince c with | some (_, t) => decide (20 * usT ≤ s.ticks - t) | none => false) = some c →
      Answers .mirrorAckTimeout s (fun t => (t.die d).mapBit (Reg.FLT_STICKY 0) 187 = true)) ∧
    (∀ q rest, s.mirror.state = 2 → s.cd0.red.peer = q :: rest →
      Makes .mirrorPeerRequest s (peerRequest (s.onDie .cd0 (fun x => { x with red := { x.red with peer := rest } })) .cd1 q)) ∧
    (∀ r e, s.declarer = some d → s.serving = some d → autoEpoch x = some (r, e) → e ≠ 0 → x.planner.upTo ≤ e + 1 → x.planner.planning = none →
      r.desc.ended ((e + 1) * r.desc.epoch) = false → x.thm.level < 3 → Answers .planningStart s (fun t =>
        ∃ p, (t.die d).planner.planning = some p ∧ p.epoch = e + 1 ∧ p.since = s.ticks)) ∧
    (∀ r e p, s.declarer = some d → s.serving = some d → autoEpoch x = some (r, e) → x.planner.planning = some p →
      (x.decks.runBnd r (p.epoch * r.desc.epoch) < x.now + 8 * x.grantLead → Makes .planningDeadline s (planAbandon s d r p.epoch)) ∧
      (x.now + 8 * x.grantLead ≤ x.decks.runBnd r (p.epoch * r.desc.epoch) → x.thm.level < 3 → Answers .planningDone s (fun t =>
        (t.die d).planner.planning = none ∧ (t.die d).planner.upTo = p.epoch + 1))) ∧
    (∀ r, ∀ i : Fin 512, s.declarer = some d → x.decks.running = some r → x.dealer.pending = [] →
      let k := x.decks.bndFrom r.desc r.origin r.pass (x.now + 1)
      (watched x x.dealer.hand (({ x.dealer.comp with deckHand := deckHandAfter x r k } : Comp).hand).1).any (fun w => w.1 = i.val) = true →
      x.decks.runBnd r k - 8 * r.desc.guard_ + (if r.desc.blank then 400 else 160) ≤ x.now → (∀ g ∈ x.decks.guards, g.closes ≠ x.decks.runBnd r k) →
      Answers (.lateLight i) s (fun t => (t.die d).reg Reg.DCK_LL_TOTAL = min (2 ^ 32 - 1) (x.reg Reg.DCK_LL_TOTAL + 1)))) ∧
  (∀ (d : DieId) (c : Fin 4864) (e : Fin 5888) (s : State), let x := s.die d; let el := x.elem c; let ee := x.elem e
    (∀ t n, x.handoffNs = some t → t ≤ s.ticks - el.pinSince → x.loopsOn = true → el.mode ≠ 1 → el.mode ≠ 3 → el.onPin = true → el.handoff = false →
      el.deferred = false → x.willChange c = false → x.inRun c = false → handoffTarget el = some n →
      Answers (.handoffStart d c) s (fun t => ((t.die d).elem c).handoff = true ∧ ((t.die d).elem c).target = n)) ∧
    (el.handoff = true → el.heldAt = none → 30 * usT ≤ s.ticks - el.handSince → Answers (.handoffEnd d c) s (fun t =>
      ((t.die d).elem c).handoff = false ∧ ((t.die d).elem c).onPin = false ∧ ((t.die d).elem c).phi = ((el.target : Nat) : Rat))) ∧
    (x.loopsOn = true → el.mode ≠ 1 → el.mode ≠ 3 → el.handoff = false → el.deferred = true ∨ el.phi = 2 → stale s c = false → x.inRun c = false →
      cellDark (cellInUw x x.dealer.image c) = true → Answers (.deferredRelease d c) s (fun t => ((t.die d).elem c).deferred = false)) ∧
    (dithers s d c = true → el.half = .plus → el.settled = true → x.halfNs ≤ s.ticks - el.edgeAt → Answers (.ditherEdge d c) s (fun t =>
      ((t.die d).elem c).half = .minus ∧ ((t.die d).elem c).edgeAt = s.ticks)) ∧
    (dithers s d c = true → el.half ≠ .none → el.settled = false → x.settleNs el.onPinLoop ≤ s.ticks - el.edgeAt →
      Answers (.settleExpiry d c) s (fun t => ((t.die d).elem c).settled = true)) ∧
    (x.loopsOn = true → stale s c = false → x.verifying c = false → x.inRun c = false → x.effNs ≤ s.ticks - el.lastUpd → el.mode = 2 → el.ramp = none →
      Makes (.cellUpdate d c) s (holdCell (s.onDie d (fun x => x.onElem c (fun el => { el with lastUpd := s.ticks }))) d c)) ∧
    (∀ g : Fin 1024, let h := gateElem g; x.loopsOn = true → stale s h = false → x.verifying h = false → x.inRun h = false →
      usT * x.loopUs ≤ s.ticks - (x.elem h).lastUpd → (x.elem h).mode = 2 → (x.elem h).ramp = none →
      Makes (.gateUpdate d g) s (holdGate (s.onDie d (fun x => x.onElem h (fun el => { el with lastUpd := s.ticks }))) d h)) ∧
    (x.loopsOn = true → stale s e = false → x.inRun e = false →
      (ee.mode = 0 → refreshNo x e ≠ 0 → refreshNo x e ≠ ee.refIdx → ee.active = true →
        Answers (.refreshDue d e) s (fun t => ((t.die d).elem e).refIdx = refreshNo x e)) ∧
      (ee.mode = 0 → ee.active = false → ee.fallback = false → Answers (.comparatorWake d e) s (fun t => ((t.die d).elem e).active = true)) ∧
      (ee.closed e = true → x.verifying e = false → (if isCell e then x.effNs + 2 * x.halfNs else 2 * (usT * x.loopUs)) ≤ s.ticks - ee.lastUpd →
        Answers (.updateDeadlineMiss d e) s (fun t => ((t.die d).elem e).miss = true)) ∧
      (ee.fallback = true → ee.retry = none → x.verifying e = false → x.retryNs ≤ s.ticks - ee.fellAt →
        Answers (.fallbackRetry d e) s (fun t => ((t.die d).elem e).fellAt = ee.fellAt + x.retryNs))) ∧
    (∀ m k, ee.modePend = some (m, k) → ee.mode ≠ m → stale s e = false → x.inRun e = false →
      Answers (.loopModeApply d e) s (fun t => ((t.die d).elem e).mode = m ∧ ((t.die d).elem e).modePend = none)) ∧
    (x.barOpen = true →
      (∀ n : BitVec 13, n.toNat < 5888 → Answers (.hldElSelect d n) s (fun t => (t.die d).elSnap = x.elem n.toNat ∧
        (t.die d).rf Reg.HLD_EL_SEL F.HLD_EL_SEL_ELEMENT = n.toNat)) ∧
      (x.isDecl = true → x.expert 1 = true → let k := x.rf Reg.HLD_EL_SEL F.HLD_EL_SEL_ELEMENT
        (∀ v : Word32, ∀ r, ctrlReq x (fput F.HLD_EL_CTRL_APPLY v.toNat 1) = some r → Makes (.hldElApply d v) s
          (loopReq (putWord s d Reg.HLD_EL_CTRL (fput F.HLD_EL_CTRL_APPLY (fput F.HLD_EL_CTRL_CLEAR v.toNat 0) 0)) d k 1 r)) ∧
        (∀ r, ctrlReq x (fput F.HLD_EL_CTRL_CLEAR (x.reg Reg.HLD_EL_CTRL) 1) = some r → Makes (.hldElClear d) s (loopReq (putWord s d
          Reg.HLD_EL_CTRL (fput F.HLD_EL_CTRL_APPLY (fput F.HLD_EL_CTRL_CLEAR (x.reg Reg.HLD_EL_CTRL) 0) 0)) d k 1 r)) ∧
        (∀ v : Word64, (x.elem k).mode ≠ 1 → Answers (.hldElManWrite d v) s (fun t => (t.die d).reg64 Reg.HLD_EL_MAN =
          ((putWord64 s d Reg.HLD_EL_MAN v.toNat).die d).reg64 Reg.HLD_EL_MAN)))) ∧
    (x.running = true → ∀ b : Fin 8, (∀ e ∈ clusterEngines b, (x.eng.engine e).deque = [] ∧ (x.eng.engine e).running = none) →
      (∀ p ∈ x.hold, bankOf p.1 = b.val → p.2.active = false) → x.eng.dozing b = false →
      Answers (.clusterDoze d b) s (fun t => (t.die d).eng.dozing b = true)) ∧
    (∀ r, ∀ b : Fin 8, s.declarer = some d → x.dither.find? (fun r => r.bank = b.val) = some r → r.begun = true → r.stim = 2 →
      r.p2 ≤ (s.ticks - r.lastStim) / usT → let pr := Config.prbsNext r.p1 r.prbs
      Makes (.ditherRunStimulusUpdate b) s (stimAll s d { r with elapsed := r.elapsed + r.p2, lastStim := r.lastStim + r.p2 * usT, prbs := pr, value := prbsValue r.amp pr })) ∧
    (∀ r t s1 st, s.declarer = some d → x.dither.find? (fun r => r.left.any (fun t => t.elem = e.val)) = some r →
      r.left.find? (fun t => t.elem = e.val) = some t → r.window * usT ≤ s.ticks - t.since → 4 ≤ ((s.bank (bankOf e)).chan (chanOf e)).store.count →
      readStore s d e = (s1, st) → r.pre + r.nwin ≤ t.win + 1 →
      Makes (.ditherRunWindowEnd e) s (ditherLeave (ditherRecord s1 d r t st false true) d r.cmd e)) ∧
    (s.declarer = some d →
      (x.routersStopped = false → Makes .benchRecomputeDone s
        (mirrorCal (mirrorDecks (s.onDie d (fun x => (recomputed x).onRouters (·.drop RouteTask.isImage))) d) d)) ∧
      (x.rbit Reg.RED_MODE F.RED_MODE_TAKEOVER = false → x.calNow ≠ x.cal →
        Makes .calibrationBoundary s (parkDeal (calApply s d x.calNow (calDiff x.cal x.calNow)) d)) ∧
      (∀ q dn, x.trans = .selfCal q dn true → (∀ b < 8, (s.bank b).up d = true → dn.getLsbD b = true) →
        Answers .selfCalComplete s (fun t => (t.die d).trans = .none ∧ (t.die d).base = mDark)) ∧
      (∀ i, x.cal.survey = none → surveyable s d c = true → (∀ e < 4864, olderSurvey (surveyed x e) (surveyed x c) = true → surveyable s d e = false) →
        surveyInput s d c = some i → Answers (.surveyStart c) s (fun t => (t.die d).cal.survey = some ⟨c, i, s.ticks, 0⟩)) ∧
      (∀ v, ∀ r : SurveyResult, x.cal.survey = some v → v.cell = c.val → Answers (.surveyEnd c r) s (fun t => (t.die d).cal.survey = none))) ∧
    (∀ u, x.running = true → msT ≤ s.ticks - x.cal.lastTf → x.thm.fabricTemp = some u →
      Answers (.tFFilterUpdate d) s (fun t => (t.die d).cal.tf = (x.cal.filter u (max 1 s.ticks)).tf ∧ (t.die d).cal.lastTf = max 1 s.ticks))) ∧
  (∀ (d : DieId) (s : State), let x := s.die d
    (∀ (e : Fin 64) (rom : BitVec 128) (m : Micro) (p : MicroPc) (el : Nat) (ecc : EccRead), ecc ≠ .double → RunsWord d e rom s m p el →
      let n := wordDone d e s m p el ecc
      (∀ q, m.seq = 0 → p.succ = some q → Answers (.next d e ⟨rom, ecc⟩) s (fun t => ((t.die d).eng.engine e).pc = q)) ∧
      (m.seq = 1 → Answers (.jump d e ⟨rom, ecc⟩) s (fun t => ((t.die d).eng.engine e).pc = m.target)) ∧
      (m.seq = 2 → n.stack.length < 4 → Answers (.call d e ⟨rom, ecc⟩) s (fun t => ((t.die d).eng.engine e).pc = m.target)) ∧
      (∀ q l, m.seq = 3 → n.stack = q :: l → Answers (.ret d e ⟨rom, ecc⟩) s (fun t => ((t.die d).eng.engine e).pc = q)) ∧
      (m.seq = 4 → m.cond = 0 → m.cinv = false → Answers (.branch d e ⟨rom, ecc⟩) s (fun t => ((t.die d).eng.engine e).pc = m.target)) ∧
      (m.seq = 5 → n.merged = none → n.fenceReq = false → (∀ f : Fin 64, ((s.die d).eng.engine f).deque = []) →
        Answers (.dispatch d e ⟨rom, ecc⟩) s (fun t => ((t.die d).eng.engine e).running = none ∧ ((t.die d).eng.engine e).state = 0)) ∧
      (∀ tk, m.seq = 6 → n.running = some tk → n.merged = none → n.fenceReq = false → (∀ f : Fin 64, ((s.die d).eng.engine f).deque = []) →
        Answers (.wait d e ⟨rom, ecc⟩) s (fun t => ((t.die d).eng.engine e).running = none ∧ ∃ p ∈ (t.die d).eng.parked, p.elem = tk.elem))) ∧
    (∀ el : Fin 5888,
      (∀ t, x.eng.armed.find? (fun t => t.elem = el.val && decide (t.release ≤ s.ticks)) = some t →
        Makes (.taskRelease d el) s (placeTask (s.onDie d (fun x => x.onEng (fun g => g.disarm el))) d t)) ∧
      ∀ t, ∀ e : Fin 64, x.enginesRun = true → (x.eng.engine e).state = 0 → x.eng.dozing (e / 8) = false →
        x.eng.parked.find? (fun t => t.elem = el.val) = some t → waitOver s d e t = true → Answers (.waitResume d e el) s (fun u =>
          (u.die d).eng.engine e = (x.eng.engine e).start t x.eng.active s.ticks ∧ ∀ p ∈ (u.die d).eng.parked, p.elem ≠ el.val)) ∧
    (∀ e : Fin 64, let n := x.eng.engine e
      (∀ t, n.running = some t → n.state = 1 → t.type ≠ tSelftest → 4 * usT < s.ticks - n.sliceAt → Makes (.sliceOverrun d e) s (microFault s d e 5)) ∧
      (x.enginesRun = true → n.state ≠ 3 → n.testing = none → testDue x n s.ticks = true → n.state ≠ 1 → n.deque = [] →
        Answers (.selftest d (.hold e) true) s (fun t => ((t.die d).eng.engine e).lastTest = s.ticks) ∧
        Answers (.selftestTimeout d e) s (fun t => ((t.die d).eng.engine e).state = 3 ∧ ((t.die d).eng.engine e).fenceCause = 1))) ∧
    (x.barOpen = true → x.writable Reg.UCS_FENCE_REQ = true → ∀ m : Word64, ∀ e : Fin 64,
      bitOf (((putWord64 s d Reg.UCS_FENCE_REQ m.toNat).die d).reg64 Reg.UCS_FENCE_REQ) e = true → (x.eng.engine e).state = 0 →
      Answers (.fenceRequest d m) s (fun t => ((t.die d).eng.engine e).state = 3)) ∧
    (x.barOpen = true → patchOpen x = true → let p := x.rf Reg.UCS_PATCH_PTR F.UCS_PATCH_PTR_PTR / 4 * 4
      (p < 4356 → ∀ w : Word32, Answers (.patchDataWrite d w) s (fun t => (t.die d).eng.staged = memWrite x.eng.staged p (leBytes 4 w.toNat))) ∧
      (x.drained = true → x.eng.verifying = none → Answers (.patchVerify d) s (fun t => (t.die d).eng.verifying = some s.ticks)) ∧
      (x.drained = true → Answers (.patchClear d) s (fun t => (t.die d).eng.verifying = none ∧ (t.die d).eng.active = x.eng.active)) ∧
      (x.rf Reg.UCS_PATCH_STATUS F.UCS_PATCH_STATUS_STATE = 3 → x.dealFree = true →
        Answers (.patchActivate d) s (fun t => (t.die d).eng.active = 1 - x.eng.active))) ∧
    (x.eng.verifying.isSome = true → Answers (.patchVerifyDone d) s (fun t => (t.die d).eng.verifying = none)) ∧
    (x.drained = false → x.eng.underBank (1 - x.eng.active) = false → Answers (.patchDrained d) s (fun t => (t.die d).drained = true))) ∧
  (∀ (p : DieId) (b : Fin 8) (l : Fin 736) (s : State), let k := s.bank b
    (k.up p = true → k.accepts p s.ticks = true →
      (∀ m : DriveMsg, (k.chan m.chan).dealSeq ≤ m.dealSeq → m.fire = false → Answers (.driveWrite p b m) s (fun t =>
        (t.bank b).chan m.chan = (k.chan m.chan).load m)) ∧
      (∀ m : PreloadMsg, k.preloads.length < 4 → Answers (.preloadReceive p b m) s (fun t => (t.bank b).preloads = k.preloads ++ [⟨p, m⟩])) ∧
      (∀ n, Answers (.preloadCancel p b n) s (fun t => (t.bank b).preloads = k.preloads.filter (fun q => !(q.port == p && q.msg.number = n)))) ∧
      (∀ u, Answers (.accumulatorRead p b l u) s (fun t => ((t.bank b).chan l).last = (k.chan l).store ∧ ((t.bank b).chan l).store = (k.chan l).store) ∧
        Answers (.accumulatorReadRestart p b l u) s (fun t => ((t.bank b).chan l).last = (k.chan l).store ∧ ((t.bank b).chan l).store.count = 0) ∧
        Answers (.accumulatorRestart p b l u) s (fun t => ((t.bank b).chan l).store.count = 0) ∧
        ((spGet [] (adcOf l) k.urgent).length < 32 → Answers (.urgentRequest p b l u) s (fun t =>
          spGet [] (adcOf l) (t.bank b).urgent = spGet [] (adcOf l) k.urgent ++ [⟨l, u, s.ticks⟩])) ∧
        ∀ lo hi, Answers (.bandSet p b l lo hi u) s (fun t => ((t.bank b).chan l).bandLo = lo.toNat ∧ ((t.bank b).chan l).bandHi = hi.toNat ∧
          ((t.bank b).chan l).armed = true)) ∧
      (∀ x2, Answers (.gainChange p b x2) s (fun t => (t.bank b).heaterX2 = x2)) ∧
      (∀ ws, Answers (.blindContextWrite p b ws) s (fun t => (t.bank b).blind = ws.foldl Blind.write k.blind))) ∧
    (k.up p = true →
      (k.holder = none → Answers (.tokenClaim p b) s (fun t => (t.bank b).holder = some p ∧ Out.fromBank b p rGranted [] ∈ t.out)) ∧
      (k.holder = some p → Answers (.tokenYield p b) s (fun t => (t.bank b).yielded = true)) ∧
      (∀ g, Makes (.safetyShut p b g) s (shutGates (s.onBank b (·.heard p s.ticks)) b g) ∧
        Makes (.safetyRelease p b g) s (s.onBank b (fun k => (k.heard p s.ticks).release p g))) ∧
      (k.notice = none → Answers (.shutdownNotice p b) s (fun t => (t.bank b).notice = some s.ticks)) ∧
      Answers (.shutdownCut p b) s (fun t => (t.bank b).cut = true) ∧
      (k.holder = some p → k.cal = none → Answers (.bankConvCalStart p b) s (fun t => (t.bank b).cal.isSome = true))) ∧
    (∀ e, k.overlap = some (p, e) → e ≤ s.ticks → Answers (.overlapEnd b) s (fun t => (t.bank b).overlap = none)) ∧
    (∀ c, k.copies.filter (fun c => decide (10 * usT < s.ticks - c.since)) = [c] → Answers (.shadowCopyTimeout b) s (fun t =>
      (t.bank b).missing = min (2 ^ 16 - 1) (k.missing + 1))) ∧
    (k.granted = true → k.notice = none → k.cut = false → k.blind.on = false → 1000000 ≤ s.ticks - k.lastMsg → 1000000 ≤ s.ticks - k.lastGrant →
      Answers (.holderSilenceBlind b) s (fun t => (t.bank b).blind.on = true)) ∧
    (k.blind.on = true → 10000000 ≤ s.ticks - k.blind.lastTick → Answers (.blindEngineTick b) s (fun t => (t.bank b).blind.lastTick = s.ticks)) ∧
    Makes (.blindRampStep b) s (blindDone (s.onBank b (·.rampStep s.ticks))) ∧
    (k.notice.isSome = true → k.cut = false → 1000000 ≤ s.ticks - k.lastMsg → Answers (.noticeSilenceCut b) s (fun t => (t.bank b).cut = true)) ∧
    (k.holder = none → k.cut = false → 150 * 128 ≤ k.own → Answers (.bankSelfShutdown b) s (fun t => (t.bank b).cut = true)) ∧
    (∀ (a : Fin 24) raw h n, k.nextConv a = some (h, none, n) → isInGate (elemOf b h) = false → Makes (.adcConversion b a raw) s (convert (s.setBank b n) b h raw.toNat)) ∧
    (∀ cs, k.cal = none → k.probeLast = none → Answers (.probeTrigEdge b cs) s (fun t => (t.bank b).probeTime = k.clock / 2 ^ 40 ∧
      (t.bank b).probeLast = some s.ticks)) ∧
    (∀ c, k.cal = some c → c.by_ ≤ 2 → Answers (.bankConvCalEnd b 0) s (fun t => (t.bank b).calTime = k.clock / 2 ^ 40 ∧ (t.bank b).calFail = false)) ∧
    (∀ h : Fin 608, Answers (.heaterShort b h) s (fun t => spGet false h (t.bank b).short = true)) ∧
    Answers (.driveFault b l) s (fun t => spGet false l (t.bank b).drvf = true) ∧
    (let y := k.link p;
      (y.state = 2 → y.bad < 15 → Answers (.bankLinkBadFrame p b) s (fun t => ((t.bank b).link p).bad = y.bad + 1)) ∧
      (y.state = 2 → Answers (.bankLinkDown p b) s (fun t => ((t.bank b).link p).state = 1)) ∧
      (y.state = 1 → (s.die p).running = true → Answers (.bankLinkUp p b) s (fun t => ((t.bank b).link p).state = 2)) ∧
      (y.state = 1 → 2 ≤ (y.fails.filter (fun t => decide (s.ticks < t + 1000000000))).length →
        Answers (.bankLinkRetrainFail p b) s (fun t => ((t.bank b).link p).state = 3))) ∧
    (let m := s.mirror;
      (m.state = 2 → 15 ≤ m.bad → Answers (.mirrorLinkBadFrame p) s (fun t => t.mirror.state = 1)) ∧
      (m.state = 2 → Answers .mirrorLinkDown s (fun t => t.mirror.state = 1)) ∧
      (m.state = 1 → 2 ≤ (m.fails.filter (fun t => decide (s.ticks < t + secT))).length → Answers .mirrorRetrainFail s (fun t => t.mirror.state = 3)) ∧
      (m.state = 1 → Answers .mirrorLinkUp s (fun t => t.mirror.state = 2))) ∧
    ((s.die p).barOpen = true → let x := s.die p
      (∀ ch : BitVec 10, ch.toNat < 736 → k.up p = true → p = .cd0 → Answers (.bnkChSelect p b ch) s (fun t => (t.bank b).snapA = k.snapOf ch.toNat)) ∧
      (∀ n : Fin 16, k.up p = true → p = .cd0 → Answers (.bnkProbeSnap p b n false) s (fun t => (t.bank b).probeSnapA = spGet Store.empty n k.probes)) ∧
      (x.isDecl = true → x.expert 1 = true → k.heaterX2 = false → Answers (.htrGainModeWrite p b 2) s (fun t =>
        (t.die p).rf (Reg.BNK_HTR_GAIN b) F.BNK_HTR_GAIN_MODE = 2)) ∧
      (x.isDecl = true → x.lockOpen = true → k.up p = true → k.accepts p s.ticks = true →
        MakesAt b (.bnkManFire p b) s (s.onBank b (fun k => (k.receive p s.ticks true).fire 15))) ∧
      (∀ v : Word32, x.isDecl = true → x.lockOpen = true → fget F.BNK_MAN_FIRE v.toNat = 0 → ∀ w, manMsg x b v.toNat = some w →
        Makes (.bnkManCodeWrite p b v) s (driveWrite p b w ((putWord s p (Reg.BNK_MAN b) v.toNat).onDie p
          (·.onElem (elemOf b w.chan) (fun el => { el with update := el.update + 1 }))))))) ∧
  (∀ (d : DieId) (b : Fin 8) (s : State), let x := s.die d
    (x.running = true →
      (s.mirror.state = 2 → x.red.hbSent = 0 ∨ usT ≤ s.ticks - x.red.hbSent →
        Answers (.heartbeatSend d) s (fun t => Out.heartbeat d (BitVec.ofNat 32 (x.reg Reg.RED_MODE)) ∈ t.out)) ∧
      ((if x.red.hbSeen then x.red.window + usT else x.red.window) + usT ≤ s.ticks → x.peerOk = false → Answers (.heartbeatWindowMiss d) s (fun t =>
        (t.die d).rf Reg.RED_STATUS F.RED_STATUS_HB_MISS = min 15 (x.rf Reg.RED_STATUS F.RED_STATUS_HB_MISS + 1))) ∧
      Answers (.watchdogStall d) s (fun t => (t.die d).life = .held 4 s.ticks) ∧
      (∀ a, s.cd0.isDummy = false → s.cd1.isDummy = false → x.red.absentSince = some a → 100 * msT < s.ticks - a →
        Answers (.peerAbsenceTimeout d) s (fun t => (t.die d).flt.repl.getLsbD rpCdie = true)) ∧
      (secT ≤ s.ticks - x.red.lastReport → Answers (.healthReport d) s (fun t => (t.die d).red.last = x.healthTotals ∧
        (t.die d).red.lastReport = s.ticks))) ∧
    (x.isDecl = true → x.taking = false → x.red.peerLost = true → x.solo = false → 10 * usT ≤ s.ticks - x.red.lostAt →
      (∀ b ∈ (List.range 8).filter (fun b => (s.bank b).up d), (s.bank b).holds d = true ∧ (s.bank b).holds d.peer = false) →
      Answers (.soloCheck d) s (fun t => (t.die d).solo = true)) ∧
    (x.red.takeover = none → x.isDecl = true →
      (x.running = true → Makes (.claimRepeat d) s ((List.range 8).foldl (fun s b =>
        if (s.bank b).up d && !(s.bank b).holds d then s.emit (.bank d b mClaim []) else s) s)) ∧
      ((s.bank b).up d = true → (s.bank b).holds d = true → Makes (.tokenGranted d b) s (s.emit (.bank d b mBlindCtx (blindTables x b))))) ∧
    (∀ t, x.red.takeover = some t →
      (t.claimant = true → t.refused = BitVec.allOnes 8 → 10 * usT ≤ s.ticks - t.since → t.cmd = none → Answers (.claimAbandon d) s (fun u =>
        (u.die d).red.takeover = none)) ∧
      (t.claimant = true → x.running = true → (s.bank b).up d = true → (s.bank b).holder = some d.peer → Answers (.tokenRefused d b) s (fun u =>
        ∃ v, (u.die d).red.takeover = some v ∧ v.refused = t.refused ||| BitVec.ofNat 8 (2 ^ b.val))) ∧
      (x.yielding = true → (∀ c ∈ x.cmds, ∀ q u, c.stage ≠ .acking q u) → readyDummy s d.peer = true → x.red.sent = [] → t.resetAfter = none →
        Answers (.yieldPoint d) s (fun u => (u.die d).rf Reg.RED_MODE F.RED_MODE_ROLE = 2)) ∧
      (∀ fw, t.claimant = true → t.firstWrite = some fw → t.cmd = none → x.running = true → x.red.held = [] → Answers (.fullFabricService d) s (fun u =>
        (u.die d).red.takeover = none ∧ (u.die d).rf Reg.RED_MODE F.RED_MODE_TAKEOVER = 0))) ∧
    (x.running = true → resyncFrom s d = true → x.life = .up → x.role = 0 → x.red.loading = false → Answers (.resyncStart d) s (fun t =>
      (t.die d).rf Reg.RED_MODE F.RED_MODE_RESYNC = 1)) ∧
    (x.inResync = true → x.red.loading = true → resyncFrom s d = true → x.running = true → (s.die d.peer).red.waitPeer = false →
      Answers (.resyncComplete d) s (fun t => (t.die d).rf Reg.RED_MODE F.RED_MODE_RESYNC = 0 ∧ (t.die d).rf Reg.RED_MODE F.RED_MODE_ROLE = 2)) ∧
    (x.barOpen = true →
      (∀ (w : Fin 8) (v : Word32), Answers (.fltStickyClear d w v) s (fun t => ∀ i : Fin 32, srcIsLevel (32 * w.val + i.val) = false → 32 * w.val + i.val ≠ 161 →
        bitOf (x.clearing (Reg.FLT_STICKY 0 + 4 * w) v.toNat) i = true → (t.die d).mapBit (Reg.FLT_STICKY 0) (32 * w.val + i.val) = false)) ∧
      (∀ (w : Fin 8) (v : Word32), Answers (.fltForceWrite d w v) s (fun t => ∀ i : Fin 32, forceOpen s d (32 * w.val + i.val) = true →
        (t.die d).mapBit (Reg.FLT_FORCE 0) (32 * w.val + i.val) = bitOf v.toNat i)) ∧
      (∀ (n : BitVec 8) (v : Word32), srcReserved n.toNat = false → fget F.FLT_SRC_NORMAL v.toNat < 6 → fget F.FLT_SRC_SEVERE v.toNat < 6 →
        Makes (.fltSrcWrite d n v) s (putWord s d (Reg.FLT_SRC n.toNat) v.toNat))) ∧
    (∀ n : Fin 250, x.running = true →
      (∀ o, x.flt.occ.find? (fun o => o.source = n.val) = some o → recovering s o = false →
        Makes (.faultReaction d n) s (react (s.onDie d (fun x => x.onFlt (fun f => { f with occ := f.occ.erase o }))) d o)) ∧
      (∀ w ∈ x.flt.windows, w.source = n.val → w.closes ≤ s.ticks → Answers (.faultWindowExpiry d n) s (fun t =>
        (t.die d).rf (Reg.FLT_SRC n) F.FLT_SRC_COUNT = 0))) ∧
    (∀ (k : Fin 5) (i : Nat), (∃ e ∈ s.esc, e.dom.num = k.val ∧ e.inst = i ∧ e.ends ≤ s.ticks) → Answers (.escalationWindowExpiry k i) s (fun t =>
      t.esc = s.esc.filter (fun e => !(decide (e.dom.num = k.val) && decide (e.inst = i) && decide (e.ends ≤ s.ticks)))))) ∧
  (∀ (u : DieId) (z : Fin 4) (s : State), let x := s.die u
    (unitOn s u = true →
      (∀ closed, Answers (.guardChannelFiltered u z closed) s (fun t => (u = .cd0 → ((t.die u).lgd.zone z).chA = closed) ∧
        (u = .cd1 → ((t.die u).lgd.zone z).chB = closed))) ∧
      (∀ pass osc, Answers (.safetyUnitSelftest u pass osc) s (fun t => (t.die u).lgd.ok = pass ∧ (t.die u).lgd.peerOk = osc)) ∧
      (∀ k : Fin 8, (x.lgd.permit k).granted = true → Answers (.permitTestPulse u k false true) s (fun t => (t.die u).lgd.permit k = ⟨false, true, false⟩)) ∧
      (∀ a, x.zoneEn z = true → (x.lgd.zone z).differSince = some a → 50 * msT < s.ticks - a → Answers (.zoneDiscrepancy z) s (fun t =>
        ((t.die u).lgd.zone z).state = .untested ∧ ((t.die u).lgd.zone z).disc = true)) ∧
      (x.zoneEn z = true → (x.lgd.zone z).state = .untested → (x.lgd.zone z).seenA = true → (x.lgd.zone z).seenB = true →
        held100 s (x.lgd.zone z).closedSince = true → Answers (.zoneStartupTestDone z) s (fun t => ((t.die u).lgd.zone z).wantReady = true)) ∧
      (x.rbit (Reg.LGD_ZCFG z) F.LGD_ZCFG_AUTO_RESET = true → (x.lgd.zone z).state = .tripped → held100 s (x.lgd.zone z).clearSince = true →
        Answers (.zoneAutoReset ⟨z.val, by omega⟩) s (fun t => ((t.die u).lgd.zone z).wantReady = true)) ∧
      (x.sdEn = true → Answers .sDualStatusSend s (fun t => (t.die u).lgd.sd.txSeq = (max s.cd0.lgd.sd.txSeq s.cd1.lgd.sd.txSeq + 1) % 65536)) ∧
      (x.sdEn = true → x.lgd.sd.seq = none → msT * x.sdWd < s.ticks - x.lgd.sd.lastAt → Answers .sDualTimeout s (fun t => (t.die u).lgd.sd.safe = true)) ∧
      (∀ w, x.lgd.sd.waiting = [w] → 10 * msT < s.ticks - w.at_ → Answers .sDualCopyMissing s (fun t => (t.die u).lgd.sd.waiting = [])) ∧
      (∀ rx : ZslRx, rx.net = u → x.sdEn = true → x.rbit Reg.LGD_FORCE (if u = .cd0 then F.LGD_FORCE_SD_DROP_A else F.LGD_FORCE_SD_DROP_B) = false →
        zslOk rx.bytes 1 1 (x.rf Reg.LGD_SD_CFG F.LGD_SD_CFG_CONN) = true → x.lgd.sd.waiting = [] → x.lgd.sd.seq = none →
        Answers (.sDualControl rx) s (fun t => (t.die u).lgd.sd.waiting = [⟨u, rx.bytes, s.ticks⟩])) ∧
      (∀ c : Fin 256, let k := x.lgd.conn c; connEn k = true →
        Answers (.sBlackStateSend c) s (fun t => ((t.die u).lgd.conn c).shut = x.connShut k) ∧
        (∀ rx : ZslRx, rx.net = u → zslOk rx.bytes 2 0x14 (fget F.LGD_CONN_ID_CONN_ID k.id.toNat) = true → k.rxSeq = none →
          Answers (.sBlackEcho c rx) s (fun t => ((t.die u).lgd.conn c).state = 2 ∧ ((t.die u).lgd.conn c).lastAt = s.ticks)) ∧
        (k.state = 1 → k.rxSeq = none → msT * connWd k < s.ticks - k.lastAt → Answers (.sBlackTimeout c) s (fun t =>
          ((t.die u).lgd.conn c).state = 3)))) ∧
    Answers .safeEstop s (fun t => t.pins.estopN = false ∧ (unitOn s u = true → (t.die u).lgd.eTripped = true)) ∧
    Answers .safeEstopRelease s (fun t => t.pins.estopN = true) ∧
    (unitOn s .cd0 = true → unitOn s .cd1 = true →
      Answers .crossLinkExchange s (fun t => (t.die u).lgd.xlink = true ∧ (t.die u).lgd.lastXchg = s.ticks) ∧
      Answers .configCrcCompare s (fun t => (t.die u).lgd.cfgMatch = decide (lgdConfig s.cd0 = lgdConfig s.cd1))) ∧
    (unitOn s u = true → x.lgd.xlink = true → 100 * usT ≤ s.ticks - x.lgd.lastXchg → Answers .crossLinkFault s (fun t => (t.die u).lgd.xlink = false)) ∧
    (x.barOpen = true → lgdOpen s u = true → Answers (.lgdSave u) s (fun t => (t.die u).lgd.saving = some s.ticks ∧ t.flash u = lgdSaved x (s.flash u))) ∧
    Answers (.lgdSaveDone u) s (fun t => (t.die u).lgd.saving = none) ∧
    (∀ v : Word32, x.barOpen = true → x.lockOpen = true → moduleBase s = mService → Answers (.lgdForceWrite u v) s (fun t =>
      (t.die u).reg Reg.LGD_FORCE = x.written Reg.LGD_FORCE v.toNat)) ∧
    (∀ p r, x.enginesRun = true → pathReaches s u p = true → Answers (.sensorReading p r) s (fun t =>
      (t.die u).thm.path (pathNum p) = (x.thm.path (pathNum p)).read r)) ∧
    (stopOverdue s = some u → s.declarer ≠ some u ∨ stopsFrom x.base = false → Makes .classLStopTimeout s (stopDone (sendBanks s u mCut) true)) ∧
    (x.barOpen = true → s.cd0.thm.shutdown.isSome = true → coolEnough x = true → (∀ e, s.declarer = some e → (s.die e).trans ≠ .shutdown) →
      Answers (.thmRelease u) s (fun t => t.cd0.thm.shutdown = none ∧ t.cd1.thm.shutdown = none)) ∧
    (x.running = true → Answers (.heaterPowerEstimate u) s (fun t => (t.die u).thm.power = min 65535 (heaterWatts s * 100).floor.toNat))) ∧
  (∀ (d : DieId) (s : State), let x := s.die d
    (s.pins.modrstLow = false → s.pins.cdrstLow = 0 → Answers .powerOn s (fun t => (t.die d).life = .booting s.ticks ∧ t.pins.below = 0)) ∧
    (∀ r, Answers (.supplyBelowHold r) s (fun t => t.pins.below = s.pins.below ||| railBit r ∧ (t.die d).life = .held 0 s.ticks) ∧
      ∀ hi, Answers (.supplyExcursion r hi) s (fun t => t.pins.excursion = s.pins.excursion ||| railBit r)) ∧
    (s.pins.below ≠ 0 → s.pins.modrstLow = false → s.pins.cdrstLow = 0 → Answers .suppliesRestored s (fun t =>
      t.pins.below = 0 ∧ (t.die d).life = .booting s.ticks)) ∧
    (s.pins.modrstLow = false → s.pins.below = 0 → s.cd0.modHeld = false → s.cd1.modHeld = false →
      Answers .modrstAssert s (fun t => t.pins.modrstLow = true ∧ (t.die d).life = .held 1 s.ticks)) ∧
    (s.pins.modrstLow = true →
      (5 * secT < s.ticks - s.pins.modrstSince → Answers .modrstHeldLong s (fun t => (t.die d).aon.heldLong = true)) ∧
      (s.pins.below = 0 → s.pins.cdrstLow = 0 → Answers .modrstRelease s (fun t => t.pins.modrstLow = false ∧ (t.die d).life = .booting s.ticks))) ∧
    (x.modHeld = false → s.pins.cdrstLow.getLsbD d.num = false → Answers (.cdrstAssert d) s (fun t => (t.die d).life = .held 2 s.ticks)) ∧
    (∀ a, x.life = .held 2 a → Makes (.cdrstRelease d) s (({ s with pins := { s.pins with cdrstLow := s.pins.cdrstLow &&& ~~~ BitVec.ofNat 2 (2 ^ d.num) } } :
      State).onDie d (fun x => x.boots s.ticks))) ∧
    (∀ v : Word32, fget F.RST_SWRST_KEY v.toNat = 0xA5C3 → fget F.RST_SWRST_GO v.toNat = 1 → x.expert 0 = true → x.running = true → x.isDecl = false →
      Answers (.softwareDieReset d v) s (fun t => (t.die d).life = .held 3 s.ticks)) ∧
    (∀ a, x.life = .held 3 a → 10 * usT ≤ s.ticks - a → Makes (.softResetRelease d) s (s.onDie d (fun x => x.boots s.ticks))) ∧
    (∀ a, x.life = .booting a →
      (∀ i, x.rbit Reg.MTX_REMAP F.MTX_REMAP_REMAP = false → x.romBusy = false → bootSlot s d = some i → Answers (.mtxRemapSet d) s (fun t =>
        (t.die d).rf Reg.RST_BOOT F.RST_BOOT_SLOT = i ∧ (t.die d).rf Reg.MTX_REMAP F.MTX_REMAP_REMAP = 1)) ∧
      (x.rbit Reg.MTX_REMAP F.MTX_REMAP_REMAP = true → Answers (.bootStartedWrite d) s (fun t => (t.die d).rf Reg.RST_BOOT F.RST_BOOT_STARTED = 1)) ∧
      (∀ r, x.aon.remapAt = some r → 2 * secT ≤ s.ticks - r → Answers (.bootWatchdog d) s (fun t => (t.die d).reg Reg.RST_CAUSE = 0x80)) ∧
      (5 * secT ≤ s.ticks - a → Answers (.bootReplaceTimeout d) s (fun t => (t.die d).aon.replace = true)) ∧
      (x.rbit Reg.RST_BOOT F.RST_BOOT_STARTED = true → (s.die d.peer).booting.isSome = true → (∀ b : Fin 8, (s.bank b).blind.on = false) →
        Answers (.bootComplete d) s (fun t => (t.die d).life = .waiting s.ticks))) ∧
    (∀ a, x.life = .waiting a → 100 * msT ≤ s.ticks - a → (s.die d.peer).isDecl = false → Answers (.roleWaitExpiry d) s (fun t =>
      (t.die d).rf Reg.RED_MODE F.RED_MODE_ROLE = 1 ∧ (t.die d).base = mSelfCal)) ∧
    (∀ r t o, (∀ k a, x.life ≠ .held k a) → (x.master r.master).resetAt = none → mtxDecode x r = some (t, o) → t ≠ tBridge →
      (x.master r.master).outstanding = [] → (x.master r.master).waiting = [] →
      Answers (.matrixRequest d r) s (fun u => ((u.die d).master r.master).outstanding = [⟨r, t⟩])) ∧
    (∀ m : Fin 8, let k := x.master m
      (∀ t : Fin 10, ∀ o, k.outstanding.find? (fun o => o.target = t.val) = some o → k.draining = false → t.val ≠ tBridge → o.req.op = .read →
        k.waiting = [] → Answers (.matrixResponse d m t) s (fun u => ((u.die d).master m).outstanding = k.outstanding.erase o)) ∧
      (k.outstanding ≠ [] → Answers (.masterReset d m) s (fun t => ((t.die d).master m).resetAt = some s.ticks ∧ ((t.die d).master m).draining = true)) ∧
      (∀ a, k.resetAt = some a → k.draining = true → 2 * usT ≤ s.ticks - a → Answers (.drainTimeout d m) s (fun t =>
        ((t.die d).master m).outstanding = [] ∧ ((t.die d).master m).draining = false)) ∧
      (∀ v : BitVec 8, x.barOpen = true → x.lockOpen = true → v.getLsbD m = true → m ≠ 0 → m ≠ 7 → k.outstanding ≠ [] →
        Answers (.mtxMrstWrite d v) s (fun t => ((t.die d).master m).draining = true))) ∧
    (∀ t : Fin 10, x.mtx.stuck.getLsbD t = true → Answers (.lateResponse d t) s (fun u => (u.die d).mtx.stuck.getLsbD t = false))) ∧
  (∀ (d : DieId) (s : State), let x := s.die d
    (x.barOpen = true → x.svc.busy = none → x.isDecl = true →
      (x.svc.lockout = none → mDark ≤ x.base → s.eeprom.pw.isSome = true → Answers (.unlock1 d) s (fun t => (t.die d).svc.busy = some (1, s.ticks))) ∧
      (x.svc.lockout = none → (Config.kDev d).isSome = true → Answers (.challenge d) s (fun t => (t.die d).svc.busy = some (2, s.ticks))) ∧
      (x.svc.lockout = none → x.base = mDark → (Config.kDev d).isSome = true → x.svc.nonceOk s.ticks = true →
        Answers (.unlock2 d) s (fun t => (t.die d).svc.busy = some (3, s.ticks))) ∧
      (x.svc.level = 2 → Answers (.setPw d) s (fun t => (t.die d).svc.busy = some (5, s.ticks))) ∧
      Answers (.lock d) s (fun t => (t.die d).svc.level = 0 ∧ (t.die d.peer).svc.level = 0)) ∧
    (∀ r a, x.svc.busy = some (2, a) → Answers (.svcOperationDone d r) s (fun t => (t.die d).svc.nonce = some r ∧ (t.die d).svc.busy = none)) ∧
    (x.svc.nonce.isSome = true → 60 * secT ≤ s.ticks - x.svc.nonceAt → Answers (.nonceExpiry d) s (fun t => (t.die d).svc.nonce = none)) ∧
    (∀ u, x.svc.lockout = some u → u ≤ s.ticks → Answers (.lockoutEnd d) s (fun t => (t.die d).svc.lockout = none ∧ (t.die d).svc.fails = 0)) ∧
    (s.declarer = some d → x.svc.level ≠ 0 → x.svcTimeout ≤ s.ticks - max s.cd0.svc.lastAccess s.cd1.svc.lastAccess →
      Answers .svcInactivityTimeout s (fun t => (t.die d).svc.level = 0)) ∧
    (∀ o, (∀ k a, x.life ≠ .held k a) → 1 ≤ x.svc.level → Answers (.servicePathCommand d (.readRecordStore o)) s (fun t =>
      Out.service d (memRead s.store (o.toNat / 4 * 4) 4) ∈ t.out))) ∧
  (∀ (d : DieId) (p : Fin 8) (q : Fin 2) (s : State), let x := s.die d
    (∀ o ∈ [(1, Instr.eptRead d q), (2, .eptWrite d q), (3, .eptDelete d q), (4, .eptSearch d q), (5, .eptFlushAged d q)], x.barOpen = true →
      x.net.eptBusy = none → Answers o.2 s (fun t => (t.die d).net.eptBusy = some o.1 ∧ (t.die d).rf Reg.EPT_CMD F.EPT_CMD_BUSY = 1)) ∧
    (∀ n, x.net.eptBusy = some 1 → eptFind (x.pipe (x.rf Reg.EPT_CMD F.EPT_CMD_PIPE)).ept (BitVec.ofNat 64 (x.reg64 Reg.EPT_KEY)) = some n →
      Answers (.eptCommandDone d) s (fun t => (t.die d).net.eptBusy = none ∧ (t.die d).reg Reg.EPT_DATA0 = n.2.data0.toNat)) ∧
    (∀ r t1, x.running = true → firstLearn (x.pipe q).learns = some r → r.stamp + 1000 ≤ x.ns → eptFind (x.pipe q).ept r.key = none →
      eptInsert (x.pipe q).ept (eptNew r.key r.cport (msOf r.stamp)) = some t1 → Answers (.learnRequestProcess d q) s (fun t => ((t.die d).pipe q).ept = t1)) ∧
    (x.running = true → Answers (.agingSweep d q) s (fun t => ((t.die d).pipe q).ept = (eptFlush x q (x.reg Reg.EPT_AGE_LIMIT)).1)) ∧
    (∀ slot e, spFind slot (x.pipe q).ept = some e → e.lockEnd ≠ 0 → e.lockEnd ≤ s.ticks → Makes (.flapLockExpiry d q slot) s
      (s.onDie d (fun x => x.setEpt q (spPut slot { e.setFlag 2 false with lockEnd := 0 } (x.pipe q).ept)))) ∧
    (x.barOpen = true → ∀ i b n, x.ruleSel = (i, b, n) →
      Answers (.prsRuleRead d) s (fun t => (t.die d).staged (Reg.PRS_RULE_KEY ·) = ((x.pipe i).rule b n).key) ∧
      ((x.pipe i).bankWritable b = true → actReserved (BitVec.ofNat 64 (x.reg64 Reg.PRS_RULE_ACT)) = false → Makes (.prsRuleWrite d) s
        (s.onDie d (fun x => (x.onPipe i (fun u => u.setRule b n ⟨x.staged (Reg.PRS_RULE_KEY ·), x.staged (Reg.PRS_RULE_MASK ·),
          BitVec.ofNat 64 (x.reg64 Reg.PRS_RULE_ACT), true, 0⟩)).ruleStatus ruleOk))) ∧
      ((x.pipe i).bankWritable b = true → Makes (.prsRuleInvalidate d) s
        (s.onDie d (fun x => (x.onPipe i (fun u => u.setRule b n { u.rule b n with valid := false })).ruleStatus ruleOk)))) ∧
    (∀ f : RxFrame, x.running = true → x.portExists p = true → f.uncorrectable = false → f.reassemblyErr = false → f.badFcs = false →
      64 ≤ frameLen f.bytes → frameLen f.bytes ≤ x.maxFrame → Makes (.frameReceive d p f) s (passOne (((s.onDie d (fun x =>
        (x.count (Reg.ETH_CNT p 5) F.ETH_CNT_COUNT f.corrected).count (Reg.ETH_CNT p 8) F.ETH_CNT_COUNT f.fragments)).count d (Reg.ETH_CNT p 0) F.ETH_CNT_COUNT)) d p f)) ∧
    (∀ i rest, x.net.ruleWait = [] → (x.pipe q).fifo = i :: rest → (x.pipe q).lookup i.bank (passTwoKey x q i) = none → i.res.steer = steerVsp →
      i.res.cls ≠ 7 → Answers (.recirculationPass d q) s (fun t => ((t.die d).pipe q).fifo = rest ∧ vspOf d i ∈ (t.die d).net.vspQueue)) ∧
    (x.running = true → x.portExists p = true →
      (x.linkUp p = false → Answers (.portLinkChange d p true) s (fun t => (t.die d).rf (Reg.ETH_PORT p) F.ETH_PORT_LINK = 2)) ∧
      (x.linkUp p = true → (x.cport p).quiet s.ticks = true → Makes (.portCleanRestored d p) s (s.setRf d (Reg.ETH_PORT p) F.ETH_PORT_CLEAN 1)) ∧
      (x.mm p = 1 → Makes (.mmVerifyResult d p true) s (s.setRf d (Reg.ETH_PORT p) F.ETH_PORT_MM 2)) ∧
      (∀ f rest, x.linkUp p = true → (x.cport p).sending = none → (x.cport p).list = none → ((x.cport p).queue 31).frames = f :: rest →
        Answers (.frameTransmitStart d p) s (fun t => ((t.die d).cport p).sending = some ⟨31, f, s.ticks * 1000, 0⟩))) ∧
    (∀ m : BitVec 1, x.running = true → x.base = mDark → (∀ p, (x.cport p).pendList = none ∧ (x.cport p).stopAt = none) →
      Answers (.ethApply d m) s (fun t => (t.die d).rf Reg.ETH_CFG F.ETH_CFG_INFORCE = m.toNat)) ∧
    (∀ l, x.running = true → (x.cport p).list = some l → Answers (.gateListEntry d p) s (fun t =>
      ((t.die d).cport p).entry = entryAt l.sched (l.place x.ps))) ∧
    (∀ l, x.running = true → (x.cport p).stopAt = none → (x.cport p).pendList = some l → l.start ≤ x.ns → Answers (.gateListStart d p) s (fun t =>
      ((t.die d).cport p).list = some l ∧ ((t.die d).cport p).pendList = none)) ∧
    (∀ k : Fin 32, x.barOpen = true → ((x.cport p).queue k).sample.last.length = 6 → Answers (.tmgSmpSelect d p k) s (fun t =>
      (t.die d).net.smpSnap = ((x.cport p).queue k).sample.last)) ∧
    (∀ k : Fin 32, x.running = true → x.portExists p = true → Answers (.queueSample d) s (fun t =>
      (((t.die d).cport p).queue k).frames = ((x.cport p).queue k).frames ∧
      (((t.die d).cport p).queue k).sample.n = (if ((x.cport p).queue k).sample.n + 1 < max 1 (x.rf Reg.TMG_SAMPLE F.TMG_SAMPLE_N)
        then ((x.cport p).queue k).sample.n + 1 else 0)))) ∧
  (∀ (d : DieId) (s : State),
    (∀ rx : VspRx, (s.die rx.src.die).running = true → vspEngine s rx = some d → vspUnsound rx.bytes = none → let s0 := vspTaken s rx
      (∀ id, mType rx.bytes = 1 → keyAgent (s.die d) rx = none → vspRefusal rx.bytes (regForm rx.bytes).maxClass false = none → regOk rx.bytes = true →
        (regForm rx.bytes).leave = false → newId (s.die d) (regForm rx.bytes).reqId = some id →
        Answers (.register rx) s (fun t => ∃ a, (t.die d).agent id = some a ∧ a.mac = rx.src.mac)) ∧
      (∀ a l seen, msgAgent (s.die d) rx = some a → judgeSeq a (mSeq rx.bytes) = .new l seen → vspRefusal rx.bytes a.maxClass a.trump = none →
        let s1 := vspAccepted s0 d { a with seqL := some l, seqSeen := seen } rx
        (mType rx.bytes = 2 → Makes (.hello rx) s (helloReply s1 d a.id rx (replyEgr rx false))) ∧
        (mType rx.bytes = 8 → Makes (.deckinfo rx) s (deckinfoReply s1 d a.id rx (replyEgr rx false))) ∧
        (mType rx.bytes = 9 → Makes (.portcheck rx) s (portcheckResponse s1 d a.id rx (replyEgr rx false))) ∧
        (mType rx.bytes = 15 → Makes (.vendor rx) s (vendorReply s1 d a.id rx (replyEgr rx false)))) ∧
      (∀ a s1 b l seen, msgAgent (s.die d) rx = some a → police s0 d a rx = (0, s1) → (s1.die d).agent a.id = some b →
        judgeSeq b (mSeq rx.bytes) = .new l seen → vspRefusal rx.bytes b.maxClass b.trump = none →
        let s2 := vspAccepted s1 d { b with seqL := some l, seqSeen := seen } rx
        (mType rx.bytes = 3 → Makes (.bid rx) s (bidReceived s2 d b.id rx (replyEgr rx false))) ∧
        (mType rx.bytes = 5 → Makes (.vspTake rx) s (vspTake s2 d b.id rx (replyEgr rx false))))) ∧
    (s.serving = some d →
      (∀ (n : Fin 4096) a, (s.die d).agent n = some a → 3 * a.helloMs * msT ≤ s.ticks - a.lastAt →
        Answers (.agentTimeout n) s (fun t => (t.die d).vsp.agents = (s.die d).vsp.agents.filter (fun b => b.id ≠ a.id))) ∧
      ∀ p : Fin 512,
        (∀ c, (s.die d).vsp.checks.find? (fun c => c.port = p.val) = some c → c.w1 + 10000000 ≤ (s.die d).ns →
          Answers (.portcheckDeadline p) s (fun t => ∀ e ∈ (t.die d).vsp.checks, e.id ≠ c.id)) ∧
        (∀ u, (p.val, u) ∈ (s.die d).vsp.retryAt → u ≤ s.ticks → Makes (.portcheckRetry p) s (startCheck s d p))))

/-- For every state s, whether or not it obeys them: if a step answers a next state, then on every die that runs in it the replacement
request and the RAW bit of every level source are as the state gives them, and a Declarer's SAFE and DEGRADED bits show the guard trips and
the replacement request exactly in the working modes (R39, R59, R463, R471). In particular every step keeps these rules. -/
def Obligations.EveryStepSettles : Prop :=
  ∀ (s t : State), step s = .next t → ∀ d, (t.die d).running = true → Settled t d

/-- After power-on both dies are in BOOT with no role, every register word at its POR value, no clock running, every output unassigned,
every zone UNTESTED and no permit granted; every bank die is as its reset leaves it; no command waits; the memories are in canonical form,
with nothing listed; and the rules of EveryStepSettles hold. Values the manual does not give are the model's (log entry 5). -/
def Obligations.ResetIsBoot : Prop :=
  (∀ d, let x := State.reset.die d
    x.life = .booting 0 ∧ x.base = mBoot ∧ x.role = 0 ∧ (∀ key, x.reg key = regPor key) ∧ x.clock.running = false ∧ x.clock.now = 0 ∧
    (∀ n, handAt x.dealer.hand n = 0) ∧ x.dealer.pins = 0 ∧ x.cmds = [] ∧ x.svc.level = 0 ∧ (∀ z : Fin 4, (x.lgd.zone z).state = .untested) ∧
    (∀ k : Fin 8, (x.lgd.permit k).granted = false)) ∧
  (∀ b : Fin 8, Bank.Cleared (State.reset.bank b)) ∧ State.reset.pending = [] ∧ State.reset.out = [] ∧
  Memory.wf State.reset.store = true ∧ Memory.wf State.reset.flash0 = true ∧ Memory.wf State.reset.flash1 = true ∧
  (∀ d, (State.reset.die d).running = true → Settled State.reset d)

/-- A write of one function's HIF_LEVEL sets that function's EXPERT and leaves every other function's EXPERT, and what a write of any
register of another function stores, as they were. (R22) -/
def Obligations.ExpertIsPerFunction : Prop :=
  (∀ (x : Die) (f g : Fin 4) (v : Nat), f ≠ g → let y := x.setReg (Reg.HIF_LEVEL f) v
    y.expert f = decide (v % 2 = 1) ∧ y.expert g = x.expert g ∧
    ∀ off w, off < 65536 → y.written (regKey g off) w = x.written (regKey g off) w) ∧
  (∀ (d : DieId) (f : Fin 4) (v : Word64) (s : State), (s.die d).barOpen = true →
    Answers (.registerWrite d f (BitVec.ofNat 16 0xF000) false v) s (fun t => (t.die d).expert f = bitOf v.toNat 0 ∧
      ∀ g : Fin 4, g ≠ f → (t.die d).expert g = (s.die d).expert g))

/-- Power-on and MODRST_N set every gate code to the shutter code, heater and PIN codes to 0 and heater gain to x1, and clear the shadows,
preload sets, stores, bands, probe slots, blind context and tables and the token, with every TIA in range 0; CDRST_N, the software and
watchdog resets of a control die, and the reset of a bank link change none of these. (R284) -/
def Obligations.BankDieResetClears : Prop :=
  ∀ s : State,
    (s.pins.modrstLow = false → s.pins.cdrstLow = 0 → Answers .powerOn s (fun t => ∀ b : Fin 8, Bank.Cleared (t.bank b))) ∧
    (s.pins.modrstLow = false → s.pins.below = 0 → s.cd0.modHeld = false → s.cd1.modHeld = false →
      Answers .modrstAssert s (fun t => ∀ b : Fin 8, Bank.Cleared (t.bank b))) ∧
    (∀ d, (Answers (.cdrstAssert d) s (fun t => ∀ b : Fin 8, Bank.Kept (t.bank b) (s.bank b))) ∧
      (∀ v, Answers (.softwareDieReset d v) s (fun t => ∀ b : Fin 8, Bank.Kept (t.bank b) (s.bank b))) ∧
      (Answers (.watchdogStall d) s (fun t => ∀ b : Fin 8, Bank.Kept (t.bank b) (s.bank b))) ∧
      ∀ c : Fin 8, Answers (.bankLinkDown d c) s (fun t => ∀ b : Fin 8, Bank.Kept (t.bank b) (s.bank b)) ∧
        Answers (.bankLinkUp d c) s (fun t => ∀ b : Fin 8, Bank.Kept (t.bank b) (s.bank b)))

/-- A stamp joins its die's FIFO of 64 entries; into a full FIFO it is discarded, and the next entry read reports OVF = 1. A read of
TIM_TXTS_INFO returns the head entry, removes it and loads its time into TIM_TXTS_TIME and TIM_TXTS_FRAC; an empty FIFO reads 0. (R104) -/
def Obligations.TransmitStampFifo : Prop :=
  (∀ (s : State) (d : DieId) (p ty seq time : Nat), let c := (s.die d).clock; let t := txCapture s d p ty seq time; let e := (t.die d).clock
    (64 ≤ c.txts.length → e.txts = c.txts ∧ e.txtsLost = true) ∧
    (c.txts.length < 64 → e.txts = c.txts ++ [⟨p, ty, seq, time⟩] ∧ e.txtsLost = c.txtsLost) ∧
    (t.die d.peer).clock = (s.die d.peer).clock) ∧
  (∀ (d : DieId) (s : State), let x := s.die d
    (x.barOpen = true → x.clock.txts = [] → Answers (.txtsInfoRead d) s (fun t => (t.die d).clock = x.clock ∧
      Out.regRead d 3 (Reg.TIM_TXTS_INFO % 65536) 4 0 ∈ t.out)) ∧
    (∀ e rest, x.barOpen = true → x.clock.txts = e :: rest → e.time < 2 ^ 80 → e.time % 4096 = 0 →
      Answers (.txtsInfoRead d) s (fun t => let y := t.die d
        y.clock.txts = rest ∧ y.clock.txtsLost = false ∧ y.reg64 Reg.TIM_TXTS_TIME = e.time / 65536 ∧
        y.rf Reg.TIM_TXTS_FRAC F.TIM_TXTS_FRAC_FRAC = e.time % 65536 ∧
        ∃ w, Out.regRead d 3 (Reg.TIM_TXTS_INFO % 65536) 4 w ∈ t.out ∧ fget F.TIM_TXTS_INFO_VALID w = 1 ∧
          fget F.TIM_TXTS_INFO_OVF w = b2n x.clock.txtsLost ∧ fget F.TIM_TXTS_INFO_PORT w = e.port % 8 ∧
          fget F.TIM_TXTS_INFO_MSGTYPE w = e.msgType % 16 ∧ fget F.TIM_TXTS_INFO_SEQID w = e.seqId % 65536)))

/-- CALL with fewer than four addresses on the micro-stack pushes the return address and goes to the target; with four it is a microcode
fault. RET takes the top address, and with the stack empty it is a microcode fault. (R245) -/
def Obligations.MicroStackHoldsFour : Prop :=
  ∀ (d : DieId) (e : Fin 64) (rom : BitVec 128) (s : State) (m : Micro) (p : MicroPc) (el : Nat) (ecc : EccRead), ecc ≠ .double →
    RunsWord d e rom s m p el →
    let n := wordDone d e s m p el ecc
    (m.seq = 2 → n.stack.length < 4 → Answers (.call d e ⟨rom, ecc⟩) s (fun t =>
      ((t.die d).eng.engine e).stack = (p.succ.getD ⟨0, p.patch⟩) :: n.stack ∧ ((t.die d).eng.engine e).pc = m.target)) ∧
    (m.seq = 2 → 4 ≤ n.stack.length → Makes (.call d e ⟨rom, ecc⟩) s (microFault (wordState d e s m p el ecc) d e 2)) ∧
    (∀ q l, m.seq = 3 → n.stack = q :: l → Answers (.ret d e ⟨rom, ecc⟩) s (fun t =>
      ((t.die d).eng.engine e).stack = l ∧ ((t.die d).eng.engine e).pc = q)) ∧
    (m.seq = 3 → n.stack = [] → Makes (.ret d e ⟨rom, ecc⟩) s (microFault (wordState d e s m p el ecc) d e 2))
end

