-- ==== Sys2Proof/Laws/Fields.lean ====
section
/-!
SUPPORT. Laws of bit fields of words held as numbers: what a field reads after it is written, that other fields stay, and the
bits of a field write.
-/

namespace Sys2Proof.Machine

/-- The bits of a word after a field is replaced. -/
theorem testBit_setBits (w v : Nat) {hi lo : Nat} (h : lo ≤ hi) (i : Nat) :
    (setBits w hi lo v).testBit i = if lo ≤ i ∧ i ≤ hi then v.testBit (i - lo) else w.testBit i := by
  have e : setBits w hi lo v = 2 ^ lo * (2 ^ (hi - lo + 1) * (w / 2 ^ (hi + 1)) + v % 2 ^ (hi - lo + 1)) + w % 2 ^ lo := by
    have hp : 2 ^ (hi + 1) = 2 ^ lo * 2 ^ (hi - lo + 1) := by rw [← Nat.pow_add]; congr 1; omega
    have hm : w / 2 ^ (hi + 1) * 2 ^ (hi + 1) = 2 ^ lo * (2 ^ (hi - lo + 1) * (w / 2 ^ (hi + 1))) := by
      rw [Nat.mul_comm (w / 2 ^ (hi + 1)) (2 ^ (hi + 1))]
      conv => lhs; lhs; rw [hp]
      rw [Nat.mul_assoc]
    unfold setBits
    rw [hm, Nat.mul_add, Nat.mul_comm (v % _) (2 ^ lo)]
    omega
  rw [e, Nat.testBit_two_pow_mul_add _ (Nat.mod_lt _ (Nat.two_pow_pos lo)),
    Nat.testBit_two_pow_mul_add _ (Nat.mod_lt _ (Nat.two_pow_pos _))]
  by_cases h1 : i < lo
  · simp [h1, Nat.testBit_mod_two_pow, show ¬ (lo ≤ i ∧ i ≤ hi) by omega]
  · by_cases h2 : i ≤ hi
    · simp [h1, Nat.testBit_mod_two_pow, show i - lo < hi - lo + 1 by omega, show lo ≤ i ∧ i ≤ hi by omega]
    · simp [h1, show ¬ i - lo < hi - lo + 1 by omega, show ¬ (lo ≤ i ∧ i ≤ hi) by omega, Nat.testBit_div_two_pow]
      congr 1; omega

/-- The bits of a field. -/
theorem testBit_fget (f : Fld) (w i : Nat) : (fget f w).testBit i = (decide (i < f.hi - f.lo + 1) && w.testBit (i + f.lo)) := by
  simp [fget, bitsOf, Nat.testBit_mod_two_pow, Nat.testBit_div_two_pow]

/-- A field reads back as it was written, modulo its width. -/
theorem fget_fput_same (f : Fld) (h : f.lo ≤ f.hi) (w v : Nat) : fget f (fput f w v) = v % 2 ^ (f.hi - f.lo + 1) := by
  apply Nat.eq_of_testBit_eq
  intro i
  rw [testBit_fget, fput, testBit_setBits w v h, Nat.testBit_mod_two_pow]
  by_cases hi : i < f.hi - f.lo + 1
  · simp [hi, show f.lo ≤ i + f.lo ∧ i + f.lo ≤ f.hi by omega]
  · simp [hi]

/-- Writing a field leaves a field that shares no bit with it. -/
theorem fget_fput_other (f g : Fld) (h : f.lo ≤ f.hi) (d : g.hi < f.lo ∨ f.hi < g.lo) (hg : g.lo ≤ g.hi) (w v : Nat) :
    fget g (fput f w v) = fget g w := by
  apply Nat.eq_of_testBit_eq
  intro i
  rw [testBit_fget, testBit_fget, fput, testBit_setBits w v h]
  by_cases hi : i < g.hi - g.lo + 1
  · simp [hi, show ¬ (f.lo ≤ i + g.lo ∧ i + g.lo ≤ f.hi) by omega]
  · simp [hi]

/-- A field of a word cut to n bits, when it lies within them. -/
theorem fget_mod (f : Fld) (n w : Nat) (h : f.lo ≤ f.hi) (hn : f.hi < n) : fget f (w % 2 ^ n) = fget f w := by
  apply Nat.eq_of_testBit_eq
  intro i
  rw [testBit_fget, testBit_fget, Nat.testBit_mod_two_pow]
  by_cases hi : i < f.hi - f.lo + 1
  · simp [hi, show i + f.lo < n by omega]
  · simp [hi]

/-- A field's value fits its width. -/
theorem fget_lt (f : Fld) (w : Nat) : fget f w < 2 ^ (f.hi - f.lo + 1) := Nat.mod_lt _ (Nat.two_pow_pos _)

/-- The bits of a number, as the register maps read them. -/
theorem bitOf_eq_testBit (w i : Nat) : bitOf w i = w.testBit i := by
  rw [Bool.eq_iff_iff]; simp [bitOf, Nat.testBit, Nat.shiftRight_eq_div_pow, Nat.one_and_eq_mod_two]

/-- A bit that is set reads so, and every other bit stays. -/
theorem testBit_setBit (w i : Nat) (b : Bool) (j : Nat) : (setBit w i b).testBit j = if j = i then b else w.testBit j := by
  rw [setBit, testBit_setBits _ _ (Nat.le_refl i)]
  by_cases h : j = i
  · subst h; cases b <;> simp [b2n]
  · simp [h, show ¬ (i ≤ j ∧ j ≤ i) by omega]

end Sys2Proof.Machine
end

