-- ==== Sys2Proof/Laws/Sparse.lean ====
section
/-!
SUPPORT. Laws of the sparse stores: a read after a write, a write elsewhere, and that every operation keeps the canonical
form; the same for byte memories.
-/

namespace Sys2Proof.Machine

variable {α : Type}

@[simp] theorem spFind_put_same (k : Nat) (v : α) (l : Sparse α) : spFind k (spPut k v l) = some v := by
  induction l with
  | nil => simp [spPut, spFind]
  | cons e l ih =>
    obtain ⟨k', v'⟩ := e
    by_cases h : k = k'
    · simp [spPut, spFind, h]
    · by_cases h2 : k < k' <;> simp [spPut, spFind, h, h2, ih]

theorem spFind_put_other {j k : Nat} (h : j ≠ k) (v : α) (l : Sparse α) : spFind j (spPut k v l) = spFind j l := by
  induction l with
  | nil => simp [spPut, spFind, h]
  | cons e l ih =>
    obtain ⟨k', v'⟩ := e
    by_cases h1 : k = k'
    · subst h1; simp [spPut, spFind, h]
    · by_cases h2 : k < k' <;> simp [spPut, spFind, h, h1, h2, ih]

@[simp] theorem spFind_del_same (k : Nat) (l : Sparse α) : spFind k (spDel k l) = none := by
  induction l with
  | nil => simp [spDel, spFind]
  | cons e l ih =>
    obtain ⟨k', v'⟩ := e
    by_cases h : k = k' <;> simp [spDel, spFind, h, ih]
    simpa [h] using ih

theorem spFind_del_other {j k : Nat} (h : j ≠ k) (l : Sparse α) : spFind j (spDel k l) = spFind j l := by
  induction l with
  | nil => simp [spDel]
  | cons e l ih =>
    obtain ⟨k', v'⟩ := e
    by_cases h1 : k = k'
    · subst h1; simp [spDel, spFind, h, ih]
    · simp [spDel, spFind, h1, ih]

/-- Reading goes through the listed entry. -/
theorem spGet_eq_find (d : α) (k : Nat) (l : Sparse α) : spGet d k l = (spFind k l).getD d := by
  induction l with
  | nil => simp [spGet, spFind]
  | cons e l ih =>
    obtain ⟨k', v'⟩ := e
    by_cases h : k = k' <;> simp [spGet, spFind, h, ih]

/-- A read after a write to the same key gives the value written. -/
@[simp] theorem spGet_set_same [DecidableEq α] (d : α) (k : Nat) (v : α) (l : Sparse α) : spGet d k (spSet d k v l) = v := by
  by_cases h : v = d <;> simp [spSet, spGet_eq_find, h]

/-- A write leaves every other key alone. -/
theorem spGet_set_other [DecidableEq α] (d : α) {j k : Nat} (h : j ≠ k) (v : α) (l : Sparse α) :
    spGet d j (spSet d k v l) = spGet d j l := by
  by_cases hv : v = d <;> simp [spSet, spGet_eq_find, hv, spFind_put_other h, spFind_del_other h]

/-! ## The canonical form -/

theorem spRising_mono {a b : Nat} (h : a ≤ b) {l : Sparse α} : spRising b l = true → spRising a l = true := by
  cases l with
  | nil => simp [spRising]
  | cons e l => obtain ⟨k, v⟩ := e; simp [spRising]; intro h1 h2; exact ⟨by omega, h2⟩

theorem spRising_put {b k : Nat} (v : α) {l : Sparse α} (hb : b ≤ k) (h : spRising b l = true) : spRising b (spPut k v l) = true := by
  induction l generalizing b with
  | nil => simp [spPut, spRising, hb]
  | cons e l ih =>
    obtain ⟨k', v'⟩ := e
    simp only [spRising, Bool.and_eq_true, decide_eq_true_eq] at h
    by_cases h1 : k = k'
    · subst h1; simp [spPut, spRising, h.1, h.2]
    · by_cases h2 : k < k'
      · simp [spPut, spRising, h1, h2, hb, h.2]
      · simp [spPut, spRising, h1, h2, h.1]; exact ih (by omega) h.2

theorem spRising_del {b k : Nat} {l : Sparse α} (h : spRising b l = true) : spRising b (spDel k l) = true := by
  induction l generalizing b with
  | nil => simp [spDel, spRising]
  | cons e l ih =>
    obtain ⟨k', v'⟩ := e
    simp only [spRising, Bool.and_eq_true, decide_eq_true_eq] at h
    by_cases h1 : k = k'
    · simp only [spDel, h1, if_true]; exact h1 ▸ spRising_mono (by omega) (ih h.2)
    · simp [spDel, spRising, h1, h.1]; exact ih h.2

theorem spPut_all {p : Nat × α → Bool} {k : Nat} {v : α} {l : Sparse α} (hv : p (k, v) = true) (h : l.all p = true) :
    (spPut k v l).all p = true := by
  induction l with
  | nil => simp [spPut, hv]
  | cons e l ih =>
    obtain ⟨k', v'⟩ := e
    simp only [List.all_cons, Bool.and_eq_true] at h
    by_cases h1 : k = k'
    · simp [spPut, h1, List.all_cons, h1 ▸ hv, h.2]
    · by_cases h2 : k < k'
      · simp [spPut, h1, h2, hv, h.1]; simpa using h.2
      · simp only [spPut, h1, h2, if_false, List.all_cons, h.1, Bool.true_and]; exact ih h.2

theorem spDel_all {p : Nat × α → Bool} {k : Nat} {l : Sparse α} (h : l.all p = true) : (spDel k l).all p = true := by
  induction l with
  | nil => simp [spDel]
  | cons e l ih =>
    obtain ⟨k', v'⟩ := e
    simp only [List.all_cons, Bool.and_eq_true] at h
    by_cases h1 : k = k'
    · simp only [spDel, h1, if_true]; exact h1 ▸ ih h.2
    · simp only [spDel, h1, if_false, List.all_cons, h.1, Bool.true_and]; exact ih h.2

/-- A write keeps the canonical form. -/
theorem spSet_wf [DecidableEq α] (d : α) (k : Nat) (v : α) {l : Sparse α} (h : spWf d l = true) : spWf d (spSet d k v l) = true := by
  simp only [spWf, Bool.and_eq_true] at h ⊢
  by_cases hv : v = d
  · simp only [spSet, hv, if_true]; exact ⟨spRising_del h.1, spDel_all h.2⟩
  · simp only [spSet, hv, if_false]; exact ⟨spRising_put v (Nat.zero_le k) h.1, spPut_all (by simp [hv]) h.2⟩

/-! ## Byte memories -/

/-- The empty memory is in canonical form. -/
theorem memWf_nil : Memory.wf [] = true := by decide

/-- Writing a byte keeps the canonical form. -/
theorem memSet_wf (m : Memory) (a : Nat) (v : Byte) (h : m.wf = true) : (memSet m a v).wf = true := spSet_wf 0 a v h

/-- Writing bytes keeps the canonical form. -/
theorem memWrite_wf (bs : List Byte) : ∀ (m : Memory) (a : Nat), m.wf = true → (memWrite m a bs).wf = true := by
  induction bs with
  | nil => intro m a h; exact h
  | cons b bs ih => intro m a h; exact ih _ _ (memSet_wf m a b h)

/-- A byte written is read back. -/
@[simp] theorem memGet_set_same (m : Memory) (a : Nat) (v : Byte) : memGet (memSet m a v) a = v := spGet_set_same 0 a v m

/-- Writing a byte leaves every other byte. -/
theorem memGet_set_other (m : Memory) {a b : Nat} (h : b ≠ a) (v : Byte) : memGet (memSet m a v) b = memGet m b :=
  spGet_set_other 0 h v m

/-- Writing bytes leaves every byte outside them. -/
theorem memGet_write_outside (bs : List Byte) : ∀ (m : Memory) (a b : Nat), b < a ∨ a + bs.length ≤ b →
    memGet (memWrite m a bs) b = memGet m b := by
  induction bs with
  | nil => intro m a b _; rfl
  | cons v bs ih =>
    intro m a b h
    simp only [List.length_cons] at h
    rw [memWrite, ih _ _ _ (by omega), memGet_set_other m (by omega)]

end Sys2Proof.Machine
end

