-- ==== Sys2Proof/Laws/State.lean ====
section
/-!
SUPPORT. What each update of the state leaves, one lemma a field and an update, and the registers of a die: a read after a write.
-/

namespace Sys2Proof.Machine

/-! ## Updates of the module -/

@[simp] theorem State.setDie_ticks (s : State) (d : DieId) (x : Die) : (s.setDie d x).ticks = s.ticks := by cases d <;> rfl
@[simp] theorem State.onDie_ticks (s : State) (d : DieId) (f : Die → Die) : (s.onDie d f).ticks = s.ticks := by cases d <;> rfl
@[simp] theorem State.setDie_freeCnt (s : State) (d : DieId) (x : Die) : (s.setDie d x).freeCnt = s.freeCnt := by cases d <;> rfl
@[simp] theorem State.onDie_freeCnt (s : State) (d : DieId) (f : Die → Die) : (s.onDie d f).freeCnt = s.freeCnt := by cases d <;> rfl
@[simp] theorem State.setDie_banks (s : State) (d : DieId) (x : Die) : (s.setDie d x).banks = s.banks := by cases d <;> rfl
@[simp] theorem State.onDie_banks (s : State) (d : DieId) (f : Die → Die) : (s.onDie d f).banks = s.banks := by cases d <;> rfl
@[simp] theorem State.setDie_mirror (s : State) (d : DieId) (x : Die) : (s.setDie d x).mirror = s.mirror := by cases d <;> rfl
@[simp] theorem State.onDie_mirror (s : State) (d : DieId) (f : Die → Die) : (s.onDie d f).mirror = s.mirror := by cases d <;> rfl
@[simp] theorem State.setDie_esc (s : State) (d : DieId) (x : Die) : (s.setDie d x).esc = s.esc := by cases d <;> rfl
@[simp] theorem State.onDie_esc (s : State) (d : DieId) (f : Die → Die) : (s.onDie d f).esc = s.esc := by cases d <;> rfl
@[simp] theorem State.setDie_eeprom (s : State) (d : DieId) (x : Die) : (s.setDie d x).eeprom = s.eeprom := by cases d <;> rfl
@[simp] theorem State.onDie_eeprom (s : State) (d : DieId) (f : Die → Die) : (s.onDie d f).eeprom = s.eeprom := by cases d <;> rfl
@[simp] theorem State.setDie_store (s : State) (d : DieId) (x : Die) : (s.setDie d x).store = s.store := by cases d <;> rfl
@[simp] theorem State.onDie_store (s : State) (d : DieId) (f : Die → Die) : (s.onDie d f).store = s.store := by cases d <;> rfl
@[simp] theorem State.setDie_wear (s : State) (d : DieId) (x : Die) : (s.setDie d x).wear = s.wear := by cases d <;> rfl
@[simp] theorem State.onDie_wear (s : State) (d : DieId) (f : Die → Die) : (s.onDie d f).wear = s.wear := by cases d <;> rfl
@[simp] theorem State.setDie_flash0 (s : State) (d : DieId) (x : Die) : (s.setDie d x).flash0 = s.flash0 := by cases d <;> rfl
@[simp] theorem State.onDie_flash0 (s : State) (d : DieId) (f : Die → Die) : (s.onDie d f).flash0 = s.flash0 := by cases d <;> rfl
@[simp] theorem State.setDie_flash1 (s : State) (d : DieId) (x : Die) : (s.setDie d x).flash1 = s.flash1 := by cases d <;> rfl
@[simp] theorem State.onDie_flash1 (s : State) (d : DieId) (f : Die → Die) : (s.onDie d f).flash1 = s.flash1 := by cases d <;> rfl
@[simp] theorem State.setDie_light (s : State) (d : DieId) (x : Die) : (s.setDie d x).light = s.light := by cases d <;> rfl
@[simp] theorem State.onDie_light (s : State) (d : DieId) (f : Die → Die) : (s.onDie d f).light = s.light := by cases d <;> rfl
@[simp] theorem State.setDie_above (s : State) (d : DieId) (x : Die) : (s.setDie d x).above = s.above := by cases d <;> rfl
@[simp] theorem State.onDie_above (s : State) (d : DieId) (f : Die → Die) : (s.onDie d f).above = s.above := by cases d <;> rfl
@[simp] theorem State.setDie_aboveSum (s : State) (d : DieId) (x : Die) : (s.setDie d x).overSum = s.overSum := by cases d <;> rfl
@[simp] theorem State.onDie_aboveSum (s : State) (d : DieId) (f : Die → Die) : (s.onDie d f).overSum = s.overSum := by cases d <;> rfl
@[simp] theorem State.setDie_pins (s : State) (d : DieId) (x : Die) : (s.setDie d x).pins = s.pins := by cases d <;> rfl
@[simp] theorem State.onDie_pins (s : State) (d : DieId) (f : Die → Die) : (s.onDie d f).pins = s.pins := by cases d <;> rfl
@[simp] theorem State.setDie_out (s : State) (d : DieId) (x : Die) : (s.setDie d x).out = s.out := by cases d <;> rfl
@[simp] theorem State.onDie_out (s : State) (d : DieId) (f : Die → Die) : (s.onDie d f).out = s.out := by cases d <;> rfl
@[simp] theorem State.setDie_pending (s : State) (d : DieId) (x : Die) : (s.setDie d x).pending = s.pending := by cases d <;> rfl
@[simp] theorem State.onDie_pending (s : State) (d : DieId) (f : Die → Die) : (s.onDie d f).pending = s.pending := by cases d <;> rfl
@[simp] theorem State.setDie_pulseSel (s : State) (d : DieId) (x : Die) : (s.setDie d x).pulseSel = s.pulseSel := by cases d <;> rfl
@[simp] theorem State.onDie_pulseSel (s : State) (d : DieId) (f : Die → Die) : (s.onDie d f).pulseSel = s.pulseSel := by cases d <;> rfl
@[simp] theorem State.setBank_pulseSel (s : State) (b : Nat) (k : Bank) : (s.setBank b k).pulseSel = s.pulseSel := rfl
@[simp] theorem State.onBank_pulseSel (s : State) (b : Nat) (f : Bank → Bank) : (s.onBank b f).pulseSel = s.pulseSel := rfl
@[simp] theorem State.emit_pulseSel (s : State) (o : Out) : (s.emit o).pulseSel = s.pulseSel := rfl
@[simp] theorem State.drawn_pulseSel (s : State) : s.drawn.pulseSel = s.pulseSel := rfl
@[simp] theorem State.setBank_ticks (s : State) (b : Nat) (k : Bank) : (s.setBank b k).ticks = s.ticks := rfl
@[simp] theorem State.onBank_ticks (s : State) (b : Nat) (f : Bank → Bank) : (s.onBank b f).ticks = s.ticks := rfl
@[simp] theorem State.emit_ticks (s : State) (o : Out) : (s.emit o).ticks = s.ticks := rfl
@[simp] theorem State.drawn_ticks (s : State) : s.drawn.ticks = s.ticks := rfl
@[simp] theorem State.setBank_freeCnt (s : State) (b : Nat) (k : Bank) : (s.setBank b k).freeCnt = s.freeCnt := rfl
@[simp] theorem State.onBank_freeCnt (s : State) (b : Nat) (f : Bank → Bank) : (s.onBank b f).freeCnt = s.freeCnt := rfl
@[simp] theorem State.emit_freeCnt (s : State) (o : Out) : (s.emit o).freeCnt = s.freeCnt := rfl
@[simp] theorem State.emit_banks (s : State) (o : Out) : (s.emit o).banks = s.banks := rfl
@[simp] theorem State.drawn_banks (s : State) : s.drawn.banks = s.banks := rfl
@[simp] theorem State.setBank_mirror (s : State) (b : Nat) (k : Bank) : (s.setBank b k).mirror = s.mirror := rfl
@[simp] theorem State.onBank_mirror (s : State) (b : Nat) (f : Bank → Bank) : (s.onBank b f).mirror = s.mirror := rfl
@[simp] theorem State.emit_mirror (s : State) (o : Out) : (s.emit o).mirror = s.mirror := rfl
@[simp] theorem State.drawn_mirror (s : State) : s.drawn.mirror = s.mirror := rfl
@[simp] theorem State.setBank_esc (s : State) (b : Nat) (k : Bank) : (s.setBank b k).esc = s.esc := rfl
@[simp] theorem State.onBank_esc (s : State) (b : Nat) (f : Bank → Bank) : (s.onBank b f).esc = s.esc := rfl
@[simp] theorem State.emit_esc (s : State) (o : Out) : (s.emit o).esc = s.esc := rfl
@[simp] theorem State.drawn_esc (s : State) : s.drawn.esc = s.esc := rfl
@[simp] theorem State.setBank_eeprom (s : State) (b : Nat) (k : Bank) : (s.setBank b k).eeprom = s.eeprom := rfl
@[simp] theorem State.onBank_eeprom (s : State) (b : Nat) (f : Bank → Bank) : (s.onBank b f).eeprom = s.eeprom := rfl
@[simp] theorem State.emit_eeprom (s : State) (o : Out) : (s.emit o).eeprom = s.eeprom := rfl
@[simp] theorem State.drawn_eeprom (s : State) : s.drawn.eeprom = s.eeprom := rfl
@[simp] theorem State.setBank_store (s : State) (b : Nat) (k : Bank) : (s.setBank b k).store = s.store := rfl
@[simp] theorem State.onBank_store (s : State) (b : Nat) (f : Bank → Bank) : (s.onBank b f).store = s.store := rfl
@[simp] theorem State.emit_store (s : State) (o : Out) : (s.emit o).store = s.store := rfl
@[simp] theorem State.drawn_store (s : State) : s.drawn.store = s.store := rfl
@[simp] theorem State.setBank_wear (s : State) (b : Nat) (k : Bank) : (s.setBank b k).wear = s.wear := rfl
@[simp] theorem State.onBank_wear (s : State) (b : Nat) (f : Bank → Bank) : (s.onBank b f).wear = s.wear := rfl
@[simp] theorem State.emit_wear (s : State) (o : Out) : (s.emit o).wear = s.wear := rfl
@[simp] theorem State.drawn_wear (s : State) : s.drawn.wear = s.wear := rfl
@[simp] theorem State.setBank_flash0 (s : State) (b : Nat) (k : Bank) : (s.setBank b k).flash0 = s.flash0 := rfl
@[simp] theorem State.onBank_flash0 (s : State) (b : Nat) (f : Bank → Bank) : (s.onBank b f).flash0 = s.flash0 := rfl
@[simp] theorem State.emit_flash0 (s : State) (o : Out) : (s.emit o).flash0 = s.flash0 := rfl
@[simp] theorem State.drawn_flash0 (s : State) : s.drawn.flash0 = s.flash0 := rfl
@[simp] theorem State.setBank_flash1 (s : State) (b : Nat) (k : Bank) : (s.setBank b k).flash1 = s.flash1 := rfl
@[simp] theorem State.onBank_flash1 (s : State) (b : Nat) (f : Bank → Bank) : (s.onBank b f).flash1 = s.flash1 := rfl
@[simp] theorem State.emit_flash1 (s : State) (o : Out) : (s.emit o).flash1 = s.flash1 := rfl
@[simp] theorem State.drawn_flash1 (s : State) : s.drawn.flash1 = s.flash1 := rfl
@[simp] theorem State.setBank_light (s : State) (b : Nat) (k : Bank) : (s.setBank b k).light = s.light := rfl
@[simp] theorem State.onBank_light (s : State) (b : Nat) (f : Bank → Bank) : (s.onBank b f).light = s.light := rfl
@[simp] theorem State.emit_light (s : State) (o : Out) : (s.emit o).light = s.light := rfl
@[simp] theorem State.drawn_light (s : State) : s.drawn.light = s.light := rfl
@[simp] theorem State.setBank_above (s : State) (b : Nat) (k : Bank) : (s.setBank b k).above = s.above := rfl
@[simp] theorem State.onBank_above (s : State) (b : Nat) (f : Bank → Bank) : (s.onBank b f).above = s.above := rfl
@[simp] theorem State.emit_above (s : State) (o : Out) : (s.emit o).above = s.above := rfl
@[simp] theorem State.drawn_above (s : State) : s.drawn.above = s.above := rfl
@[simp] theorem State.setBank_aboveSum (s : State) (b : Nat) (k : Bank) : (s.setBank b k).overSum = s.overSum := rfl
@[simp] theorem State.onBank_aboveSum (s : State) (b : Nat) (f : Bank → Bank) : (s.onBank b f).overSum = s.overSum := rfl
@[simp] theorem State.emit_aboveSum (s : State) (o : Out) : (s.emit o).overSum = s.overSum := rfl
@[simp] theorem State.drawn_aboveSum (s : State) : s.drawn.overSum = s.overSum := rfl
@[simp] theorem State.setBank_pins (s : State) (b : Nat) (k : Bank) : (s.setBank b k).pins = s.pins := rfl
@[simp] theorem State.onBank_pins (s : State) (b : Nat) (f : Bank → Bank) : (s.onBank b f).pins = s.pins := rfl
@[simp] theorem State.emit_pins (s : State) (o : Out) : (s.emit o).pins = s.pins := rfl
@[simp] theorem State.drawn_pins (s : State) : s.drawn.pins = s.pins := rfl
@[simp] theorem State.setBank_out (s : State) (b : Nat) (k : Bank) : (s.setBank b k).out = s.out := rfl
@[simp] theorem State.onBank_out (s : State) (b : Nat) (f : Bank → Bank) : (s.onBank b f).out = s.out := rfl
@[simp] theorem State.drawn_out (s : State) : s.drawn.out = s.out := rfl
@[simp] theorem State.setBank_pending (s : State) (b : Nat) (k : Bank) : (s.setBank b k).pending = s.pending := rfl
@[simp] theorem State.onBank_pending (s : State) (b : Nat) (f : Bank → Bank) : (s.onBank b f).pending = s.pending := rfl
@[simp] theorem State.emit_pending (s : State) (o : Out) : (s.emit o).pending = s.pending := rfl
@[simp] theorem State.drawn_pending (s : State) : s.drawn.pending = s.pending := rfl
@[simp] theorem State.setBank_cd0 (s : State) (b : Nat) (k : Bank) : (s.setBank b k).cd0 = s.cd0 := rfl
@[simp] theorem State.onBank_cd0 (s : State) (b : Nat) (f : Bank → Bank) : (s.onBank b f).cd0 = s.cd0 := rfl
@[simp] theorem State.emit_cd0 (s : State) (o : Out) : (s.emit o).cd0 = s.cd0 := rfl
@[simp] theorem State.drawn_cd0 (s : State) : s.drawn.cd0 = s.cd0 := rfl
@[simp] theorem State.setBank_cd1 (s : State) (b : Nat) (k : Bank) : (s.setBank b k).cd1 = s.cd1 := rfl
@[simp] theorem State.onBank_cd1 (s : State) (b : Nat) (f : Bank → Bank) : (s.onBank b f).cd1 = s.cd1 := rfl
@[simp] theorem State.emit_cd1 (s : State) (o : Out) : (s.emit o).cd1 = s.cd1 := rfl
@[simp] theorem State.drawn_cd1 (s : State) : s.drawn.cd1 = s.cd1 := rfl
@[simp] theorem State.emit_out (s : State) (o : Out) : (s.emit o).out = s.out ++ [o] := rfl
@[simp] theorem State.drawn_freeCnt (s : State) : s.drawn.freeCnt = s.freeCnt + 1 := rfl

@[simp] theorem State.die_setDie_same (s : State) (d : DieId) (x : Die) : (s.setDie d x).die d = x := by cases d <;> rfl
@[simp] theorem State.die_setDie_peer (s : State) (d : DieId) (x : Die) : (s.setDie d x).die d.peer = s.die d.peer := by cases d <;> rfl
theorem State.die_setDie_other (s : State) {d e : DieId} (h : e ≠ d) (x : Die) : (s.setDie d x).die e = s.die e := by
  cases d <;> cases e <;> first | rfl | exact absurd rfl h
@[simp] theorem State.die_onDie_same (s : State) (d : DieId) (f : Die → Die) : (s.onDie d f).die d = f (s.die d) := by cases d <;> rfl
@[simp] theorem State.die_onDie_peer (s : State) (d : DieId) (f : Die → Die) : (s.onDie d f).die d.peer = s.die d.peer := by
  cases d <;> rfl
theorem State.die_onDie_other (s : State) {d e : DieId} (h : e ≠ d) (f : Die → Die) : (s.onDie d f).die e = s.die e :=
  s.die_setDie_other h _
@[simp] theorem State.die_emit (s : State) (o : Out) (d : DieId) : (s.emit o).die d = s.die d := by cases d <;> rfl
@[simp] theorem State.die_drawn (s : State) (d : DieId) : s.drawn.die d = s.die d := by cases d <;> rfl
@[simp] theorem State.die_setBank (s : State) (b : Nat) (k : Bank) (d : DieId) : (s.setBank b k).die d = s.die d := by cases d <;> rfl
@[simp] theorem State.die_onBank (s : State) (b : Nat) (f : Bank → Bank) (d : DieId) : (s.onBank b f).die d = s.die d := by
  cases d <;> rfl
@[simp] theorem State.setDie_cd0 (s : State) (x : Die) : (s.setDie .cd0 x).cd0 = x := rfl
@[simp] theorem State.setDie_cd1 (s : State) (x : Die) : (s.setDie .cd1 x).cd1 = x := rfl
@[simp] theorem State.setDie_cd0_of_cd1 (s : State) (x : Die) : (s.setDie .cd1 x).cd0 = s.cd0 := rfl
@[simp] theorem State.setDie_cd1_of_cd0 (s : State) (x : Die) : (s.setDie .cd0 x).cd1 = s.cd1 := rfl
@[simp] theorem State.bank_setDie (s : State) (d : DieId) (x : Die) (b : Nat) : (s.setDie d x).bank b = s.bank b := by cases d <;> rfl
@[simp] theorem State.bank_onDie (s : State) (d : DieId) (f : Die → Die) (b : Nat) : (s.onDie d f).bank b = s.bank b := by
  cases d <;> rfl
@[simp] theorem State.bank_emit (s : State) (o : Out) (b : Nat) : (s.emit o).bank b = s.bank b := rfl
@[simp] theorem State.bank_drawn (s : State) (b : Nat) : s.drawn.bank b = s.bank b := rfl
@[simp] theorem State.bank_setBank_same (s : State) (b : Nat) (k : Bank) : (s.setBank b k).bank b = k := by
  simp [State.bank, State.setBank]
theorem State.bank_setBank_other (s : State) {b c : Nat} (h : c % 8 ≠ b % 8) (k : Bank) : (s.setBank b k).bank c = s.bank c := by
  simp [State.bank, State.setBank, Ne.symm h]
@[simp] theorem State.bank_onBank_same (s : State) (b : Nat) (f : Bank → Bank) : (s.onBank b f).bank b = f (s.bank b) := by
  simp [State.onBank]
theorem State.bank_onBank_other (s : State) {b c : Nat} (h : c % 8 ≠ b % 8) (f : Bank → Bank) : (s.onBank b f).bank c = s.bank c :=
  s.bank_setBank_other h _
@[simp] theorem State.push_pending (s : State) (c : Instr) : ({ s with pending := c :: s.pending } : State).pending = c :: s.pending := rfl

/-! ## Updates of a die -/

@[simp] theorem Die.setFn_life (x : Die) (n : Nat) (v : Fn) : (x.setFn n v).life = x.life := rfl
@[simp] theorem Die.onFn_life (x : Die) (n : Nat) (g : Fn → Fn) : (x.onFn n g).life = x.life := rfl
@[simp] theorem Die.onRing_life (x : Die) (n r : Nat) (g : Ring → Ring) : (x.onRing n r g).life = x.life := rfl
@[simp] theorem Die.setReg_life (x : Die) (k v : Nat) : (x.setReg k v).life = x.life := rfl
@[simp] theorem Die.setRf_life (x : Die) (k : Nat) (f : Fld) (v : Nat) : (x.setRf k f v).life = x.life := rfl
@[simp] theorem Die.count_life (x : Die) (k : Nat) (f : Fld) (n : Nat) : (x.count k f n).life = x.life := rfl
@[simp] theorem Die.setMapBit_life (x : Die) (k i : Nat) (b : Bool) : (x.setMapBit k i b).life = x.life := rfl
@[simp] theorem Die.setFn_regs (x : Die) (n : Nat) (v : Fn) : (x.setFn n v).regs = x.regs := rfl
@[simp] theorem Die.onFn_regs (x : Die) (n : Nat) (g : Fn → Fn) : (x.onFn n g).regs = x.regs := rfl
@[simp] theorem Die.onRing_regs (x : Die) (n r : Nat) (g : Ring → Ring) : (x.onRing n r g).regs = x.regs := rfl
@[simp] theorem Die.setFn_lowWords (x : Die) (n : Nat) (v : Fn) : (x.setFn n v).lowWords = x.lowWords := rfl
@[simp] theorem Die.onFn_lowWords (x : Die) (n : Nat) (g : Fn → Fn) : (x.onFn n g).lowWords = x.lowWords := rfl
@[simp] theorem Die.onRing_lowWords (x : Die) (n r : Nat) (g : Ring → Ring) : (x.onRing n r g).lowWords = x.lowWords := rfl
@[simp] theorem Die.setReg_lowWords (x : Die) (k v : Nat) : (x.setReg k v).lowWords = x.lowWords := rfl
@[simp] theorem Die.setRf_lowWords (x : Die) (k : Nat) (f : Fld) (v : Nat) : (x.setRf k f v).lowWords = x.lowWords := rfl
@[simp] theorem Die.count_lowWords (x : Die) (k : Nat) (f : Fld) (n : Nat) : (x.count k f n).lowWords = x.lowWords := rfl
@[simp] theorem Die.setMapBit_lowWords (x : Die) (k i : Nat) (b : Bool) : (x.setMapBit k i b).lowWords = x.lowWords := rfl
@[simp] theorem Die.setReg_fns (x : Die) (k v : Nat) : (x.setReg k v).fns = x.fns := rfl
@[simp] theorem Die.setRf_fns (x : Die) (k : Nat) (f : Fld) (v : Nat) : (x.setRf k f v).fns = x.fns := rfl
@[simp] theorem Die.count_fns (x : Die) (k : Nat) (f : Fld) (n : Nat) : (x.count k f n).fns = x.fns := rfl
@[simp] theorem Die.setMapBit_fns (x : Die) (k i : Nat) (b : Bool) : (x.setMapBit k i b).fns = x.fns := rfl
@[simp] theorem Die.setFn_cmds (x : Die) (n : Nat) (v : Fn) : (x.setFn n v).cmds = x.cmds := rfl
@[simp] theorem Die.onFn_cmds (x : Die) (n : Nat) (g : Fn → Fn) : (x.onFn n g).cmds = x.cmds := rfl
@[simp] theorem Die.onRing_cmds (x : Die) (n r : Nat) (g : Ring → Ring) : (x.onRing n r g).cmds = x.cmds := rfl
@[simp] theorem Die.setReg_cmds (x : Die) (k v : Nat) : (x.setReg k v).cmds = x.cmds := rfl
@[simp] theorem Die.setRf_cmds (x : Die) (k : Nat) (f : Fld) (v : Nat) : (x.setRf k f v).cmds = x.cmds := rfl
@[simp] theorem Die.count_cmds (x : Die) (k : Nat) (f : Fld) (n : Nat) : (x.count k f n).cmds = x.cmds := rfl
@[simp] theorem Die.setMapBit_cmds (x : Die) (k i : Nat) (b : Bool) : (x.setMapBit k i b).cmds = x.cmds := rfl
@[simp] theorem Die.setFn_nextCmd (x : Die) (n : Nat) (v : Fn) : (x.setFn n v).nextCmd = x.nextCmd := rfl
@[simp] theorem Die.onFn_nextCmd (x : Die) (n : Nat) (g : Fn → Fn) : (x.onFn n g).nextCmd = x.nextCmd := rfl
@[simp] theorem Die.onRing_nextCmd (x : Die) (n r : Nat) (g : Ring → Ring) : (x.onRing n r g).nextCmd = x.nextCmd := rfl
@[simp] theorem Die.setReg_nextCmd (x : Die) (k v : Nat) : (x.setReg k v).nextCmd = x.nextCmd := rfl
@[simp] theorem Die.setRf_nextCmd (x : Die) (k : Nat) (f : Fld) (v : Nat) : (x.setRf k f v).nextCmd = x.nextCmd := rfl
@[simp] theorem Die.count_nextCmd (x : Die) (k : Nat) (f : Fld) (n : Nat) : (x.count k f n).nextCmd = x.nextCmd := rfl
@[simp] theorem Die.setMapBit_nextCmd (x : Die) (k i : Nat) (b : Bool) : (x.setMapBit k i b).nextCmd = x.nextCmd := rfl
@[simp] theorem Die.setFn_reads (x : Die) (n : Nat) (v : Fn) : (x.setFn n v).reads = x.reads := rfl
@[simp] theorem Die.onFn_reads (x : Die) (n : Nat) (g : Fn → Fn) : (x.onFn n g).reads = x.reads := rfl
@[simp] theorem Die.onRing_reads (x : Die) (n r : Nat) (g : Ring → Ring) : (x.onRing n r g).reads = x.reads := rfl
@[simp] theorem Die.setReg_reads (x : Die) (k v : Nat) : (x.setReg k v).reads = x.reads := rfl
@[simp] theorem Die.setRf_reads (x : Die) (k : Nat) (f : Fld) (v : Nat) : (x.setRf k f v).reads = x.reads := rfl
@[simp] theorem Die.count_reads (x : Die) (k : Nat) (f : Fld) (n : Nat) : (x.count k f n).reads = x.reads := rfl
@[simp] theorem Die.setMapBit_reads (x : Die) (k i : Nat) (b : Bool) : (x.setMapBit k i b).reads = x.reads := rfl
@[simp] theorem Die.setFn_nextRead (x : Die) (n : Nat) (v : Fn) : (x.setFn n v).nextRead = x.nextRead := rfl
@[simp] theorem Die.onFn_nextRead (x : Die) (n : Nat) (g : Fn → Fn) : (x.onFn n g).nextRead = x.nextRead := rfl
@[simp] theorem Die.onRing_nextRead (x : Die) (n r : Nat) (g : Ring → Ring) : (x.onRing n r g).nextRead = x.nextRead := rfl
@[simp] theorem Die.setReg_nextRead (x : Die) (k v : Nat) : (x.setReg k v).nextRead = x.nextRead := rfl
@[simp] theorem Die.setRf_nextRead (x : Die) (k : Nat) (f : Fld) (v : Nat) : (x.setRf k f v).nextRead = x.nextRead := rfl
@[simp] theorem Die.count_nextRead (x : Die) (k : Nat) (f : Fld) (n : Nat) : (x.count k f n).nextRead = x.nextRead := rfl
@[simp] theorem Die.setMapBit_nextRead (x : Die) (k i : Nat) (b : Bool) : (x.setMapBit k i b).nextRead = x.nextRead := rfl
@[simp] theorem Die.setFn_lastHigh (x : Die) (n : Nat) (v : Fn) : (x.setFn n v).lastHigh = x.lastHigh := rfl
@[simp] theorem Die.onFn_lastHigh (x : Die) (n : Nat) (g : Fn → Fn) : (x.onFn n g).lastHigh = x.lastHigh := rfl
@[simp] theorem Die.onRing_lastHigh (x : Die) (n r : Nat) (g : Ring → Ring) : (x.onRing n r g).lastHigh = x.lastHigh := rfl
@[simp] theorem Die.setReg_lastHigh (x : Die) (k v : Nat) : (x.setReg k v).lastHigh = x.lastHigh := rfl
@[simp] theorem Die.setRf_lastHigh (x : Die) (k : Nat) (f : Fld) (v : Nat) : (x.setRf k f v).lastHigh = x.lastHigh := rfl
@[simp] theorem Die.count_lastHigh (x : Die) (k : Nat) (f : Fld) (n : Nat) : (x.count k f n).lastHigh = x.lastHigh := rfl
@[simp] theorem Die.setMapBit_lastHigh (x : Die) (k i : Nat) (b : Bool) : (x.setMapBit k i b).lastHigh = x.lastHigh := rfl
@[simp] theorem Die.setFn_lastLow (x : Die) (n : Nat) (v : Fn) : (x.setFn n v).lastLow = x.lastLow := rfl
@[simp] theorem Die.onFn_lastLow (x : Die) (n : Nat) (g : Fn → Fn) : (x.onFn n g).lastLow = x.lastLow := rfl
@[simp] theorem Die.onRing_lastLow (x : Die) (n r : Nat) (g : Ring → Ring) : (x.onRing n r g).lastLow = x.lastLow := rfl
@[simp] theorem Die.setReg_lastLow (x : Die) (k v : Nat) : (x.setReg k v).lastLow = x.lastLow := rfl
@[simp] theorem Die.setRf_lastLow (x : Die) (k : Nat) (f : Fld) (v : Nat) : (x.setRf k f v).lastLow = x.lastLow := rfl
@[simp] theorem Die.count_lastLow (x : Die) (k : Nat) (f : Fld) (n : Nat) : (x.count k f n).lastLow = x.lastLow := rfl
@[simp] theorem Die.setMapBit_lastLow (x : Die) (k i : Nat) (b : Bool) : (x.setMapBit k i b).lastLow = x.lastLow := rfl
@[simp] theorem Die.setFn_clock (x : Die) (n : Nat) (v : Fn) : (x.setFn n v).clock = x.clock := rfl
@[simp] theorem Die.onFn_clock (x : Die) (n : Nat) (g : Fn → Fn) : (x.onFn n g).clock = x.clock := rfl
@[simp] theorem Die.onRing_clock (x : Die) (n r : Nat) (g : Ring → Ring) : (x.onRing n r g).clock = x.clock := rfl
@[simp] theorem Die.setReg_clock (x : Die) (k v : Nat) : (x.setReg k v).clock = x.clock := rfl
@[simp] theorem Die.setRf_clock (x : Die) (k : Nat) (f : Fld) (v : Nat) : (x.setRf k f v).clock = x.clock := rfl
@[simp] theorem Die.count_clock (x : Die) (k : Nat) (f : Fld) (n : Nat) : (x.count k f n).clock = x.clock := rfl
@[simp] theorem Die.setMapBit_clock (x : Die) (k i : Nat) (b : Bool) : (x.setMapBit k i b).clock = x.clock := rfl
@[simp] theorem Die.setFn_flt (x : Die) (n : Nat) (v : Fn) : (x.setFn n v).flt = x.flt := rfl
@[simp] theorem Die.onFn_flt (x : Die) (n : Nat) (g : Fn → Fn) : (x.onFn n g).flt = x.flt := rfl
@[simp] theorem Die.onRing_flt (x : Die) (n r : Nat) (g : Ring → Ring) : (x.onRing n r g).flt = x.flt := rfl
@[simp] theorem Die.setReg_flt (x : Die) (k v : Nat) : (x.setReg k v).flt = x.flt := rfl
@[simp] theorem Die.setRf_flt (x : Die) (k : Nat) (f : Fld) (v : Nat) : (x.setRf k f v).flt = x.flt := rfl
@[simp] theorem Die.count_flt (x : Die) (k : Nat) (f : Fld) (n : Nat) : (x.count k f n).flt = x.flt := rfl
@[simp] theorem Die.setMapBit_flt (x : Die) (k i : Nat) (b : Bool) : (x.setMapBit k i b).flt = x.flt := rfl
@[simp] theorem Die.setFn_red (x : Die) (n : Nat) (v : Fn) : (x.setFn n v).red = x.red := rfl
@[simp] theorem Die.onFn_red (x : Die) (n : Nat) (g : Fn → Fn) : (x.onFn n g).red = x.red := rfl
@[simp] theorem Die.onRing_red (x : Die) (n r : Nat) (g : Ring → Ring) : (x.onRing n r g).red = x.red := rfl
@[simp] theorem Die.setReg_red (x : Die) (k v : Nat) : (x.setReg k v).red = x.red := rfl
@[simp] theorem Die.setRf_red (x : Die) (k : Nat) (f : Fld) (v : Nat) : (x.setRf k f v).red = x.red := rfl
@[simp] theorem Die.count_red (x : Die) (k : Nat) (f : Fld) (n : Nat) : (x.count k f n).red = x.red := rfl
@[simp] theorem Die.setMapBit_red (x : Die) (k i : Nat) (b : Bool) : (x.setMapBit k i b).red = x.red := rfl
@[simp] theorem Die.setFn_trans (x : Die) (n : Nat) (v : Fn) : (x.setFn n v).trans = x.trans := rfl
@[simp] theorem Die.onFn_trans (x : Die) (n : Nat) (g : Fn → Fn) : (x.onFn n g).trans = x.trans := rfl
@[simp] theorem Die.onRing_trans (x : Die) (n r : Nat) (g : Ring → Ring) : (x.onRing n r g).trans = x.trans := rfl
@[simp] theorem Die.setReg_trans (x : Die) (k v : Nat) : (x.setReg k v).trans = x.trans := rfl
@[simp] theorem Die.setRf_trans (x : Die) (k : Nat) (f : Fld) (v : Nat) : (x.setRf k f v).trans = x.trans := rfl
@[simp] theorem Die.count_trans (x : Die) (k : Nat) (f : Fld) (n : Nat) : (x.count k f n).trans = x.trans := rfl
@[simp] theorem Die.setMapBit_trans (x : Die) (k i : Nat) (b : Bool) : (x.setMapBit k i b).trans = x.trans := rfl
@[simp] theorem Die.setFn_dealer (x : Die) (n : Nat) (v : Fn) : (x.setFn n v).dealer = x.dealer := rfl
@[simp] theorem Die.onFn_dealer (x : Die) (n : Nat) (g : Fn → Fn) : (x.onFn n g).dealer = x.dealer := rfl
@[simp] theorem Die.onRing_dealer (x : Die) (n r : Nat) (g : Ring → Ring) : (x.onRing n r g).dealer = x.dealer := rfl
@[simp] theorem Die.setReg_dealer (x : Die) (k v : Nat) : (x.setReg k v).dealer = x.dealer := rfl
@[simp] theorem Die.setRf_dealer (x : Die) (k : Nat) (f : Fld) (v : Nat) : (x.setRf k f v).dealer = x.dealer := rfl
@[simp] theorem Die.count_dealer (x : Die) (k : Nat) (f : Fld) (n : Nat) : (x.count k f n).dealer = x.dealer := rfl
@[simp] theorem Die.setMapBit_dealer (x : Die) (k i : Nat) (b : Bool) : (x.setMapBit k i b).dealer = x.dealer := rfl
@[simp] theorem Die.setFn_decks (x : Die) (n : Nat) (v : Fn) : (x.setFn n v).decks = x.decks := rfl
@[simp] theorem Die.onFn_decks (x : Die) (n : Nat) (g : Fn → Fn) : (x.onFn n g).decks = x.decks := rfl
@[simp] theorem Die.onRing_decks (x : Die) (n r : Nat) (g : Ring → Ring) : (x.onRing n r g).decks = x.decks := rfl
@[simp] theorem Die.setReg_decks (x : Die) (k v : Nat) : (x.setReg k v).decks = x.decks := rfl
@[simp] theorem Die.setRf_decks (x : Die) (k : Nat) (f : Fld) (v : Nat) : (x.setRf k f v).decks = x.decks := rfl
@[simp] theorem Die.count_decks (x : Die) (k : Nat) (f : Fld) (n : Nat) : (x.count k f n).decks = x.decks := rfl
@[simp] theorem Die.setMapBit_decks (x : Die) (k i : Nat) (b : Bool) : (x.setMapBit k i b).decks = x.decks := rfl
@[simp] theorem Die.setFn_planner (x : Die) (n : Nat) (v : Fn) : (x.setFn n v).planner = x.planner := rfl
@[simp] theorem Die.onFn_planner (x : Die) (n : Nat) (g : Fn → Fn) : (x.onFn n g).planner = x.planner := rfl
@[simp] theorem Die.onRing_planner (x : Die) (n r : Nat) (g : Ring → Ring) : (x.onRing n r g).planner = x.planner := rfl
@[simp] theorem Die.setReg_planner (x : Die) (k v : Nat) : (x.setReg k v).planner = x.planner := rfl
@[simp] theorem Die.setRf_planner (x : Die) (k : Nat) (f : Fld) (v : Nat) : (x.setRf k f v).planner = x.planner := rfl
@[simp] theorem Die.count_planner (x : Die) (k : Nat) (f : Fld) (n : Nat) : (x.count k f n).planner = x.planner := rfl
@[simp] theorem Die.setMapBit_planner (x : Die) (k i : Nat) (b : Bool) : (x.setMapBit k i b).planner = x.planner := rfl
@[simp] theorem Die.setFn_hold (x : Die) (n : Nat) (v : Fn) : (x.setFn n v).hold = x.hold := rfl
@[simp] theorem Die.onFn_hold (x : Die) (n : Nat) (g : Fn → Fn) : (x.onFn n g).hold = x.hold := rfl
@[simp] theorem Die.onRing_hold (x : Die) (n r : Nat) (g : Ring → Ring) : (x.onRing n r g).hold = x.hold := rfl
@[simp] theorem Die.setReg_hold (x : Die) (k v : Nat) : (x.setReg k v).hold = x.hold := rfl
@[simp] theorem Die.setRf_hold (x : Die) (k : Nat) (f : Fld) (v : Nat) : (x.setRf k f v).hold = x.hold := rfl
@[simp] theorem Die.count_hold (x : Die) (k : Nat) (f : Fld) (n : Nat) : (x.count k f n).hold = x.hold := rfl
@[simp] theorem Die.setMapBit_hold (x : Die) (k i : Nat) (b : Bool) : (x.setMapBit k i b).hold = x.hold := rfl
@[simp] theorem Die.setFn_dither (x : Die) (n : Nat) (v : Fn) : (x.setFn n v).dither = x.dither := rfl
@[simp] theorem Die.onFn_dither (x : Die) (n : Nat) (g : Fn → Fn) : (x.onFn n g).dither = x.dither := rfl
@[simp] theorem Die.onRing_dither (x : Die) (n r : Nat) (g : Ring → Ring) : (x.onRing n r g).dither = x.dither := rfl
@[simp] theorem Die.setReg_dither (x : Die) (k v : Nat) : (x.setReg k v).dither = x.dither := rfl
@[simp] theorem Die.setRf_dither (x : Die) (k : Nat) (f : Fld) (v : Nat) : (x.setRf k f v).dither = x.dither := rfl
@[simp] theorem Die.count_dither (x : Die) (k : Nat) (f : Fld) (n : Nat) : (x.count k f n).dither = x.dither := rfl
@[simp] theorem Die.setMapBit_dither (x : Die) (k i : Nat) (b : Bool) : (x.setMapBit k i b).dither = x.dither := rfl
@[simp] theorem Die.setFn_elSnap (x : Die) (n : Nat) (v : Fn) : (x.setFn n v).elSnap = x.elSnap := rfl
@[simp] theorem Die.onFn_elSnap (x : Die) (n : Nat) (g : Fn → Fn) : (x.onFn n g).elSnap = x.elSnap := rfl
@[simp] theorem Die.onRing_elSnap (x : Die) (n r : Nat) (g : Ring → Ring) : (x.onRing n r g).elSnap = x.elSnap := rfl
@[simp] theorem Die.setReg_elSnap (x : Die) (k v : Nat) : (x.setReg k v).elSnap = x.elSnap := rfl
@[simp] theorem Die.setRf_elSnap (x : Die) (k : Nat) (f : Fld) (v : Nat) : (x.setRf k f v).elSnap = x.elSnap := rfl
@[simp] theorem Die.count_elSnap (x : Die) (k : Nat) (f : Fld) (n : Nat) : (x.count k f n).elSnap = x.elSnap := rfl
@[simp] theorem Die.setMapBit_elSnap (x : Die) (k i : Nat) (b : Bool) : (x.setMapBit k i b).elSnap = x.elSnap := rfl
@[simp] theorem Die.setFn_elStale (x : Die) (n : Nat) (v : Fn) : (x.setFn n v).elStale = x.elStale := rfl
@[simp] theorem Die.onFn_elStale (x : Die) (n : Nat) (g : Fn → Fn) : (x.onFn n g).elStale = x.elStale := rfl
@[simp] theorem Die.onRing_elStale (x : Die) (n r : Nat) (g : Ring → Ring) : (x.onRing n r g).elStale = x.elStale := rfl
@[simp] theorem Die.setReg_elStale (x : Die) (k v : Nat) : (x.setReg k v).elStale = x.elStale := rfl
@[simp] theorem Die.setRf_elStale (x : Die) (k : Nat) (f : Fld) (v : Nat) : (x.setRf k f v).elStale = x.elStale := rfl
@[simp] theorem Die.count_elStale (x : Die) (k : Nat) (f : Fld) (n : Nat) : (x.count k f n).elStale = x.elStale := rfl
@[simp] theorem Die.setMapBit_elStale (x : Die) (k i : Nat) (b : Bool) : (x.setMapBit k i b).elStale = x.elStale := rfl
@[simp] theorem Die.setFn_eng (x : Die) (n : Nat) (v : Fn) : (x.setFn n v).eng = x.eng := rfl
@[simp] theorem Die.onFn_eng (x : Die) (n : Nat) (g : Fn → Fn) : (x.onFn n g).eng = x.eng := rfl
@[simp] theorem Die.onRing_eng (x : Die) (n r : Nat) (g : Ring → Ring) : (x.onRing n r g).eng = x.eng := rfl
@[simp] theorem Die.setReg_eng (x : Die) (k v : Nat) : (x.setReg k v).eng = x.eng := rfl
@[simp] theorem Die.setRf_eng (x : Die) (k : Nat) (f : Fld) (v : Nat) : (x.setRf k f v).eng = x.eng := rfl
@[simp] theorem Die.count_eng (x : Die) (k : Nat) (f : Fld) (n : Nat) : (x.count k f n).eng = x.eng := rfl
@[simp] theorem Die.setMapBit_eng (x : Die) (k i : Nat) (b : Bool) : (x.setMapBit k i b).eng = x.eng := rfl
@[simp] theorem Die.setFn_cal (x : Die) (n : Nat) (v : Fn) : (x.setFn n v).cal = x.cal := rfl
@[simp] theorem Die.onFn_cal (x : Die) (n : Nat) (g : Fn → Fn) : (x.onFn n g).cal = x.cal := rfl
@[simp] theorem Die.onRing_cal (x : Die) (n r : Nat) (g : Ring → Ring) : (x.onRing n r g).cal = x.cal := rfl
@[simp] theorem Die.setReg_cal (x : Die) (k v : Nat) : (x.setReg k v).cal = x.cal := rfl
@[simp] theorem Die.setRf_cal (x : Die) (k : Nat) (f : Fld) (v : Nat) : (x.setRf k f v).cal = x.cal := rfl
@[simp] theorem Die.count_cal (x : Die) (k : Nat) (f : Fld) (n : Nat) : (x.count k f n).cal = x.cal := rfl
@[simp] theorem Die.setMapBit_cal (x : Die) (k i : Nat) (b : Bool) : (x.setMapBit k i b).cal = x.cal := rfl
@[simp] theorem Die.setFn_net (x : Die) (n : Nat) (v : Fn) : (x.setFn n v).net = x.net := rfl
@[simp] theorem Die.onFn_net (x : Die) (n : Nat) (g : Fn → Fn) : (x.onFn n g).net = x.net := rfl
@[simp] theorem Die.onRing_net (x : Die) (n r : Nat) (g : Ring → Ring) : (x.onRing n r g).net = x.net := rfl
@[simp] theorem Die.setReg_net (x : Die) (k v : Nat) : (x.setReg k v).net = x.net := rfl
@[simp] theorem Die.setRf_net (x : Die) (k : Nat) (f : Fld) (v : Nat) : (x.setRf k f v).net = x.net := rfl
@[simp] theorem Die.count_net (x : Die) (k : Nat) (f : Fld) (n : Nat) : (x.count k f n).net = x.net := rfl
@[simp] theorem Die.setMapBit_net (x : Die) (k i : Nat) (b : Bool) : (x.setMapBit k i b).net = x.net := rfl
@[simp] theorem Die.setFn_vsp (x : Die) (n : Nat) (v : Fn) : (x.setFn n v).vsp = x.vsp := rfl
@[simp] theorem Die.onFn_vsp (x : Die) (n : Nat) (g : Fn → Fn) : (x.onFn n g).vsp = x.vsp := rfl
@[simp] theorem Die.onRing_vsp (x : Die) (n r : Nat) (g : Ring → Ring) : (x.onRing n r g).vsp = x.vsp := rfl
@[simp] theorem Die.setReg_vsp (x : Die) (k v : Nat) : (x.setReg k v).vsp = x.vsp := rfl
@[simp] theorem Die.setRf_vsp (x : Die) (k : Nat) (f : Fld) (v : Nat) : (x.setRf k f v).vsp = x.vsp := rfl
@[simp] theorem Die.count_vsp (x : Die) (k : Nat) (f : Fld) (n : Nat) : (x.count k f n).vsp = x.vsp := rfl
@[simp] theorem Die.setMapBit_vsp (x : Die) (k i : Nat) (b : Bool) : (x.setMapBit k i b).vsp = x.vsp := rfl
@[simp] theorem Die.setFn_lgd (x : Die) (n : Nat) (v : Fn) : (x.setFn n v).lgd = x.lgd := rfl
@[simp] theorem Die.onFn_lgd (x : Die) (n : Nat) (g : Fn → Fn) : (x.onFn n g).lgd = x.lgd := rfl
@[simp] theorem Die.onRing_lgd (x : Die) (n r : Nat) (g : Ring → Ring) : (x.onRing n r g).lgd = x.lgd := rfl
@[simp] theorem Die.setReg_lgd (x : Die) (k v : Nat) : (x.setReg k v).lgd = x.lgd := rfl
@[simp] theorem Die.setRf_lgd (x : Die) (k : Nat) (f : Fld) (v : Nat) : (x.setRf k f v).lgd = x.lgd := rfl
@[simp] theorem Die.count_lgd (x : Die) (k : Nat) (f : Fld) (n : Nat) : (x.count k f n).lgd = x.lgd := rfl
@[simp] theorem Die.setMapBit_lgd (x : Die) (k i : Nat) (b : Bool) : (x.setMapBit k i b).lgd = x.lgd := rfl
@[simp] theorem Die.setFn_thm (x : Die) (n : Nat) (v : Fn) : (x.setFn n v).thm = x.thm := rfl
@[simp] theorem Die.onFn_thm (x : Die) (n : Nat) (g : Fn → Fn) : (x.onFn n g).thm = x.thm := rfl
@[simp] theorem Die.onRing_thm (x : Die) (n r : Nat) (g : Ring → Ring) : (x.onRing n r g).thm = x.thm := rfl
@[simp] theorem Die.setReg_thm (x : Die) (k v : Nat) : (x.setReg k v).thm = x.thm := rfl
@[simp] theorem Die.setRf_thm (x : Die) (k : Nat) (f : Fld) (v : Nat) : (x.setRf k f v).thm = x.thm := rfl
@[simp] theorem Die.count_thm (x : Die) (k : Nat) (f : Fld) (n : Nat) : (x.count k f n).thm = x.thm := rfl
@[simp] theorem Die.setMapBit_thm (x : Die) (k i : Nat) (b : Bool) : (x.setMapBit k i b).thm = x.thm := rfl
@[simp] theorem Die.setFn_svc (x : Die) (n : Nat) (v : Fn) : (x.setFn n v).svc = x.svc := rfl
@[simp] theorem Die.onFn_svc (x : Die) (n : Nat) (g : Fn → Fn) : (x.onFn n g).svc = x.svc := rfl
@[simp] theorem Die.onRing_svc (x : Die) (n r : Nat) (g : Ring → Ring) : (x.onRing n r g).svc = x.svc := rfl
@[simp] theorem Die.setReg_svc (x : Die) (k v : Nat) : (x.setReg k v).svc = x.svc := rfl
@[simp] theorem Die.setRf_svc (x : Die) (k : Nat) (f : Fld) (v : Nat) : (x.setRf k f v).svc = x.svc := rfl
@[simp] theorem Die.count_svc (x : Die) (k : Nat) (f : Fld) (n : Nat) : (x.count k f n).svc = x.svc := rfl
@[simp] theorem Die.setMapBit_svc (x : Die) (k i : Nat) (b : Bool) : (x.setMapBit k i b).svc = x.svc := rfl
@[simp] theorem Die.setFn_mtx (x : Die) (n : Nat) (v : Fn) : (x.setFn n v).mtx = x.mtx := rfl
@[simp] theorem Die.onFn_mtx (x : Die) (n : Nat) (g : Fn → Fn) : (x.onFn n g).mtx = x.mtx := rfl
@[simp] theorem Die.onRing_mtx (x : Die) (n r : Nat) (g : Ring → Ring) : (x.onRing n r g).mtx = x.mtx := rfl
@[simp] theorem Die.setReg_mtx (x : Die) (k v : Nat) : (x.setReg k v).mtx = x.mtx := rfl
@[simp] theorem Die.setRf_mtx (x : Die) (k : Nat) (f : Fld) (v : Nat) : (x.setRf k f v).mtx = x.mtx := rfl
@[simp] theorem Die.count_mtx (x : Die) (k : Nat) (f : Fld) (n : Nat) : (x.count k f n).mtx = x.mtx := rfl
@[simp] theorem Die.setMapBit_mtx (x : Die) (k i : Nat) (b : Bool) : (x.setMapBit k i b).mtx = x.mtx := rfl
@[simp] theorem Die.setFn_aon (x : Die) (n : Nat) (v : Fn) : (x.setFn n v).aon = x.aon := rfl
@[simp] theorem Die.onFn_aon (x : Die) (n : Nat) (g : Fn → Fn) : (x.onFn n g).aon = x.aon := rfl
@[simp] theorem Die.onRing_aon (x : Die) (n r : Nat) (g : Ring → Ring) : (x.onRing n r g).aon = x.aon := rfl
@[simp] theorem Die.setReg_aon (x : Die) (k v : Nat) : (x.setReg k v).aon = x.aon := rfl
@[simp] theorem Die.setRf_aon (x : Die) (k : Nat) (f : Fld) (v : Nat) : (x.setRf k f v).aon = x.aon := rfl
@[simp] theorem Die.count_aon (x : Die) (k : Nat) (f : Fld) (n : Nat) : (x.count k f n).aon = x.aon := rfl
@[simp] theorem Die.setMapBit_aon (x : Die) (k i : Nat) (b : Bool) : (x.setMapBit k i b).aon = x.aon := rfl
@[simp] theorem Die.setFn_bankSeen (x : Die) (n : Nat) (v : Fn) : (x.setFn n v).bankSeen = x.bankSeen := rfl
@[simp] theorem Die.onFn_bankSeen (x : Die) (n : Nat) (g : Fn → Fn) : (x.onFn n g).bankSeen = x.bankSeen := rfl
@[simp] theorem Die.onRing_bankSeen (x : Die) (n r : Nat) (g : Ring → Ring) : (x.onRing n r g).bankSeen = x.bankSeen := rfl
@[simp] theorem Die.setReg_bankSeen (x : Die) (k v : Nat) : (x.setReg k v).bankSeen = x.bankSeen := rfl
@[simp] theorem Die.setRf_bankSeen (x : Die) (k : Nat) (f : Fld) (v : Nat) : (x.setRf k f v).bankSeen = x.bankSeen := rfl
@[simp] theorem Die.count_bankSeen (x : Die) (k : Nat) (f : Fld) (n : Nat) : (x.count k f n).bankSeen = x.bankSeen := rfl
@[simp] theorem Die.setMapBit_bankSeen (x : Die) (k i : Nat) (b : Bool) : (x.setMapBit k i b).bankSeen = x.bankSeen := rfl

@[simp] theorem Die.setFn_fresh (x : Die) (n : Nat) (v : Fn) : (x.setFn n v).fresh = x.fresh := rfl
@[simp] theorem Die.onFn_fresh (x : Die) (n : Nat) (g : Fn → Fn) : (x.onFn n g).fresh = x.fresh := rfl
@[simp] theorem Die.onRing_fresh (x : Die) (n r : Nat) (g : Ring → Ring) : (x.onRing n r g).fresh = x.fresh := rfl
@[simp] theorem Die.setReg_fresh (x : Die) (k v : Nat) : (x.setReg k v).fresh = x.fresh := rfl
@[simp] theorem Die.setRf_fresh (x : Die) (k : Nat) (f : Fld) (v : Nat) : (x.setRf k f v).fresh = x.fresh := rfl
@[simp] theorem Die.count_fresh (x : Die) (k : Nat) (f : Fld) (n : Nat) : (x.count k f n).fresh = x.fresh := rfl
@[simp] theorem Die.setMapBit_fresh (x : Die) (k i : Nat) (b : Bool) : (x.setMapBit k i b).fresh = x.fresh := rfl
@[simp] theorem Die.setFn_routers (x : Die) (n : Nat) (v : Fn) : (x.setFn n v).routers = x.routers := rfl
@[simp] theorem Die.onFn_routers (x : Die) (n : Nat) (g : Fn → Fn) : (x.onFn n g).routers = x.routers := rfl
@[simp] theorem Die.onRing_routers (x : Die) (n r : Nat) (g : Ring → Ring) : (x.onRing n r g).routers = x.routers := rfl
@[simp] theorem Die.setReg_routers (x : Die) (k v : Nat) : (x.setReg k v).routers = x.routers := rfl
@[simp] theorem Die.setRf_routers (x : Die) (k : Nat) (f : Fld) (v : Nat) : (x.setRf k f v).routers = x.routers := rfl
@[simp] theorem Die.count_routers (x : Die) (k : Nat) (f : Fld) (n : Nat) : (x.count k f n).routers = x.routers := rfl
@[simp] theorem Die.setMapBit_routers (x : Die) (k i : Nat) (b : Bool) : (x.setMapBit k i b).routers = x.routers := rfl
@[simp] theorem Die.freshen_life (x : Die) (k bits : Nat) : (x.freshen k bits).life = x.life := rfl
@[simp] theorem Die.freshen_regs (x : Die) (k bits : Nat) : (x.freshen k bits).regs = x.regs := rfl
@[simp] theorem Die.freshen_lowWords (x : Die) (k bits : Nat) : (x.freshen k bits).lowWords = x.lowWords := rfl
@[simp] theorem Die.freshen_fns (x : Die) (k bits : Nat) : (x.freshen k bits).fns = x.fns := rfl
@[simp] theorem Die.freshen_cmds (x : Die) (k bits : Nat) : (x.freshen k bits).cmds = x.cmds := rfl
@[simp] theorem Die.freshen_nextCmd (x : Die) (k bits : Nat) : (x.freshen k bits).nextCmd = x.nextCmd := rfl
@[simp] theorem Die.freshen_reads (x : Die) (k bits : Nat) : (x.freshen k bits).reads = x.reads := rfl
@[simp] theorem Die.freshen_nextRead (x : Die) (k bits : Nat) : (x.freshen k bits).nextRead = x.nextRead := rfl
@[simp] theorem Die.freshen_lastHigh (x : Die) (k bits : Nat) : (x.freshen k bits).lastHigh = x.lastHigh := rfl
@[simp] theorem Die.freshen_lastLow (x : Die) (k bits : Nat) : (x.freshen k bits).lastLow = x.lastLow := rfl
@[simp] theorem Die.freshen_clock (x : Die) (k bits : Nat) : (x.freshen k bits).clock = x.clock := rfl
@[simp] theorem Die.freshen_flt (x : Die) (k bits : Nat) : (x.freshen k bits).flt = x.flt := rfl
@[simp] theorem Die.freshen_red (x : Die) (k bits : Nat) : (x.freshen k bits).red = x.red := rfl
@[simp] theorem Die.freshen_trans (x : Die) (k bits : Nat) : (x.freshen k bits).trans = x.trans := rfl
@[simp] theorem Die.freshen_dealer (x : Die) (k bits : Nat) : (x.freshen k bits).dealer = x.dealer := rfl
@[simp] theorem Die.freshen_decks (x : Die) (k bits : Nat) : (x.freshen k bits).decks = x.decks := rfl
@[simp] theorem Die.freshen_planner (x : Die) (k bits : Nat) : (x.freshen k bits).planner = x.planner := rfl
@[simp] theorem Die.freshen_routers (x : Die) (k bits : Nat) : (x.freshen k bits).routers = x.routers := rfl
@[simp] theorem Die.freshen_hold (x : Die) (k bits : Nat) : (x.freshen k bits).hold = x.hold := rfl
@[simp] theorem Die.freshen_dither (x : Die) (k bits : Nat) : (x.freshen k bits).dither = x.dither := rfl
@[simp] theorem Die.freshen_elSnap (x : Die) (k bits : Nat) : (x.freshen k bits).elSnap = x.elSnap := rfl
@[simp] theorem Die.freshen_elStale (x : Die) (k bits : Nat) : (x.freshen k bits).elStale = x.elStale := rfl
@[simp] theorem Die.freshen_eng (x : Die) (k bits : Nat) : (x.freshen k bits).eng = x.eng := rfl
@[simp] theorem Die.freshen_cal (x : Die) (k bits : Nat) : (x.freshen k bits).cal = x.cal := rfl
@[simp] theorem Die.freshen_net (x : Die) (k bits : Nat) : (x.freshen k bits).net = x.net := rfl
@[simp] theorem Die.freshen_vsp (x : Die) (k bits : Nat) : (x.freshen k bits).vsp = x.vsp := rfl
@[simp] theorem Die.freshen_lgd (x : Die) (k bits : Nat) : (x.freshen k bits).lgd = x.lgd := rfl
@[simp] theorem Die.freshen_thm (x : Die) (k bits : Nat) : (x.freshen k bits).thm = x.thm := rfl
@[simp] theorem Die.freshen_svc (x : Die) (k bits : Nat) : (x.freshen k bits).svc = x.svc := rfl
@[simp] theorem Die.freshen_mtx (x : Die) (k bits : Nat) : (x.freshen k bits).mtx = x.mtx := rfl
@[simp] theorem Die.freshen_aon (x : Die) (k bits : Nat) : (x.freshen k bits).aon = x.aon := rfl
@[simp] theorem Die.freshen_bankSeen (x : Die) (k bits : Nat) : (x.freshen k bits).bankSeen = x.bankSeen := rfl
@[simp] theorem Die.setEvent_life (x : Die) (k : Nat) (f : Fld) : (x.setEvent k f).life = x.life := rfl
@[simp] theorem Die.setEvent_lowWords (x : Die) (k : Nat) (f : Fld) : (x.setEvent k f).lowWords = x.lowWords := rfl
@[simp] theorem Die.setEvent_fns (x : Die) (k : Nat) (f : Fld) : (x.setEvent k f).fns = x.fns := rfl
@[simp] theorem Die.setEvent_cmds (x : Die) (k : Nat) (f : Fld) : (x.setEvent k f).cmds = x.cmds := rfl
@[simp] theorem Die.setEvent_nextCmd (x : Die) (k : Nat) (f : Fld) : (x.setEvent k f).nextCmd = x.nextCmd := rfl
@[simp] theorem Die.setEvent_reads (x : Die) (k : Nat) (f : Fld) : (x.setEvent k f).reads = x.reads := rfl
@[simp] theorem Die.setEvent_nextRead (x : Die) (k : Nat) (f : Fld) : (x.setEvent k f).nextRead = x.nextRead := rfl
@[simp] theorem Die.setEvent_lastHigh (x : Die) (k : Nat) (f : Fld) : (x.setEvent k f).lastHigh = x.lastHigh := rfl
@[simp] theorem Die.setEvent_lastLow (x : Die) (k : Nat) (f : Fld) : (x.setEvent k f).lastLow = x.lastLow := rfl
@[simp] theorem Die.setEvent_clock (x : Die) (k : Nat) (f : Fld) : (x.setEvent k f).clock = x.clock := rfl
@[simp] theorem Die.setEvent_flt (x : Die) (k : Nat) (f : Fld) : (x.setEvent k f).flt = x.flt := rfl
@[simp] theorem Die.setEvent_red (x : Die) (k : Nat) (f : Fld) : (x.setEvent k f).red = x.red := rfl
@[simp] theorem Die.setEvent_trans (x : Die) (k : Nat) (f : Fld) : (x.setEvent k f).trans = x.trans := rfl
@[simp] theorem Die.setEvent_dealer (x : Die) (k : Nat) (f : Fld) : (x.setEvent k f).dealer = x.dealer := rfl
@[simp] theorem Die.setEvent_decks (x : Die) (k : Nat) (f : Fld) : (x.setEvent k f).decks = x.decks := rfl
@[simp] theorem Die.setEvent_planner (x : Die) (k : Nat) (f : Fld) : (x.setEvent k f).planner = x.planner := rfl
@[simp] theorem Die.setEvent_routers (x : Die) (k : Nat) (f : Fld) : (x.setEvent k f).routers = x.routers := rfl
@[simp] theorem Die.setEvent_hold (x : Die) (k : Nat) (f : Fld) : (x.setEvent k f).hold = x.hold := rfl
@[simp] theorem Die.setEvent_dither (x : Die) (k : Nat) (f : Fld) : (x.setEvent k f).dither = x.dither := rfl
@[simp] theorem Die.setEvent_elSnap (x : Die) (k : Nat) (f : Fld) : (x.setEvent k f).elSnap = x.elSnap := rfl
@[simp] theorem Die.setEvent_elStale (x : Die) (k : Nat) (f : Fld) : (x.setEvent k f).elStale = x.elStale := rfl
@[simp] theorem Die.setEvent_eng (x : Die) (k : Nat) (f : Fld) : (x.setEvent k f).eng = x.eng := rfl
@[simp] theorem Die.setEvent_cal (x : Die) (k : Nat) (f : Fld) : (x.setEvent k f).cal = x.cal := rfl
@[simp] theorem Die.setEvent_net (x : Die) (k : Nat) (f : Fld) : (x.setEvent k f).net = x.net := rfl
@[simp] theorem Die.setEvent_vsp (x : Die) (k : Nat) (f : Fld) : (x.setEvent k f).vsp = x.vsp := rfl
@[simp] theorem Die.setEvent_lgd (x : Die) (k : Nat) (f : Fld) : (x.setEvent k f).lgd = x.lgd := rfl
@[simp] theorem Die.setEvent_thm (x : Die) (k : Nat) (f : Fld) : (x.setEvent k f).thm = x.thm := rfl
@[simp] theorem Die.setEvent_svc (x : Die) (k : Nat) (f : Fld) : (x.setEvent k f).svc = x.svc := rfl
@[simp] theorem Die.setEvent_mtx (x : Die) (k : Nat) (f : Fld) : (x.setEvent k f).mtx = x.mtx := rfl
@[simp] theorem Die.setEvent_aon (x : Die) (k : Nat) (f : Fld) : (x.setEvent k f).aon = x.aon := rfl
@[simp] theorem Die.setEvent_bankSeen (x : Die) (k : Nat) (f : Fld) : (x.setEvent k f).bankSeen = x.bankSeen := rfl

@[simp] theorem Die.fn_setFn_same (x : Die) (n : Nat) (v : Fn) : (x.setFn n v).fn n = v := by simp [Die.fn, Die.setFn]
theorem Die.fn_setFn_other (x : Die) {n m : Nat} (h : m % 4 ≠ n % 4) (v : Fn) : (x.setFn n v).fn m = x.fn m := by
  simp [Die.fn, Die.setFn, Ne.symm h]
@[simp] theorem Die.fn_onFn_same (x : Die) (n : Nat) (g : Fn → Fn) : (x.onFn n g).fn n = g (x.fn n) := by simp [Die.onFn]
@[simp] theorem Die.freshen_reg (x : Die) (k bits j : Nat) : (x.freshen k bits).reg j = x.reg j := rfl
@[simp] theorem Die.fn_setReg (x : Die) (k v n : Nat) : (x.setReg k v).fn n = x.fn n := rfl
@[simp] theorem Fn.ring_setRing_same (n : Fn) (r : Nat) (g : Ring) : (n.setRing r g).ring r = g := by simp [Fn.ring, Fn.setRing]
theorem Fn.ring_setRing_other (n : Fn) {r q : Nat} (h : q ≠ r) (g : Ring) : (n.setRing r g).ring q = n.ring q := by
  simp only [Fn.ring, Fn.setRing]; exact spGet_set_other _ h _ _
@[simp] theorem Die.ring_onRing_same (x : Die) (n r : Nat) (g : Ring → Ring) : (x.onRing n r g).ring n r = g (x.ring n r) := by
  simp [Die.onRing, Die.ring]

/-! ## Registers -/

@[simp] theorem Die.reg_setFn (x : Die) (n : Nat) (v : Fn) (k : Nat) : (x.setFn n v).reg k = x.reg k := rfl
@[simp] theorem Die.reg_onFn (x : Die) (n : Nat) (g : Fn → Fn) (k : Nat) : (x.onFn n g).reg k = x.reg k := rfl
@[simp] theorem Die.reg_onRing (x : Die) (n r : Nat) (g : Ring → Ring) (k : Nat) : (x.onRing n r g).reg k = x.reg k := rfl

/-- A register word reads back as it was written, modulo 2³². -/
@[simp] theorem Die.reg_setReg_same (x : Die) (k v : Nat) : (x.setReg k v).reg k = v % 2 ^ 32 := by
  have hv : v % 2 ^ 32 < 2 ^ 32 := Nat.mod_lt _ (by decide)
  simp only [Die.reg, Die.setReg]
  generalize v % 2 ^ 32 = w at hv
  by_cases h : w = regPor k
  · simp [h, spFind_del_same]
  · simp [h]; omega

/-- Writing a register word leaves every other one. -/
theorem Die.reg_setReg_other (x : Die) {k j : Nat} (h : j ≠ k) (v : Nat) : (x.setReg k v).reg j = x.reg j := by
  simp only [Die.reg, Die.setReg]
  generalize v % 2 ^ 32 = w
  by_cases hp : w = regPor k
  · simp [hp, spFind_del_other h]
  · simp [hp, spFind_put_other h]

theorem Die.reg_setRf_other (x : Die) {k j : Nat} (h : j ≠ k) (f : Fld) (v : Nat) : (x.setRf k f v).reg j = x.reg j :=
  x.reg_setReg_other h _

theorem Die.reg_count_other (x : Die) {k j : Nat} (h : j ≠ k) (f : Fld) (n : Nat) : (x.count k f n).reg j = x.reg j :=
  x.reg_setReg_other h _

theorem Die.reg_setMapBit_other (x : Die) {k j i : Nat} (h : j ≠ k + 4 * (i / 32)) (b : Bool) : (x.setMapBit k i b).reg j = x.reg j :=
  x.reg_setReg_other h _

end Sys2Proof.Machine
end

