-- ==== Sys2Proof/Laws/Records.lean ====
section
/-!
SUPPORT. What recording leaves: raising a source, committing event and telemetry records, mirroring them and settling a state change
nothing but what `OnlyRecords` names.
-/

namespace Sys2Proof.Machine

theorem OnlyRecords.refl (s : State) : OnlyRecords s s := ⟨rfl, fun _ _ _ => rfl, fun _ _ _ => rfl, List.prefix_refl _⟩

theorem OnlyRecords.trans {s t u : State} (h : OnlyRecords s t) (k : OnlyRecords t u) : OnlyRecords s u :=
  ⟨k.quiet.trans h.quiet, fun d j hj => (k.regs d j hj).trans (h.regs d j hj), fun d f hf => (k.mode d f hf).trans (h.mode d f hf),
    h.out.trans k.out⟩

/-- Sending something outside. -/
theorem OnlyRecords.emit (s : State) (o : Out) : OnlyRecords s (s.emit o) :=
  ⟨rfl, fun d _ _ => by simp, fun d _ _ => by simp, by simp⟩

/-- A change of one die that leaves its quiet part, its other registers and the mode word. -/
theorem OnlyRecords.onDie (s : State) (d : DieId) (f : Die → Die) (hq : (f (s.die d)).quiet = (s.die d).quiet)
    (hr : ∀ k, recordKey k = false → (f (s.die d)).reg k = (s.die d).reg k)
    (hm : ∀ g ∈ modeFields, (f (s.die d)).rf Reg.RED_MODE g = (s.die d).rf Reg.RED_MODE g) : OnlyRecords s (s.onDie d f) := by
  refine ⟨?_, ?_, ?_, ?_⟩
  · cases d <;> simp [State.quiet, State.onDie, State.setDie, State.die] at hq ⊢ <;> exact hq
  · intro e k hk
    by_cases h : e = d
    · subst h; simpa using hr k hk
    · rw [State.die_onDie_other s h]
  · intro e g hg
    by_cases h : e = d
    · subst h; simpa using hm g hg
    · rw [State.die_onDie_other s h]
  · simp

/-! ## Rings -/

theorem spDel_put_same {α : Type} (k : Nat) (v : α) (l : Sparse α) : spDel k (spPut k v l) = spDel k l := by
  induction l with
  | nil => simp [spPut, spDel]
  | cons e l ih =>
    obtain ⟨k', v'⟩ := e
    by_cases h : k = k'
    · simp [spPut, spDel, h]
    · by_cases h2 : k < k' <;> simp [spPut, spDel, h, h2, ih]

theorem spDel_del_same {α : Type} (k : Nat) (l : Sparse α) : spDel k (spDel k l) = spDel k l := by
  induction l with
  | nil => simp [spDel]
  | cons e l ih =>
    obtain ⟨k', v'⟩ := e
    by_cases h : k = k'
    · subst h; simp [spDel, ih]
    · simp [spDel, h, ih]

theorem spDel_comm {α : Type} (j k : Nat) (l : Sparse α) : spDel j (spDel k l) = spDel k (spDel j l) := by
  induction l with
  | nil => simp [spDel]
  | cons e l ih =>
    obtain ⟨k', v'⟩ := e
    by_cases h1 : j = k' <;> by_cases h2 : k = k' <;> simp [spDel, h1, h2, ih]
    · subst h1; simpa using ih
    · subst h2; simpa using ih.symm ▸ rfl

theorem spDel_set_same {α : Type} [DecidableEq α] (d : α) (k : Nat) (v : α) (l : Sparse α) : spDel k (spSet d k v l) = spDel k l := by
  by_cases h : v = d <;> simp [spSet, h, spDel_put_same, spDel_del_same]

/-- A change of the event or the telemetry ring. -/
theorem Fn.quiet_setRing (n : Fn) (r : Nat) (g : Ring) (h : r = 16 ∨ r = 17) : (n.setRing r g).quiet = n.quiet := by
  rcases h with h | h <;> subst h <;> simp only [Fn.quiet, Fn.setRing]
  · rw [spDel_comm 16 17, spDel_set_same, spDel_comm 17 16]
  · rw [spDel_set_same]

theorem Die.quiet_setFn (x : Die) (f : Nat) (v : Fn) (h : v.quiet = (x.fn f).quiet) : (x.setFn f v).quiet = x.quiet := by
  have e : (x.setFn f v).fns.map Fn.quiet = x.fns.map Fn.quiet := by
    apply Vector.ext
    intro i hi
    simp only [Die.setFn, Vector.getElem_map, Vector.getElem_set]
    by_cases hj : f % 4 = i
    · subst hj; simpa [Die.fn] using h
    · simp [hj]
  simp only [Die.quiet, e]; rfl

theorem Die.quiet_onFn (x : Die) (f : Nat) (g : Fn → Fn) (h : (g (x.fn f)).quiet = (x.fn f).quiet) : (x.onFn f g).quiet = x.quiet :=
  x.quiet_setFn f _ h

theorem Die.quiet_onRing (x : Die) (f r : Nat) (g : Ring → Ring) (h : r = 16 ∨ r = 17) : (x.onRing f r g).quiet = x.quiet :=
  x.quiet_onFn f _ (Fn.quiet_setRing _ r _ h)

@[simp] theorem Die.quiet_setReg (x : Die) (k v : Nat) : (x.setReg k v).quiet = x.quiet := rfl
@[simp] theorem Die.quiet_count (x : Die) (k : Nat) (f : Fld) (n : Nat) : (x.count k f n).quiet = x.quiet := x.quiet_setReg _ _

/-- Writing a record register. -/
theorem OnlyRecords.setReg (s : State) (d : DieId) (f : Die → Die) (k v : Nat) (hk : recordKey k = true) (hm : k ≠ Reg.RED_MODE)
    (hf : f (s.die d) = (s.die d).setReg k v) : OnlyRecords s (s.onDie d f) := by
  apply OnlyRecords.onDie
  · rw [hf]; rfl
  · intro j hj
    rw [hf]
    exact Die.reg_setReg_other _ (fun e => by rw [e, hk] at hj; cases hj) _
  · intro g _
    rw [hf]
    simp only [Die.rf, Die.reg_setReg_other _ (Ne.symm hm)]

theorem OnlyRecords.onRing (s : State) (d : DieId) (f r : Nat) (g : Ring → Ring) (h : r = 16 ∨ r = 17) :
    OnlyRecords s (s.onDie d (·.onRing f r g)) :=
  OnlyRecords.onDie s d _ (Die.quiet_onRing _ f r g h) (fun _ _ => rfl) (fun _ _ => rfl)

theorem OnlyRecords.raiseVec (s : State) (d : DieId) (f v : Nat) : OnlyRecords s (raiseVec s d f v) := by
  unfold Machine.raiseVec
  simp only []
  split
  · exact OnlyRecords.onDie s d _ (Die.quiet_onFn _ f _ rfl) (fun _ _ => rfl) (fun _ _ => rfl)
  · exact OnlyRecords.emit s _

theorem OnlyRecords.raiseRing (s : State) (d : DieId) (f r : Nat) (h : r = 16 ∨ r = 17) : OnlyRecords s (raiseRing s d f r) :=
  (OnlyRecords.onRing s d f r _ h).trans (OnlyRecords.raiseVec _ d f _)

theorem OnlyRecords.coalesce (s : State) (d : DieId) (f r : Nat) (irq : Bool) (h : r = 16 ∨ r = 17) :
    OnlyRecords s (coalesce s d f r irq) := by
  unfold Machine.coalesce
  simp only
  split
  · exact (OnlyRecords.onRing s d f r _ h).trans (OnlyRecords.raiseRing _ d f r h)
  · exact OnlyRecords.onRing s d f r _ h

theorem recordKey_ringMod {f r : Nat} (hf : f < 4) (h : r = 16 ∨ r = 17) : recordKey (Reg.HIF_RING_MOD f r) = true := by
  rcases h with h | h <;> subst h <;> interval_cases f <;> decide

theorem recordKey_evLost {f : Nat} (hf : f < 4) : recordKey (Reg.HIF_EV_LOST f) = true ∧ Reg.RED_MODE ≠ Reg.HIF_EV_LOST f := by
  interval_cases f <;> decide

theorem recordKey_tmLost {f : Nat} (hf : f < 4) : recordKey (Reg.HIF_TM_LOST f) = true ∧ Reg.RED_MODE ≠ Reg.HIF_TM_LOST f := by
  interval_cases f <;> decide

theorem OnlyRecords.writeEntry (s : State) (d : DieId) (f r : Nat) (bytes : List Byte) (irq : Bool) (hf : f < 4) (h : r = 16 ∨ r = 17) :
    OnlyRecords s (writeEntry s d f r bytes irq) := by
  unfold Machine.writeEntry
  simp only
  refine OnlyRecords.trans ?_ (OnlyRecords.coalesce _ d f r irq h)
  refine OnlyRecords.trans ?_ (OnlyRecords.emit _ _)
  refine OnlyRecords.trans (OnlyRecords.emit _ _) (OnlyRecords.onDie _ d _ ?_ ?_ ?_)
  · rw [Die.quiet_setReg]; exact Die.quiet_onRing _ f r _ h
  · intro j hj
    have hk := recordKey_ringMod hf h
    rw [Die.reg_setReg_other _ (fun e => by rw [e, hk] at hj; cases hj)]; rfl
  · intro g _
    have hne : Reg.RED_MODE ≠ Reg.HIF_RING_MOD f r := by
      rcases h with h | h <;> subst h <;> interval_cases f <;> decide
    simp only [Die.rf, Die.reg_setReg_other _ hne]; rfl

/-! ## Sources and records -/

theorem Die.quiet_occur (x : Die) (src inst : Nat) (real : Bool) (n : Nat) : (x.occur src inst real n).quiet = x.quiet := by
  unfold Die.occur
  simp only
  split <;> split <;> rfl

theorem sticky_range {src : Nat} (h : src < 256) : recordKey (Reg.FLT_STICKY 0 + 4 * (src / 32)) = true ∧
    Reg.FLT_STICKY 0 + 4 * (src / 32) ≠ Reg.RED_MODE := by
  have : src / 32 < 8 := by omega
  generalize src / 32 = w at this
  interval_cases w <;> decide

theorem Die.reg_occur (x : Die) (src inst : Nat) (real : Bool) (n : Nat) (k : Nat) (h : k ≠ Reg.FLT_STICKY 0 + 4 * (src / 32)) :
    (x.occur src inst real n).reg k = x.reg k := by
  unfold Die.occur
  simp only
  split <;> split <;> exact Die.reg_setMapBit_other x h true

theorem OnlyRecords.occur (s : State) (d : DieId) (src inst : Nat) (real : Bool) (n : Nat) (h : src < 256) :
    OnlyRecords s (s.onDie d (·.occur src inst real n)) := by
  have hs := sticky_range h
  apply OnlyRecords.onDie
  · exact Die.quiet_occur _ _ _ _ _
  · intro k hk
    exact Die.reg_occur _ _ _ _ _ _ (fun e => by rw [e, hs.1] at hk; cases hk)
  · intro g _
    simp only [Die.rf, Die.reg_occur _ _ _ _ _ _ (Ne.symm hs.2)]

theorem OnlyRecords.raise (s : State) (d : DieId) (src inst : Nat) (h : src < 256) : OnlyRecords s (raise s d src inst) := by
  unfold Machine.raise
  split
  · exact OnlyRecords.occur s d src inst true _ h
  · exact OnlyRecords.refl s

theorem OnlyRecords.raiseBoth (s : State) (src inst : Nat) (h : src < 256) : OnlyRecords s (raiseBoth s src inst) :=
  (OnlyRecords.raise s .cd0 src inst h).trans (OnlyRecords.raise _ .cd1 src inst h)

theorem OnlyRecords.eventOn (s : State) (d : DieId) (type origin stamp : Nat) (p : List Byte) (f : Nat) (hf : f < 4) :
    OnlyRecords s (eventOn s d type origin stamp p f) := by
  unfold Machine.eventOn
  simp only
  split
  · exact OnlyRecords.refl s
  · split
    · refine OnlyRecords.trans ?_ (OnlyRecords.raise _ d 161 0 (by decide))
      have hk := recordKey_evLost hf
      refine OnlyRecords.trans (OnlyRecords.onRing s d f 16 _ (.inl rfl)) (OnlyRecords.onDie _ d _ ?_ ?_ ?_)
      · rw [Die.quiet_onRing _ f 16 _ (.inl rfl), Die.quiet_count]
      · intro j hj
        rw [Die.reg_onRing, Die.reg_count_other _ (fun e => by rw [e, hk.1] at hj; cases hj)]
      · intro g _
        rw [Die.rf, Die.reg_onRing, Die.reg_count_other _ hk.2, Die.rf]
    · refine OnlyRecords.trans ?_ (OnlyRecords.writeEntry _ d f 16 _ _ hf (.inl rfl))
      exact OnlyRecords.trans (OnlyRecords.onRing s d f 16 _ (.inl rfl)) (OnlyRecords.onRing _ d f 16 _ (.inl rfl))

theorem eventFns_lt (type : Nat) : ∀ f ∈ eventFns type, f < 4 := by
  unfold eventFns
  split
  · decide
  · split
    · decide
    · split
      · decide
      · split
        · decide
        · split <;> decide

theorem OnlyRecords.foldl {α : Type} (g : State → α → State) (l : List α) (h : ∀ t, ∀ a ∈ l, OnlyRecords t (g t a)) :
    ∀ s, OnlyRecords s (l.foldl g s) := by
  induction l with
  | nil => exact fun s => OnlyRecords.refl s
  | cons a l ih =>
    intro s
    exact (h s a (by simp)).trans (ih (fun t b hb => h t b (List.mem_cons_of_mem a hb)) (g s a))

theorem OnlyRecords.eventAt (s : State) (d : DieId) (type origin stamp : Nat) (p : List Byte) :
    OnlyRecords s (eventAt s d type origin stamp p) :=
  OnlyRecords.foldl _ _ (fun t f hf => OnlyRecords.eventOn t d type origin stamp p f (eventFns_lt type f hf)) s

theorem OnlyRecords.event (s : State) (d : DieId) (type : Nat) (p : List Byte) : OnlyRecords s (event s d type p) :=
  OnlyRecords.eventAt s d type _ _ p

theorem OnlyRecords.mirror (s : State) (d : DieId) (p : Payload) : OnlyRecords s (mirror s d p) := by
  unfold Machine.mirror
  split
  · exact OnlyRecords.onDie s d _ rfl (fun _ _ => rfl) (fun _ _ => rfl)
  · exact OnlyRecords.refl s

theorem OnlyRecords.eventMirrored (s : State) (d : DieId) (type origin stamp : Nat) (p : List Byte) :
    OnlyRecords s (eventMirrored s d type origin stamp p) :=
  (OnlyRecords.eventAt s d type origin stamp p).trans (OnlyRecords.mirror _ d _)

theorem OnlyRecords.mirrorReg (s : State) (d : DieId) (key : Nat) : OnlyRecords s (mirrorReg s d key) := OnlyRecords.mirror s d _

theorem OnlyRecords.telem (s : State) (d : DieId) (f ttype subid len : Nat) (p : List Byte) (hf : f < 4) :
    OnlyRecords s (telem s d f ttype subid len p) := by
  unfold Machine.telem
  simp only
  split
  · exact OnlyRecords.refl s
  · split
    · refine OnlyRecords.trans ?_ (OnlyRecords.raise _ d 162 0 (by decide))
      have hk := recordKey_tmLost hf
      refine OnlyRecords.trans (OnlyRecords.onRing s d f 17 _ (.inr rfl)) (OnlyRecords.onDie _ d _ ?_ ?_ ?_)
      · rw [Die.quiet_onRing _ f 17 _ (.inr rfl), Die.quiet_count]
      · intro j hj
        rw [Die.reg_onRing, Die.reg_count_other _ (fun e => by rw [e, hk.1] at hj; cases hj)]
      · intro g _
        rw [Die.rf, Die.reg_onRing, Die.reg_count_other _ hk.2, Die.rf]
    · refine OnlyRecords.trans ?_ (OnlyRecords.writeEntry _ d f 17 _ _ hf (.inr rfl))
      exact OnlyRecords.trans (OnlyRecords.onRing s d f 17 _ (.inr rfl)) (OnlyRecords.onRing _ d f 17 _ (.inr rfl))

/-! ## Settling -/

/-- The word that follows has the fields the overlays do not touch, when BASE stays. -/
theorem modeNext_field (old : Nat) (x : Die) {f : Fld} (hf : f ∈ modeFields) :
    fget f (modeNext old (if fget F.RED_MODE_ROLE old = 1 then withOverlays x old else old)) = fget f old := by
  have ov : ∀ g ∈ modeFields, fget g (withOverlays x old) = fget g old := by
    intro g hg
    simp only [modeFields, List.mem_cons, List.not_mem_nil, or_false] at hg
    rcases hg with h | h | h | h | h | h <;> subst h <;>
      simp only [withOverlays] <;>
      rw [fget_fput_other _ _ (by decide) (by decide) (by decide), fget_fput_other _ _ (by decide) (by decide) (by decide)]
  have hb : fget F.RED_MODE_BASE (if fget F.RED_MODE_ROLE old = 1 then withOverlays x old else old) = fget F.RED_MODE_BASE old := by
    split
    · exact ov _ (by simp [modeFields])
    · rfl
  have hv : fget f (if fget F.RED_MODE_ROLE old = 1 then withOverlays x old else old) = fget f old := by
    split
    · exact ov _ hf
    · rfl
  generalize (if fget F.RED_MODE_ROLE old = 1 then withOverlays x old else old) = v at hb hv
  unfold modeNext
  simp only [hb, if_true]
  split
  · rfl
  · rw [← hv]
    simp only [modeFields, List.mem_cons, List.not_mem_nil, or_false] at hf
    rcases hf with h | h | h | h | h | h <;> subst h
    · exact fget_fput_other F.RED_MODE_SEQ F.RED_MODE_PREV_BASE (by decide) (by decide) (by decide) _ _
    · exact fget_fput_other F.RED_MODE_SEQ F.RED_MODE_RESYNC (by decide) (by decide) (by decide) _ _
    · exact fget_fput_other F.RED_MODE_SEQ F.RED_MODE_TAKEOVER (by decide) (by decide) (by decide) _ _
    · exact fget_fput_other F.RED_MODE_SEQ F.RED_MODE_ROLE (by decide) (by decide) (by decide) _ _
    · exact fget_fput_other F.RED_MODE_SEQ F.RED_MODE_PEER_OK (by decide) (by decide) (by decide) _ _
    · exact fget_fput_other F.RED_MODE_SEQ F.RED_MODE_BASE (by decide) (by decide) (by decide) _ _

theorem OnlyRecords.setModeId (s : State) (d : DieId) : OnlyRecords s (setMode s d id) := by
  have hw : ∀ f ∈ modeFields, fget f (modeNext ((s.die d).reg Reg.RED_MODE)
      (if fget F.RED_MODE_ROLE ((s.die d).reg Reg.RED_MODE) = 1 then withOverlays (s.die d) ((s.die d).reg Reg.RED_MODE)
        else (s.die d).reg Reg.RED_MODE)) = fget f ((s.die d).reg Reg.RED_MODE) := fun f hf => modeNext_field _ _ hf
  unfold setMode
  simp only [id]
  generalize modeNext ((s.die d).reg Reg.RED_MODE) _ = w at hw
  have h1 : OnlyRecords s (s.onDie d (·.setReg Reg.RED_MODE w)) := by
    apply OnlyRecords.onDie
    · rfl
    · intro j hj
      exact Die.reg_setReg_other _ (fun e => by rw [e] at hj; revert hj; decide) _
    · intro g hg
      have hg2 := hg
      simp only [modeFields, List.mem_cons, List.not_mem_nil, or_false] at hg2
      simp only [Die.rf, Die.reg_setReg_same]
      have hb : g.lo ≤ g.hi ∧ g.hi < 32 := by rcases hg2 with h | h | h | h | h | h <;> subst h <;> decide
      rw [fget_mod g 32 w hb.1 hb.2]
      exact hw g hg
  split
  · exact OnlyRecords.refl s
  · split
    · refine OnlyRecords.trans ?_ (OnlyRecords.mirror _ d _)
      exact OnlyRecords.trans h1 (OnlyRecords.event _ d _ _)
    · exact h1

theorem levelSources_lt : ∀ i ∈ levelSources, i < 250 := by
  intro i hi
  simp only [levelSources, List.mem_filter, List.mem_range] at hi
  exact hi.1

theorem OnlyRecords.settleLevel (s : State) (d : DieId) (i : Nat) (h : i < 250) : OnlyRecords s (settleLevel s d i) := by
  have hs := sticky_range (show i < 256 by omega)
  unfold Machine.settleLevel
  simp only
  split
  · apply OnlyRecords.onDie
    · exact (Die.quiet_occur (s.die d) i _ true _)
    · intro k hk
      exact Die.reg_occur _ _ _ _ _ _ (fun e => by rw [e, hs.1] at hk; cases hk)
    · intro g _
      exact congrArg (fget g) (Die.reg_occur _ _ _ _ _ _ (Ne.symm hs.2))
  · split
    · exact OnlyRecords.onDie s d _ rfl (fun _ _ => rfl) (fun _ _ => rfl)
    · exact OnlyRecords.refl s

theorem OnlyRecords.settleDie (s : State) (d : DieId) : OnlyRecords s (settleDie s d) := by
  unfold Machine.settleDie
  split
  · refine OnlyRecords.trans ?_ (OnlyRecords.trans (OnlyRecords.foldl _ _ (fun t i hi => OnlyRecords.settleLevel t d i (levelSources_lt i hi)) _)
      (OnlyRecords.setModeId _ d))
    exact OnlyRecords.onDie s d _ rfl (fun _ _ => rfl) (fun _ _ => rfl)
  · exact OnlyRecords.refl s

/-- Settling a state changes nothing but records. -/
theorem OnlyRecords.settle (s : State) : OnlyRecords s (settle s) :=
  (OnlyRecords.settleDie s .cd0).trans (OnlyRecords.settleDie _ .cd1)

end Sys2Proof.Machine
end

