-- ==== Sys2Proof/Laws/Messages.lean ====
section
/-!
SUPPORT. Messages at a bank die: comparing the copies of a message changes only what `State.uncompared` takes away, so that what an
accepted message does is what its own effect does.
-/

namespace Sys2Proof.Machine

theorem Makes.intro {c : Instr} {s s' u : State} (h : exec c s = done u) (k : OnlyRecords s' u) : Makes c s s' :=
  ⟨settle u, h, k.trans (OnlyRecords.settle u)⟩

theorem Makes.of_done {c : Instr} {s u : State} (h : exec c s = done u) : Makes c s u := Makes.intro h (OnlyRecords.refl u)

/-- A row that a running die carries out. -/
theorem Makes.of_doneUp {c : Instr} {d : DieId} {f : State → State} {s : State} (hr : (s.die d).running = true)
    (h : exec c s = doneUp d f s) : Makes c s (f s) := by
  apply Makes.of_done
  rw [h, doneUp, if_pos hr]

/-- The same change of a bank die on both sides. -/
theorem OnlyRecords.setBank_congr {s t : State} (h : OnlyRecords s t) (b : Nat) (k : Bank) :
    OnlyRecords (s.setBank b k) (t.setBank b k) := by
  refine ⟨?_, ?_, ?_, ?_⟩
  · exact congrArg (fun q : State => q.setBank b k) h.quiet
  · intro d j hj; simpa using h.regs d j hj
  · intro d g hg; simpa using h.mode d g hg
  · simpa using h.out

theorem OnlyRecords.emit_congr {s t : State} (h : OnlyRecords s t) (ho : t.out = s.out) (o : Out) : OnlyRecords (s.emit o) (t.emit o) := by
  refine ⟨?_, ?_, ?_, ?_⟩
  · exact h.quiet
  · intro d j hj; simpa using h.regs d j hj
  · intro d g hg; simpa using h.mode d g hg
  · simp [State.emit, ho]

theorem State.uncompared_quiet (s : State) (b : Nat) : (s.uncompared b).quiet = (s.quiet).uncompared b := rfl

theorem OnlyRecords.uncompared {s t : State} (h : OnlyRecords s t) (b : Nat) : OnlyRecords (s.uncompared b) (t.uncompared b) := by
  refine ⟨?_, ?_, ?_, ?_⟩
  · rw [State.uncompared_quiet, State.uncompared_quiet, h.quiet]
  · intro d j hj; cases d
    · exact h.regs .cd0 j hj
    · exact h.regs .cd1 j hj
  · intro d g hg; cases d
    · exact h.mode .cd0 g hg
    · exact h.mode .cd1 g hg
  · simpa [State.uncompared] using h.out

@[simp] theorem State.bank_uncompared (s : State) (b : Nat) : (s.uncompared b).bank b = (s.bank b).uncompared := by
  simp [State.uncompared]

theorem State.uncompared_onBank (s : State) (b : Nat) (f : Bank → Bank) :
    (s.onBank b f).uncompared b = (s.uncompared b).setBank b (f (s.bank b)).uncompared := by
  simp [State.uncompared, State.onBank, State.onDie, State.setDie, State.setBank, State.bank, State.die]

theorem State.uncompared_onDie (s : State) (b : Nat) (d : DieId) (f : Die → Die) (h : (f (s.die d)).uncompared = (s.die d).uncompared) :
    (s.onDie d f).uncompared b = s.uncompared b := by
  cases d <;> simp only [State.uncompared, State.onBank, State.onDie, State.setDie, State.setBank, State.bank, State.die] at h ⊢ <;> rw [h]

/-- Changes of bank die b that come to the same but for the comparison of copies. -/
theorem OnlyRecords.uncompared_onBank {s t : State} {b : Nat} (h : OnlyRecords (s.uncompared b) (t.uncompared b)) (f g : Bank → Bank)
    (hfg : (f (s.bank b)).uncompared = (g (t.bank b)).uncompared) :
    OnlyRecords ((s.onBank b f).uncompared b) ((t.onBank b g).uncompared b) := by
  rw [State.uncompared_onBank, State.uncompared_onBank, hfg]
  exact OnlyRecords.setBank_congr h b _

theorem OnlyRecords.uncompared_bank {s t : State} {b : Nat} (h : OnlyRecords (s.uncompared b) (t.uncompared b)) :
    (s.bank b).uncompared = (t.bank b).uncompared := by
  have e := congrArg (fun q : State => q.bank b) h.quiet
  have f (q : State) : (q.uncompared b).quiet.bank b = (q.bank b).uncompared := State.bank_uncompared q b
  simp only [f] at e
  exact e.symm

/-- Changes of bank die b that leave it as it is but for the comparison of copies. -/
theorem OnlyRecords.uncompared_same (s : State) (b : Nat) (f : Bank → Bank) (h : (f (s.bank b)).uncompared = (s.bank b).uncompared) :
    OnlyRecords (s.uncompared b) ((s.onBank b f).uncompared b) := by
  have e : s = s.onBank b id := by simp [State.onBank, State.setBank, State.bank]
  conv => lhs; rw [e]
  exact OnlyRecords.uncompared_onBank (OnlyRecords.refl _) id f h.symm

/-- A difference is counted. -/
theorem OnlyRecords.noteDiff (s : State) (d : DieId) (b src : Nat) (h : src < 256) :
    OnlyRecords (s.uncompared b) ((noteDiff s d src).uncompared b) := by
  unfold Machine.noteDiff
  simp only []
  rw [State.uncompared_onDie _ _ _ _ rfl]
  exact (OnlyRecords.raise s d src 0 h).uncompared b

theorem OnlyRecords.bankDiff (s : State) (b : Nat) (m : Bool) : OnlyRecords (s.uncompared b) ((bankDiff s b m).uncompared b) := by
  unfold Machine.bankDiff
  simp only []
  have h1 : OnlyRecords (s.uncompared b) ((((s.onBank b (fun k =>
      if m then { k with missing := satAdd 16 k.missing 1 } else { k with mismatch := satAdd 16 k.mismatch 1 })).onDie .cd0
        (·.addTotal (if m then 3 else 2))).onDie .cd1 (·.addTotal (if m then 3 else 2))).uncompared b) := by
    rw [State.uncompared_onDie _ _ _ _ rfl, State.uncompared_onDie _ _ _ _ rfl]
    exact OnlyRecords.uncompared_same s b _ (by cases m <;> rfl)
  split
  · exact h1.trans (OnlyRecords.noteDiff _ _ b _ (by cases m <;> decide))
  · exact h1

/-- Comparing the copies of a message. -/
theorem OnlyRecords.compareCopy (s : State) (p : DieId) (b kind elem u : Nat) (fields : List Nat) :
    OnlyRecords (s.uncompared b) ((compareCopy s p b kind elem u fields).uncompared b) := by
  unfold Machine.compareCopy
  simp only []
  split
  · exact OnlyRecords.refl _
  · split
    · split
      · exact OnlyRecords.uncompared_same s b _ rfl
      · exact (OnlyRecords.uncompared_same s b _ rfl).trans (OnlyRecords.bankDiff _ b false)
    · exact OnlyRecords.uncompared_same s b _ rfl

/-- What an accepted message of the holder does at its bank die: the bank die has received it, and g is its effect. -/
theorem MakesAt.of_holderMsg {c : Instr} {s : State} {p : DieId} {b kind elem u : Nat} {fields : List Nat} {drive : Bool} {f : State → State}
    (g : Bank → Bank) (hu : (s.bank b).up p = true) (ha : (s.bank b).accepts p s.ticks = true)
    (he : exec c s = done (holderMsg s p b kind elem u fields drive f))
    (hf : ∀ t, (t.bank b).uncompared = ((s.bank b).receive p s.ticks drive).uncompared → t.ticks = s.ticks →
      OnlyRecords ((t.onBank b g).uncompared b) ((f t).uncompared b))
    (hg : ∀ k k' : Bank, k.uncompared = k'.uncompared → (g k).uncompared = (g k').uncompared) :
    MakesAt b c s (s.onBank b (fun k => g (k.receive p s.ticks drive))) := by
  refine ⟨_, he, OnlyRecords.trans ?_ ((OnlyRecords.settle _).uncompared b)⟩
  unfold holderMsg
  simp only [hu, ha, Bool.not_true, if_true, Bool.false_eq_true, if_false]
  have hc := OnlyRecords.compareCopy (s.onBank b (·.receive p s.ticks drive)) p b kind elem u fields
  have hb := (OnlyRecords.uncompared_bank hc).symm
  have hq := congrArg State.ticks hc.quiet
  have ht : (Machine.compareCopy (s.onBank b (·.receive p s.ticks drive)) p b kind elem u fields).ticks = s.ticks := by exact hq
  clear hq
  generalize Machine.compareCopy _ p b kind elem u fields = t at hc hb ht
  simp only [State.bank_onBank_same] at hb
  refine OnlyRecords.trans ?_ (hf t hb ht)
  have e : s.onBank b (fun k => g (k.receive p s.ticks drive)) = (s.onBank b (·.receive p s.ticks drive)).onBank b g := by
    simp [State.onBank, State.setBank, State.bank]
  rw [e]
  refine OnlyRecords.uncompared_onBank hc g g (hg _ _ ?_)
  rw [State.bank_onBank_same]; exact hb.symm

end Sys2Proof.Machine
end

