-- ==== Sys2Proof/Laws/Parts.lean ====
section
/-!
SUPPORT. Updates of one part of a die, one lemma a field and an update: the part takes the new value and every other field stays.
-/

namespace Sys2Proof.Machine

@[simp] theorem Die.onEng_life (x : Die) (f : Engines → Engines) : (x.onEng f).life = x.life := rfl
@[simp] theorem Die.onEng_regs (x : Die) (f : Engines → Engines) : (x.onEng f).regs = x.regs := rfl
@[simp] theorem Die.onEng_fresh (x : Die) (f : Engines → Engines) : (x.onEng f).fresh = x.fresh := rfl
@[simp] theorem Die.onEng_lowWords (x : Die) (f : Engines → Engines) : (x.onEng f).lowWords = x.lowWords := rfl
@[simp] theorem Die.onEng_fns (x : Die) (f : Engines → Engines) : (x.onEng f).fns = x.fns := rfl
@[simp] theorem Die.onEng_cmds (x : Die) (f : Engines → Engines) : (x.onEng f).cmds = x.cmds := rfl
@[simp] theorem Die.onEng_nextCmd (x : Die) (f : Engines → Engines) : (x.onEng f).nextCmd = x.nextCmd := rfl
@[simp] theorem Die.onEng_reads (x : Die) (f : Engines → Engines) : (x.onEng f).reads = x.reads := rfl
@[simp] theorem Die.onEng_nextRead (x : Die) (f : Engines → Engines) : (x.onEng f).nextRead = x.nextRead := rfl
@[simp] theorem Die.onEng_lastHigh (x : Die) (f : Engines → Engines) : (x.onEng f).lastHigh = x.lastHigh := rfl
@[simp] theorem Die.onEng_lastLow (x : Die) (f : Engines → Engines) : (x.onEng f).lastLow = x.lastLow := rfl
@[simp] theorem Die.onEng_clock (x : Die) (f : Engines → Engines) : (x.onEng f).clock = x.clock := rfl
@[simp] theorem Die.onEng_flt (x : Die) (f : Engines → Engines) : (x.onEng f).flt = x.flt := rfl
@[simp] theorem Die.onEng_red (x : Die) (f : Engines → Engines) : (x.onEng f).red = x.red := rfl
@[simp] theorem Die.onEng_trans (x : Die) (f : Engines → Engines) : (x.onEng f).trans = x.trans := rfl
@[simp] theorem Die.onEng_dealer (x : Die) (f : Engines → Engines) : (x.onEng f).dealer = x.dealer := rfl
@[simp] theorem Die.onEng_decks (x : Die) (f : Engines → Engines) : (x.onEng f).decks = x.decks := rfl
@[simp] theorem Die.onEng_planner (x : Die) (f : Engines → Engines) : (x.onEng f).planner = x.planner := rfl
@[simp] theorem Die.onEng_routers (x : Die) (f : Engines → Engines) : (x.onEng f).routers = x.routers := rfl
@[simp] theorem Die.onEng_hold (x : Die) (f : Engines → Engines) : (x.onEng f).hold = x.hold := rfl
@[simp] theorem Die.onEng_dither (x : Die) (f : Engines → Engines) : (x.onEng f).dither = x.dither := rfl
@[simp] theorem Die.onEng_elSnap (x : Die) (f : Engines → Engines) : (x.onEng f).elSnap = x.elSnap := rfl
@[simp] theorem Die.onEng_elStale (x : Die) (f : Engines → Engines) : (x.onEng f).elStale = x.elStale := rfl
@[simp] theorem Die.onEng_eng (x : Die) (f : Engines → Engines) : (x.onEng f).eng = f x.eng := rfl
@[simp] theorem Die.onEng_cal (x : Die) (f : Engines → Engines) : (x.onEng f).cal = x.cal := rfl
@[simp] theorem Die.onEng_net (x : Die) (f : Engines → Engines) : (x.onEng f).net = x.net := rfl
@[simp] theorem Die.onEng_vsp (x : Die) (f : Engines → Engines) : (x.onEng f).vsp = x.vsp := rfl
@[simp] theorem Die.onEng_lgd (x : Die) (f : Engines → Engines) : (x.onEng f).lgd = x.lgd := rfl
@[simp] theorem Die.onEng_thm (x : Die) (f : Engines → Engines) : (x.onEng f).thm = x.thm := rfl
@[simp] theorem Die.onEng_svc (x : Die) (f : Engines → Engines) : (x.onEng f).svc = x.svc := rfl
@[simp] theorem Die.onEng_mtx (x : Die) (f : Engines → Engines) : (x.onEng f).mtx = x.mtx := rfl
@[simp] theorem Die.onEng_aon (x : Die) (f : Engines → Engines) : (x.onEng f).aon = x.aon := rfl
@[simp] theorem Die.onEng_bankSeen (x : Die) (f : Engines → Engines) : (x.onEng f).bankSeen = x.bankSeen := rfl
@[simp] theorem Die.onEng_reg (x : Die) (f : Engines → Engines) (k : Nat) : (x.onEng f).reg k = x.reg k := rfl

@[simp] theorem Die.onRed_life (x : Die) (f : Red → Red) : (x.onRed f).life = x.life := rfl
@[simp] theorem Die.onRed_regs (x : Die) (f : Red → Red) : (x.onRed f).regs = x.regs := rfl
@[simp] theorem Die.onRed_fresh (x : Die) (f : Red → Red) : (x.onRed f).fresh = x.fresh := rfl
@[simp] theorem Die.onRed_lowWords (x : Die) (f : Red → Red) : (x.onRed f).lowWords = x.lowWords := rfl
@[simp] theorem Die.onRed_fns (x : Die) (f : Red → Red) : (x.onRed f).fns = x.fns := rfl
@[simp] theorem Die.onRed_cmds (x : Die) (f : Red → Red) : (x.onRed f).cmds = x.cmds := rfl
@[simp] theorem Die.onRed_nextCmd (x : Die) (f : Red → Red) : (x.onRed f).nextCmd = x.nextCmd := rfl
@[simp] theorem Die.onRed_reads (x : Die) (f : Red → Red) : (x.onRed f).reads = x.reads := rfl
@[simp] theorem Die.onRed_nextRead (x : Die) (f : Red → Red) : (x.onRed f).nextRead = x.nextRead := rfl
@[simp] theorem Die.onRed_lastHigh (x : Die) (f : Red → Red) : (x.onRed f).lastHigh = x.lastHigh := rfl
@[simp] theorem Die.onRed_lastLow (x : Die) (f : Red → Red) : (x.onRed f).lastLow = x.lastLow := rfl
@[simp] theorem Die.onRed_clock (x : Die) (f : Red → Red) : (x.onRed f).clock = x.clock := rfl
@[simp] theorem Die.onRed_flt (x : Die) (f : Red → Red) : (x.onRed f).flt = x.flt := rfl
@[simp] theorem Die.onRed_red (x : Die) (f : Red → Red) : (x.onRed f).red = f x.red := rfl
@[simp] theorem Die.onRed_trans (x : Die) (f : Red → Red) : (x.onRed f).trans = x.trans := rfl
@[simp] theorem Die.onRed_dealer (x : Die) (f : Red → Red) : (x.onRed f).dealer = x.dealer := rfl
@[simp] theorem Die.onRed_decks (x : Die) (f : Red → Red) : (x.onRed f).decks = x.decks := rfl
@[simp] theorem Die.onRed_planner (x : Die) (f : Red → Red) : (x.onRed f).planner = x.planner := rfl
@[simp] theorem Die.onRed_routers (x : Die) (f : Red → Red) : (x.onRed f).routers = x.routers := rfl
@[simp] theorem Die.onRed_hold (x : Die) (f : Red → Red) : (x.onRed f).hold = x.hold := rfl
@[simp] theorem Die.onRed_dither (x : Die) (f : Red → Red) : (x.onRed f).dither = x.dither := rfl
@[simp] theorem Die.onRed_elSnap (x : Die) (f : Red → Red) : (x.onRed f).elSnap = x.elSnap := rfl
@[simp] theorem Die.onRed_elStale (x : Die) (f : Red → Red) : (x.onRed f).elStale = x.elStale := rfl
@[simp] theorem Die.onRed_eng (x : Die) (f : Red → Red) : (x.onRed f).eng = x.eng := rfl
@[simp] theorem Die.onRed_cal (x : Die) (f : Red → Red) : (x.onRed f).cal = x.cal := rfl
@[simp] theorem Die.onRed_net (x : Die) (f : Red → Red) : (x.onRed f).net = x.net := rfl
@[simp] theorem Die.onRed_vsp (x : Die) (f : Red → Red) : (x.onRed f).vsp = x.vsp := rfl
@[simp] theorem Die.onRed_lgd (x : Die) (f : Red → Red) : (x.onRed f).lgd = x.lgd := rfl
@[simp] theorem Die.onRed_thm (x : Die) (f : Red → Red) : (x.onRed f).thm = x.thm := rfl
@[simp] theorem Die.onRed_svc (x : Die) (f : Red → Red) : (x.onRed f).svc = x.svc := rfl
@[simp] theorem Die.onRed_mtx (x : Die) (f : Red → Red) : (x.onRed f).mtx = x.mtx := rfl
@[simp] theorem Die.onRed_aon (x : Die) (f : Red → Red) : (x.onRed f).aon = x.aon := rfl
@[simp] theorem Die.onRed_bankSeen (x : Die) (f : Red → Red) : (x.onRed f).bankSeen = x.bankSeen := rfl
@[simp] theorem Die.onRed_reg (x : Die) (f : Red → Red) (k : Nat) : (x.onRed f).reg k = x.reg k := rfl

@[simp] theorem Die.onElem_life (x : Die) (e : Nat) (f : Elem → Elem) : (x.onElem e f).life = x.life := rfl
@[simp] theorem Die.onElem_regs (x : Die) (e : Nat) (f : Elem → Elem) : (x.onElem e f).regs = x.regs := rfl
@[simp] theorem Die.onElem_fresh (x : Die) (e : Nat) (f : Elem → Elem) : (x.onElem e f).fresh = x.fresh := rfl
@[simp] theorem Die.onElem_lowWords (x : Die) (e : Nat) (f : Elem → Elem) : (x.onElem e f).lowWords = x.lowWords := rfl
@[simp] theorem Die.onElem_fns (x : Die) (e : Nat) (f : Elem → Elem) : (x.onElem e f).fns = x.fns := rfl
@[simp] theorem Die.onElem_cmds (x : Die) (e : Nat) (f : Elem → Elem) : (x.onElem e f).cmds = x.cmds := rfl
@[simp] theorem Die.onElem_nextCmd (x : Die) (e : Nat) (f : Elem → Elem) : (x.onElem e f).nextCmd = x.nextCmd := rfl
@[simp] theorem Die.onElem_reads (x : Die) (e : Nat) (f : Elem → Elem) : (x.onElem e f).reads = x.reads := rfl
@[simp] theorem Die.onElem_nextRead (x : Die) (e : Nat) (f : Elem → Elem) : (x.onElem e f).nextRead = x.nextRead := rfl
@[simp] theorem Die.onElem_lastHigh (x : Die) (e : Nat) (f : Elem → Elem) : (x.onElem e f).lastHigh = x.lastHigh := rfl
@[simp] theorem Die.onElem_lastLow (x : Die) (e : Nat) (f : Elem → Elem) : (x.onElem e f).lastLow = x.lastLow := rfl
@[simp] theorem Die.onElem_clock (x : Die) (e : Nat) (f : Elem → Elem) : (x.onElem e f).clock = x.clock := rfl
@[simp] theorem Die.onElem_flt (x : Die) (e : Nat) (f : Elem → Elem) : (x.onElem e f).flt = x.flt := rfl
@[simp] theorem Die.onElem_red (x : Die) (e : Nat) (f : Elem → Elem) : (x.onElem e f).red = x.red := rfl
@[simp] theorem Die.onElem_trans (x : Die) (e : Nat) (f : Elem → Elem) : (x.onElem e f).trans = x.trans := rfl
@[simp] theorem Die.onElem_dealer (x : Die) (e : Nat) (f : Elem → Elem) : (x.onElem e f).dealer = x.dealer := rfl
@[simp] theorem Die.onElem_decks (x : Die) (e : Nat) (f : Elem → Elem) : (x.onElem e f).decks = x.decks := rfl
@[simp] theorem Die.onElem_planner (x : Die) (e : Nat) (f : Elem → Elem) : (x.onElem e f).planner = x.planner := rfl
@[simp] theorem Die.onElem_routers (x : Die) (e : Nat) (f : Elem → Elem) : (x.onElem e f).routers = x.routers := rfl
@[simp] theorem Die.onElem_dither (x : Die) (e : Nat) (f : Elem → Elem) : (x.onElem e f).dither = x.dither := rfl
@[simp] theorem Die.onElem_elSnap (x : Die) (e : Nat) (f : Elem → Elem) : (x.onElem e f).elSnap = x.elSnap := rfl
@[simp] theorem Die.onElem_elStale (x : Die) (e : Nat) (f : Elem → Elem) : (x.onElem e f).elStale = x.elStale := rfl
@[simp] theorem Die.onElem_eng (x : Die) (e : Nat) (f : Elem → Elem) : (x.onElem e f).eng = x.eng := rfl
@[simp] theorem Die.onElem_cal (x : Die) (e : Nat) (f : Elem → Elem) : (x.onElem e f).cal = x.cal := rfl
@[simp] theorem Die.onElem_net (x : Die) (e : Nat) (f : Elem → Elem) : (x.onElem e f).net = x.net := rfl
@[simp] theorem Die.onElem_vsp (x : Die) (e : Nat) (f : Elem → Elem) : (x.onElem e f).vsp = x.vsp := rfl
@[simp] theorem Die.onElem_lgd (x : Die) (e : Nat) (f : Elem → Elem) : (x.onElem e f).lgd = x.lgd := rfl
@[simp] theorem Die.onElem_thm (x : Die) (e : Nat) (f : Elem → Elem) : (x.onElem e f).thm = x.thm := rfl
@[simp] theorem Die.onElem_svc (x : Die) (e : Nat) (f : Elem → Elem) : (x.onElem e f).svc = x.svc := rfl
@[simp] theorem Die.onElem_mtx (x : Die) (e : Nat) (f : Elem → Elem) : (x.onElem e f).mtx = x.mtx := rfl
@[simp] theorem Die.onElem_aon (x : Die) (e : Nat) (f : Elem → Elem) : (x.onElem e f).aon = x.aon := rfl
@[simp] theorem Die.onElem_bankSeen (x : Die) (e : Nat) (f : Elem → Elem) : (x.onElem e f).bankSeen = x.bankSeen := rfl
@[simp] theorem Die.onElem_reg (x : Die) (e : Nat) (f : Elem → Elem) (k : Nat) : (x.onElem e f).reg k = x.reg k := rfl

@[simp] theorem Die.onRouters_life (x : Die) (f : Routers → Routers) : (x.onRouters f).life = x.life := rfl
@[simp] theorem Die.onRouters_regs (x : Die) (f : Routers → Routers) : (x.onRouters f).regs = x.regs := rfl
@[simp] theorem Die.onRouters_fresh (x : Die) (f : Routers → Routers) : (x.onRouters f).fresh = x.fresh := rfl
@[simp] theorem Die.onRouters_lowWords (x : Die) (f : Routers → Routers) : (x.onRouters f).lowWords = x.lowWords := rfl
@[simp] theorem Die.onRouters_fns (x : Die) (f : Routers → Routers) : (x.onRouters f).fns = x.fns := rfl
@[simp] theorem Die.onRouters_cmds (x : Die) (f : Routers → Routers) : (x.onRouters f).cmds = x.cmds := rfl
@[simp] theorem Die.onRouters_nextCmd (x : Die) (f : Routers → Routers) : (x.onRouters f).nextCmd = x.nextCmd := rfl
@[simp] theorem Die.onRouters_reads (x : Die) (f : Routers → Routers) : (x.onRouters f).reads = x.reads := rfl
@[simp] theorem Die.onRouters_nextRead (x : Die) (f : Routers → Routers) : (x.onRouters f).nextRead = x.nextRead := rfl
@[simp] theorem Die.onRouters_lastHigh (x : Die) (f : Routers → Routers) : (x.onRouters f).lastHigh = x.lastHigh := rfl
@[simp] theorem Die.onRouters_lastLow (x : Die) (f : Routers → Routers) : (x.onRouters f).lastLow = x.lastLow := rfl
@[simp] theorem Die.onRouters_clock (x : Die) (f : Routers → Routers) : (x.onRouters f).clock = x.clock := rfl
@[simp] theorem Die.onRouters_flt (x : Die) (f : Routers → Routers) : (x.onRouters f).flt = x.flt := rfl
@[simp] theorem Die.onRouters_red (x : Die) (f : Routers → Routers) : (x.onRouters f).red = x.red := rfl
@[simp] theorem Die.onRouters_trans (x : Die) (f : Routers → Routers) : (x.onRouters f).trans = x.trans := rfl
@[simp] theorem Die.onRouters_dealer (x : Die) (f : Routers → Routers) : (x.onRouters f).dealer = x.dealer := rfl
@[simp] theorem Die.onRouters_decks (x : Die) (f : Routers → Routers) : (x.onRouters f).decks = x.decks := rfl
@[simp] theorem Die.onRouters_planner (x : Die) (f : Routers → Routers) : (x.onRouters f).planner = x.planner := rfl
@[simp] theorem Die.onRouters_hold (x : Die) (f : Routers → Routers) : (x.onRouters f).hold = x.hold := rfl
@[simp] theorem Die.onRouters_dither (x : Die) (f : Routers → Routers) : (x.onRouters f).dither = x.dither := rfl
@[simp] theorem Die.onRouters_elSnap (x : Die) (f : Routers → Routers) : (x.onRouters f).elSnap = x.elSnap := rfl
@[simp] theorem Die.onRouters_elStale (x : Die) (f : Routers → Routers) : (x.onRouters f).elStale = x.elStale := rfl
@[simp] theorem Die.onRouters_eng (x : Die) (f : Routers → Routers) : (x.onRouters f).eng = x.eng := rfl
@[simp] theorem Die.onRouters_cal (x : Die) (f : Routers → Routers) : (x.onRouters f).cal = x.cal := rfl
@[simp] theorem Die.onRouters_net (x : Die) (f : Routers → Routers) : (x.onRouters f).net = x.net := rfl
@[simp] theorem Die.onRouters_vsp (x : Die) (f : Routers → Routers) : (x.onRouters f).vsp = x.vsp := rfl
@[simp] theorem Die.onRouters_lgd (x : Die) (f : Routers → Routers) : (x.onRouters f).lgd = x.lgd := rfl
@[simp] theorem Die.onRouters_thm (x : Die) (f : Routers → Routers) : (x.onRouters f).thm = x.thm := rfl
@[simp] theorem Die.onRouters_svc (x : Die) (f : Routers → Routers) : (x.onRouters f).svc = x.svc := rfl
@[simp] theorem Die.onRouters_mtx (x : Die) (f : Routers → Routers) : (x.onRouters f).mtx = x.mtx := rfl
@[simp] theorem Die.onRouters_aon (x : Die) (f : Routers → Routers) : (x.onRouters f).aon = x.aon := rfl
@[simp] theorem Die.onRouters_bankSeen (x : Die) (f : Routers → Routers) : (x.onRouters f).bankSeen = x.bankSeen := rfl
@[simp] theorem Die.onRouters_reg (x : Die) (f : Routers → Routers) (k : Nat) : (x.onRouters f).reg k = x.reg k := rfl

@[simp] theorem Die.onLgd_life (x : Die) (f : Lgd → Lgd) : (x.onLgd f).life = x.life := rfl
@[simp] theorem Die.onLgd_regs (x : Die) (f : Lgd → Lgd) : (x.onLgd f).regs = x.regs := rfl
@[simp] theorem Die.onLgd_fresh (x : Die) (f : Lgd → Lgd) : (x.onLgd f).fresh = x.fresh := rfl
@[simp] theorem Die.onLgd_lowWords (x : Die) (f : Lgd → Lgd) : (x.onLgd f).lowWords = x.lowWords := rfl
@[simp] theorem Die.onLgd_fns (x : Die) (f : Lgd → Lgd) : (x.onLgd f).fns = x.fns := rfl
@[simp] theorem Die.onLgd_cmds (x : Die) (f : Lgd → Lgd) : (x.onLgd f).cmds = x.cmds := rfl
@[simp] theorem Die.onLgd_nextCmd (x : Die) (f : Lgd → Lgd) : (x.onLgd f).nextCmd = x.nextCmd := rfl
@[simp] theorem Die.onLgd_reads (x : Die) (f : Lgd → Lgd) : (x.onLgd f).reads = x.reads := rfl
@[simp] theorem Die.onLgd_nextRead (x : Die) (f : Lgd → Lgd) : (x.onLgd f).nextRead = x.nextRead := rfl
@[simp] theorem Die.onLgd_lastHigh (x : Die) (f : Lgd → Lgd) : (x.onLgd f).lastHigh = x.lastHigh := rfl
@[simp] theorem Die.onLgd_lastLow (x : Die) (f : Lgd → Lgd) : (x.onLgd f).lastLow = x.lastLow := rfl
@[simp] theorem Die.onLgd_clock (x : Die) (f : Lgd → Lgd) : (x.onLgd f).clock = x.clock := rfl
@[simp] theorem Die.onLgd_flt (x : Die) (f : Lgd → Lgd) : (x.onLgd f).flt = x.flt := rfl
@[simp] theorem Die.onLgd_red (x : Die) (f : Lgd → Lgd) : (x.onLgd f).red = x.red := rfl
@[simp] theorem Die.onLgd_trans (x : Die) (f : Lgd → Lgd) : (x.onLgd f).trans = x.trans := rfl
@[simp] theorem Die.onLgd_dealer (x : Die) (f : Lgd → Lgd) : (x.onLgd f).dealer = x.dealer := rfl
@[simp] theorem Die.onLgd_decks (x : Die) (f : Lgd → Lgd) : (x.onLgd f).decks = x.decks := rfl
@[simp] theorem Die.onLgd_planner (x : Die) (f : Lgd → Lgd) : (x.onLgd f).planner = x.planner := rfl
@[simp] theorem Die.onLgd_routers (x : Die) (f : Lgd → Lgd) : (x.onLgd f).routers = x.routers := rfl
@[simp] theorem Die.onLgd_hold (x : Die) (f : Lgd → Lgd) : (x.onLgd f).hold = x.hold := rfl
@[simp] theorem Die.onLgd_dither (x : Die) (f : Lgd → Lgd) : (x.onLgd f).dither = x.dither := rfl
@[simp] theorem Die.onLgd_elSnap (x : Die) (f : Lgd → Lgd) : (x.onLgd f).elSnap = x.elSnap := rfl
@[simp] theorem Die.onLgd_elStale (x : Die) (f : Lgd → Lgd) : (x.onLgd f).elStale = x.elStale := rfl
@[simp] theorem Die.onLgd_eng (x : Die) (f : Lgd → Lgd) : (x.onLgd f).eng = x.eng := rfl
@[simp] theorem Die.onLgd_cal (x : Die) (f : Lgd → Lgd) : (x.onLgd f).cal = x.cal := rfl
@[simp] theorem Die.onLgd_net (x : Die) (f : Lgd → Lgd) : (x.onLgd f).net = x.net := rfl
@[simp] theorem Die.onLgd_vsp (x : Die) (f : Lgd → Lgd) : (x.onLgd f).vsp = x.vsp := rfl
@[simp] theorem Die.onLgd_lgd (x : Die) (f : Lgd → Lgd) : (x.onLgd f).lgd = f x.lgd := rfl
@[simp] theorem Die.onLgd_thm (x : Die) (f : Lgd → Lgd) : (x.onLgd f).thm = x.thm := rfl
@[simp] theorem Die.onLgd_svc (x : Die) (f : Lgd → Lgd) : (x.onLgd f).svc = x.svc := rfl
@[simp] theorem Die.onLgd_mtx (x : Die) (f : Lgd → Lgd) : (x.onLgd f).mtx = x.mtx := rfl
@[simp] theorem Die.onLgd_aon (x : Die) (f : Lgd → Lgd) : (x.onLgd f).aon = x.aon := rfl
@[simp] theorem Die.onLgd_bankSeen (x : Die) (f : Lgd → Lgd) : (x.onLgd f).bankSeen = x.bankSeen := rfl
@[simp] theorem Die.onLgd_reg (x : Die) (f : Lgd → Lgd) (k : Nat) : (x.onLgd f).reg k = x.reg k := rfl

@[simp] theorem Die.onSvc_life (x : Die) (f : Service → Service) : (x.onSvc f).life = x.life := rfl
@[simp] theorem Die.onSvc_regs (x : Die) (f : Service → Service) : (x.onSvc f).regs = x.regs := rfl
@[simp] theorem Die.onSvc_fresh (x : Die) (f : Service → Service) : (x.onSvc f).fresh = x.fresh := rfl
@[simp] theorem Die.onSvc_lowWords (x : Die) (f : Service → Service) : (x.onSvc f).lowWords = x.lowWords := rfl
@[simp] theorem Die.onSvc_fns (x : Die) (f : Service → Service) : (x.onSvc f).fns = x.fns := rfl
@[simp] theorem Die.onSvc_cmds (x : Die) (f : Service → Service) : (x.onSvc f).cmds = x.cmds := rfl
@[simp] theorem Die.onSvc_nextCmd (x : Die) (f : Service → Service) : (x.onSvc f).nextCmd = x.nextCmd := rfl
@[simp] theorem Die.onSvc_reads (x : Die) (f : Service → Service) : (x.onSvc f).reads = x.reads := rfl
@[simp] theorem Die.onSvc_nextRead (x : Die) (f : Service → Service) : (x.onSvc f).nextRead = x.nextRead := rfl
@[simp] theorem Die.onSvc_lastHigh (x : Die) (f : Service → Service) : (x.onSvc f).lastHigh = x.lastHigh := rfl
@[simp] theorem Die.onSvc_lastLow (x : Die) (f : Service → Service) : (x.onSvc f).lastLow = x.lastLow := rfl
@[simp] theorem Die.onSvc_clock (x : Die) (f : Service → Service) : (x.onSvc f).clock = x.clock := rfl
@[simp] theorem Die.onSvc_flt (x : Die) (f : Service → Service) : (x.onSvc f).flt = x.flt := rfl
@[simp] theorem Die.onSvc_red (x : Die) (f : Service → Service) : (x.onSvc f).red = x.red := rfl
@[simp] theorem Die.onSvc_trans (x : Die) (f : Service → Service) : (x.onSvc f).trans = x.trans := rfl
@[simp] theorem Die.onSvc_dealer (x : Die) (f : Service → Service) : (x.onSvc f).dealer = x.dealer := rfl
@[simp] theorem Die.onSvc_decks (x : Die) (f : Service → Service) : (x.onSvc f).decks = x.decks := rfl
@[simp] theorem Die.onSvc_planner (x : Die) (f : Service → Service) : (x.onSvc f).planner = x.planner := rfl
@[simp] theorem Die.onSvc_routers (x : Die) (f : Service → Service) : (x.onSvc f).routers = x.routers := rfl
@[simp] theorem Die.onSvc_hold (x : Die) (f : Service → Service) : (x.onSvc f).hold = x.hold := rfl
@[simp] theorem Die.onSvc_dither (x : Die) (f : Service → Service) : (x.onSvc f).dither = x.dither := rfl
@[simp] theorem Die.onSvc_elSnap (x : Die) (f : Service → Service) : (x.onSvc f).elSnap = x.elSnap := rfl
@[simp] theorem Die.onSvc_elStale (x : Die) (f : Service → Service) : (x.onSvc f).elStale = x.elStale := rfl
@[simp] theorem Die.onSvc_eng (x : Die) (f : Service → Service) : (x.onSvc f).eng = x.eng := rfl
@[simp] theorem Die.onSvc_cal (x : Die) (f : Service → Service) : (x.onSvc f).cal = x.cal := rfl
@[simp] theorem Die.onSvc_net (x : Die) (f : Service → Service) : (x.onSvc f).net = x.net := rfl
@[simp] theorem Die.onSvc_vsp (x : Die) (f : Service → Service) : (x.onSvc f).vsp = x.vsp := rfl
@[simp] theorem Die.onSvc_lgd (x : Die) (f : Service → Service) : (x.onSvc f).lgd = x.lgd := rfl
@[simp] theorem Die.onSvc_thm (x : Die) (f : Service → Service) : (x.onSvc f).thm = x.thm := rfl
@[simp] theorem Die.onSvc_svc (x : Die) (f : Service → Service) : (x.onSvc f).svc = f x.svc := rfl
@[simp] theorem Die.onSvc_mtx (x : Die) (f : Service → Service) : (x.onSvc f).mtx = x.mtx := rfl
@[simp] theorem Die.onSvc_aon (x : Die) (f : Service → Service) : (x.onSvc f).aon = x.aon := rfl
@[simp] theorem Die.onSvc_bankSeen (x : Die) (f : Service → Service) : (x.onSvc f).bankSeen = x.bankSeen := rfl
@[simp] theorem Die.onSvc_reg (x : Die) (f : Service → Service) (k : Nat) : (x.onSvc f).reg k = x.reg k := rfl

@[simp] theorem Die.onAon_life (x : Die) (f : AlwaysOn → AlwaysOn) : (x.onAon f).life = x.life := rfl
@[simp] theorem Die.onAon_regs (x : Die) (f : AlwaysOn → AlwaysOn) : (x.onAon f).regs = x.regs := rfl
@[simp] theorem Die.onAon_fresh (x : Die) (f : AlwaysOn → AlwaysOn) : (x.onAon f).fresh = x.fresh := rfl
@[simp] theorem Die.onAon_lowWords (x : Die) (f : AlwaysOn → AlwaysOn) : (x.onAon f).lowWords = x.lowWords := rfl
@[simp] theorem Die.onAon_fns (x : Die) (f : AlwaysOn → AlwaysOn) : (x.onAon f).fns = x.fns := rfl
@[simp] theorem Die.onAon_cmds (x : Die) (f : AlwaysOn → AlwaysOn) : (x.onAon f).cmds = x.cmds := rfl
@[simp] theorem Die.onAon_nextCmd (x : Die) (f : AlwaysOn → AlwaysOn) : (x.onAon f).nextCmd = x.nextCmd := rfl
@[simp] theorem Die.onAon_reads (x : Die) (f : AlwaysOn → AlwaysOn) : (x.onAon f).reads = x.reads := rfl
@[simp] theorem Die.onAon_nextRead (x : Die) (f : AlwaysOn → AlwaysOn) : (x.onAon f).nextRead = x.nextRead := rfl
@[simp] theorem Die.onAon_lastHigh (x : Die) (f : AlwaysOn → AlwaysOn) : (x.onAon f).lastHigh = x.lastHigh := rfl
@[simp] theorem Die.onAon_lastLow (x : Die) (f : AlwaysOn → AlwaysOn) : (x.onAon f).lastLow = x.lastLow := rfl
@[simp] theorem Die.onAon_clock (x : Die) (f : AlwaysOn → AlwaysOn) : (x.onAon f).clock = x.clock := rfl
@[simp] theorem Die.onAon_flt (x : Die) (f : AlwaysOn → AlwaysOn) : (x.onAon f).flt = x.flt := rfl
@[simp] theorem Die.onAon_red (x : Die) (f : AlwaysOn → AlwaysOn) : (x.onAon f).red = x.red := rfl
@[simp] theorem Die.onAon_trans (x : Die) (f : AlwaysOn → AlwaysOn) : (x.onAon f).trans = x.trans := rfl
@[simp] theorem Die.onAon_dealer (x : Die) (f : AlwaysOn → AlwaysOn) : (x.onAon f).dealer = x.dealer := rfl
@[simp] theorem Die.onAon_decks (x : Die) (f : AlwaysOn → AlwaysOn) : (x.onAon f).decks = x.decks := rfl
@[simp] theorem Die.onAon_planner (x : Die) (f : AlwaysOn → AlwaysOn) : (x.onAon f).planner = x.planner := rfl
@[simp] theorem Die.onAon_routers (x : Die) (f : AlwaysOn → AlwaysOn) : (x.onAon f).routers = x.routers := rfl
@[simp] theorem Die.onAon_hold (x : Die) (f : AlwaysOn → AlwaysOn) : (x.onAon f).hold = x.hold := rfl
@[simp] theorem Die.onAon_dither (x : Die) (f : AlwaysOn → AlwaysOn) : (x.onAon f).dither = x.dither := rfl
@[simp] theorem Die.onAon_elSnap (x : Die) (f : AlwaysOn → AlwaysOn) : (x.onAon f).elSnap = x.elSnap := rfl
@[simp] theorem Die.onAon_elStale (x : Die) (f : AlwaysOn → AlwaysOn) : (x.onAon f).elStale = x.elStale := rfl
@[simp] theorem Die.onAon_eng (x : Die) (f : AlwaysOn → AlwaysOn) : (x.onAon f).eng = x.eng := rfl
@[simp] theorem Die.onAon_cal (x : Die) (f : AlwaysOn → AlwaysOn) : (x.onAon f).cal = x.cal := rfl
@[simp] theorem Die.onAon_net (x : Die) (f : AlwaysOn → AlwaysOn) : (x.onAon f).net = x.net := rfl
@[simp] theorem Die.onAon_vsp (x : Die) (f : AlwaysOn → AlwaysOn) : (x.onAon f).vsp = x.vsp := rfl
@[simp] theorem Die.onAon_lgd (x : Die) (f : AlwaysOn → AlwaysOn) : (x.onAon f).lgd = x.lgd := rfl
@[simp] theorem Die.onAon_thm (x : Die) (f : AlwaysOn → AlwaysOn) : (x.onAon f).thm = x.thm := rfl
@[simp] theorem Die.onAon_svc (x : Die) (f : AlwaysOn → AlwaysOn) : (x.onAon f).svc = x.svc := rfl
@[simp] theorem Die.onAon_mtx (x : Die) (f : AlwaysOn → AlwaysOn) : (x.onAon f).mtx = x.mtx := rfl
@[simp] theorem Die.onAon_aon (x : Die) (f : AlwaysOn → AlwaysOn) : (x.onAon f).aon = f x.aon := rfl
@[simp] theorem Die.onAon_bankSeen (x : Die) (f : AlwaysOn → AlwaysOn) : (x.onAon f).bankSeen = x.bankSeen := rfl
@[simp] theorem Die.onAon_reg (x : Die) (f : AlwaysOn → AlwaysOn) (k : Nat) : (x.onAon f).reg k = x.reg k := rfl

@[simp] theorem Die.onClock_life (x : Die) (f : Clock → Clock) : (x.onClock f).life = x.life := rfl
@[simp] theorem Die.onClock_regs (x : Die) (f : Clock → Clock) : (x.onClock f).regs = x.regs := rfl
@[simp] theorem Die.onClock_fresh (x : Die) (f : Clock → Clock) : (x.onClock f).fresh = x.fresh := rfl
@[simp] theorem Die.onClock_lowWords (x : Die) (f : Clock → Clock) : (x.onClock f).lowWords = x.lowWords := rfl
@[simp] theorem Die.onClock_fns (x : Die) (f : Clock → Clock) : (x.onClock f).fns = x.fns := rfl
@[simp] theorem Die.onClock_cmds (x : Die) (f : Clock → Clock) : (x.onClock f).cmds = x.cmds := rfl
@[simp] theorem Die.onClock_nextCmd (x : Die) (f : Clock → Clock) : (x.onClock f).nextCmd = x.nextCmd := rfl
@[simp] theorem Die.onClock_reads (x : Die) (f : Clock → Clock) : (x.onClock f).reads = x.reads := rfl
@[simp] theorem Die.onClock_nextRead (x : Die) (f : Clock → Clock) : (x.onClock f).nextRead = x.nextRead := rfl
@[simp] theorem Die.onClock_lastHigh (x : Die) (f : Clock → Clock) : (x.onClock f).lastHigh = x.lastHigh := rfl
@[simp] theorem Die.onClock_lastLow (x : Die) (f : Clock → Clock) : (x.onClock f).lastLow = x.lastLow := rfl
@[simp] theorem Die.onClock_clock (x : Die) (f : Clock → Clock) : (x.onClock f).clock = f x.clock := rfl
@[simp] theorem Die.onClock_flt (x : Die) (f : Clock → Clock) : (x.onClock f).flt = x.flt := rfl
@[simp] theorem Die.onClock_red (x : Die) (f : Clock → Clock) : (x.onClock f).red = x.red := rfl
@[simp] theorem Die.onClock_trans (x : Die) (f : Clock → Clock) : (x.onClock f).trans = x.trans := rfl
@[simp] theorem Die.onClock_dealer (x : Die) (f : Clock → Clock) : (x.onClock f).dealer = x.dealer := rfl
@[simp] theorem Die.onClock_decks (x : Die) (f : Clock → Clock) : (x.onClock f).decks = x.decks := rfl
@[simp] theorem Die.onClock_planner (x : Die) (f : Clock → Clock) : (x.onClock f).planner = x.planner := rfl
@[simp] theorem Die.onClock_routers (x : Die) (f : Clock → Clock) : (x.onClock f).routers = x.routers := rfl
@[simp] theorem Die.onClock_hold (x : Die) (f : Clock → Clock) : (x.onClock f).hold = x.hold := rfl
@[simp] theorem Die.onClock_dither (x : Die) (f : Clock → Clock) : (x.onClock f).dither = x.dither := rfl
@[simp] theorem Die.onClock_elSnap (x : Die) (f : Clock → Clock) : (x.onClock f).elSnap = x.elSnap := rfl
@[simp] theorem Die.onClock_elStale (x : Die) (f : Clock → Clock) : (x.onClock f).elStale = x.elStale := rfl
@[simp] theorem Die.onClock_eng (x : Die) (f : Clock → Clock) : (x.onClock f).eng = x.eng := rfl
@[simp] theorem Die.onClock_cal (x : Die) (f : Clock → Clock) : (x.onClock f).cal = x.cal := rfl
@[simp] theorem Die.onClock_net (x : Die) (f : Clock → Clock) : (x.onClock f).net = x.net := rfl
@[simp] theorem Die.onClock_vsp (x : Die) (f : Clock → Clock) : (x.onClock f).vsp = x.vsp := rfl
@[simp] theorem Die.onClock_lgd (x : Die) (f : Clock → Clock) : (x.onClock f).lgd = x.lgd := rfl
@[simp] theorem Die.onClock_thm (x : Die) (f : Clock → Clock) : (x.onClock f).thm = x.thm := rfl
@[simp] theorem Die.onClock_svc (x : Die) (f : Clock → Clock) : (x.onClock f).svc = x.svc := rfl
@[simp] theorem Die.onClock_mtx (x : Die) (f : Clock → Clock) : (x.onClock f).mtx = x.mtx := rfl
@[simp] theorem Die.onClock_aon (x : Die) (f : Clock → Clock) : (x.onClock f).aon = x.aon := rfl
@[simp] theorem Die.onClock_bankSeen (x : Die) (f : Clock → Clock) : (x.onClock f).bankSeen = x.bankSeen := rfl
@[simp] theorem Die.onClock_reg (x : Die) (f : Clock → Clock) (k : Nat) : (x.onClock f).reg k = x.reg k := rfl

@[simp] theorem Die.onFlt_life (x : Die) (f : Flt → Flt) : (x.onFlt f).life = x.life := rfl
@[simp] theorem Die.onFlt_regs (x : Die) (f : Flt → Flt) : (x.onFlt f).regs = x.regs := rfl
@[simp] theorem Die.onFlt_fresh (x : Die) (f : Flt → Flt) : (x.onFlt f).fresh = x.fresh := rfl
@[simp] theorem Die.onFlt_lowWords (x : Die) (f : Flt → Flt) : (x.onFlt f).lowWords = x.lowWords := rfl
@[simp] theorem Die.onFlt_fns (x : Die) (f : Flt → Flt) : (x.onFlt f).fns = x.fns := rfl
@[simp] theorem Die.onFlt_cmds (x : Die) (f : Flt → Flt) : (x.onFlt f).cmds = x.cmds := rfl
@[simp] theorem Die.onFlt_nextCmd (x : Die) (f : Flt → Flt) : (x.onFlt f).nextCmd = x.nextCmd := rfl
@[simp] theorem Die.onFlt_reads (x : Die) (f : Flt → Flt) : (x.onFlt f).reads = x.reads := rfl
@[simp] theorem Die.onFlt_nextRead (x : Die) (f : Flt → Flt) : (x.onFlt f).nextRead = x.nextRead := rfl
@[simp] theorem Die.onFlt_lastHigh (x : Die) (f : Flt → Flt) : (x.onFlt f).lastHigh = x.lastHigh := rfl
@[simp] theorem Die.onFlt_lastLow (x : Die) (f : Flt → Flt) : (x.onFlt f).lastLow = x.lastLow := rfl
@[simp] theorem Die.onFlt_clock (x : Die) (f : Flt → Flt) : (x.onFlt f).clock = x.clock := rfl
@[simp] theorem Die.onFlt_flt (x : Die) (f : Flt → Flt) : (x.onFlt f).flt = f x.flt := rfl
@[simp] theorem Die.onFlt_red (x : Die) (f : Flt → Flt) : (x.onFlt f).red = x.red := rfl
@[simp] theorem Die.onFlt_trans (x : Die) (f : Flt → Flt) : (x.onFlt f).trans = x.trans := rfl
@[simp] theorem Die.onFlt_dealer (x : Die) (f : Flt → Flt) : (x.onFlt f).dealer = x.dealer := rfl
@[simp] theorem Die.onFlt_decks (x : Die) (f : Flt → Flt) : (x.onFlt f).decks = x.decks := rfl
@[simp] theorem Die.onFlt_planner (x : Die) (f : Flt → Flt) : (x.onFlt f).planner = x.planner := rfl
@[simp] theorem Die.onFlt_routers (x : Die) (f : Flt → Flt) : (x.onFlt f).routers = x.routers := rfl
@[simp] theorem Die.onFlt_hold (x : Die) (f : Flt → Flt) : (x.onFlt f).hold = x.hold := rfl
@[simp] theorem Die.onFlt_dither (x : Die) (f : Flt → Flt) : (x.onFlt f).dither = x.dither := rfl
@[simp] theorem Die.onFlt_elSnap (x : Die) (f : Flt → Flt) : (x.onFlt f).elSnap = x.elSnap := rfl
@[simp] theorem Die.onFlt_elStale (x : Die) (f : Flt → Flt) : (x.onFlt f).elStale = x.elStale := rfl
@[simp] theorem Die.onFlt_eng (x : Die) (f : Flt → Flt) : (x.onFlt f).eng = x.eng := rfl
@[simp] theorem Die.onFlt_cal (x : Die) (f : Flt → Flt) : (x.onFlt f).cal = x.cal := rfl
@[simp] theorem Die.onFlt_net (x : Die) (f : Flt → Flt) : (x.onFlt f).net = x.net := rfl
@[simp] theorem Die.onFlt_vsp (x : Die) (f : Flt → Flt) : (x.onFlt f).vsp = x.vsp := rfl
@[simp] theorem Die.onFlt_lgd (x : Die) (f : Flt → Flt) : (x.onFlt f).lgd = x.lgd := rfl
@[simp] theorem Die.onFlt_thm (x : Die) (f : Flt → Flt) : (x.onFlt f).thm = x.thm := rfl
@[simp] theorem Die.onFlt_svc (x : Die) (f : Flt → Flt) : (x.onFlt f).svc = x.svc := rfl
@[simp] theorem Die.onFlt_mtx (x : Die) (f : Flt → Flt) : (x.onFlt f).mtx = x.mtx := rfl
@[simp] theorem Die.onFlt_aon (x : Die) (f : Flt → Flt) : (x.onFlt f).aon = x.aon := rfl
@[simp] theorem Die.onFlt_bankSeen (x : Die) (f : Flt → Flt) : (x.onFlt f).bankSeen = x.bankSeen := rfl
@[simp] theorem Die.onFlt_reg (x : Die) (f : Flt → Flt) (k : Nat) : (x.onFlt f).reg k = x.reg k := rfl

end Sys2Proof.Machine
end

