-- ==== Sys2Proof/WellFormed.lean ====
section
/-!
DEFINITION. Well-formedness of a command: the bounds that the operand types of Syntax.lean do not carry by themselves.
-/

namespace Sys2Proof

/-- A descriptor is 64 bytes (R393). -/
def wfDesc (d : List Byte) : Bool := d.length == 64

/-- Rings of a function: 26 on PF2, 18 elsewhere (R393). -/
def ringCount (fn : Fin 4) : Nat := if fn = 2 then 26 else 18

/-- A drive write names an existing channel and group, and a code its DAC has (R255, R257 to R260, R264). -/
def wfDrive (m : DriveMsg) : Bool :=
  decide (m.group < 16) &&
  match m.out with
  | .heater => decide (m.chan < 608) && decide (m.code < 131072)
  | .pin => decide (m.chan < 608) && decide (m.code < 4096)
  | .gate => decide (608 ≤ m.chan) && decide (m.chan < 736) && decide (m.code < 16384)

/-- A preload names gate channels and heater channels that exist (R130, R255). -/
def wfPreload (m : PreloadMsg) : Bool :=
  m.gates.all (fun g => decide (608 ≤ g.1) && decide (g.1 < 736)) &&
  m.heaters.all (fun h => decide (h.1 < 608) && decide (h.2 < 131072))

/-- A blind-context write names a cell or a gate of the bank die (R282). -/
def wfBlind : BlindWrite → Bool
  | .cell l _ => decide (l < 608)
  | .gateStep l _ => decide (608 ≤ l) && decide (l < 736)
  | .cellTable _ l b c w _ => decide (l < 608) && decide (b < 131072) && decide (c < 131072) && decide (w < 131072)
  | .gateTable _ l _ _ => decide (608 ≤ l) && decide (l < 736)
  | .offset _ => true

/-- A VSP message came from a control port with at most two tags, over IPv4 or IPv6 if over UDP (R311). -/
def wfFrom (f : VspFrom) : Bool :=
  decide (f.tags.length ≤ 2) &&
  match f.udp with
  | none => true
  | some (a, _) => a.length == 4 || a.length == 16

/-- A received VSP message. -/
def wfVsp (r : VspRx) : Bool := wfFrom r.src

/-- Four conversions for each probe slot named (R276). -/
def wfProbe (c : ProbeConv) : Bool := decide (c.1 < 16) && c.2.length == 4

/-- A command is well formed. -/
def Instr.wf : Instr → Bool
  | .nop _ d | .take _ d | .takeBatch _ d | .handRead _ d | .deckLoad _ d | .deckArm _ d | .deckStop _ d
  | .deckSwap _ d | .loopSet _ d | .ditherRun _ d | .calLoad _ d | .calCommit _ d | .talonSubst _ d | .tableOp _ d
  | .ruleCommit _ d | .gateListLoad _ d | .telemSub _ d | .takeover _ d | .safetyQuery _ d | .healthQuery _ d
  | .convCal _ d | .frameSend _ d => wfDesc d
  | .doorbellPoll _ _ none => true
  | .doorbellPoll _ fn (some l) => l.length == ringCount fn
  | .ringEnable _ fn r _ | .ringDisable _ fn r _ | .interruptCoalesceTimeout _ fn r => decide (r.val < ringCount fn)
  | .driveWrite _ _ m => wfDrive m
  | .preloadReceive _ _ m => wfPreload m
  | .blindContextWrite _ _ w => w.all wfBlind
  | .probeTrigEdge _ c => c.all wfProbe
  | .sDualControl r | .sBlackEcho _ r => wfFrom r.src
  | .register r | .hello r | .bid r | .vspTake r | .deckinfo r | .portcheck r | .vendor r => wfVsp r
  | .matrixRequest _ r => decide (0 < r.len)
  | .pollIdleTimeout .. | .descriptorValidate .. | .hifKick .. | .functionLevelReset .. | .registerWrite .. | .unmappedAccess ..
  | .lowWordReadCapture .. | .rcRegisterRead .. | .goDark .. | .run .. | .blindHold .. | .standby .. | .recal ..
  | .timIncrWrite .. | .timAdjWrite .. | .txtsFlush .. | .txtsInfoRead .. | .partApply .. | .hldElSelect .. | .hldElApply ..
  | .hldElClear .. | .hldElManWrite .. | .fenceRequest .. | .patchDataWrite .. | .patchVerify .. | .patchVerifyDone ..
  | .patchActivate .. | .patchClear .. | .patchDrained .. | .bnkChSelect .. | .bnkProbeSnap .. | .tmgSmpSelect ..
  | .bnkManCodeWrite .. | .bnkManFire .. | .htrGainModeWrite .. | .prsRuleWrite .. | .prsRuleRead .. | .prsRuleInvalidate ..
  | .eptRead .. | .eptWrite .. | .eptDelete .. | .eptSearch .. | .eptFlushAged .. | .ethApply .. | .thmRelease .. | .lgdSave ..
  | .lgdForceWrite .. | .fltForceWrite .. | .fltStickyClear .. | .fltSrcWrite .. | .softwareDieReset .. | .softResetRelease ..
  | .bootStartedWrite .. | .mtxRemapSet .. | .mtxMrstWrite .. | .unlock1 .. | .challenge .. | .unlock2 .. | .lock .. | .setPw ..
  | .calRdDataRead .. | .thmRsDataRead .. | .ppsOutPulse .. | .syncOutPulse .. | .ppsInAbsent .. | .slavingError ..
  | .delayMeasurement .. | .disciplineMessage .. | .verifyConversion .. | .handoffStart .. | .handoffEnd .. | .deferredRelease ..
  | .lateLight .. | .surveyStart .. | .surveyEnd .. | .ditherEdge .. | .settleExpiry .. | .cellUpdate .. | .gateUpdate ..
  | .refreshDue .. | .comparatorWake .. | .updateDeadlineMiss .. | .fallbackRetry .. | .loopModeApply .. | .clusterDoze ..
  | .ditherRunStimulusUpdate .. | .ditherRunWindowEnd .. | .taskRelease .. | .next .. | .jump .. | .call .. | .ret ..
  | .branch .. | .dispatch .. | .wait .. | .waitResume .. | .sliceOverrun .. | .selftest .. | .selftestTimeout ..
  | .preloadCancel .. | .accumulatorRead .. | .accumulatorReadRestart .. | .accumulatorRestart .. | .urgentRequest ..
  | .bandSet .. | .adcConversion .. | .tokenClaim .. | .tokenYield .. | .overlapEnd .. | .safetyShut .. | .safetyRelease ..
  | .gainChange .. | .bankConvCalStart .. | .bankConvCalEnd .. | .shadowCopyTimeout .. | .holderSilenceBlind ..
  | .blindEngineTick .. | .blindRampStep .. | .heaterShort .. | .driveFault .. | .shutdownNotice .. | .shutdownCut ..
  | .noticeSilenceCut .. | .bankSelfShutdown .. | .bankLinkBadFrame .. | .bankLinkDown .. | .bankLinkRetrainFail ..
  | .bankLinkUp .. | .mirrorLinkBadFrame .. | .heartbeatSend .. | .heartbeatWindowMiss .. | .watchdogStall .. | .soloCheck ..
  | .claimRepeat .. | .claimAbandon .. | .tokenRefused .. | .tokenGranted .. | .fullFabricService .. | .yieldPoint ..
  | .resyncStart .. | .resyncComplete .. | .bootComplete .. | .roleWaitExpiry .. | .guardChannelFiltered ..
  | .zoneStartupTestDone .. | .zoneDiscrepancy .. | .zoneAutoReset .. | .safetyUnitSelftest .. | .permitTestPulse ..
  | .sBlackStateSend .. | .sBlackTimeout .. | .faultReaction .. | .faultWindowExpiry .. | .escalationWindowExpiry ..
  | .peerAbsenceTimeout .. | .healthReport .. | .sensorReading .. | .heaterPowerEstimate .. | .tFFilterUpdate ..
  | .supplyBelowHold .. | .supplyExcursion .. | .cdrstAssert .. | .cdrstRelease .. | .bootWatchdog .. | .bootReplaceTimeout ..
  | .masterReset .. | .drainTimeout .. | .lateResponse .. | .nonceExpiry .. | .lockoutEnd .. | .frameReceive ..
  | .recirculationPass .. | .learnRequestProcess .. | .agingSweep .. | .flapLockExpiry .. | .frameTransmitStart ..
  | .gateListEntry .. | .gateListStart .. | .queueSample .. | .mmVerifyResult .. | .portLinkChange .. | .agentTimeout ..
  | .portcheckDeadline .. | .portcheckRetry .. | .hostReadComplete .. | .eptCommandDone .. | .lgdSaveDone ..
  | .svcOperationDone .. | .matrixResponse .. | .portCleanRestored .. | .servicePathCommand .. | .ppsInEdge
  | .preparationWindowOpen | .preloadSend | .preloadCutoff | .dealFire | .mirrorRecordReceive | .mirrorAck | .mirrorAckTimeout
  | .planningStart | .planningDone | .planningDeadline | .benchRecomputeDone | .calibrationBoundary | .mirrorLinkDown
  | .mirrorRetrainFail | .mirrorLinkUp | .selfCalComplete | .safeEstop | .crossLinkExchange | .crossLinkFault | .configCrcCompare
  | .sDualCopyMissing | .sDualTimeout | .sDualStatusSend | .classLStopTimeout | .powerOn | .suppliesRestored | .modrstAssert
  | .modrstRelease | .modrstHeldLong | .svcInactivityTimeout | .goDarkHoldExpiry | .deckEndBoundary | .safeEstopRelease
  | .mirrorPeerRequest => true

end Sys2Proof
end

