-- ==== Sys2Proof/Tests/Slice0.lean ====
section
/-!
SUPPORT. Tests: the checks of WellFormed refuse an ill-formed term each, and for each obligation with hypotheses a concrete state and
operands that meet them (the parts of EveryCommandCompletes take the hypotheses of the statements of their family). Expected results are the
spec's own words.
-/

namespace Sys2Proof.Tests

open Sys2Proof Sys2Proof.Machine

/-! ## Well-formedness -/

theorem test_wf_desc : (Instr.nop ⟨.cd0, 0, 0⟩ (List.replicate 63 0)).wf = false ∧ (Instr.nop ⟨.cd0, 0, 0⟩ (List.replicate 64 0)).wf = true := by
  decide
theorem test_wf_doorbells : (Instr.doorbellPoll .cd0 2 (some (List.replicate 18 0))).wf = false ∧
    (Instr.doorbellPoll .cd0 2 (some (List.replicate 26 0))).wf = true := by decide
theorem test_wf_ring : (Instr.ringEnable .cd0 1 18 0).wf = false ∧ (Instr.ringEnable .cd0 2 25 0).wf = true := by decide
theorem test_wf_drive : wfDrive ⟨0, .heater, 131072, false, 0, false, 0, 0⟩ = false ∧ wfDrive ⟨608, .pin, 0, false, 0, false, 0, 0⟩ = false ∧
    wfDrive ⟨736, .gate, 0, false, 0, false, 0, 0⟩ = false ∧ wfDrive ⟨608, .gate, 16384, false, 0, false, 0, 0⟩ = false ∧
    wfDrive ⟨0, .pin, 0, false, 16, false, 0, 0⟩ = false ∧ wfDrive ⟨735, .gate, 16383, false, 15, false, 0, 0⟩ = true := by decide
theorem test_wf_preload : wfPreload ⟨0, 0, 0, [(607, 0)], false, []⟩ = false ∧ wfPreload ⟨0, 0, 0, [], true, [(608, 0)]⟩ = false ∧
    wfPreload ⟨0, 0, 0, [(735, 0)], true, [(607, 131071)]⟩ = true := by decide
theorem test_wf_blind : wfBlind (.gateStep 607 0) = false ∧ wfBlind (.cellTable 0 608 0 0 0 0) = false ∧ wfBlind (.gateStep 608 0) = true := by decide
theorem test_wf_from : wfFrom ⟨.cd0, 0, 0, [(0, 0), (0, 0), (0, 0)], none⟩ = false ∧ wfFrom ⟨.cd0, 0, 0, [], some ([0], 0)⟩ = false ∧
    wfFrom ⟨.cd0, 0, 0, [], some ([0, 0, 0, 0], 0)⟩ = true := by decide
theorem test_wf_probe : wfProbe (16, [0, 0, 0, 0]) = false ∧ wfProbe (15, [0, 0, 0]) = false ∧ wfProbe (15, [0, 0, 0, 0]) = true := by decide
theorem test_wf_matrix : (Instr.matrixRequest .cd0 ⟨0, 0, 0, 0, .read⟩).wf = false ∧ (Instr.matrixRequest .cd0 ⟨0, 0, 0, 4, .read⟩).wf = true := by
  decide

/-- The opcode table gives no row any bits. -/
theorem test_decode_none : decodeTableWord 32 0 = none := rfl

/-! ## A module in operation -/

/-- A die that is up in a role and a mode. -/
def tDie (d : DieId) (role base : Nat) : Die :=
  (({ Die.reset d 0 with life := .up }).setRf Reg.RED_MODE F.RED_MODE_ROLE role).setRf Reg.RED_MODE F.RED_MODE_BASE base

/-- A bank die with both links up whose token CD0 holds. -/
def tBank (b : Nat) : Bank :=
  { Bank.reset b with linkA := ⟨2, 0, [], 0, 0⟩, linkB := ⟨2, 0, [], 0, 0⟩, holder := some .cd0, granted := true, lastMsg := 1000000000, lastGrant := 1000000000 }

/-- A module 1 s after power-on: CD0 Declarer, CD1 Dummy, every link up, in a mode. -/
def tOn (base : Nat) : State :=
  { State.reset with ticks := 1000000000, cd0 := tDie .cd0 1 base, cd1 := tDie .cd1 2 base,
                     banks := Vector.ofFn (fun b => tBank b), mirror := ⟨2, 0, [], 0, 0⟩ }

/-- A descriptor: little-endian values at offsets, zero elsewhere. -/
def tDesc (l : List (Nat × Nat × Nat)) : List Byte :=
  l.foldl (fun d e => (List.range e.2.1).foldl (fun d i => d.set (e.1 + i) (BitVec.ofNat 8 (e.2.2 / 256 ^ i))) d) (List.replicate 64 0)

/-! ## Bank dies -/

theorem test_hyp_drive : let s := tOn mStatic
    (s.bank 7).up .cd0 = true ∧ (s.bank 7).accepts .cd0 s.ticks = true ∧ ((s.bank 7).chan 735).dealSeq ≤ 0 ∧ (s.bank 7).preloads.length < 4 ∧
    (let t := s.onBank 7 (fun k => { k.onChan 735 (fun c => { c with dealSeq := 1 }) with preloads := List.replicate 4 ⟨.cd0, 0, 0, 0, [], false, []⟩ })
     (t.bank 7).accepts .cd0 t.ticks = true ∧ 0 < ((t.bank 7).chan 735).dealSeq ∧ 4 ≤ (t.bank 7).preloads.length) := by decide

theorem test_hyp_requests : let s := tOn mStatic
    (spGet [] (adcOf 0) (s.bank 0).urgent).length < 32 ∧
    (let t := s.onBank 0 (fun k => { k with urgent := spSet [] (adcOf 0) (List.replicate 32 ⟨0, 0, 0⟩) k.urgent })
     (t.bank 0).up .cd0 = true ∧ (t.bank 0).accepts .cd0 t.ticks = true ∧ 32 ≤ (spGet [] (adcOf 0) (t.bank 0).urgent).length) := by decide

/-- A claim 4 us after the holder's last message, one 1 ns sooner, and one after a yield. -/
theorem test_hyp_claim : let s := tOn mStatic
    (s.bank 0).holder = some .cd0 ∧ (s.bank 0).yielded = false ∧ s.ticks - (s.bank 0).lastMsg < 4000 ∧
    (let t := { s with ticks := s.ticks + 4000 }; (t.bank 0).up .cd1 = true ∧ 4000 ≤ t.ticks - (t.bank 0).lastMsg) ∧
    ((s.onBank 0 (fun k => { k with yielded := true })).bank 0).yielded = true ∧ ((s.onBank 0 (fun k => { k with holder := none })).bank 0).holder = none := by
  decide

theorem test_hyp_bank_safety : let s := tOn mStatic; let t := { s with ticks := s.ticks + 1000000 }
    (s.bank 0).up .cd0 = true ∧ (s.bank 0).notice = none ∧ (s.bank 0).cut = false ∧ (s.bank 0).own < 150 * 128 ∧ (s.bank 0).fabric < 140 * 128 ∧
    (t.bank 0).granted = true ∧ (t.bank 0).blind.on = false ∧ 1000000 ≤ t.ticks - (t.bank 0).lastMsg ∧ 1000000 ≤ t.ticks - (t.bank 0).lastGrant ∧
    (let n := t.onBank 0 (fun k => { k with notice := some 0, own := 150 * 128, blind := { k.blind with on := true }, linkA := Link.down })
     (n.bank 0).up .cd0 = false ∧ (n.bank 0).notice.isSome = true ∧ 1000000 ≤ n.ticks - (n.bank 0).lastMsg ∧ 150 * 128 ≤ (n.bank 0).own ∧
       (n.bank 0).blind.on = true ∧ 10000000 ≤ n.ticks - (n.bank 0).blind.lastTick) := by decide

theorem test_hyp_converters : let s := tOn mStatic
    ((s.bank 0).nextConv 0).isSome = true ∧ (s.bank 0).cal = none ∧ (s.bank 0).probeLast = none ∧ (s.bank 0).up .cd0 = true ∧
      (s.bank 0).holder = some .cd0 ∧
    (let t := s.onBank 0 (fun k => { k with cal := some ⟨0, 2⟩, probeLast := some (s.ticks - 1999), urgent := spSet [] (adcOf 0) [⟨0, 0, 0⟩] k.urgent })
     (t.bank 0).cal.isSome = true ∧ t.ticks - ((t.bank 0).probeLast.getD 0) < 2000 ∧ (t.bank 0).holder ≠ some .cd1) := by decide

theorem test_hyp_bank_registers : let s := (tOn mStatic).onDie .cd0 (fun x =>
      (x.setRf (Reg.HIF_LEVEL 1) F.HIF_LEVEL_EXPERT 1).onSvc (fun v => { v with level := 2 }))
    (s.die .cd0).barOpen = true ∧ (s.bank 0).up .cd0 = true ∧ (s.die .cd0).isDecl = true ∧ (s.die .cd0).expert 1 = true ∧ (s.bank 0).heaterX2 = false ∧
    (s.die .cd0).lockOpen = true ∧ (s.bank 0).accepts .cd0 s.ticks = true ∧ (manMsg (s.die .cd0) 0 0).isSome = true ∧
    ((tOn mStatic).die .cd0).lockOpen = false := by decide

theorem test_hyp_links : let s := tOn mStatic
    ((s.bank 0).link .cd0).state = 2 ∧ ((s.bank 0).link .cd0).bad < 15 ∧ s.mirror.state = 2 ∧ s.mirror.bad < 15 ∧
    (let t := { s.onBank 0 (fun k => { k with linkA := ⟨1, 0, [1, 2], 0, 0⟩, linkB := ⟨3, 0, [], 0, 0⟩ }) with mirror := ⟨1, 0, [], 0, 0⟩ }
     ((t.bank 0).link .cd0).state = 1 ∧ ((t.bank 0).link .cd1).state = 3 ∧
       2 ≤ (((t.bank 0).link .cd0).fails.filter (fun u => decide (t.ticks < u + 1000000000))).length ∧ t.mirror.state = 1) := by decide

/-! ## Commands of a ring -/

/-- Descriptors that pass the checks every opcode shares: opcode, function that may use it, and fields. -/
def tDescs : List (Nat × Nat × List Byte) :=
  [(0x01, 3, []), (0x10, 1, [(26, 1, 4), (27, 1, 1), (40, 4, 0)]), (0x11, 1, [(48, 2, 512)]), (0x18, 1, []), (0x20, 1, [(18, 2, 1)]),
   (0x38, 1, [(24, 4, 110624)]), (0x48, 2, [(16, 1, 1)]), (0x50, 2, [(18, 2, 1), (20, 4, 1000)]), (0x58, 0, [(17, 1, 2)]), (0x60, 0, []),
   (0x68, 0, []), (0x70, 0, []), (0x80, 2, [(18, 2, 60)]), (0x40, 2, [(16, 1, 2), (17, 1, 2), (18, 1, 1), (20, 4, 65536), (24, 8, 64)]),
   (0x21, 1, []), (0x22, 1, []), (0x23, 1, []), (0x30, 1, []), (0x31, 1, []), (0x39, 1, []), (0x3A, 1, []), (0x78, 1, [])].map
    (fun e => (e.1, e.2.1, rowBytes e.1 (tDesc e.2.2)))

/-- The Declarer in STATIC at Expert level. -/
def tExpert : State := (tOn mStatic).onDie .cd0 (·.setRf (Reg.HIF_LEVEL 1) F.HIF_LEVEL_EXPERT 1)

theorem test_hyp_ring_heads : let x := tExpert.die .cd0
    x.running = true ∧ 3 ≤ x.base ∧ ∀ e ∈ tDescs, (x.ring e.2.1 0).fetched = [] ∧ x.ringStalls e.2.1 0 e.2.2 = false ∧ flFence (dFlags e.2.2) = false := by
  decide
theorem test_hyp_ring_passes : let x := tExpert.die .cd0
    ∀ e ∈ tDescs, firstChecks x e.2.1 x.ns e.2.2 = none ∧ modeChecks x e.2.2 = none := by decide
theorem test_hyp_ring_reads : let x := tExpert.die .cd0
    (let b := tDesc [(18, 2, 1)]; deckLoadRefusal x (rowBytes 0x20 b) x.nextCmd = none) ∧ x.cal.commit = none ∧
    frameSendOk x (rowBytes 0x80 (tDesc [(18, 2, 60)])) = true ∧ gateFieldsOk x (rowBytes 0x50 (tDesc [(18, 2, 1), (20, 4, 1000)])) = true ∧
    (x.cport 0).gateBusy = false ∧ tableOpOk (rowBytes 0x40 (tDesc [(16, 1, 2), (17, 1, 2), (18, 1, 1), (20, 4, 65536), (24, 8, 64)])) = true ∧
    ((x.pipe 0).bankWritable 0 = false ∨ (x.pipe 0).bankWritable 1 = true ∨ (x.pipe 0).bankWritable 0 = true) := by decide
theorem test_hyp_fabric : fabricRefusal tExpert .cd0 (rowBytes 0x30 (tDesc [(18, 2, 1)])) 0 = none ∧ (tExpert.die .cd0).solo = false ∧
    fabricRefusal tExpert .cd0 (rowBytes 0x30 (tDesc [])) 0 = some stInvalid := by decide
set_option maxRecDepth 8000 in
set_option exponentiation.threshold 600 in
theorem test_hyp_take : takeRefusal (tExpert.die .cd0) (takeForm (tDesc [(26, 1, 4)]) 16 [(0, 0)]) true = none := by decide
theorem test_hyp_rule_takeover : let s := (tOn mStatic).onDie .cd0 (·.setRf Reg.RED_MODE F.RED_MODE_PEER_OK 1)
    ruleCommitOk (rowBytes 0x48 (tDesc [(16, 1, 1)])) = true ∧ ruleCommitOk (rowBytes 0x48 (tDesc [])) = false ∧
    (s.die .cd0).role = 1 ∧ (s.die .cd0).inResync = false ∧ (s.die .cd0).peerOk = true ∧ readyDummy s .cd1 = true ∧ takeoverBusy s = false := by
  decide
theorem test_hyp_host : let s := (tOn mStatic).onDie .cd0 (fun x => (x.onRing 1 0 (fun r => { r with unsignalled := 1, fetched := [(0, 0, tDesc [])] })))
    let x := s.die .cd0
    x.barOpen = true ∧ 64000 ≤ s.ticks - (x.fn 1).lastChange ∧ 0 < (x.ring 1 0).unsignalled ∧ 3 ≤ x.base ∧ x.fenceFree = none ∧
    x.nextHead 1 x.lastHigh = none ∧ x.nextHead 0 x.lastLow = some (1, 0, 0, 0, tDesc []) := by decide

/-! ## Registers, modes and time -/

theorem test_hyp_registers : (findReg 3 (Reg.TIM_INCR % 65536)).isSome = true ∧ (findReg 3 (Reg.TIM_INCR % 65536 + 4)).isSome = true ∧
    (findReg 1 0xFFFC).isSome = false ∧ companion (Reg.TIM_TXTS_TIME) ≠ some 0 := by decide
theorem test_hyp_mode_refused : let s := (tOn mBlind).onDie .cd0 (·.setRf Reg.RED_MODE_REQ F.RED_MODE_REQ_STATUS 2)
    (s.die .cd0).barOpen = true ∧ (s.die .cd0).rf Reg.RED_MODE_REQ F.RED_MODE_REQ_STATUS = 2 ∧ (s.die .cd1).isDecl = false ∧
    (State.reset.die .cd0).barOpen = false ∧ ((tOn mStatic).die .cd0).base ∉ [mDark, mBlind] ∧
    runAllowed ((tOn mBlind).onBank 0 (fun k => { k with calFail := true })) .cd0 = false := by decide
theorem test_hyp_mode_starts : ∀ m ∈ [mDark, mStatic, mSlotted, mHybrid, mBlind], let s := tOn m
    (s.die .cd0).barOpen = true ∧ (s.die .cd0).rf Reg.RED_MODE_REQ F.RED_MODE_REQ_STATUS ≠ 2 ∧ (s.die .cd0).isDecl = true ∧ (s.die .cd0).trans = .none ∧
    (s.die .cd0).base = m ∧ ∀ b < 8, (s.bank b).cal = none := by decide
/-- 1 s steps forward and back, and one that would go below zero. -/
theorem test_hyp_clock : let s := (tOn mStatic).onDie .cd0 (fun x => { x with clock := { x.clock with running := true, now := 2 ^ 80, slaveSince := some 0 } })
    (s.die .cd0).barOpen = true ∧ (s.die .cd0).isDecl = true ∧ (s.die .cd1).isDummy = true ∧ (s.die .cd1).running = true ∧
    (0 : Int) ≤ (s.die .cd0).clock.now + (BitVec.ofInt 64 (-1)).toInt * 2 ^ 40 ∧ ((tOn mStatic).die .cd0).clock.now + (BitVec.ofInt 64 (-1)).toInt * 2 ^ 40 < 0 ∧
    s.cd0.ppsInEn = false ∧ (s.bank 0).up .cd0 = true ∧ mSelfCal ≤ (s.die .cd0).base ∧ (s.bank 0).holder = some .cd0 := by decide
theorem test_hyp_pulse : let s := (tOn mStatic).onDie .cd0 (fun x => ({ x with clock := { x.clock with running := true, now := 2 ^ 40 * 3000000000 } }.setRf
      Reg.TIM_CTRL F.TIM_CTRL_PPS_OUT_EN 1).setRf Reg.TIM_CTRL F.TIM_CTRL_PPS_IN_EN 1); let x := s.die .cd0
    lastPoint x 0 = some 3000000000 ∧ (x.ns : Int) ≤ 3000000001 ∧ x.clock.emitted = [] ∧ s.declarer = some .cd0 ∧ x.ppsInEn = true ∧
    1500000000 ≤ ({ s with ticks := 1500000000 } : State).ticks - max (x.clock.ppsIn.getD 0) x.clock.ppsEnAt ∧ lastPoint x 1 = none ∧ x.clock.txts = [] := by
  decide

/-! ## Deals, the mirror and decks -/

/-- A deal of no take at an instant. -/
def tDeal (stage : DealStage) (instant : Nat) : Deal :=
  ⟨1, instant, .takes, [], false, stage, none, none, false, [], 0, [], 1, 0xFF, 0⟩

def tDealt (l : List Deal) : State := (tOn mStatic).onDie .cd0 (fun x => { x with dealer := { x.dealer with pending := l } })

theorem test_hyp_prepare : let s := tDealt [tDeal .placed i1300ns]; let x := s.die .cd0
    s.serving = some .cd0 ∧ s.declarer = some .cd0 ∧ x.decks.live = none ∧ x.cal.survey = none ∧
    ((looseTakes x (x.now + i1300ns)).dealer.pending.filter (fun e => decide (e.stage = .placed) && decide (e.instant ≤ x.now + i1300ns))).length = 1 ∧
    (∀ e ∈ (tDealt [tDeal .placed (i1300ns + 1)]).cd0.dealer.pending, e.stage = .placed → x.now + i1300ns < e.instant) := by decide
theorem test_hyp_send : let s := (tDealt [tDeal .prepared 0]).onDie .cd1 (·.setRf Reg.RED_MODE F.RED_MODE_ROLE 0); let x := s.die .cd0
    s.serving = some .cd0 ∧ x.shadowsUsed < 4 ∧ (s.die .cd1).isDummy = false ∧ (∀ e ∈ x.dealer.pending, ∀ t ∈ e.takes, t.acked = true) ∧
    4 ≤ ((tDealt (tDeal .prepared 0 :: List.replicate 4 (tDeal .sent 0))).die .cd0).shadowsUsed := by decide
/-- A sent deal 100 ns before its instant, 125 ps too early for the cutoff, and one not acknowledged by every bank die. -/
theorem test_hyp_cutoff : let x := (tDealt [tDeal .sent i100ns]).die .cd0
    (x.dealer.pending.find? (fun e => decide (e.stage ≠ .fixed))).map (·.instant) = some i100ns ∧ (tDeal .sent i100ns).instant ≤ x.now + i100ns ∧
    (tDeal .sent i100ns).acks = BitVec.allOnes 8 ∧ x.now + i100ns < (tDeal .sent (i100ns + 1)).instant ∧
    { tDeal .sent i100ns with acks := 0x7F }.acks ≠ BitVec.allOnes 8 := by decide
theorem test_hyp_fire : let s := tDealt [tDeal .fixed 0]; let s0 := (List.range 8).foldl firePreloads s; let x := s0.die .cd0
    s0.declarer = some .cd0 ∧ (x.dealer.pending.find? (fun e => decide (e.stage = .fixed))).map (·.instant) = some 0 ∧ 0 ≤ x.now := by
  decide
theorem test_hyp_verify : let s := (tOn mStatic).onDie .cd0 (fun x => { x.onElem 0 (fun el => { el with unbalanced := true, active := true, phi := 1, cross := true }) with
      dealer := { x.dealer with verify := [⟨0, 1, 0, 2, 0, []⟩] } }); let x := s.die .cd0
    x.dealer.verify.find? (fun v => v.elem = 0) = some ⟨0, 1, 0, 2, 0, []⟩ ∧ 0 ≤ x.now ∧ x.isDecl = true ∧ (s.bank 0).cal = none ∧
    (s.bank 0).up .cd0 = true ∧ (s.die .cd1).isDecl = false := by decide
theorem test_hyp_mirror : let s := (tOn mStatic).onDie .cd0 (fun x => { x.onRed (fun r => { r with sent := [⟨5, 0, .completed 2⟩], acks := [(5, 0)] }) with
      cmds := [⟨2, .none, [], [], .acking 5 (1000000000 - 20000), true, false, 0, 0, 0, false⟩] }); let x := s.die .cd0
    s.declarer = some .cd0 ∧ s.mirror.state = 2 ∧ (s.die .cd1).isDummy = true ∧ (s.die .cd1).running = true ∧ x.red.acks = [(5, 0)] ∧
    (x.cmds.find? (fun c => match ackSince c with | some (n, _) => n = 5 | none => false)).isSome = true ∧
    (x.cmds.find? (fun c => match ackSince c with | some (_, t) => decide (20 * usT ≤ s.ticks - t) | none => false)).isSome = true := by decide

/-- A deck of one trick at boundary 1: origin 0, 10 us tricks. -/
def tRun (state : DeckState) : DeckRun :=
  ⟨0, ⟨0, 2, 1, 0, 0, true, false, false, 0, 100, 4, 80000⟩, state, 0, 1, 1, 1, false, none, 0, 0, 0, none, none, none⟩

def tDeck (state : DeckState) (now : Nat) : State := (tOn mSlotted).onDie .cd0 (fun x =>
  { x with decks := { x.decks with current := some (tRun state) }, clock := { x.clock with running := true, now := now * 2 ^ 40 / 8 } })

theorem test_hyp_partition : let s := tOn mDark; let t := tOn mStatic
    (s.die .cd0).barOpen = true ∧ (s.die .cd0).isDecl = true ∧ (s.die .cd0).base = mDark ∧ (t.die .cd0).base ≠ mDark ∧ isWorking (t.die .cd0).base = true ∧
    (t.die .cd0).trans = .none ∧ (t.die .cd0).decks.running = none ∧ ((tDeck .running 0).die .cd0).decks.running.isSome = true := by decide
theorem test_hyp_deck_end : let s := tDeck .running 5120000; let x := s.die .cd0
    s.declarer = some .cd0 ∧ x.decks.current = some (tRun .running) ∧ (tRun .running).state ≠ .finished ∧
    x.decks.runBnd (tRun .running) (tRun .running).pass ≤ x.now ∧ (∀ dl ∈ x.dealer.pending, dl.kind ≠ .boundary 1) ∧
    ((tDeck .running 0).die .cd0).now < x.decks.runBnd (tRun .running) 1 := by decide
theorem test_hyp_planning : let s := tDeck .running 0; let x := s.die .cd0
    s.declarer = some .cd0 ∧ s.serving = some .cd0 ∧ (autoEpoch x).isSome = true ∧ x.planner.planning = none ∧ x.thm.level < 3 ∧
    ((tOn mStatic).die .cd0).decks.running = none ∧ x.dealer.pending = [] := by decide

/-! ## Elements -/

/-- STATIC with element e changed. -/
def tElem (e : Nat) (f : Elem → Elem) : State := (tOn mStatic).onDie .cd0 (fun x => ({ x with clock := { x.clock with running := true, now := 2 ^ 40 * 1000000000 } }.onElem e f))

theorem test_hyp_handoff : let s := tElem 0 (fun el => { el with onPin := true, phi := 1 }); let x := s.die .cd0; let el := x.elem 0
    (x.handoffNs.all (fun t => decide (t ≤ s.ticks - el.pinSince))) = true ∧ x.loopsOn = true ∧ el.mode = 0 ∧ el.onPin = true ∧ el.handoff = false ∧
    el.deferred = false ∧ x.willChange 0 = false ∧ x.inRun 0 = false ∧ handoffTarget el = some 2 ∧ handoffTarget { el with phi := 2 } = none := by decide
/-- A hand-off 30 us old ends, one 1 ns younger does not. -/
theorem test_hyp_handoff_end : let s := tElem 0 (fun el => { el with onPin := true, handoff := true, target := 1, handSince := 1000000000 - 30000 }); let el := (s.die .cd0).elem 0
    el.handoff = true ∧ el.heldAt = none ∧ 30 * usT ≤ s.ticks - el.handSince ∧ s.ticks - (el.handSince + 1) < 30 * usT := by decide
theorem test_hyp_loops : let s := tElem 0 (fun el => { el with active := true, phi := 1, cross := true, half := .plus, settled := true, unbalanced := true }); let x := s.die .cd0; let el := x.elem 0
    dithers s .cd0 0 = true ∧ el.half = .plus ∧ el.settled = true ∧ x.halfNs ≤ s.ticks - el.edgeAt ∧ el.onPinLoop = false ∧ x.loopsOn = true ∧
    stale s 0 = false ∧ x.verifying 0 = false ∧ x.inRun 0 = false ∧ x.effNs ≤ s.ticks - el.lastUpd ∧ el.closed 0 = true ∧ el.mPlus = none ∧
    dithers (tOn mDark) .cd0 0 = false ∧ ((tOn mDark).die .cd0).loopsOn = false := by decide
theorem test_hyp_gate : let s := tElem 4864 (fun el => { el with active := true }); let x := s.die .cd0; let el := x.elem (gateElem 0)
    el.mode = 0 ∧ el.active = true ∧ el.fallback = false ∧ stale s 4864 = false ∧ usT * x.loopUs ≤ s.ticks - el.lastUpd := by decide
theorem test_hyp_fallback : let s := tElem 1 (fun el => { el with fallback := true, mode := 0 }); let x := s.die .cd0; let el := x.elem 1
    x.loopsOn = true ∧ el.fallback = true ∧ el.retry = none ∧ x.verifying 1 = false ∧ x.retryNs ≤ s.ticks - el.fellAt ∧ refreshNo x 1 ≠ el.refIdx := by decide
theorem test_hyp_elem_registers : let s := tExpert.onDie .cd0 (fun x => x.onElem 0 (fun el => { el with modePend := some (1, false) })); let x := s.die .cd0
    x.barOpen = true ∧ x.isDecl = true ∧ x.expert 1 = true ∧ (ctrlReq x (fput F.HLD_EL_CTRL_APPLY 0 1)).isSome = true ∧ (x.elem 0).modePend = some (1, false) ∧
    stale s 0 = false ∧ x.inRun 0 = false ∧ (x.elem 0).mode ≠ 1 ∧ (∀ e ∈ clusterEngines 7, (x.eng.engine e).deque = []) ∧ x.eng.dozing 7 = false := by decide
theorem test_hyp_dither : let r : DitherRun := ⟨2, 1, 0, 0, 1, 1, 0, 10, 1, 2, 100, 1, 0, [⟨0, 0, 0, false, false⟩], 0, 1, 0, false, 0, 0, true, 0⟩
    let s := (tOn mStatic).onDie .cd0 (fun x => { x with dither := [r] }); let x := s.die .cd0
    s.declarer = some .cd0 ∧ x.dither.find? (fun r => r.bank = 0) = some r ∧ r.begun = true ∧ r.stim = 1 ∧ 1 ≤ (s.ticks - r.lastStim) / usT ∧
    x.dither.find? (fun r => r.left.any (fun t => t.elem = 0)) = some r ∧ r.window * usT ≤ s.ticks - 0 ∧ r.pre + r.nwin ≤ 0 + 1 := by decide

/-! ## Engines -/

/-- Engine 0 runs a task of element 0 from the ROM; sequencing word q stands at its address. -/
def tEng (f : Engine → Engine) : State := (tOn mStatic).onDie .cd0 (fun x => x.onEng (fun g => g.onEngine 0 (fun n =>
  f { n with state := 1, running := some ⟨0, 2, 2, 0, some 0, none⟩ })))
def tWord (seq : Nat) : BitVec 128 := BitVec.ofNat 128 (seq * 2 ^ 111)
theorem test_hyp_words : let s := tEng id; let g := (s.die .cd0).eng; let n := g.engine 0
    (s.die .cd0).enginesRun = true ∧ n.state = 1 ∧ n.elem = 0 ∧ ∀ q ∈ [0, 1, 2, 3, 4, 5, 6], let m := microOf (fetchWord g n (tWord q)).1
      m.seq = q ∧ m.fault = none ∧ m.exp = 0 ∧ m.mem ≠ 2 ∧ m.acc = 0 ∧ m.dac = 0 ∧ m.fire = false ∧ m.tq = 0 := by decide
/-- A slice of 4 us and 1 ns, and an idle engine whose self-test is due; a busy one whose deque has room. -/
theorem test_hyp_tasks : let s := tEng (fun n => { n with sliceAt := 1000000000 - 4001 }); let x := s.die .cd0
    (x.eng.engine 0).running.isSome = true ∧ (x.eng.engine 0).state = 1 ∧ 4 * usT < s.ticks - (x.eng.engine 0).sliceAt ∧
    testDue x (x.eng.engine 0) s.ticks = true ∧ testDue x (x.eng.engine 1) s.ticks = true ∧ (x.eng.engine 1).state ≠ 1 ∧ (x.eng.engine 1).deque = [] ∧
    (x.eng.engine 0).defer < 9 ∧ (x.eng.engine 0).testing = none := by decide
theorem test_hyp_release : let s := (tOn mStatic).onDie .cd0 (fun x => { x.onEng (fun g => { g with armed := [⟨5, 2, 2, 0, none, none⟩], parked := [⟨6, 2, 2, 0, some 0, some ⟨⟨0, false⟩, [], Vector.replicate 8 0, 0, false, 0⟩⟩] }) with fresh := [] }); let x := s.die .cd0
    (x.eng.armed.find? (fun t => t.elem = 5 && decide (t.release ≤ s.ticks))).isSome = true ∧ (x.eng.engine 0).state ≠ 1 ∧
    x.eng.parked.find? (fun t => t.elem = 6) ≠ none ∧ x.barOpen = true ∧ x.writable Reg.UCS_FENCE_REQ = true := by decide
theorem test_hyp_patch : let s := (tOn mDark).onDie .cd0 (·.setRf (Reg.HIF_LEVEL 0) F.HIF_LEVEL_EXPERT 1); let x := s.die .cd0
    x.barOpen = true ∧ patchOpen x = true ∧ patchOpen (s.die .cd1) = false ∧ x.rf Reg.UCS_PATCH_PTR F.UCS_PATCH_PTR_PTR / 4 * 4 < 4356 ∧
    x.eng.verifying = none ∧ x.dealFree = true ∧ x.rf Reg.UCS_PATCH_STATUS F.UCS_PATCH_STATUS_STATE ≠ 3 := by decide

/-! ## The pair of dies -/

theorem test_hyp_heartbeat : let s := tOn mStatic; let x := s.die .cd0
    x.running = true ∧ s.mirror.state = 2 ∧ x.red.hbSent = 0 ∧ (s.die .cd1).running = true ∧ x.red.window + usT ≤ s.ticks ∧
    (State.reset.die .cd0).running = false ∧ secT ≤ s.ticks - x.red.lastReport := by decide
theorem test_hyp_solo : let s := (tOn mStatic).onDie .cd0 (·.onRed (fun r => { r with peerLost := true, lostAt := 1000000000 - 10000 })); let x := s.die .cd0
    x.isDecl = true ∧ x.taking = false ∧ x.red.peerLost = true ∧ x.solo = false ∧ 10 * usT ≤ s.ticks - x.red.lostAt ∧
    (∀ b < 8, (s.bank b).holds .cd0 = true ∧ (s.bank b).holds .cd1 = false ∧ (s.bank b).up .cd0 = true) := by decide
/-- CD1 claims: refused by all eight for 10 us. -/
theorem test_hyp_takeover : let t : Takeover := ⟨true, true, 0, none, 0x7F, 0xFF, 0, 0, none, none, none⟩
    let s := (tOn mStatic).onDie .cd1 (·.onRed (fun r => { r with takeover := some t })); let x := s.die .cd1
    x.red.takeover = some t ∧ t.refused = BitVec.allOnes 8 ∧ 10 * usT ≤ s.ticks - t.since ∧ usT ≤ s.ticks - t.lastClaim ∧ x.running = true ∧
    (s.bank 0).up .cd1 = true ∧ (s.bank 0).holder = some .cd0 ∧ x.red.held = [] ∧
    ((s.onBank 7 (fun k => { k with holder := some .cd1 })).bank 7).holds .cd1 = true ∧ t.granted.getLsbD 7 = false ∧
    t.granted ||| BitVec.ofNat 8 (2 ^ 7) = BitVec.allOnes 8 := by decide
theorem test_hyp_yield : let t : Takeover := ⟨true, false, 0, none, 0, 0, 0, 0, none, none, none⟩
    let s := (tOn mStatic).onDie .cd0 (fun x => (x.setRf Reg.RED_MODE F.RED_MODE_PEER_OK 1).onRed (fun r => { r with takeover := some t })); let x := s.die .cd0
    x.yielding = true ∧ (∀ c ∈ x.cmds, c.adopted = false) ∧ readyDummy s .cd1 = true ∧ x.red.sent = [] ∧ t.resetAfter = none := by decide
theorem test_hyp_bank_timers : let s := (tOn mStatic).onBank 0 (fun k => { k with overlap := some (.cd1, 1000000000) })
    (s.bank 0).overlap = some (.cd1, 1000000000) ∧ 1000000000 ≤ s.ticks ∧ (s.bank 0).holder = some .cd0 ∧ (s.die .cd0).taking = false ∧ (s.bank 1).copies = [] := by
  decide
theorem test_hyp_resync : let s := (tOn mStatic).onDie .cd1 (·.setRf Reg.RED_MODE F.RED_MODE_ROLE 0); let x := s.die .cd1
    let t := s.onDie .cd1 (fun x => (x.setRf Reg.RED_MODE F.RED_MODE_RESYNC 1).onRed (fun r => { r with loading := true }))
    x.running = true ∧ resyncFrom s .cd1 = true ∧ x.life = .up ∧ x.role = 0 ∧ x.red.loading = false ∧
    (t.die .cd1).inResync = true ∧ (t.die .cd1).red.loading = true ∧ (t.die .cd0).red.waitPeer = false := by decide

/-! ## Faults, calibration and the Light Guard -/

theorem test_hyp_fault_registers : let x := (tOn mStatic).die .cd0
    x.barOpen = true ∧ srcIsLevel 4 = false ∧ srcReserved 4 = false ∧ srcReserved 14 = true ∧ fget F.FLT_SRC_NORMAL 0 < 6 ∧
    forceOpen (tOn mStatic) .cd0 4 = false ∧ forceOpen ((tOn mStatic).onDie .cd0 (·.onSvc (fun v => { v with level := 2 }))) .cd0 4 = true := by decide
theorem test_hyp_fault_reaction : let s := raise (tOn mStatic) .cd0 4; let x := s.die .cd0
    x.running = true ∧ (x.flt.occ.find? (fun o => o.source = 4)).isSome = true ∧ s.esc = [] ∧ (∀ o ∈ x.flt.occ, o.source ≠ 5) := by decide
theorem test_hyp_windows : let s : State := { (tOn mStatic) with esc := [⟨.bank, 3, 1, 1000000000, 0, 0, .cd0⟩] }
    (∃ e ∈ s.esc, e.inst = 3 ∧ e.ends ≤ s.ticks) ∧ (∀ e ∈ s.esc, e.inst ≠ 4) ∧ (∀ w ∈ (s.die .cd0).flt.windows, s.ticks < w.closes) := by decide
/-- SELF-CAL whose bank dies are all done, and with one that is not. -/
theorem test_hyp_selfcal : let s := (tOn mSelfCal).onDie .cd0 (fun x => { x with trans := .selfCal true 0xFF true }); let x := s.die .cd0
    s.declarer = some .cd0 ∧ x.trans = .selfCal true 0xFF true ∧ (∀ b < 8, (s.bank b).up .cd0 = true → (0xFF : BitVec 8).getLsbD b = true) ∧
    (∃ b < 8, (0x7F : BitVec 8).getLsbD b = false ∧ (s.bank b).up .cd0 = true) ∧ x.routersStopped = false ∧ x.rbit Reg.RED_MODE F.RED_MODE_TAKEOVER = false ∧
    x.cal.survey = none ∧ surveyable s .cd0 0 = false := by decide
theorem test_hyp_survey_end : let v : Survey := ⟨7, 3, 0, 0⟩
    let x := ((tOn mStatic).onDie .cd0 (fun x => { x with cal := { x.cal with survey := some v } })).die .cd0
    x.cal.survey = some v ∧ v.cell = 7 ∧ v.cell ≠ 8 := by decide
theorem test_hyp_filter : let s := tOn mDark; let x := s.die .cd0
    x.running = true ∧ x.isDecl = true ∧ msT ≤ s.ticks - x.cal.lastTf := by decide

/-- A READY local zone whose channel opens, and one UNTESTED. -/
theorem test_hyp_guard : let s := (tOn mDark).onDie .cd0 (fun x => (x.setRf (Reg.LGD_ZCFG 0) F.LGD_ZCFG_LOCAL 1).onLgd (fun l =>
      { l with zones := l.zones.set 0 { l.zone 0 with state := .ready } })); let x := s.die .cd0
    unitOn s .cd0 = true ∧ x.rbit (Reg.LGD_ZCFG 0) F.LGD_ZCFG_LOCAL = true ∧ (x.lgd.zone 0).state = .ready ∧ (x.lgd.zone 1).state ≠ .ready ∧
    unitOn ((tOn mDark).onDie .cd0 (fun x => { x with life := .held 0 0 })) .cd0 = false := by decide
theorem test_hyp_units : let s := tOn mDark
    unitOn s .cd0 = true ∧ unitOn s .cd1 = true ∧ 100 * usT ≤ s.ticks - (s.die .cd0).lgd.lastXchg ∧
    (∀ z : Fin 4, (s.cd0.lgd.zone z).wantReady = false ∧ (s.cd0.lgd.zone z).state ≠ .ready) := by decide
theorem test_hyp_guard_saves : let s := (tOn mService).onDie .cd0 (fun x => x.onSvc (fun v => { v with level := 2 })); let x := s.die .cd0
    x.barOpen = true ∧ lgdOpen s .cd0 = true ∧ lgdOpen (tOn mService) .cd0 = false ∧ x.lockOpen = true ∧ moduleBase s = mService ∧
    unitOn s .cd0 = true ∧ (x.lgd.permit 0).granted = false ∧ bitOf (x.rf Reg.LGD_FORCE F.LGD_FORCE_RB_A) 0 = false := by decide
/-- A first S-DUAL copy that waits for the second. -/
theorem test_hyp_sdual : let s := (tOn mDark).onDie .cd0 (fun x => x.onLgd (fun l => { l with sd := { l.sd with waiting := [⟨.cd0, [], 1000000000 - 10000001⟩] } }))
    unitOn s .cd0 = true ∧ (s.die .cd0).lgd.sd.waiting = [⟨.cd0, [], 1000000000 - 10000001⟩] ∧ 10 * msT < s.ticks - (1000000000 - 10000001) ∧
    zslOk [] 1 1 0 = false ∧ connEn ((s.die .cd0).lgd.conn 0) = false ∧ (s.die .cd0).sdEn = false := by decide
theorem test_hyp_thermal : let s := ((tOn mStatic).onDie .cd0 (fun x => { x with thm := { x.thm with shutdown := some ⟨false, 0, false, 0, 0⟩ } }))
    stopOverdue s = some .cd0 ∧ s.declarer = some .cd0 ∧ stopsFrom (s.die .cd0).base = true ∧ stopOverdue (tOn mStatic) = none ∧
    (s.die .cd0).barOpen = true ∧ s.cd0.thm.shutdown.isSome = true ∧ pathReaches s .cd0 .fabricBd0 = true ∧ pathReaches State.reset .cd0 .fabricBd0 = false := by
  decide

/-! ## Resets, boot, the matrix and the lock -/

theorem test_hyp_resets : let s := tOn mDark; let m := { s with pins := { s.pins with modrstLow := true, modrstSince := 0 } }
    s.pins.modrstLow = false ∧ s.pins.below = 0 ∧ s.pins.cdrstLow = 0 ∧ s.cd0.modHeld = false ∧ s.cd1.modHeld = false ∧ m.pins.modrstLow = true ∧
    5 * secT < ({ m with ticks := 5 * secT + 1 } : State).ticks - m.pins.modrstSince ∧ s.pins.cdrstLow.getLsbD 0 = false ∧ (s.die .cd1).isDecl = false := by decide
theorem test_hyp_die_held : let s := (tOn mDark).onDie .cd1 (fun x => { x with life := .held 3 (1000000000 - 10000) }); let x := s.die .cd1
    x.life = .held 3 (1000000000 - 10000) ∧ 10 * usT ≤ s.ticks - (1000000000 - 10000) ∧ s.ticks - (1000000000 - 9999) < 10 * usT ∧ x.barOpen = false := by decide
theorem test_hyp_flr : let x := (tOn mDark).die .cd0
    x.barOpen = true ∧ (∀ c ∈ x.cmds, originFn c.origin ≠ some 1) ∧ (∀ r < 8, (x.ring 1 r).fetched = []) := by decide
theorem test_hyp_boot : let s := State.reset; let x := s.die .cd0
    x.life = .booting 0 ∧ x.rbit Reg.MTX_REMAP F.MTX_REMAP_REMAP = false ∧ x.aon.remapAt = none ∧ s.ticks - 0 < 5 * secT ∧
    x.rbit Reg.RST_BOOT F.RST_BOOT_STARTED = false ∧ ((tOn mDark).die .cd0).booting = none ∧ 100 * msT ≤ (tOn mDark).ticks - 0 := by decide
theorem test_hyp_matrix : let s := tOn mDark; let x := s.die .cd0; let r : MtxReq := ⟨1, 5, 0, 4, .read⟩
    (x.master 1).resetAt = none ∧ (x.master 1).outstanding.length < 32 ∧ (x.master 1).waiting = [] ∧ mtxDecode x { r with addr := BitVec.ofNat 40 (2 ^ 40 - 1) } = none ∧
    (let t := s.onDie .cd0 (fun x => x.onMaster 1 (fun m => { m with outstanding := [⟨r, 1⟩], resetAt := some (1000000000 - 2000), draining := true })); let m := (t.die .cd0).master 1
     m.outstanding ≠ [] ∧ m.resetAt = some (1000000000 - 2000) ∧ m.draining = true ∧ 2 * usT ≤ t.ticks - (1000000000 - 2000) ∧ t.ticks - (1000000000 - 1999) < 2 * usT) := by
  decide
theorem test_hyp_lock : let s := (tOn mDark).onDie .cd0 (fun x => x.onSvc (fun v => { v with level := 2, nonce := some 1, nonceAt := 0, lockout := some 1000000000 })); let x := s.die .cd0
    x.barOpen = true ∧ x.isDecl = true ∧ x.svc.busy = none ∧ x.svc.lockout.isSome = true ∧ (s.die .cd1).isDecl = false ∧ x.svc.nonce.isSome = true ∧
    60 * secT ≤ ({ s with ticks := 60 * secT } : State).ticks - x.svc.nonceAt ∧ 1000000000 ≤ s.ticks ∧ x.base = mDark ∧ x.trans = .none ∧ x.svc.level ≠ 0 := by decide

/-! ## Frames, tables and agents -/

theorem test_hyp_frames : let x := (tOn mStatic).die .cd0; let f : RxFrame := ⟨List.replicate 60 0, 0, false, false, true, 0, 0, false⟩
    x.running = true ∧ x.portExists 7 = true ∧ f.uncorrectable = false ∧ f.badFcs = false ∧ 64 ≤ frameLen f.bytes ∧ frameLen f.bytes ≤ x.maxFrame ∧
    frameLen (List.replicate 59 0) < 64 ∧ x.net.ruleWait = [] ∧ (x.pipe 0).fifo = [] ∧ actReserved 0 = false ∧ x.barOpen = true := by decide
theorem test_hyp_ept : let s := (tOn mStatic).onDie .cd0 (fun x => { x with net := { x.net with eptBusy := some 1 } }); let x := s.die .cd0
    x.net.eptBusy = some 1 ∧ eptFind (x.pipe 0).ept 0 = none ∧ ((tOn mStatic).die .cd0).net.eptBusy = none ∧ (x.pipe 0).learns = [] ∧ spFind 5 (x.pipe 1).ept = none := by decide
theorem test_hyp_ports : let s := (tOn mDark).onDie .cd0 (·.setRf (Reg.ETH_PORT 7) F.ETH_PORT_LINK 2); let x := s.die .cd0
    x.running = true ∧ x.portExists 7 = true ∧ x.linkUp 7 = true ∧ x.linkUp 0 = false ∧ (x.cport 7).quiet s.ticks = true ∧ x.mm 7 ≠ 1 ∧ x.barOpen = true ∧ x.base = mDark ∧
    (x.cport 7).sending = none ∧ (x.cport 7).list = none ∧ (x.cport 7).stopAt = none ∧ (x.cport 7).pendList = none ∧ (x.cport 7).held = none ∧
    (∀ q : Fin 32, ((x.cport 7).queue q).frames = []) := by decide
/-- A message from a stranger that is too short for its header. -/
theorem test_hyp_vsp : let s := tOn mStatic; let rx : VspRx := ⟨⟨.cd0, 0, 0, [], none⟩, 0, 0, none, 0, [0x10, 2], 64⟩
    (s.die .cd0).running = true ∧ vspEngine s rx = some .cd0 ∧ vspUnsound rx.bytes = some 0 ∧ msgAgent (s.die .cd0) rx = none ∧ mType rx.bytes = 2 ∧
    s.serving = some .cd0 ∧ (s.die .cd0).agent 5 = none ∧ (s.die .cd0).vsp.checks = [] ∧ (s.die .cd0).vsp.retryAt = [] := by decide
theorem test_hyp_stamps : let s := (tOn mStatic).onDie .cd0 (fun x => { x with clock := { x.clock with txts := [⟨7, 15, 65535, 4096⟩] } })
    (s.die .cd0).barOpen = true ∧ (s.die .cd0).clock.txts.length < 64 ∧ (s.die .cd0).clock.txts = [⟨7, 15, 65535, 4096⟩] ∧ 4096 % 4096 = 0 := by decide
theorem test_hyp_step : (tOn mStatic).pending = [] ∧ ({ tOn mStatic with pending := [.powerOn] } : State).pending = .powerOn :: [] := by decide

/-! ## Effects, by the spec's words -/

/-- R268: a claim within 4 us of the holder's last message is refused; from 4 us on it is granted and counts in OVERLAPS. -/
theorem test_claim_refused : let t := tokenClaim .cd1 0 (tOn mStatic)
    (t.bank 0).holder = some .cd0 ∧ (t.bank 0).refused = 1 := by decide
theorem test_claim_granted : let t := tokenClaim .cd1 0 { tOn mStatic with ticks := 1000004000 }
    (t.bank 0).holder = some .cd1 ∧ (t.bank 0).overlaps = 1 ∧ (t.bank 0).overlap = some (.cd0, 1000006000) := by decide
/-- R49: STATUS 3 on a die that is not Declarer. -/
theorem test_run_not_declarer : ((modeReq .cd1 2 (tOn mDark)).die .cd1).rf Reg.RED_MODE_REQ F.RED_MODE_REQ_STATUS = 3 := by decide
/-- R484: a cut gate stands at the shutter code. -/
theorem test_cut : let k := ((tOn mStatic).onBank 0 (fun k => (k.onChan 608 (fun c => { c with gate := 5 })).cutDrive)).bank 0
    k.gateOut 608 = 0x3FFF := by decide
/-- R270: a shut gate stays at the shutter code after its release; a port that is still up and has not released it holds it. -/
theorem test_shut_release : let k := ((tOn mStatic).bank 0).onChan 608 (fun c => { c with gate := 5 })
    let g : BitVec 128 := 1
    ((k.shut g).gateOut 608 = 0x3FFF) ∧ (((k.shut g).release .cd0 g).chan 608).forced = true ∧
    ((((k.shut g).release .cd0 g).release .cd1 g).chan 608).forced = false ∧ (((k.shut g).release .cd0 g).release .cd1 g).gateOut 608 = 0x3FFF := by decide
set_option maxRecDepth 20000 in
/-- R270: a port whose link goes down no longer holds the gate. -/
theorem test_port_lost : let k := (((tOn mStatic).bank 0).shut 1).release .cd1 1
    ((k.setLink .cd0 Link.down).portLost.chan 608).forced = false := by decide
/-- R20: reserved bits read zero whatever was written. -/
theorem test_write_reserved : ((tOn mDark).die .cd0).written (Reg.HIF_LEVEL 0) 0xFFFFFFFF = 1 := by decide

end Sys2Proof.Tests
end

section
/-!
PROOFS. The fields of a register word: in every 32-bit register of the map they stand in order and share no bit, so that a write acts on
each by its own access type (R17).
-/

namespace Sys2Proof.Machine

/-- Fields listed from the top: each lies below bit n and below the fields before it. -/
def fieldsBelow : Nat → List RegField → Bool
  | _, [] => true
  | n, f :: fs => decide (f.lo ≤ f.hi) && decide (f.hi < n) && fieldsBelow f.lo fs

/-- Bit i lies in a field. -/
def fieldCovers (f : RegField) (i : Nat) : Bool := decide (f.lo ≤ i) && decide (i ≤ f.hi)

theorem fieldsBelow_cons {n : Nat} {f : RegField} {fs : List RegField} :
    fieldsBelow n (f :: fs) = true ↔ f.lo ≤ f.hi ∧ f.hi < n ∧ fieldsBelow f.lo fs = true := by
  simp [fieldsBelow, and_assoc]

theorem fieldsBelow_mono {m n : Nat} (h : m ≤ n) {fs : List RegField} (hm : fieldsBelow m fs = true) : fieldsBelow n fs = true := by
  cases fs with
  | nil => rfl
  | cons f fs =>
    obtain ⟨h1, h2, h3⟩ := fieldsBelow_cons.1 hm
    exact fieldsBelow_cons.2 ⟨h1, by omega, h3⟩

theorem fieldsBelow_filter (q : RegField → Bool) {n : Nat} {fs : List RegField} (h : fieldsBelow n fs = true) :
    fieldsBelow n (fs.filter q) = true := by
  induction fs generalizing n with
  | nil => rfl
  | cons f fs ih =>
    obtain ⟨h1, h2, h3⟩ := fieldsBelow_cons.1 h
    by_cases hq : q f
    · rw [List.filter_cons_of_pos hq]
      exact fieldsBelow_cons.2 ⟨h1, h2, ih h3⟩
    · rw [List.filter_cons_of_neg hq]
      exact fieldsBelow_mono (by omega) (ih h3)

theorem fieldsBelow_lo_le {n : Nat} {fs : List RegField} (h : fieldsBelow n fs = true) {f : RegField} (hf : f ∈ fs) : f.lo ≤ f.hi := by
  induction fs generalizing n with
  | nil => cases hf
  | cons g fs ih =>
    obtain ⟨h1, -, h3⟩ := fieldsBelow_cons.1 h
    rcases List.mem_cons.1 hf with rfl | hf
    · exact h1
    · exact ih h3 hf

theorem fieldCovers_lt {n : Nat} {fs : List RegField} (h : fieldsBelow n fs = true) {f : RegField} (hf : f ∈ fs) {i : Nat}
    (hi : fieldCovers f i = true) : i < n := by
  induction fs generalizing n with
  | nil => cases hf
  | cons g fs ih =>
    obtain ⟨h1, h2, h3⟩ := fieldsBelow_cons.1 h
    rcases List.mem_cons.1 hf with rfl | hf
    · simp only [fieldCovers, Bool.and_eq_true, decide_eq_true_eq] at hi; omega
    · have := ih h3 hf; omega

/-- No two fields share a bit. -/
theorem fieldCovers_unique {n : Nat} {fs : List RegField} (h : fieldsBelow n fs = true) {f g : RegField} (hf : f ∈ fs) (hg : g ∈ fs)
    {i : Nat} (hfi : fieldCovers f i = true) (hgi : fieldCovers g i = true) : f = g := by
  induction fs generalizing n with
  | nil => cases hf
  | cons e fs ih =>
    obtain ⟨-, -, h3⟩ := fieldsBelow_cons.1 h
    have low {k : RegField} (hk : k ∈ fs) (hki : fieldCovers k i = true) : fieldCovers e i = false := by
      have := fieldCovers_lt h3 hk hki
      simp [fieldCovers]; omega
    rcases List.mem_cons.1 hf with hfe | hf <;> rcases List.mem_cons.1 hg with hge | hg
    · rw [hfe, hge]
    · rw [hfe, low hg hgi] at hfi; cases hfi
    · rw [hge, low hf hfi] at hgi; cases hgi
    · exact ih h3 hf hg

/-- The ones of a list of fields. -/
def fieldMask (fs : List RegField) : Nat := (fs.map (fun f => (2 ^ (f.hi - f.lo + 1) - 1) * 2 ^ f.lo)).sum

theorem fieldMask_lt {n : Nat} {fs : List RegField} (h : fieldsBelow n fs = true) : fieldMask fs < 2 ^ n := by
  induction fs generalizing n with
  | nil => exact Nat.two_pow_pos n
  | cons f fs ih =>
    obtain ⟨h1, h2, h3⟩ := fieldsBelow_cons.1 h
    have hlo := ih h3
    have hp : 2 ^ (f.hi - f.lo + 1) * 2 ^ f.lo = 2 ^ (f.hi + 1) := by rw [← Nat.pow_add]; congr 1; omega
    have hn : 2 ^ (f.hi + 1) ≤ 2 ^ n := Nat.pow_le_pow_right (by decide) h2
    have he : fieldMask (f :: fs) = (2 ^ (f.hi - f.lo + 1) - 1) * 2 ^ f.lo + fieldMask fs := by simp [fieldMask]
    rw [he, Nat.sub_mul, hp]
    have : 2 ^ f.lo ≤ 2 ^ (f.hi + 1) := Nat.pow_le_pow_right (by decide) (by omega)
    omega

/-- The ones of a list of fields are the bits that one of them covers. -/
theorem testBit_fieldMask {n : Nat} {fs : List RegField} (h : fieldsBelow n fs = true) (i : Nat) :
    (fieldMask fs).testBit i = fs.any (fieldCovers · i) := by
  induction fs generalizing n with
  | nil => simp [fieldMask]
  | cons f fs ih =>
    obtain ⟨h1, h2, h3⟩ := fieldsBelow_cons.1 h
    have he : fieldMask (f :: fs) = 2 ^ f.lo * (2 ^ (f.hi - f.lo + 1) - 1) + fieldMask fs := by simp [fieldMask, Nat.mul_comm]
    rw [he, Nat.testBit_two_pow_mul_add _ (fieldMask_lt h3), List.any_cons]
    by_cases hi : i < f.lo
    · rw [if_pos hi, ih h3]
      simp [fieldCovers, show ¬ f.lo ≤ i by omega]
    · have hno : fs.any (fieldCovers · i) = false := by
        rw [List.any_eq_false]
        intro g hg hc
        exact hi (fieldCovers_lt h3 hg hc)
      rw [if_neg hi, Nat.testBit_two_pow_sub_one, hno, Bool.or_false, fieldCovers, Bool.eq_iff_iff]
      simp only [decide_eq_true_eq, Bool.and_eq_true]
      omega

theorem accMask_low (r : RegDef) (p : Access → Bool) : accMask r false p = fieldMask (r.fields.filter (fun f => p f.acc)) % 2 ^ 32 := by
  have sum_from (fs : List RegField) (a : Nat) :
      fs.foldl (fun a f => a + (2 ^ (f.hi - f.lo + 1) - 1) * 2 ^ f.lo) a = a + fieldMask fs := by
    induction fs generalizing a with
    | nil => rfl
    | cons f fs ih => rw [List.foldl_cons, ih]; simp [fieldMask, Nat.add_assoc]
  simp only [accMask, sum_from, Nat.zero_add]
  rfl

/-- In a field of a 32-bit register, the ones of some access types are those of the field's own. -/
theorem testBit_accMask {r : RegDef} (hr : fieldsBelow 32 r.fields = true) (p : Access → Bool) {f : RegField} (hf : f ∈ r.fields) {i : Nat}
    (hi : fieldCovers f i = true) : (accMask r false p).testBit i = p f.acc := by
  have hi32 : i < 32 := fieldCovers_lt hr hf hi
  rw [accMask_low, Nat.testBit_mod_two_pow, testBit_fieldMask (fieldsBelow_filter _ hr), decide_eq_true hi32, Bool.true_and,
    Bool.eq_iff_iff, List.any_eq_true]
  constructor
  · rintro ⟨g, hg, hgi⟩
    obtain ⟨hg, hp⟩ := List.mem_filter.1 hg
    exact fieldCovers_unique hr hf hg hi hgi ▸ hp
  · exact fun hp => ⟨f, List.mem_filter.2 ⟨hf, hp⟩, hi⟩

set_option maxRecDepth 20000 in
/-- The register map gives every register its fields in order, within its width. -/
theorem allRegs_fieldsBelow : allRegs.all (fun r => fieldsBelow (if r.wide then 64 else 32) r.fields) = true := by decide

theorem findReg_mem {fn off : Nat} {r : RegDef} {idx : List Nat} {hi : Bool} (h : findReg fn off = some (r, idx, hi)) : r ∈ allRegs := by
  unfold findReg at h
  split at h
  · cases h
  · obtain ⟨q, hq, e⟩ := List.exists_of_findSome?_eq_some h
    obtain ⟨p, -, e⟩ := Option.map_eq_some_iff.1 e
    have hr : q = r := congrArg Prod.fst e
    exact hr ▸ hq

theorem findReg_fieldsBelow {fn off : Nat} {r : RegDef} {idx : List Nat} {hi : Bool} (h : findReg fn off = some (r, idx, hi))
    (hw : r.wide = false) : fieldsBelow 32 r.fields = true := by
  simpa [hw] using List.all_eq_true.1 allRegs_fieldsBelow r (findReg_mem h)

theorem testBit_complement32 {m i : Nat} (hm : m < 2 ^ 32) (hi : i < 32) : (2 ^ 32 - 1 - m).testBit i = !m.testBit i := by
  rw [Nat.sub_sub, Nat.add_comm 1 m, Nat.testBit_two_pow_sub_succ hm, decide_eq_true hi, Bool.true_and]

theorem accMask_low_lt (r : RegDef) (p : Access → Bool) : accMask r false p < 2 ^ 32 := Nat.mod_lt _ (Nat.two_pow_pos 32)

theorem Die.freshBits_lt (x : Die) (key : Nat) : x.freshBits key < 2 ^ 32 := BitVec.isLt _

/-- The bit that a write leaves of a field's bit, by the field's access type (R17, R19): what the bit was, what is written, and whether an
event has set it in the present clock. -/
def Die.bitWritten (x : Die) (fn : Nat) (a : Access) (old new fresh : Bool) : Bool :=
  match a with
  | .rw | .rws => new
  | .rwe => if x.expert fn then new else old
  | .rwl => if x.lockOpen then new else old
  | .ro | .rc | .wo => old
  | .w1c => old && !(new && !fresh)
  | .w1s => old || new

theorem Die.testBit_written (x : Die) {key : Nat} {r : RegDef} {idx : List Nat}
    (h : findReg (key / 0x10000) (key % 0x10000) = some (r, idx, false)) (hw : r.wide = false) {f : RegField} (hf : f ∈ r.fields) {i : Nat}
    (hi : fieldCovers f i = true) (v : Nat) :
    (x.written key v).testBit i =
      x.bitWritten (key / 0x10000) f.acc ((x.reg key).testBit i) (v.testBit i) ((x.freshBits key).testBit i) := by
  have hr := findReg_fieldsBelow h hw
  have hi32 : i < 32 := fieldCovers_lt hr hf hi
  have land_bit (a b : Nat) : (Nat.land a b).testBit i = (a.testBit i && b.testBit i) := Nat.testBit_and a b i
  have lor_bit (a b : Nat) : (Nat.lor a b).testBit i = (a.testBit i || b.testBit i) := Nat.testBit_or a b i
  have hclear : Nat.land (x.clearing key v) (accMask r false (· == Access.w1c)) < 2 ^ 32 :=
    Nat.lt_of_le_of_lt Nat.and_le_right (accMask_low_lt r _)
  have bits : (x.written key v).testBit i =
      (((x.reg key).testBit i && !x.takes (key / 0x10000) f.acc || v.testBit i && x.takes (key / 0x10000) f.acc) &&
        !((v.testBit i && !(x.freshBits key).testBit i) && decide (f.acc = Access.w1c)) || v.testBit i && decide (f.acc = Access.w1s)) := by
    unfold Die.written
    rw [h]
    rw [lor_bit, land_bit, lor_bit, land_bit, land_bit, land_bit, testBit_complement32 (accMask_low_lt r _) hi32,
      testBit_complement32 hclear hi32, land_bit, Die.clearing, land_bit, testBit_complement32 (x.freshBits_lt key) hi32,
      testBit_accMask hr _ hf hi, testBit_accMask hr _ hf hi, testBit_accMask hr _ hf hi]
    rfl
  rw [bits]
  cases f.acc
  case rwe => cases he : x.expert (key / 0x10000) <;> simp [Die.bitWritten, Die.takes, he]
  case rwl => cases he : x.lockOpen <;> simp [Die.bitWritten, Die.takes, he]
  all_goals simp [Die.bitWritten, Die.takes]

theorem regKey_div (fn : Nat) {off : Nat} (h : off < 65536) : regKey fn off / 0x10000 = fn := by unfold regKey; omega

theorem regKey_mod (fn : Nat) {off : Nat} (h : off < 65536) : regKey fn off % 0x10000 = off := by unfold regKey; omega

theorem testBit_bitsOf (w hi lo i : Nat) : (bitsOf w hi lo).testBit i = (decide (i < hi - lo + 1) && w.testBit (i + lo)) :=
  testBit_fget ⟨hi, lo⟩ w i

/-- Words whose bits agree in a field have the same value there. -/
theorem bitsOf_congr {a b : Nat} {f : RegField} (hb : f.lo ≤ f.hi) (h : ∀ i, fieldCovers f i = true → a.testBit i = b.testBit i) :
    bitsOf a f.hi f.lo = bitsOf b f.hi f.lo := by
  apply Nat.eq_of_testBit_eq
  intro i
  rw [testBit_bitsOf, testBit_bitsOf]
  by_cases hi : i < f.hi - f.lo + 1
  · rw [h (i + f.lo) (by simp [fieldCovers]; omega)]
  · simp [hi]

/-- Settles O13: in each field a write acts bit by bit as the field's access type says. -/
theorem registerFieldsByAccess : Obligations.RegisterFieldsByAccess := by
  unfold Obligations.RegisterFieldsByAccess
  intro x fn off r idx v h hw _ hoff _ f hf
  have hlo : f.lo ≤ f.hi := fieldsBelow_lo_le (findReg_fieldsBelow h hw) hf
  have hbit (i : Nat) (hi : fieldCovers f i = true) := x.testBit_written (key := regKey fn off)
    (by rwa [regKey_div fn hoff, regKey_mod fn hoff]) hw hf hi v
  rw [regKey_div fn hoff] at hbit
  have hcov {i : Nat} (hi : i ≤ f.hi - f.lo) : fieldCovers f (i + f.lo) = true := by simp [fieldCovers]; omega
  refine ⟨?rw_rws, ?rwe, ?rwl, ?ro_rc_wo, ?w1c, ?w1s⟩ <;> intro ha
  case rw_rws => exact bitsOf_congr hlo fun i hi => by rcases ha with ha | ha <;> rw [hbit i hi, ha] <;> rfl
  case rwe =>
    split <;> rename_i he <;> exact bitsOf_congr hlo fun i hi => by rw [hbit i hi, ha]; simp [Die.bitWritten, he]
  case rwl =>
    split <;> rename_i he <;> exact bitsOf_congr hlo fun i hi => by rw [hbit i hi, ha]; simp [Die.bitWritten, he]
  case ro_rc_wo => exact bitsOf_congr hlo fun i hi => by rcases ha with ha | ha | ha <;> rw [hbit i hi, ha] <;> rfl
  case w1c =>
    intro i hi
    rw [testBit_bitsOf, testBit_bitsOf, testBit_bitsOf, hbit _ (hcov hi), ha, Nat.add_comm f.lo i]
    simp [Die.bitWritten, show i < f.hi - f.lo + 1 by omega]
  case w1s =>
    intro i
    rw [testBit_bitsOf, testBit_bitsOf, testBit_bitsOf]
    by_cases hi : i ≤ f.hi - f.lo
    · rw [hbit _ (hcov hi), ha]
      simp [Die.bitWritten, show i < f.hi - f.lo + 1 by omega]
    · simp [show ¬ i < f.hi - f.lo + 1 by omega]

end Sys2Proof.Machine
end

section
/-!
PROOFS. Register accesses through BAR0 and PF1 BAR2 (R14 to R17, R21): what each makes of a state.
-/

namespace Sys2Proof.Machine

/-! ## Accesses through BAR0 -/

theorem exec_registerWrite (d : DieId) (f : Fin 4) (off : BitVec 16) (wide : Bool) (v : Word64) (s : State) :
    exec (.registerWrite d f off wide v) s = done (registerWrite d f off.toNat wide v.toNat s) := rfl

theorem exec_unmappedAccess (d : DieId) (a : HostAddr) (n : Fin 9) (write : Bool) (s : State) :
    exec (.unmappedAccess d a n write) s = done (unmappedAccess d a n write s) := rfl

theorem exec_lowWordReadCapture (d : DieId) (f : Fin 4) (off : BitVec 16) (wide : Bool) (s : State) :
    exec (.lowWordReadCapture d f off wide) s = done (hostRead d f off.toNat wide s) := rfl

theorem exec_rcRegisterRead (d : DieId) (f : Fin 4) (off : RegRead) (s : State) :
    exec (.rcRegisterRead d f off) s = done (hostRead d f off.off.toNat off.wide s) := rfl

theorem exec_calRdDataRead (d : DieId) (s : State) :
    exec (.calRdDataRead d) s = done (hostRead d 1 (Reg.CAL_RD_DATA % 0x10000) false s) := rfl

theorem exec_thmRsDataRead (d : DieId) (s : State) :
    exec (.thmRsDataRead d) s = done (hostRead d 0 (Reg.THM_RS_DATA % 0x10000) false s) := rfl

/-- A write through BAR0 has cleared the other masters' monitors of its place (R510). -/
def monitorsCleared (s : State) (d : DieId) (f off len : Nat) : State :=
  s.onDie d (fun x => mtxWritten x 4 (mtxPlace tRegs (regKey f off)) len)

@[simp] theorem monitorsCleared_reg (s : State) (d : DieId) (f off len key : Nat) :
    ((monitorsCleared s d f off len).die d).reg key = (s.die d).reg key := by simp [monitorsCleared]; rfl

@[simp] theorem monitorsCleared_barOpen (s : State) (d : DieId) (f off len : Nat) :
    ((monitorsCleared s d f off len).die d).barOpen = (s.die d).barOpen := by simp [monitorsCleared]; rfl

@[simp] theorem monitorsCleared_lowWords (s : State) (d : DieId) (f off len : Nat) :
    ((monitorsCleared s d f off len).die d).lowWords = (s.die d).lowWords := by simp [monitorsCleared]; rfl

theorem registerWrite_narrow (d : DieId) (f off v : Nat) (s : State) :
    registerWrite d f off false v s = write4 (monitorsCleared s d f off 4) d f off (v % 2 ^ 32) true := rfl

theorem registerWrite_wide (d : DieId) (f off v : Nat) (s : State) :
    registerWrite d f off true v s = write8 (monitorsCleared s d f off 8) d f off v true := rfl

section Writes
variable {s : State} {d : DieId} {f off v : Nat} {r : RegDef} {idx : List Nat}

theorem write4_shut (hb : (s.die d).barOpen = false) : write4 s d f off v true = s := by simp [write4, regReach, hb]

theorem write4_unmapped (hb : (s.die d).barOpen = true) (h : findReg f off = none) : write4 s d f off v true = raise s d 158 := by
  simp [write4, regReach, hb, h]

theorem write4_word (hb : (s.die d).barOpen = true) {hi : Bool} (h : findReg f off = some (r, idx, hi)) (hw : r.wide = false) :
    write4 s d f off v true = writeReg s d f (regKey f off) r.off idx v := by
  simp [write4, regReach, hb, h, hw]

/-- The low word of a 64-bit register waits for its high word (R15). -/
theorem write4_low (hb : (s.die d).barOpen = true) (h : findReg f off = some (r, idx, false)) (hw : r.wide = true) :
    write4 s d f off v true = s.onDie d (fun x => { x with lowWords := spPut (regKey f off) (BitVec.ofNat 32 v) x.lowWords }) := by
  simp [write4, regReach, hb, h, hw]

/-- The low word that a write of a 64-bit register's high word completes: the one that waits, else the one stored (R15). -/
def lowHalf (x : Die) (key : Nat) : Nat := match spFind key x.lowWords with | some w => w.toNat | none => x.reg key

theorem lowHalf_congr {x y : Die} {key : Nat} (hl : x.lowWords = y.lowWords) (hr : x.reg key = y.reg key) : lowHalf x key = lowHalf y key := by
  simp only [lowHalf, hl, hr]

theorem write4_high (hb : (s.die d).barOpen = true) (h : findReg f off = some (r, idx, true)) (hw : r.wide = true) :
    write4 s d f off v true =
      writeWide (s.onDie d (fun x => { x with lowWords := spDel (regKey f off - 4) x.lowWords })) d f (regKey f off - 4) r.off (idx.headD 0)
        (lowHalf (s.die d) (regKey f off - 4) + 2 ^ 32 * v) := by
  cases hl : spFind (regKey f off - 4) (s.die d).lowWords <;> simp [write4, regReach, hb, h, hw, lowHalf, hl]

theorem wideAt_low (h : findReg f off = some (r, idx, false)) (hw : r.wide = true) : wideAt f off = some (r, idx) := by
  simp [wideAt, h, hw]

theorem write8_wide (hb : (s.die d).barOpen = true) (h : findReg f off = some (r, idx, false)) (hw : r.wide = true) :
    write8 s d f off v true = writeWide s d f (regKey f off) r.off (idx.headD 0) v := by
  simp [write8, wideAt_low h hw, regReach, hb]

end Writes

/-- The words whose reads act by themselves, and the companions of captured words: each a 32-bit register. -/
def ownReads : List Nat :=
  [Reg.TIM_NOW_FRAC, Reg.DLR_LAST_FRAC, Reg.DLR_NEXT_FRAC, Reg.DCK_NEXT_BND_FRAC, Reg.TIM_TXTS_INFO, Reg.CAL_RD_DATA, Reg.THM_RS_DATA]

set_option maxRecDepth 20000 in
theorem ownReads_narrow : ownReads.all (fun k => (findReg (k / 0x10000) (k % 0x10000)).any (fun p => !p.1.wide)) = true := by decide

theorem not_mem_ownReads_of_wide {f off : Nat} (ho : off < 65536) {r : RegDef} {p : List Nat × Bool} (h : findReg f off = some (r, p))
    (hw : r.wide = true) : regKey f off ∉ ownReads := by
  intro hm
  have := List.all_eq_true.1 ownReads_narrow _ hm
  rw [regKey_div f ho, regKey_mod f ho, h] at this
  simp [hw] at this

section Reads
variable {s : State} {d : DieId} {f off : Nat} {r : RegDef} {idx : List Nat}

theorem hostRead_narrow (d : DieId) (f off : Nat) (s : State) :
    hostRead d f off false s = (hostRead4 s d f off).1.emit (.regRead d f off 4 (hostRead4 s d f off).2) := rfl

theorem hostRead4_shut (hb : (s.die d).barOpen = false) : hostRead4 s d f off =
    (s, if (s.die d).alive && decide (regKey f off = Reg.RED_MODE) then viewWord s d (regKey f off) else 0) := by
  simp [hostRead4, hb]

theorem hostRead4_unmapped (hb : (s.die d).barOpen = true) (h : findReg f off = none) : hostRead4 s d f off = (raise s d 158, 0) := by
  simp [hostRead4, hb, h]

/-- A read of a high word returns what its function captured (R15). -/
theorem hostRead4_captured (hb : (s.die d).barOpen = true) (h : findReg f off = some (r, idx, true)) {w : Word32}
    (hc : spFind (off - 4) ((s.die d).fn f).captures = some w) : hostRead4 s d f off = (s, w.toNat) := by
  simp [hostRead4, hb, h, captureOf, hc]

theorem hostRead4_word (hb : (s.die d).barOpen = true) (h : findReg f off = some (r, idx, false))
    (hc : [Reg.TIM_NOW_FRAC, Reg.DLR_LAST_FRAC, Reg.DLR_NEXT_FRAC, Reg.DCK_NEXT_BND_FRAC].contains (regKey f off) = false)
    (hw : r.wide = false) :
    hostRead4 s d f off = (readEffect s d f (regKey f off) r idx, readWord s d (regKey f off)) := by
  simp only [hostRead4, hb, h, hc, hw, Bool.not_true, Bool.false_or, Bool.false_eq_true, if_false]

/-- A read of the low word of a 64-bit register captures (R15). -/
theorem hostRead4_low (hb : (s.die d).barOpen = true) (ho : off < 65536) (h : findReg f off = some (r, idx, false)) (hw : r.wide = true)
    (hrc : regHas (regKey f off) (· == Access.rc) = false) :
    hostRead4 s d f off = (capture s d f (regKey f off), viewWord s d (regKey f off)) := by
  have hn := not_mem_ownReads_of_wide ho h hw
  simp only [ownReads, List.mem_cons, not_or] at hn
  obtain ⟨h1, h2, h3, h4, htx, hcal, hthm, -⟩ := hn
  simp [hostRead4, hb, h, hw, h1, h2, h3, h4, htx, hcal, hthm, readEffect, readWord, hrc]

theorem hostRead_low_wide (hb : (s.die d).barOpen = true) (ho : off < 65536) (h : findReg f off = some (r, idx, false)) (hw : r.wide = true)
    (hrc : regHas (regKey f off) (· == Access.rc) = false) :
    hostRead d f off true s = (capture s d f (regKey f off)).emit
      (.regRead d f off 8 (viewWord s d (regKey f off) + 2 ^ 32 * viewWord s d (regKey f off + 4))) := by
  simp [hostRead, hostRead8, hostRead4_low hb ho h hw hrc, hb, wideAt_low h hw]

end Reads

theorem raise_out (s : State) (d : DieId) (src inst : Nat) : (raise s d src inst).out = s.out := by
  unfold raise
  split
  · exact State.onDie_out s d _
  · rfl

set_option maxRecDepth 20000 in
theorem findReg_calRdData : findReg 1 (Reg.CAL_RD_DATA % 0x10000) =
    some (⟨[1], 0x80b4, [], false, false, [⟨31, 0, .ro, 0⟩]⟩, [], false) := by decide

set_option maxRecDepth 20000 in
theorem findReg_thmRsData : findReg 0 (Reg.THM_RS_DATA % 0x10000) =
    some (⟨[0], 0x3084, [], false, false, [⟨31, 0, .ro, 0⟩]⟩, [], false) := by decide

/-! ## What each access makes of a state -/

section Accesses
variable {s : State} {d : DieId} {f : Fin 4} {off : BitVec 16} {r : RegDef} {idx : List Nat}

theorem makes_write_word (hb : (s.die d).barOpen = true) (h : findReg f off.toNat = some (r, idx, false)) (hw : r.wide = false)
    (v : Word64) : Makes (.registerWrite d f off false v) s
      (writeReg (monitorsCleared s d f off.toNat 4) d f (regKey f off.toNat) r.off idx (v.toNat % 2 ^ 32)) :=
  Makes.of_done (by rw [exec_registerWrite, registerWrite_narrow, write4_word (by simpa using hb) h hw])

theorem makes_write_low (hb : (s.die d).barOpen = true) (h : findReg f off.toNat = some (r, idx, false)) (hw : r.wide = true)
    (v : Word64) : Makes (.registerWrite d f off false v) s ((monitorsCleared s d f off.toNat 4).onDie d
      (fun x => { x with lowWords := spPut (regKey f off.toNat) (BitVec.ofNat 32 v.toNat) x.lowWords })) := by
  have hv : BitVec.ofNat 32 (v.toNat % 2 ^ 32) = BitVec.ofNat 32 v.toNat :=
    BitVec.eq_of_toNat_eq (by rw [BitVec.toNat_ofNat, BitVec.toNat_ofNat, Nat.mod_mod])
  exact Makes.of_done (by rw [exec_registerWrite, registerWrite_narrow, write4_low (by simpa using hb) h hw, hv])

theorem makes_write_both (hb : (s.die d).barOpen = true) (h : findReg f off.toNat = some (r, idx, false)) (hw : r.wide = true)
    (v : Word64) : Makes (.registerWrite d f off true v) s
      (writeWide (monitorsCleared s d f off.toNat 8) d f (regKey f off.toNat) r.off (idx.headD 0) v.toNat) :=
  Makes.of_done (by rw [exec_registerWrite, registerWrite_wide, write8_wide (by simpa using hb) h hw])

theorem makes_write_high (hb : (s.die d).barOpen = true) (h : findReg f off.toNat = some (r, idx, true)) (hw : r.wide = true)
    (v : Word64) : Makes (.registerWrite d f off false v) s
      (writeWide ((monitorsCleared s d f off.toNat 4).onDie d (fun x => { x with lowWords := spDel (regKey f off.toNat - 4) x.lowWords })) d f
        (regKey f off.toNat - 4) r.off (idx.headD 0)
        (lowHalf (s.die d) (regKey f off.toNat - 4) + 2 ^ 32 * (v.toNat % 2 ^ 32))) :=
  Makes.of_done (by
    rw [exec_registerWrite, registerWrite_narrow, write4_high (by simpa using hb) h hw, lowHalf_congr (monitorsCleared_lowWords ..)
      (monitorsCleared_reg ..)])

theorem makes_write_unmapped (hb : (s.die d).barOpen = true) (h : findReg f off.toNat = none) (v : Word64) :
    Makes (.registerWrite d f off false v) s (monitorsCleared s d f off.toNat 4) :=
  Makes.intro (by rw [exec_registerWrite, registerWrite_narrow, write4_unmapped (by simpa using hb) h])
    (OnlyRecords.raise _ d 158 0 (by decide))

theorem makes_write_shut (hb : (s.die d).barOpen = false) (v : Word64) :
    Makes (.registerWrite d f off false v) s (monitorsCleared s d f off.toNat 4) :=
  Makes.of_done (by rw [exec_registerWrite, registerWrite_narrow, write4_shut (by simpa using hb)])

/-- An access to an offset without a register (R16). -/
theorem makes_unmappedAccess (hb : (s.die d).barOpen = true) (h : findReg f off.toNat = none) :
    Makes (.unmappedAccess d (.bar0 f off) 4 true) s s ∧
      Makes (.unmappedAccess d (.bar0 f off) 4 false) s (s.emit (.regRead d f off.toNat 4 0)) := by
  have hr : OnlyRecords s (raise s d 158) := OnlyRecords.raise s d 158 0 (by decide)
  constructor
  · refine Makes.intro (u := raise s d 158) ?_ hr
    rw [exec_unmappedAccess]
    simp [unmappedAccess, h, write4_unmapped hb h]
  · refine Makes.intro (u := (raise s d 158).emit (.regRead d f off.toNat 4 0)) ?_ (hr.emit_congr (raise_out s d 158 0) _)
    rw [exec_unmappedAccess]
    simp [unmappedAccess, h, hostRead_narrow, hostRead4_unmapped hb h]

/-- An access through PF1 BAR2 (R14). -/
theorem makes_bar2Access (hb : (s.die d).barOpen = true) (o : BitVec 26) (n : Fin 9) :
    Makes (.unmappedAccess d (.bar2 o) n true) s s ∧
      Makes (.unmappedAccess d (.bar2 o) n false) s
        (s.emit (.bar2Read d o.toNat ((List.range n).map (fun i => bar2Byte (s.die d) (o.toNat + i))))) :=
  ⟨Makes.of_done (by rw [exec_unmappedAccess]; rfl), Makes.of_done (by rw [exec_unmappedAccess]; simp [unmappedAccess, hb])⟩

theorem makes_read_low (hb : (s.die d).barOpen = true) (h : findReg f off.toNat = some (r, idx, false)) (hw : r.wide = true)
    (hrc : regHas (regKey f off.toNat) (· == Access.rc) = false) : Makes (.lowWordReadCapture d f off false) s
      ((capture s d f (regKey f off.toNat)).emit (.regRead d f off.toNat 4 (viewWord s d (regKey f off.toNat)))) :=
  Makes.of_done (by rw [exec_lowWordReadCapture, hostRead_narrow, hostRead4_low hb off.isLt h hw hrc])

theorem makes_read_both (hb : (s.die d).barOpen = true) (h : findReg f off.toNat = some (r, idx, false)) (hw : r.wide = true)
    (hrc : regHas (regKey f off.toNat) (· == Access.rc) = false) : Makes (.lowWordReadCapture d f off true) s
      ((capture s d f (regKey f off.toNat)).emit (.regRead d f off.toNat 8
        (viewWord s d (regKey f off.toNat) + 2 ^ 32 * viewWord s d (regKey f off.toNat + 4)))) :=
  Makes.of_done (by rw [exec_lowWordReadCapture, hostRead_low_wide hb off.isLt h hw hrc])

theorem makes_read_captured (hb : (s.die d).barOpen = true) (h : findReg f off.toNat = some (r, idx, true)) {w : Word32}
    (hc : spFind (off.toNat - 4) ((s.die d).fn f).captures = some w) :
    Makes (.lowWordReadCapture d f off false) s (s.emit (.regRead d f off.toNat 4 w.toNat)) :=
  Makes.of_done (by rw [exec_lowWordReadCapture, hostRead_narrow, hostRead4_captured hb h hc])

/-- A read of a register with read-to-clear fields clears them (R17, R21). -/
theorem makes_read_rc (hb : (s.die d).barOpen = true) (h : findReg f off.toNat = some (r, idx, false)) (hw : r.wide = false) (hf : f ≠ 1)
    (hrc : regHas (regKey f off.toNat) (· == Access.rc) = true) (htx : regKey f off.toNat ≠ Reg.TIM_TXTS_INFO)
    (hthm : regKey f off.toNat ≠ Reg.THM_RS_DATA) (hp : portAbsent (s.die d) (regKey f off.toNat) = false)
    (hc : [Reg.TIM_NOW_FRAC, Reg.DLR_LAST_FRAC, Reg.DLR_NEXT_FRAC, Reg.DCK_NEXT_BND_FRAC].contains (regKey f off.toNat) = false) :
    Makes (.rcRegisterRead d f ⟨off, false⟩) s
      ((s.onDie d (fun x => x.setReg (regKey f off.toNat) (rcCleared (regKey f off.toNat) (x.reg (regKey f off.toNat))))).emit
        (.regRead d f off.toNat 4 (viewWord s d (regKey f off.toNat)))) := by
  have hf1 : f.val ≠ 1 := fun e => hf (Fin.ext e)
  have hcal : regKey f off.toNat ≠ Reg.CAL_RD_DATA := by
    intro e
    have := congrArg (· / 0x10000) e
    rw [regKey_div f off.isLt] at this
    exact hf1 this
  have he : readEffect s d f (regKey f off.toNat) r idx =
      s.onDie d (fun x => x.setReg (regKey f off.toNat) (rcCleared (regKey f off.toNat) (x.reg (regKey f off.toNat)))) := by
    simp only [readEffect, htx, hcal, hthm, hrc, hp, hf1, if_false, Bool.not_false, Bool.and_self, if_true]
  have hv : readWord s d (regKey f off.toNat) = viewWord s d (regKey f off.toNat) := if_neg htx
  exact Makes.of_done (by rw [exec_rcRegisterRead, hostRead_narrow, hostRead4_word hb h hc hw, he, hv])

theorem makes_read_shut (hb : (s.die d).barOpen = false) : Makes (.rcRegisterRead d f ⟨off, false⟩) s
    (s.emit (.regRead d f off.toNat 4
      (if (s.die d).alive && decide (regKey f off.toNat = Reg.RED_MODE) then viewWord s d (regKey f off.toNat) else 0))) :=
  Makes.of_done (by rw [exec_rcRegisterRead, hostRead_narrow, hostRead4_shut hb])

/-- A read of CAL_RD_DATA goes on by a word (R310). -/
theorem makes_calRdDataRead (hb : (s.die d).barOpen = true) : Makes (.calRdDataRead d) s
    ((s.setRf d Reg.CAL_RD_SEL F.CAL_RD_SEL_OFFSET (((s.die d).rf Reg.CAL_RD_SEL F.CAL_RD_SEL_OFFSET / 4 * 4 + 4) % 2 ^ 21)).emit
      (.regRead d 1 (Reg.CAL_RD_DATA % 65536) 4 (viewWord s d Reg.CAL_RD_DATA))) :=
  Makes.of_done (by rw [exec_calRdDataRead, hostRead_narrow, hostRead4_word hb findReg_calRdData (by decide) rfl]; rfl)

/-- A read of THM_RS_DATA goes on by a word (R490). -/
theorem makes_thmRsDataRead (hb : (s.die d).barOpen = true) : Makes (.thmRsDataRead d) s
    ((s.setRf d Reg.THM_RS_SEL F.THM_RS_SEL_OFFSET (((s.die d).rf Reg.THM_RS_SEL F.THM_RS_SEL_OFFSET / 4 * 4 + 4) % 32768)).emit
      (.regRead d 0 (Reg.THM_RS_DATA % 65536) 4 (viewWord s d Reg.THM_RS_DATA))) :=
  Makes.of_done (by rw [exec_thmRsDataRead, hostRead_narrow, hostRead4_word hb findReg_thmRsData (by decide) rfl]; rfl)

end Accesses

theorem capture_alone (s : State) (d : DieId) (f key : Nat) (h : companion key = none) : capture s d f key =
    s.onDie d (·.onFn f (fun n =>
      { n with captures := spPut (key % 65536) (BitVec.ofNat 32 (viewWord s d (key + 4))) n.captures })) := by
  simp only [capture, h]

theorem capture_pair (s : State) (d : DieId) (f key c : Nat) (h : companion key = some c) : capture s d f key =
    s.onDie d (·.onFn f (fun n =>
      { n with captures :=
                 spPut (c % 65536) (BitVec.ofNat 32 (viewWord s d c))
                   (spPut (key % 65536) (BitVec.ofNat 32 (viewWord s d (key + 4))) n.captures) })) := by
  simp only [capture, h]

/-- Settles O14: each access of the statement by the lemma that says what it makes of a state. -/
theorem registerAccesses : Obligations.RegisterAccesses := by
  unfold Obligations.RegisterAccesses
  refine ⟨fun d f off v o2 n s hb => ⟨?mapped, ?high, ?unmapped, makes_bar2Access hb o2 n⟩,
    fun d f off s => ⟨fun hb => ⟨?low, ?captured, ?rc, makes_calRdDataRead hb, makes_thmRsDataRead hb⟩, ?shut, ?boot⟩⟩
  case mapped =>
    exact fun r idx h => ⟨fun hw => makes_write_word hb h hw v, fun hw => ⟨makes_write_low hb h hw v, makes_write_both hb h hw v⟩⟩
  case high => exact fun r idx h hw => makes_write_high hb h hw v
  case unmapped => exact fun h => ⟨makes_write_unmapped hb h v, makes_unmappedAccess hb h⟩
  case low =>
    refine fun r idx h hw hrc => ⟨fun hc => ?_, fun c hc => ?_⟩
    · have ec := capture_alone s d f _ hc
      exact ⟨ec ▸ makes_read_low hb h hw hrc, fun _ => ec ▸ makes_read_both hb h hw hrc⟩
    · exact capture_pair s d f _ c hc ▸ makes_read_low hb h hw hrc
  case captured => exact fun r idx w h hc => makes_read_captured hb h hc
  case rc => exact fun r idx h hw hf hrc htx hthm hp _ hc => makes_read_rc hb h hw hf hrc htx hthm hp hc
  case shut =>
    exact fun hb hk => ⟨by simpa [hk] using makes_read_shut (f := f) (off := off) hb, makes_write_shut hb 0⟩
  case boot => exact fun hb ha hk => by simpa [hk, ha] using makes_read_shut (f := f) (off := off) hb

end Sys2Proof.Machine
end

section
/-!
PROOFS. HIF_LEVEL.EXPERT of a function (R22).
-/

namespace Sys2Proof.Machine

theorem hifLevel_eq_regKey (fn : Nat) : Reg.HIF_LEVEL fn = regKey fn 0xF000 := by unfold Reg.HIF_LEVEL regKey; omega

theorem hifLevel_ne {f g : Nat} (h : f ≠ g) : Reg.HIF_LEVEL g ≠ Reg.HIF_LEVEL f := by unfold Reg.HIF_LEVEL; omega

theorem regKey_ne_hifLevel {f g off : Nat} (h : f ≠ g) (ho : off < 65536) : regKey g off ≠ Reg.HIF_LEVEL f := by
  unfold Reg.HIF_LEVEL regKey; omega

theorem Die.expert_eq_testBit (x : Die) (fn : Nat) : x.expert fn = (x.reg (Reg.HIF_LEVEL fn)).testBit 0 := by
  have h : fget F.HIF_LEVEL_EXPERT (x.reg (Reg.HIF_LEVEL fn)) = x.reg (Reg.HIF_LEVEL fn) % 2 := by
    simp [fget, bitsOf, F.HIF_LEVEL_EXPERT]
  rw [Die.expert, Die.rbit, Die.rf, h, Nat.testBit_zero, Bool.eq_iff_iff]
  simp

/-- EXPERT of another function does not depend on a function's HIF_LEVEL (R22). -/
theorem Die.expert_setLevel_other (x : Die) {f g : Nat} (h : f ≠ g) (v : Nat) : (x.setReg (Reg.HIF_LEVEL f) v).expert g = x.expert g := by
  rw [Die.expert_eq_testBit, Die.expert_eq_testBit, Die.reg_setReg_other x (hifLevel_ne h)]

theorem Die.expert_setLevel_same (x : Die) (f v : Nat) : (x.setReg (Reg.HIF_LEVEL f) v).expert f = v.testBit 0 := by
  rw [Die.expert_eq_testBit, Die.reg_setReg_same, Nat.testBit_mod_two_pow]
  rfl

/-- What a write of a word stores depends on that word, EXPERT of its function, the service lock and the events of the present clock. -/
theorem Die.written_congr {x y : Die} {key : Nat} (hr : y.reg key = x.reg key) (he : y.expert (key / 0x10000) = x.expert (key / 0x10000))
    (hs : y.svc = x.svc) (hf : y.fresh = x.fresh) (w : Nat) : y.written key w = x.written key w := by
  have ht : y.takes (key / 0x10000) = x.takes (key / 0x10000) := by
    funext a
    cases a <;> simp [Die.takes, Die.lockOpen, he, hs]
  have hc : y.clearing key w = x.clearing key w := by simp only [Die.clearing, Die.freshBits, hf]
  simp only [Die.written, hr, ht, hc]

set_option maxRecDepth 20000 in
theorem findReg_hifLevel : ∀ f : Fin 4, findReg f 0xF000 =
    some (⟨[0, 1, 2, 3], 0xF000, [], false, false, [⟨31, 1, .ro, 0⟩, ⟨0, 0, .rw, 0⟩]⟩, [], false) := by decide

set_option maxRecDepth 20000 in
/-- HIF_LEVEL belongs to no control port, takes every die's writes, is not mirrored, and no record writes it. -/
theorem hifLevel_plain : ∀ f : Fin 4, keyPort (Reg.HIF_LEVEL f) = none ∧ declOnly (Reg.HIF_LEVEL f) = false ∧
    recordKey (Reg.HIF_LEVEL f) = false := by decide

theorem putWord_plain {key : Nat} (h : declOnly key = false) (s : State) (d : DieId) (v : Nat) :
    putWord s d key v = s.onDie d (fun x => x.setReg key (x.written key (v % 2 ^ 32))) := by
  simp [putWord, Die.writable, isMirrored, h]
  rfl

/-- A write through BAR0 to HIF_LEVEL stores what its field takes. -/
theorem makes_write_hifLevel {s : State} {d : DieId} (hb : (s.die d).barOpen = true) (f : Fin 4) (v : Word64) :
    Makes (.registerWrite d f (BitVec.ofNat 16 0xF000) false v) s
      ((monitorsCleared s d f 0xF000 4).onDie d (fun x =>
        x.setReg (Reg.HIF_LEVEL f) (x.written (Reg.HIF_LEVEL f) (v.toNat % 2 ^ 32)))) := by
  obtain ⟨hp, hd, -⟩ := hifLevel_plain f
  have hw := makes_write_word (off := BitVec.ofNat 16 0xF000) hb (findReg_hifLevel f) rfl v
  have ho : (BitVec.ofNat 16 0xF000).toNat = 0xF000 := rfl
  rw [ho, ← hifLevel_eq_regKey] at hw
  have he : writeReg (monitorsCleared s d f 0xF000 4) d f (Reg.HIF_LEVEL f) 0xF000 [] (v.toNat % 2 ^ 32) =
      putWord (monitorsCleared s d f 0xF000 4) d (Reg.HIF_LEVEL f) (v.toNat % 2 ^ 32) := by
    simp [writeReg, portAbsent, hp, writeHif]
  rwa [he, putWord_plain hd, Nat.mod_mod] at hw

/-- EXPERT takes the bit that is written (R22). -/
theorem Die.testBit_written_hifLevel (x : Die) (f : Fin 4) (v : Nat) : (x.written (Reg.HIF_LEVEL f) v).testBit 0 = v.testBit 0 := by
  have ho : 0xF000 < 65536 := by decide
  rw [hifLevel_eq_regKey]
  exact x.testBit_written (f := ⟨0, 0, .rw, 0⟩) (by rw [regKey_div f ho, regKey_mod f ho]; exact findReg_hifLevel f) rfl (by simp) rfl v

/-- Records leave EXPERT. -/
theorem OnlyRecords.expert {s t : State} (h : OnlyRecords s t) (d : DieId) (f : Fin 4) : (t.die d).expert f = (s.die d).expert f := by
  rw [Die.expert_eq_testBit, Die.expert_eq_testBit, h.regs d _ (hifLevel_plain f).2.2]

/-- Settles O57: HIF_LEVEL of a function is a word of its own, and a write of a word looks at EXPERT of the word's function only. -/
theorem expertIsPerFunction : Obligations.ExpertIsPerFunction := by
  unfold Obligations.ExpertIsPerFunction
  refine ⟨fun x f g v h => ?_, fun d f v s hb => ?_⟩
  · have hfg : f.val ≠ g.val := fun e => h (Fin.ext e)
    have hg := x.expert_setLevel_other hfg v
    refine ⟨?_, hg, fun off w ho => ?_⟩
    · rw [Die.expert_setLevel_same, Nat.testBit_zero]
    · exact Die.written_congr (Die.reg_setReg_other x (regKey_ne_hifLevel hfg ho) v) (by rw [regKey_div g ho]; exact hg) rfl rfl w
  · obtain ⟨t, ht, hrec⟩ := makes_write_hifLevel hb f v
    refine ⟨t, ht, ?_, fun g hgf => ?_⟩
    · rw [hrec.expert, State.die_onDie_same, Die.expert_setLevel_same, Die.testBit_written_hifLevel, bitOf_eq_testBit,
        Nat.testBit_mod_two_pow]
      rfl
    · have hfg : f.val ≠ g.val := fun e => hgf (Fin.ext e.symm)
      rw [hrec.expert, State.die_onDie_same, Die.expert_setLevel_other _ hfg, Die.expert_eq_testBit, Die.expert_eq_testBit,
        monitorsCleared_reg]

end Sys2Proof.Machine
end

section
/-!
PROOFS. What recording leaves, field by field.
-/

namespace Sys2Proof.Machine

namespace OnlyRecords
variable {s t : State} (h : OnlyRecords s t) (d : DieId)
include h

theorem die_quiet : (t.die d).quiet = (s.die d).quiet := by
  cases d
  · exact congrArg State.cd0 h.quiet
  · exact congrArg State.cd1 h.quiet

theorem die_life : (t.die d).life = (s.die d).life := (congrArg Die.life (h.die_quiet d) :)
theorem die_cmds : (t.die d).cmds = (s.die d).cmds := (congrArg Die.cmds (h.die_quiet d) :)
theorem die_clock : (t.die d).clock = (s.die d).clock := (congrArg Die.clock (h.die_quiet d) :)
theorem die_trans : (t.die d).trans = (s.die d).trans := (congrArg Die.trans (h.die_quiet d) :)
theorem die_dealer : (t.die d).dealer = (s.die d).dealer := (congrArg Die.dealer (h.die_quiet d) :)
theorem die_decks : (t.die d).decks = (s.die d).decks := (congrArg Die.decks (h.die_quiet d) :)
theorem die_planner : (t.die d).planner = (s.die d).planner := (congrArg Die.planner (h.die_quiet d) :)
theorem die_hold : (t.die d).hold = (s.die d).hold := (congrArg Die.hold (h.die_quiet d) :)
theorem die_eng : (t.die d).eng = (s.die d).eng := (congrArg Die.eng (h.die_quiet d) :)
theorem die_cal : (t.die d).cal = (s.die d).cal := (congrArg Die.cal (h.die_quiet d) :)
theorem die_net : (t.die d).net = (s.die d).net := (congrArg Die.net (h.die_quiet d) :)
theorem die_lgd : (t.die d).lgd = (s.die d).lgd := (congrArg Die.lgd (h.die_quiet d) :)
theorem die_thm : (t.die d).thm = (s.die d).thm := (congrArg Die.thm (h.die_quiet d) :)
theorem banks : t.banks = s.banks := (congrArg State.banks h.quiet :)
theorem mirrorLink : t.mirror = s.mirror := (congrArg State.mirror h.quiet :)
theorem bank (b : Nat) : t.bank b = s.bank b := congrArg (fun v : Vector Bank 8 => v[b % 8]'(Nat.mod_lt _ (by decide))) h.banks
theorem running : (t.die d).running = (s.die d).running := by unfold Die.running; rw [h.die_life d]
theorem role : (t.die d).role = (s.die d).role := h.mode d _ (by decide)
theorem base : (t.die d).base = (s.die d).base := h.mode d _ (by decide)
theorem isDecl : (t.die d).isDecl = (s.die d).isDecl := by unfold Die.isDecl; rw [h.role d]
theorem isDummy : (t.die d).isDummy = (s.die d).isDummy := by unfold Die.isDummy; rw [h.role d]
theorem inResync : (t.die d).inResync = (s.die d).inResync := congrArg (· != 0) (h.mode d F.RED_MODE_RESYNC (by decide))
theorem rbit {k : Nat} (hk : recordKey k = false) (f : Fld) : (t.die d).rbit k f = (s.die d).rbit k f := by
  unfold Die.rbit Die.rf; rw [h.regs d k hk]

end OnlyRecords

end Sys2Proof.Machine
end

section
/-!
PROOFS. Settling (R39, R59, R463, R471): after it every running die follows the whole-machine rules.
-/

namespace Sys2Proof.Machine

/-- Recording on die e: the other die stays, and die e keeps its replacement request, the RAW bits of its level sources and its mode word. -/
structure RecordsOn (e : DieId) (s t : State) : Prop where
  other : ∀ d, d ≠ e → t.die d = s.die d
  repl : (t.die e).flt.repl = (s.die e).flt.repl
  levels : ∀ i, srcIsLevel i = true → (t.die e).flt.raw.getLsbD i = (s.die e).flt.raw.getLsbD i
  mode : (t.die e).reg Reg.RED_MODE = (s.die e).reg Reg.RED_MODE

namespace RecordsOn

theorem refl (e : DieId) (s : State) : RecordsOn e s s := ⟨fun _ _ => rfl, rfl, fun _ _ => rfl, rfl⟩

theorem trans {e : DieId} {s t u : State} (h : RecordsOn e s t) (k : RecordsOn e t u) : RecordsOn e s u :=
  ⟨fun d hd => (k.other d hd).trans (h.other d hd), k.repl.trans h.repl, fun i hi => (k.levels i hi).trans (h.levels i hi),
    k.mode.trans h.mode⟩

theorem emit (e : DieId) (s : State) (o : Out) : RecordsOn e s (s.emit o) :=
  ⟨fun d _ => s.die_emit o d, by simp, fun _ _ => by simp, by simp⟩

/-- A change of die e that leaves its collector and its mode word. -/
theorem onDie (e : DieId) (s : State) (f : Die → Die) (hf : (f (s.die e)).flt = (s.die e).flt)
    (hm : (f (s.die e)).reg Reg.RED_MODE = (s.die e).reg Reg.RED_MODE) : RecordsOn e s (s.onDie e f) :=
  ⟨fun _ hd => s.die_onDie_other hd f, by simp [hf], fun _ _ => by simp [hf], by simpa using hm⟩

theorem foldl {α : Type} {e : DieId} (g : State → α → State) (l : List α) (h : ∀ t, ∀ a ∈ l, RecordsOn e t (g t a)) :
    ∀ s, RecordsOn e s (l.foldl g s) := by
  induction l with
  | nil => exact fun s => refl e s
  | cons a l ih => exact fun s => (h s a (by simp)).trans (ih (fun t b hb => h t b (List.mem_cons_of_mem a hb)) (g s a))

theorem onRing (e : DieId) (s : State) (f r : Nat) (g : Ring → Ring) : RecordsOn e s (s.onDie e (·.onRing f r g)) :=
  onDie e s _ rfl rfl

theorem raiseVec (e : DieId) (s : State) (f v : Nat) : RecordsOn e s (raiseVec s e f v) := by
  unfold Machine.raiseVec
  simp only
  split
  · exact onDie e s _ rfl rfl
  · exact emit e s _

theorem raiseRing (e : DieId) (s : State) (f r : Nat) : RecordsOn e s (raiseRing s e f r) :=
  (onRing e s f r _).trans (raiseVec e _ f _)

theorem coalesce (e : DieId) (s : State) (f r : Nat) (irq : Bool) : RecordsOn e s (coalesce s e f r irq) := by
  unfold Machine.coalesce
  simp only
  split
  · exact (onRing e s f r _).trans (raiseRing e _ f r)
  · exact onRing e s f r _

theorem writeEntry {e : DieId} {f r : Nat} (hf : f < 4) (hr : r = 16 ∨ r = 17) (s : State) (bytes : List Byte) (irq : Bool) :
    RecordsOn e s (writeEntry s e f r bytes irq) := by
  have hne : Reg.RED_MODE ≠ Reg.HIF_RING_MOD f r := by
    rcases hr with rfl | rfl <;> interval_cases f <;> decide
  unfold Machine.writeEntry
  refine ((emit e s _).trans (onDie e _ _ ?_ ?_)).trans ((emit e _ _).trans (coalesce e _ f r irq))
  · rfl
  · rw [Die.reg_setReg_other _ hne, Die.reg_onRing]

end RecordsOn

theorem Die.occur_repl (x : Die) (src inst : Nat) (real : Bool) (n : Nat) : (x.occur src inst real n).flt.repl = x.flt.repl := by
  unfold Die.occur
  simp only
  split <;> split <;> rfl

theorem Die.occur_rawWord (x : Die) (src inst : Nat) (real : Bool) (n : Nat) : (x.occur src inst real n).flt.raw =
    if real && !srcIsLevel src then x.flt.raw ||| BitVec.ofNat 256 (2 ^ src) else x.flt.raw := by
  unfold Die.occur
  generalize hx : (x.setMapBit (Reg.FLT_STICKY 0) src true).freshen (Reg.FLT_STICKY 0 + 4 * (src / 32)) (2 ^ (src % 32)) = y
  have hf : y.flt = x.flt := by rw [← hx]; rfl
  rw [← hf]
  simp only
  split <;> split <;> rfl

/-- An occurrence of an event source sets its own RAW bit only, one of a level source none. -/
theorem Die.occur_raw (x : Die) (src inst : Nat) (real : Bool) (n : Nat) {i : Nat} (hi : srcIsLevel i = true) :
    (x.occur src inst real n).flt.raw.getLsbD i = x.flt.raw.getLsbD i := by
  rw [Die.occur_rawWord]
  split
  · rename_i hr
    have hne : src ≠ i := fun e => by simp [e, hi] at hr
    rw [BitVec.getLsbD_or, BitVec.getLsbD_ofNat, Nat.testBit_two_pow]
    simp [hne]
  · rfl

theorem RecordsOn.raise {e : DieId} {src : Nat} (h : src < 256) (s : State) (inst : Nat) : RecordsOn e s (raise s e src inst) := by
  unfold Machine.raise
  split
  · exact ⟨fun _ hd => s.die_onDie_other hd _, by simp [Die.occur_repl], fun i hi => by simp [Die.occur_raw _ _ _ _ _ hi],
      by simpa using Die.reg_occur _ _ _ _ _ _ (Ne.symm (sticky_range h).2)⟩
  · exact refl e s

theorem RecordsOn.eventOn {e : DieId} {f : Nat} (hf : f < 4) (s : State) (type origin stamp : Nat) (p : List Byte) :
    RecordsOn e s (eventOn s e type origin stamp p f) := by
  unfold Machine.eventOn
  simp only
  split
  · exact refl e s
  · split
    · refine ((onRing e s f 16 _).trans (onDie e _ _ ?_ ?_)).trans (raise (by decide) _ 0)
      · rw [Die.onRing_flt, Die.count_flt]
      · rw [Die.reg_onRing, Die.reg_count_other _ (recordKey_evLost hf).2]
    · exact ((onRing e s f 16 _).trans (onRing e _ f 16 _)).trans (writeEntry hf (.inl rfl) _ _ _)

theorem RecordsOn.event (e : DieId) (s : State) (type : Nat) (p : List Byte) : RecordsOn e s (event s e type p) :=
  foldl _ _ (fun t f hf => eventOn (eventFns_lt type f hf) t type _ _ p) s

theorem RecordsOn.mirror (e : DieId) (s : State) (p : Payload) : RecordsOn e s (mirror s e p) := by
  unfold Machine.mirror
  split
  · exact onDie e s _ rfl rfl
  · exact refl e s

/-! ## The level sources and the replacement request -/

theorem levelNow_congr {s t : State} (h : OnlyRecords s t) {d : DieId} (hr : (t.die d).flt.repl = (s.die d).flt.repl) (i : Nat) :
    levelNow t d i = levelNow s d i := by
  have hcal := h.rbit d (k := Reg.CAL_STATUS) (by decide) F.CAL_STATUS_UNCOVERED
  have htim := h.rbit d (k := Reg.TIM_STATUS) (by decide) F.TIM_STATUS_SLAVE_ERR
  have hthm := h.rbit d (k := Reg.THM_STATUS) (by decide) F.THM_STATUS_CLASS_MISM
  have ha : t.above = s.above := (congrArg State.above h.quiet :)
  have ho : t.overSum = s.overSum := (congrArg State.overSum h.quiet :)
  unfold levelNow elemsOf
  simp only [hcal, htim, hthm, ha, ho, hr, h.die_hold d, h.bank, h.isDummy d, h.die_clock d, h.role d, h.inResync d, h.mirrorLink, h.die_lgd d, h.die_thm d]

/-- The conditions that PEER_ABSENCE_TIMEOUT raised among those that replNow gives (R471). -/
theorem replNow_old (s : State) (d : DieId) :
    let paired := (s.cd0.isDecl && s.cd1.isDummy) || (s.cd1.isDecl && s.cd0.isDummy)
    (replNow s d).getLsbD rpCdie = ((s.die d).flt.repl.getLsbD rpCdie && !paired) ∧
      (replNow s d).getLsbD rpMirror = ((s.die d).flt.repl.getLsbD rpMirror && !(decide (s.mirror.state = 2) && paired)) := by
  have bits : ∀ b0 b1 b2 b3 b4 b5 b6 b7 : Bool,
      let w := BitVec.ofNat 8 (([b0, b1, b2, b3, b4, b5, b6, b7].zipIdx).foldl (fun a p => a + b2n p.1 * 2 ^ p.2) 0)
      w.getLsbD rpCdie = b1 ∧ w.getLsbD rpMirror = b5 := by decide
  exact bits _ _ _ _ _ _ _ _

/-- The replacement request is as the state gives it once it has been set so. -/
theorem replNow_settled {s t : State} (h : OnlyRecords s t) {d : DieId} (hr : (t.die d).flt.repl = replNow s d) :
    replNow t d = replNow s d := by
  obtain ⟨hc, hm⟩ := replNow_old s d
  have hw : t.wear = s.wear := (congrArg State.wear h.quiet :)
  have h0 : t.cd0.isDecl = s.cd0.isDecl ∧ t.cd0.isDummy = s.cd0.isDummy := ⟨h.isDecl .cd0, h.isDummy .cd0⟩
  have h1 : t.cd1.isDecl = s.cd1.isDecl ∧ t.cd1.isDummy = s.cd1.isDummy := ⟨h.isDecl .cd1, h.isDummy .cd1⟩
  conv => lhs; unfold replNow
  conv => rhs; unfold replNow
  simp only [hr, hc, hm, hw, h0.1, h0.2, h1.1, h1.2, h.bank, h.isDecl d, h.die_cal d, h.die_thm d, h.mirrorLink, fencedCount, h.die_eng d, Bool.and_assoc,
    Bool.and_self]
  rfl

/-- Settling one level source: its RAW bit takes its condition, and every other level source keeps its own. -/
theorem settleLevel_raw (s : State) (d : DieId) {i : Nat} (hlt : i < 256) :
    ((settleLevel s d i).die d).flt.raw.getLsbD i = levelNow s d i ∧
      ∀ j, srcIsLevel j = true → j ≠ i → ((settleLevel s d i).die d).flt.raw.getLsbD j = (s.die d).flt.raw.getLsbD j := by
  have bit (j : Nat) : (BitVec.ofNat 256 (2 ^ i)).getLsbD j = decide (i = j) := by
    rw [BitVec.getLsbD_ofNat, Nat.testBit_two_pow]
    by_cases h : i = j <;> simp [h]
    omega
  unfold settleLevel
  simp only
  split
  · rename_i h
    have hnow := (Bool.and_eq_true_iff.1 h).1
    simp only [State.die_onDie_same, BitVec.getLsbD_or, bit]
    exact ⟨by simp [hnow], fun j hj hji => by simp [Die.occur_raw _ _ _ _ _ hj, Ne.symm hji]⟩
  · split
    · rename_i h
      have hnow : levelNow s d i = false := by simpa using (Bool.and_eq_true_iff.1 h).2
      simp only [State.die_onDie_same, BitVec.getLsbD_and, BitVec.getLsbD_not, bit]
      refine ⟨by simp [hnow], fun j _ hji => ?_⟩
      by_cases hj2 : j < 256
      · simp [hj2, Ne.symm hji]
      · rw [BitVec.getLsbD_of_ge _ _ (by omega)]; rfl
    · rename_i h1 h2
      refine ⟨?_, fun _ _ _ => rfl⟩
      cases hn : levelNow s d i <;> cases hr : (s.die d).flt.raw.getLsbD i <;> simp_all

/-- Settling one level source leaves the other die, the replacement request and the mode word. -/
theorem settleLevel_keeps (s : State) (d : DieId) (i : Nat) :
    (∀ e, e ≠ d → (settleLevel s d i).die e = s.die e) ∧ ((settleLevel s d i).die d).flt.repl = (s.die d).flt.repl := by
  unfold settleLevel
  simp only
  split
  · exact ⟨fun e he => s.die_onDie_other he _, by simp [Die.occur_repl]⟩
  · split
    · exact ⟨fun e he => s.die_onDie_other he _, by simp⟩
    · exact ⟨fun _ _ => rfl, rfl⟩

/-- Settling some level sources of a die, each once. -/
theorem settleLevels (d : DieId) (l : List Nat) (hl : ∀ i ∈ l, i ∈ levelSources) (hn : l.Nodup) (s : State) :
    let t := l.foldl (fun s i => settleLevel s d i) s
    OnlyRecords s t ∧ (∀ e, e ≠ d → t.die e = s.die e) ∧ (t.die d).flt.repl = (s.die d).flt.repl ∧
      (∀ i ∈ l, (t.die d).flt.raw.getLsbD i = levelNow s d i) ∧
      ∀ i, srcIsLevel i = true → i ∉ l → (t.die d).flt.raw.getLsbD i = (s.die d).flt.raw.getLsbD i := by
  induction l generalizing s with
  | nil => exact ⟨.refl s, fun _ _ => rfl, rfl, fun _ h => absurd h (by simp), fun _ _ _ => rfl⟩
  | cons i l ih =>
    have hmem := hl i (by simp)
    obtain ⟨hlt, hlev⟩ : i < 250 ∧ srcIsLevel i = true := by simpa [levelSources] using hmem
    obtain ⟨hil, hn⟩ := List.nodup_cons.1 hn
    have h1 := OnlyRecords.settleLevel s d i hlt
    obtain ⟨ho1, hr1⟩ := settleLevel_keeps s d i
    obtain ⟨hi1, hj1⟩ := settleLevel_raw s d (show i < 256 by omega)
    obtain ⟨h2, ho2, hr2, hi2, hj2⟩ := ih (fun j hj => hl j (List.mem_cons_of_mem i hj)) hn (settleLevel s d i)
    refine ⟨h1.trans h2, fun e he => (ho2 e he).trans (ho1 e he), hr2.trans hr1, fun j hj => ?_, fun j hj hjl => ?_⟩
    · rcases List.mem_cons.1 hj with rfl | hj
      · exact (hj2 j hlev hil).trans hi1
      · exact (hi2 j hj).trans (levelNow_congr h1 hr1 j)
    · obtain ⟨hji, hjl⟩ := not_or.1 (fun c => hjl (List.mem_cons.2 c))
      exact (hj2 j hj hjl).trans (hj1 j hj hji)

/-! ## The mode word -/

/-- A Declarer's mode word after it has been brought into step: its overlay bits are as R39 and R59 give them. -/
theorem modeNext_overlays (x : Die) (old : Nat) :
    let w := modeNext old (withOverlays x old)
    fget F.RED_MODE_SAFE w = b2n (isWorking (fget F.RED_MODE_BASE old) && x.lgd.tripped) ∧
      fget F.RED_MODE_DEGRADED w = b2n (isWorking (fget F.RED_MODE_BASE old) && x.flt.repl != 0) := by
  have b2n_mod (b : Bool) : b2n b % 2 = b2n b := by cases b <;> rfl
  have safe : fget F.RED_MODE_SAFE (withOverlays x old) = b2n (isWorking (fget F.RED_MODE_BASE old) && x.lgd.tripped) := by
    simp only [withOverlays]
    rw [fget_fput_other _ _ (by decide) (by decide) (by decide), fget_fput_same _ (by decide)]
    exact b2n_mod _
  have deg : fget F.RED_MODE_DEGRADED (withOverlays x old) = b2n (isWorking (fget F.RED_MODE_BASE old) && x.flt.repl != 0) := by
    simp only [withOverlays]
    rw [fget_fput_same _ (by decide)]
    exact b2n_mod _
  have base : fget F.RED_MODE_BASE (withOverlays x old) = fget F.RED_MODE_BASE old := by
    simp only [withOverlays]
    rw [fget_fput_other _ _ (by decide) (by decide) (by decide), fget_fput_other _ _ (by decide) (by decide) (by decide)]
  have low {f : Fld} {v : Nat} (hf : f.lo ≤ f.hi) (h : f.hi < 24) (he : bitsOf v 23 0 = bitsOf old 23 0) : fget f v = fget f old := by
    have e (w : Nat) : bitsOf w 23 0 = w % 2 ^ 24 := by simp [bitsOf]
    rw [e, e] at he
    rw [← fget_mod f 24 v hf h, he, fget_mod f 24 old hf h]
  rw [← safe, ← deg]
  unfold modeNext
  simp only [base, if_true]
  split
  · rename_i he
    exact ⟨(low (by decide) (by decide) he).symm, (low (by decide) (by decide) he).symm⟩
  · exact ⟨fget_fput_other _ _ (by decide) (by decide) (by decide) _ _, fget_fput_other _ _ (by decide) (by decide) (by decide) _ _⟩

/-- Bringing the mode word into step leaves the other die and the collector's level sources and replacement request. -/
theorem setModeId_keeps (s : State) (d : DieId) :
    (∀ e, e ≠ d → (setMode s d id).die e = s.die e) ∧ ((setMode s d id).die d).flt.repl = (s.die d).flt.repl ∧
      (∀ i, srcIsLevel i = true → ((setMode s d id).die d).flt.raw.getLsbD i = (s.die d).flt.raw.getLsbD i) ∧
      ((s.die d).isDecl = true → ∀ f : Fld, f.lo ≤ f.hi → f.hi < 32 → ((setMode s d id).die d).rf Reg.RED_MODE f =
        fget f (modeNext ((s.die d).reg Reg.RED_MODE) (withOverlays (s.die d) ((s.die d).reg Reg.RED_MODE)))) := by
  let x := s.die d
  let old := x.reg Reg.RED_MODE
  let w := modeNext old (if fget F.RED_MODE_ROLE old = 1 then withOverlays x old else old)
  have hdecl (h : x.isDecl = true) : w = modeNext old (withOverlays x old) := by
    have hr : fget F.RED_MODE_ROLE old = 1 := of_decide_eq_true h
    simp only [w, hr, if_true]
  let s1 := s.onDie d (·.setReg Reg.RED_MODE w)
  have hs : setMode s d id = if w = old then s else
      if fget F.RED_MODE_ROLE w = 1 then mirror (event s1 d evMode (leBytes 4 w)) d (.mode (BitVec.ofNat 32 w)) else s1 := rfl
  rw [hs]
  split
  · rename_i he
    exact ⟨fun _ _ => rfl, rfl, fun _ _ => rfl, fun h f _ _ => by rw [← hdecl h, he]; rfl⟩
  · have hk : RecordsOn d s1 (if fget F.RED_MODE_ROLE w = 1
        then mirror (event s1 d evMode (leBytes 4 w)) d (.mode (BitVec.ofNat 32 w)) else s1) := by
      split
      · exact (RecordsOn.event d _ _ _).trans (RecordsOn.mirror d _ _)
      · exact .refl d _
    obtain ⟨ho, hr, hl, hm⟩ := hk
    refine ⟨fun e he => (ho e he).trans (s.die_onDie_other he _), hr.trans (by simp [s1]), fun i hi => (hl i hi).trans (by simp [s1]),
      fun h f hf h32 => ?_⟩
    rw [Die.rf, hm, State.die_onDie_same, Die.reg_setReg_same, fget_mod f 32 w hf h32, hdecl h]

/-! ## Settling a die -/

theorem settleDie_other (s : State) {d e : DieId} (h : e ≠ d) : (settleDie s d).die e = s.die e := by
  unfold settleDie
  split
  · have hs := settleLevels d levelSources (fun _ h => h) (List.Nodup.filter _ List.nodup_range)
      (s.onDie d (fun x => { x with flt := { x.flt with repl := replNow s d } }))
    exact ((setModeId_keeps _ d).1 e h).trans ((hs.2.1 e h).trans (s.die_onDie_other h _))
  · rfl

/-- A running die is settled by settling it. -/
theorem settled_settleDie {s : State} {d : DieId} (hrun : (s.die d).running = true) : Settled (settleDie s d) d := by
  unfold settleDie
  rw [if_pos hrun]
  simp only
  let s1 := s.onDie d (fun x => { x with flt := { x.flt with repl := replNow s d } })
  let t := levelSources.foldl (fun s i => settleLevel s d i) s1
  show Settled (setMode t d id) d
  have h1 : OnlyRecords s s1 := OnlyRecords.onDie s d _ rfl (fun _ _ => rfl) (fun _ _ => rfl)
  have hr1 : (s1.die d).flt.repl = replNow s d := by simp [s1]
  obtain ⟨h2, -, hr2, hraw, -⟩ : OnlyRecords s1 t ∧ (∀ e, e ≠ d → t.die e = s1.die e) ∧ (t.die d).flt.repl = (s1.die d).flt.repl ∧
      (∀ i ∈ levelSources, (t.die d).flt.raw.getLsbD i = levelNow s1 d i) ∧
      ∀ i, srcIsLevel i = true → i ∉ levelSources → (t.die d).flt.raw.getLsbD i = (s1.die d).flt.raw.getLsbD i :=
    settleLevels d levelSources (fun _ h => h) (List.Nodup.filter _ List.nodup_range) s1
  have h3 := OnlyRecords.setModeId t d
  obtain ⟨-, hr3, hraw3, hmode⟩ := setModeId_keeps t d
  have hr : ((setMode t d id).die d).flt.repl = (s1.die d).flt.repl := hr3.trans hr2
  have overlay (hd : ((setMode t d id).die d).isDecl = true) := modeNext_overlays (t.die d) ((t.die d).reg Reg.RED_MODE)
  have bne0 (b : Bool) : (b2n b != 0) = b := by cases b <;> rfl
  have base : fget F.RED_MODE_BASE ((t.die d).reg Reg.RED_MODE) = ((setMode t d id).die d).base := (h3.base d).symm
  refine ⟨?repl, ?levels, ?safe, ?degraded⟩
  case repl => rw [replNow_settled (h1.trans (h2.trans h3)) (hr.trans hr1), hr, hr1]
  case levels =>
    intro i hi
    rw [hraw3 i (List.mem_filter.1 hi).2, hraw i hi, levelNow_congr (h2.trans h3) hr]
  case safe =>
    intro hd
    have hd' : (t.die d).isDecl = true := by rwa [h3.isDecl d] at hd
    rw [Die.rbit, hmode hd' _ (by decide) (by decide), (overlay hd).1, bne0, base, h3.die_lgd d]
  case degraded =>
    intro hd
    have hd' : (t.die d).isDecl = true := by rwa [h3.isDecl d] at hd
    rw [Die.rbit, hmode hd' _ (by decide) (by decide), (overlay hd).2, bne0, base, hr3]

/-- Settling one die leaves the other one settled. -/
theorem Settled.settleDie_other {s : State} {d e : DieId} (h : Settled s d) (hne : d ≠ e) : Settled (settleDie s e) d := by
  have hk := OnlyRecords.settleDie s e
  have hd : (settleDie s e).die d = s.die d := Machine.settleDie_other s hne
  have hr : ((settleDie s e).die d).flt.repl = replNow s d := by rw [hd, h.repl]
  refine ⟨?_, fun i hi => ?_, ?_, ?_⟩
  · rw [replNow_settled hk hr, hr]
  · rw [levelNow_congr hk (by rw [hd]), hd, h.levels i hi]
  · rw [hd]; exact h.safe
  · rw [hd]; exact h.degraded

theorem settled_settle {s : State} {d : DieId} (hrun : ((settle s).die d).running = true) : Settled (settle s) d := by
  rw [(OnlyRecords.settle s).running d] at hrun
  cases d
  · exact (settled_settleDie hrun).settleDie_other (by decide)
  · exact settled_settleDie (by rw [(OnlyRecords.settleDie s .cd0).running .cd1]; exact hrun)

/-- What a command answers is the settled state that its row makes: no row faults or is refused. -/
theorem exec_eq_done (c : Instr) (s : State) : ∃ u, exec c s = done u := by
  cases c
  case selftest d n pass => cases n <;> exact ⟨_, rfl⟩
  all_goals exact ⟨_, rfl⟩

theorem step_eq_settle {s t : State} (h : step s = .next t) : ∃ u, t = settle u := by
  unfold step at h
  split at h
  · exact ⟨_, (Host.Outcome.next.inj h).symm⟩
  · obtain ⟨u, hu⟩ := exec_eq_done ‹Instr› { s with pending := ‹List Instr› }
    rw [hu] at h
    exact ⟨u, (Host.Outcome.next.inj h).symm⟩

/-- Settles O55: every step ends by settling the state it has made. -/
theorem everyStepSettles : Obligations.EveryStepSettles := by
  unfold Obligations.EveryStepSettles
  intro s t h d hrun
  obtain ⟨u, rfl⟩ := step_eq_settle h
  exact settled_settle hrun

theorem bank_reset (b : Fin 8) : State.reset.bank b = Bank.reset b := by
  simp [State.reset, State.bank, Nat.mod_eq_of_lt b.isLt]

theorem Bank.cleared_reset (b : Nat) : Bank.Cleared (Bank.reset b) where
  codes _ := ⟨rfl, rfl, rfl⟩
  shadows _ := ⟨rfl, rfl, rfl⟩
  stores _ := ⟨rfl, rfl⟩
  bands _ := rfl
  gain := rfl
  preloads := rfl
  probes := rfl
  blind := rfl
  token := ⟨rfl, rfl, rfl⟩

/-- Settles O56: the fields of the state after power-on. -/
theorem resetIsBoot : Obligations.ResetIsBoot := by
  unfold Obligations.ResetIsBoot
  have off (d : DieId) : (State.reset.die d).running = false := by cases d <;> rfl
  refine ⟨fun d => ?_, fun b => ?_, rfl, rfl, memWf_nil, memWf_nil, memWf_nil, fun d h => ?_⟩
  · cases d <;> refine ⟨rfl, rfl, rfl, fun _ => rfl, rfl, rfl, fun _ => rfl, rfl, rfl, rfl, ?_, ?_⟩ <;> decide
  · rw [bank_reset b]
    exact Bank.cleared_reset b
  · rw [off d] at h; cases h

end Sys2Proof.Machine
end

section
/-!
PROOFS. The mode requests (R49 to R57, R60, R486, R542).
-/

namespace Sys2Proof.Machine

theorem Die.running_of_barOpen {x : Die} (h : x.barOpen = true) : x.running = true := (Bool.and_eq_true_iff.1 h).1

/-- A register access of the host that BAR0 lets through. -/
theorem exec_of_doneBar {c : Instr} {d : DieId} {f : State → State} {s : State} (hb : (s.die d).barOpen = true)
    (h : exec c s = doneBar d f s) : exec c s = done (f s) := by
  rw [h, doneBar, if_pos hb]

theorem Makes.of_doneBar {c : Instr} {d : DieId} {f : State → State} {s : State} (hb : (s.die d).barOpen = true)
    (h : exec c s = doneBar d f s) : Makes c s (f s) := Makes.of_done (exec_of_doneBar hb h)

theorem Makes.of_doneBar_shut {c : Instr} {d : DieId} {f : State → State} {s : State} (hb : (s.die d).barOpen = false)
    (h : exec c s = doneBar d f s) : Makes c s s :=
  Makes.of_done (by rw [h, doneBar, hb]; rfl)

/-- A command whose row makes u answers a state that is u but for records. -/
theorem Answers.of_done {c : Instr} {s u : State} {P : State → Prop} (h : exec c s = done u) (hP : ∀ t, OnlyRecords u t → P t) :
    Answers c s P := ⟨settle u, h, hP _ (OnlyRecords.settle u)⟩

theorem Answers.of_doneBar {c : Instr} {d : DieId} {f : State → State} {s : State} {P : State → Prop} (hb : (s.die d).barOpen = true)
    (h : exec c s = doneBar d f s) (hP : ∀ t, OnlyRecords (f s) t → P t) : Answers c s P := .of_done (exec_of_doneBar hb h) hP

theorem isWorking_iff {b : Nat} : isWorking b = true ↔ b ∈ [mStatic, mSlotted, mHybrid] := by simp [isWorking, or_assoc]

section Requests
variable {s : State} {d : DieId} {req : Nat}

theorem modeReq_busy (hr : (s.die d).running = true) (h0 : req ≠ 0) (hs : (s.die d).rf Reg.RED_MODE_REQ F.RED_MODE_REQ_STATUS = 2) :
    modeReq d req s = s.setEvent d Reg.RED_MODE_REQ F.RED_MODE_REQ_REFUSED := by simp [modeReq, hr, h0, hs]

theorem modeReq_notDecl (hr : (s.die d).running = true) (h0 : req ≠ 0) (hs : (s.die d).rf Reg.RED_MODE_REQ F.RED_MODE_REQ_STATUS ≠ 2)
    (hd : (s.die d).isDecl = false) : modeReq d req s = setReqStatus s d 3 := by simp [modeReq, hr, h0, hs, hd]

theorem modeReq_moving (hr : (s.die d).running = true) (h0 : req ≠ 0) (hs : (s.die d).rf Reg.RED_MODE_REQ F.RED_MODE_REQ_STATUS ≠ 2)
    (hd : (s.die d).isDecl = true) (ht : (s.die d).trans ≠ .none) : modeReq d req s = setReqStatus s d 5 := by
  simp [modeReq, hr, h0, hs, hd, ht]

theorem modeReq_go (hr : (s.die d).running = true) (h0 : req ≠ 0) (hs : (s.die d).rf Reg.RED_MODE_REQ F.RED_MODE_REQ_STATUS ≠ 2)
    (hd : (s.die d).isDecl = true) (ht : (s.die d).trans = .none) : modeReq d req s = modeGo s d req := by
  simp [modeReq, hr, h0, hs, hd, ht]

theorem modeGo_goDark (h : (s.die d).base ∈ [mStatic, mSlotted, mHybrid, mBlind]) :
    modeGo s d 1 = goDarkStart (setReqStatus s d 2) d true := by
  have hb : (isWorking (s.die d).base || decide ((s.die d).base = mBlind)) = true := by
    simpa [isWorking_iff, or_assoc] using h
  simp [modeGo, hb]

theorem modeGo_run_refused (h : (s.die d).base ∈ [mDark, mBlind]) (ha : runAllowed s d = false) : modeGo s d 2 = setReqStatus s d 6 := by
  have hb : (decide ((s.die d).base = mDark) || decide ((s.die d).base = mBlind)) = true := by simpa using h
  simp [modeGo, hb, ha]

theorem modeGo_run_dark (h : (s.die d).base = mDark) (ha : runAllowed s d = true) :
    modeGo s d 2 = mirrorDealer ((setReqStatus s d 2).onDie d (fun x =>
      { x.addDeal (placeOwn x x.nowInstant) .restore [] false none with trans := .runDark (maskMode x.dealer.part) })) d := by
  have hb : mDark ≠ mBlind := by decide
  simp [modeGo, h, ha, hb]

theorem modeGo_run_blind (h : (s.die d).base = mBlind) (ha : runAllowed s d = true) :
    modeGo s d 2 = runBlind (setReqStatus s d 2) d := by simp [modeGo, h, ha]

theorem modeGo_blindHold (h : (s.die d).base ∈ [mStatic, mSlotted, mHybrid, mDark]) :
    modeGo s d 3 = enterBlind (setReqStatus s d 2) d true := by
  have hb : (isWorking (s.die d).base || decide ((s.die d).base = mDark)) = true := by
    simpa [isWorking_iff, or_assoc] using h
  simp [modeGo, hb]

theorem modeGo_standby (h : (s.die d).base = mDark) : modeGo s d 4 = standbyEnter s d := by simp [modeGo, h]

theorem modeGo_recal (h : (s.die d).base = mDark) : modeGo s d 5 = selfCalStart (setReqStatus s d 2) d true := by simp [modeGo, h]

/-- SELF-CAL begins while no bank die calibrates (R50). -/
theorem selfCalStart_free {byReq : Bool} (h : ∀ b < 8, (s.bank b).cal = none) :
    selfCalStart s d byReq = selfCalSend (mirrorDealer (setBase (s.onDie d (fun x => { x with trans := .selfCal byReq 0 true })) d mSelfCal) d) d := by
  have hw : (List.range 8).any (fun b => (s.bank b).cal.isSome) = false := by
    rw [List.any_eq_false]
    intro b hb
    rw [h b (List.mem_range.1 hb)]
    simp
  simp only [selfCalStart, hw]
  rfl

/-- The rows of the mode requests write their code into REQ. -/
theorem exec_modeRow : ∀ r ∈ modeRows, r.1 ≠ 0 ∧ ∀ (d : DieId) (s : State), exec (r.2.1 d) s = doneBar d (modeReq d r.1) s := by
  simp only [modeRows, List.forall_mem_cons]
  exact ⟨⟨by decide, fun _ _ => rfl⟩, ⟨by decide, fun _ _ => rfl⟩, ⟨by decide, fun _ _ => rfl⟩, ⟨by decide, fun _ _ => rfl⟩,
    ⟨by decide, fun _ _ => rfl⟩, fun _ h => absurd h (by simp)⟩

theorem modeGo_notPermitted {r : Nat × (DieId → Instr) × List Nat} (hr : r ∈ modeRows) (h : (s.die d).base ∉ r.2.2) :
    modeGo s d r.1 = setReqStatus s d 4 := by
  simp only [modeRows, List.mem_cons, List.not_mem_nil, or_false] at hr
  rcases hr with rfl | rfl | rfl | rfl | rfl <;> simp [not_or] at h <;> simp [modeGo, isWorking, h]

/-- What a permitted request does, on a Declarer with no request in progress and no transition. -/
theorem exec_modeRequest {c : DieId → Instr} (hc : ∀ d s, exec (c d) s = doneBar d (modeReq d req) s) (h0 : req ≠ 0)
    (hb : (s.die d).barOpen = true) (hs : (s.die d).rf Reg.RED_MODE_REQ F.RED_MODE_REQ_STATUS ≠ 2) (hd : (s.die d).isDecl = true)
    (ht : (s.die d).trans = .none) : exec (c d) s = done (modeGo s d req) := by
  rw [exec_of_doneBar hb (hc d s), modeReq_go (Die.running_of_barOpen hb) h0 hs hd ht]

end Requests

/-- STANDBY holds both dies and every bank die in reset, with the mirror link down and no permit (R486, R502). -/
theorem standbyEnter_spec (s : State) (d : DieId) : let t := standbyEnter s d
    t.banks = Vector.ofFn (fun b => { Bank.reset b.val with driven := false }) ∧ t.mirror = Link.down ∧ t.pins.permitA = 0 ∧
      t.pins.permitB = 0 ∧ ∀ e, (t.die e).life = .held 5 s.ticks ∧ (t.die e).base = mStandby := by
  refine ⟨rfl, rfl, rfl, rfl, fun e => ⟨?_, ?_⟩⟩
  · cases e <;> rfl
  · have word (x : Die) : (x.setReg Reg.RED_MODE mStandby).base = mStandby := by rw [Die.base, Die.rf, Die.reg_setReg_same]; rfl
    cases e
    · exact word _
    · exact word _

/-- Settles O15: each answer of a request by the lemma that says what its code does. -/
theorem modeRequests : Obligations.ModeRequests := by
  unfold Obligations.ModeRequests
  refine ⟨fun r hr d s => ?refusals, fun d s => ?starts⟩
  case refusals =>
    obtain ⟨h0, he⟩ := exec_modeRow r hr
    refine ⟨fun hb => Makes.of_doneBar_shut hb (he d s), fun hb hs => ?_, fun hb hs => ⟨fun hd => ?_, fun hd ht => ?_, fun hd ht hm => ?_, ?_⟩⟩
    · exact Makes.of_done ((exec_of_doneBar hb (he d s)).trans (congrArg done (modeReq_busy (Die.running_of_barOpen hb) h0 hs)))
    · exact Makes.of_done ((exec_of_doneBar hb (he d s)).trans (congrArg done (modeReq_notDecl (Die.running_of_barOpen hb) h0 hs hd)))
    · exact Makes.of_done ((exec_of_doneBar hb (he d s)).trans (congrArg done (modeReq_moving (Die.running_of_barOpen hb) h0 hs hd ht)))
    · exact Makes.of_done ((exec_modeRequest he h0 hb hs hd ht).trans (by rw [modeGo_notPermitted hr hm]; rfl))
    · intro hd ht h2 hm ha
      have hmodes : ∀ r ∈ modeRows, r.1 = 2 → r.2.2 = [mDark, mBlind] := by simp [modeRows]
      rw [hmodes r hr h2] at hm
      exact Makes.of_done ((exec_modeRequest he h0 hb hs hd ht).trans (by rw [h2, modeGo_run_refused hm ha]; rfl))
  case starts =>
    intro x hb hs hd ht s1
    have go {req : Nat} {c : DieId → Instr} (hc : ∀ d s, exec (c d) s = doneBar d (modeReq d req) s) (h0 : req ≠ 0) :=
      exec_modeRequest hc h0 hb hs hd ht
    refine ⟨fun hm => ?_, fun hm ha => ?_, fun hm ha => ?_, fun hm => ?_, fun hm hc => ?_, fun hm => ?_⟩
    · exact Makes.of_done ((go (c := .goDark) (fun _ _ => rfl) (by decide)).trans (congrArg done (modeGo_goDark hm)))
    · exact Makes.of_done ((go (c := .run) (fun _ _ => rfl) (by decide)).trans (congrArg done (modeGo_run_dark hm ha)))
    · exact Makes.of_done ((go (c := .run) (fun _ _ => rfl) (by decide)).trans (congrArg done (modeGo_run_blind hm ha)))
    · exact Makes.of_done ((go (c := .blindHold) (fun _ _ => rfl) (by decide)).trans (congrArg done (modeGo_blindHold hm)))
    · have hc1 : ∀ b < 8, (s1.bank b).cal = none := fun b h => by simpa [s1, State.setRf] using hc b h
      exact Makes.of_done ((go (c := .recal) (fun _ _ => rfl) (by decide)).trans
        (congrArg done ((modeGo_recal hm).trans (selfCalStart_free hc1))))
    · refine Answers.of_done ((go (c := .standby) (fun _ _ => rfl) (by decide)).trans (congrArg done (modeGo_standby hm))) fun t h => ?_
      obtain ⟨hbanks, hmir, hpa, hpb, hdies⟩ := standbyEnter_spec s d
      have hp : t.pins = (standbyEnter s d).pins := (congrArg State.pins h.quiet :)
      exact ⟨h.banks.trans hbanks, h.mirrorLink.trans hmir, hp ▸ hpa, hp ▸ hpb,
        fun e => ⟨(h.die_life e).trans (hdies e).1, (h.base e).trans (hdies e).2⟩⟩

end Sys2Proof.Machine
end

section
/-!
PROOFS. States that differ in records and in what an erasure takes away.
-/

namespace Sys2Proof.Machine

/-- A part of a die that recording leaves. -/
theorem OnlyRecords.die_eq {α : Type} {s t : State} (h : OnlyRecords s t) (d : DieId) (π : Die → α) (hπ : ∀ x, π x.quiet = π x) :
    π (t.die d) = π (s.die d) := by
  rw [← hπ, h.die_quiet d, hπ]

theorem OnlyRecords.mirrorDealer (s : State) (d : DieId) : OnlyRecords s (mirrorDealer s d) := .mirror s d _
theorem OnlyRecords.mirrorDecks (s : State) (d : DieId) : OnlyRecords s (mirrorDecks s d) := .mirror s d _
theorem OnlyRecords.mirrorCal (s : State) (d : DieId) : OnlyRecords s (mirrorCal s d) := .mirror s d _

theorem State.onDie_onDie (s : State) (d : DieId) (f g : Die → Die) : (s.onDie d f).onDie d g = s.onDie d (fun x => g (f x)) := by
  cases d <;> rfl

/-- Erasing the same part of a die on both sides. -/
theorem OnlyRecords.onDie_congr {s t : State} (h : OnlyRecords s t) (d : DieId) {e : Die → Die} (hq : ∀ x, (e x).quiet = e x.quiet)
    (hr : ∀ x k, (e x).reg k = x.reg k) : OnlyRecords (s.onDie d e) (t.onDie d e) := by
  refine ⟨?_, fun c k hk => ?_, fun c f hf => ?_, ?_⟩
  · have hs (u : State) : (u.onDie d e).quiet = u.quiet.onDie d e := by
      cases d <;> simp [State.quiet, State.onDie, State.setDie, State.die, hq]
    rw [hs, hs, h.quiet]
  · by_cases hc : c = d
    · subst hc; simpa [hr] using h.regs c k hk
    · simpa [State.die_onDie_other _ hc] using h.regs c k hk
  · by_cases hc : c = d
    · subst hc; simpa [Die.rf, hr] using h.mode c f hf
    · simpa [State.die_onDie_other _ hc] using h.mode c f hf
  · simpa using h.out

/-- A change of a die that the erasure takes away. -/
theorem OnlyRecords.of_erased {s : State} {d : DieId} {e g : Die → Die} (h : e (g (s.die d)) = e (s.die d)) :
    OnlyRecords (s.onDie d e) ((s.onDie d g).onDie d e) := by
  have hs : (s.onDie d g).onDie d e = s.onDie d e := by
    rw [State.onDie_onDie]
    cases d <;> simp only [State.onDie, State.die] at h ⊢ <;> rw [h]
  rw [hs]
  exact .refl _

/-- A part of a die that the erasure and recording leave. -/
theorem OnlyRecords.erased_eq {α : Type} {s t : State} {d : DieId} {e : Die → Die} (h : OnlyRecords (s.onDie d e) (t.onDie d e)) (π : Die → α)
    (hπ : ∀ x, π (e x).quiet = π x) : π (t.die d) = π (s.die d) := by
  have he := h.die_quiet d
  rw [State.die_onDie_same, State.die_onDie_same] at he
  rw [← hπ, he, hπ]

theorem OnlyRecords.erased_reg {s t : State} {d : DieId} {e : Die → Die} (h : OnlyRecords (s.onDie d e) (t.onDie d e))
    (hr : ∀ x k, (e x).reg k = x.reg k) {k : Nat} (hk : recordKey k = false) : (t.die d).reg k = (s.die d).reg k := by
  simpa [hr] using h.regs d k hk

theorem OnlyRecords.erased_base {s t : State} {d : DieId} {e : Die → Die} (h : OnlyRecords (s.onDie d e) (t.onDie d e))
    (hr : ∀ x k, (e x).reg k = x.reg k) : (t.die d).base = (s.die d).base := by
  simpa [Die.base, Die.rf, hr] using h.base d

theorem OnlyRecords.erased_foldl {α : Type} {d : DieId} {e : Die → Die} (g : State → α → State) (l : List α)
    (h : ∀ t, ∀ a ∈ l, OnlyRecords (t.onDie d e) ((g t a).onDie d e)) : ∀ s, OnlyRecords (s.onDie d e) ((l.foldl g s).onDie d e) := by
  induction l with
  | nil => exact fun s => .refl _
  | cons a l ih => exact fun s => (h s a (by simp)).trans (ih (fun t b hb => h t b (List.mem_cons_of_mem a hb)) (g s a))

/-! ## The mode word -/

/-- The mode word that follows holds what is asked for in a field below SEQ that no overlay and PREV_BASE touch. -/
theorem modeNext_asked (x : Die) (old v : Nat) {f : Fld} (hf : f ∈ modeFields) (hp : f ≠ F.RED_MODE_PREV_BASE) :
    fget f (modeNext old (if fget F.RED_MODE_ROLE v = 1 then withOverlays x v else v)) = fget f v := by
  have hv : fget f (if fget F.RED_MODE_ROLE v = 1 then withOverlays x v else v) = fget f v := by
    split
    · simp only [modeFields, List.mem_cons, List.not_mem_nil, or_false] at hf
      simp only [withOverlays]
      rcases hf with rfl | rfl | rfl | rfl | rfl | rfl <;>
        rw [fget_fput_other _ _ (by decide) (by decide) (by decide), fget_fput_other _ _ (by decide) (by decide) (by decide)]
    · rfl
  generalize (if fget F.RED_MODE_ROLE v = 1 then withOverlays x v else v) = w at hv
  rw [← hv]
  have hb : f.lo ≤ f.hi ∧ f.hi < 24 ∧ (f.hi < 20 ∨ f = F.RED_MODE_PREV_BASE) := by
    simp only [modeFields, List.mem_cons, List.not_mem_nil, or_false] at hf
    rcases hf with rfl | rfl | rfl | rfl | rfl | rfl <;> decide
  obtain ⟨hlo, h24, h20⟩ := hb
  have h20 : f.hi < 20 := h20.resolve_right hp
  unfold modeNext
  simp only []
  generalize hw1 : (if fget F.RED_MODE_BASE w = fget F.RED_MODE_BASE old then w
    else fput F.RED_MODE_PREV_BASE w (fget F.RED_MODE_BASE old)) = w1
  have h1 : fget f w1 = fget f w := by
    rw [← hw1]
    split
    · rfl
    · exact fget_fput_other _ _ (by decide) (.inl h20) hlo _ _
  rw [← h1]
  split
  · rename_i he
    have e (n : Nat) : bitsOf n 23 0 = n % 2 ^ 24 := by simp [bitsOf]
    rw [e, e] at he
    rw [← fget_mod f 24 old hlo h24, ← he, fget_mod f 24 w1 hlo h24]
  · exact fget_fput_other _ _ (by decide) (.inl h24) hlo _ _

/-- Changing the mode word makes a state with a word that holds what is asked for, and records of it. -/
theorem setMode_makes (s : State) (d : DieId) (f : Nat → Nat) :
    ∃ w, (∀ g ∈ modeFields, g ≠ F.RED_MODE_PREV_BASE → fget g w = fget g (f ((s.die d).reg Reg.RED_MODE))) ∧
      OnlyRecords (s.onDie d (·.setReg Reg.RED_MODE w)) (setMode s d f) := by
  let old := (s.die d).reg Reg.RED_MODE
  let v := if fget F.RED_MODE_ROLE (f old) = 1 then withOverlays (s.die d) (f old) else f old
  let w := modeNext old v
  let s1 := s.onDie d (·.setReg Reg.RED_MODE w)
  have hs : setMode s d f = if w = old then s else
      if fget F.RED_MODE_ROLE w = 1 then mirror (event s1 d evMode (leBytes 4 w)) d (.mode (BitVec.ofNat 32 w)) else s1 := rfl
  refine ⟨w, fun g hg hp => modeNext_asked (s.die d) old (f old) hg hp, ?_⟩
  rw [hs]
  split
  · rename_i hw
    refine ⟨?_, fun e k hk => ?_, fun e g hg => ?_, ?_⟩
    · cases d <;> rfl
    · by_cases he : e = d
      · subst he
        rw [State.die_onDie_same, Die.reg_setReg_other _ (fun c => by rw [c] at hk; revert hk; decide)]
      · rw [State.die_onDie_other s he]
    · by_cases he : e = d
      · subst he
        have hb : g.lo ≤ g.hi ∧ g.hi < 32 := by
          simp only [modeFields, List.mem_cons, List.not_mem_nil, or_false] at hg
          rcases hg with rfl | rfl | rfl | rfl | rfl | rfl <;> decide
        simp only [State.die_onDie_same, Die.rf, Die.reg_setReg_same, hw]
        exact (fget_mod g 32 _ hb.1 hb.2).symm
      · rw [State.die_onDie_other s he]
    · simp
  · split
    · exact (OnlyRecords.event _ d _ _).trans (OnlyRecords.mirror _ d _)
    · exact .refl _

/-- Entering a base mode. -/
theorem setBase_makes (s : State) (d : DieId) {m : Nat} (hm : m < 16) :
    ∃ w, fget F.RED_MODE_BASE w = m ∧ OnlyRecords (s.onDie d (·.setReg Reg.RED_MODE w)) (setBase s d m) := by
  obtain ⟨w, hw, hr⟩ := setMode_makes s d (fun w => fput F.RED_MODE_BASE w m)
  exact ⟨w, by rw [hw _ (by decide) (by decide), fget_fput_same _ (by decide)]; exact Nat.mod_eq_of_lt hm, hr⟩

theorem setBase_base (s : State) (d : DieId) {m : Nat} (hm : m < 16) : ((setBase s d m).die d).base = m := by
  obtain ⟨w, hw, hr⟩ := setBase_makes s d hm
  rw [hr.base d, State.die_onDie_same, Die.base, Die.rf, Die.reg_setReg_same, fget_mod _ 32 _ (by decide) (by decide), hw]

/-- A part of a die that a change of the mode word leaves. -/
theorem setMode_die_eq {α : Type} (s : State) (d e : DieId) (f : Nat → Nat) (π : Die → α) (hπ : ∀ x, π x.quiet = π x) :
    π ((setMode s d f).die e) = π (s.die e) := by
  obtain ⟨w, -, hr⟩ := setMode_makes s d f
  rw [hr.die_eq e π hπ]
  by_cases he : e = d
  · subst he
    rw [State.die_onDie_same, ← hπ, Die.quiet_setReg, hπ]
  · rw [State.die_onDie_other s he]

theorem setBase_die_eq {α : Type} (s : State) (d e : DieId) (m : Nat) (π : Die → α) (hπ : ∀ x, π x.quiet = π x) :
    π ((setBase s d m).die e) = π (s.die e) := setMode_die_eq s d e (fun w => fput F.RED_MODE_BASE w m) π hπ

theorem setMode_reg (s : State) (d e : DieId) (f : Nat → Nat) {k : Nat} (hk : recordKey k = false) :
    ((setMode s d f).die e).reg k = (s.die e).reg k := by
  obtain ⟨w, -, hr⟩ := setMode_makes s d f
  rw [hr.regs e k hk]
  by_cases he : e = d
  · subst he
    rw [State.die_onDie_same, Die.reg_setReg_other _ (fun c => by rw [c] at hk; revert hk; decide)]
  · rw [State.die_onDie_other s he]

end Sys2Proof.Machine
end

section
/-!
PROOFS. Calibration in service (R50, R154, R286, R298, R302, R303).
-/

namespace Sys2Proof.Machine

/-- A die without what judging its cells changes: the cells marked, the bench requests that wait and the work of the planner engines. -/
def Die.unjudged (x : Die) : Die := { x with cal := { x.cal with qfail := 0, pend := none, pend2 := none }, routers := Routers.reset }

theorem unjudged_congr {s t : State} (h : OnlyRecords s t) (d : DieId) : OnlyRecords (s.onDie d Die.unjudged) (t.onDie d Die.unjudged) :=
  h.onDie_congr d (fun _ => rfl) (fun _ _ => rfl)

theorem joinBench_unjudged (x : Die) (b : BenchSet) (cmd : Option Nat) : (joinBench x b cmd).unjudged = x.unjudged := by
  unfold joinBench
  generalize (manualHands x.decks.hands) = l
  cases x.cal.pend with
  | none => rfl
  | some p => cases x.cal.pend2 with
    | none => cases hc : p.closed <;> simp only [hc] <;> rfl
    | some q => rfl

theorem OnlyRecords.elementEvent (s : State) (d : DieId) (e code : Nat) (byBank : Bool) : OnlyRecords s (elementEvent s d e code byBank) := by
  unfold Machine.elementEvent
  split
  · exact .refl s
  · exact .eventMirrored s d _ _ _ _

theorem OnlyRecords.benchRefused (s : State) (d : DieId) (c : Nat) : OnlyRecords s (benchRefused s d c) :=
  (OnlyRecords.elementEvent s d c _ _).trans (OnlyRecords.raise _ d 8 0 (by decide))

/-- Judging a cell marks it, may request its bench, and records. -/
theorem judgeCell_unjudged (s : State) (d : DieId) {c : Nat} (hc : c < 4864) :
    OnlyRecords (s.onDie d Die.unjudged) ((judgeCell s d c).onDie d Die.unjudged) := by
  have hb : 20 + 5 * bankOf c + 4 < 256 := by unfold bankOf; split <;> omega
  unfold judgeCell
  extract_lets x q fails s1
  have h1 : OnlyRecords (s.onDie d Die.unjudged) (s1.onDie d Die.unjudged) := by
    unfold s1
    split
    · exact .refl _
    · exact (OnlyRecords.of_erased rfl).trans (unjudged_congr (.raise _ d _ c hb) d)
  split
  · exact .refl _
  · split
    · exact h1
    · split
      · exact h1.trans (.of_erased (joinBench_unjudged _ _ _))
      · exact h1.trans (unjudged_congr (.benchRefused _ d c) d)

theorem judgeCells_unjudged (s : State) (d : DieId) :
    OnlyRecords (s.onDie d Die.unjudged) (((List.range 4864).foldl (fun s c => judgeCell s d c) s).onDie d Die.unjudged) :=
  OnlyRecords.erased_foldl _ _ (fun t _ hc => judgeCell_unjudged t d (List.mem_range.1 hc)) s

theorem judgeAll_unjudged (s : State) (d : DieId) : OnlyRecords (s.onDie d Die.unjudged) ((judgeAll s d).onDie d Die.unjudged) := by
  unfold judgeAll
  split
  · exact (judgeCells_unjudged s d).trans (unjudged_congr (.mirrorCal _ d) d)
  · exact .refl _

/-! ## SELF_CAL_COMPLETE -/

theorem State.die_setRf_same (s : State) (d : DieId) (k : Nat) (f : Fld) (v : Nat) : (s.setRf d k f v).die d = (s.die d).setRf k f v :=
  s.die_onDie_same d _

/-- A field of a register word reads back as it was written, modulo its width. -/
theorem Die.rf_setRf_same (x : Die) (k : Nat) {f : Fld} (h : f.lo ≤ f.hi) (h32 : f.hi < 32) (v : Nat) :
    (x.setRf k f v).rf k f = v % 2 ^ (f.hi - f.lo + 1) := by
  rw [Die.rf, Die.setRf, Die.reg_setReg_same, fget_mod _ 32 _ h h32, fget_fput_same _ h]

theorem Die.rf_setRf_other (x : Die) {k j : Nat} (h : j ≠ k) (f g : Fld) (v : Nat) : (x.setRf k f v).rf j g = x.rf j g :=
  congrArg (fget g) (x.reg_setRf_other h f v)

theorem setReqStatus_trans (s : State) (d : DieId) (v : Nat) : ((setReqStatus s d v).die d).trans = (s.die d).trans := by
  rw [setReqStatus, State.die_setRf_same, Die.setRf_trans]

theorem setReqStatus_base (s : State) (d : DieId) (v : Nat) : ((setReqStatus s d v).die d).base = (s.die d).base := by
  rw [setReqStatus, State.die_setRf_same]
  exact Die.rf_setRf_other _ (by decide) _ _ _

theorem setReqStatus_status (s : State) (d : DieId) {v : Nat} (hv : v < 16) :
    ((setReqStatus s d v).die d).rf Reg.RED_MODE_REQ F.RED_MODE_REQ_STATUS = v := by
  rw [setReqStatus, State.die_setRf_same, Die.rf_setRf_same _ _ (by decide) (by decide)]
  exact Nat.mod_eq_of_lt hv

/-- DARK is entered: no transition runs, and the mode word says so (R52). -/
theorem enterDark_dark (s : State) (d : DieId) : ((enterDark s d).die d).trans = .none ∧ ((enterDark s d).die d).base = mDark := by
  unfold enterDark
  extract_lets s1 s2
  have h2 : (s2.die d).trans = .none := by rw [State.die_onDie_same]
  clear_value s2
  have hr := (OnlyRecords.mirrorDealer (setBase s2 d mDark) d).trans (OnlyRecords.mirrorDecks _ d)
  exact ⟨(hr.die_trans d).trans ((setBase_die_eq s2 d d mDark Die.trans (fun _ => rfl)).trans h2),
    (hr.base d).trans (setBase_base s2 d (by decide))⟩

section SelfCal
variable {s : State} {d : DieId} {req : Bool} {dn : BitVec 8}

theorem selfCalComplete_waits (hd : s.declarer = some d) (ht : (s.die d).trans = .selfCal req dn true)
    (h : ∃ b < 8, dn.getLsbD b = false ∧ (s.bank b).up d = true) : selfCalComplete s = s := by
  obtain ⟨b, hb, hn, hu⟩ := h
  have ha : (List.range 8).any (fun b => !dn.getLsbD b && (s.bank b).up d) = true :=
    List.any_eq_true.2 ⟨b, List.mem_range.2 hb, by simp [hn, hu]⟩
  simp only [selfCalComplete, hd, ht, ha, if_true]

theorem selfCalComplete_idle (hd : s.declarer = some d) (ht : (s.die d).trans = .none) : selfCalComplete s = s := by
  simp only [selfCalComplete, hd, ht]

/-- The bank dies have calibrated: DARK, and the cells judged where the calibration is valid (R50, R305). -/
theorem selfCalComplete_done (hd : s.declarer = some d) (ht : (s.die d).trans = .selfCal req dn true)
    (h : ∀ b < 8, (s.bank b).up d = true → dn.getLsbD b = true) :
    ∃ u, OnlyRecords ((enterDark s d).onDie d Die.unjudged) (u.onDie d Die.unjudged) ∧
      selfCalComplete s = mirrorCal (if req then setReqStatus u d 1 else u) d := by
  have ha : (List.range 8).any (fun b => !dn.getLsbD b && (s.bank b).up d) = false := by
    rw [List.any_eq_false]
    intro b hb hc
    obtain ⟨hn, hu⟩ := Bool.and_eq_true_iff.1 hc
    rw [h b (List.mem_range.1 hb) hu] at hn
    cases hn
  refine ⟨if ((enterDark s d).die d).cal.valid then (List.range 4864).foldl (fun s c => judgeCell s d c) (enterDark s d)
    else enterDark s d, ?_, ?_⟩
  · split
    · exact judgeCells_unjudged _ d
    · exact .refl _
  · simp only [selfCalComplete, hd, ht, ha]
    rfl

theorem answers_selfCalComplete (hd : s.declarer = some d) (ht : (s.die d).trans = .selfCal req dn true)
    (h : ∀ b < 8, (s.bank b).up d = true → dn.getLsbD b = true) : Answers .selfCalComplete s (fun t =>
      (t.die d).trans = .none ∧ (t.die d).base = mDark ∧ (req = true → (t.die d).rf Reg.RED_MODE_REQ F.RED_MODE_REQ_STATUS = 1)) := by
  obtain ⟨u, hu, he⟩ := selfCalComplete_done hd ht h
  obtain ⟨htr, hba⟩ := enterDark_dark s d
  have hutr : (u.die d).trans = .none := (hu.erased_eq Die.trans (fun _ => rfl)).trans htr
  have huba : (u.die d).base = mDark := (hu.erased_base (fun _ _ => rfl)).trans hba
  refine Answers.of_done (congrArg done he) fun t h => ?_
  replace h := (OnlyRecords.mirrorCal _ d).trans h
  cases req
  · exact ⟨(h.die_trans d).trans hutr, (h.base d).trans huba, fun h => by cases h⟩
  · exact ⟨(h.die_trans d).trans ((setReqStatus_trans u d 1).trans hutr), (h.base d).trans ((setReqStatus_base u d 1).trans huba),
      fun _ => (congrArg (fget _) (h.regs d _ (by decide))).trans (setReqStatus_status u d (by decide))⟩

end SelfCal

/-! ## The filter of the fabric temperature -/

theorem Die.covered_cal (x : Die) : x.covered.cal.tf = x.cal.tf ∧ x.covered.cal.lastTf = x.cal.lastTf := by
  unfold Die.covered
  split <;> exact ⟨rfl, rfl⟩

theorem sendTables_die (s : State) (d e : DieId) (b : Nat) : (sendTables s d b).die e = s.die e := by
  unfold sendTables
  split
  · exact s.die_emit _ e
  · rfl

theorem sendGain_die (s : State) (d e : DieId) (b : Nat) (x2 : Bool) : (sendGain s d b x2).die e = s.die e := by
  unfold sendGain
  split
  · rw [sendTables_die, State.die_emit]
  · rfl

/-- Choosing the heater gain leaves the calibration. -/
theorem chooseGain_cal (s : State) (d e : DieId) (b : Nat) (rose : Bool) : ((chooseGain s d b rose).die e).cal = (s.die e).cal := by
  have hcount : ((s.count d (Reg.BNK_HTR_GAIN b) F.BNK_HTR_GAIN_DEFER).die e).cal = (s.die e).cal := by
    by_cases h : e = d
    · subst h; rw [State.count, State.die_onDie_same, Die.count_cal]
    · rw [State.count, State.die_onDie_other s h]
  unfold chooseGain
  extract_lets x k mode t
  split_ifs <;> simp only [sendGain_die, hcount]

theorem tfUpdate_idle {s : State} {d : DieId} (h : (s.die d).running = false ∨
    ((s.die d).cal.lastTf ≠ 0 ∧ s.ticks - (s.die d).cal.lastTf < msT) ∨ (s.die d).thm.fabricTemp = none) : tfUpdate d s = s := by
  unfold tfUpdate
  rcases h with h | ⟨h0, h1⟩ | h
  · simp [h]
  · simp [h0, h1]
  · simp [h]

/-- The state after a filter update, before a Declarer chooses the heater gains. -/
def tfFiltered (s : State) (d : DieId) (u : Rat) : State :=
  let s1 := s.onDie d (fun x => Die.covered { x with cal := x.cal.filter u (max 1 s.ticks) })
  if bracket (s.die d).cal.active (s.die d).cal.useTemp = bracket (s1.die d).cal.active (s1.die d).cal.useTemp then s1 else judgeAll s1 d

theorem tfFiltered_cal (s : State) (d : DieId) (u : Rat) : ((tfFiltered s d u).die d).cal.tf = ((s.die d).cal.filter u (max 1 s.ticks)).tf ∧
    ((tfFiltered s d u).die d).cal.lastTf = max 1 s.ticks := by
  unfold tfFiltered
  extract_lets s1
  have h1 : (s1.die d).cal.tf = ((s.die d).cal.filter u (max 1 s.ticks)).tf ∧ (s1.die d).cal.lastTf = max 1 s.ticks := by
    rw [State.die_onDie_same]
    exact Die.covered_cal _
  split
  · exact h1
  · have hj := judgeAll_unjudged s1 d
    exact ⟨(hj.erased_eq (fun x => x.cal.tf) (fun _ => rfl)).trans h1.1, (hj.erased_eq (fun x => x.cal.lastTf) (fun _ => rfl)).trans h1.2⟩

theorem tfUpdate_due {s : State} {d : DieId} {u : Rat} (hr : (s.die d).running = true) (hw : msT ≤ s.ticks - (s.die d).cal.lastTf)
    (hu : (s.die d).thm.fabricTemp = some u) : ∃ rose, tfUpdate d s =
      if (s.die d).isDecl then (List.range 8).foldl (fun s b => chooseGain s d b rose) (tfFiltered s d u) else tfFiltered s d u := by
  have hnot : ¬ s.ticks - (s.die d).cal.lastTf < msT := by omega
  let s1 := s.onDie d (fun x => Die.covered { x with cal := x.cal.filter u (max 1 s.ticks) })
  refine ⟨decide ((s.die d).cal.tempC ≤ 0) && decide (0 < (s1.die d).cal.tempC), ?_⟩
  simp only [tfUpdate, hr, hu, hnot, decide_false, Bool.and_false, Bool.not_true, Bool.or_self, Bool.false_eq_true, if_false]
  rfl

theorem tfUpdate_cal {s : State} {d : DieId} {u : Rat} (hr : (s.die d).running = true) (hw : msT ≤ s.ticks - (s.die d).cal.lastTf)
    (hu : (s.die d).thm.fabricTemp = some u) : Answers (.tFFilterUpdate d) s (fun t =>
      (t.die d).cal.tf = ((s.die d).cal.filter u (max 1 s.ticks)).tf ∧ (t.die d).cal.lastTf = max 1 s.ticks) := by
  obtain ⟨rose, he⟩ := tfUpdate_due hr hw hu
  have hg (l : List Nat) (v : State) : ((l.foldl (fun s b => chooseGain s d b rose) v).die d).cal = (v.die d).cal := by
    induction l generalizing v with
    | nil => rfl
    | cons b l ih => exact (ih _).trans (chooseGain_cal v d d b rose)
  have hc : ((tfUpdate d s).die d).cal = ((tfFiltered s d u).die d).cal := by
    rw [he]
    split
    · exact hg _ _
    · rfl
  refine Answers.of_done (u := tfUpdate d s) rfl fun t h => ?_
  rw [h.die_cal d, hc]
  exact tfFiltered_cal s d u

/-! ## Surveys -/

theorem surveyStart_idle {s : State} {d : DieId} {c : Nat} (hd : s.declarer = some d)
    (h : (s.die d).cal.survey.isSome = true ∨ surveyable s d c = false) : surveyStart c s = s := by
  unfold surveyStart
  rcases h with h | h <;> simp [hd, h]

theorem surveyStart_starts {s : State} {d : DieId} {c i : Nat} (hd : s.declarer = some d) (h0 : (s.die d).cal.survey = none)
    (hs : surveyable s d c = true)
    (ho : ∀ e < 4864, olderSurvey (surveyed (s.die d) e) (surveyed (s.die d) c) = true → surveyable s d e = false)
    (hi : surveyInput s d c = some i) : surveyStart c s =
      driveOut (queueTask (s.onDie d (fun x => { x with cal := { x.cal with survey := some ⟨c, i, s.ticks, 0⟩ } })) d c tCal) d (4864 + i)
        .gate ((s.die d).cal.gateCode i 0).toNat false surveyGroup := by
  have ha : (List.range 4864).any (fun e => olderSurvey (surveyed (s.die d) e) (surveyed (s.die d) c) && surveyable s d e) = false := by
    rw [List.any_eq_false]
    intro e he hc
    obtain ⟨h1, h2⟩ := Bool.and_eq_true_iff.1 hc
    rw [ho e (List.mem_range.1 he) h1] at h2
    cases h2
  simp only [surveyStart, hd, h0, hs, ha, hi]
  rfl

theorem surveyEnd_none {s : State} {d : DieId} {c : Nat} {r : SurveyResult} (hd : s.declarer = some d) (h : (s.die d).cal.survey = none) :
    surveyEnd c r s = s := by simp only [surveyEnd, hd, h]

theorem surveyEnd_other {s : State} {d : DieId} {c : Nat} {r : SurveyResult} {v : Survey} (hd : s.declarer = some d)
    (h : (s.die d).cal.survey = some v) (hc : v.cell ≠ c) : surveyEnd c r s = s := by simp only [surveyEnd, hd, h, hc, if_true, ne_eq, not_false_eq_true]

theorem surveyEnd_ends {s : State} {d : DieId} {c : Nat} {r : SurveyResult} {v : Survey} (hd : s.declarer = some d)
    (h : (s.die d).cal.survey = some v) (hc : v.cell = c) : surveyEnd c r s =
      mirrorCal (judgeCell ((if sweepSteps < v.step then s else surveyRestore s d v).onDie d (fun x =>
        { x.count Reg.CAL_SURVEY_CNT F.CAL_SURVEY_CNT_DONE with cal := { x.cal with
            survey := none, field := x.cal.field ++ [⟨c, r.heaterFold, some r.ipi, x.nowUp, false⟩],
            quality := spPut c ⟨r.extBar.toNat, r.extCross.toNat, r.lock.toNat, s.ticks⟩ x.cal.quality } })) d c) d := by
  simp only [surveyEnd, hd, h, hc, ne_eq, not_true_eq_false, if_false]

/-! ## The rows -/

theorem makes_benchRecomputeDone {s : State} {d : DieId} (hd : s.declarer = some d) : Makes .benchRecomputeDone s
    (if (s.die d).routersStopped then s
      else mirrorCal (mirrorDecks (s.onDie d (fun x => (recomputed x).onRouters (·.drop RouteTask.isImage))) d) d) :=
  Makes.of_done (congrArg done (by simp only [benchRecomputeDone, hd]))

theorem makes_calibrationBoundary {s : State} {d : DieId} (hd : s.declarer = some d) : Makes .calibrationBoundary s
    (if (s.die d).rbit Reg.RED_MODE F.RED_MODE_TAKEOVER then s
      else parkDeal (if (s.die d).calNow = (s.die d).cal then s else calApply s d (s.die d).calNow (calDiff (s.die d).cal (s.die d).calNow)) d) :=
  Makes.of_done (congrArg done (by simp only [calBoundary, hd]))

/-- Settles O37: each row by the lemma that says what it makes of a state. -/
theorem calibrationProceeds : Obligations.CalibrationProceeds := by
  unfold Obligations.CalibrationProceeds
  refine ⟨fun s d hd => ?declarer, fun d s => ?filter⟩
  case declarer =>
    intro x
    have hbench := makes_benchRecomputeDone hd
    have hbound := makes_calibrationBoundary hd
    refine ⟨fun req dn ht => ⟨fun h => ?_, answers_selfCalComplete hd ht⟩, fun ht => ?_, fun h => ?_, fun h => ?_, fun h => ?_, fun h hc => ?_,
      fun h hc => ?_, fun c => ⟨fun h => ?_, fun i h0 hs ho hi => ?_, fun r => ⟨fun h => ?_, fun v h hc => ?_, fun v h hc => ?_⟩⟩⟩
    · exact Makes.of_done (congrArg done (selfCalComplete_waits hd ht h))
    · exact Makes.of_done (congrArg done (selfCalComplete_idle hd ht))
    · simpa only [h, if_true, x] using hbench
    · simpa [h, x] using hbench
    · simpa [h, x] using hbound
    · simpa [h, hc, x] using hbound
    · simpa [h, hc, x] using hbound
    · exact Makes.of_done (congrArg done (surveyStart_idle hd h))
    · exact Makes.of_done (congrArg done (surveyStart_starts hd h0 hs ho hi))
    · exact Makes.of_done (congrArg done (surveyEnd_none hd h))
    · exact Makes.of_done (congrArg done (surveyEnd_other hd h hc))
    · exact Makes.of_done (congrArg done (surveyEnd_ends hd h hc))
  case filter =>
    refine ⟨fun h => Makes.of_done (congrArg done (tfUpdate_idle h)), fun u hr hd hw hu => ?_, fun u hr _ hw hu => tfUpdate_cal hr hw hu⟩
    obtain ⟨rose, he⟩ := tfUpdate_due hr hw hu
    rw [hd] at he
    exact Makes.of_done (congrArg done he)

end Sys2Proof.Machine
end

section
/-!
PROOFS. The gate list of a control port after a forward step of the clock (R97): until it resumes, GATE_LIST_ENTRY leaves the entry in force.
So the clause of `EveryCommandCompletes` for that row, which asks nothing of `GateList.kept`, fails.
-/

namespace Sys2Proof.Machine

/-- While a list waits to resume after a step of the clock, GATE_LIST_ENTRY changes nothing. -/
theorem gateEntry_waiting {s : State} {d : DieId} {p : Nat} {l : GateList} {gates : BitVec 32} {resume : Nat}
    (hl : ((s.die d).cport p).list = some l) (hk : l.kept = some (gates, resume)) (hu : (s.die d).ps < resume) : gateEntry d p s = s := by
  simp [gateEntry, hl, hk, hu]

/-- Whatever GATE_LIST_ENTRY answers then has the entry that was in force. -/
theorem entry_gateListEntry_waiting {s t : State} {d : DieId} {p : Fin 8} {l : GateList} {gates : BitVec 32} {resume : Nat}
    (hl : ((s.die d).cport p).list = some l) (hk : l.kept = some (gates, resume)) (hu : (s.die d).ps < resume)
    (ht : exec (.gateListEntry d p) s = .next t) : ((t.die d).cport p).entry = ((s.die d).cport p).entry := by
  have hs : exec (.gateListEntry d p) s = done s := congrArg done (gateEntry_waiting hl hk hu)
  obtain rfl : settle s = t := Host.Outcome.next.inj (hs.symm.trans ht)
  simp only [Die.cport, (OnlyRecords.settle s).die_net d]

/-- A list of two entries of 1 µs each that, after a forward step of the clock, keeps the gates of its second entry until 1 µs. -/
def steppedList : GateList := ⟨[(0x80000001, 1000), (0x80000002, 1000)], 2000, 0, 0, 0, some (0x80000002, 1000000)⟩

/-- Control port 0 with that list in force, standing at its second entry. -/
def steppedPort : CPort := { CPort.reset with list := some steppedList, entry := 1 }

/-- A running die at time 0 with that control port. -/
def steppedState : State := State.reset.onDie .cd0 (fun x => { x with life := .up }.setCport 0 steppedPort)

theorem steppedState_cport : (steppedState.die .cd0).cport (0 : Fin 8) = steppedPort := by
  simp [steppedState, State.onDie, State.die, State.setDie, Die.cport, Die.setCport]

/-- Refutes O54: its clause for GATE_LIST_ENTRY asks only that the die runs and a list is in force. In `steppedState` the list waits to resume
after a step of the clock (R97), so the row leaves entry 1 in force, where the clause states the schedule's entry at the present time, 0. -/
theorem not_everyCommandCompletes : ¬ Obligations.EveryCommandCompletes := by
  unfold Obligations.EveryCommandCompletes
  intro h
  obtain ⟨_, _, _, _, _, _, _, _, _, _, _, hnet, _⟩ := h
  obtain ⟨_, _, _, _, _, _, _, _, _, _, hgate, _⟩ := hnet .cd0 0 0 steppedState
  have hlist : ((steppedState.die .cd0).cport (0 : Fin 8)).list = some steppedList := congrArg CPort.list steppedState_cport
  obtain ⟨t, ht, hentry⟩ := hgate steppedList rfl hlist
  have hnow : (steppedState.die .cd0).ps = 0 := rfl
  have hkept : ((t.die .cd0).cport (0 : Fin 8)).entry = 1 :=
    (entry_gateListEntry_waiting hlist rfl (by rw [hnow]; decide) ht).trans (congrArg CPort.entry steppedState_cport)
  have hplace : entryAt steppedList.sched (steppedList.place 0) = 0 := by decide
  rw [hnow, hplace] at hentry
  exact absurd (hkept.symm.trans hentry) (by decide)

end Sys2Proof.Machine
end

section
/-!
PROOFS. Transmit stamps (R104): the FIFO of a die, and the read of TIM_TXTS_INFO that takes its head.
-/

namespace Sys2Proof.Machine

theorem State.clock_onDie_onClock (s : State) (d : DieId) (f : Clock → Clock) : ((s.onDie d (·.onClock f)).die d).clock = f (s.die d).clock := by
  rw [State.die_onDie_same, Die.onClock_clock]

/-- Into a full FIFO a stamp is discarded. -/
theorem txCapture_full {s : State} {d : DieId} (h : 64 ≤ (s.die d).clock.txts.length) (p ty seq time : Nat) :
    txCapture s d p ty seq time = raise (s.onDie d (·.onClock (fun c => { c with txtsLost := true }))) d 178 := if_pos h

/-- A stamp joins a FIFO that has room. -/
theorem txCapture_room {s : State} {d : DieId} (h : (s.die d).clock.txts.length < 64) (p ty seq time : Nat) :
    txCapture s d p ty seq time = s.onDie d (·.onClock (fun c => { c with txts := c.txts ++ [⟨p, ty, seq, time⟩] })) :=
  if_neg (by omega)

theorem txCapture_clock_full {s : State} {d : DieId} (h : 64 ≤ (s.die d).clock.txts.length) (p ty seq time : Nat) :
    ((txCapture s d p ty seq time).die d).clock = { (s.die d).clock with txtsLost := true } := by
  rw [txCapture_full h, (OnlyRecords.raise _ d 178 0 (by decide)).die_clock d, State.clock_onDie_onClock]

theorem txCapture_clock_room {s : State} {d : DieId} (h : (s.die d).clock.txts.length < 64) (p ty seq time : Nat) :
    ((txCapture s d p ty seq time).die d).clock = { (s.die d).clock with txts := (s.die d).clock.txts ++ [⟨p, ty, seq, time⟩] } := by
  rw [txCapture_room h, State.clock_onDie_onClock]

/-- A stamp leaves the peer's clock. -/
theorem txCapture_clock_peer (s : State) (d : DieId) (p ty seq time : Nat) :
    ((txCapture s d p ty seq time).die d.peer).clock = (s.die d.peer).clock := by
  rcases Nat.lt_or_ge (s.die d).clock.txts.length 64 with h | h
  · rw [txCapture_room h, State.die_onDie_peer]
  · rw [txCapture_full h, (OnlyRecords.raise _ d 178 0 (by decide)).die_clock, State.die_onDie_peer]

set_option maxRecDepth 20000 in
/-- TIM_TXTS_INFO is a 32-bit register of PF3. -/
theorem findReg_txtsInfo : ∃ r idx, findReg 3 (Reg.TIM_TXTS_INFO % 0x10000) = some (r, idx, false) ∧ r.wide = false := by
  have h : (findReg 3 (Reg.TIM_TXTS_INFO % 0x10000)).any (fun p => !p.1.wide && !p.2.2) = true := by decide
  obtain ⟨⟨r, idx, hi⟩, he, hp⟩ := (Option.any_eq_true _ _).1 h
  simp only [Bool.and_eq_true, Bool.not_eq_true'] at hp
  exact ⟨r, idx, by rw [he, hp.2], hp.1⟩

/-- A read of TIM_TXTS_INFO takes the head of the FIFO. -/
theorem exec_txtsInfoRead {s : State} {d : DieId} (hb : (s.die d).barOpen = true) : exec (.txtsInfoRead d) s =
    done ((txtsPop s d).1.emit (.regRead d 3 (Reg.TIM_TXTS_INFO % 0x10000) 4 (txtsPop s d).2)) := by
  obtain ⟨r, idx, hr, hw⟩ := findReg_txtsInfo
  have he : exec (.txtsInfoRead d) s = done (hostRead d 3 (Reg.TIM_TXTS_INFO % 0x10000) false s) := rfl
  rw [he, hostRead_narrow, hostRead4_word hb hr (by decide) hw]
  rfl

theorem txtsPop_nil {s : State} {d : DieId} (h : (s.die d).clock.txts = []) : txtsPop s d = (s, 0) := by
  simp only [txtsPop, h]

/-- What reading a head entry makes of the die: the entry is gone, its time shown. -/
def Die.stampRead (x : Die) (e : TxStamp) (rest : List TxStamp) : Die :=
  ((x.onClock (fun c => { c with txts := rest, txtsLost := false })).setReg64 Reg.TIM_TXTS_TIME (e.time / 65536)).setReg
    Reg.TIM_TXTS_FRAC (fracBits e.time)

/-- The INFO word of an entry (R104). -/
def TxStamp.info (e : TxStamp) (lost : Bool) : Nat :=
  fput F.TIM_TXTS_INFO_VALID (fput F.TIM_TXTS_INFO_OVF (fput F.TIM_TXTS_INFO_PORT (fput F.TIM_TXTS_INFO_MSGTYPE
    (fput F.TIM_TXTS_INFO_SEQID 0 e.seqId) e.msgType) e.port) (b2n lost)) 1

theorem txtsPop_cons {s : State} {d : DieId} {e : TxStamp} {rest : List TxStamp} (h : (s.die d).clock.txts = e :: rest) :
    txtsPop s d = (s.onDie d (·.stampRead e rest), e.info (s.die d).clock.txtsLost) := by
  simp only [txtsPop, h]
  rfl

/-- The fields of an entry's INFO word share no bit, so that each reads what it was given. -/
theorem TxStamp.fget_info (e : TxStamp) (lost : Bool) :
    fget F.TIM_TXTS_INFO_VALID (e.info lost) = 1 ∧ fget F.TIM_TXTS_INFO_OVF (e.info lost) = b2n lost ∧
      fget F.TIM_TXTS_INFO_PORT (e.info lost) = e.port % 8 ∧ fget F.TIM_TXTS_INFO_MSGTYPE (e.info lost) = e.msgType % 16 ∧
      fget F.TIM_TXTS_INFO_SEQID (e.info lost) = e.seqId % 65536 := by
  have other {f g : Fld} (hf : f.lo ≤ f.hi) (hd : g.hi < f.lo) (hg : g.lo ≤ g.hi) (w v : Nat) : fget g (fput f w v) = fget g w :=
    fget_fput_other f g hf (.inl hd) hg w v
  unfold TxStamp.info
  refine ⟨?valid, ?ovf, ?port, ?type, ?seq⟩
  case valid => exact fget_fput_same _ (by decide) _ _
  case ovf =>
    rw [other (by decide) (by decide) (by decide), fget_fput_same _ (by decide)]
    cases lost <;> rfl
  case port => rw [other (by decide) (by decide) (by decide), other (by decide) (by decide) (by decide), fget_fput_same _ (by decide)]; rfl
  case type =>
    rw [other (by decide) (by decide) (by decide), other (by decide) (by decide) (by decide), other (by decide) (by decide) (by decide),
      fget_fput_same _ (by decide)]
    rfl
  case seq =>
    rw [other (by decide) (by decide) (by decide), other (by decide) (by decide) (by decide), other (by decide) (by decide) (by decide),
      other (by decide) (by decide) (by decide), fget_fput_same _ (by decide)]
    rfl

/-- A 64-bit register reads back as it was written. -/
theorem Die.reg64_setReg64_same (x : Die) (k : Nat) {v : Nat} (h : v < 2 ^ 64) : (x.setReg64 k v).reg64 k = v := by
  rw [Die.reg64, Die.setReg64, Die.reg_setReg_other _ (by omega), Die.reg_setReg_same, Die.reg_setReg_same]
  omega

/-- Writing one word leaves a 64-bit register elsewhere. -/
theorem Die.reg64_setReg_other (x : Die) {k j : Nat} (h : j ≠ k) (h4 : j + 4 ≠ k) (v : Nat) : (x.setReg k v).reg64 j = x.reg64 j := by
  rw [Die.reg64, Die.reg_setReg_other _ h, Die.reg_setReg_other _ h4, Die.reg64]

theorem Die.stampRead_clock (x : Die) (e : TxStamp) (rest : List TxStamp) :
    (x.stampRead e rest).clock = { x.clock with txts := rest, txtsLost := false } := rfl

theorem Die.stampRead_time (x : Die) {e : TxStamp} (rest : List TxStamp) (h : e.time < 2 ^ 80) :
    (x.stampRead e rest).reg64 Reg.TIM_TXTS_TIME = e.time / 65536 := by
  rw [Die.stampRead, Die.reg64_setReg_other _ (by decide) (by decide), Die.reg64_setReg64_same _ _ (by omega)]

theorem Die.stampRead_frac (x : Die) {e : TxStamp} (rest : List TxStamp) (h : e.time % 4096 = 0) :
    (x.stampRead e rest).rf Reg.TIM_TXTS_FRAC F.TIM_TXTS_FRAC_FRAC = e.time % 65536 := by
  have hf : fget F.TIM_TXTS_FRAC_FRAC (fracBits e.time) = fracBits e.time % 65536 := by simp [fget, bitsOf, F.TIM_TXTS_FRAC_FRAC]
  rw [Die.stampRead, Die.rf, Die.reg_setReg_same, fget_mod _ 32 _ (by decide) (by decide), hf, fracBits]
  omega

theorem makes_txtsInfoRead_nil {s : State} {d : DieId} (hb : (s.die d).barOpen = true) (h : (s.die d).clock.txts = []) :
    Makes (.txtsInfoRead d) s (s.emit (.regRead d 3 (Reg.TIM_TXTS_INFO % 0x10000) 4 0)) :=
  Makes.of_done (by rw [exec_txtsInfoRead hb, txtsPop_nil h])

theorem makes_txtsInfoRead_cons {s : State} {d : DieId} (hb : (s.die d).barOpen = true) {e : TxStamp} {rest : List TxStamp}
    (h : (s.die d).clock.txts = e :: rest) : Makes (.txtsInfoRead d) s ((s.onDie d (·.stampRead e rest)).emit
      (.regRead d 3 (Reg.TIM_TXTS_INFO % 0x10000) 4 (e.info (s.die d).clock.txtsLost))) :=
  Makes.of_done (by rw [exec_txtsInfoRead hb, txtsPop_cons h])

theorem OnlyRecords.mem_out {s t : State} (h : OnlyRecords s t) {o : Out} (ho : o ∈ s.out) : o ∈ t.out := h.out.subset ho

theorem OnlyRecords.reg64 {s t : State} (h : OnlyRecords s t) (d : DieId) {k : Nat} (hl : recordKey k = false)
    (hh : recordKey (k + 4) = false) : (t.die d).reg64 k = (s.die d).reg64 k := by
  rw [Die.reg64, h.regs d k hl, h.regs d _ hh, Die.reg64]

/-- Settles O59: the cases of `txCapture`, and the read of TIM_TXTS_INFO by the head of the FIFO. -/
theorem transmitStampFifo : Obligations.TransmitStampFifo := by
  unfold Obligations.TransmitStampFifo
  refine ⟨fun s d p ty seq time => ⟨fun h => ?full, fun h => ?room, txCapture_clock_peer s d p ty seq time⟩,
    fun d s => ⟨fun hb h => ?empty, fun e rest hb h htime hfrac => ?head⟩⟩
  case full =>
    rw [txCapture_clock_full h]
    exact ⟨rfl, rfl⟩
  case room =>
    rw [txCapture_clock_room h]
    exact ⟨rfl, rfl⟩
  case empty =>
    obtain ⟨t, ht, hrec⟩ := makes_txtsInfoRead_nil hb h
    exact ⟨t, ht, (hrec.die_clock d).trans (by rw [State.die_emit]), hrec.mem_out (by simp)⟩
  case head =>
    obtain ⟨t, ht, hrec⟩ := makes_txtsInfoRead_cons hb h
    have hdie : (((s.onDie d (·.stampRead e rest)).emit (.regRead d 3 (Reg.TIM_TXTS_INFO % 0x10000) 4
        (e.info (s.die d).clock.txtsLost))).die d) = (s.die d).stampRead e rest := by rw [State.die_emit, State.die_onDie_same]
    have hclock := hrec.die_clock d
    rw [hdie, Die.stampRead_clock] at hclock
    refine ⟨t, ht, congrArg Clock.txts hclock, congrArg Clock.txtsLost hclock, ?_, ?_, e.info (s.die d).clock.txtsLost,
      hrec.mem_out (by simp), e.fget_info _⟩
    · rw [hrec.reg64 d (by decide) (by decide), hdie, Die.stampRead_time _ _ htime]
    · rw [Die.rf, hrec.regs d _ (by decide), hdie]
      exact Die.stampRead_frac _ _ hfrac

end Sys2Proof.Machine
end

section
/-!
PROOFS. Output pulses and the absence of PPS_IN (R108, R109, R462).
-/

namespace Sys2Proof.Machine

/-- Neither die's version of a pulse is active. -/
def pulseFree (s : State) (pin : Fin 5) : Bool :=
  decide (s.cd0.clock.pulseEnd[pin] ≤ s.ticks) && decide (s.cd1.clock.pulseEnd[pin] ≤ s.ticks)

/-- The die whose version of a pulse an output shows: the Declarer's once no version is active, else the one it showed (R109). -/
def pulseShown (s : State) (pin : Fin 5) : DieId :=
  match s.declarer with | some e => if pulseFree s pin then e else s.pulseSel[pin] | none => s.pulseSel[pin]

theorem pulseSelect_eq (s : State) (pin : Fin 5) :
    pulseSelect s pin = { s with pulseSel := s.pulseSel.set pin (pulseShown s pin) } := by
  have keep : s = { s with pulseSel := s.pulseSel.set pin s.pulseSel[pin] } := by simp
  unfold pulseSelect pulseShown
  cases s.declarer with
  | none => exact keep
  | some e =>
    show (if pulseFree s pin then { s with pulseSel := s.pulseSel.set pin e } else s) = { s with pulseSel := s.pulseSel.set pin _ }
    cases hf : pulseFree s pin
    · exact keep
    · rfl

/-- The state after die d has made its version of a pulse at point p. -/
def pulseMade (s : State) (d : DieId) (pin : Fin 5) (p : Int) : State :=
  ({ s with pulseSel := s.pulseSel.set pin (pulseShown s pin) } : State).onDie d (·.onClock (fun c =>
    { c with emitted := (pin.val, p) :: c.emitted, pulseEnd := c.pulseEnd.set pin (s.ticks + (pulseForm (s.die d) pin).1) }))

theorem pulseMade_pulseSel (s : State) (d : DieId) (pin : Fin 5) (p : Int) :
    (pulseMade s d pin p).pulseSel[pin] = pulseShown s pin := by simp [pulseMade]

section Pulse
variable {s : State} {d : DieId} {pin : Fin 5}

theorem pulse_inactive (h : lastPoint (s.die d) pin = none) : pulse d pin s = s := by simp only [pulse, h]

theorem pulse_past {p : Int} (h : lastPoint (s.die d) pin = some p)
    (hp : (pin.val, p) ∈ (s.die d).clock.emitted ∨ p + 1 < (s.die d).ns) : pulse d pin s = s := by
  have hskip : (!(s.die d).clock.running || decide (((s.die d).ns : Int) - p > 1) ||
      (s.die d).clock.emitted.contains (pin.val, p)) = true := by
    rcases hp with hp | hp
    · simp [hp]
    · simp [show ((s.die d).ns : Int) - p > 1 by omega]
  simp only [pulse, h, hskip, if_true]

theorem pulse_due {p : Int} (hr : (s.die d).clock.running = true) (h : lastPoint (s.die d) pin = some p)
    (hn : ((s.die d).ns : Int) ≤ p + 1) (he : (pin.val, p) ∉ (s.die d).clock.emitted) : pulse d pin s =
      if pulseShown s pin = d then (pulseMade s d pin p).emit (.pulse pin p (pulseForm (s.die d) pin).1 (pulseForm (s.die d) pin).2)
      else pulseMade s d pin p := by
  have hskip : (!(s.die d).clock.running || decide (((s.die d).ns : Int) - p > 1) ||
      (s.die d).clock.emitted.contains (pin.val, p)) = false := by
    simp [hr, he]
    omega
  simp only [pulse, h, hskip, pulseSelect_eq, Bool.false_eq_true, if_false]
  show (if (pulseMade s d pin p).pulseSel[pin] = d then _ else pulseMade s d pin p) = _
  rw [pulseMade_pulseSel]
  rfl

end Pulse

/-- The rows of the pulses, with the pin of each. -/
theorem exec_pulseRow {d : DieId} {row : Instr} {pin : Fin 5}
    (h : (row, pin) ∈ [(.ppsOutPulse d, 0), (.syncOutPulse d 0, 1), (.syncOutPulse d 1, 2), (.syncOutPulse d 2, 3), (.syncOutPulse d 3, 4)])
    (s : State) : exec row s = done (pulse d pin s) := by
  simp only [List.mem_cons, List.not_mem_nil, or_false, Prod.mk.injEq] at h
  rcases h with ⟨rfl, rfl⟩ | ⟨rfl, rfl⟩ | ⟨rfl, rfl⟩ | ⟨rfl, rfl⟩ | ⟨rfl, rfl⟩ <;> rfl

theorem ppsAbsent_disabled {s : State} {d : DieId} (h : (s.die d).ppsInEn = false) : ppsAbsent d s = s := by simp [ppsAbsent, h]

theorem ppsAbsent_due {s : State} {d : DieId} (h : (s.die d).ppsInEn = true)
    (hd : 1500000000 ≤ s.ticks - max ((s.die d).clock.ppsIn.getD 0) (s.die d).clock.ppsEnAt) :
    ppsAbsent d s = s.onDie d (·.onClock (fun c => { c with ppsAbsent := true })) := by
  have ht : 1500 * msT ≤ s.ticks - max ((s.die d).clock.ppsIn.getD 0) (s.die d).clock.ppsEnAt := hd
  simp only [ppsAbsent, h, ht, decide_true, Bool.and_self, if_true]

/-- Settles O17: the cases of a pulse and of PPS_IN_ABSENT, and the rows of the stamp FIFO. -/
theorem pulsesAndStamps : Obligations.PulsesAndStamps := by
  unfold Obligations.PulsesAndStamps
  intro d row pin s hrow x free sel
  have hexec := exec_pulseRow hrow s
  refine ⟨fun p hr hp hn he => ?due, fun p hp hpast => ?past, fun hp => ?inactive, fun h hd => ?absent, fun h => ?disabled,
    fun hb => ?flush, makes_txtsInfoRead_nil, fun e rest hb h => ?head⟩
  case due =>
    have hdue := hexec.trans (congrArg done (pulse_due hr hp hn he))
    exact ⟨fun hs => Makes.of_done (hdue.trans (congrArg done (if_pos hs))),
      fun hs => Makes.of_done (hdue.trans (congrArg done (if_neg hs)))⟩
  case past => exact Makes.of_done (hexec.trans (congrArg done (pulse_past hp hpast)))
  case inactive => exact Makes.of_done (hexec.trans (congrArg done (pulse_inactive hp)))
  case absent => exact Makes.of_done (congrArg done (ppsAbsent_due h hd))
  case disabled => exact Makes.of_done (congrArg done (ppsAbsent_disabled h))
  case flush => exact Makes.of_doneBar hb (f := fun s => s.onDie d (·.onClock (fun c => { c with txts := [] }))) rfl
  case head =>
    rw [congrArg Prod.snd (txtsPop_cons h)]
    exact makes_txtsInfoRead_cons hb h

end Sys2Proof.Machine
end

section
/-!
PROOFS. The PTP clocks (R89, R90, R93, R95 to R97) and what keeps the other clocks in step with them (R110 to R112).
-/

namespace Sys2Proof.Machine

/-! ## Words of a write -/

theorem signedOf_toNat (v : Word64) : signedOf 64 v.toNat = v.toInt := by
  have hv := v.isLt
  rw [BitVec.toInt_eq_toNat_cond, signedOf, Nat.mod_eq_of_lt hv]
  split <;> split <;> omega

theorem codeOf_toInt (v : Word64) : codeOf 64 v.toInt = v.toNat := by
  have hv := v.isLt
  rw [codeOf, BitVec.toInt_eq_toNat_cond]
  split <;> omega

/-! ## TIM_INCR and TIM_ADJ (R89, R90, R95 to R97) -/

theorem Die.clock_foldl_onCport (g : Die → Nat → CPort → CPort) (l : List Nat) (x : Die) :
    (l.foldl (fun z p => z.onCport p (g z p)) x).clock = x.clock := by
  induction l generalizing x with
  | nil => rfl
  | cons p l ih => exact ih _

/-- Stepping a die's clock changes of the clock its time only. -/
theorem stepClock_clock (x : Die) (now ticks : Nat) : (stepClock x now ticks).clock = { x.clock with now := now } := by
  unfold stepClock
  extract_lets y
  split
  · rfl
  · exact Die.clock_foldl_onCport _ _ y

theorem declOnly_timIncr_timAdj : declOnly Reg.TIM_INCR = true ∧ declOnly Reg.TIM_ADJ = true := by decide

section Declarer
variable {s : State} {d : DieId}

theorem timIncr_notDecl (hd : (s.die d).isDecl = false) (v : Nat) : timIncr d v s = s := by
  simp [timIncr, Die.writable, declOnly_timIncr_timAdj.1, hd]

theorem timAdj_notDecl (hd : (s.die d).isDecl = false) (v : Nat) : timAdj d v s = s := by
  simp [timAdj, Die.writable, declOnly_timIncr_timAdj.2, hd]

/-- TIM_INCR_WRITE on the Declarer: the increment held between its limits, and source 177 where that changes it. -/
theorem timIncr_decl (hr : (s.die d).running = true) (hd : (s.die d).isDecl = true) (v : Nat) : timIncr d v s =
    let c := clampNat incrMin incrMax (v % 2 ^ 48)
    if c = v % 2 ^ 48 then putWord64 s d Reg.TIM_INCR c
    else raise ((putWord64 s d Reg.TIM_INCR c).setEvent d Reg.TIM_STATUS F.TIM_STATUS_INCR_CLAMP) d 177 := by
  simp [timIncr, Die.writable, hd, hr]

theorem makes_timIncrWrite_within (hb : (s.die d).barOpen = true) (hd : (s.die d).isDecl = true) (v : Word64)
    (hlo : incrMin ≤ v.toNat % 2 ^ 48) (hhi : v.toNat % 2 ^ 48 ≤ incrMax) :
    Makes (.timIncrWrite d v) s (putWord64 s d Reg.TIM_INCR (v.toNat % 2 ^ 48)) := by
  have hc : clampNat incrMin incrMax (v.toNat % 2 ^ 48) = v.toNat % 2 ^ 48 := by
    rw [clampNat, if_neg (by omega), if_neg (by omega)]
  have he := timIncr_decl (Die.running_of_barOpen hb) hd v.toNat
  simp only [hc, if_true] at he
  exact Makes.of_done ((exec_of_doneBar hb rfl).trans (congrArg done he))

theorem makes_timIncrWrite_clamped (hb : (s.die d).barOpen = true) (hd : (s.die d).isDecl = true) (v : Word64) {c : Nat}
    (hc : clampNat incrMin incrMax (v.toNat % 2 ^ 48) = c) (hne : c ≠ v.toNat % 2 ^ 48) : Makes (.timIncrWrite d v) s
      ((putWord64 s d Reg.TIM_INCR c).setEvent d Reg.TIM_STATUS F.TIM_STATUS_INCR_CLAMP) := by
  have he := timIncr_decl (Die.running_of_barOpen hb) hd v.toNat
  simp only [hc, if_neg hne] at he
  exact Makes.intro ((exec_of_doneBar hb rfl).trans (congrArg done he)) (OnlyRecords.raise _ d 177 0 (by decide))

/-- The time that TIM_ADJ asks for. -/
def adjusted (x : Die) (v : Word64) : Int := (x.clock.now : Int) + v.toInt * 2 ^ 40

/-- The state after the clocks that follow die d have stepped with its own, with the step recorded. -/
def clocksStepped (s : State) (d : DieId) (v : Word64) : State :=
  let step := fun x : Die => stepClock x (adjusted (s.die d) v).toNat s.ticks
  let s1 := s.onDie d step
  let s2 := if slaves s d then s1.onDie d.peer step else s1
  eventShared (raise (s2.setEvent d Reg.TIM_STATUS F.TIM_STATUS_STEPPED) d 174) d evTimeStep (leBytes 8 v.toNat)

/-- TIM_ADJ_WRITE on the Declarer: refused where the result is out of range, else a step. -/
theorem timAdj_decl (hr : (s.die d).running = true) (hd : (s.die d).isDecl = true) (v : Word64) : timAdj d v.toNat s =
    if adjusted (s.die d) v < 0 ∨ 2 ^ 104 ≤ adjusted (s.die d) v then s.setEvent d Reg.TIM_STATUS F.TIM_STATUS_ADJ_REFUSED
    else if 0 < v.toInt then stepForward (clocksStepped s d v) d
    else if v.toInt < 0 then stepBack (clocksStepped s d v) d else clocksStepped s d v := by
  simp only [timAdj, Die.writable, hd, hr, signedOf_toNat, codeOf_toInt, Bool.or_true, Bool.not_true, Bool.or_self, Bool.false_eq_true,
    if_false, Bool.or_eq_true, decide_eq_true_eq]
  rfl

theorem timAdj_step (hr : (s.die d).running = true) (hd : (s.die d).isDecl = true) {v : Word64}
    (h0 : 0 ≤ adjusted (s.die d) v) (h1 : adjusted (s.die d) v < 2 ^ 104) : timAdj d v.toNat s =
      if 0 < v.toInt then stepForward (clocksStepped s d v) d else if v.toInt < 0 then stepBack (clocksStepped s d v) d
      else clocksStepped s d v := by
  rw [timAdj_decl hr hd, if_neg (by omega)]

end Declarer

/-! ## PPS_IN (R110) -/

/-- The same change of a die on both sides, where it is the same die. -/
theorem OnlyRecords.onDie_same {s t : State} (h : OnlyRecords s t) {d : DieId} (hd : t.die d = s.die d) (f : Die → Die) :
    OnlyRecords (s.onDie d f) (t.onDie d f) := by
  have hq (u : State) : (u.onDie d f).quiet = u.quiet.setDie d (f (u.die d)).quiet := by cases d <;> rfl
  have hdie (e : DieId) : (t.onDie d f).die e = (s.onDie d f).die e ∨ ((t.onDie d f).die e = t.die e ∧ (s.onDie d f).die e = s.die e) := by
    by_cases he : e = d
    · subst he
      exact .inl (by rw [State.die_onDie_same, State.die_onDie_same, hd])
    · exact .inr ⟨State.die_onDie_other t he f, State.die_onDie_other s he f⟩
  refine ⟨by rw [hq, hq, h.quiet, hd], fun e k hk => ?_, fun e g hg => ?_, by simpa using h.out⟩
  · rcases hdie e with he | ⟨ht, hs⟩
    · rw [he]
    · rw [ht, hs, h.regs e k hk]
  · rcases hdie e with he | ⟨ht, hs⟩
    · rw [he]
    · rw [ht, hs, h.mode e g hg]

theorem RecordsOn.eventAt (e : DieId) (s : State) (type origin stamp : Nat) (p : List Byte) :
    RecordsOn e s (eventAt s e type origin stamp p) :=
  foldl _ _ (fun t f hf => eventOn (eventFns_lt type f hf) t type origin stamp p) s

theorem OnlyRecords.ticks {s t : State} (h : OnlyRecords s t) : t.ticks = s.ticks := (congrArg State.ticks h.quiet :)

/-- A die that stamps an edge at tick t. -/
def Die.ppsStamped (x : Die) (t : Nat) : Die :=
  ((((x.onClock (fun c => { c with ppsIn := some t, ppsAbsent := false })).setReg64 Reg.TIM_PPS_IN_TS (x.ns16 / 4096 * 4096 / 65536)).setRf
    Reg.TIM_PPS_IN_INFO F.TIM_PPS_IN_INFO_COUNT ((x.rf Reg.TIM_PPS_IN_INFO F.TIM_PPS_IN_INFO_COUNT + 1) % 65536)).setRf
    Reg.TIM_PPS_IN_INFO F.TIM_PPS_IN_INFO_FRAC (x.ns16 / 4096 * 4096 % 65536)).setEvent Reg.TIM_STATUS F.TIM_STATUS_PPS_IN_SEEN

/-- The state after die d has stamped an edge. -/
def ppsStamped (s : State) (d : DieId) : State := s.onDie d (·.ppsStamped s.ticks)

theorem ppsStamp_disabled {s : State} {d : DieId} (h : (s.die d).ppsInEn = false) : ppsStamp s d = s := by simp [ppsStamp, h]

/-- The first edge is stamped, and recorded. -/
theorem ppsStamp_first {s : State} {d : DieId} (h : (s.die d).ppsInEn = true) (hn : (s.die d).clock.ppsIn = none) :
    ∃ stamp p, ppsStamp s d = eventAt (ppsStamped s d) d evPpsIn d.num stamp p := by
  refine ⟨(s.die d).ns16 / 4096 * 4096, leBytes 2 (((s.die d).rf Reg.TIM_PPS_IN_INFO F.TIM_PPS_IN_INFO_COUNT + 1) % 65536), ?_⟩
  simp only [ppsStamp, h, hn, Bool.not_true, Bool.or_self, Bool.false_eq_true, if_false, ppsStamped, Die.ppsStamped, State.onDie]

/-- Both dies stamp the first edge, each its own way: what one records leaves the other. -/
theorem makes_ppsInEdge {s : State} (h0 : s.cd0.ppsInEn = true) (h1 : s.cd1.ppsInEn = true) (hn0 : s.cd0.clock.ppsIn = none)
    (hn1 : s.cd1.clock.ppsIn = none) :
    Makes .ppsInEdge s (ppsStamped (ppsStamped s .cd0) .cd1) := by
  obtain ⟨stamp, p, he⟩ := ppsStamp_first (s := s) (d := .cd0) h0 hn0
  let a := ppsStamped s .cd0
  have hrec : OnlyRecords a (ppsStamp s .cd0) := he ▸ OnlyRecords.eventAt a .cd0 _ _ _ _
  have hdie : (ppsStamp s .cd0).die .cd1 = a.die .cd1 := he ▸ (RecordsOn.eventAt .cd0 a _ _ _ _).other .cd1 (by decide)
  have hticks : (ppsStamp s .cd0).ticks = a.ticks := hrec.ticks
  have hcd1 : a.die .cd1 = s.cd1 := s.die_onDie_other (by decide) _
  obtain ⟨stamp', p', he'⟩ := ppsStamp_first (s := ppsStamp s .cd0) (d := .cd1) (by rw [hdie, hcd1, h1]) (by rw [hdie, hcd1, hn1])
  have hstamped : OnlyRecords (ppsStamped a .cd1) (ppsStamped (ppsStamp s .cd0) .cd1) := by
    rw [ppsStamped, ppsStamped, hticks]
    exact hrec.onDie_same hdie _
  exact Makes.intro (congrArg done he') (hstamped.trans (OnlyRecords.eventAt _ .cd1 _ _ _ _))

/-! ## The slaving error (R93) -/

theorem slavingError_noDummy {s : State} (h0 : s.cd0.isDummy = false) (h1 : s.cd1.isDummy = false) (ofs : Int) : slavingError ofs s = s := by
  simp [slavingError, h0, h1]

section Slaving
variable {s : State} {ofs : Int} (hd : s.cd0.isDummy = true) (hr : s.cd0.running = true)
include hd hr

theorem slavingError_small (h : ofs.natAbs ≤ 2000) : slavingError ofs s = s.onDie .cd0 (fun x =>
    ((x.setReg Reg.TIM_SLAVE_OFS (codeOf 32 ofs)).onClock (fun c => { c with slaveSince := none })).setRf Reg.TIM_STATUS
      F.TIM_STATUS_SLAVE_ERR 0) := by
  simp only [slavingError, hd, hr, h, Bool.and_self, if_true]

/-- An error that has lasted longer than 10 µs. -/
theorem slavingError_long (h : 2000 < ofs.natAbs) {t : Nat} (ht : s.cd0.clock.slaveSince = some t) (hl : 10000 < s.ticks - t) :
    slavingError ofs s = s.onDie .cd0 (fun x =>
      (x.setReg Reg.TIM_SLAVE_OFS (codeOf 32 ofs)).setRf Reg.TIM_STATUS F.TIM_STATUS_SLAVE_ERR 1) := by
  have hsmall : ¬ ofs.natAbs ≤ 2000 := by omega
  have hlong : 10 * usT < s.ticks - t := hl
  have hsince (y : Die) (hy : y.clock = s.cd0.clock) : y.onClock (fun c => { c with slaveSince := some t }) = y := by
    rw [Die.onClock, hy, ← ht, ← hy]
  simp only [slavingError, hd, hr, hsmall, Bool.and_self, if_true, if_false, State.onDie, State.die, ht, Option.getD_some, hlong]
  rw [hsince (s.cd0.setReg Reg.TIM_SLAVE_OFS (codeOf 32 ofs)) rfl]

end Slaving

/-! ## Bank links (R111, R112) -/

theorem makes_delayMeasurement {s : State} {d : DieId} {b : Fin 8} (hr : (s.die d).running = true) (hu : (s.bank b).up d = true)
    (hm : mSelfCal ≤ (s.die d).base) (rt : Nat) : Makes (.delayMeasurement d b rt) s ((s.setRf d (Reg.TIM_BLINK_DLY b) F.TIM_BLINK_DLY_DLY
      (min (2 ^ 20 - 1) (max 0 ((rt / 2 : Nat) + Config.asymmetry d b)).toNat)).setRf d (Reg.TIM_BLINK_DLY b) F.TIM_BLINK_DLY_VALID 1) := by
  have hm' : ¬ (s.die d).base < mSelfCal := by omega
  refine Makes.intro (u := delayMeasure d b.val rt s) rfl ?_
  simp only [delayMeasure, hr, hu, hm', Bool.not_true, decide_false, Bool.or_self, Bool.false_eq_true, if_false]
  split
  · exact OnlyRecords.raise _ d 176 _ (by decide)
  · exact .refl _

theorem Bank.setLink_holder (k : Bank) (p : DieId) (l : Link) : (k.setLink p l).holder = k.holder := by cases p <;> rfl

theorem discipline_holder {s : State} {d : DieId} {b : Nat} (hc : (s.die d).clock.running = true) (hd : (s.die d).isDecl = true)
    (hu : (s.bank b).up d = true) (hh : (s.bank b).holder = some d) : discipline d b s = s.onBank b (fun k =>
      { k.setLink d { k.link d with bad := 0 } with
        lastMsg := s.ticks, clock := (s.die d).clock.now, incr := (s.die d).reg64 Reg.TIM_INCR, disciplined := true }) := by
  have hholds : ((s.bank b).setLink d { (s.bank b).link d with bad := 0 }).holds d = true := by
    simp [Bank.holds, Bank.setLink_holder, hh]
  have hacc : (s.bank b).accepts d s.ticks = true := by simp [Bank.accepts, Bank.holds, hh]
  simp only [discipline, hc, hd, hu, hacc, Bool.not_true, Bool.or_self, Bool.false_eq_true, if_false, if_true, State.onBank, Bank.heard, hholds]

theorem discipline_idle {s : State} {d : DieId} {b : Nat}
    (h : (s.die d).clock.running = false ∨ (s.bank b).up d = false ∨ (s.die d).isDecl = false) : discipline d b s = s := by
  rcases h with h | h | h <;> simp [discipline, h]

/-- Settles O16: each row by the lemma that says what it makes of a state. -/
theorem clockStepsAndDiscipline : Obligations.ClockStepsAndDiscipline := by
  unfold Obligations.ClockStepsAndDiscipline
  refine ⟨fun d v s hb => ⟨stepClock_clock _ _ _, fun hd => ?notDecl, fun hd => ?decl⟩,
    fun d b ofs rt s => ⟨makes_ppsInEdge, fun h0 h1 => ?disabled, fun h0 h1 => ?noDummy, fun hd hr h => ?small, fun t hd hr h ht hl => ?long,
      fun hr hu hm => makes_delayMeasurement hr hu hm rt, fun hc hd hu hh => ?discipline, fun h => ?idle⟩⟩
  case notDecl =>
    exact ⟨Makes.of_done ((exec_of_doneBar hb rfl).trans (congrArg done (timIncr_notDecl hd _))),
      Makes.of_done ((exec_of_doneBar hb rfl).trans (congrArg done (timAdj_notDecl hd _)))⟩
  case decl =>
    have hr := Die.running_of_barOpen hb
    have adj {u : State} (h : timAdj d v.toNat s = u) : Makes (.timAdjWrite d v) s u :=
      Makes.of_done ((exec_of_doneBar hb rfl).trans (congrArg done h))
    refine ⟨makes_timIncrWrite_within hb hd v, fun h => ?_, fun h => ?_, fun h => adj ((timAdj_decl hr hd v).trans (if_pos h)), fun h0 h1 hf => ?_,
      fun h0 h1 hf => ?_, fun h1 hf => ?_⟩
    · exact makes_timIncrWrite_clamped hb hd v (if_pos h) (Nat.ne_of_gt h)
    · have hlo : incrMin ≤ incrMax := by decide
      have hhi : incrMax < v.toNat % 2 ^ 48 := h
      exact makes_timIncrWrite_clamped hb hd v ((if_neg (by omega)).trans (if_pos hhi)) (Nat.ne_of_lt hhi)
    · exact adj ((timAdj_step hr hd h0 h1).trans (if_pos hf))
    · exact adj ((timAdj_step hr hd h0 h1).trans ((if_neg (by omega)).trans (if_pos hf)))
    · have h0 : 0 ≤ adjusted (s.die d) v := by rw [adjusted, hf]; omega
      exact adj ((timAdj_step hr hd h0 h1).trans ((if_neg (by omega)).trans (if_neg (by omega))))
  case disabled =>
    refine Makes.of_done (congrArg done ?_)
    rw [ppsStamp_disabled (s := s) (d := .cd0) h0, ppsStamp_disabled (s := s) (d := .cd1) h1]
  case noDummy => exact Makes.of_done (congrArg done (slavingError_noDummy h0 h1 ofs))
  case small => exact Makes.of_done (congrArg done (slavingError_small hd hr h))
  case long => exact Makes.of_done (congrArg done (slavingError_long hd hr h ht hl))
  case discipline => exact Makes.of_done (congrArg done (discipline_holder hc hd hu hh))
  case idle => exact Makes.of_done (congrArg done (discipline_idle h))

end Sys2Proof.Machine
end

section
/-!
PROOFS. A step (log entry 2): the front command of the queue, or one cycle of the clock. What the loops, the DITHER_RUNs, a survey and the
patch stores do at a tick leaves elapsed time and the PTP clocks.
-/

namespace Sys2Proof.Machine

/-- Elapsed time and the clocks of both dies. -/
def State.times (s : State) : Nat × Clock × Clock := (s.ticks, s.cd0.clock, s.cd1.clock)

theorem State.times_onDie (s : State) (d : DieId) (f : Die → Die) (h : (f (s.die d)).clock = (s.die d).clock) :
    (s.onDie d f).times = s.times := by
  cases d
  · exact congrArg (fun c => (s.ticks, c, s.cd1.clock)) h
  · exact congrArg (fun c => (s.ticks, s.cd0.clock, c)) h

@[simp] theorem State.times_onElem (s : State) (d : DieId) (e : Nat) (f : Elem → Elem) : (s.onDie d (·.onElem e f)).times = s.times :=
  s.times_onDie d _ rfl

@[simp] theorem State.times_emit (s : State) (o : Out) : (s.emit o).times = s.times := rfl

theorem State.times_foldl {α : Type} (g : State → α → State) (h : ∀ t a, (g t a).times = t.times) (l : List α) (s : State) :
    (l.foldl g s).times = s.times := by
  induction l generalizing s with
  | nil => rfl
  | cons a l ih => exact (ih _).trans (h s a)

theorem OnlyRecords.times {s t : State} (h : OnlyRecords s t) : t.times = s.times := (congrArg State.times h.quiet :)

/-! ## Drive outputs -/

@[simp] theorem driveOut_times (s : State) (d : DieId) (e : Nat) (out : DriveOut) (code : Nat) (x2 : Bool) (group : Nat) :
    (driveOut s d e out code x2 group).times = s.times := by
  unfold driveOut
  extract_lets el s1
  have h1 : s1.times = s.times := s.times_onElem d e _
  split
  · exact h1
  · exact h1

@[simp] theorem loopOut_times (s : State) (d : DieId) (e : Nat) (out : DriveOut) (code : Nat) (x2 : Bool) (group : Nat) :
    (loopOut s d e out code x2 group).times = s.times := by
  unfold loopOut
  split
  · rfl
  · exact driveOut_times ..

@[simp] theorem storeCell_times (s : State) (d : DieId) (c : Nat) (ph pp : Rat) : (storeCell s d c ph pp).times = s.times :=
  s.times_onElem d c _

@[simp] theorem strobeHeater_times (s : State) (d : DieId) (c group : Nat) : (strobeHeater s d c group).times = s.times :=
  loopOut_times ..

@[simp] theorem strobePin_times (s : State) (d : DieId) (c group : Nat) : (strobePin s d c group).times = s.times := loopOut_times ..

@[simp] theorem applyCell_times (s : State) (d : DieId) (c : Nat) (ph pp : Rat) (group : Nat) :
    (applyCell s d c ph pp group).times = s.times := by
  rw [applyCell, strobePin_times, strobeHeater_times, storeCell_times]

@[simp] theorem reapply_times (s : State) (d : DieId) (c : Nat) : (reapply s d c).times = s.times := by
  unfold reapply
  extract_lets el s1
  have h1 : s1.times = s.times := storeCell_times ..
  split
  · exact h1
  · exact (strobeHeater_times ..).trans h1

@[simp] theorem refreshNeighbours_times (s : State) (d : DieId) (c : Nat) : (refreshNeighbours s d c).times = s.times := by
  refine State.times_foldl _ (fun t n => ?_) _ s
  extract_lets el follows
  split
  · exact reapply_times ..
  · rfl

/-! ## The loops: hand-off ramps and moves over 1 ms -/

@[simp] theorem handStep_times (s : State) (d : DieId) (c : Nat) : (handStep s d c).times = s.times := by
  unfold handStep
  extract_lets el t s1
  have h1 : s1.times = s.times := applyCell_times ..
  split
  · split
    · exact h1
    · exact (refreshNeighbours_times ..).trans h1
  · rfl

@[simp] theorem rampOut_times (s : State) (d : DieId) (e : Nat) (out : DriveOut) (was v : Nat) :
    (rampOut s d e out was v).times = s.times := by
  unfold rampOut
  extract_lets q
  generalize (if q.2 then 2 * q.1 else q.1) = cur
  split
  · rfl
  · exact loopOut_times ..

@[simp] theorem rampEnds_times (s : State) (d : DieId) (e : Nat) (r : Ramp) : (rampEnds s d e r).times = s.times := s.times_onElem d e _

@[simp] theorem rampMove_times (s : State) (d : DieId) (e : Nat) : (rampMove s d e).times = s.times := by
  unfold rampMove
  extract_lets el
  split
  · rfl
  next r _ =>
    split
    · rfl
    · extract_lets s1
      have h1 : s1.times = s.times := by
        unfold s1
        split
        · rw [rampOut_times, rampOut_times]
        · exact rampOut_times ..
      split
      · exact (rampEnds_times ..).trans h1
      · exact h1

theorem loopsTick_times (s : State) (d : DieId) : (loopsTick s d).times = s.times :=
  State.times_foldl _ (fun t p => by rw [rampMove_times, handStep_times]) _ s

/-! ## DITHER_RUNs, patch stores and a survey -/

@[simp] theorem setRun_times (s : State) (d : DieId) (r : DitherRun) : (setRun s d r).times = s.times := s.times_onDie d _ rfl

@[simp] theorem urgentTargets_times (s : State) (d : DieId) (r : DitherRun) : (urgentTargets s d r).times = s.times := by
  refine State.times_foldl _ (fun t a => ?_) _ s
  split
  · rw [State.times_emit, State.times_onElem]
  · rfl

theorem urgentTick_times (s : State) (d : DieId) : (urgentTick s d).times = s.times := by
  refine State.times_foldl _ (fun t r => ?_) _ s
  split
  · rfl
  · rw [urgentTargets_times, setRun_times]

/-- A change of registers that the Dummy's shadow makes too leaves the clocks where the change does. -/
theorem shadowed_times (s : State) (d : DieId) (f : Die → Die) (h : ∀ x, (f x).clock = x.clock) : (shadowed s d f).times = s.times := by
  unfold shadowed
  extract_lets s1
  have h1 : s1.times = s.times := s.times_onDie d f (h _)
  split
  · exact (s1.times_onDie d.peer f (h _)).trans h1
  · exact h1

theorem activateNow_times (s : State) (d : DieId) : (activateNow s d).times = s.times :=
  shadowed_times s d _ (fun x => by rw [Die.setRf_clock, Die.setRf_clock, Die.setRf_clock, Die.onEng_clock])

theorem patchTick_times (s : State) (d : DieId) : (patchTick s d).times = s.times := by
  unfold patchTick
  extract_lets x
  split
  · exact activateNow_times s d
  · rfl

theorem surveyRestore_times (s : State) (d : DieId) (v : Survey) : (surveyRestore s d v).times = s.times := by
  rw [surveyRestore, driveOut_times, driveOut_times]

theorem surveyStep_times (s : State) (d : DieId) (v : Survey) : (surveyStep s d v).times = s.times := by
  unfold surveyStep
  extract_lets c s1 ask
  have h1 : s1.times = s.times := s.times_onDie d _ rfl
  split
  · exact (surveyRestore_times ..).trans h1
  · split
    · exact (driveOut_times ..).trans h1
    · exact (State.times_foldl (fun s _ => ask s mUrgent) (fun _ _ => rfl) _ _).trans h1

theorem surveyTick_times (s : State) (d : DieId) : (surveyTick s d).times = s.times := by
  unfold surveyTick
  split
  · split
    · exact surveyStep_times ..
    · rfl
  · rfl

/-! ## The tick -/

theorem loopsOfDies_times (s : State) : (loopsOfDies s).times = s.times := by
  simp only [loopsOfDies, surveyTick_times, patchTick_times, urgentTick_times, loopsTick_times]

/-- A tick lets elapsed time grow by one and every die's clock take a cycle, and nothing else moves either. -/
theorem tick_times (s : State) : (tick s).times = (s.ticks + 1, s.cd0.tickClock.clock, s.cd1.tickClock.clock) :=
  (OnlyRecords.settle _).times.trans (loopsOfDies_times _)

/-- A running clock advances by TIM_INCR (R89). -/
theorem Die.tickClock_now {x : Die} (h : x.clock.running = true) : x.tickClock.clock.now = x.clock.now + x.reg64 Reg.TIM_INCR := by
  simp only [Die.tickClock, h, if_true]

theorem tick_clock (s : State) (d : DieId) : ((tick s).die d).clock = (s.die d).tickClock.clock := by
  have h := tick_times s
  cases d
  · exact congrArg (fun p => p.2.1) h
  · exact congrArg (fun p => p.2.2) h

theorem step_cons {s : State} {c : Instr} {rest : List Instr} (h : s.pending = c :: rest) :
    step s = exec c { s with pending := rest } := by simp only [step, h]

theorem step_empty {s : State} (h : s.pending = []) : step s = .next (tick s) := by simp only [step, h]

/-- Settles O53: by the queue, and on an empty one by what a tick does to the clocks. -/
theorem stepRunsTheFrontCommand : Obligations.StepRunsTheFrontCommand := by
  unfold Obligations.StepRunsTheFrontCommand
  refine ⟨fun c rest s h => step_cons h, fun c s => step_cons (s := s.push c) rfl, fun s h => ⟨tick s, step_empty h, ?ticks, fun d hr => ?clock⟩⟩
  case ticks => exact congrArg Prod.fst (tick_times s)
  case clock => rw [tick_clock, Die.tickClock_now hr]

end Sys2Proof.Machine
end

section
/-!
PROOFS. A ring command that passes the checks every opcode shares starts at once (R399, R401); what then becomes of TAKE (R121, R123),
RULE_COMMIT (R352) and TAKEOVER (R408).
-/

namespace Sys2Proof.Machine

theorem length_padTo (n : Nat) (l : List Byte) : (padTo n l).length = n := by
  simp only [padTo, bytesAt, List.length_append, List.length_replicate, List.length_take, List.length_drop]
  omega

/-- Byte 0 of a row's descriptor holds the row's opcode. -/
theorem dOpcode_rowBytes {op : Nat} (h : op < 256) (desc : List Byte) : dOpcode (rowBytes op desc) = op := by
  have hlen := length_padTo 64 desc
  unfold dOpcode rowBytes
  generalize padTo 64 desc = l at hlen
  cases l with
  | nil => cases hlen
  | cons b l => simp [leAt, bytesAt, leNat, Nat.mod_eq_of_lt h]

section Started
variable {op : Nat} {q : RingRef} {desc : List Byte} {s : State}

/-- Step 6 of R401 follows at once. -/
theorem ringCommand_passes (h : Passes op q desc s) :
    ringCommand op q desc s = startCommand s q.die (rowOrigin op q desc s) (rowBytes op desc) := by
  obtain ⟨⟨hrun, hmode, hfirst, hfree⟩, hform, hallowed, hfence⟩ := h
  have hbase : ¬ (s.die q.die).base < 3 := by omega
  have hvalidate : ringCommand op q desc s = validate s q.die q.fn q.ring ((s.die q.die).ring q.fn q.ring).modCnt.toNat (s.die q.die).ns
      (rowBytes op desc) := by
    unfold rowBytes at hfree ⊢
    simp [ringCommand, hrun, hbase, hfirst, hfree]
  rw [hvalidate]
  simp [validate, hform, hallowed, hfence, rowOrigin]

theorem Makes.of_passes {c : Instr} {u : State} (hc : exec c s = done (ringCommand op q desc s)) (h : Passes op q desc s)
    (hu : startCommand s q.die (rowOrigin op q desc s) (rowBytes op desc) = u) : Makes c s u :=
  Makes.of_done (hc.trans (congrArg done ((ringCommand_passes h).trans hu)))

end Started

section Start
variable {s : State} {d : DieId} {o : Origin} {b : List Byte}

theorem startCommand_take (h : dOpcode b = 0x10) : startCommand s d o b =
    validateTake s d o b (ringTake b).1 ((ringTake b).2 && zeroRange b (40 + 4 * leAt b 27 1) 63) none 0 := by
  simp [startCommand, h]

theorem startCommand_ruleCommit (h : dOpcode b = 0x48) : startCommand s d o b =
    if ruleCommitOk b then ruleCommand (s.withCmd d o b .waiting true) d (s.die d).nextCmd else complete s d o stInvalid 0 0 0 := by
  simp [startCommand, h]
  rfl

theorem startCommand_takeover (h : dOpcode b = 0x60) : startCommand s d o b = startTakeover s d o b := by
  simp [startCommand, h]

theorem validateTake_refused {f : TakeForm} {ok : Bool} {trump : Option (DieId × Nat)} {n st : Nat} (h : takeRefusal (s.die d) f ok = some st) :
    validateTake s d o b f ok trump n = complete s d o st 0 0 0 := by simp only [validateTake, h]

theorem validateTake_accepted {f : TakeForm} {ok : Bool} {trump : Option (DieId × Nat)} {n : Nat} (h : takeRefusal (s.die d) f ok = none) :
    validateTake s d o b f ok trump n = acceptTake s d o b f trump n := by simp only [validateTake, h]

theorem startTakeover_invalid (h : 2 ≤ leAt b 16 1 ∨ zeroRange b 17 63 = false) :
    startTakeover s d o b = complete s d o stInvalid 0 0 0 := by
  rcases h with h | h <;> simp [startTakeover, h]

/-- YIELD on a Declarer: it is busy, or the takeover starts. -/
theorem startTakeover_yield (hz : zeroRange b 17 63 = true) (hop : leAt b 16 1 = 0) (hrole : (s.die d).role = 1) :
    startTakeover s d o b =
      if (s.die d).inResync || !(s.die d).peerOk || !readyDummy s d.peer || takeoverBusy s then complete s d o stBusy 0 0 0
      else plannedTrigger (s.withCmd d o b .takeover true) d (some (s.die d).nextCmd) none := by
  simp [startTakeover, hz, hop, hrole, Die.isDecl, Die.isDummy]
  rfl

theorem startTakeover_yield_busy (hz : zeroRange b 17 63 = true) (hop : leAt b 16 1 = 0) (hrole : (s.die d).role = 1)
    (h : (s.die d).inResync = true ∨ (s.die d).peerOk = false ∨ takeoverBusy s = true) :
    startTakeover s d o b = complete s d o stBusy 0 0 0 := by
  rw [startTakeover_yield hz hop hrole]
  rcases h with h | h | h <;> simp [h]

theorem startTakeover_yield_starts (hz : zeroRange b 17 63 = true) (hop : leAt b 16 1 = 0) (hrole : (s.die d).role = 1)
    (hresync : (s.die d).inResync = false) (hpeer : (s.die d).peerOk = true) (hready : readyDummy s d.peer = true)
    (hfree : takeoverBusy s = false) :
    startTakeover s d o b = plannedTrigger (s.withCmd d o b .takeover true) d (some (s.die d).nextCmd) none := by
  rw [startTakeover_yield hz hop hrole]
  simp [hresync, hpeer, hready, hfree]

/-- CLAIM on a Dummy whose peer is a Declarer that can be asked. -/
theorem startTakeover_claim (hz : zeroRange b 17 63 = true) (hop : leAt b 16 1 = 1) (hrole : (s.die d).role = 2)
    (hresync : (s.die d).inResync = false) (hpeer : (s.die d).peerOk = true) (hdecl : (s.die d.peer).isDecl = true)
    (hfree : takeoverBusy s = false) :
    startTakeover s d o b = askPeer (s.withCmd d o b .takeover true) d (.claim (s.die d).nextCmd) := by
  have hd : (s.die d).isDecl = false := by simp [Die.isDecl, hrole]
  simp [startTakeover, hz, hop, hrole, hd, hresync, hpeer, hdecl, hfree]
  rfl

end Start

/-- Settles O11: by what each command starts with, once its descriptor has passed the common checks. -/
theorem ringTakeRuleTakeover : Obligations.RingTakeRuleTakeover := by
  unfold Obligations.RingTakeRuleTakeover
  intro q desc s d x
  refine ⟨fun hp => ?take, fun hp => ?ruleCommit, fun hp => ?takeover⟩
  case take =>
    have hstart := startCommand_take (s := s) (d := d) (o := rowOrigin 0x10 q desc s) (dOpcode_rowBytes (by decide) desc)
    exact ⟨fun st h => Makes.of_passes rfl hp (hstart.trans (validateTake_refused h)),
      fun h => Makes.of_passes rfl hp (hstart.trans (validateTake_accepted h))⟩
  case ruleCommit =>
    have hstart := startCommand_ruleCommit (s := s) (d := d) (o := rowOrigin 0x48 q desc s) (dOpcode_rowBytes (by decide) desc)
    exact ⟨fun h => Makes.of_passes rfl hp (hstart.trans (by rw [h]; rfl)), fun h => Makes.of_passes rfl hp (hstart.trans (if_pos h))⟩
  case takeover =>
    have hstart := startCommand_takeover (s := s) (d := d) (o := rowOrigin 0x60 q desc s) (dOpcode_rowBytes (by decide) desc)
    refine ⟨fun h => ?_, fun _ hz hrole hop hbusy => ?_, fun hop hz hrole hresync hpeer hdecl hfree => ?_,
      fun hop hz hrole hresync hpeer hready hfree => ?_⟩
    · exact Makes.of_passes rfl hp (hstart.trans (startTakeover_invalid h))
    · exact Makes.of_passes rfl hp (hstart.trans (startTakeover_yield_busy hz hop hrole hbusy))
    · exact Makes.of_passes rfl hp (hstart.trans (startTakeover_claim hz hop hrole hresync hpeer hdecl hfree))
    · exact Makes.of_passes rfl hp (hstart.trans (startTakeover_yield_starts hz hop hrole hresync hpeer hready hfree))

end Sys2Proof.Machine
end

section
/-!
PROOFS. Deals take effect and are verified (R135, R137, R208).
-/

namespace Sys2Proof.Machine

/-! ## DEAL_FIRE -/

section Fire
variable {s s0 : State} {d : DieId} (h0 : (List.range 8).foldl firePreloads s = s0) (hd : s0.declarer = some d)
include h0 hd

/-- The Declarer's first fixed deal, its instant come, fires. -/
theorem dealFire_due {dl : Deal} (hf : (s0.die d).dealer.pending.find? (fun e => decide (e.stage = .fixed)) = some dl)
    (ht : dl.instant ≤ (s0.die d).now) : dealFire s = mirrorDecks (mirrorDealer (fireDeal s0 d dl) d) d := by
  simp only [dealFire, h0, hd, hf, Nat.not_lt.2 ht, if_false]

/-- Before the instant of every fixed deal only the bank dies fire. -/
theorem dealFire_early (h : ∀ e ∈ (s0.die d).dealer.pending, e.stage = .fixed → (s0.die d).now < e.instant) : dealFire s = s0 := by
  simp only [dealFire, h0, hd]
  cases hf : (s0.die d).dealer.pending.find? (fun e => decide (e.stage = .fixed)) with
  | none => rfl
  | some dl =>
    have hlt := h dl (List.mem_of_find?_eq_some hf) (by simpa using List.find?_some hf)
    simp only [hlt, if_true]

end Fire

theorem shutdownStep_idle {s : State} {d : DieId} (hd : s.declarer = some d) (h : (s.die d).trans ≠ .shutdown) : shutdownStep s = s := by
  simp only [shutdownStep, hd]

/-- A Declarer that takes over judges no port checks (R429). -/
theorem startChecks_taking {s : State} {d : DieId} (hd : s.declarer = some d) (h : (s.die d).taking = true) : startChecks s = s := by
  simp [startChecks, State.serving, hd, h]

/-! ## The loops at a deal -/

/-- A die without the states of its elements, the part that the loops write. -/
def Die.unheld (x : Die) : Die := { x with hold := [] }

theorem Die.unheld_onElem (x : Die) (e : Nat) (f : Elem → Elem) : (x.onElem e f).unheld = x.unheld := rfl

/-- What no step of a fold changes, the fold leaves. -/
theorem foldl_keeps {α β γ : Type} (π : α → γ) {g : α → β → α} (h : ∀ a b, π (g a b) = π a) (l : List β) (a : α) :
    π (l.foldl g a) = π a := by
  induction l generalizing a with
  | nil => rfl
  | cons b l ih => exact (ih _).trans (h a b)

theorem classifyBy_unheld (x : Die) (e : Nat) (p : Rat × Rat) : (classifyBy x e p).unheld = x.unheld := x.unheld_onElem e _

theorem classifyAll_unheld (x : Die) : (classifyAll x).unheld = x.unheld :=
  foldl_keeps (fun p : Die × Array Rat => p.1.unheld)
    (fun p _ => foldl_keeps Die.unheld (fun x _ => classifyBy_unheld x _ _) _ p.1) _ _

theorem manualAfter_unheld (x : Die) (c ticks : Nat) : (manualAfter x c ticks).unheld = x.unheld := by
  unfold manualAfter
  simp only
  split
  · exact x.unheld_onElem c _
  · rfl

theorem dealGate_unheld (x : Die) (cal : Cal) (g st ticks : Nat) : (dealGate x cal g st ticks).unheld = x.unheld := x.unheld_onElem _ _

/-- A die with the hand, the image and the gate steps of a deal in force. -/
def Die.inForce (x : Die) (dl : Deal) : Die :=
  { x with dealer := { x.dealer with hand := dl.hand, image := dl.image, steps := dl.steps } }

theorem Die.unheld_inForce (x : Die) (dl : Deal) : (x.inForce dl).unheld = x.unheld.inForce dl := rfl

/-- The changed elements of a die at a deal. -/
def dealElems (x : Die) (cal : Cal) (dl : Deal) (codes : List (Nat × Nat)) (gates : List Nat) (ticks : Nat) : Die :=
  gates.foldl (fun x g => dealGate x cal g (stepOf dl.steps g) ticks)
    (codes.foldl (fun x p => manualAfter (x.onElem p.1 (fun el => dealCell el dl.thermal p.2 (cal.cellIpi p.1).toNat ticks)) p.1 ticks) x)

theorem loopsAtDeal_eq (x : Die) (dl : Deal) (cells gates : List Nat) (ticks : Nat) : ∃ codes,
    loopsAtDeal x dl cells gates ticks = classifyAll ((dealElems x (x.calAt dl.instant) dl codes gates ticks).inForce dl) := ⟨_, rfl⟩

theorem dealElems_unheld (x : Die) (cal : Cal) (dl : Deal) (codes : List (Nat × Nat)) (gates : List Nat) (ticks : Nat) :
    (dealElems x cal dl codes gates ticks).unheld = x.unheld := by
  refine (foldl_keeps Die.unheld (fun x g => dealGate_unheld x cal g _ ticks) gates _).trans ?_
  refine foldl_keeps Die.unheld (fun x p => ?_) codes x
  rw [manualAfter_unheld, Die.unheld_onElem]

/-- A deal puts its hand, image and steps in force, and changes nothing else of a die's loops but the states of the elements (R135). -/
theorem loopsAtDeal_unheld (x : Die) (dl : Deal) (cells gates : List Nat) (ticks : Nat) :
    (loopsAtDeal x dl cells gates ticks).unheld = x.unheld.inForce dl := by
  obtain ⟨codes, h⟩ := loopsAtDeal_eq x dl cells gates ticks
  rw [h, classifyAll_unheld, Die.unheld_inForce, dealElems_unheld]

/-- Two dies that agree so but for their elements agree in these fields. -/
theorem Die.fields_of_unheld {x y : Die} {dl : Deal} (h : y.unheld = x.unheld.inForce dl) :
    y.dealer.hand = dl.hand ∧ y.dealer.image = dl.image ∧ y.dealer.steps = dl.steps ∧ y.dealer.pending = x.dealer.pending ∧
      y.regs = x.regs ∧ y.cal = x.cal ∧ y.decks = x.decks ∧ y.cmds = x.cmds ∧ y.fns = x.fns := by
  have hdealer : y.dealer = (x.inForce dl).dealer := (congrArg Die.dealer h :)
  rw [hdealer]
  exact ⟨rfl, rfl, rfl, rfl, (congrArg Die.regs h :), (congrArg Die.cal h :), (congrArg Die.decks h :), (congrArg Die.cmds h :),
    (congrArg Die.fns h :)⟩

/-! ## VERIFY_CONVERSION -/

section Verify
variable {s : State} {d : DieId} {e raw : Nat} {v : Verify}

theorem verifyConversion_none (h : (s.die d).dealer.verify.find? (fun v => v.elem = e) = none) : verifyConversion d e raw s = s := by
  simp only [verifyConversion, h]

theorem verify_elem (hv : (s.die d).dealer.verify.find? (fun v => v.elem = e) = some v) : v.elem = e := by
  simpa using List.find?_some hv

variable (hv : (s.die d).dealer.verify.find? (fun v => v.elem = e) = some v)
include hv

theorem verifyConversion_early (ht : (s.die d).now < v.notBefore) : verifyConversion d e raw s = s := by
  simp only [verifyConversion, hv, ht, if_true]

theorem verifyConversion_notDecl (ht : v.notBefore ≤ (s.die d).now) (hd : (s.die d).isDecl = false) :
    verifyConversion d e raw s = s.onDie d (fun x => x.onElem e (fun el => { el with burst := max el.burst x.wakeBurst })) := by
  simp [verifyConversion, hv, Nat.not_lt.2 ht, hd]

theorem verifyConversion_unread (ht : v.notBefore ≤ (s.die d).now) (hd : (s.die d).isDecl = true)
    (hu : ((s.die d).elem e).passesUnread e = true) : verifyConversion d e raw s = mirrorDealer (verifyEnds s d v false 0) d := by
  simp [verifyConversion, hv, Nat.not_lt.2 ht, hd, hu]

theorem verifyConversion_unable (ht : v.notBefore ≤ (s.die d).now) (hd : (s.die d).isDecl = true)
    (hu : ((s.die d).elem e).passesUnread e = false) (hb : (s.bank (bankOf e)).cal.isSome = true ∨ (s.bank (bankOf e)).up d = false) :
    verifyConversion d e raw s = s := by
  rcases hb with hb | hb <;> simp [verifyConversion, hv, Nat.not_lt.2 ht, hd, hu, hb]

/-- The bank die converts, and the reading counts. -/
theorem verifyConversion_reads (ht : v.notBefore ≤ (s.die d).now) (hd : (s.die d).isDecl = true)
    (hu : ((s.die d).elem e).passesUnread e = false) (hc : (s.bank (bankOf e)).cal = none) (hup : (s.bank (bankOf e)).up d = true) :
    verifyConversion d e raw s =
      if verifyPass s d v raw then mirrorDealer (verifyEnds (verifyReads s e raw true) d v false (v.fails + 1)) d
      else if 2 ≤ v.fails then mirrorDealer (verifyEnds (verifyReads s e raw false) d v true 3) d
      else (verifyReads s e raw false).onDie d (fun x => { x with dealer := { x.dealer with verify := x.dealer.verify.map (fun w =>
        if w.elem = e then { w with fails := w.fails + 1, notBefore := x.now + 8000 } else w) } }) := by
  simp only [verifyConversion, hv, Nat.not_lt.2 ht, hd, hu, hc, hup, if_false, Bool.not_true, Option.isSome_none, Bool.or_self,
    Bool.false_eq_true]
  cases verifyPass s d v raw <;> simp only [Bool.false_eq_true, if_false, if_true]

end Verify

/-- Settles O20: the branches of DEAL_FIRE and of VERIFY_CONVERSION, and what the loops of a die keep at a deal. -/
theorem dealsTakeEffect : Obligations.DealsTakeEffect := by
  unfold Obligations.DealsTakeEffect
  refine ⟨⟨?fire, ?loops⟩, ?verify⟩
  case fire =>
    intro s s0 d hd
    refine ⟨fun dl hf ht => ?_, fun h htaking htrans => Makes.of_done (congrArg done ?_)⟩
    · exact Makes.of_done (congrArg (fun t => done (startChecks (shutdownStep t))) (dealFire_due rfl hd hf ht))
    · rw [dealFire_early rfl hd h, shutdownStep_idle hd htrans, startChecks_taking hd htaking]
  case loops => exact fun x dl ticks => Die.fields_of_unheld (loopsAtDeal_unheld x dl _ _ ticks)
  case verify =>
    intro d e raw s x b w
    refine ⟨fun h => Makes.of_done (congrArg done (verifyConversion_none h)), ?_⟩
    intro v hv p inBand read
    have hpass : verifyPass s d v raw.toNat = (decide ((x.elem v.elem).mode ≠ 3) && inBand) := by
      simp only [inBand, p, w, b, verifyPass, verify_elem hv]
      rfl
    refine ⟨fun ht => Makes.of_done (congrArg done (verifyConversion_early hv ht)),
      fun ht hd => Makes.of_done (congrArg done (verifyConversion_notDecl hv ht hd)), fun ht hd => ⟨fun hu => ?_, fun hu => ⟨fun hb => ?_,
      fun hc hup => ?_⟩⟩⟩
    · exact Makes.of_done (congrArg done (verifyConversion_unread hv ht hd hu))
    · exact Makes.of_done (congrArg done (verifyConversion_unable hv ht hd hu hb))
    · have hreads := verifyConversion_reads (raw := raw.toNat) hv ht hd hu hc hup
      have hfails (h : inBand = false ∨ (x.elem v.elem).mode = 3) : ¬ verifyPass s d v raw.toNat = true := by
        rw [hpass]
        rcases h with h | h <;> simp [h]
      refine ⟨fun hin hm => ?_, fun h hn => ?_, fun h hn => ?_⟩
      · exact Makes.of_done (congrArg done (hreads.trans (if_pos (by rw [hpass]; simp [hin, hm]))))
      · exact Makes.of_done (congrArg done (hreads.trans ((if_neg (hfails h)).trans (if_pos hn))))
      · exact Makes.of_done (congrArg done (hreads.trans ((if_neg (hfails h)).trans (if_neg (Nat.not_le.2 hn)))))

end Sys2Proof.Machine
end

section
/-!
PROOFS. The hand-off of a cell from its PIN shifter to its heater (R139 to R143): what the outputs, readings and tasks of the loops leave of it,
and the rows that start, end and release it.
-/

namespace Sys2Proof.Machine

/-! ## What a change of one element leaves -/

@[simp] theorem Die.elem_onElem_same (x : Die) (e : Nat) (f : Elem → Elem) : (x.onElem e f).elem e = f (x.elem e) := spGet_set_same _ _ _ _

theorem Die.elem_onElem_other (x : Die) {e g : Nat} (h : g ≠ e) (f : Elem → Elem) : (x.onElem e f).elem g = x.elem g :=
  spGet_set_other _ h _ _

/-- Where an element stands in a hand-off: on PIN, in progress, deferred, with its phases and its times. -/
def Elem.place (el : Elem) : Elem :=
  { Elem.reset with onPin := el.onPin, handoff := el.handoff, deferred := el.deferred, phi := el.phi, target := el.target, pinPhi := el.pinPhi,
                    handSince := el.handSince, heldAt := el.heldAt }

/-- The same with the burst it has left. -/
def Elem.course (el : Elem) : Elem := { el.place with burst := el.burst }

theorem Elem.place_of_course {a b : Elem} (h : a.course = b.course) : a.place = b.place :=
  congrArg (fun el : Elem => { el with burst := Elem.reset.burst }) h

theorem Elem.fields_of_place {a b : Elem} (h : a.place = b.place) : a.onPin = b.onPin ∧ a.handoff = b.handoff ∧ a.deferred = b.deferred ∧
    a.phi = b.phi ∧ a.target = b.target ∧ a.pinPhi = b.pinPhi ∧ a.handSince = b.handSince ∧ a.heldAt = b.heldAt :=
  ⟨(congrArg Elem.onPin h :), (congrArg Elem.handoff h :), (congrArg Elem.deferred h :), (congrArg Elem.phi h :), (congrArg Elem.target h :),
    (congrArg Elem.pinPhi h :), (congrArg Elem.handSince h :), (congrArg Elem.heldAt h :)⟩

/-- From s to t die d keeps a part π of each of its elements and its Dealer, and its peer keeps its elements. -/
structure KeepsElems {α : Type} (π : Elem → α) (d : DieId) (s t : State) : Prop where
  elem : ∀ e, π ((t.die d).elem e) = π ((s.die d).elem e)
  dealer : (t.die d).dealer = (s.die d).dealer
  peer : (t.die d.peer).hold = (s.die d.peer).hold

namespace KeepsElems
variable {α : Type} {π : Elem → α} {d : DieId} {s t u : State}

theorem refl (s : State) : KeepsElems π d s s := ⟨fun _ => rfl, rfl, rfl⟩

theorem trans (h : KeepsElems π d s t) (k : KeepsElems π d t u) : KeepsElems π d s u :=
  ⟨fun e => (k.elem e).trans (h.elem e), k.dealer.trans h.dealer, k.peer.trans h.peer⟩

theorem place (h : KeepsElems Elem.course d s t) : KeepsElems Elem.place d s t :=
  ⟨fun e => Elem.place_of_course (h.elem e), h.dealer, h.peer⟩

/-- Dies with the same elements and Dealers. -/
theorem of_parts (hh : ∀ e, (t.die e).hold = (s.die e).hold) (hd : (t.die d).dealer = (s.die d).dealer) : KeepsElems π d s t :=
  ⟨fun e => by simp only [Die.elem, hh], hd, hh _⟩

theorem of_records (h : OnlyRecords s t) : KeepsElems π d s t := of_parts h.die_hold (h.die_dealer d)

/-- Comparing the copies of a message. -/
theorem of_uncompared {b : Nat} (h : OnlyRecords (s.uncompared b) (t.uncompared b)) : KeepsElems π d s t := by
  refine of_parts (fun e => ?_) ?_
  · have he := h.die_hold e
    cases e <;> exact he
  · have he := h.die_dealer d
    cases d <;> exact he

theorem emit (s : State) (o : Out) : KeepsElems π d s (s.emit o) := of_parts (fun _ => by rw [State.die_emit]) (by rw [State.die_emit])

theorem onBank (s : State) (b : Nat) (f : Bank → Bank) : KeepsElems π d s (s.onBank b f) :=
  of_parts (fun _ => by rw [State.die_onBank]) (by rw [State.die_onBank])

theorem onDie (s : State) (f : Die → Die) (he : ∀ e, π ((f (s.die d)).elem e) = π ((s.die d).elem e))
    (hd : (f (s.die d)).dealer = (s.die d).dealer) : KeepsElems π d s (s.onDie d f) :=
  ⟨fun e => by rw [State.die_onDie_same, he], by rw [State.die_onDie_same, hd], by rw [State.die_onDie_peer]⟩

theorem onElem (s : State) (e : Nat) (f : Elem → Elem) (hf : ∀ el, π (f el) = π el) : KeepsElems π d s (s.onDie d (·.onElem e f)) := by
  refine onDie s _ (fun g => ?_) rfl
  by_cases h : g = e
  · rw [h, Die.elem_onElem_same, hf]
  · rw [Die.elem_onElem_other _ h]

theorem foldl {β : Type} (g : State → β → State) (h : ∀ t a, KeepsElems π d t (g t a)) (l : List β) (s : State) :
    KeepsElems π d s (l.foldl g s) := by
  induction l generalizing s with
  | nil => exact .refl s
  | cons a l ih => exact (h s a).trans (ih _)

/-! ## Outputs -/

theorem driveOut (s : State) (e : Nat) (out : DriveOut) (code : Nat) (x2 : Bool) (group : Nat) :
    KeepsElems Elem.course d s (driveOut s d e out code x2 group) := by
  unfold Machine.driveOut
  extract_lets el s1
  have h1 : KeepsElems Elem.course d s s1 := .onElem s e _ fun _ => by cases out <;> rfl
  split
  · exact h1.trans (.emit _ _)
  · exact h1

theorem loopOut (s : State) (e : Nat) (out : DriveOut) (code : Nat) (x2 : Bool) (group : Nat) :
    KeepsElems Elem.course d s (loopOut s d e out code x2 group) := by
  unfold Machine.loopOut
  split
  · exact .refl s
  · exact .driveOut ..

theorem storeCell (s : State) (c : Nat) (ph pp : Rat) : KeepsElems Elem.course d s (storeCell s d c ph pp) := .onElem s c _ fun _ => rfl

theorem strobeHeater (s : State) (c group : Nat) : KeepsElems Elem.course d s (strobeHeater s d c group) := .loopOut ..

theorem strobePin (s : State) (c group : Nat) : KeepsElems Elem.course d s (strobePin s d c group) := .loopOut ..

theorem holdCell (s : State) (c : Nat) : KeepsElems Elem.course d s (holdCell s d c) :=
  ((KeepsElems.storeCell s c 0 0).trans (.strobeHeater _ c _)).trans (.strobePin _ c _)

theorem reapply (s : State) (c : Nat) : KeepsElems Elem.course d s (reapply s d c) := by
  unfold Machine.reapply
  extract_lets el s1
  have h1 : KeepsElems Elem.course d s s1 := .storeCell ..
  split
  · exact h1
  · exact h1.trans (.strobeHeater ..)

theorem refreshNeighbours (s : State) (c : Nat) : KeepsElems Elem.course d s (refreshNeighbours s d c) := by
  refine .foldl _ (fun t n => ?_) _ s
  extract_lets el follows
  split
  · exact .reapply ..
  · exact .refl t

theorem blindCell (s : State) (c : Nat) : KeepsElems π d s (blindCell s d c) := by
  unfold Machine.blindCell
  extract_lets el
  split
  · exact .emit ..
  · exact .refl s

/-! ## Readings and tasks -/

theorem sendBoth (s : State) (b kind : Nat) (fields : List Nat) : KeepsElems π d s (sendBoth s b kind fields) := (emit s _).trans (.emit _ _)

theorem compareCopy (s : State) (p : DieId) (b kind elem n : Nat) (fields : List Nat) :
    KeepsElems π d s (compareCopy s p b kind elem n fields) := .of_uncompared (.compareCopy s p b kind elem n fields)

theorem holderMsg (s : State) (p : DieId) (b kind elem n : Nat) (fields : List Nat) (drive : Bool) {f : State → State}
    (hf : ∀ t, KeepsElems π d t (f t)) : KeepsElems π d s (holderMsg s p b kind elem n fields drive f) := by
  unfold Machine.holderMsg
  extract_lets k s1
  split_ifs
  · exact .refl s
  · exact ((onBank s b _).trans (.compareCopy ..)).trans (hf _)
  · exact (onBank s b _).trans (.emit ..)
  · exact .compareCopy ..

theorem readStore (s : State) (e : Nat) : KeepsElems Elem.course d s (readStore s d e).1 :=
  (KeepsElems.holderMsg s d _ _ e _ [] false fun t => (onBank t _ _).trans (.sendBoth ..)).trans (.onElem _ e _ fun _ => rfl)

theorem count (s : State) (k : Nat) (f : Fld) (n : Nat) : KeepsElems π d s (s.count d k f n) := .onDie s _ (fun _ => rfl) rfl

/-- Raising a source, whatever its number. -/
theorem raise (s : State) (src inst : Nat) : KeepsElems π d s (raise s d src inst) := by
  unfold Machine.raise
  split
  · have hq := Die.quiet_occur (s.die d) src inst true (srcStamp s d src)
    have hhold : ((s.die d).occur src inst true (srcStamp s d src)).hold = (s.die d).hold := (congrArg Die.hold hq :)
    exact .onDie s _ (fun e => by simp only [Die.elem, hhold]) (congrArg Die.dealer hq :)
  · exact .refl s

theorem missUpdate (s : State) (e : Nat) : KeepsElems Elem.course d s (missUpdate s d e) := by
  unfold Machine.missUpdate
  extract_lets el s1
  have h1 : KeepsElems Elem.course d s s1 := by
    refine KeepsElems.trans ?_ (.count ..)
    exact .onElem s e _ fun _ => rfl
  split
  · exact (h1.trans (.raise ..)).trans (.of_records (.elementEvent ..))
  · exact h1

theorem onEng (s : State) (f : Engines → Engines) : KeepsElems π d s (s.onDie d (·.onEng f)) := .onDie s _ (fun _ => rfl) rfl

theorem placeTask (s : State) (t : Task) : KeepsElems Elem.course d s (placeTask s d t) := by
  unfold Machine.placeTask placeIn
  extract_lets g
  split
  · rename_i e spill _
    have h1 : KeepsElems Elem.course d s (s.onDie d (fun x => { x with eng := g.push e t })) := .onDie s _ (fun _ => rfl) rfl
    cases spill
    · exact h1
    · exact h1.trans (.count ..)
  · have h1 : KeepsElems Elem.course d s (s.onDie d (fun x => { x with eng := g })) := .onDie s _ (fun _ => rfl) rfl
    exact (h1.trans (.missUpdate _ t.elem)).trans (.raise ..)

theorem queueTask (s : State) (e type : Nat) : KeepsElems Elem.course d s (queueTask s d e type) := by
  unfold Machine.queueTask
  extract_lets g
  split
  · exact .onEng ..
  · exact .onEng ..
  · split
    · exact .onEng ..
    · exact (onEng s _).trans (.placeTask ..)

/-- An element that becomes active stays where it is in its hand-off. -/
theorem activate (s : State) (e burst type : Nat) : KeepsElems Elem.place d s (activate s d e burst type) := by
  unfold Machine.activate
  extract_lets el s0 s1
  split
  · exact .refl s
  · have h1 : KeepsElems Elem.place d s s1 := by
      unfold s1
      split
      · exact .onElem s e _ fun _ => rfl
      · exact (readStore s e).place.trans (.onElem _ e _ fun _ => rfl)
    exact h1.trans (queueTask s1 e type).place

end KeepsElems

/-! ## The rows -/

section Start
variable {s : State} {d : DieId} {c : Nat}

theorem handoffStart_idle (h : ((s.die d).elem c).onPin = false ∨ ((s.die d).elem c).handoff = true ∨ (s.die d).loopsOn = false) :
    handoffStart d c s = s := by
  unfold handoffStart
  rcases h with h | h | h <;> simp [h]

/-- The threshold has passed, and nothing keeps the cell from its hand-off. -/
theorem handoffStart_due {n : Nat} (hn : (s.die d).handoffNs = some n) (ht : n ≤ s.ticks - ((s.die d).elem c).pinSince)
    (hl : (s.die d).loopsOn = true) (h1 : ((s.die d).elem c).mode ≠ 1) (h3 : ((s.die d).elem c).mode ≠ 3)
    (hp : ((s.die d).elem c).onPin = true) (hh : ((s.die d).elem c).handoff = false) (hdf : ((s.die d).elem c).deferred = false)
    (hw : (s.die d).willChange c = false) (hr : (s.die d).inRun c = false) :
    handoffStart d c s = (handoffTarget ((s.die d).elem c)).elim (s.onDie d (·.onElem c (fun el => { el with deferred := true })))
      (beginHandoff s d c) := by
  simp only [handoffStart, hn, ht, hl, h1, h3, hp, hh, hdf, hw, hr, decide_true, Bool.true_or, Bool.not_true, decide_false, Bool.or_self,
    Bool.false_eq_true, if_false]
  cases handoffTarget ((s.die d).elem c) <;> rfl

/-- A hand-off begins where its cell stands. -/
theorem beginHandoff_place (s : State) (d : DieId) (c n : Nat) : (((beginHandoff s d c n).die d).elem c).place =
    Elem.place { (s.die d).elem c with handoff := true, target := n, handSince := s.ticks, heldAt := none } := by
  unfold beginHandoff
  extract_lets el s1
  have hk : KeepsElems Elem.place d s1 (activate (blindCell (strobePin s1 d c (loopGroup c)) d c) d c (max 1 el.burst) tHandoff) :=
    ((KeepsElems.strobePin s1 c _).place.trans (.blindCell _ c)).trans (.activate ..)
  rw [hk.elem c, State.die_onDie_same, Die.elem_onElem_same]

end Start

/-- A cell takes a new place, is held by feed-forward there, and its neighbours follow: the end of HANDOFF_END and DEFERRED_RELEASE. -/
def cellSettles (s : State) (d : DieId) (c : Nat) (f : Elem → Elem) : State :=
  refreshNeighbours (blindCell (holdCell (s.onDie d (·.onElem c f)) d c) d c) d c

theorem KeepsElems.cellSettles (s : State) (d : DieId) (c : Nat) (f : Elem → Elem) :
    KeepsElems Elem.course d (s.onDie d (·.onElem c f)) (cellSettles s d c f) :=
  ((holdCell _ c).trans (.blindCell _ c)).trans (.refreshNeighbours _ c)

theorem cellSettles_kept {s u : State} {d : DieId} {c : Nat} {f : Elem → Elem} (h : OnlyRecords (cellSettles s d c f) u) :
    ((u.die d).elem c).course = (f ((s.die d).elem c)).course ∧ (u.die d).dealer = (s.die d).dealer ∧
      (u.die d.peer).hold = (s.die d.peer).hold := by
  obtain ⟨helem, hdealer, hpeer⟩ := (KeepsElems.cellSettles s d c f).trans (.of_records h)
  refine ⟨(helem c).trans ?_, hdealer.trans ?_, hpeer.trans ?_⟩
  · rw [State.die_onDie_same, Die.elem_onElem_same]
  · rw [State.die_onDie_same, Die.onElem_dealer]
  · rw [State.die_onDie_peer]

/-- A cell at the end of its hand-off: the heater alone holds it, and the PIN integrator folds into the heater's (R140, R191). -/
def Elem.handed (el : Elem) (ticks wake : Nat) : Elem :=
  let i := loopVal (el.int.valA + el.int.valB) 0
  { el with handoff := false, onPin := false, phi := ((el.target : Nat) : Rat), pinPhi := 0, int := i.1, half := .none, settled := false,
            sat := el.sat || i.2, satAt := stampIf i.2 ticks el.satAt, burst := max el.burst wake }

/-- A deferred cell that is released: its heater goes to the position of its state (R142). -/
def Elem.released (el : Elem) : Elem := { el with deferred := false, onPin := false, pinPhi := 0, phi := if el.cross then 1 else 0 }

section Ends
variable {s : State} {d : DieId} {c : Nat}

theorem handoffEnd_idle (h : ((s.die d).elem c).handoff = false ∨ ((s.die d).elem c).heldAt.isSome = true ∨
    s.ticks - ((s.die d).elem c).handSince < 30 * usT) : handoffEnd d c s = s := by
  unfold handoffEnd
  rcases h with h | h | h <;> simp [h]

theorem handoffEnd_due (hh : ((s.die d).elem c).handoff = true) (hheld : ((s.die d).elem c).heldAt = none)
    (ht : 30 * usT ≤ s.ticks - ((s.die d).elem c).handSince) :
    handoffEnd d c s = cellSettles s d c (·.handed s.ticks (s.die d).wakeBurst) := by
  simp only [handoffEnd, hh, hheld, Nat.not_lt.2 ht, Bool.not_true, Option.isSome_none, decide_false, Bool.or_self, Bool.false_eq_true, if_false]
  rfl

theorem deferredRelease_idle (h : ((s.die d).elem c).handoff = true ∨ (((s.die d).elem c).deferred = false ∧ ((s.die d).elem c).phi ≠ 2) ∨
    cellDark (cellInUw (s.die d) (s.die d).dealer.image c) = false) : deferredRelease d c s = s := by
  unfold deferredRelease
  rcases h with h | ⟨h, h2⟩ | h
  · simp [h]
  · simp [h, h2]
  · simp [h]

theorem deferredRelease_dark (hl : (s.die d).loopsOn = true) (h1 : ((s.die d).elem c).mode ≠ 1) (h3 : ((s.die d).elem c).mode ≠ 3)
    (hh : ((s.die d).elem c).handoff = false) (hdf : ((s.die d).elem c).deferred = true ∨ ((s.die d).elem c).phi = 2)
    (hst : stale s c = false) (hr : (s.die d).inRun c = false) (hdark : cellDark (cellInUw (s.die d) (s.die d).dealer.image c) = true) :
    deferredRelease d c s = cellSettles s d c Elem.released := by
  have hwaits : (!(((s.die d).elem c).deferred || decide (((s.die d).elem c).phi = 2))) = false := by
    rcases hdf with h | h <;> simp [h]
  simp only [deferredRelease, hl, h1, h3, hh, hwaits, hst, hr, hdark, Bool.not_true, decide_false, Bool.or_self, Bool.false_eq_true, if_false]
  rfl

end Ends

/-- Settles O23: the rows by what they do when they are due, and what the loops leave of a hand-off. -/
theorem cellsHandOff : Obligations.CellsHandOff := by
  unfold Obligations.CellsHandOff
  intro d c s x el
  refine ⟨fun h => Makes.of_done (congrArg done (handoffStart_idle h)), ?start, fun h => Makes.of_done (congrArg done (handoffEnd_idle h)), ?ends,
    fun h => Makes.of_done (congrArg done (deferredRelease_idle h)), ?release⟩
  case start =>
    intro n hn ht hl h1 h3 hp hh hdf hw hr
    have hdue := handoffStart_due hn ht hl h1 h3 hp hh hdf hw hr
    refine ⟨fun hnone => Makes.of_done (congrArg done (hdue.trans (by rw [hnone]; rfl))), fun t hsome => ?_⟩
    have hbegin : handoffStart d c s = beginHandoff s d c t := hdue.trans (by rw [hsome]; rfl)
    refine ⟨Makes.of_done (congrArg done hbegin), Answers.of_done (congrArg done hbegin) fun u h => ?_⟩
    obtain ⟨hpin, hhand, -, hphi, htarget, -, hsince, hheld⟩ :=
      Elem.fields_of_place (((KeepsElems.of_records h).elem c).trans (beginHandoff_place s d c t))
    exact ⟨hhand, htarget, hsince, hheld, hpin.trans hp, hphi⟩
  case ends =>
    intro hh hheld ht
    refine Answers.of_done (congrArg done (handoffEnd_due hh hheld ht)) fun u h => ?_
    obtain ⟨hcourse, hdealer, hpeer⟩ := cellSettles_kept h
    obtain ⟨hpin, hhand, -, hphi, -, hpinPhi, -, -⟩ := Elem.fields_of_place (Elem.place_of_course hcourse)
    exact ⟨hhand, hpin, hpinPhi, hphi, (congrArg Elem.burst hcourse :), hdealer, hpeer⟩
  case release =>
    intro hl h1 h3 hh hdf hst hr hdark
    refine Answers.of_done (congrArg done (deferredRelease_dark hl h1 h3 hh hdf hst hr hdark)) fun u h => ?_
    obtain ⟨hcourse, hdealer, hpeer⟩ := cellSettles_kept h
    obtain ⟨hpin, -, hdeferred, hphi, -, hpinPhi, -, -⟩ := Elem.fields_of_place (Elem.place_of_course hcourse)
    exact ⟨hdeferred, hpin, hpinPhi, hphi, hdealer, hpeer⟩

end Sys2Proof.Machine
end

section
/-!
PROOFS. The planning of automatic decks (R183 to R185) and the light in a guard (R170, R171). A planning that ends sends its grants to the
agents; a message to an agent leaves a die's planner and its planning time.
-/

namespace Sys2Proof.Machine

/-- A change of registers is the Declarer's own, whether or not the Dummy's shadow makes it too. -/
@[simp] theorem die_shadowed (s : State) (d : DieId) (f : Die → Die) : (shadowed s d f).die d = f (s.die d) := by
  have hne : d ≠ d.peer := by cases d <;> decide
  unfold shadowed
  extract_lets s1
  have h1 : s1.die d = f (s.die d) := s.die_onDie_same d f
  split
  · rw [State.die_onDie_other s1 hne, h1]
  · exact h1

@[simp] theorem shadowed_light (s : State) (d : DieId) (f : Die → Die) : (shadowed s d f).light = s.light := by
  unfold shadowed
  extract_lets s1
  split
  · rw [State.onDie_light, State.onDie_light]
  · exact s.onDie_light d f

/-- A register word is one of 32 bits, where its power-on value is. -/
theorem Die.reg_lt (x : Die) {k : Nat} (h : regPor k < 2 ^ 32) : x.reg k < 2 ^ 32 := by
  unfold Die.reg
  split
  · exact BitVec.isLt _
  · exact h

theorem fget_word (w : Nat) : fget ⟨31, 0⟩ w = w % 2 ^ 32 := by simp [fget, bitsOf]

/-- A counter that takes a whole register word counts up to its highest value. -/
theorem Die.reg_count_word (x : Die) {k : Nat} (h : regPor k < 2 ^ 32) (n : Nat) :
    (x.count k ⟨31, 0⟩ n).reg k = min (2 ^ 32 - 1) (x.reg k + n) := by
  have hx : x.rf k ⟨31, 0⟩ = x.reg k := (fget_word _).trans (Nat.mod_eq_of_lt (x.reg_lt h))
  have hlt : min (2 ^ 32 - 1) (x.reg k + n) < 2 ^ 32 := by omega
  rw [Die.count, Die.setRf, Die.reg_setReg_same, ← fget_word, fget_fput_same _ (by decide), hx]
  exact Nat.mod_eq_of_lt hlt

/-! ## A message to an agent -/

/-- What the planner of a die has done, and how long the last planning took. -/
def Die.planResult (x : Die) : Planner × Nat := (x.planner, x.reg Reg.DCK_PLAN_TIME)

theorem OnlyRecords.planResult {s t : State} (h : OnlyRecords s t) (d : DieId) : (t.die d).planResult = (s.die d).planResult :=
  Prod.ext (h.die_planner d) (h.regs d _ (by decide))

theorem planResult_onDie (s : State) (d e : DieId) (f : Die → Die) (h : ∀ x, (f x).planResult = x.planResult) :
    ((s.onDie e f).die d).planResult = (s.die d).planResult := by
  by_cases hde : d = e
  · rw [hde, State.die_onDie_same, h]
  · rw [State.die_onDie_other s hde]

theorem Die.planResult_count (x : Die) {k : Nat} (h : Reg.DCK_PLAN_TIME ≠ k) (f : Fld) (n : Nat) : (x.count k f n).planResult = x.planResult :=
  congrArg (Prod.mk x.planner) (x.reg_count_other h f n)

theorem Die.planResult_onCport (x : Die) (p : Nat) (f : CPort → CPort) : (x.onCport p f).planResult = x.planResult := rfl

theorem dropTx_planResult (s : State) (d e : DieId) (p q : Nat) : ((dropTx s e p q).die d).planResult = (s.die d).planResult := by
  have hk : Reg.DCK_PLAN_TIME ≠ Reg.TMG_QDROP p q := by unfold Reg.DCK_PLAN_TIME Reg.TMG_QDROP; omega
  refine ((OnlyRecords.raise _ e 138 0 (by decide)).planResult d).trans (planResult_onDie s d e _ fun x => ?_)
  exact (Die.planResult_onCport ..).trans (x.planResult_count hk _ _)

theorem enqueue_planResult (s : State) (d e : DieId) (p q : Nat) (f : TxFrame) :
    ((enqueue s e p q f).1.die d).planResult = (s.die d).planResult := by
  unfold enqueue
  extract_lets x c n depth lim used full t
  split
  · rfl
  · split
    · exact dropTx_planResult ..
    · exact planResult_onDie s d e _ fun _ => Die.planResult_onCport ..

theorem egress_planResult (s : State) (d e : DieId) (p cls : Nat) (queue : Option Nat) (zsl : Bool) (f : TxFrame) :
    ((egress s e p cls queue zsl f).1.die d).planResult = (s.die d).planResult := by
  have hk : Reg.DCK_PLAN_TIME ≠ Reg.TMG_PCNT p 4 := by unfold Reg.DCK_PLAN_TIME Reg.TMG_PCNT; omega
  unfold egress
  simp only
  split
  · exact enqueue_planResult ..
  · split
    · exact enqueue_planResult ..
    · split
      · exact (enqueue_planResult ..).trans (planResult_onDie s d e _ fun x => x.planResult_count hk _ _)
      · exact enqueue_planResult ..
      · exact enqueue_planResult ..

theorem sendTrump_planResult (r : State × Bool) (d e : DieId) (p : Nat) (trump : Bool) :
    ((sendTrump r e p trump).die d).planResult = (r.1.die d).planResult := by
  unfold sendTrump
  split
  · exact planResult_onDie r.1 d e _ fun _ => Die.planResult_onCport ..
  · rfl

theorem askPeer_planResult (s : State) (d e : DieId) (q : PeerReq) : ((askPeer s e q).die d).planResult = (s.die d).planResult := by
  unfold askPeer
  split
  · exact planResult_onDie s d e _ fun _ => rfl
  · rfl

theorem sendVsp_planResult (s : State) (d e : DieId) (src : VspFrom) (cls : Nat) (queue : Option Nat) (yellow trump : Bool) (msg : List Byte) :
    ((sendVsp s e src cls queue yellow trump msg).die d).planResult = (s.die d).planResult := by
  unfold sendVsp
  simp only
  split
  · exact (sendTrump_planResult ..).trans (egress_planResult ..)
  · exact askPeer_planResult ..

theorem sendAgent_planResult (s : State) (d e : DieId) (id type flags : Nat) (g : Egr) (body : List Byte) :
    ((sendAgent s e id type flags g body).die d).planResult = (s.die d).planResult := by
  unfold sendAgent
  simp only
  split
  · rfl
  · exact (sendVsp_planResult ..).trans (planResult_onDie s d e _ fun _ => rfl)

theorem sendGrants_planResult (s : State) (d e : DieId) (r : DeckRun) (n : Nat) (gs : List Grant) (a : Agent) :
    ((sendGrants s e r n gs a).die d).planResult = (s.die d).planResult := by
  unfold sendGrants
  extract_lets mine ps
  split
  · rfl
  · exact foldl_keeps (fun t : State => (t.die d).planResult) (fun t q => sendAgent_planResult t d e ..) _ s

/-! ## Planning -/

/-- The time of a planning that ends now, in µs, as DCK_PLAN_TIME holds it. -/
def planUs (s : State) (p : Planning) : Nat := min 65535 ((s.ticks - p.since) / 100)

/-- The Bids that a planning uses. -/
def planBids (x : Die) (p : Planning) : List Bid := x.planner.bids.filter (fun b => b.epoch + 2 = p.epoch)

/-- The register words that count a planning: its time, the longest one, and the Bids it used (R183). -/
def planCounted (us bids : Nat) (x : Die) : Die :=
  ((x.setRf Reg.DCK_PLAN_TIME F.DCK_PLAN_TIME_LAST us).setRf Reg.DCK_PLAN_TIME F.DCK_PLAN_TIME_MAX
    (max us (x.rf Reg.DCK_PLAN_TIME F.DCK_PLAN_TIME_MAX))).count Reg.DCK_BID_CNT F.DCK_BID_CNT_COUNT bids

/-- The planning of an epoch ends: its hands are written, it is counted, and the agents get their grants (R183, R185). -/
def planEnds (s : State) (d : DieId) (r : DeckRun) (p : Planning) : State :=
  let x := s.die d
  let s1 := shadowed (s.onDie d (planWrite · r p)) d (planCounted (planUs s p) (planBids x p).length)
  let s2 := (s1.die d).vsp.agents.foldl (fun s a => sendGrants s d r p.epoch (planEpoch x r p).2.grants a) s1
  mirrorVsp (mirrorPlanner (mirrorDecks s2 d) d) d

theorem rf_planCounted (us bids : Nat) (x : Die) :
    (planCounted us bids x).rf Reg.DCK_PLAN_TIME F.DCK_PLAN_TIME_LAST = us % 2 ^ 16 := by
  have hk : Reg.DCK_PLAN_TIME ≠ Reg.DCK_BID_CNT := by decide
  rw [planCounted, Die.rf, Die.reg_count_other _ hk, Die.setRf, Die.reg_setReg_same, fget_mod _ 32 _ (by decide) (by decide),
    fget_fput_other _ _ (by decide) (by decide) (by decide)]
  exact x.rf_setRf_same _ (by decide) (by decide) us

/-- The grants and the mirrored records leave what the planning wrote. -/
theorem planEnds_planResult (s : State) (d : DieId) (r : DeckRun) (p : Planning) : ((planEnds s d r p).die d).planResult =
    (planCounted (planUs s p) (planBids (s.die d) p).length (planWrite (s.die d) r p)).planResult := by
  unfold planEnds
  extract_lets x s1 s2
  have h1 : s1.die d = planCounted (planUs s p) (planBids x p).length (planWrite x r p) := (die_shadowed ..).trans (congrArg _ (s.die_onDie_same d _))
  have h2 : (s2.die d).planResult = (s1.die d).planResult :=
    foldl_keeps (fun t : State => (t.die d).planResult) (fun t a => sendGrants_planResult t d d ..) _ s1
  have h3 : OnlyRecords s2 (mirrorVsp (mirrorPlanner (mirrorDecks s2 d) d) d) :=
    ((OnlyRecords.mirrorDecks s2 d).trans (.mirror _ d _)).trans (.mirror _ d _)
  exact (h3.planResult d).trans (h2.trans (congrArg Die.planResult h1))

/-- What the end of a planning leaves in the planner and in the register of its time (R183). -/
theorem planEnds_effect {s t : State} {d : DieId} {r : DeckRun} {p : Planning} (h : OnlyRecords (planEnds s d r p) t) :
    (t.die d).planner.planning = none ∧ (t.die d).planner.upTo = p.epoch + 1 ∧
      (t.die d).planner.bids = (s.die d).planner.bids.filter (fun b => decide (p.epoch < b.epoch + 2)) ∧
      (t.die d).planner.planned = (s.die d).planner.planned.filter (fun q => decide (p.epoch < q.1 + 4)) ++
        [(p.epoch, (planEpoch (s.die d) r p).2.grants)] ∧
      (t.die d).rf Reg.DCK_PLAN_TIME F.DCK_PLAN_TIME_LAST = min 65535 ((s.ticks - p.since) / 100) := by
  have hres := (h.planResult d).trans (planEnds_planResult s d r p)
  have hplanner : (t.die d).planner = (planWrite (s.die d) r p).planner := (congrArg Prod.fst hres :)
  have htime := congrArg (fun q : Planner × Nat => fget F.DCK_PLAN_TIME_LAST q.2) hres
  have hus : planUs s p < 2 ^ 16 := by unfold planUs; omega
  rw [hplanner]
  exact ⟨rfl, rfl, rfl, rfl, htime.trans ((rf_planCounted ..).trans (Nat.mod_eq_of_lt hus))⟩

theorem autoEpoch_idle {x : Die} (h : x.decks.running = none) : autoEpoch x = none := by simp only [autoEpoch, h]

section Rows
variable {s : State} {d : DieId}

section Idle
variable (hd : s.declarer = some d) (ha : autoEpoch (s.die d) = none)
include hd ha

theorem planningStart_idle : planningStart s = s := by
  simp only [planningStart, State.serving, hd]
  cases (s.die d).taking with
  | true => rfl
  | false => simp only [Bool.false_eq_true, if_false, ha]

theorem planningDone_idle : planningDone s = s := by
  simp only [planningDone, hd, ha]
  cases (s.die d).planner.planning <;> rfl

theorem planningDeadline_idle : planningDeadline s = s := by
  simp only [planningDeadline, hd, ha]
  cases (s.die d).planner.planning <;> rfl

end Idle

section Start
variable {r : DeckRun} {e : Nat} (hs : s.serving = some d) (ha : autoEpoch (s.die d) = some (r, e))
include hs ha

theorem planningStart_busy (h : (s.die d).planner.planning.isSome = true) : planningStart s = s := by
  simp [planningStart, hs, ha, h]

/-- The next epoch is planned, or overrun at once from THROTTLE-C on (R183, R184). -/
theorem planningStart_due (he : e ≠ 0) (hup : (s.die d).planner.upTo ≤ e + 1) (hp : (s.die d).planner.planning = none)
    (hend : r.desc.ended ((e + 1) * r.desc.epoch) = false) : planningStart s =
      if 3 ≤ (s.die d).thm.level then planAbandon s d r (e + 1)
      else mirrorPlanner (s.onDie d (fun x => ({ x with planner := { x.planner with planning := some (x.planOf (e + 1) s.ticks) } } : Die).onRouters
        (·.submit (.matching (e + 1))))) d := by
  simp only [planningStart, hs, ha, he, Nat.not_lt.2 hup, hp, hend, decide_false, Option.isSome_none, Bool.or_self, Bool.false_eq_true, if_false]

end Start

section Finish
variable {r : DeckRun} {e : Nat} {p : Planning} (hd : s.declarer = some d) (ha : autoEpoch (s.die d) = some (r, e))
  (hp : (s.die d).planner.planning = some p)
include hd ha hp

theorem planningDeadline_eq : planningDeadline s =
    if (s.die d).decks.runBnd r (p.epoch * r.desc.epoch) < (s.die d).now + 8 * (s.die d).grantLead then planAbandon s d r p.epoch else s := by
  simp only [planningDeadline, hd, ha, hp]

theorem planningDone_eq : planningDone s =
    if (s.die d).decks.runBnd r (p.epoch * r.desc.epoch) < (s.die d).now + 8 * (s.die d).grantLead then s
    else if 3 ≤ (s.die d).thm.level then planAbandon s d r p.epoch
    else planEnds s d r p := by
  simp only [planningDone, hd, ha, hp]
  rfl

end Finish

end Rows

/-! ## Late light -/

/-- The next boundary of a running deck that lies after now (R168). -/
def nextBoundary (x : Die) (r : DeckRun) : Nat := x.decks.bndFrom r.desc r.origin r.pass (x.now + 1)

/-- When the observation window opens of the guard that a boundary at `inst` closes (R168, R170). -/
def guardOpens (r : DeckRun) (inst : Nat) : Nat := inst - 8 * r.desc.guard_ + (if r.desc.blank then 400 else 160)

/-- An input that the guard of boundary k watches, with the output its light went to (R168). -/
def guardWatch (x : Die) (r : DeckRun) (k i : Nat) : Option (Nat × Nat) :=
  (watched x x.dealer.hand (({ x.dealer.comp with deckHand := deckHandAfter x r k } : Comp).hand).1).find? (fun w => w.1 = i)

/-- Late light on an input is noted in the guard that its boundary closes, and counted for the input. -/
def lateNoted (x : Die) (r : DeckRun) (k i : Nat) (w : Nat × Nat) : Die :=
  let inst := x.decks.runBnd r k
  let g : Guard := ⟨inst, guardOpens r inst, r.desc.blank, [w], (k - 1) / r.desc.epoch, (k - 1) % r.desc.epoch⟩
  { x with decks := { x.decks with
    guards := x.decks.guards.filter (fun (h : Guard) => decide (x.now < h.closes) && decide (h.closes ≠ inst)) ++ [g],
    late := spSet 0 i (satAdd 32 (spGet 0 i x.decks.late) 1) x.decks.late } }

/-- Late light on an input is counted for the input and in total. -/
def lateCounted (s : State) (d : DieId) (r : DeckRun) (k i : Nat) (w : Nat × Nat) : State :=
  shadowed (({ s with light := s.light ||| maskBit i } : State).onDie d (lateNoted · r k i w)) d
    (·.count Reg.DCK_LL_TOTAL F.DCK_LL_TOTAL_COUNT)

section Light
variable {s : State} {d : DieId} {i : Nat} (hd : s.declarer = some d)
include hd

theorem lateLight_idle (h : (s.die d).decks.running = none) : lateLight i s = s := by simp only [lateLight, hd, h]

variable {r : DeckRun} {k : Nat} {w : Nat × Nat} (hr : (s.die d).decks.running = some r) (hp : (s.die d).dealer.pending = [])
  (hk : nextBoundary (s.die d) r = k) (hw : guardWatch (s.die d) r k i = some w)
include hr hp hk hw

theorem lateLight_early (ht : (s.die d).now < guardOpens r ((s.die d).decks.runBnd r k)) : lateLight i s = s := by
  simp only [guardOpens, nextBoundary, guardWatch] at ht hk hw
  simp [lateLight, hd, hr, hp, hk, hw, ht]

/-- An input is late once a guard (R171). -/
theorem lateLight_again {g : Guard} (hf : (s.die d).decks.guards.find? (fun g => g.closes = (s.die d).decks.runBnd r k) = some g)
    (hg : g.watch.any (fun v => v.1 = i) = true) : lateLight i s = s := by
  simp only [nextBoundary, guardWatch] at hk hw
  simp only [lateLight, hd, hr, hp, hk, List.find?_nil, hf, hw, hg, Bool.or_true, if_true]

/-- The first late light of an input in a guard is counted; the rest of the row records it (R413). -/
theorem lateLight_counted (ht : guardOpens r ((s.die d).decks.runBnd r k) ≤ (s.die d).now)
    (hf : (s.die d).decks.guards.find? (fun g => g.closes = (s.die d).decks.runBnd r k) = none) :
    OnlyRecords (lateCounted s d r k i w) (lateLight i s) := by
  simp only [guardOpens, nextBoundary, guardWatch] at ht hk hw
  simp only [lateLight, hd, hr, hp, hk, List.find?_nil, hf, hw, Nat.not_lt.2 ht, List.any_nil, decide_false, Bool.or_self, Bool.false_eq_true,
    if_false, List.nil_append]
  refine (OnlyRecords.raise _ d 1 0 (by decide)).trans (.trans ?_ (.mirrorDecks _ d))
  exact .foldl _ _ (fun t f hf => .foldl _ _ (fun t u _ => .telem t d f 3 u.id 24 _ (List.mem_range.1 hf)) t) _

end Light

/-- What counting late light changes of a state (R171). -/
theorem lateCounted_effect {s t : State} {d : DieId} {r : DeckRun} {k i : Nat} {w : Nat × Nat} (h : OnlyRecords (lateCounted s d r k i w) t) :
    spGet 0 i (t.die d).decks.late = satAdd 32 (spGet 0 i (s.die d).decks.late) 1 ∧
      (t.die d).reg Reg.DCK_LL_TOTAL = min (2 ^ 32 - 1) ((s.die d).reg Reg.DCK_LL_TOTAL + 1) ∧
      t.light = s.light ||| maskBit i ∧ (t.die d).dealer = (s.die d).dealer ∧ (t.die d).decks.current = (s.die d).decks.current := by
  have hdie : (lateCounted s d r k i w).die d = (lateNoted (s.die d) r k i w).count Reg.DCK_LL_TOTAL F.DCK_LL_TOTAL_COUNT :=
    (die_shadowed ..).trans (congrArg (·.count Reg.DCK_LL_TOTAL F.DCK_LL_TOTAL_COUNT) (State.die_onDie_same _ d _))
  refine ⟨?late, ?total, ?light, ?dealer, ?current⟩
  case late =>
    rw [h.die_decks d, hdie, Die.count_decks]
    exact spGet_set_same ..
  case total =>
    rw [h.regs d _ (by decide), hdie]
    exact (lateNoted (s.die d) r k i w).reg_count_word (by decide) 1
  case light => exact (congrArg State.light h.quiet :).trans ((shadowed_light ..).trans (State.onDie_light ..))
  case dealer =>
    rw [h.die_dealer d, hdie, Die.count_dealer]
    rfl
  case current =>
    rw [h.die_decks d, hdie, Die.count_decks]
    rfl

/-- Settles O22: the rows of planning by what they do when they are due, the planner through the messages that follow, and the row of late
light. -/
theorem epochsPlannedAndLateLight : Obligations.EpochsPlannedAndLateLight := by
  unfold Obligations.EpochsPlannedAndLateLight
  refine ⟨fun s d hd => ⟨?idle, ?start, ?finish⟩, fun i s d hd => ⟨?noDeck, ?light⟩⟩
  case idle =>
    intro h
    have ha := autoEpoch_idle h
    exact ⟨Makes.of_done (congrArg done (planningStart_idle hd ha)), Makes.of_done (congrArg done (planningDone_idle hd ha)),
      Makes.of_done (congrArg done (planningDeadline_idle hd ha))⟩
  case start =>
    intro r e ha hs
    refine ⟨fun he hup hp hend => ?_, fun hp => Makes.of_done (congrArg done (planningStart_busy hs ha hp))⟩
    have hdue := planningStart_due hs ha he hup hp hend
    exact ⟨fun hl => Makes.of_done (congrArg done (hdue.trans (if_neg (Nat.not_le.2 hl)))),
      fun hl => Makes.of_done (congrArg done (hdue.trans (if_pos hl)))⟩
  case finish =>
    intro r e0 p ha hp
    have hdone := planningDone_eq hd ha hp
    have hdeadline := planningDeadline_eq hd ha hp
    refine ⟨fun ht => ⟨Makes.of_done (congrArg done (hdone.trans (if_pos ht))), Makes.of_done (congrArg done (hdeadline.trans (if_pos ht)))⟩,
      fun ht => ?_⟩
    have ht := Nat.not_lt.2 ht
    have hdone := hdone.trans (if_neg ht)
    refine ⟨Makes.of_done (congrArg done (hdeadline.trans (if_neg ht))),
      fun hl => Makes.of_done (congrArg done (hdone.trans (if_pos hl))), fun hl => ?_⟩
    exact Answers.of_done (congrArg done (hdone.trans (if_neg (Nat.not_le.2 hl)))) fun t h => planEnds_effect h
  case noDeck => exact fun h => Makes.of_done (congrArg done (lateLight_idle hd h))
  case light =>
    intro r w hr hp k hw inst
    refine ⟨fun ht => Makes.of_done (congrArg done (lateLight_early hd hr hp rfl hw ht)), fun ht hg => ?counted, fun g hg hc hone hv => ?again⟩
    case counted =>
      have hf : (s.die d).decks.guards.find? (fun g => g.closes = inst) = none := by simpa using hg
      exact Answers.of_done rfl fun t h => lateCounted_effect ((lateLight_counted hd hr hp rfl hw ht hf).trans h)
    case again =>
      obtain ⟨h, hf⟩ : ∃ h, (s.die d).decks.guards.find? (fun g => g.closes = inst) = some h :=
        Option.isSome_iff_exists.1 (List.find?_isSome.2 ⟨g, hg, by simpa using hc⟩)
      have hh : h = g := hone h (List.mem_of_find?_eq_some hf) (by simpa using List.find?_some hf)
      exact Makes.of_done (congrArg done (lateLight_again hd hr hp rfl hw hf (hh ▸ hv)))

end Sys2Proof.Machine
end

section
/-!
PROOFS. What an element in AUTO does at its dither edges and at its updates (R192 to R200): what a reading leaves of the element and of what
the loop law takes, and each row by what it does when it is due.
-/

namespace Sys2Proof.Machine

/-! ## What a reading leaves -/

@[simp] theorem Bank.setLink_heaterX2 (k : Bank) (p : DieId) (l : Link) : (k.setLink p l).heaterX2 = k.heaterX2 := by cases p <;> rfl

@[simp] theorem Bank.heard_heaterX2 (k : Bank) (p : DieId) (t : Nat) : (k.heard p t).heaterX2 = k.heaterX2 := by
  unfold Bank.heard
  split <;> rfl

@[simp] theorem Bank.unblind_heaterX2 (k : Bank) : k.unblind.heaterX2 = k.heaterX2 := by
  unfold Bank.unblind
  split <;> rfl

@[simp] theorem Bank.onChan_heaterX2 (k : Bank) (l : Nat) (f : Chan → Chan) : (k.onChan l f).heaterX2 = k.heaterX2 := rfl

/-- A message of the holder leaves the gain of the heaters. -/
theorem Bank.receive_heaterX2 (k : Bank) (p : DieId) (t : Nat) (drive : Bool) : (k.receive p t drive).heaterX2 = k.heaterX2 := by
  cases drive <;> simp [Bank.receive]

/-- From s to t all stays that the loop law of a die takes beside its elements: the time, the tables, the dither amplitude, the mode and the
gains of the heaters. -/
structure SameLaw (d : DieId) (s t : State) : Prop where
  ticks : t.ticks = s.ticks
  cal : (t.die d).cal = (s.die d).cal
  amp : (t.die d).amp = (s.die d).amp
  base : (t.die d).base = (s.die d).base
  gain : ∀ b, (t.bank b).heaterX2 = (s.bank b).heaterX2

namespace SameLaw
variable {d : DieId} {s t u : State}

theorem refl (s : State) : SameLaw d s s := ⟨rfl, rfl, rfl, rfl, fun _ => rfl⟩

theorem trans (h : SameLaw d s t) (k : SameLaw d t u) : SameLaw d s u :=
  ⟨k.ticks.trans h.ticks, k.cal.trans h.cal, k.amp.trans h.amp, k.base.trans h.base, fun b => (k.gain b).trans (h.gain b)⟩

theorem emit (s : State) (o : Out) : SameLaw d s (s.emit o) := by
  refine ⟨rfl, ?_, ?_, ?_, fun _ => rfl⟩ <;> rw [State.die_emit]

theorem onBank (s : State) (b : Nat) {f : Bank → Bank} (hf : ∀ k, (f k).heaterX2 = k.heaterX2) : SameLaw d s (s.onBank b f) := by
  refine ⟨rfl, ?_, ?_, ?_, fun c => ?_⟩
  iterate 3 rw [State.die_onBank]
  by_cases h : c % 8 = b % 8
  · have hc (v : State) : v.bank c = v.bank b := by simp only [State.bank, h]
    rw [hc, hc, State.bank_onBank_same, hf]
  · rw [State.bank_onBank_other s h]

theorem onElem (s : State) (e : Nat) (f : Elem → Elem) : SameLaw d s (s.onDie d (·.onElem e f)) := by
  refine ⟨s.onDie_ticks d _, ?_, ?_, ?_, fun b => congrArg Bank.heaterX2 (s.bank_onDie d _ b)⟩ <;> rw [State.die_onDie_same] <;> rfl

/-- Comparing the copies of a message. -/
theorem of_uncompared {b : Nat} (h : OnlyRecords (s.uncompared b) (t.uncompared b)) : SameLaw d s t := by
  have hcal := h.die_cal d
  have hthm := h.die_thm d
  have hbase := h.base d
  have hdither := h.regs d Reg.HLD_DITHER (by decide)
  have hbank (v : State) (c : Nat) : ((v.uncompared b).bank c).heaterX2 = (v.bank c).heaterX2 :=
    (onBank (d := d) v b (f := Bank.uncompared) fun _ => rfl).gain c
  refine ⟨h.ticks, ?_, ?_, ?_, fun c => ?_⟩
  · cases d <;> exact hcal
  · have hlevel : (t.die d).thm = (s.die d).thm := by cases d <;> exact hthm
    have hreg : (t.die d).reg Reg.HLD_DITHER = (s.die d).reg Reg.HLD_DITHER := by cases d <;> exact hdither
    simp only [Die.amp, Die.rf, hlevel, hreg]
  · cases d <;> exact hbase
  · rw [← hbank t, h.bank c, hbank s]

theorem sendBoth (s : State) (b kind : Nat) (fields : List Nat) : SameLaw d s (sendBoth s b kind fields) := (emit s _).trans (.emit _ _)

theorem holderMsg (s : State) (p : DieId) (b kind elem n : Nat) (fields : List Nat) (drive : Bool) {f : State → State}
    (hf : ∀ t, SameLaw d t (f t)) : SameLaw d s (holderMsg s p b kind elem n fields drive f) := by
  unfold Machine.holderMsg
  extract_lets k s1
  split_ifs
  · exact .refl s
  · exact ((onBank s b fun k => k.receive_heaterX2 ..).trans (.of_uncompared (.compareCopy ..))).trans (hf _)
  · refine SameLaw.trans ?_ (.emit _ _)
    exact onBank s b fun _ => rfl
  · exact .of_uncompared (.compareCopy ..)

end SameLaw

/-- The message with which a die reads an element's store and restarts it (R267, R274). -/
def readMsg (s : State) (d : DieId) (e : Nat) : State :=
  holderMsg s d (bankOf e) mReadRestart e ((s.die d).elem e).update [] false (fun t =>
    sendBoth (t.onBank (bankOf e) (fun k => (k.onChan (chanOf e) (fun c => { c with last := (readStore s d e).2 })).restart (chanOf e)))
      (bankOf e) rStore (e :: (readStore s d e).2.fields))

/-- A reading numbers its message and uses up the discard mark of its element. -/
theorem readStore_state (s : State) (d : DieId) (e : Nat) : (readStore s d e).1 =
    (readMsg s d e).onDie d (·.onElem e (fun el => { el with update := ((s.die d).elem e).update + 1, discard := false })) := rfl

theorem KeepsElems.readMsg {α : Type} {π : Elem → α} (s : State) (d : DieId) (e : Nat) : KeepsElems π d s (readMsg s d e) :=
  .holderMsg s d _ _ e _ [] false fun t => (KeepsElems.onBank t _ _).trans (.sendBoth ..)

theorem SameLaw.readStore (s : State) (d : DieId) (e : Nat) : SameLaw d s (readStore s d e).1 := by
  have hread : SameLaw d s (readMsg s d e) := by
    refine SameLaw.holderMsg s d _ _ e _ [] false fun t => ?_
    refine SameLaw.trans ?_ (.sendBoth ..)
    exact .onBank t _ fun k => (Bank.onChan_heaterX2 ..).trans (k.onChan_heaterX2 ..)
  rw [readStore_state]
  exact hread.trans (.onElem _ e _)

theorem readStore_elem (s : State) (d : DieId) (e : Nat) :
    ((readStore s d e).1.die d).elem e = { (s.die d).elem e with update := ((s.die d).elem e).update + 1, discard := false } := by
  have h : ((readMsg s d e).die d).elem e = (s.die d).elem e := (KeepsElems.readMsg (π := id) s d e).elem e
  rw [readStore_state, State.die_onDie_same, Die.elem_onElem_same, h]

/-- A reading leaves every part of the elements but these two fields. -/
theorem KeepsElems.of_readStore {α : Type} {π : Elem → α} (hπ : ∀ el n, π { el with update := n, discard := false } = π el) (s : State)
    (d : DieId) (e : Nat) : KeepsElems π d s (Machine.readStore s d e).1 := by
  rw [readStore_state]
  exact (KeepsElems.readMsg s d e).trans (.onElem _ e _ fun el => hπ el _)

theorem KeepsElems.readWindow_half (s : State) (d : DieId) (e : Nat) : KeepsElems Elem.half d s (readWindow s d e).1 := by
  have h1 : KeepsElems Elem.half d s (Machine.readStore s d e).1 := .of_readStore (fun _ _ => rfl) s d e
  have h2 (st : Store) : KeepsElems Elem.half d s ((Machine.readStore s d e).1.onDie d (·.onElem e (·.seeWindow e st))) :=
    h1.trans (.onElem _ e _ fun _ => rfl)
  unfold readWindow
  simp only
  split
  · exact h1
  · split
    · exact h2 _
    · split
      · exact (h2 _).trans (.onElem _ e _ fun _ => rfl)
      · exact h2 _

/-! ## Dither edges and settling (R192, R193) -/

theorem State.onElem_congr {s : State} {d : DieId} {e : Nat} {f g : Elem → Elem} (h : f ((s.die d).elem e) = g ((s.die d).elem e)) :
    s.onDie d (·.onElem e f) = s.onDie d (·.onElem e g) := by
  simp only [State.onDie, Die.onElem, h]

theorem Die.base_ne_blind_of_loopsOn {x : Die} (h : x.loopsOn = true) : x.base ≠ mBlind := by
  intro hb
  simp [Die.loopsOn, hb, isWorking, mBlind, mStatic, mSlotted, mHybrid, mService] at h

/-- The drives of a heater are held in BLIND HOLD only (R209). -/
theorem loopOut_heater {s : State} {d : DieId} (h : (s.die d).base ≠ mBlind) (e code : Nat) (x2 : Bool) (group : Nat) :
    loopOut s d e .heater code x2 group = driveOut s d e .heater code x2 group := by
  simp [loopOut, Die.holdsOut, h]

/-- A half-cycle of a cell's dither ends with what its window read, and the other one begins (R193). -/
def Elem.nextHalf (el : Elem) (w : Option Rat) (ticks : Nat) : Elem :=
  { el with half := if el.half = .plus then .minus else .plus, settled := false, edgeAt := ticks,
            mPlus := if el.half = .plus then w else el.mPlus, mMinus := if el.half = .minus then w else el.mMinus }

theorem readWindow_half {s s1 : State} {d : DieId} {e : Nat} {w : Option Rat} (hw : readWindow s d e = (s1, w)) :
    ((s1.die d).elem e).half = ((s.die d).elem e).half := by
  have h := (KeepsElems.readWindow_half s d e).elem e
  rwa [hw] at h

/-- What a cell reads at its dither edge: the window of a half-cycle that has settled, else a reading that is discarded (R193). -/
def edgeWindow (s : State) (d : DieId) (c : Nat) : State × Option Rat :=
  if ((s.die d).elem c).half ≠ .none ∧ ((s.die d).elem c).settled = true then readWindow s d c else ((readStore s d c).1, none)

theorem Elem.nextHalf_plus {el : Elem} (h : el.half = .plus) (w : Option Rat) (ticks : Nat) :
    el.nextHalf w ticks = { el with half := .minus, settled := false, edgeAt := ticks, mPlus := w } := by simp [Elem.nextHalf, h]

theorem Elem.nextHalf_minus {el : Elem} (h : el.half = .minus) (w : Option Rat) (ticks : Nat) :
    el.nextHalf w ticks = { el with half := .plus, settled := false, edgeAt := ticks, mMinus := w } := by simp [Elem.nextHalf, h]

/-- A reading leaves the half-cycle that its element is in. -/
theorem edgeWindow_half (s : State) (d : DieId) (c : Nat) : (((edgeWindow s d c).1.die d).elem c).half = ((s.die d).elem c).half := by
  have h1 : KeepsElems Elem.half d s (readStore s d c).1 := .of_readStore (fun _ _ => rfl) s d c
  unfold edgeWindow
  split
  · exact (KeepsElems.readWindow_half s d c).elem c
  · exact h1.elem c

section Dither
variable {s : State} {d : DieId} {c : Nat}

theorem dithers_loopsOn (h : dithers s d c = true) : (s.die d).loopsOn = true := by
  simp only [dithers, Bool.and_eq_true] at h
  exact h.1.1.1.1

theorem ditherEdge_idle (h : dithers s d c = false) : ditherEdge d c s = s := by simp [ditherEdge, h]

theorem settleExpiry_idle (h : dithers s d c = false) : settleExpiry d c s = s := by simp [settleExpiry, h]

theorem ditherEdge_early (hh : ((s.die d).elem c).half ≠ .none) (ht : s.ticks - ((s.die d).elem c).edgeAt < (s.die d).halfNs) :
    ditherEdge d c s = s := by
  simp [ditherEdge, hh, ht]

/-- The edge of a cell on its PIN shifter or on its heater, once the half-cycle before it has run. -/
theorem ditherEdge_due {s1 : State} {w : Option Rat} (hd : dithers s d c = true)
    (ht : ((s.die d).elem c).half = .none ∨ (s.die d).halfNs ≤ s.ticks - ((s.die d).elem c).edgeAt) (hw : edgeWindow s d c = (s1, w)) :
    ditherEdge d c s = (if ((s.die d).elem c).onPinLoop then strobePin else strobeHeater)
      (s1.onDie d (·.onElem c (·.nextHalf w s.ticks))) d c (loopGroup c) := by
  have hhalf : ((s1.die d).elem c).half = ((s.die d).elem c).half := by
    have h := edgeWindow_half s d c
    rwa [hw] at h
  have hnext : s1.onDie d (·.onElem c (·.nextHalf w s.ticks)) = s1.onDie d (·.onElem c (fun el =>
      { el with half := if ((s.die d).elem c).half = .plus then .minus else .plus, settled := false, edgeAt := s.ticks,
                mPlus := if el.half = .plus then w else el.mPlus, mMinus := if el.half = .minus then w else el.mMinus })) :=
    State.onElem_congr (by simp only [Elem.nextHalf, hhalf])
  have hwait : ¬ (((s.die d).elem c).half ≠ .none ∧ s.ticks - ((s.die d).elem c).edgeAt < (s.die d).halfNs) :=
    fun h => ht.elim h.1 (Nat.not_le.2 h.2)
  unfold edgeWindow at hw
  simp only [ditherEdge, hd, Bool.not_true, Bool.false_or, Bool.and_eq_true, decide_eq_true_eq, hwait, if_false, hw, hnext]
  split <;> rfl

/-- At the edge that ends a settled half-cycle its window is read. -/
theorem ditherEdge_settled {s1 : State} {w : Option Rat} (hd : dithers s d c = true) (hh : ((s.die d).elem c).half ≠ .none)
    (hs : ((s.die d).elem c).settled = true) (ht : (s.die d).halfNs ≤ s.ticks - ((s.die d).elem c).edgeAt)
    (hw : readWindow s d c = (s1, w)) : ditherEdge d c s = (if ((s.die d).elem c).onPinLoop then strobePin else strobeHeater)
      (s1.onDie d (·.onElem c (·.nextHalf w s.ticks))) d c (loopGroup c) :=
  ditherEdge_due hd (.inr ht) (by rw [edgeWindow, if_pos ⟨hh, hs⟩, hw])

/-- The first edge of a heater: the code with the dither amplitude on top, from what the cell was before the reading (R192). -/
theorem ditherEdge_first (hd : dithers s d c = true) (hh : ((s.die d).elem c).half = .none) (hp : ((s.die d).elem c).onPinLoop = false) :
    let s1 := (readStore s d c).1.onDie d (·.onElem c (fun el => { el with half := .plus, settled := false, edgeAt := s.ticks }))
    ditherEdge d c s = driveOut s1 d c .heater
      (clampCode ((((s.die d).elem c).uHtr : Rat) + slopeH (s.die d) c s.ticks * (s.die d).amp) (heaterMax s c)).1 false (loopGroup c) := by
  intro s1
  have hlaw : SameLaw d s s1 := (SameLaw.readStore s d c).trans (.onElem _ c _)
  have helem : (s1.die d).elem c = { (s.die d).elem c with
      update := ((s.die d).elem c).update + 1, discard := false, half := .plus, settled := false, edgeAt := s.ticks } := by
    rw [State.die_onDie_same, Die.elem_onElem_same, readStore_elem]
  have hoffset : (ditherOffset (s1.die d) c s1.ticks).1 = slopeH (s.die d) c s.ticks * (s.die d).amp := by
    have hpin : ((s1.die d).elem c).onPinLoop = false := by rw [helem]; exact hp
    have hhalf : ((s1.die d).elem c).half = .plus := by rw [helem]
    have hslope : slopeH (s1.die d) c s1.ticks = slopeH (s.die d) c s.ticks := by
      simp only [slopeH, helem, hlaw.cal, hlaw.ticks]
      rfl
    simp [ditherOffset, hpin, hhalf, hslope, hlaw.amp]
  have hedge : ditherEdge d c s = strobeHeater s1 d c (loopGroup c) := by
    rw [ditherEdge_due hd (.inl hh) (by rw [edgeWindow, if_neg (by simp [hh])]), hp]
    refine congrArg (strobeHeater · d c (loopGroup c)) (State.onElem_congr ?_)
    simp [readStore_elem, Elem.nextHalf, hh]
  have hbase : (s1.die d).base ≠ mBlind := hlaw.base ▸ Die.base_ne_blind_of_loopsOn (dithers_loopsOn hd)
  rw [hedge, strobeHeater, loopOut_heater hbase, hoffset, heaterMax, heaterMax, hlaw.gain, helem]

theorem settleExpiry_done (h : ((s.die d).elem c).half = .none ∨ ((s.die d).elem c).settled = true) : settleExpiry d c s = s := by
  unfold settleExpiry
  rcases h with h | h <;> simp [h]

theorem settleExpiry_due (hd : dithers s d c = true) (hh : ((s.die d).elem c).half ≠ .none) (hs : ((s.die d).elem c).settled = false)
    (ht : (s.die d).settleNs ((s.die d).elem c).onPinLoop ≤ s.ticks - ((s.die d).elem c).edgeAt) :
    settleExpiry d c s = (readStore s d c).1.onDie d (·.onElem c (fun el => { el with settled := true })) := by
  simp [settleExpiry, hd, hh, hs, Nat.not_lt.2 ht]

end Dither

/-! ## Updates (R194 to R200, R204, R221, R222) -/

/-- An evaluation of the mean of a window, when it has one. -/
def evaluated (s : State) (d : DieId) (e : Nat) (w : Option Rat) : State :=
  match w with
  | some w => evaluate s d e w
  | none => s

/-- An update of an element that has been made: nothing else of it but its time has changed. -/
def updateSeen (s : State) (d : DieId) (e : Nat) : State := s.onDie d (·.onElem e (fun el => { el with lastUpd := s.ticks }))

/-- The last mean that a cell with dither took, while it has one of its half-cycles. -/
def Elem.mean (el : Elem) : Option Rat := if el.mPlus.isSome || el.mMinus.isSome then some el.lastW else none

section Update
variable {s : State} {d : DieId} {e per : Nat}

/-- A period that has run, with nothing of R224 above the element's mode in its way. -/
theorem updateWaits_due (hl : (s.die d).loopsOn = true) (hst : stale s e = false) (hv : (s.die d).verifying e = false)
    (hr : (s.die d).inRun e = false) (ht : per ≤ s.ticks - ((s.die d).elem e).lastUpd) : updateWaits s d e per = false := by
  simp [updateWaits, hl, hst, hv, hr, Nat.not_lt.2 ht]

theorem updateWaits_idle (h : (s.die d).loopsOn = false ∨ s.ticks - ((s.die d).elem e).lastUpd < per) : updateWaits s d e per = true := by
  rcases h with h | h <;> simp [updateWaits, h]

theorem blindUpdate_cell (hc : isCell e = true) (hr : ((s.die d).elem e).ramp = none) :
    blindUpdate s d e = holdCell (updateSeen s d e) d e := by simp [blindUpdate, updateSeen, hc, hr]

theorem blindUpdate_gate (hc : isCell e = false) (hr : ((s.die d).elem e).ramp = none) :
    blindUpdate s d e = holdGate (updateSeen s d e) d e := by simp [blindUpdate, updateSeen, hc, hr]

/-- Between its retries an element in fallback is held (R221). -/
theorem fallbackUpdate_held (hr : ((s.die d).elem e).retry = none) : fallbackUpdate s d e = holdElem (updateSeen s d e) d e := by
  simp [fallbackUpdate, updateSeen, hr]

/-- The retry of a cell with dither ends with the last mean it took (R222). -/
theorem fallbackUpdate_retried (hc : isCell e = true) (hm : ((s.die d).elem e).mode = 0) (hf : ((s.die d).elem e).fallback = true)
    (hr : ((s.die d).elem e).retry.isSome = true) (hi : ((s.die d).elem e).implausible = false) (hb : ((s.die d).elem e).balanced e = false) :
    fallbackUpdate s d e = retryEnds s d e ((s.die d).elem e).mean := by
  simp [fallbackUpdate, Elem.dithered, Elem.mean, hc, hm, hf, hr, hi, hb]

theorem holdElem_cell (hc : isCell e = true) : holdElem s d e = holdCell s d e := by simp [holdElem, hc]

theorem Elem.closed_iff {el : Elem} : el.closed e = true ↔
    el.mode = 0 ∧ el.active = true ∧ el.fallback = false ∧ el.implausible = false ∧ el.balanced e = false := by
  simp [Elem.closed, and_assoc]

end Update

theorem isCell_fin (c : Fin 4864) : isCell c = true := by simp [isCell]

theorem isCell_gateElem (g : Nat) : isCell (gateElem g) = false := by simp [isCell, gateElem]

/-- What an update of a cell is judged by: the last mean of a closed cell, the window of another one (R219, R220). -/
def cellWindow (s : State) (d : DieId) (c : Nat) : State × Option Rat :=
  if ((s.die d).elem c).closed c then (s, ((s.die d).elem c).mean) else readWindow s d c

/-- The loop law makes an update of the means of both half-cycles; without them it is missed (R195, R216). -/
def cellCloses (s : State) (d : DieId) (c : Nat) : State :=
  match ((s.die d).elem c).mPlus, ((s.die d).elem c).mMinus with
  | some mp, some mm => periodEnd (closeCell s d c mp mm) d c
  | _, _ => periodEnd (missUpdate s d c) d c

theorem cellCloses_both {s : State} {d : DieId} {c : Nat} {mp mm : Rat} (hp : ((s.die d).elem c).mPlus = some mp)
    (hm : ((s.die d).elem c).mMinus = some mm) : cellCloses s d c = periodEnd (closeCell s d c mp mm) d c := by
  simp only [cellCloses, hp, hm]

theorem cellCloses_none {s : State} {d : DieId} {c : Nat} (h : ((s.die d).elem c).mPlus = none) :
    cellCloses s d c = periodEnd (missUpdate s d c) d c := by
  simp only [cellCloses, h]

section Cell
variable {s : State} {d : DieId} {c : Nat}

theorem cellUpdate_idle (h : (s.die d).loopsOn = false ∨ (((s.die d).elem c).mode ≠ 0 ∧ ((s.die d).elem c).mode ≠ 2) ∨
    (((s.die d).elem c).mode = 0 ∧ ((s.die d).elem c).fallback = false ∧ ((s.die d).elem c).active = false) ∨
    s.ticks - ((s.die d).elem c).lastUpd < (s.die d).effNs) : cellUpdate d c s = s := by
  rcases h with h | ⟨h0, h2⟩ | ⟨h0, hf, ha⟩ | h
  · simp [cellUpdate, updateWaits_idle (.inl h)]
  · simp [cellUpdate, h0, h2]
  · simp [cellUpdate, h0, hf, ha]
  · simp [cellUpdate, updateWaits_idle (.inr h)]

variable (hw : updateWaits s d c (s.die d).effNs = false)
include hw

theorem cellUpdate_blind (hm : ((s.die d).elem c).mode = 2) : cellUpdate d c s = blindUpdate s d c := by simp [cellUpdate, hw, hm]

theorem cellUpdate_fallback (hm : ((s.die d).elem c).mode = 0) (hf : ((s.die d).elem c).fallback = true) :
    cellUpdate d c s = fallbackUpdate s d c := by simp [cellUpdate, hw, hm, hf]

/-- An active cell in AUTO that is plausible once its window is judged: it is held when it is balanced or was implausible (R72, R219), and
closed otherwise (R195). -/
theorem cellUpdate_active (hm : ((s.die d).elem c).mode = 0) (ha : ((s.die d).elem c).active = true)
    (hfb : ((s.die d).elem c).fallback = false) {s1 s2 : State} {w : Option Rat} (h1 : cellWindow s d c = (s1, w))
    (h2 : evaluated s1 d c w = s2) (hf : ((s2.die d).elem c).fallback = false) (hi : ((s2.die d).elem c).implausible = false) :
    cellUpdate d c s = if (((s.die d).elem c).implausible || ((s2.die d).elem c).balanced c) = true then madeOpen (holdCell s2 d c) d c
      else cellCloses s2 d c := by
  unfold cellWindow Elem.mean at h1
  subst h2
  cases w <;> simp only [evaluated] at hf hi ⊢ <;> simp only [cellUpdate, hw, hm, ha, hfb, h1, hf, hi, Bool.false_eq_true, if_false,
    Bool.not_true, ne_eq, not_true_eq_false, OfNat.zero_ne_ofNat] <;> rfl

/-- A closed cell with both means. -/
theorem cellUpdate_closed (hc : ((s.die d).elem c).closed c = true) {mp mm : Rat} (hp : ((s.die d).elem c).mPlus = some mp) {s2 : State}
    (h2 : evaluate s d c ((s.die d).elem c).lastW = s2) (hf : ((s2.die d).elem c).fallback = false)
    (hi : ((s2.die d).elem c).implausible = false) (hb : ((s2.die d).elem c).balanced c = false) (hp2 : ((s2.die d).elem c).mPlus = some mp)
    (hm2 : ((s2.die d).elem c).mMinus = some mm) : cellUpdate d c s = periodEnd (closeCell s2 d c mp mm) d c := by
  obtain ⟨hm, ha, hfb, himp, -⟩ := Elem.closed_iff.1 hc
  have h1 : cellWindow s d c = (s, some ((s.die d).elem c).lastW) := by simp [cellWindow, Elem.mean, hc, hp]
  rw [cellUpdate_active hw hm ha hfb h1 h2 hf hi, himp, hb, Bool.or_self, if_neg Bool.false_ne_true, cellCloses_both hp2 hm2]

/-- A closed cell without a mean. -/
theorem cellUpdate_missed (hc : ((s.die d).elem c).closed c = true) (hp : ((s.die d).elem c).mPlus = none)
    (hq : ((s.die d).elem c).mMinus = none) : cellUpdate d c s = periodEnd (missUpdate s d c) d c := by
  obtain ⟨hm, ha, hfb, himp, hb⟩ := Elem.closed_iff.1 hc
  have h1 : cellWindow s d c = (s, none) := by simp [cellWindow, Elem.mean, hc, hp, hq]
  rw [cellUpdate_active hw hm ha hfb h1 rfl hfb himp, himp, evaluated, hb, Bool.or_self, if_neg Bool.false_ne_true, cellCloses_none hp]

/-- A balanced cell. -/
theorem cellUpdate_balanced (hm : ((s.die d).elem c).mode = 0) (ha : ((s.die d).elem c).active = true)
    (hfb : ((s.die d).elem c).fallback = false) (hbal : ((s.die d).elem c).balanced c = true) {s1 s2 : State} {w : Option Rat}
    (h1 : readWindow s d c = (s1, w)) (h2 : evaluated s1 d c w = s2) (hf : ((s2.die d).elem c).fallback = false)
    (hi : ((s2.die d).elem c).implausible = false) (hb : ((s2.die d).elem c).balanced c = true) :
    cellUpdate d c s = madeOpen (holdCell s2 d c) d c := by
  have hread : cellWindow s d c = (s1, w) := by simp [cellWindow, Elem.closed, hbal, h1]
  rw [cellUpdate_active hw hm ha hfb hread h2 hf hi, hb, Bool.or_true, if_pos rfl]

end Cell

section Gate
variable {s : State} {d : DieId} {g : Nat}

theorem gateUpdate_idle (h : (s.die d).loopsOn = false ∨ (((s.die d).elem (gateElem g)).mode ≠ 0 ∧ ((s.die d).elem (gateElem g)).mode ≠ 2) ∨
    (((s.die d).elem (gateElem g)).mode = 0 ∧ ((s.die d).elem (gateElem g)).fallback = false ∧ ((s.die d).elem (gateElem g)).active = false) ∨
    s.ticks - ((s.die d).elem (gateElem g)).lastUpd < usT * (s.die d).loopUs) : gateUpdate d g s = s := by
  rcases h with h | ⟨h0, h2⟩ | ⟨h0, hf, ha⟩ | h
  · simp [gateUpdate, updateWaits_idle (.inl h)]
  · simp [gateUpdate, h0, h2]
  · simp [gateUpdate, h0, hf, ha]
  · simp [gateUpdate, updateWaits_idle (.inr h)]

variable (hw : updateWaits s d (gateElem g) (usT * (s.die d).loopUs) = false)
include hw

theorem gateUpdate_blind (hm : ((s.die d).elem (gateElem g)).mode = 2) : gateUpdate d g s = blindUpdate s d (gateElem g) := by
  simp [gateUpdate, hw, hm]

theorem gateUpdate_fallback (hm : ((s.die d).elem (gateElem g)).mode = 0) (hf : ((s.die d).elem (gateElem g)).fallback = true) :
    gateUpdate d g s = fallbackUpdate s d (gateElem g) := by simp [gateUpdate, hw, hm, hf]

variable (hm : ((s.die d).elem (gateElem g)).mode = 0) (ha : ((s.die d).elem (gateElem g)).active = true)
  (hfb : ((s.die d).elem (gateElem g)).fallback = false) {s1 s2 : State} {w : Option Rat} (h1 : readWindow s d (gateElem g) = (s1, w))
  (h2 : evaluated s1 d (gateElem g) w = s2) (hf : ((s2.die d).elem (gateElem g)).fallback = false)
  (hi : ((s2.die d).elem (gateElem g)).implausible = false)
include hm ha hfb h1 h2 hf hi

/-- An active gate in AUTO that is plausible once its window is judged: it is held open without a loop on its monitor (R199), goes on from
its integrator after an implausible reading (R219), and else is closed on its window's mean, or misses its update without one (R200). -/
theorem gateUpdate_active : gateUpdate d g s =
    if gateCloses s2 d (gateElem g) = false then madeOpen (holdGate s2 d (gateElem g)) d (gateElem g)
    else if ((s.die d).elem (gateElem g)).implausible = true then madeOpen (applyGate s2 d (gateElem g) 0) d (gateElem g)
    else periodEnd (w.elim (missUpdate s2 d (gateElem g)) (closeGate s2 d (gateElem g))) d (gateElem g) := by
  subst h2
  cases w <;> simp only [evaluated] at hf hi ⊢ <;> simp only [gateUpdate, hw, hm, ha, hfb, h1, hf, hi, Bool.false_eq_true, if_false,
    Bool.not_true, ne_eq, not_true_eq_false, OfNat.zero_ne_ofNat, Bool.not_eq_true', Option.elim] <;> rfl

theorem gateUpdate_open (ho : gateCloses s2 d (gateElem g) = false) :
    gateUpdate d g s = madeOpen (holdGate s2 d (gateElem g)) d (gateElem g) := by
  rw [gateUpdate_active hw hm ha hfb h1 h2 hf hi, if_pos ho]

theorem gateUpdate_closed {m : Rat} (hsome : w = some m) (hp : ((s.die d).elem (gateElem g)).implausible = false)
    (ho : gateCloses s2 d (gateElem g) = true) :
    gateUpdate d g s = periodEnd (closeGate s2 d (gateElem g) m) d (gateElem g) := by
  rw [gateUpdate_active hw hm ha hfb h1 h2 hf hi, ho, hp, if_neg (by decide), if_neg (by decide), hsome, Option.elim_some]

theorem gateUpdate_missed (hnone : w = none) (hp : ((s.die d).elem (gateElem g)).implausible = false)
    (ho : gateCloses s2 d (gateElem g) = true) :
    gateUpdate d g s = periodEnd (missUpdate s2 d (gateElem g)) d (gateElem g) := by
  rw [gateUpdate_active hw hm ha hfb h1 h2 hf hi, ho, hp, if_neg (by decide), if_neg (by decide), hnone, Option.elim_none]

end Gate

/-- Settles O24: each row by what it does when it is due; at the first edge of a heater by what a reading leaves of the loop law. -/
theorem loopsUpdate : Obligations.LoopsUpdate := by
  unfold Obligations.LoopsUpdate
  intro d s x
  refine ⟨fun c => ?cells, fun g => ?gates⟩
  case cells =>
    intro el mean seen
    refine ⟨fun h => ⟨Makes.of_done (congrArg done (ditherEdge_idle h)), Makes.of_done (congrArg done (settleExpiry_idle h))⟩,
      fun hd => ?dithered, fun h => Makes.of_done (congrArg done (cellUpdate_idle h)), ?update⟩
    case dithered =>
      refine ⟨fun hh ht => Makes.of_done (congrArg done (ditherEdge_early hh ht)),
        fun hh hp => Makes.of_done (congrArg done (ditherEdge_first hd hh hp)),
        fun hh hs ht hp s1 w hw => Makes.of_done (congrArg done ((ditherEdge_settled hd (by rw [hh]; decide) hs ht hw).trans ?plus)),
        fun hh hs ht hp s1 w hw => Makes.of_done (congrArg done ((ditherEdge_settled hd (by rw [hh]; decide) hs ht hw).trans ?minus)),
        fun h => Makes.of_done (congrArg done (settleExpiry_done h)),
        fun hh hs ht => Makes.of_done (congrArg done (settleExpiry_due hd hh hs ht))⟩
      case plus =>
        rw [hp]
        exact congrArg (strobeHeater · d c (loopGroup c)) (State.onElem_congr (Elem.nextHalf_plus ((readWindow_half hw).trans hh) ..))
      case minus =>
        rw [hp]
        exact congrArg (strobePin · d c (loopGroup c)) (State.onElem_congr (Elem.nextHalf_minus ((readWindow_half hw).trans hh) ..))
    case update =>
      intro hl hst hv hr ht
      have hw := updateWaits_due hl hst hv hr ht
      have hc := isCell_fin c
      refine ⟨fun hm hn => ?blind, fun hm hf hn => ?held, fun hm hf hn hi hb => ?retried, fun mp mm hcl hp hq => ?closed,
        fun hcl hp hq => ?missed, fun hm ha hfb hbal s1 w h1 => ?balanced⟩
      case blind => exact Makes.of_done (congrArg done ((cellUpdate_blind hw hm).trans (blindUpdate_cell hc hn)))
      case held =>
        exact Makes.of_done (congrArg done ((cellUpdate_fallback hw hm hf).trans ((fallbackUpdate_held hn).trans (holdElem_cell hc))))
      case retried => exact Makes.of_done (congrArg done ((cellUpdate_fallback hw hm hf).trans (fallbackUpdate_retried hc hm hf hn hi hb)))
      case closed =>
        intro s2 hf hi hb hp2 hq2
        exact Makes.of_done (congrArg done (cellUpdate_closed hw hcl hp rfl hf hi hb hp2 hq2))
      case missed => exact Makes.of_done (congrArg done (cellUpdate_missed hw hcl hp hq))
      case balanced =>
        intro s2 hf hi hb
        exact Makes.of_done (congrArg done (cellUpdate_balanced hw hm ha hfb hbal h1 rfl hf hi hb))
  case gates =>
    intro e el per
    refine ⟨fun h => Makes.of_done (congrArg done (gateUpdate_idle h)), ?_⟩
    intro hl hst hv hr ht
    have hw := updateWaits_due hl hst hv hr ht
    have hc := isCell_gateElem g
    refine ⟨fun hm hn => ?blind, fun hm hf hn => ?held, fun hm ha hfb s1 w h1 => ?active⟩
    case blind => exact Makes.of_done (congrArg done ((gateUpdate_blind hw hm).trans (blindUpdate_gate hc hn)))
    case held => exact Makes.of_done (congrArg done ((gateUpdate_fallback hw hm hf).trans (fallbackUpdate_held hn)))
    case active =>
      intro s2 hf hi
      exact ⟨fun ho => Makes.of_done (congrArg done (gateUpdate_open hw hm ha hfb h1 rfl hf hi ho)),
        fun m hsome hp ho => Makes.of_done (congrArg done (gateUpdate_closed hw hm ha hfb h1 rfl hf hi hsome hp ho)),
        fun hnone hp ho => Makes.of_done (congrArg done (gateUpdate_missed hw hm ha hfb h1 rfl hf hi hnone hp ho))⟩

end Sys2Proof.Machine
end

section
/-!
PROOFS. The refresh, the wake, the missed update and the retry of an element (R213, R214, R216, R222, R299).
-/

namespace Sys2Proof.Machine

section Wake
variable {s : State} {d : DieId} {e : Nat}

/-- A cell that is active or served by a die that is not Declarer, and a gate, are not trimmed at their refresh (R299). -/
theorem trimCell_none (h : ((s.die d).elem e).active = true ∨ isCell e = false ∨ (s.die d).isDecl = false) : trimCell s d e = s := by
  unfold trimCell
  rcases h with h | h | h <;> simp [h]

/-- A row of refresh whose element is not trimmed is its refresh alone (R213). -/
theorem refreshRow_untrimmed (h : ((s.die d).elem e).active = true ∨ isCell e = false ∨ (s.die d).isDecl = false) :
    refreshRow d e s = refreshDue d e s := by
  simp only [refreshRow, trimCell_none h, ite_self]

theorem refreshRow_idle (h : (s.die d).loopsOn = false ∨ refreshNo (s.die d) e = ((s.die d).elem e).refIdx) : refreshRow d e s = s := by
  rcases h with h | h <;> simp [refreshRow, refreshDue, h]

/-- The refresh of an element is noted, and a cell is classed anew (R72, R213). -/
def refreshNoted (s : State) (d : DieId) (e : Nat) : State :=
  s.onDie d (fun x => (classify x e).onElem e (fun el => { el with refIdx := refreshNo (s.die d) e }))

section Refresh
variable (hl : (s.die d).loopsOn = true) (hst : stale s e = false) (hm : ((s.die d).elem e).mode = 0)
  (h0 : refreshNo (s.die d) e ≠ 0) (hn : refreshNo (s.die d) e ≠ ((s.die d).elem e).refIdx)
include hl hst hm h0 hn

theorem refreshRow_active (ha : ((s.die d).elem e).active = true) : refreshRow d e s = refreshNoted s d e := by
  rw [refreshRow_untrimmed (.inl ha)]
  simp [refreshDue, refreshNoted, hl, hst, hm, h0, hn, ha]

/-- A resting element is judged by a window, and becomes active unless it is balanced (R213). -/
theorem refreshRow_resting (hr : (s.die d).inRun e = false) (ha : ((s.die d).elem e).active = false) (hf : ((s.die d).elem e).fallback = false)
    (ht : isCell e = false ∨ (s.die d).isDecl = false) {s2 s3 : State} {w : Option Rat} (h2 : readWindow (refreshNoted s d e) d e = (s2, w))
    (h3 : evaluated s2 d e w = s3) :
    refreshRow d e s = if ((s3.die d).elem e).balanced e then s3 else activate s3 d e (s.die d).refreshBurst tHold := by
  rw [refreshRow_untrimmed (.inr ht)]
  subst h3
  unfold refreshNoted at h2
  cases w <;> simp [refreshDue, evaluated, hl, hst, hr, hm, h0, hn, ha, hf, h2] <;> rfl

end Refresh

theorem comparatorWake_idle (h : (s.die d).loopsOn = false ∨ ((s.die d).elem e).active = true) : comparatorWake d e s = s := by
  rcases h with h | h <;> simp [comparatorWake, h]

theorem comparatorWake_wakes (hl : (s.die d).loopsOn = true) (hst : stale s e = false) (hr : (s.die d).inRun e = false)
    (hm : ((s.die d).elem e).mode = 0) (ha : ((s.die d).elem e).active = false) (hf : ((s.die d).elem e).fallback = false) :
    comparatorWake d e s = elementEvent (activate s d e (s.die d).wakeBurst tHold) d e ecWake true := by
  simp [comparatorWake, hl, hst, hr, hm, ha, hf]

/-- The period of an element's updates, and the time after one by which the next is missed (R197, R216). -/
def Die.updateNs (x : Die) (e : Nat) : Nat := if isCell e then x.effNs else usT * x.loopUs
def Die.missNs (x : Die) (e : Nat) : Nat := if isCell e then x.updateNs e + 2 * x.halfNs else 2 * x.updateNs e

theorem deadlineMiss_eq : deadlineMiss d e s =
    if !(s.die d).loopsOn || !((s.die d).elem e).closed e || stale s e || (s.die d).verifying e || (s.die d).inRun e ||
      decide (s.ticks - ((s.die d).elem e).lastUpd < (s.die d).missNs e) then s
    else missUpdate ((readStore s d e).1.onDie d (·.onElem e (fun el =>
      { el with lastUpd := el.lastUpd + (s.die d).updateNs e, mPlus := none, mMinus := none, half := .none, settled := false }))) d e := rfl

theorem deadlineMiss_idle (h : (s.die d).loopsOn = false ∨ s.ticks - ((s.die d).elem e).lastUpd < (s.die d).missNs e) :
    deadlineMiss d e s = s := by
  rcases h with h | h <;> simp [deadlineMiss_eq, h]

theorem deadlineMiss_due (hl : (s.die d).loopsOn = true) (hst : stale s e = false) (hr : (s.die d).inRun e = false)
    (hc : ((s.die d).elem e).closed e = true) (hv : (s.die d).verifying e = false)
    (ht : (s.die d).missNs e ≤ s.ticks - ((s.die d).elem e).lastUpd) : deadlineMiss d e s =
      missUpdate ((readStore s d e).1.onDie d (·.onElem e (fun el =>
        { el with lastUpd := el.lastUpd + (s.die d).updateNs e, mPlus := none, mMinus := none, half := .none, settled := false }))) d e := by
  simp [deadlineMiss_eq, hl, hst, hr, hc, hv, Nat.not_lt.2 ht]

theorem fallbackRetry_idle (h : (s.die d).loopsOn = false ∨ ((s.die d).elem e).fallback = false ∨ ((s.die d).elem e).retry.isSome = true ∨
    s.ticks - ((s.die d).elem e).fellAt < (s.die d).retryNs) : fallbackRetry d e s = s := by
  rcases h with h | h | h | h <;> simp [fallbackRetry, h]

theorem fallbackRetry_due (hl : (s.die d).loopsOn = true) (hst : stale s e = false) (hf : ((s.die d).elem e).fallback = true)
    (hn : ((s.die d).elem e).retry = none) (hv : (s.die d).verifying e = false)
    (ht : (s.die d).retryNs ≤ s.ticks - ((s.die d).elem e).fellAt) : fallbackRetry d e s =
      retryBegins (s.onDie d (·.onElem e (fun el => { el with fellAt := el.fellAt + (s.die d).retryNs }))) d e := by
  simp [fallbackRetry, hl, hst, hf, hn, hv, Nat.not_lt.2 ht]

end Wake

/-- Settles O25: each row by what it does when it is due; the elements of the statement are not trimmed at their refresh. -/
theorem elementsWakeMissAndRetry : Obligations.ElementsWakeMissAndRetry := by
  unfold Obligations.ElementsWakeMissAndRetry
  intro d e s x el
  refine ⟨?idle, fun hl hst hr => ⟨?active, ?resting, ?refreshed, ?wakes, ?awake, fun hc hv => ?deadline, ?noRetry, ?retry⟩⟩
  case idle =>
    exact fun h => ⟨Makes.of_done (congrArg done (refreshRow_idle (.inl h))), Makes.of_done (congrArg done (comparatorWake_idle (.inl h))),
      Makes.of_done (congrArg done (deadlineMiss_idle (.inl h))), Makes.of_done (congrArg done (fallbackRetry_idle (.inl h)))⟩
  case active => exact fun hm h0 hn ha => Makes.of_done (congrArg done (refreshRow_active hl hst hm h0 hn ha))
  case resting =>
    exact fun hm h0 hn ha hf ht s2 w h2 => Makes.of_done (congrArg done (refreshRow_resting hl hst hm h0 hn hr ha hf ht h2 rfl))
  case refreshed => exact fun h => Makes.of_done (congrArg done (refreshRow_idle (.inr h)))
  case wakes => exact fun hm ha hf => Makes.of_done (congrArg done (comparatorWake_wakes hl hst hr hm ha hf))
  case awake => exact fun h => Makes.of_done (congrArg done (comparatorWake_idle (.inr h)))
  case deadline =>
    exact ⟨fun h => Makes.of_done (congrArg done (deadlineMiss_idle (.inr h))),
      fun h => Makes.of_done (congrArg done (deadlineMiss_due hl hst hr hc hv h))⟩
  case noRetry => exact fun h => Makes.of_done (congrArg done (fallbackRetry_idle (.inr h)))
  case retry => exact fun hf hn hv ht => Makes.of_done (congrArg done (fallbackRetry_due hl hst hf hn hv ht))

end Sys2Proof.Machine
end

section
/-!
PROOFS. The HLD_EL registers (R206, R207), what a change of an element's mode and the end of its LOOP_SET leave of the elements, dozing
clusters (R210).
-/

namespace Sys2Proof.Machine

/-! ## The registers of a selected element -/

theorem fput_fput_same {f : Fld} (h : f.lo ≤ f.hi) (w a b : Nat) : fput f (fput f w a) b = fput f w b := by
  refine Nat.eq_of_testBit_eq fun i => ?_
  simp only [fput, testBit_setBits _ _ h]
  split <;> rfl

theorem fput_comm {f g : Fld} (hf : f.lo ≤ f.hi) (hg : g.lo ≤ g.hi) (hfg : f.hi < g.lo ∨ g.hi < f.lo) (w a b : Nat) :
    fput f (fput g w b) a = fput g (fput f w a) b := by
  refine Nat.eq_of_testBit_eq fun i => ?_
  simp only [fput, testBit_setBits _ _ hf, testBit_setBits _ _ hg]
  have hdisjoint : ¬ ((f.lo ≤ i ∧ i ≤ f.hi) ∧ (g.lo ≤ i ∧ i ≤ g.hi)) := by omega
  by_cases hi : f.lo ≤ i ∧ i ≤ f.hi
  · rw [if_pos hi, if_neg fun hi' => hdisjoint ⟨hi, hi'⟩, if_pos hi]
  · rw [if_neg hi, if_neg hi]

/-- The word that a write of HLD_EL_CTRL leaves: the bits that act read 0. -/
def ctrlWord (v : Nat) : Nat := fput F.HLD_EL_CTRL_APPLY (fput F.HLD_EL_CTRL_CLEAR v 0) 0

theorem ctrlWord_apply (v a : Nat) : ctrlWord (fput F.HLD_EL_CTRL_APPLY v a) = ctrlWord v := by
  rw [ctrlWord, fput_comm (by decide) (by decide) (by decide), fput_fput_same (by decide), ctrlWord,
    fput_comm (by decide) (by decide) (by decide)]

theorem ctrlWord_clear (v a : Nat) : ctrlWord (fput F.HLD_EL_CTRL_CLEAR v a) = ctrlWord v := by
  rw [ctrlWord, fput_fput_same (by decide), ctrlWord]

section Registers
variable {s : State} {d : DieId}

theorem elSelect_outside {e : Nat} (h : 5888 ≤ e) : elSelect d e s = s := by simp [elSelect, h]

theorem elSelect_inside {e : Nat} (h : e < 5888) : elSelect d e s = s.onDie d (fun x =>
    { (x.setRf Reg.HLD_EL_SEL F.HLD_EL_SEL_ELEMENT e).setReg64 Reg.HLD_EL_MAN (manWord (x.elem e)) with
      elSnap := x.elem e, elStale := stale s e }) := by
  simp [elSelect, Nat.not_le.2 h]

theorem elCtrl_shut (h : (s.die d).isDecl = false ∨ (s.die d).expert 1 = false) (v : Nat) : elCtrl d v s = s := by
  rcases h with h | h <;> simp [elCtrl, h]

theorem elMan_shut (h : (s.die d).isDecl = false ∨ (s.die d).expert 1 = false) (v : Nat) : elMan d v s = s := by
  rcases h with h | h <;> simp [elMan, h]

variable (hd : (s.die d).isDecl = true) (he : (s.die d).expert 1 = true)
include hd he

theorem elCtrl_asks {v : Nat} {r : LoopReq} (hr : ctrlReq (s.die d) v = some r) : elCtrl d v s =
    loopReq (putWord s d Reg.HLD_EL_CTRL (ctrlWord v)) d ((s.die d).rf Reg.HLD_EL_SEL F.HLD_EL_SEL_ELEMENT) 1 r := by
  simp [elCtrl, ctrlWord, hd, he, hr]

/-- The manual codes that a word pair of HLD_EL_MAN holds. -/
def Elem.withMan (w : Nat) (el : Elem) : Elem :=
  { el with manHtr := bitsOf w 15 0, manPin := bitsOf w 27 16, manX2 := bitOf w 28, manGate := bitsOf w 45 32 }

theorem elMan_open (v : Nat) : elMan d v s =
    let s1 := putWord64 s d Reg.HLD_EL_MAN v
    let w := (s1.die d).reg64 Reg.HLD_EL_MAN
    let e := (s.die d).rf Reg.HLD_EL_SEL F.HLD_EL_SEL_ELEMENT
    let s2 := s1.onDie d (·.onElem e (·.withMan w))
    if ((s.die d).elem e).mode = 1 then
      loopReq s2 d e 1 ⟨some 1, false, false, bitsOf w 15 0, bitsOf w 27 16, bitOf w 28, bitsOf w 45 32, 0⟩ else s2 := by
  simp only [elMan, hd, he, Bool.not_true, Bool.or_self, Bool.false_eq_true, if_false]
  rfl

end Registers

/-! ## Dozing clusters (R210) -/

section Doze
variable {s : State} {d : DieId} {c : Nat}

theorem clusterDoze_busy (h : ∃ p ∈ (s.die d).hold, bankOf p.1 = c ∧ p.2.active = true) : clusterDoze d c s = s := by
  have hany : (s.die d).hold.any (fun p => bankOf p.1 = c && p.2.active) = true := by simpa using h
  simp only [clusterDoze, hany, Bool.true_or, if_true]

/-- The idle engines of a cluster without work doze (R210). -/
theorem clusterDoze_idle (he : ∀ e ∈ clusterEngines c, ((s.die d).eng.engine e).deque = [] ∧ ((s.die d).eng.engine e).running = none)
    (ha : ∀ p ∈ (s.die d).hold, bankOf p.1 = c → p.2.active = false) (hd : (s.die d).eng.dozing c = false) : clusterDoze d c s =
      s.onDie d (·.onEng (fun g => { (clusterEngines c).foldl (fun g e => g.onEngine e (fun n =>
        if n.state = 0 then { n with state := 2 } else n)) g with doze := g.doze ||| BitVec.ofNat 8 (2 ^ c) })) := by
  have hactive : (s.die d).hold.any (fun p => bankOf p.1 = c && p.2.active) = false := by
    simpa using ha
  have hwork : (clusterEngines c).any (fun e => !((s.die d).eng.engine e).deque.isEmpty || ((s.die d).eng.engine e).running.isSome) = false := by
    simpa using fun e h => he e h
  simp only [clusterDoze, hactive, hwork, hd, Bool.or_self, Bool.false_eq_true, if_false]

end Doze

/-! ## What completing a command leaves of the loops -/

theorem hold_onDie (s : State) (d e : DieId) (f : Die → Die) (h : ∀ x, (f x).hold = x.hold) : ((s.onDie e f).die d).hold = (s.die d).hold := by
  by_cases hde : d = e
  · rw [hde, State.die_onDie_same, h]
  · rw [State.die_onDie_other s hde]

theorem raiseVec_hold (s : State) (d e : DieId) (f v : Nat) : ((raiseVec s e f v).die d).hold = (s.die d).hold := by
  unfold raiseVec
  simp only
  split
  · exact hold_onDie s d e _ fun _ => rfl
  · rw [State.die_emit]

theorem coalesce_hold (s : State) (d e : DieId) (f r : Nat) (irq : Bool) : ((coalesce s e f r irq).die d).hold = (s.die d).hold := by
  unfold coalesce
  extract_lets x g g' s1 need
  have h1 : (s1.die d).hold = (s.die d).hold := hold_onDie s d e _ fun _ => rfl
  split
  · exact (raiseVec_hold ..).trans ((hold_onDie s1 d e _ fun x => x.onRing_hold ..).trans h1)
  · exact h1

theorem writeEntry_hold (s : State) (d e : DieId) (f r : Nat) (bytes : List Byte) (irq : Bool) :
    ((writeEntry s e f r bytes irq).die d).hold = (s.die d).hold := by
  unfold writeEntry
  extract_lets x g s1 m s2
  have h2 : (s2.die d).hold = (s.die d).hold := hold_onDie s1 d e _ fun _ => rfl
  rw [coalesce_hold, State.die_emit, h2]

theorem writeCpl_hold (s : State) (d e : DieId) (f cq : Nat) (bytes : List Byte) (irq : Bool) :
    ((writeCpl s e f cq bytes irq).die d).hold = (s.die d).hold := by
  unfold writeCpl
  simp only
  split
  · rfl
  · split
    · exact hold_onDie s d e _ fun _ => rfl
    · exact writeEntry_hold ..

theorem count_hold (s : State) (d e : DieId) (k : Nat) (f : Fld) (n : Nat) : ((s.count e k f n).die d).hold = (s.die d).hold :=
  hold_onDie s d e _ fun x => x.count_hold ..

theorem Die.onCport_hold (x : Die) (p : Nat) (f : CPort → CPort) : (x.onCport p f).hold = x.hold := rfl

theorem onCport_hold (s : State) (d e : DieId) (p : Nat) (f : CPort → CPort) : ((s.onDie e (·.onCport p f)).die d).hold = (s.die d).hold :=
  hold_onDie s d e _ fun x => x.onCport_hold p f

theorem dropTx_hold (s : State) (d e : DieId) (p q : Nat) : ((dropTx s e p q).die d).hold = (s.die d).hold := by
  refine ((OnlyRecords.raise _ e 138 0 (by decide)).die_hold d).trans (hold_onDie s d e _ fun x => ?_)
  exact (Die.onCport_hold ..).trans (x.count_hold ..)

theorem enqueue_hold (s : State) (d e : DieId) (p q : Nat) (f : TxFrame) : ((enqueue s e p q f).1.die d).hold = (s.die d).hold := by
  unfold enqueue
  extract_lets x c n depth lim used full t
  split
  · rfl
  · split
    · exact dropTx_hold ..
    · exact hold_onDie s d e _ fun _ => rfl

theorem egress_hold (s : State) (d e : DieId) (p cls : Nat) (queue : Option Nat) (zsl : Bool) (f : TxFrame) :
    ((egress s e p cls queue zsl f).1.die d).hold = (s.die d).hold := by
  unfold egress
  simp only
  split
  · exact enqueue_hold ..
  · split
    · exact enqueue_hold ..
    · split
      · exact (enqueue_hold ..).trans (count_hold ..)
      · exact enqueue_hold ..
      · exact enqueue_hold ..

theorem sendVsp_hold (s : State) (d e : DieId) (src : VspFrom) (cls : Nat) (queue : Option Nat) (yellow trump : Bool) (msg : List Byte) :
    ((sendVsp s e src cls queue yellow trump msg).die d).hold = (s.die d).hold := by
  unfold sendVsp sendTrump askPeer
  simp only
  split
  · split
    · exact (onCport_hold ..).trans (egress_hold ..)
    · exact egress_hold ..
  · split
    · exact hold_onDie s d e _ fun _ => rfl
    · rfl

theorem answer_hold (s : State) (d e : DieId) (id reftype refseq type : Nat) (g : Egr) (src : VspFrom) (body : List Byte) :
    ((answer s e id reftype refseq type g src body).die d).hold = (s.die d).hold := by
  unfold answer
  extract_lets s1 s2
  have h1 : (s1.die d).hold = (s.die d).hold := by
    unfold s1
    split
    · exact hold_onDie s d e _ fun x => by split <;> rfl
    · rfl
  have h2 : (s2.die d).hold = (s1.die d).hold := by
    unfold s2 trumpDone
    split
    · split
      · exact hold_onDie s1 d _ _ fun _ => rfl
      · rfl
    · rfl
  refine ((OnlyRecords.mirror _ e _).die_hold d).trans ?_
  unfold sendAgent
  simp only
  split
  · exact h2.trans h1
  · refine (sendVsp_hold ..).trans (Eq.trans ?_ (h2.trans h1))
    exact hold_onDie s2 d e _ fun _ => rfl

theorem complete_hold (s : State) (d e : DieId) (o : Origin) (status result frac aux : Nat) :
    ((complete s e o status result frac aux).die d).hold = (s.die d).hold := by
  cases o with
  | none => rfl
  | ring fn ring tag dflags opcode =>
    simp only [complete]
    split
    · rfl
    · exact writeCpl_hold ..
  | vsp src agent seq cls queue yellow =>
    simp only [complete]
    split <;> exact answer_hold ..

/-- A command that ends leaves the states of the elements. -/
theorem finish_hold (s : State) (d e : DieId) (id status result frac aux : Nat) :
    ((finish s e id status result frac aux).die d).hold = (s.die d).hold := by
  unfold finish
  split
  · rfl
  · rename_i c _
    extract_lets s1 s2
    have h1 : (s1.die d).hold = (s.die d).hold := hold_onDie s d e _ fun _ => rfl
    have h2 : (s2.die d).hold = (s1.die d).hold := by
      unfold s2
      split
      · rfl
      · split
        · exact ((OnlyRecords.raise _ e 195 0 (by decide)).die_hold d).trans (count_hold ..)
        · exact complete_hold ..
    split
    · exact ((OnlyRecords.mirror s2 e _).die_hold d).trans (h2.trans h1)
    · exact h2.trans h1

theorem loopSetDone_hold (s : State) (d : DieId) (id : Nat) : ((loopSetDone s id).die d).hold = (s.die d).hold := by
  unfold loopSetDone
  split
  · rfl
  · split
    · split
      · exact finish_hold ..
      · rfl
    · rfl

/-! ## Changes of an element's mode (R207) -/

/-- The mode of an element, and the change that waits. -/
def Elem.asked (el : Elem) : Nat × Option (Nat × Bool) := (el.mode, el.modePend)

namespace KeepsElems
variable {d : DieId}

theorem driveOut_asked (s : State) (e : Nat) (out : DriveOut) (code : Nat) (x2 : Bool) (group : Nat) :
    KeepsElems Elem.asked d s (Machine.driveOut s d e out code x2 group) := by
  unfold Machine.driveOut
  extract_lets el s1
  have h1 : KeepsElems Elem.asked d s s1 := .onElem s e _ fun _ => by cases out <;> rfl
  split
  · exact h1.trans (.emit _ _)
  · exact h1

theorem loopOut_asked (s : State) (e : Nat) (out : DriveOut) (code : Nat) (x2 : Bool) (group : Nat) :
    KeepsElems Elem.asked d s (Machine.loopOut s d e out code x2 group) := by
  unfold Machine.loopOut
  split
  · exact .refl s
  · exact driveOut_asked ..

theorem driveGate_asked (s : State) (e g group : Nat) : KeepsElems Elem.asked d s (driveGate s d e g group) := by
  have h1 : KeepsElems Elem.asked d s (s.onDie d (·.onElem e (fun el => { el with uGate := g }))) := .onElem s e _ fun _ => rfl
  exact h1.trans (loopOut_asked ..)

theorem driveManual_asked (s : State) (e : Nat) : KeepsElems Elem.asked d s (driveManual s d e) := by
  unfold driveManual
  extract_lets el s1
  split
  · have h1 : KeepsElems Elem.asked d s s1 := .onElem s e _ fun _ => rfl
    exact (h1.trans (loopOut_asked ..)).trans (loopOut_asked ..)
  · exact driveGate_asked ..

theorem driveOff_asked (s : State) (e : Nat) : KeepsElems Elem.asked d s (driveOff s d e) := by
  unfold driveOff driveCell
  split
  · have h1 : KeepsElems Elem.asked d s (s.onDie d (·.onElem e (fun el => { el with uHtr := 0, uPin := 0 }))) := .onElem s e _ fun _ => rfl
    exact (h1.trans (loopOut_asked ..)).trans (loopOut_asked ..)
  · exact driveGate_asked ..

theorem presetInt_asked (s : State) (e : Nat) : KeepsElems Elem.asked d s (presetInt s d e) := by
  unfold presetInt
  simp only
  split_ifs
  all_goals exact .onElem s e _ fun _ => rfl

theorem missUpdate_asked (s : State) (e : Nat) : KeepsElems Elem.asked d s (Machine.missUpdate s d e) := by
  unfold Machine.missUpdate
  extract_lets el s1
  have h1 : KeepsElems Elem.asked d s s1 := by
    refine KeepsElems.trans ?_ (.count ..)
    exact .onElem s e _ fun _ => rfl
  split
  · exact (h1.trans (.raise ..)).trans (.of_records (.elementEvent ..))
  · exact h1

/-- What a missed update leaves of the elements, the placing of a task leaves too: a task without room is a missed update (R236). -/
theorem placeTask_of {α : Type} {π : Elem → α} (hmiss : ∀ s e, KeepsElems π d s (Machine.missUpdate s d e)) (s : State) (t : Task) :
    KeepsElems π d s (Machine.placeTask s d t) := by
  have hplaced (g : Engines) : KeepsElems π d s (s.onDie d (fun x => { x with eng := g })) := .onDie s _ (fun _ => rfl) rfl
  unfold Machine.placeTask placeIn
  extract_lets g
  split
  · rename_i e spill _
    cases spill
    · exact hplaced _
    · exact (hplaced _).trans (.count ..)
  · exact ((hplaced g).trans (hmiss _ t.elem)).trans (.raise ..)

theorem queueTask_of {α : Type} {π : Elem → α} (hmiss : ∀ s e, KeepsElems π d s (Machine.missUpdate s d e)) (s : State) (e type : Nat) :
    KeepsElems π d s (Machine.queueTask s d e type) := by
  unfold Machine.queueTask
  extract_lets g
  split
  · exact .onEng ..
  · exact .onEng ..
  · split
    · exact .onEng ..
    · exact (onEng s _).trans (placeTask_of hmiss ..)

theorem activate_asked (s : State) (e burst type : Nat) : KeepsElems Elem.asked d s (Machine.activate s d e burst type) := by
  unfold Machine.activate
  extract_lets el s0 s1
  split
  · exact .refl s
  · have h1 : KeepsElems Elem.asked d s s1 := by
      unfold s1
      split
      · exact .onElem s e _ fun _ => rfl
      · exact (KeepsElems.of_readStore (fun _ _ => rfl) s d e).trans (.onElem _ e _ fun _ => rfl)
    exact h1.trans (queueTask_of missUpdate_asked s1 e type)

end KeepsElems

/-- An element that enters another mode has it, and waits for no change. -/
theorem enterMode_asked {s : State} {d : DieId} {e m : Nat} (h : ((s.die d).elem e).mode ≠ m) (keep : Bool) :
    (((enterMode s d e m keep).die d).elem e).asked = (m, none) := by
  have hother : ¬ (m = ((s.die d).elem e).mode ∧ m ≠ 1) := fun hm => h hm.1.symm
  unfold enterMode
  simp only [Bool.and_eq_true, decide_eq_true_eq, hother, if_false]
  generalize (if (decide (m = 1) || decide (m = 3)) = true then stopHandoff s d e else s) = s0
  generalize hs1 : s0.onDie d (fun x => x.onElem e fun el => el.inMode m) = s1
  have entered {u : State} (hu : KeepsElems Elem.asked d s1 u) : ((u.die d).elem e).asked = (m, none) := by
    rw [hu.elem e, ← hs1, State.die_onDie_same, Die.elem_onElem_same]
    rfl
  split
  · split
    · exact entered (.onElem s1 e _ fun _ => rfl)
    · exact entered (.driveManual_asked ..)
  · split
    · exact entered (.onElem s1 e _ fun _ => rfl)
    · split
      · exact entered (.driveOff_asked ..)
      · split
        · have hpresent : KeepsElems Elem.asked d s1 (s1.onDie d fun x => x.onElem e fun el => el.present) := .onElem s1 e _ fun _ => rfl
          exact entered ((hpresent.trans (.presetInt_asked ..)).trans (.activate_asked ..))
        · have hcleared : KeepsElems Elem.asked d s1 (s1.onDie d fun x => x.onElem e fun el => { el with int := .zero, prop := .zero }) :=
            .onElem s1 e _ fun _ => rfl
          exact entered (hcleared.trans (.activate_asked ..))

section Apply
variable {s : State} {d : DieId} {e : Nat}

theorem loopModeApply_none (h : ((s.die d).elem e).modePend = none) : loopModeApply d e s = s := by simp only [loopModeApply, h]

variable {m : Nat} {keep : Bool} (h : ((s.die d).elem e).modePend = some (m, keep))
include h

theorem loopModeApply_waits (hw : stale s e = true ∨ (s.die d).inRun e = true) : loopModeApply d e s = s := by
  rcases hw with hw | hw <;> simp [loopModeApply, h, hw]

theorem loopModeApply_due (hst : stale s e = false) (hr : (s.die d).inRun e = false) :
    loopModeApply d e s = loopSetDone (enterMode s d e m keep) ((s.die d).elem e).modeCmd := by
  simp [loopModeApply, h, hst, hr]

end Apply

/-- The element of a change that fell due has its new mode in every state that differs from the answered one in records alone. -/
theorem loopModeApply_entered {s t : State} {d : DieId} {e m id : Nat} {keep : Bool} (hm : ((s.die d).elem e).mode ≠ m)
    (ht : OnlyRecords (loopSetDone (enterMode s d e m keep) id) t) : ((t.die d).elem e).mode = m ∧ ((t.die d).elem e).modePend = none := by
  have hkeeps : (t.die d).elem e = ((enterMode s d e m keep).die d).elem e := by
    simp only [Die.elem, ht.die_hold d, loopSetDone_hold]
  rw [hkeeps]
  exact Prod.ext_iff.1 (enterMode_asked hm keep)

section Rows
variable (d : DieId) (s : State)

theorem exec_hldElSelect (n : BitVec 13) : exec (.hldElSelect d n) s = doneBar d (elSelect d n.toNat) s := rfl

theorem exec_hldElApply (v : Word32) : exec (.hldElApply d v) s = doneBar d (elCtrl d (fput F.HLD_EL_CTRL_APPLY v.toNat 1)) s := rfl

theorem exec_hldElClear : exec (.hldElClear d) s =
    doneBar d (fun s => elCtrl d (fput F.HLD_EL_CTRL_CLEAR ((s.die d).reg Reg.HLD_EL_CTRL) 1) s) s := rfl

theorem exec_hldElManWrite (v : Word64) : exec (.hldElManWrite d v) s = doneBar d (elMan d v.toNat) s := rfl

end Rows

/-- Settles O26: each row by what it does when its die lets it act; a change of mode that falls due by what entering a mode leaves, and by
the elements that the end of its LOOP_SET keeps. -/
theorem elementsByRegisters : Obligations.ElementsByRegisters := by
  unfold Obligations.ElementsByRegisters
  intro d s x
  refine ⟨?shut, ?down, fun hb => ⟨?outside, ?inside, ?inexpert, fun hd he => ?expert⟩, fun hr => ⟨?idle, ?busy⟩, ?pending⟩
  case shut =>
    exact fun hb => ⟨fun n => .of_doneBar_shut hb (exec_hldElSelect ..), fun v => .of_doneBar_shut hb (exec_hldElApply ..),
      .of_doneBar_shut hb (exec_hldElClear ..), fun v => .of_doneBar_shut hb (exec_hldElManWrite ..)⟩
  case down => exact fun hr c => Makes.of_done (congrArg done (if_neg (Bool.eq_false_iff.1 hr)))
  case outside =>
    intro n hn
    have hmade := Makes.of_doneBar hb (exec_hldElSelect d s n)
    rwa [elSelect_outside hn] at hmade
  case inside =>
    intro n hn
    have hmade := Makes.of_doneBar hb (exec_hldElSelect d s n)
    rwa [elSelect_inside hn] at hmade
  case inexpert =>
    intro h
    refine ⟨fun v => ?_, ?_, fun v => ?_⟩
    · have hmade := Makes.of_doneBar hb (exec_hldElApply d s v)
      rwa [elCtrl_shut h] at hmade
    · have hmade := Makes.of_doneBar hb (exec_hldElClear d s)
      rwa [elCtrl_shut h] at hmade
    · have hmade := Makes.of_doneBar hb (exec_hldElManWrite d s v)
      rwa [elMan_shut h] at hmade
  case expert =>
    refine ⟨fun v r hreq => ?_, fun r hreq => ?_, fun v => ?_⟩
    · have hmade := Makes.of_doneBar hb (exec_hldElApply d s v)
      rwa [elCtrl_asks hd he hreq, ctrlWord_apply] at hmade
    · have hmade := Makes.of_doneBar hb (exec_hldElClear d s)
      rwa [elCtrl_asks hd he hreq, ctrlWord_clear] at hmade
    · have hmade := Makes.of_doneBar hb (exec_hldElManWrite d s v)
      rw [elMan_open hd he] at hmade
      exact ⟨fun hm => by rwa [if_neg hm] at hmade, fun hm => by rwa [if_pos hm] at hmade⟩
  case idle =>
    intro c he ha hd
    have hmade : Makes (.clusterDoze d c) s (clusterDoze d c.val s) := Makes.of_doneUp hr rfl
    rwa [clusterDoze_idle he ha hd] at hmade
  case busy =>
    intro c h
    have hmade : Makes (.clusterDoze d c) s (clusterDoze d c.val s) := Makes.of_doneUp hr rfl
    rwa [clusterDoze_busy h] at hmade
  case pending =>
    intro e el
    refine ⟨fun h => Makes.of_done (congrArg done (loopModeApply_none h)), fun m keep h => ⟨fun hw => ?_, fun hst hrun => ?_⟩⟩
    · exact Makes.of_done (congrArg done (loopModeApply_waits h hw))
    · have happlied : exec (.loopModeApply d e) s = done (loopSetDone (enterMode s d e m keep) el.modeCmd) :=
        congrArg done (loopModeApply_due h hst hrun)
      exact ⟨Makes.of_done happlied, fun hm => Answers.of_done happlied fun t ht => loopModeApply_entered hm ht⟩

end Sys2Proof.Machine
end

section
/-!
PROOFS. A DITHER_RUN's stimulus and windows (R226, R227).
-/

namespace Sys2Proof.Machine

section Stimulus
variable {s : State} {d : DieId} {b : Nat} (hd : s.declarer = some d)
include hd

theorem stimUpdate_none (h : (s.die d).dither.find? (fun r => r.bank = b) = none) : stimUpdate b s = s := by simp only [stimUpdate, hd, h]

variable {r : DitherRun} (hr : (s.die d).dither.find? (fun r => r.bank = b) = some r)
include hr

/-- A STEP stays, and nothing has begun in the windows before the stimulus. -/
theorem stimUpdate_still (h : r.begun = false ∨ r.stim = 0) : stimUpdate b s = s := by
  rcases h with h | h <;> simp [stimUpdate, hd, hr, h]

/-- A stimulus steps once its period has run. -/
theorem stimUpdate_early (h : (s.ticks - r.lastStim) / usT < if r.stim = 2 then r.p2 else 1) : stimUpdate b s = s := by
  simp [stimUpdate, hd, hr, h]

theorem stimUpdate_chirp (hb : r.begun = true) (hs : r.stim = 1) (h : 1 ≤ (s.ticks - r.lastStim) / usT) : stimUpdate b s =
    stimAll s d { r with elapsed := r.elapsed + 1, lastStim := r.lastStim + usT,
                         value := chirp r.amp r.p1 r.p2 (r.nwin * r.window) (r.elapsed + 1) } := by
  simp [stimUpdate, hd, hr, hb, hs, Nat.not_lt.2 h]

theorem stimUpdate_prbs (hb : r.begun = true) (hs : r.stim = 2) (h : r.p2 ≤ (s.ticks - r.lastStim) / usT) : stimUpdate b s =
    stimAll s d { r with elapsed := r.elapsed + r.p2, lastStim := r.lastStim + r.p2 * usT, prbs := Config.prbsNext r.p1 r.prbs,
                         value := prbsValue r.amp (Config.prbsNext r.p1 r.prbs) } := by
  simp [stimUpdate, hd, hr, hb, hs, Nat.not_lt.2 h]

end Stimulus

theorem Die.runOf_none {x : Die} {e : Nat} (h : ∀ r ∈ x.dither, ∀ t ∈ r.left, t.elem ≠ e) : x.runOf e = none := by
  have hn : x.dither.find? (fun r => r.left.any (fun t => t.elem = e)) = none := by simpa using h
  simp only [Die.runOf, hn]

theorem Die.runOf_some {x : Die} {e : Nat} {r : DitherRun} {t : DitherTarget}
    (hr : x.dither.find? (fun r => r.left.any (fun t => t.elem = e)) = some r) (ht : r.left.find? (fun t => t.elem = e) = some t) :
    x.runOf e = some (r, t) := by
  simp only [Die.runOf, hr, ht, Option.map_some]

/-- A run with what it keeps of one of its targets replaced. -/
def DitherRun.onTarget (r : DitherRun) (e : Nat) (f : DitherTarget → DitherTarget) : DitherRun :=
  { r with left := r.left.map (fun t => if t.elem = e then f t else t) }

section Window
variable {s : State} {d : DieId} {e : Nat} (hd : s.declarer = some d)
include hd

theorem windowEnd_none (h : (s.die d).runOf e = none) : windowEnd e s = s := by simp only [windowEnd, hd, h]

variable {r : DitherRun} {t : DitherTarget} (hr : (s.die d).runOf e = some (r, t))
include hr

theorem windowEnd_early (ht : s.ticks - t.since < r.window * usT) : windowEnd e s = s := by simp only [windowEnd, hd, hr, ht, if_true]

variable (ht : r.window * usT ≤ s.ticks - t.since)
include ht

/-- A window with fewer than four conversions goes on, unless a calibration keeps them from coming (R227, R229). -/
theorem windowEnd_extends (hf : ((s.bank (bankOf e)).chan (chanOf e)).store.count < 4) (hst : stale s e = false) :
    windowEnd e s = setRun s d (r.onTarget e (fun t => { t with ext := true })) := by
  simp only [windowEnd, hd, hr, Nat.not_lt.2 ht, hf, hst, decide_true, Bool.not_false, Bool.and_self, if_true, if_false]
  rfl

variable (hf : ¬ ((s.bank (bankOf e)).chan (chanOf e)).store.count < 4 ∨ stale s e = true) {s1 : State} {st : Store}
  (hs : readStore s d e = (s1, st))
include hf hs

/-- A window ends with its record, and the target leaves its run with the last one (R227). -/
theorem windowEnd_last (hw : r.pre + r.nwin ≤ t.win + 1) : windowEnd e s = ditherLeave (ditherRecord s1 d r t st false true) d r.cmd e := by
  have hgo : (decide (((s.bank (bankOf e)).chan (chanOf e)).store.count < 4) && !stale s e) = false := by
    rcases hf with h | h <;> simp [h]
  simp only [windowEnd, hd, hr, Nat.not_lt.2 ht, hgo, hs, hw, decide_true, Bool.false_eq_true, if_false, if_true]

/-- The window after it begins, and with the first one after those before the stimulus, the stimulus too. -/
theorem windowEnd_next (hw : t.win + 1 < r.pre + r.nwin) :
    let r1 := r.onTarget e (fun _ => ⟨e, t.win + 1, s.ticks, false, stale s e⟩)
    windowEnd e s = if r.begun = false ∧ r.pre ≤ t.win + 1 then stimBegin (setRun (ditherRecord s1 d r t st false false) d r1) d r1
      else setRun (ditherRecord s1 d r t st false false) d r1 := by
  have hgo : (decide (((s.bank (bankOf e)).chan (chanOf e)).store.count < 4) && !stale s e) = false := by
    rcases hf with h | h <;> simp [h]
  simp only [windowEnd, hd, hr, Nat.not_lt.2 ht, hgo, hs, Nat.not_le.2 hw, decide_false, Bool.false_eq_true, if_false, Bool.and_eq_true,
    Bool.not_eq_true', decide_eq_true_eq]
  rfl

end Window

/-- Settles O27: the rows of a run by what they do when they are due. -/
theorem ditherRunsAdvance : Obligations.DitherRunsAdvance := by
  unfold Obligations.DitherRunsAdvance
  refine ⟨fun b s d hd => ⟨?noRun, fun r hr => ?stimulus⟩, fun e s d hd => ⟨?noTarget, fun r t hr ht => ?window⟩⟩
  case noRun => exact fun h => Makes.of_done (congrArg done (stimUpdate_none hd h))
  case stimulus =>
    refine ⟨fun h => Makes.of_done (congrArg done (stimUpdate_still hd hr h)), fun hb hs h => ?early,
      fun hb hs h => Makes.of_done (congrArg done (stimUpdate_chirp hd hr hb hs h)), ?prbs⟩
    case early => exact Makes.of_done (congrArg done (stimUpdate_early hd hr (by simpa [hs] using h)))
    case prbs => exact fun hb hs h => Makes.of_done (congrArg done (stimUpdate_prbs hd hr hb hs h))
  case noTarget => exact fun h => Makes.of_done (congrArg done (windowEnd_none hd (Die.runOf_none h)))
  case window =>
    have hrun := Die.runOf_some hr ht
    intro few upd
    refine ⟨fun h => Makes.of_done (congrArg done (windowEnd_early hd hrun h)),
      fun h hf hst => Makes.of_done (congrArg done (windowEnd_extends hd hrun h hf hst)), fun h hf s1 st hs => ⟨fun hw hb => ?next,
      fun hw hb hp => ?begins, fun hw => Makes.of_done (congrArg done (windowEnd_last hd hrun h hf hs hw))⟩⟩
    case next =>
      have hno : ¬ (r.begun = false ∧ r.pre ≤ t.win + 1) := by
        rcases hb with hb | hb <;> simp [hb]
      exact Makes.of_done (congrArg done ((windowEnd_next hd hrun h hf hs hw).trans (if_neg hno)))
    case begins => exact Makes.of_done (congrArg done ((windowEnd_next hd hrun h hf hs hw).trans (if_pos ⟨hb, hp⟩)))

end Sys2Proof.Machine
end

section
/-!
PROOFS. The hold engines of a die: what placing a task, fencing an engine and choosing work leave of each engine (R233, R236, R241).
-/

namespace Sys2Proof.Machine

theorem State.onDie_congr {s : State} {d : DieId} {f g : Die → Die} (h : f (s.die d) = g (s.die d)) : s.onDie d f = s.onDie d g := by
  simp only [State.onDie, h]

/-! ## One engine of several -/

namespace Engines
variable (g : Engines) (e : Nat)

@[simp] theorem engine_setEngine_same (v : Engine) : (g.setEngine e v).engine e = v := spGet_set_same _ _ _ _

variable {e} in
theorem engine_setEngine_other {f : Nat} (h : f ≠ e) (v : Engine) : (g.setEngine e v).engine f = g.engine f := spGet_set_other _ h _ _

@[simp] theorem engine_onEngine_same (u : Engine → Engine) : (g.onEngine e u).engine e = u (g.engine e) := g.engine_setEngine_same e _

variable {e} in
theorem engine_onEngine_other {f : Nat} (h : f ≠ e) (u : Engine → Engine) : (g.onEngine e u).engine f = g.engine f :=
  g.engine_setEngine_other h _

theorem engine_setDoze (b : BitVec 8) : ({ g with doze := b } : Engines).engine e = g.engine e := rfl
theorem engine_setParked (l : List Task) : ({ g with parked := l } : Engines).engine e = g.engine e := rfl
@[simp] theorem onEngine_parked (u : Engine → Engine) : (g.onEngine e u).parked = g.parked := rfl
@[simp] theorem onEngine_armed (u : Engine → Engine) : (g.onEngine e u).armed = g.armed := rfl

variable {g e} in
/-- A property of engine f after a change of engine e. -/
theorem closed_onEngine {P : Engine → Prop} {u : Engine → Engine} {f : Nat} (h : f ≠ e → P (g.engine f)) (hu : f = e → P (u (g.engine f))) :
    P ((g.onEngine e u).engine f) := by
  by_cases hf : f = e
  · subst hf
    rw [engine_onEngine_same]
    exact hu rfl
  · rw [engine_onEngine_other _ hf]
    exact h hf

end Engines

/-! ## Placing a task -/

/-- A property of an engine that stays when its cluster wakes and when a task joins its deque. -/
structure Engine.KeptBy (P : Engine → Prop) (t : Task) : Prop where
  wake : ∀ n, n.state = 2 → P n → P { n with state := 0 }
  push : ∀ n, P n → P { n with deque := n.deque ++ [t] }

section Placing
variable {P : Engine → Prop} {f : Nat}

theorem Engines.closed_wake {g : Engines} (hw : ∀ n, n.state = 2 → P n → P { n with state := 0 }) (h : P (g.engine f)) (c : Nat) :
    P ((g.wake c).engine f) := by
  have one (n : Engine) (hn : P n) : P (if n.state = 2 then { n with state := 0 } else n) := by
    by_cases h2 : n.state = 2
    · rw [if_pos h2]; exact hw n h2 hn
    · rwa [if_neg h2]
  have fold (l : List Nat) : ∀ g : Engines, P (g.engine f) →
      P ((l.foldl (fun g e => g.onEngine e (fun n => if n.state = 2 then { n with state := 0 } else n)) g).engine f) := by
    induction l with
    | nil => exact fun _ h => h
    | cons a l ih => exact fun g h => ih _ (closed_onEngine (fun _ => h) fun _ => one _ h)
  unfold Engines.wake
  split
  · rw [engine_setDoze]
    exact fold (clusterEngines c) g h
  · exact h

theorem eng_onDie (s : State) (d c : DieId) {f : Die → Die} (hf : ∀ x, (f x).eng = x.eng) :
    ((s.onDie d f).die c).eng = (s.die c).eng := by
  by_cases h : c = d
  · subst h; rw [State.die_onDie_same, hf]
  · rw [s.die_onDie_other h]

theorem elementEvent_eng (s : State) (d c : DieId) (e code : Nat) (byBank : Bool) :
    ((elementEvent s d e code byBank).die c).eng = (s.die c).eng := by
  unfold elementEvent
  split
  · rfl
  · exact (OnlyRecords.eventMirrored ..).die_eng c

theorem raise_eng (s : State) (d c : DieId) (src inst : Nat) : ((raise s d src inst).die c).eng = (s.die c).eng := by
  unfold raise
  split
  · exact eng_onDie s d c fun x => (congrArg Die.eng (x.quiet_occur src inst true _) :)
  · rfl

theorem missUpdate_eng (s : State) (d c : DieId) (e : Nat) : ((missUpdate s d e).die c).eng = (s.die c).eng := by
  unfold missUpdate
  extract_lets el s1
  have h1 : (s1.die c).eng = (s.die c).eng :=
    (eng_onDie _ d c fun x => Die.count_eng x _ _ _).trans (eng_onDie s d c fun _ => rfl)
  split
  · rw [elementEvent_eng, raise_eng, h1]
  · exact h1

/-- Placing a task wakes clusters and adds the task to a deque, or does neither. -/
theorem closed_placeIn {s : State} {d : DieId} {t : Task} (hP : Engine.KeptBy P t) (h : P ((s.die d).eng.engine f)) (c : Nat) :
    P (((placeIn s d c t).die d).eng.engine f) := by
  have hw : P (((s.die d).eng.wake c).engine f) := Engines.closed_wake hP.wake h c
  unfold placeIn
  extract_lets g
  split
  · rename_i e spill _
    have hp : P ((g.push e t).engine f) := Engines.closed_onEngine (fun _ => Engines.closed_wake hP.wake hw _)
      fun _ => hP.push _ (Engines.closed_wake hP.wake hw _)
    extract_lets s1
    have h1 : P ((s1.die d).eng.engine f) := by rwa [State.die_onDie_same]
    split
    · rwa [State.count, State.die_onDie_same, Die.count_eng]
    · exact h1
  · rw [(OnlyRecords.raise _ d 5 0 (by decide)).die_eng d, missUpdate_eng, State.die_onDie_same]
    exact hw

theorem closed_foldPlaceIn {d : DieId} {c : Nat} (l : List Task) (hP : ∀ t ∈ l, Engine.KeptBy P t) : ∀ s : State,
    P ((s.die d).eng.engine f) → P (((l.foldl (fun s t => placeIn s d c t) s).die d).eng.engine f) := by
  induction l with
  | nil => exact fun _ h => h
  | cons t l ih => exact fun s h => ih (fun u hu => hP u (List.mem_cons_of_mem t hu)) _ (closed_placeIn (hP t (by simp)) h c)

end Placing

/-! ## Fencing an engine (R241) -/

/-- An engine that is fenced. -/
def Engine.fenced (n : Engine) (cause : Nat) : Engine :=
  { n with state := 3, fenceCause := cause, running := none, merged := none, deque := [], testing := none, fenceReq := false }

/-- Fencing engine e makes it a fenced one and places its tasks, unless it is fenced already. -/
theorem closed_fenceEngine {P : Engine → Prop} {s : State} {d : DieId} {e f cause : Nat} (hP : ∀ t, Engine.KeptBy P t)
    (h : (f = e → ((s.die d).eng.engine e).state = 3) → P ((s.die d).eng.engine f))
    (he : f = e → ((s.die d).eng.engine e).state ≠ 3 → P (((s.die d).eng.engine e).fenced cause)) :
    P (((fenceEngine s d e cause).die d).eng.engine f) := by
  unfold fenceEngine
  extract_lets n moved s1
  split
  · rename_i h3
    exact h fun _ => h3
  · rename_i h3
    refine closed_foldPlaceIn _ (fun t _ => hP t) _ ?_
    rw [(OnlyRecords.raise _ d 3 0 (by decide)).die_eng d, State.die_onDie_same, Die.onEng_eng]
    exact Engines.closed_onEngine (fun hf => h fun hfe => absurd hfe hf) fun hf => by subst hf; exact he rfl h3

/-! ## Choosing work (R233) -/

/-- What a search through a list keeps is of one of its members, when each step keeps what it has or takes something of its member. -/
theorem exists_of_foldl_some {α β : Type} {f : Option β → α → Option β} {R : α → β → Prop}
    (hf : ∀ a x b, f a x = some b → a = some b ∨ R x b) (l : List α) {b : β} (h : l.foldl f none = some b) : ∃ x ∈ l, R x b := by
  have fold (l : List α) : ∀ a, l.foldl f a = some b → a = some b ∨ ∃ x ∈ l, R x b := by
    induction l with
    | nil => exact fun a h => .inl h
    | cons x l ih =>
      intro a h
      rcases ih _ h with h | ⟨y, hy, hR⟩
      · exact (hf a x b h).imp_right fun hR => ⟨x, by simp, hR⟩
      · exact .inr ⟨y, List.mem_cons_of_mem x hy, hR⟩
  exact (fold l none h).resolve_left (by simp)

theorem bestHead_mem {l : List Task} {t : Task} (h : bestHead l = some t) : t ∈ l := by
  obtain ⟨u, hu, rfl⟩ := exists_of_foldl_some (R := fun u t => u = t) (fun a u b hb => by
    cases a with
    | none => exact .inr (Option.some.inj hb)
    | some v => grind) l h
  exact hu

theorem bestTail_mem {l : List Task} {t : Task} (h : bestTail l = some t) : t ∈ l := by
  obtain ⟨u, hu, rfl⟩ := exists_of_foldl_some (R := fun u t => u = t) (fun a u b hb => by
    cases a with
    | none => exact .inr (Option.some.inj hb)
    | some v => grind) _ h
  exact (List.mem_filter.1 hu).1

theorem victim_mem {g : Engines} {l : List Nat} {f : Nat} {t : Task} (h : victim g l = some (f, t)) : f ∈ l ∧ t ∈ (g.engine f).deque := by
  obtain ⟨e, he, rfl, ht⟩ := exists_of_foldl_some (R := fun e (p : Nat × Task) => p.1 = e ∧ bestTail (g.engine e).deque = some p.2)
    (fun a e b hb => by cases ht : bestTail (g.engine e).deque <;> cases a <;> simp only [ht] at hb <;> grind) l h
  exact ⟨he, bestTail_mem ht⟩

/-- The task an engine takes stands in a deque of the die. -/
theorem Engines.choose_mem {g : Engines} {e f how : Nat} {t : Task} (he : e < 64) (h : g.choose e = some (f, t, how)) :
    f < 64 ∧ t ∈ (g.engine f).deque := by
  have near {c : Nat} (hc : c < 8) {f : Nat} (hf : f ∈ clusterEngines c) : f < 64 := by
    simp only [clusterEngines, List.mem_map, List.mem_range] at hf
    omega
  unfold choose at h
  split at h
  · rename_i hb
    cases h
    exact ⟨he, bestHead_mem hb⟩
  · extract_lets c best at h
    split at h
    · rename_i hv
      cases h
      obtain ⟨hf, ht⟩ := victim_mem hv
      exact ⟨near (by omega) (List.mem_filter.1 hf).1, ht⟩
    · obtain ⟨⟨f', t'⟩, hb, hp⟩ := Option.map_eq_some_iff.1 h
      cases hp
      obtain ⟨k, hk, hv⟩ := exists_of_foldl_some (R := fun k p => victim g (clusterEngines k) = some p) (fun a k b hb => by
        cases hv : victim g (clusterEngines k) <;> cases a <;> simp only [hv] at hb <;> grind) _ hb
      obtain ⟨hf, ht⟩ := victim_mem hv
      refine ⟨near ?_ hf, ht⟩
      simp only [clustersFrom, List.mem_map, List.mem_range] at hk
      omega

theorem Engines.choose_own {g : Engines} {e : Nat} {t : Task} (h : bestHead (g.engine e).deque = some t) : g.choose e = some (e, t, 0) := by
  simp [choose, h]

/-- With every deque empty there is nothing to take. -/
theorem Engines.choose_none {g : Engines} {e : Nat} (he : e < 64) (h : ∀ f < 64, (g.engine f).deque = []) : g.choose e = none := by
  rw [Option.eq_none_iff_forall_ne_some]
  rintro ⟨f, t, how⟩ hc
  obtain ⟨hf, ht⟩ := choose_mem he hc
  rw [h f hf] at ht
  cases ht

/-! ## Dispatch -/

section Dispatch
variable {s : State} {d : DieId} {e : Nat}

theorem dispatchOnce_none (hf : ((s.die d).eng.engine e).fenceReq = false) (hc : (s.die d).eng.choose e = none) :
    dispatchOnce s d e = (s.onDie d (·.onEng (·.onEngine e (fun n => { n with state := 0, running := none, stack := [] }))), false) := by
  simp [dispatchOnce, hf, hc]

theorem dispatchOnce_own {t : Task} (hf : ((s.die d).eng.engine e).fenceReq = false) (hc : (s.die d).eng.choose e = some (e, t, 0)) :
    dispatchOnce s d e =
      (s.onDie d (·.onEng (fun g => (g.take e t).onEngine e (fun n => n.start t g.active s.ticks))), decide (6 ≤ t.type)) := by
  simp [dispatchOnce, hf, hc]

/-- DISPATCH takes one task, or none, when the task it takes is not of a reserved type (R230). -/
theorem dispatchEng_once (h : (dispatchOnce s d e).2 = false) : dispatchEng s d e = (dispatchOnce s d e).1 := by
  have : dispatchOnce s d e = ((dispatchOnce s d e).1, false) := by rw [← h]
  rw [dispatchEng, dispatchN, this]

/-- While no task of a reserved type is queued, DISPATCH takes one task or none. -/
theorem dispatchOnce_sound (he : e < 64) (h : ∀ f < 64, ∀ t ∈ ((s.die d).eng.engine f).deque, t.type < 6) : (dispatchOnce s d e).2 = false := by
  unfold dispatchOnce
  extract_lets g n
  split
  · rfl
  · split
    · rfl
    · rename_i f t how hc
      obtain ⟨hf, ht⟩ := Engines.choose_mem he hc
      exact decide_eq_false (by have := h f hf t ht; omega)

end Dispatch

end Sys2Proof.Machine
end

section
/-!
PROOFS. States that differ in raised sources only (R463): sticky bits, the W1C bits of the running cycle, RAW bits and waiting occurrences.
No work of the hold engines looks at them.
-/

namespace Sys2Proof.Machine

/-- A register word that holds sticky bits of sources. -/
def stickyKey (k : Nat) : Bool := decide (Reg.FLT_STICKY 0 ≤ k) && decide (k < Reg.FLT_STICKY 8)

theorem stickyKey_of_ge {k : Nat} (h : 0x4020 ≤ k) : stickyKey k = false := by
  have : ¬ k < Reg.FLT_STICKY 8 := by unfold Reg.FLT_STICKY; omega
  simp [stickyKey, this]

/-- A die without what raising a source writes, and without its register words. -/
def Die.unraised (x : Die) : Die := { x with regs := [], fresh := [], flt := { x.flt with raw := 0, occ := [] } }

/-- Two dies that differ in raised sources only. -/
structure Die.Alike (x y : Die) : Prop where
  rest : y.unraised = x.unraised
  reg : ∀ k, stickyKey k = false → y.reg k = x.reg k

namespace Die.Alike
variable {x y z : Die}

theorem refl (x : Die) : Alike x x := ⟨rfl, fun _ _ => rfl⟩

theorem symm (h : Alike x y) : Alike y x := ⟨h.rest.symm, fun k hk => (h.reg k hk).symm⟩

theorem trans (h : Alike x y) (k : Alike y z) : Alike x z := ⟨k.rest.trans h.rest, fun j hj => (k.reg j hj).trans (h.reg j hj)⟩

/-- A part of a die that raising leaves. -/
theorem eq {α : Type} (h : Alike x y) (π : Die → α) (hπ : ∀ x, π x.unraised = π x) : π y = π x := by rw [← hπ, h.rest, hπ]

theorem rf (h : Alike x y) {k : Nat} (hk : stickyKey k = false) (f : Fld) : y.rf k f = x.rf k f := congrArg (fget f) (h.reg k hk)

theorem rbit (h : Alike x y) {k : Nat} (hk : stickyKey k = false) (f : Fld) : y.rbit k f = x.rbit k f := congrArg (· != 0) (h.rf hk f)

theorem eng (h : Alike x y) : y.eng = x.eng := h.eq Die.eng fun _ => rfl
theorem ns16 (h : Alike x y) : y.ns16 = x.ns16 := h.eq Die.ns16 fun _ => rfl
theorem running (h : Alike x y) : y.running = x.running := h.eq Die.running fun _ => rfl
theorem isDecl (h : Alike x y) : y.isDecl = x.isDecl := by unfold Die.isDecl Die.role; rw [h.rf (by decide)]
theorem isDummy (h : Alike x y) : y.isDummy = x.isDummy := by unfold Die.isDummy Die.role; rw [h.rf (by decide)]
theorem elem (h : Alike x y) (e : Nat) : y.elem e = x.elem e := h.eq (Die.elem · e) fun _ => rfl
theorem fn (h : Alike x y) (f : Nat) : y.fn f = x.fn f := h.eq (Die.fn · f) fun _ => rfl
theorem ring (h : Alike x y) (f r : Nat) : y.ring f r = x.ring f r := h.eq (Die.ring · f r) fun _ => rfl

/-- A change of a die that leaves its registers and does not look at its raised sources. -/
theorem map (h : Alike x y) (f : Die → Die) (hf : ∀ x, (f x).unraised = (f x.unraised).unraised) (hr : ∀ x k, (f x).reg k = x.reg k) :
    Alike (f x) (f y) := ⟨by rw [hf, h.rest, ← hf], fun k hk => by rw [hr, hr, h.reg k hk]⟩

theorem setReg (h : Alike x y) (k v : Nat) : Alike (x.setReg k v) (y.setReg k v) := by
  refine ⟨h.rest, fun j hj => ?_⟩
  by_cases hjk : j = k
  · subst hjk; rw [Die.reg_setReg_same, Die.reg_setReg_same]
  · rw [Die.reg_setReg_other _ hjk, Die.reg_setReg_other _ hjk, h.reg j hj]

theorem count (h : Alike x y) {k : Nat} (hk : stickyKey k = false) (f : Fld) (n : Nat) : Alike (x.count k f n) (y.count k f n) := by
  unfold Die.count Die.setRf
  rw [h.rf hk, h.reg k hk]
  exact h.setReg k _

theorem onEng (h : Alike x y) (f : Engines → Engines) : Alike (x.onEng f) (y.onEng f) := h.map (·.onEng f) (fun _ => rfl) fun _ _ => rfl

theorem onFn (h : Alike x y) (f : Nat) (g : Fn → Fn) : Alike (x.onFn f g) (y.onFn f g) := h.map (·.onFn f g) (fun _ => rfl) fun _ _ => rfl

theorem onRing (h : Alike x y) (f r : Nat) (g : Ring → Ring) : Alike (x.onRing f r g) (y.onRing f r g) := h.onFn f _

theorem setReg_sticky (x : Die) {k : Nat} (hk : stickyKey k = true) (v : Nat) : Alike x (x.setReg k v) :=
  ⟨rfl, fun _ hj => Die.reg_setReg_other x (fun e => by rw [e, hk] at hj; cases hj) v⟩

theorem setMapBit (h : Alike x y) (k i : Nat) (b : Bool) : Alike (x.setMapBit k i b) (y.setMapBit k i b) := by
  simp only [Die.setMapBit]
  cases hk : stickyKey (k + 4 * (i / 32)) with
  | true => exact (setReg_sticky x hk _).symm.trans (h.trans (setReg_sticky y hk _))
  | false => rw [h.reg _ hk]; exact h.setReg _ _

/-- Of an occurrence, only its sticky bit is more than a raised source. -/
theorem occur_mapBit (x : Die) (src inst : Nat) (real : Bool) (n : Nat) :
    Alike (x.setMapBit (Reg.FLT_STICKY 0) src true) (x.occur src inst real n) := by
  refine ⟨?_, fun k _ => ?_⟩ <;> unfold Die.occur <;> simp only <;> split <;> split <;> rfl

theorem occur_congr (h : Alike x y) (src inst : Nat) (real : Bool) (n : Nat) : Alike (x.occur src inst real n) (y.occur src inst real n) :=
  (occur_mapBit x src inst real n).symm.trans ((h.setMapBit _ src true).trans (occur_mapBit y src inst real n))

theorem occur (x : Die) {src : Nat} (hs : src < 256) (inst : Nat) (real : Bool) (n : Nat) : Alike x (x.occur src inst real n) := by
  have hk : stickyKey (Reg.FLT_STICKY 0 + 4 * (src / 32)) = true := by
    have : src / 32 < 8 := by omega
    exact Bool.and_eq_true_iff.2 ⟨decide_eq_true (Nat.le_add_right ..), decide_eq_true (by unfold Reg.FLT_STICKY; omega)⟩
  exact (setReg_sticky x hk _).trans (occur_mapBit x src inst real n)

theorem ringEn (h : Alike x y) (f r : Nat) : y.ringEn f r = x.ringEn f r := h.rbit (stickyKey_of_ge (by unfold Reg.HIF_RING_CFG; omega)) _

theorem ringSize (h : Alike x y) (f r : Nat) : y.ringSize f r = x.ringSize f r := by
  unfold Die.ringSize
  rw [h.rf (stickyKey_of_ge (by unfold Reg.HIF_RING_CFG; omega))]

theorem ringFull (h : Alike x y) (f r : Nat) : y.ringFull f r = x.ringFull f r := by
  unfold Die.ringFull
  rw [h.ringSize, h.ring, h.rbit (stickyKey_of_ge (by unfold Reg.HIF_RING_CFG; omega))]

theorem phase (h : Alike x y) (f r : Nat) : y.phase f r = x.phase f r := by
  unfold Die.phase
  rw [h.ringSize, h.ring]

theorem reg64 (h : Alike x y) {k : Nat} (hk : 0x4020 ≤ k) : y.reg64 k = x.reg64 k := by
  unfold Die.reg64
  rw [h.reg k (stickyKey_of_ge hk), h.reg (k + 4) (stickyKey_of_ge (by omega))]

theorem entryAddr (h : Alike x y) (f r n : Nat) : y.entryAddr f r n = x.entryAddr f r n := by
  unfold Die.entryAddr Die.entrySize
  rw [h.reg64 (by unfold Reg.HIF_RING_BASE; omega), h.ringSize, h.rf (stickyKey_of_ge (by unfold Reg.HIF_RING_CFG; omega))]

theorem dbAddr (h : Alike x y) (f r : Nat) : y.dbAddr f r = x.dbAddr f r := by
  unfold Die.dbAddr
  rw [h.reg64 (by unfold Reg.HIF_DB_BASE; omega)]

end Die.Alike

/-- Two states that differ in raised sources only. -/
structure State.Alike (s t : State) : Prop where
  rest : t = { s with cd0 := t.cd0, cd1 := t.cd1 }
  die : ∀ d, Die.Alike (s.die d) (t.die d)

namespace State.Alike
variable {s t u : State}

theorem refl (s : State) : Alike s s := ⟨rfl, fun _ => .refl _⟩

theorem symm (h : Alike s t) : Alike t s := ⟨by rw [h.rest], fun d => (h.die d).symm⟩

theorem trans (h : Alike s t) (k : Alike t u) : Alike s u := ⟨by rw [k.rest, h.rest], fun d => (h.die d).trans (k.die d)⟩

theorem ticks (h : Alike s t) : t.ticks = s.ticks := by rw [h.rest]
theorem out (h : Alike s t) : t.out = s.out := by rw [h.rest]
theorem mirror (h : Alike s t) : t.mirror = s.mirror := by rw [h.rest]
theorem banks (h : Alike s t) : t.banks = s.banks := by rw [h.rest]
theorem bank (h : Alike s t) (b : Nat) : t.bank b = s.bank b := by unfold State.bank; rw [h.banks]
theorem eng (h : Alike s t) (d : DieId) : (t.die d).eng = (s.die d).eng := (h.die d).eng

/-- Raised sources are records. -/
theorem onlyRecords (h : Alike s t) : OnlyRecords s t := by
  have hq (d : DieId) : (t.die d).quiet = (s.die d).quiet := (h.die d).eq Die.quiet fun _ => rfl
  refine ⟨?_, fun d k hk => (h.die d).reg k ?_, fun d f _ => (h.die d).rf (by decide) f, by rw [h.out]⟩
  · have h0 : t.cd0.quiet = s.cd0.quiet := hq .cd0
    have h1 : t.cd1.quiet = s.cd1.quiet := hq .cd1
    unfold State.quiet
    rw [h0, h1, h.rest]
  · unfold recordKey at hk
    unfold stickyKey
    simp only [Bool.or_eq_false_iff] at hk
    exact hk.1.2

theorem onDie (h : Alike s t) (d : DieId) {f g : Die → Die} (hf : Die.Alike (f (s.die d)) (g (t.die d))) : Alike (s.onDie d f) (t.onDie d g) := by
  refine ⟨?_, fun c => ?_⟩
  · obtain ⟨a, b, rfl⟩ : ∃ a b, t = { s with cd0 := a, cd1 := b } := ⟨_, _, h.rest⟩
    cases d <;> rfl
  · by_cases hc : c = d
    · subst hc; rwa [State.die_onDie_same, State.die_onDie_same]
    · rw [State.die_onDie_other s hc, State.die_onDie_other t hc]; exact h.die c

theorem of_onDie (d : DieId) {f : Die → Die} (hf : Die.Alike (s.die d) (f (s.die d))) : Alike s (s.onDie d f) := by
  refine ⟨by cases d <;> rfl, fun c => ?_⟩
  by_cases hc : c = d
  · subst hc; rwa [State.die_onDie_same]
  · rw [State.die_onDie_other s hc]; exact .refl _

/-- A change of a die that leaves its registers and does not look at its raised sources. -/
theorem mapDie (h : Alike s t) (d : DieId) (f : Die → Die) (hf : ∀ x, (f x).unraised = (f x.unraised).unraised)
    (hr : ∀ x k, (f x).reg k = x.reg k) : Alike (s.onDie d f) (t.onDie d f) := h.onDie d ((h.die d).map f hf hr)

theorem onEng (h : Alike s t) (d : DieId) (f : Engines → Engines) : Alike (s.onDie d (·.onEng f)) (t.onDie d (·.onEng f)) :=
  h.mapDie d (·.onEng f) (fun _ => rfl) fun _ _ => rfl

theorem onElem (h : Alike s t) (d : DieId) (e : Nat) (f : Elem → Elem) : Alike (s.onDie d (·.onElem e f)) (t.onDie d (·.onElem e f)) :=
  h.mapDie d (·.onElem e f) (fun _ => rfl) fun _ _ => rfl

theorem count (h : Alike s t) (d : DieId) {k : Nat} (hk : stickyKey k = false) (f : Fld) (n : Nat) : Alike (s.count d k f n) (t.count d k f n) :=
  h.onDie d ((h.die d).count hk f n)

theorem onRing (h : Alike s t) (d : DieId) (f r : Nat) (g : Ring → Ring) : Alike (s.onDie d (·.onRing f r g)) (t.onDie d (·.onRing f r g)) :=
  h.onDie d ((h.die d).onRing f r g)

theorem emit (h : Alike s t) (o : Out) : Alike (s.emit o) (t.emit o) := by
  refine ⟨?_, fun d => by simpa using h.die d⟩
  obtain ⟨a, b, rfl⟩ : ∃ a b, t = { s with cd0 := a, cd1 := b } := ⟨_, _, h.rest⟩
  rfl

theorem foldl {α : Type} {g : State → α → State} (l : List α) (hg : ∀ a ∈ l, ∀ {s t}, Alike s t → Alike (g s a) (g t a)) :
    ∀ {s t}, Alike s t → Alike (l.foldl g s) (l.foldl g t) := by
  induction l with
  | nil => exact fun h => h
  | cons a l ih => exact fun h => ih (fun b hb => hg b (List.mem_cons_of_mem a hb)) (hg a (by simp) h)

/-! ## Records of the engines' work -/

/-- Raising a source. -/
theorem raised (s : State) (d : DieId) {src : Nat} (hs : src < 256) (inst : Nat) : Alike s (raise s d src inst) := by
  unfold raise
  split
  · exact of_onDie d (.occur _ hs inst true _)
  · exact refl s

theorem raise (h : Alike s t) (d : DieId) (src inst : Nat) : Alike (raise s d src inst) (raise t d src inst) := by
  unfold Machine.raise srcStamp
  rw [(h.die d).running, (h.die d).ns16, h.bank]
  split
  · exact h.onDie d ((h.die d).occur_congr src inst true _)
  · exact h

theorem raiseVec (h : Alike s t) (d : DieId) (f v : Nat) : Alike (raiseVec s d f v) (raiseVec t d f v) := by
  unfold Machine.raiseVec
  rw [(h.die d).fn f]
  extract_lets n
  split
  · exact h.onDie d ((h.die d).onFn f _)
  · exact h.emit _

theorem raiseRing (h : Alike s t) (d : DieId) (f r : Nat) : Alike (raiseRing s d f r) (raiseRing t d f r) := by
  unfold Machine.raiseRing
  rw [h.ticks, (h.die d).rf (stickyKey_of_ge (by unfold Reg.HIF_RING_CFG; omega))]
  exact (h.onRing d f r _).raiseVec d f _

theorem coalesce (h : Alike s t) (d : DieId) (f r : Nat) (irq : Bool) : Alike (coalesce s d f r irq) (coalesce t d f r irq) := by
  unfold Machine.coalesce
  simp only [h.ticks, (h.die d).ring f r, (h.die d).rf (k := Reg.HIF_RING_IRQ f r) (stickyKey_of_ge (by unfold Reg.HIF_RING_IRQ; omega)),
    (h.die d).rbit (k := Reg.HIF_RING_CFG f r) (stickyKey_of_ge (by unfold Reg.HIF_RING_CFG; omega))]
  split
  · exact (h.onRing d f r _).raiseRing d f r
  · exact h.onRing d f r _

theorem writeEntry (h : Alike s t) (d : DieId) (f r : Nat) (bytes : List Byte) (irq : Bool) :
    Alike (writeEntry s d f r bytes irq) (writeEntry t d f r bytes irq) := by
  unfold Machine.writeEntry
  simp only [(h.die d).ring f r, (h.die d).entryAddr, (h.die d).dbAddr]
  refine (State.Alike.emit ?_ _).coalesce d f r irq
  exact (h.emit _).onDie d ((((h.emit _).die d).onRing f r _).setReg _ _)

theorem eventOn (h : Alike s t) (d : DieId) (type origin stamp : Nat) (p : List Byte) (f : Nat) :
    Alike (eventOn s d type origin stamp p f) (eventOn t d type origin stamp p f) := by
  have hd := h.die d
  unfold Machine.eventOn
  simp only [hd.ringEn, hd.reg (Reg.HIF_EVMASK f) (stickyKey_of_ge (by unfold Reg.HIF_EVMASK; omega)), hd.ringFull, hd.phase, hd.ring]
  split
  · exact h
  · have h1 := h.onRing d f 16 (fun g => { g with seqNo := g.seqNo + 1 })
    split
    · exact (h1.onDie d (((h1.die d).count (stickyKey_of_ge (by unfold Reg.HIF_EV_LOST; omega)) _ _).onRing f 16 _)).raise d 161 0
    · exact (h1.onRing d f 16 _).writeEntry d f 16 _ _

theorem mirrored (h : Alike s t) (d : DieId) : t.mirrored d = s.mirrored d := by
  unfold State.mirrored Die.peerOk
  rw [(h.die d).isDecl, (h.die d.peer).isDummy, h.mirror, (h.die d).rbit (by decide)]

theorem mirrorRecord (h : Alike s t) (d : DieId) (p : Payload) : Alike (Machine.mirror s d p) (Machine.mirror t d p) := by
  unfold Machine.mirror
  rw [h.mirrored d, h.ticks]
  split
  · exact h.mapDie d _ (fun _ => rfl) fun _ _ => rfl
  · exact h

theorem elementEvent (h : Alike s t) (d : DieId) (e code : Nat) (byBank : Bool) :
    Alike (elementEvent s d e code byBank) (elementEvent t d e code byBank) := by
  unfold Machine.elementEvent Machine.eventMirrored Machine.eventAt
  simp only [(h.die d).isDecl, (h.die d).elem, (h.die d).ns16, h.bank]
  split
  · exact h
  · exact (foldl _ (fun f _ _ _ h => h.eventOn d _ _ _ _ f) h).mirrorRecord d _

theorem missUpdate (h : Alike s t) (d : DieId) (e : Nat) : Alike (missUpdate s d e) (missUpdate t d e) := by
  unfold Machine.missUpdate
  simp only [(h.die d).elem, h.ticks]
  have h1 := (h.onElem d e (fun el =>
    { el with miss := true, missAt := some s.ticks, missRun := el.missRun + 1, missCnt := satAdd 16 el.missCnt 1 })).count d
      (k := Reg.HLD_MISS_CNT) (by decide) F.HLD_MISS_CNT_COUNT 1
  split
  · exact (State.Alike.raise h1 d _ e).elementEvent d e _ _
  · exact h1

/-! ## The work of the engines -/

theorem placeIn (h : Alike s t) (d : DieId) (c : Nat) (k : Task) : Alike (placeIn s d c k) (placeIn t d c k) := by
  have eng (g : Engines) : Alike (s.onDie d (fun x => { x with eng := g })) (t.onDie d (fun x => { x with eng := g })) :=
    h.onEng d fun _ => g
  unfold Machine.placeIn
  rw [h.eng d]
  extract_lets g
  split
  · split
    · exact (eng _).count d (by decide) _ 1
    · exact eng _
  · exact ((eng g).missUpdate d k.elem).raise d 5 0

theorem placeTask (h : Alike s t) (d : DieId) (k : Task) : Alike (placeTask s d k) (placeTask t d k) := h.placeIn d _ k

theorem fenceEngine (h : Alike s t) (d : DieId) (e cause : Nat) : Alike (fenceEngine s d e cause) (fenceEngine t d e cause) := by
  unfold Machine.fenceEngine
  rw [h.eng d]
  extract_lets n moved s1 t1
  split
  · exact h
  · exact foldl moved (fun k _ _ _ h => h.placeIn d (e / 8) k) ((h.onEng d _).raise d 3 0)

theorem dispatchOnce (h : Alike s t) (d : DieId) (e : Nat) :
    Alike (dispatchOnce s d e).1 (dispatchOnce t d e).1 ∧ (Machine.dispatchOnce t d e).2 = (Machine.dispatchOnce s d e).2 := by
  unfold Machine.dispatchOnce
  rw [h.eng d, h.ticks]
  extract_lets g n
  split
  · exact ⟨h.fenceEngine d e 3, rfl⟩
  · split
    · exact ⟨h.onEng d _, rfl⟩
    · rename_i f k how _
      extract_lets s1 s2 t1 t2
      have h1 : Alike s1 t1 := h.onEng d _
      refine ⟨?_, rfl⟩
      simp only [s2, t2]
      split
      · exact h1.count d (by decide) _ 1
      · split
        · exact h1.count d (by decide) _ 1
        · exact h1

theorem faultOnce (h : Alike s t) (d : DieId) (e cause : Nat) :
    Alike (faultOnce s d e cause).1 (faultOnce t d e cause).1 ∧ (Machine.faultOnce t d e cause).2 = (Machine.faultOnce s d e cause).2 := by
  unfold Machine.faultOnce
  rw [h.eng d, h.ticks]
  extract_lets n faults blank fresh s1 s2 s3 t1 t2 t3
  have h1 : Alike s1 t1 := h.onDie d (((h.die d).onEng _).count (by decide) _ 1)
  have h2 : Alike s2 t2 := by
    simp only [s2, t2]
    split
    · split
      · exact h1
      · exact h1.placeTask d _
    · exact h1
  have h3 : Alike s3 t3 := h2.raise d 4 d.num
  split
  · exact ⟨h3.fenceEngine d e 2, rfl⟩
  · exact ⟨h3, rfl⟩

theorem dispatchEng (h : Alike s t) (d : DieId) (e : Nat) : Alike (dispatchEng s d e) (dispatchEng t d e) := by
  unfold Machine.dispatchEng
  generalize 4 = k
  induction k generalizing s t with
  | zero => exact h
  | succ k ih =>
    obtain ⟨h1, hb1⟩ := h.dispatchOnce d e
    obtain ⟨h2, hb2⟩ := h1.faultOnce d e 1
    unfold dispatchN
    cases hs : Machine.dispatchOnce s d e with | mk s1 b1 =>
    cases ht : Machine.dispatchOnce t d e with | mk t1 b1' =>
    rw [hs, ht] at h1 hb1 h2 hb2
    obtain rfl : b1' = b1 := hb1
    cases b1' with
    | false => exact h1
    | true =>
      simp only at h2 hb2 ⊢
      cases hs2 : Machine.faultOnce s1 d e 1 with | mk s2 b2 =>
      cases ht2 : Machine.faultOnce t1 d e 1 with | mk t2 b2' =>
      rw [hs2, ht2] at h2 hb2
      obtain rfl : b2' = b2 := hb2
      cases b2' with
      | false => exact h2
      | true => exact ih h2

theorem microFault (h : Alike s t) (d : DieId) (e cause : Nat) : Alike (microFault s d e cause) (microFault t d e cause) := by
  obtain ⟨h1, hb⟩ := h.faultOnce d e cause
  unfold Machine.microFault
  cases hs : Machine.faultOnce s d e cause with | mk s1 b =>
  cases ht : Machine.faultOnce t d e cause with | mk t1 b' =>
  rw [hs, ht] at h1 hb
  obtain rfl : b' = b := hb
  cases b' with
  | false => exact h1
  | true => exact h1.dispatchEng d e

theorem sliceEnds (h : Alike s t) (d : DieId) (e : Nat) (follow : Option Task) : Alike (sliceEnds s d e follow) (sliceEnds t d e follow) := by
  unfold Machine.sliceEnds
  rw [h.eng d, h.ticks]
  extract_lets n
  split
  · exact h
  · split
    · exact (h.onEng d _).placeTask d _
    · split
      · exact (h.onEng d _).placeTask d _
      · exact (h.onEng d _).onEng d _
    · exact h.onEng d _

theorem setPc (h : Alike s t) (d : DieId) (e : Nat) (p : MicroPc) : Alike (setPc s d e p) (setPc t d e p) := h.onEng d _

theorem goTo (h : Alike s t) (d : DieId) (e : Nat) (p : Option MicroPc) : Alike (goTo s d e p) (goTo t d e p) := by
  cases p with
  | none => exact h.microFault d e 6
  | some p => exact h.setPc d e p

theorem waitOp (h : Alike s t) (d : DieId) (e : Nat) (m : Micro) : Alike (waitOp s d e m) (waitOp t d e m) := by
  unfold Machine.waitOp
  rw [h.eng d, h.ticks]
  extract_lets n
  split
  · exact h.dispatchEng d e
  · exact (h.sliceEnds d e none).dispatchEng d e
  · exact (h.onEng d _).dispatchEng d e

theorem stale (h : Alike s t) (e : Nat) : stale t e = stale s e := by
  unfold Machine.stale tokenGap
  rw [h.bank]
  cases (s.bank (bankOf e)).holder with
  | none => rfl
  | some c => simp only [(h.die c).eq (fun x => x.red.takeover) fun _ => rfl]

theorem condNow (h : Alike s t) (d : DieId) (e el c : Nat) : condNow t d e el c = condNow s d e el c := by
  have hd := h.die d
  have hns : (t.die d).effNs = (s.die d).effNs ∧ (t.die d).halfNs = (s.die d).halfNs ∧ (t.die d).loopUs = (s.die d).loopUs := by
    unfold Die.effNs Die.cycles Die.halfNs Die.loopUs Die.fd
    rw [hd.rf (by decide), hd.rf (by decide)]
    exact ⟨rfl, rfl, rfl⟩
  unfold Machine.condNow
  simp only [hd.eng, hd.elem, h.bank, h.stale, h.ticks, hns, hd.eq (fun x => x.thm) fun _ => rfl]

/-- What a word's sequencing does of two such states. -/
theorem seqOp (h : Alike s t) (d : DieId) (e el : Nat) (m : Micro) : Alike (seqOp s d e el m) (seqOp t d e el m) := by
  unfold Machine.seqOp
  rw [h.eng d, h.condNow d]
  extract_lets n
  split
  · exact h.goTo d e _
  · exact h.setPc d e _
  · split
    · exact h.microFault d e 2
    · exact h.onEng d _
  · split
    · exact h.microFault d e 2
    · exact h.onEng d _
  · split
    · exact h.setPc d e _
    · exact h.goTo d e _
  · exact (h.sliceEnds d e none).dispatchEng d e
  · exact h.waitOp d e m

end State.Alike
end Sys2Proof.Machine
end

section
/-!
PROOFS. One microword that faults nothing, sends nothing and stores nothing (R243 to R249): what it does is its ALU operation and then its
sequencing.
-/

namespace Sys2Proof.Machine

/-! ## The operations of a quiet word -/

theorem accOp_none (s : State) (d : DieId) (e el : Nat) {m : Micro} (h : m.acc = 0) : accOp s d e el m = s := by simp [accOp, h]

theorem dacOp_none (s : State) (d : DieId) (e el : Nat) {m : Micro} (hd : m.dac = 0) (hf : m.fire = false) : dacOp s d e el m = s := by
  simp [dacOp, hd, hf]

theorem tqOp_none (s : State) (d : DieId) (e : Nat) {m : Micro} (h : m.tq = 0) : tqOp s d e m = (s, true) := by simp [tqOp, h]

theorem Engine.expOp_none (n : Engine) (el : Elem) {m : Micro} (h : m.exp = 0) : n.expOp el m = n := by simp [expOp, h]

/-- The ALU operation of a word on engine e. -/
def computed (s : State) (d : DieId) (e el : Nat) (m : Micro) : State :=
  s.onDie d (fun x => x.onEng (·.setEngine e ((x.eng.engine e).compute x el s.ticks m)))

theorem microRun_quiet (s : State) (d : DieId) (e : Nat) {m : Micro}
    (h : m.exp = 0 ∧ m.mem ≠ 2 ∧ m.acc = 0 ∧ m.dac = 0 ∧ m.fire = false ∧ m.tq = 0) :
    let el := ((s.die d).eng.engine e).elem
    microRun s d e m = seqOp (computed s d e el m) d e el m := by
  obtain ⟨hexp, hmem, hacc, hdac, hfire, htq⟩ := h
  intro el
  have hx : m.exp ≠ 4 := by omega
  simp only [microRun, accOp_none _ _ _ _ hacc, dacOp_none _ _ _ _ hdac hfire, tqOp_none _ _ _ htq, Engine.expOp_none _ _ hexp,
    if_neg hx, if_neg hmem]
  rfl

/-! ## What the ALU looks at and what it leaves -/

theorem Die.Alike.compute {x y : Die} (h : Die.Alike x y) (n : Engine) (el ticks : Nat) (m : Micro) :
    n.compute y el ticks m = n.compute x el ticks m := by
  have hsrc (b : Bool) (k : Nat) : n.src y m b k = n.src x m b k := by
    unfold Engine.src
    rw [h.eq (fun x => x.thm.fabricTemp) fun _ => rfl, h.eq Die.ns fun _ => rfl]
  have hload : memLoad y el ticks m = memLoad x el ticks m := by
    unfold memLoad
    simp only [h.eng, h.eq Die.cal fun _ => rfl, h.elem, h.reg (Reg.HLD_STATUS + 4 * m.memAddr) (stickyKey_of_ge (by unfold Reg.HLD_STATUS; omega))]
  unfold Engine.compute
  simp only [hsrc, hload]

/-- What an ALU operation leaves of an engine: all but the words, stage values, latch and flags it computes. -/
def Engine.uncomputed (n : Engine) : Engine :=
  { n with regs := Vector.replicate 8 0, stA := 0, stB := 0, latch := 0, zero := false, neg := false, carry := false, sat := false,
           calPair := (0, 0) }

theorem Engine.put_uncomputed (n : Engine) (k v : Nat) : (n.put k v).uncomputed = n.uncomputed := by
  unfold put
  split
  · rfl
  · split
    · rfl
    · split
      · rfl
      · split <;> rfl

theorem Engine.compute_uncomputed (n : Engine) (x : Die) (el ticks : Nat) (m : Micro) : (n.compute x el ticks m).uncomputed = n.uncomputed := by
  unfold compute
  extract_lets a b n1 n2
  have h1 : n1.uncomputed = n.uncomputed := by
    simp only [n1]
    split
    · rfl
    · split
      · rfl
      · exact put_uncomputed _ _ _
  have h2 : n2.uncomputed = n.uncomputed := by
    simp only [n2]
    split
    · exact h1
    · exact h1
  split
  · exact (put_uncomputed _ _ _).trans h2
  · exact h2

/-- A part of an engine that its ALU leaves. -/
theorem Engine.compute_eq {α : Type} (π : Engine → α) (hπ : ∀ n, π n.uncomputed = π n) (n : Engine) (x : Die) (el ticks : Nat) (m : Micro) :
    π (n.compute x el ticks m) = π n := by rw [← hπ, compute_uncomputed, hπ]

/-! ## The word in its state -/

section Word
variable {d : DieId} {e : Nat} {rom : BitVec 128} {s : State} {m : Micro} {p : MicroPc} {el : Nat} {ecc : EccRead}

/-- The state in which a word has been fetched, its corrected bit raised (R243). -/
def wordFetched (d : DieId) (e : Nat) (s : State) (p : MicroPc) (ecc : EccRead) : State :=
  if ecc = .corrected then raise (wordBegun d e s p ecc) d 244 else wordBegun d e s p ecc

theorem wordFetched_alike (d : DieId) (e : Nat) (s : State) (p : MicroPc) (ecc : EccRead) :
    State.Alike (wordBegun d e s p ecc) (wordFetched d e s p ecc) := by
  unfold wordFetched
  split
  · exact .raised _ d (by decide) 0
  · exact .refl _

theorem wordBegun_ticks : (wordBegun d e s p ecc).ticks = s.ticks := by
  unfold wordBegun setPc
  split <;> simp

theorem wordBegun_eng : ((wordBegun d e s p ecc).die d).eng = ((s.die d).eng.onEngine e (fun n => { n with pc := p })) := by
  unfold wordBegun setPc
  split <;> simp

theorem wordState_eq : wordState d e s m p el ecc = computed (wordBegun d e s p ecc) d e el m := by
  unfold wordState computed
  rw [wordBegun_ticks]

theorem State.Alike.computed {s t : State} (h : State.Alike s t) (d : DieId) (e el : Nat) (m : Micro) :
    State.Alike (computed s d e el m) (computed t d e el m) := by
  unfold Machine.computed
  refine h.onDie d ?_
  rw [h.ticks, (h.die d).compute, h.eng d]
  exact (h.die d).onEng _

/-- A word read without fault does its ALU operation and then its sequencing. -/
theorem microStep_word (h : RunsWord d e rom s m p el) (hecc : ecc ≠ .double) :
    microStep d e m.seq rom ecc s = seqOp (computed (wordFetched d e s p ecc) d e el m) d e el m := by
  obtain ⟨hrun, hstate, ⟨hm, hp⟩, hfault, hel, hquiet⟩ := h
  have hpc : (⟨(fetchWord (s.die d).eng ((s.die d).eng.engine e) rom).2.2, (fetchWord (s.die d).eng ((s.die d).eng.engine e) rom).2.1⟩ :
      MicroPc) = p := by rw [hp]
  have helem : (((wordFetched d e s p ecc).die d).eng.engine e).elem = el := by
    rw [(wordFetched_alike d e s p ecc).eng d, wordBegun_eng, Engines.engine_onEngine_same, hel]
  have htq : (m.tq = 3 && decide (5887 < (((s.die d).eng.engine e).regs.getD 0 0) % 8192)) = false := by simp [hquiet]
  have hf : (if ecc = .corrected then raise ((setPc s d e p).onDie d (·.count Reg.UCS_MFAULT_CNT F.UCS_MFAULT_CNT_ECC1)) d 244 else setPc s d e p)
      = wordFetched d e s p ecc := by
    unfold wordFetched wordBegun
    split <;> rfl
  have hrun2 := microRun_quiet (wordFetched d e s p ecc) d e hquiet
  rw [helem] at hrun2
  unfold microStep
  simp only [hrun, hstate, if_neg hecc, ← hm, hpc, hfault, hf, htq]
  simpa using hrun2

/-- What a word of its row makes of a state, its corrected bit aside. -/
theorem makes_word (h : RunsWord d e rom s m p el) (hecc : ecc ≠ .double) {c : Instr} {k : Nat} (hs : m.seq = k)
    (hc : exec c s = done (microStep d e k rom ecc s)) : Makes c s (seqOp (wordState d e s m p el ecc) d e el m) := by
  subst hs
  refine .intro (hc.trans (congrArg done (microStep_word h hecc))) ?_
  rw [wordState_eq]
  exact (((wordFetched_alike d e s p ecc).computed d e el m).seqOp d e el m).onlyRecords

/-- A word read with two wrong bits is a microcode fault (R243). -/
theorem makes_double (hr : (s.die d).enginesRun = true) (h1 : ((s.die d).eng.engine e).state = 1) {c : Instr} {k : Nat}
    (hc : exec c s = done (microStep d e k rom .double s)) :
    let f := fetchWord (s.die d).eng ((s.die d).eng.engine e) rom
    Makes c s (microFault (setPc s d e ⟨f.2.2, f.2.1⟩) d e 4) := by
  intro f
  have hstep : microStep d e k rom .double s = microFault (raise (setPc s d e ⟨f.2.2, f.2.1⟩) d 245) d e 4 := by
    unfold microStep
    simp only [hr, h1]
    rfl
  exact .intro (hc.trans (congrArg done hstep)) ((State.Alike.raised _ d (by decide) 0).microFault d e 4).onlyRecords

/-! ## The engine after a word's ALU -/

theorem wordState_ticks : (wordState d e s m p el ecc).ticks = s.ticks := by
  rw [wordState, State.onDie_ticks, wordBegun_ticks]

theorem wordState_engine : ((wordState d e s m p el ecc).die d).eng.engine e = wordDone d e s m p el ecc := by
  unfold wordState wordDone
  simp

theorem wordState_eng : ((wordState d e s m p el ecc).die d).eng =
    ((s.die d).eng.onEngine e (fun n => { n with pc := p })).setEngine e (wordDone d e s m p el ecc) := by
  unfold wordState wordDone
  simp [wordBegun_eng]

theorem wordState_other {f : Nat} (h : f ≠ e) : ((wordState d e s m p el ecc).die d).eng.engine f = (s.die d).eng.engine f := by
  rw [wordState_eng, Engines.engine_setEngine_other _ h, Engines.engine_onEngine_other _ h]

/-- A part of an engine, its place aside, that a word's ALU leaves. -/
theorem wordDone_eq {α : Type} (π : Engine → α) (hπ : ∀ n, π n.uncomputed = π n) :
    π (wordDone d e s m p el ecc) = π { (s.die d).eng.engine e with pc := p } := by
  unfold wordDone
  rw [Engine.compute_eq π hπ, wordBegun_eng, Engines.engine_onEngine_same]

theorem wordDone_pc : (wordDone d e s m p el ecc).pc = p := wordDone_eq Engine.pc fun _ => rfl

/-- A part of a die that neither fetching nor computing a word touches. -/
theorem wordState_part {α : Type} (π : Die → α) (hr : ∀ x k v, π (Die.setReg x k v) = π x) (he : ∀ x f, π (Die.onEng x f) = π x) :
    π ((wordState d e s m p el ecc).die d) = π (s.die d) := by
  unfold wordState wordBegun setPc
  split <;> simp [he, hr, Die.count, Die.setRf]

end Word

end Sys2Proof.Machine
end

section
/-!
PROOFS. The sequencing of a microword: NEXT, JUMP, CALL, RET and BRANCH (R243 to R247).
-/

namespace Sys2Proof.Machine

/-! ## Sequencing operations -/

section Sequencing
variable {s : State} {d : DieId} {e el : Nat} {m : Micro}

theorem seqOp_next (h : m.seq = 0) : seqOp s d e el m = goTo s d e ((s.die d).eng.engine e).pc.succ := by simp [seqOp, h]

theorem seqOp_jump (h : m.seq = 1) : seqOp s d e el m = setPc s d e m.target := by simp [seqOp, h]

theorem seqOp_call (h : m.seq = 2) (hl : ((s.die d).eng.engine e).stack.length < 4) : seqOp s d e el m =
    let pc := ((s.die d).eng.engine e).pc
    s.onDie d (·.onEng (·.onEngine e (fun n => { n with stack := (pc.succ.getD ⟨0, pc.patch⟩) :: n.stack, pc := m.target }))) := by
  simp [seqOp, h, Nat.not_le.2 hl]

theorem seqOp_call_full (h : m.seq = 2) (hl : 4 ≤ ((s.die d).eng.engine e).stack.length) : seqOp s d e el m = microFault s d e 2 := by
  simp [seqOp, h, hl]

theorem seqOp_ret (h : m.seq = 3) {q : MicroPc} {l : List MicroPc} (hs : ((s.die d).eng.engine e).stack = q :: l) :
    seqOp s d e el m = s.onDie d (·.onEng (·.onEngine e (fun n => { n with stack := l, pc := q }))) := by
  simp [seqOp, h, hs]

theorem seqOp_ret_empty (h : m.seq = 3) (hs : ((s.die d).eng.engine e).stack = []) : seqOp s d e el m = microFault s d e 2 := by
  simp [seqOp, h, hs]

theorem seqOp_branch (h : m.seq = 4) : seqOp s d e el m =
    if condNow s d e el m.cond != m.cinv then setPc s d e m.target else goTo s d e ((s.die d).eng.engine e).pc.succ := by
  simp [seqOp, h]

theorem condNow_always : condNow s d e el 0 = true := rfl

theorem condNow_zero : condNow s d e el 1 = ((s.die d).eng.engine e).zero := rfl

end Sequencing

/-! ## A microcode fault (R247) -/

theorem Engine.start_faultCause (n : Engine) (t : Task) (active ticks : Nat) : (n.start t active ticks).faultCause = n.faultCause := by
  unfold start
  extract_lets t1 base
  split <;> rfl

/-- The cause of an engine's last fault is no part of what placing a task changes. -/
theorem keptBy_faultCause (cause : Nat) (t : Task) : Engine.KeptBy (fun n => n.faultCause = cause) t := ⟨fun _ _ h => h, fun _ h => h⟩

/-- A deque without reserved task types stays one when a task of another type joins it (R230). -/
theorem keptBy_sound {t : Task} (ht : t.type < 6) : Engine.KeptBy (fun n => ∀ u ∈ n.deque, u.type < 6) t := by
  refine ⟨fun _ _ h => h, fun n h u hu => ?_⟩
  rcases List.mem_append.1 hu with hu | hu
  · exact h u hu
  · rwa [List.mem_singleton.1 hu]

section Fault
variable {s : State} {d : DieId} {e cause : Nat}

theorem count_eng (s : State) (d : DieId) (k : Nat) (f : Fld) (n : Nat) : ((s.count d k f n).die d).eng = (s.die d).eng :=
  eng_onDie s d d fun x => Die.count_eng x k f n

theorem fenceEngine_faultCause (k : Nat) (h : ((s.die d).eng.engine e).faultCause = cause) :
    (((fenceEngine s d e k).die d).eng.engine e).faultCause = cause :=
  closed_fenceEngine (P := fun n => n.faultCause = cause) (keptBy_faultCause cause) (fun _ => h) fun _ _ => h

theorem dispatchOnce_faultCause (h : ((s.die d).eng.engine e).faultCause = cause) :
    (((dispatchOnce s d e).1.die d).eng.engine e).faultCause = cause := by
  unfold dispatchOnce
  extract_lets g n
  split
  · exact fenceEngine_faultCause 3 h
  · split
    · rw [State.die_onDie_same, Die.onEng_eng, Engines.engine_onEngine_same]
      exact h
    · rename_i f t how _
      extract_lets s1 s2
      have h1 : ((s1.die d).eng.engine e).faultCause = cause := by
        rw [State.die_onDie_same, Die.onEng_eng, Engines.engine_onEngine_same, Engine.start_faultCause]
        exact Engines.closed_onEngine (P := fun n => n.faultCause = cause) (fun _ => h) fun _ => h
      have h2 : (s2.die d).eng = (s1.die d).eng := by
        simp only [s2]
        split
        · exact count_eng ..
        · split
          · exact count_eng ..
          · rfl
      rw [h2]
      exact h1

/-- An engine as a fault leaves it: reinitialised, with its deque, a self-test of its own back in it. -/
def Engine.faulted (n : Engine) (cause ticks : Nat) : Engine :=
  { Engine.reset with faultCause := cause, faultPc := n.pc, defer := n.defer,
                      faults := n.faults.filter (fun t => decide (ticks < t + secT)) ++ [ticks],
                      tasks := n.tasks, lastTest := n.lastTest, fenceReq := n.fenceReq,
                      deque := match n.running with
                        | some t => if t.type = tSelftest then n.deque ++ [{ t with parked := none }] else n.deque
                        | none => n.deque }

theorem Engine.faulted_sound {n : Engine} (hr : ∀ t ∈ n.running, t.type < 6) (hq : ∀ t ∈ n.deque, t.type < 6) (cause ticks : Nat) :
    ∀ t ∈ (n.faulted cause ticks).deque, t.type < 6 := by
  unfold faulted
  simp only
  split
  · rename_i t ht
    split
    · intro u hu
      rcases List.mem_append.1 hu with hu | hu
      · exact hq u hu
      · rw [List.mem_singleton.1 hu]; exact hr t ht
    · exact hq
  · exact hq

/-- After a fault an engine shows its cause; and where it goes on to dispatch, no reserved task type is queued if none was. -/
theorem faultOnce_spec (hr : ∀ t ∈ ((s.die d).eng.engine e).running, t.type < 6) (hm : ((s.die d).eng.engine e).merged = none)
    (hq : ∀ f < 64, ∀ t ∈ ((s.die d).eng.engine f).deque, t.type < 6) (he : e < 64) :
    (((faultOnce s d e cause).1.die d).eng.engine e).faultCause = cause ∧
      ((faultOnce s d e cause).2 = true → ∀ f < 64, ∀ t ∈ (((faultOnce s d e cause).1.die d).eng.engine f).deque, t.type < 6) := by
  unfold faultOnce
  extract_lets n faults blank fresh s1 s2 s3
  have hfresh : fresh = n.faulted cause s.ticks := rfl
  have closed {P : Engine → Prop} (hP : ∀ t : Task, t.type < 6 → Engine.KeptBy P t) {f : Nat} (h : P ((s1.die d).eng.engine f)) :
      P ((s3.die d).eng.engine f) := by
    simp only [s3, s2, raise_eng]
    split
    · rename_i t ht
      split
      · exact h
      · refine closed_placeIn (hP _ ?_) h _
        rw [show n.merged = none from hm]
        exact hr t ht
    · exact h
  have heng : (s1.die d).eng = (s.die d).eng.setEngine e fresh := by simp [s1]
  have hc3 : ((s3.die d).eng.engine e).faultCause = cause :=
    closed (P := fun n => n.faultCause = cause) (fun t _ => keptBy_faultCause cause t) (by rw [heng, Engines.engine_setEngine_same])
  have hq3 (f : Nat) (hf : f < 64) : ∀ t ∈ ((s3.die d).eng.engine f).deque, t.type < 6 := by
    refine closed (P := fun n => ∀ t ∈ n.deque, t.type < 6) (fun t ht => keptBy_sound ht) ?_
    rw [heng]
    by_cases hfe : f = e
    · subst hfe
      rw [Engines.engine_setEngine_same, hfresh]
      exact Engine.faulted_sound hr (hq f hf) cause s.ticks
    · rw [Engines.engine_setEngine_other _ hfe]
      exact hq f hf
  split
  · exact ⟨fenceEngine_faultCause 2 hc3, fun h => absurd h (by simp)⟩
  · exact ⟨hc3, fun _ => hq3⟩

/-- A fault of an engine whose die has no reserved task type to run shows its own cause after the DISPATCH that follows it. -/
theorem microFault_cause (he : e < 64) (hr : ∀ t ∈ ((s.die d).eng.engine e).running, t.type < 6)
    (hm : ((s.die d).eng.engine e).merged = none) (hq : ∀ f < 64, ∀ t ∈ ((s.die d).eng.engine f).deque, t.type < 6) :
    (((microFault s d e cause).die d).eng.engine e).faultCause = cause := by
  obtain ⟨hcause, hsound⟩ := faultOnce_spec (cause := cause) hr hm hq he
  unfold microFault
  split
  · rename_i s1 h1
    rw [h1] at hcause hsound
    rw [dispatchEng_once (dispatchOnce_sound he (hsound rfl))]
    exact dispatchOnce_faultCause hcause
  · rename_i s1 h1
    rwa [h1] at hcause

end Fault

/-! ## Where a microword goes on -/

section Goes
variable {d : DieId} {e : Fin 64} {rom : BitVec 128} {s : State} {m : Micro} {p : MicroPc} {el : Nat} {ecc : EccRead} {c : Instr}

/-- A word whose sequencing changes its engine alone leaves the other engines, the parked and armed tasks, the elements and the deals. -/
theorem word_goes (h : RunsWord d e rom s m p el) (hecc : ecc ≠ .double) {k : Nat} (hs : m.seq = k)
    (hc : exec c s = done (microStep d e k rom ecc s)) {u : Engine → Engine}
    (hu : seqOp (wordState d e s m p el ecc) d e el m = (wordState d e s m p el ecc).onDie d (·.onEng (·.onEngine e u))) :
    Answers c s (fun t => (t.die d).eng.engine e = u (wordDone d e s m p el ecc) ∧
      (∀ f : Fin 64, f ≠ e → (t.die d).eng.engine f = (s.die d).eng.engine f) ∧ (t.die d).hold = (s.die d).hold ∧
      (t.die d).dealer = (s.die d).dealer ∧ (t.die d).eng.parked = (s.die d).eng.parked ∧ (t.die d).eng.armed = (s.die d).eng.armed ∧
      (t.die d).reg Reg.UCS_MFAULT_CNT = ((wordBegun d e s p ecc).die d).reg Reg.UCS_MFAULT_CNT) := by
  obtain ⟨t, ht, hrec⟩ := hu ▸ makes_word h hecc hs hc
  have heng := hrec.die_eng d
  rw [State.die_onDie_same, Die.onEng_eng] at heng
  refine ⟨t, ht, ?_, fun f hf => ?_, ?_, ?_, ?_, ?_, ?_⟩
  · rw [heng, Engines.engine_onEngine_same, wordState_engine]
  · have hfe : f.val ≠ e.val := fun h => hf (Fin.ext h)
    rw [heng, Engines.engine_onEngine_other _ hfe, wordState_other hfe]
  · rw [hrec.die_hold d, State.die_onDie_same, Die.onEng_hold]
    exact wordState_part Die.hold (fun _ _ _ => rfl) fun _ _ => rfl
  · rw [hrec.die_dealer d, State.die_onDie_same, Die.onEng_dealer]
    exact wordState_part Die.dealer (fun _ _ _ => rfl) fun _ _ => rfl
  · rw [heng, Engines.onEngine_parked, wordState_eng]; rfl
  · rw [heng, Engines.onEngine_armed, wordState_eng]; rfl
  · rw [hrec.regs d _ (by decide), State.die_onDie_same, Die.onEng_reg, wordState, State.die_onDie_same, Die.onEng_reg]

/-- A word's ALU leaves every deque. -/
theorem wordState_deques_empty (h : ∀ f : Fin 64, ((s.die d).eng.engine f).deque = []) :
    ∀ f < 64, (((wordState d e s m p el ecc).die d).eng.engine f).deque = [] := by
  intro f hf
  by_cases hfe : f = e.val
  · subst hfe
    rw [wordState_engine, wordDone_eq Engine.deque fun _ => rfl]
    exact h e
  · rw [wordState_other hfe]
    exact h ⟨f, hf⟩

end Goes

/-- Settles O28: each sequencing operation by the lemma that says what it makes of the state in which the word has been computed. -/
theorem microwordsSequence : Obligations.MicrowordsSequence := by
  unfold Obligations.MicrowordsSequence
  refine fun d e rom s => ⟨fun m p el ecc hecc hw => ?_, fun hr h1 => ?double⟩
  case double =>
    intro f c hc
    simp only [List.mem_cons, List.not_mem_nil, or_false] at hc
    rcases hc with rfl | rfl | rfl | rfl | rfl | rfl | rfl <;> exact makes_double hr h1 rfl
  extract_lets n goes
  have hn : ((wordState d e s m p el ecc).die d).eng.engine e = n := wordState_engine
  have hpc : n.pc = p := wordDone_pc
  have jumps {c : Instr} {k : Nat} {q : MicroPc} (hs : m.seq = k) (hc : exec c s = done (microStep d e k rom ecc s))
      (hq : seqOp (wordState d e s m p el ecc) d e el m = setPc (wordState d e s m p el ecc) d e q) : goes c { n with pc := q } :=
    word_goes hw hecc hs hc (u := fun n => { n with pc := q }) hq
  have succ {q : MicroPc} (hq : p.succ = some q) :
      goTo (wordState d e s m p el ecc) d e (((wordState d e s m p el ecc).die d).eng.engine e).pc.succ =
        setPc (wordState d e s m p el ecc) d e q := by rw [hn, hpc, hq]; rfl
  refine ⟨fun q hs hq => jumps hs rfl ((seqOp_next hs).trans (succ hq)), fun hs hq hr hm hd => ?pastEnd,
    fun hs => jumps hs rfl (seqOp_jump hs), fun hs hl => ?call, fun q l hs hl => ?ret, fun hs hc hi => jumps hs rfl ?always,
    fun q hs hc hz hq => jumps hs rfl ?notTaken, fun hs hc hz => jumps hs rfl ?taken⟩
  case pastEnd =>
    obtain ⟨t, ht, hrec⟩ := makes_word hw hecc hs (c := .next d e ⟨rom, ecc⟩) rfl
    refine ⟨t, ht, (?_ : ((t.die d).eng.engine e).faultCause = 6)⟩
    rw [hrec.die_eng d, seqOp_next hs, hn, hpc, hq]
    refine microFault_cause e.isLt (hn ▸ hr) (hn ▸ hm) fun f hf t ht => ?_
    rw [wordState_deques_empty hd f hf] at ht
    cases ht
  case call =>
    refine word_goes hw hecc hs rfl (u := fun n => { n with stack := (p.succ.getD ⟨0, p.patch⟩) :: n.stack, pc := m.target }) ?_
    rw [seqOp_call hs (hn ▸ hl), hn, hpc]
  case ret => exact word_goes hw hecc hs rfl (u := fun n => { n with stack := l, pc := q }) (seqOp_ret hs (hn ▸ hl))
  case always => rw [seqOp_branch hs, hc, condNow_always, hi]; rfl
  case notTaken => rw [seqOp_branch hs, hc, condNow_zero, hn, hz, bne_self_eq_false, if_neg Bool.false_ne_true, ← hn, succ hq]
  case taken =>
    rw [seqOp_branch hs, hc, condNow_zero, hn, hz, if_pos (by cases m.cinv <;> rfl)]

/-- Settles O60: the stack holds four addresses because CALL looks at its length and RET at its top. -/
theorem microStackHoldsFour : Obligations.MicroStackHoldsFour := by
  unfold Obligations.MicroStackHoldsFour
  intro d e rom s m p el ecc hecc hw n
  have hn : ((wordState d e s m p el ecc).die d).eng.engine e = n := wordState_engine
  have hpc : n.pc = p := wordDone_pc
  refine ⟨fun hs hl => ?push, fun hs hl => ?full, fun q l hs hl => ?pop, fun hs hl => ?empty⟩
  case push =>
    obtain ⟨t, ht, heng, -⟩ := word_goes hw hecc hs (c := .call d e ⟨rom, ecc⟩) rfl
      (u := fun n => { n with stack := (p.succ.getD ⟨0, p.patch⟩) :: n.stack, pc := m.target }) (by rw [seqOp_call hs (hn ▸ hl), hn, hpc])
    exact ⟨t, ht, by rw [heng], by rw [heng]⟩
  case full => exact seqOp_call_full hs (hn ▸ hl) ▸ makes_word hw hecc hs rfl
  case pop =>
    obtain ⟨t, ht, heng, -⟩ := word_goes hw hecc hs (c := .ret d e ⟨rom, ecc⟩) rfl (u := fun n => { n with stack := l, pc := q })
      (seqOp_ret hs (hn ▸ hl))
    exact ⟨t, ht, by rw [heng], by rw [heng]⟩
  case empty => exact seqOp_ret_empty hs (hn ▸ hl) ▸ makes_word hw hecc hs rfl

end Sys2Proof.Machine
end

section
/-!
PROOFS. Tasks of the hold engines: the end of a slice, waiting, release, resumption, overruns and fence requests (R232, R238, R241, R244).
-/

namespace Sys2Proof.Machine

/-! ## The end of a slice (R244) -/

section Slices
variable {s : State} {d : DieId} {e el : Nat} {m : Micro}

theorem seqOp_dispatch (h : m.seq = 5) : seqOp s d e el m = dispatchEng (sliceEnds s d e none) d e := by simp [seqOp, h]

theorem seqOp_wait (h : m.seq = 6) : seqOp s d e el m = waitOp s d e m := by simp [seqOp, h]

/-- Ending a slice whose task has no cause recorded frees the engine. -/
theorem sliceEnds_eng (hm : ((s.die d).eng.engine e).merged = none) (f : Nat) :
    ((sliceEnds s d e none).die d).eng.engine f =
      if f = e then { (s.die d).eng.engine e with running := none, merged := none } else (s.die d).eng.engine f := by
  by_cases hfe : f = e
  · subst hfe
    cases hr : ((s.die d).eng.engine f).running <;> simp [sliceEnds, hr, hm]
    conv_rhs => rw [← hr, ← hm]
  · cases hr : ((s.die d).eng.engine e).running <;> simp [sliceEnds, hr, hm, hfe, Engines.engine_onEngine_other _ hfe]

theorem sliceEnds_part {α : Type} (π : Engines → α) (hπ : ∀ g e u, π (Engines.onEngine g e u) = π g)
    (hm : ((s.die d).eng.engine e).merged = none) : π ((sliceEnds s d e none).die d).eng = π (s.die d).eng := by
  cases hr : ((s.die d).eng.engine e).running <;> simp [sliceEnds, hr, hm, hπ]

theorem sliceEnds_ticks (hm : ((s.die d).eng.engine e).merged = none) : (sliceEnds s d e none).ticks = s.ticks := by
  cases hr : ((s.die d).eng.engine e).running <;> simp [sliceEnds, hr, hm]

theorem sliceEnds_deques (hm : ((s.die d).eng.engine e).merged = none) (h : ∀ f < 64, ((s.die d).eng.engine f).deque = []) :
    ∀ f < 64, (((sliceEnds s d e none).die d).eng.engine f).deque = [] := by
  intro f hf
  rw [sliceEnds_eng hm]
  split
  · rename_i hfe
    exact hfe ▸ h f hf
  · exact h f hf

/-- With nothing to take an engine halts. -/
theorem dispatchEng_halts (hf : ((s.die d).eng.engine e).fenceReq = false) (he : e < 64)
    (hq : ∀ f < 64, ((s.die d).eng.engine f).deque = []) :
    dispatchEng s d e = s.onDie d (·.onEng (·.onEngine e (fun n => { n with state := 0, running := none, stack := [] }))) := by
  have h := dispatchOnce_none hf (Engines.choose_none he hq)
  rw [dispatchEng_once (by rw [h]), h]

/-- An engine takes the best task of its own deque. -/
theorem dispatchEng_own {t : Task} (hf : ((s.die d).eng.engine e).fenceReq = false)
    (hb : bestHead ((s.die d).eng.engine e).deque = some t) (ht : t.type < 6) :
    dispatchEng s d e = s.onDie d (·.onEng (fun g => (g.take e t).onEngine e (fun n => n.start t g.active s.ticks))) := by
  have h := dispatchOnce_own hf (Engines.choose_own hb)
  rw [dispatchEng_once (by rw [h]; exact decide_eq_false (by omega)), h]

/-- What an engine that halts shows. -/
theorem dispatchEng_halted (hf : ((s.die d).eng.engine e).fenceReq = false) (he : e < 64)
    (hq : ∀ f < 64, ((s.die d).eng.engine f).deque = []) {t : State} (h : OnlyRecords (dispatchEng s d e) t) :
    ((t.die d).eng.engine e).running = none ∧ ((t.die d).eng.engine e).state = 0 ∧ (t.die d).eng.parked = (s.die d).eng.parked := by
  rw [h.die_eng d, dispatchEng_halts hf he hq, State.die_onDie_same, Die.onEng_eng, Engines.engine_onEngine_same, Engines.onEngine_parked]
  exact ⟨rfl, rfl, rfl⟩

/-- The state in which WAIT has parked a task, its engine free. -/
def parkedState (s : State) (d : DieId) (e : Nat) (t : Task) : State :=
  s.onDie d (·.onEng (fun g => { g.onEngine e (fun n => { n with running := none }) with parked := g.parked ++ [t] }))

theorem parkedState_engine (t : Task) (f : Nat) : ((parkedState s d e t).die d).eng.engine f =
    if f = e then { (s.die d).eng.engine e with running := none } else (s.die d).eng.engine f := by
  unfold parkedState
  rw [State.die_onDie_same, Die.onEng_eng, Engines.engine_setParked]
  split
  · rename_i hfe
    rw [hfe, Engines.engine_onEngine_same]
  · rename_i hfe
    rw [Engines.engine_onEngine_other _ hfe]

theorem parkedState_parked (t : Task) : ((parkedState s d e t).die d).eng.parked = (s.die d).eng.parked ++ [t] := by
  rw [parkedState, State.die_onDie_same, Die.onEng_eng]

theorem waitOp_parks {t : Task} (hr : ((s.die d).eng.engine e).running = some t) (hm : ((s.die d).eng.engine e).merged = none) :
    let n := (s.die d).eng.engine e
    let until_ := if m.cond = 0 && m.imm ≠ 0 then s.ticks + m.imm else 0
    waitOp s d e m = dispatchEng (parkedState s d e { t with parked := some ⟨m.target, n.stack, n.regs, m.cond, m.cinv, until_⟩ }) d e := by
  simp [waitOp, hr, hm, parkedState]

end Slices

/-! ## Rows whose condition does not hold -/

section Idle
variable {s : State} {d : DieId} {e : Nat} {rom : BitVec 128} {ecc : EccRead}

theorem microStep_idle {k : Nat} (h : (s.die d).enginesRun = false ∨ ((s.die d).eng.engine e).state ≠ 1) (hk : k ≠ 5) :
    microStep d e k rom ecc s = s := by
  unfold microStep
  rcases h with h | h
  · simp [h]
  · simp only [hk, decide_false, Bool.false_and]
    split
    · rfl
    · split <;> rfl

theorem dispatch_idle (h : (s.die d).enginesRun = false ∨ 2 ≤ ((s.die d).eng.engine e).state ∨
    (((s.die d).eng.engine e).state = 0 ∧ (s.die d).eng.dozing (e / 8) = true)) : microStep d e 5 rom ecc s = s := by
  unfold microStep
  rcases h with h | h | ⟨h, hd⟩
  · simp [h]
  · have h0 : ((s.die d).eng.engine e).state ≠ 0 := by omega
    have h1 : ((s.die d).eng.engine e).state ≠ 1 := by omega
    simp [h0, h1]
  · simp [h, hd]

/-- A halted engine's DISPATCH looks for work. -/
theorem dispatch_halted (hr : (s.die d).enginesRun = true) (h0 : ((s.die d).eng.engine e).state = 0)
    (hd : (s.die d).eng.dozing (e / 8) = false) : microStep d e 5 rom ecc s = dispatchEng s d e := by
  simp [microStep, hr, h0, hd]

end Idle

/-! ## Release and resumption (R232, R244) -/

section Release
variable {s : State} {d : DieId} {e el : Nat}

theorem taskRelease_early (h : ∀ t ∈ (s.die d).eng.armed, t.elem = el → s.ticks < t.release) : taskRelease d el s = s := by
  have : (s.die d).eng.armed.find? (fun t => t.elem = el && decide (t.release ≤ s.ticks)) = none := by
    simpa using h
  simp only [taskRelease, this]

theorem taskRelease_due {t : Task} (h : (s.die d).eng.armed.find? (fun t => t.elem = el && decide (t.release ≤ s.ticks)) = some t) :
    taskRelease d el s = placeTask (s.onDie d (fun x => x.onEng (fun g => g.disarm el))) d t := by simp only [taskRelease, h]

theorem waitResume_idle (h : (s.die d).enginesRun = false ∨ ((s.die d).eng.engine e).state ≠ 0 ∨ ∀ t ∈ (s.die d).eng.parked, t.elem ≠ el) :
    waitResume d e el s = s := by
  unfold waitResume
  rcases h with h | h | h
  · simp [h]
  · simp [h]
  · have : (s.die d).eng.parked.find? (fun t => t.elem = el) = none := by simpa using h
    simp only [this, ite_self]

theorem waitResume_parked {t : Task} (hr : (s.die d).enginesRun = true) (h0 : ((s.die d).eng.engine e).state = 0)
    (hd : (s.die d).eng.dozing (e / 8) = false) (ht : (s.die d).eng.parked.find? (fun t => t.elem = el) = some t) :
    waitResume d e el s = if waitOver s d e t then s.onDie d (fun x => x.onEng (fun g =>
      { (g.onEngine e (fun n => n.start t g.active s.ticks)) with parked := g.parked.filter (fun u => u.elem ≠ el) })) else s := by
  simp only [waitResume, hr, h0, hd, ht]
  rfl

theorem sliceOverrun_idle (h : ((s.die d).eng.engine e).running = none ∨ ((s.die d).eng.engine e).state ≠ 1 ∨
    s.ticks - ((s.die d).eng.engine e).sliceAt ≤ 4 * usT) : sliceOverrun d e s = s := by
  unfold sliceOverrun
  extract_lets n
  split
  · rename_i t ht
    refine if_neg fun hc => ?_
    simp only [Bool.and_eq_true, decide_eq_true_eq] at hc
    rcases h with h | h | h
    · rw [h] at ht; cases ht
    · exact h hc.1.1
    · exact absurd hc.2 (Nat.not_lt.2 h)
  · rfl

theorem sliceOverrun_late {t : Task} (hr : ((s.die d).eng.engine e).running = some t) (h1 : ((s.die d).eng.engine e).state = 1)
    (ht : t.type ≠ tSelftest) (hl : 4 * usT < s.ticks - ((s.die d).eng.engine e).sliceAt) : sliceOverrun d e s = microFault s d e 5 := by
  simp [sliceOverrun, hr, h1, ht, hl]

end Release

/-! ## Fence requests (R241) -/

section Fence
variable {s : State} {d : DieId} {e : Nat}

theorem putWord_eng (s : State) (d : DieId) (key v : Nat) : ((putWord s d key v).die d).eng = (s.die d).eng := by
  unfold putWord
  extract_lets x s1
  have h1 : (s1.die d).eng = (s.die d).eng := eng_onDie s d d fun _ => rfl
  split
  · rfl
  · split
    · exact ((OnlyRecords.mirrorReg s1 d key).die_eng d).trans h1
    · exact h1

/-- What FENCE_REQUEST does to engine a when its bit is b. -/
def fenceAsked (d : DieId) (s : State) (a : Nat) (b : Bool) : State :=
  if b then
    if ((s.die d).eng.engine a).state = 1 then s.onDie d (·.onEng (·.onEngine a (fun n => { n with fenceReq := true }))) else fenceEngine s d a 3
  else s

theorem fenceRequest_eq (hw : (s.die d).writable Reg.UCS_FENCE_REQ = true) (mask : Nat) : fenceRequest d mask s =
    let s1 := putWord64 s d Reg.UCS_FENCE_REQ mask
    (List.range 64).foldl (fun s a => fenceAsked d s a (bitOf ((s1.die d).reg64 Reg.UCS_FENCE_REQ) a)) s1 := by
  simp only [fenceRequest, hw]
  rfl

theorem fenceRequest_shut (hw : (s.die d).writable Reg.UCS_FENCE_REQ = false) (mask : Nat) : fenceRequest d mask s = s := by
  simp [fenceRequest, hw]

/-- A halted engine, or one that a request has fenced. -/
def Engine.restsOrFenced (n : Engine) : Prop := n.state = 0 ∨ n.state = 3 ∧ n.fenceCause = 3

theorem keptBy_rests (t : Task) : Engine.KeptBy Engine.restsOrFenced t := ⟨fun _ _ _ => .inl rfl, fun _ h => h⟩

theorem keptBy_fenced (t : Task) : Engine.KeptBy (fun n => n.state = 3 ∧ n.fenceCause = 3) t :=
  ⟨fun n h2 h => by have := h.1; omega, fun _ h => h⟩

/-- A property of engine e that a request for an engine keeps. -/
theorem closed_fenceAsked {P : Engine → Prop} (hP : ∀ t, Engine.KeptBy P t) (h : P ((s.die d).eng.engine e)) {a : Nat} {b : Bool}
    (ha : a = e → ((s.die d).eng.engine e).state ≠ 1) (hf : ∀ n : Engine, n.state ≠ 3 → P n → P (n.fenced 3)) :
    P (((fenceAsked d s a b).die d).eng.engine e) := by
  unfold fenceAsked
  split
  · split
    · rename_i h1
      rw [State.die_onDie_same, Die.onEng_eng]
      exact Engines.closed_onEngine (fun _ => h) fun hea => absurd (hea ▸ h1) (ha hea.symm)
    · exact closed_fenceEngine hP (fun _ => h) fun hea h3 => by subst hea; exact hf _ h3 h
  · exact h

/-- Engine e, halted, is fenced once the requests for engines l that name it have been carried out. -/
theorem fenceAsked_fold (req : Nat → Bool) (hreq : req e = true) (l : List Nat) : ∀ s : State,
    Engine.restsOrFenced ((s.die d).eng.engine e) →
    (e ∈ l ∨ ((s.die d).eng.engine e).state = 3 ∧ ((s.die d).eng.engine e).fenceCause = 3) →
    let n := ((l.foldl (fun s a => fenceAsked d s a (req a)) s).die d).eng.engine e
    n.state = 3 ∧ n.fenceCause = 3 := by
  induction l with
  | nil => exact fun s _ h => h.resolve_left (by simp)
  | cons a l ih =>
    intro s hs h
    have h1 : ((s.die d).eng.engine e).state ≠ 1 := by rcases hs with h | h <;> omega
    refine ih _ (closed_fenceAsked keptBy_rests hs (fun _ => h1) fun _ _ _ => .inr ⟨rfl, rfl⟩) ?_
    by_cases hd : ((s.die d).eng.engine e).state = 3 ∧ ((s.die d).eng.engine e).fenceCause = 3
    · exact .inr (closed_fenceAsked keptBy_fenced hd (fun _ => h1) fun _ _ _ => ⟨rfl, rfl⟩)
    · rcases List.mem_cons.1 (h.resolve_right hd) with rfl | he
      · refine .inr ?_
        simp only [fenceAsked, hreq, if_true, if_neg h1]
        exact closed_fenceEngine (P := fun n => n.state = 3 ∧ n.fenceCause = 3) keptBy_fenced
          (fun h3 => ⟨h3 rfl, (hs.resolve_left (by have := h3 rfl; omega)).2⟩) fun _ _ => ⟨rfl, rfl⟩
      · exact .inl he

/-- An engine that halts is fenced at once when its bit is written. -/
theorem fenceRequest_fences {mask : Nat} (hw : (s.die d).writable Reg.UCS_FENCE_REQ = true) (he : e < 64)
    (hb : bitOf (((putWord64 s d Reg.UCS_FENCE_REQ mask).die d).reg64 Reg.UCS_FENCE_REQ) e = true)
    (h0 : ((s.die d).eng.engine e).state = 0) :
    let n := ((fenceRequest d mask s).die d).eng.engine e
    n.state = 3 ∧ n.fenceCause = 3 := by
  have heng : ((putWord64 s d Reg.UCS_FENCE_REQ mask).die d).eng = (s.die d).eng := (putWord_eng ..).trans (putWord_eng ..)
  rw [fenceRequest_eq hw]
  exact fenceAsked_fold (fun a => bitOf (((putWord64 s d Reg.UCS_FENCE_REQ mask).die d).reg64 Reg.UCS_FENCE_REQ) a) hb _ _
    (.inl (heng ▸ h0)) (.inl (List.mem_range.2 he))

end Fence

/-- Settles O29: the end of a slice by what DISPATCH and WAIT make of the word's state, the other rows by the lemma of each case. -/
theorem tasksRun : Obligations.TasksRun := by
  unfold Obligations.TasksRun
  refine ⟨fun d e rom s => ⟨fun m p el ecc hecc hw => ?words, fun ecc => ⟨fun h c hc => ?idle, fun h => ?dispatchIdle, fun hr h0 hd => ?dispatch⟩⟩,
    fun d s => ⟨fun el => ⟨fun h => ?early, fun t ht => ?due, fun e => ⟨fun h => ?unparked, fun t hr h0 hd ht => ⟨fun hw => ?waits, fun hw => ?resumes⟩⟩⟩,
      fun e => ⟨fun h => ?inTime, fun t hr h1 ht hl => ?overrun⟩, fun h v => ?shut, fun hb hw v e hbit h0 => ?fences⟩⟩
  case words =>
    intro n
    have hn : ((wordState d e s m p el ecc).die d).eng.engine e = n := wordState_engine
    have hparked : ((wordState d e s m p el ecc).die d).eng.parked = (s.die d).eng.parked := by rw [wordState_eng]; rfl
    refine ⟨fun hs hm hf hq => ?halts, fun tk hs hm hf hb ht => ?takes, fun tk hs hr hm hf hq => ?parks⟩
    case halts =>
      obtain ⟨t, ht, hrec⟩ := makes_word hw hecc hs (c := .dispatch d e ⟨rom, ecc⟩) rfl
      rw [seqOp_dispatch hs] at hrec
      have hm' := hn ▸ hm
      obtain ⟨hrun, hst, hp⟩ := dispatchEng_halted (by rw [sliceEnds_eng hm', if_pos rfl, hn]; exact hf) e.isLt
        (fun f hfl => sliceEnds_deques hm' (wordState_deques_empty hq) f hfl) hrec
      exact ⟨t, ht, hrun, hst, hp.trans ((sliceEnds_part Engines.parked (fun _ _ _ => rfl) hm').trans hparked)⟩
    case takes =>
      obtain ⟨t, ht', hrec⟩ := makes_word hw hecc hs (c := .dispatch d e ⟨rom, ecc⟩) rfl
      rw [seqOp_dispatch hs] at hrec
      have hm' := hn ▸ hm
      have he1 : ((sliceEnds (wordState d e s m p el ecc) d e none).die d).eng.engine e = { n with running := none, merged := none } := by
        rw [sliceEnds_eng hm', if_pos rfl, hn]
      rw [dispatchEng_own (by rw [he1]; exact hf) (by rw [he1]; exact hb) ht] at hrec
      refine ⟨t, ht', ?_⟩
      show (t.die d).eng.engine e = _
      rw [hrec.die_eng d, State.die_onDie_same, Die.onEng_eng, Engines.engine_onEngine_same, Engines.take, Engines.engine_onEngine_same, he1,
        sliceEnds_ticks hm', wordState_ticks, sliceEnds_part Engines.active (fun _ _ _ => rfl) hm', wordState_eng]
      rfl
    case parks =>
      obtain ⟨t, ht, hrec⟩ := makes_word hw hecc hs (c := .wait d e ⟨rom, ecc⟩) rfl
      rw [seqOp_wait hs, waitOp_parks (hn ▸ hr) (hn ▸ hm), hn, wordState_ticks] at hrec
      have hempty : ∀ f < 64, (((parkedState (wordState d e s m p el ecc) d e { tk with parked := some ⟨m.target, n.stack, n.regs, m.cond,
          m.cinv, if m.cond = 0 && m.imm ≠ 0 then s.ticks + m.imm else 0⟩ }).die d).eng.engine f).deque = [] := by
        intro f hfl
        rw [parkedState_engine]
        split
        · exact wordState_deques_empty hq e e.isLt
        · exact wordState_deques_empty hq f hfl
      obtain ⟨hrun, hst, hp⟩ := dispatchEng_halted (by rw [parkedState_engine, if_pos rfl, hn]; exact hf) e.isLt hempty hrec
      exact ⟨t, ht, hrun, hst, hp.trans (by rw [parkedState_parked, hparked])⟩
  case idle =>
    simp only [List.mem_cons, List.not_mem_nil, or_false] at hc
    rcases hc with rfl | rfl | rfl | rfl | rfl | rfl <;> exact .of_done (congrArg done (microStep_idle h (by decide)))
  case dispatchIdle => exact .of_done (congrArg done (dispatch_idle h))
  case dispatch => exact .of_done (congrArg done (dispatch_halted hr h0 hd))
  case early => exact .of_done (congrArg done (taskRelease_early h))
  case due => exact .of_done (congrArg done (taskRelease_due ht))
  case unparked => exact .of_done (congrArg done (waitResume_idle h))
  case waits => exact .of_done (congrArg done ((waitResume_parked hr h0 hd ht).trans (by rw [hw]; rfl)))
  case resumes => exact .of_done (congrArg done ((waitResume_parked hr h0 hd ht).trans (if_pos hw)))
  case inTime => exact .of_done (congrArg done (sliceOverrun_idle h))
  case overrun => exact .of_done (congrArg done (sliceOverrun_late hr h1 ht hl))
  case shut =>
    rcases h with hb | hw
    · exact .of_doneBar_shut hb (f := fenceRequest d v.toNat) rfl
    · refine .of_done (u := s) (show doneBar d (fenceRequest d v.toNat) s = done s from ?_)
      rw [doneBar, fenceRequest_shut hw, ite_self]
  case fences =>
    refine .of_doneBar hb rfl fun t ht => ?_
    rw [ht.die_eng d]
    exact fenceRequest_fences hw e.isLt hbit h0

end Sys2Proof.Machine
end

section
/-!
PROOFS. Self-tests of the hold engines and of the planner's engines (R187, R238, R240).
-/

namespace Sys2Proof.Machine

/-! ## Hold engines -/

section HoldTests
variable {s : State} {d : DieId} {e : Nat}

theorem selftest_off (h : (s.die d).enginesRun = false ∨ ((s.die d).eng.engine e).state = 3) (pass : Bool) :
    selftest d e pass s = s := by
  rcases h with h | h <;> simp [selftest, h]

theorem selftestTimeout_off (h : (s.die d).enginesRun = false ∨ ((s.die d).eng.engine e).state = 3) : selftestTimeout d e s = s := by
  rcases h with h | h <;> simp [selftestTimeout, h]

section Runs
variable (hr : (s.die d).enginesRun = true) (h3 : ((s.die d).eng.engine e).state ≠ 3)
include hr h3

/-- A queued test that runs ends its slice with its verdict. -/
theorem selftest_testing {t : Nat} (ht : ((s.die d).eng.engine e).testing = some t) (pass : Bool) : selftest d e pass s =
    let s1 := s.onDie d (·.onEng (·.onEngine e (fun n => { n with testing := none, running := none, lastTest := s.ticks, defer := 0 })))
    if pass then dispatchEng s1 d e else testFailed s1 d e := by
  simp [selftest, hr, h3, ht]

theorem selftestTimeout_testing {t : Nat} (ht : ((s.die d).eng.engine e).testing = some t) :
    selftestTimeout d e s = if 25 * usT ≤ s.ticks - t then testFailed s d e else s := by
  simp [selftestTimeout, hr, h3, ht]

section Untested
variable (ht : ((s.die d).eng.engine e).testing = none)
include ht

theorem selftest_notDue (hd : testDue (s.die d) ((s.die d).eng.engine e) s.ticks = false) (pass : Bool) : selftest d e pass s = s := by
  simp [selftest, hr, h3, ht, hd]

theorem selftestTimeout_notDue (hd : testDue (s.die d) ((s.die d).eng.engine e) s.ticks = false) : selftestTimeout d e s = s := by
  simp [selftestTimeout, hr, h3, ht, hd]

section Due
variable (hd : testDue (s.die d) ((s.die d).eng.engine e) s.ticks = true)
include hd

/-- An idle engine runs its test at once. -/
theorem selftest_idle (h1 : ((s.die d).eng.engine e).state ≠ 1) (hq : ((s.die d).eng.engine e).deque = []) (pass : Bool) :
    selftest d e pass s =
      let s1 := s.onDie d (·.onEng (·.onEngine e (fun n => { n with lastTest := s.ticks, defer := 0 })))
      if pass then s1 else testFailed s1 d e := by
  simp [selftest, hr, h3, ht, hd, h1, hq]

theorem selftestTimeout_idle (h1 : ((s.die d).eng.engine e).state ≠ 1) (hq : ((s.die d).eng.engine e).deque = []) :
    selftestTimeout d e s = testFailed s d e := by
  simp [selftestTimeout, hr, h3, ht, hd, h1, hq]

end Due
end Untested
end Runs

section Busy
variable (hr : (s.die d).enginesRun = true) (ht : ((s.die d).eng.engine e).testing = none)
  (hd : testDue (s.die d) ((s.die d).eng.engine e) s.ticks = true) (h1 : ((s.die d).eng.engine e).state = 1)
  (hq : ∀ t ∈ ((s.die d).eng.engine e).deque, t.type ≠ tSelftest)
include hr ht hd h1 hq

/-- A busy engine without a queued test defers its test, and queues it from the tenth time where its deque has room. -/
theorem selftest_busy (pass : Bool) : selftest d e pass s = s.onDie d (·.onEng (fun g =>
    let k := ((s.die d).eng.engine e).defer + 1
    let g1 := g.onEngine e (fun n => { n with defer := min 15 k, lastTest := s.ticks })
    if decide (10 ≤ k) && decide (g.entries e < 128) then
      g1.onEngine e (fun n => { n with deque := n.deque ++ [⟨0, tSelftest, tCal + 1, s.ticks, none, none⟩] })
    else g1)) := by
  have hno : ((s.die d).eng.engine e).deque.any (fun t => decide (t.type = tSelftest)) = false := by simpa using hq
  unfold selftest
  simp only [hr, h1, ht, hd, hno]
  rfl

theorem selftest_deferred (hk : ((s.die d).eng.engine e).defer < 9) (pass : Bool) : selftest d e pass s =
    s.onDie d (·.onEng (·.onEngine e (fun n => { n with defer := n.defer + 1, lastTest := s.ticks }))) := by
  have hmin : min 15 (((s.die d).eng.engine e).defer + 1) = ((s.die d).eng.engine e).defer + 1 := by omega
  rw [selftest_busy hr ht hd h1 hq]
  refine State.onDie_congr (congrArg (fun g => ({ s.die d with eng := g } : Die)) ?_)
  simp only [show ¬ 10 ≤ ((s.die d).eng.engine e).defer + 1 by omega, decide_false, Bool.false_and, hmin]
  rfl

theorem selftest_queued (hk : 9 ≤ ((s.die d).eng.engine e).defer) (h15 : ((s.die d).eng.engine e).defer < 15)
    (hroom : ((s.die d).eng.engine e).deque.length < 128) (pass : Bool) : selftest d e pass s =
    s.onDie d (fun x => x.onEng (fun g =>
      (g.onEngine e (fun n => { n with defer := n.defer + 1, lastTest := s.ticks })).onEngine e (fun n =>
        { n with deque := n.deque ++ [⟨0, tSelftest, tCal + 1, s.ticks, none, none⟩] }))) := by
  have hmin : min 15 (((s.die d).eng.engine e).defer + 1) = ((s.die d).eng.engine e).defer + 1 := by omega
  rw [selftest_busy hr ht hd h1 hq]
  refine State.onDie_congr (congrArg (fun g => ({ s.die d with eng := g } : Die)) ?_)
  simp only [show 10 ≤ ((s.die d).eng.engine e).defer + 1 by omega, Engines.entries, hroom, decide_true, Bool.and_self, hmin]
  rfl

end Busy
end HoldTests

/-! ## Planner engines (R187) -/

theorem Routers.submit_fence (r : Routers) (t : RouteTask) : (r.submit t).fence = r.fence := by
  unfold submit; split <;> rfl

theorem Routers.take_fence (r : Routers) (e : Nat) : (r.take e).fence = r.fence := by
  unfold take
  split
  · rfl
  · split
    · rfl
    · split
      · split <;> rfl
      · rfl

theorem Routers.foldl_fence {α : Type} {f : Routers → α → Routers} (h : ∀ r a, (f r a).fence = r.fence) (l : List α) (r : Routers) :
    (l.foldl f r).fence = r.fence := by
  induction l generalizing r with
  | nil => rfl
  | cons a l ih => rw [List.foldl_cons, ih, h]

theorem Routers.settle_fence (r : Routers) (stopped : Bool) : (r.settle stopped).fence = r.fence := by
  unfold settle
  extract_lets r1
  have h1 : r1.fence = r.fence := by
    cases stopped
    · exact foldl_fence take_fence _ r
    · rfl
  split <;> exact h1

theorem Routers.fenceEngine_fence (r : Routers) (e : Nat) : (r.fenceEngine e).fence = r.fence ||| BitVec.ofNat 32 (2 ^ e) := by
  unfold fenceEngine
  extract_lets own cleared r1 moved cleared30 r2
  have h2 : r2.fence = r1.fence := by simp only [r2]; split <;> rfl
  rw [foldl_fence submit_fence, h2]

theorem Routers.fenceEngine_bit (r : Routers) (k j : Fin 32) :
    (r.fenceEngine k).fence.getLsbD j = (r.fence.getLsbD j || decide (j = k)) := by
  rw [fenceEngine_fence, BitVec.getLsbD_or, BitVec.getLsbD_ofNat, Nat.testBit_two_pow, decide_eq_true j.isLt, Bool.true_and]
  simp only [Fin.ext_iff, eq_comm]

section PlannerTests
variable {s : State} {d : DieId} {k : Fin 32}

theorem plannerTest_passed : plannerTest d k true s = s := by simp [plannerTest]

theorem plannerTest_off (h : (s.die d).enginesRun = false ∨ (s.die d).routers.fence.getLsbD k = true) (pass : Bool) :
    plannerTest d k pass s = s := by
  rcases h with h | h <;> simp [plannerTest, h]

/-- A planner engine that fails its test is fenced, and DCK_PLAN_FENCE shows the fenced ones. -/
theorem plannerTest_failed (hr : (s.die d).enginesRun = true) (hf : (s.die d).routers.fence.getLsbD k = false) :
    let y := (plannerTest d k false s).die d
    y.routers.fence = ((s.die d).routers.fenceEngine k).fence ∧ y.reg Reg.DCK_PLAN_FENCE = y.routers.fence.toNat ∧ y.eng = (s.die d).eng := by
  have h : plannerTest d k false s = (s.onDie d (·.onRouters (·.fenceEngine k))).onDie d
      (fun x => (x.addTotal 4).setReg Reg.DCK_PLAN_FENCE x.routers.fence.toNat) := by
    unfold plannerTest
    simp only [hr, hf]
    rfl
  simp only [h, State.die_onDie_same, Die.setReg_routers, Die.setReg_eng, Die.reg_setReg_same]
  exact ⟨Routers.settle_fence _ _, Nat.mod_eq_of_lt (BitVec.isLt _), rfl⟩

end PlannerTests

/-- Settles O30: each row of a self-test by the lemma that says what it does in that case. -/
theorem enginesTestThemselves : Obligations.EnginesTestThemselves := by
  unfold Obligations.EnginesTestThemselves
  intro d e s x n
  have hold (p : Bool) : exec (.selftest d (.hold e) p) s = done (selftest d e p s) := rfl
  have timeout : exec (.selftestTimeout d e) s = done (selftestTimeout d e s) := rfl
  have planner (k : Fin 32) (p : Bool) {u : State} (h : plannerTest d k p s = u) : exec (.selftest d (.planner k) p) s = done u := h ▸ rfl
  have holds {p : Bool} {u : State} (h : selftest d e p s = u) : Makes (.selftest d (.hold e) p) s u := .of_done (h ▸ hold p)
  have times {u : State} (h : selftestTimeout d e s = u) : Makes (.selftestTimeout d e) s u := .of_done (h ▸ timeout)
  refine ⟨fun h => ⟨fun p => holds (selftest_off h p), times (selftestTimeout_off h)⟩,
    fun hr h3 ht => ⟨fun hd => ?notDue, fun hd h1 hq => ?idle, fun hd h1 hk hq p => ?deferred, fun hd h1 hk h15 hq hl p => ?queued⟩,
    fun t hr h3 ht => ⟨fun hl => ?runs, fun hl => ?late, ?passes, ?fails⟩, fun k => ⟨?passed, fun h => ?off, fun hr hf => ?failed⟩⟩
  case notDue => exact ⟨fun p => holds (selftest_notDue hr h3 ht hd p), times (selftestTimeout_notDue hr h3 ht hd)⟩
  case idle =>
    exact ⟨holds (selftest_idle hr h3 ht hd h1 hq true), holds (selftest_idle hr h3 ht hd h1 hq false),
      times (selftestTimeout_idle hr h3 ht hd h1 hq)⟩
  case deferred => exact holds (selftest_deferred hr ht hd h1 hq hk p)
  case queued => exact holds (selftest_queued hr ht hd h1 hq hk h15 hl p)
  case runs => exact times ((selftestTimeout_testing hr h3 ht).trans (if_neg (by omega)))
  case late => exact times ((selftestTimeout_testing hr h3 ht).trans (if_pos hl))
  case passes => exact holds (selftest_testing hr h3 ht true)
  case fails => exact holds (selftest_testing hr h3 ht false)
  case passed => exact .of_done (planner k true plannerTest_passed)
  case off => exact .of_done (planner k false (plannerTest_off h false))
  case failed =>
    obtain ⟨hfence, hreg, heng⟩ := plannerTest_failed (k := k) hr hf
    refine .of_done (planner k false rfl) fun t h => ?_
    have hrouters : (t.die d).routers = ((plannerTest d k false s).die d).routers := h.die_eq d Die.routers fun _ => rfl
    have hbit (j : Fin 32) : (t.die d).routers.fence.getLsbD j = (x.routers.fence.getLsbD j || decide (j = k)) := by
      rw [hrouters, hfence, Routers.fenceEngine_bit]
    refine ⟨by rw [hbit k, decide_eq_true rfl, Bool.or_true], fun j hj => by rw [hbit j, decide_eq_false hj, Bool.or_false], ?_, (h.die_eng d).trans heng⟩
    rw [h.regs d _ (by decide), hrouters]
    exact hreg

end Sys2Proof.Machine
end

section
/-!
PROOFS. Microcode patches: staging, verification, activation and clearing (R250 to R254).
-/

namespace Sys2Proof.Machine

section Rows
variable {s : State} {d : DieId}

theorem patchData_shut (h : patchOpen (s.die d) = false) (w : Nat) : patchData d w s = s := by simp [patchData, h]

theorem patchVerify_shut (h : patchOpen (s.die d) = false) : patchVerify d s = s := by simp [patchVerify, h]

theorem patchActivate_shut (h : patchOpen (s.die d) = false) : patchActivate d s = s := by simp [patchActivate, h]

theorem patchClear_shut (h : patchOpen (s.die d) = false) : patchClear d s = s := by simp [patchClear, h]

theorem patchVerify_verifying (h : (s.die d).eng.verifying.isSome = true) : patchVerify d s = s := by simp [patchVerify, h]

theorem patchActivate_unverified (h : (s.die d).rf Reg.UCS_PATCH_STATUS F.UCS_PATCH_STATUS_STATE ≠ 3) : patchActivate d s = s := by
  simp [patchActivate, h]

theorem patchData_full (h : 4356 ≤ (s.die d).rf Reg.UCS_PATCH_PTR F.UCS_PATCH_PTR_PTR / 4 * 4) (w : Nat) : patchData d w s = s := by
  simp [patchData, h]

section Open
variable (ho : patchOpen (s.die d) = true)
include ho

/-- A new image is refused while the other bank is not drained (R253). -/
theorem patchVerify_undrained (hd : (s.die d).drained = false) (hv : (s.die d).eng.verifying = none) : patchVerify d s =
    mirrorReg (s.setRf d Reg.UCS_PATCH_STATUS F.UCS_PATCH_STATUS_RESULT 7) d Reg.UCS_PATCH_STATUS := by
  simp [patchVerify, ho, hd, hv]

theorem patchClear_undrained (hd : (s.die d).drained = false) : patchClear d s =
    mirrorReg (s.setRf d Reg.UCS_PATCH_STATUS F.UCS_PATCH_STATUS_RESULT 7) d Reg.UCS_PATCH_STATUS := by
  simp [patchClear, ho, hd]

theorem patchVerify_starts (hd : (s.die d).drained = true) (hv : (s.die d).eng.verifying = none) : patchVerify d s =
    mirrorReg (patchStatus (s.onDie d (·.onEng (fun g => { g with verifying := some s.ticks, loading := false }))) d 2 0) d
      Reg.UCS_PATCH_STATUS := by
  simp [patchVerify, ho, hd, hv]

theorem patchClear_drained (hd : (s.die d).drained = true) : patchClear d s =
    mirrorPatch (patchStatus (s.onDie d (·.onEng (fun g =>
      { g.setStaging PatchBank.reset with verifying := none, loading := false }))) d 3 0) d := by
  simp [patchClear, ho, hd]

section Verified
variable (h3 : (s.die d).rf Reg.UCS_PATCH_STATUS F.UCS_PATCH_STATUS_STATE = 3)
include h3

theorem patchActivate_waits (hf : (s.die d).dealFree = false) :
    patchActivate d s = s.onDie d (·.onEng (fun g => { g with asked := true })) := by
  simp [patchActivate, ho, h3, hf]

theorem patchActivate_now (hf : (s.die d).dealFree = true) : patchActivate d s = activateNow s d := by
  simp [patchActivate, ho, h3, hf]

end Verified
end Open

theorem patchVerifyDone_idle (h : (s.die d).eng.verifying = none) : patchVerifyDone d s = s := by simp [patchVerifyDone, h]

/-- A verified image fills the staging bank; another one leaves its result (R252). -/
theorem patchVerifyDone_eq (h : (s.die d).eng.verifying.isSome = true) : patchVerifyDone d s =
    let l := (s.die d).eng.image
    let r := patchResult l (s.die d).eng.stagedLen
    let s1 := s.onDie d (·.onEng (fun g => { g with verifying := none }))
    if r ≠ 0 then mirrorPatch (patchStatus s1 d 1 r) d
    else mirrorPatch (patchStatus (s1.onDie d (·.onEng (·.setStaging
      ⟨patchMatches l (leAt l 8 2), patchWords l (leAt l 8 2) (leAt l 6 2), leAt l 12 4⟩))) d 3 0) d := by
  obtain ⟨v, hv⟩ := Option.isSome_iff_exists.1 h
  simp only [patchVerifyDone, hv]
  rfl

theorem patchDrained_idle (h : (s.die d).drained = true ∨ (s.die d).eng.underBank (1 - (s.die d).eng.active) = true) :
    patchDrained d s = s := by
  rcases h with h | h <;> simp [patchDrained, h]

theorem patchDrained_done (hd : (s.die d).drained = false) (hu : (s.die d).eng.underBank (1 - (s.die d).eng.active) = false) :
    patchDrained d s = mirrorReg (s.setRf d Reg.UCS_PATCH_STATUS F.UCS_PATCH_STATUS_DRAINED 1) d Reg.UCS_PATCH_STATUS := by
  simp [patchDrained, hd, hu]

end Rows

/-! ## Staging (R251) -/

/-- A die whose image buffer takes a word at p, with the pointer after it. -/
def Die.stagedWord (x : Die) (p w : Nat) : Die :=
  (x.onEng (fun g => { g with staged := memWrite g.staged p (leBytes 4 w), loading := true,
                              stagedLen := if g.loading then max g.stagedLen (p + 4) else p + 4 })).setRf
    Reg.UCS_PATCH_PTR F.UCS_PATCH_PTR_PTR (p + 4)

/-- A word of an image that is not complete is staged; while no verification runs, STATE says that an image is loading. -/
theorem patchData_stages {s : State} {d : DieId} (ho : patchOpen (s.die d) = true)
    (hp : (s.die d).rf Reg.UCS_PATCH_PTR F.UCS_PATCH_PTR_PTR / 4 * 4 < 4356) (w : Nat) :
    let x := (s.die d).stagedWord ((s.die d).rf Reg.UCS_PATCH_PTR F.UCS_PATCH_PTR_PTR / 4 * 4) w
    OnlyRecords (s.onDie d fun _ => if (s.die d).rf Reg.UCS_PATCH_STATUS F.UCS_PATCH_STATUS_STATE = 2 then x
      else x.setRf Reg.UCS_PATCH_STATUS F.UCS_PATCH_STATUS_STATE 1) (patchData d w s) := by
  intro x
  have hs : patchData d w s = mirrorReg (mirrorReg (s.onDie d fun _ =>
      if (s.die d).rf Reg.UCS_PATCH_STATUS F.UCS_PATCH_STATUS_STATE = 2 then x
      else x.setRf Reg.UCS_PATCH_STATUS F.UCS_PATCH_STATUS_STATE 1) d Reg.UCS_PATCH_PTR) d Reg.UCS_PATCH_STATUS := by
    unfold patchData
    simp only [ho, show ¬ 4356 ≤ (s.die d).rf Reg.UCS_PATCH_PTR F.UCS_PATCH_PTR_PTR / 4 * 4 by omega]
    by_cases h2 : (s.die d).rf Reg.UCS_PATCH_STATUS F.UCS_PATCH_STATUS_STATE = 2
    · simp only [h2]; rfl
    · simp only [h2, if_false, State.setRf, State.onDie_onDie]
      exact congrArg (fun t => mirrorReg (mirrorReg t d _) d _) (State.onDie_congr rfl)
  rw [hs]
  exact (OnlyRecords.mirrorReg _ d _).trans (OnlyRecords.mirrorReg _ d _)

/-! ## Activation (R254) -/

/-- A die whose verified staging bank has become its active one. -/
def Die.patchTurned (x : Die) : Die :=
  ((((x.onEng (fun g => { g with active := 1 - g.active, asked := false })).setRf Reg.UCS_PATCH_STATUS F.UCS_PATCH_STATUS_DRAINED 0).setRf
    Reg.UCS_PATCH_STATUS F.UCS_PATCH_STATUS_STATE 0).setRf Reg.UCS_PATCH_STATUS F.UCS_PATCH_STATUS_RESULT 0)

/-- The old bank is not drained, and STATE and RESULT are 0. -/
theorem Die.patchTurned_status (x : Die) : x.patchTurned.drained = false ∧
    x.patchTurned.rf Reg.UCS_PATCH_STATUS F.UCS_PATCH_STATUS_STATE = 0 ∧ x.patchTurned.rf Reg.UCS_PATCH_STATUS F.UCS_PATCH_STATUS_RESULT = 0 := by
  have field (f : Fld) (hf : f ∈ [F.UCS_PATCH_STATUS_DRAINED, F.UCS_PATCH_STATUS_STATE, F.UCS_PATCH_STATUS_RESULT]) :
      x.patchTurned.rf Reg.UCS_PATCH_STATUS f = 0 := by
    simp only [List.mem_cons, List.not_mem_nil, or_false] at hf
    simp only [patchTurned, Die.rf, Die.setRf, Die.reg_setReg_same]
    rcases hf with rfl | rfl | rfl
    · rw [fget_mod _ 32 _ (by decide) (by decide), fget_fput_other _ _ (by decide) (by decide) (by decide), fget_mod _ 32 _ (by decide) (by decide),
        fget_fput_other _ _ (by decide) (by decide) (by decide), fget_mod _ 32 _ (by decide) (by decide), fget_fput_same _ (by decide)]
      rfl
    · rw [fget_mod _ 32 _ (by decide) (by decide), fget_fput_other _ _ (by decide) (by decide) (by decide), fget_mod _ 32 _ (by decide) (by decide),
        fget_fput_same _ (by decide)]
      rfl
    · rw [fget_mod _ 32 _ (by decide) (by decide), fget_fput_same _ (by decide)]
      rfl
  refine ⟨?_, field _ (by simp), field _ (by simp)⟩
  rw [drained, rbit, field _ (by simp)]
  rfl

/-- A change that the mirror's die makes too (R35). -/
theorem shadowed_die (s : State) (d c : DieId) (f : Die → Die) (hc : c = d ∨ s.mirrored d = true) :
    (shadowed s d f).die c = f (s.die c) := by
  by_cases h : c = d
  · subst h
    exact die_shadowed s c f
  · have hp : c = d.peer := by revert h; cases c <;> cases d <;> decide
    subst hp
    rw [shadowed, if_pos (hc.resolve_left h), State.die_onDie_same, State.die_onDie_peer]

/-- The banks swap on the die and on its mirror. -/
theorem activateNow_die (s : State) (d c : DieId) (hc : c = d ∨ s.mirrored d = true) : (activateNow s d).die c = (s.die c).patchTurned :=
  shadowed_die s d c Die.patchTurned hc

/-- Settles O31: each access of the patch registers by the lemma that says what it does in that case. -/
theorem patchBanks : Obligations.PatchBanks := by
  unfold Obligations.PatchBanks
  intro d s x act
  refine ⟨fun h => ?shut, fun hb ho => ⟨fun hp w => ?full, fun hp w => ?stages, fun hd hv => ?undrained, fun hd hv => ?verifies,
      fun hv => ?verifying, fun hd => ?clears, fun h3 => ?unverified, fun h3 => ⟨fun hf => ?waits, fun hf => ?activates⟩⟩,
    fun hv => .of_done (congrArg done (patchVerifyDone_idle hv)),
    fun hv => ⟨fun hr => .of_done (congrArg done ((patchVerifyDone_eq hv).trans (if_pos hr))),
      fun hr => .of_done (congrArg done ((patchVerifyDone_eq hv).trans (if_neg (not_not.2 hr))))⟩,
    fun h => .of_done (congrArg done (patchDrained_idle h)), fun hd hu => .of_done (congrArg done (patchDrained_done hd hu))⟩
  case shut =>
    have shut {c : Instr} {f : State → State} (hc : exec c s = doneBar d f s) (hf : patchOpen x = false → f s = s) : Makes c s s := by
      rcases h with hb | ho
      · exact .of_doneBar_shut hb hc
      · refine .of_done (hc.trans ?_)
        rw [doneBar, hf ho, ite_self]
    exact ⟨fun w => shut rfl fun ho => patchData_shut ho w.toNat, shut rfl patchVerify_shut, shut rfl patchActivate_shut,
      shut rfl patchClear_shut⟩
  all_goals
    have makes {c : Instr} {f : State → State} {u : State} (hc : exec c s = doneBar d f s) (hf : f s = u) : Makes c s u :=
      hf ▸ .of_doneBar hb hc
  case full => exact makes rfl (patchData_full hp w.toNat)
  case undrained => exact ⟨makes rfl (patchVerify_undrained ho hd hv), makes rfl (patchClear_undrained ho hd)⟩
  case verifies => exact makes rfl (patchVerify_starts ho hd hv)
  case verifying => exact makes rfl (patchVerify_verifying hv)
  case clears => exact makes rfl (patchClear_drained ho hd)
  case unverified => exact makes rfl (patchActivate_unverified h3)
  case waits => exact makes rfl (patchActivate_waits ho h3 hf)
  case stages =>
    refine .of_doneBar hb rfl fun t h => ?_
    let p := x.rf Reg.UCS_PATCH_PTR F.UCS_PATCH_PTR_PTR / 4 * 4
    have hk := (patchData_stages ho hp w.toNat).trans h
    have rf {k : Nat} (hk' : recordKey k = false) (f : Fld) := congrArg (fget f) (hk.regs d k hk')
    have hkey : Reg.UCS_PATCH_PTR ≠ Reg.UCS_PATCH_STATUS := by decide
    have hstate : (x.stagedWord p w.toNat).rf Reg.UCS_PATCH_STATUS F.UCS_PATCH_STATUS_STATE =
        x.rf Reg.UCS_PATCH_STATUS F.UCS_PATCH_STATUS_STATE := Die.rf_setRf_other _ (Ne.symm hkey) _ _ _
    have hptr : (x.stagedWord p w.toNat).rf Reg.UCS_PATCH_PTR F.UCS_PATCH_PTR_PTR = p + 4 :=
      (Die.rf_setRf_same _ _ (by decide) (by decide) _).trans (Nat.mod_eq_of_lt (Nat.lt_trans (Nat.add_lt_add_right hp 4) (by decide)))
    refine ⟨(hk.die_eng d).trans ?_, (rf (by decide) _).trans ?_, (rf (by decide) _).trans ?_⟩ <;> rw [State.die_onDie_same]
    · split <;> rfl
    · split
      · exact hptr
      · exact (congrArg (fget _) (Die.reg_setRf_other _ hkey _ _)).trans hptr
    · show fget _ (Die.reg _ _) = _
      split
      · rename_i h2
        exact hstate.trans h2
      · exact Die.rf_setRf_same _ _ (by decide) (by decide) _
  case activates =>
    refine .of_doneBar hb rfl fun t h c hc => ?_
    have ht : (patchActivate d s).die c = (s.die c).patchTurned := by rw [patchActivate_now ho h3 hf, activateNow_die s d c hc]
    obtain ⟨hd, hst, hres⟩ := (s.die c).patchTurned_status
    have rf (f : Fld) : (t.die c).rf Reg.UCS_PATCH_STATUS f = (s.die c).patchTurned.rf Reg.UCS_PATCH_STATUS f := by
      rw [← ht]; exact congrArg (fget f) (h.regs c _ (by decide))
    refine ⟨(h.die_eng c).trans (ht ▸ rfl), ?_, (rf _).trans hst, (rf _).trans hres⟩
    rw [← hd]
    exact congrArg (· != 0) (rf _)

end Sys2Proof.Machine
end

section
/-!
PROOFS. What a control die does by itself, ending commands, closing the service lock, starting a yield, leaves of the bank dies and of the
mirror link; what it sends is added to what was sent.
-/

namespace Sys2Proof.Machine

/-- From s to t the bank dies and the mirror link stay, and what was sent stays sent. -/
structure KeepsLinks (s t : State) : Prop where
  banks : t.banks = s.banks
  mirror : t.mirror = s.mirror
  out : s.out <+: t.out

namespace KeepsLinks
variable {s t u : State}

theorem refl (s : State) : KeepsLinks s s := ⟨rfl, rfl, List.prefix_refl _⟩

theorem trans (h : KeepsLinks s t) (k : KeepsLinks t u) : KeepsLinks s u :=
  ⟨k.banks.trans h.banks, k.mirror.trans h.mirror, h.out.trans k.out⟩

theorem bank (h : KeepsLinks s t) (b : Nat) : t.bank b = s.bank b := by unfold State.bank; rw [h.banks]

theorem mem_out (h : KeepsLinks s t) {o : Out} (ho : o ∈ s.out) : o ∈ t.out := h.out.subset ho

theorem of_records (h : OnlyRecords s t) : KeepsLinks s t := ⟨h.banks, h.mirrorLink, h.out⟩

theorem emit (s : State) (o : Out) : KeepsLinks s (s.emit o) := ⟨rfl, rfl, by simp⟩

theorem onDie (s : State) (d : DieId) (f : Die → Die) : KeepsLinks s (s.onDie d f) := ⟨by simp, by simp, by simp⟩

theorem foldl {α : Type} (g : State → α → State) (h : ∀ t a, KeepsLinks t (g t a)) (l : List α) (s : State) : KeepsLinks s (l.foldl g s) := by
  induction l generalizing s with
  | nil => exact .refl s
  | cons a l ih => exact (h s a).trans (ih _)

/-! ## Recording -/

theorem raise (s : State) (d : DieId) (src inst : Nat) : KeepsLinks s (raise s d src inst) := by
  unfold Machine.raise
  split
  · exact .onDie ..
  · exact .refl s

theorem raiseBoth (s : State) (src inst : Nat) : KeepsLinks s (raiseBoth s src inst) := (raise ..).trans (.raise ..)

theorem mirrored (s : State) (d : DieId) (p : Payload) : KeepsLinks s (Machine.mirror s d p) := .of_records (.mirror s d p)

theorem askPeer (s : State) (d : DieId) (q : PeerReq) : KeepsLinks s (askPeer s d q) := by
  unfold Machine.askPeer
  split
  · exact .onDie ..
  · exact .refl s

theorem coalesce (s : State) (d : DieId) (f r : Nat) (irq : Bool) : KeepsLinks s (coalesce s d f r irq) := by
  unfold Machine.coalesce
  extract_lets x g g' s1 need
  have h1 : KeepsLinks s s1 := .onDie ..
  split
  · exact (h1.trans (.onDie ..)).trans (.of_records (.raiseVec ..))
  · exact h1

theorem writeEntry (s : State) (d : DieId) (f r : Nat) (bytes : List Byte) (irq : Bool) : KeepsLinks s (writeEntry s d f r bytes irq) := by
  unfold Machine.writeEntry
  exact ((emit ..).trans (.onDie ..)).trans ((emit ..).trans (.coalesce ..))

/-! ## The end of a command (R404, R405) -/

theorem writeCpl (s : State) (d : DieId) (f cq : Nat) (bytes : List Byte) (irq : Bool) : KeepsLinks s (writeCpl s d f cq bytes irq) := by
  unfold Machine.writeCpl
  extract_lets x
  split_ifs
  · exact .refl s
  · exact .onDie ..
  · exact .writeEntry ..

theorem enqueue (s : State) (d : DieId) (p q : Nat) (f : TxFrame) : KeepsLinks s (enqueue s d p q f).1 := by
  unfold Machine.enqueue
  extract_lets x c n depth lim used full t
  split_ifs
  · exact .refl s
  · exact (onDie ..).trans (.raise ..)
  · dsimp only
    exact .onDie ..

theorem egress (s : State) (d : DieId) (p cls : Nat) (queue : Option Nat) (zsl : Bool) (f : TxFrame) :
    KeepsLinks s (egress s d p cls queue zsl f).1 := by
  unfold Machine.egress
  extract_lets x
  split_ifs
  · exact .enqueue ..
  · exact .enqueue ..
  · split
    · exact (onDie ..).trans (.enqueue ..)
    · exact .enqueue ..
    · exact .enqueue ..

theorem sendVsp (s : State) (d : DieId) (src : VspFrom) (cls : Nat) (queue : Option Nat) (yellow trump : Bool) (msg : List Byte) :
    KeepsLinks s (sendVsp s d src cls queue yellow trump msg) := by
  unfold Machine.sendVsp
  extract_lets x f
  split
  · unfold sendTrump
    split
    · exact (egress ..).trans (.onDie ..)
    · exact .egress ..
  · exact .askPeer ..

theorem sendAgent (s : State) (d : DieId) (id type flags : Nat) (g : Egr) (body : List Byte) :
    KeepsLinks s (sendAgent s d id type flags g body) := by
  unfold Machine.sendAgent
  extract_lets x
  split
  · exact .refl s
  · exact (onDie ..).trans (.sendVsp ..)

theorem trumpDone (s : State) (src : VspFrom) (cls : Nat) : KeepsLinks s (trumpDone s src cls) := by
  unfold Machine.trumpDone
  split
  · exact .onDie ..
  · exact .refl s

theorem answer (s : State) (d : DieId) (id reftype refseq type : Nat) (g : Egr) (src : VspFrom) (body : List Byte) :
    KeepsLinks s (answer s d id reftype refseq type g src body) := by
  unfold Machine.answer
  extract_lets s1 s2
  have h1 : KeepsLinks s s1 := by
    unfold s1
    split
    · exact .onDie ..
    · exact .refl s
  have h2 : KeepsLinks s1 s2 := by
    unfold s2
    split
    · exact .trumpDone ..
    · exact .refl s1
  exact (h1.trans h2).trans ((sendAgent ..).trans (.mirrored ..))

theorem complete (s : State) (d : DieId) (o : Origin) (status result frac aux : Nat) : KeepsLinks s (complete s d o status result frac aux) := by
  cases o with
  | none => exact .refl s
  | ring fn ring tag dflags opcode modeCnt =>
    simp only [Machine.complete]
    split
    · exact .refl s
    · exact .writeCpl ..
  | vsp src agent seq cls queue yellow =>
    simp only [Machine.complete]
    split <;> exact .answer ..

theorem finish (s : State) (d : DieId) (id status result frac aux : Nat) : KeepsLinks s (finish s d id status result frac aux) := by
  unfold Machine.finish
  split
  · exact .refl s
  · extract_lets s1 s2
    have h1 : KeepsLinks s s1 := .onDie ..
    have h2 : KeepsLinks s1 s2 := by
      unfold s2
      split_ifs
      · exact .refl s1
      · exact (onDie ..).trans (.raise ..)
      · exact .complete ..
    split
    · exact (h1.trans h2).trans (.mirrored ..)
    · exact h1.trans h2

/-- Rule commands go on without the peer (R352). -/
theorem ruleAlone (s : State) (d : DieId) : KeepsLinks s (ruleAlone s d) := by
  unfold Machine.ruleAlone ruleWaits
  refine (onDie ..).trans ((onDie ..).trans (.foldl _ (fun t w => ?_) _ _))
  split
  · exact .askPeer ..
  · exact .finish ..

/-! ## The service lock (R512, R519) -/

theorem mtxPutByte (s : State) (d : DieId) (m t o : Nat) (b : Byte) : KeepsLinks s (mtxPutByte s d m t o b) := by
  have flash (mem : Memory) : KeepsLinks s (s.setFlash d mem) := by cases d <;> exact ⟨rfl, rfl, List.prefix_refl _⟩
  unfold Machine.mtxPutByte
  split
  case h_3 =>
    split
    · exact .onDie ..
    · exact .refl s
  case h_5 =>
    split_ifs
    · exact flash _
    · exact .refl s
    · exact .onDie ..
  case h_6 => exact ⟨rfl, rfl, List.prefix_refl _⟩
  case h_8 => exact .refl s
  all_goals exact .onDie ..

theorem masterReset (d : DieId) (m : Nat) (s : State) : KeepsLinks s (masterReset d m s) := by
  have drawn (t : State) : KeepsLinks t t.drawn := ⟨rfl, rfl, List.prefix_refl _⟩
  unfold Machine.masterReset
  refine KeepsLinks.trans (.foldl _ (fun t o => ?_) _ _) (.onDie ..)
  split
  · split
    · exact drawn t
    · exact (drawn t).trans (KeepsLinks.trans (.foldl _ (fun t p => .mtxPutByte ..) _ _) (.onDie ..))
  · exact .refl t

/-- The lock closes while the module stays where it is. -/
theorem lockClose (s : State) : KeepsLinks s (lockClose s false) := by
  unfold Machine.lockClose
  extract_lets was close s1 s2
  have h1 : KeepsLinks s s1 := (onDie ..).trans (.onDie ..)
  have h2 : KeepsLinks s1 s2 := (masterReset ..).trans (.masterReset ..)
  split
  · split
    · exact h1.trans h2
    · exact h1.trans h2
  · exact h1

/-! ## A yield starts (R430) -/

theorem rejectFetched (s : State) (d : DieId) : KeepsLinks s (rejectFetched s d) :=
  .foldl _ (fun t _ => .foldl _ (fun _ _ => (onDie ..).trans (.foldl _ (fun _ _ => .complete ..) _ _)) _ t) _ s

theorem startYield (s : State) (d : DieId) (cmd reset : Option Nat) : KeepsLinks s (startYield s d cmd reset) :=
  ((onDie ..).trans (.rejectFetched ..)).trans (.foldl _ (fun _ _ => .finish ..) _ _)

/-! ## The mirror link goes down (R63, R419) -/

theorem mirrorSeenDown (s : State) (d : DieId) : KeepsLinks s (mirrorSeenDown s d) := by
  unfold Machine.mirrorSeenDown
  split
  · exact (onDie ..).trans (.ruleAlone ..)
  · exact .refl s

theorem claimEnds (s : State) (d : DieId) : KeepsLinks s (claimEnds s d) := by
  unfold Machine.claimEnds
  split
  · split
    · split
      · exact .finish ..
      · exact .refl s
    · exact .refl s
  · exact .refl s

/-- What a unit shuts again over a link that has come up is sent. -/
theorem shutAgain (s : State) (u : DieId) (b : Nat) : KeepsLinks s (shutAgain s u b) := by
  unfold Machine.shutAgain
  split
  · refine .foldl _ (fun t _ => ?_) _ s
    split
    · exact .emit ..
    · exact .refl t
  · exact .refl s

end KeepsLinks

end Sys2Proof.Machine
end

section
/-!
PROOFS. What a reset leaves of the bank dies (R284): power-on and MODRST_N clear them, the resets of a control die and of a bank link keep
all but the ports that hold a gate shut (R270).
-/

namespace Sys2Proof.Machine

/-! ## Channels of a bank die -/

@[simp] theorem Bank.chan_onChan_same (k : Bank) (l : Nat) (f : Chan → Chan) : (k.onChan l f).chan l = f (k.chan l) := spGet_set_same _ _ _ _

theorem Bank.chan_onChan_other (k : Bank) {l n : Nat} (h : n ≠ l) (f : Chan → Chan) : (k.onChan l f).chan n = k.chan n :=
  spGet_set_other _ h _ _

/-! ## What R284 keeps -/

theorem Bank.Kept.refl (k : Bank) : Bank.Kept k k := ⟨fun _ => rfl, rfl, rfl, rfl, rfl, rfl, rfl, rfl⟩

theorem Bank.Kept.trans {k l m : Bank} (h : Bank.Kept m l) (g : Bank.Kept l k) : Bank.Kept m k := by
  obtain ⟨hh, hy, hg⟩ := h.token
  obtain ⟨gh, gy, gg⟩ := g.token
  exact ⟨fun n => (h.chans n).trans (g.chans n), h.gain.trans g.gain, h.preloads.trans g.preloads, h.probes.trans g.probes,
    h.blind.trans g.blind, hh.trans gh, hy.trans gy, hg.trans gg⟩

theorem Bank.kept_setLink (k : Bank) (p : DieId) (l : Link) : Bank.Kept (k.setLink p l) k := by
  cases p <;> exact ⟨fun _ => rfl, rfl, rfl, rfl, rfl, rfl, rfl, rfl⟩

/-- The force of a gate ends, and nothing else of its channel changes. -/
theorem Bank.unforce_kept (k : Bank) (c : Chan) :
    { k.unforce c with shutA := false, shutB := false } = { c with shutA := false, shutB := false } := by
  unfold Bank.unforce
  split <;> rfl

theorem Bank.kept_unforce (k : Bank) (l : Nat) : Bank.Kept (k.onChan l k.unforce) k := by
  refine ⟨fun n => ?_, rfl, rfl, rfl, rfl, rfl, rfl, rfl⟩
  by_cases h : n = l
  · rw [h, k.chan_onChan_same, k.unforce_kept]
  · rw [k.chan_onChan_other h]

theorem Bank.kept_portLost (k : Bank) : Bank.Kept k.portLost k := by
  unfold Bank.portLost
  generalize gatesNamed (BitVec.allOnes 128) = gates
  induction gates generalizing k with
  | nil => exact .refl k
  | cons l gates ih => exact (ih _).trans (k.kept_unforce l)

/-- A link that goes down takes its port's hold on the gates with it (R270). -/
theorem Bank.kept_linkLost (k : Bank) (p : DieId) (l : Link) : Bank.Kept (k.setLink p l).portLost k :=
  (Bank.kept_portLost _).trans (k.kept_setLink p l)

/-- From s to t every bank die keeps what R284 says. -/
structure BanksKept (s t : State) : Prop where
  kept : ∀ b : Nat, Bank.Kept (t.bank b) (s.bank b)

namespace BanksKept
variable {s t u : State}

theorem trans (h : BanksKept s t) (g : BanksKept t u) : BanksKept s u := ⟨fun b => (g.kept b).trans (h.kept b)⟩

theorem of_banks (h : t.banks = s.banks) : BanksKept s t := ⟨fun b => by unfold State.bank; rw [h]; exact .refl _⟩

theorem of_links (h : KeepsLinks s t) : BanksKept s t := .of_banks h.banks

theorem refl (s : State) : BanksKept s s := .of_links (.refl s)

theorem onBank (s : State) (b : Nat) {f : Bank → Bank} (hf : ∀ k, Bank.Kept (f k) k) : BanksKept s (s.onBank b f) := by
  refine ⟨fun c => ?_⟩
  by_cases h : c % 8 = b % 8
  · have hc (v : State) : v.bank c = v.bank b := by simp only [State.bank, h]
    rw [hc, hc, State.bank_onBank_same]
    exact hf _
  · rw [State.bank_onBank_other s h]
    exact .refl _

theorem foldl {α : Type} (g : State → α → State) (h : ∀ t a, BanksKept t (g t a)) (l : List α) (s : State) : BanksKept s (l.foldl g s) := by
  induction l generalizing s with
  | nil => exact .refl s
  | cons a l ih => exact (h s a).trans (ih _)

/-! ## Resets of a control die -/

theorem dropBankLinks (s : State) (d : DieId) : BanksKept s (dropBankLinks s d) :=
  .foldl _ (fun t b => .onBank t b fun k => k.kept_linkLost d _) _ s

theorem dieReset (s : State) (d : DieId) (kind : Nat) : BanksKept s (dieReset s d kind) := by
  unfold Machine.dieReset
  extract_lets x up s0 s1 s2
  have h0 : KeepsLinks s s0 := by
    unfold s0
    split
    · exact (KeepsLinks.lockClose s).trans (.claimEnds ..)
    · exact .claimEnds ..
  have h1 : BanksKept s s1 := ((of_links h0).trans (.of_links (.onDie ..))).trans (.dropBankLinks _ d)
  have h2 : BanksKept s s2 := h1.trans (.of_banks rfl)
  split_ifs
  · exact .refl s
  · exact h2.trans (.of_links (.mirrorSeenDown ..))
  · exact h2

/-- A reset that yields first, or is made at once. -/
theorem yieldingReset (s : State) (d : DieId) (kind : Nat) : BanksKept s (yieldingReset s d kind) := by
  unfold Machine.yieldingReset
  split
  · unfold plannedTrigger
    extract_lets x refuse
    split
    · split
      · exact .dieReset ..
      · exact .of_links (.onDie ..)
    · split_ifs
      · exact (of_links (.onDie ..)).trans (.dieReset ..)
      · exact .of_links (.startYield ..)
      · exact .of_links (.onDie ..)
      · exact .dieReset ..
  · exact .dieReset ..

theorem softwareReset (d : DieId) (v : Nat) (s : State) : BanksKept s (softwareReset d v s) := by
  unfold Machine.softwareReset
  extract_lets x
  split
  · exact .yieldingReset ..
  · exact .refl s

theorem cdrstAssert (d : DieId) (s : State) : BanksKept s (cdrstAssert d s) := by
  unfold Machine.cdrstAssert
  extract_lets pins s1
  have h1 : BanksKept s s1 := .of_banks rfl
  split
  · exact h1
  · exact h1.trans (.dieReset ..)

/-! ## Resets of a bank link -/

theorem linkDown (s : State) (d : DieId) (b : Nat) : BanksKept s (linkDown s d b) := by
  unfold Machine.linkDown
  extract_lets l s0 s1
  have h0 : BanksKept s s0 := by
    unfold s0
    split
    · exact .of_links (.onDie ..)
    · exact .refl s
  exact (h0.trans (.onBank s0 b fun k => k.kept_linkLost d _)).trans (.of_links (.raise ..))

theorem linkUp (d : DieId) (b : Nat) (s : State) : BanksKept s (linkUp d b s) := by
  unfold Machine.linkUp
  extract_lets l held
  split
  · exact .refl s
  · exact (onBank s b fun k => k.kept_setLink d _).trans (.of_links (.shutAgain ..))

end BanksKept

/-! ## Resets of the module -/

theorem bankReset_bank (s : State) (b : Nat) : (bankReset s).bank b = Bank.reset (b % 8) := by
  simp [bankReset, State.bank]

theorem Bank.Cleared.of_driven {k : Bank} (h : Bank.Cleared k) (driven : Bool) : Bank.Cleared { k with driven := driven } :=
  ⟨h.codes, h.shadows, h.stores, h.bands, h.gain, h.preloads, h.probes, h.blind, h.token⟩

theorem powerOn_cleared (s : State) (b : Nat) : Bank.Cleared ((powerOn s).bank b) := by
  unfold powerOn
  rw [bankReset_bank]
  exact Bank.cleared_reset _

theorem foldl_onBank_cleared (f : Nat → Bank → Bank) (hf : ∀ i k, Bank.Cleared k → Bank.Cleared (f i k)) (l : List Nat) (s : State)
    (h : ∀ b, Bank.Cleared (s.bank b)) (b : Nat) : Bank.Cleared ((l.foldl (fun t i => t.onBank i (f i)) s).bank b) := by
  induction l generalizing s with
  | nil => exact h b
  | cons i l ih =>
    refine ih _ fun c => ?_
    by_cases hc : c % 8 = i % 8
    · have e (v : State) : v.bank c = v.bank i := by simp only [State.bank, hc]
      rw [e, State.bank_onBank_same]
      exact hf i _ (h i)
    · rw [State.bank_onBank_other s hc]
      exact h c

theorem moduleHold_cleared (s : State) (kind b : Nat) : Bank.Cleared ((moduleHold s kind).bank b) := by
  unfold moduleHold
  refine foldl_onBank_cleared _ (fun _ _ h => h.of_driven _) _ _ (fun c => ?_) b
  rw [bankReset_bank]
  exact Bank.cleared_reset _

theorem modrstAssert_cleared {s : State} (h : s.pins.modrstLow = false) (b : Nat) : Bank.Cleared ((modrstAssert s).bank b) := by
  unfold modrstAssert
  rw [if_neg (by simp [h])]
  exact moduleHold_cleared ..

/-- Settles O58: a module reset puts the reset state of every bank die in place, and no other reset reaches one but over its links. -/
theorem bankDieResetClears : Obligations.BankDieResetClears := by
  unfold Obligations.BankDieResetClears
  have cleared {c : Instr} {s u : State} (hc : exec c s = done u) (hu : ∀ b, Bank.Cleared (u.bank b)) :
      Answers c s fun t => ∀ b : Fin 8, Bank.Cleared (t.bank b) := .of_done hc fun t h b => h.bank b ▸ hu b
  have kept {c : Instr} {s u : State} (hc : exec c s = done u) (hu : BanksKept s u) :
      Answers c s fun t => ∀ b : Fin 8, Bank.Kept (t.bank b) (s.bank b) := .of_done hc fun t h b => h.bank b ▸ hu.kept b
  refine fun s => ⟨fun _ _ => cleared rfl (powerOn_cleared s), fun hm _ _ _ => cleared rfl (modrstAssert_cleared hm),
    fun d => ⟨kept rfl (.cdrstAssert d s), fun v => kept rfl (.softwareReset d v.toNat s), kept rfl ?_, fun c => ⟨kept rfl ?_, kept rfl (.linkUp d c s)⟩⟩⟩
  · split
    · exact .dieReset ..
    · exact .refl s
  · split
    · exact .linkDown ..
    · exact .refl s

end Sys2Proof.Machine
end

section
/-!
PROOFS. Messages of the token holder at a bank die (R258, R263, R265, R272 to R275, R282): what an accepted message makes, also where it has
an answer.
-/

namespace Sys2Proof.Machine

/-! ## What the arrival of a message leaves -/

theorem State.onBank_congr (s : State) (b : Nat) {f g : Bank → Bank} (h : f (s.bank b) = g (s.bank b)) : s.onBank b f = s.onBank b g := by
  unfold State.onBank
  rw [h]

/-- A part of a bank die that the arrival of a message leaves: all but a link, the time of the last message and the blind engine. -/
theorem Bank.receive_part {α : Type} (π : Bank → α) (hl : ∀ k p l, π (Bank.setLink k p l) = π k) (hm : ∀ k n, π { k with lastMsg := n } = π k)
    (hb : ∀ k bl, π { k with blind := bl } = π k) (k : Bank) (p : DieId) (t : Nat) (drive : Bool) : π (k.receive p t drive) = π k := by
  have heard : π ((k.setLink p { k.link p with bad := 0 }).heard p t) = π k := by
    unfold Bank.heard
    split
    · exact (hm _ _).trans (hl ..)
    · exact hl ..
  have unblind (k : Bank) : π k.unblind = π k := by
    unfold Bank.unblind
    split
    · exact hb _ _
    · rfl
  unfold Bank.receive
  split
  · exact (unblind _).trans heard
  · exact heard

@[simp] theorem Bank.receive_chans (k : Bank) (p : DieId) (t : Nat) (drive : Bool) : (k.receive p t drive).chans = k.chans :=
  Bank.receive_part Bank.chans (fun _ p _ => by cases p <;> rfl) (fun _ _ => rfl) (fun _ _ => rfl) k p t drive

@[simp] theorem Bank.receive_chan (k : Bank) (p : DieId) (t : Nat) (drive : Bool) (l : Nat) : (k.receive p t drive).chan l = k.chan l := by
  unfold Bank.chan
  rw [Bank.receive_chans]

@[simp] theorem Bank.receive_preloads (k : Bank) (p : DieId) (t : Nat) (drive : Bool) : (k.receive p t drive).preloads = k.preloads :=
  Bank.receive_part Bank.preloads (fun _ p _ => by cases p <;> rfl) (fun _ _ => rfl) (fun _ _ => rfl) k p t drive

@[simp] theorem Bank.receive_urgent (k : Bank) (p : DieId) (t : Nat) (drive : Bool) : (k.receive p t drive).urgent = k.urgent :=
  Bank.receive_part Bank.urgent (fun _ p _ => by cases p <;> rfl) (fun _ _ => rfl) (fun _ _ => rfl) k p t drive

/-! ## Comparing copies sends nothing -/

theorem bankDiff_out (s : State) (b : Nat) (missing : Bool) : (bankDiff s b missing).out = s.out := by
  unfold bankDiff noteDiff
  extract_lets s1 s2
  have h2 : s2.out = s.out := by simp [s2, s1]
  split
  · simp [raise_out, h2]
  · exact h2

theorem compareCopy_out (s : State) (p : DieId) (b kind elem n : Nat) (fields : List Nat) : (compareCopy s p b kind elem n fields).out = s.out := by
  unfold compareCopy
  extract_lets k
  split
  · rfl
  · split
    · split
      · rfl
      · exact bankDiff_out ..
    · rfl

/-! ## Accepted messages -/

/-- State t is state s in which bank die b has received a message of port p, but for the comparison of its copies. -/
structure Received (s : State) (p : DieId) (b : Nat) (drive : Bool) (t : State) : Prop where
  records : OnlyRecords ((s.onBank b (·.receive p s.ticks drive)).uncompared b) (t.uncompared b)
  out : t.out = s.out

namespace Received
variable {s t : State} {p : DieId} {b : Nat} {drive : Bool} (h : Received s p b drive t)
include h

theorem ticks : t.ticks = s.ticks := (congrArg State.ticks h.records.quiet :)

theorem bank : (t.bank b).uncompared = ((s.bank b).receive p s.ticks drive).uncompared := by
  rw [← h.records.uncompared_bank, State.bank_onBank_same]

theorem chans : (t.bank b).chans = (s.bank b).chans := (congrArg Bank.chans h.bank).trans (Bank.receive_chans ..)
theorem chan (l : Nat) : (t.bank b).chan l = (s.bank b).chan l := by unfold Bank.chan; rw [h.chans]
theorem preloads : (t.bank b).preloads = (s.bank b).preloads := (congrArg Bank.preloads h.bank).trans (Bank.receive_preloads ..)
theorem urgent : (t.bank b).urgent = (s.bank b).urgent := (congrArg Bank.urgent h.bank).trans (Bank.receive_urgent ..)

theorem dealer (d : DieId) : (t.die d).dealer = (s.die d).dealer := by
  have e := h.records.die_dealer d
  cases d <;> exact e

/-- The same change of the bank die after its message has arrived. -/
theorem onBank {g : Bank → Bank} (hg : ∀ k, (g k).uncompared = (g k.uncompared).uncompared) :
    OnlyRecords ((s.onBank b (fun k => g (k.receive p s.ticks drive))).uncompared b) ((t.onBank b g).uncompared b) := by
  have e : s.onBank b (fun k => g (k.receive p s.ticks drive)) = (s.onBank b (·.receive p s.ticks drive)).onBank b g := by
    simp [State.onBank, State.setBank, State.bank]
  rw [e]
  refine h.records.uncompared_onBank g g ?_
  rw [hg, State.bank_onBank_same, ← h.bank, ← hg]

end Received

section Accepted
variable {c : Instr} {s : State} {p : DieId} {b kind elem n : Nat} {fields : List Nat} {drive : Bool}
  (hu : (s.bank b).up p = true) (ha : (s.bank b).accepts p s.ticks = true)
include hu ha

theorem holderMsg_accepted (f : State → State) : ∃ t, Received s p b drive t ∧ holderMsg s p b kind elem n fields drive f = f t := by
  refine ⟨_, ⟨OnlyRecords.compareCopy _ p b kind elem n fields, compareCopy_out ..⟩, ?_⟩
  simp only [holderMsg, hu, ha, Bool.not_true, Bool.false_eq_true, if_false, if_true]

theorem MakesAt.of_accepted {f : State → State} {u : State} (he : exec c s = done (holderMsg s p b kind elem n fields drive f))
    (hf : ∀ t, Received s p b drive t → OnlyRecords (u.uncompared b) ((f t).uncompared b)) : MakesAt b c s u := by
  obtain ⟨t, ht, e⟩ := holderMsg_accepted (kind := kind) (elem := elem) (n := n) (fields := fields) (drive := drive) hu ha f
  exact ⟨_, he, e ▸ (hf t ht).trans ((OnlyRecords.settle _).uncompared b)⟩

theorem Answers.of_accepted {f : State → State} {P : State → Prop} (he : exec c s = done (holderMsg s p b kind elem n fields drive f))
    (hP : ∀ t r, Received s p b drive t → OnlyRecords (f t) r → P r) : Answers c s P := by
  obtain ⟨t, ht, e⟩ := holderMsg_accepted (kind := kind) (elem := elem) (n := n) (fields := fields) (drive := drive) hu ha f
  exact .of_done (he.trans (congrArg done e)) fun r hr => hP t r ht hr

/-- A message that changes its bank die only. -/
theorem MakesAt.of_change {g : Bank → Bank} (he : exec c s = done (holderMsg s p b kind elem n fields drive (·.onBank b g)))
    (hg : ∀ k, (g k).uncompared = (g k.uncompared).uncompared) : MakesAt b c s (s.onBank b (fun k => g (k.receive p s.ticks drive))) :=
  .of_holderMsg g hu ha he (fun _ _ _ => .refl _) fun k k' h => by rw [hg k, h, ← hg k']

end Accepted

/-! ## What is sent besides -/

theorem OnlyRecords.uncompared_emit {s t : State} {b : Nat} (h : OnlyRecords (s.uncompared b) (t.uncompared b)) (ho : t.out = s.out) (o : Out) :
    OnlyRecords ((s.emit o).uncompared b) ((t.emit o).uncompared b) := h.emit_congr ho o

theorem OnlyRecords.uncompared_sendBoth {s t : State} {b : Nat} (h : OnlyRecords (s.uncompared b) (t.uncompared b)) (ho : t.out = s.out)
    (kind : Nat) (fields : List Nat) : OnlyRecords ((sendBoth s b kind fields).uncompared b) ((sendBoth t b kind fields).uncompared b) :=
  (h.uncompared_emit ho _).uncompared_emit (by simp [ho]) _

/-- The same change of a die on both sides. -/
theorem OnlyRecords.uncompared_onDie {s t : State} {b : Nat} (h : OnlyRecords (s.uncompared b) (t.uncompared b)) (d : DieId) {e : Die → Die}
    (hu : ∀ x, (e x).uncompared = e x.uncompared) (hq : ∀ x, (e x).quiet = e x.quiet) (hr : ∀ x k, (e x).reg k = x.reg k) :
    OnlyRecords ((s.onDie d e).uncompared b) ((t.onDie d e).uncompared b) := by
  have comm (v : State) : (v.onDie d e).uncompared b = (v.uncompared b).onDie d e := by
    cases d <;> simp [State.uncompared, State.onDie, State.setDie, State.die, State.onBank, State.setBank, State.bank, hu]
  rw [comm, comm]
  exact h.onDie_congr d hq hr

end Sys2Proof.Machine
end

section
/-!
PROOFS. What the messages of the token holder make at their bank die (R130, R258, R263, R265, R272 to R275, R282).
-/

namespace Sys2Proof.Machine

/-! ## Drive writes (R263, R265) -/

/-- A drive write at its bank die: discarded when it was made before its channel's last deal. -/
def Bank.takeWrite (k : Bank) (m : DriveMsg) : Bank :=
  if m.dealSeq < (k.chan m.chan).dealSeq then { k with discard := satAdd 32 k.discard 1 }
  else
    let k1 := k.onChan m.chan (·.load m)
    if m.fire then k1.fire m.group else k1

theorem driveWrite_eq (p : DieId) (b : Nat) (m : DriveMsg) (s : State) : driveWrite p b m s =
    holderMsg s p b (20 + outNum m.out) (elemOf b m.chan) m.update (driveFields m) true (·.onBank b (·.takeWrite m)) := by
  unfold driveWrite
  congr 1
  funext t
  simp only [State.onBank, Bank.takeWrite]
  split <;> rfl

theorem Bank.fire_uncompared (k : Bank) (g : Nat) : (k.fire g).uncompared = (k.uncompared.fire g).uncompared := by
  unfold Bank.fire
  cases h : k.cut <;> simp [Bank.uncompared, h]

theorem Bank.takeWrite_uncompared (k : Bank) (m : DriveMsg) : (k.takeWrite m).uncompared = (k.uncompared.takeWrite m).uncompared := by
  unfold Bank.takeWrite
  have hc : k.uncompared.chan m.chan = k.chan m.chan := rfl
  rw [hc]
  split
  · rfl
  · simp only
    split
    · exact Bank.fire_uncompared _ _
    · rfl

section Accepted
variable {s : State} {p : DieId} {b : Fin 8} (hu : (s.bank b).up p = true) (ha : (s.bank b).accepts p s.ticks = true)
include hu ha

theorem makesAt_driveWrite (m : DriveMsg) :
    MakesAt b (.driveWrite p b m) s (s.onBank b (fun k => (k.receive p s.ticks true).takeWrite m)) :=
  MakesAt.of_change (g := (·.takeWrite m)) (drive := true) hu ha (congrArg done (driveWrite_eq p b m s)) fun k => k.takeWrite_uncompared m

end Accepted

/-! ## Preloads (R130, R265) -/

/-- Marks the deals of a preload on the die that sent it. -/
def markDeals (n : Nat) (f : Deal → Deal) (x : Die) : Die :=
  { x with dealer := { x.dealer with pending := x.dealer.pending.map (fun dl => if dl.preload = n then f dl else dl) } }

/-- A bank die with the π current of some cells noted. -/
def Bank.notePi (k : Bank) (cur : Nat → Nat) (cells : List Nat) : Bank :=
  cells.foldl (fun k l => k.onChan l (fun c => { c with piCode := cur l })) k

/-- The fifth preload is refused. -/
def preloadRefused (p : DieId) (b : Nat) (m : PreloadMsg) (t : State) : State :=
  (t.onDie p (markDeals m.number fun dl => { dl with refused := dl.refused ||| BitVec.ofNat 8 (2 ^ b) })).emit
    (.fromBank b p rPreNack [m.number])

/-- A preload is stored with the π currents of the cells it changes, and acknowledged. -/
def preloadStored (p : DieId) (b : Nat) (m : PreloadMsg) (t : State) : State :=
  let x := t.die p
  let k := (t.bank b).notePi (fun l => if (x.elem (elemOf b l)).mode = 3 then 0 else (x.cal.cellIpi (elemOf b l)).toNat)
    ((List.range 608).filter (fun l => m.cells.getLsbD l != ((t.bank b).chan l).cross))
  ((t.setBank b { k with preloads := (t.bank b).preloads ++ [⟨p, m⟩] }).onDie p
    (markDeals m.number fun dl => { dl with acks := dl.acks ||| BitVec.ofNat 8 (2 ^ b) })).emit (.fromBank b p rPreAck [m.number])

theorem preloadReceive_eq (p : DieId) (b : Nat) (m : PreloadMsg) (s : State) : preloadReceive p b m s =
    holderMsg s p b 30 0 m.number (preloadCompared m) true (fun t =>
      if 4 ≤ (t.bank b).preloads.length then preloadRefused p b m t else preloadStored p b m t) := rfl

/-- Noting currents leaves the heater shadows and the states of the cells. -/
theorem Bank.notePi_chan (cur : Nat → Nat) (cells : List Nat) (k : Bank) (l : Nat) :
    ((k.notePi cur cells).chan l).shHeater = (k.chan l).shHeater ∧ ((k.notePi cur cells).chan l).cross = (k.chan l).cross := by
  induction cells generalizing k with
  | nil => exact ⟨rfl, rfl⟩
  | cons i cells ih =>
    obtain ⟨hs, hc⟩ := ih (k.onChan i (fun c => { c with piCode := cur i }))
    by_cases hl : l = i
    · subst hl
      rw [Bank.chan_onChan_same] at hs hc
      exact ⟨hs, hc⟩
    · rw [Bank.chan_onChan_other _ hl] at hs hc
      exact ⟨hs, hc⟩

theorem bank_preloadStored (p : DieId) (b : Fin 8) (m : PreloadMsg) (t : State) : ∃ cur cells,
    (preloadStored p b m t).bank b = { (t.bank b).notePi cur cells with preloads := (t.bank b).preloads ++ [⟨p, m⟩] } :=
  ⟨_, _, by rw [preloadStored, State.bank_emit, State.bank_onDie, State.bank_setBank_same]⟩

section Accepted
variable {s : State} {p : DieId} {b : Fin 8} (hu : (s.bank b).up p = true) (ha : (s.bank b).accepts p s.ticks = true)
include hu ha

theorem makesAt_preloadReceive_refused {m : PreloadMsg} (h : 4 ≤ (s.bank b).preloads.length) :
    MakesAt b (.preloadReceive p b m) s (preloadRefused p b m (s.onBank b (·.receive p s.ticks true))) := by
  refine .of_accepted hu ha (congrArg done (preloadReceive_eq p b m s)) fun t ht => ?_
  rw [if_pos (by rw [ht.preloads]; exact h)]
  refine OnlyRecords.uncompared_emit ?_ (by simp [ht.out]) _
  exact ht.records.uncompared_onDie p (fun _ => rfl) (fun _ => rfl) fun _ _ => rfl

theorem answers_preloadReceive_stored {m : PreloadMsg} (h : (s.bank b).preloads.length < 4) :
    Answers (.preloadReceive p b m) s (fun t =>
      (t.bank b).preloads = (s.bank b).preloads ++ [⟨p, m⟩] ∧ Out.fromBank b p rPreAck [m.number] ∈ t.out ∧
      (t.die p).dealer.pending = (s.die p).dealer.pending.map (fun dl =>
        if dl.preload = m.number then { dl with acks := dl.acks ||| BitVec.ofNat 8 (2 ^ b.val) } else dl) ∧
      ∀ l, ((t.bank b).chan l).shHeater = ((s.bank b).chan l).shHeater ∧ ((t.bank b).chan l).cross = ((s.bank b).chan l).cross) := by
  refine .of_accepted hu ha (congrArg done (preloadReceive_eq p b m s)) fun t r ht hr => ?_
  rw [if_neg (by rw [ht.preloads]; omega)] at hr
  obtain ⟨cur, cells, hk⟩ := bank_preloadStored p b m t
  have hbank := (hr.bank b).trans hk
  refine ⟨by rw [hbank, ht.preloads], hr.mem_out (by simp [preloadStored]), ?_, fun l => ?_⟩
  · rw [hr.die_dealer p, preloadStored, State.die_emit, State.die_onDie_same, State.die_setBank, ← ht.dealer p]
    rfl
  · rw [hbank, ← ht.chan l]
    exact Bank.notePi_chan _ _ _ l

end Accepted

/-- Settles O1: each message by what it makes when it is accepted. -/
theorem driveAndPreloadAtBankDie : Obligations.DriveAndPreloadAtBankDie := by
  unfold Obligations.DriveAndPreloadAtBankDie
  have written {p : DieId} {b : Fin 8} {m : DriveMsg} {s : State} {f : Bank → Bank} (hu : (s.bank b).up p = true)
      (ha : (s.bank b).accepts p s.ticks = true) (h : ((s.bank b).receive p s.ticks true).takeWrite m = f (s.bank b)) :
      MakesAt b (.driveWrite p b m) s (s.onBank b f) :=
    s.onBank_congr b (g := f) (f := fun k => (k.receive p s.ticks true).takeWrite m) h ▸ makesAt_driveWrite hu ha m
  refine ⟨fun p b m s hu ha => ⟨fun h => written hu ha (if_pos ?late), fun h => written hu ha (if_neg ?current)⟩,
    fun p b m s hu ha => ⟨makesAt_preloadReceive_refused hu ha, answers_preloadReceive_stored hu ha⟩⟩
  case late => rwa [Bank.receive_chan]
  case current => rw [Bank.receive_chan]; omega

end Sys2Proof.Machine
end

section
/-!
PROOFS. The requests of the token holder at a bank die: its accumulators, urgent conversions, bands, preloads, gain and blind context (R130,
R258, R272 to R275, R282).
-/

namespace Sys2Proof.Machine

/-! ## A channel changed twice -/

theorem spPut_put_same {α : Type} (k : Nat) (u v : α) (l : Sparse α) : spPut k v (spPut k u l) = spPut k v l := by
  induction l with
  | nil => simp [spPut]
  | cons e l ih =>
    obtain ⟨j, w⟩ := e
    by_cases hj : k = j
    · simp [spPut, hj]
    · by_cases hlt : k < j <;> simp [spPut, hj, hlt, ih]

/-- Writing a key twice is the last write, where a value that is not listed is not followed by one that is. -/
theorem spSet_set_same {α : Type} [DecidableEq α] (d : α) (k : Nat) {u v : α} (h : u = d → v = d) (l : Sparse α) :
    spSet d k v (spSet d k u l) = spSet d k v l := by
  by_cases hv : v = d
  · rw [spSet, if_pos hv, spDel_set_same, spSet, if_pos hv]
  · have hu : u ≠ d := fun e => hv (h e)
    simp [spSet, hv, hu, spPut_put_same]

theorem Bank.onChan_onChan (k : Bank) (l : Nat) {f g : Chan → Chan} (h : g Chan.reset = Chan.reset) :
    (k.onChan l f).onChan l g = k.onChan l (fun c => g (f c)) := by
  have hs := spSet_set_same Chan.reset l (u := f (k.chan l)) (v := g (f (k.chan l))) (fun e => by rw [e, h]) k.chans
  simp only [Bank.onChan, Bank.setChan, Bank.chan, spGet_set_same] at hs ⊢
  rw [hs]

theorem Bank.onChan_congr (k : Bank) (l : Nat) {f g : Chan → Chan} (h : f (k.chan l) = g (k.chan l)) : k.onChan l f = k.onChan l g := by
  unfold Bank.onChan
  rw [h]

theorem State.onBank_onBank (s : State) (b : Nat) (f g : Bank → Bank) : (s.onBank b f).onBank b g = s.onBank b (fun k => g (f k)) := by
  simp [State.onBank, State.setBank, State.bank]

/-- A channel's store restarted (R274). -/
def Chan.restart (c : Chan) : Chan := { c with store := c.store.restart c.locked }

theorem Chan.restart_reset : Chan.reset.restart = Chan.reset := by decide

/-- A channel with an empty store, in the range that follows a store st (R272). -/
def Chan.emptied (st : Store) (c : Chan) : Chan := { c with store := { Store.empty with range := st.nextRange c.locked } }

theorem Chan.restart_eq {st : Store} {c : Chan} (h : c.store = st) : c.restart = c.emptied st := by
  unfold Chan.restart Store.restart
  rw [h]
  rfl

/-! ## Accumulators (R272, R274) -/

section Accepted
variable {s : State} {p : DieId} {b : Fin 8} (hu : (s.bank b).up p = true) (ha : (s.bank b).accepts p s.ticks = true)
include hu ha

/-- A message that changes its bank die and sends an answer on both ports. -/
theorem MakesAt.of_sent {c : Instr} {kind elem n answer : Nat} {fields values : List Nat} {drive : Bool} {f : State → State} {g : Bank → Bank}
    (he : exec c s = done (holderMsg s p b kind elem n fields drive f)) (hg : ∀ k, (g k).uncompared = (g k.uncompared).uncompared)
    (hf : ∀ t, Received s p b drive t → f t = sendBoth (t.onBank b g) b answer values) :
    MakesAt b c s (sendBoth (s.onBank b (fun k => g (k.receive p s.ticks drive))) b answer values) := by
  refine .of_accepted hu ha he fun t ht => ?_
  rw [hf t ht]
  exact (ht.onBank hg).uncompared_sendBoth (by simp [ht.out]) answer values

theorem makesAt_accumulatorRead {l : Fin 736} (u : Nat) {st : Store} (h : ((s.bank b).chan l).store = st) :
    MakesAt b (.accumulatorRead p b l u) s
      (sendBoth (s.onBank b (fun k => (k.receive p s.ticks false).onChan l ({ · with last := st }))) b rStore (elemOf b l :: st.fields)) :=
  .of_sent (g := (·.onChan l ({ · with last := st }))) hu ha rfl (fun _ => rfl) fun t ht => by simp [ht.chan, h]

theorem makesAt_accumulatorReadRestart {l : Fin 736} (u : Nat) {st : Store} (h : ((s.bank b).chan l).store = st) :
    MakesAt b (.accumulatorReadRestart p b l u) s
      (sendBoth (s.onBank b (fun k => (k.receive p s.ticks false).onChan l (fun c => Chan.emptied st { c with last := st })))
        b rStore (elemOf b l :: st.fields)) := by
  refine .of_sent (g := (·.onChan l (fun c => Chan.emptied st { c with last := st }))) hu ha rfl (fun _ => rfl) fun t ht => ?_
  have hst : ((t.bank b).chan l).store = st := by rw [ht.chan, h]
  have twice : (t.onBank b (·.onChan l ({ · with last := st }))).onBank b (·.restart l) =
      t.onBank b (·.onChan l (fun c => Chan.emptied st { c with last := st })) := by
    rw [State.onBank_onBank]
    refine t.onBank_congr b ((Bank.onChan_onChan _ l Chan.restart_reset).trans (Bank.onChan_congr _ l ?_))
    exact Chan.restart_eq hst
  simp [hst, twice]

theorem makesAt_accumulatorRestart {l : Fin 736} (u : Nat) {st : Store} (h : ((s.bank b).chan l).store = st) :
    MakesAt b (.accumulatorRestart p b l u) s (s.onBank b (fun k => (k.receive p s.ticks false).onChan l (·.emptied st))) := by
  have once : s.onBank b (fun k => (k.receive p s.ticks false).onChan l (·.emptied st)) =
      s.onBank b (fun k => (k.receive p s.ticks false).restart l) :=
    s.onBank_congr b (Bank.onChan_congr _ l (Chan.restart_eq (by rw [Bank.receive_chan, h])).symm)
  rw [once]
  exact .of_change (g := (·.restart l)) (drive := false) hu ha rfl fun _ => rfl

/-! ## Urgent requests (R273) -/

theorem makesAt_urgentRequest_queued {l : Fin 736} (u : Nat) {q : List Urgent} (hq : spGet [] (adcOf l) (s.bank b).urgent = q) (h : q.length < 32) :
    MakesAt b (.urgentRequest p b l u) s (s.onBank b (fun k =>
      { k.receive p s.ticks false with urgent := spSet [] (adcOf l) (q ++ [⟨l, u, s.ticks⟩]) (k.receive p s.ticks false).urgent })) := by
  refine .of_accepted hu ha rfl fun t ht => ?_
  rw [if_neg (by rw [ht.urgent, hq]; omega), ht.urgent, hq, ht.ticks]
  exact ht.urgent ▸ ht.onBank (g := fun k => { k with urgent := spSet [] (adcOf l) (q ++ [⟨l, u, s.ticks⟩]) k.urgent }) fun _ => rfl

theorem makesAt_urgentRequest_refused {l : Fin 736} (u : Nat) (h : 32 ≤ (spGet [] (adcOf l) (s.bank b).urgent).length) :
    MakesAt b (.urgentRequest p b l u) s ((s.onBank b (fun k =>
      { k.receive p s.ticks false with urgOvf := satAdd 32 (k.receive p s.ticks false).urgOvf 1 })).emit (.fromBank b p rUrgentRefused [elemOf b l])) := by
  refine .of_accepted hu ha rfl fun t ht => ?_
  rw [if_pos (by rwa [ht.urgent])]
  exact (ht.onBank (g := fun k => { k with urgOvf := satAdd 32 k.urgOvf 1 }) fun _ => rfl).uncompared_emit (by simp [ht.out]) _

/-! ## Changes without an answer (R130, R258, R275, R282) -/

theorem makesAt_bandSet (l : Fin 736) (lo hi : BitVec 24) (u : Nat) : MakesAt b (.bandSet p b l lo hi u) s (s.onBank b (fun k =>
    (k.receive p s.ticks false).onChan l ({ · with bandLo := lo.toNat, bandHi := hi.toNat, armed := true, cmpSum := 0, cmpCount := 0 }))) :=
  .of_change (g := (·.onChan l ({ · with bandLo := lo.toNat, bandHi := hi.toNat, armed := true, cmpSum := 0, cmpCount := 0 })))
    (drive := false) hu ha rfl fun _ => rfl

/-- A bank die without the preloads of a number and a port. -/
def Bank.cancelPreload (k : Bank) (p : DieId) (n : Nat) : Bank :=
  { k with preloads := k.preloads.filter (fun q => !(q.port == p && q.msg.number = n)) }

theorem makesAt_preloadCancel (n : Nat) :
    MakesAt b (.preloadCancel p b n) s (s.onBank b (fun k => (k.receive p s.ticks false).cancelPreload p n)) :=
  .of_change (g := (·.cancelPreload p n)) (drive := false) hu ha rfl fun _ => rfl

/-- A bank die with its heater gain changed: outputs and shadows alike. -/
def Bank.changeGain (k : Bank) (x2 : Bool) : Bank :=
  { k with heaterX2 := x2, chans := spMap Chan.reset (fun _ c => c.heat x2 c.heater) k.chans }

theorem makesAt_gainChange (x2 : Bool) :
    MakesAt b (.gainChange p b x2) s (s.onBank b (fun k => (k.receive p s.ticks true).changeGain x2)) :=
  .of_change (g := (·.changeGain x2)) (drive := true) hu ha rfl fun _ => rfl

theorem makesAt_blindContextWrite (ws : List BlindWrite) : MakesAt b (.blindContextWrite p b ws) s
    (s.onBank b (fun k => { k.receive p s.ticks false with blind := ws.foldl Blind.write (k.receive p s.ticks false).blind })) :=
  .of_change (g := fun k => { k with blind := ws.foldl Blind.write k.blind }) (drive := false) hu ha rfl fun _ => rfl

end Accepted

/-- Settles O2: each request by the change it makes at the bank die. -/
theorem holderAndStoreRequests : Obligations.HolderAndStoreRequests := by
  unfold Obligations.HolderAndStoreRequests
  refine ⟨fun p b l u s hu ha => ⟨makesAt_accumulatorRead hu ha u rfl, makesAt_accumulatorReadRestart hu ha u rfl,
      makesAt_accumulatorRestart hu ha u rfl⟩,
    fun p b l u n lo hi x2 ws s hu ha => ⟨makesAt_urgentRequest_queued hu ha u rfl, makesAt_urgentRequest_refused hu ha u,
      makesAt_bandSet hu ha l lo hi u, makesAt_preloadCancel hu ha n, makesAt_gainChange hu ha x2, makesAt_blindContextWrite hu ha ws⟩⟩

end Sys2Proof.Machine
end

section
/-!
PROOFS. The drive token of a bank die (R268).
-/

namespace Sys2Proof.Machine

section Claim
variable {p : DieId} {b : Nat} {s : State} (hu : (s.bank b).up p = true)
include hu

theorem tokenClaim_again (hh : (s.bank b).holder = some p) (hy : (s.bank b).yielded = false) :
    tokenClaim p b s = s.emit (.fromBank b p rGranted []) := by
  simp [tokenClaim, hu, Bank.holds, hh, hy]

/-- A claim that finds the token free. -/
theorem tokenClaim_free (h : (s.bank b).holder = none ∨ (s.bank b).yielded = true) :
    tokenClaim p b s = (s.onBank b (fun k => { k with
      holder := some p, yielded := false, granted := true, lastMsg := s.ticks, lastGrant := s.ticks,
      grants := (k.grants + 1) % 2 ^ 16 })).emit (.fromBank b p rGranted []) := by
  have hfree : (s.bank b).claimFree = true := by simpa [Bank.claimFree] using h
  have hheld : ((s.bank b).holds p && !(s.bank b).yielded) = false := by
    rcases h with h | h <;> simp [Bank.holds, h]
  simp [tokenClaim, hu, hfree, hheld, State.onBank]

section Held
variable {q : DieId} (hh : (s.bank b).holder = some q) (hq : q ≠ p) (hy : (s.bank b).yielded = false)
include hh hq hy

theorem tokenClaim_silent (h : 4000 ≤ s.ticks - (s.bank b).lastMsg) :
    tokenClaim p b s = (s.onBank b (fun k => { k with
      holder := some p, yielded := false, granted := true, lastMsg := s.ticks, lastGrant := s.ticks,
      grants := (k.grants + 1) % 2 ^ 16, overlaps := min 255 (k.overlaps + 1),
      overlap := some (q, s.ticks + 2000) })).emit (.fromBank b p rGranted []) := by
  have hsilent : (s.bank b).claimSilent s.ticks = true := decide_eq_true h
  simp [tokenClaim, hu, hsilent, Bank.claimFree, Bank.holds, hh, hq, hy, State.onBank, satAdd, usT]

theorem tokenClaim_refused (h : s.ticks - (s.bank b).lastMsg < 4000) :
    tokenClaim p b s = (s.onBank b (fun k => { k with refused := min 255 (k.refused + 1) })).emit (.fromBank b p rRefused []) := by
  have hsilent : (s.bank b).claimSilent s.ticks = false := decide_eq_false (Nat.not_le.mpr h)
  simp [tokenClaim, hu, hsilent, Bank.claimFree, Bank.holds, hh, hq, hy, satAdd]

end Held

theorem tokenYield_holder (hh : (s.bank b).holder = some p) :
    tokenYield p b s = s.onBank b (fun k => { k with yielded := true, lastMsg := s.ticks }) := by
  simp [tokenYield, hu, Bank.holds, Bank.heard, hh, State.onBank]

end Claim

theorem tokenYield_other {p : DieId} {b : Nat} {s : State} (hh : (s.bank b).holder ≠ some p) : tokenYield p b s = s := by
  simp [tokenYield, Bank.holds, hh]

/-- A command answers the state its row makes. -/
theorem Makes.of_row {c : Instr} {f : State → State} {s u : State} (h : exec c s = done (f s)) (e : f s = u) : Makes c s u :=
  .of_done (h.trans (congrArg done e))

/-- Settles O3, by who holds the token, whether it has yielded and how long it has been silent. -/
theorem tokenClaimAndYield : Obligations.TokenClaimAndYield := by
  unfold Obligations.TokenClaimAndYield
  exact fun p b s hu => ⟨fun h => .of_row rfl (tokenClaim_free hu h), fun q hh hq hy h => .of_row rfl (tokenClaim_silent hu hh hq hy h),
    fun q hh hq hy h => .of_row rfl (tokenClaim_refused hu hh hq hy h), fun hh hy => .of_row rfl (tokenClaim_again hu hh hy),
    fun hh => .of_row rfl (tokenYield_holder hu hh), fun hh => .of_row rfl (tokenYield_other hh)⟩

end Sys2Proof.Machine
end

section
/-!
PROOFS. How a bank die keeps light safe: shuts and releases, shutdowns and BLIND HOLD (R53, R55, R270, R280, R283, R476, R480, R484).
-/

namespace Sys2Proof.Machine

/-! ## Safety messages, on any port whose link is up (R270, R480, R484) -/

section Port
variable {p : DieId} {b : Fin 8} {s : State}

theorem makes_safetyShut (hu : (s.bank b).up p = true) (g : BitVec 128) :
    Makes (.safetyShut p b g) s (shutGates (s.onBank b (·.heard p s.ticks)) b g) := .of_row rfl (if_pos hu)

theorem makes_safetyRelease (hu : (s.bank b).up p = true) (g : BitVec 128) :
    Makes (.safetyRelease p b g) s (s.onBank b (fun k => (k.heard p s.ticks).release p g)) := .of_row rfl (if_pos hu)

theorem makes_shutdownCut (hu : (s.bank b).up p = true) :
    Makes (.shutdownCut p b) s (s.onBank b (fun k => (k.heard p s.ticks).unblind.cutDrive)) := .of_done (congrArg done (if_pos hu))

theorem exec_shutdownNotice (hu : (s.bank b).up p = true) : exec (.shutdownNotice p b) s =
    done (s.onBank b (fun k => { k.heard p s.ticks with notice := some (k.notice.getD s.ticks) })) := congrArg done (if_pos hu)

theorem makes_shutdownNotice_first (hu : (s.bank b).up p = true) (h : (s.bank b).notice = none) :
    Makes (.shutdownNotice p b) s (s.onBank b (fun k => { k.heard p s.ticks with notice := some s.ticks })) :=
  .of_done ((exec_shutdownNotice hu).trans (congrArg done (s.onBank_congr b (by rw [h]; rfl))))

theorem Bank.heard_notice (k : Bank) (p : DieId) (t : Nat) : (k.heard p t).notice = k.notice := by
  unfold Bank.heard
  split <;> rfl

theorem makes_shutdownNotice_again (hu : (s.bank b).up p = true) (h : (s.bank b).notice.isSome = true) :
    Makes (.shutdownNotice p b) s (s.onBank b (·.heard p s.ticks)) := by
  obtain ⟨t, ht⟩ := Option.isSome_iff_exists.mp h
  refine .of_done ((exec_shutdownNotice hu).trans (congrArg done (s.onBank_congr b ?_)))
  have hn := ((s.bank b).heard_notice p s.ticks).trans ht
  rw [ht, Option.getD_some, ← hn]

/-- A message on a port whose link is not up does nothing. -/
theorem makes_safety_down (hd : (s.bank b).up p = false) (g : BitVec 128) :
    Makes (.safetyShut p b g) s s ∧ Makes (.safetyRelease p b g) s s ∧ Makes (.shutdownNotice p b) s s ∧ Makes (.shutdownCut p b) s s :=
  have hn : ¬ (s.bank b).up p = true := by simp [hd]
  ⟨.of_row rfl (if_neg hn), .of_row rfl (if_neg hn), .of_done (congrArg done (if_neg hn)), .of_done (congrArg done (if_neg hn))⟩

end Port

/-! ## What a bank die does by itself (R53, R55, R283, R476, R480) -/

section Alone
variable {b : Fin 8} {s : State}

theorem makes_noticeSilenceCut (hn : (s.bank b).notice.isSome = true) (hc : (s.bank b).cut = false)
    (h : 1000000 ≤ s.ticks - (s.bank b).lastMsg) : Makes (.noticeSilenceCut b) s (s.onBank b Bank.cutDrive) :=
  .of_done (congrArg done (if_pos (by rw [hn, hc]; exact decide_eq_true h)))

theorem selfShutdown_hot (hh : (s.bank b).holder = none) (hc : (s.bank b).cut = false) (h : 150 * 128 ≤ (s.bank b).own) :
    selfShutdown b s = s.onBank b Bank.cutDrive := by
  simp only [selfShutdown, decide_eq_true h, hh, hc]
  rfl

theorem selfShutdown_cool (ho : (s.bank b).own < 150 * 128) (hf : (s.bank b).fabric < 140 * 128) : selfShutdown b s = s := by
  have hot : decide (150 * 128 ≤ (s.bank b).own) = false := decide_eq_false (by omega)
  have fabric : decide (140 * 128 ≤ (s.bank b).fabric) = false := decide_eq_false (by omega)
  simp only [selfShutdown, hot, fabric, Bool.and_false, Bool.or_false, Bool.false_and, Bool.false_eq_true, if_false]

theorem blindTick_due (ho : (s.bank b).blind.on = true) (h : 10000000 ≤ s.ticks - (s.bank b).blind.lastTick) :
    blindTick b s = s.onBank b (fun k =>
      let bl := { (k.filterTemp b s.ticks).blind with lastTick := s.ticks }
      { k with blind := if bl.tables then { bl with target := bl.targets } else bl }) := by
  have due : decide (10 * msT ≤ s.ticks - (s.bank b).blind.lastTick) = true := decide_eq_true h
  unfold blindTick
  rw [if_pos (by rw [ho, due]; rfl)]
  unfold State.onBank
  extract_lets k bl
  congr 2
  show _ = if bl.tables then _ else _
  split <;> rfl

theorem blindTick_idle (h : (s.bank b).blind.on = false ∨ s.ticks - (s.bank b).blind.lastTick < 10000000) : blindTick b s = s := by
  refine if_neg fun hd => ?_
  obtain ⟨hon, hdue⟩ := Bool.and_eq_true_iff.mp hd
  have due : 10000000 ≤ s.ticks - (s.bank b).blind.lastTick := of_decide_eq_true hdue
  rcases h with h | h
  · rw [h] at hon
    cases hon
  · omega

theorem holderSilence_silent (hg : (s.bank b).granted = true) (hn : (s.bank b).notice = none) (hc : (s.bank b).cut = false)
    (ho : (s.bank b).blind.on = false) (hm : 1000000 ≤ s.ticks - (s.bank b).lastMsg) (hl : 1000000 ≤ s.ticks - (s.bank b).lastGrant) :
    holderSilence b s = controlLoss (sendBoth (s.onBank b (·.enterBlind b true s.ticks)) b rBlind []) := by
  refine if_pos ?_
  rw [hg, hn, hc, ho, Bool.and_eq_true_iff]
  exact ⟨decide_eq_true hm, decide_eq_true hl⟩

theorem holderSilence_heard (h : s.ticks - (s.bank b).lastMsg < 1000000 ∨ s.ticks - (s.bank b).lastGrant < 1000000) : holderSilence b s = s := by
  refine if_neg fun hd => ?_
  obtain ⟨hd, hgrant⟩ := Bool.and_eq_true_iff.mp hd
  have grant : 1000000 ≤ s.ticks - (s.bank b).lastGrant := of_decide_eq_true hgrant
  have msg : 1000000 ≤ s.ticks - (s.bank b).lastMsg := of_decide_eq_true (Bool.and_eq_true_iff.mp hd).2
  omega

end Alone

/-- Settles O4, row by row: the rows of the safety messages by the state of their link, those of the bank die by its timers. -/
theorem bankDieKeepsLightSafe : Obligations.BankDieKeepsLightSafe := by
  unfold Obligations.BankDieKeepsLightSafe
  refine ⟨fun p b g s => ⟨fun hu => ⟨makes_safetyShut hu g, makes_safetyRelease hu g, makes_shutdownNotice_first hu, makes_shutdownNotice_again hu,
      makes_shutdownCut hu⟩, fun hd => makes_safety_down hd g, makes_noticeSilenceCut, fun hh hc h => .of_row rfl (selfShutdown_hot hh hc h),
      fun ho hf => .of_row rfl (selfShutdown_cool ho hf)⟩,
    fun b s => ⟨fun ho h => .of_row rfl (blindTick_due ho h), fun h => .of_row rfl (blindTick_idle h), .of_done rfl,
      fun hg hn hc ho hm hl => .of_row rfl (holderSilence_silent hg hn hc ho hm hl), fun h => .of_row rfl (holderSilence_heard h)⟩⟩

end Sys2Proof.Machine
end

section
/-!
PROOFS. The converters of a bank die: conversions, probe edges, calibrations and channel faults (R75, R256, R261, R273, R276, R278, R279).
-/

namespace Sys2Proof.Machine

/-! ## Conversions (R75, R256, R273) -/

/-- The choice of the next channel changes no channel. -/
theorem Bank.nextConv_chans {k k' : Bank} {a l : Nat} {u : Option Urgent} (h : k.nextConv a = some (l, u, k')) : k'.chans = k.chans := by
  unfold Bank.nextConv at h
  extract_lets q at h
  clear_value q
  split at h
  · split at h
    · cases h
    · cases h
      rfl
  · split at h
    · cases h
    · cases h
      rfl

theorem converted_other {s : State} {b l : Nat} (raw : Nat) (h : isInGate (elemOf b l) = false) : converted s b l raw = convert s b l raw := by
  simp [converted, h]

theorem converted_inGate {s : State} {b l : Nat} (raw : Nat) (h : isInGate (elemOf b l) = true) : converted s b l raw =
    lightReport (convert s b l raw) (elemOf b l - 4864) ((raw * rangeWeight ((s.bank b).chan l).store.range : Nat) : Rat) := if_pos h

section Conversion
variable {b : Fin 8} {a : Fin 24} {s : State} {l : Nat} {k : Bank}

theorem adcConversion_turn (raw : Nat) (h : (s.bank b).nextConv a = some (l, none, k)) :
    adcConversion b a raw s = converted (s.setBank b k) b l raw := by
  unfold adcConversion
  rw [h]

theorem adcConversion_urgent {u : Urgent} (raw : Nat) (h : (s.bank b).nextConv a = some (l, some u, k)) :
    adcConversion b a raw s = converted (sendBoth (s.setBank b k) b rUrgent [elemOf b l, u.update]) b l raw := by
  unfold adcConversion
  rw [h]

theorem adcConversion_none (raw : Nat) (h : (s.bank b).nextConv a = none) : adcConversion b a raw s = s := by
  unfold adcConversion
  rw [h]

theorem adcConversion_inGate (raw : Nat) (h : (s.bank b).nextConv a = some (l, none, k)) (hg : isInGate (elemOf b l) = true) :
    adcConversion b a raw s = lightReport (convert (s.setBank b k) b l raw) (elemOf b l - 4864)
      ((raw * rangeWeight ((s.bank b).chan l).store.range : Nat) : Rat) := by
  have hc : ((s.setBank b k).bank b).chan l = (s.bank b).chan l := by
    rw [State.bank_setBank_same, Bank.chan, Bank.nextConv_chans h, Bank.chan]
  rw [adcConversion_turn raw h, converted_inGate raw hg, hc]

end Conversion

/-! ## Probe edges (R276) -/

/-- A bank die that has missed a probe edge. -/
def Bank.missProbe (k : Bank) : Bank :=
  ({ k with probeMiss := satAdd 32 k.probeMiss 1, pmiss := true } : Bank).freshen 4 (2 ^ F.BNK_STATUS_PMISS.lo)

/-- The last burst was less than 2 us ago. -/
def Bank.probeEarly (k : Bank) (t : Nat) : Bool :=
  match k.probeLast with
  | some u => decide (t - u < 2 * usT)
  | none => false

theorem Bank.probeEarly_some {k : Bank} {t u : Nat} (hl : k.probeLast = some u) (h : t - u < 2000) : k.probeEarly t = true := by
  rw [Bank.probeEarly, hl]
  exact decide_eq_true h

theorem Bank.probeEarly_false {k : Bank} {t : Nat} (h : ∀ u, k.probeLast = some u → 2000 ≤ t - u) : k.probeEarly t = false := by
  unfold Bank.probeEarly
  split
  · next u hu => exact decide_eq_false (Nat.not_lt.mpr (h u hu))
  · rfl

section Probe
variable {b : Fin 8} {s : State}

theorem makes_probeTrigEdge_missed (convs : List ProbeConv) (h : ((s.bank b).probeEarly s.ticks || (s.bank b).cal.isSome) = true) :
    Makes (.probeTrigEdge b convs) s (s.onBank b Bank.missProbe) :=
  have he : exec (.probeTrigEdge b convs) s = done (raiseBoth (s.onBank b Bank.missProbe) (60 + 6 * b + 4) b) := congrArg done (if_pos h)
  .intro he (.raiseBoth _ _ _ (by omega))

/-- The slots that a burst of conversions fills, and its time. -/
theorem probeEdge_hit (convs : List ProbeConv) (h : ((s.bank b).probeEarly s.ticks || (s.bank b).cal.isSome) = false) :
    ∃ probes, probeEdge b convs s = sendBoth (s.onBank b (fun k =>
      { k with probes := probes, probeLast := some s.ticks, probeTime := k.clock / 2 ^ 40 })) b rProbe [(s.bank b).clock / 2 ^ 40] :=
  ⟨_, if_neg (by rw [Bool.not_eq_true]; exact h)⟩

end Probe

/-! ## Calibrations (R278, R279) -/

theorem convCalStart_refused {p : DieId} {b : Nat} {s : State} (h : (s.bank b).holder ≠ some p ∨ (s.bank b).cal.isSome = true ∨ (s.bank b).up p = false) :
    convCalStart p b s = s := by
  refine if_neg fun hd => ?_
  simp only [Bank.holds, Bool.and_eq_true, beq_iff_eq, Option.isNone_iff_eq_none] at hd
  obtain ⟨⟨hu, hh⟩, hc⟩ := hd
  rcases h with h | h | h
  · exact h hh
  · simp [hc] at h
  · simp [hu] at h

theorem convCalStart_holder {p : DieId} {b : Nat} {s : State} (hu : (s.bank b).up p = true) (hh : (s.bank b).holder = some p)
    (hc : (s.bank b).cal = none) : convCalStart p b s =
    ((sendBoth (s.onBank b (fun k => { k with cal := some ⟨s.ticks, calKind (s.die p)⟩, lastMsg := s.ticks })) b rStale []).onDie .cd0
      (·.holdBank b s.ticks)).onDie .cd1 (·.holdBank b s.ticks) :=
  if_pos (by simp [hu, hh, hc, Bank.holds])

namespace KeepsLinks

theorem convCalCmd (s : State) (d : DieId) (c : Cmd) (b : Nat) (pass : Bool) : KeepsLinks s (convCalCmd s d c b pass) := by
  unfold Machine.convCalCmd
  split
  · extract_lets left failed s1
    split
    · exact .refl s
    · split
      · exact .finish ..
      · have h1 : KeepsLinks s s1 := .onDie ..
        split
        · exact h1
        · split
          · exact h1.trans (.emit ..)
          · exact h1
  · exact .refl s

theorem selfCalSend (s : State) (d : DieId) : KeepsLinks s (selfCalSend s d) :=
  .foldl _ (fun t b => by
    split
    · exact .emit ..
    · exact .refl t) _ s

theorem selfCalHears (s : State) (d : DieId) (b kind : Nat) : KeepsLinks s (selfCalHears s d b kind) := by
  unfold Machine.selfCalHears
  split
  · split
    · split
      · exact .onDie ..
      · exact .refl s
    · split
      · exact .refl s
      · exact (onDie ..).trans (.selfCalSend ..)
  · exact .refl s

/-- What the end of a calibration does after the bank die has sent its result leaves the bank dies and what was sent. -/
theorem convCalEnd {s : State} {b : Nat} {c : BankCal} (fail : BitVec 24) (h : (s.bank b).cal = some c) :
    KeepsLinks (sendBoth (sendBoth (s.onBank b (·.calEnd fail s.ticks)) b rCalDone [fail.toNat]) b rFresh []) (convCalEnd b fail s) := by
  unfold Machine.convCalEnd
  split
  case h_1 hn => cases hn.symm.trans h
  case h_2 c _ =>
    extract_lets s1 again s2 s3 cmds s4
    have h2 : KeepsLinks s1 s2 := (onDie ..).trans (.onDie ..)
    have h3 : KeepsLinks s2 s3 := by
      unfold s3
      split
      · exact .refl _
      · exact .raiseBoth ..
    have hcmds (t : State) (d : DieId) : KeepsLinks t (cmds t d) := by
      unfold cmds
      split
      · exact .foldl _ (fun _ _ => .convCalCmd ..) _ _
      · exact .refl _
    have h4 : KeepsLinks s3 s4 := (hcmds ..).trans (hcmds ..)
    exact ((h2.trans h3).trans h4).trans ((selfCalHears ..).trans (.selfCalHears ..))

end KeepsLinks

/-- What a bank die keeps of the result of a calibration, also when a block reset waited for its end. -/
theorem Bank.calEnd_result (k : Bank) (f : BitVec 24) (t : Nat) : (k.calEnd f t).calFail = !decide (f = 0) ∧ (k.calEnd f t).adcFail = f ∧
    (k.calEnd f t).calTime = (if f = 0 then k.clock / 2 ^ 40 else k.calTime) ∧ (k.calEnd f t).robin = [] := by
  cases h : k.calWait with
  | true => simp [Bank.calEnd, h, Bank.logicReset]
  | false => simp [Bank.calEnd, h]

/-! ## Channel faults (R261) -/

theorem OnlyRecords.elementNote (s : State) (e code : Nat) : OnlyRecords s (elementNote s e code) := by
  unfold Machine.elementNote
  split
  · exact .elementEvent ..
  · exact .refl s

/-- Settles O5: the conversions by the channel chosen, the probe edges by what runs, the calibrations by the holder and the state. -/
theorem bankDieConverters : Obligations.BankDieConverters := by
  unfold Obligations.BankDieConverters
  refine ⟨fun b a raw convs s => ?conversions, fun p b f s => ?calibrations, fun b h l s => ?faults⟩
  case conversions =>
    refine ⟨fun l k h hg => .of_row rfl ((adcConversion_turn _ h).trans (converted_other _ hg)), fun l k h hg => .of_row rfl (adcConversion_inGate _ h hg),
      fun l u k h hg => .of_row rfl ((adcConversion_urgent _ h).trans (converted_other _ hg)), fun h => .of_row rfl (adcConversion_none _ h),
      fun hc => makes_probeTrigEdge_missed convs (by rw [hc, Bool.or_true]),
      fun u _ hl h => makes_probeTrigEdge_missed convs (by rw [Bank.probeEarly_some hl h, Bool.true_or]), fun hc hl => ?hit⟩
    obtain ⟨probes, he⟩ := probeEdge_hit convs (by rw [Bank.probeEarly_false hl, hc]; rfl)
    refine .of_done (congrArg done he) fun t ht => ?_
    have hk := ht.bank b
    rw [sendBoth, State.bank_emit, State.bank_emit, State.bank_onBank_same] at hk
    rw [hk]
    exact ⟨rfl, rfl, rfl, rfl, ht.mem_out (by simp [sendBoth]), ht.mem_out (by simp [sendBoth])⟩
  case calibrations =>
    refine ⟨fun hu hh hc => .of_row rfl (convCalStart_holder hu hh hc), fun h => .of_row rfl (convCalStart_refused h), fun c hc _ => ?ends,
      fun hc => .of_row (f := convCalEnd b f) rfl (by unfold convCalEnd; rw [hc])⟩
    have keeps := KeepsLinks.convCalEnd f hc
    refine .of_done (u := convCalEnd b f s) rfl fun t ht => ?_
    have hkeep := keeps.trans (.of_records ht)
    obtain ⟨hfail, hadc, htime, hrobin⟩ := (s.bank b).calEnd_result f s.ticks
    rw [hkeep.bank, show (sendBoth (sendBoth (s.onBank b (·.calEnd f s.ticks)) b rCalDone [f.toNat]) b rFresh []).bank b =
      (s.bank b).calEnd f s.ticks by simp [sendBoth]]
    refine ⟨by simp [hfail], hadc, fun h => by rw [htime, if_pos h], fun h => by rw [htime, if_neg h], hrobin, ?_, ?_, ?_, ?_⟩
    · exact hkeep.mem_out (by simp [sendBoth])
    · exact hkeep.mem_out (by simp [sendBoth])
    · exact hkeep.mem_out (by simp [sendBoth])
    · exact hkeep.mem_out (by simp [sendBoth])
  case faults =>
    have hs : exec (.heaterShort b h) s = done (heaterShort b h s) := rfl
    have hd : exec (.driveFault b l) s = done (driveFaulted b l s) := rfl
    exact ⟨.intro hs (.elementNote ..), .intro hd (.elementNote ..)⟩

end Sys2Proof.Machine
end

section
/-!
PROOFS. The bank registers that act when they are written: snapshots, heater gain and manual drive (R258, R264, R274, R276).
-/

namespace Sys2Proof.Machine

/-- A row of a control die that answers makes what its meaning makes. -/
theorem Makes.of_barRow {c : Instr} {d : DieId} {f : State → State} {s u : State} (hb : (s.die d).barOpen = true)
    (h : exec c s = doneBar d f s) (e : f s = u) : Makes c s u := .of_row (exec_of_doneBar hb h) e

/-! ## Snapshots (R274, R276) -/

section Snapshots
variable {b : Nat} {s : State}

theorem chSelect_outside {d : DieId} {l : Nat} (h : 736 ≤ l) : chSelect d b l s = s := if_pos h

theorem chSelect_cd0 {l : Nat} (h : l < 736) (hu : (s.bank b).up .cd0 = true) :
    chSelect .cd0 b l s = (s.setRf .cd0 (Reg.BNK_CH_SEL b) F.BNK_CH_SEL_CHANNEL l).onBank b (fun k => { k with snapA := k.snapOf l }) :=
  (if_neg (Nat.not_le.mpr h)).trans (if_pos hu)

theorem chSelect_cd1 {l : Nat} (h : l < 736) (hu : (s.bank b).up .cd1 = true) :
    chSelect .cd1 b l s = (s.setRf .cd1 (Reg.BNK_CH_SEL b) F.BNK_CH_SEL_CHANNEL l).onBank b (fun k => { k with snapB := k.snapOf l }) :=
  (if_neg (Nat.not_le.mpr h)).trans (if_pos hu)

theorem probeSnap_kept {slot : Nat} (hu : (s.bank b).up .cd0 = true) :
    probeSnap .cd0 b slot false s = s.onBank b (fun k => { k with probeSnapA := spGet Store.empty slot k.probes }) :=
  if_neg (by simp [hu])

theorem probeSnap_restarted {slot : Nat} (hu : (s.bank b).up .cd1 = true) :
    probeSnap .cd1 b slot true s = s.onBank b (fun k =>
      { k with probeSnapB := spGet Store.empty slot k.probes,
               probes := spSet Store.empty slot ((spGet Store.empty slot k.probes).restart false) k.probes }) :=
  if_neg (by simp [hu])

end Snapshots

/-! ## Heater gain (R258) -/

set_option maxRecDepth 20000 in
theorem findReg_htrGain : ∀ b : Fin 8, findReg 1 (0x400C + 0x800 * b) =
    some (⟨[1], 0x400C, [⟨0, 7, 0x800⟩], false, false, [⟨31, 16, .rc, 0⟩, ⟨15, 2, .ro, 0⟩, ⟨1, 0, .rwe, 0⟩]⟩, [b.val], false) := by decide

theorem htrGain_eq_regKey (b : Nat) : Reg.BNK_HTR_GAIN b = regKey 1 (0x400C + 0x800 * b) := by
  unfold Reg.BNK_HTR_GAIN regKey
  omega

theorem recordKey_htrGain : ∀ b : Fin 8, recordKey (Reg.BNK_HTR_GAIN b) = false := by decide

/-- At Expert level a write of the gain word stores its mode. -/
theorem Die.written_htrGain_mode {x : Die} (hx : x.expert 1 = true) (b : Fin 8) {v : Nat} (hv : v < 2 ^ 32) :
    fget F.BNK_HTR_GAIN_MODE (x.written (Reg.BNK_HTR_GAIN b) v) = fget F.BNK_HTR_GAIN_MODE v := by
  obtain ⟨-, hrwe, -⟩ := registerFieldsByAccess x 1 (0x400C + 0x800 * b) _ _ v (findReg_htrGain b) rfl (by decide) (by omega) hv ⟨1, 0, .rwe, 0⟩
    (by simp)
  rw [htrGain_eq_regKey]
  exact (hrwe rfl).trans (if_pos hx)

theorem KeepsLinks.putWord (s : State) (d : DieId) (key v : Nat) : KeepsLinks s (putWord s d key v) := by
  unfold Machine.putWord
  extract_lets x s1
  have h1 : KeepsLinks s s1 := .onDie ..
  split
  · exact .refl s
  · split
    · exact h1.trans (.of_records (.mirrorReg ..))
    · exact h1

/-- The word that a write leaves in a register that the die may write. -/
theorem reg_putWord {s : State} {d : DieId} {key : Nat} (hw : (s.die d).writable key = true) (hr : recordKey key = false) (v : Nat) :
    ((putWord s d key v).die d).reg key = (s.die d).written key (v % 2 ^ 32) % 2 ^ 32 := by
  unfold putWord
  extract_lets x s1
  have h1 : (s1.die d).reg key = x.written key (v % 2 ^ 32) % 2 ^ 32 := by simp [s1]
  rw [if_neg (by simp [x, hw])]
  split
  · rw [(OnlyRecords.mirrorReg s1 d key).regs d key hr, h1]
  · exact h1

theorem fget_mod_word (f : Fld) (h : f.hi < 32) (hf : f.lo ≤ f.hi) (w : Nat) : fget f (w % 2 ^ 32) = fget f w := by
  refine Nat.eq_of_testBit_eq fun i => ?_
  rw [testBit_fget, testBit_fget, Nat.testBit_mod_two_pow]
  by_cases hi : i < f.hi - f.lo + 1
  · simp [hi, show i + f.lo < 32 by omega]
  · simp [hi]

section Gain
variable {d : DieId} {b : Fin 8} {s : State}

theorem rf_putWord_htrGain (hd : (s.die d).isDecl = true) (hx : (s.die d).expert 1 = true) (v : Nat) :
    ((putWord s d (Reg.BNK_HTR_GAIN b) v).die d).rf (Reg.BNK_HTR_GAIN b) F.BNK_HTR_GAIN_MODE = fget F.BNK_HTR_GAIN_MODE v := by
  have word (w : Nat) := fget_mod_word F.BNK_HTR_GAIN_MODE (by decide) (by decide) w
  rw [Die.rf, reg_putWord (by simp [Die.writable, hd]) (recordKey_htrGain b), word, Die.written_htrGain_mode hx b (Nat.mod_lt _ (by decide)), word]

theorem gainModeWrite_fixedX2 (hd : (s.die d).isDecl = true) (hx : (s.die d).expert 1 = true) (hk : (s.bank b).heaterX2 = false) :
    gainModeWrite d b 2 s =
      sendGain (putWord s d (Reg.BNK_HTR_GAIN b) (fput F.BNK_HTR_GAIN_MODE ((s.die d).reg (Reg.BNK_HTR_GAIN b)) 2)) d b true := by
  unfold gainModeWrite
  rw [if_neg (by simp [hd, hx])]
  extract_lets s1
  have mode : (s1.die d).rf (Reg.BNK_HTR_GAIN b) F.BNK_HTR_GAIN_MODE = 2 :=
    (rf_putWord_htrGain hd hx _).trans (fget_fput_same F.BNK_HTR_GAIN_MODE (by decide) _ 2)
  have gain : (s1.bank b).heaterX2 = false := by rw [(KeepsLinks.putWord ..).bank, hk]
  simp only [chooseGain, mode, gain, if_true, Bool.false_eq_true, if_false]
  rfl

theorem gainModeWrite_ignored {m : BitVec 2} (h : m = 3 ∨ (s.die d).isDecl = false) : gainModeWrite d b m.toNat s = s := by
  refine if_pos ?_
  rcases h with h | h
  · simp [h]
  · simp [h]

end Gain

/-! ## Manual drive (R264) -/

/-- Writing a field with its own value changes nothing. -/
theorem fput_fget (f : Fld) (h : f.lo ≤ f.hi) (w : Nat) : fput f w (fget f w) = w := by
  refine Nat.eq_of_testBit_eq fun i => ?_
  rw [fput, testBit_setBits _ _ h]
  split
  · next hi => rw [testBit_fget, decide_eq_true (by omega), Bool.true_and, Nat.sub_add_cancel hi.1]
  · rfl

section Manual
variable {d : DieId} {b : Nat} {s : State}

theorem manFire_shut (hl : (s.die d).lockOpen = false) : manFire d b s = s := by simp [manFire, hl]

theorem manWrite_shut (hl : (s.die d).lockOpen = false) (v : Nat) : manWrite d b v s = s := by simp [manWrite, hl]

theorem manFire_open (hd : (s.die d).isDecl = true) (hl : (s.die d).lockOpen = true) :
    manFire d b s = holderMsg s d b mFire 0 15 [15] true (·.onBank b (·.fire 15)) := if_pos (by simp [hd, hl])

/-- A manual write without FIRE loads its channel's shadow. -/
theorem manWrite_load (hd : (s.die d).isDecl = true) (hl : (s.die d).lockOpen = true) {v : Nat} (hf : fget F.BNK_MAN_FIRE v = 0) {w : DriveMsg}
    (hw : manMsg (s.die d) b v = some w) : manWrite d b v s =
      driveWrite d b w ((putWord s d (Reg.BNK_MAN b) v).onDie d (·.onElem (elemOf b w.chan) (fun el => { el with update := el.update + 1 }))) := by
  have hv : fput F.BNK_MAN_FIRE v 0 = v := by
    have h := fput_fget F.BNK_MAN_FIRE (by decide) v
    rwa [hf] at h
  simp [manWrite, hd, hl, hv, hw, hf]

end Manual

/-- Settles O6, register by register. -/
theorem bankRegisters : Obligations.BankRegisters := by
  unfold Obligations.BankRegisters
  intro d b ch slot m v s hb
  refine ⟨fun h => .of_barRow hb rfl (chSelect_outside h), fun h hu hd => ?select0, fun h hu hd => ?select1, fun hu hd => ?snap0, fun hu hd => ?snap1,
    fun hd hx hm hk => ?gain, fun h => .of_barRow hb rfl (gainModeWrite_ignored h), fun hd hl hu ha => ?fire,
    fun hl => ⟨.of_barRow hb rfl (manFire_shut hl), .of_barRow hb rfl (manWrite_shut hl _)⟩,
    fun hd hl hf w hw => .of_barRow hb rfl (manWrite_load hd hl hf hw)⟩
  case select0 =>
    subst hd
    exact .of_barRow hb rfl (chSelect_cd0 h hu)
  case select1 =>
    subst hd
    exact .of_barRow hb rfl (chSelect_cd1 h hu)
  case snap0 =>
    subst hd
    exact .of_barRow hb rfl (probeSnap_kept hu)
  case snap1 =>
    subst hd
    exact .of_barRow hb rfl (probeSnap_restarted hu)
  case gain =>
    subst hm
    exact .of_barRow hb rfl (gainModeWrite_fixedX2 hd hx hk)
  case fire =>
    exact .of_change (g := (·.fire 15)) (drive := true) hu ha ((exec_of_doneBar hb rfl).trans (congrArg done (manFire_open hd hl)))
      fun k => k.fire_uncompared 15

end Sys2Proof.Machine
end

section
/-!
PROOFS. The bank links and the mirror link: bad frames, loss, retraining, three failures (R266, R419).
-/

namespace Sys2Proof.Machine

/-! ## Bank links (R266) -/

section BankLink
variable {d : DieId} {b : Fin 8} {s : State}

/-- A bad frame before the sixteenth in a row is counted. -/
theorem makes_bankLinkBadFrame {l : Link} (hl : (s.bank b).link d = l) (hs : l.state = 2) (hb : l.bad < 15) : Makes (.bankLinkBadFrame d b) s
    (s.onBank b (·.setLink d { l with bad := l.bad + 1, crcErr := satAdd 16 l.crcErr 1 })) := by
  have he : linkBadFrame d b s =
      raise (s.onBank b (·.setLink d { l with bad := l.bad + 1, crcErr := satAdd 16 l.crcErr 1 })) d 125 (linkNum d b) := by
    unfold linkBadFrame
    rw [hl, if_neg (by simp [hs])]
    exact if_neg (by omega)
  exact .intro (congrArg done he) (.raise _ _ _ _ (by decide))

theorem makes_bankLinkDown {l : Link} (hl : (s.bank b).link d = l) (hs : l.state = 2) : Makes (.bankLinkDown d b) s
    ((s.onDie d (fun x => { x with bankSeen := spSet [] b (bankSaved (s.bank b) d b) x.bankSeen })).onBank b
      (fun k => (k.setLink d { l with state := 1, bad := 0, retrains := satAdd 6 l.retrains 1 }).portLost)) := by
  have he : linkDown s d b = raise ((s.onDie d (fun x => { x with bankSeen := spSet [] b (bankSaved (s.bank b) d b) x.bankSeen })).onBank b
      (fun k => (k.setLink d { l with state := 1, bad := 0, retrains := satAdd 6 l.retrains 1 }).portLost)) d 124 (linkNum d b) := by
    simp only [linkDown, hl, if_pos hs]
  have hdone : exec (.bankLinkDown d b) s = done (linkDown s d b) := congrArg done (if_pos (by rw [hl, hs]))
  exact .intro (hdone.trans (congrArg done he)) (.raise _ _ _ _ (by decide))

theorem linkUp_retraining {l : Link} (hl : (s.bank b).link d = l) (hs : l.state = 1) (hr : (s.die d).running = true) :
    linkUp d b s = shutAgain (s.onBank b (·.setLink d { l with state := 2, bad := 0 })) d b := by
  unfold linkUp
  rw [hl]
  refine if_neg ?_
  rw [hs]
  unfold Die.running at hr
  split at hr
  case h_1 hw => simp [hw]
  case h_2 hup => simp [hup]
  case h_3 => cases hr

theorem linkUp_lost (hs : ((s.bank b).link d).state = 3) : linkUp d b s = s := if_pos (by simp [hs])

section Failed
variable {l : Link} (hl : (s.bank b).link d = l) (hs : l.state = 1)
include hl hs

theorem linkRetrainFail_again (h : (l.fails.filter (fun t => decide (s.ticks < t + 1000000000))).length < 2) :
    linkRetrainFail d b s = s.onBank b (·.setLink d { l with
      fails := l.fails.filter (fun t => decide (s.ticks < t + 1000000000)) ++ [s.ticks], retrains := satAdd 6 l.retrains 1 }) := by
  unfold linkRetrainFail
  rw [hl, if_neg (by simp [hs])]
  exact if_neg (by rw [List.length_append]; exact Nat.not_le.mpr (Nat.succ_lt_succ h))

theorem linkRetrainFail_third (h : 2 ≤ (l.fails.filter (fun t => decide (s.ticks < t + 1000000000))).length) :
    linkRetrainFail d b s = linkLost (raiseBoth (s.onBank b (·.setLink d { l with
      state := 3, fails := l.fails.filter (fun t => decide (s.ticks < t + 1000000000)) ++ [s.ticks] })) (108 + linkNum d b) (linkNum d b)) b := by
  unfold linkRetrainFail
  rw [hl, if_neg (by simp [hs])]
  exact if_pos (by rw [List.length_append]; exact Nat.succ_le_succ h)

end Failed

end BankLink

/-! ## The mirror link (R419) -/

theorem mirror_mirrorDown (s : State) : (mirrorDown s).mirror = { s.mirror with state := 1, bad := 0 } := by
  have drop (t : State) (d : DieId) : KeepsLinks t ((mirrorSeenDown t d).onDie d (·.onRed (fun r => { r with loading := false }))) :=
    (KeepsLinks.mirrorSeenDown t d).trans (.onDie ..)
  exact ((drop _ .cd0).trans (drop _ .cd1)).mirror

/-- The mirror link with one more bad frame, that the peer of die d replays. -/
def badFrameAt (d : DieId) (s : State) : State :=
  { s with mirror := { s.mirror with bad := s.mirror.bad + 1 } }.onDie d.peer (fun x =>
    (x.count Reg.RED_MIRROR_ERR F.RED_MIRROR_ERR_REPLAYS).addTotal 0)

section MirrorLink
variable {s : State}

theorem mirrorBadFrame_notUp {d : DieId} (h : s.mirror.state ≠ 2) : mirrorBadFrame d s = s := if_pos h

theorem mirrorBadFrame_up {d : DieId} (h : s.mirror.state = 2) : mirrorBadFrame d s =
    if 16 ≤ s.mirror.bad + 1 then mirrorDown (raise (badFrameAt d s) d.peer 186) else raise (badFrameAt d s) d.peer 186 :=
  if_neg (not_not_intro h)

theorem makes_mirrorLinkBadFrame {d : DieId} (h : s.mirror.state = 2) (hb : s.mirror.bad < 15) :
    Makes (.mirrorLinkBadFrame d) s (badFrameAt d s) :=
  have he : exec (.mirrorLinkBadFrame d) s = done (raise (badFrameAt d s) d.peer 186) :=
    congrArg done ((mirrorBadFrame_up h).trans (if_neg (by omega)))
  .intro he (.raise _ _ _ _ (by decide))

theorem answers_mirrorLinkBadFrame {d : DieId} (h : s.mirror.state = 2) (hb : 15 ≤ s.mirror.bad) :
    Answers (.mirrorLinkBadFrame d) s (fun t => t.mirror.state = 1 ∧ t.mirror.bad = 0) := by
  refine .of_done (congrArg done ((mirrorBadFrame_up h).trans (if_pos (by omega)))) fun t ht => ?_
  rw [ht.mirrorLink, mirror_mirrorDown]
  exact ⟨rfl, rfl⟩

theorem exec_mirrorLinkDown (h : s.mirror.state = 2) : exec .mirrorLinkDown s = done (mirrorDown s) := congrArg done (if_pos h)

theorem exec_mirrorLinkUp (h : s.mirror.state = 1) : exec .mirrorLinkUp s = done (mirrorUp s) := congrArg done (if_pos h)

theorem mirrorRetrainFail_down (h : s.mirror.state = 1) : let past := s.mirror.fails.filter (fun t => decide (s.ticks < t + secT))
    mirrorRetrainFail s = { s with mirror := { s.mirror with fails := past ++ [s.ticks], state := if 2 ≤ past.length then 3 else 1 } } := by
  intro past
  unfold mirrorRetrainFail
  rw [if_neg (not_not_intro h)]
  simp [past]

theorem mirror_mirrorUp (s : State) : (mirrorUp s).mirror = { s.mirror with state := 2, bad := 0 } :=
  ((KeepsLinks.onDie _ .cd0 _).trans (.onDie _ .cd1 _)).mirror

theorem mirrorDownSince_mirrorUp (s : State) (d : DieId) : ((mirrorUp s).die d).red.mirrorDownSince = none := by
  cases d <;> rfl

end MirrorLink

/-- Settles O7: the bank links by the state of the link, then the mirror link. -/
theorem linksFailAndRetrain : Obligations.LinksFailAndRetrain := by
  unfold Obligations.LinksFailAndRetrain
  refine ⟨fun d b s => ?bank, fun s => ?mirror⟩
  case bank =>
    exact ⟨makes_bankLinkBadFrame rfl, makes_bankLinkDown rfl, fun hs hr => .of_row rfl (linkUp_retraining rfl hs hr),
      fun hs => .of_row rfl (linkUp_lost hs), fun hs h => .of_row rfl (linkRetrainFail_again rfl hs h),
      fun hs h => .of_row rfl (linkRetrainFail_third rfl hs h)⟩
  case mirror =>
    refine ⟨fun d => ⟨fun h => .of_row rfl (mirrorBadFrame_notUp h), fun h => ⟨makes_mirrorLinkBadFrame h, answers_mirrorLinkBadFrame h⟩⟩,
      fun h => ⟨.of_done (exec_mirrorLinkDown h), .of_done (exec_mirrorLinkDown h) fun t ht => ?down⟩, fun h => .of_done (congrArg done (if_neg h)),
      fun h => ⟨.of_row rfl (mirrorRetrainFail_down h), .of_done (exec_mirrorLinkUp h), .of_done (exec_mirrorLinkUp h) fun t ht => ⟨?up, fun d => ?since⟩⟩,
      fun h => ⟨.of_row rfl (show mirrorRetrainFail s = s from if_pos h), .of_done (congrArg done (if_neg h))⟩⟩
    case down => rw [ht.mirrorLink, mirror_mirrorDown]
    case up => rw [ht.mirrorLink, mirror_mirrorUp]
    case since =>
      have hsince := ht.die_eq d (·.red.mirrorDownSince) fun _ => rfl
      rw [hsince, mirrorDownSince_mirrorUp]

end Sys2Proof.Machine
end

section
/-!
PROOFS. The steps a VSP message passes before it acts (R317 to R319, R385): one lemma an outcome, for every row that is such a message.
-/

namespace Sys2Proof.Machine

/-- Every row that is a VSP message takes it through the same steps. -/
theorem exec_vspRow : ∀ r ∈ vspRows, ∀ (rx : VspRx) (s : State), mType rx.bytes = r.1 →
    exec (r.2 rx) s = done (vspMessage rx (vspBody r.1) s) := by
  intro r hr rx s ht
  simp only [vspRows, List.mem_cons, List.not_mem_nil, or_false] at hr
  obtain rfl | rfl | rfl | rfl | rfl | rfl | rfl := hr
  iterate 6 exact congrArg done (if_pos ht)
  have hown : ¬ [vtRegister, vtHello, vtBid, vtTake, vtDeckinfo, vtPortcheck].contains (mType rx.bytes) = true := by rw [ht]; decide
  exact congrArg done (if_neg hown)

/-! ## Agents by key -/

theorem die_vspTaken_vsp (s : State) (rx : VspRx) (d : DieId) : ((vspTaken s rx).die d).vsp = (s.die d).vsp := by
  unfold vspTaken
  by_cases hd : d = rx.src.die
  · rw [hd, State.die_onDie_same]
  · rw [State.die_onDie_other s hd]

theorem keyAgent_congr {x y : Die} (h : y.vsp = x.vsp) (rx : VspRx) : keyAgent y rx = keyAgent x rx := by
  unfold keyAgent
  rw [h]

theorem msgAgent_congr {x y : Die} (h : y.vsp = x.vsp) (rx : VspRx) : msgAgent y rx = msgAgent x rx :=
  congrArg (Option.filter _) (keyAgent_congr h rx)

/-! ## The sequence number and steps 5 and 6 -/

section Judge
variable {s : State} {d : DieId} {a : Agent} {rx : VspRx} {yellow : Bool} {f : State → DieId → Nat → VspRx → Egr → State}

theorem vspJudge_stale (h : judgeSeq a (mSeq rx.bytes) = .stale) : vspJudge s d a rx yellow f = vspDropped s d rx 4 := by
  simp only [vspJudge, h]

/-- No reply goes out again without the retry flag (R319). -/
theorem vspJudge_duplicate (h : judgeSeq a (mSeq rx.bytes) = .duplicate) (hb : bitOf (mFlags rx.bytes) 1 = false) :
    vspJudge s d a rx yellow f = vspDropped s d rx 5 := by
  simp [vspJudge, h, vspDuplicate, hb]

section New
variable {l : Nat} {seen : BitVec 16} (h : judgeSeq a (mSeq rx.bytes) = .new l seen)
include h

theorem vspJudge_refused {n : Nat} (hn : vspRefusal rx.bytes a.maxClass a.trump = some n) : vspJudge s d a rx yellow f =
    nackAgent (vspAccepted s d { a with seqL := some l, seqSeen := seen } rx) d a.id rx (replyEgr rx yellow) n := by
  simp only [vspJudge, h, hn]

theorem vspJudge_passes (hn : vspRefusal rx.bytes a.maxClass a.trump = none) : vspJudge s d a rx yellow f =
    f (vspAccepted s d { a with seqL := some l, seqSeen := seen } rx) d a.id rx (replyEgr rx yellow) := by
  simp only [vspJudge, h, hn]

end New
end Judge

/-! ## Steps 1 to 4 -/

/-- A BID or a TAKE is metered (R385), and is no REGISTER. -/
theorem metered_of_type {n : Nat} (h : n = 3 ∨ n = 5) : n ≠ 1 ∧ (n = vtTake || n = vtBid) = true := by
  rcases h with rfl | rfl <;> decide

section Message
variable {s : State} {rx : VspRx} {f : State → DieId → Nat → VspRx → Egr → State}

theorem vspMessage_lost (h : (s.die rx.src.die).running = false) : vspMessage rx f s = s := by simp [vspMessage, h]

theorem vspMessage_waits (h : (s.die rx.src.die).running = true) (he : vspEngine s rx = none) : vspMessage rx f s = vspWaits s rx := by
  simp [vspMessage, h, he]

section Taken
variable {d : DieId} (hr : (s.die rx.src.die).running = true) (he : vspEngine s rx = some d)
include hr he

theorem vspMessage_unsound {c : Nat} (hc : vspUnsound rx.bytes = some c) : vspMessage rx f s = vspDropped (vspTaken s rx) d rx c := by
  simp [vspMessage, hr, he, hc]

section Sound
variable (hu : vspUnsound rx.bytes = none)
include hu

theorem vspMessage_newKey (ht : mType rx.bytes = 1) (hk : keyAgent (s.die d) rx = none) : vspMessage rx f s = registerNew (vspTaken s rx) d rx := by
  simp [vspMessage, hr, he, hu, vtRegister, ht, keyAgent_congr (die_vspTaken_vsp s rx d), hk]

theorem vspMessage_stranger (ht : mType rx.bytes ≠ 1) (hm : msgAgent (s.die d) rx = none) :
    vspMessage rx f s = nackStranger (vspTaken s rx) d rx 0x20 := by
  simp [vspMessage, hr, he, hu, vtRegister, ht, msgAgent_congr (die_vspTaken_vsp s rx d), hm, nackUnregistered]

/-- A message that no policer meters is judged at once. -/
theorem vspMessage_judged {a : Agent} (hb : mType rx.bytes ≠ 3) (ht : mType rx.bytes ≠ 5)
    (ha : (if mType rx.bytes = 1 then keyAgent (s.die d) rx else msgAgent (s.die d) rx) = some a) :
    vspMessage rx f s = vspJudge (vspTaken s rx) d a rx false f := by
  have hvsp := die_vspTaken_vsp s rx d
  by_cases h1 : mType rx.bytes = 1
  · rw [if_pos h1] at ha
    simp [vspMessage, hr, he, hu, vtRegister, h1, keyAgent_congr hvsp, ha]
  · rw [if_neg h1] at ha
    simp [vspMessage, hr, he, hu, vtRegister, vtTake, vtBid, h1, ht, hb, msgAgent_congr hvsp, ha]

section Policed
variable (hp : mType rx.bytes = 3 ∨ mType rx.bytes = 5) {a : Agent} (ha : msgAgent (s.die d) rx = some a) {s1 : State}
include hp ha

theorem vspMessage_red (hc : police (vspTaken s rx) d a rx = (2, s1)) : vspMessage rx f s = s1 := by
  obtain ⟨h1, hm⟩ := metered_of_type hp
  simp only [vspMessage, hr, he, hu, vtRegister, h1, hm, msgAgent_congr (die_vspTaken_vsp s rx d), ha, hc, if_true, if_false]

/-- The policer wrote the agent's entry anew, and the message is judged by that. -/
theorem vspMessage_green {b : Agent} (hc : police (vspTaken s rx) d a rx = (0, s1)) (hb : (s1.die d).agent a.id = some b) :
    vspMessage rx f s = vspJudge s1 d b rx false f := by
  obtain ⟨h1, hm⟩ := metered_of_type hp
  simp only [vspMessage, hr, he, hu, vtRegister, h1, hm, msgAgent_congr (die_vspTaken_vsp s rx d), ha, hc, hb, if_true, if_false]
  rfl

end Policed
end Sound
end Taken
end Message

/-- Settles O51: the steps of R317 in their order, the same for every row. -/
theorem vspMessagesAreJudged : Obligations.VspMessagesAreJudged := by
  unfold Obligations.VspMessagesAreJudged
  intro r hrow rx s ht
  have makes {u : State} (h : vspMessage rx (vspBody r.1) s = u) : Makes (r.2 rx) s u :=
    .of_done ((exec_vspRow r hrow rx s ht).trans (congrArg done h))
  rw [← ht] at makes ⊢
  refine ⟨fun hr => makes (vspMessage_lost hr), fun hr he => makes (vspMessage_waits hr he), fun d hr he => ?taken⟩
  refine ⟨fun c hc => makes (vspMessage_unsound hr he hc), fun hu h1 hm => makes (vspMessage_stranger hr he hu h1 hm),
    fun a hu hb h5 ha => ?judged, fun a c s1 hu hp ha hc => ⟨?red, ?green⟩⟩
  case judged =>
    have hj := vspMessage_judged (f := vspBody (mType rx.bytes)) hr he hu hb h5 ha
    exact ⟨fun h => makes (hj.trans (vspJudge_stale h)), fun h hf => makes (hj.trans (vspJudge_duplicate h hf)),
      fun l seen h => ⟨fun n hn => makes (hj.trans (vspJudge_refused h hn)), fun hn => makes (hj.trans (vspJudge_passes h hn))⟩⟩
  case red =>
    rintro rfl
    exact makes (vspMessage_red hr he hu hp ha hc)
  case green =>
    rintro b l seen rfl hb h hn
    exact makes ((vspMessage_green hr he hu hp ha hc hb).trans (vspJudge_passes h hn))

end Sys2Proof.Machine
end

section
/-!
PROOFS. What sending messages leaves of the registry of agents: the entries but for the numbers and replies of the messages.
-/

namespace Sys2Proof.Machine

/-- A part of a die that a change of some die leaves. -/
theorem die_onDie_keeps {α : Type} (π : Die → α) {f : Die → Die} (h : ∀ x, π (f x) = π x) (s : State) (e d : DieId) :
    π ((s.onDie e f).die d) = π (s.die d) := by
  by_cases hde : d = e
  · rw [hde, State.die_onDie_same, h]
  · rw [State.die_onDie_other s hde]

/-! ## Entries of a registry -/

/-- An agent's entry without what messages sent to it write: the module's next number and the replies recorded (R319, R320). -/
def Agent.unsent (a : Agent) : Agent := { a with txSeq := 0, replies := [] }

theorem Die.agent_id {x : Die} {i : Nat} {a : Agent} (h : x.agent i = some a) : a.id = i := by simpa using List.find?_some h

/-- A registered agent's entry is replaced, and no other is. -/
theorem Die.agent_setAgent {x : Die} {a : Agent} (h : (x.agent a.id).isSome = true) (i : Nat) :
    (x.setAgent a).agent i = if i = a.id then some a else x.agent i := by
  have hid (b : Agent) : (if b.id = a.id then a else b).id = b.id := by split <;> simp_all
  have hp : (fun b : Agent => decide (b.id = i)) ∘ (fun b => if b.id = a.id then a else b) = fun b => decide (b.id = i) :=
    funext fun b => by simp only [Function.comp, hid]
  have hmap : (x.setAgent a).agent i = (x.agent i).map (fun b => if b.id = a.id then a else b) := by
    simp only [Die.agent, Die.setAgent, List.find?_map, hp]
  rw [hmap]
  split
  case isTrue hi =>
    subst hi
    obtain ⟨b, hb⟩ := Option.isSome_iff_exists.1 h
    rw [hb, Option.map_some, if_pos (Die.agent_id hb)]
  case isFalse hi =>
    cases hb : x.agent i with
    | none => rfl
    | some b => rw [Option.map_some, if_neg (by rw [Die.agent_id hb]; exact hi)]

/-- What messages write of an agent's entry leaves the entries without it. -/
theorem Die.agent_setAgent_unsent {x : Die} {a b : Agent} {i : Nat} (h : x.agent i = some a) (hu : b.unsent = a.unsent) (j : Nat) :
    ((x.setAgent b).agent j).map Agent.unsent = (x.agent j).map Agent.unsent := by
  have hba : b.id = a.id := show b.unsent.id = a.unsent.id by rw [hu]
  have hid : b.id = i := hba.trans (Die.agent_id h)
  rw [Die.agent_setAgent (by rw [hid, h]; rfl)]
  split
  case isTrue hj => rw [hj, hid, h, Option.map_some, Option.map_some, hu]
  case isFalse => rfl

theorem Die.onCport_vsp (x : Die) (p : Nat) (f : CPort → CPort) : (x.onCport p f).vsp = x.vsp := rfl

/-! ## Sending -/

/-- From s to t only messages to agents are sent: time stands, and so do the registries, but for what those messages write. -/
structure SendsOnly (s t : State) : Prop where
  agents : ∀ d i, ((t.die d).agent i).map Agent.unsent = ((s.die d).agent i).map Agent.unsent
  retryAt : ∀ d, (t.die d).vsp.retryAt = (s.die d).vsp.retryAt
  ticks : t.ticks = s.ticks

theorem OnlyRecords.die_vsp {s t : State} (h : OnlyRecords s t) (d : DieId) : (t.die d).vsp = (s.die d).vsp := h.die_eq d (·.vsp) fun _ => rfl

theorem OnlyRecords.agentEvent (s : State) (d : DieId) (id code port : Nat) : OnlyRecords s (agentEvent s d id code port) :=
  .eventMirrored ..

theorem OnlyRecords.mirrorPlanner (s : State) (d : DieId) : OnlyRecords s (mirrorPlanner s d) := .mirror s d _

theorem OnlyRecords.mirrorVsp (s : State) (d : DieId) : OnlyRecords s (mirrorVsp s d) := .mirror s d _

namespace SendsOnly
variable {s t u : State}

theorem of_vsp (h : ∀ d, (t.die d).vsp = (s.die d).vsp) (ht : t.ticks = s.ticks) : SendsOnly s t :=
  ⟨fun d i => by rw [Die.agent, h d, ← Die.agent], fun d => by rw [h d], ht⟩

theorem refl (s : State) : SendsOnly s s := ⟨fun _ _ => rfl, fun _ => rfl, rfl⟩

theorem trans (h : SendsOnly s t) (k : SendsOnly t u) : SendsOnly s u :=
  ⟨fun d i => (k.agents d i).trans (h.agents d i), fun d => (k.retryAt d).trans (h.retryAt d), k.ticks.trans h.ticks⟩

theorem of_records (h : OnlyRecords s t) : SendsOnly s t := .of_vsp h.die_vsp h.ticks

theorem onDie (s : State) (d : DieId) (f : Die → Die)
    (ha : ∀ i, ((f (s.die d)).agent i).map Agent.unsent = ((s.die d).agent i).map Agent.unsent)
    (hr : (f (s.die d)).vsp.retryAt = (s.die d).vsp.retryAt) : SendsOnly s (s.onDie d f) := by
  refine ⟨fun e i => ?_, fun e => ?_, s.onDie_ticks d f⟩ <;> by_cases he : e = d
  · rw [he, State.die_onDie_same, ha]
  · rw [State.die_onDie_other s he]
  · rw [he, State.die_onDie_same, hr]
  · rw [State.die_onDie_other s he]

/-- A change of a die outside its registry. -/
theorem outside (s : State) (d : DieId) (f : Die → Die) (h : ∀ x, (f x).vsp = x.vsp) : SendsOnly s (s.onDie d f) :=
  .of_vsp (die_onDie_keeps (·.vsp) h s d) (s.onDie_ticks d f)

theorem drawn (s : State) : SendsOnly s s.drawn := .of_vsp (fun d => by rw [State.die_drawn]) rfl

/-- An agent's entry is replaced, in what messages write. -/
theorem setAgent (s : State) {d : DieId} {a : Agent} (b : Agent) {i : Nat} (h : (s.die d).agent i = some a) (hu : b.unsent = a.unsent) :
    SendsOnly s (s.onDie d (·.setAgent b)) :=
  .onDie s d _ (Die.agent_setAgent_unsent h hu) rfl

theorem askPeer (s : State) (d : DieId) (q : PeerReq) : SendsOnly s (askPeer s d q) := by
  unfold Machine.askPeer
  split
  · exact .outside s d _ fun _ => rfl
  · exact .refl s

theorem count (s : State) (d : DieId) (k : Nat) (f : Fld) (n : Nat) : SendsOnly s (s.count d k f n) := .outside s d _ fun x => x.count_vsp ..

theorem onCport (s : State) (d : DieId) (p : Nat) (f : CPort → CPort) : SendsOnly s (s.onDie d (·.onCport p f)) := .outside s d _ fun _ => rfl

theorem dropTx (s : State) (d : DieId) (p q : Nat) : SendsOnly s (dropTx s d p q) := by
  refine .trans (.outside s d _ fun x => ?_) (.of_records (.raise _ d 138 0 (by decide)))
  exact (Die.onCport_vsp ..).trans (x.count_vsp ..)

theorem enqueue (s : State) (d : DieId) (p q : Nat) (f : TxFrame) : SendsOnly s (enqueue s d p q f).1 := by
  unfold Machine.enqueue
  extract_lets x c n depth lim used full t
  split_ifs
  · exact .refl s
  · exact .dropTx ..
  · dsimp only
    exact .onCport ..

theorem egress (s : State) (d : DieId) (p cls : Nat) (queue : Option Nat) (zsl : Bool) (f : TxFrame) :
    SendsOnly s (egress s d p cls queue zsl f).1 := by
  unfold Machine.egress
  extract_lets x
  split_ifs
  · exact .enqueue ..
  · exact .enqueue ..
  · split
    · exact (count ..).trans (.enqueue ..)
    · exact .enqueue ..
    · exact .enqueue ..

theorem sendTrump (r : State × Bool) (d : DieId) (p : Nat) (trump : Bool) : SendsOnly r.1 (sendTrump r d p trump) := by
  unfold Machine.sendTrump
  split
  · exact .onCport ..
  · exact .refl r.1

theorem sendVsp (s : State) (d : DieId) (src : VspFrom) (cls : Nat) (queue : Option Nat) (yellow trump : Bool) (msg : List Byte) :
    SendsOnly s (sendVsp s d src cls queue yellow trump msg) := by
  unfold Machine.sendVsp
  extract_lets x f
  split
  · exact (egress ..).trans (.sendTrump ..)
  · exact .askPeer ..

theorem sendAgent (s : State) (d : DieId) (id type flags : Nat) (g : Egr) (body : List Byte) :
    SendsOnly s (sendAgent s d id type flags g body) := by
  unfold Machine.sendAgent
  extract_lets x
  split
  case h_1 => exact .refl s
  case h_2 a ha =>
    refine .trans (.setAgent s _ ha ?_) (.sendVsp ..)
    rfl

theorem trumpDone (s : State) (src : VspFrom) (cls : Nat) : SendsOnly s (trumpDone s src cls) := by
  unfold Machine.trumpDone
  split
  · exact .onCport ..
  · exact .refl s

/-- The reply to an agent's message, recorded or not (R319). -/
theorem answer (s : State) (d : DieId) (id reftype refseq type : Nat) (g : Egr) (src : VspFrom) (body : List Byte) :
    SendsOnly s (answer s d id reftype refseq type g src body) := by
  unfold Machine.answer
  extract_lets s1 s2
  have h1 : SendsOnly s s1 := by
    unfold s1
    split
    · refine .onDie s d _ (fun i => ?_) ?_
      · split
        case h_1 a ha => exact Die.agent_setAgent_unsent (b := a.record refseq type body) ha rfl i
        case h_2 => rfl
      · split <;> rfl
    · exact .refl s
  have h2 : SendsOnly s1 s2 := by
    unfold s2
    split
    · exact .trumpDone ..
    · exact .refl s1
  exact (h1.trans h2).trans ((sendAgent ..).trans (.of_records (.mirrorVsp ..)))

end SendsOnly
end Sys2Proof.Machine
end

section
/-!
PROOFS. Agents join, bid and take, and fall silent (R321 to R324, R329, R331).
-/

namespace Sys2Proof.Machine

/-! ## Registration (R321, R322) -/

section Register
variable {s : State} {d : DieId} {rx : VspRx}

theorem registerNew_refused {n : Nat} (h : vspRefusal rx.bytes (regForm rx.bytes).maxClass false = some n) :
    registerNew s d rx = nackStranger s d rx n := by
  simp only [registerNew, h]

theorem registerNew_invalid (h : vspRefusal rx.bytes (regForm rx.bytes).maxClass false = none) (ho : regOk rx.bytes = false) :
    registerNew s d rx = nackStranger s d rx stInvalid := by
  simp [registerNew, h, ho]

/-- The ID a new agent receives is free. -/
theorem agent_of_newId {x : Die} {q id : Nat} (h : newId x q = some id) : x.agent id = none := by
  unfold newId at h
  extract_lets free at h
  split at h
  case isTrue hf =>
    cases h
    simpa [free] using (Bool.and_eq_true_iff.1 hf).2
  case isFalse => simpa [free] using List.find?_some h

theorem newId_congr {x y : Die} (h : y.vsp = x.vsp) (q : Nat) : newId y q = newId x q := by
  unfold newId Die.agent
  rw [h]

/-- The entry of a new agent once its REGISTER is accepted: how the message came, and on which port (R312, R324, R361). -/
def enteredAgent (s : State) (d : DieId) (id : Nat) (rx : VspRx) : Agent :=
  ({ newAgent s d id rx with lastAt := s.ticks, src := rx.src } : Agent).setPortOn rx.src.die rx.src.port.val

theorem enteredAgent_id (s : State) (d : DieId) (id : Nat) (rx : VspRx) : (enteredAgent s d id rx).id = id := by
  unfold enteredAgent
  cases rx.src.die <;> rfl

/-- An entry holds what a REGISTER that comes now says of its agent, with its flags clear (R321, R322). -/
def EnteredBy (rx : VspRx) (ticks : Nat) (a : Agent) : Prop :=
  a.mac = rx.src.mac ∧ a.vlan = vspVlan rx.src ∧ a.domain = mDomain rx.bytes ∧ a.port = (regForm rx.bytes).port ∧ a.rate = (regForm rx.bytes).rate ∧
    a.maxClass = (regForm rx.bytes).maxClass ∧ a.name = (regForm rx.bytes).name ∧ a.verified = false ∧ a.take = false ∧ a.trump = false ∧
    a.lastAt = ticks

theorem enteredBy_unsent {rx : VspRx} {ticks : Nat} {a : Agent} : EnteredBy rx ticks a.unsent ↔ EnteredBy rx ticks a := Iff.rfl

theorem enteredBy_enteredAgent (s : State) (d : DieId) (id : Nat) (rx : VspRx) : EnteredBy rx s.ticks (enteredAgent s d id rx) := by
  unfold EnteredBy enteredAgent
  cases rx.src.die <;> exact ⟨rfl, rfl, rfl, rfl, rfl, rfl, rfl, rfl, rfl, rfl, rfl⟩

theorem Die.setEpt_vsp (x : Die) (p : Nat) (l : Sparse EptEntry) : (x.setEpt p l).vsp = x.vsp := by
  unfold Die.setEpt Die.onPipe
  split <;> rfl

theorem agentSeen_vsp (x : Die) (p key id oport : Nat) : (agentSeen x p key id oport).vsp = x.vsp := by
  unfold agentSeen
  extract_lets t
  split
  · exact Die.setEpt_vsp ..
  · rfl

/-- The state with a new agent in its registry. -/
def withAgent (s : State) (d : DieId) (a : Agent) : State :=
  s.onDie d (fun x => { x with vsp := { x.vsp with agents := x.vsp.agents ++ [a] } })

theorem registerNew_enters {id : Nat} (h : vspRefusal rx.bytes (regForm rx.bytes).maxClass false = none) (ho : regOk rx.bytes = true)
    (hl : (regForm rx.bytes).leave = false) (hi : newId (s.die d) (regForm rx.bytes).reqId = some id) : registerNew s d rx =
      let a := newAgent s d id rx
      registerAck (agentEvent (vspAccepted (withAgent s d a) d a rx) d id 0 a.port) d id rx := by
  simp only [registerNew, h, ho, hl, hi, Bool.not_true, Bool.false_eq_true, if_false]
  rfl

/-- The message is an agent's first: it came on no other port before, so that none is left (R361). -/
theorem vspAccepted_withAgent (s : State) (d : DieId) (id : Nat) (rx : VspRx) : let a := newAgent s d id rx
    vspAccepted (withAgent s d a) d a rx =
      ((withAgent s d a).onDie rx.src.die (fun x => agentSeen x (pipeOf rx.src.port.val) a.key a.id a.port)).onDie d
        (·.setAgent (enteredAgent s d id rx)) := by
  intro a
  have hport : a.portOn rx.src.die = none := by cases rx.src.die <;> rfl
  have hticks : (withAgent s d a).ticks = s.ticks := s.onDie_ticks d _
  simp only [vspAccepted, hport, hticks]
  rfl

/-- The entry stands under its ID once the message is accepted. -/
theorem agent_vspAccepted_withAgent {id : Nat} (hfree : (s.die d).agent id = none) :
    ((vspAccepted (withAgent s d (newAgent s d id rx)) d (newAgent s d id rx) rx).die d).agent id = some (enteredAgent s d id rx) := by
  rw [vspAccepted_withAgent, State.die_onDie_same]
  generalize hx : State.die _ d = x
  have hvsp : x.vsp = ((withAgent s d (newAgent s d id rx)).die d).vsp :=
    hx ▸ die_onDie_keeps (·.vsp) (fun y => agentSeen_vsp y ..) _ rx.src.die d
  have hnew : x.agent id = some (newAgent s d id rx) := by
    rw [Die.agent, hvsp, withAgent, State.die_onDie_same, List.find?_append]
    exact (congrArg (Option.or · _) hfree).trans (by simp [newAgent, Agent.full])
  have hid := enteredAgent_id s d id rx
  rw [Die.agent_setAgent (by rw [hid, hnew]; rfl), if_pos hid.symm]

theorem registerAck_sends (s : State) (d : DieId) (id : Nat) (rx : VspRx) : SendsOnly s (registerAck s d id rx) := .answer ..

/-- A sound REGISTER of an unknown key leaves its entry in the registry (R321, R322). -/
theorem enters_registerNew {id : Nat} (h : vspRefusal rx.bytes (regForm rx.bytes).maxClass false = none) (ho : regOk rx.bytes = true)
    (hl : (regForm rx.bytes).leave = false) (hi : newId (s.die d) (regForm rx.bytes).reqId = some id) {t : State}
    (hrec : OnlyRecords (registerNew s d rx) t) : ∃ a, (t.die d).agent id = some a ∧ EnteredBy rx s.ticks a := by
  rw [registerNew_enters h ho hl hi] at hrec
  extract_lets a at hrec
  have hsend : SendsOnly (vspAccepted (withAgent s d a) d a rx) t :=
    (SendsOnly.of_records (.agentEvent ..)).trans ((registerAck_sends ..).trans (.of_records hrec))
  have hat := hsend.agents d id
  rw [agent_vspAccepted_withAgent (agent_of_newId hi), Option.map_some] at hat
  obtain ⟨b, hb, hbu⟩ := Option.map_eq_some_iff.1 hat
  refine ⟨b, hb, enteredBy_unsent.1 ?_⟩
  rw [hbu]
  exact enteredBy_unsent.2 (enteredBy_enteredAgent s d id rx)

end Register

/-! ## BID and TAKE (R329, R331) -/

section Bid
variable {s : State} {d : DieId} {id : Nat} {rx : VspRx} {g : Egr} {a : Agent} (ha : (s.die d).agent id = some a)
include ha

theorem bidReceived_notPermitted (h : a.slotted = false ∨ a.port = 0x3FF) : bidReceived s d id rx g = nackAgent s d id rx g 0x21 := by
  simp only [bidReceived, ha]
  exact if_pos (by rcases h with h | h <;> simp [noPort, h])

theorem vspTake_notPermitted (h : a.take = false) : vspTake s d id rx g = nackAgent s d id rx g 0x21 := by
  simp only [vspTake, ha]
  exact if_pos (by simpa using h)

/-- A sound BID in an epoch of the automatic deck replaces the agent's earlier one for that epoch (R179, R329). -/
theorem bids_bidReceived {n : Nat} (hs : a.slotted = true) (hp : a.port ≠ 0x3FF) (ho : bidOk rx.bytes a.maxClass = true)
    (hn : bidEpoch (s.die d) rx.stamp = some n) : ((bidReceived s d id rx g).die d).planner.bids =
      upsert (fun (e : Bid) => e.epoch = n && e.agent = id)
        ⟨n, id, a.port, a.rate * 1000000, (bidUsed (s.die d) a (bidEntries rx.bytes)).1⟩ (s.die d).planner.bids := by
  have hnp : ¬ (!a.slotted || decide (a.port = noPort)) = true := by simp [noPort, hs, hp]
  have htrump : ((trumpDone s rx.src rx.cls.val).die d).planner = (s.die d).planner := by
    unfold trumpDone
    split
    · refine die_onDie_keeps (·.planner) ?_ s _ d
      exact fun _ => rfl
    · rfl
  simp only [bidReceived, ha, if_neg hnp, ho, Bool.not_true, Bool.false_eq_true, if_false, hn]
  rw [(OnlyRecords.mirrorPlanner _ d).die_planner d, State.die_onDie_same, die_shadowed]
  dsimp only
  rw [Die.count_planner, (OnlyRecords.mirrorVsp _ d).die_planner d, htrump]

end Bid

/-! ## Silence (R324) -/

theorem agents_agentGone (s : State) (d : DieId) (a : Agent) (code : Nat) :
    ((agentGone s d a code).die d).vsp.agents = (s.die d).vsp.agents.filter (fun b => b.id ≠ a.id) := by
  unfold agentGone
  extract_lets f s1
  have hask : ((askPeer s1 d (.agentGone a.id)).die d).vsp = (s1.die d).vsp := by
    unfold askPeer
    split
    · rw [State.die_onDie_same]
    · rfl
  have hrec := (OnlyRecords.agentEvent (askPeer s1 d (.agentGone a.id)) d a.id code a.port).trans (.mirrorVsp _ d)
  rw [hrec.die_vsp, hask, State.die_onDie_same]
  rfl

section Silent
variable {s : State} {d : DieId} {n : Nat} (hs : s.serving = some d)
include hs

theorem agentTimeout_unknown (h : (s.die d).agent n = none) : agentTimeout n s = s := by simp only [agentTimeout, hs, h]

theorem agentTimeout_heard {a : Agent} (h : (s.die d).agent n = some a) (ht : s.ticks - a.lastAt < 3 * a.helloMs * msT) :
    agentTimeout n s = s := by
  simp only [agentTimeout, hs, h, Nat.not_le.2 ht, if_false]

theorem agentTimeout_silent {a : Agent} (h : (s.die d).agent n = some a) (ht : 3 * a.helloMs * msT ≤ s.ticks - a.lastAt) :
    agentTimeout n s = agentGone (raise s d 142) d a 2 := by
  simp only [agentTimeout, hs, h, ht, if_true]

end Silent

end Sys2Proof.Machine
end

section
/-!
PROOFS. Port checks that miss their deadline, and their repetition (R328).
-/

namespace Sys2Proof.Machine

/-! ## Failures -/

/-- An agent fails the check of port p at its deadline, and is told so. -/
def failAgent (d : DieId) (p : Nat) (s : State) (id : Nat) : State :=
  let s1 := checkFailed s d p id
  match (s1.die d).agent id with
  | some a => sendAgent s1.drawn d id vtNack 0 (ownEgr a) (nackBody vtPortcheck nackCheckFailed (s1.free % 2 ^ 32))
  | none => s1

/-- What the failures of the agents l at a check of port p make of the registry: none of them is verified, the others are as they were, and
the next check waits 1 s if one of them is registered. -/
structure Fails (d : DieId) (p : Nat) (l : List Nat) (s t : State) : Prop where
  verified : ∀ i, ((t.die d).agent i).map Agent.verified = ((s.die d).agent i).map (fun a => a.verified && decide (i ∉ l))
  retryAt : spGet 0 p (t.die d).vsp.retryAt =
    if l.any (fun i => ((s.die d).agent i).isSome) then s.ticks + secT else spGet 0 p (s.die d).vsp.retryAt
  ticks : t.ticks = s.ticks

namespace Fails
variable {d : DieId} {p : Nat} {l : List Nat} {s t u : State}

theorem nil (s : State) : Fails d p [] s s := ⟨fun i => by simp, by simp, rfl⟩

theorem isSome (h : Fails d p l s t) (i : Nat) : ((t.die d).agent i).isSome = ((s.die d).agent i).isSome := by
  have := congrArg Option.isSome (h.verified i)
  simpa using this

theorem cons {i : Nat} (h : Fails d p [i] s t) (k : Fails d p l t u) : Fails d p (i :: l) s u := by
  refine ⟨fun j => ?_, ?_, k.ticks.trans h.ticks⟩
  · have hk : ((u.die d).agent j).map Agent.verified = (((t.die d).agent j).map Agent.verified).map (fun v => v && decide (j ∉ l)) := by
      rw [k.verified, Option.map_map]; rfl
    rw [hk, h.verified, Option.map_map]
    congr 1
    funext a
    simp [Bool.and_assoc]
  · rw [k.retryAt, h.retryAt, h.ticks]
    simp only [h.isSome, List.any_cons, List.any_nil, Bool.or_false]
    by_cases hi : ((s.die d).agent i).isSome = true <;> simp [hi]

theorem foldl {g : State → Nat → State} (hg : ∀ t i, Fails d p [i] t (g t i)) (l : List Nat) : ∀ s, Fails d p l s (l.foldl g s) := by
  induction l with
  | nil => exact .nil
  | cons i l ih => exact fun s => (hg s i).cons (ih _)

/-- The message that tells the agent changes nothing of this. -/
theorem sends (h : Fails d p l s t) (k : SendsOnly t u) : Fails d p l s u := by
  refine ⟨fun i => ?_, by rw [k.retryAt d]; exact h.retryAt, k.ticks.trans h.ticks⟩
  have hu (o : Option Agent) : o.map Agent.verified = (o.map Agent.unsent).map Agent.verified := by rw [Option.map_map]; rfl
  rw [← h.verified i, hu, k.agents d i, ← hu]

theorem checkFailed (s : State) (d : DieId) (p i : Nat) : Fails d p [i] s (checkFailed s d p i) := by
  unfold Machine.checkFailed
  cases ha : (s.die d).agent i with
  | none =>
    refine ⟨fun j => ?_, by simp [ha], rfl⟩
    by_cases hj : j = i
    · rw [hj, ha]; rfl
    · simp [hj]
  | some a =>
    refine Fails.sends (t := s.onDie d _) ?_ (.of_records ((OnlyRecords.raise _ d 143 0 (by decide)).trans (.agentEvent ..)))
    have hid : a.id = i := Die.agent_id ha
    have hreg : ((checkHeard (s.die d) p i).agent a.id).isSome = true := by rw [hid]; exact Option.isSome_of_eq_some ha
    have hset := Die.agent_setAgent (a := { a with verified := false }) hreg
    refine ⟨fun j => ?_, ?_, s.onDie_ticks d _⟩
    · rw [State.die_onDie_same]
      refine (congrArg (Option.map Agent.verified) (hset j)).trans ?_
      by_cases hj : j = i
      · rw [if_pos (hj.trans hid.symm), hj, ha]
        simp
      · rw [if_neg fun h => hj (h.trans hid)]
        simp only [List.mem_singleton, hj, not_false_eq_true, decide_true, Bool.and_true]
        rfl
    · rw [State.die_onDie_same]
      simp [ha, spGet_eq_find]

theorem failAgent (s : State) (d : DieId) (p i : Nat) : Fails d p [i] s (failAgent d p s i) := by
  have hf := checkFailed s d p i
  unfold Machine.failAgent
  extract_lets s1
  split
  · exact hf.sends ((SendsOnly.drawn s1).trans (.sendAgent ..))
  · exact hf

end Fails

/-! ## The deadline and the repetition -/

/-- Check n is over. -/
def Die.withoutCheck (x : Die) (n : Nat) : Die := { x with vsp := { x.vsp with checks := x.vsp.checks.filter (fun e => e.id ≠ n) } }

section Deadline
variable {s : State} {d : DieId} {p : Nat} (hs : s.serving = some d)
include hs

theorem checkDeadline_unchecked (h : (s.die d).vsp.checks.find? (fun c => c.port = p) = none) : checkDeadline p s = s := by
  simp only [checkDeadline, hs, h]

section Checked
variable {c : PortCheck} (h : (s.die d).vsp.checks.find? (fun c => c.port = p) = some c)
include h

theorem checkDeadline_early (ht : (s.die d).ns < c.w1 + 10000000) : checkDeadline p s = s := by
  simp only [checkDeadline, hs, h, ht, if_true]

theorem checkDeadline_missed (ht : c.w1 + 10000000 ≤ (s.die d).ns) : checkDeadline p s =
    mirrorVsp ((c.agents.foldl (failAgent d p) s).onDie d (·.withoutCheck c.id)) d := by
  simp only [checkDeadline, hs, h, Nat.not_lt.2 ht, if_false]
  rfl

/-- The check is over, and each of its agents has failed it (R328). -/
theorem checkDeadline_effect (ht : c.w1 + 10000000 ≤ (s.die d).ns) {t : State} (hrec : OnlyRecords (checkDeadline p s) t) :
    (∀ e ∈ (t.die d).vsp.checks, e.id ≠ c.id) ∧ (∀ i ∈ c.agents, ∀ a, (t.die d).agent i = some a → a.verified = false) ∧
      ((∃ i ∈ c.agents, ((s.die d).agent i).isSome = true) → spGet 0 p (t.die d).vsp.retryAt = s.ticks + 1000000000) := by
  have hf : Fails d p c.agents s (c.agents.foldl (failAgent d p) s) := .foldl (fun t i => .failAgent t d p i) c.agents s
  have hvsp : (t.die d).vsp = (((c.agents.foldl (failAgent d p) s).die d).withoutCheck c.id).vsp := by
    rw [hrec.die_vsp, checkDeadline_missed hs h ht, (OnlyRecords.mirrorVsp _ d).die_vsp, State.die_onDie_same]
  refine ⟨fun e he => ?gone, fun i hi a ha => ?unverified, fun ⟨i, hi, ha⟩ => ?retry⟩
  case gone =>
    rw [hvsp] at he
    simpa using (List.mem_filter.1 he).2
  case unverified =>
    have hold : ((c.agents.foldl (failAgent d p) s).die d).agent i = some a := by
      rw [← ha, Die.agent, Die.agent, hvsp]; rfl
    have hv := hf.verified i
    rw [hold, Option.map_some] at hv
    obtain ⟨b, -, hb⟩ := Option.map_eq_some_iff.1 hv.symm
    simpa [hi] using hb.symm
  case retry =>
    have hany : c.agents.any (fun i => ((s.die d).agent i).isSome) = true := List.any_eq_true.2 ⟨i, hi, ha⟩
    rw [hvsp]
    exact hf.retryAt.trans (if_pos hany)

end Checked

theorem checkRetry_waits (h : ∀ e ∈ (s.die d).vsp.retryAt, e.1 = p → s.ticks < e.2) : checkRetry p s = s := by
  have hnone : ¬ (s.die d).vsp.retryAt.any (fun e => e.1 = p && decide (e.2 ≤ s.ticks)) = true := by
    rw [List.any_eq_true]
    rintro ⟨e, he, hdue⟩
    obtain ⟨hp, hu⟩ : e.1 = p ∧ e.2 ≤ s.ticks := by simpa using hdue
    exact Nat.not_lt.2 hu (h e he hp)
  simp only [checkRetry, hs, if_neg hnone]

theorem checkRetry_due {u : Nat} (h : (p, u) ∈ (s.die d).vsp.retryAt) (hu : u ≤ s.ticks) : checkRetry p s = startCheck s d p := by
  have hdue : (s.die d).vsp.retryAt.any (fun e => e.1 = p && decide (e.2 ≤ s.ticks)) = true :=
    List.any_eq_true.2 ⟨(p, u), h, by simp [hu]⟩
  simp only [checkRetry, hs, hdue, if_true]

end Deadline

/-- Settles O52: registration, bids and takes, silence, and the port check's deadline and repetition. -/
theorem agentsJoinActAndLeave : Obligations.AgentsJoinActAndLeave := by
  unfold Obligations.AgentsJoinActAndLeave
  refine ⟨fun rx s d ht hr he hu hk => ?register, fun s d id rx g a ha => ?act, fun n s d hs => ?silence, fun p s d hs => ?check⟩
  case register =>
    have row {u : State} (h : registerNew (vspTaken s rx) d rx = u) : exec (.register rx) s = done u :=
      (exec_vspRow (1, .register) (.head _) rx s ht).trans (congrArg done ((vspMessage_newKey hr he hu ht hk).trans h))
    refine ⟨fun n hn => .of_done (row (registerNew_refused hn)), fun hn ho => .of_done (row (registerNew_invalid hn ho)),
      fun id hn ho hl hi => .of_done (row rfl) fun t hrec => ?_⟩
    obtain ⟨a, ha, hentry⟩ := enters_registerNew hn ho hl ((newId_congr (die_vspTaken_vsp s rx d) _).trans hi) hrec
    rw [vspTaken, State.onDie_ticks] at hentry
    exact ⟨a, ha, hentry⟩
  case act => exact ⟨bidReceived_notPermitted ha, vspTake_notPermitted ha, fun n => bids_bidReceived ha⟩
  case silence =>
    refine ⟨fun h => .of_done (congrArg done (agentTimeout_unknown hs h)), fun a h => ⟨fun ht => .of_done (congrArg done (agentTimeout_heard hs h ht)),
      fun ht => .of_done (congrArg done (agentTimeout_silent hs h ht)) fun t hrec => ?_⟩⟩
    rw [hrec.die_vsp, agents_agentGone, (OnlyRecords.raise s d 142 0 (by decide)).die_vsp]
  case check =>
    exact ⟨fun h => .of_done (congrArg done (checkDeadline_unchecked hs h)), fun c h => ⟨fun ht => .of_done (congrArg done (checkDeadline_early hs h ht)),
      fun ht => .of_done rfl fun t hrec => checkDeadline_effect hs h ht hrec⟩, fun h => .of_done (congrArg done (checkRetry_waits hs h)),
      fun u h hu => .of_done (congrArg done (checkRetry_due hs h hu))⟩

end Sys2Proof.Machine
end

section
/-!
PROOFS. Parser pipelines and staging registers: what an update of a pipeline reads back as, and the words of a 320-bit value (R337, R353).
-/

namespace Sys2Proof.Machine

@[simp] theorem Die.pipe_onPipe_same (x : Die) (p : Nat) (f : Pipe → Pipe) : (x.onPipe p f).pipe p = f (x.pipe p) := by
  unfold Die.pipe Die.onPipe
  split <;> rfl

@[simp] theorem Die.onPipe_ruleWait (x : Die) (p : Nat) (f : Pipe → Pipe) : (x.onPipe p f).net.ruleWait = x.net.ruleWait := by
  unfold Die.onPipe
  split <;> rfl

@[simp] theorem Die.ept_setEpt_same (x : Die) (p : Nat) (t : Sparse EptEntry) : ((x.setEpt p t).pipe p).ept = t := by
  rw [Die.setEpt, Die.pipe_onPipe_same]

theorem Die.pipe_congr {x y : Die} (h : y.net = x.net) (p : Nat) : y.pipe p = x.pipe p := by
  unfold Die.pipe
  rw [h]

/-- Writing a field of a word leaves a field of the same word that shares no bit with it. -/
theorem Die.rf_setRf_apart (x : Die) (k : Nat) {f g : Fld} (h : f.lo ≤ f.hi) (hd : g.hi < f.lo ∨ f.hi < g.lo) (hg : g.lo ≤ g.hi) (h32 : g.hi < 32)
    (v : Nat) : (x.setRf k f v).rf k g = x.rf k g := by
  rw [Die.rf, Die.setRf, Die.reg_setReg_same, fget_mod g 32 _ hg h32, fget_fput_other f g h hd hg, Die.rf]

/-! ## Staging registers -/

/-- A number is the sum of its 32-bit words. -/
theorem foldl_words (v n : Nat) :
    (List.range n).foldl (fun a k => a + v / 2 ^ (32 * k) % 2 ^ 32 * 2 ^ (32 * k)) 0 = v % 2 ^ (32 * n) := by
  induction n with
  | zero => simp [Nat.mod_one]
  | succ n ih =>
    rw [List.range_succ, List.foldl_append, ih, show 32 * (n + 1) = 32 * n + 32 from rfl, Nat.pow_add, Nat.mod_mul, Nat.mul_comm (2 ^ (32 * n))]
    rfl

section Staged
variable {reg : Nat → Nat}

theorem Die.staged_congr {x y : Die} (h : ∀ k < 10, y.reg (reg k) = x.reg (reg k)) : y.staged reg = x.staged reg := by
  unfold Die.staged
  rw [List.foldl_ext _ _ _ fun a k hk => by rw [h k (List.mem_range.1 hk)]]

/-- A staging register holds the value whose words its registers hold. -/
theorem Die.staged_of_words {x : Die} {v : BitVec 320} (h : ∀ k < 10, x.reg (reg k) = v.toNat / 2 ^ (32 * k) % 2 ^ 32) : x.staged reg = v := by
  unfold Die.staged
  rw [List.foldl_ext _ (fun a k => a + v.toNat / 2 ^ (32 * k) % 2 ^ 32 * 2 ^ (32 * k)) _ fun a k hk => by rw [h k (List.mem_range.1 hk)],
    foldl_words, Nat.mod_eq_of_lt v.isLt, BitVec.ofNat_toNat, BitVec.setWidth_eq]

theorem Die.reg_foldl_setReg_other (w : Nat → Nat) {j : Nat} (l : List Nat) (h : ∀ k ∈ l, j ≠ reg k) (x : Die) :
    (l.foldl (fun x k => x.setReg (reg k) (w k)) x).reg j = x.reg j := by
  induction l generalizing x with
  | nil => rfl
  | cons k l ih =>
    rw [List.foldl_cons, ih fun i hi => h i (List.mem_cons_of_mem k hi), Die.reg_setReg_other _ (h k List.mem_cons_self)]

theorem Die.reg_foldl_setReg_mem (hreg : reg.Injective) (w : Nat → Nat) {j : Nat} {l : List Nat} (hl : l.Nodup) (hj : j ∈ l) (x : Die) :
    (l.foldl (fun x k => x.setReg (reg k) (w k)) x).reg (reg j) = w j % 2 ^ 32 := by
  induction l generalizing x with
  | nil => cases hj
  | cons k l ih =>
    obtain ⟨hk, hl⟩ := List.nodup_cons.1 hl
    rw [List.foldl_cons]
    rcases List.mem_cons.1 hj with rfl | hj
    · rw [Die.reg_foldl_setReg_other w l fun i hi he => hk (by rwa [hreg he]), Die.reg_setReg_same]
    · exact ih hl hj _

theorem Die.staged_setStaged_same (hreg : reg.Injective) (x : Die) (v : BitVec 320) : (x.setStaged reg v).staged reg = v :=
  Die.staged_of_words fun k hk => by
    rw [Die.setStaged, Die.reg_foldl_setReg_mem hreg _ List.nodup_range (List.mem_range.2 hk), Nat.mod_mod]

theorem Die.reg_setStaged_other {j : Nat} (h : ∀ k < 10, j ≠ reg k) (x : Die) (v : BitVec 320) : (x.setStaged reg v).reg j = x.reg j :=
  Die.reg_foldl_setReg_other _ _ (fun k hk => h k (List.mem_range.1 hk)) x

theorem Die.setStaged_net (x : Die) (v : BitVec 320) : (x.setStaged reg v).net = x.net := by
  unfold Die.setStaged
  induction List.range 10 generalizing x with
  | nil => rfl
  | cons k l ih => rw [List.foldl_cons, ih, Die.setReg_net]

end Staged

theorem ruleKey_injective : (Reg.PRS_RULE_KEY ·).Injective := fun i j (h : 0x20140 + 0x4 * i = 0x20140 + 0x4 * j) => by omega
theorem ruleMask_injective : (Reg.PRS_RULE_MASK ·).Injective := fun i j (h : 0x20180 + 0x4 * i = 0x20180 + 0x4 * j) => by omega

end Sys2Proof.Machine
end

section
/-!
PROOFS. Received frames, the recirculation pass and rule entries (R338, R348, R353, R369, R370): one lemma an outcome.
-/

namespace Sys2Proof.Machine

/-! ## Reception -/

/-- What a received frame leaves before the parser: its corrected words and fragments are counted, and the frame itself under count c. -/
def frameCounted (s : State) (d : DieId) (p : Nat) (f : RxFrame) (c : Nat) : State :=
  (s.onDie d (fun x => (x.count (Reg.ETH_CNT p 5) F.ETH_CNT_COUNT f.corrected).count (Reg.ETH_CNT p 8) F.ETH_CNT_COUNT f.fragments)).count d
    (Reg.ETH_CNT p c) F.ETH_CNT_COUNT

/-- An error on the line: the port is no longer clean (R370). -/
def portUnclean (d : DieId) (p : Nat) (s : State) : State :=
  s.onDie d (fun x => (x.setRf (Reg.ETH_PORT p) F.ETH_PORT_CLEAN 0).onCport p (fun c => { c with lastErr := some s.ticks }))

section Receive
variable {s : State} {d : DieId} {p : Nat} {f : RxFrame}

theorem frameReceive_lost (h : (s.die d).running = false ∨ (s.die d).portExists p = false) : frameReceive d p f s = s := by
  rcases h with h | h <;> simp [frameReceive, h]

/-- A port that exists checks a frame in this order. -/
theorem frameReceive_checks (hr : (s.die d).running = true) (hp : (s.die d).portExists p = true) : frameReceive d p f s =
    if f.uncorrectable then portUnclean d p (frameCounted s d p f 6)
    else if f.reassemblyErr then frameCounted s d p f 9
    else if f.badFcs then portUnclean d p (frameCounted s d p f 2)
    else if (s.die d).maxFrame < frameLen f.bytes then frameCounted s d p f 3
    else if frameLen f.bytes < 64 then frameCounted s d p f 4
    else passOne (frameCounted s d p f 0) d p f := by
  simp only [frameReceive, hr, hp, Bool.not_true, Bool.or_self, Bool.false_eq_true, if_false]
  rfl

end Receive

/-! ## Pass 2 -/

theorem ruleWaits_nil {s : State} {d : DieId} (h : (s.die d).net.ruleWait = []) : ruleWaits s d = s := by
  have hkeep : (s.die d).net.ruleWait.filter (fun w => !w.ended (s.die d)) = (s.die d).net.ruleWait := by rw [h]; rfl
  simp only [ruleWaits, h, List.filter_nil, List.foldl_nil]
  refine (State.onDie_congr (g := id) ?_).trans (by cases d <;> rfl)
  exact congrArg (fun l => { s.die d with net := { (s.die d).net with ruleWait := l } }) hkeep

/-- A frame that is not on the Trump path joins the VSP engine's queue. -/
theorem deliver_vsp {s : State} {d : DieId} {p : Nat} {i : Inflight} (hs : i.res.steer = steerVsp) (hc : i.res.cls ≠ 7) :
    deliver s d p i = s.onDie d (fun x => { x with net := { x.net with vspQueue := x.net.vspQueue ++ [vspOf d i] } }) := by
  simp [deliver, hs, hc]

section Recirculate
variable {s : State} {d : DieId} {p : Nat}

theorem recirculate_nil (h : ((s.die d).pipe p).fifo = []) : recirculate d p s = s := by simp only [recirculate, h]

theorem recirculate_unmatched {i : Inflight} {rest : List Inflight} (h : ((s.die d).pipe p).fifo = i :: rest)
    (hl : ((s.die d).pipe p).lookup i.bank (passTwoKey (s.die d) p i) = none) : recirculate d p s =
      deliver ((s.onDie d (·.onPipe p (fun u => { u with fifo := rest }))).count d (Reg.PRS_CNT p 1) F.PRS_CNT_COUNT) d p i := by
  simp only [recirculate, h, hl]

end Recirculate

/-! ## Rule entries -/

section Rules
variable {x : Die} {p b n : Nat} (hsel : x.ruleSel = (p, b, n))
include hsel

theorem ruleWrite_notDrained (hw : (x.pipe p).bankWritable b = false) : ruleWrite x = x.ruleStatus ruleNotDrained := by
  simp [ruleWrite, hsel, hw]

theorem ruleWrite_invalid (hw : (x.pipe p).bankWritable b = true) (ha : actReserved (BitVec.ofNat 64 (x.reg64 Reg.PRS_RULE_ACT)) = true) :
    ruleWrite x = x.ruleStatus ruleInvalid := by
  simp [ruleWrite, hsel, hw, ha]

theorem ruleWrite_ok (hw : (x.pipe p).bankWritable b = true) (ha : actReserved (BitVec.ofNat 64 (x.reg64 Reg.PRS_RULE_ACT)) = false) :
    ruleWrite x = (x.onPipe p (fun u => u.setRule b n ⟨x.staged (Reg.PRS_RULE_KEY ·), x.staged (Reg.PRS_RULE_MASK ·),
      BitVec.ofNat 64 (x.reg64 Reg.PRS_RULE_ACT), true, 0⟩)).ruleStatus ruleOk := by
  simp [ruleWrite, hsel, hw, ha]

theorem ruleInvalidate_notDrained (hw : (x.pipe p).bankWritable b = false) : ruleInvalidate x = x.ruleStatus ruleNotDrained := by
  simp [ruleInvalidate, hsel, hw]

theorem ruleInvalidate_ok (hw : (x.pipe p).bankWritable b = true) :
    ruleInvalidate x = (x.onPipe p (fun u => u.setRule b n { u.rule b n with valid := false })).ruleStatus ruleOk := by
  simp [ruleInvalidate, hsel, hw]

end Rules

/-- The registers show an entry: key, mask and action staged, its validity, and that the read ended well (R353). -/
structure Die.ShowsRule (x : Die) (r : Rule) : Prop where
  key : x.staged (Reg.PRS_RULE_KEY ·) = r.key
  mask : x.staged (Reg.PRS_RULE_MASK ·) = r.mask
  action : x.reg64 Reg.PRS_RULE_ACT = r.action.toNat
  valid : x.rf Reg.PRS_RULE_CMD F.PRS_RULE_CMD_VALID = if r.valid then 1 else 0
  status : x.rf Reg.PRS_RULE_CMD F.PRS_RULE_CMD_STATUS = ruleOk

/-- The registers of the rule port show the same entry after recording. -/
theorem Die.ShowsRule.of_regs {x y : Die} {r : Rule} (h : x.ShowsRule r) (hr : ∀ k, recordKey k = false → y.reg k = x.reg k) : y.ShowsRule r where
  key := (Die.staged_congr fun k hk => hr _ (by interval_cases k <;> decide)).trans h.key
  mask := (Die.staged_congr fun k hk => hr _ (by interval_cases k <;> decide)).trans h.mask
  action := by rw [Die.reg64, hr _ (by decide), hr _ (by decide), ← Die.reg64, h.action]
  valid := by rw [Die.rf, hr _ (by decide), ← Die.rf, h.valid]
  status := by rw [Die.rf, hr _ (by decide), ← Die.rf, h.status]

/-- The rule port shows an entry. -/
def Die.putRule (x : Die) (r : Rule) : Die :=
  ((((x.setStaged (Reg.PRS_RULE_KEY ·) r.key).setStaged (Reg.PRS_RULE_MASK ·) r.mask).setReg64 Reg.PRS_RULE_ACT r.action.toNat).setRf
    Reg.PRS_RULE_CMD F.PRS_RULE_CMD_VALID (b2n r.valid)).ruleStatus ruleOk

/-- An entry was read (PRS_RULE_HITS). -/
def Die.ruleRemembered (x : Die) (p slot : Nat) : Die := { x with net := { x.net with ruleSeen := some (p, slot) } }

@[simp] theorem Die.ruleRemembered_reg (x : Die) (p slot k : Nat) : (x.ruleRemembered p slot).reg k = x.reg k := rfl
@[simp] theorem Die.ruleRemembered_pipe (x : Die) (p slot q : Nat) : (x.ruleRemembered p slot).pipe q = x.pipe q := rfl

theorem ruleRead_eq {x : Die} {p b n : Nat} (hsel : x.ruleSel = (p, b, n)) :
    ruleRead x = (x.putRule ((x.pipe p).rule b n)).ruleRemembered p (ruleSlot b n) := by
  simp only [ruleRead, hsel]
  rfl

/-- The staging registers of key and mask lie above the other registers that show an entry. -/
theorem Die.reg_putRule_above (x : Die) (r : Rule) {k : Nat} (h : 0x20140 ≤ k) :
    (x.putRule r).reg k = ((x.setStaged (Reg.PRS_RULE_KEY ·) r.key).setStaged (Reg.PRS_RULE_MASK ·) r.mask).reg k := by
  have hc : k ≠ Reg.PRS_RULE_CMD := by unfold Reg.PRS_RULE_CMD; omega
  have ha : k ≠ Reg.PRS_RULE_ACT := by unfold Reg.PRS_RULE_ACT; omega
  have ha4 : k ≠ Reg.PRS_RULE_ACT + 4 := by unfold Reg.PRS_RULE_ACT; omega
  rw [Die.putRule, Die.ruleStatus, Die.reg_setRf_other _ hc, Die.reg_setRf_other _ hc, Die.setReg64, Die.reg_setReg_other _ ha4,
    Die.reg_setReg_other _ ha]

theorem Die.showsRule_putRule (x : Die) (r : Rule) : (x.putRule r).ShowsRule r where
  key := by
    rw [Die.staged_congr fun k _ => x.reg_putRule_above r (by unfold Reg.PRS_RULE_KEY; omega),
      Die.staged_congr fun k hk => Die.reg_setStaged_other (fun i hi => by unfold Reg.PRS_RULE_KEY Reg.PRS_RULE_MASK; omega) _ r.mask,
      Die.staged_setStaged_same ruleKey_injective]
  mask := by
    rw [Die.staged_congr fun k _ => x.reg_putRule_above r (by unfold Reg.PRS_RULE_MASK; omega),
      Die.staged_setStaged_same ruleMask_injective]
  action := by
    rw [Die.reg64, Die.putRule, Die.ruleStatus, Die.reg_setRf_other _ (by decide), Die.reg_setRf_other _ (by decide),
      Die.reg_setRf_other _ (by decide), Die.reg_setRf_other _ (by decide), ← Die.reg64, Die.reg64_setReg64_same _ _ r.action.isLt]
  valid := by
    rw [Die.putRule, Die.ruleStatus, Die.rf_setRf_apart _ _ (by decide) (by decide) (by decide) (by decide),
      Die.rf_setRf_same _ _ (by decide) (by decide)]
    cases r.valid <;> rfl
  status := by rw [Die.putRule, Die.ruleStatus, Die.rf_setRf_same _ _ (by decide) (by decide)]; rfl

theorem Die.putRule_net (x : Die) (r : Rule) : (x.putRule r).net = x.net := by
  rw [Die.putRule, Die.ruleStatus, Die.setRf_net, Die.setRf_net, Die.setReg64, Die.setReg_net, Die.setReg_net, Die.setStaged_net,
    Die.setStaged_net]

theorem ruleRead_shows {x : Die} {p b n : Nat} (hsel : x.ruleSel = (p, b, n)) : (ruleRead x).ShowsRule ((x.pipe p).rule b n) := by
  rw [ruleRead_eq hsel]
  exact (x.showsRule_putRule _).of_regs fun k _ => Die.ruleRemembered_reg _ p _ k

theorem ruleRead_pipe {x : Die} {p b n : Nat} (hsel : x.ruleSel = (p, b, n)) (q : Nat) : (ruleRead x).pipe q = x.pipe q := by
  rw [ruleRead_eq hsel, Die.ruleRemembered_pipe, Die.pipe_congr (x.putRule_net _)]

theorem exec_prsRuleWrite (d : DieId) (s : State) : exec (.prsRuleWrite d) s = doneBar d (·.onDie d ruleWrite) s := rfl
theorem exec_prsRuleRead (d : DieId) (s : State) : exec (.prsRuleRead d) s = doneBar d (·.onDie d ruleRead) s := rfl
theorem exec_prsRuleInvalidate (d : DieId) (s : State) : exec (.prsRuleInvalidate d) s = doneBar d (·.onDie d ruleInvalidate) s := rfl

/-- A register access that changes its die as g does. -/
theorem Makes.of_doneBar_onDie {c : Instr} {d : DieId} {s : State} {f g : Die → Die} (hb : (s.die d).barOpen = true)
    (hc : exec c s = doneBar d (·.onDie d f) s) (h : f (s.die d) = g (s.die d)) : Makes c s (s.onDie d g) :=
  State.onDie_congr h ▸ .of_doneBar hb hc

/-- PRS_RULE_READ shows the entry it names and leaves the pipelines. -/
theorem answers_prsRuleRead {s : State} {d : DieId} (hb : (s.die d).barOpen = true) {p b n : Nat} (hsel : (s.die d).ruleSel = (p, b, n)) :
    Answers (.prsRuleRead d) s (fun t => (t.die d).ShowsRule (((s.die d).pipe p).rule b n) ∧ (t.die d).pipe p = (s.die d).pipe p) := by
  refine .of_doneBar hb (exec_prsRuleRead d s) fun t hrec => ?_
  replace hrec : OnlyRecords (s.onDie d ruleRead) t := hrec
  constructor
  · refine (ruleRead_shows hsel).of_regs fun k hk => ?_
    rw [hrec.regs d k hk, State.die_onDie_same]
  · rw [Die.pipe_congr (hrec.die_net d), State.die_onDie_same, ruleRead_pipe hsel]

theorem makes_frameReceive {s : State} {d : DieId} {p : Fin 8} {f : RxFrame} {u : State} (h : frameReceive d p f s = u) :
    Makes (.frameReceive d p f) s u := .of_done (congrArg done h)

theorem makes_recirculationPass {s : State} {d : DieId} {q : Fin 2} {u : State} (h : recirculate d q s = u)
    (hw : (u.die d).net.ruleWait = []) : Makes (.recirculationPass d q) s u :=
  .of_done (congrArg done (h ▸ ruleWaits_nil (h ▸ hw)))

/-- Settles O47: the checks of a frame in their order, pass 2, and the rule port by its three operations. -/
theorem framesAndRules : Obligations.FramesAndRules := by
  unfold Obligations.FramesAndRules
  refine ⟨fun d s => ⟨fun p f => ⟨fun h => ?lost, fun hr hp => ?checked⟩, fun q hq => ⟨fun h => ?idle, fun i rest h hl hs hc => ?pass⟩⟩,
    fun d s => ⟨fun hb => ⟨.of_doneBar_shut hb (exec_prsRuleWrite d s), .of_doneBar_shut hb (exec_prsRuleRead d s),
      .of_doneBar_shut hb (exec_prsRuleInvalidate d s)⟩, fun p b n hb hsel =>
      ⟨fun hw => ⟨?writeRefused, ?invalidateRefused⟩, fun hw => ⟨fun ha => ?invalid, fun ha => ?written, ?invalidated⟩, ?read⟩⟩⟩
  case lost => exact makes_frameReceive (frameReceive_lost h)
  case checked =>
    have hchecks := frameReceive_checks (f := f) hr hp
    refine ⟨fun hu => makes_frameReceive (hchecks.trans (if_pos hu)), fun hu he => ?_, fun hu he hb => ?_, fun hu he hb => ?_⟩ <;>
      rw [if_neg (ne_true_of_eq_false hu)] at hchecks
    · exact makes_frameReceive (hchecks.trans (if_pos he))
    · exact makes_frameReceive (hchecks.trans ((if_neg (ne_true_of_eq_false he)).trans (if_pos hb)))
    · rw [if_neg (ne_true_of_eq_false he), if_neg (ne_true_of_eq_false hb)] at hchecks
      exact ⟨fun hl => makes_frameReceive (hchecks.trans (if_pos hl)),
        fun hl hm => makes_frameReceive (hchecks.trans ((if_neg (Nat.not_lt.2 hm)).trans (if_pos hl))),
        fun hl hm => makes_frameReceive (hchecks.trans ((if_neg (Nat.not_lt.2 hm)).trans (if_neg (Nat.not_lt.2 hl))))⟩
  case idle => exact makes_recirculationPass (recirculate_nil h) hq
  case pass =>
    refine makes_recirculationPass ((recirculate_unmatched h hl).trans (deliver_vsp hs hc)) ?_
    rw [State.die_onDie_same]
    change (((s.onDie d _).count d _ _).die d).net.ruleWait = []
    rw [State.count, State.die_onDie_same, State.die_onDie_same, Die.count_net, Die.onPipe_ruleWait, hq]
  case writeRefused => exact .of_doneBar_onDie hb (exec_prsRuleWrite d s) (ruleWrite_notDrained hsel hw)
  case invalidateRefused => exact .of_doneBar_onDie hb (exec_prsRuleInvalidate d s) (ruleInvalidate_notDrained hsel hw)
  case invalid => exact .of_doneBar_onDie hb (exec_prsRuleWrite d s) (ruleWrite_invalid hsel hw ha)
  case written => exact .of_doneBar_onDie hb (exec_prsRuleWrite d s) (ruleWrite_ok hsel hw ha)
  case invalidated => exact .of_doneBar_onDie hb (exec_prsRuleInvalidate d s) (ruleInvalidate_ok hsel hw)
  case read =>
    obtain ⟨t, ht, ⟨hkey, hmask, haction, hvalid, hstatus⟩, hpipe⟩ := answers_prsRuleRead hb hsel
    exact ⟨t, ht, hkey, hmask, haction, hvalid, hstatus, hpipe⟩

end Sys2Proof.Machine
end

section
/-!
PROOFS. The endpoint tables (R358, R359, R362, R363): the command port, learning, the sweep and flap locks.
-/

namespace Sys2Proof.Machine

/-! ## Commands start (R363) -/

theorem exec_eptRow : ∀ o ∈ eptRows, ∀ (d : DieId) (p : Fin 2) (s : State), exec (o.2 d p) s = doneBar d (eptStart d o.1 p.val) s := by
  intro o ho d p s
  simp only [eptRows, List.mem_cons, List.not_mem_nil, or_false] at ho
  rcases ho with rfl | rfl | rfl | rfl | rfl <;> rfl

theorem eptStart_busy {s : State} {d : DieId} (h : (s.die d).net.eptBusy.isSome = true) (op p : Nat) : eptStart d op p s = s := by
  simp [eptStart, h]

theorem eptStart_free {s : State} {d : DieId} (hr : (s.die d).running = true) (h : (s.die d).net.eptBusy = none) (op p : Nat) :
    eptStart d op p s = s.onDie d (fun x =>
      let y := (x.setRf Reg.EPT_CMD F.EPT_CMD_PIPE p).setRf Reg.EPT_CMD F.EPT_CMD_BUSY 1
      { y with net := { y.net with eptBusy := some op } }) := if_neg (by simp [hr, h])

/-! ## What an operation makes of the table (R363) -/

section Operations
variable {s : State} {d : DieId} {p : Nat} {f : EptFields}

theorem eptOp_read {slot : Nat} {e : EptEntry} (h : eptFind ((s.die d).pipe p).ept (BitVec.ofNat 64 f.key) = some (slot, e)) :
    eptOp s d p 1 f = (s, foundFields f slot e, eptOk) := by
  simp [eptOp, h]

theorem eptOp_notFound {op : Nat} (ho : op = 1 ∨ op = 3) (h : eptFind ((s.die d).pipe p).ept (BitVec.ofNat 64 f.key) = none) :
    eptOp s d p op f = (s, f, eptNotFound) := by
  rcases ho with rfl | rfl <;> simp [eptOp, h]

theorem eptOp_writeBad (h : eptWriteBad f = true) : eptOp s d p 2 f = (s, f, eptInvalid) := by
  simp [eptOp, h]

theorem eptOp_write (hb : eptWriteBad f = false) {slot : Nat} {e : EptEntry}
    (h : eptFind ((s.die d).pipe p).ept (BitVec.ofNat 64 f.key) = some (slot, e)) : eptOp s d p 2 f =
      (s.onDie d (·.setEpt p (spPut slot ⟨BitVec.ofNat 64 f.key, BitVec.ofNat 32 f.d0, BitVec.ofNat 32 f.d1, BitVec.ofNat 8 f.d2, 0, 0, 0⟩
        ((s.die d).pipe p).ept)), f, eptOk) := by
  simp [eptOp, hb, h]

theorem eptOp_delete {slot : Nat} {e : EptEntry} (h : eptFind ((s.die d).pipe p).ept (BitVec.ofNat 64 f.key) = some (slot, e)) :
    eptOp s d p 3 f = (s.onDie d (·.setEpt p (spDel slot ((s.die d).pipe p).ept)), f, eptOk) := by
  simp [eptOp, h]

end Operations

/-! ## Commands end (R363) -/

/-- The command port shows what a command ended with, and its engine is free. -/
def Die.eptEnded (x : Die) (f : EptFields) (status : Nat) : Die :=
  let y1 := { x with net := { x.net with eptBusy := none } }
  let y2 := ((y1.setRf Reg.EPT_CMD F.EPT_CMD_BUSY 0).setRf Reg.EPT_CMD F.EPT_CMD_STATUS status).setReg64 Reg.EPT_KEY f.key
  (((y2.setReg Reg.EPT_DATA0 f.d0).setReg Reg.EPT_DATA1 f.d1).setReg Reg.EPT_DATA2 f.d2).setReg Reg.EPT_DATA3 f.d3

theorem eptDone_idle {s : State} {d : DieId} (h : (s.die d).net.eptBusy = none) : eptDone d s = s := by simp only [eptDone, h]

theorem eptDone_busy {s u : State} {d : DieId} {op status : Nat} {f : EptFields} (h : (s.die d).net.eptBusy = some op)
    (ho : eptOp s d ((s.die d).rf Reg.EPT_CMD F.EPT_CMD_PIPE) op (s.die d).eptFields = (u, f, status)) :
    eptDone d s = u.onDie d (·.eptEnded f status) := by
  simp only [eptDone, h, ho]
  rfl

theorem Die.eptEnded_net (x : Die) (f : EptFields) (status : Nat) : (x.eptEnded f status).net = { x.net with eptBusy := none } := by
  simp only [Die.eptEnded, Die.setReg64, Die.setReg_net, Die.setRf_net]

theorem Die.eptEnded_command (x : Die) (f : EptFields) (status : Nat) : (x.eptEnded f status).reg Reg.EPT_CMD =
    ((({ x with net := { x.net with eptBusy := none } } : Die).setRf Reg.EPT_CMD F.EPT_CMD_BUSY 0).setRf Reg.EPT_CMD
      F.EPT_CMD_STATUS status).reg Reg.EPT_CMD := by
  simp only [Die.eptEnded, Die.setReg64]
  iterate 6 rw [Die.reg_setReg_other _ (by decide)]

theorem Die.eptEnded_data0 (x : Die) (f : EptFields) (status : Nat) : (x.eptEnded f status).reg Reg.EPT_DATA0 = f.d0 % 2 ^ 32 := by
  simp only [Die.eptEnded]
  iterate 3 rw [Die.reg_setReg_other _ (by decide)]
  exact Die.reg_setReg_same ..

theorem Die.eptEnded_data1 (x : Die) (f : EptFields) (status : Nat) : (x.eptEnded f status).reg Reg.EPT_DATA1 = f.d1 % 2 ^ 32 := by
  simp only [Die.eptEnded]
  iterate 2 rw [Die.reg_setReg_other _ (by decide)]
  exact Die.reg_setReg_same ..

/-- Die y, which was x before its command ended, shows the end: a free engine, STATUS, the data words; and its tables are those of x. -/
structure Die.EptShows (x : Die) (f : EptFields) (status : Nat) (y : Die) : Prop where
  free : y.net.eptBusy = none
  busy : y.rf Reg.EPT_CMD F.EPT_CMD_BUSY = 0
  status : y.rf Reg.EPT_CMD F.EPT_CMD_STATUS = status % 8
  data0 : y.reg Reg.EPT_DATA0 = f.d0 % 2 ^ 32
  data1 : y.reg Reg.EPT_DATA1 = f.d1 % 2 ^ 32
  tables : ∀ p, (y.pipe p).ept = (x.pipe p).ept

theorem Die.eptShows_eptEnded (x : Die) (f : EptFields) (status : Nat) : x.EptShows f status (x.eptEnded f status) where
  free := by rw [x.eptEnded_net]
  busy := by
    rw [Die.rf, x.eptEnded_command, ← Die.rf, Die.rf_setRf_apart _ _ (by decide) (by decide) (by decide) (by decide),
      Die.rf_setRf_same _ _ (by decide) (by decide), Nat.zero_mod]
  status := by rw [Die.rf, x.eptEnded_command, ← Die.rf, Die.rf_setRf_same _ _ (by decide) (by decide)]; rfl
  data0 := x.eptEnded_data0 f status
  data1 := x.eptEnded_data1 f status
  tables p := by unfold Die.pipe; rw [x.eptEnded_net]

theorem Die.EptShows.of_records {x : Die} {f : EptFields} {status : Nat} {s t : State} {d : DieId} (h : x.EptShows f status (s.die d))
    (hrec : OnlyRecords s t) : x.EptShows f status (t.die d) where
  free := by rw [hrec.die_net, h.free]
  busy := by rw [Die.rf, hrec.regs d _ (by decide), ← Die.rf, h.busy]
  status := by rw [Die.rf, hrec.regs d _ (by decide), ← Die.rf, h.status]
  data0 := by rw [hrec.regs d _ (by decide), h.data0]
  data1 := by rw [hrec.regs d _ (by decide), h.data1]
  tables p := by rw [Die.pipe_congr (hrec.die_net d), h.tables]

/-- A command ends with what its operation answers. -/
theorem answers_eptCommandDone {s u : State} {d : DieId} {op status : Nat} {f : EptFields} (h : (s.die d).net.eptBusy = some op)
    (ho : eptOp s d ((s.die d).rf Reg.EPT_CMD F.EPT_CMD_PIPE) op (s.die d).eptFields = (u, f, status)) {P : State → Prop}
    (hP : ∀ t, (u.die d).EptShows f status (t.die d) → P t) : Answers (.eptCommandDone d) s P :=
  .of_done (congrArg done (eptDone_busy h ho)) fun t hrec => hP t <| .of_records (by
    rw [State.die_onDie_same]
    exact (u.die d).eptShows_eptEnded f status) hrec

/-! ## Learning (R358) -/

section Learning
variable {s : State} {d : DieId} {p : Nat}

theorem learnProcess_waits (h : ∀ r, firstLearn ((s.die d).pipe p).learns = some r → (s.die d).running = false ∨ (s.die d).ns < r.stamp + 1000) :
    learnProcess d p s = s := by
  unfold learnProcess
  extract_lets x
  split
  case h_1 r hr => exact if_neg (by rcases h r hr with h | h <;> simp [x, h])
  case h_2 => rfl

/-- A request has left its pipeline's queue. -/
def learnTaken (s : State) (d : DieId) (p : Nat) (r : Learn) : State :=
  s.onDie d (·.onPipe p (fun u => { u with learns := u.learns.erase r }))

theorem learnProcess_due {r : Learn} (hr : (s.die d).running = true) (h : firstLearn ((s.die d).pipe p).learns = some r)
    (ht : r.stamp + 1000 ≤ (s.die d).ns) : learnProcess d p s = learnOne (learnTaken s d p r) d p r := by
  simp only [learnProcess, h, hr, ht, decide_true, Bool.and_self, if_true]
  rfl

theorem ept_learnTaken (s : State) (d : DieId) (p : Nat) (r : Learn) : (((learnTaken s d p r).die d).pipe p).ept = ((s.die d).pipe p).ept := by
  rw [learnTaken, State.die_onDie_same, Die.pipe_onPipe_same]

variable {r : Learn}

/-- An absent key is inserted. -/
theorem learnOne_inserts {t : Sparse EptEntry} (h : eptFind ((s.die d).pipe p).ept r.key = none)
    (hi : eptInsert ((s.die d).pipe p).ept (eptNew r.key r.cport (msOf r.stamp)) = some t) :
    learnOne s d p r = (s.onDie d (·.setEpt p t)).count d (Reg.EPT_CNT p 0) F.EPT_CNT_COUNT := by
  simp only [learnOne, h, hi]

section Found
variable {slot : Nat} {e : EptEntry} (h : eptFind ((s.die d).pipe p).ept r.key = some (slot, e))
include h

/-- An entry at its port is refreshed. -/
theorem learnOne_refreshes (hp : e.cport = r.cport) : learnOne s d p r =
    s.onDie d (·.setEpt p (spPut slot { e with lastSeen := BitVec.ofNat 32 (msOf r.stamp) } ((s.die d).pipe p).ept)) := by
  simp only [learnOne, h, hp, if_true]

/-- A STATIC or locked entry stays at its port. -/
theorem learnOne_stays (hp : e.cport ≠ r.cport) (hl : e.isStatic = true ∨ e.locked = true) : learnOne s d p r =
    (s.onDie d (·.setEpt p (spPut slot { e with lastSeen := BitVec.ofNat 32 (msOf r.stamp) } ((s.die d).pipe p).ept))).count d
      (Reg.EPT_CNT p 4) F.EPT_CNT_COUNT := by
  simp only [learnOne, h, hp, if_false, Bool.or_eq_true, hl, if_true]

end Found
end Learning

/-! ## The sweep and flap locks (R359, R362) -/

theorem agingSweep_stopped {s : State} {d : DieId} (h : (s.die d).running = false) (p : Nat) : agingSweep d p s = s := by
  simp [agingSweep, h]

theorem agingSweep_runs {s : State} {d : DieId} (h : (s.die d).running = true) (p : Nat) : agingSweep d p s =
    let r := eptFlush (s.die d) p ((s.die d).reg Reg.EPT_AGE_LIMIT)
    s.onDie d (fun y => (y.setEpt p r.1).count (Reg.EPT_CNT p 6) F.EPT_CNT_COUNT r.2) := if_neg (by simp [h])

section Flap
variable {s : State} {d : DieId} {p slot : Nat}

theorem flapExpiry_absent (h : spFind slot ((s.die d).pipe p).ept = none) : flapExpiry d p slot s = s := by simp only [flapExpiry, h]

variable {e : EptEntry} (h : spFind slot ((s.die d).pipe p).ept = some e)
include h

theorem flapExpiry_waits (hl : e.lockEnd = 0 ∨ s.ticks < e.lockEnd) : flapExpiry d p slot s = s := by
  simp only [flapExpiry, h]
  refine if_neg ?_
  simp only [Bool.and_eq_true, decide_eq_true_eq]
  omega

theorem flapExpiry_ends (h0 : e.lockEnd ≠ 0) (ht : e.lockEnd ≤ s.ticks) : flapExpiry d p slot s =
    s.onDie d (·.setEpt p (spPut slot { e.setFlag 2 false with lockEnd := 0 } ((s.die d).pipe p).ept)) := by
  simp only [flapExpiry, h]
  exact if_pos (by simp [h0, ht])

end Flap

/-- Settles O48: each command by what its operation makes of the table, then learning, the sweep and the locks by their cases. -/
theorem endpointTable : Obligations.EndpointTable := by
  unfold Obligations.EndpointTable
  refine ⟨⟨fun o ho d p s => ⟨fun h => ?refused, fun hb h => ?started⟩, fun d s => ⟨fun h => ?idle, fun slot e ho h => ?read, fun ho h => ?notFound,
      fun ho hb => ?invalid, fun slot e ho hb h _ => ?write, fun slot e ho h _ => ?delete⟩⟩,
    fun d q s => ⟨fun hr => ⟨?learnStopped, ?sweepStopped⟩, fun h => ?learnEmpty, fun r hr h ht => ?learn, fun r h ht => ?learnEarly,
      fun hr => ?sweep, fun slot h => ?lockAbsent, fun slot e h => ⟨fun hl => ?lockWaits, fun h0 ht => ?lockEnds⟩⟩⟩
  case refused =>
    rcases h with hb | hb
    · exact .of_doneBar_shut hb (exec_eptRow o ho d p s)
    · have hx := exec_eptRow o ho d p s
      rw [doneBar, eptStart_busy hb, ite_self] at hx
      exact .of_done hx
  case started =>
    have hx := exec_of_doneBar hb (exec_eptRow o ho d p s)
    rw [eptStart_free (Die.running_of_barOpen hb) h] at hx
    exact .of_done hx
  case idle => exact .of_done (congrArg done (eptDone_idle h))
  case read =>
    refine answers_eptCommandDone ho (eptOp_read h) fun t hs => ⟨hs.free, hs.busy, hs.status, ?_, ?_, hs.tables _⟩
    · rw [hs.data0]; exact Nat.mod_eq_of_lt e.data0.isLt
    · rw [hs.data1]; exact Nat.mod_eq_of_lt e.lastSeen.isLt
  case notFound =>
    rcases ho with ho | ho
    · exact answers_eptCommandDone ho (eptOp_notFound (.inl rfl) h) fun t hs => ⟨hs.free, hs.status, hs.tables _⟩
    · exact answers_eptCommandDone ho (eptOp_notFound (.inr rfl) h) fun t hs => ⟨hs.free, hs.status, hs.tables _⟩
  case invalid => exact answers_eptCommandDone ho (eptOp_writeBad hb) fun t hs => ⟨hs.free, hs.status, hs.tables _⟩
  case write =>
    refine answers_eptCommandDone ho (eptOp_write hb h) fun t hs => ⟨hs.free, hs.status, ?_⟩
    rw [hs.tables, State.die_onDie_same, Die.ept_setEpt_same, spFind_put_same]
    rfl
  case delete =>
    refine answers_eptCommandDone ho (eptOp_delete h) fun t hs => ⟨hs.free, hs.status, ?_⟩
    rw [hs.tables, State.die_onDie_same, Die.ept_setEpt_same]
  case learnStopped => exact .of_done (congrArg done (learnProcess_waits fun _ _ => .inl hr))
  case sweepStopped => exact .of_done (congrArg done (agingSweep_stopped hr q))
  case learnEmpty => exact .of_done (congrArg done (learnProcess_waits (by rw [h]; exact fun _ => nofun)))
  case learn =>
    have row {u : State} (hu : learnOne (learnTaken s d q r) d q r = u) : Makes (.learnRequestProcess d q) s u :=
      .of_done (congrArg done ((learnProcess_due hr h ht).trans hu))
    rw [← ept_learnTaken s d q r]
    exact ⟨row rfl, fun t1 hf hi => row (learnOne_inserts hf hi), fun slot e hf hp => row (learnOne_refreshes hf hp),
      fun slot e hf hp hl => row (learnOne_stays hf hp hl)⟩
  case learnEarly => exact .of_done (congrArg done (learnProcess_waits (by rintro _ h'; cases h.symm.trans h'; exact .inr ht)))
  case sweep => exact .of_done (congrArg done (agingSweep_runs hr q))
  case lockAbsent => exact .of_done (congrArg done (flapExpiry_absent h))
  case lockWaits => exact .of_done (congrArg done (flapExpiry_waits h hl))
  case lockEnds => exact .of_done (congrArg done (flapExpiry_ends h h0 ht))

end Sys2Proof.Machine
end

section
/-!
PROOFS. Gate lists of the control ports (R97, R379): a list that waits to resume after a forward step of the clock keeps the entry in force,
so GATE_LIST_ENTRY does not bring in the schedule's entry of the present time.
-/

namespace Sys2Proof.Machine

@[simp] theorem Die.cport_onCport_same (x : Die) (p : Nat) (f : CPort → CPort) : (x.onCport p f).cport p = f (x.cport p) := spGet_set_same ..

/-- A waiting list whose entry in force is not `n` is not moved to entry `n` by GATE_LIST_ENTRY. -/
theorem not_makes_gateListEntry_waiting {s : State} {d : DieId} {p : Fin 8} {l : GateList} {gates : BitVec 32} {resume n : Nat}
    (hl : ((s.die d).cport p).list = some l) (hk : l.kept = some (gates, resume)) (hu : (s.die d).ps < resume)
    (hn : ((s.die d).cport p).entry ≠ n) : ¬ Makes (.gateListEntry d p) s (s.onDie d (·.onCport p (fun c => { c with entry := n }))) := by
  rintro ⟨t, ht, hrec⟩
  have hstays : ((t.die d).cport p).entry = ((s.die d).cport p).entry := entry_gateListEntry_waiting hl hk hu ht
  have hmoved : ((t.die d).cport p).entry = n := by
    rw [Die.cport, hrec.die_net d, State.die_onDie_same]
    exact congrArg CPort.entry (Die.cport_onCport_same ..)
  exact hn (hstays.symm.trans hmoved)

/-- Refutes O50: its clause for GATE_LIST_ENTRY asks only that a list is in force and the die runs. In `steppedState` the list waits to resume
after a forward step of the clock (R97), so entry 1 stays in force, where the clause states the schedule's entry at time 0, which is 0. -/
theorem not_queuesSendAndGatesMove : ¬ Obligations.QueuesSendAndGatesMove := by
  unfold Obligations.QueuesSendAndGatesMove
  intro h
  obtain ⟨hport, _⟩ := h .cd0 steppedState
  obtain ⟨_, _, _, hfollows, _⟩ := hport 0
  have hlist : ((steppedState.die .cd0).cport (0 : Fin 8)).list = some steppedList := congrArg CPort.list steppedState_cport
  have hentry : ((steppedState.die .cd0).cport (0 : Fin 8)).entry = 1 := congrArg CPort.entry steppedState_cport
  have hnow : (steppedState.die .cd0).ps = 0 := rfl
  have hplace : entryAt steppedList.sched (steppedList.place 0) = 0 := by decide
  refine not_makes_gateListEntry_waiting hlist rfl ?waits ?moved (hfollows steppedList hlist rfl)
  case waits => rw [hnow]; decide
  case moved => rw [hentry, hnow, hplace]; decide

end Sys2Proof.Machine
end

section
/-!
PROOFS. Ring commands past the checks every opcode shares: those that complete at once (R403, R406, R407, R409, R459), those that read host
memory first (R402), and those that the mirror must acknowledge (R34, R425).
-/

namespace Sys2Proof.Machine

/-! ## Descriptor bytes that are zero -/

theorem getD_bytesAt {b : List Byte} {p n i : Nat} (h : i < n) : (bytesAt b p n).getD i 0 = b.getD (p + i) 0 := by
  simp only [bytesAt, List.getD_eq_getElem?_getD, List.getElem?_append, List.getElem?_take, List.getElem?_drop, List.getElem?_replicate,
    List.length_take, List.length_drop, h, if_true]
  by_cases hb : p + i < b.length
  · rw [if_pos (by omega)]
  · rw [if_neg (by omega), if_pos (by omega), List.getElem?_eq_none (by omega)]
    rfl

theorem length_bytesAt (b : List Byte) (p n : Nat) : (bytesAt b p n).length = n := by
  simp only [bytesAt, List.length_append, List.length_replicate, List.length_take, List.length_drop]
  omega

theorem getD_of_zeroRange {b : List Byte} {lo hi i : Nat} (h : zeroRange b lo hi = true) (h1 : lo ≤ i) (h2 : i ≤ hi) : b.getD i 0 = 0 := by
  have hlen := length_bytesAt b lo (hi + 1 - lo)
  have hget : (bytesAt b lo (hi + 1 - lo)).getD (i - lo) 0 = b.getD i 0 := by
    rw [getD_bytesAt (by omega), Nat.add_sub_cancel' h1]
  rw [← hget, List.getD_eq_getElem _ _ (by omega)]
  simpa using List.all_eq_true.1 h _ (List.getElem_mem (by omega))

theorem leNat_eq_zero {l : List Byte} (h : ∀ b ∈ l, b = 0) : leNat l = 0 := by
  induction l with
  | nil => rfl
  | cons b l ih => simp [leNat, h b, ih fun c hc => h c (List.mem_cons_of_mem b hc)]

/-- A field within bytes that are zero is zero. -/
theorem leAt_of_zeroRange {b : List Byte} {lo hi p n : Nat} (h : zeroRange b lo hi = true) (h1 : lo ≤ p) (h2 : p + n ≤ hi + 1) : leAt b p n = 0 := by
  refine leNat_eq_zero fun c hc => ?_
  obtain ⟨i, hi', rfl⟩ := List.getElem_of_mem hc
  have hi := hi'
  rw [length_bytesAt] at hi
  rw [← List.getD_eq_getElem _ 0 hi', getD_bytesAt hi]
  exact getD_of_zeroRange h (by omega) (by omega)

theorem zeroRange_sub {b : List Byte} {lo hi p q : Nat} (h : zeroRange b lo hi = true) (h1 : lo ≤ p) (h2 : q ≤ hi) : zeroRange b p q = true := by
  refine List.all_eq_true.2 fun c hc => ?_
  obtain ⟨i, hi', rfl⟩ := List.getElem_of_mem hc
  have hi := hi'
  rw [length_bytesAt] at hi
  rw [← List.getD_eq_getElem _ 0 hi', getD_bytesAt hi, getD_of_zeroRange h (by omega) (by omega)]
  rfl

/-! ## Commands that complete at once -/

section AtOnce
variable {s : State} {d : DieId} {o : Origin} {b : List Byte} {fn : Nat}

theorem startCommand_nop (h : dOpcode b = 0x01) :
    startCommand s d o b = complete s d o (if zeroRange b 16 63 then stOk else stInvalid) 0 0 0 := by simp [startCommand, h]

theorem startCommand_handRead (h : dOpcode b = 0x18) : startCommand s d o b = startHandRead s d o b := by simp [startCommand, h]

theorem startCommand_telemSub (h : dOpcode b = 0x58) : startCommand s d o b = startTelemSub s d o b := by simp [startCommand, h]

theorem startCommand_query (h : dOpcode b = 0x68 ∨ dOpcode b = 0x70) : startCommand s d o b = startQuery s d o b := by
  rcases h with h | h <;> simp [startCommand, h]

/-- SRC 0 names the hand in force; without its flag no image is written (R406). -/
theorem startHandRead_inForce (ho : originFn o = some fn) (hz : zeroRange b 16 23 = true) (ha : leAt b 24 8 % 64 = 0)
    (hr : zeroRange b 32 63 = true) : startHandRead s d o b =
      complete (s.emit (.hostWrite d fn (leAt b 24 8) ((List.range 512).flatMap (fun n => leBytes 2 (handAt (s.die d).dealer.hand n).toNat))))
        d o stOk ((s.die d).reg Reg.DLR_DEAL_CNT) 0 0 := by
  have hsrc : leAt b 16 1 = 0 := leAt_of_zeroRange hz (by omega) (by omega)
  have hflag : leAt b 17 1 = 0 := leAt_of_zeroRange hz (by omega) (by omega)
  have hhand : leAt b 18 2 = 0 := leAt_of_zeroRange hz (by omega) (by omega)
  have hrest : zeroRange b 20 23 = true := zeroRange_sub hz (by omega) (by omega)
  simp [startHandRead, hsrc, hflag, hhand, hrest, ha, hr, ho]

theorem startTelemSub_adds (ho : originFn o = some fn) (hop : leAt b 16 1 = 0) (htype : leAt b 17 1 = 2) (hid : leAt b 18 2 = 0)
    (hz : zeroRange b 21 23 = true) (hr : zeroRange b 28 63 = true) (hroom : ((s.die d).fn fn).subs.length < 16) {new : Nat}
    (hnew : (((List.range 16).map (· + 1)).find? (fun i => !((s.die d).fn fn).subs.any (fun v => v.id = i))).getD 0 = new) :
    startTelemSub s d o b =
      complete (s.onDie d (·.onFn fn (fun n => { n with subs := n.subs ++ [⟨new, 2, leAt b 20 1, leAt b 24 4⟩] }))) d o stOk new 0 0 := by
  subst hnew
  simp [startTelemSub, ho, hop, htype, hid, hz, hr, Nat.not_le.2 hroom]

theorem startTelemSub_cancels (ho : originFn o = some fn) (hop : leAt b 16 1 = 1) (hz : zeroRange b 21 23 = true) (hr : zeroRange b 28 63 = true)
    (hlisted : ((s.die d).fn fn).subs.any (fun u => u.id = leAt b 18 2) = true) : startTelemSub s d o b =
      complete (s.onDie d (·.onFn fn (fun n => { n with subs := n.subs.filter (fun u => u.id ≠ leAt b 18 2) }))) d o stOk (leAt b 18 2) 0 0 := by
  simp only [startTelemSub, ho, hop, hz, hr, Option.getD_some, hlisted]
  rfl

theorem startQuery_writes (ho : originFn o = some fn) (hz : zeroRange b 16 23 = true) (hr : zeroRange b 32 63 = true)
    (ha : leAt b 24 8 % 64 = 0) : startQuery s d o b =
      complete (s.emit (.hostWrite d fn (leAt b 24 8) (if dOpcode b = 0x68 then safetyRecord s d else healthRecord s d))) d o stOk 0 0 0 := by
  simp [startQuery, queryOk, ho, hz, hr, ha]

end AtOnce

theorem originFn_rowOrigin (op : Nat) (q : RingRef) (desc : List Byte) (s : State) : originFn (rowOrigin op q desc s) = some q.fn.val := rfl

/-- Settles O9: by what each command starts with, once its descriptor has passed the common checks. -/
theorem ringCommandsAtOnce : Obligations.RingCommandsAtOnce := by
  unfold Obligations.RingCommandsAtOnce
  intro q desc s d x
  have hop {op : Nat} (h : op < 256) : dOpcode (rowBytes op desc) = op := dOpcode_rowBytes h desc
  refine ⟨fun hp hz => ?nopOk, fun hp hz => ?nopInvalid, fun hp hz ha hr => ?handRead, fun hp h0 h2 hid hz hr hroom => ?subscribe,
    fun hp h1 hz hr hlisted => ?cancel, fun hp hz hr ha => ?safety, fun hp hz hr ha => ?health⟩
  case nopOk => exact .of_passes rfl hp ((startCommand_nop (hop (by decide))).trans (by rw [if_pos hz]))
  case nopInvalid => exact .of_passes rfl hp ((startCommand_nop (hop (by decide))).trans (by rw [if_neg (ne_true_of_eq_false hz)]))
  case handRead =>
    exact .of_passes rfl hp ((startCommand_handRead (hop (by decide))).trans (startHandRead_inForce (originFn_rowOrigin ..) hz ha hr))
  case subscribe =>
    exact .of_passes rfl hp ((startCommand_telemSub (hop (by decide))).trans
      (startTelemSub_adds (originFn_rowOrigin ..) h0 h2 hid hz hr hroom rfl))
  case cancel =>
    exact .of_passes rfl hp ((startCommand_telemSub (hop (by decide))).trans
      (startTelemSub_cancels (originFn_rowOrigin ..) h1 hz hr hlisted))
  case safety =>
    refine .of_passes rfl hp ((startCommand_query (.inl (hop (by decide)))).trans
      ((startQuery_writes (originFn_rowOrigin ..) hz hr ha).trans ?_))
    rw [if_pos (hop (by decide))]
  case health =>
    refine .of_passes rfl hp ((startCommand_query (.inr (hop (by decide)))).trans
      ((startQuery_writes (originFn_rowOrigin ..) hz hr ha).trans ?_))
    rw [if_neg (by rw [hop (by decide)]; decide)]

/-! ## Commands that read host memory first -/

section Reads
variable {s : State} {d : DieId} {o : Origin} {b : List Byte} {fn : Nat}

theorem startRead_eq (ho : originFn o = some fn) (a n : Nat) : startRead s d o b a n = s.withRead d o b fn a n := by
  unfold startRead State.withRead State.withCmd
  rw [ho, State.onDie_onDie]
  rfl

theorem startCommand_takeBatch (h : dOpcode b = 0x11) {n : Nat} (hn : batchReads b = some n) :
    startCommand s d o b = startRead s d o b (leAt b 40 8) n := by simp [startCommand, h, hn]

theorem batchReads_pairs (ha : leAt b 40 8 % 64 = 0) (hform : leAt b 50 1 = 0) (h1 : 1 ≤ leAt b 48 2) (h2 : leAt b 48 2 ≤ 512) :
    batchReads b = some (4 * leAt b 48 2) := by simp [batchReads, ha, hform, h1, h2]

theorem batchReads_hand (ha : leAt b 40 8 % 64 = 0) (hform : leAt b 50 1 = 1) : batchReads b = some 1024 := by simp [batchReads, ha, hform]

theorem startCommand_deckLoad (h : dOpcode b = 0x20) (hn : deckLoadRefusal (s.die d) b (s.die d).nextCmd = none) :
    startCommand s d o b = startRead s d o b (leAt b 24 8) (1024 * leAt b 18 2) := by simp [startCommand, h, hn, loadCount]

theorem calLoadRefusal_none {x : Die} (hz : zeroRange b 28 63 = true) (ha : leAt b 16 8 % 64 = 0) (hlen : leAt b 24 4 ∈ [110624, 1245216, 47136])
    (hc : x.cal.commit = none) : calLoadRefusal x b = none := by
  have hlen' : [110624, 1245216, 47136].contains (leAt b 24 4) = true := by simpa using hlen
  simp only [calLoadRefusal, hz, ha, hlen', hc]
  rfl

theorem startCommand_calLoad (h : dOpcode b = 0x38) (hn : calLoadRefusal (s.die d) b = none) :
    startCommand s d o b = startRead s d o b (leAt b 16 8) (leAt b 24 4) := by simp [startCommand, h, hn]

theorem startCommand_frameSend (h : dOpcode b = 0x80) (hf : frameSendOk (s.die d) b = true) :
    startCommand s d o b = startRead s d o b (leAt b 24 8) (leAt b 18 2) := by simp [startCommand, h, hf]

theorem startCommand_gateList (h : dOpcode b = 0x50) (hf : gateFieldsOk (s.die d) b = true)
    (hb : ((s.die d).cport (leAt b 16 1)).gateBusy = false) (hs : bitOf (leAt b 17 1) 2 = false) :
    startCommand s d o b = startRead s d o b (leAt b 32 8) (8 * leAt b 18 2) := by simp [startCommand, h, startGateList, hf, hb, hs]

theorem startCommand_ruleWrite (h : dOpcode b = 0x40) (hf : tableOpOk b = true) (htarget : leAt b 16 1 = 2) (hop : leAt b 17 1 = 2)
    (hw : (scopePipes b).all (fun p => ((s.die d).pipe p).bankWritable (scopeBank b)) = true) :
    startCommand s d o b = startRead s d o b (leAt b 24 8) (96 * ruleCount b) := by
  simp only [startCommand, h, startTableOp, hf, htarget, hop, hw]
  rfl

end Reads

/-! ## Commands that the mirror must acknowledge -/

/-- The opcodes of the fabric commands that read nothing. -/
def mirroredOps : List Nat := [0x21, 0x22, 0x23, 0x30, 0x31, 0x39, 0x3A, 0x78]

theorem exec_ringRow {r : Nat × (RingRef → List Byte → Instr)} (hr : r ∈ ringRows) (q : RingRef) (desc : List Byte) (s : State) :
    r.1 < 256 ∧ exec (r.2 q desc) s = done (ringCommand r.1 q desc s) := by
  simp only [ringRows, List.mem_cons, List.not_mem_nil, or_false] at hr
  rcases hr with rfl | rfl | rfl | rfl | rfl | rfl | rfl | rfl | rfl | rfl | rfl | rfl | rfl | rfl | rfl | rfl | rfl | rfl | rfl | rfl | rfl | rfl <;>
    exact ⟨by decide, rfl⟩

section Fabric
variable {s : State} {d : DieId} {o : Origin} {b : List Byte}

theorem startCommand_fabric (h : dOpcode b ∈ mirroredOps) : startCommand s d o b = startFabric s d o b := by
  simp only [mirroredOps, List.mem_cons, List.not_mem_nil, or_false] at h
  rcases h with h | h | h | h | h | h | h | h <;> simp [startCommand, h]

theorem startFabric_refused {st : Nat} (h : fabricRefusal s d b (s.die d).nextCmd = some st) : startFabric s d o b = complete s d o st 0 0 0 := by
  simp only [startFabric, h]

/-- An accepted command has begun at the present time; a solo die executes it, any other mirrors it first. -/
theorem startFabric_accepted (h : fabricRefusal s d b (s.die d).nextCmd = none) {s1 : State}
    (h1 : (s.withCmd d o b .waiting true).onDie d (fun x => x.onCmd (s.die d).nextCmd (fun c => { c with begun := true, v := x.now })) = s1) :
    startFabric s d o b = if (s.die d).solo then commitCmd s1 d (s.die d).nextCmd else mirrorRequest s1 d (s.die d).nextCmd none := by
  have hsolo : (s1.die d).solo = (s.die d).solo := by
    rw [← h1, State.withCmd, State.onDie_onDie, State.die_onDie_same]
    rfl
  simp only [startFabric, h]
  subst h1
  exact hsolo ▸ rfl

end Fabric

/-- Settles O10: by what each command starts with, once its descriptor has passed the common checks. -/
theorem ringCommandsThatReadOrMirror : Obligations.RingCommandsThatReadOrMirror := by
  unfold Obligations.RingCommandsThatReadOrMirror
  refine ⟨?reads, ?mirrors⟩
  case reads =>
    intro q desc s d x
    have hop {op : Nat} (h : op < 256) : dOpcode (rowBytes op desc) = op := dOpcode_rowBytes h desc
    have hread {op n a : Nat} := startRead_eq (s := s) (d := d) (b := rowBytes op desc) (originFn_rowOrigin op q desc s) a n
    exact ⟨
      fun hp ha hform h1 h2 => .of_passes rfl hp ((startCommand_takeBatch (hop (by decide)) (batchReads_pairs ha hform h1 h2)).trans hread),
      fun hp ha hform => .of_passes rfl hp ((startCommand_takeBatch (hop (by decide)) (batchReads_hand ha hform)).trans hread),
      fun hp hn => .of_passes rfl hp ((startCommand_deckLoad (hop (by decide)) hn).trans hread),
      fun hp hz ha hlen hc => .of_passes rfl hp ((startCommand_calLoad (hop (by decide)) (calLoadRefusal_none hz ha hlen hc)).trans hread),
      fun hp hf => .of_passes rfl hp ((startCommand_frameSend (hop (by decide)) hf).trans hread),
      fun hp hf hb hs => .of_passes rfl hp ((startCommand_gateList (hop (by decide)) hf hb hs).trans hread),
      fun hp hf ht h2 hw => .of_passes rfl hp ((startCommand_ruleWrite (hop (by decide)) hf ht h2 hw).trans hread)⟩
  case mirrors =>
    intro r hr hop q desc s hp d b o id s1
    obtain ⟨hlt, hrow⟩ := exec_ringRow hr q desc s
    have hstart := startCommand_fabric (s := s) (d := d) (o := o) (b := b) (by rw [dOpcode_rowBytes hlt]; exact hop)
    refine ⟨fun st h => .of_passes hrow hp (hstart.trans (startFabric_refused h)), fun h hsolo => ?_, fun h hsolo => ?_⟩ <;>
      refine .of_passes hrow hp (hstart.trans ((startFabric_accepted h (s1 := s1) rfl).trans ?_))
    · exact if_pos hsolo
    · exact if_neg (ne_true_of_eq_false hsolo)

end Sys2Proof.Machine
end

section
/-!
PROOFS. What the host interface does by itself: polling and its end (R396), coalescing (R417), host reads and validation (R399 to R402),
and EN of a ring (R397).
-/

namespace Sys2Proof.Machine

section Polling
variable {s : State} {d : DieId} {f : Nat}

theorem pollIdle_due (ha : ((s.die d).fn f).active = true) (ht : 64000 ≤ s.ticks - ((s.die d).fn f).lastChange) :
    pollIdle d f s = s.onDie d (fun x => (x.onFn f (fun n => { n with active := false })).setRf (Reg.HIF_POLL f) F.HIF_POLL_IDLE 1) := by
  simp [pollIdle, ha, usT, ht]

theorem pollIdle_early (h : ((s.die d).fn f).active = false ∨ s.ticks - ((s.die d).fn f).lastChange < 64000) : pollIdle d f s = s := by
  rcases h with h | h
  · simp [pollIdle, h]
  · simp [pollIdle, usT, Nat.not_le.2 h]

theorem coalesceTimeout_due {r : Nat} (hen : (s.die d).ringEn f r = true) (hi : (s.die d).rbit (Reg.HIF_RING_CFG f r) F.HIF_RING_CFG_IEN = true)
    (hu : 0 < ((s.die d).ring f r).unsignalled)
    (ht : 100 * max 1 ((s.die d).rf (Reg.HIF_RING_IRQ f r) F.HIF_RING_IRQ_TIME) ≤ s.ticks - ((s.die d).ring f r).firstAt) :
    coalesceTimeout d f r s = raiseRing s d f r := by
  simp [coalesceTimeout, hen, hi, hu, ht]

theorem coalesceTimeout_idle {r : Nat} (h : ((s.die d).ring f r).unsignalled = 0) : coalesceTimeout d f r s = s := by simp [coalesceTimeout, h]

end Polling

/-- Data or a failure for a ring's first outstanding read (R402). -/
theorem hostReadComplete_ring {s : State} {d : DieId} {h : HostRead} (hr : (s.die d).running = true) (hring : h.ring < 8)
    (hlisted : (s.die d).reads.find? (fun e => e.id = h.id) = some h)
    (hfirst : (s.die d).reads.find? (fun e => e.fn = h.fn && e.ring = h.ring) = some h) {s1 : State}
    (h1 : s.onDie d (fun x => { x with reads := x.reads.filter (fun e => e.id ≠ h.id) }) = s1) (data : Option (List Byte)) :
    hostReadComplete d h.id data s =
      match data with | some bytes => descriptorFetched s1 d h bytes | none => ringError s1 d h.fn h.ring := by
  have h8 : h.ring ≠ 8 := by omega
  subst h1
  simp only [hostReadComplete, hlisted, hfirst, hr, h8]
  cases data <;> simp

section Validate
variable {s : State} {d : DieId}

theorem descriptorValidate_early (h : (s.die d).base < 3) : descriptorValidate d s = s := by simp [descriptorValidate, h]

theorem Die.onRing_congr (x : Die) {f r : Nat} {g k : Ring → Ring} (h : g (x.ring f r) = k (x.ring f r)) : x.onRing f r g = x.onRing f r k :=
  congrArg (fun v => x.onFn f (fun n => n.setRing r v)) h

/-- With no fenced command to start and none of the higher class waiting, the next head of the lower class is validated. -/
theorem descriptorValidate_low (hr : (s.die d).running = true) (hm : 3 ≤ (s.die d).base) (hfence : (s.die d).fenceFree = none)
    (hhigh : (s.die d).nextHead 1 (s.die d).lastHigh = none) {f r fetch fetchedAt : Nat} {desc : List Byte}
    (hlow : (s.die d).nextHead 0 (s.die d).lastLow = some (f, r, fetch, fetchedAt, desc)) {rest : List (Nat × Nat × List Byte)}
    (hring : ((s.die d).ring f r).fetched = (fetch, fetchedAt, desc) :: rest) : descriptorValidate d s =
      validate (s.onDie d (fun x => { x with lastLow := 8 * f + r }.onRing f r (fun g => { g with fetched := rest }))) d f r fetch fetchedAt desc := by
  have hb : ¬ (s.die d).base < 3 := by omega
  simp only [descriptorValidate, hr, hb, hfence, hhigh, hlow]
  refine congrArg (fun u => validate u d f r fetch fetchedAt desc) (State.onDie_congr (Die.onRing_congr _ ?_))
  change { (s.die d).ring f r with fetched := ((s.die d).ring f r).fetched.drop 1 } = { (s.die d).ring f r with fetched := rest }
  rw [hring]
  rfl

end Validate

section Enables
variable {s : State} {d : DieId} {f : Fin 4} {r : Fin 26}

/-- Both rows write EN of the ring, as v says, where the function has the ring (R393, R397). -/
theorem makes_ringCfg {c : Instr} {v : Nat} (hb : (s.die d).barOpen = true)
    (hc : exec c s = doneBar d (fun s => if 18 ≤ r.val && f.val ≠ 2 then raise s d 158 else s.onDie d (fun x => writeRingCfg x f r v)) s)
    (h : r.val < 18 ∨ f = 2) : Makes c s (s.onDie d (fun x => writeRingCfg x f r v)) := by
  refine .of_barRow hb hc (if_neg ?_)
  rcases h with h | rfl <;> simp
  omega

/-- A ring that a function does not have is an unmapped address. -/
theorem makes_ringCfg_missing {c : Instr} {v : Nat} (hb : (s.die d).barOpen = true)
    (hc : exec c s = doneBar d (fun s => if 18 ≤ r.val && f.val ≠ 2 then raise s d 158 else s.onDie d (fun x => writeRingCfg x f r v)) s)
    (hr : 18 ≤ r.val) (hf : f ≠ 2) : Makes c s s := by
  have hf' : f.val ≠ 2 := fun h => hf (Fin.ext h)
  refine .intro ((exec_of_doneBar hb hc).trans (congrArg done (if_pos ?_))) (.raise s d 158 0 (by decide))
  simp [hr, hf']

end Enables

/-- Settles O12: by each row's own conditions. -/
theorem hostPollingAndFetch : Obligations.HostPollingAndFetch := by
  unfold Obligations.HostPollingAndFetch
  refine ⟨fun d f v s => ⟨fun hb => .of_doneBar (f := hifKick d f) hb rfl, fun ha ht => .of_row rfl (pollIdle_due ha ht), fun h => .of_row rfl (pollIdle_early h),
      fun r hen hi hu ht => .of_row rfl (coalesceTimeout_due hen hi hu ht), fun r h => .of_row rfl (coalesceTimeout_idle h),
      fun l hr => .of_doneUp (f := doorbellPoll d f.val (some l)) hr rfl, fun hr => .of_doneUp (f := doorbellPoll d f.val none) hr rfl⟩,
    fun d f r rr cfg h bytes s hr => ⟨fun hring hlisted hfirst => ?fetched, fun fetch at' desc rest hm hfence hhigh hlow hring =>
      .of_row rfl (descriptorValidate_low hr hm hfence hhigh hlow hring), fun hm => .of_row rfl (descriptorValidate_early hm),
      fun h hb => ⟨makes_ringCfg hb rfl h, makes_ringCfg hb rfl h⟩,
      fun h hf hb => ⟨makes_ringCfg_missing hb rfl h hf, makes_ringCfg_missing hb rfl h hf⟩⟩⟩
  case fetched =>
    have hread := hostReadComplete_ring hr hring hlisted hfirst rfl
    exact ⟨.of_row rfl (hread (some bytes)), .of_row rfl (hread none)⟩

end Sys2Proof.Machine
end

section
/-!
PROOFS. What crosses the mirror link: records and their acknowledgements (R420, R34), and requests between the dies (R352).
-/

namespace Sys2Proof.Machine

/-! ## Records and requests -/

section Records
variable {s : State} {d : DieId}

theorem recordReceive_down (h : s.mirror.state ≠ 2) : recordReceive s = s := by
  unfold recordReceive
  split
  · rfl
  · split
    · rfl
    · exact if_pos h

theorem recordReceive_nil (hd : s.declarer = some d) (h : (s.die d).red.sent = []) : recordReceive s = s := by simp [recordReceive, hd, h]

/-- The oldest record leaves the link; a running Dummy takes it in and acknowledges it. -/
theorem recordReceive_cons (hd : s.declarer = some d) {r : MirrorRec} {rest : List MirrorRec} (h : (s.die d).red.sent = r :: rest)
    (hm : s.mirror.state = 2) {s1 : State} (h1 : s.onDie d (fun x => x.onRed (fun q => { q with sent := rest })) = s1) :
    recordReceive s =
      if !(s.die d.peer).isDummy || !(s.die d.peer).running then s1
      else (applyRecord s1 d.peer r.payload).onDie d (fun x => x.onRed (fun q => { q with acks := q.acks ++ [(r.seq, s.ticks)] })) := by
  subst h1
  simp only [recordReceive, hd, h, hm, ne_eq, not_true_eq_false, if_false]

theorem mirrorPeerRequest_down (h : s.mirror.state ≠ 2) : mirrorPeerRequest s = s := if_pos h

theorem mirrorPeerRequest_cd0 (hm : s.mirror.state = 2) {q : PeerReq} {rest : List PeerReq} (h : s.cd0.red.peer = q :: rest) :
    mirrorPeerRequest s = peerRequest (s.onDie .cd0 (fun x => { x with red := { x.red with peer := rest } })) .cd1 q := by
  simp only [mirrorPeerRequest, hm, State.die, h, ne_eq, not_true_eq_false, if_false]

theorem mirrorPeerRequest_cd1 (hm : s.mirror.state = 2) (h0 : s.cd0.red.peer = []) {q : PeerReq} {rest : List PeerReq}
    (h : s.cd1.red.peer = q :: rest) :
    mirrorPeerRequest s = peerRequest (s.onDie .cd1 (fun x => { x with red := { x.red with peer := rest } })) .cd0 q := by
  simp only [mirrorPeerRequest, hm, State.die, h0, h, ne_eq, not_true_eq_false, if_false]

theorem mirrorPeerRequest_nil (hm : s.mirror.state = 2) (h0 : s.cd0.red.peer = []) (h1 : s.cd1.red.peer = []) : mirrorPeerRequest s = s := by
  simp only [mirrorPeerRequest, hm, State.die, h0, h1, ne_eq, not_true_eq_false, if_false]

end Records

/-! ## Acknowledgements -/

/-- A command waits for the acknowledgement of record q. -/
def Cmd.awaits (q : Nat) (c : Cmd) : Bool := match ackSince c with | some (n, _) => n = q | none => false

/-- A command has waited 20 us at a tick. -/
def Cmd.overdue (now : Nat) (c : Cmd) : Bool := match ackSince c with | some (_, t) => decide (20 * usT ≤ now - t) | none => false

theorem ackSince_of_acking {c : Cmd} {q t : Nat} (h : ackSince c = some (q, t)) : c.stage = .acking q t := by
  unfold ackSince at h
  split at h
  next q' t' hs =>
    cases h
    exact hs
  next => cases h

theorem Cmd.awaits_of_ne {c : Cmd} {q : Nat} (h : ∀ t, c.stage ≠ .acking q t) : c.awaits q = false := by
  unfold Cmd.awaits
  split
  next n t hs =>
    have hstage := ackSince_of_acking hs
    refine decide_eq_false fun hn => h t ?_
    rw [hstage, hn]
  next => rfl

theorem Cmd.overdue_of_recent {c : Cmd} {now : Nat} (h : ∀ q t, c.stage = .acking q t → now - t < 20 * usT) : c.overdue now = false := by
  unfold Cmd.overdue
  split
  next t hs => exact decide_eq_false (Nat.not_le.2 (h _ _ (ackSince_of_acking hs)))
  next => rfl

section Acks
variable {s : State} {d : DieId} (hd : s.declarer = some d)
include hd

theorem mirrorAck_nil (h : (s.die d).red.acks = []) : mirrorAck s = s := by simp only [mirrorAck, hd, h]

theorem mirrorAck_down {q m : Nat} {rest : List (Nat × Nat)} (h : (s.die d).red.acks = (q, m) :: rest) (hm : s.mirror.state ≠ 2) :
    mirrorAck s = s := by
  simp only [mirrorAck, hd, h]
  exact if_pos hm

/-- The oldest acknowledgement lets the command that waits for it go on. -/
theorem mirrorAck_cons {q m : Nat} {rest : List (Nat × Nat)} (h : (s.die d).red.acks = (q, m) :: rest) (hm : s.mirror.state = 2) {s1 : State}
    (h1 : s.onDie d (fun x => { x with red := { x.red with acks := rest } }) = s1) :
    mirrorAck s = match (s.die d).cmds.find? (·.awaits q) with | some c => ackCmd s1 d c.id | none => s1 := by
  have hcmds : (s1.die d).cmds = (s.die d).cmds := by rw [← h1, State.die_onDie_same]
  subst h1
  simp only [mirrorAck, hd, h, hm, ne_eq, not_true_eq_false, if_false, hcmds]
  rfl

theorem mirrorAckTimeout_eq : mirrorAckTimeout s =
    match (s.die d).cmds.find? (·.overdue s.ticks) with | some c => ackTimeout s d c.id | none => s := by
  simp only [mirrorAckTimeout, hd]
  rfl

end Acks

/-- Settles O19: by what waits on the link, and by the command that an acknowledgement or its absence concerns. -/
theorem mirrorCarriesRecords : Obligations.MirrorCarriesRecords := by
  unfold Obligations.MirrorCarriesRecords
  refine ⟨fun s => ⟨fun hm => ⟨.of_row rfl (recordReceive_down hm), .of_row rfl (mirrorPeerRequest_down hm)⟩,
    fun d hd h => .of_row rfl (recordReceive_nil hd h), fun d r rest hd h hm => ⟨fun hp => ?absent, fun hdummy hrun => ?taken⟩,
    fun hm => ⟨fun q rest h => .of_row rfl (mirrorPeerRequest_cd0 hm h), fun q rest h0 h => .of_row rfl (mirrorPeerRequest_cd1 hm h0 h),
      fun h0 h1 => .of_row rfl (mirrorPeerRequest_nil hm h0 h1)⟩⟩,
    fun s d hd => ⟨fun h => .of_row rfl (mirrorAck_nil hd h), fun q m rest h => ⟨fun hm => .of_row rfl (mirrorAck_down hd h hm),
      fun hm hidle => ?unawaited, fun hm c hc => ?awaited⟩, fun c hc => ?overdue, fun hrecent => ?recent⟩⟩
  case absent =>
    refine .of_row rfl ((recordReceive_cons hd h hm rfl).trans (if_pos ?_))
    rcases hp with hp | hp <;> simp [hp]
  case taken =>
    refine .of_row rfl ((recordReceive_cons hd h hm rfl).trans (if_neg ?_))
    simp [hdummy, hrun]
  case unawaited =>
    have hnone : (s.die d).cmds.find? (·.awaits q) = none := List.find?_eq_none.2 fun c hc => by
      rw [Cmd.awaits_of_ne (hidle c hc)]; simp
    refine .of_row rfl ((mirrorAck_cons hd h hm rfl).trans ?_)
    rw [hnone]
  case awaited =>
    have hsome : (s.die d).cmds.find? (·.awaits q) = some c := hc
    refine .of_row rfl ((mirrorAck_cons hd h hm rfl).trans ?_)
    rw [hsome]
  case overdue =>
    have hsome : (s.die d).cmds.find? (·.overdue s.ticks) = some c := hc
    have heq : mirrorAckTimeout s = ackTimeout s d c.id := (mirrorAckTimeout_eq hd).trans (by rw [hsome])
    exact ⟨_, rfl, congrArg settle heq⟩
  case recent =>
    have hnone : (s.die d).cmds.find? (·.overdue s.ticks) = none := List.find?_eq_none.2 fun c hc => by
      rw [Cmd.overdue_of_recent (hrecent c hc)]; simp
    refine .of_row rfl ((mirrorAckTimeout_eq hd).trans ?_)
    rw [hnone]

end Sys2Proof.Machine
end

section
/-!
PROOFS. What ending commands, closing the service lock and the loss of the mirror link leave of both dies: all but their rings and commands,
what they send and the memories of the bus matrix.
-/

namespace Sys2Proof.Machine

/-- A die without its registers, rings and commands, what waits to be sent to its peer and to agents, and the memories that the bus matrix
reaches. -/
def Die.core (x : Die) : Die :=
  { x with regs := [], fresh := [], fns := Vector.replicate 4 Fn.reset, cmds := [], flt := Flt.reset,
           red := { x.red with nextSeq := 0, sent := [], peer := [], mirrorDownSince := none }, net := Net.reset, vsp := Vsp.reset,
           decks := Decks.reset, eng := Engines.reset, mtx := Matrix.reset }

@[simp] theorem Die.core_setReg (x : Die) (k v : Nat) : (x.setReg k v).core = x.core := rfl
@[simp] theorem Die.core_count (x : Die) (k : Nat) (f : Fld) (n : Nat) : (x.count k f n).core = x.core := x.core_setReg _ _
@[simp] theorem Die.core_onFn (x : Die) (n : Nat) (g : Fn → Fn) : (x.onFn n g).core = x.core := rfl
@[simp] theorem Die.core_onRing (x : Die) (n r : Nat) (g : Ring → Ring) : (x.onRing n r g).core = x.core := rfl
@[simp] theorem Die.core_onCport (x : Die) (p : Nat) (g : CPort → CPort) : (x.onCport p g).core = x.core := rfl
@[simp] theorem Die.reg_onCport (x : Die) (p : Nat) (g : CPort → CPort) (k : Nat) : (x.onCport p g).reg k = x.reg k := rfl

/-- Register words below the pages of the functions that neither recording nor the end of a command or of the mirror link writes. -/
def coreKey (k : Nat) : Bool := decide (k < 0xF000) && !recordKey k && !decide (k ∈ [Reg.RED_ADOPT_DROP, Reg.RED_MIRROR_ERR])

theorem coreKey_record {k : Nat} (h : coreKey k = true) : recordKey k = false := by
  simp only [coreKey, Bool.and_eq_true, Bool.not_eq_true'] at h
  exact h.1.2

/-- The force words of the fault collector and of the Light Guard. -/
def forceKey (k : Nat) : Prop := k = Reg.LGD_FORCE ∨ (Reg.FLT_FORCE 0 ≤ k ∧ k < Reg.FLT_FORCE 8)

/-- From s to t the dies keep their core, its registers and the fields of the mode word, and no time passes. -/
structure KeepsCore (s t : State) : Prop where
  core : ∀ d, (t.die d).core = (s.die d).core
  regs : ∀ d k, coreKey k = true → (t.die d).reg k = (s.die d).reg k
  mode : ∀ d, ∀ f ∈ modeFields, (t.die d).rf Reg.RED_MODE f = (s.die d).rf Reg.RED_MODE f
  ticks : t.ticks = s.ticks

namespace KeepsCore
variable {s t u : State}

theorem refl (s : State) : KeepsCore s s := ⟨fun _ => rfl, fun _ _ _ => rfl, fun _ _ _ => rfl, rfl⟩

theorem trans (h : KeepsCore s t) (k : KeepsCore t u) : KeepsCore s u :=
  ⟨fun d => (k.core d).trans (h.core d), fun d j hj => (k.regs d j hj).trans (h.regs d j hj),
    fun d f hf => (k.mode d f hf).trans (h.mode d f hf), k.ticks.trans h.ticks⟩

theorem of_records (h : OnlyRecords s t) : KeepsCore s t :=
  ⟨fun d => h.die_eq d Die.core fun _ => rfl, fun d k hk => h.regs d k (coreKey_record hk), h.mode, h.ticks⟩

theorem of_dies (h : ∀ d, t.die d = s.die d) (ht : t.ticks = s.ticks) : KeepsCore s t :=
  ⟨fun d => by rw [h], fun d _ _ => by rw [h], fun d _ _ => by rw [h], ht⟩

theorem setMirror (s : State) (l : Link) : KeepsCore s { s with mirror := l } := .of_dies (fun d => by cases d <;> rfl) rfl

theorem emit (s : State) (o : Out) : KeepsCore s (s.emit o) := .of_dies (s.die_emit o) rfl

theorem foldl {α : Type} (g : State → α → State) (h : ∀ t a, KeepsCore t (g t a)) (l : List α) (s : State) : KeepsCore s (l.foldl g s) := by
  induction l generalizing s with
  | nil => exact .refl s
  | cons a l ih => exact (h s a).trans (ih _)

/-- A change of one die outside its core. -/
theorem onDie (s : State) (d : DieId) (f : Die → Die) (hc : (f (s.die d)).core = (s.die d).core)
    (hr : ∀ k, k = Reg.RED_MODE ∨ coreKey k = true → (f (s.die d)).reg k = (s.die d).reg k) : KeepsCore s (s.onDie d f) := by
  refine ⟨fun e => ?_, fun e k hk => ?_, fun e g _ => ?_, s.onDie_ticks d f⟩ <;> by_cases he : e = d
  · rw [he, State.die_onDie_same, hc]
  · rw [State.die_onDie_other s he]
  · rw [he, State.die_onDie_same, hr k (.inr hk)]
  · rw [State.die_onDie_other s he]
  · rw [he, State.die_onDie_same, Die.rf, hr _ (.inl rfl), Die.rf]
  · rw [State.die_onDie_other s he]

/-- A change of one die outside its core and its registers. -/
theorem outside (s : State) (d : DieId) {f : Die → Die} (hc : ∀ x, (f x).core = x.core) (hr : ∀ x, (f x).regs = x.regs) :
    KeepsCore s (s.onDie d f) := .onDie s d f (hc _) fun k _ => by rw [Die.reg, hr, Die.reg]

theorem coreKey_high {k : Nat} (h : 0xF000 ≤ k) : coreKey k = false ∧ k ≠ Reg.RED_MODE := by
  refine ⟨?_, fun e => ?_⟩
  · rw [coreKey, decide_eq_false (Nat.not_lt.2 h)]; rfl
  · subst e; revert h; decide

/-- A change of one die outside its core that writes one register word, outside the core too. -/
theorem word (s : State) (d : DieId) {k : Nat} (hk : coreKey k = false ∧ k ≠ Reg.RED_MODE) {f : Die → Die} (hc : ∀ x, (f x).core = x.core)
    (hr : ∀ x j, j ≠ k → (f x).reg j = x.reg j) : KeepsCore s (s.onDie d f) := by
  refine .onDie s d f (hc _) fun j hj => hr _ j fun e => ?_
  subst e
  rcases hj with hj | hj
  · exact hk.2 hj
  · rw [hk.1] at hj
    cases hj

theorem raise (s : State) (d : DieId) {src : Nat} (h : src < 256) (inst : Nat) : KeepsCore s (raise s d src inst) := .of_records (.raise s d src inst h)

theorem mirrored (s : State) (d : DieId) (p : Payload) : KeepsCore s (Machine.mirror s d p) := .of_records (.mirror s d p)

theorem askPeer (s : State) (d : DieId) (q : PeerReq) : KeepsCore s (askPeer s d q) := by
  unfold Machine.askPeer
  split
  · exact .outside s d (fun _ => rfl) (fun _ => rfl)
  · exact .refl s

/-! ## Entries of a ring -/

theorem onFn (s : State) (d : DieId) (f : Nat) (g : Fn → Fn) : KeepsCore s (s.onDie d (·.onFn f g)) :=
  .outside s d (fun x => x.core_onFn f g) (fun _ => rfl)

theorem onRing (s : State) (d : DieId) (f r : Nat) (g : Ring → Ring) : KeepsCore s (s.onDie d (·.onRing f r g)) := .onFn s d f _

theorem coalesce (s : State) (d : DieId) (f r : Nat) (irq : Bool) : KeepsCore s (coalesce s d f r irq) := by
  unfold Machine.coalesce
  extract_lets x g g' s1 need
  have h1 : KeepsCore s s1 := .onRing ..
  split
  · exact (h1.trans (.onRing ..)).trans (.of_records (.raiseVec ..))
  · exact h1

theorem writeEntry (s : State) (d : DieId) (f r : Nat) (bytes : List Byte) (irq : Bool) : KeepsCore s (writeEntry s d f r bytes irq) := by
  unfold Machine.writeEntry
  extract_lets x g s1 m s2
  have h : 0xF000 ≤ Reg.HIF_RING_MOD f r := by unfold Reg.HIF_RING_MOD; omega
  have h1 : KeepsCore s s1 := .emit ..
  have h2 : KeepsCore s1 s2 := .word s1 d (coreKey_high h) (fun x => (Die.core_setReg _ _ _).trans (x.core_onRing ..)) fun x _ hj => Die.reg_setReg_other _ hj _
  exact (h1.trans h2).trans ((emit ..).trans (.coalesce ..))

/-! ## The end of a command (R404, R405) -/

theorem writeCpl (s : State) (d : DieId) (f cq : Nat) (bytes : List Byte) (irq : Bool) : KeepsCore s (writeCpl s d f cq bytes irq) := by
  unfold Machine.writeCpl
  extract_lets x
  split_ifs
  · exact .refl s
  · exact .onFn ..
  · exact .writeEntry ..

theorem onCport (s : State) (d : DieId) (p : Nat) (f : CPort → CPort) : KeepsCore s (s.onDie d (·.onCport p f)) :=
  .outside s d (fun _ => rfl) (fun _ => rfl)

theorem countHigh (s : State) (d : DieId) {k : Nat} (h : 0xF000 ≤ k) (f : Fld) (n : Nat) : KeepsCore s (s.count d k f n) :=
  .word s d (coreKey_high h) (fun _ => rfl) fun _ _ hj => Die.reg_setReg_other _ hj _

theorem dropTx (s : State) (d : DieId) (p q : Nat) : KeepsCore s (dropTx s d p q) := by
  have h : 0xF000 ≤ Reg.TMG_QDROP p q := by unfold Reg.TMG_QDROP; omega
  unfold Machine.dropTx
  refine .trans ?_ (.raise _ d (by decide) 0)
  exact .word s d (coreKey_high h) (fun x => (Die.core_onCport ..).trans (Die.core_count ..)) fun x _ hj =>
    (Die.reg_onCport ..).trans (x.reg_count_other hj _ _)

theorem enqueue (s : State) (d : DieId) (p q : Nat) (f : TxFrame) : KeepsCore s (enqueue s d p q f).1 := by
  unfold Machine.enqueue
  extract_lets x c n depth lim used full t
  split_ifs
  · exact .refl s
  · exact .dropTx ..
  · dsimp only
    exact .onCport ..

theorem egress (s : State) (d : DieId) (p cls : Nat) (queue : Option Nat) (zsl : Bool) (f : TxFrame) :
    KeepsCore s (egress s d p cls queue zsl f).1 := by
  unfold Machine.egress
  extract_lets x
  split_ifs
  · exact .enqueue ..
  · exact .enqueue ..
  · split
    · exact (countHigh _ _ (by unfold Reg.TMG_PCNT; omega) _ _).trans (.enqueue ..)
    · exact .enqueue ..
    · exact .enqueue ..

theorem sendVsp (s : State) (d : DieId) (src : VspFrom) (cls : Nat) (queue : Option Nat) (yellow trump : Bool) (msg : List Byte) :
    KeepsCore s (sendVsp s d src cls queue yellow trump msg) := by
  unfold Machine.sendVsp
  extract_lets x f
  split
  · unfold sendTrump
    split
    · exact (egress ..).trans (.onCport ..)
    · exact .egress ..
  · exact .askPeer ..

theorem setAgent (s : State) (d : DieId) (a : Agent) : KeepsCore s (s.onDie d (·.setAgent a)) :=
  .outside s d (fun _ => rfl) (fun _ => rfl)

theorem sendAgent (s : State) (d : DieId) (id type flags : Nat) (g : Egr) (body : List Byte) :
    KeepsCore s (sendAgent s d id type flags g body) := by
  unfold Machine.sendAgent
  extract_lets x
  split
  · exact .refl s
  · exact (setAgent ..).trans (.sendVsp ..)

theorem trumpDone (s : State) (src : VspFrom) (cls : Nat) : KeepsCore s (trumpDone s src cls) := by
  unfold Machine.trumpDone
  split
  · exact .onCport ..
  · exact .refl s

theorem answer (s : State) (d : DieId) (id reftype refseq type : Nat) (g : Egr) (src : VspFrom) (body : List Byte) :
    KeepsCore s (answer s d id reftype refseq type g src body) := by
  unfold Machine.answer
  extract_lets s1 s2
  have h1 : KeepsCore s s1 := by
    unfold s1
    split
    · refine .outside s d (fun x => ?_) (fun x => ?_) <;> split <;> rfl
    · exact .refl s
  have h2 : KeepsCore s1 s2 := by
    unfold s2
    split
    · exact .trumpDone ..
    · exact .refl s1
  exact (h1.trans h2).trans ((sendAgent ..).trans (.mirrored ..))

theorem complete (s : State) (d : DieId) (o : Origin) (status result frac aux : Nat) : KeepsCore s (complete s d o status result frac aux) := by
  cases o with
  | none => exact .refl s
  | ring fn ring tag dflags opcode modeCnt =>
    simp only [Machine.complete]
    split
    · exact .refl s
    · exact .writeCpl ..
  | vsp src agent seq cls queue yellow =>
    simp only [Machine.complete]
    split <;> exact .answer ..

theorem finish (s : State) (d : DieId) (id status result frac aux : Nat) : KeepsCore s (finish s d id status result frac aux) := by
  unfold Machine.finish
  split
  · exact .refl s
  · extract_lets s1 s2
    have h1 : KeepsCore s s1 := .outside s d (fun _ => rfl) (fun _ => rfl)
    have h2 : KeepsCore s1 s2 := by
      unfold s2
      split_ifs
      · exact .refl s1
      · refine .trans ?_ (.raise _ d (by decide) 0)
        exact .word s1 d ⟨by decide, by decide⟩ (fun x => x.core_count ..) fun x _ hj => x.reg_count_other hj _ _
      · exact .complete ..
    split
    · exact (h1.trans h2).trans (.mirrored ..)
    · exact h1.trans h2

/-- Rule commands go on without the peer (R352). -/
theorem ruleAlone (s : State) (d : DieId) : KeepsCore s (ruleAlone s d) := by
  have net (t : State) (g : Die → Net) : KeepsCore t (t.onDie d (fun x => { x with net := g x })) := .outside t d (fun _ => rfl) (fun _ => rfl)
  unfold Machine.ruleAlone ruleWaits
  refine (net ..).trans ((net ..).trans (.foldl _ (fun t w => ?_) _ _))
  split
  · exact .askPeer ..
  · exact .finish ..

/-! ## The service lock (R512, R519) -/

theorem setFlash (s : State) (d : DieId) (mem : Memory) : KeepsCore s (s.setFlash d mem) := by
  have hd (e : DieId) : (s.setFlash d mem).die e = s.die e := by cases d <;> cases e <;> rfl
  have ht : (s.setFlash d mem).ticks = s.ticks := by cases d <;> rfl
  exact .of_dies hd ht

theorem mtxPutByte (s : State) (d : DieId) (m t o : Nat) (b : Byte) : KeepsCore s (mtxPutByte s d m t o b) := by
  have hands (g : Die → Sparse StoredHand) : KeepsCore s (s.onDie d (fun x => { x with decks := { x.decks with hands := g x } })) :=
    .outside s d (fun _ => rfl) (fun _ => rfl)
  have mtx (g : Die → Matrix) : KeepsCore s (s.onDie d (fun x => { x with mtx := g x })) := .outside s d (fun _ => rfl) (fun _ => rfl)
  have eng (g : Engines → Engines) : KeepsCore s (s.onDie d (·.onEng g)) := .outside s d (fun _ => rfl) (fun _ => rfl)
  unfold Machine.mtxPutByte
  split
  case h_1 => exact mtx _
  case h_2 => exact hands _
  case h_3 =>
    split
    · exact hands _
    · exact .refl s
  case h_4 => exact mtx _
  case h_5 =>
    split_ifs
    · exact .setFlash ..
    · exact .refl s
    · exact mtx _
  case h_6 => exact .of_dies (fun e => by cases e <;> rfl) rfl
  case h_7 => exact eng _
  case h_8 => exact .refl s

theorem onMtx (s : State) (d : DieId) {f : Die → Die} (h : ∀ x, ∃ m, f x = { x with mtx := m }) : KeepsCore s (s.onDie d f) := by
  refine .outside s d (fun x => ?_) (fun x => ?_) <;> obtain ⟨m, hm⟩ := h x
  · rw [hm]
    rfl
  · rw [hm]

theorem masterReset (d : DieId) (m : Nat) (s : State) : KeepsCore s (masterReset d m s) := by
  have drawn (t : State) : KeepsCore t t.drawn := .of_dies t.die_drawn rfl
  unfold Machine.masterReset
  refine KeepsCore.trans (.foldl _ (fun t o => ?_) _ _) (.onMtx _ _ fun _ => ⟨_, rfl⟩)
  split
  · split
    · exact drawn t
    · exact (drawn t).trans (KeepsCore.trans (.foldl _ (fun t p => .mtxPutByte ..) _ _) (.onMtx _ _ fun _ => ⟨_, rfl⟩))
  · exact .refl t

end KeepsCore

/-- Clearing the force bits writes only force words. -/
theorem clearForces_keeps (x : Die) : (clearForces x).core = x.core ∧ ∀ k, ¬ forceKey k → (clearForces x).reg k = x.reg k := by
  have words (l : List Nat) (hl : ∀ w ∈ l, w < 8) : ∀ y : Die, (l.foldl (fun x w => x.setReg (Reg.FLT_FORCE w) 0) y).core = y.core ∧
      ∀ k, ¬ forceKey k → (l.foldl (fun x w => x.setReg (Reg.FLT_FORCE w) 0) y).reg k = y.reg k := by
    induction l with
    | nil => exact fun y => ⟨rfl, fun _ _ => rfl⟩
    | cons w l ih =>
      intro y
      obtain ⟨hc, hr⟩ := ih (fun v hv => hl v (List.mem_cons_of_mem w hv)) (y.setReg (Reg.FLT_FORCE w) 0)
      refine ⟨hc.trans (y.core_setReg ..), fun k hk => (hr k hk).trans (Die.reg_setReg_other _ ?_ _)⟩
      rintro rfl
      have hw := hl w (by simp)
      exact hk (.inr ⟨by unfold Reg.FLT_FORCE; omega, by unfold Reg.FLT_FORCE; omega⟩)
  obtain ⟨hc, hr⟩ := words (List.range 8) (by simp) x
  exact ⟨(Die.core_setReg ..).trans hc, fun k hk => (Die.reg_setReg_other _ (fun e => hk (.inl e)) _).trans (hr k hk)⟩

namespace KeepsCore
variable {s t u : State}

/-- The lock closes while the module stays where it is: both dies' locks, and then it is as if only masters were reset. -/
theorem lockClose (s : State) : ∃ u, KeepsCore u (lockClose s false) ∧ u.ticks = s.ticks ∧ ∀ d, (∃ v : Service, v.level = 0 ∧
    (u.die d).core = { (s.die d).core with svc := v }) ∧ ∀ k, ¬ forceKey k → (u.die d).reg k = (s.die d).reg k := by
  unfold Machine.lockClose
  extract_lets was close s1 s2
  have hclose (x : Die) : (∃ v : Service, v.level = 0 ∧ (close x).core = { x.core with svc := v }) ∧
      ∀ k, ¬ forceKey k → (close x).reg k = x.reg k := by
    unfold close
    dsimp only
    split
    · exact ⟨⟨_, rfl, (clearForces_keeps _).1⟩, (clearForces_keeps _).2⟩
    · exact ⟨⟨_, rfl, rfl⟩, fun _ _ => rfl⟩
  refine ⟨s1, ?_, rfl, fun d => by cases d <;> exact hclose _⟩
  have h2 : KeepsCore s1 s2 := (masterReset ..).trans (.masterReset ..)
  split
  · split <;> exact h2
  · exact .refl s1

/-! ## The mirror link goes down, requests end, messages go to the bank dies -/

theorem mirrorSeenDown (s : State) (d : DieId) : KeepsCore s (mirrorSeenDown s d) := by
  unfold Machine.mirrorSeenDown
  split
  · have hf : (fun x : Die => { x.count Reg.RED_MIRROR_ERR F.RED_MIRROR_ERR_DOWNS with red := { x.red with mirrorDownSince := some s.ticks } }) =
        fun x => (x.count Reg.RED_MIRROR_ERR F.RED_MIRROR_ERR_DOWNS).onRed (fun r => { r with mirrorDownSince := some s.ticks }) :=
      funext fun x => by rw [Die.onRed, Die.count_red]
    rw [hf, ← State.onDie_onDie s d (fun x => x.count _ _) (fun x => x.onRed _)]
    have hcount : KeepsCore s (s.onDie d (fun x => x.count Reg.RED_MIRROR_ERR F.RED_MIRROR_ERR_DOWNS)) :=
      .word s d ⟨by decide, by decide⟩ (fun x => x.core_count ..) fun x _ hj => x.reg_count_other hj _ _
    refine hcount.trans (.trans (.outside _ d (fun _ => ?_) (fun _ => ?_)) (.ruleAlone ..)) <;> rfl
  · exact .refl s

theorem claimEnds (s : State) (d : DieId) : KeepsCore s (claimEnds s d) := by
  unfold Machine.claimEnds
  split
  · split
    · split
      · exact .finish ..
      · exact .refl s
    · exact .refl s
  · exact .refl s

theorem sendBanks (s : State) (d : DieId) (kind : Nat) : KeepsCore s (sendBanks s d kind) := by
  refine .foldl _ (fun t b => ?_) _ s
  split
  · exact .emit ..
  · exact .refl t

/-- Requests that a former Declarer has begun end or are dropped (R430). -/
theorem leaveCommands (s : State) (d : DieId) : KeepsCore s (leaveCommands s d) := by
  have drop (t : State) (g : Die → List Cmd) : KeepsCore t (t.onDie d (fun x => { x with cmds := g x })) := .outside t d (fun _ => rfl) (fun _ => rfl)
  refine .foldl _ (fun t c => ?_) _ s
  split
  · split
    · exact drop ..
    · exact .finish ..
  · exact drop ..

theorem dropBankLinks (s : State) (d : DieId) : KeepsCore s (dropBankLinks s d) :=
  .foldl _ (fun t b => .of_dies (t.die_onBank b _) rfl) _ s

/-! ## What the core holds -/

section Fields
variable (h : KeepsCore s t) (d : DieId)
include h

theorem die_life : (t.die d).life = (s.die d).life := (congrArg Die.life (h.core d) :)
theorem die_trans : (t.die d).trans = (s.die d).trans := (congrArg Die.trans (h.core d) :)
theorem die_dealer : (t.die d).dealer = (s.die d).dealer := (congrArg Die.dealer (h.core d) :)
theorem die_svc : (t.die d).svc = (s.die d).svc := (congrArg Die.svc (h.core d) :)
theorem die_thm : (t.die d).thm = (s.die d).thm := (congrArg Die.thm (h.core d) :)
theorem die_takeover : (t.die d).red.takeover = (s.die d).red.takeover := (congrArg (·.red.takeover) (h.core d) :)
theorem running : (t.die d).running = (s.die d).running := by unfold Die.running; rw [h.die_life d]
theorem base : (t.die d).base = (s.die d).base := h.mode d _ (by decide)
theorem role : (t.die d).role = (s.die d).role := h.mode d _ (by decide)

end Fields
end KeepsCore

/-! ## The reset of a control die (R495, R497, R499) -/

/-- A die in reset: held since the present tick, with the cause of its reset. -/
theorem Die.inReset_held (x : Die) (d : DieId) (kind ticks : Nat) :
    (x.inReset d kind ticks).life = .held kind ticks ∧ (x.inReset d kind ticks).reg Reg.RST_CAUSE = resetCause kind := by
  unfold Die.inReset
  refine ⟨Die.setReg_life .., ?_⟩
  rw [Die.reg_setReg_same]
  unfold resetCause
  split_ifs <;> rfl

/-- A reset that is not absorbed holds the die, with its cause, and takes the mirror link down. -/
theorem dieReset_holds {s : State} {d : DieId} {kind : Nat} (h : (s.die d).running = true ∨ kind = 2) :
    ((dieReset s d kind).die d).life = .held kind s.ticks ∧ ((dieReset s d kind).die d).reg Reg.RST_CAUSE = resetCause kind ∧
      (dieReset s d kind).mirror = Link.down := by
  have hnot : ¬ (!(s.die d).running && decide (kind ≠ 2)) = true := by rcases h with h | h <;> simp [h]
  unfold dieReset
  extract_lets x up s0 s1 s2
  rw [if_neg hnot]
  have h1 : KeepsCore (s0.onDie d (fun x => x.inReset d kind s.ticks)) s2 := (KeepsCore.dropBankLinks _ d).trans (.setMirror _ _)
  have h2 : KeepsCore s2 (if up then mirrorSeenDown s2 d.peer else s2) ∧ (if up then mirrorSeenDown s2 d.peer else s2).mirror = Link.down := by
    split
    · exact ⟨.mirrorSeenDown .., (KeepsLinks.mirrorSeenDown ..).mirror⟩
    · exact ⟨.refl s2, rfl⟩
  have h3 := h1.trans h2.1
  obtain ⟨hlife, hcause⟩ := (s0.die d).inReset_held d kind s.ticks
  refine ⟨?_, ?_, h2.2⟩
  · rw [h3.die_life, State.die_onDie_same, hlife]
  · rw [h3.regs d _ (by decide), State.die_onDie_same, hcause]

end Sys2Proof.Machine
end

section
/-!
PROOFS. Heartbeats and what their absence means (R422, R423), the absence of the peer (R471) and the health report (R438).
-/

namespace Sys2Proof.Machine

/-! ## The mode word as it is asked for -/

/-- A field of the mode word holds what a change asks for. -/
theorem setMode_field (s : State) (d : DieId) (f : Nat → Nat) {g : Fld} (hg : g ∈ modeFields) (hp : g ≠ F.RED_MODE_PREV_BASE) :
    ((setMode s d f).die d).rf Reg.RED_MODE g = fget g (f ((s.die d).reg Reg.RED_MODE)) := by
  obtain ⟨w, hw, hr⟩ := setMode_makes s d f
  have hb : g.lo ≤ g.hi ∧ g.hi < 32 := by
    simp only [modeFields, List.mem_cons, List.not_mem_nil, or_false] at hg
    rcases hg with rfl | rfl | rfl | rfl | rfl | rfl <;> decide
  rw [hr.mode d g hg, State.die_onDie_same, Die.rf, Die.reg_setReg_same, fget_mod g 32 w hb.1 hb.2, hw g hg hp]

theorem setMode_die_other (s : State) {d e : DieId} (he : e ≠ d) (f : Nat → Nat) {g : Fld} (hg : g ∈ modeFields) :
    ((setMode s d f).die e).rf Reg.RED_MODE g = (s.die e).rf Reg.RED_MODE g := by
  obtain ⟨w, -, hr⟩ := setMode_makes s d f
  rw [hr.mode e g hg, State.die_onDie_other s he]

theorem setMode_mirror (s : State) (d : DieId) (f : Nat → Nat) : (setMode s d f).mirror = s.mirror := by
  obtain ⟨w, -, hr⟩ := setMode_makes s d f
  rw [hr.mirrorLink, State.onDie_mirror]

/-! ## The clock of a slave -/

/-- A slave's phase is not a part of a die beside its clock. -/
theorem slaveClock_die_eq {α : Type} (π : Die → α) (hπ : ∀ (x : Die) c, π { x with clock := c } = π x) (s : State) (d e : DieId) :
    π ((slaveClock s d).die e) = π (s.die e) := by
  unfold slaveClock
  extract_lets p
  split
  · exact die_onDie_keeps π (fun x => hπ x _) s d e
  · rfl

/-- A slave's clock and increment are not its registers of the redundancy unit. -/
theorem followClock_keeps (s : State) (d e : DieId) : ((followClock s d).die e).red = (s.die e).red ∧
    (∀ k, k < Reg.TIM_INCR ∨ Reg.TIM_INCR + 4 < k → ((followClock s d).die e).reg k = (s.die e).reg k) ∧ (followClock s d).mirror = s.mirror := by
  have hmir : (slaveClock s d).mirror = s.mirror := by
    unfold slaveClock
    extract_lets p
    split
    · exact s.onDie_mirror ..
    · rfl
  unfold followClock
  refine ⟨(die_onDie_keeps (·.red) (by intro; rfl) _ d e).trans (slaveClock_die_eq (·.red) (fun _ _ => rfl) s d e), fun k hk => ?_,
    (State.onDie_mirror ..).trans hmir⟩
  refine (die_onDie_keeps (·.reg k) (fun x => ?_) _ d e).trans (slaveClock_die_eq (·.reg k) (fun _ _ => rfl) s d e)
  exact (Die.reg_setReg_other _ (by omega) _).trans (Die.reg_setReg_other _ (by omega) _)

/-! ## Heartbeats -/

section Beats
variable {s : State} {d : DieId}

theorem heartbeatSend_idle (h : (s.die d).running = false ∨ s.mirror.state ≠ 2 ∨ ((s.die d).red.hbSent ≠ 0 ∧ s.ticks - (s.die d).red.hbSent < usT)) :
    heartbeatSend d s = s := by
  refine if_pos ?_
  rcases h with h | h | ⟨h0, h⟩
  · simp [h]
  · simp [h]
  · simp [h0, h]

/-- The tick of a heartbeat and the heartbeat itself. -/
def beatSent (s : State) (d : DieId) : State :=
  (s.onDie d (fun x => x.onRed (fun r => { r with hbSent := s.ticks }))).emit (.heartbeat d (BitVec.ofNat 32 ((s.die d).reg Reg.RED_MODE)))

/-- The peer's window and its view of a die that sent a heartbeat. -/
def beatSeen (x : Die) (ticks : Nat) (y : Die) : Die :=
  (y.onRed (fun r =>
    { r with hbSeen := true, window := r.window + (ticks - r.window) / usT * usT, peerMode := BitVec.ofNat 32 (x.reg Reg.RED_MODE),
             peerOfs := signedOf 32 (x.reg Reg.TIM_SLAVE_OFS), peerLost := false,
             absentSince := if x.role = 0 then r.absentSince else none })).setRf Reg.RED_STATUS F.RED_STATUS_HB_MISS 0

/-- The peer has seen a heartbeat on a sound link. -/
def beatArrived (s : State) (d : DieId) : State :=
  let s2 := (beatSent s d).onDie d.peer (beatSeen (s.die d) s.ticks)
  setModeF { s2 with mirror := { s2.mirror with bad := 0 } } d.peer F.RED_MODE_PEER_OK 1

variable (hr : (s.die d).running = true) (hm : s.mirror.state = 2) (ht : (s.die d).red.hbSent = 0 ∨ usT ≤ s.ticks - (s.die d).red.hbSent)
include hr hm ht

theorem heartbeatSend_due : heartbeatSend d s =
    if (s.die d.peer).running then
      if (s.die d).isDecl && (((beatArrived s d).die d.peer).isDummy || ((beatArrived s d).die d.peer).inResync)
      then followClock (beatArrived s d) d.peer else beatArrived s d
    else beatSent s d := by
  have hdue : ¬ (!(s.die d).running || (decide ((s.die d).red.hbSent ≠ 0) && decide (s.ticks - (s.die d).red.hbSent < usT)) ||
      decide (s.mirror.state ≠ 2)) = true := by
    rcases ht with h | h <;> simp [hr, hm, h, Nat.not_lt.2]
  refine (if_neg hdue).trans ?_
  cases (s.die d.peer).running
  · exact (if_pos (by decide)).trans (if_neg (by decide)).symm
  · exact (if_neg (by decide)).trans (if_pos rfl).symm

end Beats

theorem beatSeen_red (x : Die) (ticks : Nat) (y : Die) : (beatSeen x ticks y).red.hbSeen = true ∧
    (beatSeen x ticks y).red.peerMode = BitVec.ofNat 32 (x.reg Reg.RED_MODE) ∧ (beatSeen x ticks y).red.peerLost = false := by
  unfold beatSeen
  rw [Die.setRf_red]
  exact ⟨rfl, rfl, rfl⟩

/-- What the peer holds when it has seen a heartbeat. -/
theorem beatArrived_peer (s : State) (d : DieId) : let t := beatArrived s d; let y := t.die d.peer
    y.red.hbSeen = true ∧ y.red.peerMode = BitVec.ofNat 32 ((s.die d).reg Reg.RED_MODE) ∧ y.red.peerLost = false ∧
      y.rf Reg.RED_STATUS F.RED_STATUS_HB_MISS = 0 ∧ y.rf Reg.RED_MODE F.RED_MODE_PEER_OK = 1 ∧ t.mirror.bad = 0 := by
  obtain ⟨u, hu, ht, hb⟩ : ∃ u, u.die d.peer = beatSeen (s.die d) s.ticks ((beatSent s d).die d.peer) ∧
      beatArrived s d = setModeF u d.peer F.RED_MODE_PEER_OK 1 ∧ u.mirror.bad = 0 := by
    refine ⟨_, ?_, rfl, rfl⟩
    rw [← State.die_onDie_same (beatSent s d) d.peer (beatSeen (s.die d) s.ticks)]
    cases d <;> rfl
  rw [ht]
  obtain ⟨hseen, hmode, hlost⟩ := beatSeen_red (s.die d) s.ticks ((beatSent s d).die d.peer)
  have red {α : Type} (π : Red → α) (hπ : ∀ x : Die, π x.quiet.red = π x.red) : π ((setModeF u d.peer F.RED_MODE_PEER_OK 1).die d.peer).red = π (u.die d.peer).red :=
    setMode_die_eq u d.peer d.peer _ (fun x => π x.red) hπ
  refine ⟨?_, ?_, ?_, ?_, ?_, ?_⟩
  · rw [red (·.hbSeen) fun _ => rfl, hu, hseen]
  · rw [red (·.peerMode) fun _ => rfl, hu, hmode]
  · rw [red (·.peerLost) fun _ => rfl, hu, hlost]
  · rw [Die.rf, setModeF, setMode_reg u d.peer d.peer _ (by decide), hu]
    exact Die.rf_setRf_same _ Reg.RED_STATUS (by decide) (by decide) 0
  · exact (setMode_field u d.peer _ (by decide) (by decide)).trans (fget_fput_same (f := F.RED_MODE_PEER_OK) (by decide) _ 1)
  · rw [setModeF, setMode_mirror, hb]

section Misses
variable {s : State} {d : DieId}

theorem heartbeatMiss_early (h : (s.die d).running = false ∨
    s.ticks < (if (s.die d).red.hbSeen then (s.die d).red.window + usT else (s.die d).red.window) + usT) : heartbeatMiss d s = s := by
  refine if_pos ?_
  rcases h with h | h <;> simp [h]

theorem heartbeatMiss_due (hr : (s.die d).running = true) {w : Nat} (hw : w = if (s.die d).red.hbSeen then (s.die d).red.window + usT else (s.die d).red.window)
    (ht : w + usT ≤ s.ticks) {n : Nat} (hn : n = min 15 ((s.die d).rf Reg.RED_STATUS F.RED_STATUS_HB_MISS + 1)) {s1 : State}
    (h1 : s1 = s.onDie d (fun x => (((x.onRed (fun r => { r with hbSeen := false, window := w + usT })).setRf Reg.RED_STATUS
      F.RED_STATUS_HB_MISS n).count Reg.RED_HB_CNT F.RED_HB_CNT_MISSED).addTotal 1)) :
    heartbeatMiss d s = if 4 ≤ n && (s.die d).peerOk then peerLoss s1 d else s1 := by
  subst hw hn h1
  refine if_neg ?_
  simp [hr, Nat.not_lt.2 ht]

end Misses

/-! ## The replacement request (R471) -/

/-- Settling a die puts its replacement request where the state gives it. -/
theorem settleDie_repl {s : State} {d : DieId} (hr : (s.die d).running = true) : ((settleDie s d).die d).flt.repl = replNow s d := by
  unfold settleDie
  rw [if_pos hr]
  have hlevels := settleLevels d levelSources (fun _ h => h) (List.Nodup.filter _ List.nodup_range)
    (s.onDie d (fun x => { x with flt := { x.flt with repl := replNow s d } }))
  refine (setModeId_keeps _ d).2.1.trans (hlevels.2.2.1.trans ?_)
  rw [State.die_onDie_same]

/-- With no Dummy, a running die keeps the two conditions that PEER_ABSENCE_TIMEOUT raises. -/
theorem settle_repl_old {s : State} {d : DieId} (hr : (s.die d).running = true) (h0 : s.cd0.isDummy = false) (h1 : s.cd1.isDummy = false) :
    ((settle s).die d).flt.repl.getLsbD rpCdie = (s.die d).flt.repl.getLsbD rpCdie ∧
      ((settle s).die d).flt.repl.getLsbD rpMirror = (s.die d).flt.repl.getLsbD rpMirror := by
  have keeps {t : State} (h0 : t.cd0.isDummy = false) (h1 : t.cd1.isDummy = false) (d : DieId) :
      (replNow t d).getLsbD rpCdie = (t.die d).flt.repl.getLsbD rpCdie ∧ (replNow t d).getLsbD rpMirror = (t.die d).flt.repl.getLsbD rpMirror := by
    obtain ⟨hc, hm⟩ := replNow_old t d
    simp [hc, hm, h0, h1]
  let u := settleDie s .cd0
  have hu : OnlyRecords s u := .settleDie s .cd0
  cases d with
  | cd0 =>
    have hset : ((settle s).die .cd0).flt.repl = replNow s .cd0 := (congrArg (·.flt.repl) (settleDie_other u (by decide))).trans (settleDie_repl hr)
    rw [hset]
    exact keeps h0 h1 .cd0
  | cd1 =>
    have hsame : u.die .cd1 = s.die .cd1 := settleDie_other s (by decide)
    have hset : ((settle s).die .cd1).flt.repl = replNow u .cd1 := settleDie_repl (by rw [hsame]; exact hr)
    rw [hset, ← hsame]
    exact keeps ((hu.isDummy .cd0).trans h0) ((hu.isDummy .cd1).trans h1) .cd1

/-- A tick is more than 100 ms ago. -/
def longAgo (s : State) (t : Option Nat) : Bool := match t with | some t => decide (100 * msT < s.ticks - t) | none => false

theorem longAgo_some {s : State} {t : Option Nat} {a : Nat} (ha : t = some a) (h : 100 * msT < s.ticks - a) : longAgo s t = true := by
  subst ha
  exact decide_eq_true h

theorem longAgo_of_recent {s : State} {t : Option Nat} (h : ∀ a, t = some a → s.ticks - a ≤ 100 * msT) : longAgo s t = false := by
  cases t with
  | none => rfl
  | some a => exact decide_eq_false (Nat.not_lt.2 (h a rfl))

/-- The absence of the peer and of the link each raise their own condition. -/
theorem peerAbsence_repl {s : State} {d : DieId} (hr : (s.die d).running = true) : let y := (peerAbsence d s).die d; let x := s.die d
    y.flt.repl.getLsbD rpCdie = (longAgo s x.red.absentSince || x.flt.repl.getLsbD rpCdie) ∧
      y.flt.repl.getLsbD rpMirror = (longAgo s x.red.mirrorDownSince || x.flt.repl.getLsbD rpMirror) := by
  have hrow : peerAbsence d s = s.onDie d (fun x => x.onFlt (fun f => { f with
      repl := (if longAgo s (s.die d).red.absentSince then f.repl ||| BitVec.ofNat 8 (2 ^ rpCdie) else f.repl) |||
        (if longAgo s (s.die d).red.mirrorDownSince then BitVec.ofNat 8 (2 ^ rpMirror) else 0) })) := if_neg (by simp [hr])
  have bits (a b : Bool) (r : BitVec 8) :
      let w := (if a then r ||| BitVec.ofNat 8 (2 ^ rpCdie) else r) ||| (if b then BitVec.ofNat 8 (2 ^ rpMirror) else 0)
      w.getLsbD rpCdie = (a || r.getLsbD rpCdie) ∧ w.getLsbD rpMirror = (b || r.getLsbD rpMirror) := by
    have own : (BitVec.ofNat 8 (2 ^ rpCdie)).getLsbD rpCdie = true ∧ (BitVec.ofNat 8 (2 ^ rpMirror)).getLsbD rpMirror = true ∧
        (BitVec.ofNat 8 (2 ^ rpCdie)).getLsbD rpMirror = false ∧ (BitVec.ofNat 8 (2 ^ rpMirror)).getLsbD rpCdie = false := by decide
    obtain ⟨hcc, hmm, hcm, hmc⟩ := own
    cases a <;> cases b <;> simp only [BitVec.getLsbD_or, hcc, hmm, hcm, hmc, if_true, if_false, Bool.false_eq_true, Bool.or_false, Bool.or_true,
      Bool.false_or, Bool.true_or, and_self, BitVec.ofNat_eq_ofNat, BitVec.getLsbD_zero]
  dsimp only
  rw [hrow, State.die_onDie_same]
  exact bits _ _ _

theorem peerAbsence_keeps (s : State) (d e : DieId) : ((peerAbsence d s).die e).isDummy = (s.die e).isDummy ∧
    ((peerAbsence d s).die e).running = (s.die e).running := by
  unfold peerAbsence
  extract_lets x past
  split
  · exact ⟨rfl, rfl⟩
  · exact ⟨die_onDie_keeps Die.isDummy (by intro; rfl) s d e, die_onDie_keeps Die.running (by intro; rfl) s d e⟩

/-! ## The health report (R438) -/

theorem healthReport_early {s : State} {d : DieId} (h : (s.die d).running = false ∨ s.ticks - (s.die d).red.lastReport < secT) : healthReport d s = s := by
  refine if_pos ?_
  rcases h with h | h <;> simp [h]

/-- A report is an event and the totals from which the next one counts. -/
theorem healthReport_due {s : State} {d : DieId} (hr : (s.die d).running = true) (ht : secT ≤ s.ticks - (s.die d).red.lastReport) :
    OnlyRecords (s.onDie d (fun x => x.onRed (fun r => { r with last := x.healthTotals, lastReport := s.ticks }))) (healthReport d s) := by
  have hrow : healthReport d s = if !(s.die d).running || s.ticks - (s.die d).red.lastReport < secT then s else _ := rfl
  rw [hrow, if_neg (by simp [hr, Nat.not_lt.2 ht])]
  exact .event _ d _ _

/-- Settles O32: each row by its conditions; after PEER_ABSENCE_TIMEOUT, by what settling keeps of the replacement request. -/
theorem heartbeats : Obligations.Heartbeats := by
  unfold Obligations.Heartbeats
  intro d s x
  refine ⟨fun hr => ⟨.of_row rfl (heartbeatSend_idle (.inl hr)), .of_row rfl (heartbeatMiss_early (.inl hr)), .of_row rfl (if_neg (by simp [x, hr])),
      .of_row rfl (if_pos (by simp [x, hr])), .of_row rfl (healthReport_early (.inl hr))⟩,
    fun hr => ⟨fun hm => .of_row rfl (heartbeatSend_idle (.inr (.inl hm))), fun h0 ht => .of_row rfl (heartbeatSend_idle (.inr (.inr ⟨h0, ht⟩))),
      fun hm ht hp => .of_row rfl ((heartbeatSend_due hr hm ht).trans (if_neg (by simp [hp]))), fun hm ht hp => ?seen, ⟨?early, ?missed⟩,
      .of_row rfl (if_pos hr), ?reset, fun h => ?absent, fun ht => .of_row rfl (healthReport_early (.inr ht)), fun ht => .intro rfl (healthReport_due hr ht)⟩⟩
  case seen =>
    let u := beatArrived s d
    obtain ⟨v, hv, hred, hreg, hmir⟩ : ∃ v, heartbeatSend d s = v ∧ (v.die d.peer).red = (u.die d.peer).red ∧
        (∀ k, k < Reg.TIM_INCR ∨ Reg.TIM_INCR + 4 < k → (v.die d.peer).reg k = (u.die d.peer).reg k) ∧ v.mirror = u.mirror := by
      refine ⟨_, (heartbeatSend_due hr hm ht).trans (if_pos hp), ?_⟩
      split
      · exact followClock_keeps u d.peer d.peer
      · exact ⟨rfl, fun _ _ => rfl, rfl⟩
    obtain ⟨hseen, hmode, hlost, hmiss, hok, hbad⟩ := beatArrived_peer s d
    refine .of_done (congrArg done hv) fun t ht => ?_
    have red {α : Type} (π : Red → α) (hπ : ∀ x : Die, π x.quiet.red = π x.red) : π (t.die d.peer).red = π (u.die d.peer).red := by
      rw [ht.die_eq d.peer (fun x => π x.red) hπ, hred]
    refine ⟨(red (·.hbSeen) fun _ => rfl).trans hseen, (red (·.peerMode) fun _ => rfl).trans hmode, (red (·.peerLost) fun _ => rfl).trans hlost, ?_, ?_, ?_⟩
    · rw [Die.rf, ht.regs d.peer _ (by decide), hreg _ (by decide)]
      exact hmiss
    · rw [ht.mode d.peer _ (by decide), Die.rf, hreg _ (by decide)]
      exact hok
    · rw [ht.mirrorLink, hmir]
      exact hbad
  case early => exact fun ht => .of_row rfl (heartbeatMiss_early (.inr ht))
  case missed =>
    intro ht n s1
    have hdue := heartbeatMiss_due hr rfl ht (n := n) rfl (s1 := s1) rfl
    refine ⟨fun h => .of_row rfl (hdue.trans (if_neg ?_)), fun hn hp => .of_row rfl (hdue.trans (if_pos ?_))⟩
    · rcases h with h | h
      · simp [Nat.not_le.2 h]
      · simp [x] at h; simp [h]
    · simp [x] at hp; simp [hn, hp]
  case reset =>
    obtain ⟨hlife, -, hmir⟩ := dieReset_holds (kind := 4) (.inl hr)
    refine .of_done (congrArg done (if_pos hr)) fun t ht => ⟨?_, ?_, ht.mirrorLink.trans hmir⟩
    · rw [ht.die_life, hlife]
    · rw [ht.running, Die.running, hlife]
  case absent =>
    have hk (e : DieId) := peerAbsence_keeps s d e
    obtain ⟨hc, hm⟩ := settle_repl_old ((hk d).2.trans hr) ((hk .cd0).1.trans h.1) ((hk .cd1).1.trans h.2)
    obtain ⟨hc', hm'⟩ := peerAbsence_repl hr
    refine ⟨_, rfl, fun a ha hlong => ?_, fun hrecent => ?_, fun a ha hlong => ?_, fun hrecent => ?_⟩
    · rw [hc, hc', longAgo_some ha hlong, Bool.true_or]
    · rw [hc, hc', longAgo_of_recent hrecent, Bool.false_or]
    · rw [hm, hm', longAgo_some ha hlong, Bool.true_or]
    · rw [hm, hm', longAgo_of_recent hrecent, Bool.false_or]

end Sys2Proof.Machine
end

section
/-!
PROOFS. Claims of the drive token and what ends them (R64, R268, R269, R424, R427, R428).
-/

namespace Sys2Proof.Machine

/-! ## Solo checks (R424) -/

section Solo
variable {s : State} {d : DieId}

theorem soloCheck_idle (h : (s.die d).isDecl = false ∨ (s.die d).taking = true ∨ (s.die d).red.peerLost = false ∨ (s.die d).solo = true ∨
    s.ticks - (s.die d).red.lostAt < 10 * usT) : soloCheck d s = s := by
  refine if_pos ?_
  rcases h with h | h | h | h | h <;> simp [h]

/-- The answers of the bank dies decide. -/
theorem soloCheck_due (hd : (s.die d).isDecl = true) (ht : (s.die d).taking = false) (hl : (s.die d).red.peerLost = true) (hs : (s.die d).solo = false)
    (h : 10 * usT ≤ s.ticks - (s.die d).red.lostAt) {asked : List Nat} (ha : asked = (List.range 8).filter (fun b => (s.bank b).up d)) :
    soloCheck d s = if asked.any (fun b => (s.bank b).holds d.peer) then depose s d false
      else if asked.all (fun b => (s.bank b).holds d) then confirmAcks (s.setRf d Reg.RED_STATUS F.RED_STATUS_SOLO 1) d else s := by
  subst ha
  exact if_neg (by simp [hd, ht, hl, hs, Nat.not_lt.2 h])

end Solo

/-! ## Claims (R427) -/

/-- Claims to the bank dies that have not granted. -/
def sendClaims (s : State) (d : DieId) : State :=
  (List.range 8).foldl (fun s b => if (s.bank b).up d && !(s.bank b).holds d then s.emit (.bank d b mClaim []) else s) s

section Claims
variable {s : State} {d : DieId}

theorem sendClaims_of_held (h : ∀ b < 8, (s.bank b).up d = true → (s.bank b).holds d = true) : sendClaims s d = s := by
  have fold (l : List Nat) (hl : ∀ b ∈ l, b < 8) :
      l.foldl (fun s b => if (s.bank b).up d && !(s.bank b).holds d then s.emit (.bank d b mClaim []) else s) s = s := by
    induction l with
    | nil => rfl
    | cons b l ih =>
      have hb : ¬ ((s.bank b).up d && !(s.bank b).holds d) = true := by
        cases hu : (s.bank b).up d
        · simp
        · simp [h b (hl b (by simp)) hu]
      rw [List.foldl_cons, if_neg hb]
      exact ih fun c hc => hl c (List.mem_cons_of_mem b hc)
  exact fold _ (by simp)

theorem claimRepeat_none (h : (s.die d).red.takeover = none) :
    claimRepeat d s = if (s.die d).isDecl && (s.die d).running then sendClaims s d else s := by
  simp only [claimRepeat, h]
  rfl

theorem claimRepeat_some {t : Takeover} (h : (s.die d).red.takeover = some t) : claimRepeat d s =
    if t.claimant && decide (usT ≤ s.ticks - t.lastClaim) then
      sendClaims (s.onDie d (fun x => x.onTakeover (fun t => { t with lastClaim := s.ticks }))) d
    else s := by
  simp only [claimRepeat, h]
  rfl

theorem claimAbandon_none (h : (s.die d).red.takeover = none) : claimAbandon d s = s := by simp only [claimAbandon, h]

theorem claimAbandon_idle {t : Takeover} (h : (s.die d).red.takeover = some t)
    (hi : t.claimant = false ∨ t.refused ≠ BitVec.allOnes 8 ∨ s.ticks - t.since < 10 * usT) : claimAbandon d s = s := by
  simp only [claimAbandon, h]
  refine if_pos ?_
  simp only [Bool.or_eq_true, Bool.not_eq_true', decide_eq_true_eq, or_assoc]
  exact hi

/-- A claim abandoned with no command behind it. -/
theorem claimAbandon_due {t : Takeover} (h : (s.die d).red.takeover = some t) (hc : t.claimant = true) (hr : t.refused = BitVec.allOnes 8)
    (ht : 10 * usT ≤ s.ticks - t.since) (hn : t.cmd = none) : claimAbandon d s =
      takeoverEvent (raise (setRole (s.onDie d (fun x => (x.onRed (fun r => { r with takeover := none })).setRf Reg.RED_STATUS
        F.RED_STATUS_ABANDONED 1)) d 0 0) d 190) d 3 d.peer 0 := by
  simp only [claimAbandon, h, hn]
  exact if_neg (by simp [hc, hr, Nat.not_lt.2 ht])

end Claims

/-- A role asked for without TAKEOVER, other than Declarer, and what the change leaves. -/
theorem setRole_role (s : State) (d : DieId) {role : Nat} (h : role = 0 ∨ role = 2) :
    ((setRole s d role 0).die d).rf Reg.RED_MODE F.RED_MODE_ROLE = role := by
  unfold setRole
  rw [setMode_field _ d _ (by decide) (by decide), fget_fput_other _ _ (by decide) (by decide) (by decide), fget_fput_same _ (by decide)]
  rcases h with rfl | rfl <;> rfl

/-! ## Answers of the bank dies (R64, R268, R428) -/

section Tokens
variable {s : State} {d : DieId} {b : Nat}

theorem tokenRefused_idle (h : (s.die d).running = false ∨ (s.bank b).up d = false ∨ (s.bank b).holder ≠ some d.peer) : tokenRefused d b s = s := by
  refine if_pos ?_
  rcases h with h | h | h <;> simp [h]

theorem tokenRefused_due (hr : (s.die d).running = true) (hu : (s.bank b).up d = true) (hh : (s.bank b).holder = some d.peer) :
    tokenRefused d b s = match (s.die d).red.takeover with
      | some t =>
        if t.claimant then s.onDie d (fun x => x.onTakeover (fun t => { t with refused := t.refused ||| BitVec.ofNat 8 (2 ^ b) }))
        else if !(s.die d).isDecl then s
        else if t.yieldAt.isSome then setRole s d 2 0
        else match t.resetAfter with
          | some r => dieReset (depose s d true) d r
          | none => depose s d true
      | none => if (s.die d).isDecl then depose s d true else s := if_neg (by simp [hr, hu, hh])

/-- Without a takeover of its own, only a Declarer is deposed. -/
theorem tokenRefused_bystander (h : (s.die d).red.takeover = none) (hd : (s.die d).isDecl = false) : tokenRefused d b s = s := by
  unfold tokenRefused
  extract_lets x k
  split
  · rfl
  · simp [x, h, hd]

theorem tokenGranted_none (h : (s.die d).red.takeover = none) :
    tokenGranted d b s = if (s.die d).isDecl && (s.bank b).up d && (s.bank b).holds d then sendTables s d b else s := by
  simp only [tokenGranted, h]

theorem tokenGranted_idle {t : Takeover} (h : (s.die d).red.takeover = some t)
    (hi : t.claimant = false ∨ (s.bank b).up d = false ∨ (s.bank b).holds d = false ∨ t.granted.getLsbD b = true) : tokenGranted d b s = s := by
  simp only [tokenGranted, h]
  refine if_pos ?_
  rcases hi with hi | hi | hi | hi <;> simp [hi]

/-- A planned claim with no reset behind it takes the grant in and reconciles. -/
theorem tokenGranted_planned {t : Takeover} (h : (s.die d).red.takeover = some t) (hc : t.claimant = true) (hu : (s.bank b).up d = true)
    (hh : (s.bank b).holds d = true) (hg : t.granted.getLsbD b = false) (hp : t.planned = true) (hr : t.resetAfter = none) {g : BitVec 8}
    (hall : g = t.granted ||| BitVec.ofNat 8 (2 ^ b)) : tokenGranted d b s =
      reconcile (s.onDie d (fun x => x.onTakeover (fun t => { t with
        granted := g, refused := t.refused &&& ~~~ BitVec.ofNat 8 (2 ^ b), firstWrite := if g = BitVec.allOnes 8 then some s.ticks else none }))) d b := by
  subst hall
  have hidle : ¬ (!t.claimant || !(s.bank b).up d || !(s.bank b).holds d || t.granted.getLsbD b) = true := by simp [hc, hu, hh, hg]
  have hsolo : ¬ (!t.planned || t.resetAfter.isSome) = true := by simp [hp, hr]
  have hreset (u : State) : formerReset u d t = u := by simp only [formerReset, hr]
  simp only [tokenGranted, h]
  refine (if_neg hidle).trans ?_
  simp only [if_neg hsolo, hreset, ite_self]

end Tokens

/-! ## The overlap and the copies at a bank die (R268, R269) -/

section Overlap
variable {s : State} {b : Nat}

theorem overlapEnd_none (h : (s.bank b).overlap = none) : overlapEnd b s = s := by simp only [overlapEnd, h]

theorem overlapEnd_early {p : DieId} {e : Nat} (h : (s.bank b).overlap = some (p, e)) (ht : s.ticks < e) : overlapEnd b s = s := by
  simp only [overlapEnd, h]
  exact if_pos ht

/-- At the end of the overlap a holder that still claims reconciles again. -/
theorem overlapEnd_due {p : DieId} {e : Nat} (h : (s.bank b).overlap = some (p, e)) (ht : e ≤ s.ticks) {s1 : State}
    (h1 : s1 = s.onBank b (fun k => { k with overlap := none })) : overlapEnd b s =
      match (s.bank b).holder with
      | some h => if (s.die h).taking && (s.die h).hasToken then reconcile s1 h b else s1
      | none => s1 := by
  subst h1
  simp only [overlapEnd, h]
  exact if_neg (Nat.not_lt.2 ht)

end Overlap

/-- A missing copy counts at its bank die. -/
theorem bankDiff_bank (s : State) (b : Nat) : (bankDiff s b true).bank b = { s.bank b with missing := satAdd 16 (s.bank b).missing 1 } := by
  unfold bankDiff
  extract_lets s1 s2
  have h2 : s2.bank b = { s.bank b with missing := satAdd 16 (s.bank b).missing 1 } := by
    unfold s2 s1
    rw [State.bank_onDie, State.bank_onDie, State.bank_onBank_same]
    rfl
  split
  · unfold noteDiff
    dsimp only
    rw [State.bank_onDie, (OnlyRecords.raise s2 _ _ 0 (by decide)).bank, h2]
  · exact h2

theorem shadowCopyTimeout_one {s : State} {b : Nat} {c : Copy} (h : (s.bank b).copies.filter (fun c => decide (10 * usT < s.ticks - c.since)) = [c]) :
    shadowCopyTimeout b s = bankDiff (s.onBank b (fun k => { k with copies := k.copies.filter (fun e => e != c) })) b true := by
  unfold shadowCopyTimeout
  rw [h]
  rfl

/-- The copies left are those that have not waited 10 us. -/
theorem copies_recent {l : List Copy} {p : Copy → Bool} {c : Copy} (h : l.filter p = [c]) : l.filter (fun e => e != c) = l.filter (fun e => !p e) := by
  refine List.filter_congr fun e he => ?_
  have hmem : p e = true ↔ e = c := by
    have : e ∈ l.filter p ↔ e ∈ [c] := by rw [h]
    simpa [he] using this
  by_cases hc : e = c
  · rw [hmem.2 hc]
    simp [hc]
  · simp [hc, mt hmem.1 hc]

/-- Settles O33: each row by its conditions, in the order of the statement. -/
theorem claimsAndTokens : Obligations.ClaimsAndTokens := by
  unfold Obligations.ClaimsAndTokens
  refine ⟨fun d s => ⟨fun h => .of_row rfl (soloCheck_idle h), fun hd ht hl hs h => ⟨?peerHolds, ?solo⟩, fun b h => .of_row rfl (tokenRefused_idle h),
      fun hn => ⟨fun hd => .of_row rfl ((claimRepeat_none hn).trans (if_neg (by simp [hd]))), fun hd hr hall => ?held,
        fun hd hr => .of_row rfl ((claimRepeat_none hn).trans (if_pos (by simp [hd, hr]))), .of_row rfl (claimAbandon_none hn), fun b hd hr hu hh => ?deposed,
        fun b hd hu hh => ?tables, fun b hd => ⟨.of_row rfl (tokenRefused_bystander hn hd), .of_row rfl ((tokenGranted_none hn).trans (if_neg (by simp [hd])))⟩⟩,
      fun t ht => ⟨fun hc hl => .of_row rfl ((claimRepeat_some ht).trans (if_pos (by simp [hc, hl]))), fun h => .of_row rfl ((claimRepeat_some ht).trans (if_neg ?_)),
        fun h => .of_row rfl (claimAbandon_idle ht h), fun hc hr h hn => ?abandoned, fun b hc hr hu hh => ?counted, fun b hc hr hu hh => ?former,
        fun b hc hu hh hg hp hr hall => ?all, fun b hc hu hh hg hp hr hall => ?some, fun b h => .of_row rfl (tokenGranted_idle ht h)⟩⟩,
    fun b s => ⟨fun h => .of_row rfl (overlapEnd_none h), fun p e h => ⟨fun ht => .of_row rfl (overlapEnd_early h ht), fun ht hh => ?ended, fun q ht hq htk hto => ?again⟩,
      fun h => ?young, fun c h => ?missing⟩⟩
  case peerHolds =>
    rintro ⟨b, hb, hh⟩
    exact .of_row rfl ((soloCheck_due hd ht hl hs h rfl).trans (if_pos (List.any_eq_true.2 ⟨b, hb, hh⟩)))
  case solo =>
    intro hall
    have hany : ¬ ((List.range 8).filter (fun b => (s.bank b).up d)).any (fun b => (s.bank b).holds d.peer) = true := fun h => by
      obtain ⟨b, hb, hh⟩ := List.any_eq_true.1 h
      rw [(hall b hb).2] at hh
      cases hh
    exact .of_row rfl ((soloCheck_due hd ht hl hs h rfl).trans ((if_neg hany).trans (if_pos (List.all_eq_true.2 fun b hb => (hall b hb).1))))
  case held =>
    exact .of_row rfl ((claimRepeat_none hn).trans ((if_pos (by simp [hd, hr])).trans (sendClaims_of_held hall)))
  case deposed =>
    refine .of_row rfl ((tokenRefused_due hr hu hh).trans ?_)
    simp only [hn, hd, if_true]
  case tables => exact .of_row rfl ((tokenGranted_none hn).trans ((if_pos (by simp [hd, hu, hh])).trans (if_pos hu)))
  next => rcases h with h | h <;> simp [h]
  case abandoned =>
    let s1 := s.onDie d (fun x => (x.onRed (fun r => { r with takeover := none })).setRf Reg.RED_STATUS F.RED_STATUS_ABANDONED 1)
    have hrec : OnlyRecords (setRole s1 d 0 0) (claimAbandon d s) := by
      rw [claimAbandon_due ht hc hr h hn]
      exact (OnlyRecords.raise _ d 190 0 (by decide)).trans (.event ..)
    have hs1 : s1.die d = ((s.die d).onRed (fun r => { r with takeover := none })).setRf Reg.RED_STATUS F.RED_STATUS_ABANDONED 1 := State.die_onDie_same ..
    refine .of_done rfl fun u hu => ⟨?_, ?_, ?_⟩
    · rw [(hrec.trans hu).die_eq d (·.red.takeover) fun _ => rfl]
      refine (setMode_die_eq s1 d d _ (·.red.takeover) fun _ => rfl).trans ?_
      rw [hs1, Die.setRf_red]
      rfl
    · rw [Die.rf, (hrec.trans hu).regs d _ (by decide)]
      refine (congrArg (fget _) (setMode_reg s1 d d _ (by decide))).trans ?_
      rw [hs1]
      exact Die.rf_setRf_same _ Reg.RED_STATUS (by decide) (by decide) 1
    · rw [(hrec.trans hu).mode d _ (by decide)]
      exact setRole_role s1 d (.inl rfl)
  case counted =>
    refine .of_row rfl ((tokenRefused_due hr hu hh).trans ?_)
    simp only [ht, hc, if_true]
  case former =>
    have hrow := tokenRefused_due hr hu hh
    simp only [ht, hc, Bool.false_eq_true, if_false] at hrow
    refine ⟨fun hd => .of_row rfl (hrow.trans (if_pos (by simp [hd]))), fun hd hy => ?_, fun hd hy hn => ?_, fun r hd hy hn => ?_⟩ <;>
      refine .of_row rfl (hrow.trans ?_)
    · simp only [hd, hy, Bool.not_true, Bool.false_eq_true, if_false, if_true]
    · simp only [hd, hy, hn, Bool.not_true, Bool.false_eq_true, if_false, Option.isSome_none]
    · simp only [hd, hy, hn, Bool.not_true, Bool.false_eq_true, if_false, Option.isSome_none]
  case all =>
    refine .of_row rfl ((tokenGranted_planned ht hc hu hh hg hp hr hall.symm).trans ?_)
    rw [if_pos rfl]
  case some =>
    refine .of_row rfl ((tokenGranted_planned ht hc hu hh hg hp hr rfl).trans ?_)
    rw [if_neg hall]
    refine congrArg (fun u => reconcile u d b) (State.onDie_congr ?_)
    simp only [Die.onTakeover, Die.onRed, ht, Option.map_some]
  case ended =>
    refine .of_row rfl ((overlapEnd_due h ht rfl).trans ?_)
    split
    next q hq => rw [hh q hq]; rfl
    next => rfl
  case again =>
    refine .of_row rfl ((overlapEnd_due h ht rfl).trans ?_)
    simp only [hq, htk, hto, Bool.and_self, if_true]
  case young =>
    have hnil : (s.bank b).copies.filter (fun c => decide (10 * usT < s.ticks - c.since)) = [] :=
      List.filter_eq_nil_iff.2 fun c hc => by simp [Nat.not_lt.2 (h c hc)]
    refine .of_row rfl ?_
    unfold shadowCopyTimeout
    rw [hnil]
    rfl
  case missing =>
    have hone := shadowCopyTimeout_one h
    refine ⟨.of_row rfl hone, .of_done (congrArg done hone) fun t ht => ?_⟩
    have hbank : t.bank b = _ := (ht.bank b).trans (bankDiff_bank _ b)
    have hcopies := copies_recent h
    simp only [← decide_not, Nat.not_lt] at hcopies
    rw [hbank, State.bank_onBank_same]
    exact ⟨rfl, hcopies⟩

end Sys2Proof.Machine
end

section
/-!
PROOFS. What the loops leave of a die (Steady), and what the end of deals, checks, surveys and dither runs leaves (KeepsUnits): its units
beside the fabric, its role and its mode.
-/

namespace Sys2Proof.Machine

/-- A die without its functions, what recording and the comparison of copies write, its elements and their engines. -/
def Die.steady (x : Die) : Die :=
  { x with regs := [], fresh := [], fns := Vector.replicate 4 Fn.reset, flt := { x.flt with raw := 0, repl := 0, occ := [] },
           red := { x.red with nextSeq := 0, sent := [], totals := Vector.replicate 5 0, cmp := 0, cmpSec := 0 }, hold := [],
           eng := Engines.reset }

theorem Die.steady_quiet (x : Die) : x.quiet.steady = x.steady := rfl
theorem Die.steady_uncompared (x : Die) : x.uncompared.steady = x.steady := rfl

theorem State.die_uncompared (s : State) (b : Nat) (d : DieId) : (s.uncompared b).die d = (s.die d).uncompared := by
  unfold State.uncompared
  cases d
  · rw [State.die_onDie_other _ (by decide), State.die_onDie_same, State.die_onBank]
  · rw [State.die_onDie_same, State.die_onDie_other _ (by decide), State.die_onBank]

/-- The registers of the Light Guard that its commands write. -/
def guardKey (k : Nat) : Bool := decide (Reg.LGD_STATUS ≤ k) && decide (k < Reg.LGD_ZMAP 4 0) && decide (k ≠ Reg.LGD_REACT)

theorem recordKey_of_guardKey {k : Nat} (h : guardKey k = true) : recordKey k = false ∧ coreKey k = true := by
  have hk : 0x8000 ≤ k ∧ k < 0x8300 := by
    simp only [guardKey, Bool.and_eq_true, decide_eq_true_eq] at h
    exact ⟨h.1.1, h.1.2⟩
  have hr : recordKey k = false := by
    simp only [recordKey, Bool.or_eq_false_iff, beq_eq_false_iff_ne, Bool.and_eq_false_iff, decide_eq_false_iff_not, List.any_cons, List.any_nil,
      and_true]
    simp only [Reg.RED_MODE, Reg.FLT_STICKY, Reg.HIF_EV_LOST, Reg.HIF_TM_LOST, Reg.HIF_RING_MOD]
    omega
  refine ⟨hr, ?_⟩
  simp only [coreKey, hr, Reg.RED_ADOPT_DROP, Reg.RED_MIRROR_ERR, Bool.not_false, Bool.and_true, Bool.and_eq_true, Bool.not_eq_true', decide_eq_true_eq,
    decide_eq_false_iff_not, List.mem_cons, List.not_mem_nil, or_false]
  omega

/-- A count beyond the pages of the Light Guard and of the redundancy unit. -/
theorem count_apart {k : Nat} (h : guardKey k = false ∧ k ≠ Reg.RED_MODE) : ∀ j, j = Reg.RED_MODE ∨ guardKey j = true → k ≠ j := by
  rintro j (hj | hj) rfl
  · exact h.2 hj
  · rw [h.1] at hj
    cases hj

/-- From s to t the dies keep all but what the loops change. -/
structure Steady (s t : State) : Prop where
  die : ∀ d, (t.die d).steady = (s.die d).steady
  regs : ∀ d k, guardKey k = true → (t.die d).reg k = (s.die d).reg k
  mode : ∀ d, ∀ f ∈ modeFields, (t.die d).rf Reg.RED_MODE f = (s.die d).rf Reg.RED_MODE f

namespace Steady
variable {s t u : State}

theorem refl (s : State) : Steady s s := ⟨fun _ => rfl, fun _ _ _ => rfl, fun _ _ _ => rfl⟩

theorem trans (h : Steady s t) (k : Steady t u) : Steady s u :=
  ⟨fun d => (k.die d).trans (h.die d), fun d j hj => (k.regs d j hj).trans (h.regs d j hj), fun d f hf => (k.mode d f hf).trans (h.mode d f hf)⟩

theorem of_records (h : OnlyRecords s t) : Steady s t :=
  ⟨fun d => h.die_eq d Die.steady Die.steady_quiet, fun d k hk => h.regs d k (recordKey_of_guardKey hk).1, h.mode⟩

theorem of_dies (h : ∀ d, t.die d = s.die d) : Steady s t := ⟨fun d => by rw [h], fun d _ _ => by rw [h], fun d _ _ => by rw [h]⟩

theorem emit (s : State) (o : Out) : Steady s (s.emit o) := of_dies (s.die_emit o)

theorem onBank (s : State) (b : Nat) (f : Bank → Bank) : Steady s (s.onBank b f) := of_dies (s.die_onBank b f)

/-- Comparing the copies of a message. -/
theorem of_uncompared {b : Nat} (h : OnlyRecords (s.uncompared b) (t.uncompared b)) : Steady s t := by
  refine ⟨fun d => ?_, fun d k hk => ?_, fun d f hf => ?_⟩
  · have hd := h.die_eq d Die.steady Die.steady_quiet
    rwa [State.die_uncompared, State.die_uncompared, Die.steady_uncompared, Die.steady_uncompared] at hd
  · have hd := h.regs d k (recordKey_of_guardKey hk).1
    rwa [State.die_uncompared, State.die_uncompared] at hd
  · have hd := h.mode d f hf
    rwa [State.die_uncompared, State.die_uncompared] at hd

theorem foldl {α : Type} (g : State → α → State) (l : List α) (h : ∀ t, ∀ a ∈ l, Steady t (g t a)) (s : State) : Steady s (l.foldl g s) := by
  induction l generalizing s with
  | nil => exact .refl s
  | cons a l ih => exact (h s a (by simp)).trans (ih (fun t b hb => h t b (List.mem_cons_of_mem a hb)) _)

theorem onDie (s : State) (d : DieId) {f : Die → Die} (hs : ∀ x, (f x).steady = x.steady) (hm : ∀ x k, k = Reg.RED_MODE ∨ guardKey k = true → (f x).reg k = x.reg k) :
    Steady s (s.onDie d f) :=
  ⟨fun e => die_onDie_keeps Die.steady hs s d e, fun e k hk => die_onDie_keeps (fun x => x.reg k) (fun x => hm x k (.inr hk)) s d e,
    fun e g _ => congrArg (fget g) (die_onDie_keeps (fun x => x.reg Reg.RED_MODE) (fun x => hm x _ (.inl rfl)) s d e)⟩

/-! ## Elements and engines -/

theorem onElem (s : State) (d : DieId) (e : Nat) (f : Elem → Elem) : Steady s (s.onDie d (·.onElem e f)) := onDie s d (fun _ => rfl) fun _ _ _ => rfl

theorem onEng (s : State) (d : DieId) (f : Engines → Engines) : Steady s (s.onDie d (·.onEng f)) := onDie s d (fun _ => rfl) fun _ _ _ => rfl

theorem setEng (s : State) (d : DieId) (g : Engines) : Steady s (s.onDie d (fun x => { x with eng := g })) := onDie s d (fun _ => rfl) fun _ _ _ => rfl

theorem count (s : State) (d : DieId) {k : Nat} (h : ∀ j, j = Reg.RED_MODE ∨ guardKey j = true → k ≠ j) (f : Fld) (n : Nat) : Steady s (s.count d k f n) :=
  onDie s d (fun _ => rfl) fun x j hj => x.reg_count_other (fun e => h j hj e.symm) f n

theorem driveOut (s : State) (d : DieId) (e : Nat) (out : DriveOut) (code : Nat) (x2 : Bool) (group : Nat) : Steady s (driveOut s d e out code x2 group) := by
  unfold Machine.driveOut
  extract_lets el s1
  split
  · exact (onElem ..).trans (.emit ..)
  · exact .onElem ..

theorem loopOut (s : State) (d : DieId) (e : Nat) (out : DriveOut) (code : Nat) (x2 : Bool) (group : Nat) : Steady s (loopOut s d e out code x2 group) := by
  unfold Machine.loopOut
  split
  · exact .refl s
  · exact .driveOut ..

theorem strobeElem (s : State) (d : DieId) (e : Nat) : Steady s (strobeElem s d e) := by
  unfold Machine.strobeElem
  split
  · unfold strobePin strobeHeater
    exact (loopOut ..).trans (.loopOut ..)
  · exact .loopOut ..

theorem holderMsg (s : State) (p : DieId) (b kind elem n : Nat) (fields : List Nat) (drive : Bool) {f : State → State} (hf : ∀ t, Steady t (f t)) :
    Steady s (holderMsg s p b kind elem n fields drive f) := by
  unfold Machine.holderMsg
  extract_lets k s1
  split_ifs
  · exact .refl s
  · exact ((onBank s b _).trans (of_uncompared (.compareCopy ..))).trans (hf _)
  · exact (onBank s b _).trans (.emit ..)
  · exact of_uncompared (.compareCopy ..)

theorem readStore (s : State) (d : DieId) (e : Nat) : Steady s (readStore s d e).1 :=
  (holderMsg s d _ _ e _ [] false fun t => (onBank t _ _).trans ((emit ..).trans (.emit ..))).trans (.onElem ..)

theorem adoptOutputs (s : State) (d : DieId) (e : Nat) : Steady s (adoptOutputs s d e) := .onElem ..

theorem presetInt (s : State) (d : DieId) (e : Nat) : Steady s (presetInt s d e) := by
  unfold Machine.presetInt
  dsimp only
  split_ifs <;> exact onElem ..

theorem startRamp (s : State) (d : DieId) (e htr pin gate : Nat) : Steady s (startRamp s d e htr pin gate) := .onElem ..

/-- The bank die of an element is one of eight. -/
theorem bankOf_lt {e : Nat} (h : e < 5888) : bankOf e < 8 := by
  unfold bankOf
  split_ifs <;> omega

theorem missUpdate (s : State) (d : DieId) {e : Nat} (he : e < 5888) : Steady s (missUpdate s d e) := by
  unfold Machine.missUpdate
  extract_lets el s1
  have h1 : Steady s s1 := (onElem ..).trans (.count _ d (count_apart (by decide)) ..)
  have hb := bankOf_lt he
  split
  · exact h1.trans ((of_records (.raise _ d _ e (by omega))).trans (of_records (.elementEvent ..)))
  · exact h1

theorem placeTask (s : State) (d : DieId) {t : Task} (ht : t.elem < 5888) : Steady s (placeTask s d t) := by
  unfold Machine.placeTask placeIn
  extract_lets g
  split
  · extract_lets s1
    split
    · exact (setEng ..).trans (.count _ d (count_apart (by decide)) ..)
    · exact .setEng ..
  · exact (setEng ..).trans ((missUpdate _ d ht).trans (of_records (.raise _ d _ 0 (by decide))))

theorem queueTask (s : State) (d : DieId) {e : Nat} (he : e < 5888) (type : Nat) : Steady s (queueTask s d e type) := by
  unfold Machine.queueTask
  extract_lets g
  split
  · exact .onEng ..
  · exact .onEng ..
  · split
    · exact .onEng ..
    · rename_i t _ _ _ _ _
      refine (onEng ..).trans (.placeTask _ d ?_)
      unfold t
      split
      next t ht =>
        have hte : t.elem = e := by simpa using List.find?_some ht
        have hmerge : (t.merge type).elem = t.elem := by unfold Task.merge; split <;> rfl
        simpa [hmerge, hte] using he
      next => exact he

theorem activate (s : State) (d : DieId) {e : Nat} (he : e < 5888) (burst type : Nat) : Steady s (activate s d e burst type) := by
  unfold Machine.activate
  extract_lets el s0 s1
  split
  · exact .refl s
  · have h1 : Steady s s1 := by
      unfold s1
      split
      · exact .onElem ..
      · exact (readStore ..).trans (.onElem ..)
    exact h1.trans (.queueTask _ d he type)

theorem loopsResume (s : State) (d : DieId) : Steady s (loopsResume s d) := by
  refine .foldl _ _ (fun t e he => ?_) s
  have he' : e < 5888 := List.mem_range.1 he
  have h1 : Steady t (Machine.adoptOutputs t d e) := .adoptOutputs ..
  dsimp only
  split_ifs
  · exact h1.trans ((presetInt ..).trans ((strobeElem ..).trans (.activate _ d he' ..)))
  · exact h1.trans (.startRamp ..)
  · exact h1.trans (.startRamp ..)
  · exact h1.trans (.startRamp ..)

/-- The loops of a Dummy follow the base mode. -/
theorem followLoops (s : State) (d : DieId) (was : Nat) : Steady s (followLoops s d was) := by
  unfold Machine.followLoops
  extract_lets b
  split_ifs
  · exact .refl s
  · exact onDie s d (fun _ => rfl) fun _ _ _ => rfl
  · exact onDie s d (fun _ => rfl) fun _ _ _ => rfl
  · exact .loopsResume ..
  · exact .refl s

end Steady

/-! ## The units beside the fabric -/

/-- The units of a die that neither deals nor loops change: its life, redundancy unit, light guard, thermal manager, service lock and clock. -/
def Die.units (x : Die) : Die :=
  { x.core with
    red := { x.core.red with totals := Vector.replicate 5 0, cmp := 0, cmpSec := 0 }, trans := .none, dealer := Dealer.reset, planner := Planner.reset, routers := Routers.reset, hold := [],
    dither := [], elSnap := Elem.reset, elStale := false, cal := Cal.reset }

theorem Die.units_count (x : Die) (k : Nat) (f : Fld) (n : Nat) : (x.count k f n).units = x.units := rfl
theorem Die.units_core (x : Die) : x.core.units = x.units := rfl
theorem Die.units_steady (x : Die) : x.steady.units = x.units := rfl

/-- From s to t the dies keep those units and the fields of the mode word. -/
structure KeepsUnits (s t : State) : Prop where
  die : ∀ d, (t.die d).units = (s.die d).units
  regs : ∀ d k, guardKey k = true → (t.die d).reg k = (s.die d).reg k
  mode : ∀ d, ∀ f ∈ modeFields, (t.die d).rf Reg.RED_MODE f = (s.die d).rf Reg.RED_MODE f

namespace KeepsUnits
variable {s t u : State}

theorem refl (s : State) : KeepsUnits s s := ⟨fun _ => rfl, fun _ _ _ => rfl, fun _ _ _ => rfl⟩

theorem trans (h : KeepsUnits s t) (k : KeepsUnits t u) : KeepsUnits s u :=
  ⟨fun d => (k.die d).trans (h.die d), fun d j hj => (k.regs d j hj).trans (h.regs d j hj), fun d f hf => (k.mode d f hf).trans (h.mode d f hf)⟩

theorem of_core (h : KeepsCore s t) : KeepsUnits s t :=
  ⟨fun d => by rw [← Die.units_core, h.core d, Die.units_core], fun d k hk => h.regs d k (recordKey_of_guardKey hk).2, h.mode⟩

theorem of_steady (h : Steady s t) : KeepsUnits s t :=
  ⟨fun d => by rw [← Die.units_steady, h.die d, Die.units_steady], h.regs, h.mode⟩

theorem of_records (h : OnlyRecords s t) : KeepsUnits s t := of_core (.of_records h)

theorem foldl {α : Type} (g : State → α → State) (h : ∀ t a, KeepsUnits t (g t a)) (l : List α) (s : State) : KeepsUnits s (l.foldl g s) := by
  induction l generalizing s with
  | nil => exact .refl s
  | cons a l ih => exact (h s a).trans (ih _)

theorem onDie (s : State) (d : DieId) {f : Die → Die} (hu : ∀ x, (f x).units = x.units) (hm : ∀ x k, k = Reg.RED_MODE ∨ guardKey k = true → (f x).reg k = x.reg k) :
    KeepsUnits s (s.onDie d f) :=
  ⟨fun e => die_onDie_keeps Die.units hu s d e, fun e k hk => die_onDie_keeps (fun x => x.reg k) (fun x => hm x k (.inr hk)) s d e,
    fun e g _ => congrArg (fget g) (die_onDie_keeps (fun x => x.reg Reg.RED_MODE) (fun x => hm x _ (.inl rfl)) s d e)⟩

/-- A change of one die beside its units and its registers. -/
theorem beside (s : State) (d : DieId) {f : Die → Die} (hu : ∀ x, (f x).units = x.units) (hr : ∀ x, (f x).regs = x.regs) :
    KeepsUnits s (s.onDie d f) := onDie s d hu fun x _ _ => by rw [Die.reg, hr, Die.reg]

theorem count (s : State) (d : DieId) {k : Nat} (h : ∀ j, j = Reg.RED_MODE ∨ guardKey j = true → k ≠ j) (f : Fld) (n : Nat) : KeepsUnits s (s.count d k f n) :=
  onDie s d (fun _ => rfl) fun x j hj => x.reg_count_other (fun e => h j hj e.symm) f n

theorem shadowed (s : State) (d : DieId) {f : Die → Die} (h : ∀ t e, KeepsUnits t (t.onDie e f)) : KeepsUnits s (shadowed s d f) := by
  unfold Machine.shadowed
  extract_lets s1
  split
  · exact (h s d).trans (h s1 d.peer)
  · exact h s d

end KeepsUnits

end Sys2Proof.Machine
end

section
/-!
PROOFS. The end of deals, checks, surveys, decks and dither runs keeps a die's units beside the fabric, its role and its mode.
-/

namespace Sys2Proof.Machine

/-- A die with no survey under way. -/
def Die.unsurveyed (x : Die) : Die := { x with cal := { x.cal with survey := none } }

namespace KeepsUnits
variable {s t u : State}

/-- A change of the Dealer, the decks, the planner and its engines of one die. -/
theorem deals (s : State) (d : DieId) {f : Die → Die}
    (h : ∀ x, ∃ v w p r, f x = { x with dealer := v, decks := w, planner := p, routers := r }) : KeepsUnits s (s.onDie d f) := by
  refine beside s d (fun x => ?_) fun x => ?_ <;> obtain ⟨v, w, p, r, hx⟩ := h x
  · rw [hx]
    rfl
  · rw [hx]

theorem finish (s : State) (d : DieId) (id status result frac aux : Nat) : KeepsUnits s (finish s d id status result frac aux) := of_core (.finish ..)

theorem finishes (s : State) (d : DieId) (l : List Nat) (status result frac aux : State → Nat) :
    KeepsUnits s (l.foldl (fun t c => Machine.finish t d c (status t) (result t) (frac t) (aux t)) s) := .foldl _ (fun _ _ => .finish ..) l s

theorem raise (s : State) (d : DieId) {src : Nat} (h : src < 256) (inst : Nat) : KeepsUnits s (raise s d src inst) := of_records (.raise s d src inst h)

/-! ## Deals -/

theorem cancelSent (s : State) (d : DieId) (dl : Deal) : KeepsUnits s (cancelSent s d dl) := by
  unfold Machine.cancelSent
  split
  · refine .foldl _ (fun t b => ?_) _ s
    split
    · exact of_core (.emit ..)
    · exact .refl t
  · exact .refl s

theorem dropDeal (s : State) (d : DieId) (num : Nat) : KeepsUnits s (s.onDie d (·.dropDeal num)) := .deals s d fun _ => ⟨_, _, _, _, rfl⟩

theorem addDeal (s : State) (d : DieId) {f : Die → Die} (h : ∀ x, f x = x ∨ ∃ a b c e g, f x = x.addDeal a b c e g) : KeepsUnits s (s.onDie d f) := by
  refine .deals s d fun x => ?_
  rcases h x with h | ⟨a, b, c, e, g, h⟩ <;> rw [h]
  · exact ⟨_, _, _, _, rfl⟩
  · exact ⟨_, _, _, _, rfl⟩

theorem checkGone (s : State) (d : DieId) (p : Nat) : KeepsUnits s (checkGone s d p) := by
  unfold Machine.checkGone
  extract_lets x mine keep s1
  have h1 : KeepsUnits s s1 := beside s d (fun _ => rfl) fun _ => rfl
  split
  · exact h1
  · refine h1.trans (.foldl _ (fun t dl => ?_) _ _)
    exact (dropDeal t d dl.num).trans (.cancelSent _ d dl)

theorem checksGone (s : State) (d : DieId) (p : Nat → Bool) : KeepsUnits s (checksGone s d p) := .foldl _ (fun t q => checkGone t d q) _ s

/-! ## Decks -/

theorem deckCmdDone (s : State) (d : DieId) (cmds : List Nat) (op inst : Nat) : KeepsUnits s (deckCmdDone s d cmds op inst) :=
  .foldl _ (fun _ _ => .finish ..) cmds s

theorem disarmNext (s : State) (d : DieId) : KeepsUnits s (disarmNext s d) := by
  unfold Machine.disarmNext
  extract_lets dk cur s1
  have h1 : KeepsUnits s s1 := .deals s d fun _ => ⟨_, _, _, _, rfl⟩
  split
  · split
    · exact h1.trans (.foldl _ (fun _ _ => .finish ..) _ _)
    · exact h1
  · exact h1

theorem noDeck (s : State) (d : DieId) : KeepsUnits s (s.onDie d noDeck) := .deals s d fun _ => ⟨_, _, _, _, rfl⟩

theorem deckEvent (s : State) (d : DieId) (ev slot epoch at_ : Nat) : KeepsUnits s (deckEvent s d ev slot epoch at_) := by
  unfold Machine.deckEvent
  extract_lets s1
  exact (of_records (.eventMirrored ..)).trans (.foldl _ (fun t a => of_core (.sendAgent ..)) _ _)

theorem disarmDecks (s : State) (d : DieId) : KeepsUnits s (disarmDecks s d) := by
  have drawn (t : State) : KeepsUnits t t.drawn := of_core (.of_dies t.die_drawn rfl)
  unfold Machine.disarmDecks
  extract_lets s1 s2
  have h1 : KeepsUnits s s1 := .disarmNext s d
  have h2 : KeepsUnits s1 s2 := by
    unfold s2
    split
    · split
      · exact .foldl _ (fun t c => (drawn t).trans (.finish ..)) _ _
      · exact .refl s1
    · exact .refl s1
  exact (h1.trans h2).trans (.noDeck ..)

theorem deckChange (s : State) (d : DieId) (inst : Nat) (dealt : Bool) : KeepsUnits s (deckChange s d inst dealt) := by
  unfold Machine.deckChange
  split
  next r n _ _ =>
    extract_lets run s1 s2
    have h1 : KeepsUnits s s1 := .deals s d fun x => by unfold startAuto; split <;> exact ⟨_, _, _, _, rfl⟩
    have h2 : KeepsUnits s1 s2 := by
      unfold s2
      split
      · exact .deckCmdDone ..
      · exact .refl s1
    split
    · exact (h1.trans h2).trans ((deckEvent ..).trans (.deckCmdDone ..))
    · exact (h1.trans h2).trans (.deckEvent ..)
  next => exact .refl s

theorem applyAlone_fabric (x : Die) : ∃ v w p r, applyAlone x = { x with dealer := v, decks := w, planner := p, routers := r } := by
  unfold applyAlone
  split
  · split
    · exact ⟨_, _, _, _, rfl⟩
    · exact ⟨_, _, _, _, rfl⟩
  · exact ⟨_, _, _, _, rfl⟩

theorem deckStopped (s : State) (d : DieId) (k inst : Nat) : KeepsUnits s (deckStopped s d k inst) := by
  unfold Machine.deckStopped
  split
  · exact .refl s
  · extract_lets s1 s2 s3
    have h1 : KeepsUnits s s1 := .disarmNext s d
    have h2 : KeepsUnits s1 s2 := .deals s1 d fun x => by
      obtain ⟨v, w, p, r, hx⟩ := applyAlone_fabric (Machine.noDeck x)
      rw [hx]
      exact ⟨_, _, _, _, rfl⟩
    have h3 : KeepsUnits s2 s3 := .deckEvent ..
    split
    · exact ((h1.trans h2).trans h3).trans (.deckCmdDone ..)
    · exact (h1.trans h2).trans h3

theorem boundaryPast (s : State) (d : DieId) (k inst : Nat) (change : Bool) : KeepsUnits s (boundaryPast s d k inst change) := by
  unfold Machine.boundaryPast
  split
  · exact .refl s
  · extract_lets stopHere last
    split_ifs
    · exact .deckChange ..
    · exact .deckStopped ..
    · exact .deals s d fun _ => ⟨_, _, _, _, rfl⟩

theorem countVoid (s : State) (d : DieId) : KeepsUnits s (countVoid s d) := .shadowed s d fun t e => .count t e (count_apart (by decide)) _ _

theorem boundaryVoid (s : State) (d : DieId) (k inst : Nat) (change : Bool) : KeepsUnits s (boundaryVoid s d k inst change) := by
  unfold Machine.boundaryVoid
  extract_lets s1
  have h1 : KeepsUnits s s1 := .countVoid s d
  split
  · exact h1
  · exact h1.trans ((deckEvent ..).trans (.boundaryPast ..))

/-! ## Dither runs and surveys -/

theorem stimOut (s : State) (d : DieId) (act : Nat) (v : Int) (e : Nat) : KeepsUnits s (stimOut s d act v e).1 := by
  unfold Machine.stimOut
  dsimp only
  split_ifs <;> exact of_steady (.driveOut ..)

theorem ditherLeave (s : State) (d : DieId) (cmd e : Nat) : KeepsUnits s (ditherLeave s d cmd e) := by
  have dither (t : State) (g : Die → List DitherRun) : KeepsUnits t (t.onDie d (fun x => { x with dither := g x })) :=
    beside t d (fun _ => rfl) fun _ => rfl
  unfold Machine.ditherLeave
  split
  · exact .refl s
  · extract_lets left s1 s2
    have h1 : KeepsUnits s s1 := .stimOut ..
    have h2 : KeepsUnits s1 s2 := of_steady ((Steady.onBank ..).trans (.onElem ..))
    split
    · exact (h1.trans h2).trans ((dither ..).trans (.finish ..))
    · exact (h1.trans h2).trans (dither ..)

theorem ditherAbort (s : State) (d : DieId) (e : Nat) : KeepsUnits s (ditherAbort s d e) := by
  unfold Machine.ditherAbort
  split
  · exact .refl s
  next r t _ =>
    refine (of_steady (.readStore s d e)).trans (.trans ?_ (.ditherLeave ..))
    unfold ditherRecord
    split
    next hf => exact of_records (.telem _ d _ _ _ _ _ hf)
    next => exact .refl _

theorem ditherStop (s : State) (d : DieId) (sel : DitherRun → Bool) : KeepsUnits s (ditherStop s d sel) := .foldl _ (fun t e => .ditherAbort t d e) _ s

theorem surveyAbort (s : State) (d : DieId) : KeepsUnits s (surveyAbort s d) := by
  unfold Machine.surveyAbort
  split
  · exact .refl s
  · have hf : (fun x : Die => { x.count Reg.CAL_SURVEY_CNT F.CAL_SURVEY_CNT_ABORTED with cal := { x.cal with survey := none } }) =
        fun x => (x.count Reg.CAL_SURVEY_CNT F.CAL_SURVEY_CNT_ABORTED).unsurveyed := funext fun x => by rw [Die.unsurveyed, Die.count_cal]
    rw [hf, ← State.onDie_onDie s d (fun x => x.count _ _) Die.unsurveyed]
    have h1 (t : State) : KeepsUnits t (t.onDie d Die.unsurveyed) := beside t d (fun _ => rfl) fun _ => rfl
    have h0 : KeepsUnits s (s.onDie d (fun x => x.count Reg.CAL_SURVEY_CNT F.CAL_SURVEY_CNT_ABORTED)) := .count s d (count_apart (by decide)) _ _
    exact (h0.trans (h1 _)).trans (of_steady ((Steady.driveOut ..).trans (.driveOut ..)))

/-! ## Takes -/

theorem takeEnds (s : State) (d : DieId) (k : Take) (status : Nat) : KeepsUnits s (takeEnds s d k status) := by
  unfold Machine.takeEnds
  split
  · exact .finish ..
  · unfold trumpLeave
    split
    · exact of_core (.onCport ..)
    · exact .refl s

/-- The die with a take in a deal. -/
theorem setDie (s : State) (d : DieId) {y : Die} (h : ∃ v, y = { s.die d with dealer := v }) : KeepsUnits s (s.setDie d y) := by
  obtain ⟨v, hy⟩ := h
  have hon : s.setDie d y = s.onDie d (fun x => { x with dealer := v }) := by rw [State.onDie, ← hy]
  rw [hon]
  exact .deals s d fun _ => ⟨_, _, _, _, rfl⟩

theorem boundaryDeal_dealer (x : Die) (kind : DealKind) (inst : Nat) : ∃ v, (boundaryDeal x kind inst).1 = { x with dealer := v } := by
  unfold boundaryDeal
  split
  · exact ⟨_, rfl⟩
  · exact ⟨_, rfl⟩

theorem placeTake (s : State) (d : DieId) (k : Take) : KeepsUnits s (placeTake s d k).1 := by
  have put (x : Die) (y : Die) (num : Nat) (h : ∃ v, y = { x with dealer := v }) : ∃ v, putTake y num k = { x with dealer := v } := by
    obtain ⟨v, rfl⟩ := h
    exact ⟨_, rfl⟩
  unfold Machine.placeTake
  extract_lets x
  split
  · exact .setDie s d (put _ _ _ (boundaryDeal_dealer ..))
  · split
    · exact .refl s
    · extract_lets p s1 x1
      have h1 : KeepsUnits s s1 := by
        unfold s1
        split
        · exact .shadowed s d fun t e => .count t e (count_apart (by decide)) _ _
        · exact .refl s
      split
      · exact h1.trans (.setDie s1 d (put _ _ _ ⟨_, rfl⟩))
      · exact h1.trans (.setDie s1 d (put _ _ _ (boundaryDeal_dealer ..)))
      · split
        · exact .refl s
        · exact h1.trans (.setDie s1 d (put _ _ _ ⟨_, rfl⟩))

theorem takePlaced (s : State) (d : DieId) (k : Take) (num inst : Nat) : KeepsUnits s (takePlaced s d k num inst) :=
  beside s d (fun _ => rfl) fun _ => rfl

theorem lateTake (s : State) (d : DieId) (k : Take) (mayReplace : Bool) : KeepsUnits s (lateTake s d k mayReplace) := by
  unfold Machine.lateTake
  extract_lets s1 t1
  have h1 : KeepsUnits s s1 := .shadowed s d fun t e => .count t e (count_apart (by decide)) _ _
  split_ifs
  · exact h1.trans (.takeEnds ..)
  · exact h1.trans (.takeEnds ..)
  · have h2 : KeepsUnits s1 (Machine.placeTake s1 d t1).1 := .placeTake ..
    split <;> rename_i heq <;> rw [heq] at h2
    · exact (h1.trans h2).trans (.takePlaced ..)
    · exact (h1.trans h2).trans (.takeEnds ..)
    · exact (h1.trans h2).trans (.takeEnds ..)

/-! ## Withdrawals, and the Dealer's stop (R52) -/

theorem withdrawOne (s : State) (d : DieId) (dl : Deal) (replace : Bool) : KeepsUnits s (withdrawOne s d dl replace) := by
  have again (t : State) (kind : DealKind) (part : Option Nat) : KeepsUnits t (t.onDie d (fun x => placeAgain x kind part)) :=
    .addDeal t d fun _ => .inr ⟨_, _, _, _, _, rfl⟩
  unfold Machine.withdrawOne
  extract_lets s2 s3 s4
  have h2 : KeepsUnits s s2 := (dropDeal ..).trans (.cancelSent ..)
  have h3 : KeepsUnits s2 s3 := .trans (.shadowed s2 d fun t e => .count t e (count_apart (by decide)) _ _) (.raise _ d (by decide) 0)
  have h4 : KeepsUnits s3 s4 := by
    unfold s4
    split
    · exact .boundaryVoid ..
    · exact .countVoid ..
    · refine .addDeal s3 d fun x => ?_
      split
      · exact .inr ⟨_, _, _, _, _, rfl⟩
      · exact .inr ⟨_, _, _, _, _, rfl⟩
      · exact .inl rfl
    · refine .addDeal s3 d fun x => ?_
      split
      · exact .inr ⟨_, _, _, _, _, rfl⟩
      · exact .inl rfl
    · split
      · exact again ..
      · exact .refl s3
    · split
      · exact again ..
      · exact .refl s3
    · extract_lets s4
      split
      · exact (checkGone ..).trans (again ..)
      · exact .checkGone ..
    · exact .refl s3
  exact ((h2.trans h3).trans h4).trans (.foldl _ (fun _ _ => .lateTake ..) _ _)

theorem withdrawAll (s : State) (d : DieId) (held : Bool) : KeepsUnits s (withdrawAll s d held) := .foldl _ (fun _ _ => .withdrawOne ..) _ s

theorem stopDealer (s : State) (d : DieId) : KeepsUnits s (stopDealer s d) := by
  unfold Machine.stopDealer
  extract_lets s1 s2
  have h1 : KeepsUnits s s1 := (checksGone ..).trans (.deals _ d fun _ => ⟨_, _, _, _, rfl⟩)
  have h2 : KeepsUnits s1 s2 := ((disarmDecks ..).trans (.deals _ d fun _ => ⟨_, _, _, _, rfl⟩)).trans (.ditherStop ..)
  exact (h1.trans h2).trans ((surveyAbort ..).trans (.withdrawAll ..))

theorem goDarkStart (s : State) (d : DieId) (byReq : Bool) : KeepsUnits s (goDarkStart s d byReq) := by
  unfold Machine.goDarkStart
  extract_lets s1 s2
  have h1 : KeepsUnits s s1 := .stopDealer s d
  have h2 : KeepsUnits s1 s2 := beside s1 d (fun _ => rfl) fun _ => rfl
  exact (h1.trans h2).trans (of_records ((OnlyRecords.mirrorDealer ..).trans (.mirrorDecks ..)))

/-! ## What the units hold -/

section Fields
variable (h : KeepsUnits s t) (d : DieId)
include h

theorem die_life : (t.die d).life = (s.die d).life := (congrArg Die.life (h.die d) :)
theorem die_lgd : (t.die d).lgd = (s.die d).lgd := (congrArg Die.lgd (h.die d) :)
theorem die_thm : (t.die d).thm = (s.die d).thm := (congrArg Die.thm (h.die d) :)
theorem die_svc : (t.die d).svc = (s.die d).svc := (congrArg Die.svc (h.die d) :)
theorem die_takeover : (t.die d).red.takeover = (s.die d).red.takeover := (congrArg (·.red.takeover) (h.die d) :)
theorem base : (t.die d).base = (s.die d).base := h.mode d _ (by decide)
theorem role : (t.die d).role = (s.die d).role := h.mode d _ (by decide)

end Fields
end KeepsUnits
end Sys2Proof.Machine
end

section
/-!
PROOFS. Yields and claims (R429), full fabric service (R430, R431) and RESYNC (R63, R421).
-/

namespace Sys2Proof.Machine

/-! ## The yield and the claim it starts -/

theorem ackSince_none {c : Cmd} (h : ∀ q u, c.stage ≠ .acking q u) : ackSince c = none := by
  unfold ackSince
  split
  next q t hs => exact absurd hs (h q t)
  next => rfl

theorem ackSince_isSome {c : Cmd} {q u : Nat} (h : c.stage = .acking q u) : (ackSince c).isSome = true := by
  unfold ackSince
  rw [h]
  rfl

/-- A claim leaves the claimant with its takeover, and the other die in its role. -/
theorem startClaim_keeps (s : State) (p : DieId) (t : Takeover) (trigger : Nat) :
    ((startClaim s p t trigger).die p).red.takeover = some t ∧ ∀ e, e ≠ p → ((startClaim s p t trigger).die e).role = (s.die e).role := by
  unfold startClaim
  extract_lets s1 s2 s3
  let u0 := (s.onDie p (fun x => x.onRed (fun r => { r with takeover := some t, sent := [], acks := [] }))).onDie p (·.unslaved)
  have hs1 : s1 = setMode u0 p (fun w => fput F.RED_MODE_TAKEOVER (fput F.RED_MODE_ROLE w 1) 1) := rfl
  have h1 : (s1.die p).red.takeover = some t := by
    rw [hs1]
    refine (setMode_die_eq u0 p p _ (·.red.takeover) fun _ => rfl).trans ?_
    rw [State.die_onDie_same, State.die_onDie_same]
    rfl
  have h1' (e : DieId) (he : e ≠ p) : (s1.die e).role = (s.die e).role := by
    rw [hs1]
    refine (setMode_die_other u0 he _ (by decide)).trans ?_
    rw [State.die_onDie_other _ he, State.die_onDie_other _ he, Die.role]
  have h2 : (s2.die p).red.takeover = some t := by
    have hred (x : Die) : ((x.setReg64 Reg.RED_TO_TIME trigger).count Reg.RED_TO_CNT F.RED_TO_CNT_CLAIMS).red = x.red := by
      rw [Die.count_red, Die.setReg64, Die.setReg_red, Die.setReg_red]
    refine (congrArg (·.red.takeover) (State.die_onDie_same ..)).trans ?_
    rw [hred, h1]
  have h2' (e : DieId) (he : e ≠ p) : (s2.die e).role = (s.die e).role := by
    rw [← h1' e he]
    exact congrArg Die.role (State.die_onDie_other _ he _)
  let w := sendBanks (takeoverEvent (raise s2 p 188) p 0 p 0) p mClaim
  have hw : KeepsCore s2 w := ((KeepsCore.raise s2 p (by decide) 0).trans (.of_records (.event ..))).trans (.sendBanks ..)
  obtain ⟨u, hu, -, hlock⟩ := KeepsCore.lockClose w
  have h3 (e : DieId) : (s3.die e).red.takeover = (s2.die e).red.takeover ∧ (s3.die e).role = (s2.die e).role := by
    obtain ⟨⟨v, -, hcore⟩, hreg⟩ := hlock e
    refine ⟨(hu.die_takeover e).trans ?_, (hu.role e).trans ?_⟩
    · have htake : (u.die e).red.takeover = (w.die e).red.takeover := (congrArg (·.red.takeover) hcore :)
      rw [htake, hw.die_takeover]
    · rw [Die.role, Die.rf, hreg _ (by unfold forceKey; decide)]
      exact hw.role e
  split
  · have hdark := KeepsUnits.goDarkStart s3 p false
    exact ⟨(hdark.die_takeover p).trans ((h3 p).1.trans h2), fun e he => (hdark.role e).trans ((h3 e).2.trans (h2' e he))⟩
  · exact ⟨(h3 p).1.trans h2, fun e he => (h3 e).2.trans (h2' e he)⟩

section Yield
variable {s : State} {d : DieId} {t : Takeover}

theorem yieldPoint_idle (ht : (s.die d).red.takeover = some t) (h : (s.die d).yielding = false ∨ (∃ c ∈ (s.die d).cmds, ∃ q u, c.stage = .acking q u) ∨
    (readyDummy s d.peer = true ∧ (s.die d).red.sent ≠ [])) : yieldPoint d s = s := by
  simp only [yieldPoint, ht]
  refine if_pos ?_
  rcases h with h | ⟨c, hc, q, u, h⟩ | ⟨h, hs⟩
  · simp [h]
  · have hany : (s.die d).cmds.any (fun c => (ackSince c).isSome) = true := List.any_eq_true.2 ⟨c, hc, ackSince_isSome h⟩
    simp [hany]
  · simp [h, hs]

variable (hy : (s.die d).yielding = true) (hc : ∀ c ∈ (s.die d).cmds, ∀ q u, c.stage ≠ .acking q u)
include hy hc

/-- Nothing keeps a die from its yield but what its ready Dummy does not hold yet. -/
theorem yieldPoint_goes (hs : readyDummy s d.peer = false ∨ (s.die d).red.sent = []) :
    ¬ (!(s.die d).yielding || (s.die d).cmds.any (fun c => (ackSince c).isSome) || (readyDummy s d.peer && !(s.die d).red.sent.isEmpty)) = true := by
  have hany : (s.die d).cmds.any (fun c => (ackSince c).isSome) = false := List.any_eq_false.2 fun c h => by rw [ackSince_none (hc c h)]; simp
  rcases hs with h | h <;> simp [hy, hany, h]

/-- Without a ready Dummy a yield with nothing behind it ends. -/
theorem yieldPoint_alone (ht : (s.die d).red.takeover = some t) (hp : readyDummy s d.peer = false) (hn : t.cmd = none) (hr : t.resetAfter = none) :
    yieldPoint d s = s.onDie d (fun x => x.onRed (fun r => { r with takeover := none })) := by
  simp only [yieldPoint, ht, hn, hr]
  exact (if_neg (yieldPoint_goes hy hc (.inl hp))).trans (if_pos (by simp [hp]))

/-- With a ready Dummy the die becomes Dummy, and its peer claims. -/
theorem yieldPoint_yields (ht : (s.die d).red.takeover = some t) (hp : readyDummy s d.peer = true) (hs : (s.die d).red.sent = []) (hr : t.resetAfter = none) :
    ∃ v trigger gap last gapFrom, yieldPoint d s =
      startClaim (setRole v d 2 0) d.peer ⟨true, true, t.since, gap, 0, 0, last, gapFrom, none, none, t.cmd⟩ trigger := by
  simp only [yieldPoint, ht, hr, Option.isNone_none, if_true]
  rw [if_neg (yieldPoint_goes hy hc (.inr hs)), if_neg (by simp [hp])]
  exact ⟨_, _, _, _, _, rfl⟩

end Yield

/-! ## Full fabric service -/

/-- Gap and service time of a takeover, on a die that runs. -/
def serviceWord (ticks : Nat) (t : Takeover) (fw : Nat) (x : Die) : Die :=
  if x.running then
    (x.setRf Reg.RED_TO_GAP F.RED_TO_GAP_SERVICE_US (min 65535 ((ticks - t.since) / usT))).setRf Reg.RED_TO_GAP F.RED_TO_GAP_GAP_NS
      (min 65535 (fw - t.gapFrom))
  else x

/-- Both dies without the takeover, the new Declarer without what it held. -/
def serviced (s : State) (d : DieId) (t : Takeover) (fw : Nat) : State :=
  ((s.onDie d (serviceWord s.ticks t fw)).onDie d.peer (fun x => (serviceWord s.ticks t fw x).onRed (fun r => { r with takeover := none, adopt := [] }))).onDie d
    (fun x => (reprepare ((adoptCounts x).onRed (fun r => { r with takeover := none, held := [], adopt := [] }))).count Reg.RED_TO_CNT F.RED_TO_CNT_RESUMED)

theorem serviceWord_gap {ticks fw : Nat} {t : Takeover} {x : Die} (h : x.running = true) :
    (serviceWord ticks t fw x).rf Reg.RED_TO_GAP F.RED_TO_GAP_SERVICE_US = min 65535 ((ticks - t.since) / usT) ∧
      (serviceWord ticks t fw x).rf Reg.RED_TO_GAP F.RED_TO_GAP_GAP_NS = min 65535 (fw - t.gapFrom) := by
  have hlim (n : Nat) : min 65535 n % 2 ^ 16 = min 65535 n := Nat.mod_eq_of_lt (by omega)
  unfold serviceWord
  rw [if_pos h]
  refine ⟨?_, ?_⟩
  · rw [Die.rf_setRf_apart _ Reg.RED_TO_GAP (by decide) (by decide) (by decide) (by decide), Die.rf_setRf_same _ Reg.RED_TO_GAP (by decide) (by decide)]
    exact hlim _
  · rw [Die.rf_setRf_same _ Reg.RED_TO_GAP (by decide) (by decide)]
    exact hlim _

theorem adoptCounts_reg (x : Die) {k : Nat} (h : k < Reg.RED_ADOPT_VALID) : (adoptCounts x).reg k = x.reg k := by
  have fold (l : List Nat) (a : Sparse Nat → Nat → Nat) : ∀ y : Die,
      (l.foldl (fun y i => y.setReg (Reg.RED_ADOPT (i / 8) (i % 8)) (a y.red.adopt i)) y).reg k = y.reg k := by
    induction l with
    | nil => exact fun _ => rfl
    | cons i l ih =>
      refine fun y => (ih _).trans (Die.reg_setReg_other _ ?_ _)
      revert h
      unfold Reg.RED_ADOPT Reg.RED_ADOPT_VALID
      omega
  exact (Die.reg_setReg_other _ (by omega) _).trans (fold _ (fun r i => spGet 0 i r) x)

section Service
variable {s : State} {d : DieId} {t : Takeover} {fw : Nat}

theorem fullService_idle (ht : (s.die d).red.takeover = some t) (h : t.claimant = false ∨ t.firstWrite = none) : fullService d s = s := by
  simp only [fullService, ht]
  rcases h with h | h
  · split
    · rfl
    · simp [h]
  · simp only [h]

/-- With nothing held, full service is the end of the takeover and the mirroring of all state. -/
theorem fullService_due (ht : (s.die d).red.takeover = some t) (hc : t.claimant = true) (hw : t.firstWrite = some fw) (hn : t.cmd = none)
    (hh : (s.die d).red.held = []) : ∃ g : Die → Vsp, fullService d s =
      mirrorAll ((takeoverEvent (setRole (serviced s d t fw) d 1 0) d 1 d (fw - t.gapFrom)).onDie d (fun x => { x with vsp := g x })) d := by
  simp only [fullService, ht, hw, hc, hn, hh]
  exact ⟨_, rfl⟩

theorem Die.reg_unslaved (x : Die) {k : Nat} (h1 : k ≠ Reg.TIM_SLAVE_OFS) (h2 : k ≠ Reg.TIM_STATUS) : x.unslaved.reg k = x.reg k := by
  have clock (y : Die) (c : Clock) : ({ y with clock := c } : Die).reg k = y.reg k := rfl
  exact (clock _ _).trans ((Die.reg_setRf_other _ h2 _ _).trans (Die.reg_setReg_other _ h1 _))

theorem reprepare_red (x : Die) : (reprepare x).red = x.red := rfl

theorem reprepare_reg (x : Die) (k : Nat) : (reprepare x).reg k = x.reg k := rfl

section Mirrored
variable {v u : State} {gap : Nat} {g : Die → Vsp}
  (hu : OnlyRecords (mirrorAll ((takeoverEvent (setRole v d 1 0) d 1 d gap).onDie d (fun x => { x with vsp := g x })) d) u)
include hu

/-- Mirroring all state leaves records. -/
theorem mirrorAll_records : OnlyRecords ((takeoverEvent (setRole v d 1 0) d 1 d gap).onDie d (fun x => { x with vsp := g x })) u := by
  refine .trans ?_ hu
  exact (OnlyRecords.mirrorDealer ..).trans ((OnlyRecords.mirrorDecks ..).trans ((OnlyRecords.mirrorPlanner ..).trans ((OnlyRecords.mirror ..).trans (.mirrorVsp ..))))

/-- What full service leaves of the state without the takeover. -/
theorem mirrorAll_kept {α : Type} (π : Die → α) (hq : ∀ x, π x.quiet = π x) (hv : ∀ (x : Die) w, π { x with vsp := w } = π x)
    (hx : ∀ x, π x.unslaved = π x) (e : DieId) : π (u.die e) = π (v.die e) :=
  calc π (u.die e)
    _ = π (((takeoverEvent (setRole v d 1 0) d 1 d gap).onDie d (fun x => { x with vsp := g x })).die e) := (mirrorAll_records hu).die_eq e π hq
    _ = π ((takeoverEvent (setRole v d 1 0) d 1 d gap).die e) := die_onDie_keeps π (fun x => hv x _) _ d e
    _ = π ((setRole v d 1 0).die e) := (OnlyRecords.event ..).die_eq e π hq
    _ = π ((v.onDie d (·.unslaved)).die e) := setMode_die_eq _ d e _ π hq
    _ = π (v.die e) := die_onDie_keeps π hx _ d e

theorem mirrorAll_reg {k : Nat} (hk : recordKey k = false) (h1 : k ≠ Reg.TIM_SLAVE_OFS) (h2 : k ≠ Reg.TIM_STATUS) (e : DieId) :
    (u.die e).reg k = (v.die e).reg k :=
  calc (u.die e).reg k
    _ = (((takeoverEvent (setRole v d 1 0) d 1 d gap).onDie d (fun x => { x with vsp := g x })).die e).reg k := (mirrorAll_records hu).regs e k hk
    _ = ((takeoverEvent (setRole v d 1 0) d 1 d gap).die e).reg k := die_onDie_keeps (·.reg k) (by intro; rfl) _ d e
    _ = ((setRole v d 1 0).die e).reg k := (OnlyRecords.event ..).regs e k hk
    _ = ((v.onDie d (·.unslaved)).die e).reg k := setMode_reg _ d e _ hk
    _ = (v.die e).reg k := die_onDie_keeps (·.reg k) (fun x => x.reg_unslaved h1 h2) _ d e

/-- The die is Declarer, and no longer takes over. -/
theorem mirrorAll_role : (u.die d).rf Reg.RED_MODE F.RED_MODE_ROLE = 1 ∧ (u.die d).rf Reg.RED_MODE F.RED_MODE_TAKEOVER = 0 := by
  have hm (f : Fld) (hf : f ∈ modeFields) : (u.die d).rf Reg.RED_MODE f = ((setRole v d 1 0).die d).rf Reg.RED_MODE f :=
    calc (u.die d).rf Reg.RED_MODE f
      _ = _ := (mirrorAll_records hu).mode d f hf
      _ = ((takeoverEvent (setRole v d 1 0) d 1 d gap).die d).rf Reg.RED_MODE f := die_onDie_keeps (·.rf Reg.RED_MODE f) (by intro; rfl) _ d d
      _ = ((setRole v d 1 0).die d).rf Reg.RED_MODE f := (OnlyRecords.event ..).mode d f hf
  refine ⟨(hm _ (by decide)).trans ?_, (hm _ (by decide)).trans ?_⟩ <;>
    refine (setMode_field _ d _ (by decide) (by decide)).trans ?_
  · rw [fget_fput_other _ _ (by decide) (by decide) (by decide), fget_fput_same _ (by decide)]
    rfl
  · rw [fget_fput_same _ (by decide)]
    rfl

end Mirrored

/-- The words and the takeover on both dies. -/
theorem serviced_keeps (hr : (s.die d).running = true) : let y := (serviced s d t fw).die d
    y.red.takeover = none ∧ y.red.held = [] ∧ ((serviced s d t fw).die d.peer).red.takeover = none ∧
      y.rf Reg.RED_TO_GAP F.RED_TO_GAP_SERVICE_US = min 65535 ((s.ticks - t.since) / usT) ∧
      y.rf Reg.RED_TO_GAP F.RED_TO_GAP_GAP_NS = min 65535 (fw - t.gapFrom) := by
  have hne : d ≠ d.peer := by cases d <;> decide
  have hd : (serviced s d t fw).die d = (reprepare ((adoptCounts (serviceWord s.ticks t fw (s.die d))).onRed (fun r =>
      { r with takeover := none, held := [], adopt := [] }))).count Reg.RED_TO_CNT F.RED_TO_CNT_RESUMED := by
    unfold serviced
    rw [State.die_onDie_same, State.die_onDie_other _ hne, State.die_onDie_same]
  have hp : ((serviced s d t fw).die d.peer).red.takeover = none := by
    unfold serviced
    rw [State.die_onDie_peer, State.die_onDie_same]
    rfl
  have hreg : ((serviced s d t fw).die d).reg Reg.RED_TO_GAP = (serviceWord s.ticks t fw (s.die d)).reg Reg.RED_TO_GAP := by
    rw [hd, Die.reg_count_other _ (by decide), reprepare_reg, Die.onRed_reg, adoptCounts_reg _ (by decide)]
  obtain ⟨hsvc, hgap⟩ := serviceWord_gap (ticks := s.ticks) (fw := fw) (t := t) hr
  intro y
  refine ⟨?_, ?_, hp, ?_, ?_⟩
  · unfold y
    rw [hd, Die.count_red, reprepare_red, Die.onRed_red]
  · unfold y
    rw [hd, Die.count_red, reprepare_red, Die.onRed_red]
  · unfold y
    rw [Die.rf, hreg]
    exact hsvc
  · unfold y
    rw [Die.rf, hreg]
    exact hgap

end Service

/-! ## RESYNC -/

/-! ## Redundancy units while there is no Dummy to send to -/

/-- From s to t the redundancy units stay. -/
structure KeepsRed (s t : State) : Prop where
  red : ∀ e, (t.die e).red = (s.die e).red

theorem Die.occur_red (x : Die) (src inst : Nat) (real : Bool) (n : Nat) : (x.occur src inst real n).red = x.red := by
  unfold Die.occur
  simp only
  split <;> split <;> rfl

namespace KeepsRed
variable {s t u : State}

theorem refl (s : State) : KeepsRed s s := ⟨fun _ => rfl⟩

theorem trans (h : KeepsRed s t) (k : KeepsRed t u) : KeepsRed s u := ⟨fun e => (k.red e).trans (h.red e)⟩

theorem emit (s : State) (o : Out) : KeepsRed s (s.emit o) := ⟨fun e => by rw [State.die_emit]⟩

theorem onDie (s : State) (d : DieId) {f : Die → Die} (h : ∀ x, (f x).red = x.red) : KeepsRed s (s.onDie d f) :=
  ⟨die_onDie_keeps (·.red) h s d⟩

theorem foldl {α : Type} (g : State → α → State) (h : ∀ t a, KeepsRed t (g t a)) (l : List α) (s : State) : KeepsRed s (l.foldl g s) := by
  induction l generalizing s with
  | nil => exact .refl s
  | cons a l ih => exact (h s a).trans (ih _)

theorem onRing (s : State) (d : DieId) (f r : Nat) (g : Ring → Ring) : KeepsRed s (s.onDie d (·.onRing f r g)) := onDie s d fun x => x.onRing_red f r g

theorem raise (s : State) (d : DieId) (src inst : Nat) : KeepsRed s (raise s d src inst) := by
  unfold Machine.raise
  split
  · exact onDie s d fun x => x.occur_red ..
  · exact .refl s

theorem raiseVec (s : State) (d : DieId) (f v : Nat) : KeepsRed s (raiseVec s d f v) := by
  unfold Machine.raiseVec
  extract_lets n
  split
  · exact onDie s d fun x => x.onFn_red ..
  · exact .emit ..

theorem writeEntry (s : State) (d : DieId) (f r : Nat) (bytes : List Byte) (irq : Bool) : KeepsRed s (writeEntry s d f r bytes irq) := by
  unfold Machine.writeEntry coalesce
  extract_lets x g s1 m s2 y k k' s3 need
  have h2 : KeepsRed s s2 := (emit ..).trans (onDie _ d fun x => by rw [Die.setReg_red, Die.onRing_red])
  split
  · exact h2.trans ((emit ..).trans ((onRing ..).trans ((onRing ..).trans (.raiseVec ..))))
  · exact h2.trans ((emit ..).trans (.onRing ..))

theorem eventOn (s : State) (d : DieId) (type origin stamp : Nat) (p : List Byte) (f : Nat) : KeepsRed s (eventOn s d type origin stamp p f) := by
  unfold Machine.eventOn
  extract_lets x g s1 rec32
  have h1 : KeepsRed s s1 := .onRing ..
  split_ifs
  · exact .refl s
  · exact h1.trans ((onDie _ d fun x => by rw [Die.onRing_red, Die.count_red]).trans (.raise ..))
  · exact h1.trans ((onRing ..).trans (.writeEntry ..))

theorem event (s : State) (d : DieId) (type : Nat) (p : List Byte) : KeepsRed s (event s d type p) := .foldl _ (fun _ _ => .eventOn ..) _ s

/-- A change of the mode word reaches the peer only as a Dummy. -/
theorem setMode {d : DieId} (h : (s.die d.peer).isDummy = false) (f : Nat → Nat) : KeepsRed s (setMode s d f) := by
  unfold Machine.setMode
  extract_lets x old v v' w s1
  have h1 : KeepsRed s s1 := onDie s d fun x => x.setReg_red ..
  split_ifs
  · exact .refl s
  · have hev : OnlyRecords s1 (Machine.event s1 d evMode (leBytes 4 w)) := .event ..
    have hpeer : ((Machine.event s1 d evMode (leBytes 4 w)).die d.peer).isDummy = false := by
      rw [hev.isDummy d.peer, ← h]
      exact congrArg Die.isDummy (s.die_onDie_peer d _)
    have hidle : (Machine.event s1 d evMode (leBytes 4 w)).mirrored d = false := by
      unfold State.mirrored
      simp [hpeer]
    unfold mirror
    rw [hidle, if_neg (by decide)]
    exact h1.trans (.event ..)
  · exact h1

theorem settleLevel (s : State) (d : DieId) (i : Nat) : KeepsRed s (settleLevel s d i) := by
  unfold Machine.settleLevel
  extract_lets x was now
  split_ifs
  · exact onDie s d fun x => x.occur_red ..
  · exact onDie s d fun _ => rfl
  · exact .refl s

theorem settleDie {d : DieId} (h : (s.die d.peer).isDummy = false) : KeepsRed s (settleDie s d) := by
  unfold Machine.settleDie
  split
  · extract_lets s1
    have hother : (levelSources.foldl (fun s i => Machine.settleLevel s d i) s1).die d.peer = s.die d.peer :=
      ((settleLevels d levelSources (fun _ h => h) (List.Nodup.filter _ List.nodup_range) s1).2.1 d.peer (by cases d <;> decide)).trans (s.die_onDie_peer d _)
    have h1 : KeepsRed s s1 := onDie s d fun _ => rfl
    exact (h1.trans (.foldl _ (fun t i => .settleLevel t d i) _ s1)).trans (.setMode (by rw [hother, h]) id)
  · exact .refl s

theorem settle (h : ∀ e, (s.die e).isDummy = false) : KeepsRed s (settle s) :=
  (settleDie (h _)).trans (.settleDie (((OnlyRecords.settleDie s .cd0).isDummy _).trans (h _)))

end KeepsRed

/-! ## RESYNC -/

/-- A die that has left its role loads its Declarer's state, and nothing is on its way to it. -/
def joining (s : State) (d : DieId) (ticks : Nat) : State :=
  (s.onDie d (fun x => x.onRed (fun r => { r with loading := true, held := [], adopt := [], takeover := none, cmp := 0 }))).onDie d.peer
    (fun x => x.onRed (fun r => { r with sent := [], acks := [], absentSince := some (r.absentSince.getD ticks) }))

section Resync
variable {s : State} {d : DieId}

theorem resyncStart_idle (h : (s.die d).running = false ∨ resyncFrom s d = false ∨ (overLimit (s.die d) = false ∧ ((s.die d).role ≠ 0 ∨ (s.die d).red.loading = true))) :
    resyncStart d s = s := by
  refine if_pos ?_
  rcases h with h | h | ⟨ho, h | h⟩
  · simp [h]
  · simp [h]
  · simp [ho, h]
  · simp [ho, h]

/-- The die leaves its role, whatever its reason, and loads. -/
theorem resyncStart_due (hr : (s.die d).running = true) (hf : resyncFrom s d = true)
    (h : overLimit (s.die d) = true ∨ ((s.die d).life = .up ∧ (s.die d).role = 0 ∧ (s.die d).red.loading = false)) :
    ∃ s1, OnlyRecords s s1 ∧ resyncStart d s =
      slaveClock (joining (setMode s1 d (fun w => fput F.RED_MODE_RESYNC (fput F.RED_MODE_ROLE w 0) 1)) d s.ticks) d := by
  have hdue : ¬ (!(s.die d).running || !resyncFrom s d ||
      !(overLimit (s.die d) || ((s.die d).life == Life.up && decide ((s.die d).role = 0) && !(s.die d).red.loading))) = true := by
    rcases h with h | ⟨hl, h0, hg⟩
    · simp [hr, hf, h]
    · simp [hr, hf, hl, h0, hg]
  refine ⟨if overLimit (s.die d) then raise s d 193 else s, ?_, (if_neg hdue).trans rfl⟩
  split
  · exact .raise s d 193 0 (by decide)
  · exact .refl s

/-- The mode words of dies that join are those of the change of role. -/
theorem joining_mode (s : State) (d e : DieId) (ticks : Nat) (f : Fld) :
    ((slaveClock (joining s d ticks) d).die e).rf Reg.RED_MODE f = (s.die e).rf Reg.RED_MODE f :=
  calc ((slaveClock (joining s d ticks) d).die e).rf Reg.RED_MODE f
    _ = ((joining s d ticks).die e).rf Reg.RED_MODE f := slaveClock_die_eq (·.rf Reg.RED_MODE f) (fun _ _ => rfl) _ d e
    _ = _ := die_onDie_keeps (·.rf Reg.RED_MODE f) (by intro; rfl) _ d.peer e
    _ = (s.die e).rf Reg.RED_MODE f := die_onDie_keeps (·.rf Reg.RED_MODE f) (by intro; rfl) s d e

/-- The redundancy units of dies that join. -/
theorem joining_red (s : State) (d : DieId) (ticks : Nat) : let w := slaveClock (joining s d ticks) d
    ((w.die d).red.loading = true ∧ (w.die d).red.held = [] ∧ (w.die d).red.takeover = none) ∧
      (w.die d.peer).red.sent = [] ∧ (w.die d.peer).red.acks = [] := by
  have hne : d ≠ d.peer := by cases d <;> decide
  have hred (e : DieId) : ((slaveClock (joining s d ticks) d).die e).red = ((joining s d ticks).die e).red :=
    slaveClock_die_eq (·.red) (fun _ _ => rfl) _ d e
  intro w
  simp only [w, hred]
  unfold joining
  rw [State.die_onDie_other _ hne, State.die_onDie_same, State.die_onDie_same]
  exact ⟨⟨rfl, rfl, rfl⟩, rfl, rfl⟩

theorem resyncComplete_idle (h : (s.die d).inResync = false ∨ (s.die d).red.loading = false ∨ resyncFrom s d = false) : resyncComplete d s = s := by
  refine if_pos ?_
  rcases h with h | h | h <;> simp [h]

/-- A die as RESYNC loads it: the Dealer, the decks and the calibration are its Declarer's. -/
theorem loaded_keeps (x p : Die) : (x.loaded p).dealer = p.dealer ∧ (x.loaded p).decks = p.decks ∧ (x.loaded p).cal = x.cal.mirrored p.cal := by
  have hold (l : List (Cmd × Option Take)) (z : Die) : (l.foldl (fun z h => holdRequest z h.1 h.2) z).dealer = z.dealer ∧
      (l.foldl (fun z h => holdRequest z h.1 h.2) z).decks = z.decks ∧ (l.foldl (fun z h => holdRequest z h.1 h.2) z).cal = z.cal := by
    induction l generalizing z with
    | nil => exact ⟨rfl, rfl, rfl⟩
    | cons h l ih => exact ih _
  unfold Die.loaded
  extract_lets held y z
  exact hold held _

/-- The die with its Declarer's state, clock, base mode and loops. -/
def resynced (s : State) (d : DieId) : State :=
  followMode (slaveClock (s.onDie d (fun x => x.loaded (s.die d.peer))) d) d ((s.die d.peer).reg Reg.RED_MODE)

/-- A part of the dies that is not in the mode word, the clock or the loops is as it was loaded. -/
theorem resynced_die_eq {α : Type} (π : Die → α) (hq : ∀ x, π x.quiet = π x) (hs : ∀ x, π x.steady = π x) (hc : ∀ (x : Die) c, π { x with clock := c } = π x)
    (s : State) (d e : DieId) : π ((resynced s d).die e) = π ((s.onDie d (fun x => x.loaded (s.die d.peer))).die e) := by
  unfold resynced followMode
  extract_lets was
  have hl (t : State) : π ((followLoops t d was).die e) = π (t.die e) := by rw [← hs, (Steady.followLoops t d was).die e, hs]
  rw [hl, setMode_die_eq _ d e _ π hq, slaveClock_die_eq π hc]

/-- The Dummy and its Declarer, which are not absent to each other, nor the Declarer solo. -/
def joined (s : State) (d : DieId) : State :=
  (s.onDie d (fun x => x.onRed (fun r => { r with absentSince := none }))).onDie d.peer (fun y =>
    (y.setRf Reg.RED_STATUS F.RED_STATUS_SOLO 0).onRed (fun r => { r with absentSince := none }))

/-- Joining leaves the mode words, and parts of the dies beside their registers and redundancy units. -/
theorem joined_keeps (s : State) (d e : DieId) : (∀ f, ((joined s d).die e).rf Reg.RED_MODE f = (s.die e).rf Reg.RED_MODE f) ∧
    ((joined s d).die e).dealer = (s.die e).dealer ∧ ((joined s d).die e).decks = (s.die e).decks ∧ ((joined s d).die e).cal = (s.die e).cal := by
  have keeps {α : Type} (π : Die → α) (hr : ∀ (x : Die) f, π (x.onRed f) = π x) (hs : ∀ x : Die, π (x.setRf Reg.RED_STATUS F.RED_STATUS_SOLO 0) = π x) :
      π ((joined s d).die e) = π (s.die e) :=
    (die_onDie_keeps π (fun x => (hr _ _).trans (hs x)) _ d.peer e).trans (die_onDie_keeps π (fun x => hr x _) s d e)
  exact ⟨fun f => keeps (·.rf Reg.RED_MODE f) (fun _ _ => rfl) fun x => x.rf_setRf_other (by decide) _ _ _,
    keeps (·.dealer) (fun _ _ => rfl) fun x => x.setRf_dealer .., keeps (·.decks) (fun _ _ => rfl) fun x => x.setRf_decks ..,
    keeps (·.cal) (fun _ _ => rfl) fun x => x.setRf_cal ..⟩

theorem joined_solo (s : State) (d : DieId) : ((joined s d).die d.peer).rf Reg.RED_STATUS F.RED_STATUS_SOLO = 0 := by
  unfold joined
  rw [State.die_onDie_same, Die.rf, Die.onRed_reg]
  exact Die.rf_setRf_same _ Reg.RED_STATUS (by decide) (by decide) 0

theorem resyncComplete_due (hi : (s.die d).inResync = true) (hl : (s.die d).red.loading = true) (hf : resyncFrom s d = true)
    (hw : (s.die d.peer).red.waitPeer = false) : resyncComplete d s =
      joined (setMode (resynced s d) d (fun w => fput F.RED_MODE_ROLE (fput F.RED_MODE_RESYNC w 0) 2)) d := by
  have hrow : resyncComplete d s = if !(s.die d).inResync || !(s.die d).red.loading || !resyncFrom s d then s else _ := rfl
  rw [hrow, if_neg (by simp [hi, hl, hf])]
  have hwait : ((joined (setMode (resynced s d) d (fun w => fput F.RED_MODE_ROLE (fput F.RED_MODE_RESYNC w 0) 2)) d).die d.peer).red.waitPeer = false := by
    unfold joined
    rw [State.die_onDie_same, Die.onRed_red, Die.setRf_red, State.die_onDie_peer]
    refine (setMode_die_eq _ d d.peer _ (·.red.waitPeer) fun _ => rfl).trans ?_
    rw [resynced_die_eq (·.red.waitPeer) (fun _ => rfl) (fun _ => rfl) (fun _ _ => rfl), State.die_onDie_peer, hw]
  exact if_neg fun h => Bool.false_ne_true (hwait.symm.trans h)

end Resync

/-- Settles O34: yields and claims by what `startClaim` leaves, full service by what is mirrored after it, RESYNC by what is loaded. -/
theorem takeoversAndResync : Obligations.TakeoversAndResync := by
  unfold Obligations.TakeoversAndResync
  refine ⟨fun d s => ⟨fun hn => ⟨.of_row rfl ?noTakeover, .of_row rfl ?noService⟩, fun t ht => ⟨fun h => .of_row rfl (yieldPoint_idle ht h),
      fun h => .of_row rfl (fullService_idle ht h), fun hy hc hp hn hr => .of_row rfl (yieldPoint_alone hy hc ht hp hn hr), fun hy hc hp hs hr => ?yields,
      fun fw hc hw hn hr hh => ?service⟩⟩,
    fun d s => ⟨fun h => .of_row rfl (resyncStart_idle (h.elim .inl fun h => .inr (.inl h))), fun ho h => .of_row rfl (resyncStart_idle (.inr (.inr ⟨ho, h⟩))),
      fun hr hf h => ?starts, fun h => .of_row rfl (resyncComplete_idle h), fun hi hl hf hr hw => ?completes⟩⟩
  case noTakeover => simp only [yieldPoint, hn]
  case noService => simp only [fullService, hn]
  case yields =>
    obtain ⟨v, trigger, gap, last, gapFrom, hrow⟩ := yieldPoint_yields hy hc ht hp hs hr
    obtain ⟨hclaim, hrole⟩ := startClaim_keeps (setRole v d 2 0) d.peer ⟨true, true, t.since, gap, 0, 0, last, gapFrom, none, none, t.cmd⟩ trigger
    refine .of_done (congrArg done hrow) fun u hu => ⟨?_, _, (hu.die_eq d.peer (·.red.takeover) fun _ => rfl).trans hclaim, rfl, rfl, rfl, rfl⟩
    rw [hu.mode d _ (by decide)]
    exact (hrole d (by cases d <;> decide)).trans (setRole_role v d (.inr rfl))
  case service =>
    obtain ⟨g, hrow⟩ := fullService_due ht hc hw hn hh
    obtain ⟨htake, hheld, hpeer, hsvc, hgap⟩ := serviced_keeps (t := t) (fw := fw) hr
    refine .of_done (congrArg done hrow) fun u hu => ?_
    have hreg : (u.die d).reg Reg.RED_TO_GAP = ((serviced s d t fw).die d).reg Reg.RED_TO_GAP :=
      mirrorAll_reg hu (by decide) (by decide) (by decide) d
    obtain ⟨hrole, htaking⟩ := mirrorAll_role hu
    refine ⟨(mirrorAll_kept hu (·.red.takeover) (fun _ => rfl) (fun _ _ => rfl) (fun _ => rfl) d).trans htake,
      (mirrorAll_kept hu (·.red.held) (fun _ => rfl) (fun _ _ => rfl) (fun _ => rfl) d).trans hheld,
      (mirrorAll_kept hu (·.red.takeover) (fun _ => rfl) (fun _ _ => rfl) (fun _ => rfl) d.peer).trans hpeer, hrole, htaking, ?_, ?_⟩
    · rw [Die.rf, hreg]
      exact hsvc
    · rw [Die.rf, hreg]
      exact hgap
  case starts =>
    obtain ⟨s1, h1, hrow⟩ := resyncStart_due hr hf h
    let v := setMode s1 d (fun w => fput F.RED_MODE_RESYNC (fput F.RED_MODE_ROLE w 0) 1)
    let w := slaveClock (joining v d s.ticks) d
    have hmode (f : Fld) (hf : f ∈ modeFields) : ((settle w).die d).rf Reg.RED_MODE f = (v.die d).rf Reg.RED_MODE f :=
      ((OnlyRecords.settle w).mode d f hf).trans (joining_mode v d d s.ticks f)
    have hresync : (v.die d).rf Reg.RED_MODE F.RED_MODE_RESYNC = 1 := by
      refine (setMode_field s1 d _ (by decide) (by decide)).trans ?_
      rw [fget_fput_same _ (by decide)]
      rfl
    have hrole : (v.die d).rf Reg.RED_MODE F.RED_MODE_ROLE = 0 := by
      refine (setMode_field s1 d _ (by decide) (by decide)).trans ?_
      rw [fget_fput_other _ _ (by decide) (by decide) (by decide), fget_fput_same _ (by decide)]
      rfl
    have hpeer : (w.die d.peer).role = 1 := by
      have hdecl : (s.die d.peer).isDecl = true := by
        simp only [resyncFrom, Bool.and_eq_true] at hf
        exact hf.1.2
      have hne : d.peer ≠ d := by cases d <;> decide
      refine (joining_mode v d d.peer s.ticks _).trans ((setMode_die_other s1 hne _ (by decide)).trans ((h1.mode d.peer _ (by decide)).trans ?_))
      exact of_decide_eq_true hdecl
    have hnone (e : DieId) : (w.die e).isDummy = false := by
      have hd : (w.die d).role = 0 := (joining_mode v d d s.ticks _).trans hrole
      have he : e = d ∨ e = d.peer := by cases d <;> cases e <;> decide
      unfold Die.isDummy
      rcases he with rfl | rfl
      · rw [hd]; rfl
      · rw [hpeer]; rfl
    have hred := (KeepsRed.settle hnone).red
    obtain ⟨⟨hload, hheld, htake⟩, hsent, hacks⟩ := joining_red v d s.ticks
    refine ⟨settle w, congrArg done hrow, (hmode _ (by decide)).trans hresync, (hmode _ (by decide)).trans hrole, ?_, ?_, ?_, ?_, ?_⟩ <;> rw [hred]
    · exact hload
    · exact hheld
    · exact htake
    · exact hsent
    · exact hacks
  case completes =>
    let v := resynced s d
    let w := setMode v d (fun w => fput F.RED_MODE_ROLE (fput F.RED_MODE_RESYNC w 0) 2)
    obtain ⟨hmode, hdealer, hdecks, hcal⟩ := joined_keeps w d d
    have hpart {α : Type} (π : Die → α) (hq : ∀ x, π x.quiet = π x) (hs : ∀ x, π x.steady = π x) (hc : ∀ (x : Die) c, π { x with clock := c } = π x) :
        π (w.die d) = π ((s.die d).loaded (s.die d.peer)) := by
      refine (setMode_die_eq v d d _ π hq).trans ((resynced_die_eq π hq hs hc s d d).trans ?_)
      rw [State.die_onDie_same]
    obtain ⟨hxd, hxk, hxc⟩ := loaded_keeps (s.die d) (s.die d.peer)
    refine .of_done (congrArg done (resyncComplete_due hi hl hf hw)) fun t ht => ⟨?_, ?_, ?_, ?_, ?_, ?_⟩
    · rw [ht.mode d _ (by decide), hmode]
      refine (setMode_field v d _ (by decide) (by decide)).trans ?_
      rw [fget_fput_other _ _ (by decide) (by decide) (by decide), fget_fput_same _ (by decide)]
      rfl
    · rw [ht.mode d _ (by decide), hmode]
      refine (setMode_field v d _ (by decide) (by decide)).trans ?_
      rw [fget_fput_same _ (by decide)]
      rfl
    · rw [ht.die_dealer, hdealer]
      exact (hpart Die.dealer (fun _ => rfl) (fun _ => rfl) fun _ _ => rfl).trans hxd
    · rw [ht.die_decks, hdecks]
      exact (hpart Die.decks (fun _ => rfl) (fun _ => rfl) fun _ _ => rfl).trans hxk
    · rw [ht.die_cal, hcal]
      exact (hpart Die.cal (fun _ => rfl) (fun _ => rfl) fun _ _ => rfl).trans hxc
    · rw [Die.rf, ht.regs d.peer _ (by decide)]
      exact joined_solo w d

end Sys2Proof.Machine
end

section
/-!
PROOFS. Reactions to occurrences (R467, R468), and the windows that end (R436, R469).
-/

namespace Sys2Proof.Machine

/-- Below the redundancy unit's registers only the sticky words take records. -/
theorem recordKey_low {k : Nat} (h : k < 0x9000) (hs : k < 0x4000 ∨ 0x4020 ≤ k) : recordKey k = false := by
  simp only [recordKey, Bool.or_eq_false_iff, beq_eq_false_iff_ne, Bool.and_eq_false_iff, decide_eq_false_iff_not, List.any_cons, List.any_nil,
    and_true]
  simp only [Reg.RED_MODE, Reg.FLT_STICKY, Reg.HIF_EV_LOST, Reg.HIF_TM_LOST, Reg.HIF_RING_MOD]
  omega

theorem srcKey_lt {n : Nat} (h : n < 256) : Reg.FLT_SRC n < 0x9000 := by unfold Reg.FLT_SRC; omega

theorem recordKey_srcKey {n : Nat} (h : n < 256) : recordKey (Reg.FLT_SRC n) = false :=
  recordKey_low (srcKey_lt h) (.inr (by unfold Reg.FLT_SRC; omega))

/-! ## Counted occurrences -/

theorem srcBit_getLsbD {n : Nat} (h : n < 256) : (srcBit n).getLsbD n = true := by
  unfold srcBit
  rw [BitVec.getLsbD_ofNat, Nat.testBit_two_pow]
  simp [h]

/-- The count that an occurrence leaves, and whether it is severe. -/
def countAfter (x : Die) (n : Nat) : Nat :=
  if x.flt.windows.any (fun w => w.source = n) then min 255 (x.rf (Reg.FLT_SRC n) F.FLT_SRC_COUNT + 1) else 1

def severeAfter (x : Die) (n : Nat) : Bool := decide (max 1 (x.rf (Reg.FLT_SRC n) F.FLT_SRC_N) ≤ countAfter x n) || x.flt.promo.getLsbD n

/-- Counting an occurrence writes COUNT, opens a window where none is open, and promotes. -/
theorem countOcc_eq (x : Die) {n : Nat} (hn : n < 256) (ticks : Nat) : (countOcc x n ticks).2 = severeAfter x n ∧
    ∃ y, (countOcc x n ticks).1 = y ∧ (∀ k, y.reg k = (x.setRf (Reg.FLT_SRC n) F.FLT_SRC_COUNT (countAfter x n)).reg k) ∧
      y.flt.promo.getLsbD n = severeAfter x n ∧
      (x.flt.windows.any (fun w => w.source = n) = false → ∃ w ∈ y.flt.windows, w.source = n ∧
        w.closes = ticks + winTicks x (x.rf (Reg.FLT_SRC n) F.FLT_SRC_WIN)) := by
  have hcount : satAdd 8 (x.rf (Reg.FLT_SRC n) F.FLT_SRC_COUNT) 1 = min 255 (x.rf (Reg.FLT_SRC n) F.FLT_SRC_COUNT + 1) := rfl
  unfold countOcc
  extract_lets k open_ c y z severe
  have hflt : y.flt = x.flt := Die.setRf_flt ..
  have hz : (∀ k, z.reg k = y.reg k) ∧ z.flt.promo = x.flt.promo ∧
      (open_ = false → ∃ w ∈ z.flt.windows, w.source = n ∧ w.closes = ticks + winTicks x (x.rf (Reg.FLT_SRC n) F.FLT_SRC_WIN)) := by
    unfold z
    split
    next h => exact ⟨fun _ => Eq.refl _, congrArg Flt.promo hflt, fun ho => absurd h (by simp [ho])⟩
    next h =>
      refine ⟨fun k => Die.onFlt_reg y _ k, (congrArg Flt.promo (Die.onFlt_flt y _)).trans (show y.flt.promo = x.flt.promo by rw [hflt]), fun _ => ?_⟩
      rw [Die.onFlt_flt]
      exact ⟨_, List.mem_append_right _ (List.mem_singleton.2 rfl), rfl, rfl⟩
  have hc : y = x.setRf k F.FLT_SRC_COUNT (countAfter x n) := rfl
  clear_value z y
  obtain ⟨hreg, hpromo, hwin⟩ := hz
  refine ⟨rfl, _, rfl, ?_, ?_, ?_⟩
  · intro j
    refine Eq.trans ?_ ((hreg j).trans (congrArg (fun v => Die.reg v j) hc))
    split
    · exact Die.onFlt_reg z _ j
    · rfl
  · have hs : severeAfter x n = severe := rfl
    split
    next h =>
      rw [hs, h, Die.onFlt_flt]
      refine (BitVec.getLsbD_or ..).trans ?_
      rw [srcBit_getLsbD hn, Bool.or_true]
    next h =>
      have hlow : x.flt.promo.getLsbD n = false := by
        cases hp : x.flt.promo.getLsbD n
        · rfl
        · exact absurd (by unfold severe; rw [hp, Bool.or_true]) h
      rw [hpromo, hs, hlow, Bool.eq_false_iff.2 h]
  · intro ho
    split
    · rw [Die.onFlt_flt]
      exact hwin ho
    · exact hwin ho

/-! ## Reactions -/

/-- A first entry of a recovery domain shows in RED_ESC only. -/
theorem noteEsc_first (s : State) (d : DieId) (dom : Domain) (i level : Nat) (e : DieId) :
    ((noteEsc s d dom i level false).die e).flt = (s.die e).flt ∧
      ∀ j, j < 0x9000 → ((noteEsc s d dom i level false).die e).reg j = (s.die e).reg j := by
  unfold noteEsc
  extract_lets k put s1
  rw [if_neg (by decide)]
  have hk : ∀ j, j < 0x9000 → j ≠ k := fun j hj => by unfold k Reg.RED_ESC; omega
  have hflt (x : Die) : (put x).flt = x.flt := by
    unfold put
    split
    · rw [Die.setRf_flt, Die.setRf_flt]
    · rfl
  have hreg (x : Die) (j : Nat) (hj : j < 0x9000) : (put x).reg j = x.reg j := by
    unfold put
    split
    · rw [Die.reg_setRf_other _ (hk j hj), Die.reg_setRf_other _ (hk j hj)]
    · rfl
  clear_value put
  exact ⟨(die_onDie_keeps (·.flt) hflt _ .cd1 e).trans (die_onDie_keeps (·.flt) hflt _ .cd0 e), fun j hj =>
    (die_onDie_keeps (·.reg j) (fun x => hreg x j hj) _ .cd1 e).trans (die_onDie_keeps (·.reg j) (fun x => hreg x j hj) _ .cd0 e)⟩

theorem putEsc_die (s : State) (entry : Esc) (e : DieId) : (s.putEsc entry).die e = s.die e := by cases e <;> rfl

theorem ownAction_low (t : State) (d : DieId) (dom : Option Domain) (i src : Nat) {code : Nat} (hc : code ≤ 3) : ownAction t d dom i src code = t := by
  unfold ownAction
  rw [if_neg (by omega), if_neg (by omega)]

/-- A reaction below a block reset, with no escalation under way, adds the domain's entry and nothing more. -/
theorem escalate_low (s : State) (d : DieId) (src inst stamp : Nat) {code : Nat} (hc : code ≤ 3) (he : s.esc = []) (e : DieId) :
    ((escalate s d src inst code stamp).die e).flt = (s.die e).flt ∧
      ∀ k, k < 0x9000 → ((escalate s d src inst code stamp).die e).reg k = (s.die e).reg k := by
  unfold escalate
  split
  · rw [ownAction_low _ _ _ _ _ hc]
    exact ⟨rfl, fun _ _ => rfl⟩
  next dom _ =>
    extract_lets i first entry
    have hnone : s.escOf dom i = none := by unfold State.escOf; rw [he]; rfl
    rw [hnone]
    dsimp only
    rw [ownAction_low _ _ _ _ _ hc, ← putEsc_die s (entry first) e]
    exact noteEsc_first _ d dom i first e

/-- The pin bit of a source after a reaction. -/
def pinAfter (p : BitVec 256) (n code : Nat) : BitVec 256 := if 2 ≤ code then p ||| srcBit n else p &&& ~~~ srcBit n

theorem pinAfter_getLsbD (p : BitVec 256) {n : Nat} (h : n < 256) (code : Nat) : (pinAfter p n code).getLsbD n = decide (2 ≤ code) := by
  unfold pinAfter
  split
  next hc => rw [BitVec.getLsbD_or, srcBit_getLsbD h, Bool.or_true, decide_eq_true hc]
  next hc => rw [BitVec.getLsbD_and, BitVec.getLsbD_not, srcBit_getLsbD h, decide_eq_false hc]; simp

/-- The die of a state has that collector, but for what records write, and those words below the redundancy unit's. -/
structure Collects (s : State) (d : DieId) (x : Die) : Prop where
  windows : (s.die d).flt.windows = x.flt.windows
  promo : (s.die d).flt.promo = x.flt.promo
  pin : (s.die d).flt.pin = x.flt.pin
  reg : ∀ k, k < 0x9000 → recordKey k = false → (s.die d).reg k = x.reg k

theorem Collects.records {s t : State} {d : DieId} {x : Die} (h : Collects s d x) (ht : OnlyRecords s t) : Collects t d x where
  windows := (ht.die_eq d (·.flt.windows) fun _ => rfl).trans h.windows
  promo := (ht.die_eq d (·.flt.promo) fun _ => rfl).trans h.promo
  pin := (ht.die_eq d (·.flt.pin) fun _ => rfl).trans h.pin
  reg k hk hr := (ht.regs d k hr).trans (h.reg k hk hr)

/-- A reaction below a block reset leaves the collector as counting and the pin make it. -/
theorem react_low (s : State) (d : DieId) (o : FltOcc) (he : s.esc = []) {c : Die} {severe : Bool} {code : Nat}
    (hc : countOcc (s.die d) o.source s.ticks = (c, severe))
    (hcode : c.rf (Reg.FLT_SRC o.source) (if severe then F.FLT_SRC_SEVERE else F.FLT_SRC_NORMAL) = code) (h3 : code ≤ 3) :
    Collects (react s d o) d (c.onFlt (fun f => { f with pin := pinAfter f.pin o.source code })) := by
  unfold react
  rw [hc]
  dsimp -zeta only
  extract_lets k code' own taken z forced s1 s2 s3
  have hz : z = c.onFlt (fun f => { f with pin := pinAfter f.pin o.source code }) := by rw [← hcode]; rfl
  have hcode' : code' = code := hcode
  have h1 : Collects s1 d z := by
    have hd : s1.die d = z := State.die_setDie_same ..
    exact ⟨by rw [hd], by rw [hd], by rw [hd], fun k _ _ => by rw [hd]⟩
  have h2 : OnlyRecords s1 s2 := by
    unfold s2
    split
    · exact .eventAt ..
    · exact .refl _
  have h13 : OnlyRecords s1 s3 := by
    unfold s3
    split
    · exact h2.trans (.emit ..)
    · exact h2
  have hesc : s3.esc = [] := (congrArg State.esc h13.quiet).trans ((State.setDie_esc s d z).trans he)
  have hrec := h1.records h13
  rw [← hz, hcode']
  clear_value s3 z
  split
  · exact hrec
  · obtain ⟨hflt, hreg⟩ := escalate_low s3 d o.source o.inst o.stamp h3 hesc d
    exact ⟨by rw [hflt, hrec.windows], by rw [hflt, hrec.promo], by rw [hflt, hrec.pin], fun k hk hr => (hreg k hk).trans (hrec.reg k hk hr)⟩

theorem find_source {l : List FltOcc} {n : Nat} {o : FltOcc} (h : l.find? (fun o => o.source = n) = some o) : o.source = n :=
  of_decide_eq_true (List.find?_some h :)

/-- A reaction by a word without a block reset or a reset of the die. -/
theorem react_counts {s t : State} {d : DieId} {o : FltOcc} {n : Nat} (ht : OnlyRecords (react s d o) t) (ho : o.source = n) (hn : n < 256) (he : s.esc = [])
    (h1 : (s.die d).rf (Reg.FLT_SRC n) F.FLT_SRC_NORMAL ≤ 3) (h2 : (s.die d).rf (Reg.FLT_SRC n) F.FLT_SRC_SEVERE ≤ 3) :
    (t.die d).rf (Reg.FLT_SRC n) F.FLT_SRC_COUNT = countAfter (s.die d) n ∧
      (t.die d).flt.promo.getLsbD n = severeAfter (s.die d) n ∧
      (t.die d).flt.pin.getLsbD n =
        decide (2 ≤ (s.die d).rf (Reg.FLT_SRC n) (if severeAfter (s.die d) n then F.FLT_SRC_SEVERE else F.FLT_SRC_NORMAL)) ∧
      ((s.die d).flt.windows.any (fun w => w.source = n) = false → ∃ w ∈ (t.die d).flt.windows, w.source = n ∧
        w.closes = s.ticks + winTicks (s.die d) ((s.die d).rf (Reg.FLT_SRC n) F.FLT_SRC_WIN)) := by
  subst ho
  obtain ⟨hsev, c, hc, hreg, hpromo, hwin⟩ := countOcc_eq (s.die d) hn s.ticks
  have hcount : countAfter (s.die d) o.source < 2 ^ 8 := by unfold countAfter; split <;> omega
  have hkeep {f : Fld} (hd : F.FLT_SRC_COUNT.hi < f.lo) (hg : f.lo ≤ f.hi) (h32 : f.hi < 32) :
      c.rf (Reg.FLT_SRC o.source) f = (s.die d).rf (Reg.FLT_SRC o.source) f := by
    rw [Die.rf, hreg, ← Die.rf]
    exact Die.rf_setRf_apart _ _ (by decide) (.inr hd) hg h32 _
  have hcode : c.rf (Reg.FLT_SRC o.source) (if severeAfter (s.die d) o.source then F.FLT_SRC_SEVERE else F.FLT_SRC_NORMAL) =
      (s.die d).rf (Reg.FLT_SRC o.source) (if severeAfter (s.die d) o.source then F.FLT_SRC_SEVERE else F.FLT_SRC_NORMAL) := by
    split
    · exact hkeep (by decide) (by decide) (by decide)
    · exact hkeep (by decide) (by decide) (by decide)
  have h := (react_low s d o he (Prod.ext hc hsev) hcode (by split <;> assumption)).records ht
  refine ⟨?_, ?_, ?_, fun ho => ?_⟩
  · rw [Die.rf, h.reg _ (srcKey_lt hn) (recordKey_srcKey hn), Die.onFlt_reg, hreg, ← Die.rf,
      Die.rf_setRf_same _ _ (by decide) (by decide)]
    exact Nat.mod_eq_of_lt hcount
  · rw [h.promo, Die.onFlt_flt]
    exact hpromo
  · rw [h.pin, Die.onFlt_flt]
    exact pinAfter_getLsbD _ hn _
  · rw [h.windows, Die.onFlt_flt]
    exact hwin ho

/-! ## Windows that end -/

theorem endPromo_eq (x : Die) {n : Nat} (hn : n < 256) (hw : ∀ w ∈ x.flt.windows, w.source ≠ n) :
    (endPromo x n).flt.promo.getLsbD n = (x.flt.promo.getLsbD n && x.mapBit (Reg.FLT_STICKY 0) n) ∧
      (endPromo x n).flt.windows = x.flt.windows ∧ ∀ k, (endPromo x n).reg k = x.reg k := by
  have hany : x.flt.windows.any (fun w => w.source = n) = false :=
    List.any_eq_false.2 fun w h => by rw [decide_eq_false (hw w h)]; decide
  unfold endPromo
  rw [hany, Bool.false_or]
  cases x.mapBit (Reg.FLT_STICKY 0) n
  · refine ⟨?_, rfl, fun k => Die.onFlt_reg ..⟩
    rw [if_neg (by decide), Die.onFlt_flt]
    change (x.flt.promo &&& ~~~ srcBit n).getLsbD n = _
    rw [BitVec.getLsbD_and, BitVec.getLsbD_not, srcBit_getLsbD hn]
    simp
  · exact ⟨(Bool.and_true _).symm, rfl, fun _ => rfl⟩

/-- The end of a window clears the source's count and closes its window. -/
theorem faultWindowExpiry_ends {s : State} {d : DieId} {n : Nat} (hn : n < 256) (hr : (s.die d).running = true)
    (hw : ∃ w ∈ (s.die d).flt.windows, w.source = n ∧ w.closes ≤ s.ticks) :
    let y := (faultWindowExpiry d n s).die d
    y.rf (Reg.FLT_SRC n) F.FLT_SRC_COUNT = 0 ∧ (∀ v ∈ y.flt.windows, v.source ≠ n) ∧
      y.flt.promo.getLsbD n = ((s.die d).flt.promo.getLsbD n && (s.die d).mapBit (Reg.FLT_STICKY 0) n) := by
  obtain ⟨w, hm, hs, hc⟩ := hw
  have hdue : (s.die d).flt.windows.any (fun w => w.source = n && decide (w.closes ≤ s.ticks)) = true :=
    List.any_eq_true.2 ⟨w, hm, by rw [decide_eq_true hs, decide_eq_true hc]; rfl⟩
  have hrow : faultWindowExpiry d n s = s.onDie d (fun x => endPromo ((x.setRf (Reg.FLT_SRC n) F.FLT_SRC_COUNT 0).onFlt (fun f =>
      { f with windows := f.windows.filter (fun w => decide (w.source ≠ n)) })) n) :=
    if_neg (by rw [hr, hdue]; decide)
  intro y
  unfold y
  rw [hrow]
  rw [State.die_onDie_same]
  generalize s.die d = x
  have hwin : ∀ v ∈ ((x.setRf (Reg.FLT_SRC n) F.FLT_SRC_COUNT 0).onFlt
      (fun f => { f with windows := f.windows.filter (fun w => decide (w.source ≠ n)) })).flt.windows, v.source ≠ n := fun v hv =>
    of_decide_eq_true (List.mem_filter.1 hv).2
  have hkey : ∀ i, Reg.FLT_STICKY 0 + 4 * i ≠ Reg.FLT_SRC n ∨ 256 ≤ i := by unfold Reg.FLT_STICKY Reg.FLT_SRC; omega
  obtain ⟨hp, hl, hk⟩ := endPromo_eq _ hn hwin
  refine ⟨?_, ?_, ?_⟩
  · rw [Die.rf, hk, Die.onFlt_reg, ← Die.rf, Die.rf_setRf_same _ _ (by decide) (by decide), Nat.zero_mod]
  · rw [hl]
    exact hwin
  · rw [hp, Die.onFlt_flt, Die.setRf_flt]
    unfold Die.mapBit
    rw [Die.onFlt_reg, Die.reg_setRf_other _ ((hkey _).resolve_right (by omega))]

theorem faultWindowExpiry_idle {s : State} {d : DieId} {n : Nat}
    (h : (s.die d).running = false ∨ ∀ w ∈ (s.die d).flt.windows, w.source = n → s.ticks < w.closes) : faultWindowExpiry d n s = s := by
  refine if_pos ?_
  rcases h with h | h
  · rw [h]; rfl
  · have hnone : (s.die d).flt.windows.any (fun w => w.source = n && decide (w.closes ≤ s.ticks)) = false :=
      List.any_eq_false.2 fun w hw => by
        rw [Bool.and_eq_true, decide_eq_true_eq, decide_eq_true_eq]
        exact fun ⟨hs, hc⟩ => absurd (h w hw hs) (by omega)
    rw [hnone, Bool.not_false, Bool.or_true]

/-! ## Escalation windows -/

/-- The entry of a recovery domain whose window is over. -/
def escPast (k i ticks : Nat) (e : Esc) : Bool := decide (e.dom.num = k) && decide (e.inst = i) && decide (e.ends ≤ ticks)

/-- RED_ESC_k of a die that shows the domain. -/
def escCleared (k i : Nat) (x : Die) : Die :=
  if x.running && x.rf (Reg.RED_ESC k) F.RED_ESC_INSTANCE = i then x.setRf (Reg.RED_ESC k) F.RED_ESC_LEVEL 0 else x

theorem escExpiry_eq (k i : Nat) (s : State) : escExpiry k i s = if s.esc.any (escPast k i s.ticks) then
    ({ s with esc := s.esc.filter (fun e => !escPast k i s.ticks e) }.onDie .cd0 (escCleared k i)).onDie .cd1 (escCleared k i) else s := rfl

theorem escCleared_level {k i : Nat} {x : Die} (hr : x.running = true) (hi : x.rf (Reg.RED_ESC k) F.RED_ESC_INSTANCE = i) :
    (escCleared k i x).rf (Reg.RED_ESC k) F.RED_ESC_LEVEL = 0 := by
  unfold escCleared
  rw [hr, decide_eq_true hi, if_pos (by decide), Die.rf_setRf_same _ _ (by decide) (by decide), Nat.zero_mod]

theorem die_onDie_both (s : State) (f : Die → Die) (d : DieId) : (((s.onDie .cd0 f).onDie .cd1 f).die d) = f (s.die d) := by
  cases d <;> rfl

theorem recordKey_esc : ∀ k : Fin 5, recordKey (Reg.RED_ESC k) = false := by decide

theorem escExpiry_answers (k : Fin 5) (i : Nat) (s : State) (h : ∃ e ∈ s.esc, e.dom.num = k.val ∧ e.inst = i ∧ e.ends ≤ s.ticks) :
    Answers (.escalationWindowExpiry k i) s (fun t => t.esc = s.esc.filter (fun e => !escPast k i s.ticks e) ∧
      ∀ d, (s.die d).running = true → (s.die d).rf (Reg.RED_ESC k) F.RED_ESC_INSTANCE = i →
        (t.die d).rf (Reg.RED_ESC k) F.RED_ESC_LEVEL = 0) := by
  obtain ⟨e, hm, hk, hi, hend⟩ := h
  have hany : s.esc.any (escPast k i s.ticks) = true :=
    List.any_eq_true.2 ⟨e, hm, by rw [escPast, decide_eq_true hk, decide_eq_true hi, decide_eq_true hend]; rfl⟩
  have he := escExpiry_eq k i s
  rw [if_pos hany] at he
  refine .of_done (congrArg done he) fun t ht => ⟨?_, fun d hr hinst => ?_⟩
  · refine (congrArg State.esc ht.quiet).trans ?_
    change State.esc (State.onDie _ _ _) = _
    rw [State.onDie_esc, State.onDie_esc]
  · rw [Die.rf, ht.regs d _ (recordKey_esc k), ← Die.rf, die_onDie_both]
    have hd : ({ s with esc := s.esc.filter (fun e => !escPast k i s.ticks e) }.die d) = s.die d := by cases d <;> rfl
    rw [hd]
    exact escCleared_level hr hinst

theorem escExpiry_idle (k : Fin 5) (i : Nat) (s : State) (h : ∀ e ∈ s.esc, e.dom.num = k.val → e.inst = i → s.ticks < e.ends) :
    escExpiry k i s = s := by
  rw [escExpiry_eq, if_neg]
  rw [List.any_eq_true]
  rintro ⟨e, hm, he⟩
  rw [escPast, Bool.and_eq_true, Bool.and_eq_true, decide_eq_true_eq, decide_eq_true_eq, decide_eq_true_eq] at he
  obtain ⟨⟨hk, hi⟩, hend⟩ := he
  exact absurd (h e hm hk hi) (by omega)

/-! ## The obligation -/

theorem faultReaction_idle {s : State} {d : DieId} {n : Nat} (h : ∀ o ∈ (s.die d).flt.occ, o.source ≠ n) : faultReaction d n s = s := by
  have hnone : (s.die d).flt.occ.find? (fun o => o.source = n) = none := List.find?_eq_none.2 fun o ho hd => h o ho (of_decide_eq_true hd)
  unfold faultReaction
  dsimp only
  rw [hnone]

theorem faultReaction_waits {s : State} {d : DieId} {n : Nat} {o : FltOcc} (ho : (s.die d).flt.occ.find? (fun o => o.source = n) = some o)
    (h : (s.die d).running = false ∨ recovering s o = true) : faultReaction d n s = s := by
  unfold faultReaction
  dsimp only
  rw [ho]
  refine if_pos ?_
  rcases h with h | h <;> rw [h]
  · rfl
  · exact Bool.or_true _

/-- The earliest occurrence of a source that waits is taken out and reacted to. -/
theorem faultReaction_due {s : State} {d : DieId} {n : Nat} {o : FltOcc} (ho : (s.die d).flt.occ.find? (fun o => o.source = n) = some o)
    (hr : (s.die d).running = true) (hw : recovering s o = false) :
    faultReaction d n s = react (s.onDie d (fun x => x.onFlt (fun f => { f with occ := f.occ.erase o }))) d o := by
  unfold faultReaction
  dsimp only
  rw [ho]
  exact if_neg (by rw [hr, hw]; decide)

/-- Settles O36, row by row: the collector after a reaction is `react_counts`, a window that ends `faultWindowExpiry_ends`, an escalation
entry that ends `escExpiry_answers`. -/
theorem faultsReact : Obligations.FaultsReact := by
  refine ⟨fun d n s => ?_, fun k i s => ?_⟩
  · intro x k
    refine ⟨fun h => .of_row rfl (faultReaction_idle h), fun o ho => ⟨fun h => .of_row rfl (faultReaction_waits ho h), fun hr hw => ?_⟩,
      fun h => .of_row rfl (faultWindowExpiry_idle h), fun w hm hr hs hc => ?_⟩
    · have he := faultReaction_due ho hr hw
      refine ⟨.of_row rfl he, fun h1 h2 hesc => .of_done (congrArg done he) fun t ht => ?_⟩
      have hd : (s.onDie d (fun x => x.onFlt (fun f => { f with occ := f.occ.erase o }))).die d =
          x.onFlt (fun f => { f with occ := f.occ.erase o }) := State.die_onDie_same ..
      have h := react_counts ht (find_source ho) (by omega) ((State.onDie_esc ..).trans hesc) (by rw [hd]; exact h1) (by rw [hd]; exact h2)
      rw [hd, State.onDie_ticks] at h
      exact h
    · have hn : n.val < 256 := by omega
      obtain ⟨h1, h2, h3⟩ := faultWindowExpiry_ends hn hr ⟨w, hm, hs, hc⟩
      refine .of_done (congrArg done rfl) fun t ht => ?_
      refine ⟨?_, ?_, ?_⟩
      · rw [Die.rf, ht.regs d _ (recordKey_srcKey hn), ← Die.rf]; exact h1
      · rw [ht.die_eq d (·.flt.windows) fun _ => rfl]; exact h2
      · rw [ht.die_eq d (·.flt.promo) fun _ => rfl]; exact h3
  · exact ⟨fun h => .of_row rfl (escExpiry_idle k i s h), fun h => escExpiry_answers k i s h⟩

end Sys2Proof.Machine
end

section
/-!
PROOFS. Sticky, force and reaction words of the fault collector (R463, R464, R466, R467).
-/

namespace Sys2Proof.Machine

/-! ## Bits of the register maps -/

theorem bitOf_mod (w : Nat) {i : Nat} (h : i < 32) : bitOf (w % 2 ^ 32) i = bitOf w i := by
  rw [bitOf_eq_testBit, bitOf_eq_testBit, Nat.testBit_mod_two_pow, decide_eq_true h, Bool.true_and]

/-- A bit of a map of words reads as it was written, and every other one stays. -/
theorem Die.mapBit_setMapBit (x : Die) (k i : Nat) (b : Bool) (j : Nat) :
    (x.setMapBit k i b).mapBit k j = if j = i then b else x.mapBit k j := by
  have hlt : j % 32 < 32 := Nat.mod_lt _ (by decide)
  unfold Die.mapBit
  by_cases hw : j / 32 = i / 32
  · unfold Die.setMapBit
    rw [hw, Die.reg_setReg_same, bitOf_mod _ hlt, bitOf_eq_testBit, testBit_setBit]
    by_cases h : j = i
    · rw [if_pos h, if_pos (by rw [h])]
    · rw [if_neg h, if_neg (by omega), bitOf_eq_testBit]
  · rw [Die.reg_setMapBit_other x (by omega), if_neg (by rintro rfl; exact hw rfl)]

theorem Die.mapBit_of_regs {x y : Die} {k i : Nat} (h : y.reg (k + 4 * (i / 32)) = x.reg (k + 4 * (i / 32))) : y.mapBit k i = x.mapBit k i :=
  congrArg (bitOf · (i % 32)) h

/-- An occurrence sets the source's sticky bit and no other. -/
theorem Die.mapBit_occur (x : Die) (src inst : Nat) (real : Bool) (n j : Nat) :
    (x.occur src inst real n).mapBit (Reg.FLT_STICKY 0) j = if j = src then true else x.mapBit (Reg.FLT_STICKY 0) j := by
  rw [← Die.mapBit_setMapBit]
  unfold Die.occur
  simp only
  split <;> split <;> rfl

/-- An occurrence sets no other source's RAW bit. -/
theorem Die.raw_occur (x : Die) (src inst : Nat) (real : Bool) (n : Nat) {j : Nat} (h : j ≠ src) :
    (x.occur src inst real n).flt.raw.getLsbD j = x.flt.raw.getLsbD j := by
  have hbit : (x.flt.raw ||| BitVec.ofNat 256 (2 ^ src)).getLsbD j = x.flt.raw.getLsbD j := by
    rw [BitVec.getLsbD_or, BitVec.getLsbD_ofNat, Nat.testBit_two_pow]
    simp [Ne.symm h]
  unfold Die.occur
  simp only
  split <;> split
  · exact hbit
  · exact hbit
  · rfl
  · rfl

/-! ## Event sources while a state settles -/

/-- From x to y the sticky and RAW bits of event sources stay, but for those of source 161, and no sticky bit falls. -/
structure Die.KeepsFlags (x y : Die) : Prop where
  same : ∀ j, j < 256 → srcIsLevel j = false → j ≠ 161 →
    y.mapBit (Reg.FLT_STICKY 0) j = x.mapBit (Reg.FLT_STICKY 0) j ∧ y.flt.raw.getLsbD j = x.flt.raw.getLsbD j
  up : ∀ j, j < 256 → x.mapBit (Reg.FLT_STICKY 0) j = true → y.mapBit (Reg.FLT_STICKY 0) j = true

namespace Die.KeepsFlags
variable {x y z : Die}

theorem refl (x : Die) : KeepsFlags x x := ⟨fun _ _ _ _ => ⟨rfl, rfl⟩, fun _ _ h => h⟩

theorem trans (h : KeepsFlags x y) (k : KeepsFlags y z) : KeepsFlags x z :=
  ⟨fun j hj hl hn => ⟨(k.same j hj hl hn).1.trans (h.same j hj hl hn).1, (k.same j hj hl hn).2.trans (h.same j hj hl hn).2⟩,
    fun j hj hx => k.up j hj (h.up j hj hx)⟩

/-- What leaves the sticky words and RAW. -/
theorem of_words (hr : ∀ k, k < 0x4020 → y.reg k = x.reg k) (hf : y.flt.raw = x.flt.raw) : KeepsFlags x y := by
  have h (j : Nat) (hj : j < 256) : y.mapBit (Reg.FLT_STICKY 0) j = x.mapBit (Reg.FLT_STICKY 0) j :=
    Die.mapBit_of_regs (hr _ (by unfold Reg.FLT_STICKY; omega))
  exact ⟨fun j hj _ _ => ⟨h j hj, by rw [hf]⟩, fun j hj hx => (h j hj).trans hx⟩

/-- A raised level source, or source 161. -/
theorem occur (x : Die) {src : Nat} (hs : src < 256) (h : srcIsLevel src = true ∨ src = 161) (inst : Nat) (real : Bool) (n : Nat) :
    KeepsFlags x (x.occur src inst real n) := by
  refine ⟨fun j hj hl hn => ?_, fun j _ hx => ?_⟩
  · have hne : j ≠ src := by
      rintro rfl
      rcases h with h | h
      · rw [hl] at h; cases h
      · exact hn h
    exact ⟨by rw [Die.mapBit_occur, if_neg hne], Die.raw_occur _ _ _ _ _ hne⟩
  · rw [Die.mapBit_occur, hx, ite_self]

/-- A level source's RAW bit. -/
theorem raw (x : Die) {src : Nat} (hl : srcIsLevel src = true) {r : BitVec 256} (hr : ∀ j, j < 256 → j ≠ src → r.getLsbD j = x.flt.raw.getLsbD j) :
    KeepsFlags x { x with flt := { x.flt with raw := r } } := by
  refine ⟨fun j hj hj' _ => ⟨rfl, hr j hj ?_⟩, fun _ _ hx => hx⟩
  rintro rfl
  rw [hl] at hj'
  cases hj'

end Die.KeepsFlags

/-- From s to t both dies keep them. -/
structure KeepsFlags (s t : State) : Prop where
  die : ∀ e, (s.die e).KeepsFlags (t.die e)

namespace KeepsFlags
variable {s t u : State}

theorem refl (s : State) : KeepsFlags s s := ⟨fun _ => .refl _⟩

theorem trans (h : KeepsFlags s t) (k : KeepsFlags t u) : KeepsFlags s u := ⟨fun e => (h.die e).trans (k.die e)⟩

theorem emit (s : State) (o : Out) : KeepsFlags s (s.emit o) := ⟨fun e => by rw [State.die_emit]; exact .refl _⟩

theorem onDie (s : State) (d : DieId) {f : Die → Die} (h : (s.die d).KeepsFlags (f (s.die d))) : KeepsFlags s (s.onDie d f) := by
  refine ⟨fun e => ?_⟩
  by_cases he : e = d
  · rw [he, State.die_onDie_same]; exact h
  · rw [State.die_onDie_other s he]; exact .refl _

theorem foldl {α : Type} (g : State → α → State) (l : List α) (h : ∀ t, ∀ a ∈ l, KeepsFlags t (g t a)) (s : State) : KeepsFlags s (l.foldl g s) := by
  induction l generalizing s with
  | nil => exact .refl s
  | cons a l ih => exact (h s a List.mem_cons_self).trans (ih (fun t b hb => h t b (List.mem_cons_of_mem _ hb)) _)

theorem onRing (s : State) (d : DieId) (f r : Nat) (g : Ring → Ring) : KeepsFlags s (s.onDie d (·.onRing f r g)) :=
  onDie s d (.of_words (fun _ _ => Die.reg_onRing ..) (congrArg Flt.raw (Die.onRing_flt ..)))

theorem raise161 (s : State) (d : DieId) (inst : Nat) : KeepsFlags s (raise s d 161 inst) := by
  unfold raise
  split
  · exact onDie s d (.occur _ (by decide) (.inr rfl) ..)
  · exact .refl s

theorem raiseVec (s : State) (d : DieId) (f v : Nat) : KeepsFlags s (raiseVec s d f v) := by
  unfold Machine.raiseVec
  extract_lets n
  split
  · exact onDie s d (.of_words (fun _ _ => Die.reg_onFn ..) (congrArg Flt.raw (Die.onFn_flt ..)))
  · exact .emit ..

theorem writeEntry (s : State) (d : DieId) (f r : Nat) (bytes : List Byte) (irq : Bool) : KeepsFlags s (writeEntry s d f r bytes irq) := by
  have hkey : ∀ k, k < 0x4020 → k ≠ Reg.HIF_RING_MOD f r := fun k hk => by unfold Reg.HIF_RING_MOD; omega
  unfold Machine.writeEntry coalesce
  extract_lets x g s1 m s2 y k k' s3 need
  have h2 : KeepsFlags s s2 := (emit ..).trans (onDie _ d (.of_words
    (fun k hk => by rw [Die.reg_setReg_other _ (hkey k hk), Die.reg_onRing]) (by rw [Die.setReg_flt, Die.onRing_flt])))
  split
  · exact h2.trans ((emit ..).trans ((onRing ..).trans ((onRing ..).trans (.raiseVec ..))))
  · exact h2.trans ((emit ..).trans (.onRing ..))

theorem eventOn (s : State) (d : DieId) (type origin stamp : Nat) (p : List Byte) (f : Nat) : KeepsFlags s (eventOn s d type origin stamp p f) := by
  have hkey : ∀ k, k < 0x4020 → k ≠ Reg.HIF_EV_LOST f := fun k hk => by unfold Reg.HIF_EV_LOST; omega
  unfold Machine.eventOn
  extract_lets x g s1 rec32
  have h1 : KeepsFlags s s1 := .onRing ..
  split_ifs
  · exact .refl s
  · exact h1.trans ((onDie _ d (.of_words (fun k hk => by rw [Die.reg_onRing, Die.reg_count_other _ (hkey k hk)])
      (by rw [Die.onRing_flt, Die.count_flt]))).trans (.raise161 ..))
  · exact h1.trans ((onRing ..).trans (.writeEntry ..))

theorem event (s : State) (d : DieId) (type : Nat) (p : List Byte) : KeepsFlags s (event s d type p) := .foldl _ _ (fun _ _ _ => .eventOn ..) s

theorem mirror (s : State) (d : DieId) (p : Payload) : KeepsFlags s (mirror s d p) := by
  unfold Machine.mirror
  split
  · exact onDie s d (.of_words (fun _ _ => Eq.refl _) (Eq.refl _))
  · exact .refl s

theorem setMode (s : State) (d : DieId) (f : Nat → Nat) : KeepsFlags s (setMode s d f) := by
  unfold Machine.setMode
  extract_lets x old v v' w s1
  have h1 : KeepsFlags s s1 := onDie s d (.of_words (fun k hk => Die.reg_setReg_other _ (by unfold Reg.RED_MODE; omega) _) (congrArg Flt.raw (Die.setReg_flt ..)))
  split_ifs
  · exact .refl s
  · exact h1.trans ((event ..).trans (.mirror ..))
  · exact h1

theorem settleLevel (s : State) (d : DieId) {i : Nat} (hl : srcIsLevel i = true) (hi : i < 256) : KeepsFlags s (settleLevel s d i) := by
  have hset (r : BitVec 256) (j : Nat) (h : j ≠ i) : (r ||| BitVec.ofNat 256 (2 ^ i)).getLsbD j = r.getLsbD j := by
    rw [BitVec.getLsbD_or, BitVec.getLsbD_ofNat, Nat.testBit_two_pow]
    simp [Ne.symm h]
  have hclear (r : BitVec 256) (j : Nat) (hj : j < 256) (h : j ≠ i) : (r &&& ~~~ BitVec.ofNat 256 (2 ^ i)).getLsbD j = r.getLsbD j := by
    rw [BitVec.getLsbD_and, BitVec.getLsbD_not, BitVec.getLsbD_ofNat, Nat.testBit_two_pow]
    simp [Ne.symm h, hj]
  unfold Machine.settleLevel
  extract_lets x was now
  split_ifs
  · exact onDie s d ((Die.KeepsFlags.occur _ hi (.inl hl) ..).trans (.raw _ hl fun j _ h => hset _ j h))
  · exact onDie s d (.raw _ hl fun j hj h => hclear _ j hj h)
  · exact .refl s

theorem settleDie (s : State) (d : DieId) : KeepsFlags s (settleDie s d) := by
  unfold Machine.settleDie
  split
  · extract_lets s1
    have h1 : KeepsFlags s s1 := onDie s d (.of_words (fun _ _ => Eq.refl _) (Eq.refl _))
    refine (h1.trans (.foldl _ _ (fun t i hi => ?_) s1)).trans (.setMode ..)
    obtain ⟨hlt, hlev⟩ : i < 250 ∧ srcIsLevel i = true := by simpa [levelSources] using hi
    exact .settleLevel t d hlev (by omega)
  · exact .refl s

theorem settle (s : State) : KeepsFlags s (settle s) := (settleDie s .cd0).trans (settleDie _ .cd1)

end KeepsFlags

/-! ## FLT_STICKY_w -/

/-- A named bit of FLT_STICKY_w on its die. -/
def clearSticky (x : Die) (src : Nat) : Die :=
  if srcIsLevel src && (x.flt.raw.getLsbD src || x.mapBit (Reg.FLT_FORCE 0) src) || !x.mapBit (Reg.FLT_STICKY 0) src then x
  else
    let y := x.setMapBit (Reg.FLT_STICKY 0) src false
    endPromo (if srcIsLevel src then y else y.onFlt (fun f => { f with raw := f.raw &&& ~~~ srcBit src })) src

theorem endPromo_keeps (x : Die) (n : Nat) : (∀ k, (endPromo x n).reg k = x.reg k) ∧ (endPromo x n).flt.raw = x.flt.raw := by
  unfold endPromo
  split
  · exact ⟨fun _ => rfl, rfl⟩
  · exact ⟨fun k => Die.onFlt_reg .., rfl⟩

/-- What a named bit does to the bits of an event source. -/
theorem clearSticky_bits (x : Die) (src : Nat) {j : Nat} (hj : j < 256) (hl : srcIsLevel j = false) :
    (clearSticky x src).mapBit (Reg.FLT_STICKY 0) j = (x.mapBit (Reg.FLT_STICKY 0) j && decide (j ≠ src)) ∧
      (clearSticky x src).flt.raw.getLsbD j = (x.flt.raw.getLsbD j && !(decide (j = src) && x.mapBit (Reg.FLT_STICKY 0) j)) := by
  unfold clearSticky
  extract_lets y
  by_cases hs : j = src
  · subst hs
    rw [hl, Bool.false_and, Bool.false_or]
    cases hx : x.mapBit (Reg.FLT_STICKY 0) j
    · rw [Bool.not_false, if_pos rfl, hx]
      simp
    · obtain ⟨hk, hr⟩ := endPromo_keeps (y.onFlt (fun f => { f with raw := f.raw &&& ~~~ srcBit j })) j
      rw [Bool.not_true, if_neg (by decide), if_neg (by decide), Die.mapBit, hk, hr, Die.onFlt_reg, Die.onFlt_flt, ← Die.mapBit,
        Die.mapBit_setMapBit, if_pos rfl]
      refine ⟨by simp, ?_⟩
      change (y.flt.raw &&& ~~~ srcBit j).getLsbD j = _
      rw [BitVec.getLsbD_and, BitVec.getLsbD_not, srcBit_getLsbD hj]
      simp
  · rw [decide_eq_true hs, decide_eq_false hs, Bool.and_true, Bool.false_and, Bool.not_false, Bool.and_true]
    have hy : y.mapBit (Reg.FLT_STICKY 0) j = x.mapBit (Reg.FLT_STICKY 0) j := by rw [Die.mapBit_setMapBit, if_neg hs]
    have hyr : y.flt.raw = x.flt.raw := congrArg Flt.raw (Die.setMapBit_flt ..)
    split
    · exact ⟨rfl, rfl⟩
    · obtain ⟨hk, hr⟩ := endPromo_keeps (if srcIsLevel src then y else y.onFlt (fun f => { f with raw := f.raw &&& ~~~ srcBit src })) src
      rw [Die.mapBit, hk, hr]
      split
      · exact ⟨hy, by rw [hyr]⟩
      · refine ⟨hy, ?_⟩
        change (y.flt.raw &&& ~~~ srcBit src).getLsbD j = _
        rw [hyr, BitVec.getLsbD_and, BitVec.getLsbD_not, srcBit, BitVec.getLsbD_ofNat, Nat.testBit_two_pow]
        simp [Ne.symm hs, hj]

/-- What named bits do to the bits of an event source. -/
theorem clearSticky_fold (w : Nat) {j : Nat} (hj : j < 256) (hl : srcIsLevel j = false) (l : List Nat) (x : Die) :
    let y := l.foldl (fun x i => clearSticky x (32 * w + i)) x
    y.mapBit (Reg.FLT_STICKY 0) j = (x.mapBit (Reg.FLT_STICKY 0) j && !l.any (fun i => j = 32 * w + i)) ∧
      (x.flt.raw.getLsbD j = false → y.flt.raw.getLsbD j = false) ∧
      (x.mapBit (Reg.FLT_STICKY 0) j = true → l.any (fun i => j = 32 * w + i) = true → y.flt.raw.getLsbD j = false) := by
  induction l generalizing x with
  | nil => exact ⟨by simp, fun h => h, fun _ h => by cases h⟩
  | cons i l ih =>
    obtain ⟨hs, hr⟩ := clearSticky_bits x (32 * w + i) hj hl
    obtain ⟨h1, h2, h3⟩ := ih (clearSticky x (32 * w + i))
    refine ⟨?_, fun h => h2 (by rw [hr, h, Bool.false_and]), fun hx ha => ?_⟩
    · refine h1.trans ?_
      rw [hs, List.any_cons]
      cases x.mapBit (Reg.FLT_STICKY 0) j <;> by_cases hji : j = 32 * w + i <;> simp [hji]
    · by_cases hji : j = 32 * w + i
      · exact h2 (by rw [hr, decide_eq_true hji, hx]; simp)
      · rw [List.any_cons, decide_eq_false hji, Bool.false_or] at ha
        exact h3 (by rw [hs, hx, decide_eq_true hji]; rfl) ha

theorem stickyClear_eq (d : DieId) (w v : Nat) {s : State} (hr : (s.die d).running = true) :
    stickyClear d w v s = s.onDie d (fun x =>
      ((List.range 32).filter (bitOf (x.clearing (Reg.FLT_STICKY 0 + 4 * w) v))).foldl (fun x i => clearSticky x (32 * w + i)) x) :=
  if_neg (by rw [hr]; decide)

/-- A write of FLT_STICKY_w on a die that runs. -/
theorem stickyClear_bits (d : DieId) (w v : Nat) {s : State} (hr : (s.die d).running = true) {i : Nat} (hi : i < 32) (hw : w < 8)
    (hl : srcIsLevel (32 * w + i) = false) :
    let c := (s.die d).clearing (Reg.FLT_STICKY 0 + 4 * w) v; let y := (stickyClear d w v s).die d
    y.mapBit (Reg.FLT_STICKY 0) (32 * w + i) = ((s.die d).mapBit (Reg.FLT_STICKY 0) (32 * w + i) && !bitOf c i) ∧
      (bitOf c i = true → (s.die d).mapBit (Reg.FLT_STICKY 0) (32 * w + i) = true → y.flt.raw.getLsbD (32 * w + i) = false) := by
  intro c y
  have hany : ((List.range 32).filter (bitOf c)).any (fun k => 32 * w + i = 32 * w + k) = bitOf c i := by
    rw [Bool.eq_iff_iff, List.any_eq_true]
    refine ⟨fun ⟨k, hk, he⟩ => ?_, fun h => ⟨i, List.mem_filter.2 ⟨List.mem_range.2 hi, h⟩, decide_eq_true rfl⟩⟩
    have : i = k := by have := of_decide_eq_true he; omega
    exact this ▸ (List.mem_filter.1 hk).2
  have hy : y = ((List.range 32).filter (bitOf c)).foldl (fun x i => clearSticky x (32 * w + i)) (s.die d) := by
    unfold y
    rw [stickyClear_eq d w v hr, State.die_onDie_same]
  obtain ⟨h1, -, h3⟩ := clearSticky_fold w (j := 32 * w + i) (by omega) hl ((List.range 32).filter (bitOf c)) (s.die d)
  rw [← hy, hany] at h1
  rw [← hy, hany] at h3
  exact ⟨h1, fun hb hx => h3 hx hb⟩

/-! ## FLT_FORCE_w -/

/-- What of a die decides where a force bit may be written. -/
structure Die.SameForces (x y : Die) : Prop where
  svc : y.svc = x.svc
  red : y.red = x.red
  mode : y.reg Reg.RED_MODE = x.reg Reg.RED_MODE

theorem Die.SameForces.isDecl {x y : Die} (h : x.SameForces y) : y.isDecl = x.isDecl := by unfold Die.isDecl Die.role Die.rf; rw [h.mode]
theorem Die.SameForces.base {x y : Die} (h : x.SameForces y) : y.base = x.base := by unfold Die.base Die.rf; rw [h.mode]
theorem Die.SameForces.taking {x y : Die} (h : x.SameForces y) : y.taking = x.taking := by unfold Die.taking Die.rbit Die.rf; rw [h.mode]
theorem Die.SameForces.hasToken {x y : Die} (h : x.SameForces y) : y.hasToken = x.hasToken := by unfold Die.hasToken; rw [h.red]

theorem forceOpen_congr {s t : State} (h : ∀ e, (s.die e).SameForces (t.die e)) (hb : t.banks = s.banks) (d : DieId) (src : Nat) :
    forceOpen t d src = forceOpen s d src := by
  have h0 : s.cd0.SameForces t.cd0 := h .cd0
  have h1 : s.cd1.SameForces t.cd1 := h .cd1
  have hdecl : t.declarer = s.declarer := by
    unfold State.declarer
    rw [h0.isDecl, h1.isDecl, h0.taking, h0.hasToken, h1.taking, h1.hasToken]
  have hmod : moduleBase t = moduleBase s := by
    unfold moduleBase State.bank
    rw [hdecl, hb]
    cases s.declarer with
    | none => rfl
    | some e => exact (h e).base
  unfold forceOpen Die.lockOpen
  rw [(h d).svc, hmod]

/-- One bit of a write of FLT_FORCE_w. -/
def forceBit (d : DieId) (w v : Nat) (s : State) (i : Nat) : State :=
  let src := 32 * w + i
  let was := (s.die d).mapBit (Reg.FLT_FORCE 0) src
  if !forceOpen s d src || was = bitOf v i then s
  else
    let s1 := s.onDie d (·.setMapBit (Reg.FLT_FORCE 0) src (bitOf v i))
    if was then s1 else s1.onDie d (fun x => x.occur src (srcInst x src) false)

theorem forceWrite_eq (d : DieId) (w v : Nat) {s : State} (hr : (s.die d).running = true) :
    forceWrite d w v s = (List.range 32).foldl (forceBit d w v) s := if_neg (by rw [hr]; decide)

/-- Writing force bits and recording occurrences leave what decides where a force bit may be written. -/
structure KeepsForces (s t : State) : Prop where
  die : ∀ e, (s.die e).SameForces (t.die e)
  banks : t.banks = s.banks

theorem KeepsForces.trans {s t u : State} (h : KeepsForces s t) (k : KeepsForces t u) : KeepsForces s u :=
  ⟨fun e => ⟨(k.die e).svc.trans (h.die e).svc, (k.die e).red.trans (h.die e).red, (k.die e).mode.trans (h.die e).mode⟩, k.banks.trans h.banks⟩

theorem KeepsForces.refl (s : State) : KeepsForces s s := ⟨fun _ => ⟨rfl, rfl, rfl⟩, rfl⟩

theorem KeepsForces.onDie (s : State) (d : DieId) {f : Die → Die} (h : ∀ x, Die.SameForces x (f x)) : KeepsForces s (s.onDie d f) := by
  refine ⟨fun e => ?_, State.onDie_banks ..⟩
  by_cases he : e = d
  · rw [he, State.die_onDie_same]; exact h _
  · rw [State.die_onDie_other s he]; exact ⟨rfl, rfl, rfl⟩

theorem Die.SameForces.force (x : Die) {i : Nat} (hi : i < 256) (b : Bool) : x.SameForces (x.setMapBit (Reg.FLT_FORCE 0) i b) :=
  ⟨Die.setMapBit_svc .., Die.setMapBit_red .., Die.reg_setMapBit_other x (by unfold Reg.RED_MODE Reg.FLT_FORCE; omega) b⟩

theorem Die.occur_svc (x : Die) (src inst : Nat) (real : Bool) (n : Nat) : (x.occur src inst real n).svc = x.svc := by
  unfold Die.occur
  simp only
  split <;> split <;> rfl

theorem Die.SameForces.occur (x : Die) {i : Nat} (hi : i < 256) (inst : Nat) : x.SameForces (x.occur i inst false) :=
  ⟨Die.occur_svc .., Die.occur_red .., Die.reg_occur _ _ _ _ _ _ (by unfold Reg.RED_MODE Reg.FLT_STICKY; omega)⟩

theorem KeepsForces.forceBit (d : DieId) (w v : Nat) (s : State) {i : Nat} (hi : 32 * w + i < 256) : KeepsForces s (forceBit d w v s i) := by
  unfold Machine.forceBit
  extract_lets src was s1
  have h1 : KeepsForces s s1 := .onDie s d fun x => .force x hi _
  split
  · exact .refl s
  · split
    · exact h1
    · exact h1.trans (.onDie _ d fun x => .occur x hi _)

theorem forceKey_ne_stickyKey (i j : Nat) (hi : i < 256) : Reg.FLT_FORCE 0 + 4 * j ≠ Reg.FLT_STICKY 0 + 4 * (i / 32) := by
  unfold Reg.FLT_FORCE Reg.FLT_STICKY; omega

/-- What one bit of the write does to the map. -/
theorem forceBit_map (d : DieId) (w v : Nat) (s : State) {i j : Nat} (hi : 32 * w + i < 256) :
    ((forceBit d w v s i).die d).mapBit (Reg.FLT_FORCE 0) j =
      if j = 32 * w + i ∧ forceOpen s d j = true then bitOf v i else (s.die d).mapBit (Reg.FLT_FORCE 0) j := by
  unfold forceBit
  extract_lets src was s1
  have h1 : (s1.die d).mapBit (Reg.FLT_FORCE 0) j = if j = src then bitOf v i else (s.die d).mapBit (Reg.FLT_FORCE 0) j := by
    unfold s1
    rw [State.die_onDie_same, Die.mapBit_setMapBit]
  split
  next h =>
    rw [Bool.or_eq_true, Bool.not_eq_true', decide_eq_true_eq] at h
    split
    next hj =>
      obtain ⟨rfl, ho⟩ := hj
      exact (h.resolve_left (by rw [ho]; decide))
    · rfl
  next h =>
    rw [Bool.or_eq_true, Bool.not_eq_true', decide_eq_true_eq, not_or, Bool.not_eq_false] at h
    have ho : (j = src ∧ forceOpen s d j = true) ↔ j = src := ⟨fun h => h.1, fun hj => ⟨hj, hj ▸ h.1⟩⟩
    change _ = if j = src ∧ forceOpen s d j = true then _ else _
    simp only [ho]
    split
    · exact h1
    · rw [State.die_onDie_same, ← h1]
      exact Die.mapBit_of_regs (Die.reg_occur _ _ _ _ _ _ (forceKey_ne_stickyKey _ _ hi))

/-- No sticky bit falls, and that of a bit that rises is set. -/
theorem forceBit_sticky (d : DieId) (w v : Nat) (s : State) (i : Nat) :
    (∀ j, j < 256 → (s.die d).mapBit (Reg.FLT_STICKY 0) j = true → ((forceBit d w v s i).die d).mapBit (Reg.FLT_STICKY 0) j = true) ∧
      (forceOpen s d (32 * w + i) = true → (s.die d).mapBit (Reg.FLT_FORCE 0) (32 * w + i) = false → bitOf v i = true →
        ((forceBit d w v s i).die d).mapBit (Reg.FLT_STICKY 0) (32 * w + i) = true) := by
  unfold forceBit
  extract_lets src was s1
  have h1 (j : Nat) (hj : j < 256) : (s1.die d).mapBit (Reg.FLT_STICKY 0) j = (s.die d).mapBit (Reg.FLT_STICKY 0) j := by
    unfold s1
    rw [State.die_onDie_same]
    exact Die.mapBit_of_regs (Die.reg_setMapBit_other _ (forceKey_ne_stickyKey _ _ hj).symm _)
  refine ⟨fun j hj hx => ?_, fun ho hw hv => ?_⟩
  · split
    · exact hx
    · split
      · rw [h1 j hj, hx]
      · rw [State.die_onDie_same, Die.mapBit_occur, h1 j hj, hx, ite_self]
  · have hwas : was = false := hw
    rw [ho, hwas, hv, if_neg (by decide), if_neg (by decide), State.die_onDie_same, Die.mapBit_occur, if_pos rfl]

/-- What the bits of a write do to a source's force and sticky bit. -/
theorem forceBits (d : DieId) {w : Nat} (hw : w < 8) (v : Nat) {j : Nat} (hj : j < 32) (l : List Nat) (hl : ∀ i ∈ l, i < 32) (hn : l.Nodup) (s : State) :
    let t := l.foldl (forceBit d w v) s
    ((t.die d).mapBit (Reg.FLT_FORCE 0) (32 * w + j) =
      if j ∈ l ∧ forceOpen s d (32 * w + j) = true then bitOf v j else (s.die d).mapBit (Reg.FLT_FORCE 0) (32 * w + j)) ∧
    ((s.die d).mapBit (Reg.FLT_STICKY 0) (32 * w + j) = true → (t.die d).mapBit (Reg.FLT_STICKY 0) (32 * w + j) = true) ∧
    (j ∈ l → forceOpen s d (32 * w + j) = true → (s.die d).mapBit (Reg.FLT_FORCE 0) (32 * w + j) = false → bitOf v j = true →
      (t.die d).mapBit (Reg.FLT_STICKY 0) (32 * w + j) = true) := by
  induction l generalizing s with
  | nil => exact ⟨by simp, fun h => h, fun h => by cases h⟩
  | cons i l ih =>
    obtain ⟨hil, hn⟩ := List.nodup_cons.1 hn
    have hi : 32 * w + i < 256 := by have := hl i List.mem_cons_self; omega
    have hk := KeepsForces.forceBit d w v s hi
    have hopen := forceOpen_congr hk.die hk.banks d (32 * w + j)
    obtain ⟨h1, h2, h3⟩ := ih (fun k hk => hl k (List.mem_cons_of_mem _ hk)) hn (forceBit d w v s i)
    obtain ⟨hup, hset⟩ := forceBit_sticky d w v s i
    rw [hopen, forceBit_map d w v s hi] at h1
    refine ⟨?_, fun hx => h2 (hup _ (by omega) hx), fun hm ho hf hb => ?_⟩
    · refine h1.trans ?_
      by_cases hji : j = i
      · subst hji
        simp [hil]
      · simp [hji]
    · by_cases hji : j = i
      · subst hji
        exact h2 (hset ho hf hb)
      · refine h3 ((List.mem_cons.1 hm).resolve_left hji) (by rw [hopen, ho]) ?_ hb
        rw [forceBit_map d w v s hi, if_neg (by omega), hf]

/-! ## FLT_SRC_s and the obligation -/

theorem recordKey_force {i : Nat} (hi : i < 256) : recordKey (Reg.FLT_FORCE 0 + 4 * (i / 32)) = false :=
  recordKey_low (by unfold Reg.FLT_FORCE; omega) (.inr (by unfold Reg.FLT_FORCE; omega))

theorem srcWrite_ignored {d : DieId} {n v : Nat} {s : State} (h : srcReserved n = true ∨ 6 ≤ fget F.FLT_SRC_NORMAL v ∨ 6 ≤ fget F.FLT_SRC_SEVERE v) :
    srcWrite d n v s = s := by
  refine if_pos ?_
  simp only [Bool.or_eq_true, decide_eq_true_eq]
  tauto

theorem srcWrite_stores {d : DieId} {n v : Nat} {s : State} (hr : (s.die d).running = true) (h : srcReserved n = false)
    (h1 : fget F.FLT_SRC_NORMAL v < 6) (h2 : fget F.FLT_SRC_SEVERE v < 6) : srcWrite d n v s = putWord s d (Reg.FLT_SRC n) v :=
  if_neg (by rw [hr, h, decide_eq_false (by omega), decide_eq_false (by omega)]; decide)

/-- Settles O35: the bits of a word one by one (`clearSticky_fold`, `forceBits`), and what settling leaves of them (`KeepsFlags.settle`). -/
theorem faultRegisters : Obligations.FaultRegisters := by
  intro d s x
  refine ⟨fun hb => ⟨fun w v => .of_doneBar_shut (f := stickyClear d w v.toNat) hb rfl, fun w v => .of_doneBar_shut (f := forceWrite d w v.toNat) hb rfl,
    fun n v => .of_doneBar_shut (f := srcWrite d n.toNat v.toNat) hb rfl⟩, fun hb => ?_⟩
  have hr : (s.die d).running = true := Die.running_of_barOpen hb
  refine ⟨fun w v => ?_, fun w v => ?_, fun n v h => ?_, fun n v h h1 h2 => ?_⟩
  · intro c
    refine ⟨_, exec_of_doneBar (f := stickyClear d w v.toNat) hb rfl, fun i => ?_⟩
    intro src hl hn
    obtain ⟨h1, h2⟩ := stickyClear_bits d w v.toNat hr i.isLt w.isLt hl
    obtain ⟨hs, hraw⟩ := ((KeepsFlags.settle (stickyClear d w v.toNat s)).die d).same src (by omega) hl hn
    exact ⟨hs.trans h1, fun hc hx => hraw.trans (h2 hc hx)⟩
  · refine ⟨_, exec_of_doneBar (f := forceWrite d w v.toNat) hb rfl, fun i => ?_⟩
    intro src
    have hsrc : src < 256 := by omega
    have hset := OnlyRecords.settle (forceWrite d w v.toNat s)
    have hforce := Die.mapBit_of_regs (hset.regs d _ (recordKey_force hsrc))
    obtain ⟨h1, -, h3⟩ := forceBits d w.isLt v.toNat i.isLt (List.range 32) (fun _ h => List.mem_range.1 h) List.nodup_range s
    have hmem : i.val ∈ List.range 32 := List.mem_range.2 i.isLt
    rw [← forceWrite_eq d w v.toNat hr] at h1 h3
    refine ⟨fun ho => ?_, fun ho => ⟨?_, fun hf hv => ?_⟩⟩
    · rw [hforce, h1, if_neg fun h => by rw [ho] at h; cases h.2]
    · rw [hforce, h1, if_pos ⟨hmem, ho⟩]
    · exact ((KeepsFlags.settle (forceWrite d w v.toNat s)).die d).up src hsrc (h3 hmem ho hf hv)
  · exact .of_done ((exec_of_doneBar (f := srcWrite d n.toNat v.toNat) hb (c := .fltSrcWrite d n v) rfl).trans (congrArg done (srcWrite_ignored h)))
  · exact .of_done ((exec_of_doneBar (f := srcWrite d n.toNat v.toNat) hb (c := .fltSrcWrite d n v) rfl).trans (congrArg done (srcWrite_stores hr h h1 h2)))

end Sys2Proof.Machine
end

section
/-!
PROOFS. What the Light Guard does besides deciding: gates, records, telegrams, connections and falling permits leave a unit's zones,
zone E, S-DUAL and configuration as they are.
-/

namespace Sys2Proof.Machine

/-! ## A unit but for its connections and permits -/

/-- A safety unit without its connections and permits. -/
def Lgd.still (l : Lgd) : Lgd := { l with conns := [], permits := Vector.replicate 8 Permit.reset }

/-- From x to y a die keeps its life, its unit's inputs and decisions and their configuration, and no permit is granted anew. -/
structure Die.SameGuard (x y : Die) : Prop where
  life : y.life = x.life
  still : y.lgd.still = x.lgd.still
  regs : ∀ k, guardKey k = true → y.reg k = x.reg k
  permits : ∀ k, (y.lgd.permit k).granted = true → (x.lgd.permit k).granted = true

namespace Die.SameGuard
variable {x y z : Die}

theorem refl (x : Die) : x.SameGuard x := ⟨rfl, rfl, fun _ _ => rfl, fun _ h => h⟩

theorem trans (h : x.SameGuard y) (k : y.SameGuard z) : x.SameGuard z :=
  ⟨k.life.trans h.life, k.still.trans h.still, fun j hj => (k.regs j hj).trans (h.regs j hj), fun j hj => h.permits j (k.permits j hj)⟩

/-- A part of a unit that is neither a connection nor a permit. -/
theorem part {α : Type} (h : x.SameGuard y) (π : Lgd → α) (hπ : ∀ l : Lgd, π l.still = π l) : π y.lgd = π x.lgd := by rw [← hπ, h.still, hπ]

theorem zone (h : x.SameGuard y) (z : Nat) : y.lgd.zone z = x.lgd.zone z := h.part (·.zone z) fun _ => rfl
theorem sd (h : x.SameGuard y) : y.lgd.sd = x.lgd.sd := h.part (·.sd) fun _ => rfl
theorem eTripped (h : x.SameGuard y) : y.lgd.eTripped = x.lgd.eTripped := h.part (·.eTripped) fun _ => rfl
theorem eClear (h : x.SameGuard y) : y.lgd.eClear = x.lgd.eClear := h.part (·.eClear) fun _ => rfl
theorem eWant (h : x.SameGuard y) : y.lgd.eWant = x.lgd.eWant := h.part (·.eWant) fun _ => rfl
theorem ok (h : x.SameGuard y) : y.lgd.ok = x.lgd.ok := h.part (·.ok) fun _ => rfl
theorem peerOk (h : x.SameGuard y) : y.lgd.peerOk = x.lgd.peerOk := h.part (·.peerOk) fun _ => rfl
theorem xlink (h : x.SameGuard y) : y.lgd.xlink = x.lgd.xlink := h.part (·.xlink) fun _ => rfl
theorem lastXchg (h : x.SameGuard y) : y.lgd.lastXchg = x.lgd.lastXchg := h.part (·.lastXchg) fun _ => rfl
theorem cfgMatch (h : x.SameGuard y) : y.lgd.cfgMatch = x.lgd.cfgMatch := h.part (·.cfgMatch) fun _ => rfl

theorem rf (h : x.SameGuard y) {k : Nat} (hk : guardKey k = true) (f : Fld) : y.rf k f = x.rf k f := congrArg (fget f) (h.regs k hk)
theorem rbit (h : x.SameGuard y) {k : Nat} (hk : guardKey k = true) (f : Fld) : y.rbit k f = x.rbit k f := congrArg (· != 0) (h.rf hk f)

end Die.SameGuard

/-- From s to t both dies keep that, no time passes, and SAFE_ESTOP_N stays. -/
structure KeepsGuard (s t : State) : Prop where
  die : ∀ e, (s.die e).SameGuard (t.die e)
  ticks : t.ticks = s.ticks
  estopN : t.pins.estopN = s.pins.estopN

/-- From s to t no time passes and the pins stay. -/
structure KeepsOuter (s t : State) : Prop where
  ticks : t.ticks = s.ticks
  pins : t.pins = s.pins

namespace KeepsOuter
variable {s t u : State}

theorem refl (s : State) : KeepsOuter s s := ⟨rfl, rfl⟩

theorem trans (h : KeepsOuter s t) (k : KeepsOuter t u) : KeepsOuter s u := ⟨k.ticks.trans h.ticks, k.pins.trans h.pins⟩

theorem onDie (s : State) (d : DieId) (f : Die → Die) : KeepsOuter s (s.onDie d f) := ⟨State.onDie_ticks .., State.onDie_pins ..⟩

theorem emit (s : State) (o : Out) : KeepsOuter s (s.emit o) := ⟨rfl, rfl⟩

theorem of_records (h : OnlyRecords s t) : KeepsOuter s t := ⟨h.ticks, (congrArg State.pins h.quiet :)⟩

theorem foldl {α : Type} (g : State → α → State) (h : ∀ t a, KeepsOuter t (g t a)) (l : List α) (s : State) : KeepsOuter s (l.foldl g s) := by
  induction l generalizing s with
  | nil => exact .refl s
  | cons a l ih => exact (h s a).trans (ih _)

theorem driveOut (s : State) (d : DieId) (e : Nat) (out : DriveOut) (code : Nat) (x2 : Bool) (group : Nat) :
    KeepsOuter s (driveOut s d e out code x2 group) := by
  unfold Machine.driveOut
  extract_lets el s1
  split
  · exact (onDie ..).trans (.emit ..)
  · exact .onDie ..

theorem surveyAbort (s : State) (d : DieId) : KeepsOuter s (surveyAbort s d) := by
  unfold Machine.surveyAbort surveyRestore
  split
  · exact .refl s
  · exact (onDie ..).trans ((driveOut ..).trans (.driveOut ..))

theorem checkGone (s : State) (d : DieId) (p : Nat) : KeepsOuter s (checkGone s d p) := by
  unfold Machine.checkGone cancelSent
  extract_lets x mine keep s1
  have h1 : KeepsOuter s s1 := .onDie ..
  split
  · exact h1
  · refine h1.trans (.foldl _ (fun t dl => (onDie t d (·.dropDeal dl.num)).trans ?_) _ _)
    split
    · refine .foldl _ (fun t b => ?_) _ _
      split
      · exact .emit ..
      · exact .refl t
    · exact .refl _

theorem enqueue (s : State) (d : DieId) (p q : Nat) (f : TxFrame) : KeepsOuter s (enqueue s d p q f).1 := by
  unfold Machine.enqueue dropTx
  extract_lets x c n depth lim used full t
  split_ifs
  · exact .refl s
  · exact (onDie ..).trans (of_records (.raise _ _ _ _ (by decide)))
  · dsimp only
    exact .onDie ..

theorem egress (s : State) (d : DieId) (p cls : Nat) (queue : Option Nat) (zsl : Bool) (f : TxFrame) :
    KeepsOuter s (egress s d p cls queue zsl f).1 := by
  unfold Machine.egress
  extract_lets x
  split_ifs
  · exact .enqueue ..
  · exact .enqueue ..
  · split
    · exact (onDie ..).trans (.enqueue ..)
    · exact .enqueue ..
    · exact .enqueue ..

end KeepsOuter

namespace KeepsGuard
variable {s t u : State}

theorem refl (s : State) : KeepsGuard s s := ⟨fun _ => .refl _, rfl, rfl⟩

theorem trans (h : KeepsGuard s t) (k : KeepsGuard t u) : KeepsGuard s u := ⟨fun e => (h.die e).trans (k.die e), k.ticks.trans h.ticks, k.estopN.trans h.estopN⟩

theorem of_units (h : KeepsUnits s t) (ho : KeepsOuter s t) : KeepsGuard s t :=
  ⟨fun e => ⟨h.die_life e, by rw [h.die_lgd e], fun k hk => h.regs e k hk, fun k hk => by rwa [h.die_lgd e] at hk⟩, ho.ticks, by rw [ho.pins]⟩

theorem of_records (h : OnlyRecords s t) : KeepsGuard s t := of_units (.of_records h) (.of_records h)

theorem emit (s : State) (o : Out) : KeepsGuard s (s.emit o) := of_records (.emit ..)

theorem raise (s : State) (d : DieId) {src : Nat} (h : src < 256) (inst : Nat) : KeepsGuard s (raise s d src inst) := of_records (.raise s d src inst h)

theorem foldl {α : Type} (g : State → α → State) (h : ∀ t a, KeepsGuard t (g t a)) (l : List α) (s : State) : KeepsGuard s (l.foldl g s) := by
  induction l generalizing s with
  | nil => exact .refl s
  | cons a l ih => exact (h s a).trans (ih _)

theorem onDie (s : State) (d : DieId) {f : Die → Die} (h : ∀ x, Die.SameGuard x (f x)) : KeepsGuard s (s.onDie d f) := by
  refine ⟨fun e => ?_, State.onDie_ticks .., by rw [State.onDie_pins]⟩
  by_cases he : e = d
  · rw [he, State.die_onDie_same]; exact h _
  · rw [State.die_onDie_other s he]; exact .refl _

/-- The same change of a die on both sides. -/
theorem map (h : KeepsGuard s t) (d : DieId) {f : Die → Die} (hf : ∀ x y, Die.SameGuard x y → Die.SameGuard (f x) (f y)) :
    KeepsGuard (s.onDie d f) (t.onDie d f) := by
  refine ⟨fun e => ?_, by rw [State.onDie_ticks, State.onDie_ticks, h.ticks], by rw [State.onDie_pins, State.onDie_pins, h.estopN]⟩
  by_cases he : e = d
  · rw [he, State.die_onDie_same, State.die_onDie_same]; exact hf _ _ (h.die d)
  · rw [State.die_onDie_other _ he, State.die_onDie_other _ he]; exact h.die e

theorem unitOn (h : KeepsGuard s t) (u : DieId) : unitOn t u = unitOn s u := by
  unfold Machine.unitOn
  rw [(h.die u).life]

/-- A change of every unit that runs. -/
theorem onUnits (s : State) {f : State → DieId → State} (h : ∀ t u, KeepsGuard t (f t u)) : KeepsGuard s (onUnits s f) := by
  have hgo (t : State) (u : DieId) : KeepsGuard t (if Machine.unitOn t u then f t u else t) := by
    split
    · exact h t u
    · exact .refl t
  exact (hgo s .cd0).trans (hgo _ .cd1)

/-! ## Gates, records and telegrams -/

theorem sendGates (s : State) (u : DieId) (kind : Nat) (g : Nat → BitVec 128) : KeepsGuard s (sendGates s u kind g) := by
  refine .foldl _ (fun t b => ?_) _ s
  split
  · exact .emit ..
  · exact .refl t

theorem sendRelease (s : State) (u : DieId) (g : Nat → BitVec 128) : KeepsGuard s (sendRelease s u g) := by
  unfold Machine.sendRelease
  split
  · exact .sendGates ..
  · exact .refl s

theorem safetyEvent (s : State) (u : DieId) (kind idx who : Nat) : KeepsGuard s (safetyEvent s u kind idx who) := by
  unfold Machine.safetyEvent
  split
  · exact of_records (.event ..)
  · exact .refl s

theorem noteReact (s : State) (u : DieId) (tele : Bool) : KeepsGuard s (noteReact s u tele) := by
  refine onDie s u fun x => ⟨rfl, rfl, fun k hk => Die.reg_setRf_other x ?_ _ _, fun _ h => h⟩
  rintro rfl
  exact absurd hk (by decide)

theorem zslSend (s : State) (u : DieId) (port : Nat) (frame telegram : List Byte) : KeepsGuard s (zslSend s u port frame telegram) := by
  unfold Machine.zslSend
  split
  · exact (emit ..).trans (of_units (.of_core (.egress ..)) (.egress ..))
  · exact .refl s

theorem driveOut (s : State) (d : DieId) (e : Nat) (out : DriveOut) (code : Nat) (x2 : Bool) (group : Nat) :
    KeepsGuard s (driveOut s d e out code x2 group) := of_units (.of_steady (.driveOut ..)) (.driveOut ..)

theorem releaseGates (s : State) (g : Nat → BitVec 128) : KeepsGuard s (releaseGates s g) := by
  unfold Machine.releaseGates
  extract_lets free s1
  have h1 : KeepsGuard s s1 := .onUnits s fun _ _ => .sendRelease ..
  split
  · exact h1
  · split
    · exact h1.trans (.foldl _ (fun t b => .foldl _ (fun t i => .driveOut ..) _ t) _ s1)
    · exact h1

/-! ## Connections and permits -/

theorem setConn (s : State) (u : DieId) (c : Nat) (k : Conn) : KeepsGuard s (s.onDie u (·.onLgd (fun l => l.setConn c k))) :=
  onDie s u fun _ => ⟨rfl, rfl, fun _ _ => rfl, fun _ h => h⟩

theorem sendState (s : State) (c : Nat) : KeepsGuard s (sendState s c) := by
  unfold Machine.sendState
  extract_lets seq
  refine .onUnits s fun t u => ?_
  extract_lets x k shut net port tele s1
  have h1 : KeepsGuard t s1 := .setConn ..
  split
  · exact .refl t
  · split
    · exact h1.trans (.zslSend ..)
    · exact h1

theorem permit_onPermit (l : Lgd) (k j : Nat) (f : Permit → Permit) :
    (l.onPermit k f).permit j = if k = j ∧ j < 8 then f (l.permit j) else l.permit j := by
  unfold Lgd.onPermit Lgd.permit
  simp only [Vector.getD]
  by_cases h : k = j
  · subst h
    by_cases hk : k < 8 <;> simp [hk]
  · simp [h]

/-- A permit takes what grants it no more than before. -/
theorem onPermit (s : State) (u : DieId) (k : Nat) {f : Permit → Permit} (h : ∀ p, (f p).granted = true → p.granted = true) :
    KeepsGuard s (s.onDie u (·.onLgd (·.onPermit k f))) := by
  refine onDie s u fun x => ⟨rfl, rfl, fun _ _ => rfl, fun j hj => ?_⟩
  have hj' : ((x.lgd.onPermit k f).permit j).granted = true := hj
  rw [permit_onPermit] at hj'
  split at hj'
  · exact h _ hj'
  · exact hj'

theorem dropPermits (s : State) (u : DieId) : KeepsGuard s (dropPermits s u) := by
  refine .foldl _ (fun t k => ?_) _ s
  extract_lets p ok s1
  have h1 : KeepsGuard t s1 := .onPermit t u k fun p hp => (Bool.and_eq_true_iff.1 hp).1
  split
  · exact h1.trans (.safetyEvent ..)
  · exact h1

theorem permitPins (s : State) : KeepsGuard s (permitPins s) := ⟨fun e => by cases e <;> exact .refl _, rfl, rfl⟩

theorem latchReadBack (s : State) (v u : DieId) (k : Nat) : KeepsGuard s (latchReadBack s v u k) := by
  unfold Machine.latchReadBack
  extract_lets was s1
  have h1 : KeepsGuard s s1 := (onPermit s v k fun p hp => by cases hp).trans (.raise _ _ (by cases u <;> decide) _)
  split
  · exact h1.trans (.safetyEvent ..)
  · exact h1

theorem forcedReadBack (s : State) (v : DieId) : KeepsGuard s (forcedReadBack s v) := by
  refine .foldl _ (fun t i => ?_) _ s
  extract_lets u f
  split
  · exact .latchReadBack ..
  · exact .refl t

theorem afterShut (s : State) (u : DieId) (z : Nat) : KeepsGuard s (afterShut s u z) := by
  unfold Machine.afterShut
  extract_lets g s1 cs s2
  have h1 : KeepsGuard s s1 := (sendGates ..).trans (.noteReact ..)
  have h2 : KeepsGuard s s2 := h1.trans (.foldl _ (fun t c => .sendState t c) _ _)
  split
  · exact h2.trans (.dropPermits ..)
  · exact (h2.trans (.noteReact ..)).trans (.dropPermits ..)

theorem tripSurvey (s : State) (u : DieId) (z : Nat) : KeepsGuard s (tripSurvey s u z) := by
  unfold Machine.tripSurvey
  split
  · split
    · split
      · exact of_units (.surveyAbort ..) (.surveyAbort ..)
      · exact .refl s
    · exact .refl s
  · exact .refl s

theorem tripChecks (s : State) (u : DieId) (z : Nat) : KeepsGuard s (tripChecks s u z) := by
  unfold Machine.tripChecks
  split
  · exact of_units (.checksGone ..) (.foldl _ (fun t q => .checkGone t _ q) _ s)
  · exact .refl s

end KeepsGuard

end Sys2Proof.Machine
end
section
/-!
PROOFS. Trips of zones and of zone E, and what a unit finds when it judges its zones after a change of its inputs (R446, R447, R449).
-/

namespace Sys2Proof.Machine

/-! ## Inputs of a unit -/

theorem guardKey_zcfg : ∀ z : Fin 4, guardKey (Reg.LGD_ZCFG z) = true := by decide

/-- Two dies whose units have the same inputs, forces and configuration. -/
structure Die.SameInputs (x y : Die) : Prop where
  regs : ∀ k, guardKey k = true → y.reg k = x.reg k
  chA : ∀ z, (y.lgd.zone z).chA = (x.lgd.zone z).chA
  chB : ∀ z, (y.lgd.zone z).chB = (x.lgd.zone z).chB
  sd : y.lgd.sd = x.lgd.sd
  pin : y.lgd.eClear.isNone = x.lgd.eClear.isNone

theorem Die.SameGuard.inputs {x y : Die} (h : x.SameGuard y) : x.SameInputs y :=
  ⟨h.regs, fun z => by rw [h.zone], fun z => by rw [h.zone], h.sd, by rw [h.eClear]⟩

namespace Die.SameInputs
variable {x y w : Die}

theorem trans (h : x.SameInputs y) (k : y.SameInputs w) : x.SameInputs w :=
  ⟨fun j hj => (k.regs j hj).trans (h.regs j hj), fun z => (k.chA z).trans (h.chA z), fun z => (k.chB z).trans (h.chB z), k.sd.trans h.sd, k.pin.trans h.pin⟩

theorem rf (h : x.SameInputs y) {k : Nat} (hk : guardKey k = true) (f : Fld) : y.rf k f = x.rf k f := congrArg (fget f) (h.regs k hk)
theorem rbit (h : x.SameInputs y) {k : Nat} (hk : guardKey k = true) (f : Fld) : y.rbit k f = x.rbit k f := congrArg (· != 0) (h.rf hk f)

theorem zoneEn (h : x.SameInputs y) {z : Nat} (hz : z < 4) : y.zoneEn z = x.zoneEn z := h.rbit (guardKey_zcfg ⟨z, hz⟩) _

theorem sdEn (h : x.SameInputs y) : y.sdEn = x.sdEn := h.rbit (by decide) _

theorem estop (h : x.SameInputs y) : y.estop = x.estop := by
  unfold Die.estop
  rw [h.pin, h.sdEn, h.sd, h.rbit (by decide)]

theorem closedA (h : x.SameInputs y) (z : Nat) : y.closedA z = x.closedA z := by
  unfold Die.closedA
  rw [h.chA, h.rf (by decide)]

theorem closedB (h : x.SameInputs y) (z : Nat) : y.closedB z = x.closedB z := by
  unfold Die.closedB
  rw [h.chB, h.rf (by decide)]

theorem zoneOpen (h : x.SameInputs y) {z : Nat} (hz : z < 4) : y.zoneOpen z = x.zoneOpen z := by
  have hk : guardKey (Reg.LGD_ZCFG z) = true := guardKey_zcfg ⟨z, hz⟩
  unfold Die.zoneOpen Die.remoteOpen
  rw [h.rbit hk, h.rbit hk, h.closedA, h.closedB, h.sdEn, h.sd, h.estop]

end Die.SameInputs

/-! ## A zone of a unit -/

theorem zone_setZone (l : Lgd) (z j : Nat) (v : Zone) : (l.setZone z v).zone j = if z = j ∧ j < 4 then v else l.zone j := by
  unfold Lgd.setZone Lgd.zone
  simp only [Vector.getD]
  by_cases h : z = j
  · subst h
    by_cases hz : z < 4 <;> simp [hz]
  · simp [h]

theorem zone_onZone (l : Lgd) (z j : Nat) (f : Zone → Zone) : (l.onZone z f).zone j = if z = j ∧ j < 4 then f (l.zone j) else l.zone j := by
  rw [Lgd.onZone, zone_setZone]
  split
  next h => rw [h.1]
  · rfl

theorem zone_onZone_same (l : Lgd) {z : Nat} (hz : z < 4) (f : Zone → Zone) : (l.onZone z f).zone z = f (l.zone z) := by
  rw [zone_onZone, if_pos ⟨rfl, hz⟩]

theorem zone_onZone_other (l : Lgd) {z j : Nat} (h : z ≠ j) (f : Zone → Zone) : (l.onZone z f).zone j = l.zone j := by
  rw [zone_onZone, if_neg fun hj => h hj.1]

theorem onZone_congr {l : Lgd} {z : Nat} {f g : Zone → Zone} (h : f (l.zone z) = g (l.zone z)) : l.onZone z f = l.onZone z g := congrArg (l.setZone z) h

theorem onLgd_congr {x : Die} {f g : Lgd → Lgd} (h : f x.lgd = g x.lgd) : x.onLgd f = x.onLgd g := congrArg (fun l => { x with lgd := l }) h

theorem onLgd_unchanged {x : Die} {f : Lgd → Lgd} (h : f x.lgd = x.lgd) : x.onLgd f = x := onLgd_congr (g := fun l => l) h

/-- A zone that has tripped. -/
def Zone.tripped (v : Zone) : Zone :=
  { v with state := .tripped, trips := (v.trips + 1) % 65536, clearSince := none, wantReady := false, unreset := true }

/-- Zone E tripped. -/
def Lgd.tripE (l : Lgd) : Lgd := { l with eTripped := true, eWant := l.eWant && l.eTripped }

theorem tripE_tripped {l : Lgd} (h : l.eTripped = true) : l.tripE = l := by
  obtain ⟨⟩ := l
  cases h
  simp [Lgd.tripE]

theorem tripE_untripped {l : Lgd} (h : l.eTripped = false) : l.tripE = { l with eTripped := true, eWant := false } := by
  rw [Lgd.tripE, h, Bool.and_false]

namespace Die.SameGuard
variable {x y : Die}

/-- Changes of two units that leave them alike. -/
theorem onLgd (h : x.SameGuard y) {f g : Lgd → Lgd} (hs : (g y.lgd).still = (f x.lgd).still) (hf : ∀ l, (f l).permits = l.permits)
    (hg : ∀ l, (g l).permits = l.permits) : (x.onLgd f).SameGuard (y.onLgd g) := by
  refine ⟨h.life, hs, h.regs, fun k hk => ?_⟩
  have hx : (f x.lgd).permit k = x.lgd.permit k := by unfold Lgd.permit; rw [hf]
  have hy : (g y.lgd).permit k = y.lgd.permit k := by unfold Lgd.permit; rw [hg]
  change ((f x.lgd).permit k).granted = true
  rw [hx]
  refine h.permits k ?_
  rw [← hy]
  exact hk

/-- One change of both units. -/
theorem onLgd_same (h : x.SameGuard y) {f : Lgd → Lgd} (hs : ∀ l : Lgd, (f l).still = f l.still) (hf : ∀ l, (f l).permits = l.permits) :
    (x.onLgd f).SameGuard (y.onLgd f) := h.onLgd (by rw [hs, h.still, hs]) hf hf

theorem onZone (h : x.SameGuard y) (z : Nat) (f : Zone → Zone) : (x.onLgd (·.onZone z f)).SameGuard (y.onLgd (·.onZone z f)) :=
  h.onLgd_same (fun _ => rfl) fun _ => rfl

end Die.SameGuard

namespace KeepsGuard
variable {s t : State}

/-- A trip changes its zone; the rest is gates, records, telegrams and falling permits. -/
theorem tripZone (s : State) (u : DieId) (z who : Nat) : KeepsGuard (s.onDie u (·.onLgd (·.onZone z Zone.tripped))) (tripZone s u z who) := by
  unfold Machine.tripZone
  extract_lets s1
  have h0 : KeepsGuard s (Machine.tripSurvey (Machine.tripChecks s u z) u z) := (tripChecks ..).trans (.tripSurvey ..)
  have h1 : KeepsGuard (s.onDie u (·.onLgd (·.onZone z Zone.tripped))) s1 := h0.map u fun _ _ h => h.onZone z _
  exact (h1.trans (.safetyEvent ..)).trans (.afterShut ..)

theorem tripE (s : State) (u : DieId) (who : Nat) : KeepsGuard (s.onDie u (·.onLgd Lgd.tripE)) (tripE s u who) := by
  unfold Machine.tripE
  split
  next h =>
    refine ⟨fun e => ?_, (State.onDie_ticks ..).symm, by rw [State.onDie_pins]⟩
    by_cases he : e = u
    · have hd : (s.die u).onLgd Lgd.tripE = s.die u := by
        change { s.die u with lgd := (s.die u).lgd.tripE } = s.die u
        rw [tripE_tripped h]
      rw [he, State.die_onDie_same, hd]
      exact .refl _
    · rw [State.die_onDie_other s he]; exact .refl _
  next h =>
    extract_lets s1
    have h0 : KeepsGuard s (Machine.tripSurvey (Machine.tripChecks s u 4) u 4) := (tripChecks ..).trans (.tripSurvey ..)
    have hset : (s.onDie u (·.onLgd Lgd.tripE)) = s.onDie u (·.onLgd (fun l => { l with eTripped := true, eWant := false })) := by
      refine congrArg (s.setDie u) ?_
      change { s.die u with lgd := (s.die u).lgd.tripE } = _
      rw [tripE_untripped (Bool.eq_false_iff.2 h)]
      rfl
    have h1 : KeepsGuard (s.onDie u (·.onLgd Lgd.tripE)) s1 := hset ▸ h0.map u fun _ _ h => h.onLgd_same (fun _ => rfl) fun _ => rfl
    exact (h1.trans (.safetyEvent ..)).trans (.afterShut ..)

end KeepsGuard

/-! ## Judging a zone -/

/-- A zone after its times are taken. -/
def timedZone (x : Die) (z ticks : Nat) (v : Zone) : Zone :=
  let a := x.closedA z
  let b := x.closedB z
  let open_ := x.zoneOpen z
  { v with seenA := v.seenA || !a, seenB := v.seenB || !b,
           closedSince := if a && b then some (v.closedSince.getD ticks) else none,
           differSince := if a != b then some (v.differSince.getD ticks) else none,
           clearSince := if open_ then none else some (v.clearSince.getD ticks),
           wantReady := v.wantReady && !open_ && (v.state != ZoneState.untested || (a && b)) }

/-- A zone as its unit finds it: tripped when it is READY and open. -/
def scanZone (x : Die) (z ticks : Nat) (v : Zone) : Zone :=
  if x.zoneEn z && v.state == ZoneState.ready && x.zoneOpen z then (timedZone x z ticks v).tripped else timedZone x z ticks v

theorem scanZone_congr {x y : Die} (h : x.SameInputs y) {z : Nat} (hz : z < 4) (ticks : Nat) (v : Zone) : scanZone y z ticks v = scanZone x z ticks v := by
  unfold scanZone timedZone
  rw [h.zoneEn hz, h.zoneOpen hz, h.closedA, h.closedB]

theorem scanZone_channels (x : Die) (z ticks : Nat) (v : Zone) : (scanZone x z ticks v).chA = v.chA ∧ (scanZone x z ticks v).chB = v.chB := by
  unfold scanZone
  split <;> exact ⟨rfl, rfl⟩

theorem scanZone_trips {x : Die} {z : Nat} {v : Zone} (he : x.zoneEn z = true) (ho : x.zoneOpen z = true) (hs : v.state = .ready) (ticks : Nat) :
    (scanZone x z ticks v).state = .tripped ∧ (scanZone x z ticks v).unreset = true ∧ (scanZone x z ticks v).trips = (v.trips + 1) % 65536 := by
  unfold scanZone
  rw [he, ho, hs, if_pos (by decide)]
  exact ⟨rfl, rfl, rfl⟩

/-- A zone that is not READY, or not open, keeps its state. -/
theorem scanZone_stays {x : Die} {z : Nat} {v : Zone} (h : v.state ≠ .ready ∨ x.zoneOpen z = false) (ticks : Nat) :
    scanZone x z ticks v = timedZone x z ticks v := by
  refine if_neg ?_
  rcases h with h | h
  · cases hs : v.state with
    | ready => exact absurd hs h
    | untested => simp
    | tripped => simp
  · rw [h]; simp

/-- A zone on its die. -/
def scanDie (ticks : Nat) (x : Die) (z : Nat) : Die := x.onLgd (·.onZone z (scanZone x z ticks))

theorem SameInputs.scanDie (x : Die) (z ticks : Nat) : x.SameInputs (scanDie ticks x z) := by
  have hz (j : Nat) : ((Machine.scanDie ticks x z).lgd.zone j) = if z = j ∧ j < 4 then scanZone x z ticks (x.lgd.zone j) else x.lgd.zone j :=
    zone_onZone ..
  refine ⟨fun _ _ => rfl, fun j => ?_, fun j => ?_, rfl, rfl⟩
  · rw [hz]; split
    · exact (scanZone_channels ..).1
    · rfl
  · rw [hz]; split
    · exact (scanZone_channels ..).2
    · rfl

/-- A unit's die after its four zones have been judged. -/
def scanDies (ticks : Nat) (x : Die) : Die := (List.range 4).foldl (scanDie ticks) x

theorem scanDies_fold (ticks : Nat) (x : Die) (l : List Nat) (hn : l.Nodup) (j : Nat) : let y := l.foldl (scanDie ticks) x
    x.SameInputs y ∧ y.lgd.zone j = if j ∈ l ∧ j < 4 then scanZone x j ticks (x.lgd.zone j) else x.lgd.zone j := by
  induction l generalizing x with
  | nil => exact ⟨⟨fun _ _ => rfl, fun _ => rfl, fun _ => rfl, rfl, rfl⟩, by simp⟩
  | cons z l ih =>
    obtain ⟨hz, hn⟩ := List.nodup_cons.1 hn
    have h1 := SameInputs.scanDie x z ticks
    obtain ⟨h2, hj⟩ := ih (scanDie ticks x z) hn
    have hzj : ((scanDie ticks x z).lgd.zone j) = if z = j ∧ j < 4 then scanZone x z ticks (x.lgd.zone j) else x.lgd.zone j := zone_onZone ..
    refine ⟨h1.trans h2, hj.trans ?_⟩
    rw [hzj]
    by_cases hlt : j < 4
    · rw [scanZone_congr h1 hlt]
      by_cases hjz : j = z
      · subst hjz
        simp [hz, hlt]
      · simp [hjz, Ne.symm hjz, hlt]
    · simp [hlt]

theorem scanDies_zone (ticks : Nat) (x : Die) {z : Nat} (hz : z < 4) : (scanDies ticks x).lgd.zone z = scanZone x z ticks (x.lgd.zone z) := by
  have h := (scanDies_fold ticks x (List.range 4) List.nodup_range z).2
  rwa [if_pos ⟨List.mem_range.2 hz, hz⟩] at h

/-! ## Judging a unit -/

/-- What acts as SAFE_ESTOP_N besides the pin: the ESTOP bit of S-DUAL, or a force. -/
def Die.estopByWord (x : Die) : Bool := (x.sdEn && x.lgd.sd.estop) || x.rbit Reg.LGD_FORCE F.LGD_FORCE_ESTOP

/-- Zone E of a unit as it finds it. -/
def scanE (ticks : Nat) (x : Die) : Die :=
  x.onLgd (fun l => { l with eTripped := l.eTripped || x.estopByWord, eWant := l.eWant && !x.estop,
                             eClear := if x.estop then l.eClear.map (fun _ => ticks) else l.eClear })

/-- A unit's die after it has judged its zones. -/
def scanned (ticks : Nat) (x : Die) : Die := scanDies ticks (scanE ticks x)

theorem scanE_inputs (ticks : Nat) (x : Die) : x.SameInputs (scanE ticks x) := by
  refine ⟨fun _ _ => rfl, fun _ => rfl, fun _ => rfl, rfl, ?_⟩
  change (if x.estop then x.lgd.eClear.map (fun _ => ticks) else x.lgd.eClear).isNone = _
  split
  · exact Option.isNone_map
  · rfl

theorem scanE_zone (ticks : Nat) (x : Die) (z : Nat) : (scanE ticks x).lgd.zone z = x.lgd.zone z := rfl

theorem scanned_zone (ticks : Nat) (x : Die) {z : Nat} (hz : z < 4) : (scanned ticks x).lgd.zone z = scanZone x z ticks (x.lgd.zone z) := by
  rw [scanned, scanDies_zone ticks _ hz, scanE_zone, scanZone_congr (scanE_inputs ticks x) hz]

/-- A part of a die that no judged zone changes. -/
theorem scanDies_part {α : Type} (π : Die → α) {ticks : Nat} (h : ∀ x z, π (scanDie ticks x z) = π x) (x : Die) : π (scanDies ticks x) = π x := by
  have key (l : List Nat) (y : Die) : π (l.foldl (scanDie ticks) y) = π y := by
    induction l generalizing y with
    | nil => rfl
    | cons z l ih => exact (ih _).trans (h y z)
  exact key _ x

section
variable (ticks : Nat) (x : Die)

theorem scanned_life : (scanned ticks x).life = x.life := scanDies_part (·.life) (fun _ _ => rfl) _
theorem scanned_ok : (scanned ticks x).lgd.ok = x.lgd.ok := scanDies_part (·.lgd.ok) (fun _ _ => rfl) _
theorem scanned_peerOk : (scanned ticks x).lgd.peerOk = x.lgd.peerOk := scanDies_part (·.lgd.peerOk) (fun _ _ => rfl) _
theorem scanned_xlink : (scanned ticks x).lgd.xlink = x.lgd.xlink := scanDies_part (·.lgd.xlink) (fun _ _ => rfl) _
theorem scanned_lastXchg : (scanned ticks x).lgd.lastXchg = x.lgd.lastXchg := scanDies_part (·.lgd.lastXchg) (fun _ _ => rfl) _
theorem scanned_cfgMatch : (scanned ticks x).lgd.cfgMatch = x.lgd.cfgMatch := scanDies_part (·.lgd.cfgMatch) (fun _ _ => rfl) _
theorem scanned_sd : (scanned ticks x).lgd.sd = x.lgd.sd := scanDies_part (·.lgd.sd) (fun _ _ => rfl) _
theorem scanned_reg (k : Nat) : (scanned ticks x).reg k = x.reg k := scanDies_part (·.reg k) (fun _ _ => rfl) _
theorem scanned_eTripped : (scanned ticks x).lgd.eTripped = (x.lgd.eTripped || x.estopByWord) := scanDies_part (·.lgd.eTripped) (fun _ _ => rfl) _
theorem scanned_eWant : (scanned ticks x).lgd.eWant = (x.lgd.eWant && !x.estop) := scanDies_part (·.lgd.eWant) (fun _ _ => rfl) _
theorem scanned_eClear : (scanned ticks x).lgd.eClear = if x.estop then x.lgd.eClear.map (fun _ => ticks) else x.lgd.eClear :=
  scanDies_part (·.lgd.eClear) (fun _ _ => rfl) _

end

end Sys2Proof.Machine
end
section
/-!
PROOFS. A unit judges its zones: `scanned` says what becomes of its die but for connections and falling permits, and what it denies itself.
-/

namespace Sys2Proof.Machine

theorem onZone_onZone (l : Lgd) {z : Nat} (hz : z < 4) (f g : Zone → Zone) : (l.onZone z f).onZone z g = l.onZone z (fun v => g (f v)) := by
  rw [Lgd.onZone, zone_onZone_same l hz]
  unfold Lgd.onZone Lgd.setZone
  dsimp only
  rw [Vector.setIfInBounds_setIfInBounds]

theorem timedZone_inputs (x : Die) (z ticks : Nat) : x.SameInputs (x.onLgd (·.onZone z (timedZone x z ticks))) := by
  have hz (j : Nat) : (x.lgd.onZone z (timedZone x z ticks)).zone j = if z = j ∧ j < 4 then timedZone x z ticks (x.lgd.zone j) else x.lgd.zone j :=
    zone_onZone ..
  refine ⟨fun _ _ => rfl, fun j => (congrArg Zone.chA (hz j)).trans ?_, fun j => (congrArg Zone.chB (hz j)).trans ?_, rfl, rfl⟩
  · split <;> rfl
  · split <;> rfl

theorem onDie_at (s : State) (d : DieId) {f g : Die → Die} (h : f (s.die d) = g (s.die d)) : s.onDie d f = s.onDie d g := congrArg (s.setDie d) h

/-- One zone of a unit that judges. -/
def scanStep (u : DieId) (s : State) (z : Nat) : State :=
  let s1 := s.onDie u (fun x => zoneTimes x z s.ticks)
  let x := s1.die u
  if x.zoneEn z && (x.lgd.zone z).state == ZoneState.ready && x.zoneOpen z then tripZone s1 u z (unitBit u) else s1

/-- SAFE_ESTOP_N and zone E of a unit that judges. -/
def scanStart (u : DieId) (s : State) : State :=
  let s0 := if (s.die u).estop then s.onDie u (·.onLgd (fun l => { l with eWant := false, eClear := l.eClear.map (fun _ => s.ticks) })) else s
  if (s.die u).estopByWord then tripE s0 u (unitBit u) else s0

theorem scanUnit_eq {s : State} {u : DieId} (h : unitOn s u = true) :
    scanUnit s u = permitPins (dropPermits (forcedReadBack ((List.range 4).foldl (scanStep u) (scanStart u s)) u) u) := if_neg (by rw [h]; decide)

theorem scanUnit_off {s : State} {u : DieId} (h : unitOn s u = false) : scanUnit s u = s := if_pos (by rw [h]; rfl)

theorem estop_of_word {x : Die} (h : x.estopByWord = true) : x.estop = true := by
  unfold Die.estopByWord at h
  unfold Die.estop
  rw [Bool.or_assoc, h, Bool.or_true]

namespace Die.SameGuard
variable {x y : Die}

theorem scanDie (h : x.SameGuard y) (ticks : Nat) {z : Nat} (hz : z < 4) : (scanDie ticks x z).SameGuard (scanDie ticks y z) := by
  have hf : scanZone y z ticks = scanZone x z ticks := funext fun v => scanZone_congr h.inputs hz ticks v
  unfold Machine.scanDie
  rw [hf]
  exact h.onZone z _

theorem scanE (h : x.SameGuard y) (ticks : Nat) : (scanE ticks x).SameGuard (scanE ticks y) := by
  have hw : y.estopByWord = x.estopByWord := by
    unfold Die.estopByWord
    rw [h.inputs.sdEn, h.sd, h.rbit (by decide)]
  unfold Machine.scanE
  rw [hw, h.inputs.estop]
  exact h.onLgd_same (fun _ => rfl) fun _ => rfl

theorem scanDies (h : x.SameGuard y) (ticks : Nat) : (scanDies ticks x).SameGuard (scanDies ticks y) :=
  (((h.scanDie ticks (z := 0) (by decide)).scanDie ticks (z := 1) (by decide)).scanDie ticks (z := 2) (by decide)).scanDie ticks (z := 3) (by decide)

theorem scanned (h : x.SameGuard y) (ticks : Nat) : (scanned ticks x).SameGuard (scanned ticks y) := (h.scanE ticks).scanDies ticks

end Die.SameGuard

namespace KeepsGuard
variable {s t : State}

theorem scanStep (u : DieId) (s : State) {z : Nat} (hz : z < 4) : KeepsGuard (s.onDie u (scanDie s.ticks · z)) (scanStep u s z) := by
  have hin := timedZone_inputs (s.die u) z s.ticks
  have hst : ((s.die u).lgd.onZone z (timedZone (s.die u) z s.ticks)).zone z = timedZone (s.die u) z s.ticks ((s.die u).lgd.zone z) := zone_onZone_same _ hz _
  unfold Machine.scanStep
  extract_lets s1 x
  have hx : x = (s.die u).onLgd (·.onZone z (timedZone (s.die u) z s.ticks)) := State.die_onDie_same ..
  have hcond : (x.zoneEn z && (x.lgd.zone z).state == ZoneState.ready && x.zoneOpen z) =
      ((s.die u).zoneEn z && ((s.die u).lgd.zone z).state == ZoneState.ready && (s.die u).zoneOpen z) := by
    rw [hx, hin.zoneEn hz, hin.zoneOpen hz]
    have hstate : (((s.die u).lgd.onZone z (timedZone (s.die u) z s.ticks)).zone z).state = ((s.die u).lgd.zone z).state := by rw [hst]; rfl
    exact congrArg (fun v : ZoneState => (s.die u).zoneEn z && v == ZoneState.ready && (s.die u).zoneOpen z) hstate
  rw [hcond]
  split
  next h =>
    refine .trans ?_ (tripZone s1 u z (unitBit u))
    have he : s.onDie u (scanDie s.ticks · z) = s1.onDie u (·.onLgd (·.onZone z Zone.tripped)) := by
      unfold s1
      rw [State.onDie_onDie]
      refine onDie_at s u ?_
      change { s.die u with lgd := (s.die u).lgd.onZone z (scanZone (s.die u) z s.ticks) } =
        { s.die u with lgd := ((s.die u).lgd.onZone z (timedZone (s.die u) z s.ticks)).onZone z Zone.tripped }
      rw [onZone_onZone _ hz]
      unfold Lgd.onZone
      rw [show scanZone (s.die u) z s.ticks ((s.die u).lgd.zone z) = _ from if_pos h]
    rw [he]
    exact .refl _
  next h =>
    have he : s.onDie u (scanDie s.ticks · z) = s1 := by
      refine onDie_at s u ?_
      change { s.die u with lgd := (s.die u).lgd.onZone z (scanZone (s.die u) z s.ticks) } =
        { s.die u with lgd := (s.die u).lgd.onZone z (timedZone (s.die u) z s.ticks) }
      unfold Lgd.onZone
      rw [show scanZone (s.die u) z s.ticks ((s.die u).lgd.zone z) = _ from if_neg h]
    rw [he]
    exact .refl _

theorem scanSteps (u : DieId) (l : List Nat) (hl : ∀ z ∈ l, z < 4) (h : KeepsGuard s t) :
    KeepsGuard (s.onDie u (fun x => l.foldl (scanDie s.ticks) x)) (l.foldl (Machine.scanStep u) t) := by
  induction l generalizing s t with
  | nil => exact .trans (by
      change KeepsGuard (s.onDie u (fun x => x)) s
      rw [show s.onDie u (fun x => x) = s by cases u <;> rfl]
      exact .refl s) h
  | cons z l ih =>
    have hz := hl z List.mem_cons_self
    have h1 : KeepsGuard (s.onDie u (scanDie s.ticks · z)) (Machine.scanStep u t z) := by
      have hm := h.map u (f := (scanDie s.ticks · z)) fun _ _ k => k.scanDie _ hz
      have ht := scanStep u t hz
      rw [h.ticks] at ht
      exact hm.trans ht
    have h2 := ih (fun z hz => hl z (List.mem_cons_of_mem _ hz)) h1
    rw [State.onDie_onDie, State.onDie_ticks] at h2
    exact h2

theorem scanStart (u : DieId) (s : State) : KeepsGuard (s.onDie u (scanE s.ticks)) (scanStart u s) := by
  unfold Machine.scanStart
  extract_lets s0
  cases hw : (s.die u).estopByWord
  · rw [if_neg (by decide)]
    have he : s.onDie u (scanE s.ticks) = s0 := by
      unfold s0
      split
      next h =>
        refine onDie_at s u ?_
        unfold scanE
        rw [hw, h]
        simp
      next h =>
        have hid : scanE s.ticks (s.die u) = s.die u := by
          unfold scanE
          rw [hw, Bool.eq_false_iff.2 h]
          simp [Die.onLgd]
        rw [show s.onDie u (scanE s.ticks) = s.onDie u (fun x => x) from onDie_at s u hid]
        cases u <;> rfl
    rw [he]
    exact .refl _
  · have hs := estop_of_word hw
    have he : s.onDie u (scanE s.ticks) = s0.onDie u (·.onLgd Lgd.tripE) := by
      unfold s0
      rw [hs, if_pos rfl, State.onDie_onDie]
      refine onDie_at s u ?_
      unfold scanE
      rw [hw, hs]
      simp [Die.onLgd, Lgd.tripE]
    rw [he, if_pos rfl]
    exact .tripE ..

/-- What becomes of a unit that judges its zones. -/
theorem scanUnit {u : DieId} (h : Machine.unitOn s u = true) : KeepsGuard (s.onDie u (scanned s.ticks)) (scanUnit s u) := by
  have h1 := scanSteps u (List.range 4) (fun _ h => List.mem_range.1 h) (scanStart u s)
  rw [State.onDie_onDie, State.onDie_ticks] at h1
  rw [scanUnit_eq h]
  exact h1.trans ((forcedReadBack ..).trans ((dropPermits ..).trans (.permitPins _)))

end KeepsGuard

/-! ## Permits that a unit denies -/

/-- A unit whose permits cannot hold, whatever its configuration: zone E, the cross-link, the configurations or a unit stands against them. -/
def denied (s : State) (u : DieId) : Bool :=
  (s.die u).lgd.eTripped || !bothSound s || !(s.die u).lgd.xlink || !(s.die u).lgd.cfgMatch

theorem KeepsGuard.sound {s t : State} (h : KeepsGuard s t) (u : DieId) : sound t u = sound s u := by
  unfold Machine.sound
  rw [h.unitOn, (h.die u).ok, (h.die u.peer).peerOk]

theorem KeepsGuard.bothSound {s t : State} (h : KeepsGuard s t) : bothSound t = bothSound s := by
  unfold Machine.bothSound
  rw [h.sound, h.sound]

theorem KeepsGuard.denied {s t : State} (h : KeepsGuard s t) (u : DieId) : denied t u = denied s u := by
  unfold Machine.denied
  rw [h.bothSound, (h.die u).eTripped, (h.die u).xlink, (h.die u).cfgMatch]

theorem permitOk_denied {s : State} {u : DieId} (h : denied s u = true) (k : Nat) : permitOk s u k = false := by
  unfold denied at h
  simp only [Bool.or_eq_true, Bool.not_eq_true'] at h
  unfold permitOk
  rcases h with ((h | h) | h) | h <;> simp [h]

/-- One permit of a unit that judges them. -/
def dropPermit (u : DieId) (s : State) (k : Nat) : State :=
  let p := (s.die u).lgd.permit k
  let ok := permitOk s u k
  let s1 := s.onDie u (·.onLgd (·.onPermit k (fun p => { p with want := ok, granted := p.granted && ok })))
  if p.granted && !ok then safetyEvent s1 u 4 k (unitBit u) else s1

theorem dropPermits_eq (s : State) (u : DieId) : dropPermits s u = (List.range 8).foldl (dropPermit u) s := rfl

/-- One permit that is denied. -/
theorem dropPermit_denied {s : State} {u : DieId} (h : denied s u = true) (j : Nat) : KeepsGuard s (dropPermit u s j) ∧
    (j < 8 → (((dropPermit u s j).die u).lgd.permit j).granted = false) := by
  unfold dropPermit
  extract_lets p ok s1
  have hok : ok = false := permitOk_denied h j
  have h1 : KeepsGuard s s1 := .onPermit s u j fun p hp => (Bool.and_eq_true_iff.1 hp).1
  have h2 : KeepsGuard s1 (if p.granted && !ok then safetyEvent s1 u 4 j (unitBit u) else s1) := by
    split
    · exact .safetyEvent ..
    · exact .refl _
  refine ⟨h1.trans h2, fun hj => Bool.eq_false_iff.2 fun hg => ?_⟩
  have hs1 := (h2.die u).permits j hg
  have hd : s1.die u = (s.die u).onLgd (·.onPermit j (fun p => { p with want := ok, granted := p.granted && ok })) := State.die_onDie_same ..
  rw [hd] at hs1
  change (((s.die u).lgd.onPermit j _).permit j).granted = true at hs1
  rw [KeepsGuard.permit_onPermit, if_pos ⟨rfl, hj⟩, hok] at hs1
  simp at hs1

/-- A unit whose permits cannot hold removes them. -/
theorem dropPermits_denied {s : State} {u : DieId} (h : denied s u = true) {k : Nat} (hk : k < 8) :
    (((dropPermits s u).die u).lgd.permit k).granted = false := by
  have key (l : List Nat) (t : State) (ht : denied t u = true) (hm : k ∈ l ∨ ((t.die u).lgd.permit k).granted = false) :
      (((l.foldl (dropPermit u) t).die u).lgd.permit k).granted = false := by
    induction l generalizing t with
    | nil => exact hm.resolve_left (by simp)
    | cons j l ih =>
      obtain ⟨hkeep, hdrop⟩ := dropPermit_denied ht j
      refine ih _ (by rw [hkeep.denied, ht]) ?_
      by_cases hj : j = k
      · exact .inr (hj ▸ hdrop (hj ▸ hk))
      · rcases hm with hm | hm
        · exact .inl ((List.mem_cons.1 hm).resolve_left (Ne.symm hj))
        · refine .inr (Bool.eq_false_iff.2 fun hg => ?_)
          rw [(hkeep.die u).permits k hg] at hm
          cases hm
  rw [dropPermits_eq]
  exact key (List.range 8) s h (.inl (List.mem_range.2 hk))

/-- A unit that judges its zones and finds its permits denied holds none. -/
theorem scanUnit_denied {s : State} {u : DieId} (ho : unitOn s u = true) (h : denied (scanUnit s u) u = true) {k : Nat} (hk : k < 8) :
    (((scanUnit s u).die u).lgd.permit k).granted = false := by
  rw [scanUnit_eq ho] at h ⊢
  generalize forcedReadBack ((List.range 4).foldl (scanStep u) (scanStart u s)) u = t at h ⊢
  rw [(KeepsGuard.permitPins _).denied, (KeepsGuard.dropPermits t u).denied] at h
  refine Bool.eq_false_iff.2 fun hg => ?_
  exact absurd (((KeepsGuard.permitPins _).die u).permits k hg) (by rw [dropPermits_denied h hk]; decide)

end Sys2Proof.Machine
end
section
/-!
PROOFS. What both units do, each on its die, and what becomes of both when they judge their zones.
-/

namespace Sys2Proof.Machine

/-- Every unit that runs has taken g, each on its die, but for connections and falling permits. -/
structure UnitsTake (s : State) (g : DieId → Die → Die) (t : State) : Prop where
  die : ∀ u, Die.SameGuard (if unitOn s u then g u (s.die u) else s.die u) (t.die u)
  ticks : t.ticks = s.ticks
  estopN : t.pins.estopN = s.pins.estopN

namespace UnitsTake
variable {s t w : State} {g h : DieId → Die → Die}

theorem on (k : UnitsTake s g t) {u : DieId} (hu : unitOn s u = true) : (g u (s.die u)).SameGuard (t.die u) := by
  have hd := k.die u
  rwa [if_pos hu] at hd

theorem off (k : UnitsTake s g t) {u : DieId} (hu : unitOn s u = false) : (s.die u).SameGuard (t.die u) := by
  have hd := k.die u
  rwa [if_neg (by rw [hu]; decide)] at hd

theorem unitOn (k : UnitsTake s g t) (hg : ∀ u x, (g u x).life = x.life) (u : DieId) : unitOn t u = unitOn s u := by
  have hl : (t.die u).life = (s.die u).life := by
    rw [(k.die u).life]
    split
    · exact hg ..
    · rfl
  unfold Machine.unitOn
  rw [hl]

/-- One change after the other. -/
theorem trans (k : UnitsTake s g t) (l : UnitsTake t h w) (hg : ∀ u x, (g u x).life = x.life) (hh : ∀ u x y, Die.SameGuard x y → (h u x).SameGuard (h u y)) :
    UnitsTake s (fun u x => h u (g u x)) w := by
  refine ⟨fun u => ?_, l.ticks.trans k.ticks, l.estopN.trans k.estopN⟩
  have hd := l.die u
  rw [k.unitOn hg] at hd
  cases hu : Machine.unitOn s u
  · rw [hu, if_neg (by decide)] at hd
    rw [if_neg (by decide)]
    exact (k.off hu).trans hd
  · rw [hu, if_pos rfl] at hd
    rw [if_pos rfl]
    exact (hh _ _ _ (k.on hu)).trans hd

theorem keeps (k : UnitsTake s g t) (l : KeepsGuard t w) : UnitsTake s g w :=
  ⟨fun u => (k.die u).trans (l.die u), l.ticks.trans k.ticks, l.estopN.trans k.estopN⟩

/-- Two units in turn. -/
theorem both (f : State → DieId → State) (hf : ∀ u t, t.ticks = s.ticks → Machine.unitOn t u = true → KeepsGuard (t.onDie u (g u)) (f t u))
    (hoff : ∀ u t, Machine.unitOn t u = false → f t u = t) (hg : ∀ u x y, Die.SameGuard x y → (g u x).SameGuard (g u y)) :
    UnitsTake s g (f (f s .cd0) .cd1) := by
  have one (u : DieId) (t : State) (ht : t.ticks = s.ticks) : Die.SameGuard (if Machine.unitOn t u then g u (t.die u) else t.die u) ((f t u).die u) ∧
      (∀ e, e ≠ u → (t.die e).SameGuard ((f t u).die e)) ∧ (f t u).ticks = s.ticks ∧ (f t u).pins.estopN = t.pins.estopN := by
    cases hu : Machine.unitOn t u
    · rw [hoff u t hu, if_neg (by decide)]
      exact ⟨.refl _, fun _ _ => .refl _, ht, rfl⟩
    · have hk := hf u t ht hu
      have hd := hk.die u
      rw [State.die_onDie_same] at hd
      refine ⟨hd, fun e he => ?_, hk.ticks.trans ((State.onDie_ticks ..).trans ht), hk.estopN.trans (by rw [State.onDie_pins])⟩
      have hp := hk.die e
      rwa [State.die_onDie_other t he] at hp
  obtain ⟨ha, hpa, hta, hea⟩ := one .cd0 s rfl
  obtain ⟨hb, hpb, htb, heb⟩ := one .cd1 (f s .cd0) hta
  have h1 := hpa .cd1 (by decide)
  have hon : Machine.unitOn (f s .cd0) .cd1 = Machine.unitOn s .cd1 := by
    unfold Machine.unitOn
    rw [h1.life]
  refine ⟨fun u => ?_, htb, heb.trans hea⟩
  cases u with
  | cd0 => exact ha.trans (hpb .cd0 (by decide))
  | cd1 =>
    rw [hon] at hb
    refine .trans ?_ hb
    split
    · exact hg _ _ _ h1
    · exact h1

/-- What every unit that runs does. -/
theorem onUnits (f : State → DieId → State) (hf : ∀ u (t : State), t.ticks = s.ticks → KeepsGuard (t.onDie u (g u)) (f t u))
    (hg : ∀ u x y, Die.SameGuard x y → (g u x).SameGuard (g u y)) : UnitsTake s g (onUnits s f) :=
  both (fun t u => if Machine.unitOn t u then f t u else t) (fun u t ht hu => by rw [if_pos hu]; exact hf u t ht)
    (fun _ _ hu => if_neg (by rw [hu]; decide)) hg

/-- Both units judge their zones. -/
theorem scanUnits (s : State) : UnitsTake s (fun _ => scanned s.ticks) (scanUnits s) :=
  both Machine.scanUnit (fun _ _ ht hu => ht ▸ .scanUnit hu) (fun _ _ hu => scanUnit_off hu) fun _ _ _ h => h.scanned _

/-- Both units judge their zones after a change. -/
theorem scan (k : UnitsTake s g t) (hg : ∀ u x, (g u x).life = x.life) : UnitsTake s (fun u x => scanned s.ticks (g u x)) (Machine.scanUnits t) := by
  have h := k.trans (scanUnits t) hg fun _ _ _ h => h.scanned _
  rwa [k.ticks] at h

end UnitsTake

/-! ## Permits denied to both -/

theorem denied_congr {s t : State} (hl : ∀ u, (t.die u).life = (s.die u).life) (hok : ∀ u, (t.die u).lgd.ok = (s.die u).lgd.ok)
    (hp : ∀ u, (t.die u).lgd.peerOk = (s.die u).lgd.peerOk) {u : DieId} (he : (t.die u).lgd.eTripped = (s.die u).lgd.eTripped)
    (hx : (t.die u).lgd.xlink = (s.die u).lgd.xlink) (hc : (t.die u).lgd.cfgMatch = (s.die u).lgd.cfgMatch) : denied t u = denied s u := by
  unfold denied bothSound sound unitOn
  rw [hl, hl, hok, hok, hp, hp, he, hx, hc]

/-- What a unit's scan of the other's zones does not touch. -/
theorem scanUnit_denied_other (s : State) {u v : DieId} (h : u ≠ v) : denied (scanUnit s v) u = denied s u := by
  cases hv : unitOn s v
  · rw [scanUnit_off hv]
  · have hk := KeepsGuard.scanUnit hv
    rw [hk.denied]
    exact denied_congr (die_onDie_keeps Die.life (scanned_life _) s v) (die_onDie_keeps (·.lgd.ok) (scanned_ok _) s v)
      (die_onDie_keeps (·.lgd.peerOk) (scanned_peerOk _) s v) (by rw [State.die_onDie_other s h])
      (by rw [State.die_onDie_other s h]) (by rw [State.die_onDie_other s h])

/-- Units that judge their zones and find their permits denied hold none. -/
theorem scanUnits_denied {s : State} {u : DieId} (ho : unitOn s u = true) (h : denied (scanUnits s) u = true) {k : Nat} (hk : k < 8) :
    (((scanUnits s).die u).lgd.permit k).granted = false := by
  have hon (e v : DieId) : unitOn (scanUnit s e) v = unitOn s v := by
    cases he : unitOn s e
    · rw [scanUnit_off he]
    · rw [(KeepsGuard.scanUnit he).unitOn]
      unfold unitOn
      rw [die_onDie_keeps Die.life (scanned_life _) s e v]
  unfold scanUnits at h ⊢
  cases u with
  | cd1 => exact scanUnit_denied ((hon .cd0 .cd1).trans ho) h hk
  | cd0 =>
    rw [scanUnit_denied_other _ (by decide)] at h
    have h0 := scanUnit_denied ho h hk
    cases h1 : unitOn (scanUnit s .cd0) .cd1
    · rw [scanUnit_off h1]
      exact h0
    · refine Bool.eq_false_iff.2 fun hg => ?_
      have hp := ((KeepsGuard.scanUnit h1).die .cd0).permits k hg
      rw [State.die_onDie_other _ (by decide), h0] at hp
      cases hp

end Sys2Proof.Machine
end
section
/-!
PROOFS. Guard inputs trip a zone (R445, R446, R449), and what a unit decides of it after its times (R447).
-/

namespace Sys2Proof.Machine

/-! ## One unit's scan -/

namespace KeepsGuard
variable {s t : State} {u : DieId}

/-- What becomes of the unit that judges its zones after a change of its die. -/
theorem scanned_die {f : Die → Die} (h : KeepsGuard (s.onDie u f) t) (ho : Machine.unitOn t u = true) :
    (scanned s.ticks (f (s.die u))).SameGuard ((Machine.scanUnit t u).die u) := by
  have h1 := h.die u
  have h2 := (scanUnit ho).die u
  rw [State.die_onDie_same] at h1 h2
  rw [h.ticks, State.onDie_ticks] at h2
  exact (h1.scanned _).trans h2

/-- The other unit's die. -/
theorem scanned_other {f : Die → Die} (h : KeepsGuard (s.onDie u f) t) {e : DieId} (he : e ≠ u) :
    (s.die e).SameGuard ((Machine.scanUnit t u).die e) := by
  have h1 := h.die e
  rw [State.die_onDie_other s he] at h1
  cases ho : Machine.unitOn t u
  · rwa [scanUnit_off ho]
  · have h2 := (scanUnit ho).die e
    rw [State.die_onDie_other t he] at h2
    exact h1.trans h2

end KeepsGuard

/-! ## GUARD_CHANNEL_FILTERED -/

/-- A unit's own channel of a zone. -/
def channelZone (u : DieId) (closed : Bool) (v : Zone) : Zone := match u with | .cd0 => { v with chA := closed } | .cd1 => { v with chB := closed }

theorem KeepsGuard.guardPins (s : State) (a b : BitVec 4) : KeepsGuard s { s with pins := { s.pins with guardA := a, guardB := b } } :=
  ⟨fun e => by cases e <;> exact .refl _, rfl, rfl⟩

theorem guardChannel_eq {u : DieId} {z : Nat} {closed : Bool} {s : State} (ho : unitOn s u = true) :
    ∃ t, KeepsGuard (s.onDie u (·.onLgd (·.onZone z (channelZone u closed)))) t ∧ guardChannel u z closed s = scanUnit t u := by
  unfold guardChannel
  rw [ho, if_neg (by decide)]
  have hz : ∀ {x y : Die}, x.SameGuard y → (x.onLgd (·.onZone z (channelZone u closed))).SameGuard (y.onLgd (·.onZone z (channelZone u closed))) :=
    fun h => h.onZone z _
  cases u with
  | cd0 => exact ⟨_, (KeepsGuard.guardPins s _ s.pins.guardB).map .cd0 fun _ _ => hz, rfl⟩
  | cd1 => exact ⟨_, (KeepsGuard.guardPins s s.pins.guardA _).map .cd1 fun _ _ => hz, rfl⟩

/-- The channels that a unit reports, and the zone it trips. -/
theorem guardChannel_zone {u : DieId} {z : Nat} (hz : z < 4) {closed : Bool} {s : State} (ho : unitOn s u = true) :
    let x := (s.die u).onLgd (·.onZone z (channelZone u closed))
    (((guardChannel u z closed s).die u).lgd.zone z = scanZone x z s.ticks (channelZone u closed ((s.die u).lgd.zone z))) ∧
      ∀ e, e ≠ u → ((guardChannel u z closed s).die e).lgd.zone z = (s.die e).lgd.zone z := by
  intro x
  obtain ⟨t, ht, he⟩ := guardChannel_eq (z := z) (closed := closed) ho
  have hon : unitOn t u = true := by
    rw [ht.unitOn, ← ho]
    unfold unitOn
    rw [State.die_onDie_same]
    rfl
  rw [he]
  refine ⟨?_, fun e hne => (ht.scanned_other hne).zone z⟩
  rw [(ht.scanned_die hon).zone z, scanned_zone s.ticks x hz]
  exact congrArg _ (zone_onZone_same _ hz _)

theorem channelZone_open {u : DieId} {z : Nat} (hz : z < 4) {x : Die} (hl : x.rbit (Reg.LGD_ZCFG z) F.LGD_ZCFG_LOCAL = true) :
    (x.onLgd (·.onZone z (channelZone u false))).zoneOpen z = true := by
  have hzone : (x.lgd.onZone z (channelZone u false)).zone z = channelZone u false (x.lgd.zone z) := zone_onZone_same _ hz _
  have hch : ((x.onLgd (·.onZone z (channelZone u false))).closedA z && (x.onLgd (·.onZone z (channelZone u false))).closedB z) = false := by
    unfold Die.closedA Die.closedB
    change (((x.lgd.onZone z (channelZone u false)).zone z).chA && _ && (((x.lgd.onZone z (channelZone u false)).zone z).chB && _)) = false
    rw [hzone]
    cases u <;> simp [channelZone]
  have hl' : (x.onLgd (·.onZone z (channelZone u false))).rbit (Reg.LGD_ZCFG z) F.LGD_ZCFG_LOCAL = true := hl
  unfold Die.zoneOpen
  rw [hch, hl']
  rfl

/-! ## SAFE_ESTOP_N -/

/-- A unit's die where SAFE_ESTOP_N, or what acts as it, was asserted and is no longer: the 100 ms start. -/
def estopEnded (was : Bool) (ticks : Nat) (x : Die) : Die :=
  if was && !x.estop then x.onLgd (fun l => { l with eClear := l.eClear.map (fun _ => ticks) }) else x

theorem onDie_unchanged (s : State) (u : DieId) {f : Die → Die} (h : f (s.die u) = s.die u) : s.onDie u f = s := by
  rw [onDie_at s u (g := fun x => x) h]
  cases u <;> rfl

/-- SAFE_ESTOP_N becomes asserted or not on a unit, or what acts as it does. -/
theorem KeepsGuard.estopChange (s : State) (u : DieId) (was : Bool) : KeepsGuard (s.onDie u (estopEnded was s.ticks)) (estopChange s u was) := by
  unfold Machine.estopChange
  extract_lets now
  split_ifs with h1 h2
  · have hid : estopEnded was s.ticks (s.die u) = s.die u := if_neg (by
      change ¬ (was && !now) = true
      revert h1
      cases was <;> cases now <;> decide)
    rw [onDie_unchanged s u hid]
    exact (safetyEvent ..).trans (.raise _ _ (by decide) _)
  · have he : s.onDie u (estopEnded was s.ticks) = s.onDie u (·.onLgd (fun l => { l with eClear := l.eClear.map (fun _ => s.ticks) })) :=
      onDie_at s u (if_pos h2)
    rw [he]
    exact .refl _
  · have hid : estopEnded was s.ticks (s.die u) = s.die u := if_neg h2
    rw [onDie_unchanged s u hid]
    exact .refl _

/-- The level of SAFE_ESTOP_N. -/
def State.withEstop (s : State) (high : Bool) : State := { s with pins := { s.pins with estopN := high } }

theorem die_withEstop (s : State) (high : Bool) (e : DieId) : (s.withEstop high).die e = s.die e := by cases e <;> rfl

theorem unitOn_withEstop (s : State) (high : Bool) (u : DieId) : unitOn (s.withEstop high) u = unitOn s u := by
  unfold unitOn
  rw [die_withEstop]

/-- SAFE_ESTOP_N low on a unit. -/
def stoppedDie (x : Die) : Die := (x.onLgd (fun l => { l with eClear := none })).onLgd Lgd.tripE

/-- SAFE_ESTOP_N low on the units that run. -/
def stopUnits (s : State) : State :=
  onUnits (s.withEstop false) (fun s u => tripE (estopChange (s.onDie u (·.onLgd (fun l => { l with eClear := none }))) u false) u (unitBit u))

theorem safeEstop_eq (s : State) : safeEstop s = scanUnits (stopUnits s) := rfl

theorem stopUnits_takes (s : State) : UnitsTake (s.withEstop false) (fun _ => stoppedDie) (stopUnits s) := by
  refine .onUnits _ (fun u t _ => ?_) fun _ _ _ h =>
    (h.onLgd_same (f := fun l => { l with eClear := none }) (fun _ => rfl) fun _ => rfl).onLgd_same (f := Lgd.tripE) (fun _ => rfl) fun _ => rfl
  have h1 := KeepsGuard.estopChange (t.onDie u (·.onLgd (fun l => { l with eClear := none }))) u false
  rw [State.onDie_onDie] at h1
  have h2 := (h1.map u (f := (·.onLgd Lgd.tripE)) fun _ _ h => h.onLgd_same (fun _ => rfl) fun _ => rfl).trans (.tripE _ u (unitBit u))
  rw [State.onDie_onDie] at h2
  exact h2

theorem safeEstop_takes (s : State) : UnitsTake (s.withEstop false) (fun _ x => scanned s.ticks (stoppedDie x)) (safeEstop s) :=
  (stopUnits_takes s).scan fun _ _ => rfl

/-- SAFE_ESTOP_N high on a unit. -/
def resumedDie (ticks : Nat) (x : Die) : Die := x.onLgd (fun l => { l with eClear := some (l.eClear.getD ticks) })

theorem safeEstopRelease_takes (s : State) : UnitsTake (s.withEstop true) (fun _ x => scanned s.ticks (resumedDie s.ticks x)) (safeEstopRelease s) := by
  have hu : UnitsTake (s.withEstop true) (fun _ => resumedDie s.ticks) (onUnits (s.withEstop true) (fun s u => s.onDie u (resumedDie s.ticks))) := by
    refine .onUnits _ (fun u t ht => ?_) fun _ _ _ h => h.onLgd_same (fun _ => rfl) fun _ => rfl
    rw [ht]
    exact .refl _
  exact hu.scan fun _ _ => rfl

/-! ## Decisions after a time -/

theorem onZone_unchanged {l : Lgd} {z : Nat} {f : Zone → Zone} (h : f (l.zone z) = l.zone z) : l.onZone z f = l := by
  obtain ⟨zones⟩ := l
  unfold Lgd.onZone Lgd.setZone
  rw [h]
  congr 1
  apply Vector.ext
  intro i hi
  simp only [Vector.getElem_setIfInBounds]
  split
  next h => simp [h, Lgd.zone, Vector.getD, hi]
  · rfl

/-- A change of the die of every unit that runs. -/
theorem onUnits_die {s : State} (f : State → DieId → Die → Die) (hf : ∀ (t : State) u, t.ticks = s.ticks → f t u = f s u) (u : DieId) :
    (onUnits s (fun s u => s.onDie u (f s u))).die u = if unitOn s u then f s u (s.die u) else s.die u := by
  have hgo (t : State) (e v : DieId) : (if unitOn t e then t.onDie e (f t e) else t).die v =
      if e = v ∧ unitOn t v = true then f t v (t.die v) else t.die v := by
    by_cases hev : e = v
    · subst hev
      cases hu : unitOn t e
      · simp
      · simp [State.die_onDie_same]
    · have hne : ¬ (e = v ∧ unitOn t v = true) := fun h => hev h.1
      rw [if_neg hne]
      cases unitOn t e
      · rfl
      · exact State.die_onDie_other t (Ne.symm hev) _
  have hticks (t : State) (e : DieId) : (if unitOn t e then t.onDie e (f t e) else t).ticks = t.ticks := by
    split
    · exact State.onDie_ticks ..
    · rfl
  unfold onUnits
  dsimp only
  rw [hgo]
  cases u with
  | cd0 =>
    rw [if_neg fun h => absurd h.1 (by decide), hgo]
    simp
  | cd1 =>
    have h1 : (if unitOn s .cd0 then s.onDie .cd0 (f s .cd0) else s).die .cd1 = s.die .cd1 := by rw [hgo, if_neg fun h => absurd h.1 (by decide)]
    have hon : unitOn (if unitOn s .cd0 then s.onDie .cd0 (f s .cd0) else s) .cd1 = unitOn s .cd1 := by unfold unitOn at h1 ⊢; rw [h1]
    rw [hon, h1, hf _ _ (hticks ..)]
    simp

/-- 100 ms have passed at a tick since another. -/
def heldFor (ticks : Nat) (t : Option Nat) : Bool := match t with | some t => decide (100 * msT ≤ ticks - t) | none => false

/-- A zone that its unit decides to make READY where a condition holds. -/
def wantedZone (c : Bool) (v : Zone) : Zone := { v with wantReady := v.wantReady || c }

theorem wantedZone_true (v : Zone) : wantedZone true v = { v with wantReady := true } := by
  unfold wantedZone
  rw [Bool.or_true]

theorem wantedZone_false (v : Zone) : wantedZone false v = v := by
  unfold wantedZone
  rw [Bool.or_false]

/-- The startup test of a zone. -/
def testedZone (on : Bool) (ticks : Nat) (v : Zone) : Zone :=
  wantedZone (on && v.state == ZoneState.untested && v.seenA && v.seenB && heldFor ticks v.closedSince) v

theorem startupTest_zone {z : Nat} (hz : z < 4) (s : State) (u : DieId) :
    ((startupTest z s).die u).lgd.zone z = testedZone (unitOn s u && (s.die u).zoneEn z) s.ticks ((s.die u).lgd.zone z) := by
  have hd := onUnits_die (s := s) (fun s _ x =>
    let v := x.lgd.zone z
    if x.zoneEn z && v.state == ZoneState.untested && v.seenA && v.seenB && held100 s v.closedSince then
      x.onLgd (·.onZone z (fun v => { v with wantReady := true }))
    else x) (fun t u ht => by unfold held100; rw [ht]) u
  rw [show startupTest z s = onUnits s _ from rfl, hd]
  cases unitOn s u
  · rw [if_neg (by decide), Bool.false_and]
    exact (wantedZone_false _).symm
  · rw [if_pos rfl, Bool.true_and]
    dsimp only
    unfold testedZone
    split
    next h => rw [show heldFor s.ticks _ = held100 s _ from rfl, h, wantedZone_true]; exact zone_onZone_same _ hz _
    next h => rw [show heldFor s.ticks _ = held100 s _ from rfl, Bool.eq_false_iff.2 h, wantedZone_false]

/-! ### Resets -/

/-- A zone whose reset a unit decides. -/
def resetZone (ticks bits z : Nat) (v : Zone) : Zone := wantedZone (bitOf bits z && v.state == ZoneState.tripped && heldFor ticks v.clearSince) v

def resetZoneDie (ticks bits : Nat) (x : Die) (z : Nat) : Die := x.onLgd (·.onZone z (resetZone ticks bits z))

/-- A unit's die after it has decided resets. -/
def resetDie (ticks bits : Nat) (x : Die) : Die :=
  ((List.range 4).foldl (resetZoneDie ticks bits) x).onLgd (fun l =>
    { l with eWant := l.eWant || (bitOf bits 4 && l.eTripped && heldFor ticks l.eClear && !x.estop) })

theorem onZone_inputs (x : Die) (z : Nat) {f : Zone → Zone} (ha : ∀ v, (f v).chA = v.chA) (hb : ∀ v, (f v).chB = v.chB) :
    x.SameInputs (x.onLgd (·.onZone z f)) := by
  have hz (j : Nat) : (x.lgd.onZone z f).zone j = if z = j ∧ j < 4 then f (x.lgd.zone j) else x.lgd.zone j := zone_onZone ..
  refine ⟨fun _ _ => rfl, fun j => (congrArg Zone.chA (hz j)).trans ?_, fun j => (congrArg Zone.chB (hz j)).trans ?_, rfl, rfl⟩
  · split
    · exact ha _
    · rfl
  · split
    · exact hb _
    · rfl

/-- What deciding the resets of zones leaves, and a zone after it. -/
theorem resetZones_fold (ticks bits : Nat) (l : List Nat) (hn : l.Nodup) (x : Die) (j : Nat) : let y := l.foldl (resetZoneDie ticks bits) x
    x.SameInputs y ∧ y.lgd.eWant = x.lgd.eWant ∧ y.lgd.eTripped = x.lgd.eTripped ∧ y.lgd.eClear = x.lgd.eClear ∧
      y.lgd.zone j = if j ∈ l ∧ j < 4 then resetZone ticks bits j (x.lgd.zone j) else x.lgd.zone j := by
  induction l generalizing x with
  | nil => exact ⟨⟨fun _ _ => rfl, fun _ => rfl, fun _ => rfl, rfl, rfl⟩, rfl, rfl, rfl, by simp⟩
  | cons z l ih =>
    obtain ⟨hz, hn⟩ := List.nodup_cons.1 hn
    have h1 : x.SameInputs (resetZoneDie ticks bits x z) := onZone_inputs x z (fun _ => rfl) fun _ => rfl
    obtain ⟨h2, hw, ht, hc, hj⟩ := ih hn (resetZoneDie ticks bits x z)
    have hzj : ((resetZoneDie ticks bits x z).lgd.zone j) = if z = j ∧ j < 4 then resetZone ticks bits z (x.lgd.zone j) else x.lgd.zone j := zone_onZone ..
    refine ⟨h1.trans h2, hw, ht, hc, hj.trans ?_⟩
    rw [hzj]
    by_cases hjz : j = z
    · subst hjz
      simp [hz]
    · simp [hjz, Ne.symm hjz]

theorem zoneResets_fold (u : DieId) (bits : Nat) (l : List Nat) (s : State) :
    l.foldl (fun (s : State) z =>
      let v := (s.die u).lgd.zone z
      if bitOf bits z && v.state == ZoneState.tripped && held100 s v.clearSince then
        s.onDie u (·.onLgd (·.onZone z (fun v => { v with wantReady := true }))) else s) s =
      s.onDie u (fun x => l.foldl (resetZoneDie s.ticks bits) x) := by
  induction l generalizing s with
  | nil => exact (onDie_unchanged s u rfl).symm
  | cons z l ih =>
    have hstep : (if bitOf bits z && ((s.die u).lgd.zone z).state == ZoneState.tripped && held100 s ((s.die u).lgd.zone z).clearSince then
        s.onDie u (·.onLgd (·.onZone z (fun v => { v with wantReady := true }))) else s) = s.onDie u (resetZoneDie s.ticks bits · z) := by
      split
      next h =>
        refine onDie_at s u (onLgd_congr (onZone_congr ?_))
        unfold resetZone
        rw [show heldFor s.ticks _ = held100 s _ from rfl, h, wantedZone_true]
      next h =>
        refine (onDie_unchanged s u ?_).symm
        have hz : resetZone s.ticks bits z ((s.die u).lgd.zone z) = (s.die u).lgd.zone z := by
          unfold resetZone
          rw [show heldFor s.ticks _ = held100 s _ from rfl, Bool.eq_false_iff.2 h, wantedZone_false]
        exact onLgd_unchanged (onZone_unchanged hz)
    rw [List.foldl_cons]
    dsimp only
    rw [hstep, ih, State.onDie_onDie, State.onDie_ticks]
    rfl

theorem zoneResets_eq (s : State) (u : DieId) (bits : Nat) : zoneResets s u bits = s.onDie u (resetDie s.ticks bits) := by
  unfold zoneResets
  rw [zoneResets_fold]
  extract_lets s1 l
  have hd : s1.die u = (List.range 4).foldl (resetZoneDie s.ticks bits) (s.die u) := State.die_onDie_same ..
  obtain ⟨hin, hw, ht, hc, -⟩ := resetZones_fold s.ticks bits (List.range 4) List.nodup_range (s.die u) 0
  rw [← hd] at hin hw ht hc
  have hheld : held100 s1 l.eClear = heldFor s.ticks l.eClear := congrArg (heldFor · l.eClear) (State.onDie_ticks ..)
  rw [hin.estop, hheld]
  split
  next h =>
    unfold s1
    rw [State.onDie_onDie]
    refine onDie_at s u ?_
    unfold resetDie
    rw [← hd]
    refine onLgd_congr ?_
    rw [show (bitOf bits 4 && (s1.die u).lgd.eTripped && heldFor s.ticks (s1.die u).lgd.eClear && !(s.die u).estop) = true from h, Bool.or_true]
  next h =>
    refine onDie_at s u ?_
    unfold resetDie
    rw [← hd]
    refine (onLgd_unchanged ?_).symm
    rw [show (bitOf bits 4 && (s1.die u).lgd.eTripped && heldFor s.ticks (s1.die u).lgd.eClear && !(s.die u).estop) = false from
      Bool.eq_false_iff.2 h, Bool.or_false]

theorem resetDie_zone (ticks bits : Nat) (x : Die) {z : Nat} (hz : z < 4) : (resetDie ticks bits x).lgd.zone z = resetZone ticks bits z (x.lgd.zone z) := by
  obtain ⟨-, -, -, -, hj⟩ := resetZones_fold ticks bits (List.range 4) List.nodup_range x z
  exact hj.trans (if_pos ⟨List.mem_range.2 hz, hz⟩)

theorem resetDie_eWant (ticks bits : Nat) (x : Die) : (resetDie ticks bits x).lgd.eWant =
    (x.lgd.eWant || (bitOf bits 4 && x.lgd.eTripped && heldFor ticks x.lgd.eClear && !x.estop)) := by
  obtain ⟨-, hw, ht, hc, -⟩ := resetZones_fold ticks bits (List.range 4) List.nodup_range x 0
  unfold resetDie
  change (_ || (bitOf bits 4 && Lgd.eTripped _ && heldFor ticks (Lgd.eClear _) && _)) = _
  rw [hw, ht, hc]

/-- AUTO_RESET of a zone, or of zone E (z = 4), on a die. -/
def autoOn (x : Die) (z : Nat) : Bool := if z = 4 then x.rbit Reg.LGD_GCFG F.LGD_GCFG_E_AUTO_RESET else x.rbit (Reg.LGD_ZCFG z) F.LGD_ZCFG_AUTO_RESET

def autoDie (z ticks : Nat) (x : Die) : Die := if autoOn x z then resetDie ticks (2 ^ z) x else x

theorem autoReset_die (z : Nat) (s : State) (u : DieId) :
    (autoReset z s).die u = if unitOn s u && autoOn (s.die u) z then resetDie s.ticks (2 ^ z) (s.die u) else s.die u := by
  have hf (s : State) (u : DieId) : (if autoOn (s.die u) z then zoneResets s u (2 ^ z) else s) = s.onDie u (autoDie z s.ticks) := by
    rw [zoneResets_eq]
    split
    next h => exact onDie_at s u (g := autoDie z s.ticks) (if_pos h).symm
    next h => exact (onDie_unchanged s u (f := autoDie z s.ticks) (if_neg h)).symm
  have he : autoReset z s = onUnits s (fun s u => s.onDie u (autoDie z s.ticks)) := congrArg (onUnits s) (funext fun s => funext fun u => hf s u)
  rw [he, onUnits_die (fun s _ => autoDie z s.ticks) (fun t u ht => by rw [ht]) u]
  unfold autoDie
  cases unitOn s u <;> simp

/-! ### Discrepancies -/

/-- A zone of a die that returns to UNTESTED. -/
def untestedZone (x : Die) (z : Nat) (disc : Bool) (v : Zone) : Zone :=
  { v with state := .untested, disc := disc, seenA := !x.closedA z, seenB := !x.closedB z, wantReady := false, unreset := v.unreset && x.zoneEn z }

def untestedDie (z : Nat) (disc : Bool) (x : Die) : Die := x.onLgd (·.onZone z (untestedZone x z disc))

theorem Die.SameGuard.untested {x y : Die} (h : x.SameGuard y) {z : Nat} (hz : z < 4) (disc : Bool) :
    (untestedDie z disc x).SameGuard (untestedDie z disc y) := by
  have hf : untestedZone y z disc = untestedZone x z disc := by
    unfold untestedZone
    rw [h.inputs.closedA, h.inputs.closedB, h.inputs.zoneEn hz]
  unfold untestedDie
  rw [hf]
  exact h.onZone z _

theorem KeepsGuard.untestZone (s : State) (u : DieId) (z : Nat) (disc : Bool) (who : Nat) :
    KeepsGuard (s.onDie u (untestedDie z disc)) (untestZone s u z disc who) := by
  unfold Machine.untestZone
  extract_lets s1 s2
  have h2 : KeepsGuard s1 s2 := .safetyEvent ..
  split
  · exact h2.trans (.afterShut ..)
  · exact h2.trans (.dropPermits ..)

/-- The channels of a zone have differed for more than 50 ms. -/
def discDue (x : Die) (z ticks : Nat) : Bool :=
  match (x.lgd.zone z).differSince with | some t => x.zoneEn z && decide (50 * msT < ticks - t) | none => false

def discDie (z ticks : Nat) (x : Die) : Die := if discDue x z ticks then untestedDie z true x else x

theorem discrepancy_takes {z : Nat} (hz : z < 4) (s : State) : UnitsTake s (fun _ => discDie z s.ticks) (discrepancy z s) := by
  have hdue {x y : Die} (h : x.SameGuard y) (ticks : Nat) : discDue y z ticks = discDue x z ticks := by
    unfold discDue
    rw [h.zone, h.inputs.zoneEn hz]
  refine .keeps (.onUnits _ (fun u t ht => ?_) fun u x y h => ?_) (.permitPins _)
  · have hraise : KeepsGuard t (raise t u (200 + z)) := .raise t u (by omega) 0
    have hon : KeepsGuard (t.onDie u (untestedDie z true)) (untestZone (raise t u (200 + z)) u z true (unitBit u)) :=
      (hraise.map u fun _ _ h => h.untested hz true).trans (.untestZone ..)
    extract_lets x
    rw [← ht]
    cases hd : discDue (t.die u) z t.ticks
    · rw [onDie_unchanged t u (f := discDie z t.ticks) (if_neg (by rw [hd]; decide))]
      unfold discDue at hd
      split
      next a ha =>
        rw [ha] at hd
        dsimp only at hd
        rw [hd, if_neg (by decide)]
        exact .refl t
      · exact .refl t
    · rw [onDie_at t u (f := discDie z t.ticks) (g := untestedDie z true) (if_pos hd)]
      unfold discDue at hd
      split
      next a ha =>
        rw [ha] at hd
        dsimp only at hd
        rw [hd, if_pos rfl]
        exact hon
      next ha =>
        rw [ha] at hd
        cases hd
  · unfold discDie
    rw [hdue h]
    split
    · exact h.untested hz true
    · exact h

/-! ## The obligation -/

theorem guardChannel_answers {u : DieId} (z : Fin 4) (closed : Bool) {s : State} (ho : unitOn s u = true) :
    Answers (.guardChannelFiltered u z closed) s (fun t =>
      let old := (s.die u).lgd.zone z; let new := (t.die u).lgd.zone z
      (u = .cd0 → new.chA = closed ∧ new.chB = old.chB) ∧ (u = .cd1 → new.chB = closed ∧ new.chA = old.chA) ∧
      (closed = false → (s.die u).zoneEn z = true → (s.die u).rbit (Reg.LGD_ZCFG z) F.LGD_ZCFG_LOCAL = true → old.state = .ready →
        new.state = .tripped ∧ new.unreset = true ∧ new.trips = (old.trips + 1) % 65536) ∧
      (old.state ≠ .ready → new.state = old.state) ∧
      (t.die u.peer).lgd.zone z = (s.die u.peer).lgd.zone z) := by
  obtain ⟨hz, hother⟩ := guardChannel_zone z.isLt (closed := closed) ho
  refine .of_done (congrArg done rfl) fun t ht => ?_
  intro old new
  have hnew : new = _ := (congrArg (·.zone z) (ht.die_lgd u)).trans hz
  have hstate : (channelZone u closed old).state = old.state := by cases u <;> rfl
  have htrips : (channelZone u closed old).trips = old.trips := by cases u <;> rfl
  refine ⟨?_, ?_, ?_, ?_, (congrArg (·.zone z) (ht.die_lgd u.peer)).trans (hother _ (by cases u <;> decide))⟩
  · rintro rfl
    rw [hnew, (scanZone_channels ..).1, (scanZone_channels ..).2]
    exact ⟨rfl, rfl⟩
  · rintro rfl
    rw [hnew, (scanZone_channels ..).1, (scanZone_channels ..).2]
    exact ⟨rfl, rfl⟩
  · rintro rfl hen hl hr
    have h := scanZone_trips (x := (s.die u).onLgd (·.onZone z (channelZone u false))) hen (channelZone_open z.isLt hl) (hstate.trans hr) s.ticks
    rw [htrips] at h
    rw [hnew]
    exact h
  · intro hr
    rw [hnew, scanZone_stays (.inl (by rw [hstate]; exact hr))]
    exact hstate

theorem safeEstop_answers (s : State) : Answers .safeEstop s (fun t => t.pins.estopN = false ∧
    ∀ u, unitOn s u = true → (t.die u).lgd.eTripped = true ∧ (t.die u).lgd.eClear = none ∧ ∀ k : Fin 8, ((t.die u).lgd.permit k).granted = false) := by
  have hk := safeEstop_takes s
  refine .of_done (congrArg done rfl) fun t ht => ⟨(congrArg (·.pins.estopN) ht.quiet).trans hk.estopN, fun u hu => ?_⟩
  rw [ht.die_lgd u]
  have hd := hk.on ((unitOn_withEstop s false u).trans hu)
  have he : ((safeEstop s).die u).lgd.eTripped = true := by
    rw [hd.eTripped, scanned_eTripped]
    rfl
  refine ⟨he, ?_, fun k => ?_⟩
  · rw [hd.eClear, scanned_eClear]
    exact ite_self _
  · have hon : unitOn (stopUnits s) u = true := ((stopUnits_takes s).unitOn (fun _ _ => rfl) u).trans ((unitOn_withEstop s false u).trans hu)
    have hden : denied (safeEstop s) u = true := by
      unfold denied
      rw [he]
      rfl
    exact scanUnits_denied hon hden k.isLt

theorem safeEstopRelease_answers (s : State) : Answers .safeEstopRelease s (fun t => t.pins.estopN = true ∧
    ∀ u, unitOn s u = true → (t.die u).lgd.eClear = some (if ((s.die u).sdEn && (s.die u).lgd.sd.estop) || (s.die u).rbit Reg.LGD_FORCE F.LGD_FORCE_ESTOP
        then s.ticks else (s.die u).lgd.eClear.getD s.ticks) ∧
      ((s.die u).lgd.eTripped = true → (t.die u).lgd.eTripped = true)) := by
  have hk := safeEstopRelease_takes s
  refine .of_done (congrArg done rfl) fun t ht => ⟨(congrArg (·.pins.estopN) ht.quiet).trans hk.estopN, fun u hu => ?_⟩
  rw [ht.die_lgd u]
  have hd := hk.on ((unitOn_withEstop s true u).trans hu)
  rw [die_withEstop] at hd
  refine ⟨?_, fun he => ?_⟩
  · rw [hd.eClear, scanned_eClear]
    have hes : (resumedDie s.ticks (s.die u)).estop = ((s.die u).sdEn && (s.die u).lgd.sd.estop || (s.die u).rbit Reg.LGD_FORCE F.LGD_FORCE_ESTOP) := by
      unfold Die.estop
      change (false || ((s.die u).sdEn && (s.die u).lgd.sd.estop) || (s.die u).rbit Reg.LGD_FORCE F.LGD_FORCE_ESTOP) = _
      rw [Bool.false_or]
    rw [hes]
    split
    · rfl
    · rfl
  · rw [hd.eTripped, scanned_eTripped]
    change ((s.die u).lgd.eTripped || _) = true
    rw [he, Bool.true_or]

theorem discrepancy_answers (z : Fin 4) (s : State) : Answers (.zoneDiscrepancy z) s (fun t => ∀ u, let v := (s.die u).lgd.zone z; let w := (t.die u).lgd.zone z
    (∀ a, unitOn s u = true → (s.die u).zoneEn z = true → v.differSince = some a → 50 * msT < s.ticks - a →
      w.state = .untested ∧ w.disc = true ∧ w.wantReady = false) ∧
    (unitOn s u = false ∨ (s.die u).zoneEn z = false ∨ v.differSince = none → w = v)) := by
  refine .of_done (congrArg done rfl) fun t ht u => ?_
  intro v w
  have hk := discrepancy_takes z.isLt s
  have hw : w = ((discrepancy z s).die u).lgd.zone z := congrArg (·.zone z) (ht.die_lgd u)
  refine ⟨fun a hu hen ha hlt => ?_, fun h => ?_⟩
  · have hdue : discDue (s.die u) z s.ticks = true := by
      unfold discDue
      rw [ha]
      dsimp only
      rw [hen, decide_eq_true hlt]
      rfl
    have hz : w = untestedZone (s.die u) z true v := by
      rw [hw, (hk.on hu).zone z, discDie, if_pos hdue]
      exact zone_onZone_same _ z.isLt _
    rw [hz]
    exact ⟨rfl, rfl, rfl⟩
  · rw [hw]
    cases hu : unitOn s u
    · exact (hk.off hu).zone z
    · have hdue : discDue (s.die u) z s.ticks = false := by
        unfold discDue
        rcases h with h | h | h
        · rw [hu] at h; cases h
        · rw [h]
          split <;> rfl
        · rw [h]
      rw [(hk.on hu).zone z, discDie, if_neg (by rw [hdue]; decide)]

theorem autoReset_answers (z : Fin 4) (s : State) : Answers (.zoneAutoReset ⟨z.val, by omega⟩) s (fun t => ∀ u,
    let v := (s.die u).lgd.zone z; let w := (t.die u).lgd.zone z
    w = { v with wantReady := v.wantReady || (unitOn s u && (s.die u).rbit (Reg.LGD_ZCFG z) F.LGD_ZCFG_AUTO_RESET &&
      v.state == ZoneState.tripped && held100 s v.clearSince) }) := by
  refine .of_done (congrArg done rfl) fun t ht u => ?_
  intro v w
  have hw : w = ((autoReset z s).die u).lgd.zone z := congrArg (·.zone z) (ht.die_lgd u)
  have hbit : ∀ z : Fin 4, bitOf (2 ^ z.val) z = true := by decide
  have hon : autoOn (s.die u) z = (s.die u).rbit (Reg.LGD_ZCFG z) F.LGD_ZCFG_AUTO_RESET := if_neg (by omega)
  rw [hw, autoReset_die, hon]
  split
  next h =>
    rw [resetDie_zone _ _ _ z.isLt, h]
    unfold resetZone
    rw [hbit]
    rfl
  next h =>
    rw [Bool.eq_false_iff.2 h]
    exact (wantedZone_false v).symm

theorem autoResetE_answers (s : State) : Answers (.zoneAutoReset 4) s (fun t => ∀ u, unitOn s u = true →
    (t.die u).lgd.eWant = ((s.die u).lgd.eWant || ((s.die u).rbit Reg.LGD_GCFG F.LGD_GCFG_E_AUTO_RESET && (s.die u).lgd.eTripped &&
      held100 s (s.die u).lgd.eClear && !(s.die u).estop))) := by
  refine .of_done (congrArg done rfl) fun t ht u hu => ?_
  have hon : autoOn (s.die u) 4 = (s.die u).rbit Reg.LGD_GCFG F.LGD_GCFG_E_AUTO_RESET := if_pos rfl
  have hd := autoReset_die 4 s u
  rw [hu, hon] at hd
  rw [ht.die_lgd u]
  change ((autoReset 4 s).die u).lgd.eWant = _
  rw [hd]
  cases he : (s.die u).rbit Reg.LGD_GCFG F.LGD_GCFG_E_AUTO_RESET
  · rw [Bool.and_false, if_neg (by decide)]
    simp
  · rw [if_pos (by decide), resetDie_eWant, show bitOf (2 ^ 4) 4 = true from by decide]
    rfl

/-- Settles O38, through what becomes of a unit that judges its zones (`KeepsGuard.scanUnit`). -/
theorem guardInputsAndZones : Obligations.GuardInputsAndZones := by
  refine ⟨⟨fun u z closed s => ⟨fun h => .of_row (f := guardChannel u z closed) rfl (if_pos (by rw [h]; rfl)), guardChannel_answers z closed⟩,
    fun s => ⟨safeEstop_answers s, safeEstopRelease_answers s⟩⟩, fun z s => ⟨?_, discrepancy_answers z s, autoReset_answers z s, autoResetE_answers s⟩⟩
  exact .of_done (congrArg done rfl) fun t ht u => (congrArg (·.zone z) (ht.die_lgd u)).trans (startupTest_zone z.isLt s u)

end Sys2Proof.Machine
end

section
/-!
PROOFS. What gives light back needs both safety units (R441 to R444).
-/

namespace Sys2Proof.Machine

/-! ## The exchange of inputs -/

/-- A unit's die after it has taken over its peer's channels. -/
def swappedZone (u : DieId) (v w : Zone) : Zone := match u with | .cd0 => { v with chB := w.chB } | .cd1 => { v with chA := w.chA }

theorem foldl_onZone (f : Nat → Zone → Zone) (l : List Nat) (hn : l.Nodup) (x : Lgd) (j : Nat) :
    (l.foldl (fun l z => l.onZone z (f z)) x).zone j = if j ∈ l ∧ j < 4 then f j (x.zone j) else x.zone j := by
  induction l generalizing x with
  | nil => simp
  | cons z l ih =>
    obtain ⟨hz, hn⟩ := List.nodup_cons.1 hn
    rw [List.foldl_cons, ih hn, zone_onZone]
    by_cases hjz : j = z
    · subst hjz
      simp [hz]
    · simp [hjz, Ne.symm hjz]

/-- A part of a unit that changes of its zones leave. -/
theorem foldl_onZone_part {α : Type} (π : Lgd → α) (hπ : ∀ (l : Lgd) z f, π (l.onZone z f) = π l) (f : Nat → Zone → Zone) (l : List Nat) (x : Lgd) :
    π (l.foldl (fun l z => l.onZone z (f z)) x) = π x := by
  induction l generalizing x with
  | nil => rfl
  | cons z l ih => exact (ih _).trans (hπ ..)

/-- A unit after the exchange. -/
def exchanged (u : DieId) (ticks : Nat) (peer l : Lgd) : Lgd :=
  (List.range 4).foldl (fun l z => l.onZone z (fun v => swappedZone u v (peer.zone z))) { l with xlink := true, lastXchg := ticks }

theorem swapInputs_die (s : State) (u : DieId) : (swapInputs s).die u = (s.die u).onLgd (exchanged u s.ticks (s.die u.peer).lgd) := by
  cases u with
  | cd0 => exact (State.die_onDie_other (d := .cd1) (e := .cd0) _ (by decide) _).trans (State.die_onDie_same ..)
  | cd1 =>
    unfold swapInputs
    rw [State.die_onDie_same, State.die_onDie_other s (by decide)]
    rfl

theorem exchanged_zone (u : DieId) (ticks : Nat) (peer l : Lgd) {z : Nat} (hz : z < 4) : (exchanged u ticks peer l).zone z = swappedZone u (l.zone z) (peer.zone z) := by
  unfold exchanged
  rw [foldl_onZone (fun z v => swappedZone u v (peer.zone z)) _ List.nodup_range, if_pos ⟨List.mem_range.2 hz, hz⟩]
  rfl

theorem exchanged_part {α : Type} (π : Lgd → α) (hπ : ∀ (l : Lgd) z f, π (l.onZone z f) = π l) (u : DieId) (ticks : Nat) (peer l : Lgd) :
    π (exchanged u ticks peer l) = π { l with xlink := true, lastXchg := ticks } := foldl_onZone_part π hπ _ _ _

/-! ## What an exchange keeps after the inputs are swapped -/

/-- From x to y a die keeps its life, its cross-link, the judgements of its self-test and the channels of its zones. -/
structure Die.Linked (x y : Die) : Prop where
  life : y.life = x.life
  ok : y.lgd.ok = x.lgd.ok
  peerOk : y.lgd.peerOk = x.lgd.peerOk
  xlink : y.lgd.xlink = x.lgd.xlink
  lastXchg : y.lgd.lastXchg = x.lgd.lastXchg
  chA : ∀ z, (y.lgd.zone z).chA = (x.lgd.zone z).chA
  chB : ∀ z, (y.lgd.zone z).chB = (x.lgd.zone z).chB

theorem Die.Linked.refl (x : Die) : x.Linked x := ⟨rfl, rfl, rfl, rfl, rfl, fun _ => rfl, fun _ => rfl⟩

theorem Die.Linked.trans {x y w : Die} (h : x.Linked y) (k : y.Linked w) : x.Linked w :=
  ⟨k.life.trans h.life, k.ok.trans h.ok, k.peerOk.trans h.peerOk, k.xlink.trans h.xlink, k.lastXchg.trans h.lastXchg,
    fun z => (k.chA z).trans (h.chA z), fun z => (k.chB z).trans (h.chB z)⟩

theorem Die.SameGuard.linked {x y : Die} (h : x.SameGuard y) : x.Linked y :=
  ⟨h.life, h.ok, h.peerOk, h.xlink, h.lastXchg, fun z => by rw [h.zone], fun z => by rw [h.zone]⟩

theorem Die.Linked.scanned (x : Die) (ticks : Nat) : x.Linked (scanned ticks x) := by
  have hin : x.SameInputs (Machine.scanned ticks x) := (scanE_inputs ticks x).trans (scanDies_fold ticks _ _ List.nodup_range 0).1
  exact ⟨scanned_life .., scanned_ok .., scanned_peerOk .., scanned_xlink .., scanned_lastXchg .., hin.chA, hin.chB⟩

theorem Die.Linked.onZone (x : Die) (z : Nat) {f : Zone → Zone} (ha : ∀ v, (f v).chA = v.chA) (hb : ∀ v, (f v).chB = v.chB) :
    x.Linked (x.onLgd (·.onZone z f)) :=
  have h := onZone_inputs x z ha hb
  ⟨rfl, rfl, rfl, rfl, rfl, h.chA, h.chB⟩

/-- From s to t both dies keep that. -/
structure KeepsLinked (s t : State) : Prop where
  die : ∀ e, (s.die e).Linked (t.die e)

namespace KeepsLinked
variable {s t u : State}

theorem refl (s : State) : KeepsLinked s s := ⟨fun _ => .refl _⟩

theorem trans (h : KeepsLinked s t) (k : KeepsLinked t u) : KeepsLinked s u := ⟨fun e => (h.die e).trans (k.die e)⟩

theorem of_guard (h : KeepsGuard s t) : KeepsLinked s t := ⟨fun e => (h.die e).linked⟩

theorem onDie (s : State) (d : DieId) {f : Die → Die} (h : ∀ x, Die.Linked x (f x)) : KeepsLinked s (s.onDie d f) := by
  refine ⟨fun e => ?_⟩
  by_cases he : e = d
  · rw [he, State.die_onDie_same]; exact h _
  · rw [State.die_onDie_other s he]; exact .refl _

theorem foldl {α : Type} (g : State → α → State) (h : ∀ t a, KeepsLinked t (g t a)) (l : List α) (s : State) : KeepsLinked s (l.foldl g s) := by
  induction l generalizing s with
  | nil => exact .refl s
  | cons a l ih => exact (h s a).trans (ih _)

theorem scanUnits (s : State) : KeepsLinked s (scanUnits s) := by
  have h := UnitsTake.scanUnits s
  refine ⟨fun u => .trans ?_ (h.die u).linked⟩
  split
  · exact .scanned ..
  · exact .refl _

theorem bothSound (h : KeepsLinked s t) : bothSound t = bothSound s := by
  unfold Machine.bothSound sound unitOn
  rw [(h.die .cd0).life, (h.die .cd1).life, (h.die .cd0).ok, (h.die .cd1).ok, (h.die DieId.cd0.peer).peerOk, (h.die DieId.cd1.peer).peerOk]

end KeepsLinked

/-! ## Steps that change one zone -/

/-- A zone that has lost nothing but light: no READY, and no decision for it, is new. -/
structure Zone.Wanes (v w : Zone) : Prop where
  chA : w.chA = v.chA
  chB : w.chB = v.chB
  ready : w.state = .ready → v.state = .ready
  want : w.wantReady = true → v.wantReady = true

theorem Zone.Wanes.refl (v : Zone) : v.Wanes v := ⟨rfl, rfl, fun h => h, fun h => h⟩

theorem Zone.Wanes.trans {v w x : Zone} (h : v.Wanes w) (k : w.Wanes x) : v.Wanes x :=
  ⟨k.chA.trans h.chA, k.chB.trans h.chB, fun hx => h.ready (k.ready hx), fun hx => h.want (k.want hx)⟩

theorem Zone.Wanes.tripped (v : Zone) : v.Wanes v.tripped := ⟨rfl, rfl, (by cases ·), (by cases ·)⟩

theorem Zone.Wanes.untested (x : Die) (z : Nat) (disc : Bool) (v : Zone) : v.Wanes (untestedZone x z disc v) :=
  ⟨rfl, rfl, (by cases ·), (by cases ·)⟩

theorem Zone.Wanes.timed (x : Die) (z ticks : Nat) (v : Zone) : v.Wanes (timedZone x z ticks v) :=
  ⟨rfl, rfl, fun h => h, fun h => (Bool.and_eq_true_iff.1 (Bool.and_eq_true_iff.1 h).1).1⟩

theorem Zone.Wanes.scan (x : Die) (z ticks : Nat) (v : Zone) : v.Wanes (scanZone x z ticks v) := by
  unfold scanZone
  split
  · exact (timed ..).trans (.tripped _)
  · exact .timed ..

/-- From s to t the unit of u changes its zone z by f, but for connections, permits and what is sent. -/
abbrev ZoneStep (s : State) (u : DieId) (z : Nat) (f : Zone → Zone) (t : State) : Prop := KeepsGuard (s.onDie u (·.onLgd (·.onZone z f))) t

theorem ZoneStep.zone {s t : State} {u : DieId} {z : Nat} {f : Zone → Zone} (h : ZoneStep s u z f t) (e : DieId) (j : Nat) :
    (t.die e).lgd.zone j = if e = u ∧ z = j ∧ j < 4 then f ((s.die e).lgd.zone j) else (s.die e).lgd.zone j := by
  rw [(h.die e).zone]
  by_cases he : e = u
  · rw [he, State.die_onDie_same]
    refine (zone_onZone ..).trans ?_
    simp
  · rw [State.die_onDie_other s he, if_neg fun h => he h.1]

theorem ZoneStep.linked {s t : State} {u : DieId} {z : Nat} {f : Zone → Zone} (h : ZoneStep s u z f t) (ha : ∀ v, (f v).chA = v.chA)
    (hb : ∀ v, (f v).chB = v.chB) : KeepsLinked s t := (KeepsLinked.onDie s u fun x => .onZone x z ha hb).trans (.of_guard h)

/-! ## What a unit follows of its peer -/

/-- One zone that a unit follows. -/
def followStep (u : DieId) (s : State) (z : Nat) : State :=
  let mine := (s.die u).lgd.zone z
  let his := (s.die u.peer).lgd.zone z
  if !(s.die u).zoneEn z || !(s.die u.peer).zoneEn z || mine.state == his.state then s
  else if his.state == ZoneState.untested then untestZone s u z his.disc (unitBit u.peer)
  else if his.state == ZoneState.tripped && mine.state == ZoneState.ready then tripZone s u z (unitBit u.peer)
  else s

theorem followPeer_eq (s : State) (u : DieId) : followPeer s u =
    (if (((List.range 4).foldl (followStep u) s).die u.peer).lgd.eTripped then tripE ((List.range 4).foldl (followStep u) s) u (unitBit u.peer)
      else (List.range 4).foldl (followStep u) s) := rfl

theorem zoneStep_id (s : State) (u : DieId) (z : Nat) : ZoneStep s u z (fun v => v) s := by
  unfold ZoneStep
  rw [onDie_unchanged s u (onLgd_unchanged (onZone_unchanged rfl))]
  exact .refl s

theorem followStep_zone (u : DieId) (s : State) (z : Nat) : ∃ f, ZoneStep s u z f (followStep u s z) ∧ ∀ v, Zone.Wanes v (f v) := by
  unfold followStep
  extract_lets mine his
  split_ifs
  · exact ⟨_, zoneStep_id s u z, .refl⟩
  · refine ⟨untestedZone (s.die u) z his.disc, ?_, fun v => .untested _ z _ v⟩
    have h := KeepsGuard.untestZone s u z his.disc (unitBit u.peer)
    rwa [onDie_at s u (f := untestedDie z his.disc) (g := (·.onLgd (·.onZone z (untestedZone (s.die u) z his.disc)))) rfl] at h
  · exact ⟨_, .tripZone s u z _, fun v => .tripped v⟩
  · exact ⟨_, zoneStep_id s u z, .refl⟩

theorem followStep_equal {u : DieId} {s : State} {z : Nat} (h : ((s.die u).lgd.zone z).state = ((s.die u.peer).lgd.zone z).state) :
    followStep u s z = s := by
  refine if_pos ?_
  rw [h, beq_self_eq_true, Bool.or_true]

/-- What following leaves: what the units share, zones that wane, and a zone that both units find alike. -/
structure Follows (s t : State) : Prop where
  linked : KeepsLinked s t
  wanes : ∀ e z, ((s.die e).lgd.zone z).Wanes ((t.die e).lgd.zone z)
  alike : ∀ z, ((s.die .cd0).lgd.zone z).state = ((s.die .cd1).lgd.zone z).state → ∀ e, (t.die e).lgd.zone z = (s.die e).lgd.zone z

namespace Follows
variable {s t w : State}

theorem refl (s : State) : Follows s s := ⟨.refl s, fun _ _ => .refl _, fun _ _ _ => rfl⟩

theorem trans (h : Follows s t) (k : Follows t w) : Follows s w := by
  refine ⟨h.linked.trans k.linked, fun e z => (h.wanes e z).trans (k.wanes e z), fun z hz e => ?_⟩
  have ha := h.alike z hz
  exact (k.alike z (by rw [ha, ha, hz]) e).trans (ha e)

theorem of_guard (h : KeepsGuard s t) : Follows s t :=
  ⟨.of_guard h, fun e z => by rw [(h.die e).zone]; exact .refl _, fun z _ e => (h.die e).zone z⟩

theorem step (u : DieId) (s : State) (z : Nat) : Follows s (followStep u s z) := by
  obtain ⟨f, hf, hw⟩ := followStep_zone u s z
  refine ⟨hf.linked (fun v => (hw v).chA) fun v => (hw v).chB, fun e j => ?_, fun j hj e => ?_⟩
  · rw [hf.zone]
    split
    · exact hw _
    · exact .refl _
  · by_cases hjz : z = j
    · subst hjz
      rw [followStep_equal]
      cases u
      · exact hj
      · exact hj.symm
    · rw [hf.zone, if_neg fun h => hjz h.2.1]

theorem steps (u : DieId) (l : List Nat) (s : State) : Follows s (l.foldl (followStep u) s) := by
  induction l generalizing s with
  | nil => exact .refl s
  | cons z l ih => exact (step u s z).trans (ih _)

theorem followPeer (s : State) (u : DieId) : Follows s (followPeer s u) := by
  rw [followPeer_eq]
  split
  · have h1 := steps u (List.range 4) s
    generalize (List.range 4).foldl (followStep u) s = t at h1 ⊢
    refine h1.trans ?_
    have ht := KeepsGuard.tripE t u (unitBit u.peer)
    have hz (e : DieId) (z : Nat) : ((Machine.tripE t u (unitBit u.peer)).die e).lgd.zone z = (t.die e).lgd.zone z :=
      ((ht.die e).zone z).trans (die_onDie_keeps (f := (·.onLgd Lgd.tripE)) (·.lgd.zone z) (fun _ => rfl) t u e)
    exact ⟨(KeepsLinked.onDie t u (f := (·.onLgd Lgd.tripE)) fun x => ⟨rfl, rfl, rfl, rfl, rfl, fun _ => rfl, fun _ => rfl⟩).trans (.of_guard ht),
      fun e z => by rw [hz]; exact .refl _, fun z _ e => hz e z⟩
  · exact steps ..

end Follows

/-! ## What the units restore -/

/-- A zone that both units have decided to make READY. -/
def readyZone (v : Zone) : Zone := { v with state := .ready, wantReady := false, unreset := false }

/-- Both units have decided a zone READY, and both are sound. -/
def agreed (s : State) (z : Nat) : Bool := bothSound s && (s.cd0.lgd.zone z).wantReady && (s.cd1.lgd.zone z).wantReady

/-- A zone made READY where both have decided it. -/
def readyStep (s : State) (z : Nat) : State :=
  if bothSound s && (s.cd0.lgd.zone z).wantReady && (s.cd1.lgd.zone z).wantReady then
    let g := zoneGates s.cd0 z
    let set (l : Lgd) : Lgd := l.onZone z (fun v => { v with state := .ready, wantReady := false, unreset := false })
    let s1 := (s.onDie .cd0 (·.onLgd set)).onDie .cd1 (·.onLgd set)
    let s2 := safetyEvent (safetyEvent s1 .cd0 1 z 3) .cd1 1 z 3
    (connsOf s2 .cd0 z).foldl sendState (releaseGates s2 g)
  else s

/-- Zone E made READY where both have decided it. -/
def readyE (s1 : State) : State :=
  if bothSound s1 && s1.cd0.lgd.eWant && s1.cd1.lgd.eWant then
    let set (l : Lgd) : Lgd := { l with eTripped := false, eWant := false }
    let s2 := (s1.onDie .cd0 (·.onLgd set)).onDie .cd1 (·.onLgd set)
    let s3 := safetyEvent (safetyEvent s2 .cd0 1 4 3) .cd1 1 4 3
    (connsOf s3 .cd0 4).foldl sendState (releaseGates s3 (fun _ => BitVec.allOnes 128))
  else s1

/-- A permit granted or not, as both units want it. -/
def grantStep (s : State) (k : Nat) : State :=
  let a := s.cd0.lgd.permit k
  let b := s.cd1.lgd.permit k
  let grant := a.want && b.want
  let set (l : Lgd) : Lgd := l.onPermit k (fun p => { p with granted := grant })
  let s1 := (s.onDie .cd0 (·.onLgd set)).onDie .cd1 (·.onLgd set)
  let tell (s : State) (u : DieId) (was : Bool) : State :=
    if grant && !was then safetyEvent s u 3 k 3 else if was && !grant then safetyEvent s u 4 k 3 else s
  tell (tell s1 .cd0 a.granted) .cd1 b.granted

theorem restoreAgreed_eq (s : State) : restoreAgreed s = (List.range 8).foldl grantStep
    (dropPermits (dropPermits (readyE ((List.range 4).foldl readyStep s)) .cd0) .cd1) := by
  unfold restoreAgreed
  rfl

/-- What a set zone's gates, connections and records leave. -/
theorem restored_guard (s : State) (k1 k2 z : Nat) (g : Nat → BitVec 128) : let s2 := safetyEvent (safetyEvent s .cd0 k1 k2 3) .cd1 k1 k2 3
    KeepsGuard s ((connsOf s2 .cd0 z).foldl sendState (releaseGates s2 g)) :=
  ((KeepsGuard.safetyEvent ..).trans (.safetyEvent ..)).trans ((KeepsGuard.releaseGates ..).trans (.foldl _ (fun t c => .sendState t c) _ _))

/-- A zone of both units after the step of a zone. -/
theorem readyStep_zone (s : State) (z : Nat) : KeepsLinked s (readyStep s z) ∧ ∀ e j, ((readyStep s z).die e).lgd.zone j =
    if agreed s z = true ∧ z = j ∧ j < 4 then readyZone ((s.die e).lgd.zone j) else (s.die e).lgd.zone j := by
  have hset (x : Die) : x.Linked (x.onLgd (·.onZone z readyZone)) := .onZone x z (fun _ => rfl) fun _ => rfl
  unfold readyStep
  split
  next h =>
    have hk := restored_guard ((s.onDie .cd0 (·.onLgd (·.onZone z readyZone))).onDie .cd1 (·.onLgd (·.onZone z readyZone))) 1 z z (zoneGates s.cd0 z)
    refine ⟨((KeepsLinked.onDie s .cd0 hset).trans (.onDie _ .cd1 hset)).trans (.of_guard hk), fun e j => ?_⟩
    rw [show agreed s z = true from h]
    refine ((hk.die e).zone j).trans ?_
    rw [die_onDie_both]
    refine (zone_onZone ..).trans ?_
    simp
  next h =>
    refine ⟨.refl s, fun e j => ?_⟩
    rw [show agreed s z = false from Bool.eq_false_iff.2 h, if_neg (by simp)]

theorem readyE_zone (s : State) : KeepsLinked s (readyE s) ∧ ∀ e j, ((readyE s).die e).lgd.zone j = (s.die e).lgd.zone j := by
  have hset (x : Die) : x.Linked (x.onLgd (fun l => { l with eTripped := false, eWant := false })) := ⟨rfl, rfl, rfl, rfl, rfl, fun _ => rfl, fun _ => rfl⟩
  unfold readyE
  split
  · have hk := restored_guard ((s.onDie .cd0 (·.onLgd (fun l => { l with eTripped := false, eWant := false }))).onDie .cd1
      (·.onLgd (fun l => { l with eTripped := false, eWant := false }))) 1 4 4 (fun _ => BitVec.allOnes 128)
    refine ⟨((KeepsLinked.onDie s .cd0 hset).trans (.onDie _ .cd1 hset)).trans (.of_guard hk), fun e j => ?_⟩
    refine ((hk.die e).zone j).trans ?_
    rw [die_onDie_both]
    rfl
  · exact ⟨.refl s, fun _ _ => rfl⟩

theorem safetyEvent_lgd (s : State) (u : DieId) (kind idx who : Nat) (e : DieId) : ((safetyEvent s u kind idx who).die e).lgd = (s.die e).lgd := by
  unfold safetyEvent
  split
  · exact (OnlyRecords.event ..).die_lgd e
  · rfl

/-- Both units after the step of a permit. -/
theorem grantStep_lgd (s : State) (k : Nat) : ∃ g, ∀ e, ((grantStep s k).die e).lgd = (s.die e).lgd.onPermit k (fun p => { p with granted := g }) := by
  unfold grantStep
  extract_lets a b grant set s1 tell
  have htell (t : State) (u : DieId) (was : Bool) (e : DieId) : ((tell t u was).die e).lgd = (t.die e).lgd := by
    unfold tell
    split_ifs
    · exact safetyEvent_lgd ..
    · exact safetyEvent_lgd ..
    · rfl
  exact ⟨grant, fun e => (htell ..).trans ((htell ..).trans (congrArg Die.lgd (die_onDie_both s (·.onLgd set) e)))⟩

/-- After the steps of permits the units' permits are equal, and nothing else of them has changed. -/
theorem grantSteps (l : List Nat) (hl : ∀ k ∈ l, k < 8) (s : State) :
    (∀ e, ((l.foldl grantStep s).die e).lgd.still = (s.die e).lgd.still) ∧
      ∀ k < 8, k ∈ l ∨ ((s.die .cd0).lgd.permit k).granted = ((s.die .cd1).lgd.permit k).granted →
        (((l.foldl grantStep s).die .cd0).lgd.permit k).granted = (((l.foldl grantStep s).die .cd1).lgd.permit k).granted := by
  induction l generalizing s with
  | nil => exact ⟨fun _ => rfl, fun k _ h => h.resolve_left (by simp)⟩
  | cons j l ih =>
    obtain ⟨g, hg⟩ := grantStep_lgd s j
    obtain ⟨h1, h2⟩ := ih (fun k hk => hl k (List.mem_cons_of_mem _ hk)) (grantStep s j)
    refine ⟨fun e => (h1 e).trans (by rw [hg]; rfl), fun k hk h => h2 k hk ?_⟩
    by_cases hkj : j = k
    · refine .inr ?_
      rw [hg, hg, KeepsGuard.permit_onPermit, KeepsGuard.permit_onPermit, if_pos ⟨hkj, hk⟩, if_pos ⟨hkj, hk⟩]
    · rcases h with h | h
      · exact .inl ((List.mem_cons.1 h).resolve_left (Ne.symm hkj))
      · refine .inr ?_
        rw [hg, hg, KeepsGuard.permit_onPermit, KeepsGuard.permit_onPermit, if_neg fun h => hkj h.1, if_neg fun h => hkj h.1]
        exact h

/-- The steps of zones: a zone that is agreed becomes READY, and one that CD0 has not decided stays. -/
theorem readySteps (l : List Nat) (hn : l.Nodup) (s : State) (j : Nat) (hj : j < 4) : KeepsLinked s (l.foldl readyStep s) ∧
    (∀ e, ((l.foldl readyStep s).die e).lgd.zone j = if agreed s j = true ∧ j ∈ l then readyZone ((s.die e).lgd.zone j) else (s.die e).lgd.zone j) := by
  induction l generalizing s with
  | nil => exact ⟨.refl s, fun _ => by simp⟩
  | cons z l ih =>
    obtain ⟨hzl, hn⟩ := List.nodup_cons.1 hn
    obtain ⟨hk, hz⟩ := readyStep_zone s z
    obtain ⟨hk', hz'⟩ := ih hn (readyStep s z)
    refine ⟨hk.trans hk', fun e => (hz' e).trans ?_⟩
    by_cases hjz : z = j
    · subst hjz
      rw [if_neg fun h => hzl h.2, hz]
      simp [hj]
    · have hsame (e : DieId) : ((readyStep s z).die e).lgd.zone j = (s.die e).lgd.zone j := by rw [hz, if_neg fun h => hjz h.2.1]
      have hag : agreed (readyStep s z) j = agreed s j := by
        unfold agreed
        rw [hk.bothSound, show (readyStep s z).cd0.lgd.zone j = s.cd0.lgd.zone j from hsame .cd0, show (readyStep s z).cd1.lgd.zone j = s.cd1.lgd.zone j from hsame .cd1]
      rw [hag, hsame]
      simp [Ne.symm hjz]

/-- What restoring does: zones that are agreed become READY, and the permits of both units are equal. -/
theorem restoreAgreed_spec (s : State) : (∀ e, ((restoreAgreed s).die e).lgd.xlink = (s.die e).lgd.xlink ∧
      ((restoreAgreed s).die e).lgd.lastXchg = (s.die e).lgd.lastXchg) ∧
    (∀ e, ∀ z < 4, ((restoreAgreed s).die e).lgd.zone z = if agreed s z then readyZone ((s.die e).lgd.zone z) else (s.die e).lgd.zone z) ∧
    ∀ k < 8, (((restoreAgreed s).die .cd0).lgd.permit k).granted = (((restoreAgreed s).die .cd1).lgd.permit k).granted := by
  have h1 := readySteps (List.range 4) List.nodup_range s
  obtain ⟨hke, hze⟩ := readyE_zone ((List.range 4).foldl readyStep s)
  have hd := (KeepsGuard.dropPermits (readyE ((List.range 4).foldl readyStep s)) .cd0).trans (.dropPermits _ .cd1)
  obtain ⟨hstill, hgrant⟩ := grantSteps (List.range 8) (fun _ h => List.mem_range.1 h)
    (dropPermits (dropPermits (readyE ((List.range 4).foldl readyStep s)) .cd0) .cd1)
  rw [← restoreAgreed_eq] at hstill hgrant
  have hlink (e : DieId) := (((h1 0 (by decide)).1.trans hke).die e).trans (hd.die e).linked
  refine ⟨fun e => ⟨?_, ?_⟩, fun e z hz => ?_, fun k hk => hgrant k hk (.inl (List.mem_range.2 hk))⟩
  · exact (congrArg Lgd.xlink (hstill e) :).trans (hlink e).xlink
  · exact (congrArg Lgd.lastXchg (hstill e) :).trans (hlink e).lastXchg
  · refine (congrArg (Lgd.zone · z) (hstill e) :).trans (((hd.die e).zone z).trans ((hze e z).trans (((h1 z hz).2 e).trans ?_)))
    simp [hz]

/-! ## The exchange -/

theorem permitPins_die (s : State) (e : DieId) : (permitPins s).die e = s.die e := by cases e <;> rfl

theorem swapInputs_zone (s : State) (u : DieId) {z : Nat} (hz : z < 4) :
    ((swapInputs s).die u).lgd.zone z = swappedZone u ((s.die u).lgd.zone z) ((s.die u.peer).lgd.zone z) := by
  rw [swapInputs_die]
  exact exchanged_zone _ _ _ _ hz

/-- The exchange of inputs leaves what tells whether units run and are sound, and brings the cross-link up. -/
theorem swapInputs_linked (s : State) (u : DieId) : ((swapInputs s).die u).life = (s.die u).life ∧
    ((swapInputs s).die u).lgd.ok = (s.die u).lgd.ok ∧ ((swapInputs s).die u).lgd.peerOk = (s.die u).lgd.peerOk ∧
    ((swapInputs s).die u).lgd.xlink = true ∧ ((swapInputs s).die u).lgd.lastXchg = s.ticks := by
  have hd : ((swapInputs s).die u).lgd = exchanged u s.ticks (s.die u.peer).lgd (s.die u).lgd := congrArg Die.lgd (swapInputs_die s u)
  have hp {α : Type} (π : Lgd → α) (hπ : ∀ (l : Lgd) z f, π (l.onZone z f) = π l) := exchanged_part π hπ u s.ticks (s.die u.peer).lgd (s.die u).lgd
  refine ⟨by rw [swapInputs_die]; rfl, ?_⟩
  rw [hd]
  exact ⟨hp Lgd.ok fun _ _ _ => rfl, hp Lgd.peerOk fun _ _ _ => rfl, hp Lgd.xlink fun _ _ _ => rfl, hp Lgd.lastXchg fun _ _ _ => rfl⟩

theorem swapInputs_unitOn (s : State) (u : DieId) : unitOn (swapInputs s) u = unitOn s u := by
  unfold unitOn
  rw [(swapInputs_linked s u).1]

theorem swapInputs_bothSound (s : State) : bothSound (swapInputs s) = bothSound s := by
  obtain ⟨hl0, hok0, hp0, -, -⟩ := swapInputs_linked s .cd0
  obtain ⟨hl1, hok1, hp1, -, -⟩ := swapInputs_linked s .cd1
  unfold bothSound sound unitOn
  rw [hl0, hl1, hok0, hok1, show ((swapInputs s).die DieId.cd0.peer).lgd.peerOk = _ from hp1, show ((swapInputs s).die DieId.cd1.peer).lgd.peerOk = _ from hp0]
  rfl

/-- The units after they have judged the inputs they share and followed each other. -/
def exchangeFollowed (s : State) : State := followPeer (followPeer (scanUnits (swapInputs s)) .cd0) .cd1

theorem exchangeFollowed_linked (s : State) (u : DieId) : ((swapInputs s).die u).Linked ((exchangeFollowed s).die u) :=
  ((KeepsLinked.scanUnits (swapInputs s)).trans ((Follows.followPeer _ .cd0).trans (.followPeer _ .cd1)).linked).die u

section Exchange
variable {s : State} (hon : ∀ u, unitOn s u = true)
include hon

theorem crossExchange_eq : crossExchange s = permitPins (restoreAgreed (exchangeFollowed s)) :=
  if_neg (by rw [hon .cd0, hon .cd1]; decide)

theorem scanSwapped_zone (u : DieId) {z : Nat} (hz : z < 4) : ((scanUnits (swapInputs s)).die u).lgd.zone z =
    scanZone ((swapInputs s).die u) z (swapInputs s).ticks (((swapInputs s).die u).lgd.zone z) :=
  (((UnitsTake.scanUnits (swapInputs s)).on ((swapInputs_unitOn s u).trans (hon u))).zone z).trans (scanned_zone _ _ hz)

theorem exchangeFollowed_wanes (u : DieId) {z : Nat} (hz : z < 4) :
    (swappedZone u ((s.die u).lgd.zone z) ((s.die u.peer).lgd.zone z)).Wanes (((exchangeFollowed s).die u).lgd.zone z) := by
  have h1 := (Zone.Wanes.scan ((swapInputs s).die u) z (swapInputs s).ticks (((swapInputs s).die u).lgd.zone z))
  rw [← scanSwapped_zone hon u hz, swapInputs_zone s u hz] at h1
  exact h1.trans (((Follows.followPeer _ .cd0).trans (.followPeer _ .cd1)).wanes u z)

/-- A tripped zone that both have decided, and that is open for none, is still so. -/
theorem exchangeFollowed_agreed {z : Nat} (hz : z < 4) (hb : bothSound s = true) (hw : ∀ u, ((s.die u).lgd.zone z).wantReady = true)
    (ht : ∀ u, ((s.die u).lgd.zone z).state = .tripped) (ho : ∀ u, ((swapInputs s).die u).zoneOpen z = false) : agreed (exchangeFollowed s) z = true := by
  have hzone (u : DieId) : (((scanUnits (swapInputs s)).die u).lgd.zone z).state = .tripped ∧ (((scanUnits (swapInputs s)).die u).lgd.zone z).wantReady = true := by
    have hst : (swappedZone u ((s.die u).lgd.zone z) ((s.die u.peer).lgd.zone z)).state = .tripped := by
      rw [← ht u]; cases u <;> rfl
    have hwant : (swappedZone u ((s.die u).lgd.zone z) ((s.die u.peer).lgd.zone z)).wantReady = true := by
      rw [← hw u]; cases u <;> rfl
    rw [scanSwapped_zone hon u hz, scanZone_stays (.inr (ho u)), swapInputs_zone s u hz]
    refine ⟨hst, ?_⟩
    change (Zone.wantReady _ && !((swapInputs s).die u).zoneOpen z && (Zone.state _ != ZoneState.untested || _)) = true
    rw [hwant, ho u, hst]
    rfl
  have hsame := ((Follows.followPeer (scanUnits (swapInputs s)) .cd0).trans (.followPeer _ .cd1)).alike z (by rw [(hzone .cd0).1, (hzone .cd1).1])
  have hbs : bothSound (exchangeFollowed s) = true := by
    rw [KeepsLinked.bothSound ⟨exchangeFollowed_linked s⟩, swapInputs_bothSound, hb]
  have h0 : ((exchangeFollowed s).cd0.lgd.zone z).wantReady = true := (congrArg Zone.wantReady (hsame .cd0)).trans (hzone .cd0).2
  have h1 : ((exchangeFollowed s).cd1.lgd.zone z).wantReady = true := (congrArg Zone.wantReady (hsame .cd1)).trans (hzone .cd1).2
  unfold agreed
  rw [hbs, h0, h1]
  rfl

end Exchange

theorem crossExchange_answers {s : State} (h0 : unitOn s .cd0 = true) (h1 : unitOn s .cd1 = true) : Answers .crossLinkExchange s (fun t =>
    (∀ u, (t.die u).lgd.xlink = true ∧ (t.die u).lgd.lastXchg = s.ticks) ∧
    (∀ z : Fin 4, ∀ u, ((t.die u).lgd.zone z).chA = (s.cd0.lgd.zone z).chA ∧ ((t.die u).lgd.zone z).chB = (s.cd1.lgd.zone z).chB) ∧
    (∀ z : Fin 4, bothSound s = true → (s.cd0.lgd.zone z).wantReady = true → (s.cd1.lgd.zone z).wantReady = true → (s.cd0.lgd.zone z).state = .tripped →
      (s.cd1.lgd.zone z).state = .tripped → (∀ u, ((swapInputs s).die u).zoneOpen z = false) → ∀ u, ((t.die u).lgd.zone z).state = .ready ∧ ((t.die u).lgd.zone z).unreset = false) ∧
    (∀ z : Fin 4, (s.cd0.lgd.zone z).wantReady = false → (s.cd0.lgd.zone z).state ≠ .ready → ∀ u,
      ((t.die u).lgd.zone z).state = .ready → ((s.die u).lgd.zone z).state = .ready) ∧
    (∀ k : Fin 8, ((t.die .cd0).lgd.permit k).granted = ((t.die .cd1).lgd.permit k).granted)) := by
  have hon : ∀ u, unitOn s u = true := fun u => by cases u <;> assumption
  obtain ⟨hx, hzone, hperm⟩ := restoreAgreed_spec (exchangeFollowed s)
  refine .of_done (congrArg done (crossExchange_eq hon)) fun t ht => ?_
  have hlgd (u : DieId) : (t.die u).lgd = ((restoreAgreed (exchangeFollowed s)).die u).lgd := (ht.die_lgd u).trans (congrArg Die.lgd (permitPins_die _ u))
  simp only [hlgd]
  refine ⟨fun u => ?_, fun z u => ?_, fun z hb hw0 hw1 ht0 ht1 ho u => ?_, fun z hw _ u hr => ?_, fun k => hperm k k.isLt⟩
  · obtain ⟨-, -, -, hl, hc⟩ := swapInputs_linked s u
    exact ⟨(hx u).1.trans ((exchangeFollowed_linked s u).xlink.trans hl), (hx u).2.trans ((exchangeFollowed_linked s u).lastXchg.trans hc)⟩
  · have hw := exchangeFollowed_wanes hon u z.isLt
    have hch : (((restoreAgreed (exchangeFollowed s)).die u).lgd.zone z).chA = (((exchangeFollowed s).die u).lgd.zone z).chA ∧
        (((restoreAgreed (exchangeFollowed s)).die u).lgd.zone z).chB = (((exchangeFollowed s).die u).lgd.zone z).chB := by
      rw [hzone u z z.isLt]
      split <;> exact ⟨rfl, rfl⟩
    rw [hch.1, hch.2, hw.chA, hw.chB]
    cases u <;> exact ⟨rfl, rfl⟩
  · have hag := exchangeFollowed_agreed hon z.isLt hb (fun u => by cases u <;> assumption) (fun u => by cases u <;> assumption) ho
    rw [hzone u z z.isLt, if_pos hag]
    exact ⟨rfl, rfl⟩
  · have hag : agreed (exchangeFollowed s) z = false := by
      have h0 : ((exchangeFollowed s).cd0.lgd.zone z).wantReady = false := Bool.eq_false_iff.2 fun h => by
        have hwant : (s.cd0.lgd.zone z).wantReady = true := (exchangeFollowed_wanes hon .cd0 z.isLt).want h
        rw [hw] at hwant
        cases hwant
      unfold agreed
      rw [h0, Bool.and_false, Bool.false_and]
    rw [hzone u z z.isLt, hag, if_neg (by decide)] at hr
    have hst := (exchangeFollowed_wanes hon u z.isLt).ready hr
    rw [← hst]
    cases u <;> rfl

/-! ## What denies the permits of both -/

/-- The comparison of the configurations on a unit. -/
def comparedDie (same : Bool) (x : Die) : Die := x.onLgd (fun l => { l with cfgMatch := same })

/-- The comparison of the configurations on the units that run. -/
def compareUnits (s : State) (same : Bool) : State :=
  onUnits s (fun s u =>
    let was := (s.die u).lgd.cfgMatch
    let s1 := s.onDie u (comparedDie same)
    if was && !same then raise s1 u 212 else s1)

theorem compareUnits_takes (s : State) (same : Bool) : UnitsTake s (fun _ => comparedDie same) (compareUnits s same) := by
  refine .onUnits _ (fun u t _ => ?_) fun _ _ _ h => h.onLgd_same (fun _ => rfl) fun _ => rfl
  extract_lets was s1
  split
  · exact .raise s1 u (by decide) 0
  · exact .refl s1

theorem crcCompare_answers {s : State} (hon : ∀ u, unitOn s u = true) : Answers .configCrcCompare s (fun t =>
    ∀ u, (t.die u).lgd.cfgMatch = decide (lgdConfig s.cd0 = lgdConfig s.cd1) ∧
      (lgdConfig s.cd0 ≠ lgdConfig s.cd1 → ∀ k : Fin 8, ((t.die u).lgd.permit k).granted = false)) := by
  have hrow : crcCompare s = scanUnits (compareUnits s (decide (lgdConfig s.cd0 = lgdConfig s.cd1))) := if_neg (by rw [hon .cd0, hon .cd1]; decide)
  have hk := compareUnits_takes s (decide (lgdConfig s.cd0 = lgdConfig s.cd1))
  have hmatch (u : DieId) : ((scanUnits (compareUnits s (decide (lgdConfig s.cd0 = lgdConfig s.cd1)))).die u).lgd.cfgMatch =
      decide (lgdConfig s.cd0 = lgdConfig s.cd1) := (((hk.scan fun _ _ => rfl).on (hon u)).cfgMatch).trans (scanned_cfgMatch ..)
  refine .of_done (congrArg done hrow) fun t ht u => ?_
  rw [ht.die_lgd u]
  refine ⟨hmatch u, fun hne k => scanUnits_denied ((hk.unitOn (fun _ _ => rfl) u).trans (hon u)) ?_ k.isLt⟩
  unfold denied
  rw [hmatch, decide_eq_false hne, Bool.not_false, Bool.or_true]

/-- The cross-link lost on a unit. -/
def unlinkedDie (x : Die) : Die := x.onLgd (fun l => { l with xlink := false })

/-- A unit has heard nothing over its cross-link for 100 us. -/
def linkDue (s : State) (u : DieId) : Bool := (s.die u).lgd.xlink && decide (100 * usT ≤ s.ticks - (s.die u).lgd.lastXchg)

/-- The cross-link lost on the units that run. -/
def unlinkUnits (s : State) : State := onUnits s (fun s u => raise (s.onDie u unlinkedDie) u 213)

theorem crossFault_eq (s : State) : crossFault s = if linkDue s .cd0 || linkDue s .cd1 then scanUnits (unlinkUnits s) else s := rfl

theorem unlinkUnits_takes (s : State) : UnitsTake s (fun _ => unlinkedDie) (unlinkUnits s) :=
  .onUnits _ (fun _ _ _ => .raise _ _ (by decide) 0) fun _ _ _ h => h.onLgd_same (fun _ => rfl) fun _ => rfl

theorem crossFault_idle {s : State} (h : ∀ u, (s.die u).lgd.xlink = true → s.ticks - (s.die u).lgd.lastXchg < 100 * usT) : crossFault s = s := by
  have hdue (u : DieId) : linkDue s u = false := by
    unfold linkDue
    cases hx : (s.die u).lgd.xlink
    · rfl
    · exact decide_eq_false (Nat.not_le.2 (h u hx))
  rw [crossFault_eq, hdue, hdue]
  rfl

theorem crossFault_answers {s : State} {v : DieId} (hx : (s.die v).lgd.xlink = true) (ht : 100 * usT ≤ s.ticks - (s.die v).lgd.lastXchg) :
    Answers .crossLinkFault s (fun t => ∀ u, unitOn s u = true → (t.die u).lgd.xlink = false ∧ ∀ k : Fin 8, ((t.die u).lgd.permit k).granted = false) := by
  have hdue : linkDue s v = true := by
    unfold linkDue
    rw [hx, decide_eq_true ht]
    rfl
  have hrow : crossFault s = scanUnits (unlinkUnits s) := by
    rw [crossFault_eq]
    refine if_pos ?_
    cases v
    · rw [hdue, Bool.true_or]
    · rw [hdue, Bool.or_true]
  have hk := unlinkUnits_takes s
  refine .of_done (congrArg done hrow) fun t ht u hu => ?_
  have hlink : ((scanUnits (unlinkUnits s)).die u).lgd.xlink = false := (((hk.scan fun _ _ => rfl).on hu).xlink).trans (scanned_xlink ..)
  rw [ht.die_lgd u]
  refine ⟨hlink, fun k => scanUnits_denied ((hk.unitOn (fun _ _ => rfl) u).trans hu) ?_ k.isLt⟩
  unfold denied
  rw [hlink, Bool.not_false, Bool.or_true, Bool.true_or]

/-! ## The self-test -/

/-- The result of a self-test on its unit. -/
def testedDie (pass osc : Bool) (x : Die) : Die := x.onLgd (fun l => { l with ok := pass, peerOk := osc })

/-- What a self-test does before the units judge their zones. -/
theorem unitSelftest_eq {s : State} {u : DieId} (ho : unitOn s u = true) (pass osc : Bool) :
    ∃ t, KeepsGuard (s.onDie u (testedDie pass osc)) t ∧ unitSelftest u pass osc s = scanUnits t := by
  unfold unitSelftest
  rw [ho, if_neg (by decide)]
  extract_lets s1 s2 s3
  have h2 : KeepsGuard s1 s2 := by
    unfold s2
    split
    · exact .refl s1
    · exact .raise s1 u (by decide) 0
  have h3 : KeepsGuard s1 s3 := by
    unfold s3
    split
    · exact h2
    · exact h2.trans ((KeepsGuard.raise s2 u (by decide) 0).trans (.raise _ u.peer (by decide) 0))
  refine ⟨_, h3.trans ?_, rfl⟩
  split
  · exact .releaseGates ..
  · exact .refl s3

/-- A unit that fails its self-test, or whose peer it judges faulty, is not sound or its peer is not. -/
theorem bothSound_tested {s t : State} {u : DieId} {pass osc : Bool} (h : KeepsGuard (s.onDie u (testedDie pass osc)) t) (hf : pass = false ∨ osc = false) :
    bothSound t = false := by
  have hd := h.die u
  rw [State.die_onDie_same] at hd
  have hok : (t.die u).lgd.ok = pass := hd.ok
  have hp : (t.die u).lgd.peerOk = osc := hd.peerOk
  unfold bothSound sound
  rcases hf with rfl | rfl
  · cases u <;> simp [hok]
  · cases u
    · simp [show (t.die DieId.cd1.peer).lgd.peerOk = false from hp]
    · simp [show (t.die DieId.cd0.peer).lgd.peerOk = false from hp]

theorem unitSelftest_answers {s : State} {u : DieId} (ho : unitOn s u = true) (pass osc : Bool) : Answers (.safetyUnitSelftest u pass osc) s (fun t =>
    (t.die u).lgd.ok = pass ∧ (t.die u).lgd.peerOk = osc ∧
      (pass = false ∨ osc = false → ∀ v, unitOn s v = true → ∀ k : Fin 8, ((t.die v).lgd.permit k).granted = false)) := by
  obtain ⟨w, hw, hrow⟩ := unitSelftest_eq ho pass osc
  have hlink := KeepsLinked.scanUnits w
  have hd := hw.die u
  rw [State.die_onDie_same] at hd
  refine .of_done (congrArg done hrow) fun t ht => ?_
  rw [ht.die_lgd u]
  refine ⟨(hlink.die u).ok.trans hd.ok, (hlink.die u).peerOk.trans hd.peerOk, fun hf v hv k => ?_⟩
  rw [ht.die_lgd v]
  refine scanUnits_denied ?_ ?_ k.isLt
  · rw [hw.unitOn, ← hv]
    unfold unitOn
    rw [die_onDie_keeps (f := testedDie pass osc) Die.life (fun _ => rfl) s u v]
  · unfold denied
    rw [hlink.bothSound, bothSound_tested hw hf, Bool.not_false, Bool.or_true, Bool.true_or, Bool.true_or]

/-- Settles O39: the exchange in its steps (`exchangeFollowed_wanes`, `restoreAgreed_spec`), and what denies permits (`scanUnits_denied`). -/
theorem unitsAgree : Obligations.UnitsAgree := by
  intro s
  refine ⟨fun h => ?_, fun h0 h1 => ?_, fun h => .of_row (f := crossFault) rfl (crossFault_idle h), fun v hx ht => crossFault_answers hx ht, fun u pass osc => ⟨fun h => ?_, fun h => unitSelftest_answers h pass osc⟩⟩
  · have hoff : (unitOn s .cd0 && unitOn s .cd1) = false := by
      rcases h with h | h
      · rw [h, Bool.false_and]
      · rw [h, Bool.and_false]
    exact ⟨.of_row (f := crossExchange) rfl (if_pos (by rw [hoff]; rfl)), .of_row (f := crcCompare) rfl (if_pos (by rw [hoff]; rfl))⟩
  · have hon : ∀ u, unitOn s u = true := fun u => by cases u <;> assumption
    exact ⟨crossExchange_answers h0 h1, crcCompare_answers hon⟩
  · exact .of_row (f := unitSelftest u pass osc) rfl (if_pos (by rw [h]; rfl))

end Sys2Proof.Machine
end

section
/-!
PROOFS. Saved configurations of the Light Guard, force bits and permit test pulses (R444, R451, R461).
-/

namespace Sys2Proof.Machine

/-- A write leaves a word. -/
theorem Die.written_lt {x : Die} {k v : Nat} (hx : x.reg k < 2 ^ 32) (hv : v < 2 ^ 32) : x.written k v < 2 ^ 32 := by
  have hand (a b : Nat) (ha : a < 2 ^ 32) : Nat.land a b < 2 ^ 32 := Nat.lt_of_le_of_lt Nat.and_le_left ha
  unfold Die.written
  extract_lets old
  split
  · exact hx
  · exact Nat.or_lt_two_pow (hand _ _ (Nat.or_lt_two_pow (hand _ _ hx) (hand _ _ hv))) (hand _ _ hv)

theorem unitOn_of_running {s : State} {u : DieId} (h : (s.die u).running = true) : unitOn s u = true := by
  unfold Die.running at h
  unfold unitOn
  split at h
  next hl => rw [hl]
  next hl => rw [hl]
  · cases h

/-! ## LGD_FORCE -/

/-- A unit's die after a write of its force word. -/
def forcedDie (v : Nat) (x : Die) : Die := x.setReg Reg.LGD_FORCE (x.written Reg.LGD_FORCE v)

theorem Die.SameGuard.estopEnded {x y : Die} (h : x.SameGuard y) (was : Bool) (ticks : Nat) : (estopEnded was ticks x).SameGuard (estopEnded was ticks y) := by
  unfold Machine.estopEnded
  rw [h.inputs.estop]
  split
  · exact h.onLgd_same (fun _ => rfl) fun _ => rfl
  · exact h

theorem estopEnded_reg (was : Bool) (ticks : Nat) (x : Die) (k : Nat) : (estopEnded was ticks x).reg k = x.reg k := by
  unfold estopEnded
  split <;> rfl

theorem estopEnded_zone (was : Bool) (ticks : Nat) (x : Die) (z : Nat) : (estopEnded was ticks x).lgd.zone z = x.lgd.zone z := by
  unfold estopEnded
  split <;> rfl

/-- A write of force bits where it is accepted. -/
theorem lgdForce_die {s : State} {d : DieId} {v : Nat} (hr : (s.die d).running = true) (hl : (s.die d).lockOpen = true) (hm : moduleBase s = mService) :
    (scanned s.ticks (estopEnded (s.die d).estop s.ticks (forcedDie v (s.die d)))).SameGuard ((lgdForce d v s).die d) := by
  unfold lgdForce
  extract_lets x s1 s2
  rw [if_neg (by rw [show x.lockOpen = true from hl, decide_eq_true hm]; decide)]
  have h2 : KeepsGuard s1 s2 := by
    unfold s2
    split
    · exact .raise s1 d (by decide) 0
    · exact .refl s1
  have hk : KeepsGuard (s.onDie d (fun x => estopEnded (s.die d).estop s.ticks (forcedDie v x))) (estopChange s2 d (s.die d).estop) := by
    have h := (h2.map d (f := estopEnded (s.die d).estop s.ticks) fun _ _ h => h.estopEnded _ _).trans
      (h2.ticks.trans (State.onDie_ticks ..) ▸ KeepsGuard.estopChange s2 d (s.die d).estop)
    unfold s1 at h
    rw [State.onDie_onDie] at h
    exact h
  refine hk.scanned_die ?_
  rw [hk.unitOn]
  refine unitOn_of_running ?_
  rw [State.die_onDie_same]
  have hlife : (estopEnded (s.die d).estop s.ticks (forcedDie v (s.die d))).life = (s.die d).life := by
    unfold estopEnded
    split <;> rfl
  unfold Die.running at hr ⊢
  rw [hlife]
  exact hr

/-- A forced-open channel trips a READY local zone. -/
theorem forcedDie_trips {x : Die} {z v : Nat} (hz : z < 4) (was : Bool) (ticks : Nat) (he : x.zoneEn z = true)
    (hl : x.rbit (Reg.LGD_ZCFG z) F.LGD_ZCFG_LOCAL = true) (hs : (x.lgd.zone z).state = .ready)
    (hb : bitOf ((forcedDie v x).rf Reg.LGD_FORCE F.LGD_FORCE_OPEN_A) z = true) :
    ((scanned ticks (estopEnded was ticks (forcedDie v x))).lgd.zone z).state = .tripped := by
  have hreg {k : Nat} (hk : k ≠ Reg.LGD_FORCE) (f : Fld) : (estopEnded was ticks (forcedDie v x)).rbit k f = x.rbit k f := by
    unfold Die.rbit Die.rf
    rw [estopEnded_reg, forcedDie, Die.reg_setReg_other x hk]
  have hcfg : Reg.LGD_ZCFG z ≠ Reg.LGD_FORCE := by
    have : ∀ z : Fin 4, Reg.LGD_ZCFG z ≠ Reg.LGD_FORCE := by decide
    exact this ⟨z, hz⟩
  have hA : (estopEnded was ticks (forcedDie v x)).closedA z = false := by
    unfold Die.closedA Die.rf
    rw [estopEnded_reg, ← Die.rf, hb, Bool.not_true, Bool.and_false]
  have hopen : (estopEnded was ticks (forcedDie v x)).zoneOpen z = true := by
    unfold Die.zoneOpen
    rw [hreg hcfg, hl, hA]
    rfl
  rw [scanned_zone _ _ hz]
  exact (scanZone_trips ((hreg hcfg _).trans he) hopen (by rw [estopEnded_zone]; exact hs) ticks).1

theorem lgdForce_answers {s : State} {d : DieId} (v : Word32) (hb : (s.die d).barOpen = true) (hl : (s.die d).lockOpen = true) (hm : moduleBase s = mService) :
    let x := s.die d
    Answers (.lgdForceWrite d v) s (fun t => (t.die d).reg Reg.LGD_FORCE = x.written Reg.LGD_FORCE v.toNat ∧
      (∀ z : Fin 4, x.zoneEn z = true → x.rbit (Reg.LGD_ZCFG z) F.LGD_ZCFG_LOCAL = true → (x.lgd.zone z).state = .ready →
        bitOf ((t.die d).rf Reg.LGD_FORCE F.LGD_FORCE_OPEN_A) z = true → ((t.die d).lgd.zone z).state = .tripped)) := by
  intro x
  have hd := lgdForce_die (v := v.toNat) (Die.running_of_barOpen hb) hl hm
  refine .of_doneBar (f := lgdForce d v.toNat) hb rfl fun t ht => ?_
  have hreg : (t.die d).reg Reg.LGD_FORCE = (forcedDie v.toNat x).reg Reg.LGD_FORCE := by
    rw [ht.regs d _ (by decide), hd.regs _ (by decide), scanned_reg, estopEnded_reg]
  refine ⟨?_, fun z he hl hs hbit => ?_⟩
  · rw [hreg, forcedDie, Die.reg_setReg_same]
    exact Nat.mod_eq_of_lt (Die.written_lt (Die.reg_lt x (by decide)) v.isLt)
  · rw [ht.die_lgd d, hd.zone]
    refine forcedDie_trips z.isLt _ _ he hl hs ?_
    unfold Die.rf at hbit ⊢
    rw [← hreg]
    exact hbit

/-! ## Permit test pulses -/

/-- A permit that is latched off. -/
def latchedPermit (p : Permit) : Permit := { p with granted := false, want := false, latched := true }

theorem raise_lgd (s : State) (d : DieId) {src : Nat} (h : src < 256) (inst : Nat) (e : DieId) : ((raise s d src inst).die e).lgd = (s.die e).lgd :=
  (OnlyRecords.raise s d src inst h).die_lgd e

theorem latchReadBack_lgd (s : State) (v u : DieId) (k : Nat) (e : DieId) :
    ((latchReadBack s v u k).die e).lgd = if e = v then (s.die e).lgd.onPermit k latchedPermit else (s.die e).lgd := by
  unfold latchReadBack
  extract_lets was s1
  have h1 : (s1.die e).lgd = if e = v then (s.die e).lgd.onPermit k latchedPermit else (s.die e).lgd := by
    unfold s1
    rw [raise_lgd _ _ (by cases u <;> decide)]
    split
    next h => rw [h, State.die_onDie_same]; rfl
    next h => rw [State.die_onDie_other s h]
  split
  · rw [safetyEvent_lgd, h1]
  · exact h1

/-- A wrong read-back on one unit, if it runs. -/
def latchUnit (u : DieId) (k : Nat) (s : State) (v : DieId) : State := if unitOn s v then latchReadBack s v u k else s

theorem latchUnit_unitOn (u : DieId) (k : Nat) (s : State) (v w : DieId) : unitOn (latchUnit u k s v) w = unitOn s w := by
  unfold latchUnit
  split
  · exact (KeepsGuard.latchReadBack ..).unitOn w
  · rfl

theorem latchUnit_lgd (u : DieId) (k : Nat) (s : State) (v e : DieId) :
    ((latchUnit u k s v).die e).lgd = if e = v ∧ unitOn s v = true then (s.die e).lgd.onPermit k latchedPermit else (s.die e).lgd := by
  unfold latchUnit
  cases unitOn s v
  · simp
  · simp [latchReadBack_lgd]

/-- A wrong read-back is latched on every unit that runs. -/
theorem latchUnits_permit (s : State) (u : DieId) {k : Nat} (hk : k < 8) {v : DieId} (hv : unitOn s v = true) :
    ((onUnits s (fun s v => latchReadBack s v u k)).die v).lgd.permit k = ⟨false, true, false⟩ := by
  have hp (l : Lgd) : (l.onPermit k latchedPermit).permit k = ⟨false, true, false⟩ := by
    rw [KeepsGuard.permit_onPermit, if_pos ⟨rfl, hk⟩]
    rfl
  change ((latchUnit u k (latchUnit u k s .cd0) .cd1).die v).lgd.permit k = _
  cases v with
  | cd0 => rw [latchUnit_lgd, if_neg fun h => absurd h.1 (by decide), latchUnit_lgd, if_pos ⟨rfl, hv⟩, hp]
  | cd1 => rw [latchUnit_lgd, if_pos ⟨rfl, (latchUnit_unitOn ..).trans hv⟩, hp]

/-- A force makes the read-back of a unit's channel of a permit wrong. -/
def readBackForced (u : DieId) (k : Nat) (x : Die) : Bool := bitOf (x.rf Reg.LGD_FORCE (if u = .cd0 then F.LGD_FORCE_RB_A else F.LGD_FORCE_RB_B)) k

theorem testPulse_idle {s : State} {u : DieId} {k : Nat} (lo hi : Bool) (h : unitOn s u = false ∨ ((s.die u).lgd.permit k).granted = false) :
    testPulse u k lo hi s = s := by
  refine if_pos ?_
  rcases h with h | h
  · rw [h]; rfl
  · rw [h, Bool.not_false, Bool.or_true]

theorem testPulse_runs {s : State} {u : DieId} {k : Nat} (lo hi : Bool) (ho : unitOn s u = true) (hg : ((s.die u).lgd.permit k).granted = true) :
    testPulse u k lo hi s = if lo && hi && !readBackForced u k s.cd0 && !readBackForced u k s.cd1 then s
      else permitPins (onUnits s (fun s v => latchReadBack s v u k)) :=
  if_neg (by rw [ho, hg]; decide)

/-- Settles O40: saves by their row, forces by the unit's scan (`forcedDie_trips`), pulses by what they latch (`latchUnits_permit`). -/
theorem guardSavesForcesAndPulses : Obligations.GuardSavesForcesAndPulses := by
  intro d s x
  refine ⟨fun hb ho => ?_, fun h => ?_, .of_row (f := lgdSaveDone d) rfl rfl, fun v h => ?_, fun v hb hl hm => lgdForce_answers v hb hl hm, fun k lo hi => ?_⟩
  · have hrow : lgdSave d s = (s.setFlash d (lgdSaved x (s.flash d))).onDie d (fun x => x.onLgd (fun l => { l with saving := some s.ticks })) := if_pos ho
    exact .of_done ((exec_of_doneBar (f := lgdSave d) hb rfl).trans (congrArg done hrow))
  · cases hb : x.barOpen
    · exact .of_doneBar_shut (f := lgdSave d) hb rfl
    · have hrow : lgdSave d s = s := if_neg (by rw [h.resolve_left (by rw [hb]; decide)]; decide)
      exact .of_done ((exec_of_doneBar (f := lgdSave d) hb rfl).trans (congrArg done hrow))
  · cases hb : x.barOpen
    · exact .of_doneBar_shut (f := lgdForce d v.toNat) hb rfl
    · have hrow : lgdForce d v.toNat s = s := by
        refine if_pos ?_
        rcases h.resolve_left (by rw [hb]; decide) with hl | hm
        · rw [show (s.die d).lockOpen = false from hl]; rfl
        · rw [decide_eq_false hm, Bool.and_false]; rfl
      exact .of_done ((exec_of_doneBar (f := lgdForce d v.toNat) hb (c := .lgdForceWrite d v) rfl).trans (congrArg done hrow))
  · intro f
    refine ⟨fun h => .of_row (f := testPulse d k lo hi) rfl (testPulse_idle lo hi h), fun h0 h1 => ?_, fun ho hg hbad => ?_⟩
    · cases hg : unitOn s d && (x.lgd.permit k).granted
      · rw [Bool.and_eq_false_iff] at hg
        exact .of_row (f := testPulse d k true true) rfl (testPulse_idle true true hg)
      · rw [Bool.and_eq_true] at hg
        refine .of_row (f := testPulse d k true true) rfl ?_
        rw [testPulse_runs true true hg.1 hg.2]
        exact if_pos (by rw [show readBackForced d k s.cd0 = false from h0, show readBackForced d k s.cd1 = false from h1]; rfl)
    · have hrow : testPulse d k lo hi s = permitPins (onUnits s (fun s v => latchReadBack s v d k)) := by
        rw [testPulse_runs lo hi ho hg]
        refine if_neg ?_
        simp only [Bool.and_eq_true, Bool.not_eq_true']
        rintro ⟨⟨⟨rfl, rfl⟩, h0⟩, h1⟩
        rcases hbad with h | h | h | h
        · cases h
        · cases h
        · exact absurd h (by rw [show f s.cd0 = false from h0]; decide)
        · exact absurd h (by rw [show f s.cd1 = false from h1]; decide)
      refine .of_done (congrArg done hrow) fun t ht u hu => ?_
      rw [ht.die_lgd u, permitPins_die]
      exact latchUnits_permit s d k.isLt hu

end Sys2Proof.Machine
end


section
/-!
PROOFS. Requests of the bus matrix, responses and resets of its masters (R508 to R512).
-/

namespace Sys2Proof.Machine

/-! ## Masters of a die -/

theorem Die.master_onMaster_same (x : Die) (m : Fin 8) (f : Master → Master) : (x.onMaster m f).master m = f (x.master m) := by
  simp [Die.master, Die.onMaster, Vector.getD, m.isLt]

theorem Die.master_onMaster_other (x : Die) {m n : Nat} (h : n ≠ m) (f : Master → Master) : (x.onMaster m f).master n = x.master n := by
  simp [Die.master, Die.onMaster, Vector.getD, Ne.symm h]

theorem Die.master_setRf (x : Die) (k : Nat) (f : Fld) (v m : Nat) : (x.setRf k f v).master m = x.master m := rfl

/-- A debug access is noted in the service lock of its die. -/
theorem debugSeen_die (s : State) (d : DieId) (m : Nat) :
    ∃ v, (debugSeen s d m).die d = { s.die d with svc := { (s.die d).svc with lastAccess := v } } := by
  unfold debugSeen
  split
  · exact ⟨_, State.die_onDie_same ..⟩
  · exact ⟨(s.die d).svc.lastAccess, rfl⟩

theorem debugSeen_peer (s : State) (d : DieId) (m : Nat) : (debugSeen s d m).die d.peer = s.die d.peer := by
  unfold debugSeen
  split
  · exact State.die_onDie_other _ (by cases d <;> decide) _
  · rfl

theorem debugSeen_bridge (s : State) (d : DieId) (m : Nat) : bridgeUp (debugSeen s d m) d = bridgeUp s d := by
  have hm : (debugSeen s d m).mirror = s.mirror := by
    unfold debugSeen
    split
    · exact State.onDie_mirror ..
    · rfl
  unfold bridgeUp
  rw [hm, debugSeen_peer]

theorem debugSeen_master (s : State) (d : DieId) (m n : Nat) : ((debugSeen s d m).die d).master n = (s.die d).master n := by
  obtain ⟨v, hv⟩ := debugSeen_die s d m
  rw [hv]
  rfl

theorem debugSeen_decode (s : State) (d : DieId) (m : Nat) (r : MtxReq) : mtxDecode ((debugSeen s d m).die d) r = mtxDecode (s.die d) r := by
  obtain ⟨v, hv⟩ := debugSeen_die s d m
  rw [hv]
  rfl

theorem debugSeen_rbit (s : State) (d : DieId) (m k : Nat) (f : Fld) : ((debugSeen s d m).die d).rbit k f = (s.die d).rbit k f := by
  obtain ⟨v, hv⟩ := debugSeen_die s d m
  rw [hv]
  rfl

/-! ## Requests -/

/-- A die that its reset holds. -/
def Die.isHeld (x : Die) : Bool := match x.life with | .held _ _ => true | _ => false

theorem Die.isHeld_iff (x : Die) : x.isHeld = true ↔ ∃ k a, x.life = .held k a := by
  unfold Die.isHeld
  split
  next k a h => exact ⟨fun _ => ⟨k, a, h⟩, fun _ => rfl⟩
  next h => exact ⟨fun hf => absurd hf (by decide), fun ⟨k, a, he⟩ => absurd he (h k a)⟩

theorem debugSeen_held (s : State) (d : DieId) (m : Nat) : ((debugSeen s d m).die d).isHeld = (s.die d).isHeld := by
  obtain ⟨v, hv⟩ := debugSeen_die s d m
  rw [hv]
  rfl

/-- A request whose port takes it. -/
structure PortOpen (s : State) (d : DieId) (r : MtxReq) : Prop where
  free : (s.die d).isHeld = false
  open_ : ((s.die d).master r.master).resetAt = none

theorem mtxRequest_lost {s : State} {d : DieId} {r : MtxReq} (h : (s.die d).isHeld = true ∨ ((s.die d).master r.master).resetAt.isSome = true) :
    mtxRequest d r s = s := by
  refine if_pos ?_
  rw [Bool.or_eq_true]
  exact h

/-- What a request does that a target admits. -/
def mtxAdmitted (d : DieId) (r : MtxReq) (t : Nat) (s : State) : State :=
  let (full, held) := mtxHeld ((s.die d).master r.master) r t
  let s1 := if held then s.count d (Reg.MTX_CNT 3) F.MTX_CNT_COUNT else s
  if full || held then s1.onDie d (·.onMaster r.master (fun m => { m with waiting := m.waiting ++ [r] })) else s1.onDie d (fun x => mtxIssue x r t)

theorem mtxRequest_open {s : State} {d : DieId} {r : MtxReq} (h : PortOpen s d r) : mtxRequest d r s = match mtxDecode (s.die d) r with
    | none => mtxError s d r 1 (((mtxTarget ((s.die d).rbit Reg.MTX_REMAP F.MTX_REMAP_REMAP) r.addr.toNat).map (·.1)).getD 15)
    | some (t, _) => if t = tBridge && !bridgeUp s d then mtxError s d r 3 t else mtxAdmitted d r t s := by
  refine if_neg ?_
  rw [Bool.or_eq_true]
  rintro (hh | hr)
  · exact absurd (show (s.die d).isHeld = true from hh) (by rw [h.free]; decide)
  · rw [h.open_] at hr
    exact absurd hr (by decide)

theorem mtxRequest_admitted {s : State} {d : DieId} {r : MtxReq} (h : PortOpen s d r) {t o : Nat} (hd : mtxDecode (s.die d) r = some (t, o))
    (hb : t = tBridge → bridgeUp s d = true) : mtxRequest d r s = mtxAdmitted d r t s := by
  rw [mtxRequest_open h, hd]
  refine if_neg ?_
  simp only [Bool.and_eq_true, decide_eq_true_eq, Bool.not_eq_true', not_and, Bool.not_eq_false]
  exact hb

/-- The IDs of a request's port are free for it. -/
structure IdFree (m : Master) (r : MtxReq) (t : Nat) : Prop where
  room : m.outstanding.length < 32
  sameTarget : ∀ p ∈ m.outstanding, p.req.id = r.id → p.target = t
  noneWaits : ∀ w ∈ m.waiting, w.id ≠ r.id

theorem mtxHeld_free {m : Master} {r : MtxReq} {t : Nat} (h : IdFree m r t) : mtxHeld m r t = (false, false) := by
  have hroom : decide (32 ≤ m.outstanding.length) = false := decide_eq_false (Nat.not_le.2 h.room)
  have hout : (m.outstanding.any fun o => o.req.id = r.id && decide (o.target ≠ t)) = false := by
    simp only [List.any_eq_false, Bool.and_eq_true, decide_eq_true_eq, not_and, not_not]
    exact h.sameTarget
  have hwait : (m.waiting.any fun w => w.id = r.id) = false := by
    simp only [List.any_eq_false, decide_eq_true_eq]
    exact h.noneWaits
  unfold mtxHeld
  rw [hroom, hout, hwait]
  rfl

theorem mtxHeld_behind {m : Master} {r w : MtxReq} (t : Nat) (hroom : m.outstanding.length < 32) (hw : w ∈ m.waiting) (hid : w.id = r.id) :
    mtxHeld m r t = (false, true) := by
  have hr : decide (32 ≤ m.outstanding.length) = false := decide_eq_false (Nat.not_le.2 hroom)
  have hwait : (m.waiting.any fun w => w.id = r.id) = true := List.any_eq_true.2 ⟨w, hw, decide_eq_true hid⟩
  unfold mtxHeld
  rw [hr, hwait, Bool.or_true]

theorem mtxAdmitted_free {s : State} {d : DieId} {r : MtxReq} {t : Nat} (h : IdFree ((s.die d).master r.master) r t) :
    mtxAdmitted d r t s = s.onDie d (fun x => mtxIssue x r t) := by
  unfold mtxAdmitted
  rw [mtxHeld_free h]
  rfl

theorem mtxAdmitted_behind {s : State} {d : DieId} {r w : MtxReq} (t : Nat) (hroom : ((s.die d).master r.master).outstanding.length < 32)
    (hw : w ∈ ((s.die d).master r.master).waiting) (hid : w.id = r.id) : mtxAdmitted d r t s =
      (s.count d (Reg.MTX_CNT 3) F.MTX_CNT_COUNT).onDie d (·.onMaster r.master (fun m => { m with waiting := m.waiting ++ [r] })) := by
  unfold mtxAdmitted
  rw [mtxHeld_behind t hroom hw hid]
  rfl

theorem mtxIssue_outstanding (x : Die) (r : MtxReq) (t : Nat) : ((mtxIssue x r t).master r.master).outstanding = (x.master r.master).outstanding ++ [⟨r, t⟩] := by
  unfold mtxIssue
  extract_lets x1 n
  rw [Die.master_setRf, Die.master_onMaster_same]

/-- A record leaves the matrix of a die. -/
theorem OnlyRecords.die_mtx {s t : State} (h : OnlyRecords s t) (d : DieId) : (t.die d).mtx = (s.die d).mtx := h.die_eq d (·.mtx) fun _ => rfl

theorem OnlyRecords.die_master {s t : State} (h : OnlyRecords s t) (d : DieId) (m : Nat) : (t.die d).master m = (s.die d).master m := by
  unfold Die.master
  rw [h.die_mtx]

theorem matrixRequest_rows (d : DieId) (s : State) (r : MtxReq) : let x := s.die d; let s0 := debugSeen s d r.master; let m := x.master r.master
    ((∃ k a, x.life = .held k a) ∨ m.resetAt.isSome = true → Makes (.matrixRequest d r) s s0) ∧
    ((∀ k a, x.life ≠ .held k a) → m.resetAt = none →
      (mtxDecode x r = none → Makes (.matrixRequest d r) s
        (mtxError s0 d r 1 (((mtxTarget (x.rbit Reg.MTX_REMAP F.MTX_REMAP_REMAP) r.addr.toNat).map (·.1)).getD 15))) ∧
      (∀ t o, mtxDecode x r = some (t, o) → t = tBridge → bridgeUp s d = false → Makes (.matrixRequest d r) s (mtxError s0 d r 3 t)) ∧
      (∀ t o, mtxDecode x r = some (t, o) → t = tBridge → bridgeUp s d = true → m.outstanding.length < 32 →
        (∀ p ∈ m.outstanding, p.req.id = r.id → p.target = t) → (∀ w ∈ m.waiting, w.id ≠ r.id) →
        Makes (.matrixRequest d r) s (s0.onDie d (fun x => mtxIssue x r t))) ∧
      (∀ t o, mtxDecode x r = some (t, o) → t ≠ tBridge → m.outstanding.length < 32 →
        (∀ p ∈ m.outstanding, p.req.id = r.id → p.target = t) → (∀ w ∈ m.waiting, w.id ≠ r.id) →
        Makes (.matrixRequest d r) s (s0.onDie d (fun x => mtxIssue x r t)) ∧
        Answers (.matrixRequest d r) s (fun u => ((u.die d).master r.master).outstanding = m.outstanding ++ [⟨r, t⟩])) ∧
      (∀ t o w, mtxDecode x r = some (t, o) → t ≠ tBridge → m.outstanding.length < 32 → w ∈ m.waiting → w.id = r.id →
        Makes (.matrixRequest d r) s ((s0.count d (Reg.MTX_CNT 3) F.MTX_CNT_COUNT).onDie d (fun x =>
          x.onMaster r.master (fun m => { m with waiting := m.waiting ++ [r] }))))) := by
  intro x s0 m
  have hm : (s0.die d).master r.master = m := debugSeen_master ..
  have hdec : mtxDecode (s0.die d) r = mtxDecode x r := debugSeen_decode ..
  have hbr : bridgeUp s0 d = bridgeUp s d := debugSeen_bridge ..
  have hheld : (s0.die d).isHeld = x.isHeld := debugSeen_held ..
  refine ⟨fun h => .of_row (f := fun s => mtxRequest d r (debugSeen s d r.master)) rfl (mtxRequest_lost ?_), fun hfree hopen => ?_⟩
  · rw [hheld, hm, Die.isHeld_iff]
    exact h
  have hport : PortOpen s0 d r := ⟨by rw [hheld, Bool.eq_false_iff, ne_eq, Die.isHeld_iff]; exact fun ⟨k, a, h⟩ => hfree k a h, by rw [hm]; exact hopen⟩
  have hrow {u : State} (h : mtxRequest d r s0 = u) : exec (.matrixRequest d r) s = done u := congrArg done h
  have hissue {t o : Nat} (hd : mtxDecode x r = some (t, o)) (hb : t = tBridge → bridgeUp s d = true) (hid : IdFree m r t) :
      mtxRequest d r s0 = s0.onDie d (fun x => mtxIssue x r t) :=
    (mtxRequest_admitted hport (hdec.trans hd) fun h => hbr.trans (hb h)).trans (mtxAdmitted_free (by rw [hm]; exact hid))
  refine ⟨fun hd => .of_done (hrow ?_), fun t o hd ht hb => .of_done (hrow ?_), fun t o hd _ hb h1 h2 h3 => .of_done (hrow (hissue hd (fun _ => hb) ⟨h1, h2, h3⟩)),
    fun t o hd ht h1 h2 h3 => ?_, fun t o w hd ht h1 hw hid => .of_done (hrow ?_)⟩
  · rw [mtxRequest_open hport, hdec, hd, debugSeen_rbit]
  · rw [mtxRequest_open hport, hdec, hd]
    exact if_pos (by rw [decide_eq_true ht, hbr, hb]; rfl)
  · have hrow := hrow (hissue hd (fun h => absurd h ht) ⟨h1, h2, h3⟩)
    refine ⟨.of_done hrow, .of_done hrow fun u hu => ?_⟩
    rw [hu.die_master, State.die_onDie_same, mtxIssue_outstanding, hm]
  · rw [mtxRequest_admitted hport (hdec.trans hd) fun h => absurd h ht, mtxAdmitted_behind t (by rw [hm]; exact h1) (by rw [hm]; exact hw) hid]

/-! ## What a write behind a target leaves of the masters -/

/-- From x to y a master keeps its transactions and its reset; its monitor may clear. -/
structure Master.Fewer (x y : Master) : Prop where
  still : { y with monitor := none } = { x with monitor := none }
  monitor : x.monitor = none → y.monitor = none

theorem Master.Fewer.refl (x : Master) : x.Fewer x := ⟨rfl, id⟩

theorem Master.Fewer.trans {x y z : Master} (h : x.Fewer y) (k : y.Fewer z) : x.Fewer z := ⟨k.still.trans h.still, fun hx => k.monitor (h.monitor hx)⟩

theorem Master.Fewer.part {α : Type} {x y : Master} (h : x.Fewer y) (π : Master → α) (hπ : ∀ k : Master, π { k with monitor := none } = π k) : π y = π x := by
  rw [← hπ, h.still, hπ]

theorem Master.Fewer.outstanding {x y : Master} (h : x.Fewer y) : y.outstanding = x.outstanding := h.part (·.outstanding) fun _ => rfl
theorem Master.Fewer.waiting {x y : Master} (h : x.Fewer y) : y.waiting = x.waiting := h.part (·.waiting) fun _ => rfl
theorem Master.Fewer.resetAt {x y : Master} (h : x.Fewer y) : y.resetAt = x.resetAt := h.part (·.resetAt) fun _ => rfl
theorem Master.Fewer.draining {x y : Master} (h : x.Fewer y) : y.draining = x.draining := h.part (·.draining) fun _ => rfl

/-- From s to t no time passes and each master keeps its transactions and its reset. -/
structure KeepsPorts (s t : State) : Prop where
  master : ∀ d m, ((s.die d).master m).Fewer ((t.die d).master m)
  ticks : t.ticks = s.ticks

namespace KeepsPorts
variable {s t u : State}

theorem refl (s : State) : KeepsPorts s s := ⟨fun _ _ => .refl _, rfl⟩

theorem trans (h : KeepsPorts s t) (k : KeepsPorts t u) : KeepsPorts s u := ⟨fun d m => (h.master d m).trans (k.master d m), k.ticks.trans h.ticks⟩

theorem foldl {α : Type} (g : State → α → State) (h : ∀ t a, KeepsPorts t (g t a)) (l : List α) (s : State) : KeepsPorts s (l.foldl g s) := by
  induction l generalizing s with
  | nil => exact .refl s
  | cons a l ih => exact (h s a).trans (ih _)

theorem of_dies (h : ∀ d, t.die d = s.die d) (ht : t.ticks = s.ticks) : KeepsPorts s t := ⟨fun d m => by rw [h]; exact .refl _, ht⟩

theorem onDie (s : State) (d : DieId) {f : Die → Die} (h : ∀ (x : Die) m, (x.master m).Fewer ((f x).master m)) : KeepsPorts s (s.onDie d f) := by
  refine ⟨fun e m => ?_, State.onDie_ticks ..⟩
  by_cases he : e = d
  · rw [he, State.die_onDie_same]
    exact h ..
  · rw [State.die_onDie_other s he]
    exact .refl _

/-- A change of a die that leaves its masters. -/
theorem beside (s : State) (d : DieId) {f : Die → Die} (h : ∀ x, (f x).mtx.masters = x.mtx.masters) : KeepsPorts s (s.onDie d f) :=
  onDie s d fun x m => by unfold Die.master; rw [h]; exact .refl _

theorem mtxPutByte (s : State) (d : DieId) (m t o : Nat) (b : Byte) : KeepsPorts s (mtxPutByte s d m t o b) := by
  unfold Machine.mtxPutByte
  split
  case h_3 =>
    split
    · exact .beside s d fun _ => rfl
    · exact .refl s
  case h_5 =>
    split_ifs
    · exact .of_dies (fun e => by cases d <;> cases e <;> rfl) (by cases d <;> rfl)
    · exact .refl s
    · exact .beside s d fun _ => rfl
  case h_6 => exact .of_dies (fun e => by cases e <;> rfl) rfl
  case h_8 => exact .refl s
  all_goals exact .beside s d fun _ => rfl

end KeepsPorts

theorem Die.master_of_lt (x : Die) {m : Nat} (h : m < 8) : x.master m = x.mtx.masters[m] := by simp [Die.master, Vector.getD, h]

theorem Die.master_of_le (x : Die) {m : Nat} (h : 8 ≤ m) : x.master m = Master.reset := by simp [Die.master, Vector.getD, h]

theorem master_mtxWritten (x : Die) (m a n j : Nat) : (x.master j).Fewer ((mtxWritten x m a n).master j) := by
  by_cases hj : j < 8
  · rw [Die.master_of_lt _ hj, Die.master_of_lt _ hj]
    simp only [mtxWritten, Vector.getElem_map, Vector.getElem_zipIdx]
    split
    · split
      · exact ⟨rfl, fun _ => rfl⟩
      · exact .refl _
    · exact .refl _
  · rw [Die.master_of_le _ (Nat.le_of_not_lt hj), Die.master_of_le _ (Nat.le_of_not_lt hj)]
    exact .refl _

/-- What of a write under way a reset of a master lets through. -/
def mtxPart (d : DieId) (m : Nat) (s : State) (o : Txn) : State :=
  match o.req.op, mtxTarget ((s.die d).rbit Reg.MTX_REMAP F.MTX_REMAP_REMAP) o.req.addr.toNat with
  | .write data, some (t, off) =>
    if t = tRegs || t = tBridge then s.drawn
    else
      let n := 32 * (s.free % (data.length / 32 + 2))
      let s2 := mtxWrite s.drawn d m t off (data.take n)
      s2.onDie d (fun x => mtxWritten x m (mtxPlace t off) n)
  | _, _ => s

theorem KeepsPorts.mtxPart (s : State) (d : DieId) (m : Nat) (o : Txn) : KeepsPorts s (mtxPart d m s o) := by
  have drawn (t : State) : KeepsPorts t t.drawn := .of_dies t.die_drawn rfl
  unfold Machine.mtxPart
  split
  · split
    · exact drawn s
    · exact (drawn s).trans (KeepsPorts.trans (.foldl _ (fun t p => .mtxPutByte ..) _ _) (.onDie _ d fun x j => master_mtxWritten ..))
  · exact .refl s

/-! ## Resets of masters -/

/-- A master whose reset begins. -/
def Master.closed (ticks : Nat) (k : Master) : Master :=
  { k with waiting := [], monitor := none, resetAt := if k.outstanding.isEmpty then none else some ticks, draining := !k.outstanding.isEmpty }

theorem Master.Fewer.closed {x y : Master} (h : x.Fewer y) (ticks : Nat) : y.closed ticks = x.closed ticks := by
  unfold Master.closed
  rw [h.outstanding]

theorem masterReset_eq (d : DieId) (m : Nat) (s : State) : masterReset d m s =
    (((s.die d).master m).outstanding.foldl (mtxPart d m) s).onDie d (·.onMaster m (Master.closed s.ticks)) := by
  unfold masterReset
  rfl

theorem mtxParts_ports (d : DieId) (m : Nat) (l : List Txn) (s : State) : KeepsPorts s (l.foldl (mtxPart d m) s) := .foldl _ (fun t o => .mtxPart t d m o) l s

theorem closed_idle {k : Master} (h : k.outstanding = []) (ticks : Nat) :
    k.closed ticks = { k with waiting := [], monitor := none, resetAt := none, draining := false } := by
  unfold Master.closed
  rw [h]
  rfl

theorem closed_busy {k : Master} (h : k.outstanding ≠ []) (ticks : Nat) :
    k.closed ticks = { k with waiting := [], monitor := none, resetAt := some ticks, draining := true } := by
  unfold Master.closed
  rw [List.isEmpty_eq_false_iff.2 h]
  rfl

theorem onMaster_at (x : Die) (m : Nat) {f g : Master → Master} (h : f (x.master m) = g (x.master m)) : x.onMaster m f = x.onMaster m g := by
  unfold Die.onMaster
  rw [h]

theorem masterReset_same (d : DieId) (m : Fin 8) (s : State) : ((masterReset d m s).die d).master m = ((s.die d).master m).closed s.ticks := by
  have hs := mtxParts_ports d m ((s.die d).master m).outstanding s
  rw [masterReset_eq, State.die_onDie_same, Die.master_onMaster_same, ← (hs.master d m).closed]

theorem masterReset_other (d : DieId) (m : Nat) (s : State) {n : Nat} (h : n ≠ m) : ((s.die d).master n).Fewer (((masterReset d m s).die d).master n) := by
  rw [masterReset_eq, State.die_onDie_same, Die.master_onMaster_other _ h]
  exact (mtxParts_ports d m _ s).master d n

/-- A write under way is all that a reset of a master draws on. -/
theorem masterReset_quiet {d : DieId} {m : Nat} {s : State} (h : ∀ o ∈ ((s.die d).master m).outstanding, o.req.op = .read) :
    masterReset d m s = s.onDie d (·.onMaster m (Master.closed s.ticks)) := by
  have hl (l : List Txn) (hl : ∀ o ∈ l, o.req.op = .read) : l.foldl (mtxPart d m) s = s := by
    induction l with
    | nil => rfl
    | cons o l ih =>
      have ho : mtxPart d m s o = s := by
        unfold mtxPart
        rw [hl o List.mem_cons_self]
      rw [List.foldl_cons, ho]
      exact ih fun p hp => hl p (List.mem_cons_of_mem _ hp)
  rw [masterReset_eq, hl _ h]

/-- A master after a write of MTX_MRST. -/
def Master.mrst (sel : Nat → Bool) (ticks m : Nat) (k : Master) : Master := if sel m then k.closed ticks else k

/-- The masters that a write of MTX_MRST resets. -/
def mrstSel (v m : Nat) : Bool := bitOf v m && m ≠ 0 && m ≠ 7

theorem mrst_master {d : DieId} {v : Nat} (l : List Nat) (hn : l.Nodup) (hl : ∀ m ∈ l, m < 8) (s : State) (m : Nat) :
    (if m ∈ l then ((s.die d).master m).mrst (mrstSel v) s.ticks m else (s.die d).master m).Fewer
      (((l.foldl (fun s m => if bitOf v m && m ≠ 0 && m ≠ 7 then masterReset d m s else s) s).die d).master m) := by
  induction l generalizing s with
  | nil => exact .refl _
  | cons j l ih =>
    obtain ⟨hj, hn⟩ := List.nodup_cons.1 hn
    have h := ih hn (fun m hm => hl m (List.mem_cons_of_mem _ hm)) (if bitOf v j && j ≠ 0 && j ≠ 7 then masterReset d j s else s)
    rw [List.foldl_cons]
    generalize hs : (if bitOf v j && j ≠ 0 && j ≠ 7 then masterReset d j s else s) = s1 at h ⊢
    have hticks : s1.ticks = s.ticks := by
      rw [← hs]
      split
      · exact (KeepsCore.masterReset d j s).ticks
      · rfl
    by_cases hm : m = j
    · subst hm
      rw [if_pos List.mem_cons_self]
      rw [if_neg hj] at h
      refine Master.Fewer.trans ?_ h
      have hlt : m < 8 := hl m List.mem_cons_self
      rw [← hs]
      unfold Master.mrst mrstSel
      split
      · rw [show (s.die d).master m = (s.die d).master (⟨m, hlt⟩ : Fin 8) from rfl, ← masterReset_same]
        exact .refl _
      · exact .refl _
    · have h1 : ((s.die d).master m).Fewer ((s1.die d).master m) := by
        rw [← hs]
        split
        · exact masterReset_other d j s hm
        · exact .refl _
      rw [hticks] at h
      by_cases hml : m ∈ l
      · rw [if_pos hml] at h
        rw [if_pos (List.mem_cons_of_mem _ hml)]
        refine Master.Fewer.trans ?_ h
        unfold Master.mrst
        split
        · rw [h1.closed]
          exact .refl _
        · exact h1
      · rw [if_neg hml] at h
        rw [if_neg fun hc => hml ((List.mem_cons.1 hc).resolve_left hm)]
        exact h1.trans h

/-! ## Drain and late responses -/

theorem Die.mtx_setRf (x : Die) (k : Nat) (f : Fld) (v : Nat) : (x.setRf k f v).mtx = x.mtx := rfl
theorem Die.mtx_setEvent (x : Die) (k : Nat) (f : Fld) : (x.setEvent k f).mtx = x.mtx := rfl
theorem Die.mtx_setReg64 (x : Die) (k v : Nat) : (x.setReg64 k v).mtx = x.mtx := rfl
theorem Die.mtx_count (x : Die) (k : Nat) (f : Fld) (n : Nat) : (x.count k f n).mtx = x.mtx := rfl

theorem mtxError_mtx (s : State) (d e : DieId) (r : MtxReq) (kind target : Nat) : ((mtxError s d r kind target).die e).mtx = (s.die e).mtx := by
  unfold mtxError
  extract_lets s1
  rw [State.die_emit]
  refine die_onDie_keeps (·.mtx) (fun x => ?_) s d e
  have hcount (y : Die) (hy : y.mtx = x.mtx) :
      (if kind = 1 then y.count (Reg.MTX_CNT 0) F.MTX_CNT_COUNT else if kind = 2 then y.count (Reg.MTX_CNT 1) F.MTX_CNT_COUNT else y).mtx = x.mtx := by
    split_ifs
    · exact (Die.mtx_count ..).trans hy
    · exact (Die.mtx_count ..).trans hy
    · exact hy
  refine hcount _ ?_
  split
  · rfl
  · rw [Die.mtx_setReg64, Die.mtx_setRf, Die.mtx_setRf, Die.mtx_setRf, Die.mtx_setRf, Die.mtx_setEvent]

/-- A transaction that did not end in time. -/
def mtxStuck (d : DieId) (s : State) (o : Txn) : State :=
  (mtxError s d o.req 2 o.target).onDie d (fun x => { x with mtx := { x.mtx with stuck := x.mtx.stuck ||| BitVec.ofNat 10 (2 ^ o.target) } })

theorem mtxStuck_mtx (d : DieId) (s : State) (o : Txn) :
    ((mtxStuck d s o).die d).mtx = { (s.die d).mtx with stuck := (s.die d).mtx.stuck ||| BitVec.ofNat 10 (2 ^ o.target) } := by
  unfold mtxStuck
  rw [State.die_onDie_same]
  dsimp only
  rw [mtxError_mtx]

theorem getLsbD_bit {w t j : Nat} : (BitVec.ofNat w (2 ^ t)).getLsbD j = (decide (j < w) && decide (t = j)) := by
  rw [BitVec.getLsbD_ofNat, Nat.testBit_two_pow]

theorem mtxStuck_fold (d : DieId) (l : List Txn) (s : State) : ((l.foldl (mtxStuck d) s).die d).mtx.masters = (s.die d).mtx.masters ∧
    ∀ j, ((l.foldl (mtxStuck d) s).die d).mtx.stuck.getLsbD j = ((s.die d).mtx.stuck.getLsbD j || (decide (j < 10) && l.any (fun o => decide (o.target = j)))) := by
  induction l generalizing s with
  | nil => exact ⟨rfl, fun j => by rw [List.any_nil, Bool.and_false, Bool.or_false]; rfl⟩
  | cons o l ih =>
    obtain ⟨h1, h2⟩ := ih (mtxStuck d s o)
    refine ⟨h1.trans (by rw [mtxStuck_mtx]), fun j => (h2 j).trans ?_⟩
    rw [mtxStuck_mtx, List.any_cons]
    dsimp only
    rw [BitVec.getLsbD_or, getLsbD_bit, Bool.and_or_distrib_left, Bool.or_assoc]

theorem drainTimeout_early {d : DieId} {m : Nat} {s : State}
    (h : ∀ a, ((s.die d).master m).resetAt = some a → ((s.die d).master m).draining = false ∨ s.ticks - a < 2 * usT) : drainTimeout d m s = s := by
  unfold drainTimeout
  extract_lets k
  split
  · rfl
  next a ha =>
    refine if_pos ?_
    rw [Bool.or_eq_true, Bool.not_eq_true', decide_eq_true_eq]
    exact h a ha

/-- A master that has drained in vain. -/
def Master.given (k : Master) : Master := { k with outstanding := [], resetAt := none, draining := false }

theorem drainTimeout_due {d : DieId} {m : Nat} {s : State} {a : Nat} (hr : ((s.die d).master m).resetAt = some a)
    (hd : ((s.die d).master m).draining = true) (ht : 2 * usT ≤ s.ticks - a) :
    drainTimeout d m s = (((s.die d).master m).outstanding.foldl (mtxStuck d) s).onDie d (·.onMaster m Master.given) := by
  unfold drainTimeout
  extract_lets k
  rw [show k.resetAt = some a from hr]
  dsimp only
  rw [if_neg (by rw [show k.draining = true from hd, decide_eq_false (Nat.not_lt.2 ht)]; decide)]
  rfl

theorem drainTimeout_answers {d : DieId} {m : Fin 8} {s : State} {a : Nat} (hr : ((s.die d).master m).resetAt = some a)
    (hd : ((s.die d).master m).draining = true) (ht : 2 * usT ≤ s.ticks - a) : Answers (.drainTimeout d m) s (fun t =>
      let n := (t.die d).master m
      n.outstanding = [] ∧ n.resetAt = none ∧ n.draining = false ∧ n.waiting = ((s.die d).master m).waiting ∧
      ∀ o ∈ ((s.die d).master m).outstanding, o.target < 10 → (t.die d).mtx.stuck.getLsbD o.target = true) := by
  refine .of_done (congrArg done (drainTimeout_due hr hd ht)) fun t htr => ?_
  intro n
  obtain ⟨hm, hs⟩ := mtxStuck_fold d ((s.die d).master m).outstanding s
  have hn : n = ((s.die d).master m).given := by
    rw [show n = _ from htr.die_master d m, State.die_onDie_same, Die.master_onMaster_same]
    exact congrArg Master.given (congrArg (Vector.getD · m Master.reset) hm)
  rw [hn]
  refine ⟨rfl, rfl, rfl, rfl, fun o ho hlt => ?_⟩
  rw [htr.die_mtx, State.die_onDie_same]
  refine (hs o.target).trans ?_
  rw [decide_eq_true hlt, List.any_eq_true.2 ⟨o, ho, decide_eq_true rfl⟩, Bool.and_true, Bool.or_true]

/-! ## Responses -/

/-- A transaction has ended at its target. -/
def mtxEnded (m t : Nat) (o : Txn) (x : Die) : Die :=
  let y := x.onMaster m (fun k => { k with outstanding := k.outstanding.erase o })
  { y with mtx := { y.mtx with stuck := y.mtx.stuck &&& ~~~ BitVec.ofNat 10 (2 ^ t) } }

theorem matrixResponse_none {d : DieId} {m t : Nat} {s : State} (h : ∀ o ∈ ((s.die d).master m).outstanding, o.target ≠ t) : matrixResponse d m t s = s := by
  have hf : ((s.die d).master m).outstanding.find? (fun o => o.target = t) = none := List.find?_eq_none.2 fun o ho => by simpa using h o ho
  unfold matrixResponse
  extract_lets x k
  rw [show k.outstanding.find? (fun o => o.target = t) = none from hf]

theorem matrixResponse_draining {d : DieId} {m t : Nat} {s : State} {o : Txn} (h : ((s.die d).master m).outstanding.find? (fun o => o.target = t) = some o)
    (hd : ((s.die d).master m).draining = true) :
    matrixResponse d m t s = (debugSeen (s.onDie d (mtxEnded m t o)) d m).onDie d (·.onMaster m drained) := by
  unfold matrixResponse
  extract_lets x k
  rw [show k.outstanding.find? (fun o => o.target = t) = some o from h]
  exact if_pos hd

theorem matrixResponse_read {d : DieId} {m t : Nat} {s : State} {o : Txn} (h : ((s.die d).master m).outstanding.find? (fun o => o.target = t) = some o)
    (hd : ((s.die d).master m).draining = false) (ht : t ≠ tBridge) (hop : o.req.op = .read) :
    matrixResponse d m t s = mtxWake ((debugSeen (s.onDie d (mtxEnded m t o)) d m).emit (.matrix d m o.req.id false
      (targetRead (debugSeen (s.onDie d (mtxEnded m t o)) d m) d t
        (((mtxTarget ((s.die d).rbit Reg.MTX_REMAP F.MTX_REMAP_REMAP) o.req.addr.toNat).map (·.2)).getD 0) o.req.len))) d m := by
  unfold matrixResponse
  extract_lets x k
  rw [show k.outstanding.find? (fun o => o.target = t) = some o from h]
  dsimp only
  rw [if_neg (by rw [show k.draining = false from hd]; decide), if_neg ht]
  unfold targetServe
  rw [hop]
  rfl

theorem mtxWake_nobody {s : State} {d : DieId} {m : Nat} (h : ((s.die d).master m).waiting = []) :
    mtxWake s d m = s.onDie d (·.onMaster m (fun k => { k with waiting := [] })) := by
  unfold mtxWake
  rw [h]
  rfl

theorem mtxEnded_master (m : Fin 8) (t : Nat) (o : Txn) (x : Die) :
    (mtxEnded m t o x).master m = { x.master m with outstanding := (x.master m).outstanding.erase o } :=
  x.master_onMaster_same m fun k => { k with outstanding := k.outstanding.erase o }

theorem matrixResponse_answers {d : DieId} {m : Fin 8} {t : Fin 10} {s : State} {o : Txn}
    (h : ((s.die d).master m).outstanding.find? (fun o => o.target = t.val) = some o) (hd : ((s.die d).master m).draining = false)
    (ht : t.val ≠ tBridge) (hop : o.req.op = .read) (hw : ((s.die d).master m).waiting = []) :
    let s1 := debugSeen (s.onDie d (mtxEnded m t o)) d m
    let off := ((mtxTarget ((s.die d).rbit Reg.MTX_REMAP F.MTX_REMAP_REMAP) o.req.addr.toNat).map (·.2)).getD 0
    Answers (.matrixResponse d m t) s (fun u => Out.matrix d m o.req.id false (targetRead s1 d t off o.req.len) ∈ u.out ∧
      ((u.die d).master m).outstanding = ((s.die d).master m).outstanding.erase o) := by
  intro s1 off
  have hm : (s1.die d).master m = { (s.die d).master m with outstanding := ((s.die d).master m).outstanding.erase o } := by
    rw [show (s1.die d).master m = _ from debugSeen_master .., State.die_onDie_same, mtxEnded_master]
  refine .of_done (congrArg done ((matrixResponse_read h hd ht hop).trans (mtxWake_nobody ?_))) fun u hu => ⟨hu.out.subset ?_, ?_⟩
  · rw [State.die_emit, show ((debugSeen (s.onDie d (mtxEnded m t o)) d m).die d).master m = _ from hm]
    exact hw
  · rw [State.onDie_out, State.emit_out]
    exact List.mem_append_right _ (List.mem_singleton.2 rfl)
  · rw [hu.die_master, State.die_onDie_same, Die.master_onMaster_same, State.die_emit,
      show ((debugSeen (s.onDie d (mtxEnded m t o)) d m).die d).master m = _ from hm]

/-! ## The statement -/

theorem mrstSel_bit (v : BitVec 8) (m : Fin 8) : mrstSel v.toNat m = true ↔ v.getLsbD m = true ∧ m ≠ 0 ∧ m ≠ 7 := by
  have hb : bitOf v.toNat m = v.getLsbD m := by
    rw [BitVec.getLsbD, Nat.testBit_eq_decide_div_mod_eq]
    rfl
  unfold mrstSel
  rw [hb]
  simp only [Bool.and_eq_true, decide_eq_true_eq, ne_eq, Fin.ext_iff, and_assoc]
  rfl

theorem mtxMrstWrite_answers {d : DieId} (v : BitVec 8) {s : State} (hb : (s.die d).barOpen = true) (hl : (s.die d).lockOpen = true) :
    Answers (.mtxMrstWrite d v) s (fun t => ∀ m : Fin 8, let k := (s.die d).master m; let n := (t.die d).master m
      (v.getLsbD m = true → m ≠ 0 → m ≠ 7 → k.outstanding = [] → n.waiting = [] ∧ n.monitor = none ∧ n.draining = false) ∧
      (v.getLsbD m = true → m ≠ 0 → m ≠ 7 → k.outstanding ≠ [] → n.waiting = [] ∧ n.draining = true ∧ n.resetAt = some s.ticks) ∧
      (m = 0 ∨ m = 7 → n.outstanding = k.outstanding ∧ n.waiting = k.waiting)) := by
  refine .of_doneBar (f := mrstWrite d v.toNat) hb rfl fun t ht m => ?_
  have h := mrst_master (d := d) (v := v.toNat) (List.range 8) List.nodup_range (fun m hm => List.mem_range.1 hm) s m
  rw [if_pos (List.mem_range.2 m.isLt), ← show mrstWrite d v.toNat s = _ from if_pos hl, ← ht.die_master] at h
  intro k n
  have hreset (hv : v.getLsbD m = true) (h0 : m ≠ 0) (h7 : m ≠ 7) : (k.closed s.ticks).Fewer n := by
    rwa [Master.mrst, if_pos ((mrstSel_bit v m).2 ⟨hv, h0, h7⟩)] at h
  refine ⟨fun hv h0 h7 ho => ?_, fun hv h0 h7 ho => ?_, fun h07 => ?_⟩
  · have hn := hreset hv h0 h7
    exact ⟨hn.waiting, hn.monitor rfl, hn.draining.trans (by simp [Master.closed, ho])⟩
  · have hn := hreset hv h0 h7
    exact ⟨hn.waiting, hn.draining.trans (by simp [Master.closed, ho]), hn.resetAt.trans (by simp [Master.closed, ho])⟩
  · rw [Master.mrst, if_neg fun hs => ?_] at h
    · exact ⟨h.outstanding, h.waiting⟩
    · obtain ⟨-, h0, h7⟩ := (mrstSel_bit v m).1 hs
      exact h07.elim h0 h7

/-- Settles O45: the rows case by case; a reset of a master and a write behind a target leave every master's transactions. -/
theorem matrixTransactions : Obligations.MatrixTransactions := by
  unfold Obligations.MatrixTransactions
  refine ⟨fun d s => ⟨matrixRequest_rows d s, fun m t => ?_⟩, fun d s => ⟨fun m => ?_, fun t => ?_, fun v h => ?_, fun v hb hl => mtxMrstWrite_answers v hb hl⟩⟩
  · intro k
    refine ⟨fun h => .of_row (f := matrixResponse d m t) rfl (matrixResponse_none h), fun o ho => ?_⟩
    exact ⟨fun hd => .of_row (f := matrixResponse d m t) rfl (matrixResponse_draining ho hd), fun hd ht hop hw => matrixResponse_answers ho hd ht hop hw⟩
  · intro k
    refine ⟨fun h => ?_, fun h hr => ?_, fun h => ?_, fun h => ?_, fun a h ht => ?_, fun a h hd ht => drainTimeout_answers h hd ht⟩
    · refine .of_row (f := masterReset d m) rfl ((masterReset_quiet fun o ho => ?_).trans (onDie_at s d ?_))
      · rw [show ((s.die d).master m).outstanding = [] from h] at ho
        exact absurd ho List.not_mem_nil
      · exact onMaster_at _ m (closed_idle h s.ticks)
    · exact .of_row (f := masterReset d m) rfl ((masterReset_quiet hr).trans (onDie_at s d (onMaster_at _ m (closed_busy h s.ticks))))
    · refine .of_done (u := masterReset d m s) rfl fun t ht => ?_
      intro n
      rw [show n = _ from ht.die_master d m, masterReset_same, closed_busy h]
      exact ⟨rfl, rfl, rfl, rfl, rfl⟩
    · exact .of_row (f := drainTimeout d m) rfl (drainTimeout_early fun a ha => h.elim (fun hn => absurd (hn.symm.trans ha) (by simp)) .inl)
    · exact .of_row (f := drainTimeout d m) rfl (drainTimeout_early fun b hb => .inr (by rwa [← Option.some.inj (h.symm.trans hb)]))
  · refine ⟨fun h => .of_row (f := lateResponse d t) rfl (if_neg (by rw [h]; decide)), fun h => .of_row (f := lateResponse d t) rfl (if_pos h)⟩
  · cases hb : (s.die d).barOpen
    · exact .of_doneBar_shut (f := mrstWrite d v.toNat) hb rfl
    · obtain h | h := h
      · exact absurd hb (by rw [show (s.die d).barOpen = false from h]; decide)
      · exact .of_done ((exec_of_doneBar (f := mrstWrite d v.toNat) (c := .mtxMrstWrite d v) hb rfl).trans (congrArg done (if_neg (by rw [h]; decide))))

end Sys2Proof.Machine
end

section
/-!
PROOFS. Boot: slot, remap, firmware start, watchdog, roles (R62, R505, R506).
-/

namespace Sys2Proof.Machine

/-! ## What the boot firmware loads -/

/-- Register writes in a row leave the life of a die and what it knows of its peer. -/
theorem setRegs_parts {α : Type} (key val : α → Nat) (l : List α) (x : Die) :
    (l.foldl (fun x a => x.setReg (key a) (val a)) x).life = x.life ∧ (l.foldl (fun x a => x.setReg (key a) (val a)) x).red = x.red := by
  induction l generalizing x with
  | nil => exact ⟨rfl, rfl⟩
  | cons a l ih => exact ⟨(ih _).1.trans (Die.setReg_life ..), (ih _).2.trans (Die.setReg_red ..)⟩

/-- A die with the latencies of a port. -/
def bootLat (d : DieId) (x : Die) (p : Nat) : Die :=
  (x.setReg (Reg.TIM_LAT_RX p) (Config.latRx d p).toNat).setReg (Reg.TIM_LAT_TX p) (Config.latTx d p).toNat

theorem bootLats_parts (d : DieId) (l : List Nat) (x : Die) : (l.foldl (bootLat d) x).life = x.life ∧ (l.foldl (bootLat d) x).red = x.red := by
  induction l generalizing x with
  | nil => exact ⟨rfl, rfl⟩
  | cons p l ih =>
    obtain ⟨h1, h2⟩ := ih (bootLat d x p)
    exact ⟨h1.trans ((Die.setReg_life ..).trans (Die.setReg_life ..)), h2.trans ((Die.setReg_red ..).trans (Die.setReg_red ..))⟩

/-- From s to t no time passes, the dies keep their lives and the time of their last report, and the bank dies their BLIND HOLD. -/
structure KeepsStage (s t : State) : Prop where
  life : ∀ d, (t.die d).life = (s.die d).life
  report : ∀ d, (t.die d).red.lastReport = (s.die d).red.lastReport
  blind : ∀ b, (t.bank b).blind.on = (s.bank b).blind.on
  ticks : t.ticks = s.ticks

namespace KeepsStage
variable {s t u : State}

theorem refl (s : State) : KeepsStage s s := ⟨fun _ => rfl, fun _ => rfl, fun _ => rfl, rfl⟩

theorem trans (h : KeepsStage s t) (k : KeepsStage t u) : KeepsStage s u :=
  ⟨fun d => (k.life d).trans (h.life d), fun d => (k.report d).trans (h.report d), fun b => (k.blind b).trans (h.blind b), k.ticks.trans h.ticks⟩

theorem foldl {α : Type} (g : State → α → State) (h : ∀ t a, KeepsStage t (g t a)) (l : List α) (s : State) : KeepsStage s (l.foldl g s) := by
  induction l generalizing s with
  | nil => exact .refl s
  | cons a l ih => exact (h s a).trans (ih _)

theorem of_dies (h : ∀ d, t.die d = s.die d) (hb : t.banks = s.banks) (ht : t.ticks = s.ticks) : KeepsStage s t :=
  ⟨fun d => by rw [h], fun d => by rw [h], fun b => by unfold State.bank; rw [hb], ht⟩

theorem of_records (h : OnlyRecords s t) : KeepsStage s t :=
  ⟨fun d => h.die_eq d (·.life) fun _ => rfl, fun d => h.die_eq d (·.red.lastReport) fun _ => rfl,
    fun b => by rw [show t.bank b = s.bank b from (KeepsLinks.of_records h).bank b], h.ticks⟩

theorem emit (s : State) (o : Out) : KeepsStage s (s.emit o) := of_records (.emit ..)

theorem onDie (s : State) (d : DieId) {f : Die → Die} (hl : ∀ x, (f x).life = x.life) (hr : ∀ x, (f x).red.lastReport = x.red.lastReport) :
    KeepsStage s (s.onDie d f) :=
  ⟨fun e => die_onDie_keeps (·.life) hl s d e, fun e => die_onDie_keeps (·.red.lastReport) hr s d e,
    fun b => by rw [(KeepsLinks.onDie s d f).bank], State.onDie_ticks ..⟩

theorem onBank (s : State) (b : Nat) {f : Bank → Bank} (h : ∀ k, (f k).blind.on = k.blind.on) : KeepsStage s (s.onBank b f) := by
  refine ⟨fun d => by cases d <;> rfl, fun d => by cases d <;> rfl, fun c => ?_, rfl⟩
  by_cases hc : c % 8 = b % 8
  · have hb (v : State) : v.bank c = v.bank b := by simp only [State.bank, hc]
    rw [hb, hb, State.bank_onBank_same, h]
  · rw [State.bank_onBank_other s hc]

theorem sendGates (s : State) (u : DieId) (kind : Nat) (g : Nat → BitVec 128) : KeepsStage s (sendGates s u kind g) := by
  refine foldl _ (fun t b => ?_) _ s
  split
  · exact emit ..
  · exact .refl t

theorem bootGuard (s : State) (d : DieId) : KeepsStage s (bootGuard s d) := by
  unfold Machine.bootGuard
  split
  · exact .refl s
  · refine KeepsStage.trans ?_ (foldl _ (fun t z => ?_) _ _)
    · refine KeepsStage.trans ?_ (onDie _ d (f := (·.onLgd (fun l => { l with loaded := true }))) (fun _ => rfl) fun _ => rfl)
      unfold lgdLoad
      extract_lets m rd
      split
      · exact .refl s
      · refine onDie s d (fun x => ?_) fun x => ?_
        all_goals
          obtain ⟨hlife, hred⟩ := setRegs_parts (fun k => k) (fun k => rd (k - Reg.LGD_STATUS) 4) lgdKeys x
          dsimp only
          generalize lgdKeys.foldl _ x = y at hlife hred ⊢
        · exact (Die.onLgd_life ..).trans hlife
        · exact congrArg Red.lastReport ((y.onLgd_red _).trans hred)
    · split
      · exact sendGates ..
      · exact .refl t

theorem bootRegs (s : State) (d : DieId) : KeepsStage s (bootRegs s d) := by
  unfold Machine.bootRegs
  extract_lets strap ee c
  refine onDie s d (fun x => ?_) fun x => ?_
  all_goals
    obtain ⟨hlife, hred⟩ := bootLats_parts d (List.range 8) x
    unfold bootLat at hlife hred
    dsimp only
    generalize (List.range 8).foldl _ x = y at hlife hred ⊢
  · rw [Die.setRf_life, Die.setReg_life]
    exact hlife
  · rw [Die.setRf_red, Die.setReg_red]
    exact congrArg Red.lastReport hred

theorem bootPatch (s : State) (d : DieId) : KeepsStage s (bootPatch s d) := by
  unfold Machine.bootPatch
  extract_lets l n m b
  split
  · exact .refl s
  · exact onDie s d (fun _ => rfl) fun _ => rfl

theorem mirrorUp (s : State) : KeepsStage s (mirrorUp s) := by
  unfold Machine.mirrorUp
  extract_lets clear
  exact (of_dies (fun d => by cases d <;> rfl) rfl rfl : KeepsStage s { s with mirror := { s.mirror with state := 2, bad := 0 } }).trans
    ((onDie _ .cd0 (f := clear) (fun _ => rfl) fun _ => rfl).trans (onDie _ .cd1 (f := clear) (fun _ => rfl) fun _ => rfl))

theorem bootLinks (s : State) (d : DieId) : KeepsStage s (bootLinks s d) := by
  unfold Machine.bootLinks
  extract_lets s1
  have h1 : KeepsStage s s1 := by
    refine foldl _ (fun t b => ?_) _ s
    extract_lets l
    split
    · exact .refl t
    · refine (onBank t b (f := (·.setLink d { l with state := 2, bad := 0 })) fun k => by cases d <;> rfl).trans ?_
      unfold shutAgain
      split
      · exact sendGates ..
      · exact .refl _
  split
  · exact h1.trans (mirrorUp s1)
  · exact h1

theorem stored (s : State) (m : Memory) (w : Bool) : KeepsStage s { s with store := m, wear := w } := of_dies (fun e => by cases e <;> rfl) rfl rfl

theorem withPins (s : State) (p : Pins) : KeepsStage s { s with pins := p } := of_dies (fun e => by cases e <;> rfl) rfl rfl

theorem logEntry (s : State) (d : DieId) (type : Nat) (payload : List Byte) : KeepsStage s (logEntry s d type payload) := by
  unfold Machine.logEntry rsHeader
  exact (stored s _ s.wear).trans (stored ..)

theorem bootLog (s : State) (d : DieId) : KeepsStage s (bootLog s d) := by
  unfold Machine.bootLog
  extract_lets x s1 s2 src s3
  have h1 : KeepsStage s s1 := by
    unfold s1
    split
    · exact .logEntry ..
    · exact .refl s
  have h2 : KeepsStage s1 s2 := by
    unfold s2
    split
    · exact .logEntry ..
    · exact .refl s1
  have h3 : KeepsStage s2 s3 := by
    unfold s3
    split
    · exact (logEntry s2 d lgSupply _).trans (withPins ..)
    · exact .refl s2
  split
  · exact ((h1.trans h2).trans h3).trans (.logEntry ..)
  · exact (h1.trans h2).trans h3

end KeepsStage

/-! ## Boot complete -/

/-- A die that waits for its peer, with what its boot reports. -/
def Die.waits (ticks : Nat) (x : Die) : Die :=
  let y := bootSticky x
  { y with life := .waiting ticks, red := { y.red with window := ticks, lastReport := ticks, booted := ticks, absentSince := none } }

/-- The boot of a die before the roles are assigned. -/
def bootStages (d : DieId) (s : State) : State :=
  let first := !(s.die d.peer).running
  let s2 := (bootPatch (bootRegs (bootGuard s d) d) d).onDie d (Die.waits s.ticks)
  let s3 := bootLinks s2 d
  let s4 := if first then bootLog s3 d else s3
  let s5 := if (s.die d).aon.heldLong then raise s4 d 223 else s4
  s5.onDie d (·.onAon (fun a => { a with heldLong := false, replace := false }))

/-- What the boot of a die has made before the roles are assigned. -/
structure Booted (d : DieId) (s t : State) : Prop where
  life : (t.die d).life = .waiting s.ticks
  peer : (t.die d.peer).life = (s.die d.peer).life
  report : (t.die d).red.lastReport = s.ticks
  heldLong : (t.die d).aon.heldLong = false
  blind : ∀ b, (t.bank b).blind.on = (s.bank b).blind.on

theorem peer_ne (d : DieId) : d.peer ≠ d := by cases d <;> decide

theorem bootStages_booted (d : DieId) (s : State) : Booted d s (bootStages d s) := by
  unfold bootStages
  extract_lets first s2 s3 s4 s5
  have h1 : KeepsStage s (bootPatch (bootRegs (bootGuard s d) d) d) := ((KeepsStage.bootGuard ..).trans (.bootRegs ..)).trans (.bootPatch ..)
  have h3 : KeepsStage s2 s3 := .bootLinks ..
  have h4 : KeepsStage s3 s4 := by
    unfold s4
    split
    · exact .bootLog ..
    · exact .refl s3
  have h5 : KeepsStage s4 s5 := by
    unfold s5
    split
    · exact .of_records (.raise s4 d 223 0 (by decide))
    · exact .refl s4
  have h6 : KeepsStage s5 (s5.onDie d (·.onAon (fun a => { a with heldLong := false, replace := false }))) := .onDie s5 d (fun _ => rfl) fun _ => rfl
  have h26 := ((h3.trans h4).trans h5).trans h6
  refine ⟨(h26.life d).trans ?_, (h26.life d.peer).trans ?_, (h26.report d).trans ?_, ?_, fun b => (h26.blind b).trans ?_⟩
  · rw [State.die_onDie_same]
    rfl
  · rw [State.die_onDie_other _ (peer_ne d)]
    exact h1.life d.peer
  · rw [State.die_onDie_same]
    rfl
  · rw [State.die_onDie_same]
    rfl
  · rw [(KeepsLinks.onDie ..).bank]
    exact h1.blind b

theorem bootComplete_early {d : DieId} {s : State} (h : (s.die d).booting = none ∨ (s.die d).rbit Reg.RST_BOOT F.RST_BOOT_STARTED = false) : bootComplete d s = s := by
  refine if_pos ?_
  rw [Bool.or_eq_true, Option.isNone_iff_eq_none, Bool.not_eq_true']
  exact h

theorem bootComplete_due {d : DieId} {s : State} (hb : (s.die d).booting.isSome = true) (hs : (s.die d).rbit Reg.RST_BOOT F.RST_BOOT_STARTED = true) :
    bootComplete d s = assignRoles (bootStages d s) d := by
  refine if_neg ?_
  rw [hs]
  rw [← Option.not_isSome, hb]
  decide

theorem Die.booting_iff (x : Die) (a : Nat) : x.booting = some a ↔ x.life = .booting a := by
  unfold Die.booting
  split
  next t h => rw [h]; simp
  next h => exact ⟨fun hn => absurd hn (by simp), fun ha => absurd ha (h a)⟩

/-- While its peer boots a die waits for it. -/
theorem assignRoles_peerBoots {d : DieId} {s : State} {a : Nat} (hp : (s.die d.peer).life = .booting a) (hb : reachesBlind s d = false) : assignRoles s d = s := by
  have hr : (s.die d.peer).running = false := by
    unfold Die.running
    rw [hp]
  unfold assignRoles
  extract_lets p up near
  rw [if_neg (by rw [show p.running = false from hr, Bool.false_and]; decide), if_neg (by rw [hb]; decide), show p.life = .booting a from hp]

theorem reachesBlind_none {s : State} (h : ∀ b < 8, (s.bank b).blind.on = false) (d : DieId) : reachesBlind s d = false := by
  refine List.any_eq_false.2 fun b hb => ?_
  rw [h b (List.mem_range.1 hb), Bool.and_false]
  decide

theorem bootComplete_answers {d : DieId} {s : State} {a : Nat} (hl : (s.die d).life = .booting a) (hs : (s.die d).rbit Reg.RST_BOOT F.RST_BOOT_STARTED = true)
    (hp : (s.die d.peer).booting.isSome = true) (hb : ∀ b : Fin 8, (s.bank b).blind.on = false) :
    Answers (.bootComplete d) s (fun t => (t.die d).life = .waiting s.ticks ∧ (t.die d).aon.heldLong = false ∧ (t.die d).red.lastReport = s.ticks) := by
  have h := bootStages_booted d s
  obtain ⟨c, hc⟩ := Option.isSome_iff_exists.1 hp
  have hrow : bootComplete d s = bootStages d s := by
    rw [bootComplete_due (by rw [(Die.booting_iff _ a).2 hl]; rfl) hs]
    exact assignRoles_peerBoots (h.peer.trans ((Die.booting_iff _ c).1 hc)) (reachesBlind_none (fun b hlt => (h.blind b).trans (hb ⟨b, hlt⟩)) d)
  refine .of_done (congrArg done hrow) fun t ht => ⟨(ht.die_eq d (·.life) fun _ => rfl).trans h.life, (ht.die_eq d (·.aon.heldLong) fun _ => rfl).trans h.heldLong,
    (ht.die_eq d (·.red.lastReport) fun _ => rfl).trans h.report⟩

/-! ## The end of the wait for the peer -/

theorem Die.covered_mode (x : Die) : x.covered.life = x.life ∧ ∀ f, x.covered.rf Reg.RED_MODE f = x.rf Reg.RED_MODE f := by
  unfold Die.covered
  split
  · exact ⟨rfl, fun f => Die.rf_setRf_other x (by decide) ..⟩
  · exact ⟨rfl, fun f => Die.rf_setRf_other x (by decide) ..⟩

/-- What a die's firmware loads of the calibration changes no mode and no life. -/
theorem bootCal_mode (s : State) (d : DieId) : ((bootCal s d).die d).life = (s.die d).life ∧
    ∀ f ∈ modeFields, ((bootCal s d).die d).rf Reg.RED_MODE f = (s.die d).rf Reg.RED_MODE f := by
  unfold bootCal
  extract_lets serial r f bench s1 s2
  have h1 : (s1.die d).life = (s.die d).life ∧ ∀ f, (s1.die d).rf Reg.RED_MODE f = (s.die d).rf Reg.RED_MODE f := by
    unfold s1
    rw [State.die_onDie_same]
    exact Die.covered_mode _
  have h2 : OnlyRecords s1 s2 := by
    unfold s2
    split
    · exact .raise s1 d 7 0 (by decide)
    · exact .refl s1
  have h3 : OnlyRecords s1 (if s.benchValid.isNone && !s.benchNone then raise s2 d 246 else s2) := by
    split
    · exact h2.trans (.raise s2 d 246 0 (by decide))
    · exact h2
  exact ⟨(h3.die_eq d (·.life) fun _ => rfl).trans h1.1, fun f hf => (h3.mode d f hf).trans (h1.2 f)⟩

theorem OnlyRecords.sendBanks (s : State) (d : DieId) (kind : Nat) : OnlyRecords s (sendBanks s d kind) := by
  refine .foldl _ _ (fun t b _ => ?_) s
  split
  · exact .emit ..
  · exact .refl t

theorem takeRoles_role (s : State) (d : DieId) : ((takeRoles s d none).die d).life = .up ∧ ((takeRoles s d none).die d).rf Reg.RED_MODE F.RED_MODE_ROLE = 1 := by
  unfold takeRoles
  extract_lets role s1
  obtain ⟨w, -, hw⟩ := setMode_makes (s.onDie d (fun x => { x with life := .up })) d (fun w => fput F.RED_MODE_ROLE w 1)
  have hrole := setMode_field (s.onDie d (fun x => { x with life := .up })) d (fun w => fput F.RED_MODE_ROLE w 1) (g := F.RED_MODE_ROLE) (by decide) (by decide)
  rw [fget_fput_same _ (by decide)] at hrole
  obtain ⟨hlife, hmode⟩ := bootCal_mode (setModeF (s.onDie d (fun x => { x with life := .up })) d F.RED_MODE_ROLE 1) d
  have hs := OnlyRecords.sendBanks s1 d mClaim
  refine ⟨(hs.die_eq d (·.life) fun _ => rfl).trans (hlife.trans ?_), (hs.mode d _ (by decide)).trans ((hmode _ (by decide)).trans (hrole.trans rfl))⟩
  refine (hw.die_eq d (·.life) fun _ => rfl).trans ?_
  rw [State.die_onDie_same, State.die_onDie_same]
  rfl

/-- SELF-CAL begins: the mode word, the transition and messages. -/
theorem selfCalStart_keeps (s : State) (d : DieId) (byReq : Bool) : ((selfCalStart s d byReq).die d).base = mSelfCal ∧
    ((selfCalStart s d byReq).die d).rf Reg.RED_MODE F.RED_MODE_ROLE = (s.die d).rf Reg.RED_MODE F.RED_MODE_ROLE ∧
    ((selfCalStart s d byReq).die d).life = (s.die d).life ∧ ((selfCalStart s d byReq).die d).red.absentSince = (s.die d).red.absentSince ∧
    ((selfCalStart s d byReq).die d).reg Reg.RED_STATUS = (s.die d).reg Reg.RED_STATUS := by
  unfold selfCalStart
  extract_lets wait s1
  generalize hs0 : s.onDie d (fun x => { x with trans := .selfCal byReq 0 (!wait) }) = s0
  have hd : s0.die d = { s.die d with trans := .selfCal byReq 0 (!wait) } := by rw [← hs0, State.die_onDie_same]
  have h1 : OnlyRecords (setBase s0 d mSelfCal) (if wait then s1 else selfCalSend s1 d) := by
    have hm : OnlyRecords (setBase s0 d mSelfCal) s1 := by
      unfold s1
      rw [hs0]
      exact .mirrorDealer ..
    split
    · exact hm
    · exact hm.trans (.sendBanks s1 d mConvCal)
  obtain ⟨w, -, hw⟩ := setBase_makes s0 d (m := mSelfCal) (by decide)
  have hall := hw.trans h1
  have hrole := setMode_field s0 d (fun w => fput F.RED_MODE_BASE w mSelfCal) (g := F.RED_MODE_ROLE) (by decide) (by decide)
  rw [fget_fput_other _ _ (by decide) (by decide) (by decide)] at hrole
  refine ⟨(h1.base d).trans (setBase_base s0 d (by decide)), (h1.mode d _ (by decide)).trans (hrole.trans ?_), (hall.die_eq d (·.life) fun _ => rfl).trans ?_,
    (hall.die_eq d (·.red.absentSince) fun _ => rfl).trans ?_, (hall.regs d _ (by decide)).trans ?_⟩
  · rw [hd]
    rfl
  · rw [State.die_onDie_same, hd]
    rfl
  · rw [State.die_onDie_same, hd]
    rfl
  · rw [State.die_onDie_same, Die.reg_setReg_other _ (by decide), hd]
    rfl

/-- A die that is alone: solo, and since when. -/
def Die.alone (rp t : Nat) (down : Option Nat) (x : Die) : Die :=
  ((x.setRf Reg.RED_STATUS F.RED_STATUS_SOLO 1).onFlt (fun f => { f with repl := f.repl ||| BitVec.ofNat 8 rp })).onRed (fun r =>
    { r with absentSince := some t, mirrorDownSince := down })

theorem Die.alone_life (x : Die) (rp t : Nat) (down : Option Nat) : (x.alone rp t down).life = x.life := by
  rw [Die.alone, Die.onRed_life, Die.onFlt_life, Die.setRf_life]

theorem Die.alone_absentSince (x : Die) (rp t : Nat) (down : Option Nat) : (x.alone rp t down).red.absentSince = some t := by
  unfold Die.alone
  generalize (x.setRf Reg.RED_STATUS F.RED_STATUS_SOLO 1).onFlt _ = y
  rfl

theorem Die.alone_reg (x : Die) (rp t : Nat) (down : Option Nat) (k : Nat) : (x.alone rp t down).reg k = (x.setRf Reg.RED_STATUS F.RED_STATUS_SOLO 1).reg k := by
  rw [Die.alone, Die.onRed_reg, Die.onFlt_reg]

theorem roleWait_early {d : DieId} {s : State} (h : ∀ a, (s.die d).life = .waiting a → s.ticks - a < 100 * msT) : roleWait d s = s := by
  unfold roleWait
  split
  next t ht => exact if_pos (h t ht)
  · rfl

theorem roleWait_answers {d : DieId} {s : State} {a : Nat} (hl : (s.die d).life = .waiting a) (ht : 100 * msT ≤ s.ticks - a) :
    Answers (.roleWaitExpiry d) s (fun t => let y := t.die d
      y.life = .up ∧ y.rf Reg.RED_MODE F.RED_MODE_ROLE = 1 ∧ y.base = mSelfCal ∧ y.rf Reg.RED_STATUS F.RED_STATUS_SOLO = 1 ∧ y.red.absentSince = some a) := by
  have hrow : roleWait d s = selfCalStart ((takeRoles s d none).onDie d (Die.alone (2 ^ rpCdie + (if s.mirror.state = 2 then 0 else 2 ^ rpMirror)) a
      (if s.mirror.state = 2 then none else some a))) d false := by
    unfold roleWait
    rw [hl]
    exact if_neg (Nat.not_lt.2 ht)
  obtain ⟨hlife, hrole⟩ := takeRoles_role s d
  refine .of_done (congrArg done hrow) fun t htr => ?_
  generalize takeRoles s d none = s1 at hlife hrole htr
  generalize (2 ^ rpCdie + if s.mirror.state = 2 then 0 else 2 ^ rpMirror) = rp, (if s.mirror.state = 2 then none else some a) = down at htr
  generalize hs2 : s1.onDie d (Die.alone rp a down) = s2 at htr
  obtain ⟨hb, hr, hl2, habs, hreg⟩ := selfCalStart_keeps s2 d false
  have hd : s2.die d = Die.alone rp a down (s1.die d) := by rw [← hs2, State.die_onDie_same]
  intro y
  refine ⟨(htr.die_eq d (·.life) fun _ => rfl).trans (hl2.trans ?_), (htr.mode d _ (by decide)).trans (hr.trans ?_), (htr.base d).trans hb,
    (congrArg (fget _) ((htr.regs d _ (by decide)).trans hreg)).trans ?_, (htr.die_eq d (·.red.absentSince) fun _ => rfl).trans (habs.trans ?_)⟩
  · rw [hd, Die.alone_life]
    exact hlife
  · rw [Die.rf, hd, Die.alone_reg, Die.reg_setRf_other _ (by decide)]
    exact hrole
  · rw [hd, Die.alone_reg]
    exact Die.rf_setRf_same _ _ (by decide) (by decide) _
  · rw [hd, Die.alone_absentSince]

/-! ## The boot ROM and the start of firmware -/

/-- The boot ROM's report on both slots. -/
def Die.slotsRead (a b : Nat) (x : Die) : Die := (x.setRf Reg.RST_BOOT F.RST_BOOT_RES_A a).setRf Reg.RST_BOOT F.RST_BOOT_RES_B b

/-- A die that starts a slot. -/
def Die.remapped (i ver ticks : Nat) (x : Die) : Die :=
  (((x.setRf Reg.RST_BOOT F.RST_BOOT_SLOT i).setReg Reg.RST_FW_VER ver).setRf Reg.MTX_REMAP F.MTX_REMAP_REMAP 1).onAon (fun a => { a with remapAt := some ticks })

/-- Working SRAM is at address 0 and the slot is reported. -/
theorem Die.remapped_spec (i ver ticks : Nat) (x : Die) : (x.remapped i ver ticks).rf Reg.RST_BOOT F.RST_BOOT_SLOT = i % 2 ∧
    (x.remapped i ver ticks).reg Reg.RST_FW_VER = ver % 2 ^ 32 ∧ (x.remapped i ver ticks).rf Reg.MTX_REMAP F.MTX_REMAP_REMAP = 1 ∧
    (x.remapped i ver ticks).aon.remapAt = some ticks := by
  unfold Die.remapped
  refine ⟨?_, ?_, ?_, rfl⟩
  · rw [Die.rf, Die.onAon_reg, Die.reg_setRf_other _ (by decide), Die.reg_setReg_other _ (by decide)]
    exact Die.rf_setRf_same _ _ (by decide) (by decide) _
  · rw [Die.onAon_reg, Die.reg_setRf_other _ (by decide), Die.reg_setReg_same]
  · rw [Die.rf, Die.onAon_reg]
    exact Die.rf_setRf_same _ _ (by decide) (by decide) _

theorem bootSlot_lt {s : State} {d : DieId} {i : Nat} (h : bootSlot s d = some i) : i < 2 := by
  unfold bootSlot at h
  extract_lets ok at h
  split at h
  · have := Option.some.inj h
    split at this <;> omega
  · exact (Option.some.inj h) ▸ (by decide)
  · exact (Option.some.inj h) ▸ (by decide)
  · exact absurd h (by simp)

theorem remapSet_early {d : DieId} {s : State} (h : (s.die d).booting = none ∨ (s.die d).rbit Reg.MTX_REMAP F.MTX_REMAP_REMAP = true) : remapSet d s = s := by
  refine if_pos ?_
  obtain h | h := h <;> simp [h]

theorem remapSet_answers {d : DieId} {s : State} {a i : Nat} (hl : (s.die d).life = .booting a) (hr : (s.die d).rbit Reg.MTX_REMAP F.MTX_REMAP_REMAP = false)
    (hq : (s.die d).romBusy = false) (hs : bootSlot s d = some i) : Answers (.mtxRemapSet d) s (fun t => let y := t.die d
      y.rf Reg.RST_BOOT F.RST_BOOT_SLOT = i ∧ y.reg Reg.RST_FW_VER = s.slotVersion d i % 2 ^ 32 ∧ y.rf Reg.MTX_REMAP F.MTX_REMAP_REMAP = 1 ∧
      y.aon.remapAt = some s.ticks) := by
  have hrow : ∃ s2 : State, remapSet d s = s2.onDie d (Die.remapped i (s.slotVersion d i) s.ticks) := by
    unfold remapSet
    extract_lets x res s1 s2
    rw [if_neg (by rw [show x.rbit Reg.MTX_REMAP F.MTX_REMAP_REMAP = false from hr, show x.romBusy = false from hq, show x.booting = some a from (x.booting_iff a).2 hl]; simp), hs]
    exact ⟨s2, rfl⟩
  obtain ⟨s2, hrow⟩ := hrow
  obtain ⟨hslot, hver, hmap, hat⟩ := (s2.die d).remapped_spec i (s.slotVersion d i) s.ticks
  refine .of_done (congrArg done hrow) fun t ht => ?_
  intro y
  have hreg (k : Nat) (hk : recordKey k = false) : y.reg k = ((s2.die d).remapped i (s.slotVersion d i) s.ticks).reg k :=
    (ht.regs d k hk).trans (by rw [State.die_onDie_same])
  refine ⟨(congrArg (fget _) (hreg _ (by decide))).trans (hslot.trans (Nat.mod_eq_of_lt (bootSlot_lt hs))), (hreg _ (by decide)).trans hver,
    (congrArg (fget _) (hreg _ (by decide))).trans hmap, (ht.die_eq d (·.aon.remapAt) fun _ => rfl).trans ?_⟩
  rw [State.die_onDie_same]
  exact hat

theorem bootStarted_early {d : DieId} {s : State} (h : (s.die d).booting = none ∨ (s.die d).rbit Reg.MTX_REMAP F.MTX_REMAP_REMAP = false) : bootStarted d s = s := by
  refine if_neg ?_
  obtain h | h := h <;> simp [h]

theorem bootStarted_due {d : DieId} {s : State} {a : Nat} (hl : (s.die d).life = .booting a) (hr : (s.die d).rbit Reg.MTX_REMAP F.MTX_REMAP_REMAP = true) :
    bootStarted d s = s.onDie d (fun x => (x.setRf Reg.RST_BOOT F.RST_BOOT_STARTED 1).onAon (fun a => { a with remapAt := none })) :=
  if_pos (by rw [hr, ((s.die d).booting_iff a).2 hl]; rfl)

/-- A die whose firmware did not start: it boots again, and the slot has failed. -/
def Die.slotFailed (d : DieId) (a ticks : Nat) (x : Die) : Die :=
  let y := (x.inReset d 3 ticks).setReg Reg.RST_CAUSE 0x80
  { y with life := .booting a,
           aon := { x.aon with remapAt := none, failedSlots := x.aon.failedSlots ||| BitVec.ofNat 2 (2 ^ x.rf Reg.RST_BOOT F.RST_BOOT_SLOT) } }

theorem bootWatchdog_early {d : DieId} {s : State} (h : ∀ a r, (s.die d).booting = some a → (s.die d).aon.remapAt = some r → s.ticks - r < 2 * secT) :
    bootWatchdog d s = s := by
  unfold bootWatchdog
  extract_lets x
  split
  next t r ht hr => exact if_pos (h t r ht hr)
  · rfl

theorem bootWatchdog_due {d : DieId} {s : State} {a r : Nat} (hl : (s.die d).life = .booting a) (hr : (s.die d).aon.remapAt = some r) (ht : 2 * secT ≤ s.ticks - r) :
    bootWatchdog d s = s.onDie d (Die.slotFailed d a s.ticks) := by
  unfold bootWatchdog
  extract_lets x
  rw [show x.booting = some a from (x.booting_iff a).2 hl, show x.aon.remapAt = some r from hr]
  dsimp only
  rw [if_neg (Nat.not_lt.2 ht)]
  exact onDie_at s d rfl

theorem bootWatchdog_answers {d : DieId} {s : State} {a r : Nat} (hl : (s.die d).life = .booting a) (hr : (s.die d).aon.remapAt = some r)
    (ht : 2 * secT ≤ s.ticks - r) : Answers (.bootWatchdog d) s (fun t => let y := t.die d
      y.life = .booting a ∧ y.reg Reg.RST_CAUSE = 0x80 ∧ y.aon.remapAt = none ∧
      y.aon.failedSlots = (s.die d).aon.failedSlots ||| BitVec.ofNat 2 (2 ^ (s.die d).rf Reg.RST_BOOT F.RST_BOOT_SLOT)) := by
  refine .of_done (congrArg done (bootWatchdog_due hl hr ht)) fun t htr => ?_
  have hd : (s.onDie d (Die.slotFailed d a s.ticks)).die d = (s.die d).slotFailed d a s.ticks := State.die_onDie_same ..
  intro y
  refine ⟨(htr.die_eq d (·.life) fun _ => rfl).trans ?_, (htr.regs d _ (by decide)).trans ?_, (htr.die_eq d (·.aon.remapAt) fun _ => rfl).trans ?_,
    (htr.die_eq d (·.aon.failedSlots) fun _ => rfl).trans ?_⟩
  all_goals rw [hd]
  · rfl
  · exact Die.reg_setReg_same ((s.die d).inReset d 3 s.ticks) Reg.RST_CAUSE 0x80
  · rfl
  · rfl

theorem bootReplace_early {d : DieId} {s : State} (h : ∀ a, (s.die d).booting = some a → s.ticks - a < 5 * secT) : bootReplace d s = s := by
  unfold bootReplace
  split
  next t ht => exact if_neg (Nat.not_le.2 (h t ht))
  · rfl

theorem bootReplace_due {d : DieId} {s : State} {a : Nat} (hl : (s.die d).life = .booting a) (ht : 5 * secT ≤ s.ticks - a) :
    bootReplace d s = s.onDie d (fun x => x.onAon (fun a => { a with replace := true })) := by
  unfold bootReplace
  rw [((s.die d).booting_iff a).2 hl]
  exact if_pos ht

/-- Settles O44: each row outside its phase changes nothing; inside it the equations of the row give its effect. -/
theorem bootProceeds : Obligations.BootProceeds := by
  unfold Obligations.BootProceeds
  intro d s x
  refine ⟨fun h => ⟨?_, ?_, ?_, ?_, ?_⟩, fun a hl => ?_, fun a hl => ⟨fun ht => ?_, fun ht _ => roleWait_answers hl ht⟩, fun h => ?_⟩
  · exact .of_row (f := remapSet d) rfl (remapSet_early (.inl h))
  · exact .of_row (f := bootStarted d) rfl (bootStarted_early (.inl h))
  · exact .of_row (f := bootWatchdog d) rfl (bootWatchdog_early fun a r ha => absurd (h.symm.trans ha) (by simp))
  · exact .of_row (f := bootReplace d) rfl (bootReplace_early fun a ha => absurd (h.symm.trans ha) (by simp))
  · exact .of_row (f := bootComplete d) rfl (bootComplete_early (.inl h))
  · have hb : x.booting = some a := (x.booting_iff a).2 hl
    refine ⟨fun h => ⟨.of_row (f := remapSet d) rfl (remapSet_early (.inr h)), .of_row (f := bootStarted d) rfl (bootStarted_due hl h)⟩,
      fun h => .of_row (f := bootStarted d) rfl (bootStarted_early (.inr h)), fun i hr hq hs => remapSet_answers hl hr hq hs, fun h => ?_,
      fun r hr => ⟨fun ht => ?_, fun ht => bootWatchdog_answers hl hr ht⟩, fun ht => ?_, fun ht => .of_row (f := bootReplace d) rfl (bootReplace_due hl ht),
      fun h => .of_row (f := bootComplete d) rfl (bootComplete_early (.inr h)), fun hs hp hn => bootComplete_answers hl hs hp hn⟩
    · exact .of_row (f := bootWatchdog d) rfl (bootWatchdog_early fun _ r _ hr => absurd (h.symm.trans hr) (by simp))
    · exact .of_row (f := bootWatchdog d) rfl (bootWatchdog_early fun _ q _ hq => Option.some.inj (hr.symm.trans hq) ▸ ht)
    · exact .of_row (f := bootReplace d) rfl (bootReplace_early fun c hc => Option.some.inj (hb.symm.trans hc) ▸ ht)
  · exact .of_row (f := roleWait d) rfl (roleWait_early fun c hc => (Life.waiting.inj (hl.symm.trans hc)) ▸ ht)
  · exact .of_row (f := roleWait d) rfl (roleWait_early fun c hc => absurd hc (h c))

end Sys2Proof.Machine
end

section
/-!
PROOFS. Operations of the service lock, its closing, and the service path (R513 to R519).
-/

namespace Sys2Proof.Machine

/-! ## An operation arrives -/

/-- An access to the lock is noted. -/
def Service.seen (ticks : Nat) (v : Service) : Service := { v with lastAccess := ticks }

theorem State.eeprom_onDie (s : State) (d : DieId) (f : Die → Die) : (s.onDie d f).eeprom = s.eeprom := by cases d <;> rfl

theorem Die.onSvc_isDecl (x : Die) (f : Service → Service) : (x.onSvc f).isDecl = x.isDecl := rfl
theorem Die.onSvc_base (x : Die) (f : Service → Service) : (x.onSvc f).base = x.base := rfl

/-- What the unlock engine judges an operation by. -/
structure Service.SameJudge (x y : Service) : Prop where
  level : y.level = x.level
  busy : y.busy = x.busy
  lockout : y.lockout = x.lockout
  nonce : y.nonce = x.nonce
  nonceAt : y.nonceAt = x.nonceAt

theorem Service.seen_judge (ticks : Nat) (v : Service) : v.SameJudge (v.seen ticks) := ⟨rfl, rfl, rfl, rfl, rfl⟩

theorem svcRefusal_onSvc (s : State) (d : DieId) (op : Nat) {f : Service → Service} (h : ∀ v : Service, v.SameJudge (f v)) :
    svcRefusal (s.onDie d (·.onSvc f)) d op = svcRefusal s d op := by
  have hj := h (s.die d).svc
  unfold svcRefusal Service.nonceOk
  rw [State.die_onDie_same, State.eeprom_onDie, State.onDie_ticks]
  dsimp only
  rw [Die.onSvc_svc, Die.onSvc_isDecl, Die.onSvc_base, hj.busy, hj.lockout, hj.nonce, hj.nonceAt, hj.level]

theorem svcStart_off {s : State} {d : DieId} (op : Nat) (h : (s.die d).running = false) : svcStart op d s = s := if_pos (by rw [h]; rfl)

theorem svcStart_refused {s : State} {d : DieId} {op r : Nat} (hr : (s.die d).running = true) (h : svcRefusal s d op = some r) :
    svcStart op d s = (s.onDie d (·.onSvc (Service.seen s.ticks))).onDie d (·.onSvc (fun v => { (if r = svBusy then v else v.cleared op) with result := r })) := by
  unfold svcStart
  rw [if_neg (by rw [hr]; decide)]
  have hs : svcRefusal (s.onDie d (·.onSvc (Service.seen s.ticks))) d op = some r := (svcRefusal_onSvc s d op (Service.seen_judge s.ticks)).trans h
  extract_lets s1
  rw [show svcRefusal s1 d op = some r from hs]
  rfl

theorem svcStart_taken {s : State} {d : DieId} {op : Nat} (hr : (s.die d).running = true) (h : svcRefusal s d op = none) :
    svcStart op d s = (s.onDie d (·.onSvc (Service.seen s.ticks))).onDie d (·.onSvc (fun v => { v with busy := some (op, s.ticks) })) := by
  unfold svcStart
  rw [if_neg (by rw [hr]; decide)]
  have hs : svcRefusal (s.onDie d (·.onSvc (Service.seen s.ticks))) d op = none := (svcRefusal_onSvc s d op (Service.seen_judge s.ticks)).trans h
  extract_lets s1
  rw [show svcRefusal s1 d op = none from hs]
  rfl

theorem svcRefusal_busy {s : State} {d : DieId} (op : Nat) (h : (s.die d).svc.busy.isSome = true) : svcRefusal s d op = some svBusy := if_pos h

theorem svcRefusal_notDecl {s : State} {d : DieId} (op : Nat) (hb : (s.die d).svc.busy = none) (h : (s.die d).isDecl = false) :
    svcRefusal s d op = some svNotDecl := by
  simp [svcRefusal, hb, h]

theorem svcRefusal_lockedOut {s : State} {d : DieId} {op : Nat} (hb : (s.die d).svc.busy = none) (h : (s.die d).isDecl = true)
    (hl : (s.die d).svc.lockout.isSome = true) (ho : op ≠ opSetPw) : svcRefusal s d op = some svLockedOut := by
  simp [svcRefusal, hb, h, hl, ho]

/-- The unlock engine of a die is free for an operation: what it needs is there, but for the device's secret. -/
structure EngineFree (s : State) (d : DieId) (op : Nat) : Prop where
  idle : (s.die d).svc.busy = none
  decl : (s.die d).isDecl = true
  lockout : (s.die d).svc.lockout = none ∨ op = 5
  unlock1 : op = 1 → mDark ≤ (s.die d).base ∧ s.eeprom.pw.isSome = true
  unlock2 : op = 3 → (s.die d).base = mDark ∧ ((Config.kDev d).isSome = true → (s.die d).svc.nonceOk s.ticks = true)
  setPw : op = 5 → (s.die d).svc.level = 2

theorem svcRefusal_free {s : State} {d : DieId} {op : Nat} (h : EngineFree s d op) :
    svcRefusal s d op = if (op = 2 || op = 3) && (Config.kDev d).isNone then some svNoSecret else none := by
  obtain ⟨hidle, hdecl, hlock, h1, h2, h5⟩ := h
  have hlo : ¬ (decide (op ≠ opSetPw) && (s.die d).svc.lockout.isSome) = true := by
    obtain h | h := hlock
    · rw [h, Option.isSome_none, Bool.and_false]
      decide
    · rw [decide_eq_false (by rw [h]; decide), Bool.false_and]
      decide
  have hmode1 : ¬ (decide (op = opUnlock1) && decide ((s.die d).base < mDark)) = true := by
    simp only [Bool.and_eq_true, decide_eq_true_eq, not_and, Nat.not_lt]
    exact fun h => (h1 h).1
  have hmode2 : ¬ (decide (op = opUnlock2) && decide ((s.die d).base ≠ mDark)) = true := by
    simp only [Bool.and_eq_true, decide_eq_true_eq, not_and, not_not]
    exact fun h => (h2 h).1
  have hpw : ¬ (decide (op = opUnlock1) && s.eeprom.pw.isNone) = true := by
    simp only [Bool.and_eq_true, decide_eq_true_eq, not_and, Bool.not_eq_true, Option.isNone_eq_false_iff]
    exact fun h => (h1 h).2
  have hopen : ¬ (decide (op = opSetPw) && decide ((s.die d).svc.level ≠ 2)) = true := by
    simp only [Bool.and_eq_true, decide_eq_true_eq, not_and, not_not]
    exact h5
  unfold svcRefusal
  dsimp only
  rw [if_neg (by rw [hidle]; decide), if_neg (by rw [hdecl]; decide), if_neg hlo, if_neg hmode1, if_neg hmode2, if_neg hpw]
  split
  next hs => exact (if_pos hs).symm
  next hs =>
    have hnonce : ¬ (decide (op = opUnlock2) && !(s.die d).svc.nonceOk s.ticks) = true := by
      simp only [Bool.and_eq_true, decide_eq_true_eq, Bool.not_eq_true', not_and, Bool.not_eq_false]
      intro h
      refine (h2 h).2 ?_
      rw [h] at hs
      simpa [opUnlock2, Option.isSome_iff_ne_none] using hs
    rw [if_neg hnonce]
    exact (if_neg hs).symm

theorem exec_lockRow : ∀ o ∈ lockRows, o.1 ≠ 0 ∧ ∀ (d : DieId) (s : State), exec (o.2 d) s = doneBar d (svcStart o.1 d) s := by
  simp only [lockRows, List.forall_mem_cons]
  exact ⟨⟨by decide, fun _ _ => rfl⟩, ⟨by decide, fun _ _ => rfl⟩, ⟨by decide, fun _ _ => rfl⟩, ⟨by decide, fun _ _ => rfl⟩, fun _ h => absurd h (by simp)⟩

/-- What the unlock engine makes of an operation that it is free for. -/
theorem svcStart_free {s : State} {d : DieId} {op : Nat} (hr : (s.die d).running = true) (h : EngineFree s d op) :
    svcStart op d s = (s.onDie d (·.onSvc (Service.seen s.ticks))).onDie d (·.onSvc (fun v =>
      if (op = 2 || op = 3) && (Config.kDev d).isNone then { (v.cleared op) with result := 7 } else { v with busy := some (op, s.ticks) })) := by
  have hf := svcRefusal_free h
  split at hf
  next hs =>
    rw [svcStart_refused hr hf]
    simp only [hs, if_true]
    rfl
  next hs =>
    rw [svcStart_taken hr hf]
    simp only [hs]
    rfl

/-! ## The lock closes -/

/-- A lock that closes: an unlock that runs ends with LOCKED. -/
def Service.closed (v : Service) : Service :=
  let w : Service := match v.busy with
    | some (op, _) => if op = opUnlock1 || op = opUnlock2 then
        { v.cleared op with result := 8, busy := none, nonce := if op = opUnlock2 then none else v.nonce } else v
    | none => v
  { w with level := 0 }

theorem Service.cleared_lastAccess (v : Service) (op : Nat) : (v.cleared op).lastAccess = v.lastAccess := by
  unfold Service.cleared
  split_ifs <;> rfl

theorem Service.closed_level (v : Service) : v.closed.level = 0 := rfl

theorem Service.closed_lastAccess (v : Service) : v.closed.lastAccess = v.lastAccess := by
  unfold Service.closed
  dsimp only
  split
  · split
    · exact v.cleared_lastAccess _
    · rfl
  · rfl

theorem Die.core_svc (x : Die) : x.core.svc = x.svc := rfl

theorem clearForces_svc (x : Die) : (clearForces x).svc = x.svc := by
  rw [← Die.core_svc, (clearForces_keeps x).1, Die.core_svc]

theorem lockClose_svc (s : State) (leave : Bool) (e : DieId) : ((lockClose s leave).die e).svc = (s.die e).svc.closed := by
  unfold lockClose
  extract_lets was close s1 s2
  have hclose (x : Die) : (close x).svc = x.svc.closed := by
    unfold close
    dsimp only
    split
    · exact clearForces_svc _
    · rfl
  have h1 : (s1.die e).svc = (s.die e).svc.closed := by cases e <;> exact hclose _
  have h2 : (s2.die e).svc = (s1.die e).svc := ((KeepsCore.masterReset ..).trans (.masterReset ..)).die_svc e
  split
  · split
    · split
      · exact ((KeepsUnits.goDarkStart ..).die_svc e).trans (h2.trans h1)
      · exact h2.trans h1
    · exact h2.trans h1
  · exact h1

theorem OnlyRecords.mirrorLock (s : State) (d : DieId) : OnlyRecords s (mirrorLock s d) := .mirror s d _

theorem OnlyRecords.die_svc {s t : State} (h : OnlyRecords s t) (d : DieId) : (t.die d).svc = (s.die d).svc := h.die_eq d (·.svc) fun _ => rfl

/-- LOCK's answer to the peer. -/
def lockTold (s : State) : State := match s.declarer with | some e => mirrorLock s e | none => s

theorem lockTold_records (s : State) : OnlyRecords s (lockTold s) := by
  unfold lockTold
  split
  · exact .mirrorLock ..
  · exact .refl s

theorem svcLock_off {s : State} {d : DieId} (h : (s.die d).running = false) : svcLock d s = s := if_pos (by rw [h]; rfl)

theorem svcLock_closes {s : State} {d : DieId} (hr : (s.die d).running = true)
    (h : (s.die d).svc.busy = none ∨ (∃ a, (s.die d).svc.busy = some (1, a)) ∨ ∃ a, (s.die d).svc.busy = some (3, a)) :
    ∃ f : Service → Service, (∀ v, (f v).lastAccess = s.ticks) ∧ svcLock d s = lockTold (lockClose (s.onDie d (·.onSvc f)) true) := by
  unfold svcLock
  extract_lets x s1
  rw [if_neg (by rw [show x.running = true from hr]; decide)]
  obtain h | ⟨a, h⟩ | ⟨a, h⟩ := h
  · rw [show x.svc.busy = none from h]
    refine ⟨fun v => { Service.seen s.ticks v with result := svOk }, fun _ => rfl, ?_⟩
    exact congrArg (fun u => lockTold (lockClose u true)) (State.onDie_onDie ..)
  · rw [show x.svc.busy = some (1, a) from h]
    exact ⟨Service.seen s.ticks, fun _ => rfl, rfl⟩
  · rw [show x.svc.busy = some (3, a) from h]
    exact ⟨Service.seen s.ticks, fun _ => rfl, rfl⟩

theorem svcLock_closed {s : State} {d : DieId} (hr : (s.die d).running = true)
    (h : (s.die d).svc.busy = none ∨ (∃ a, (s.die d).svc.busy = some (1, a)) ∨ ∃ a, (s.die d).svc.busy = some (3, a)) :
    (∀ e, ((svcLock d s).die e).svc.level = 0) ∧ ((svcLock d s).die d).svc.lastAccess = s.ticks := by
  obtain ⟨f, hf, he⟩ := svcLock_closes hr h
  have hsvc (e : DieId) : ((svcLock d s).die e).svc = (((s.onDie d (·.onSvc f)).die e).svc).closed := by
    rw [he, (lockTold_records _).die_svc, lockClose_svc]
  refine ⟨fun e => by rw [hsvc, Service.closed_level], ?_⟩
  rw [hsvc, Service.closed_lastAccess, State.die_onDie_same]
  exact hf _

theorem svcLock_busy {s : State} {d : DieId} {op a : Nat} (hr : (s.die d).running = true) (h : (s.die d).svc.busy = some (op, a)) (ho : op = 2 ∨ op = 5) :
    svcLock d s = s.onDie d (·.onSvc (fun v => { v with lastAccess := s.ticks, result := 6 })) := by
  unfold svcLock
  extract_lets x s1
  rw [if_neg (by rw [show x.running = true from hr]; decide), show x.svc.busy = some (op, a) from h]
  dsimp only
  rw [if_neg (by obtain rfl | rfl := ho <;> decide)]
  exact State.onDie_onDie ..

/-! ## An operation ends -/

theorem svcDone_idle {s : State} {d : DieId} (r : BitVec 128) (h : (s.die d).svc.busy = none) : svcDone d r s = s := by
  unfold svcDone
  extract_lets x
  rw [show x.svc.busy = none from h]

theorem svcDone_challenge {s : State} {d : DieId} (r : BitVec 128) {a : Nat} (h : (s.die d).svc.busy = some (2, a)) :
    svcDone d r s = s.onDie d (·.onSvc (fun v => { v with busy := none, result := 0, nonce := some r, nonceAt := s.ticks })) := by
  unfold svcDone
  extract_lets x
  rw [show x.svc.busy = some (2, a) from h]
  rfl

/-- The lock after SET_PW at Level 2. -/
def Service.pwSet (v : Service) : Service := { (v.cleared opSetPw) with busy := none, result := if v.level = 2 then svOk else svNotOpen }

theorem svcDone_setPw {s : State} {d : DieId} (r : BitVec 128) {a : Nat} (h : (s.die d).svc.busy = some (5, a)) (hl : (s.die d).svc.level = 2) :
    svcDone d r s = { s.onDie d (·.onSvc Service.pwSet) with eeprom := { (s.onDie d (·.onSvc Service.pwSet)).eeprom with pw := some (Config.digest (s.die d).svc.pwNat) } } := by
  unfold svcDone
  extract_lets x
  rw [show x.svc.busy = some (5, a) from h]
  exact if_pos hl

/-- The lock after an unlock that was evaluated. -/
def Service.unlocked (op ticks : Nat) (pass : Bool) (v : Service) : Service :=
  let w := ({ (v.cleared op) with busy := none } : Service).judged op ticks pass
  { w with nonce := if op = opUnlock2 then none else w.nonce, lastAccess := ticks }

theorem svcDone_unlock1 {s : State} {d : DieId} (r : BitVec 128) {a : Nat} (h : (s.die d).svc.busy = some (1, a)) :
    svcDone d r s = mirrorLock (s.onDie d (·.onSvc (Service.unlocked 1 s.ticks (svcMatch s d 1)))) d := by
  unfold svcDone
  extract_lets x
  rw [show x.svc.busy = some (1, a) from h]
  dsimp only
  rw [if_neg (by decide), if_neg (by decide), if_neg (by rw [decide_eq_false (by decide), Bool.false_and]; decide),
    if_neg (by rw [decide_eq_false (p := (1 = opUnlock2)) (by decide), Bool.and_false, Bool.false_and]; decide)]
  rfl

theorem svcDone_unlock2 {s : State} {d : DieId} (r : BitVec 128) {a : Nat} (h : (s.die d).svc.busy = some (3, a)) (hb : (s.die d).base = mDark)
    (ht : (s.die d).trans = .none) : svcDone d r s = mirrorLock (if svcMatch s d 3 then serviceEnter (s.onDie d (·.onSvc (Service.unlocked 3 s.ticks (svcMatch s d 3)))) d
      else s.onDie d (·.onSvc (Service.unlocked 3 s.ticks (svcMatch s d 3)))) d := by
  unfold svcDone
  extract_lets x
  rw [show x.svc.busy = some (3, a) from h]
  dsimp only
  rw [if_neg (by decide), if_neg (by decide), if_neg (by rw [decide_eq_false (p := x.base ≠ mDark) (not_not.2 hb), Bool.and_false]; decide),
    decide_eq_true (show x.trans = .none from ht), decide_eq_true (p := (3 = opUnlock2)) rfl, Bool.and_true, Bool.and_true]
  rfl

theorem Service.unlocked1 (v : Service) (ticks : Nat) (pass : Bool) : let w := v.unlocked 1 ticks pass
    (pass = true → w.level = max v.level 1 ∧ w.result = 0 ∧ w.fails = 0) ∧
    (pass = false → w.level = v.level ∧ w.result = 1 ∧ w.fails = v.fails + 1 ∧ (8 ≤ v.fails + 1 → w.lockout = some (ticks + 86400 * secT))) ∧
    w.busy = none ∧ w.pw = List.replicate 16 0 := by
  cases pass with
  | true => exact ⟨fun _ => ⟨rfl, rfl, rfl⟩, fun h => absurd h (by decide), rfl, rfl⟩
  | false => exact ⟨fun h => absurd h (by decide), fun _ => ⟨rfl, rfl, rfl, fun h => if_pos h⟩, rfl, rfl⟩

theorem Service.unlocked2 (v : Service) (ticks : Nat) (pass : Bool) : let w := v.unlocked 3 ticks pass
    w.nonce = none ∧ w.busy = none ∧ w.resp = List.replicate 32 0 ∧
    (pass = true → w.level = max v.level 2 ∧ w.result = 0) ∧ (pass = false → w.level = v.level ∧ w.result = 1 ∧ w.fails = v.fails + 1) := by
  cases pass with
  | true => exact ⟨rfl, rfl, rfl, fun _ => ⟨rfl, rfl⟩, fun h => absurd h (by decide)⟩
  | false => exact ⟨rfl, rfl, rfl, fun h => absurd h (by decide), fun _ => ⟨rfl, rfl, rfl⟩⟩

theorem serviceEnter_spec (s : State) (d : DieId) : ((serviceEnter s d).die d).svc = (s.die d).svc ∧ ((serviceEnter s d).die d).base = mService := by
  unfold serviceEnter
  have hm (u : State) : OnlyRecords u (mirrorDealer u d) := .mirrorDealer u d
  refine ⟨((hm _).die_svc d).trans ?_, ((hm _).base d).trans ?_⟩
  · rw [State.die_onDie_same]
    exact setBase_die_eq s d d mService (·.svc) fun _ => rfl
  · rw [State.die_onDie_same]
    exact setBase_base s d (by decide)

theorem svcDone_setPw_answers {s : State} {d : DieId} (r : BitVec 128) {a : Nat} (h : (s.die d).svc.busy = some (5, a)) (hl : (s.die d).svc.level = 2) :
    Answers (.svcOperationDone d r) s (fun t => t.eeprom.pw = some (Config.digest (s.die d).svc.pwNat) ∧ (t.die d).svc.result = 0 ∧
      (t.die d).svc.busy = none ∧ (t.die d).svc.pw = List.replicate 16 0) := by
  refine .of_done (congrArg done (svcDone_setPw r h hl)) fun t ht => ?_
  have hsvc : (t.die d).svc = (s.die d).svc.pwSet := (ht.die_svc d).trans (by cases d <;> rfl)
  have hee : t.eeprom.pw = some (Config.digest (s.die d).svc.pwNat) := (congrArg (fun u => u.eeprom.pw) ht.quiet :)
  rw [hsvc]
  exact ⟨hee, if_pos hl, rfl, rfl⟩

theorem svcDone_unlock1_answers {s : State} {d : DieId} (r : BitVec 128) {a : Nat} (h : (s.die d).svc.busy = some (1, a)) :
    let pass := s.eeprom.pw == some (Config.digest (s.die d).svc.pwNat)
    Answers (.svcOperationDone d r) s (fun t => let v := (t.die d).svc
      (pass = true → v.level = max (s.die d).svc.level 1 ∧ v.result = 0 ∧ v.fails = 0) ∧
      (pass = false → v.level = (s.die d).svc.level ∧ v.result = 1 ∧ v.fails = (s.die d).svc.fails + 1 ∧
        (8 ≤ (s.die d).svc.fails + 1 → v.lockout = some (s.ticks + 86400 * secT))) ∧
      v.busy = none ∧ v.pw = List.replicate 16 0 ∧ (t.die d).base = (s.die d).base) := by
  intro pass
  refine .of_done (congrArg done (svcDone_unlock1 r h)) fun t ht => ?_
  have hr := (OnlyRecords.mirrorLock (s.onDie d (·.onSvc (Service.unlocked 1 s.ticks (svcMatch s d 1)))) d).trans ht
  have hsvc : (t.die d).svc = (s.die d).svc.unlocked 1 s.ticks pass := (hr.die_svc d).trans (by rw [State.die_onDie_same]; rfl)
  have hbase : (t.die d).base = (s.die d).base := (hr.base d).trans (by rw [State.die_onDie_same]; rfl)
  obtain ⟨hp, hf, hb, hw⟩ := Service.unlocked1 (s.die d).svc s.ticks pass
  intro v
  rw [show v = _ from hsvc]
  exact ⟨hp, hf, hb, hw, hbase⟩

theorem svcDone_unlock2_answers {s : State} {d : DieId} (r : BitVec 128) {a : Nat} (h : (s.die d).svc.busy = some (3, a)) (hb : (s.die d).base = mDark)
    (ht : (s.die d).trans = .none) : Answers (.svcOperationDone d r) s (fun t => let v := (t.die d).svc
      v.nonce = none ∧ v.busy = none ∧ v.resp = List.replicate 32 0 ∧
      (svcMatch s d 3 = true → v.level = max (s.die d).svc.level 2 ∧ v.result = 0 ∧ (t.die d).base = mService) ∧
      (svcMatch s d 3 = false → v.level = (s.die d).svc.level ∧ v.result = 1 ∧ v.fails = (s.die d).svc.fails + 1 ∧ (t.die d).base = mDark)) := by
  refine .of_done (congrArg done (svcDone_unlock2 r h hb ht)) fun t htr => ?_
  obtain ⟨hn, hbu, hre, hp, hf⟩ := Service.unlocked2 (s.die d).svc s.ticks (svcMatch s d 3)
  have hd : (s.onDie d (·.onSvc (Service.unlocked 3 s.ticks (svcMatch s d 3)))).die d = (s.die d).onSvc (Service.unlocked 3 s.ticks (svcMatch s d 3)) :=
    State.die_onDie_same ..
  generalize hu : s.onDie d (·.onSvc (Service.unlocked 3 s.ticks (svcMatch s d 3))) = u at hd htr
  obtain ⟨hes, heb⟩ := serviceEnter_spec u d
  have hr := (OnlyRecords.mirrorLock (if svcMatch s d 3 then serviceEnter u d else u) d).trans htr
  have hsvc : (t.die d).svc = (s.die d).svc.unlocked 3 s.ticks (svcMatch s d 3) := by
    rw [hr.die_svc d]
    split
    · rw [hes, hd]; rfl
    · rw [hd]; rfl
  intro v
  rw [show v = _ from hsvc]
  refine ⟨hn, hbu, hre, fun hm => ?_, fun hm => ?_⟩
  · obtain ⟨h1, h2⟩ := hp hm
    exact ⟨h1, h2, by rw [hr.base d, if_pos hm, heb]⟩
  · obtain ⟨h1, h2, h3⟩ := hf hm
    refine ⟨h1, h2, h3, ?_⟩
    rw [hr.base d, if_neg (by rw [hm]; decide), hd]
    exact hb

/-! ## Times -/

theorem nonceExpiry_early {s : State} {d : DieId} (h : (s.die d).svc.nonce = none ∨ s.ticks - (s.die d).svc.nonceAt < 60 * secT) : nonceExpiry d s = s := by
  refine if_neg ?_
  unfold Service.nonceOk
  obtain h | h := h
  · rw [h, Option.isSome_none, Bool.false_and]
    decide
  · rw [decide_eq_true h, Bool.and_true, Bool.and_not_self]
    decide

theorem nonceExpiry_due {s : State} {d : DieId} (h : (s.die d).svc.nonce.isSome = true) (ht : 60 * secT ≤ s.ticks - (s.die d).svc.nonceAt) :
    nonceExpiry d s = s.onDie d (·.onSvc (fun v => { v with nonce := none })) := by
  refine if_pos ?_
  unfold Service.nonceOk
  rw [h, decide_eq_false (Nat.not_lt.2 ht)]
  rfl

theorem lockoutEnd_early {s : State} {d : DieId} (h : ∀ u, (s.die d).svc.lockout = some u → s.ticks < u) : lockoutEnd d s = s := by
  unfold lockoutEnd
  split
  · rfl
  next u hu => exact if_pos (h u hu)

theorem lockoutEnd_due {s : State} {d : DieId} {u : Nat} (h : (s.die d).svc.lockout = some u) (ht : u ≤ s.ticks) :
    lockoutEnd d s = mirrorLock (s.onDie d (·.onSvc (fun v => { v with lockout := none, fails := 0 }))) d := by
  unfold lockoutEnd
  rw [h]
  exact if_neg (Nat.not_lt.2 ht)

theorem svcInactive_early {s : State} {d : DieId} (hd : s.declarer = some d)
    (h : (s.die d).svc.level = 0 ∨ s.ticks - max s.cd0.svc.lastAccess s.cd1.svc.lastAccess < (s.die d).svcTimeout) : svcInactive s = s := by
  unfold svcInactive
  rw [hd]
  exact if_pos (by simpa using h)

theorem svcInactive_due {s : State} {d : DieId} (hd : s.declarer = some d) (hl : (s.die d).svc.level ≠ 0)
    (ht : (s.die d).svcTimeout ≤ s.ticks - max s.cd0.svc.lastAccess s.cd1.svc.lastAccess) : svcInactive s = mirrorLock (lockClose s true) d := by
  unfold svcInactive
  rw [hd]
  exact if_neg (by simpa [not_or] using ⟨hl, ht⟩)

/-! ## The service path -/

/-- What a command of the service path does on a die that no reset holds. -/
def servicePathOn (d : DieId) (c : ServiceCmd) (s : State) : State :=
  let x := s.die d
  let s1 := s.onDie d (·.onSvc (Service.seen s.ticks))
  let answer (need : Nat) (b : List Byte) : State := if need ≤ x.svc.level then s1.emit (.service d b) else s1
  match c with
  | .identification => s1.drawn.emit (.service d (leBytes 4 s1.free))
  | .boundaryScan => if 1 ≤ x.svc.level then s1.drawn.emit (.service d (leBytes 4 s1.free)) else s1
  | .readRegister f o => answer 1 (leBytes 4 (viewWord s d (regKey f.val o.toNat)))
  | .readRecordStore o => answer 1 (memRead s.store (o.toNat / 4 * 4) 4)
  | .readAlwaysOn o => answer 1 (leBytes 4 (viewWord s d (regKey 0 o.toNat)))
  | .unlock1 pw => svcPath d opUnlock1 (fun v => { v with pw := leBytes 16 pw.toNat }) s1
  | .challenge => svcPath d opChallenge id s1
  | .unlock2 resp => svcPath d opUnlock2 (fun v => { v with resp := leBytes 32 resp.toNat }) s1
  | .lock => svcLock d s1
  | .setPw pw => svcPath d opSetPw (fun v => { v with pw := leBytes 16 pw.toNat }) s1
  | .flashProgram a data => if x.svc.level = 2 && decide (a + data.length ≤ 0x800000) then s1.setFlash d (memWrite (s1.flash d) a data) else s1

theorem servicePath_held {s : State} {d : DieId} {k a : Nat} (c : ServiceCmd) (h : (s.die d).life = .held k a) : servicePath d c s = s := by
  unfold servicePath
  extract_lets x off s1 answer
  exact if_pos (by unfold off; rw [show x.life = .held k a from h])

theorem servicePath_on {s : State} {d : DieId} (c : ServiceCmd) (h : ∀ k a, (s.die d).life ≠ .held k a) : servicePath d c s = servicePathOn d c s := by
  unfold servicePath
  extract_lets x off s1 answer
  have hoff : off = false := by
    unfold off
    split
    next k a hk => exact absurd hk (h k a)
    · rfl
  rw [if_neg (by rw [hoff]; decide)]
  cases c <;> rfl

/-- The state in which the service path has noted an access. -/
def State.svcSeen (s : State) (d : DieId) : State := s.onDie d (·.onSvc (Service.seen s.ticks))

theorem svcSeen_svc (s : State) (d : DieId) : ((s.svcSeen d).die d).svc = (s.die d).svc.seen s.ticks := by
  rw [State.svcSeen, State.die_onDie_same]
  rfl

theorem svcSeen_running (s : State) (d : DieId) : ((s.svcSeen d).die d).running = (s.die d).running := by
  rw [State.svcSeen, State.die_onDie_same]
  rfl

theorem svcPath_off {s : State} {d : DieId} {put : Service → Service} (op : Nat) (hr : (s.die d).running = false)
    (h : (s.die d).svc.busy.isSome = true ∨ ∀ v, put v = v) : svcPath d op put s = s := by
  have hs : (if (s.die d).svc.busy.isSome then s else s.onDie d (·.onSvc put)) = s := by
    obtain h | h := h
    · exact if_pos h
    · rw [onDie_unchanged s d (f := (·.onSvc put)) (congrArg (fun v => ({ s.die d with svc := v } : Die)) (h _)), ite_self]
  unfold svcPath
  rw [hs]
  exact svcStart_off op hr

theorem Service.seen_of {v : Service} {ticks : Nat} (h : v.lastAccess = ticks) : v.seen ticks = v := by
  subst h
  rfl

/-- A secret is put beside what the unlock engine judges by. -/
structure Puts (put : Service → Service) : Prop where
  judge : ∀ v : Service, v.SameJudge (put v)
  access : ∀ v : Service, (put v).lastAccess = v.lastAccess

/-- The access that an operation notes has been noted already. -/
theorem Die.svcTaken_eq (x : Die) {put : Service → Service} (hput : Puts put) (ticks op : Nat) :
    (((x.onSvc (Service.seen ticks)).onSvc put).onSvc (Service.seen ticks)).onSvc (fun v => { v with busy := some (op, ticks) }) =
      (x.onSvc (Service.seen ticks)).onSvc (fun v => { put v with busy := some (op, ticks) }) := by
  have hseen : (put (x.svc.seen ticks)).seen ticks = put (x.svc.seen ticks) := Service.seen_of (hput.access _)
  unfold Die.onSvc
  dsimp only
  rw [hseen]

theorem svcPath_taken {s : State} {d : DieId} {op : Nat} {put : Service → Service} (hr : (s.die d).running = true) (hput : Puts put)
    (hb : (s.die d).svc.busy = none) (h : svcRefusal s d op = none) :
    svcPath d op put (s.svcSeen d) = (s.svcSeen d).onDie d (·.onSvc (fun v => { put v with busy := some (op, s.ticks) })) := by
  have href : svcRefusal ((s.svcSeen d).onDie d (·.onSvc put)) d op = none :=
    (svcRefusal_onSvc _ d op hput.judge).trans ((svcRefusal_onSvc s d op (Service.seen_judge s.ticks)).trans h)
  have hbusy : ((s.svcSeen d).die d).svc.busy.isSome = false := by
    rw [svcSeen_svc]
    exact Option.isSome_eq_false_iff.2 (Option.isNone_iff_eq_none.2 hb)
  have hrun : (((s.svcSeen d).onDie d (·.onSvc put)).die d).running = true := by
    rw [State.die_onDie_same]
    exact (svcSeen_running s d).trans hr
  unfold svcPath
  rw [hbusy]
  refine (svcStart_taken hrun href).trans ?_
  rw [State.onDie_ticks, State.svcSeen, State.onDie_ticks, State.onDie_onDie, State.onDie_onDie, State.onDie_onDie, State.onDie_onDie]
  exact congrArg (s.onDie d) (funext fun x => x.svcTaken_eq hput s.ticks op)

theorem puts_pw (l : List Byte) : Puts (fun v => { v with pw := l }) := ⟨fun _ => ⟨rfl, rfl, rfl, rfl, rfl⟩, fun _ => rfl⟩
theorem puts_resp (l : List Byte) : Puts (fun v => { v with resp := l }) := ⟨fun _ => ⟨rfl, rfl, rfl, rfl, rfl⟩, fun _ => rfl⟩
theorem puts_nothing : Puts id := ⟨fun _ => ⟨rfl, rfl, rfl, rfl, rfl⟩, fun _ => rfl⟩

theorem flash_onDie (s : State) (d e : DieId) (f : Die → Die) : (s.onDie e f).flash d = s.flash d := by cases d <;> cases e <;> rfl

/-- An answer of the service path from a level on. -/
def State.svcAnswer (s : State) (d : DieId) (b : List Byte) : State := if 1 ≤ (s.die d).svc.level then (s.svcSeen d).emit (.service d b) else s.svcSeen d

theorem svcAnswer_open {s : State} {d : DieId} (b : List Byte) (h : 1 ≤ (s.die d).svc.level) : s.svcAnswer d b = (s.svcSeen d).emit (.service d b) := if_pos h
theorem svcAnswer_shut {s : State} {d : DieId} (b : List Byte) (h : (s.die d).svc.level = 0) : s.svcAnswer d b = s.svcSeen d := if_neg (by rw [h]; decide)

theorem servicePathOn_store (d : DieId) (o : BitVec 15) (s : State) :
    servicePathOn d (.readRecordStore o) s = s.svcAnswer d (memRead s.store (o.toNat / 4 * 4) 4) := by
  unfold servicePathOn State.svcAnswer
  rfl

theorem servicePathOn_register (d : DieId) (f : Fin 4) (o : BitVec 16) (s : State) :
    servicePathOn d (.readRegister f o) s = s.svcAnswer d (leBytes 4 (viewWord s d (regKey f o.toNat))) := by
  unfold servicePathOn State.svcAnswer
  rfl

theorem servicePathOn_alwaysOn (d : DieId) (o : BitVec 16) (s : State) :
    servicePathOn d (.readAlwaysOn o) s = s.svcAnswer d (leBytes 4 (viewWord s d (regKey 0 o.toNat))) := by
  unfold servicePathOn State.svcAnswer
  rfl

theorem servicePathOn_scan (d : DieId) (s : State) : servicePathOn d .boundaryScan s =
    if 1 ≤ (s.die d).svc.level then (s.svcSeen d).drawn.emit (.service d (leBytes 4 (s.svcSeen d).free)) else s.svcSeen d := rfl

section Path
variable {s : State} {d : DieId} (hon : ∀ k a, (s.die d).life ≠ .held k a)
include hon

theorem servicePath_makes {c : ServiceCmd} {u : State} (h : servicePathOn d c s = u) : Makes (.servicePathCommand d c) s u :=
  .of_done (congrArg done ((servicePath_on c hon).trans h))

theorem servicePath_level0 (h : (s.die d).svc.level = 0) (f : Fin 4) (o : BitVec 15) (a b : BitVec 16) :
    ∀ c ∈ [ServiceCmd.readRecordStore o, .readRegister f a, .readAlwaysOn b, .boundaryScan], Makes (.servicePathCommand d c) s (s.svcSeen d) := by
  have hn : ¬ 1 ≤ (s.die d).svc.level := by rw [h]; decide
  simp only [List.forall_mem_cons]
  exact ⟨servicePath_makes hon ((servicePathOn_store d o s).trans (svcAnswer_shut _ h)), servicePath_makes hon ((servicePathOn_register d f a s).trans (svcAnswer_shut _ h)),
    servicePath_makes hon ((servicePathOn_alwaysOn d b s).trans (svcAnswer_shut _ h)), servicePath_makes hon ((servicePathOn_scan d s).trans (if_neg hn)),
    fun _ h => absurd h List.not_mem_nil⟩

theorem servicePath_answered {c : ServiceCmd} (h : c = .identification ∨ (c = .boundaryScan ∧ 1 ≤ (s.die d).svc.level)) :
    Answers (.servicePathCommand d c) s (fun t => ∃ w : Nat, Out.service d (leBytes 4 w) ∈ t.out ∧ ∀ e, (t.die e).svc.level = (s.die e).svc.level) := by
  have hrow : servicePathOn d c s = (s.svcSeen d).drawn.emit (.service d (leBytes 4 (s.svcSeen d).free)) := by
    obtain rfl | ⟨rfl, hl⟩ := h
    · rfl
    · exact (servicePathOn_scan d s).trans (if_pos hl)
  refine .of_done (congrArg done ((servicePath_on c hon).trans hrow)) fun t ht => ⟨(s.svcSeen d).free, ht.out.subset ?_, fun e => ?_⟩
  · rw [State.emit_out]
    exact List.mem_append_right _ (List.mem_singleton.2 rfl)
  · rw [ht.die_svc, State.die_emit, State.die_drawn]
    exact die_onDie_keeps (·.svc.level) (f := (·.onSvc (Service.seen s.ticks))) (fun _ => rfl) s d e

theorem servicePath_off (hr : (s.die d).running = false) (p : BitVec 128) (q : BitVec 256) : ∀ c ∈ [ServiceCmd.challenge, .lock],
    Makes (.servicePathCommand d c) s (s.svcSeen d) ∧ ((s.die d).svc.busy.isSome = true → Makes (.servicePathCommand d (.unlock1 p)) s (s.svcSeen d) ∧
      Makes (.servicePathCommand d (.unlock2 q)) s (s.svcSeen d) ∧ Makes (.servicePathCommand d (.setPw p)) s (s.svcSeen d)) := by
  have hr1 : ((s.svcSeen d).die d).running = false := (svcSeen_running s d).trans hr
  have hbusy (hb : (s.die d).svc.busy.isSome = true) : ((s.svcSeen d).die d).svc.busy.isSome = true := by
    rw [svcSeen_svc]
    exact hb
  have hsecret (hb : (s.die d).svc.busy.isSome = true) : Makes (.servicePathCommand d (.unlock1 p)) s (s.svcSeen d) ∧
      Makes (.servicePathCommand d (.unlock2 q)) s (s.svcSeen d) ∧ Makes (.servicePathCommand d (.setPw p)) s (s.svcSeen d) :=
    ⟨servicePath_makes hon (svcPath_off _ hr1 (.inl (hbusy hb))), servicePath_makes hon (svcPath_off _ hr1 (.inl (hbusy hb))),
      servicePath_makes hon (svcPath_off _ hr1 (.inl (hbusy hb)))⟩
  simp only [List.forall_mem_cons]
  exact ⟨⟨servicePath_makes hon (svcPath_off _ hr1 (.inr fun _ => rfl)), hsecret⟩, ⟨servicePath_makes hon (svcLock_off hr1), hsecret⟩,
    fun _ h => absurd h List.not_mem_nil⟩

theorem servicePath_lock (hr : (s.die d).running = true) (hb : (s.die d).svc.busy = none) :
    Answers (.servicePathCommand d .lock) s (fun t => (t.die d).svc.level = 0 ∧ (t.die d.peer).svc.level = 0) := by
  obtain ⟨hlevel, -⟩ := svcLock_closed (s := s.svcSeen d) ((svcSeen_running s d).trans hr) (.inl (by rw [svcSeen_svc]; exact hb))
  refine .of_done (congrArg done ((servicePath_on .lock hon).trans (rfl : _ = svcLock d (s.svcSeen d)))) fun t ht => ?_
  rw [ht.die_svc, ht.die_svc]
  exact ⟨hlevel d, hlevel d.peer⟩

end Path

/-! ## The statement -/

theorem lock_rows (o : Nat × (DieId → Instr)) (ho : o ∈ lockRows) (d : DieId) (s : State) : let x := s.die d
    let s1 := s.onDie d (fun x => x.onSvc (fun v => { v with lastAccess := s.ticks }))
    (x.barOpen = false → Makes (o.2 d) s s) ∧
    (x.barOpen = true →
      (x.svc.busy.isSome = true → Makes (o.2 d) s (s1.onDie d (fun x => x.onSvc (fun v => { v with result := 6 })))) ∧
      (x.svc.busy = none → x.isDecl = false → Makes (o.2 d) s (s1.onDie d (fun x => x.onSvc (fun v => { (v.cleared o.1) with result := 5 })))) ∧
      (x.svc.busy = none → x.isDecl = true → x.svc.lockout.isSome = true → o.1 ≠ 5 →
        Makes (o.2 d) s (s1.onDie d (fun x => x.onSvc (fun v => { (v.cleared o.1) with result := 2 })))) ∧
      (x.svc.busy = none → x.isDecl = true → (x.svc.lockout = none ∨ o.1 = 5) → (o.1 = 1 → mDark ≤ x.base ∧ s.eeprom.pw.isSome = true) →
        (o.1 = 3 → x.base = mDark ∧ ((Config.kDev d).isSome = true → x.svc.nonceOk s.ticks = true)) → (o.1 = 5 → x.svc.level = 2) →
        Makes (o.2 d) s (s1.onDie d (fun x => x.onSvc (fun v =>
          if (o.1 = 2 || o.1 = 3) && (Config.kDev d).isNone then { (v.cleared o.1) with result := 7 } else { v with busy := some (o.1, s.ticks) }))))) := by
  intro x s1
  obtain ⟨-, he⟩ := exec_lockRow o ho
  refine ⟨fun hb => .of_doneBar_shut hb (he d s), fun hb => ?_⟩
  have hr : (s.die d).running = true := Die.running_of_barOpen hb
  have hrow {u : State} (h : svcStart o.1 d s = u) : Makes (o.2 d) s u := .of_done ((exec_of_doneBar hb (he d s)).trans (congrArg done h))
  exact ⟨fun h => hrow (svcStart_refused hr (svcRefusal_busy _ h)), fun h hd => hrow (svcStart_refused hr (svcRefusal_notDecl _ h hd)),
    fun h hd hl h5 => hrow (svcStart_refused hr (svcRefusal_lockedOut h hd hl h5)),
    fun h hd hl h1 h3 h5 => hrow (svcStart_free hr ⟨h, hd, hl, h1, h3, h5⟩)⟩

theorem lock_answers (d : DieId) (s : State) : let x := s.die d
    (x.barOpen = false → Makes (.lock d) s s) ∧
    (x.barOpen = true → x.svc.busy = none ∨ (∃ a, x.svc.busy = some (1, a)) ∨ (∃ a, x.svc.busy = some (3, a)) → Answers (.lock d) s (fun t =>
      (t.die d).svc.level = 0 ∧ (t.die d.peer).svc.level = 0 ∧ (t.die d).svc.lastAccess = s.ticks)) ∧
    (∀ a, x.barOpen = true → x.svc.busy = some (2, a) ∨ x.svc.busy = some (5, a) →
      Makes (.lock d) s (s.onDie d (fun x => x.onSvc (fun v => { v with lastAccess := s.ticks, result := 6 })))) := by
  intro x
  refine ⟨fun hb => .of_doneBar_shut (f := svcLock d) hb rfl, fun hb h => ?_, fun a hb h => ?_⟩
  · obtain ⟨hlevel, haccess⟩ := svcLock_closed (Die.running_of_barOpen hb) h
    refine .of_doneBar (f := svcLock d) hb rfl fun t ht => ?_
    rw [ht.die_svc, ht.die_svc]
    exact ⟨hlevel d, hlevel d.peer, haccess⟩
  · have hrow : svcLock d s = _ := h.elim (fun h => svcLock_busy (Die.running_of_barOpen hb) h (.inl rfl)) fun h => svcLock_busy (Die.running_of_barOpen hb) h (.inr rfl)
    exact .of_done ((exec_of_doneBar (f := svcLock d) (c := .lock d) hb rfl).trans (congrArg done hrow))

theorem servicePath_starts {s : State} {d : DieId} (hon : ∀ k a, (s.die d).life ≠ .held k a) (hr : (s.die d).running = true)
    (hb : (s.die d).svc.busy = none) (hd : (s.die d).isDecl = true) (hl : (s.die d).svc.lockout = none) : let x := s.die d
    (∀ pw, mDark ≤ x.base → s.eeprom.pw.isSome = true → Makes (.servicePathCommand d (.unlock1 pw)) s ((s.svcSeen d).onDie d (fun x => x.onSvc (fun v =>
      { v with pw := leBytes 16 pw.toNat, busy := some (1, s.ticks) })))) ∧
    ((Config.kDev d).isSome = true → Makes (.servicePathCommand d .challenge) s ((s.svcSeen d).onDie d (fun x => x.onSvc (fun v =>
      { v with busy := some (2, s.ticks) })))) ∧
    (∀ r, (Config.kDev d).isSome = true → x.base = mDark → x.svc.nonceOk s.ticks = true →
      Makes (.servicePathCommand d (.unlock2 r)) s ((s.svcSeen d).onDie d (fun x => x.onSvc (fun v =>
        { v with resp := leBytes 32 r.toNat, busy := some (3, s.ticks) })))) ∧
    (∀ pw, x.svc.level = 2 → Makes (.servicePathCommand d (.setPw pw)) s ((s.svcSeen d).onDie d (fun x => x.onSvc (fun v =>
      { v with pw := leBytes 16 pw.toNat, busy := some (5, s.ticks) })))) := by
  have free {op : Nat} (h : EngineFree s d op) (hk : op = 2 ∨ op = 3 → (Config.kDev d).isSome = true) : svcRefusal s d op = none := by
    refine (svcRefusal_free h).trans (if_neg ?_)
    simp only [Bool.and_eq_true, Bool.or_eq_true, decide_eq_true_eq, not_and, Bool.not_eq_true, Option.isNone_eq_false_iff]
    exact hk
  have takes {c : ServiceCmd} {op : Nat} {put : Service → Service} (hc : servicePathOn d c s = svcPath d op put (s.svcSeen d)) (hp : Puts put)
      (h : svcRefusal s d op = none) : Makes (.servicePathCommand d c) s ((s.svcSeen d).onDie d (·.onSvc (fun v => { put v with busy := some (op, s.ticks) }))) :=
    servicePath_makes hon (hc.trans (svcPath_taken hr hp hb h))
  refine ⟨fun pw hbase hpw => ?_, fun hk => ?_, fun r hk hbase hn => ?_, fun pw hlevel => ?_⟩
  · exact takes rfl (puts_pw _) (free ⟨hb, hd, .inl hl, fun _ => ⟨hbase, hpw⟩, fun h => absurd h (by decide), fun h => absurd h (by decide)⟩ fun h => absurd h (by decide))
  · exact takes rfl puts_nothing (free ⟨hb, hd, .inl hl, fun h => absurd h (by decide), fun h => absurd h (by decide), fun h => absurd h (by decide)⟩ fun _ => hk)
  · exact takes rfl (puts_resp _) (free ⟨hb, hd, .inl hl, fun h => absurd h (by decide), fun _ => ⟨hbase, fun _ => hn⟩, fun h => absurd h (by decide)⟩ fun _ => hk)
  · exact takes rfl (puts_pw _) (free ⟨hb, hd, .inl hl, fun h => absurd h (by decide), fun h => absurd h (by decide), fun _ => hlevel⟩ fun h => absurd h (by decide))

theorem servicePathOn_flash (d : DieId) (n : Nat) (l : List Byte) (s : State) : servicePathOn d (.flashProgram n l) s =
    if (s.die d).svc.level = 2 && decide (n + l.length ≤ 0x800000) then (s.svcSeen d).setFlash d (memWrite (s.flash d) n l) else s.svcSeen d := by
  rw [← flash_onDie s d d (·.onSvc (Service.seen s.ticks))]
  rfl

/-- Settles O46: an operation is judged by what the lock holds as it arrives; closing the lock and the service path go through the same engine. -/
theorem unlockEngine : Obligations.UnlockEngine := by
  unfold Obligations.UnlockEngine
  refine ⟨⟨lock_rows, lock_answers⟩, fun d r s => ?_, fun s d hd => ⟨fun h => .of_row (f := svcInactive) rfl (svcInactive_early hd h), fun hl ht => ?_⟩⟩
  · intro x
    refine ⟨fun h => .of_row (f := svcDone d r) rfl (svcDone_idle r h), fun a h => .of_row (f := svcDone d r) rfl (svcDone_challenge r h),
      fun a h hl => svcDone_setPw_answers r h hl, fun a h => svcDone_unlock1_answers r h, fun a h hb ht => svcDone_unlock2_answers r h hb ht,
      fun h => .of_row (f := nonceExpiry d) rfl (nonceExpiry_early h), fun h ht => .of_row (f := nonceExpiry d) rfl (nonceExpiry_due h ht),
      fun h => .of_row (f := lockoutEnd d) rfl (lockoutEnd_early fun u hu => absurd (h.symm.trans hu) (by simp)), fun u hu => ⟨fun ht => ?_, fun ht => ?_⟩,
      fun c k a h => .of_row (f := servicePath d c) rfl (servicePath_held c h), fun hon => ?_⟩
    · exact .of_row (f := lockoutEnd d) rfl (lockoutEnd_early fun w hw => Option.some.inj (hu.symm.trans hw) ▸ ht)
    · refine .of_done (congrArg done (lockoutEnd_due hu ht)) fun t htr => ?_
      have hsvc := ((OnlyRecords.mirrorLock (s.onDie d (·.onSvc (fun v => { v with lockout := none, fails := 0 }))) d).trans htr).die_svc d
      rw [hsvc, State.die_onDie_same]
      exact ⟨rfl, rfl⟩
    · refine ⟨fun o h => servicePath_makes hon ((servicePathOn_store d o s).trans (svcAnswer_open _ h)),
        fun f o h => servicePath_makes hon ((servicePathOn_register d f o s).trans (svcAnswer_open _ h)),
        fun o h => servicePath_makes hon ((servicePathOn_alwaysOn d o s).trans (svcAnswer_open _ h)), fun h f o a b => servicePath_level0 hon h f o a b,
        fun c h => servicePath_answered hon h, fun hr p q => servicePath_off hon hr p q, fun hr hb hdecl hl => servicePath_starts hon hr hb hdecl hl,
        fun hr hb => servicePath_lock hon hr hb, fun n l h hn => servicePath_makes hon ((servicePathOn_flash d n l s).trans (if_pos ?_)),
        fun n l h _ => servicePath_makes hon ((servicePathOn_flash d n l s).trans (if_neg ?_))⟩
      · rw [decide_eq_true h, decide_eq_true hn]
        rfl
      · simp only [Bool.and_eq_true, decide_eq_true_eq]
        rintro ⟨h2, hn⟩
        exact h.elim (fun h => Nat.ne_of_lt h h2) fun h => Nat.not_le.2 h hn
  · refine .of_done (congrArg done (svcInactive_due hd hl ht)) fun t htr => ?_
    have hsvc (e : DieId) := ((OnlyRecords.mirrorLock (lockClose s true) d).trans htr).die_svc e
    rw [hsvc, hsvc, lockClose_svc, lockClose_svc]
    exact ⟨rfl, rfl⟩

end Sys2Proof.Machine
end

section
/-!
PROOFS. S-DUAL and S-BLACK telegrams and their timeouts (R453 to R457).
-/

namespace Sys2Proof.Machine

/-! ## Steps of dies in turn -/

/-- A relation of dies that steps keep. -/
structure DieFrame (R : Die → Die → Prop) : Prop where
  refl : ∀ x, R x x
  trans : ∀ {x y z}, R x y → R y z → R x z

/-- From s to t the die of u takes g, but for what the relation leaves open, and no time passes. -/
structure TakesOn (R : Die → Die → Prop) (s : State) (u : DieId) (g : Die → Die) (t : State) : Prop where
  self : R (g (s.die u)) (t.die u)
  other : ∀ e, e ≠ u → R (s.die e) (t.die e)
  ticks : t.ticks = s.ticks

/-- Both dies are as they were, but for what the relation leaves open, and no time passes. -/
structure KeepsBy (R : Die → Die → Prop) (s t : State) : Prop where
  die : ∀ e, R (s.die e) (t.die e)
  ticks : t.ticks = s.ticks

section Frames
variable {R : Die → Die → Prop} (hR : DieFrame R)
include hR

omit hR in
theorem TakesOn.of_keeps {s t : State} {u : DieId} {g : Die → Die} (h : KeepsBy R (s.onDie u g) t) : TakesOn R s u g t := by
  refine ⟨?_, fun e he => ?_, h.ticks.trans (State.onDie_ticks ..)⟩
  · have hd := h.die u
    rwa [State.die_onDie_same] at hd
  · have hd := h.die e
    rwa [State.die_onDie_other s he] at hd

omit hR in
theorem TakesOn.congr {s t : State} {u : DieId} {g h : Die → Die} (k : TakesOn R s u g t) (e : g (s.die u) = h (s.die u)) : TakesOn R s u h t :=
  ⟨e ▸ k.self, k.other, k.ticks⟩

theorem KeepsBy.trans {s t w : State} (h : KeepsBy R s t) (k : KeepsBy R t w) : KeepsBy R s w :=
  ⟨fun e => hR.trans (h.die e) (k.die e), k.ticks.trans h.ticks⟩

theorem KeepsBy.refl (s : State) : KeepsBy R s s := ⟨fun _ => hR.refl _, rfl⟩

theorem TakesOn.keeps {s t w : State} {u : DieId} {g : Die → Die} (h : TakesOn R s u g t) (k : KeepsBy R t w) : TakesOn R s u g w :=
  ⟨hR.trans h.self (k.die u), fun e he => hR.trans (h.other e he) (k.die e), k.ticks.trans h.ticks⟩

/-- Steps of different dies, each on its own. -/
theorem foldl_takes {s : State} (f : State → DieId → State) (g : DieId → Die → Die) (hf : ∀ t u, t.ticks = s.ticks → TakesOn R t u (g u) (f t u))
    (hg : ∀ u {x y}, R x y → R (g u x) (g u y)) (l : List DieId) (hn : l.Nodup) (t : State) (ht : t.ticks = s.ticks) :
    (∀ u, R (if u ∈ l then g u (t.die u) else t.die u) ((l.foldl f t).die u)) ∧ (l.foldl f t).ticks = s.ticks := by
  induction l generalizing t with
  | nil => exact ⟨fun u => by rw [if_neg (by simp)]; exact hR.refl _, ht⟩
  | cons v l ih =>
    obtain ⟨hv, hn⟩ := List.nodup_cons.1 hn
    have h1 := hf t v ht
    obtain ⟨h2, h3⟩ := ih hn (f t v) (h1.ticks.trans ht)
    refine ⟨fun u => ?_, h3⟩
    have hu := h2 u
    by_cases huv : u = v
    · subst huv
      rw [if_neg hv] at hu
      rw [if_pos List.mem_cons_self]
      exact hR.trans h1.self hu
    · have ho := h1.other u huv
      by_cases hl : u ∈ l
      · rw [if_pos hl] at hu
        rw [if_pos (List.mem_cons_of_mem _ hl)]
        exact hR.trans (hg u ho) hu
      · rw [if_neg hl] at hu
        rw [if_neg fun h => hl ((List.mem_cons.1 h).resolve_left huv)]
        exact hR.trans ho hu

/-- Two steps of one die. -/
theorem TakesOn.trans {s t w : State} {u : DieId} {g h : Die → Die} (k : TakesOn R s u g t) (l : TakesOn R t u h w) (hh : ∀ {x y}, R x y → R (h x) (h y)) :
    TakesOn R s u (h ∘ g) w :=
  ⟨hR.trans (hh k.self) l.self, fun e he => hR.trans (k.other e he) (l.other e he), l.ticks.trans k.ticks⟩

/-- What every unit that runs does, for a relation that keeps the life of a die. -/
theorem onUnits_takes (hlife : ∀ {x y}, R x y → y.life = x.life) {s : State} {f : State → DieId → State} {g : Die → Die}
    (hf : ∀ t u, t.ticks = s.ticks → TakesOn R t u g (f t u)) (hg : ∀ {x y}, R x y → R (g x) (g y)) :
    (∀ u, R (if unitOn s u then g (s.die u) else s.die u) ((onUnits s f).die u)) ∧ (onUnits s f).ticks = s.ticks := by
  have ho {x y : State} (u : DieId) (h : R (x.die u) (y.die u)) : unitOn y u = unitOn x u := by
    unfold unitOn
    rw [hlife h]
  have hgo (t : State) (u : DieId) (ht : t.ticks = s.ticks) :
      TakesOn R t u (fun x => if unitOn t u then g x else x) (if unitOn t u then f t u else t) := by
    cases unitOn t u
    · exact ⟨hR.refl _, fun _ _ => hR.refl _, rfl⟩
    · exact hf t u ht
  have h0 := hgo s .cd0 rfl
  have h1 := hgo _ .cd1 h0.ticks
  refine ⟨fun u => ?_, h1.ticks.trans h0.ticks⟩
  cases u with
  | cd0 => exact hR.trans h0.self (h1.other .cd0 (by decide))
  | cd1 =>
    have hc := h0.other .cd1 (by decide)
    refine hR.trans ?_ h1.self
    rw [ho .cd1 hc]
    cases unitOn s .cd1
    · exact hc
    · exact hg hc

end Frames

/-! ## S-DUAL of a unit -/

/-- From x to y a die keeps its life, its unit's S-DUAL and the Light Guard's configuration. -/
structure Die.SameSd (x y : Die) : Prop where
  life : y.life = x.life
  sd : y.lgd.sd = x.lgd.sd
  regs : ∀ k, guardKey k = true → y.reg k = x.reg k

theorem sameSd_frame : DieFrame Die.SameSd :=
  ⟨fun _ => ⟨rfl, rfl, fun _ _ => rfl⟩, fun h k => ⟨k.life.trans h.life, k.sd.trans h.sd, fun j hj => (k.regs j hj).trans (h.regs j hj)⟩⟩

abbrev KeepsSd : State → State → Prop := KeepsBy Die.SameSd

namespace KeepsSd
variable {s t u : State}

theorem of_guard (h : KeepsGuard s t) : KeepsSd s t := ⟨fun e => ⟨(h.die e).life, (h.die e).sd, (h.die e).regs⟩, h.ticks⟩

theorem onDie (s : State) (d : DieId) {f : Die → Die} (h : ∀ x, Die.SameSd x (f x)) : KeepsSd s (s.onDie d f) := by
  refine ⟨fun e => ?_, State.onDie_ticks ..⟩
  by_cases he : e = d
  · rw [he, State.die_onDie_same]; exact h _
  · rw [State.die_onDie_other s he]; exact sameSd_frame.refl _

theorem scanUnit (s : State) (u : DieId) : KeepsSd s (scanUnit s u) := by
  cases h : unitOn s u
  · rw [scanUnit_off h]; exact .refl sameSd_frame s
  · exact (onDie s u (f := scanned s.ticks) fun x => ⟨scanned_life .., scanned_sd .., fun k _ => scanned_reg ..⟩).trans sameSd_frame (of_guard (.scanUnit h))

theorem scanUnits (s : State) : KeepsSd s (scanUnits s) := (scanUnit s .cd0).trans sameSd_frame (scanUnit _ .cd1)

theorem estopChange (s : State) (u : DieId) (was : Bool) : KeepsSd s (estopChange s u was) := by
  refine (onDie s u (f := estopEnded was s.ticks) fun x => ?_).trans sameSd_frame (of_guard (.estopChange s u was))
  unfold estopEnded
  split <;> exact ⟨rfl, rfl, fun _ _ => rfl⟩

theorem zoneResets (s : State) (u : DieId) (bits : Nat) : KeepsSd s (zoneResets s u bits) := by
  have key (l : List Nat) (y : Die) : Die.SameSd y (l.foldl (resetZoneDie s.ticks bits) y) := by
    induction l generalizing y with
    | nil => exact sameSd_frame.refl y
    | cons z l ih => exact sameSd_frame.trans (y := resetZoneDie s.ticks bits y z) ⟨rfl, rfl, fun _ _ => rfl⟩ (ih _)
  rw [zoneResets_eq]
  refine onDie s u fun x => ?_
  have hx := key (List.range 4) x
  unfold resetDie
  generalize (List.range 4).foldl (resetZoneDie s.ticks bits) x = y at hx ⊢
  exact ⟨hx.life, hx.sd, hx.regs⟩

/-- The same die after two changes that agree but for what is left open. -/
theorem onDie_both (s : State) (u : DieId) {f g : Die → Die} (h : Die.SameSd (f (s.die u)) (g (s.die u))) : KeepsSd (s.onDie u f) (s.onDie u g) := by
  refine ⟨fun e => ?_, (State.onDie_ticks ..).trans (State.onDie_ticks ..).symm⟩
  by_cases he : e = u
  · rw [he, State.die_onDie_same, State.die_onDie_same]; exact h
  · rw [State.die_onDie_other s he, State.die_onDie_other s he]; exact sameSd_frame.refl _

end KeepsSd

/-- A change of a unit's S-DUAL on its die. -/
def Die.onSd (f : SDual → SDual) (x : Die) : Die := x.onLgd (·.onSd f)

theorem Die.SameSd.onSd {x y : Die} (h : x.SameSd y) (f : SDual → SDual) : (x.onSd f).SameSd (y.onSd f) := ⟨h.life, congrArg f h.sd, h.regs⟩

/-- S-DUAL in its safe state. -/
def SDual.madeSafe (d : SDual) : SDual := if d.safe then d else { d with safe := true, resetBits := 0, permitReq := 0 }

theorem sdSafe_takes (s : State) (u : DieId) : TakesOn Die.SameSd s u (Die.onSd SDual.madeSafe) (sdSafe s u) := by
  refine .of_keeps ?_
  unfold sdSafe
  split
  next h =>
    rw [onDie_unchanged s u (f := Die.onSd SDual.madeSafe) (onLgd_unchanged (by unfold Lgd.onSd SDual.madeSafe; rw [if_pos h]))]
    exact .refl sameSd_frame s
  next h =>
    rw [onDie_at s u (f := Die.onSd SDual.madeSafe) (g := (·.onLgd (·.onSd (fun d => { d with safe := true, resetBits := 0, permitReq := 0 }))))
      (onLgd_congr (by unfold Lgd.onSd SDual.madeSafe; rw [if_neg h]))]
    exact KeepsSd.of_guard (.safetyEvent ..)

/-- S-DUAL after an accepted telegram. -/
def SDual.accepted (ticks : Nat) (b : List Byte) (copies : Nat) (d : SDual) : SDual :=
  let leave := d.safe && copies = 3
  { d with safe := d.safe && !leave, seq := some (beAt b 4 2), bytes := b, lastAt := ticks, watchdog := beAt b 6 2, copies := copies,
           remoteOpen := bitsOf (beAt b 8 1) 3 0, resetBits := if d.safe && !leave then 0 else bitsOf (beAt b 9 1) 4 0,
           permitReq := if d.safe && !leave then 0 else beAt b 10 1, estop := bitOf (beAt b 11 1) 0 }

/-- Both copies are accepted, also in the safe state, which they end. -/
theorem SDual.accepted_both (ticks : Nat) (b : List Byte) (d : SDual) : (d.accepted ticks b 3).safe = false ∧ (d.accepted ticks b 3).permitReq = beAt b 10 1 := by
  unfold SDual.accepted
  cases d.safe <;> exact ⟨rfl, rfl⟩

/-- One copy alone does not end the safe state. -/
theorem SDual.accepted_single {copies : Nat} (h : copies ≠ 3) (ticks : Nat) (b : List Byte) (d : SDual) : (d.accepted ticks b copies).safe = d.safe := by
  unfold SDual.accepted
  simp [h]

theorem foldl_permits_sd {α : Type} {g : Lgd → α → Lgd} (h : ∀ l a, (g l a).sd = l.sd) (l : List α) (x : Lgd) : (l.foldl g x).sd = x.sd := by
  induction l generalizing x with
  | nil => rfl
  | cons a l ih => exact (ih _).trans (h x a)

theorem sdAccept_takes (s : State) (u : DieId) (b : List Byte) (copies : Nat) :
    TakesOn Die.SameSd s u (Die.onSd (SDual.accepted s.ticks b copies)) (sdAccept s u b copies) := by
  refine .of_keeps ?_
  unfold sdAccept
  extract_lets sd leave req rst edges s1 s2
  have h1 : KeepsSd (s.onDie u (Die.onSd (SDual.accepted s.ticks b copies))) s1 := by
    refine KeepsSd.onDie_both s u ⟨rfl, ?_, fun _ _ => rfl⟩
    refine foldl_permits_sd (fun l k => ?_) _ _
    split <;> rfl
  have h2 : KeepsSd s1 s2 := by
    unfold s2
    split
    · exact KeepsSd.of_guard (.safetyEvent ..)
    · exact .refl sameSd_frame s1
  exact (h1.trans sameSd_frame h2).trans sameSd_frame
    (((KeepsSd.estopChange ..).trans sameSd_frame (KeepsSd.scanUnit ..)).trans sameSd_frame (KeepsSd.zoneResets ..))

/-- Steps of dies in turn that change their units' S-DUAL. -/
theorem sdSteps {s : State} {f : State → DieId → State} {g : SDual → SDual} (hf : ∀ t u, t.ticks = s.ticks → TakesOn Die.SameSd t u (Die.onSd g) (f t u))
    {l : List DieId} (hn : l.Nodup) {t : State} (ht : t.ticks = s.ticks) :
    (∀ u ∈ l, ((t.die u).onSd g).SameSd ((l.foldl f t).die u)) ∧ (l.foldl f t).ticks = s.ticks := by
  obtain ⟨hd, hticks⟩ := foldl_takes sameSd_frame f (fun _ => Die.onSd g) hf (fun _ _ _ h => h.onSd g) l hn t ht
  refine ⟨fun u hu => ?_, hticks⟩
  have h := hd u
  rwa [if_pos hu] at h

theorem onSd_takes (s : State) (u : DieId) (g : SDual → SDual) : TakesOn Die.SameSd s u (Die.onSd g) (s.onDie u (Die.onSd g)) :=
  .of_keeps (.refl sameSd_frame _)

theorem sharers_nodup (s : State) (u : DieId) : (sharers s u).Nodup := by
  unfold sharers
  split <;> cases u <;> decide

/-! ## S_DUAL_CONTROL -/

/-- S-DUAL with where a copy came from. -/
def SDual.heard (rx : ZslRx) (d : SDual) : SDual := match rx.net with | .cd0 => { d with fromA := some rx.src } | .cd1 => { d with fromB := some rx.src }

/-- S-DUAL without the copies of a telegram that waited. -/
def SDual.cleared (seq : Nat) (d : SDual) : SDual := { d with waiting := d.waiting.filter (fun w => decide (beAt w.bytes 4 2 ≠ seq)) }

/-- S-DUAL with a copy that waits for its twin. -/
def SDual.waits (w : SdCopy) (d : SDual) : SDual := { d with waiting := d.waiting ++ [w] }

/-- A copy that the connection may take. -/
structure SdHeard (rx : ZslRx) (s : State) : Prop where
  on : unitOn s rx.net = true
  en : (s.die rx.net).sdEn = true
  kept : (s.die rx.net).rbit Reg.LGD_FORCE (if rx.net = .cd0 then F.LGD_FORCE_SD_DROP_A else F.LGD_FORCE_SD_DROP_B) = false

theorem sdControl_unheard {rx : ZslRx} {s : State} (h : unitOn s rx.net = false ∨ (s.die rx.net).sdEn = false ∨
    (s.die rx.net).rbit Reg.LGD_FORCE (if rx.net = .cd0 then F.LGD_FORCE_SD_DROP_A else F.LGD_FORCE_SD_DROP_B) = true) : sdControl rx s = s := by
  refine if_pos ?_
  simp only [Bool.or_eq_true, Bool.not_eq_true']
  tauto

/-- What a copy that is heard does. -/
def sdCopy (rx : ZslRx) (s : State) : State :=
  let u := rx.net
  let x := s.die u
  let seq := beAt rx.bytes 4 2
  let sd := x.lgd.sd
  if !zslOk rx.bytes 1 1 (x.rf Reg.LGD_SD_CFG F.LGD_SD_CFG_CONN) then raise s u 210
  else if sd.seq = some seq && sd.bytes = rx.bytes then s
  else if !zslAhead (if x.sdLapsed s.ticks then none else sd.seq) seq then raise s u 210
  else if sd.waiting.any (fun w => w.net == u && decide (w.bytes = rx.bytes)) then s
  else
    let us := sharers s u
    let s0 := us.foldl (fun s v => s.onDie v (Die.onSd (SDual.heard rx))) s
    let s1 := us.foldl (fun s v => s.onDie v (Die.onSd (SDual.cleared seq))) s0
    match sd.waiting.find? (fun w => w.net != u && decide (beAt w.bytes 4 2 = seq)) with
    | some w =>
      if w.bytes = rx.bytes then scanUnits (us.foldl (fun s v => sdAccept s v rx.bytes 3) s1)
      else scanUnits (us.foldl (fun s v => sdSafe (raise s v 207) v) s1)
    | none => us.foldl (fun s v => s.onDie v (Die.onSd (SDual.waits ⟨u, rx.bytes, s.ticks⟩))) s0

theorem sdControl_heard {rx : ZslRx} {s : State} (h : SdHeard rx s) : sdControl rx s = sdCopy rx s := by
  unfold sdControl
  extract_lets u x drop seq sd us all s0 clear
  rw [if_neg (by rw [show unitOn s u = true from h.on, show x.sdEn = true from h.en, show drop = false from h.kept]; decide)]
  rfl

/-- A copy that is judged: sound, not a duplicate, ahead, and not yet waiting from its network. -/
structure SdFresh (rx : ZslRx) (s : State) : Prop where
  ok : zslOk rx.bytes 1 1 ((s.die rx.net).rf Reg.LGD_SD_CFG F.LGD_SD_CFG_CONN) = true
  new : ¬ ((s.die rx.net).lgd.sd.seq = some (beAt rx.bytes 4 2) ∧ (s.die rx.net).lgd.sd.bytes = rx.bytes)
  ahead : zslAhead (if (s.die rx.net).sdLapsed s.ticks then none else (s.die rx.net).lgd.sd.seq) (beAt rx.bytes 4 2) = true
  single : ∀ w ∈ (s.die rx.net).lgd.sd.waiting, w.net = rx.net → w.bytes ≠ rx.bytes

/-- The units that share a copy, with where it came from. -/
def sdHeardBy (rx : ZslRx) (s : State) : State := (sharers s rx.net).foldl (fun s v => s.onDie v (Die.onSd (SDual.heard rx))) s

/-- What a fresh copy does, by the twin that waits for it. -/
def sdTwin (rx : ZslRx) (s : State) : Option SdCopy → State
  | some w =>
    let s1 := (sharers s rx.net).foldl (fun s v => s.onDie v (Die.onSd (SDual.cleared (beAt rx.bytes 4 2)))) (sdHeardBy rx s)
    if w.bytes = rx.bytes then scanUnits ((sharers s rx.net).foldl (fun s v => sdAccept s v rx.bytes 3) s1)
    else scanUnits ((sharers s rx.net).foldl (fun s v => sdSafe (raise s v 207) v) s1)
  | none => (sharers s rx.net).foldl (fun s v => s.onDie v (Die.onSd (SDual.waits ⟨rx.net, rx.bytes, s.ticks⟩))) (sdHeardBy rx s)

/-- The twin of a copy that waits. -/
def sdTwinOf (rx : ZslRx) (s : State) : Option SdCopy :=
  (s.die rx.net).lgd.sd.waiting.find? (fun w => w.net != rx.net && decide (beAt w.bytes 4 2 = beAt rx.bytes 4 2))

theorem sdCopy_fresh {rx : ZslRx} {s : State} (h : SdFresh rx s) : sdCopy rx s = sdTwin rx s (sdTwinOf rx s) := by
  have hw : (s.die rx.net).lgd.sd.waiting.any (fun w => w.net == rx.net && decide (w.bytes = rx.bytes)) = false := by
    simp only [List.any_eq_false, Bool.and_eq_true, beq_iff_eq, decide_eq_true_eq, not_and]
    exact h.single
  unfold sdCopy
  extract_lets u x seq sd us s0 s1
  rw [if_neg (by rw [show zslOk rx.bytes 1 1 (x.rf Reg.LGD_SD_CFG F.LGD_SD_CFG_CONN) = true from h.ok]; decide),
    if_neg (by simpa using h.new),
    if_neg (by rw [show zslAhead (if x.sdLapsed s.ticks then none else sd.seq) seq = true from h.ahead]; decide),
    if_neg (by rw [show sd.waiting.any (fun w => w.net == u && decide (w.bytes = rx.bytes)) = false from hw]; decide)]
  split
  next w he =>
    rw [show sdTwinOf rx s = some w from he]
    rfl
  next he =>
    rw [show sdTwinOf rx s = none from he]
    rfl

theorem sdControl_refused {rx : ZslRx} {s : State} (hh : SdHeard rx s)
    (h : zslOk rx.bytes 1 1 ((s.die rx.net).rf Reg.LGD_SD_CFG F.LGD_SD_CFG_CONN) = false) : Makes (.sDualControl rx) s s := by
  refine .intro (u := raise s rx.net 210) (congrArg done ((sdControl_heard hh).trans ?_)) (.raise s rx.net 210 0 (by decide))
  exact if_pos (by rw [h]; rfl)

theorem sdControl_stale {rx : ZslRx} {s : State} (hh : SdHeard rx s)
    (hok : zslOk rx.bytes 1 1 ((s.die rx.net).rf Reg.LGD_SD_CFG F.LGD_SD_CFG_CONN) = true)
    (h : ((s.die rx.net).lgd.sd.seq = some (beAt rx.bytes 4 2) ∧ (s.die rx.net).lgd.sd.bytes = rx.bytes) ∨
      zslAhead (if (s.die rx.net).sdLapsed s.ticks then none else (s.die rx.net).lgd.sd.seq) (beAt rx.bytes 4 2) = false ∨
      ∃ w ∈ (s.die rx.net).lgd.sd.waiting, w.net = rx.net ∧ w.bytes = rx.bytes) : Makes (.sDualControl rx) s s := by
  have hrow : OnlyRecords s (sdCopy rx s) := by
    unfold sdCopy
    extract_lets u x seq sd us s0 s1
    rw [if_neg (by rw [show zslOk rx.bytes 1 1 (x.rf Reg.LGD_SD_CFG F.LGD_SD_CFG_CONN) = true from hok]; decide)]
    generalize (if x.sdLapsed s.ticks then none else sd.seq) = prev at h ⊢
    split
    · exact .refl s
    next hd =>
      split
      · exact .raise s u 210 0 (by decide)
      next ha =>
        rw [if_pos ?_]
        · exact .refl s
        obtain h | h | ⟨w, hw, hn, hb⟩ := h
        · exact absurd (by simpa using h) hd
        · exact absurd (show (!zslAhead prev seq) = true by rw [h]; rfl) ha
        · exact List.any_eq_true.2 ⟨w, hw, by simp [hn, hb, u]⟩
  exact .intro (congrArg done (sdControl_heard hh)) hrow

theorem sdHeardBy_sd (rx : ZslRx) (s : State) :
    (∀ v ∈ sharers s rx.net, ((s.die v).onSd (SDual.heard rx)).SameSd ((sdHeardBy rx s).die v)) ∧ (sdHeardBy rx s).ticks = s.ticks :=
  sdSteps (s := s) (fun t u _ => onSd_takes t u (SDual.heard rx)) (sharers_nodup s rx.net) rfl

theorem sdTwin_none {rx : ZslRx} {s : State} {v : DieId} (hv : v ∈ sharers s rx.net) :
    ((sdTwin rx s none).die v).lgd.sd = ((s.die v).lgd.sd.heard rx).waits ⟨rx.net, rx.bytes, s.ticks⟩ := by
  obtain ⟨h0, ht0⟩ := sdHeardBy_sd rx s
  obtain ⟨h1, -⟩ := sdSteps (s := s) (g := SDual.waits ⟨rx.net, rx.bytes, s.ticks⟩) (f := fun t v => t.onDie v (Die.onSd (SDual.waits ⟨rx.net, rx.bytes, t.ticks⟩)))
    (fun t u ht => ht ▸ onSd_takes t u _) (sharers_nodup s rx.net) ht0
  exact (sameSd_frame.trans ((h0 v hv).onSd _) (h1 v hv)).sd

/-- The twins are judged by f, which changes S-DUAL by g, at each unit that shares them. -/
theorem sdTwin_judged {rx : ZslRx} {s : State} {f : State → DieId → State} {g : SDual → SDual}
    (hf : ∀ t u, t.ticks = s.ticks → TakesOn Die.SameSd t u (Die.onSd g) (f t u)) {v : DieId} (hv : v ∈ sharers s rx.net) :
    ((scanUnits ((sharers s rx.net).foldl f ((sharers s rx.net).foldl (fun s v => s.onDie v (Die.onSd (SDual.cleared (beAt rx.bytes 4 2))))
      (sdHeardBy rx s)))).die v).lgd.sd = g (((s.die v).lgd.sd.heard rx).cleared (beAt rx.bytes 4 2)) := by
  obtain ⟨h0, ht0⟩ := sdHeardBy_sd rx s
  obtain ⟨h1, ht1⟩ := sdSteps (s := s) (fun t u _ => onSd_takes t u (SDual.cleared (beAt rx.bytes 4 2))) (sharers_nodup s rx.net) ht0
  obtain ⟨h2, -⟩ := sdSteps hf (sharers_nodup s rx.net) ht1
  have h01 := sameSd_frame.trans ((h0 v hv).onSd _) (h1 v hv)
  exact (sameSd_frame.trans (sameSd_frame.trans (h01.onSd g) (h2 v hv)) ((KeepsSd.scanUnits _).die v)).sd

theorem sdTwin_equal {rx : ZslRx} {s : State} {w : SdCopy} (hw : w.bytes = rx.bytes) {v : DieId} (hv : v ∈ sharers s rx.net) :
    ((sdTwin rx s (some w)).die v).lgd.sd = ((((s.die v).lgd.sd.heard rx).cleared (beAt rx.bytes 4 2)).accepted s.ticks rx.bytes 3) := by
  rw [show sdTwin rx s (some w) = _ from if_pos hw]
  exact sdTwin_judged (fun t u ht => ht ▸ sdAccept_takes t u rx.bytes 3) hv

theorem raisedSafe_takes (s : State) (u : DieId) {src : Nat} (h : src < 256) : TakesOn Die.SameSd s u (Die.onSd SDual.madeSafe) (sdSafe (raise s u src) u) := by
  have hr : KeepsSd s (raise s u src) := KeepsSd.of_guard (.raise s u h 0)
  have hs := sdSafe_takes (raise s u src) u
  exact ⟨sameSd_frame.trans ((hr.die u).onSd _) hs.self, fun e he => sameSd_frame.trans (hr.die e) (hs.other e he), hs.ticks.trans hr.ticks⟩

theorem sdTwin_unequal {rx : ZslRx} {s : State} {w : SdCopy} (hw : w.bytes ≠ rx.bytes) {v : DieId} (hv : v ∈ sharers s rx.net) :
    ((sdTwin rx s (some w)).die v).lgd.sd = (((s.die v).lgd.sd.heard rx).cleared (beAt rx.bytes 4 2)).madeSafe := by
  rw [show sdTwin rx s (some w) = _ from if_neg hw]
  exact sdTwin_judged (fun t u _ => raisedSafe_takes t u (by decide)) hv

theorem sdControl_judged {rx : ZslRx} {s : State} (hh : SdHeard rx s) (hf : SdFresh rx s) {P : State → Prop}
    (hP : ∀ t, (∀ v, (t.die v).lgd.sd = ((sdTwin rx s (sdTwinOf rx s)).die v).lgd.sd) → P t) : Answers (.sDualControl rx) s P :=
  .of_done (congrArg done ((sdControl_heard hh).trans (sdCopy_fresh hf))) fun t ht => hP t fun v => ((KeepsGuard.of_records ht).die v).sd

@[simp] theorem SDual.heard_waiting (rx : ZslRx) (d : SDual) : (d.heard rx).waiting = d.waiting := by unfold SDual.heard; split <;> rfl
@[simp] theorem SDual.heard_seq (rx : ZslRx) (d : SDual) : (d.heard rx).seq = d.seq := by unfold SDual.heard; split <;> rfl
@[simp] theorem SDual.heard_safe (rx : ZslRx) (d : SDual) : (d.heard rx).safe = d.safe := by unfold SDual.heard; split <;> rfl
@[simp] theorem SDual.heard_permitReq (rx : ZslRx) (d : SDual) : (d.heard rx).permitReq = d.permitReq := by unfold SDual.heard; split <;> rfl

@[simp] theorem SDual.madeSafe_safe (d : SDual) : d.madeSafe.safe = true := by
  unfold SDual.madeSafe
  split
  · assumption
  · rfl

@[simp] theorem SDual.madeSafe_seq (d : SDual) : d.madeSafe.seq = d.seq := by unfold SDual.madeSafe; split <;> rfl
@[simp] theorem SDual.madeSafe_waiting (d : SDual) : d.madeSafe.waiting = d.waiting := by unfold SDual.madeSafe; split <;> rfl

theorem SDual.madeSafe_clears {d : SDual} (h : d.safe = false) : d.madeSafe.permitReq = 0 ∧ d.madeSafe.resetBits = 0 := by
  unfold SDual.madeSafe
  rw [if_neg (by rw [h]; decide)]
  exact ⟨rfl, rfl⟩

/-! ## The copies without a twin, the watchdog and STATUS -/

/-- S-DUAL when a copy has had no twin. -/
def SDual.missed (ticks : Nat) (single : Bool) (d : SDual) (w : SdCopy) : SDual :=
  let d1 := { d with waiting := d.waiting.filter (fun v => decide (v ≠ w)) }
  if single then d1.madeSafe else d1.accepted ticks w.bytes (if w.net = .cd0 then 1 else 2)

/-- The rule for a single copy of a unit. -/
def Die.sdSingle (x : Die) : Bool := x.rbit Reg.LGD_SD_CFG F.LGD_SD_CFG_SINGLE_SAFE

theorem Die.SameSd.rf {x y : Die} (h : x.SameSd y) {k : Nat} (hk : guardKey k = true) (f : Fld) : y.rf k f = x.rf k f := congrArg (fget f) (h.regs k hk)

theorem Die.SameSd.single {x y : Die} (h : x.SameSd y) : y.sdSingle = x.sdSingle := congrArg (· != 0) (h.rf (by decide) _)

/-- A unit without the copies that have waited too long. -/
def Die.sdMissed (ticks : Nat) (x : Die) : Die :=
  x.onSd (fun d => (x.lgd.sd.waiting.filter (fun w => decide (10 * msT < ticks - w.at_))).foldl (SDual.missed ticks x.sdSingle) d)

/-- What a unit does with a copy without a twin. -/
def sdLone (u : DieId) (s : State) (w : SdCopy) : State :=
  let s1 := raise (s.onDie u (·.onLgd (·.onSd (fun d => { d with waiting := d.waiting.filter (fun v => decide (v ≠ w)) })))) u 208
  if (s1.die u).rbit Reg.LGD_SD_CFG F.LGD_SD_CFG_SINGLE_SAFE then sdSafe s1 u else sdAccept s1 u w.bytes (if w.net = .cd0 then 1 else 2)

theorem sdLone_takes (s : State) (u : DieId) (w : SdCopy) {b : Bool} (hb : (s.die u).sdSingle = b) :
    TakesOn Die.SameSd s u (Die.onSd (SDual.missed s.ticks b · w)) (sdLone u s w) := by
  have h1 : TakesOn Die.SameSd s u (Die.onSd (fun d => { d with waiting := d.waiting.filter (fun v => decide (v ≠ w)) }))
      (raise (s.onDie u (Die.onSd (fun d => { d with waiting := d.waiting.filter (fun v => decide (v ≠ w)) }))) u 208) :=
    .of_keeps (KeepsSd.of_guard (.raise _ u (by decide) 0))
  unfold sdLone
  extract_lets s1
  have hb1 : (s1.die u).sdSingle = b := h1.self.single.trans hb
  cases b with
  | true =>
    rw [if_pos (show (s1.die u).rbit Reg.LGD_SD_CFG F.LGD_SD_CFG_SINGLE_SAFE = true from hb1)]
    exact h1.trans sameSd_frame (sdSafe_takes s1 u) fun h => h.onSd _
  | false =>
    rw [if_neg (show ¬ (s1.die u).rbit Reg.LGD_SD_CFG F.LGD_SD_CFG_SINGLE_SAFE = true by rw [show (s1.die u).rbit Reg.LGD_SD_CFG F.LGD_SD_CFG_SINGLE_SAFE = false from hb1]; decide)]
    refine h1.trans sameSd_frame (?_ : TakesOn Die.SameSd s1 u (Die.onSd (SDual.accepted s.ticks w.bytes _)) _) fun h => h.onSd _
    rw [← show s1.ticks = s.ticks from h1.ticks]
    exact sdAccept_takes s1 u w.bytes _

theorem sdLones_takes (u : DieId) {b : Bool} (l : List SdCopy) (s : State) (hb : (s.die u).sdSingle = b) :
    TakesOn Die.SameSd s u (Die.onSd (fun d => l.foldl (SDual.missed s.ticks b) d)) (l.foldl (sdLone u) s) := by
  induction l generalizing s with
  | nil => exact ⟨sameSd_frame.refl _, fun _ _ => sameSd_frame.refl _, rfl⟩
  | cons w l ih =>
    have h1 := sdLone_takes s u w hb
    have h2 := ih (sdLone u s w) (h1.self.single.trans hb)
    rw [h1.ticks] at h2
    exact h1.trans sameSd_frame h2 fun h => h.onSd _

theorem Die.SameSd.missed {x y : Die} (h : x.SameSd y) (ticks : Nat) : (x.sdMissed ticks).SameSd (y.sdMissed ticks) := by
  unfold Die.sdMissed
  rw [h.sd, h.single]
  exact h.onSd _

theorem sdMissing_sd (s : State) (u : DieId) : ((sdMissing s).die u).lgd.sd = (if unitOn s u then (s.die u).sdMissed s.ticks else s.die u).lgd.sd := by
  obtain ⟨h, -⟩ := onUnits_takes sameSd_frame (fun h => h.life) (s := s) (g := Die.sdMissed s.ticks)
    (f := fun t u => ((t.die u).lgd.sd.waiting.filter (fun w => decide (10 * msT < t.ticks - w.at_))).foldl (sdLone u) t)
    (fun t u ht => ht ▸ (sdLones_takes u _ t rfl).congr rfl) (fun h => h.missed _)
  exact (sameSd_frame.trans (h u) ((KeepsSd.scanUnits _).die u)).sd

/-- A unit after its watchdog. -/
def Die.sdTimed (ticks : Nat) (x : Die) : Die := if x.sdEn && x.sdLapsed ticks then x.onSd SDual.madeSafe else x

theorem Die.SameSd.timed {x y : Die} (h : x.SameSd y) (ticks : Nat) : (x.sdTimed ticks).SameSd (y.sdTimed ticks) := by
  have he : y.sdEn = x.sdEn := congrArg (· != 0) (h.rf (by decide) _)
  have hl : y.sdLapsed ticks = x.sdLapsed ticks := by
    have hw : y.sdWd = x.sdWd := congrArg (clampNat 1 1000) (h.rf (k := Reg.LGD_SD_CFG) (by decide) _)
    unfold Die.sdLapsed
    rw [h.sd, hw]
  unfold Die.sdTimed
  rw [he, hl]
  split
  · exact h.onSd _
  · exact h

/-- What a unit does at its watchdog. -/
def sdLate (s : State) (u : DieId) : State :=
  if (s.die u).sdEn && !(s.die u).lgd.sd.safe && (s.die u).sdLapsed s.ticks then sdSafe (raise s u 209) u else s

theorem SDual.madeSafe_of_safe {d : SDual} (h : d.safe = true) : d.madeSafe = d := if_pos h

theorem sdLate_takes (s : State) (u : DieId) : TakesOn Die.SameSd s u (Die.sdTimed s.ticks) (sdLate s u) := by
  have hself : TakesOn Die.SameSd s u id s := ⟨sameSd_frame.refl _, fun _ _ => sameSd_frame.refl _, rfl⟩
  unfold sdLate
  by_cases hlate : ((s.die u).sdEn && (s.die u).sdLapsed s.ticks) = true
  · have hdie : (s.die u).sdTimed s.ticks = (s.die u).onSd SDual.madeSafe := if_pos hlate
    obtain ⟨hen, hlapsed⟩ := Bool.and_eq_true_iff.1 hlate
    rw [hen, hlapsed]
    cases hs : (s.die u).lgd.sd.safe
    · exact (raisedSafe_takes s u (by decide)).congr hdie.symm
    · refine hself.congr (Eq.symm (hdie.trans (onLgd_unchanged ?_)))
      unfold Lgd.onSd
      rw [SDual.madeSafe_of_safe hs]
  · rw [if_neg fun h => hlate ?_]
    · exact hself.congr (if_neg hlate).symm
    · simp only [Bool.and_eq_true] at h ⊢
      exact ⟨h.1.1, h.2⟩

theorem sdTimeout_sd (s : State) (u : DieId) : ((sdTimeout s).die u).lgd.sd = (if unitOn s u then (s.die u).sdTimed s.ticks else s.die u).lgd.sd := by
  obtain ⟨h, -⟩ := onUnits_takes sameSd_frame (fun h => h.life) (s := s) (g := Die.sdTimed s.ticks) (f := sdLate)
    (fun t u ht => ht ▸ sdLate_takes t u) (fun h => h.timed _)
  exact (sameSd_frame.trans (h u) ((KeepsSd.scanUnits _).die u)).sd

/-- A unit that has sent its STATUS. -/
def Die.sdSent (seq : Nat) (x : Die) : Die := if x.sdEn then x.onSd (fun d => { d with txSeq := (seq + 1) % 65536 }) else x

theorem Die.SameSd.sent {x y : Die} (h : x.SameSd y) (seq : Nat) : (x.sdSent seq).SameSd (y.sdSent seq) := by
  have he : y.sdEn = x.sdEn := congrArg (· != 0) (h.rf (by decide) _)
  unfold Die.sdSent
  rw [he]
  split
  · exact h.onSd _
  · exact h

/-- What a unit sends as its STATUS. -/
def sdTell (seq : Nat) (body : List Byte) (s : State) (u : DieId) : State :=
  let x := s.die u
  if !x.sdEn then s
  else
    let t := zslBytes 1 2 (x.rf Reg.LGD_SD_CFG F.LGD_SD_CFG_CONN) seq x.sdWd body
    let s1 := s.onDie u (·.onLgd (·.onSd (fun d => { d with txSeq := (seq + 1) % 65536 })))
    match (if u = .cd0 then x.lgd.sd.fromA else x.lgd.sd.fromB) with
    | some src => zslSend s1 u src.port.val (frameTo src (x.rf Reg.PRS_ETYPE F.PRS_ETYPE_ZSL) (x.rf Reg.PRS_UDPPORT F.PRS_UDPPORT_ZSL) t) t
    | none => s1

theorem sdTell_takes (seq : Nat) (body : List Byte) (s : State) (u : DieId) : TakesOn Die.SameSd s u (Die.sdSent seq) (sdTell seq body s u) := by
  unfold sdTell
  extract_lets x t s1
  cases he : x.sdEn
  · exact TakesOn.congr (g := id) ⟨sameSd_frame.refl _, fun _ _ => sameSd_frame.refl _, rfl⟩ (if_neg (by rw [show (s.die u).sdEn = false from he]; decide)).symm
  · have h1 : TakesOn Die.SameSd s u (Die.sdSent seq) s1 := (onSd_takes s u _).congr (if_pos he).symm
    rw [if_neg (by decide)]
    split
    · exact h1.keeps sameSd_frame (KeepsSd.of_guard (.zslSend ..))
    · exact h1

theorem sdStatusSend_sd (s : State) (u : DieId) : ((sdStatusSend s).die u).lgd.sd =
    (if unitOn s u then (s.die u).sdSent (max s.cd0.lgd.sd.txSeq s.cd1.lgd.sd.txSeq) else s.die u).lgd.sd := by
  obtain ⟨h, -⟩ := onUnits_takes sameSd_frame (fun h => h.life) (s := s) (g := Die.sdSent (max s.cd0.lgd.sd.txSeq s.cd1.lgd.sd.txSeq))
    (f := sdTell (max s.cd0.lgd.sd.txSeq s.cd1.lgd.sd.txSeq) (sdStatus s (s.declarer.getD .cd0))) (fun t u _ => sdTell_takes _ _ t u) (fun h => h.sent _)
  exact (h u).sd

/-! ## S-BLACK connections -/

/-- From x to y a die keeps its life and its unit. -/
structure Die.SameLgd (x y : Die) : Prop where
  life : y.life = x.life
  lgd : y.lgd = x.lgd

theorem sameLgd_frame : DieFrame Die.SameLgd := ⟨fun _ => ⟨rfl, rfl⟩, fun h k => ⟨k.life.trans h.life, k.lgd.trans h.lgd⟩⟩

abbrev KeepsLgd : State → State → Prop := KeepsBy Die.SameLgd

namespace KeepsLgd

theorem of_units {s t : State} (h : KeepsUnits s t) (ho : KeepsOuter s t) : KeepsLgd s t := ⟨fun e => ⟨h.die_life e, h.die_lgd e⟩, ho.ticks⟩

theorem of_records {s t : State} (h : OnlyRecords s t) : KeepsLgd s t := of_units (.of_records h) (.of_records h)

theorem foldl {α : Type} (g : State → α → State) (h : ∀ t a, KeepsLgd t (g t a)) (l : List α) (s : State) : KeepsLgd s (l.foldl g s) := by
  induction l generalizing s with
  | nil => exact .refl sameLgd_frame s
  | cons a l ih => exact (h s a).trans sameLgd_frame (ih _)

theorem safetyEvent (s : State) (u : DieId) (kind idx who : Nat) : KeepsLgd s (safetyEvent s u kind idx who) := by
  unfold Machine.safetyEvent
  split
  · exact of_records (.event ..)
  · exact .refl sameLgd_frame s

theorem zslSend (s : State) (u : DieId) (port : Nat) (frame telegram : List Byte) : KeepsLgd s (zslSend s u port frame telegram) := by
  unfold Machine.zslSend
  split
  · exact (of_records (.emit ..)).trans sameLgd_frame (of_units (.of_core (.egress ..)) (.egress ..))
  · exact .refl sameLgd_frame s

theorem sendGates (s : State) (u : DieId) (kind : Nat) (g : Nat → BitVec 128) : KeepsLgd s (sendGates s u kind g) := by
  refine foldl _ (fun t b => ?_) _ s
  split
  · exact of_records (.emit ..)
  · exact .refl sameLgd_frame t

theorem released (s : State) (u : DieId) (g : Nat → BitVec 128) : KeepsLgd s (if unitOn s u then sendRelease s u g else s) := by
  unfold sendRelease
  split
  · split
    · exact sendGates ..
    · exact .refl sameLgd_frame s
  · exact .refl sameLgd_frame s

theorem releaseGates (s : State) (g : Nat → BitVec 128) : KeepsLgd s (releaseGates s g) := by
  unfold Machine.releaseGates
  extract_lets free s1
  have h1 : KeepsLgd s s1 := (released s .cd0 (free .cd0)).trans sameLgd_frame (released _ .cd1 (free .cd1))
  split
  · exact h1
  · split
    · exact h1.trans sameLgd_frame (foldl _ (fun t b => foldl _ (fun t i => of_units (.of_steady (.driveOut ..)) (.driveOut ..)) _ t) _ s1)
    · exact h1

end KeepsLgd

/-- A change of one connection of a die's unit. -/
def Die.onConn (c : Nat) (f : Conn → Conn) (x : Die) : Die := x.onLgd (fun l => l.setConn c (f (x.lgd.conn c)))

@[simp] theorem conn_onConn (x : Die) (c : Nat) (f : Conn → Conn) : (x.onConn c f).lgd.conn c = f (x.lgd.conn c) := spGet_set_same ..

theorem Die.SameLgd.conn {x y : Die} (h : x.SameLgd y) (c : Nat) : y.lgd.conn c = x.lgd.conn c := by rw [h.lgd]

theorem Die.SameLgd.onConn {x y : Die} (h : x.SameLgd y) (c : Nat) (f : Conn → Conn) : (x.onConn c f).SameLgd (y.onConn c f) := by
  refine ⟨h.life, ?_⟩
  show y.lgd.setConn c (f (y.lgd.conn c)) = x.lgd.setConn c (f (x.lgd.conn c))
  rw [h.lgd]

theorem Die.SameLgd.connShut {x y : Die} (h : x.SameLgd y) (k : Conn) : y.connShut k = x.connShut k := by unfold Die.connShut; rw [h.lgd]

theorem onConn_takes (s : State) (u : DieId) (c : Nat) (f : Conn → Conn) : TakesOn Die.SameLgd s u (Die.onConn c f) (s.onDie u (Die.onConn c f)) :=
  .of_keeps (.refl sameLgd_frame _)

theorem onConn_takes_at {s : State} {u : DieId} {c : Nat} {f : Conn → Conn} {k : Conn} (e : f ((s.die u).lgd.conn c) = k) :
    TakesOn Die.SameLgd s u (Die.onConn c f) (s.onDie u (·.onLgd (fun l => l.setConn c k))) := by
  rw [← onDie_at s u (f := Die.onConn c f) (g := (·.onLgd (fun l => l.setConn c k))) (by rw [← e]; rfl)]
  exact onConn_takes s u c f

theorem takes_nothing {s : State} {u : DieId} {g : Die → Die} (h : g (s.die u) = s.die u) : TakesOn Die.SameLgd s u g s :=
  TakesOn.congr (g := id) ⟨sameLgd_frame.refl _, fun _ _ => sameLgd_frame.refl _, rfl⟩ h.symm

/-- A connection whose STATE has been sent. -/
def Conn.sent (shut : Bool) (seq ticks : Nat) (k : Conn) : Conn :=
  { k with shut := shut, txSeq := (seq + 1) % 65536, state := if k.state = 0 then 1 else k.state, lastAt := if k.state = 0 then ticks else k.lastAt }

/-- A unit that has sent the STATE of a connection. -/
def Die.stateSent (c seq ticks : Nat) (x : Die) : Die :=
  if connEn (x.lgd.conn c) then x.onConn c (Conn.sent (x.connShut (x.lgd.conn c)) seq ticks) else x

theorem Die.SameLgd.stateSent {x y : Die} (h : x.SameLgd y) (c seq ticks : Nat) : (x.stateSent c seq ticks).SameLgd (y.stateSent c seq ticks) := by
  unfold Die.stateSent
  rw [h.conn]
  split
  · rw [h.connShut]
    exact h.onConn c _
  · exact h

/-- What a unit sends as the STATE of a connection. -/
def tellState (c seq : Nat) (s : State) (u : DieId) : State :=
  let x := s.die u
  let k := x.lgd.conn c
  if !connEn k then s
  else
    let shut := x.connShut k
    let net := if u = .cd0 then F.LGD_CONN_CFG_NET_A else F.LGD_CONN_CFG_NET_B
    let port := fget (if u = .cd0 then F.LGD_CONN_CFG_CPORT_A else F.LGD_CONN_CFG_CPORT_B) k.cfg.toNat
    let t := zslBytes 2 0x11 (fget F.LGD_CONN_ID_CONN_ID k.id.toNat) seq (connWd k) (leBytes 1 (b2n shut + 2 * b2n x.lgd.eTripped))
    let s1 := s.onDie u (·.onLgd (fun l => l.setConn c { k with
      shut := shut, txSeq := (seq + 1) % 65536, state := if k.state = 0 then 1 else k.state, lastAt := if k.state = 0 then s.ticks else k.lastAt }))
    if fget net k.cfg.toNat = 1 then zslSend s1 u port (connFrame x u port k t) t else s1

theorem tellState_takes (c seq : Nat) (s : State) (u : DieId) : TakesOn Die.SameLgd s u (Die.stateSent c seq s.ticks) (tellState c seq s u) := by
  unfold tellState
  extract_lets x k shut net port t s1
  cases he : connEn k
  · exact takes_nothing (if_neg (by rw [show connEn ((s.die u).lgd.conn c) = false from he]; decide))
  · have h1 : TakesOn Die.SameLgd s u (Die.stateSent c seq s.ticks) s1 := (onConn_takes_at (f := Conn.sent shut seq s.ticks) rfl).congr (if_pos he).symm
    rw [if_neg (by decide)]
    split
    · exact h1.keeps sameLgd_frame (KeepsLgd.zslSend ..)
    · exact h1

theorem sendState_lgd (s : State) (c : Nat) {u : DieId} (hu : unitOn s u = true) :
    ((sendState s c).die u).lgd = ((s.die u).stateSent c (max (s.cd0.lgd.conn c).txSeq (s.cd1.lgd.conn c).txSeq) s.ticks).lgd := by
  obtain ⟨h, -⟩ := onUnits_takes sameLgd_frame (fun h => h.life) (s := s) (f := tellState c (max (s.cd0.lgd.conn c).txSeq (s.cd1.lgd.conn c).txSeq))
    (fun t u ht => ht ▸ tellState_takes _ _ t u) (fun h => h.stateSent _ _ _)
  have hd := h u
  rw [if_pos hu] at hd
  exact hd.lgd

/-- A connection that an accepted echo keeps up. -/
def Conn.echoed (seq ticks : Nat) (b : List Byte) (k : Conn) : Conn :=
  { k with state := 2, rxSeq := some seq, rxBytes := b, lastAt := ticks, watchdog := beAt b 6 2, inputShut := false }

/-- A unit takes an accepted echo of a connection. -/
def takeEcho (c seq : Nat) (b : List Byte) (s : State) (v : DieId) : State :=
  let k := (s.die v).lgd.conn c
  let s1 := s.onDie v (·.onLgd (fun l => l.setConn c (k.echoed seq s.ticks b)))
  if k.state = 2 then s1 else safetyEvent s1 v 9 c (unitBit v)

theorem takeEcho_takes (c seq : Nat) (b : List Byte) (s : State) (v : DieId) :
    TakesOn Die.SameLgd s v (Die.onConn c (Conn.echoed seq s.ticks b)) (takeEcho c seq b s v) := by
  unfold takeEcho
  extract_lets k s1
  have h1 : TakesOn Die.SameLgd s v (Die.onConn c (Conn.echoed seq s.ticks b)) s1 := onConn_takes_at rfl
  split
  · exact h1
  · exact h1.keeps sameLgd_frame (KeepsLgd.safetyEvent ..)

/-- An echo of a connection that its die hears. -/
structure EchoHeard (c : Nat) (rx : ZslRx) (s : State) : Prop where
  on : unitOn s rx.net = true
  en : connEn ((s.die rx.net).lgd.conn c) = true

/-- What an echo that is heard does. -/
def judgeEcho (c : Nat) (rx : ZslRx) (s : State) : State :=
  let u := rx.net
  let k := (s.die u).lgd.conn c
  let seq := beAt rx.bytes 4 2
  if !zslOk rx.bytes 2 0x14 (fget F.LGD_CONN_ID_CONN_ID k.id.toNat) then raise s u 210
  else if k.rxSeq = some seq && k.rxBytes = rx.bytes then s
  else if !zslAhead k.rxSeq seq then raise s u 210
  else
    let s1 := (sharers s u).foldl (takeEcho c seq rx.bytes) s
    if k.inputShut then releaseGates s1 (connGate k) else s1

theorem blackEcho_unheard {c : Nat} {rx : ZslRx} {s : State} (h : unitOn s rx.net = false ∨ connEn ((s.die rx.net).lgd.conn c) = false) : blackEcho c rx s = s := by
  refine if_pos ?_
  simp only [Bool.or_eq_true, Bool.not_eq_true']
  exact h

theorem blackEcho_heard {c : Nat} {rx : ZslRx} {s : State} (h : EchoHeard c rx s) : blackEcho c rx s = judgeEcho c rx s :=
  if_neg (by rw [h.on, h.en]; decide)

/-- A telegram that is not accepted makes nothing but records. -/
theorem judgeEcho_dropped {c : Nat} {rx : ZslRx} {s : State} (h : zslOk rx.bytes 2 0x14 (fget F.LGD_CONN_ID_CONN_ID ((s.die rx.net).lgd.conn c).id.toNat) = false ∨
    (((s.die rx.net).lgd.conn c).rxSeq = some (beAt rx.bytes 4 2) ∧ ((s.die rx.net).lgd.conn c).rxBytes = rx.bytes) ∨
    zslAhead ((s.die rx.net).lgd.conn c).rxSeq (beAt rx.bytes 4 2) = false) : OnlyRecords s (judgeEcho c rx s) := by
  unfold judgeEcho
  extract_lets u k seq s1
  split
  · exact .raise s u 210 0 (by decide)
  next hok =>
    split
    · exact .refl s
    next hd =>
      rw [if_pos]
      · exact .raise s u 210 0 (by decide)
      · obtain h | h | h := h
        · exact absurd (show (!zslOk rx.bytes 2 0x14 (fget F.LGD_CONN_ID_CONN_ID k.id.toNat)) = true by rw [h]; rfl) hok
        · exact absurd (by simpa using h) hd
        · rw [show zslAhead k.rxSeq seq = false from h]
          rfl

theorem judgeEcho_taken {c : Nat} {rx : ZslRx} {s : State} (hok : zslOk rx.bytes 2 0x14 (fget F.LGD_CONN_ID_CONN_ID ((s.die rx.net).lgd.conn c).id.toNat) = true)
    (hn : ((s.die rx.net).lgd.conn c).rxSeq ≠ some (beAt rx.bytes 4 2)) (ha : zslAhead ((s.die rx.net).lgd.conn c).rxSeq (beAt rx.bytes 4 2) = true) :
    ((judgeEcho c rx s).die rx.net).lgd.conn c = ((s.die rx.net).lgd.conn c).echoed (beAt rx.bytes 4 2) s.ticks rx.bytes := by
  obtain ⟨hd, -⟩ := foldl_takes sameLgd_frame (s := s) (takeEcho c (beAt rx.bytes 4 2) rx.bytes) (fun _ => Die.onConn c (Conn.echoed (beAt rx.bytes 4 2) s.ticks rx.bytes))
    (fun t u ht => ht ▸ takeEcho_takes c _ _ t u) (fun _ _ _ h => h.onConn c _) (sharers s rx.net) (sharers_nodup s rx.net) s rfl
  have hu := hd rx.net
  have hmem : rx.net ∈ sharers s rx.net := by unfold sharers; split <;> simp
  rw [if_pos hmem] at hu
  unfold judgeEcho
  extract_lets u k seq s1
  have h1 : (s1.die u).lgd.conn c = k.echoed seq s.ticks rx.bytes := (hu.conn c).trans (conn_onConn ..)
  rw [if_neg (by rw [show zslOk rx.bytes 2 0x14 (fget F.LGD_CONN_ID_CONN_ID k.id.toNat) = true from hok]; decide),
    if_neg (by simp [show ¬ k.rxSeq = some seq from hn]), if_neg (by rw [show zslAhead k.rxSeq seq = true from ha]; decide)]
  split
  · exact (((KeepsLgd.releaseGates s1 (connGate k)).die u).conn c).trans h1
  · exact h1

/-- The watchdog of a connection. -/
def Conn.limit (k : Conn) : Nat := if k.rxSeq.isNone then msT * connWd k else zslLimit k.watchdog (connWd k)

/-- A connection has lost its echoes. -/
def Conn.overdue (ticks : Nat) (k : Conn) : Bool := connEn k && (k.state = 1 || k.state = 2) && decide (k.limit < ticks - k.lastAt)

/-- A lost connection. -/
def Conn.lost (k : Conn) : Conn :=
  { k with state := 3, losses := satAdd 16 k.losses 1, rxSeq := none, inputShut := decide (fget F.LGD_CONN_CFG_PORT k.cfg.toNat < 512) }

/-- A connection after its watchdog. -/
def Conn.timed (ticks : Nat) (k : Conn) : Conn := if k.overdue ticks then k.lost else k

/-- What a unit does at the watchdog of a connection. -/
def loseConn (c : Nat) (s : State) (u : DieId) : State :=
  let k := (s.die u).lgd.conn c
  if k.overdue s.ticks then
    safetyEvent (raise (sendGates (s.onDie u (·.onLgd (fun l => l.setConn c k.lost))) u mShut (connGate k)) u 211) u 8 c (unitBit u)
  else s

/-- A unit after the watchdog of a connection. -/
def Die.connTimed (c ticks : Nat) (x : Die) : Die := if (x.lgd.conn c).overdue ticks then x.onConn c Conn.lost else x

theorem Die.SameLgd.connTimed {x y : Die} (h : x.SameLgd y) (c ticks : Nat) : (x.connTimed c ticks).SameLgd (y.connTimed c ticks) := by
  unfold Die.connTimed
  rw [h.conn]
  split
  · exact h.onConn c _
  · exact h

theorem loseConn_takes (c : Nat) (s : State) (u : DieId) : TakesOn Die.SameLgd s u (Die.connTimed c s.ticks) (loseConn c s u) := by
  unfold loseConn
  extract_lets k
  split
  next h =>
    have h1 : TakesOn Die.SameLgd s u (Die.connTimed c s.ticks) (s.onDie u (·.onLgd (fun l => l.setConn c k.lost))) := (onConn_takes_at rfl).congr (if_pos h).symm
    refine h1.keeps sameLgd_frame (((KeepsLgd.sendGates _ u mShut (connGate k)).trans sameLgd_frame ?_).trans sameLgd_frame (KeepsLgd.safetyEvent ..))
    exact KeepsLgd.of_records (.raise _ u 211 0 (by decide))
  next h => exact takes_nothing (if_neg h)

theorem blackTimeout_conn (c : Nat) (s : State) {u : DieId} (hu : unitOn s u = true) :
    ((blackTimeout c s).die u).lgd.conn c = ((s.die u).lgd.conn c).timed s.ticks := by
  obtain ⟨h, -⟩ := onUnits_takes sameLgd_frame (fun h => h.life) (s := s) (f := loseConn c) (fun t u ht => ht ▸ loseConn_takes c t u) (fun h => h.connTimed _ _)
  have hd := h u
  rw [if_pos hu] at hd
  refine (hd.conn c).trans ?_
  unfold Die.connTimed Conn.timed
  split
  · exact conn_onConn ..
  · rfl

/-! ## The statement -/

theorem sdMissing_answers {s : State} {P : State → Prop}
    (hP : ∀ t, (∀ u, (t.die u).lgd.sd = (if unitOn s u then (s.die u).sdMissed s.ticks else s.die u).lgd.sd) → P t) : Answers .sDualCopyMissing s P :=
  .of_done (u := sdMissing s) rfl fun t ht => hP t fun u => ((KeepsGuard.of_records ht).die u).sd.trans (sdMissing_sd s u)

theorem sdMissed_none {s : State} {u : DieId} (h : ∀ w ∈ (s.die u).lgd.sd.waiting, s.ticks - w.at_ ≤ 10 * msT) : (s.die u).sdMissed s.ticks = s.die u := by
  have hl : (s.die u).lgd.sd.waiting.filter (fun w => decide (10 * msT < s.ticks - w.at_)) = [] := by
    rw [List.filter_eq_nil_iff]
    intro w hw
    simpa using h w hw
  unfold Die.sdMissed
  rw [hl]
  rfl

theorem sdMissed_one {s : State} {u : DieId} {w : SdCopy} (hw : (s.die u).lgd.sd.waiting = [w]) (ht : 10 * msT < s.ticks - w.at_) :
    ((s.die u).sdMissed s.ticks).lgd.sd = SDual.missed s.ticks (s.die u).sdSingle (s.die u).lgd.sd w := by
  have hl : (s.die u).lgd.sd.waiting.filter (fun w => decide (10 * msT < s.ticks - w.at_)) = [w] := by simp [hw, ht]
  unfold Die.sdMissed
  rw [hl]
  rfl

/-- A single copy that did not get its twin. -/
theorem SDual.missed_last {d : SDual} {w : SdCopy} (hw : d.waiting = [w]) (ticks : Nat) (single : Bool) :
    let e := d.missed ticks single w
    e.waiting = [] ∧ (single = true → e.safe = true ∧ e.seq = d.seq) ∧
      (single = false → e.seq = some (beAt w.bytes 4 2) ∧ e.lastAt = ticks ∧ e.copies = (if w.net = .cd0 then 1 else 2) ∧ e.safe = d.safe) := by
  have hnil : d.waiting.filter (fun v => decide (v ≠ w)) = [] := by simp [hw]
  unfold SDual.missed
  rw [hnil]
  cases single with
  | true => exact ⟨SDual.madeSafe_waiting _, fun _ => ⟨SDual.madeSafe_safe _, SDual.madeSafe_seq _⟩, fun h => absurd h (by decide)⟩
  | false => exact ⟨rfl, fun h => absurd h (by decide), fun _ => ⟨rfl, rfl, rfl, SDual.accepted_single (by split <;> decide) ..⟩⟩

theorem sDualControl_rows (rx : ZslRx) (s : State) : let u := rx.net; let x := s.die u; let sd := x.lgd.sd; let seq := beAt rx.bytes 4 2
    let prev := if x.sdLapsed s.ticks then none else sd.seq; let dup := sd.seq = some seq ∧ sd.bytes = rx.bytes
    SdHeard rx s → zslOk rx.bytes 1 1 (x.rf Reg.LGD_SD_CFG F.LGD_SD_CFG_CONN) = true → ¬ dup → zslAhead prev seq = true →
      (∀ w ∈ sd.waiting, w.net = u → w.bytes ≠ rx.bytes) →
      ((∀ w ∈ sd.waiting, w.net ≠ u → beAt w.bytes 4 2 ≠ seq) → Answers (.sDualControl rx) s (fun t => ∀ v ∈ sharers s u,
        let e := (t.die v).lgd.sd; let o := (s.die v).lgd.sd
        e.waiting = o.waiting ++ [⟨u, rx.bytes, s.ticks⟩] ∧ e.seq = o.seq ∧ e.safe = o.safe ∧ e.permitReq = o.permitReq)) ∧
      (∀ w, sd.waiting.find? (fun w => w.net != u && decide (beAt w.bytes 4 2 = seq)) = some w →
        (w.bytes = rx.bytes → Answers (.sDualControl rx) s (fun t => ∀ v ∈ sharers s u, let e := (t.die v).lgd.sd; let o := (s.die v).lgd.sd
          e.seq = some seq ∧ e.bytes = rx.bytes ∧ e.safe = false ∧ e.copies = 3 ∧ e.lastAt = s.ticks ∧
          e.remoteOpen = bitsOf (beAt rx.bytes 8 1) 3 0 ∧ e.permitReq = beAt rx.bytes 10 1 ∧
          e.waiting = o.waiting.filter (fun w => decide (beAt w.bytes 4 2 ≠ seq)))) ∧
        (w.bytes ≠ rx.bytes → Answers (.sDualControl rx) s (fun t => ∀ v ∈ sharers s u, let e := (t.die v).lgd.sd; let o := (s.die v).lgd.sd
          e.safe = true ∧ e.seq = o.seq ∧ (o.safe = false → e.permitReq = 0 ∧ e.resetBits = 0)))) := by
  intro u x sd seq prev dup hh hok hnew hahead hsingle
  have hf : SdFresh rx s := ⟨hok, hnew, hahead, hsingle⟩
  refine ⟨fun hno => ?_, fun w hw => ⟨fun he => ?_, fun he => ?_⟩⟩
  · have hnone : sdTwinOf rx s = none := List.find?_eq_none.2 fun w hw => by simpa using hno w hw
    refine sdControl_judged hh hf fun t ht v hv => ?_
    rw [ht v, hnone, sdTwin_none hv]
    exact ⟨congrArg (· ++ _) (SDual.heard_waiting ..), SDual.heard_seq .., SDual.heard_safe .., SDual.heard_permitReq ..⟩
  · refine sdControl_judged hh hf fun t ht v hv => ?_
    rw [ht v, show sdTwinOf rx s = some w from hw, sdTwin_equal he hv]
    obtain ⟨hsafe, hreq⟩ := SDual.accepted_both s.ticks rx.bytes (((s.die v).lgd.sd.heard rx).cleared (beAt rx.bytes 4 2))
    exact ⟨rfl, rfl, hsafe, rfl, rfl, rfl, hreq, congrArg (List.filter _) (SDual.heard_waiting ..)⟩
  · refine sdControl_judged hh hf fun t ht v hv => ?_
    rw [ht v, show sdTwinOf rx s = some w from hw, sdTwin_unequal he hv]
    refine ⟨SDual.madeSafe_safe _, (SDual.madeSafe_seq _).trans (SDual.heard_seq ..), fun ho => SDual.madeSafe_clears ?_⟩
    exact (SDual.heard_safe rx _).trans ho

theorem sdTimed_spec (x : Die) (ticks : Nat) :
    (x.sdTimed ticks).lgd.sd.safe = (x.lgd.sd.safe || (x.sdEn && x.sdLapsed ticks)) ∧ (x.sdTimed ticks).lgd.sd.seq = x.lgd.sd.seq := by
  unfold Die.sdTimed
  split
  next h => exact ⟨(SDual.madeSafe_safe _).trans (by rw [h, Bool.or_true]), SDual.madeSafe_seq _⟩
  next h => exact ⟨by rw [Bool.eq_false_iff.2 h, Bool.or_false], rfl⟩

theorem sDualTimeout_answers (s : State) (u : DieId) : Answers .sDualTimeout s (fun t =>
    (t.die u).lgd.sd.safe = ((s.die u).lgd.sd.safe || (unitOn s u && (s.die u).sdEn && (s.die u).sdLapsed s.ticks)) ∧
    (t.die u).lgd.sd.seq = (s.die u).lgd.sd.seq) := by
  refine .of_done (u := sdTimeout s) rfl fun t ht => ?_
  obtain ⟨hsafe, hseq⟩ := sdTimed_spec (s.die u) s.ticks
  rw [((KeepsGuard.of_records ht).die u).sd, sdTimeout_sd]
  cases unitOn s u
  · exact ⟨(Bool.or_false _).symm, rfl⟩
  · exact ⟨hsafe, hseq⟩

theorem sDualStatusSend_answers (s : State) : Answers .sDualStatusSend s (fun t => let n := max s.cd0.lgd.sd.txSeq s.cd1.lgd.sd.txSeq
    ∀ u, unitOn s u = true → (s.die u).sdEn = true → (t.die u).lgd.sd.txSeq = (n + 1) % 65536) := by
  refine .of_done (u := sdStatusSend s) rfl fun t ht => ?_
  intro n u hu hen
  rw [((KeepsGuard.of_records ht).die u).sd, sdStatusSend_sd, if_pos hu, Die.sdSent, if_pos hen]
  rfl

theorem sBlackStateSend_answers (c : Fin 256) (s : State) : Answers (.sBlackStateSend c) s (fun t => ∀ u, unitOn s u = true →
    let k := (s.die u).lgd.conn c; let l := (t.die u).lgd.conn c
    (connEn k = false → l = k) ∧
    (connEn k = true → l.shut = (s.die u).connShut k ∧ l.txSeq = (max (s.cd0.lgd.conn c).txSeq (s.cd1.lgd.conn c).txSeq + 1) % 65536 ∧
      l.state = (if k.state = 0 then 1 else k.state))) := by
  refine .of_done (u := sendState s c) rfl fun t ht u hu => ?_
  have hl : (t.die u).lgd.conn c = ((s.die u).stateSent c (max (s.cd0.lgd.conn c).txSeq (s.cd1.lgd.conn c).txSeq) s.ticks).lgd.conn c := by
    rw [((KeepsLgd.of_records ht).die u).conn, sendState_lgd s c hu]
  intro k l
  rw [show l = _ from hl]
  unfold Die.stateSent
  refine ⟨fun he => ?_, fun he => ?_⟩
  · rw [if_neg (by rw [show connEn ((s.die u).lgd.conn c) = false from he]; decide)]
  · rw [if_pos (show connEn ((s.die u).lgd.conn c) = true from he), conn_onConn]
    exact ⟨rfl, rfl, rfl⟩

theorem sBlackEcho_answers {c : Fin 256} {rx : ZslRx} {s : State} (h : EchoHeard c rx s)
    (hok : zslOk rx.bytes 2 0x14 (fget F.LGD_CONN_ID_CONN_ID ((s.die rx.net).lgd.conn c).id.toNat) = true)
    (hn : ((s.die rx.net).lgd.conn c).rxSeq ≠ some (beAt rx.bytes 4 2)) (ha : zslAhead ((s.die rx.net).lgd.conn c).rxSeq (beAt rx.bytes 4 2) = true) :
    Answers (.sBlackEcho c rx) s (fun t => let k := (s.die rx.net).lgd.conn c; let l := (t.die rx.net).lgd.conn c
      l.state = 2 ∧ l.rxSeq = some (beAt rx.bytes 4 2) ∧ l.lastAt = s.ticks ∧ l.inputShut = false ∧ l.cfg = k.cfg ∧ l.losses = k.losses) := by
  refine .of_done (congrArg done (blackEcho_heard h)) fun t ht => ?_
  intro k l
  rw [show l = _ from (((KeepsLgd.of_records ht).die rx.net).conn c).trans (judgeEcho_taken hok hn ha)]
  exact ⟨rfl, rfl, rfl, rfl, rfl, rfl⟩

theorem sBlackTimeout_answers (c : Fin 256) {s : State} {u : DieId} (hu : unitOn s u = true) {P : State → Prop}
    (hP : ∀ t, (t.die u).lgd.conn c = ((s.die u).lgd.conn c).timed s.ticks → P t) : Answers (.sBlackTimeout c) s P :=
  .of_done (u := blackTimeout c s) rfl fun t ht => hP t ((((KeepsLgd.of_records ht).die u).conn c).trans (blackTimeout_conn c s hu))

/-- Settles O41: the units that share what a connection says fold one change of S-DUAL each, and all else a row does keeps it. -/
theorem safetyTelegrams : Obligations.SafetyTelegrams := by
  unfold Obligations.SafetyTelegrams
  refine ⟨⟨fun rx s => ?_, fun s => ⟨fun h => ?_, fun u w hu hw hlate => ?_, sDualTimeout_answers s, sDualStatusSend_answers s⟩⟩,
    fun c s => ⟨sBlackStateSend_answers c s, fun rx => ?_, fun u hu => ?_⟩⟩
  · intro u x sd seq prev dup drop
    refine ⟨fun h => .of_row (f := sdControl rx) rfl (sdControl_unheard h), fun hon hen hkept => ?_⟩
    have hh : SdHeard rx s := ⟨hon, hen, hkept⟩
    exact ⟨sdControl_refused hh, fun hok => ⟨sdControl_stale hh hok, sDualControl_rows rx s hh hok⟩⟩
  · refine sdMissing_answers fun t ht u => (ht u).trans ?_
    rw [sdMissed_none (h u), ite_self]
  · refine sdMissing_answers fun t ht => ?_
    have hd := ht u
    rw [if_pos hu, sdMissed_one hw hlate] at hd
    intro e
    rw [show e = _ from hd]
    exact SDual.missed_last hw _ _
  · intro u k seq ok
    refine ⟨fun h => .of_row (f := blackEcho c rx) rfl (blackEcho_unheard h), fun hon hen => ?_⟩
    have hh : EchoHeard c rx s := ⟨hon, hen⟩
    have hdrop (h : OnlyRecords s (judgeEcho c rx s)) : Makes (.sBlackEcho c rx) s s := .intro (congrArg done (blackEcho_heard hh)) h
    exact ⟨fun h => hdrop (judgeEcho_dropped (.inl h)), fun _ hs hb => hdrop (judgeEcho_dropped (.inr (.inl ⟨hs, hb⟩))),
      fun _ h => hdrop (judgeEcho_dropped (.inr (.inr h))), sBlackEcho_answers hh⟩
  · intro k lim
    refine ⟨fun h => sBlackTimeout_answers c hu fun t ht => ht.trans (if_neg ?_), fun hen hst hlim => sBlackTimeout_answers c hu fun t ht => ?_⟩
    · have hk : k.limit = lim := rfl
      simp only [Conn.overdue, Bool.and_eq_true, Bool.or_eq_true, decide_eq_true_eq]
      rintro ⟨⟨he, hs⟩, hl⟩
      obtain h | ⟨h1, h2⟩ | h := h
      · exact absurd he (by rw [show connEn k = false from h]; decide)
      · exact hs.elim h1 h2
      · exact absurd hl (Nat.not_lt.2 h)
    · have hover : k.overdue s.ticks = true := by
        simp only [Conn.overdue, Bool.and_eq_true, Bool.or_eq_true, decide_eq_true_eq]
        exact ⟨⟨hen, hst⟩, hlim⟩
      intro l
      rw [show l = k.lost from ht.trans (if_pos hover)]
      exact ⟨rfl, rfl, rfl, rfl⟩

end Sys2Proof.Machine
end

section
/-!
PROOFS. Resets by their scope: power-on, supplies, MODRST_N, CDRST_N, the software reset of a die and the reset of a function (R493 to R498).
-/

namespace Sys2Proof.Machine

/-! ## A module that is off -/

/-- Nothing follows a state in which no die runs. -/
theorem settle_off {s : State} (h : ∀ d, (s.die d).running = false) : settle s = s := by
  have hd (d : DieId) : settleDie s d = s := by unfold settleDie; rw [h d, if_neg (by decide)]
  unfold settle
  rw [hd .cd0, hd .cd1]

/-- A command whose row stops both dies answers what the row makes. -/
theorem Answers.of_off {c : Instr} {f : State → State} {s : State} {P : State → Prop} (h : exec c s = done (f s))
    (hoff : ∀ d, ((f s).die d).running = false) (hP : P (f s)) : Answers c s P := by
  refine ⟨settle (f s), h, ?_⟩
  rw [settle_off hoff]
  exact hP

theorem Die.running_of_held {x : Die} {k a : Nat} (h : x.life = .held k a) : x.running = false := by unfold Die.running; rw [h]

theorem Die.running_of_boots {x : Die} {a : Nat} (h : x.life = .booting a) : x.running = false := by unfold Die.running; rw [h]

/-! ## Holding the module -/

/-- Bank dies changed in turn, and nothing beside them. -/
theorem foldl_onBank_eq (f : Nat → Bank → Bank) (l : List Nat) (s : State) : ∃ v, l.foldl (fun t b => t.onBank b (f b)) s = { s with banks := v } := by
  induction l generalizing s with
  | nil => exact ⟨s.banks, rfl⟩
  | cons b l ih => exact ih (s.onBank b (f b))

/-- Each bank die of a list takes its change. -/
theorem bank_foldl_onBank (f : Nat → Bank → Bank) {l : List Nat} (hn : l.Nodup) (hl : ∀ i ∈ l, i < 8) (s : State) {b : Nat} (hb : b < 8) :
    (l.foldl (fun t i => t.onBank i (f i)) s).bank b = if b ∈ l then f b (s.bank b) else s.bank b := by
  induction l generalizing s with
  | nil => rw [if_neg (by simp)]; rfl
  | cons i l ih =>
    obtain ⟨hi, hn⟩ := List.nodup_cons.1 hn
    rw [List.foldl_cons, ih hn fun j hj => hl j (List.mem_cons_of_mem _ hj)]
    by_cases h : b = i
    · subst h
      rw [if_neg hi, if_pos List.mem_cons_self, State.bank_onBank_same]
    · have hne : b % 8 ≠ i % 8 := by
        have := hl i List.mem_cons_self
        omega
      have hmem : b ∈ i :: l ↔ b ∈ l := by simp [h]
      simp only [State.bank_onBank_other s hne, hmem]

/-- What holding the module makes of a die. -/
def Die.heldByModule (d : DieId) (ticks kind : Nat) (x : Die) : Die :=
  let y := x.modReset d ticks (.held kind ticks)
  match x.life with
  | .held 5 t => if kind = 1 then { x with life := .held 5 t } else y.setReg Reg.RED_MODE 0
  | _ => if kind = 0 then y.setReg Reg.RED_MODE 0 else y

/-- What holding the module leaves of the bank dies and the dies. -/
theorem moduleHold_eq (s : State) (kind : Nat) : ∃ v, moduleHold s kind = { s with
    cd0 := s.cd0.heldByModule .cd0 s.ticks kind, cd1 := s.cd1.heldByModule .cd1 s.ticks kind, banks := v, mirror := Link.down, esc := [],
    pins := { s.pins with permitA := 0, permitB := 0 } } := by
  unfold moduleHold
  extract_lets hold
  exact foldl_onBank_eq ..

theorem moduleHold_die (s : State) (kind : Nat) (d : DieId) : (moduleHold s kind).die d = (s.die d).heldByModule d s.ticks kind := by
  obtain ⟨v, h⟩ := moduleHold_eq s kind
  rw [h]
  cases d <;> rfl

theorem moduleHold_pins (s : State) (kind : Nat) : (moduleHold s kind).pins = { s.pins with permitA := 0, permitB := 0 } := by
  obtain ⟨v, h⟩ := moduleHold_eq s kind
  rw [h]

theorem moduleHold_bank (s : State) (kind : Nat) (b : Fin 8) :
    (moduleHold s kind).bank b = { Bank.reset b with driven := decide (kind ≠ 0) && (s.bank b).driven } := by
  unfold moduleHold
  extract_lets hold
  rw [bank_foldl_onBank (fun b k => { k with driven := decide (kind ≠ 0) && (s.bank b).driven }) List.nodup_range
    (fun i hi => List.mem_range.1 hi) _ b.isLt, if_pos (List.mem_range.2 b.isLt), bankReset_bank, Nat.mod_eq_of_lt b.isLt]

namespace Die
variable (x : Die) (d : DieId) (ticks : Nat)

theorem heldByModule_zero : (x.heldByModule d ticks 0).life = .held 0 ticks := by
  unfold heldByModule
  extract_lets y
  have hy : (y.setReg Reg.RED_MODE 0).life = .held 0 ticks := Die.setReg_life ..
  split
  · exact hy
  · exact hy

variable {x}

/-- By MODRST_N a die that no reset of the module holds yet is held, and keeps its always-on domain. -/
theorem heldByModule_one (h : x.modHeld = false) : x.heldByModule d ticks 1 = x.modReset d ticks (.held 1 ticks) := by
  unfold heldByModule
  extract_lets y
  unfold modHeld at h
  split
  · rename_i hl
    rw [hl] at h
    cases h
  · rfl

theorem heldByModule_held (x : Die) : ∃ k a, (x.heldByModule d ticks 1).life = .held k a := by
  unfold heldByModule
  extract_lets y
  split
  · exact ⟨5, _, rfl⟩
  · exact ⟨1, ticks, rfl⟩

end Die

/-! ## The module boots -/

/-- What the end of a module reset makes of a die while its CDRST_N is high. -/
def Die.booted (d : DieId) (ticks : Nat) (x : Die) : Die :=
  let y := (x.modReset d ticks (.booting ticks)).setReg Reg.RST_CAUSE (2 + 32 * b2n x.inStandby + 64 * b2n x.aon.heldLong)
  if x.inStandby then y.setRf Reg.RED_MODE F.RED_MODE_PREV_BASE mStandby else y

theorem Die.booted_life (x : Die) (d : DieId) (ticks : Nat) : (x.booted d ticks).life = .booting ticks := by
  unfold Die.booted
  extract_lets y
  have hy : y.life = .booting ticks := Die.setReg_life ..
  split
  · rw [Die.setRf_life, hy]
  · exact hy

theorem Die.booted_aon (x : Die) (d : DieId) (ticks : Nat) : (x.booted d ticks).aon = x.aon := by
  unfold Die.booted
  extract_lets y
  have hy : y.aon = x.aon := Die.setReg_aon ..
  split
  · rw [Die.setRf_aon, hy]
  · exact hy

theorem bootDie_eq {s : State} (h : s.pins.cdrstLow = 0) (d : DieId) : bootDie s d = s.onDie d (fun _ => (s.die d).booted d s.ticks) := by
  have hbit : s.pins.cdrstLow.getLsbD d.num = false := by simp [h]
  unfold bootDie State.onDie
  simp only [hbit]
  rfl

theorem moduleBoot_eq {s : State} (h : s.pins.cdrstLow = 0) : moduleBoot s = bankReset
    { s with cd0 := s.cd0.booted .cd0 s.ticks, cd1 := s.cd1.booted .cd1 s.ticks } := by
  unfold moduleBoot
  rw [bootDie_eq h, bootDie_eq]
  · rfl
  · exact h

theorem moduleBoot_die {s : State} (h : s.pins.cdrstLow = 0) (d : DieId) : (moduleBoot s).die d = (s.die d).booted d s.ticks := by
  rw [moduleBoot_eq h]
  cases d <;> rfl

theorem moduleBoot_bank (s : State) (b : Fin 8) : (moduleBoot s).bank b = Bank.reset b := by
  unfold moduleBoot
  rw [bankReset_bank, Nat.mod_eq_of_lt b.isLt]

theorem moduleBoot_pins {s : State} (h : s.pins.cdrstLow = 0) : (moduleBoot s).pins = { s.pins with permitA := 0, permitB := 0 } := by
  rw [moduleBoot_eq h]
  rfl

/-! ## Supplies and MODRST_N -/

/-- Power-on with both pins high. -/
theorem powerOn_eq {s : State} (hm : s.pins.modrstLow = false) (hc : s.pins.cdrstLow = 0) : powerOn s = bankReset { s with
    cd0 := { Die.reset .cd0 s.ticks with life := .booting s.ticks }, cd1 := { Die.reset .cd1 s.ticks with life := .booting s.ticks },
    pins := { s.pins with below := 0, excursion := 0, lost := none, modrstSince := s.ticks } } := by
  have hbit (i : Nat) : s.pins.cdrstLow.getLsbD i = false := by simp [hc]
  unfold powerOn
  simp only [hbit, hm]
  rfl

/-- The fault snapshot stands in the always-on domain. -/
theorem Die.freeze_eq (x : Die) (kind ticks : Nat) :
    x.freeze kind ticks = x.onAon (fun a => { a with snap := x.sticky, snapKind := kind, snapAt := x.watch ticks }) := by
  unfold Die.freeze Die.onAon
  rfl

/-- What MODRST_N notes in a die's always-on domain. -/
def Die.modrstNoted (ticks : Nat) (x : Die) : Die :=
  let y := match x.life with
    | .held 5 t => x.onAon (fun a => { a with standbyS := (ticks - t) / secT })
    | .held 0 _ => x
    | _ => x.freeze 1 ticks
  y.onAon (fun a => { a with countMod := satAdd 8 a.countMod 1, heldLong := false, remapAt := none, replace := false })

theorem Die.modrstNoted_life (x : Die) (ticks : Nat) : (x.modrstNoted ticks).life = x.life := by
  unfold Die.modrstNoted
  extract_lets y
  have hy : y.life = x.life := by
    unfold y
    split
    · exact Die.onAon_life ..
    · rfl
    · rw [Die.freeze_eq, Die.onAon_life]
  rw [Die.onAon_life, hy]

theorem Die.modrstNoted_countMod (x : Die) (ticks : Nat) : (x.modrstNoted ticks).aon.countMod = min (2 ^ 8 - 1) (x.aon.countMod + 1) := by
  unfold Die.modrstNoted
  extract_lets y
  have hy : y.aon.countMod = x.aon.countMod := by
    unfold y
    split
    · rw [Die.onAon_aon]
    · rfl
    · rw [Die.freeze_eq, Die.onAon_aon]
  rw [Die.onAon_aon, ← hy]
  rfl

theorem Die.modHeld_noted (x : Die) (ticks : Nat) : (x.modrstNoted ticks).modHeld = x.modHeld := by
  unfold Die.modHeld
  rw [Die.modrstNoted_life]

/-- MODRST_N goes low on a module with its supplies. -/
theorem modrstAssert_eq {s : State} (hm : s.pins.modrstLow = false) (hb : s.pins.below = 0) : modrstAssert s = moduleHold { s with
    cd0 := s.cd0.modrstNoted s.ticks, cd1 := s.cd1.modrstNoted s.ticks, pins := { s.pins with modrstLow := true, modrstSince := s.ticks } } 1 := by
  unfold modrstAssert
  rw [if_neg (by rw [hm]; decide)]
  extract_lets note s1
  rw [if_pos hb]
  rfl

theorem modrstAssert_answers {s : State} (hm : s.pins.modrstLow = false) (hb : s.pins.below = 0) (h0 : s.cd0.modHeld = false)
    (h1 : s.cd1.modHeld = false) : Answers .modrstAssert s (fun t =>
      t.pins.modrstLow = true ∧ t.pins.modrstSince = s.ticks ∧ (∀ b : Fin 8, t.bank b = { Bank.reset b with driven := (s.bank b).driven }) ∧
      ∀ d, (t.die d).life = .held 1 s.ticks ∧ (t.die d).aon.countMod = min (2 ^ 8 - 1) ((s.die d).aon.countMod + 1)) := by
  have hdie (d : DieId) : (modrstAssert s).die d = ((s.die d).modrstNoted s.ticks).modReset d s.ticks (.held 1 s.ticks) := by
    have hd : ((s.die d).modrstNoted s.ticks).modHeld = false := by
      rw [Die.modHeld_noted]
      cases d <;> assumption
    rw [modrstAssert_eq hm hb, moduleHold_die, ← Die.heldByModule_one d s.ticks hd]
    cases d <;> rfl
  refine .of_off (f := modrstAssert) rfl (fun d => Die.running_of_held (congrArg Die.life (hdie d))) ?_
  refine ⟨?_, ?_, fun b => ?_, fun d => ⟨congrArg Die.life (hdie d), ?_⟩⟩
  · rw [modrstAssert_eq hm hb, moduleHold_pins]
  · rw [modrstAssert_eq hm hb, moduleHold_pins]
  · rw [modrstAssert_eq hm hb, moduleHold_bank]
    rfl
  · rw [hdie d, ← Die.modrstNoted_countMod _ s.ticks]
    rfl

theorem supplyBelowHold_answers (r : Rail) (s : State) : Answers (.supplyBelowHold r) s (fun t =>
    t.pins.below = s.pins.below ||| railBit r ∧ t.pins.lost = some (s.pins.lost.getD (railNum r)) ∧
    (∀ d, (t.die d).life = .held 0 s.ticks) ∧ (∀ b : Fin 8, t.bank b = { Bank.reset b with driven := false }) ∧
    t.pins.permitA = 0 ∧ t.pins.permitB = 0) := by
  have hlife (d : DieId) : ((supplyBelow r s).die d).life = .held 0 s.ticks := by
    unfold supplyBelow
    rw [moduleHold_die, Die.heldByModule_zero]
  refine .of_off (f := supplyBelow r) rfl (fun d => Die.running_of_held (hlife d)) ⟨?_, ?_, hlife, fun b => ?_, ?_, ?_⟩
  · unfold supplyBelow; rw [moduleHold_pins]
  · unfold supplyBelow; rw [moduleHold_pins]
  · unfold supplyBelow; rw [moduleHold_bank]; rfl
  · unfold supplyBelow; rw [moduleHold_pins]
  · unfold supplyBelow; rw [moduleHold_pins]

theorem powerOn_answers {s : State} (hm : s.pins.modrstLow = false) (hc : s.pins.cdrstLow = 0) : Answers .powerOn s (fun t =>
    t.cd0 = { Die.reset .cd0 s.ticks with life := .booting s.ticks } ∧ t.cd1 = { Die.reset .cd1 s.ticks with life := .booting s.ticks } ∧
    t.banks = Vector.ofFn (fun b => Bank.reset b.val) ∧ t.mirror = Link.down ∧ t.pins.below = 0 ∧ t.pins.excursion = 0 ∧
    t.pins.permitA = 0 ∧ t.pins.permitB = 0) := by
  refine .of_off (f := powerOn) rfl (fun d => ?_) ?_
  · refine Die.running_of_boots (a := s.ticks) ?_
    rw [powerOn_eq hm hc]
    cases d <;> rfl
  · rw [powerOn_eq hm hc]
    exact ⟨rfl, rfl, rfl, rfl, rfl, rfl, rfl, rfl⟩

/-- The rails are noted as back. -/
def State.resupplied (s : State) : State := { s with pins := { s.pins with below := 0, excursion := 0 } }

/-- The rails are back, V3P3 had not failed. -/
theorem suppliesRestored_eq {s : State} (hb : s.pins.below ≠ 0) (h3 : s.pins.below.getLsbD 3 = false) : suppliesRestored s =
    if s.pins.modrstLow then moduleHold s.resupplied 1
    else moduleBoot s.resupplied := by
  unfold suppliesRestored
  extract_lets s1
  rw [if_neg (by rw [h3]; decide), if_neg hb]
  rfl

theorem suppliesRestored_boots {s : State} (hb : s.pins.below ≠ 0) (h3 : s.pins.below.getLsbD 3 = false) (hm : s.pins.modrstLow = false)
    (hc : s.pins.cdrstLow = 0) : Answers .suppliesRestored s (fun t =>
      t.pins.below = 0 ∧ (∀ b : Fin 8, t.bank b = Bank.reset b) ∧ ∀ d, (t.die d).life = .booting s.ticks) := by
  have he : suppliesRestored s = moduleBoot s.resupplied := by
    rw [suppliesRestored_eq hb h3, if_neg (by rw [hm]; decide)]
  have hlife (d : DieId) : ((suppliesRestored s).die d).life = .booting s.ticks := by
    rw [he, moduleBoot_die (s := s.resupplied) hc, Die.booted_life]
    rfl
  refine .of_off (f := suppliesRestored) rfl (fun d => Die.running_of_boots (hlife d)) ⟨?_, fun b => ?_, hlife⟩
  · rw [he, moduleBoot_pins (s := s.resupplied) hc]
    rfl
  · rw [he, moduleBoot_bank]

theorem suppliesRestored_holds {s : State} (hb : s.pins.below ≠ 0) (h3 : s.pins.below.getLsbD 3 = false) (hm : s.pins.modrstLow = true) :
    Answers .suppliesRestored s (fun t => t.pins.below = 0 ∧ ∀ d, ∃ k a, (t.die d).life = .held k a) := by
  have he : suppliesRestored s = moduleHold s.resupplied 1 := by
    rw [suppliesRestored_eq hb h3, if_pos hm]
  have hlife (d : DieId) : ∃ k a, ((suppliesRestored s).die d).life = .held k a := by
    rw [he, moduleHold_die]
    exact Die.heldByModule_held ..
  refine .of_off (f := suppliesRestored) rfl (fun d => ?_) ⟨?_, hlife⟩
  · obtain ⟨k, a, h⟩ := hlife d
    exact Die.running_of_held h
  · rw [he, moduleHold_pins]
    rfl

/-- The always-on domains note how long MODRST_N was low, at its end. -/
def State.modrstHigh (s : State) : State :=
  let note (x : Die) : Die := x.onAon (fun a => { a with heldS := (s.ticks - s.pins.modrstSince) / secT })
  ({ s with pins := { s.pins with modrstLow := false } }.onDie .cd0 note).onDie .cd1 note

/-- MODRST_N goes high on a module with its supplies. -/
theorem modrstRelease_eq {s : State} (hm : s.pins.modrstLow = true) (hb : s.pins.below = 0) : modrstRelease s = moduleBoot s.modrstHigh := by
  unfold modrstRelease
  rw [if_neg (by rw [hm]; decide)]
  extract_lets held note s1
  exact if_pos hb

theorem modrstRelease_answers {s : State} (hm : s.pins.modrstLow = true) (hb : s.pins.below = 0) (hc : s.pins.cdrstLow = 0) :
    Answers .modrstRelease s (fun t => t.pins.modrstLow = false ∧
      ∀ d, (t.die d).life = .booting s.ticks ∧ (t.die d).aon.heldS = (s.ticks - s.pins.modrstSince) / secT) := by
  have hlife (d : DieId) : ((modrstRelease s).die d).life = .booting s.ticks := by
    rw [modrstRelease_eq hm hb, moduleBoot_die (s := s.modrstHigh) hc, Die.booted_life]
    rfl
  refine .of_off (f := modrstRelease) rfl (fun d => Die.running_of_boots (hlife d)) ⟨?_, fun d => ⟨hlife d, ?_⟩⟩
  · rw [modrstRelease_eq hm hb, moduleBoot_pins (s := s.modrstHigh) hc]
    rfl
  · rw [modrstRelease_eq hm hb, moduleBoot_die (s := s.modrstHigh) hc, Die.booted_aon]
    cases d <;> rfl

/-- A raised source is sticky on a die that runs. -/
theorem raise_sticky {s : State} {d : DieId} (h : (s.die d).running = true) (src inst : Nat) :
    ((raise s d src inst).die d).mapBit (Reg.FLT_STICKY 0) src = true := by
  unfold raise
  rw [if_pos h, State.die_onDie_same, Die.mapBit_occur, if_pos rfl]

theorem raiseBoth_sticky {s : State} {d : DieId} (h : (s.die d).running = true) (src : Nat) (hs : src < 256) (inst : Nat) :
    ((raiseBoth s src inst).die d).mapBit (Reg.FLT_STICKY 0) src = true := by
  unfold raiseBoth
  cases d with
  | cd0 =>
    have hother (u : State) : (raise u .cd1 src inst).die .cd0 = u.die .cd0 := by
      unfold raise
      split
      · exact State.die_onDie_other u (show DieId.cd0 ≠ .cd1 by decide) _
      · rfl
    rw [hother]
    exact raise_sticky h src inst
  | cd1 =>
    refine raise_sticky ?_ src inst
    rw [(OnlyRecords.raise s .cd0 src inst hs).running, h]

/-- A supply outside its limits: the bank dies and the lives of the dies stay. -/
theorem supplyExcursion_spec (r : Rail) (hi : Bool) (s : State) :
    (supplyExcursion r hi s).pins.excursion = s.pins.excursion ||| railBit r ∧ (supplyExcursion r hi s).banks = s.banks ∧
      (∀ d, ((supplyExcursion r hi s).die d).life = (s.die d).life) ∧
      ∀ d, (s.die d).running = true → ((supplyExcursion r hi s).die d).mapBit (Reg.FLT_STICKY 0) 221 = true := by
  let s0 : State := { s with pins := { s.pins with excursion := s.pins.excursion ||| railBit r } }
  have h1 : OnlyRecords s0 (raiseBoth s0 221) := .raiseBoth _ _ _ (by decide)
  have hd (d : DieId) : s0.die d = s.die d := by cases d <;> rfl
  have hlog (d : DieId) : ∃ m w, logEntry (raiseBoth s0 221) d lgSupply (leBytes 1 (railNum r) ++ leBytes 1 (b2n hi)) =
      { raiseBoth s0 221 with store := m, wear := w } := ⟨_, _, rfl⟩
  have hx : ∃ m w, supplyExcursion r hi s = { raiseBoth s0 221 with store := m, wear := w } := by
    unfold supplyExcursion
    extract_lets s1 log
    split
    · exact hlog _
    · split_ifs
      · exact hlog _
      · exact hlog _
      · exact ⟨_, _, rfl⟩
  obtain ⟨m, w, hx⟩ := hx
  rw [hx]
  refine ⟨?_, ?_, fun d => ?_, fun d hrun => ?_⟩
  · exact congrArg Pins.excursion (KeepsOuter.of_records h1).pins
  · exact h1.banks
  · have h := h1.die_eq d (·.life) fun _ => rfl
    rw [hd] at h
    cases d <;> exact h
  · rw [← hd] at hrun
    have h := raiseBoth_sticky hrun 221 (by decide) 0
    cases d <;> exact h

theorem supplyExcursion_answers (r : Rail) (hi : Bool) (s : State) : Answers (.supplyExcursion r hi) s (fun t =>
    t.pins.excursion = s.pins.excursion ||| railBit r ∧ t.banks = s.banks ∧ t.cd0.life = s.cd0.life ∧ t.cd1.life = s.cd1.life ∧
    ∀ d, (s.die d).running = true → (t.die d).mapBit (Reg.FLT_STICKY 0) 221 = true) := by
  obtain ⟨hpins, hbanks, hlife, hsticky⟩ := supplyExcursion_spec r hi s
  have hset : OnlyRecords (supplyExcursion r hi s) (settle (supplyExcursion r hi s)) := .settle _
  have hl (d : DieId) : ((settle (supplyExcursion r hi s)).die d).life = (s.die d).life := (hset.die_life d).trans (hlife d)
  refine ⟨_, rfl, ?_, hset.banks.trans hbanks, hl .cd0, hl .cd1, fun d hrun => ?_⟩
  · exact (congrArg Pins.excursion (KeepsOuter.of_records hset).pins).trans hpins
  · exact ((KeepsFlags.settle (supplyExcursion r hi s)).die d).up 221 (by decide) (hsticky d hrun)

/-! ## Resets of one die -/

theorem cdrstAssert_pin {s : State} {d : DieId} (h : (s.die d).modHeld = true ∨ s.pins.cdrstLow.getLsbD d.num = true) :
    cdrstAssert d s = { s with pins := { s.pins with cdrstLow := s.pins.cdrstLow ||| BitVec.ofNat 2 (2 ^ d.num) } } := by
  unfold cdrstAssert
  extract_lets s1
  exact if_pos (by rwa [Bool.or_eq_true])

theorem cdrstAssert_resets {s : State} {d : DieId} (hm : (s.die d).modHeld = false) (hp : s.pins.cdrstLow.getLsbD d.num = false) :
    cdrstAssert d s = dieReset { s with pins := { s.pins with cdrstLow := s.pins.cdrstLow ||| BitVec.ofNat 2 (2 ^ d.num) } } d 2 := by
  unfold cdrstAssert
  extract_lets s1
  exact if_neg (by rw [hm, hp]; decide)

theorem cdrstRelease_boots {s : State} {d : DieId} {a : Nat} (h : (s.die d).life = .held 2 a) : cdrstRelease d s =
    { s with pins := { s.pins with cdrstLow := s.pins.cdrstLow &&& ~~~ BitVec.ofNat 2 (2 ^ d.num) } }.onDie d (·.boots s.ticks) := by
  unfold cdrstRelease
  rw [h]
  rfl

theorem cdrstRelease_pin {s : State} {d : DieId} (h : ∀ a, (s.die d).life ≠ .held 2 a) : cdrstRelease d s =
    { s with pins := { s.pins with cdrstLow := s.pins.cdrstLow &&& ~~~ BitVec.ofNat 2 (2 ^ d.num) } } := by
  unfold cdrstRelease
  extract_lets s1
  split
  · rename_i a hl
    exact absurd hl (h a)
  · rfl

theorem softResetRelease_boots {s : State} {d : DieId} {k a : Nat} (h : (s.die d).life = .held k a) (hk : k = 3 ∨ k = 4)
    (ha : 10 * usT ≤ s.ticks - a) : softResetRelease d s = s.onDie d (·.boots s.ticks) := by
  unfold softResetRelease
  rw [h]
  exact if_pos (by simp [hk, ha])

theorem softResetRelease_waits {s : State} {d : DieId} {k a : Nat} (h : (s.die d).life = .held k a)
    (hk : (k ≠ 3 ∧ k ≠ 4) ∨ s.ticks - a < 10 * usT) : softResetRelease d s = s := by
  unfold softResetRelease
  rw [h]
  refine if_neg ?_
  simp only [Bool.and_eq_true, Bool.or_eq_true, decide_eq_true_eq]
  rintro ⟨h34, hlong⟩
  rcases hk with ⟨h3, h4⟩ | hshort
  · exact h34.elim h3 h4
  · exact absurd hlong (Nat.not_le.2 hshort)

/-- The key, GO, Expert level and a die that runs. -/
def swrstGo (x : Die) (v : Nat) : Bool := fget F.RST_SWRST_KEY v = 0xA5C3 && fget F.RST_SWRST_GO v = 1 && x.expert 0 && x.running

theorem softwareReset_ignored {s : State} {d : DieId} {v : Nat} (h : swrstGo (s.die d) v = false) : softwareReset d v s = s :=
  if_neg (fun c => Bool.false_ne_true (h.symm.trans c))

theorem softwareReset_dummy {s : State} {d : DieId} {v : Nat} (h : swrstGo (s.die d) v = true) (hd : (s.die d).isDecl = false) :
    softwareReset d v s = dieReset s d 3 := by
  refine (if_pos h).trans ?_
  unfold yieldingReset
  rw [hd]
  rfl

theorem softwareReset_declarer {s : State} {d : DieId} {v : Nat} (h : swrstGo (s.die d) v = true) (hd : (s.die d).isDecl = true) :
    softwareReset d v s = plannedTrigger s d none (some 3) := by
  have hrun : (s.die d).running = true := (Bool.and_eq_true_iff.1 h).2
  refine (if_pos h).trans ?_
  unfold yieldingReset
  rw [hd, hrun]
  rfl

/-! ## Registers at their power-on values -/

/-- One register word of a selection goes back. -/
def Die.porStep (sel : Nat → Bool) (p : Access → Bool) (y : Die) (e : Nat × Word32) : Die :=
  if sel e.1 then y.setReg e.1 (porWord e.1 e.2.toNat p) else y

theorem spFind_absent {α : Type} {k : Nat} {l : Sparse α} (h : ∀ e ∈ l, e.1 ≠ k) : spFind k l = none := by
  induction l with
  | nil => rfl
  | cons e l ih =>
    obtain ⟨j, v⟩ := e
    rw [spFind, if_neg (Ne.symm (h _ List.mem_cons_self)), ih fun e he => h e (List.mem_cons_of_mem _ he)]

/-- A field that every word a register goes back to has at 0 reads 0 once it is back. -/
theorem Die.rf_porRegs (x : Die) {sel : Nat → Bool} {p : Access → Bool} {k : Nat} {f : Fld} (hs : sel k = true)
    (h0 : fget f (regPor k) = 0) (hp : ∀ w, fget f (porWord k w p % 2 ^ 32) = 0) : (x.porRegs sel p).rf k f = 0 := by
  have key (l : Sparse Word32) (y : Die) (h : (∃ e ∈ l, e.1 = k) ∨ y.rf k f = 0) : (l.foldl (Die.porStep sel p) y).rf k f = 0 := by
    induction l generalizing y with
    | nil => exact h.resolve_left (by simp)
    | cons e l ih =>
      refine ih _ ?_
      unfold Die.porStep
      by_cases he : e.1 = k
      · refine .inr ?_
        rw [he, if_pos hs, Die.rf, Die.reg_setReg_same, hp]
      · refine h.imp (fun ⟨a, ha, hk⟩ => ⟨a, (List.mem_cons.1 ha).resolve_left (fun c => he (c ▸ hk)), hk⟩) fun hy => ?_
        split
        · rw [Die.rf, Die.reg_setReg_other _ (Ne.symm he), ← Die.rf, hy]
        · exact hy
  refine key x.regs x ?_
  by_cases h : ∃ e ∈ x.regs, e.1 = k
  · exact .inl h
  · refine .inr ?_
    have hnone : spFind k x.regs = none := spFind_absent fun e he hk => h ⟨e, he, hk⟩
    rw [Die.rf, Die.reg, hnone, h0]

/-- A register outside the selection stays. -/
theorem Die.reg_porRegs_other (x : Die) {sel : Nat → Bool} (p : Access → Bool) {k : Nat} (hs : sel k = false) : (x.porRegs sel p).reg k = x.reg k := by
  have key (l : Sparse Word32) (y : Die) : (l.foldl (Die.porStep sel p) y).reg k = y.reg k := by
    induction l generalizing y with
    | nil => rfl
    | cons e l ih =>
      refine (ih _).trans ?_
      unfold Die.porStep
      split
      · rename_i he
        exact Die.reg_setReg_other _ (fun c => by rw [← c, hs] at he; cases he) _
      · rfl
  exact key x.regs x

/-- Only register words go back. -/
theorem Die.porRegs_eq (x : Die) (sel : Nat → Bool) (p : Access → Bool) : ∃ l, x.porRegs sel p = { x with regs := l } := by
  have key (l : Sparse Word32) (y : Die) (h : ∃ r, y = { x with regs := r }) : ∃ r, l.foldl (Die.porStep sel p) y = { x with regs := r } := by
    induction l generalizing y with
    | nil => exact h
    | cons e l ih =>
      obtain ⟨r, rfl⟩ := h
      refine ih _ ?_
      unfold Die.porStep
      split
      · exact ⟨_, rfl⟩
      · exact ⟨r, rfl⟩
  exact key x.regs x ⟨x.regs, rfl⟩

/-- HIF_RING_CFG of an event ring: every field goes back, EN to 0. -/
theorem ringCfg_fields : ∀ f : Fin 4, regPor (Reg.HIF_RING_CFG f 16) = 0x20000006 ∧
    (findReg (Reg.HIF_RING_CFG f 16 / 0x10000) (Reg.HIF_RING_CFG f 16 % 0x10000)).map (fun r => accMask r.1 r.2.2 (fun _ => true)) =
      some (2 ^ 32 - 1) := by decide

theorem porWord_ringCfg (f : Fin 4) (w : Nat) : porWord (Reg.HIF_RING_CFG f 16) w (fun _ => true) = 0x20000006 := by
  obtain ⟨hpor, hmask⟩ := ringCfg_fields f
  obtain ⟨⟨r, i, hi⟩, hfind, hacc⟩ := Option.map_eq_some_iff.1 hmask
  unfold porWord
  rw [hfind, hpor]
  simp only [hacc]
  exact (congrArg (Nat.lor · _) (Nat.and_zero w)).trans (by decide)

/-! ## What settling writes in a function -/

/-- A function of a die stays from s to t. -/
def SameFn (d : DieId) (f : Fin 4) (s t : State) : Prop := (t.die d).fn f = (s.die d).fn f

theorem Die.occur_fns (x : Die) (src inst : Nat) (real : Bool) (n : Nat) : (x.occur src inst real n).fns = x.fns := by
  unfold Die.occur
  simp only
  split <;> split <;> rfl

theorem Die.fn_of_fns {x y : Die} (h : y.fns = x.fns) (f : Nat) : y.fn f = x.fn f := by unfold Die.fn; rw [h]

theorem Die.fn_onRing_other (x : Die) {f g : Nat} (h : g % 4 ≠ f % 4) (r : Nat) (k : Ring → Ring) : (x.onRing f r k).fn g = x.fn g :=
  Die.fn_setFn_other x h _

namespace SameFn
variable {d : DieId} {f : Fin 4} {s t u : State}

theorem refl (s : State) : SameFn d f s s := rfl

theorem trans (h : SameFn d f s t) (k : SameFn d f t u) : SameFn d f s u := Eq.trans k h

theorem emit (s : State) (o : Out) : SameFn d f s (s.emit o) := congrArg (Die.fn · f) (State.die_emit ..)

theorem onDie (s : State) {g : Die → Die} (h : (g (s.die d)).fn f = (s.die d).fn f) : SameFn d f s (s.onDie d g) := by
  unfold SameFn
  rw [State.die_onDie_same, h]

theorem raise (s : State) (src inst : Nat) : SameFn d f s (raise s d src inst) := by
  unfold Machine.raise
  split
  · exact onDie s (Die.fn_of_fns (Die.occur_fns ..) f)
  · exact refl s

theorem raiseVec (s : State) {g : Nat} (h : f.val % 4 ≠ g % 4) (v : Nat) : SameFn d f s (raiseVec s d g v) := by
  unfold Machine.raiseVec
  extract_lets n
  split
  · exact onDie s (Die.fn_setFn_other _ h _)
  · exact emit ..

theorem writeEntry (s : State) {g : Nat} (h : f.val % 4 ≠ g % 4) (r : Nat) (bytes : List Byte) (irq : Bool) :
    SameFn d f s (writeEntry s d g r bytes irq) := by
  unfold Machine.writeEntry coalesce
  extract_lets x k s1 m s2 y k1 k2 s3 need
  have hring (u : State) (r : Nat) (q : Ring → Ring) : SameFn d f u (u.onDie d (·.onRing g r q)) := onDie u (Die.fn_onRing_other _ h r q)
  have h2 : SameFn d f s s2 := (emit s _).trans (onDie _ ((Die.fn_setReg ..).trans (Die.fn_onRing_other _ h r _)))
  split
  · exact h2.trans ((emit ..).trans ((hring ..).trans ((hring ..).trans (raiseVec _ h _))))
  · exact h2.trans ((emit ..).trans (hring ..))

/-- An event reaches a function over its event ring, while that is enabled. -/
theorem eventOn (s : State) (type origin stamp : Nat) (p : List Byte) {g : Nat} (h : (s.die d).ringEn g 16 = false ∨ f.val % 4 ≠ g % 4) :
    SameFn d f s (eventOn s d type origin stamp p g) := by
  unfold Machine.eventOn
  extract_lets x k s1 rec32
  by_cases hoff : x.ringEn g 16 = false
  · rw [if_pos (by rw [hoff]; rfl)]
    exact refl s
  · have hne := h.resolve_left hoff
    have hring (u : State) (q : Ring → Ring) : SameFn d f u (u.onDie d (·.onRing g 16 q)) := onDie u (Die.fn_onRing_other _ hne 16 q)
    split_ifs
    · exact refl s
    · exact (hring s _).trans ((onDie _ ((Die.fn_onRing_other _ hne 16 _).trans
        (Die.fn_of_fns (Die.count_fns ..) f))).trans (raise ..))
    · exact (hring s _).trans ((hring ..).trans (writeEntry _ hne ..))

end SameFn

theorem OnlyRecords.ringEn {s t : State} (h : OnlyRecords s t) (d : DieId) (f : Fin 4) : (t.die d).ringEn f 16 = (s.die d).ringEn f 16 := by
  have hk : ∀ f : Fin 4, recordKey (Reg.HIF_RING_CFG f 16) = false := by decide
  exact h.rbit d (hk f) _

namespace SameFn
variable {d : DieId} {f : Fin 4} {s : State}

theorem event (h : (s.die d).ringEn f 16 = false) (type : Nat) (p : List Byte) : SameFn d f s (event s d type p) := by
  have key (o n : Nat) (l : List Nat) (hl : ∀ g ∈ l, g < 4) (t : State) (ht : (t.die d).ringEn f 16 = false) :
      SameFn d f t (l.foldl (fun t g => Machine.eventOn t d type o n p g) t) := by
    induction l generalizing t with
    | nil => exact refl t
    | cons g l ih =>
      have hg := hl g List.mem_cons_self
      have h1 : OnlyRecords t (Machine.eventOn t d type o n p g) := .eventOn t d type o n p g hg
      refine SameFn.trans (SameFn.eventOn t type o n p ?_) (ih (fun i hi => hl i (List.mem_cons_of_mem _ hi)) _ ((h1.ringEn d f).trans ht))
      by_cases he : g = f.val
      · exact .inl (he ▸ ht)
      · exact .inr (by omega)
  exact key _ _ _ (eventFns_lt type) s h

theorem mirror (s : State) (p : Payload) : SameFn d f s (mirror s d p) := by
  unfold Machine.mirror
  split
  · exact onDie s rfl
  · exact refl s

theorem setMode (h : (s.die d).ringEn f 16 = false) (g : Nat → Nat) : SameFn d f s (setMode s d g) := by
  unfold Machine.setMode
  extract_lets x old v v' w s1
  have h1 : SameFn d f s s1 := onDie s (Die.fn_setReg ..)
  have hen : (s1.die d).ringEn f 16 = false := by
    unfold s1
    rw [State.die_onDie_same]
    unfold Die.ringEn Die.rbit Die.rf at h ⊢
    rw [Die.reg_setReg_other _ (by unfold Reg.HIF_RING_CFG Reg.RED_MODE; omega)]
    exact h
  split_ifs
  · exact refl s
  · exact h1.trans ((event hen ..).trans (mirror ..))
  · exact h1

theorem settleLevel (s : State) (i : Nat) : SameFn d f s (settleLevel s d i) := by
  unfold Machine.settleLevel
  extract_lets x was now
  split_ifs
  · exact onDie s (Die.fn_of_fns (Die.occur_fns ..) f)
  · exact onDie s rfl
  · exact refl s

theorem settleDie (h : (s.die d).ringEn f 16 = false) : SameFn d f s (settleDie s d) := by
  unfold Machine.settleDie
  split
  · extract_lets s1
    have h1 : SameFn d f s s1 := onDie s rfl
    have hen : (s1.die d).ringEn f 16 = false := by
      unfold s1
      rw [State.die_onDie_same]
      exact h
    have key (l : List Nat) (hl : ∀ i ∈ l, i < 250) (t : State) : SameFn d f t (l.foldl (fun t i => Machine.settleLevel t d i) t) ∧
        OnlyRecords t (l.foldl (fun t i => Machine.settleLevel t d i) t) := by
      refine ⟨?_, .foldl _ _ (fun t i hi => .settleLevel t d i (hl i hi)) t⟩
      clear hl
      induction l generalizing t with
      | nil => exact refl t
      | cons i l ih => exact (settleLevel t i).trans (ih _)
    obtain ⟨h2, hrec⟩ := key levelSources levelSources_lt s1
    exact (h1.trans h2).trans (setMode ((hrec.ringEn d f).trans hen) id)
  · exact refl s

/-- A function without an enabled event ring stays while a state settles. -/
theorem settle (h : (s.die d).ringEn f 16 = false) : SameFn d f s (settle s) := by
  unfold Machine.settle
  cases d with
  | cd0 => exact (settleDie h).trans (congrArg (Die.fn · f) (settleDie_other _ (by decide)))
  | cd1 =>
    have h0 : (Machine.settleDie s .cd0).die .cd1 = s.die .cd1 := settleDie_other s (by decide)
    exact SameFn.trans (t := Machine.settleDie s .cd0) (congrArg (Die.fn · f) h0) (settleDie (by rw [h0, h]))

end SameFn

/-! ## The reset of a function -/

/-- The host-interface page of a function but HIF_RESET_CNT. -/
def flrPage (f k : Nat) : Bool := decide (k / 0x10000 = f) && decide (0xF000 ≤ k % 0x10000) && decide (k ≠ Reg.HIF_RESET_CNT f)

/-- The reads and the state of a function that its reset drops, its dither runs left without it. -/
def Die.fnDropped (f : Fin 4) (ticks : Nat) (x : Die) : Die :=
  { x with reads := x.reads.filter (fun (h : HostRead) => h.fn ≠ f.val),
           dither := x.dither.map (fun (r : DitherRun) => if r.fn = f.val then { r with fn := 4 } else r) }.setFn f
    { Fn.reset with lastChange := ticks }

/-- The registers of a function's pages at their power-on values. -/
def Die.pagesReset (f : Fin 4) (x : Die) : Die :=
  (x.porRegs (flrPage f) (fun _ => true)).porRegs (fun k => decide (k / 0x10000 = f.val) && !flrPage f k) (fun a => a == Access.rw)

/-- What the reset of a function makes of its die while the function has no command. -/
def Die.fnCleared (f : Fin 4) (ticks : Nat) (x : Die) : Die :=
  (((x.fnDropped f ticks).pagesReset f).setRf (Reg.HIF_RESET_CNT f) F.HIF_RESET_CNT_ORPHANED 0).setRf (Reg.HIF_RESET_CNT f)
    F.HIF_RESET_CNT_ABORTED 0

section Cleared
variable (x : Die) (f : Fin 4) (ticks : Nat)

theorem Die.pagesReset_eq : ∃ l, x.pagesReset f = { x with regs := l } := by
  unfold Die.pagesReset
  obtain ⟨l1, h1⟩ := x.porRegs_eq (flrPage f) (fun _ => true)
  rw [h1]
  exact Die.porRegs_eq { x with regs := l1 } ..

/-- All but registers. -/
theorem Die.fnCleared_eq : ∃ l, x.fnCleared f ticks = { x.fnDropped f ticks with regs := l } := by
  unfold Die.fnCleared
  obtain ⟨l, h⟩ := (x.fnDropped f ticks).pagesReset_eq f
  rw [h]
  exact ⟨_, rfl⟩

/-- A field of the word that another field is written into. -/
theorem Die.rf_setRf {g h : Fld} (hg : g.lo ≤ g.hi) (h32 : g.hi < 32) (k v : Nat) : (x.setRf k h v).rf k g = fget g (fput h (x.reg k) v) := by
  unfold Die.setRf Die.rf
  rw [Die.reg_setReg_same, fget_mod_word g h32 hg]

theorem Die.fnCleared_counts : (x.fnCleared f ticks).rf (Reg.HIF_RESET_CNT f) F.HIF_RESET_CNT_ORPHANED = 0 ∧
    (x.fnCleared f ticks).rf (Reg.HIF_RESET_CNT f) F.HIF_RESET_CNT_ABORTED = 0 := by
  unfold Die.fnCleared
  generalize (x.fnDropped f ticks).pagesReset f = y
  refine ⟨?_, ?_⟩
  · rw [Die.rf_setRf _ (by decide) (by decide), fget_fput_other _ _ (by decide) (by decide) (by decide), ← Die.rf,
      Die.rf_setRf _ (by decide) (by decide), fget_fput_same _ (by decide), Nat.zero_mod]
  · rw [Die.rf_setRf _ (by decide) (by decide), fget_fput_same _ (by decide), Nat.zero_mod]

theorem Die.pagesReset_ringEn : (x.pagesReset f).ringEn f 16 = false := by
  have hpage : ∀ f : Fin 4, flrPage f (Reg.HIF_RING_CFG f 16) = true := by decide
  have hpor := (ringCfg_fields f).1
  have h0 : (x.pagesReset f).rf (Reg.HIF_RING_CFG f 16) F.HIF_RING_CFG_EN = 0 := by
    unfold Die.pagesReset Die.rf
    rw [Die.reg_porRegs_other _ _ (by rw [hpage f, Bool.not_true, Bool.and_false])]
    exact Die.rf_porRegs _ (hpage f) (by rw [hpor]; decide) fun w => by rw [porWord_ringCfg]; decide
  unfold Die.ringEn Die.rbit
  rw [h0]
  rfl

theorem Die.fnCleared_ringEn : (x.fnCleared f ticks).ringEn f 16 = false := by
  have hcnt : Reg.HIF_RING_CFG f 16 ≠ Reg.HIF_RESET_CNT f := by unfold Reg.HIF_RING_CFG Reg.HIF_RESET_CNT; omega
  have h := (x.fnDropped f ticks).pagesReset_ringEn f
  unfold Die.fnCleared
  unfold Die.ringEn Die.rbit Die.rf at h ⊢
  rw [Die.setRf, Die.reg_setReg_other _ hcnt, Die.setRf, Die.reg_setReg_other _ hcnt, h]

end Cleared

/-- What its reset takes of the commands: those the function has that have begun are orphans, the others are aborted. -/
theorem Die.cmds_of_none {x : Die} {f : Nat} (hc : ∀ c ∈ x.cmds, originFn c.origin ≠ some f) :
    (x.cmds.filter (fun (c : Cmd) => !(originFn c.origin = some f && !c.begun))).map
      (fun (c : Cmd) => if originFn c.origin = some f then { c with orphan := true } else c) = x.cmds := by
  rw [List.filter_eq_self.2 fun c hm => by simp [hc c hm]]
  exact (List.map_congr_left fun c hm => if_neg (hc c hm)).trans (List.map_id' _)

/-- A function without commands and fetched descriptors is reset. -/
theorem functionReset_eq {d : DieId} {f : Fin 4} {s : State} (hrun : (s.die d).running = true)
    (hc : ∀ c ∈ (s.die d).cmds, originFn c.origin ≠ some f.val) (hr : ∀ r, ((s.die d).ring f r).fetched = []) (byReg : Bool) :
    functionReset d f byReg s = raise (s.onDie d (·.fnCleared f s.ticks)) d 166 := by
  unfold functionReset
  extract_lets x waiting mine aborted begun s1 fn0 page s2
  rw [if_neg (by rw [show x.running = true from hrun]; decide)]
  have hmine : mine = [] := List.filter_eq_nil_iff.2 fun c hm => by simpa using hc c hm
  have hwait : waiting = [] := by simp [waiting, x, hr]
  have hab : aborted = [] := by unfold aborted; rw [hmine]; rfl
  have hbe : begun = [] := by unfold begun; rw [hmine]; rfl
  have hs1 : s1 = s := by
    unfold s1
    rw [hwait, hab]
    exact ite_self s
  have hs2 : s2 = s.onDie d (·.fnCleared f s.ticks) := by
    unfold s2
    rw [hs1, hwait, hab, hbe]
    unfold State.onDie
    simp only [Die.cmds_of_none hc]
    rfl
  rw [hs2]

theorem functionLevelReset_answers {d : DieId} {f : Fin 4} {s : State} (hb : (s.die d).barOpen = true)
    (hc : ∀ c ∈ (s.die d).cmds, originFn c.origin ≠ some f.val) (hr : ∀ r, ((s.die d).ring f r).fetched = []) (byReg : Bool) :
    Answers (.functionLevelReset d f byReg) s (fun t => let y := t.die d
      (y.fn f) = { Fn.reset with lastChange := s.ticks } ∧ y.cmds = (s.die d).cmds ∧ (∀ h ∈ y.reads, h.fn ≠ f.val) ∧
      y.rf (Reg.HIF_RESET_CNT f) F.HIF_RESET_CNT_ORPHANED = 0 ∧ y.rf (Reg.HIF_RESET_CNT f) F.HIF_RESET_CNT_ABORTED = 0 ∧
      (∀ g : Fin 4, g ≠ f → (y.fn g).subs = ((s.die d).fn g).subs) ∧ y.dealer = (s.die d).dealer) := by
  let u := s.onDie d (·.fnCleared f s.ticks)
  have hud : u.die d = (s.die d).fnCleared f s.ticks := State.die_onDie_same ..
  have hrow : exec (.functionLevelReset d f byReg) s = done (raise u d 166) :=
    (exec_of_doneBar (f := functionReset d f.val byReg) hb rfl).trans
      (congrArg done (functionReset_eq (Die.running_of_barOpen hb) hc hr byReg))
  have hraise : OnlyRecords u (raise u d 166) := .raise _ _ _ _ (by decide)
  have hrec : OnlyRecords u (settle (raise u d 166)) := hraise.trans (.settle _)
  have hfn : SameFn d f u (settle (raise u d 166)) :=
    (SameFn.raise u 166 0).trans (.settle (by rw [hraise.ringEn, hud, Die.fnCleared_ringEn]))
  obtain ⟨l, hl⟩ := (s.die d).fnCleared_eq f s.ticks
  have hcnt : ∀ f : Fin 4, recordKey (Reg.HIF_RESET_CNT f) = false := by decide
  have hrf (g : Fld) : ((settle (raise u d 166)).die d).rf (Reg.HIF_RESET_CNT f) g = ((s.die d).fnCleared f s.ticks).rf (Reg.HIF_RESET_CNT f) g := by
    rw [← hud]
    exact congrArg (fget g) (hrec.regs d _ (hcnt f))
  obtain ⟨horph, habort⟩ := (s.die d).fnCleared_counts f s.ticks
  refine ⟨_, hrow, ?_⟩
  refine ⟨?_, ?_, fun h hm => ?_, (hrf _).trans horph, (hrf _).trans habort, fun g hg => ?_, ?_⟩
  · refine Eq.trans hfn ?_
    rw [hud, hl]
    exact Die.fn_setFn_same ..
  · refine (hrec.die_eq d (·.cmds) fun _ => rfl).trans ?_
    rw [hud, hl]
    rfl
  · rw [hrec.die_eq d (·.reads) fun _ => rfl, hud, hl] at hm
    simpa using (List.mem_filter.1 hm).2
  · refine (hrec.die_eq d (fun x => (x.fn g).subs) fun x => ?_).trans ?_
    · simp [Die.fn, Die.quiet, Fn.quiet]
    · rw [hud, hl]
      exact congrArg Fn.subs (Die.fn_setFn_other _ (by omega) _)
  · refine (hrec.die_eq d (·.dealer) fun _ => rfl).trans ?_
    rw [hud, hl]
    rfl

/-- Settles O43: a reset of the module stops both dies, so that its state is exact; those of a die or a function by what settling leaves. -/
theorem resetsActByScope : Obligations.ResetsActByScope := by
  unfold Obligations.ResetsActByScope
  refine ⟨fun s => ?_, fun d s => ?_⟩
  · refine ⟨powerOn_answers, fun r => supplyBelowHold_answers r s, fun r hi => supplyExcursion_answers r hi s, fun h => ?_, fun h => ?_,
      suppliesRestored_boots, suppliesRestored_holds, fun h => ?_, modrstAssert_answers, fun h => ?_, fun h hlong => ?_, fun h => ?_,
      modrstRelease_answers⟩
    · refine .of_row (f := suppliesRestored) rfl ?_
      unfold suppliesRestored
      rw [h, if_neg (by decide), if_pos rfl]
    · exact .of_row (f := suppliesRestored) rfl (if_pos h)
    · exact .of_row (f := modrstAssert) rfl (if_pos h)
    · refine .of_row (f := modrstHeldLong) rfl (if_neg ?_)
      rw [Bool.and_eq_true, decide_eq_true_eq]
      rintro ⟨hlow, hlong⟩
      rcases h with h | h
      · rw [h] at hlow; cases hlow
      · exact absurd hlong (Nat.not_lt.2 h)
    · exact .of_row (f := modrstHeldLong) rfl (if_pos (by rw [h, decide_eq_true hlong]; rfl))
    · exact .of_row (f := modrstRelease) rfl (if_pos (by rw [h]; rfl))
  · intro x bit
    refine ⟨?_, ?_, fun v => ?_, fun k a h => ⟨fun hk ha => ?_, fun hk => ?_⟩, fun f byReg h => ?_, fun f hb hc hr byReg => ?_⟩
    · intro s1
      refine ⟨fun h => .of_row (f := cdrstAssert d) rfl (cdrstAssert_pin h), fun hm hp => ⟨.of_row (f := cdrstAssert d) rfl (cdrstAssert_resets hm hp), ?_⟩⟩
      obtain ⟨hlife, hcause, hmir⟩ := dieReset_holds (s := s1) (d := d) (kind := 2) (.inr rfl)
      refine .of_done (congrArg done (cdrstAssert_resets hm hp)) fun t ht => ⟨?_, ?_, ?_⟩
      · rw [ht.die_life, hlife]
      · rw [ht.regs d _ (by decide), hcause]
        rfl
      · rw [ht.mirrorLink, hmir]
    · intro s1
      exact ⟨fun a h => .of_row (f := cdrstRelease d) rfl (cdrstRelease_boots h), fun h => .of_row (f := cdrstRelease d) rfl (cdrstRelease_pin h)⟩
    · intro go
      refine ⟨fun h => .of_row (f := softwareReset d v.toNat) rfl (softwareReset_ignored h), fun h hd => ?_,
        fun h hd => .of_row (f := softwareReset d v.toNat) rfl (softwareReset_declarer h hd)⟩
      have hrow := softwareReset_dummy h hd
      obtain ⟨hlife, hcause, -⟩ := dieReset_holds (s := s) (d := d) (kind := 3) (.inl (Bool.and_eq_true_iff.1 h).2)
      refine ⟨.of_row (f := softwareReset d v.toNat) rfl hrow, .of_done (congrArg done hrow) fun t ht => ⟨?_, ?_⟩⟩
      · rw [ht.die_life, hlife]
      · rw [ht.regs d _ (by decide), hcause]
        rfl
    · exact .of_row (f := softResetRelease d) rfl (softResetRelease_boots h hk ha)
    · exact .of_row (f := softResetRelease d) rfl (softResetRelease_waits h hk)
    · exact .of_doneBar_shut (f := functionReset d f.val byReg) h rfl
    · exact functionLevelReset_answers hb hc hr byReg

end Sys2Proof.Machine
end

section
/-!
PROOFS. What a stop of the Dealer, of decks, loops and checks leaves of the bank dies' sensors and links.
-/

namespace Sys2Proof.Machine

/-! ## The sensors and links of the bank dies -/

/-- What the thermal managers see of a bank die: its own sensor and the states of its links. -/
def Bank.sensed (k : Bank) : Int × Nat × Nat := (k.own, k.linkA.state, k.linkB.state)

theorem Bank.up_of_sensed {k l : Bank} (h : l.sensed = k.sensed) (d : DieId) : l.up d = k.up d := by
  obtain ⟨ha, hb⟩ := Prod.mk.inj (congrArg Prod.snd h)
  cases d
  · exact congrArg (decide <| · = 2) ha
  · exact congrArg (decide <| · = 2) hb

/-- From s to t the bank dies' sensors, their links' states and the mirror link stay. -/
structure KeepsReach (s t : State) : Prop where
  bank : ∀ b, (t.bank b).sensed = (s.bank b).sensed
  mirror : t.mirror = s.mirror

theorem Bank.sensed_heard (k : Bank) (p : DieId) (t : Nat) : (k.heard p t).sensed = k.sensed := by
  unfold Bank.heard
  split <;> rfl

theorem Bank.sensed_unblind (k : Bank) : k.unblind.sensed = k.sensed := by
  unfold Bank.unblind
  split <;> rfl

theorem Bank.sensed_receive (k : Bank) (p : DieId) (t : Nat) (drive : Bool) : (k.receive p t drive).sensed = k.sensed := by
  have h : ((k.setLink p { k.link p with bad := 0 }).heard p t).sensed = k.sensed := by
    rw [Bank.sensed_heard]
    cases p <;> rfl
  unfold Bank.receive
  extract_lets l
  split
  · exact (Bank.sensed_unblind _).trans h
  · exact h

namespace KeepsReach
variable {s t u : State}

theorem refl (s : State) : KeepsReach s s := ⟨fun _ => rfl, rfl⟩

theorem trans (h : KeepsReach s t) (k : KeepsReach t u) : KeepsReach s u := ⟨fun b => (k.bank b).trans (h.bank b), k.mirror.trans h.mirror⟩

theorem of_links (h : KeepsLinks s t) : KeepsReach s t := ⟨fun b => congrArg Bank.sensed (h.bank b), h.mirror⟩

theorem of_records (h : OnlyRecords s t) : KeepsReach s t := of_links (.of_records h)

theorem onDie (s : State) (d : DieId) (f : Die → Die) : KeepsReach s (s.onDie d f) := of_links (.onDie ..)

theorem setDie (s : State) (d : DieId) (x : Die) : KeepsReach s (s.setDie d x) := onDie s d fun _ => x

theorem emit (s : State) (o : Out) : KeepsReach s (s.emit o) := of_links (.emit ..)

theorem drawn (s : State) : KeepsReach s s.drawn := ⟨fun _ => rfl, rfl⟩

theorem onBank (s : State) (b : Nat) {f : Bank → Bank} (hf : ∀ k, (f k).sensed = k.sensed) : KeepsReach s (s.onBank b f) := by
  refine ⟨fun c => ?_, State.onBank_mirror ..⟩
  by_cases h : c % 8 = b % 8
  · have hc (v : State) : v.bank c = v.bank b := by simp only [State.bank, h]
    rw [hc, hc, State.bank_onBank_same, hf]
  · rw [State.bank_onBank_other s h]

theorem foldl {α : Type} (g : State → α → State) (h : ∀ t a, KeepsReach t (g t a)) (l : List α) (s : State) : KeepsReach s (l.foldl g s) := by
  induction l generalizing s with
  | nil => exact .refl s
  | cons a l ih => exact (h s a).trans (ih _)

theorem up (h : KeepsReach s t) (b : Nat) (d : DieId) : (t.bank b).up d = (s.bank b).up d := Bank.up_of_sensed (h.bank b) d

theorem raise (s : State) (d : DieId) (src inst : Nat) : KeepsReach s (raise s d src inst) := of_links (.raise ..)

theorem finish (s : State) (d : DieId) (id status result frac aux : Nat) : KeepsReach s (finish s d id status result frac aux) := of_links (.finish ..)

theorem shadowed (s : State) (d : DieId) (f : Die → Die) : KeepsReach s (shadowed s d f) := by
  unfold Machine.shadowed
  extract_lets s1
  split
  · exact (onDie ..).trans (.onDie ..)
  · exact .onDie ..

/-- A message on those of the bank links that are up. -/
theorem sendUp (s : State) (d : DieId) (kind : Nat) (fields : List Nat) :
    KeepsReach s ((List.range 8).foldl (fun s b => if (s.bank b).up d then s.emit (.bank d b kind fields) else s) s) := by
  refine .foldl _ (fun t b => ?_) _ s
  split
  · exact .emit ..
  · exact .refl t

/-! ## Deals and checks -/

theorem cancelSent (s : State) (d : DieId) (dl : Deal) : KeepsReach s (cancelSent s d dl) := by
  unfold Machine.cancelSent
  split
  · exact .sendUp ..
  · exact .refl s

theorem checkGone (s : State) (d : DieId) (p : Nat) : KeepsReach s (checkGone s d p) := by
  unfold Machine.checkGone
  extract_lets x mine keep s1
  have h1 : KeepsReach s s1 := .onDie ..
  split
  · exact h1
  · exact h1.trans (.foldl _ (fun _ _ => (onDie ..).trans (.cancelSent ..)) _ _)

theorem checksGone (s : State) (d : DieId) (p : Nat → Bool) : KeepsReach s (checksGone s d p) := .foldl _ (fun t q => checkGone t d q) _ s

/-! ## Decks -/

theorem deckCmdDone (s : State) (d : DieId) (cmds : List Nat) (op inst : Nat) : KeepsReach s (deckCmdDone s d cmds op inst) :=
  .foldl _ (fun _ _ => .finish ..) cmds s

theorem disarmNext (s : State) (d : DieId) : KeepsReach s (disarmNext s d) := by
  unfold Machine.disarmNext
  extract_lets dk cur s1
  have h1 : KeepsReach s s1 := .onDie ..
  split
  · split
    · exact h1.trans (.foldl _ (fun _ _ => .finish ..) _ _)
    · exact h1
  · exact h1

theorem deckEvent (s : State) (d : DieId) (ev slot epoch at_ : Nat) : KeepsReach s (deckEvent s d ev slot epoch at_) := by
  unfold Machine.deckEvent
  extract_lets s1
  exact (of_records (.eventMirrored ..)).trans (.foldl _ (fun _ _ => of_links (.sendAgent ..)) _ _)

theorem disarmDecks (s : State) (d : DieId) : KeepsReach s (disarmDecks s d) := by
  unfold Machine.disarmDecks
  extract_lets s1 s2
  have h1 : KeepsReach s s1 := .disarmNext s d
  have h2 : KeepsReach s1 s2 := by
    unfold s2
    split
    · split
      · exact .foldl _ (fun t _ => (drawn t).trans (.finish ..)) _ _
      · exact .refl s1
    · exact .refl s1
  exact (h1.trans h2).trans (.onDie ..)

theorem deckChange (s : State) (d : DieId) (inst : Nat) (dealt : Bool) : KeepsReach s (deckChange s d inst dealt) := by
  unfold Machine.deckChange
  split
  · extract_lets run s1 s2
    have h1 : KeepsReach s s1 := .onDie ..
    have h2 : KeepsReach s1 s2 := by
      unfold s2
      split
      · exact .deckCmdDone ..
      · exact .refl s1
    split
    · exact (h1.trans h2).trans ((deckEvent ..).trans (.deckCmdDone ..))
    · exact (h1.trans h2).trans (.deckEvent ..)
  · exact .refl s

theorem deckStopped (s : State) (d : DieId) (k inst : Nat) : KeepsReach s (deckStopped s d k inst) := by
  unfold Machine.deckStopped
  split
  · exact .refl s
  · extract_lets s1 s2 s3
    have h3 : KeepsReach s s3 := ((disarmNext s d).trans (.onDie ..)).trans (.deckEvent ..)
    split
    · exact h3.trans (.deckCmdDone ..)
    · exact h3

theorem boundaryPast (s : State) (d : DieId) (k inst : Nat) (change : Bool) : KeepsReach s (boundaryPast s d k inst change) := by
  unfold Machine.boundaryPast
  split
  · exact .refl s
  · extract_lets stopHere last
    split_ifs
    · exact .deckChange ..
    · exact .deckStopped ..
    · exact .onDie ..

theorem boundaryVoid (s : State) (d : DieId) (k inst : Nat) (change : Bool) : KeepsReach s (boundaryVoid s d k inst change) := by
  unfold Machine.boundaryVoid
  extract_lets s1
  have h1 : KeepsReach s s1 := .shadowed ..
  split
  · exact h1
  · exact h1.trans ((deckEvent ..).trans (.boundaryPast ..))

/-! ## Messages of a holder -/

theorem bankDiff (s : State) (b : Nat) (missing : Bool) : KeepsReach s (bankDiff s b missing) := by
  unfold Machine.bankDiff
  extract_lets s1 s2
  have h1 : KeepsReach s s1 := .onBank s b fun k => by split <;> rfl
  have h2 : KeepsReach s1 s2 := (onDie ..).trans (.onDie ..)
  split
  · unfold noteDiff
    exact (h1.trans h2).trans ((raise ..).trans (.onDie ..))
  · exact h1.trans h2

theorem compareCopy (s : State) (p : DieId) (b kind elem n : Nat) (fields : List Nat) : KeepsReach s (compareCopy s p b kind elem n fields) := by
  unfold Machine.compareCopy
  extract_lets k
  split
  · exact .refl s
  · split
    · extract_lets s1
      have h1 : KeepsReach s s1 := .onBank s b fun _ => rfl
      split
      · exact h1
      · exact h1.trans (.bankDiff ..)
    · exact .onBank s b fun _ => rfl

theorem holderMsg (s : State) (p : DieId) (b kind elem n : Nat) (fields : List Nat) (drive : Bool) {f : State → State} (hf : ∀ t, KeepsReach t (f t)) :
    KeepsReach s (holderMsg s p b kind elem n fields drive f) := by
  unfold Machine.holderMsg
  extract_lets k s1
  split_ifs
  · exact .refl s
  · exact ((onBank s b fun k => k.sensed_receive ..).trans (.compareCopy ..)).trans (hf _)
  · unfold tokenRefuse
    refine (onBank s b ?_).trans (.emit ..)
    exact fun _ => rfl
  · exact .compareCopy ..

theorem readStore (s : State) (d : DieId) (e : Nat) : KeepsReach s (readStore s d e).1 := by
  unfold Machine.readStore
  extract_lets b l k n st s1
  have h1 : KeepsReach s s1 := by
    refine holderMsg s d _ _ e _ [] false fun t => ?_
    unfold sendBoth
    refine KeepsReach.trans (onBank t b ?_) ((emit ..).trans (.emit ..))
    exact fun _ => rfl
  have h2 (f : Die → Die) : KeepsReach s1 (s1.onDie d f, st).1 := onDie s1 d f
  exact h1.trans (h2 _)

theorem driveOut (s : State) (d : DieId) (e : Nat) (out : DriveOut) (code : Nat) (x2 : Bool) (group : Nat) :
    KeepsReach s (driveOut s d e out code x2 group) := by
  unfold Machine.driveOut
  extract_lets el s1
  split
  · exact (onDie ..).trans (.emit ..)
  · exact .onDie ..

/-! ## Dither runs and surveys -/

theorem stimOut (s : State) (d : DieId) (act : Nat) (v : Int) (e : Nat) : KeepsReach s (stimOut s d act v e).1 := by
  unfold Machine.stimOut
  dsimp only
  split_ifs <;> exact .driveOut ..

theorem ditherLeave (s : State) (d : DieId) (cmd e : Nat) : KeepsReach s (ditherLeave s d cmd e) := by
  unfold Machine.ditherLeave
  split
  · exact .refl s
  · extract_lets left s1 s2
    have h1 : KeepsReach s s1 := .stimOut ..
    have h2 : KeepsReach s1 s2 := (onBank s1 (bankOf e) (f := fun k => k.onChan _ _) fun _ => rfl).trans (.onDie ..)
    split
    · exact (h1.trans h2).trans ((onDie ..).trans (.finish ..))
    · exact (h1.trans h2).trans (.onDie ..)

theorem ditherAbort (s : State) (d : DieId) (e : Nat) : KeepsReach s (ditherAbort s d e) := by
  unfold Machine.ditherAbort
  split
  · exact .refl s
  · refine (readStore s d e).trans (.trans ?_ (.ditherLeave ..))
    unfold ditherRecord
    split
    next hf => exact of_records (.telem _ d _ _ _ _ _ hf)
    next => exact .refl _

theorem ditherStop (s : State) (d : DieId) (sel : DitherRun → Bool) : KeepsReach s (ditherStop s d sel) := .foldl _ (fun t e => .ditherAbort t d e) _ s

theorem surveyAbort (s : State) (d : DieId) : KeepsReach s (surveyAbort s d) := by
  unfold Machine.surveyAbort surveyRestore
  split
  · exact .refl s
  · exact (onDie ..).trans ((driveOut ..).trans (.driveOut ..))

/-! ## Takes and withdrawals -/

theorem takeEnds (s : State) (d : DieId) (k : Take) (status : Nat) : KeepsReach s (takeEnds s d k status) := by
  unfold Machine.takeEnds
  split
  · exact .finish ..
  · unfold trumpLeave
    split
    · exact .onDie ..
    · exact .refl s

theorem placeTake (s : State) (d : DieId) (k : Take) : KeepsReach s (placeTake s d k).1 := by
  unfold Machine.placeTake
  extract_lets x
  split
  · exact .setDie ..
  · split
    · exact .refl s
    · extract_lets p s1 x1
      have h1 : KeepsReach s s1 := by
        unfold s1
        split
        · exact .shadowed ..
        · exact .refl s
      split
      · exact h1.trans (.setDie ..)
      · exact h1.trans (.setDie ..)
      · split
        · exact .refl s
        · exact h1.trans (.setDie ..)

theorem lateTake (s : State) (d : DieId) (k : Take) (mayReplace : Bool) : KeepsReach s (lateTake s d k mayReplace) := by
  unfold Machine.lateTake
  extract_lets s1 t1
  have h1 : KeepsReach s s1 := .shadowed ..
  split_ifs
  · exact h1.trans (.takeEnds ..)
  · exact h1.trans (.takeEnds ..)
  · have h2 : KeepsReach s1 (Machine.placeTake s1 d t1).1 := .placeTake ..
    split <;> rename_i heq <;> rw [heq] at h2
    · exact (h1.trans h2).trans (.onDie ..)
    · exact (h1.trans h2).trans (.takeEnds ..)
    · exact (h1.trans h2).trans (.takeEnds ..)

theorem withdrawOne (s : State) (d : DieId) (dl : Deal) (replace : Bool) : KeepsReach s (withdrawOne s d dl replace) := by
  unfold Machine.withdrawOne
  extract_lets s2 s3 s4
  have h2 : KeepsReach s s2 := (onDie ..).trans (.cancelSent ..)
  have h3 : KeepsReach s2 s3 := (shadowed ..).trans (.raise ..)
  have h4 : KeepsReach s3 s4 := by
    unfold s4
    split
    · exact .boundaryVoid ..
    · exact .shadowed ..
    · exact .onDie ..
    · exact .onDie ..
    · split
      · exact .onDie ..
      · exact .refl s3
    · split
      · exact .onDie ..
      · exact .refl s3
    · extract_lets s4
      split
      · exact (checkGone ..).trans (.onDie ..)
      · exact .checkGone ..
    · exact .refl s3
  exact ((h2.trans h3).trans h4).trans (.foldl _ (fun _ _ => .lateTake ..) _ _)

theorem withdrawAll (s : State) (d : DieId) (held : Bool) : KeepsReach s (withdrawAll s d held) := .foldl _ (fun _ _ => .withdrawOne ..) _ s

theorem stopDealer (s : State) (d : DieId) : KeepsReach s (stopDealer s d) := by
  unfold Machine.stopDealer
  extract_lets s1 s2
  have h1 : KeepsReach s s1 := (checksGone ..).trans (.onDie ..)
  have h2 : KeepsReach s1 s2 := ((disarmDecks ..).trans (.onDie ..)).trans (.ditherStop ..)
  exact (h1.trans h2).trans ((surveyAbort ..).trans (.withdrawAll ..))

end KeepsReach

/-! ## The lives and thermal managers of the control dies -/

/-- What the thermal managers' work rests on: the life of a die and its thermal manager. -/
def Die.heat (x : Die) : Life × Thermal := (x.life, x.thm)

theorem Die.heat_of_quiet {x y : Die} (h : y.quiet = x.quiet) : y.heat = x.heat := Prod.ext (congrArg Die.life h :) (congrArg Die.thm h :)

theorem Die.heat_of_units {x y : Die} (h : y.units = x.units) : y.heat = x.heat := Prod.ext (congrArg Die.life h :) (congrArg Die.thm h :)

theorem Die.heat_setReg (x : Die) (k v : Nat) : (x.setReg k v).heat = x.heat := Prod.ext (x.setReg_life k v) (x.setReg_thm k v)

/-- Loops, transition and Dealer are no part of it. -/
theorem Die.heat_dealt (x : Die) (h : Sparse Elem) (t : Transition) (v : Dealer) : { x with hold := h, trans := t, dealer := v }.heat = x.heat := rfl

/-- From s to t the dies keep their lives and thermal managers, and the bank dies their sensors and links. -/
structure KeepsHeat (s t : State) : Prop where
  reach : KeepsReach s t
  die : ∀ d, (t.die d).heat = (s.die d).heat

namespace KeepsHeat
variable {s t u : State}

theorem refl (s : State) : KeepsHeat s s := ⟨.refl s, fun _ => rfl⟩

theorem trans (h : KeepsHeat s t) (k : KeepsHeat t u) : KeepsHeat s u := ⟨h.reach.trans k.reach, fun d => (k.die d).trans (h.die d)⟩

theorem of_units (h : KeepsUnits s t) (k : KeepsReach s t) : KeepsHeat s t := ⟨k, fun d => Die.heat_of_units (h.die d)⟩

theorem of_steady (h : Steady s t) (k : KeepsReach s t) : KeepsHeat s t := of_units (.of_steady h) k

theorem of_records (h : OnlyRecords s t) : KeepsHeat s t := of_units (.of_records h) (.of_records h)

theorem foldl {α : Type} (g : State → α → State) (h : ∀ t a, KeepsHeat t (g t a)) (l : List α) (s : State) : KeepsHeat s (l.foldl g s) := by
  induction l generalizing s with
  | nil => exact .refl s
  | cons a l ih => exact (h s a).trans (ih _)

theorem onDie (s : State) (d : DieId) {f : Die → Die} (h : ∀ x, (f x).heat = x.heat) : KeepsHeat s (s.onDie d f) :=
  ⟨.onDie .., fun e => die_onDie_keeps Die.heat h s d e⟩

theorem emit (s : State) (o : Out) : KeepsHeat s (s.emit o) := ⟨.emit .., fun e => congrArg Die.heat (s.die_emit o e)⟩

theorem setReg (s : State) (d : DieId) (k : Nat) (v : Die → Nat) : KeepsHeat s (s.onDie d (fun x => x.setReg k (v x))) :=
  onDie s d fun x => x.heat_setReg ..

theorem raise (s : State) (d : DieId) (src inst : Nat) : KeepsHeat s (raise s d src inst) := by
  unfold Machine.raise
  split
  · exact onDie s d fun x => Die.heat_of_quiet (x.quiet_occur ..)
  · exact .refl s

theorem shadowed (s : State) (d : DieId) {f : Die → Die} (h : ∀ x, (f x).heat = x.heat) : KeepsHeat s (shadowed s d f) := by
  unfold Machine.shadowed
  extract_lets s1
  split
  · exact (onDie s d h).trans (onDie _ d.peer h)
  · exact onDie s d h

/-! ## Loops -/

theorem onElem (s : State) (d : DieId) (e : Nat) (f : Elem → Elem) : KeepsHeat s (s.onDie d (·.onElem e f)) := of_steady (.onElem ..) (.onDie ..)

theorem driveOut (s : State) (d : DieId) (e : Nat) (out : DriveOut) (code : Nat) (x2 : Bool) (group : Nat) : KeepsHeat s (driveOut s d e out code x2 group) :=
  of_steady (.driveOut ..) (.driveOut ..)

theorem loopOut (s : State) (d : DieId) (e : Nat) (out : DriveOut) (code : Nat) (x2 : Bool) (group : Nat) : KeepsHeat s (loopOut s d e out code x2 group) := by
  unfold Machine.loopOut
  split
  · exact .refl s
  · exact .driveOut ..

theorem holdCell (s : State) (d : DieId) (c : Nat) : KeepsHeat s (holdCell s d c) :=
  KeepsHeat.trans (.onElem s d c _) ((loopOut ..).trans (.loopOut ..))

theorem missUpdate (s : State) (d : DieId) (e : Nat) : KeepsHeat s (missUpdate s d e) := by
  unfold Machine.missUpdate
  extract_lets el s1
  have h1 : KeepsHeat s s1 := (onElem ..).trans (.setReg ..)
  split
  · exact h1.trans ((raise ..).trans (.of_records (.elementEvent ..)))
  · exact h1

theorem setEng (s : State) (d : DieId) (g : Engines) : KeepsHeat s (s.onDie d (fun x => { x with eng := g })) := of_steady (.setEng ..) (.onDie ..)

theorem onEng (s : State) (d : DieId) (f : Engines → Engines) : KeepsHeat s (s.onDie d (·.onEng f)) := of_steady (.onEng ..) (.onDie ..)

theorem placeTask (s : State) (d : DieId) (t : Task) : KeepsHeat s (placeTask s d t) := by
  unfold Machine.placeTask placeIn
  extract_lets g
  split
  · extract_lets s1
    split
    · exact (setEng ..).trans (.setReg ..)
    · exact .setEng ..
  · exact (setEng ..).trans ((missUpdate ..).trans (.raise ..))

theorem queueTask (s : State) (d : DieId) (e type : Nat) : KeepsHeat s (queueTask s d e type) := by
  unfold Machine.queueTask
  extract_lets g
  split
  · exact .onEng ..
  · exact .onEng ..
  · split
    · exact .onEng ..
    · exact (onEng ..).trans (.placeTask ..)

theorem activate (s : State) (d : DieId) (e burst type : Nat) : KeepsHeat s (activate s d e burst type) := by
  unfold Machine.activate
  extract_lets el s0 s1
  split
  · exact .refl s
  · have h1 : KeepsHeat s s1 := by
      unfold s1
      split
      · exact .onElem ..
      · exact (of_steady (.readStore ..) (.readStore ..)).trans (.onElem ..)
    exact h1.trans (.queueTask ..)

theorem blindCell (s : State) (d : DieId) (c : Nat) : KeepsHeat s (blindCell s d c) := by
  unfold Machine.blindCell
  extract_lets el
  split
  · exact .emit ..
  · exact .refl s

theorem beginHandoff (s : State) (d : DieId) (c t : Nat) : KeepsHeat s (beginHandoff s d c t) := by
  unfold Machine.beginHandoff
  extract_lets el s1
  have h1 : KeepsHeat s s1 := .onElem ..
  exact h1.trans ((loopOut ..).trans ((blindCell ..).trans (.activate ..)))

/-! ## The Dealer and the mode -/

theorem deckEvent (s : State) (d : DieId) (ev slot epoch at_ : Nat) : KeepsHeat s (deckEvent s d ev slot epoch at_) := of_units (.deckEvent ..) (.deckEvent ..)

theorem withdrawAll (s : State) (d : DieId) (held : Bool) : KeepsHeat s (withdrawAll s d held) := of_units (.withdrawAll ..) (.withdrawAll ..)

theorem stopDealer (s : State) (d : DieId) : KeepsHeat s (stopDealer s d) := of_units (.stopDealer ..) (.stopDealer ..)

theorem mirrored (s : State) (d : DieId) : KeepsHeat s (mirrorDecks (mirrorDealer s d) d) :=
  of_records ((OnlyRecords.mirrorDealer ..).trans (.mirrorDecks ..))

theorem setMode (s : State) (d : DieId) (f : Nat → Nat) : KeepsHeat s (setMode s d f) := by
  obtain ⟨w, -, h⟩ := setMode_makes s d f
  exact (setReg s d Reg.RED_MODE fun _ => w).trans (.of_records h)

theorem setBase (s : State) (d : DieId) (m : Nat) : KeepsHeat s (setBase s d m) := by
  unfold Machine.setBase setModeF
  exact .setMode ..

theorem sendBanks (s : State) (d : DieId) (kind : Nat) : KeepsHeat s (sendBanks s d kind) := of_records (.sendBanks ..)

theorem abortRequest (s : State) (d : DieId) : KeepsHeat s (abortRequest s d) := by
  unfold Machine.abortRequest setReqStatus State.setRf
  split
  · exact .setReg ..
  · exact .refl s

theorem logEntry (s : State) (d : DieId) (type : Nat) (payload : List Byte) : KeepsHeat s (logEntry s d type payload) :=
  ⟨⟨fun _ => rfl, rfl⟩, fun e => by cases e <;> rfl⟩

theorem lockClose (s : State) : KeepsHeat s (lockClose s false) := by
  obtain ⟨u, hu, -, hs⟩ := KeepsCore.lockClose s
  refine ⟨.of_links (.lockClose s), fun d => ?_⟩
  obtain ⟨⟨v, -, hcore⟩, -⟩ := hs d
  exact (Die.heat_of_units ((KeepsUnits.of_core hu).die d)).trans (Prod.ext (congrArg Die.life hcore :) (congrArg Die.thm hcore :))

theorem applyInDark (s : State) (d : DieId) : KeepsHeat s (applyInDark s d) := by
  unfold Machine.applyInDark
  split
  · unfold partAtOnce partInForce
    exact (of_units (.deals s d fun _ => ⟨_, _, _, _, rfl⟩) (.onDie ..)).trans (.shadowed _ d fun x => x.heat_setReg ..)
  · exact .refl s

theorem enterDark (s : State) (d : DieId) : KeepsHeat s (enterDark s d) := by
  unfold Machine.enterDark
  extract_lets s1 s2
  have h1 : KeepsHeat s s1 := .applyInDark s d
  have h2 : KeepsHeat s1 s2 := onDie s1 d fun x => x.heat_dealt ..
  exact (h1.trans h2).trans ((setBase ..).trans (.mirrored ..))

/-! ## A class L stop and the decks -/

theorem orderlyStop (s : State) (d : DieId) : KeepsHeat s (orderlyStop s d) := by
  unfold Machine.orderlyStop
  extract_lets s1 cells s2 onPin s3 s4
  have h1 : KeepsHeat s s1 := .stopDealer s d
  have h2 : KeepsHeat s1 s2 := by
    refine (onDie s1 d (f := (·.loopsIdle)) fun _ => rfl).trans (.foldl _ (fun t c => ?_) _ _)
    split
    · exact .refl t
    · exact .holdCell ..
  have h3 : KeepsHeat s2 s3 := by
    refine .foldl _ (fun t c => ?_) _ _
    split
    · exact .beginHandoff ..
    · exact .onElem ..
  have h4 : KeepsHeat s3 s4 := onDie s3 d fun x => x.heat_dealt ..
  exact (((h1.trans h2).trans h3).trans h4).trans (.mirrored ..)

theorem planOverrun (s : State) (d : DieId) : KeepsHeat s (planOverrun s d) := by
  unfold Machine.planOverrun
  split
  · split
    · unfold planAbandon
      extract_lets s1 s2
      have h1 : KeepsHeat s s1 := onDie s d fun _ => rfl
      have h2 : KeepsHeat s1 s2 := (shadowed s1 d fun x => x.heat_setReg ..).trans (.raise ..)
      exact (h1.trans h2).trans ((deckEvent ..).trans (.of_records (.mirrorPlanner ..)))
    · exact .refl s
  · exact .refl s

theorem deckResumed (x : Die) (r : DeckRun) : (deckResume x r).heat = x.heat := by
  unfold deckResume boundAll
  split <;> rfl

theorem deckLevels (s : State) (d : DieId) (was : Die) : KeepsHeat s (deckLevels s d was) := by
  unfold Machine.deckLevels
  extract_lets x s1 s2
  have h1 : KeepsHeat s s1 := by
    unfold s1
    split
    · refine onDie s d fun x => ?_
      split
      · exact deckResumed ..
      · rfl
    · exact .refl s
  split
  · exact .refl s
  · have h2 : KeepsHeat s s2 := h1.trans (.planOverrun ..)
    split
    · exact h2
    · extract_lets say s3 s4 s5
      have hsay (t : State) (on : Bool) (ev k : Nat) : KeepsHeat t (say t on ev k) := by
        unfold say
        split
        · exact .deckEvent ..
        · exact .refl t
      have h5 : KeepsHeat s2 s5 := ((hsay ..).trans (hsay ..)).trans (hsay ..)
      exact (h2.trans h5).trans ((hsay ..).trans (.of_records (.mirrorDecks ..)))

end KeepsHeat

/-! ## A thermal shutdown -/

/-- What readings rest on: the life of a die and its sensor paths. -/
def Die.sensed (x : Die) : Life × Vector SPath 12 := (x.life, x.thm.paths)

theorem Die.sensed_of_heat {x y : Die} (h : y.heat = x.heat) : y.sensed = x.sensed := congrArg (fun q => (q.1, q.2.paths)) h

/-- From s to t the dies keep their lives and sensor paths, and the bank dies their sensors and links. -/
structure KeepsSensed (s t : State) : Prop where
  reach : KeepsReach s t
  die : ∀ d, (t.die d).sensed = (s.die d).sensed

namespace KeepsSensed
variable {s t u : State}

theorem trans (h : KeepsSensed s t) (k : KeepsSensed t u) : KeepsSensed s u := ⟨h.reach.trans k.reach, fun d => (k.die d).trans (h.die d)⟩

theorem of_heat (h : KeepsHeat s t) : KeepsSensed s t := ⟨h.reach, fun d => Die.sensed_of_heat (h.die d)⟩

theorem refl (s : State) : KeepsSensed s s := of_heat (.refl s)

theorem onDie (s : State) (d : DieId) {f : Die → Die} (h : ∀ x, (f x).sensed = x.sensed) : KeepsSensed s (s.onDie d f) :=
  ⟨.onDie .., fun e => die_onDie_keeps Die.sensed h s d e⟩

theorem stopDone (s : State) (classH : Bool) : KeepsSensed s (stopDone s classH) := by
  unfold Machine.stopDone
  extract_lets mark
  have hmark (x : Die) : (mark x).sensed = x.sensed := rfl
  exact (onDie s .cd0 hmark).trans (onDie _ .cd1 hmark)

theorem shutdownEnds (s : State) (d : DieId) (classH : Bool) : KeepsSensed s (shutdownEnds s d classH) :=
  ((of_heat (.sendBanks s d mCut)).trans (.stopDone ..)).trans (.of_heat (.enterDark ..))

theorem shutdownMode (s : State) (by_ : DieId) (h : Shutdown) : KeepsSensed s (shutdownMode s by_ h) := by
  have hlog (d : DieId) : KeepsSensed s (logShutdown s d h) := of_heat (.logEntry ..)
  have htrans (t : State) (d : DieId) (a : Transition) : KeepsHeat t (t.onDie d (fun x => { x with trans := a })) := .onDie t d fun x => x.heat_dealt ..
  unfold Machine.shutdownMode
  split
  · exact (hlog by_).trans (.stopDone ..)
  · rename_i d _
    extract_lets x s0 s1 s2 s3 s4
    have h0 : KeepsSensed s s0 := hlog d
    split
    · have h1 : KeepsHeat s0 s1 := by
        unfold s1
        split
        · exact (htrans s0 d .none).trans ((KeepsHeat.withdrawAll ..).trans (.abortRequest ..))
        · exact .refl s0
      exact h0.trans ((of_heat (h1.trans (.sendBanks ..))).trans (.stopDone ..))
    · have h3 : KeepsHeat s0 s3 := (KeepsHeat.abortRequest s0 d).trans (htrans ..)
      have h4 : KeepsHeat s3 s4 := by
        unfold s4
        split
        · exact (KeepsHeat.lockClose s3).trans (.of_records (.mirrorLock ..))
        · exact .refl s3
      split
      · exact h0.trans ((of_heat ((h3.trans h4).trans (.stopDealer ..))).trans (.shutdownEnds ..))
      · exact h0.trans (of_heat ((h3.trans h4).trans (.orderlyStop ..)))

theorem decideShutdown (s : State) (d : DieId) (sensor : Nat) (reading : Int) : KeepsSensed s (decideShutdown s d sensor reading) := by
  unfold Machine.decideShutdown
  extract_lets x h first s1 s2 early s3
  have h1 : KeepsSensed s s1 := by
    have hcount (y : Die) : (y.count Reg.THM_SHUT_CNT F.THM_SHUT_CNT_COUNT).sensed = y.sensed := Die.sensed_of_heat (y.heat_setReg ..)
    refine (onDie s d fun y => ?_).trans (of_heat (.raise ..))
    exact (hcount _).trans rfl
  have h3 : KeepsHeat s1 s3 := by
    refine (KeepsHeat.sendBanks s1 d mNotice).trans ?_
    unfold s3
    split
    · exact .sendBanks ..
    · exact .refl s2
  split
  · exact (h1.trans (of_heat h3)).trans (.shutdownMode ..)
  · exact h1.trans (of_heat h3)

end KeepsSensed

/-! ## Readings -/

theorem Thermal.failSensor_paths (t : Thermal) (n : Nat) : (t.failSensor n).paths = t.paths := by
  unfold Thermal.failSensor
  extract_lets bad v
  split <;> rfl

theorem Thermal.offsets_paths (t : Thermal) (p : Nat) : (t.offsets p).paths = t.paths := by
  unfold Thermal.offsets
  split
  · split <;> rfl
  · split
    · split <;> rfl
    · rfl

theorem Die.levelled_sensed (x : Die) : x.levelled.sensed = x.sensed := by
  unfold Die.levelled
  split
  split <;> rfl

/-- A path with its reading, all else of what readings rest on as it was. -/
theorem takeReading_keeps (s : State) (d : DieId) (p : Nat) (r : Int) : ∃ w : Die,
    w.sensed = ((s.die d).life, (s.die d).thm.paths.setIfInBounds p (((s.die d).thm.path p).read r)) ∧
      KeepsSensed (s.setDie d w) (takeReading s d p r) := by
  unfold takeReading
  extract_lets x sn pt accepted t0 t1 y z s0 s1
  have ht1 : t1.paths = x.thm.paths.setIfInBounds p pt := (Thermal.offsets_paths ..).trans (Thermal.failSensor_paths ..)
  have hy : y.sensed = (x.life, x.thm.paths.setIfInBounds p pt) := by rw [← ht1]; rfl
  have hz : z.sensed = y.sensed := by
    unfold z
    split <;> rfl
  refine ⟨z.levelled, (z.levelled_sensed.trans hz).trans hy, ?_⟩
  have h0 : KeepsHeat (s.setDie d z.levelled) s0 := by
    unfold s0
    split
    · exact .raise ..
    · exact .refl _
  have h1 : KeepsSensed (s.setDie d z.levelled) s1 := .of_heat (h0.trans (.deckLevels ..))
  split
  · split
    · exact h1.trans (.decideShutdown ..)
    · exact h1
  · exact h1

/-- The sensor path of a die that takes a reading. -/
theorem takeReading_path {s : State} {d : DieId} {p : Nat} (hp : p < 12) (r : Int) :
    ((takeReading s d p r).die d).thm.path p = ((s.die d).thm.path p).read r := by
  obtain ⟨w, hw, hk⟩ := takeReading_keeps s d p r
  have hd : ((takeReading s d p r).die d).sensed = w.sensed := by rw [hk.die d, State.die_setDie_same]
  have hpaths : ((takeReading s d p r).die d).thm.paths = (s.die d).thm.paths.setIfInBounds p (((s.die d).thm.path p).read r) :=
    congrArg Prod.snd (hd.trans hw)
  rw [Thermal.path, hpaths]
  simp [Vector.getD, hp]

theorem takeReading_other {s : State} {d e : DieId} (h : e ≠ d) (p : Nat) (r : Int) : ((takeReading s d p r).die e).sensed = (s.die e).sensed := by
  obtain ⟨w, -, hk⟩ := takeReading_keeps s d p r
  rw [hk.die e, State.die_setDie_other s h]

theorem takeReading_life (s : State) (d e : DieId) (p : Nat) (r : Int) : ((takeReading s d p r).die e).life = (s.die e).life := by
  by_cases h : e = d
  · subst h
    obtain ⟨w, hw, hk⟩ := takeReading_keeps s e p r
    have hd : ((takeReading s e p r).die e).sensed = w.sensed := by rw [hk.die e, State.die_setDie_same]
    exact congrArg Prod.fst (hd.trans hw)
  · exact congrArg Prod.fst (takeReading_other h p r)

theorem takeReading_reach (s : State) (d : DieId) (p : Nat) (r : Int) : KeepsReach s (takeReading s d p r) := by
  obtain ⟨w, -, hk⟩ := takeReading_keeps s d p r
  exact (KeepsReach.setDie s d w).trans hk.reach

theorem pathReaches_congr {s t : State} (hu : ∀ b d, (t.bank b).up d = (s.bank b).up d) (hm : t.mirror = s.mirror) (d : DieId) (p : SensorPath) :
    pathReaches t d p = pathReaches s d p := by
  cases p
  · exact hu ..
  · exact hu ..
  · exact hu ..
  · unfold pathReaches
    rw [hm]

theorem Die.enginesRun_congr {x y : Die} (h : y.life = x.life) : y.enginesRun = x.enginesRun := by unfold Die.enginesRun; rw [h]

/-- A die takes a reading that reaches it. -/
def offerReading (p : SensorPath) (r : Int) (s : State) (d : DieId) : State :=
  if (s.die d).enginesRun && pathReaches s d p then takeReading s d (pathNum p) r else s

/-- What offering a reading to a die makes of its path. -/
structure Offered (p : SensorPath) (r : Int) (s : State) (d : DieId) (t : State) : Prop where
  reach : KeepsReach s t
  life : ∀ e, (t.die e).life = (s.die e).life
  other : ∀ e, e ≠ d → (t.die e).thm.path (pathNum p) = (s.die e).thm.path (pathNum p)
  taken : (s.die d).enginesRun = true → pathReaches s d p = true → (t.die d).thm.path (pathNum p) = ((s.die d).thm.path (pathNum p)).read r
  missed : (s.die d).enginesRun = false ∨ pathReaches s d p = false → (t.die d).thm.path (pathNum p) = (s.die d).thm.path (pathNum p)

theorem pathNum_lt (p : SensorPath) : pathNum p < 12 := by
  cases p with
  | fabricBd0 => decide
  | fabricBd4 => decide
  | bank b =>
    have hb : pathNum (.bank b) = 2 + b.val := rfl
    omega
  | control d => cases d <;> decide

theorem offered (p : SensorPath) (r : Int) (s : State) (d : DieId) : Offered p r s d (offerReading p r s d) := by
  unfold offerReading
  split
  next h =>
    obtain ⟨hrun, hreach⟩ := Bool.and_eq_true_iff.1 h
    refine ⟨takeReading_reach .., fun e => takeReading_life .., fun e he => ?_, fun _ _ => takeReading_path (pathNum_lt p) r, fun hno => ?_⟩
    · have hs := congrArg Prod.snd (takeReading_other he (pathNum p) r (s := s))
      exact congrArg (fun v : Vector SPath 12 => v.getD (pathNum p) ⟨none, 0, false⟩) hs
    · rw [hrun, hreach] at hno
      exact absurd hno (by decide)
  next h =>
    exact ⟨.refl s, fun _ => rfl, fun _ _ => rfl, fun hrun hreach => absurd (Bool.and_eq_true_iff.2 ⟨hrun, hreach⟩) h, fun _ => rfl⟩

/-! ## The bank die that converts a diode -/

theorem Bank.filterTemp_sensed (k : Bank) (b t : Nat) : (k.filterTemp b t).sensed = k.sensed := rfl

/-- The bank die with the reading, before or after its filter runs up to it. -/
theorem bankReads_bank (s : State) (b : Nat) (f : Bank → Bank) :
    ∃ k : Bank, k.sensed = (s.bank b).sensed ∧ ((bankReads s b f).bank b).sensed = (f k).sensed := by
  unfold bankReads
  rw [State.bank_onBank_same]
  split
  · exact ⟨_, Bank.filterTemp_sensed .., rfl⟩
  · exact ⟨_, rfl, Bank.filterTemp_sensed ..⟩

theorem bankReads_up (s : State) (b : Nat) {f : Bank → Bank} (hf : ∀ k d, (f k).up d = k.up d) (c : Nat) (d : DieId) :
    ((bankReads s b f).bank c).up d = (s.bank c).up d := by
  by_cases h : c % 8 = b % 8
  · have hc (v : State) : v.bank c = v.bank b := by simp only [State.bank, h]
    obtain ⟨k, hk, hb⟩ := bankReads_bank s b f
    rw [hc, hc, Bank.up_of_sensed hb, hf, Bank.up_of_sensed hk]
  · unfold bankReads
    rw [State.bank_onBank_other s h]

/-- The bank die that converts a path keeps the reading. -/
def bankTakes (p : SensorPath) (r : Int) (s : State) : State :=
  match p with
  | .fabricBd0 => bankReads s 0 (fun k => { k with fabric := r })
  | .fabricBd4 => bankReads s 4 (fun k => { k with fabric := r })
  | .bank b => bankReads s b.val (fun k => { k with own := r })
  | .control _ => s

theorem bankTakes_die (p : SensorPath) (r : Int) (s : State) (d : DieId) : (bankTakes p r s).die d = s.die d := by
  cases p
  · exact State.die_onBank ..
  · exact State.die_onBank ..
  · exact State.die_onBank ..
  · rfl

theorem bankTakes_up (p : SensorPath) (r : Int) (s : State) (b : Nat) (d : DieId) : ((bankTakes p r s).bank b).up d = (s.bank b).up d := by
  cases p
  · exact bankReads_up s 0 (fun k d => by cases d <;> rfl) b d
  · exact bankReads_up s 4 (fun k d => by cases d <;> rfl) b d
  · exact bankReads_up s _ (fun k d => by cases d <;> rfl) b d
  · rfl

theorem bankTakes_mirror (p : SensorPath) (r : Int) (s : State) : (bankTakes p r s).mirror = s.mirror := by
  cases p <;> rfl

theorem bankTakes_own (b : Fin 8) (r : Int) (s : State) : ((bankTakes (.bank b) r s).bank b).own = r := by
  obtain ⟨k, -, hb⟩ := bankReads_bank s b.val (fun k => { k with own := r })
  exact congrArg Prod.fst hb

theorem sensorReading_eq (p : SensorPath) (r : Int) (s : State) :
    sensorReading p r s = offerReading p r (offerReading p r (bankTakes p r s) .cd0) .cd1 := by
  cases p <;> rfl

/-- Each die that a reading reaches takes it, whichever takes it first. -/
theorem sensorReading_paths (p : SensorPath) (r : Int) (s : State) (d : DieId) :
    ((s.die d).enginesRun = true → pathReaches s d p = true →
      ((sensorReading p r s).die d).thm.path (pathNum p) = ((s.die d).thm.path (pathNum p)).read r) ∧
    ((s.die d).enginesRun = false ∨ pathReaches s d p = false →
      ((sensorReading p r s).die d).thm.path (pathNum p) = (s.die d).thm.path (pathNum p)) := by
  let u := bankTakes p r s
  have h0 : Offered p r u .cd0 (offerReading p r u .cd0) := offered ..
  have h1 : Offered p r (offerReading p r u .cd0) .cd1 (sensorReading p r s) := by
    rw [sensorReading_eq]
    exact offered ..
  have hu (e : DieId) : u.die e = s.die e := bankTakes_die p r s e
  have hreach (e : DieId) : pathReaches u e p = pathReaches s e p := pathReaches_congr (bankTakes_up p r s) (bankTakes_mirror p r s) e p
  cases d with
  | cd0 =>
    have hlast := h1.other .cd0 (by decide)
    rw [hlast, ← hu, ← hreach]
    exact ⟨h0.taken, h0.missed⟩
  | cd1 =>
    have hfirst := h0.other .cd1 (by decide)
    have hrun : ((offerReading p r u .cd0).die .cd1).enginesRun = (u.die .cd1).enginesRun := Die.enginesRun_congr (h0.life .cd1)
    have hpath : pathReaches (offerReading p r u .cd0) .cd1 p = pathReaches u .cd1 p := pathReaches_congr (fun b e => h0.reach.up b e) h0.reach.mirror ..
    rw [← hu, ← hreach, ← hfirst, ← hrun, ← hpath]
    exact ⟨h1.taken, h1.missed⟩

theorem sensorReading_own (b : Fin 8) (r : Int) (s : State) : ((sensorReading (.bank b) r s).bank b).own = r := by
  rw [sensorReading_eq]
  have h : KeepsReach (bankTakes (.bank b) r s) (offerReading (.bank b) r (offerReading (.bank b) r (bankTakes (.bank b) r s) .cd0) .cd1) :=
    (offered ..).reach.trans (offered ..).reach
  exact (congrArg Prod.fst (h.bank b)).trans (bankTakes_own b r s)

/-! ## The class L stop that takes too long -/

theorem stopDone_shutdown (s : State) (classH : Bool) (e : DieId) : ((stopDone s classH).die e).thm.shutdown =
    (s.die e).thm.shutdown.map (fun h => { h with done := true, classH := h.classH || classH }) := by
  cases e <;> rfl

/-- The Declarer's stop that is overdue is cut: every shutdown is done as class H. -/
theorem shutdownEnds_done {s : State} {e : DieId} {h : Shutdown} (he : (s.die e).thm.shutdown = some h) (d : DieId) :
    ∃ g, ((shutdownEnds s d true).die e).thm.shutdown = some g ∧ g.done = true ∧ g.classH = true := by
  have hcut : ((sendBanks s d mCut).die e).thm = (s.die e).thm := congrArg Prod.snd ((KeepsHeat.sendBanks s d mCut).die e)
  have hdark : ((shutdownEnds s d true).die e).thm = ((stopDone (sendBanks s d mCut) true).die e).thm :=
    congrArg Prod.snd ((KeepsHeat.enterDark (stopDone (sendBanks s d mCut) true) d).die e)
  refine ⟨{ h with done := true, classH := h.classH || true }, ?_, rfl, Bool.or_true _⟩
  rw [hdark, stopDone_shutdown, hcut, he]
  rfl

theorem classLTimeout_none {s : State} (h : stopOverdue s = none) : classLTimeout s = s := by
  unfold classLTimeout
  rw [h]

theorem classLTimeout_early {s : State} {d : DieId} (h : stopOverdue s = some d) (hd : s.declarer ≠ some d ∨ stopsFrom (s.die d).base = false) :
    classLTimeout s = stopDone (sendBanks s d mCut) true := by
  unfold classLTimeout
  rw [h]
  by_cases hn : s.declarer = some d
  · have hs : stopsFrom (s.die d).base = false := hd.resolve_left (fun c => c hn)
    exact (if_neg (fun c => c hn)).trans (if_pos (by rw [hs]; rfl))
  · exact if_pos hn

theorem classLTimeout_cut {s : State} {d : DieId} (h : stopOverdue s = some d) (hd : s.declarer = some d) (hs : stopsFrom (s.die d).base = true) :
    classLTimeout s = shutdownEnds (withdrawAll (s.onDie d (fun x => { x with trans := .none })) d true) d true := by
  unfold classLTimeout
  rw [h]
  exact (if_neg (fun c => c hd)).trans (if_neg (by rw [hs]; decide))

theorem classLStopTimeout_answers {s : State} {d : DieId} (h : stopOverdue s = some d) (hd : s.declarer = some d)
    (hs : stopsFrom (s.die d).base = true) : Answers .classLStopTimeout s (fun t => (t.die d).base = mDark ∧ (t.die d).trans = .none ∧
      ∀ e h, (s.die e).thm.shutdown = some h → ∃ g, (t.die e).thm.shutdown = some g ∧ g.done = true ∧ g.classH = true) := by
  let w := withdrawAll (s.onDie d (fun x => { x with trans := .none })) d true
  have hw : KeepsHeat s w := (KeepsHeat.onDie s d fun x => x.heat_dealt ..).trans (.withdrawAll ..)
  obtain ⟨htrans, hbase⟩ := enterDark_dark (stopDone (sendBanks w d mCut) true) d
  refine .of_done (congrArg done (classLTimeout_cut h hd hs)) fun t ht => ⟨(ht.base d).trans hbase, ?_, fun e k hk => ?_⟩
  · exact (ht.die_eq d (·.trans) fun _ => rfl).trans htrans
  · have hthm : (w.die e).thm = (s.die e).thm := congrArg Prod.snd (hw.die e)
    rw [ht.die_thm]
    exact shutdownEnds_done (s := w) (by rw [hthm, hk]) d

/-! ## The release -/

section Release
variable {d : DieId} {s : State}

/-- The stop of a shutdown still runs. -/
def stopRuns (s : State) : Bool := match s.declarer with | some e => decide ((s.die e).trans = .shutdown) | none => false

theorem stopRuns_iff : stopRuns s = true ↔ ∃ e, s.declarer = some e ∧ (s.die e).trans = .shutdown := by
  unfold stopRuns
  split
  next e he => simp [he]
  next he => simp [he]

theorem thmRelease_none (h : s.cd0.thm.shutdown = none ∧ s.cd1.thm.shutdown = none) : thmRelease d s = s := by
  unfold thmRelease
  exact if_pos (by rw [h.1, h.2]; simp)

/-- Some shutdown is held, and the die runs. -/
theorem thmRelease_held (hr : (s.die d).running = true) (hs : s.cd0.thm.shutdown.isSome = true ∨ s.cd1.thm.shutdown.isSome = true) :
    ¬ (!(s.die d).running || (s.cd0.thm.shutdown.isNone && s.cd1.thm.shutdown.isNone)) = true := by
  rcases hs with h | h
  · simp [hr, ← Option.not_isSome, h]
  · simp [hr, ← Option.not_isSome, h]

theorem thmRelease_refused (hr : (s.die d).running = true) (hs : s.cd0.thm.shutdown.isSome = true ∨ s.cd1.thm.shutdown.isSome = true)
    (h : coolEnough (s.die d) = false ∨ stopRuns s = true) : thmRelease d s = s.setEvent d Reg.THM_STATUS F.THM_STATUS_REL_REFUSED := by
  unfold thmRelease
  refine (if_neg (thmRelease_held hr hs)).trans (if_pos ?_)
  rcases h with h | h
  · rw [h]; rfl
  · exact Bool.or_eq_true_iff.2 (.inr h)

/-- A die whose shutdown is released. -/
def Die.released (y : Die) : Die :=
  let z : Die := match y.thm.shutdown with | some h => y.setRf Reg.THM_STATUS F.THM_STATUS_SHUT_H (b2n h.classH) | none => y
  { z with thm := { z.thm with shutdown := none } }

/-- A bank die that its holder reaches drives again. -/
def Bank.released (k : Bank) : Bank :=
  if (match k.holder with | some p => k.up p | none => false) then { k with notice := none, cut := false } else k

/-- The loops of a die go to their feed-forward values. -/
def warmLoops (s : State) (e : DieId) : State :=
  if !(s.die e).isDecl && !(s.die e).isDummy then s
  else ((List.range 5888).filter (fun c => decide (((s.die e).elem c).mode = 0))).foldl (fun s c =>
    rampToFf (s.onDie e (·.onElem c (fun el => { el with int := .zero, prop := .zero }))) e c) s

/-- The dies and bank dies of a released shutdown, before the loops move. -/
def releasedState (s : State) : State :=
  (List.range 8).foldl (fun s b => s.onBank b Bank.released) ((s.onDie .cd0 Die.released).onDie .cd1 Die.released)

theorem thmRelease_released (hr : (s.die d).running = true) (hs : s.cd0.thm.shutdown.isSome = true ∨ s.cd1.thm.shutdown.isSome = true)
    (hc : coolEnough (s.die d) = true) (h : stopRuns s = false) : thmRelease d s = warmLoops (warmLoops (releasedState s) .cd0) .cd1 := by
  unfold thmRelease
  refine (if_neg (thmRelease_held hr hs)).trans ((if_neg ?_).trans ?_)
  · rw [hc]
    exact fun c => Bool.false_ne_true (h.symm.trans c)
  · rfl

theorem warmLoops_keeps (s : State) (e : DieId) : KeepsHeat s (warmLoops s e) ∧ (warmLoops s e).banks = s.banks := by
  unfold warmLoops
  split
  · exact ⟨.refl s, rfl⟩
  · have hramp (t : State) (c : Nat) : KeepsHeat t (rampToFf t e c) ∧ KeepsLinks t (rampToFf t e c) := by
      unfold rampToFf startRamp
      exact ⟨.onElem .., .onDie ..⟩
    refine ⟨.foldl _ (fun t c => (KeepsHeat.onElem t e c _).trans (hramp ..).1) _ s, ?_⟩
    exact (KeepsLinks.foldl _ (fun t c => (KeepsLinks.onDie t e _).trans (hramp ..).2) _ s).banks

theorem releasedState_shutdown (s : State) (e : DieId) : ((releasedState s).die e).thm.shutdown = none := by
  obtain ⟨v, hv⟩ := foldl_onBank_eq (fun _ => Bank.released) (List.range 8) ((s.onDie .cd0 Die.released).onDie .cd1 Die.released)
  unfold releasedState
  rw [hv]
  cases e <;> rfl

theorem releasedState_bank (s : State) (b : Fin 8) : (releasedState s).bank b = (s.bank b).released := by
  unfold releasedState
  rw [bank_foldl_onBank (fun _ => Bank.released) List.nodup_range (fun i hi => List.mem_range.1 hi) _ b.isLt, if_pos (List.mem_range.2 b.isLt),
    State.bank_onDie, State.bank_onDie]

theorem thmRelease_answers (hb : (s.die d).barOpen = true) (hs : s.cd0.thm.shutdown.isSome = true ∨ s.cd1.thm.shutdown.isSome = true)
    (hc : coolEnough (s.die d) = true) (h : stopRuns s = false) : Answers (.thmRelease d) s (fun t =>
      t.cd0.thm.shutdown = none ∧ t.cd1.thm.shutdown = none ∧
      ∀ b : Fin 8, ∀ h, (s.bank b).holder = some h → (s.bank b).up h = true → (t.bank b).cut = false ∧ (t.bank b).notice = none) := by
  have hrow := thmRelease_released (Die.running_of_barOpen hb) hs hc h
  obtain ⟨h0, hb0⟩ := warmLoops_keeps (releasedState s) .cd0
  obtain ⟨h1, hb1⟩ := warmLoops_keeps (warmLoops (releasedState s) .cd0) .cd1
  refine .of_done ((exec_of_doneBar (f := thmRelease d) hb rfl).trans (congrArg done hrow)) fun t ht => ?_
  have hnone (e : DieId) : (t.die e).thm.shutdown = none := by
    have hthm : ((warmLoops (warmLoops (releasedState s) .cd0) .cd1).die e).thm = ((releasedState s).die e).thm :=
      congrArg Prod.snd ((h0.trans h1).die e)
    rw [ht.die_thm, hthm, releasedState_shutdown]
  refine ⟨hnone .cd0, hnone .cd1, fun b p hp hup => ?_⟩
  have hbank : t.bank b = (s.bank b).released := by
    rw [← releasedState_bank]
    unfold State.bank
    rw [ht.banks, hb1, hb0]
  have hreach : (match (s.bank b).holder with | some p => (s.bank b).up p | none => false) = true := by rw [hp]; exact hup
  rw [hbank, Bank.released, if_pos hreach]
  exact ⟨rfl, rfl⟩

end Release

theorem Die.enginesRun_of_running {x : Die} (h : x.running = true) : x.enginesRun = true := by
  unfold Die.running at h
  unfold Die.enginesRun
  split
  next hl => rw [hl] at h; exact h
  next => rfl

/-- The estimate of a die whose engines run. -/
theorem powerEstimate_eq {d : DieId} {s : State} (h : (s.die d).enginesRun = true) : powerEstimate d s =
    let x := s.die d; let w := heaterWatts s; let lit := litCount x.dealer.hand
    let above := !x.thm.classH && (decide (12 < w) || decide (256 < lit))
    let n := if above then x.thm.above + 1 else 0
    let m := if above then 0 else x.thm.within + 1
    s.setDie d { x with thm := { x.thm with power := min 65535 (w * 100).floor.toNat, lit := lit, above := n, within := m,
                                            budget := if x.thm.budget then decide (m < 100) else decide (100 ≤ n) } } := by
  unfold powerEstimate
  exact if_neg (by rw [h]; decide)

/-- Settles O42: a reading by what a thermal manager's work leaves of lives, paths and links, the other rows by their cases. -/
theorem thermalManager : Obligations.ThermalManager := by
  unfold Obligations.ThermalManager
  refine ⟨fun p r s => ?_, fun s => ⟨fun h => ?_, fun d h => ⟨fun hd => ?_, fun hd hs => classLStopTimeout_answers h hd hs⟩⟩, fun d s => ?_⟩
  · refine .of_done (u := sensorReading p r s) rfl fun t ht => ⟨fun d hrun hreach => ?_, fun d h => ?_, fun b hb => ?_⟩
    · rw [ht.die_thm]
      exact (sensorReading_paths p r s d).1 hrun hreach
    · rw [ht.die_thm]
      exact (sensorReading_paths p r s d).2 h
    · subst hb
      rw [ht.bank]
      exact sensorReading_own b r s
  · exact .of_row (f := classLTimeout) rfl (classLTimeout_none h)
  · exact .of_row (f := classLTimeout) rfl (classLTimeout_early h hd)
  · intro x
    refine ⟨fun h => ?_, fun hb hs => ⟨fun h => ?_, fun hc h => thmRelease_answers hb hs hc ?_⟩, fun h => ?_, fun h => ?_⟩
    · by_cases hb : x.barOpen = true
      · refine .of_done ((exec_of_doneBar (f := thmRelease d) hb rfl).trans (congrArg done (thmRelease_none (h.resolve_left ?_))))
        rw [hb]
        decide
      · exact .of_doneBar_shut (f := thmRelease d) (Bool.eq_false_iff.2 hb) rfl
    · exact .of_done ((exec_of_doneBar (f := thmRelease d) hb rfl).trans
        (congrArg done (thmRelease_refused (Die.running_of_barOpen hb) hs (h.imp_right stopRuns_iff.2))))
    · exact Bool.eq_false_iff.2 fun c => by
        obtain ⟨e, he, ht⟩ := stopRuns_iff.1 c
        exact h e he ht
    · exact .of_done (congrArg done (if_neg (by rw [show (s.die d).running = false from h]; decide)))
    · intro w lit above n m
      have hmade : Makes (.heaterPowerEstimate d) s (powerEstimate d s) := .of_doneUp h rfl
      rwa [powerEstimate_eq (Die.enginesRun_of_running h)] at hmade

end Sys2Proof.Machine
end
